-- ==== Sys2Proof/Word.lean ====
section
/-!
DEFINITION. The plain words of the model: bytes, numbers of sites, cores and links, and the one
sparse map in canonical form that holds memory, registers and every other keyed piece of state.
-/

namespace Sys2Proof

/-- One byte. -/
abbrev Byte := BitVec 8
/-- A 40-bit control-space address (R9). -/
abbrev CtrlAddr := BitVec 40
/-- A 64-bit global address (R23). -/
abbrev Global := BitVec 64
/-- Site S0-S31 (R5). -/
abbrev Site := Fin 32
/-- Compute stack S0-S7 (R5). -/
abbrev Stack := Fin 8
/-- Matrix core `c = 8k + j` of a compute stack (R84). -/
abbrev Core := Fin 96
/-- Bridge index: bridge `b` is site S(8 + b) (R5). -/
abbrev Bridge := Fin 12
/-- Link engine index: engine `e` is site S(20 + e) (R5). -/
abbrev Engine := Fin 8
/-- Local link of an engine, 0-9 (R232). -/
abbrev LocalLink := Fin 10
/-- Base field F0-F11 (R12). -/
abbrev Field := Fin 12
/-- Host core `h = 8s + j` of the module (R279). -/
abbrev Host64 := Fin 64
/-- Context CTX0-CTX255 (R434). -/
abbrev Ctx := BitVec 8

/-- The site number of a bridge. -/
def bridgeSite (b : Bridge) : Nat := 8 + b.val
/-- The site number of a link engine. -/
def engineSite (e : Engine) : Nat := 20 + e.val

/-- A sparse map from numbers: `(key, value)` pairs. Its canonical form (`SMap.wf`) has strictly
rising keys and lists no entry equal to the value an unlisted key reads as. -/
abbrev SMap (α : Type) := List (Nat × α)

namespace SMap

/-- The value at a key; an unlisted key reads as `d`. -/
def get {α : Type} (d : α) : SMap α → Nat → α
  | [], _ => d
  | (k, v) :: m, i => if i = k then v else get d m i

/-- Put `v` at key `i` in a list with rising keys, whatever `v` is. -/
def put {α : Type} (i : Nat) (v : α) : SMap α → SMap α
  | [] => [(i, v)]
  | (k, w) :: m => if i < k then (i, v) :: (k, w) :: m
                   else if i = k then (i, v) :: m
                   else (k, w) :: put i v m

/-- Remove key `i`. -/
def del {α : Type} (i : Nat) : SMap α → SMap α
  | [] => []
  | (k, w) :: m => if i = k then del i m else (k, w) :: del i m

/-- Write `v` at key `i`, keeping the canonical form: the unlisted value removes the entry. -/
def set {α : Type} [DecidableEq α] (d : α) (m : SMap α) (i : Nat) (v : α) : SMap α :=
  if v = d then del i m else put i v m

/-- Every key of the map lies above `b`. -/
def above {α : Type} (b : Nat) : SMap α → Bool
  | [] => true
  | (k, _) :: m => decide (b < k) && above b m

/-- The canonical form: keys strictly rising, no entry equal to what an unlisted key reads as
(`d k` at key `k`). -/
def wf {α : Type} [DecidableEq α] (d : Nat → α) : SMap α → Bool
  | [] => true
  | (k, v) :: m => above k m && decide (v ≠ d k) && wf d m

/-- Write consecutive keys from `i`. -/
def setMany {α : Type} [DecidableEq α] (d : α) (m : SMap α) (i : Nat) : List α → SMap α
  | [] => m
  | v :: vs => setMany d (set d m i v) (i + 1) vs

/-- Read `n` consecutive keys from `i`. -/
def getMany {α : Type} (d : α) (m : SMap α) (i : Nat) : Nat → List α
  | 0 => []
  | n + 1 => get d m i :: getMany d m (i + 1) n

/-- Remove every key in `[lo, hi)`, so those keys read as the unlisted value. -/
def clearRange {α : Type} (m : SMap α) (lo hi : Nat) : SMap α :=
  m.filter fun kv => decide (kv.1 < lo) || decide (hi ≤ kv.1)

end SMap

end Sys2Proof
end

