-- ==== Sys2Proof/Packet.lean ====
section
/-!
DEFINITION. What crosses a hop: the packet of R204 and R205 with its CRC-32C (R208), the sync frame of
R198, the hop a packet arrives by, and the check-value polynomials of R465.
-/

namespace Sys2Proof

/-- A packet: the header fields of R205, the payload, and the trailer (R208). `rsv` gathers the
header's reserved bits and `pad` the trailer bytes 4-7. -/
structure Packet where
  op : BitVec 8
  vc : BitVec 3
  last : Bool
  mcast : Bool
  commit : Bool
  dual : Bool
  spec : Bool
  ctx : BitVec 8
  dstPkg : BitVec 16
  dstSite : Site
  srcPkg : BitVec 16
  srcSite : Site
  addr : BitVec 43
  len : BitVec 13
  tag : BitVec 12
  gen : BitVec 4
  bell : BitVec 8
  fmt : BitVec 4
  red : BitVec 4
  epoch : BitVec 4
  padEl : BitVec 4
  step : BitVec 32
  mask : BitVec 32
  rsv : BitVec 30
  payload : List Byte
  crc : BitVec 32
  pad : BitVec 32
  deriving DecidableEq, Repr

/-- One bit as a number. -/
def bit (b : Bool) : Nat := if b then 1 else 0

/-- The bytes of a number, little-endian (R3). -/
def leBytes (n : Nat) (x : Nat) : List Byte :=
  (List.range n).map fun i => BitVec.ofNat 8 (x / 2 ^ (8 * i))

/-- The number of a little-endian list of bytes (R3). -/
def leNat : List Byte → Nat
  | [] => 0
  | b :: bs => b.toNat + 256 * leNat bs

/-- The reserved bits of the header in their places (R205), lowest first in `rsv`. -/
def Packet.rsvNat (p : Packet) : Nat :=
  let r := p.rsv.toNat
  r % 2 ^ 8 * 2 ^ 24 + r / 2 ^ 8 % 2 ^ 3 * 2 ^ 53 + r / 2 ^ 11 % 2 ^ 3 * 2 ^ 77 + r / 2 ^ 14 % 2 ^ 5 * 2 ^ 123
  + r / 2 ^ 19 % 2 ^ 3 * 2 ^ 141 + r / 2 ^ 22 * 2 ^ 184

/-- The header as a 256-bit number (R205), with FLAGS.DUAL as `d`. -/
def Packet.headerNat (p : Packet) (d : Bool) : Nat :=
  p.op.toNat + p.vc.toNat * 2 ^ 8
  + (bit p.last + 2 * bit p.mcast + 4 * bit p.commit + 8 * bit d + 16 * bit p.spec) * 2 ^ 11
  + p.ctx.toNat * 2 ^ 16 + p.dstPkg.toNat * 2 ^ 32 + p.dstSite.val * 2 ^ 48
  + p.srcPkg.toNat * 2 ^ 56 + p.srcSite.val * 2 ^ 72 + p.addr.toNat * 2 ^ 80
  + p.len.toNat * 2 ^ 128 + p.tag.toNat * 2 ^ 144 + p.gen.toNat * 2 ^ 156
  + p.bell.toNat * 2 ^ 160 + p.fmt.toNat * 2 ^ 168 + p.red.toNat * 2 ^ 172
  + p.epoch.toNat * 2 ^ 176 + p.padEl.toNat * 2 ^ 180 + p.step.toNat * 2 ^ 192
  + p.mask.toNat * 2 ^ 224 + p.rsvNat

/-- The 32 header bytes, lowest first (R205). -/
def Packet.header (p : Packet) : List Byte := leBytes 32 (p.headerNat p.dual)

/-- A polynomial of R465: width, polynomial (reflected if `refl`), initial value, final XOR. -/
structure CrcPoly where
  width : Nat
  poly : Nat
  init : Nat
  refl : Bool
  xorOut : Nat
  deriving DecidableEq, Repr

/-- SEL 0, CRC-32C, with the polynomial 0x1EDC_6F41 reflected (R208, R465). -/
def crc32c : CrcPoly := ⟨32, 0x82F63B78, 0xFFFFFFFF, true, 0xFFFFFFFF⟩
/-- SEL 1, CRC-32 of IEEE 802.3, polynomial 0x04C1_1DB7 reflected (R465). -/
def crc32 : CrcPoly := ⟨32, 0xEDB88320, 0xFFFFFFFF, true, 0xFFFFFFFF⟩
/-- SEL 2, CRC-64 ECMA-182 (R465). -/
def crc64 : CrcPoly := ⟨64, 0x42F0E1EBA9EA3693, 0, false, 0⟩
/-- SEL 3, CRC-16 CCITT (R198, R465). -/
def crc16 : CrcPoly := ⟨16, 0x1021, 0xFFFF, false, 0⟩

/-- The polynomial of a SEL code (R465). -/
def crcSel (sel : Nat) : CrcPoly :=
  if sel = 0 then crc32c else if sel = 1 then crc32 else if sel = 2 then crc64 else crc16

/-- Shift a CRC register `n` bits. -/
def CrcPoly.shift (c : CrcPoly) : Nat → Nat → Nat
  | 0, x => x
  | n + 1, x =>
    let y := if c.refl then (if x % 2 = 1 then (x / 2) ^^^ c.poly else x / 2)
      else (if x / 2 ^ (c.width - 1) % 2 = 1 then ((2 * x) % 2 ^ c.width) ^^^ c.poly
            else (2 * x) % 2 ^ c.width)
    c.shift n y

/-- Bring one byte into a CRC register. -/
def CrcPoly.byte (c : CrcPoly) (x : Nat) (b : Byte) : Nat :=
  c.shift 8 (if c.refl then x ^^^ b.toNat else x ^^^ (b.toNat * 2 ^ (c.width - 8)))

/-- The CRC of a list of bytes. -/
def CrcPoly.calc (c : CrcPoly) (bs : List Byte) : Nat := (bs.foldl c.byte c.init) ^^^ c.xorOut

/-- The CRC of a packet: over header and payload, FLAGS.DUAL taken as 0 (R208). -/
def Packet.calcCrc (p : Packet) : BitVec 32 :=
  BitVec.ofNat 32 (crc32c.calc (leBytes 32 (p.headerNat false) ++ p.payload))

/-- The packet with its CRC, as an issuing gateway forms it (R208). -/
def Packet.sealed (p : Packet) : Packet := { p with crc := p.calcCrc }

/-- A packet with every field 0, from which the device's own packets are formed. -/
def Packet.zero : Packet :=
  { op := 0, vc := 0, last := false, mcast := false, commit := false, dual := false, spec := false,
    ctx := 0, dstPkg := 0, dstSite := 0, srcPkg := 0, srcSite := 0, addr := 0, len := 0, tag := 0,
    gen := 0, bell := 0, fmt := 0, red := 0, epoch := 0, padEl := 0, step := 0, mask := 0, rsv := 0,
    payload := [], crc := 0, pad := 0 }

/-- ISSUER of a packet: STEP[6:0], or ADDR[37:31] in REDUCE packets (R207). -/
def Packet.issuer (p : Packet) : Nat :=
  if p.op = 0x10 ∨ p.op = 0x11 ∨ p.op = 0x12 then p.addr.toNat / 2 ^ 31 % 128
  else p.step.toNat % 128

/-- STATUS of a packet: STEP[15:8] (R207). -/
def Packet.status (p : Packet) : Nat := p.step.toNat / 256 % 256

/-- Bytes on a pair stream (R204). -/
def Packet.bytes (p : Packet) : Nat := 40 + p.payload.length

/-- Credit units: LEN ÷ 32 + 2 of the payload carried (R204). -/
def Packet.units (p : Packet) : Nat := p.payload.length / 32 + 2

/-- A codeword that a hop received (R219, R235): its symbol errors, and the stream position of its first granule, none
for a control or an idle codeword. -/
structure Codeword where
  errs : Nat
  pos : Option (BitVec 24)
  deriving DecidableEq, Repr

/-- The hop a packet arrives by: a base pair from a site, or an external link of this engine. -/
inductive Hop where
  | base (peer : Site)
  | link (l : LocalLink)
  deriving DecidableEq, Repr

/-- The fields of a control codeword of a pair (R220). -/
structure PairWord where
  version : Nat
  resend : Option Nat
  nak : Bool
  ack : Nat
  deriving DecidableEq, Repr

/-- TYPE of a control codeword (R219, R235). -/
def ctrlType : Nat := 0x35A

/-- Bits `[hi:lo]` of a codeword. -/
def bitsOf (n hi lo : Nat) : Nat := n / 2 ^ lo % 2 ^ (hi + 1 - lo)

/-- The data bits of a control codeword of a pair (R220). -/
def PairWord.bits (w : PairWord) : Nat :=
  w.version % 2 ^ 4 * 2 ^ 62 + (w.resend.getD 0 % 2 ^ 24) * 2 ^ 38 + (if w.resend.isSome then 2 ^ 37 else 0) +
  (if w.nak then 2 ^ 36 else 0) + w.ack % 2 ^ 24 * 2 ^ 12 + ctrlType

/-- The control codeword of a pair that data bits hold, by its TYPE (R220). -/
def pairWordOf (n : Nat) : Option PairWord :=
  if bitsOf n 9 0 ≠ ctrlType then none
  else some ⟨bitsOf n 65 62, if bitsOf n 37 37 = 1 then some (bitsOf n 61 38) else none, decide (bitsOf n 36 36 = 1),
    bitsOf n 35 12⟩

/-- The fields of a link control codeword (R237). -/
structure LinkWord where
  out : Bool
  rxPower : Nat
  slot : Nat
  stamp : Nat
  version : Nat
  resend : Option Nat
  nak : Bool
  ack : Nat
  deriving DecidableEq, Repr

/-- The data bits of a link control codeword (R237). -/
def LinkWord.bits (w : LinkWord) : Nat :=
  (if w.out then 2 ^ 152 else 0) + w.rxPower % 2 ^ 16 * 2 ^ 136 + w.slot % 2 ^ 8 * 2 ^ 128 +
  w.stamp % 2 ^ 64 * 2 ^ 64 + w.version % 2 ^ 4 * 2 ^ 60 + (w.resend.getD 0 % 2 ^ 24) * 2 ^ 36 +
  (if w.resend.isSome then 2 ^ 35 else 0) + (if w.nak then 2 ^ 34 else 0) + w.ack % 2 ^ 24 * 2 ^ 10 + ctrlType

/-- The link control codeword that data bits hold, by its TYPE (R237). -/
def linkWordOf (n : Nat) : Option LinkWord :=
  if bitsOf n 9 0 ≠ ctrlType then none
  else some ⟨decide (bitsOf n 152 152 = 1), bitsOf n 151 136, bitsOf n 135 128, bitsOf n 127 64, bitsOf n 63 60,
    if bitsOf n 35 35 = 1 then some (bitsOf n 59 36) else none, decide (bitsOf n 34 34 = 1), bitsOf n 33 10⟩

/-- A packet arriving at a site, with the codewords that its hop received since the arrival before. -/
structure Arrival where
  pkt : Packet
  hop : Hop
  codes : List Codeword
  deriving DecidableEq, Repr

/-- Sync frame types of R200. -/
inductive FrameType where
  | bell | vote | late | clear | replay | extend | close | hold | resume | settle | announce
  deriving DecidableEq, Repr

/-- TYPE code of a sync frame (R200). -/
def FrameType.code : FrameType → Nat
  | .bell => 0x10 | .vote => 0x20 | .late => 0x21 | .clear => 0x31 | .replay => 0x32
  | .extend => 0x33 | .close => 0x34 | .hold => 0x35 | .resume => 0x36 | .settle => 0x37
  | .announce => 0x40

/-- A sync frame (R198) without the CRC. -/
structure Frame where
  type : FrameType
  seq : Nat
  bell : Nat
  arg : Nat
  deriving DecidableEq, Repr

/-- The 144 bits of a frame, CRC-16 over bits [143:16], most significant byte first (R198). -/
def Frame.bits (f : Frame) : Nat :=
  let body := f.type.code * 2 ^ 120 + f.seq % 16 * 2 ^ 116 + f.bell % 2 ^ 48 * 2 ^ 64 + f.arg % 2 ^ 64
  let bytes := (leBytes 16 body).reverse
  body * 2 ^ 16 + crc16.calc bytes

/-- How the two copies of a frame arrived (R199). -/
inductive Rx where
  | both | oneBad | lost
  deriving DecidableEq, Repr

/-- A check on a byte that failed: parity, parity of a compute-to-cache bond column (u = 0-63 the ports,
64-79 the gateway channels, R424, R426), or the severity of an HBM3E read (R173). -/
inductive Flaw where
  | parity | bond (u : Fin 80) (col : Fin 36) | corrected | uncorrectable
  deriving DecidableEq, Repr

/-- The flaws an access meets, at site-local offsets of the site that reads. -/
abbrev Flaws := List (Nat × Flaw)

/-- What a write meets at its memory port (R69, R154): nothing, an earlier pending write to the same
granule with its issuer, or a port A write of the same core-store row. -/
inductive Meet where
  | alone
  | kept (pkg : BitVec 16) (site : Site) (issuer : BitVec 7)
  | portA
  deriving DecidableEq, Repr

/-- What the granules of a write meet, by the site-local offset of a byte in the granule. -/
abbrev Meets := List (Nat × Meet)

/-- Requesters of control-space accesses (R8). -/
inductive Requester where
  | mc
  | host (h : Host64)
  | port
  | sideband
  deriving DecidableEq, Repr

/-- A requester's number: the key of its latches. -/
def Requester.num : Requester → Nat
  | .mc => 0
  | .port => 1
  | .sideband => 2
  | .host h => 3 + h.val

end Sys2Proof
end

