-- ==== Sys2Proof/Syntax.lean ====
section
/-!
DEFINITION. The commands of the block: one constructor per row of spec/opcode_table.json. The table
gives no operands and no bits; the operands are what the row's rule says the event carries (log 2).
-/

namespace Sys2Proof

/-- What a link's handshake reports (R243, R244): the peer's package, link number and generation, whether it
is a ZX-5000, the system digest, the measured fibre in metres, the link delay in ns and the return path. -/
structure Handshake where
  pkg : BitVec 16
  link : BitVec 7
  zx5000 : Bool
  digest : List Byte
  fibre : BitVec 16
  delay : BitVec 32
  path : BitVec 16
  deriving DecidableEq, Repr

/-- What a load finds in the host core's own arrays (R285): nothing wrong, a clean cache line that is
refetched, or state that only the core holds. -/
inductive HostParity where
  | good | clean | dirty
  deriving DecidableEq, Repr

/-- How a descriptor is issued (R416, R417): its fetch and the state it uses are good; a scoreboard token, the sequencer's
state or a tag table fails parity as it is used; the descriptor fails parity at its fetch. -/
inductive Fetch where
  | good | stale | bad
  deriving DecidableEq, Repr

/-- How a host core's store runs: what its arrays hold wrong (R285), and what its granules meet at the memory port of its own
site (R69, R154). -/
structure HostStoreHow where
  parity : HostParity
  mets : Meets
  deriving DecidableEq, Repr

/-- The AMOs of the A extension but amoadd and amocas (R279, R283). -/
inductive AmoFn where
  | swap | xor | or | and | min | max | minu | maxu
  deriving DecidableEq, Repr

/-- The AMOs, LR and SC of R283: `w` is a word operation, `casq` the quadword amocas of Zacas. -/
inductive HostAmo where
  | add (w : Bool) (v : BitVec 64)
  | cas (w : Bool) (old new : BitVec 64)
  | casq (old new : BitVec 128)
  | fn (f : AmoFn) (w : Bool) (v : BitVec 64)
  | lr (w : Bool)
  | sc (w : Bool) (v : BitVec 64)
  deriving DecidableEq, Repr

/-- What a host core's caches do (R282, R284): a store, with what the fetch of its line meets; or, on a whole line, a cbo.clean,
a cbo.flush or an eviction, a cbo.inval, a cbo.zero. -/
inductive HostWrite where
  | store (flaws : Flaws)
  | clean
  | flush
  | inval
  | zero
  deriving DecidableEq, Repr

/-- A channel that is bracketed (R384): a carrier of a pair direction, or a data wavelength of a link. -/
inductive CalChannel where
  | carrier (tx rx : Site) (plane : Fin 36)
  | wave (link : Fin 68) (w : Fin 16)
  | far (link : Fin 68) (w : Fin 16) (kept : Bool)
  deriving DecidableEq, Repr

/-- The merits of a coefficient's three histograms (R386): one step below its value, at it, one step above. -/
structure Trial where
  down : BitVec 16
  here : BitVec 16
  up : BitVec 16
  deriving DecidableEq, Repr

/-- What a bracket measures (R386): the valley of the last histogram with the steps by which THRESH then moves toward an
even balance, upward if `high`; the trials of the other coefficients; MOD_OFFSET that the far end of a link reports; the
merit before and after in 1/256, and the samples above THRESH of 65,536. -/
structure CalResult where
  valley : Int
  trim : Fin 3
  high : Bool
  ctle : Trial
  pre : Trial
  post : Trial
  h1 : Trial
  modOffset : Trial
  modOld : Int
  meritOld : BitVec 16
  meritNew : BitVec 16
  above : Fin 65537
  deriving DecidableEq, Repr

/-- What a thermal sample reads (R401 to R405), in 0.25 °C, `none` where an oscillator stops: a pair of a location
(site, or 32 + n for field Fn); an HBM3E stack, in °C; a comb's junction. -/
inductive ThermalRead where
  | pair (loc : Fin 44) (k : Fin 88) (a b : Option Int)
  | hbm (b : Bridge) (temp : Int)
  | comb (site : Site) (c : Fin 7) (temp : Int)
  deriving DecidableEq, Repr

/-- How the transport engine sends a message (R298: the InfiniBand Architecture is outside the spec): the path MTU,
1,024 << mtu bytes; the BTH, and RETH when present, of each packet; the bytes of its frames; RC or UD; the priority of its
frames (R296); and what the read of its ring entry meets (R168, R173). -/
structure Wire where
  mtu : Fin 3
  hdrs : List (List Byte)
  bytes : BitVec 32
  rc : Bool
  prio : Fin 8
  entry : Flaws
  deriving DecidableEq, Repr

/-- A ring whose next entry the engine takes, and what the read of the entry meets (R168, R173). -/
structure EntryAt where
  ring : Fin 32768
  flaws : Flaws
  deriving DecidableEq, Repr

/-- The MACsec tag of a frame (R300): receive channel, association, packet number, and whether its check value is right
(IEEE 802.1AE is outside the spec). -/
structure SecTag where
  chan : Fin 32
  an : Fin 4
  pn : BitVec 64
  good : Bool
  deriving DecidableEq, Repr

/-- A frame that arrives at the host port: its length from destination address to FCS, ECN-marked, RC or UD, the
length of the frames that go back on it with their priority, path MTU (1,024 << mtu bytes) and the headers of their packets,
and its MACsec tag if it is protected. -/
structure FrameIn where
  size : Fin 9217
  ecn : Bool
  rc : Bool
  reply : BitVec 32
  prio : Fin 8
  mtu : Fin 3
  hdrs : List (List (BitVec 8))
  sec : Option SecTag
  deriving DecidableEq, Repr

/-- A RoCEv2 answer of the peer (R298): an acknowledgement; a NAK of kind 0 receiver not ready, 1 sequence, 2 invalid
request, 3 remote access, 4 remote operational; a packet of an RDMA READ response at an offset of its message. -/
inductive RoceAnswer where
  | ack
  | nak (kind : Fin 5)
  | readData (hdr : List Byte) (off : BitVec 32) (pay : List Byte) (last : Bool)
  deriving DecidableEq, Repr

/-- A child of a vote node: a site of the package or a child package (R130). -/
inductive Child where
  | site (s : Site)
  | pkg (p : BitVec 16)
  deriving DecidableEq, Repr

/-- What a cold start meets (R331, R445, R452): firmware images whose signature fails, by component 0-3 and bank
(true: the second); fields whose heaters or lasers fail; sites whose lanes do not train; bridges whose stack fails
training; guest dies that are there, with the step of R452 that fails or 0; rows that a stack with spare rows in their
bank repairs, by retirement-list entry and failing line (R175); whether the host port links up, whether 800GBASE-R
trains, whether VHOLD reaches 45 V in time (R397), whether the package joins a running system (R368), and whether one MRAM
copy of the granary map fails its CRC (R430). -/
structure StartRun where
  badFirmware : List (Fin 4 × Bool)
  fields : List Field
  lanes : List Site
  hbmBad : List Bridge
  guests : List (Fin 4 × Fin 6)
  repaired : List (Bridge × Fin 4096 × Fin 32)
  port : Bool
  ok800 : Bool
  holdup : Bool
  joins : Bool
  mapBad : Bool
  deriving DecidableEq, Repr

/-- The pin RESET_N (R477): low for at least 10 µs, or rising, with what the cold start then meets. -/
inductive ResetPin where
  | low
  | high (run : StartRun)
  deriving DecidableEq, Repr

/-- A matrix core or host core (R460, R462). -/
inductive CoreRef where
  | core (k : Stack) (c : Core)
  | host (h : Host64)
  deriving DecidableEq, Repr

/-- The Ohmune commands (R460). `flaws` are what a read at S12 itself meets; the reset brings a cold start. -/
inductive Ohmune where
  | getIdentity (chunk : BitVec 8)
  | attest (ctx : BitVec 8) (nonce : BitVec 256) (chunk : BitVec 8)
  | wake
  | sessionOpen
  | sessionProve (sig : List Byte)
  | ctrlRead (addr : BitVec 40) (words : BitVec 8)
  | ctrlWrite (addr : BitVec 40) (words : List (BitVec 32))
  | eventRead (count : BitVec 8)
  | halt (t : CoreRef)
  | resume (t : CoreRef)
  | memRead (addr : BitVec 64) (len : BitVec 8) (flaws : Flaws)
  | memWrite (addr : BitVec 64) (bytes : List Byte)
  | moduleReset (run : StartRun)
  deriving DecidableEq, Repr

/-- How an Ohmune command comes (R459): over the sideband, or in a frame of the host port. -/
inductive Via where
  | bus
  | port (f : FrameIn)
  deriving DecidableEq, Repr

/-- Numeric sensors (R459): a thermal pair of a location (site, or 32 + n for field Fn), VIN, input power, a rail. -/
inductive PldmSensor where
  | pair (loc : Fin 44) (k : Fin 88)
  | vin
  | power
  | rail (n : BitVec 16)
  deriving DecidableEq, Repr

/-- PLDM discovery requests (R459; DSP0240). -/
inductive PldmAsk where
  | setTid (tid : BitVec 8)
  | getTid
  | getTypes
  | getVersion (type : BitVec 8)
  | getCommands (type : BitVec 8)
  deriving DecidableEq, Repr

/-- MCTP control requests (R459; DSP0236). -/
inductive MctpAsk where
  | setEid (eid : BitVec 8)
  | getEid
  | getVersion
  | getTypes
  | getVendor
  deriving DecidableEq, Repr


/-- The commands of the table. -/
inductive Instr where
  /-- REGISTER_WRITE (R6): A control-space write to a register without a row of its own stores or ignores each field according to its access code. -/
  | registerWrite (r : Requester) (addr : BitVec 40) (wide : Bool) (v : BitVec 64)
  /-- LATCHED_LOW_READ (R8): A 32-bit read of a 64-bit register's low word returns it and fills the requester's read latch with the high word. -/
  | latchedLowRead (r : Requester) (addr : BitVec 40)
  /-- LATCHED_HIGH_READ (R8): A 32-bit read of a 64-bit register's high word returns the latched value and empties the latch, or returns the current high word. -/
  | latchedHighRead (r : Requester) (addr : BitVec 40)
  /-- LATCHED_HIGH_WRITE (R8): A 32-bit write of a 64-bit register's high word fills the requester's write latch and changes nothing in the register. -/
  | latchedHighWrite (r : Requester) (addr : BitVec 40) (v : BitVec 32)
  /-- LATCHED_LOW_WRITE (R8): A 32-bit write of a 64-bit register's low word updates all 64 bits from the write latch, or the low 32 bits alone. -/
  | latchedLowWrite (r : Requester) (addr : BitVec 40) (v : BitVec 32)
  /-- UNMAPPED_ACCESS (R10): An access to an address that decodes to no register reads 0, ignores writes and counts in EVT_UNMAPPED_CNT. -/
  | unmappedAccess (r : Requester) (addr : BitVec 40) (write : Bool)
  /-- CLR_PARITY (R84): Writing CORE_CTRL.CLR_PARITY sets CORE_PARITY_CNT to 0. -/
  | clrParity (k : Stack) (c : Core)
  /-- CLR_MIN (R84): Writing CORE_CTRL.CLR_MIN sets CORE_SLACK_MIN to 0x7FFF_FFFF. -/
  | clrMin (k : Stack) (c : Core)
  /-- MMA (R95): An MMA descriptor issues and starts its fill and group passes on the array. -/
  | mma (k : Stack) (c : Core) (fetched : Fetch)
  /-- MMA_COMPLETE (R74): An MMA descriptor finishes its drain and any output stage, and raises its DONE token. -/
  | mmaComplete (k : Stack) (c : Core) (storeFlaws : Nat) (arrayBad : Bool)
  /-- VEC (R97): A VEC descriptor issues and starts a kernel with every register zeroed. -/
  | vec (k : Stack) (c : Core) (fetched : Fetch)
  /-- VEC_KERNEL_RETURN (R79): A kernel returns from its entry function, its fflags are ORed into CORE_VFLAGS and the VEC descriptor completes. -/
  | vecKernelReturn (k : Stack) (c : Core) (flaws : Flaws) (mets : Meets)
  /-- VEC_KERNEL_FAULT (R81): A kernel instruction raises an illegal instruction, ecall, ebreak or an out-of-map access, ending the kernel with a voting report. -/
  | vecKernelFault (k : Stack) (c : Core) (parity : Option Nat) (flaws : Flaws) (mets : Meets)
  /-- INSTRUCTION_LIMIT (R97): A kernel retires MAX_INSN instructions without returning and ends as a kernel fault. -/
  | instructionLimit (k : Stack) (c : Core) (flaws : Flaws) (mets : Meets)
  /-- MOVE (R99): A MOVE descriptor issues as a read, a write or a local move, reading its index list if any. -/
  | moveDesc (k : Stack) (c : Core) (fetched : Fetch) (flaws : Flaws) (mets : Meets)
  /-- REDUCE (R265): A REDUCE descriptor issues and its gateway cuts the source into REDUCE packets per slice. -/
  | reduceDesc (k : Stack) (c : Core) (fetched : Fetch) (flaws : Flaws)
  /-- SIGNAL (R102): A SIGNAL descriptor issues, incrementing a local token directly or sending a SIGNAL packet. -/
  | signalDesc (k : Stack) (c : Core) (fetched : Fetch)
  /-- WAIT (R103): A WAIT descriptor issues and holds younger descriptors until its token reaches the threshold. -/
  | waitDesc (k : Stack) (c : Core) (fetched : Fetch)
  /-- WAIT_SATISFIED (R103): A waiting token reaches THRESHOLD, the WAIT completes and consumes the threshold if CONSUME is set. -/
  | waitSatisfied (k : Stack) (c : Core)
  /-- BRANCH (R104): A BRANCH descriptor is met and the sequencer runs ahead along its hint. -/
  | branchDesc (k : Stack) (c : Core) (fetched : Fetch)
  /-- BRANCH_RESOLVE (R104): Once every older descriptor is complete the BRANCH reads its value and resolves. -/
  | branchResolve (k : Stack) (c : Core) (flaws : Flaws) (mets : Meets)
  /-- FENCE (R105): A FENCE descriptor issues and holds younger descriptors. -/
  | fenceDesc (k : Stack) (c : Core) (fetched : Fetch)
  /-- FENCE_COMPLETE (R105): Every older descriptor of each selected class completes and the FENCE completes. -/
  | fenceComplete (k : Stack) (c : Core)
  /-- COMMIT_WRITE (R106): A COMMIT_WRITE descriptor issues and sends WRITE_COMMIT packets of at most one 4,096-byte block each. -/
  | commitWrite (k : Stack) (c : Core) (fetched : Fetch) (flaws : Flaws)
  /-- BELL_END (R107): A BELL_END descriptor is reached and waits for every older descriptor and read. -/
  | bellEnd (k : Stack) (c : Core) (fetched : Fetch)
  /-- BELL_END_RETIRE (R107): BELL_END retires, the core's slack and per-bell registers are updated. -/
  | bellEndRetire (k : Stack) (c : Core)
  /-- FILL_RECORD (R117): A 128-byte fill record arrives at a slot-fill window and is checked, held or refused. -/
  | fillRecord (k : Stack) (c : Core) (ctx : Ctx) (at_ : Fin 32) (bytes : List Byte)
  /-- BELL_BOUNDARY (R22): A site's follower reaches the bell boundary: it seals its fault bit, applies orders, activates configuration, reloads tithes and begins the next bell. -/
  | bellBoundary (site : Site)
  /-- GUARD_START (R128): The guard interval begins: issue stops and tokens and accumulators clear. -/
  | guardStart (site : Site)
  /-- CHECK_POINT (R145): At check point c_m a site with an unretired core or incomplete slice sends LATE toward the root. -/
  | checkPoint (site : Site)
  /-- VOTE (R131): A vote node receives a child's VOTE frame, ORs it and passes or decides once all children are in. -/
  | voteFrame (child : Child) (bell : BitVec 48) (fault lost : Bool) (rx : Rx)
  /-- VOTE_MISSING (R132): A child's vote is absent at the end of bell n + D and counts as FAULT. -/
  | voteMissing (child : Child)
  /-- LATE (R146): The root receives a LATE frame for a check point. -/
  | lateFrame (child : Child) (bell : BitVec 48) (m : Fin 9) (rx : Rx)
  /-- LATENESS_DECISION (R146): At c_m + C the root cries EXTEND or CLOSE for the bell. -/
  | latenessDecision
  /-- CLEAR (R134): A site receives CLEAR(n), commits bell n and releases its retained inputs. -/
  | clearFrame (site : Site) (bell : BitVec 48) (until_ : BitVec 64) (flaws : Flaws) (rx : Rx)
  /-- REPLAY (R137): A site receives REPLAY(n) and abandons bells n to n + D. -/
  | replayFrame (site : Site) (bell : BitVec 48) (start : BitVec 64) (rx : Rx)
  /-- REPLAY_START (R137): At START the site clears state, restores phase and fills and runs bell n again. -/
  | replayStart (site : Site)
  /-- EXTEND (R146): A site receives EXTEND and moves the guard start of bell k. -/
  | extendFrame (site : Site) (bell : BitVec 48) (m : Fin 9) (rx : Rx)
  /-- CLOSE (R146): A site receives CLOSE and fixes the guard start, abandoning unretired cores under FORCED. -/
  | closeFrame (site : Site) (bell : BitVec 48) (m : Fin 9) (forced : Bool) (rx : Rx)
  /-- HOLD (R150): A site receives HOLD, abandons bells n to n + D and holds. -/
  | holdFrame (site : Site) (bell : BitVec 48) (reason : Fin 8) (rx : Rx)
  /-- RESUME (R150): A site receives the RESUME cry naming START. -/
  | resumeFrame (site : Site) (bell : BitVec 48) (start : BitVec 64) (rx : Rx)
  /-- RESUME_START (R150): At START the held domain runs bell BELL_COMMITTED + 1. -/
  | resumeStart (site : Site)
  /-- SETTLE (R151): A site receives SETTLE(B) and runs no bell B until every earlier bell commits. -/
  | settleFrame (site : Site) (bell : BitVec 48) (rx : Rx)
  /-- BELL (R200): A site receives the BELL sync frame and compares its bell number. -/
  | bellFrame (site : Site) (bell : BitVec 48) (time : BitVec 64) (rx : Rx)
  /-- ANNOUNCE (R276): An ANNOUNCE frame raises the cluster token of each listening cluster if its BELL matches. -/
  | announce (site : Site) (bell : BitVec 48) (arg : BitVec 64) (rx : Rx)
  /-- COMMIT_DEADLINE (R135): A site reaches the end of bell n + D without CLEAR or REPLAY and holds. -/
  | commitDeadline (site : Site)
  /-- HOLD_UNTIL (R135): A late-commit hold ends at HOLD_UNTIL and the next bell starts. -/
  | holdUntil (site : Site)
  /-- BELL_CTRL_HOLD_REQ (R150): Writing HOLD_REQ at the root makes it cry HOLD for the first boundary at least C away. -/
  | bellCtrlHoldReq
  /-- BELL_CTRL_RESUME (R150): Writing RESUME at the root while held makes it cry RESUME with a START. -/
  | bellCtrlResume
  /-- HOLD_PERIOD_BOUNDARY (R152): While held or settling, each period boundary reloads tithes, builds sheets and applies pending changes. -/
  | holdPeriodBoundary (site : Site)
  /-- TITHE_REQUEST (R156): A tithed request is admitted within its class budget or marks the class stalled. -/
  | titheRequest (site : Site) (cls : Fin 9) (cost : BitVec 32) (id : BitVec 32)
  /-- TITHE_ADMIT (R156): A stalled tithed request is admitted in a later bell. -/
  | titheAdmit (site : Site) (cls : Fin 9)
  /-- CACHE_INVALIDATION (R167): A caching stack invalidates a line on the bridge's invalidation and acknowledges it. -/
  | cacheInvalidation (k : Stack)
  /-- FRAME_GROUP_RETIRE (R169): A frame group at its wear limit is remapped or copied to a spare group in a guard interval. -/
  | frameGroupRetire (k : Stack) (port : Fin 64) (group : Fin 4096) (bad : List Nat)
  /-- PAGE_RETIRE (R174): The bridge copies a queued page to a spare page and redirects it. -/
  | pageRetire (b : Bridge) (bad : BitVec 32)
  /-- MEM_ACK_LOST (R179): Writing MEM_CTRL.ACK_LOST clears LOST bits and COMMIT_LOST and ends the voting fault. -/
  | memAckLost (b : Bridge)
  /-- CARRIER_LOSS (R190): A receiver loses lock or frame on a carrier and the pair removes it from its stripe. -/
  | carrierLoss (tx rx : Site) (plane : Fin 36)
  /-- CARRIER_RETURN (R190): A relocked carrier with 10 µs of clean framing returns to its stripe. -/
  | carrierReturn (tx rx : Site) (plane : Fin 36)
  /-- CARRIER_FAILED (R191): A carrier is declared failed and is looped back, spared by lane or granary carrier, or left short. -/
  | carrierFailed (tx rx : Site) (plane : Fin 38) (late : Bool) (lane : Option Bool) (bad : Fin 3)
  /-- STRIPE_MARKER (R188): A receiver sees the marker granule on every carrier of the new stripe and changes to it. -/
  | stripeMarker (site : Site) (hop : Hop) (version : BitVec 4)
  /-- COMB_FAILURE (R195): A base comb fails and C4 is switched in for its planes. -/
  | combFailure (site : Site) (comb : Fin 7)
  /-- BRACKET_COMPLETE (R387): A bracket's results are judged, accepted or rejected, and the channel rejoins service. -/
  | bracketComplete (ch : CalChannel) (r : CalResult)
  /-- SENSOR_BRACKET (R388): A sensor bracket finishes its 1 ms count and computes a new ageing offset. -/
  | sensorBracket (loc : Fin 44) (n : Fin 176) (offset : Int)
  /-- WRITE (R210): A target receives a WRITE packet, checks it and writes the payload under BYTEMASK. -/
  | writePacket (site : Site) (a : Arrival) (mets : Meets) (bad : Bool)
  /-- WRITE_COMMIT (R210): A bridge receives a WRITE_COMMIT packet and stages it. -/
  | writeCommit (site : Site) (a : Arrival) (bad : Bool)
  /-- MCAST_WRITE (R202): A receiver writes an MCAST_WRITE at its group base plus offset. -/
  | mcastWrite (site : Site) (a : Arrival) (mets : Meets) (bad : Bool)
  /-- READ_REQ (R210): A target receives a READ_REQ, reads LEN bytes and returns READ_RESP or ERROR_RESP. -/
  | readReq (site : Site) (a : Arrival) (flaws : Flaws)
  /-- READ_RESP (R226): A requester receives a response; if its tag matches it writes the data and frees the tag. -/
  | readResp (site : Site) (a : Arrival) (mets : Meets)
  /-- ERROR_RESP (R226): An accepted ERROR_RESP completes its transaction as failed. -/
  | errorResp (site : Site) (a : Arrival)
  /-- REDUCE_ADD (R266): A reduction engine checks a REDUCE_ADD packet and adds its elements exactly. -/
  | reduceAdd (site : Site) (a : Arrival) (flaws : Flaws)
  /-- REDUCE_MAX (R266): A reduction engine checks a REDUCE_MAX packet and applies its elements as maxima. -/
  | reduceMax (site : Site) (a : Arrival) (flaws : Flaws)
  /-- REDUCE_MIN (R266): A reduction engine checks a REDUCE_MIN packet and applies its elements as minima. -/
  | reduceMin (site : Site) (a : Arrival) (flaws : Flaws)
  /-- LINE_OUTPUT (R269): The engine sends completed lines as WRITE or MCAST_WRITE packets to the slice's output. -/
  | lineOutput (site : Site) (group : Fin 4096) (count : Fin 33) (mets : Meets)
  /-- ATOMIC_ADD (R210): A target adds the operand modulo 2^32 or 2^64 and returns the old value. -/
  | atomicAdd (site : Site) (a : Arrival) (flaws : Flaws)
  /-- ATOMIC_CAS (R210): A target compares and swaps raw bits and returns the old value. -/
  | atomicCas (site : Site) (a : Arrival) (flaws : Flaws)
  /-- SIGNAL_PACKET (R210): A compute stack receives a SIGNAL packet and applies its token increment. -/
  | signalPacket (site : Site) (a : Arrival)
  /-- CREDIT (R217): A transmitter receives a CREDIT packet and regains credit on each VC. -/
  | credit (site : Site) (a : Arrival)
  /-- CREDIT_RETURN_TIMER (R217): 200 ns after the first unreturned unit a receiver sends a CREDIT packet. -/
  | creditReturnTimer (site : Site) (hop : Hop)
  /-- CREDIT_STALL (R218): A VC0–VC2 packet waits more than 1 µs for credit and a non-voting SCHEDULE_VIOLATION is reported. -/
  | creditStall (site : Site) (hop : Hop) (vc : Fin 3)
  /-- CONTROL_CODEWORD (R220): A control codeword arrives carrying ACK, NAK, RESEND and stripe version. -/
  | controlCodeword (site peer : Site) (lane : Fin 36) (word : BitVec 2570) (codes : List Codeword)
  /-- HOP_RETRY_TIMEOUT (R221): 500 ns without ACK advancing, the transmitter resends from ACK. -/
  | hopRetryTimeout (site : Site) (hop : Hop) (ctrl : Bool)
  /-- PAIR_RESET (R222): After eight resends of one position the pair stream resets and tagged transactions fail with PATH_RESET. -/
  | pairReset (site peer : Site) (ctrl : Bool)
  /-- PACKET_AGED (R224): A packet held longer than 10 µs is dropped and counted. -/
  | packetAged (site : Site) (hop : Hop)
  /-- TAG_TIMEOUT (R227): A live tag reaches 2 × period, fails with TIMEOUT and is quarantined. -/
  | tagTimeout (site : Site) (issuer : Fin 128) (tag : Fin 4096)
  /-- QUARANTINE_END (R225): A quarantined tag becomes free after 2 × period. -/
  | quarantineEnd (site : Site) (issuer : Fin 128) (tag : Fin 4096)
  /-- LINK_TRAINING (R243): A link trains through lock, alignment, handshake, adaptation and soak into its role. -/
  | linkTraining (link : Fin 68) (peer : Option Handshake)
  /-- LINK_CONTROL_CODEWORD (R237): A link control codeword arrives with ACK, OUT, RXPOWER and TIMESTAMP. -/
  | linkControlCodeword (link : Fin 68) (slot : Fin 18) (level : Int) (word : BitVec 5140) (codes : List Codeword)
  /-- LINK_REDIRECT (R250): An engine redirects a link's slots onto their standby links and sets OUT. -/
  | linkRedirect (link : Fin 68) (lost : Bool)
  /-- DEDUPE_EXPIRY (R252): A dedupe entry or the overflow flag expires after 4 µs. -/
  | dedupeExpiry (site : Site)
  /-- RESTORE (R254): Writing LNK_CTRL.RESTORE schedules clearing of redirects at the next hold or settled boundary. -/
  | restoreLinks (engine : Engine)
  /-- REVERTIVE_RETURN (R255): A revertive bundle returns its slots to the primary link after 100 ms of clean service. -/
  | revertiveReturn (link : Fin 68)
  /-- WAVELENGTH_FAILED (R257): A data wavelength fails and λ17 is striped in, or the link runs short. -/
  | wavelengthFailed (link : Fin 68) (wave : Fin 17)
  /-- LINK_FAILED (R259): A link is failed and a granary link is drawn or its slots stay redirected. -/
  | linkFailed (link : Fin 68)
  /-- LNK_RESET (R348): Writing LNK_RESET redirects a local link and retrains it. -/
  | lnkReset (r : Requester) (engine : Engine) (mask : BitVec 10)
  /-- REPLICATION_TIMEOUT (R274): A replication record times out as a live tag does. -/
  | replicationTimeout (site : Site)
  /-- HOST_LOAD (R284): A host-core load to another site reads its line or granule by READ_REQ on VC4. -/
  | hostLoad (h : Host64) (pa : BitVec 56) (size : Fin 4) (parity : HostParity) (flaws : Flaws)
  /-- HOST_STORE (R284): A host-core store or write-back to another site sends a WRITE with BYTEMASK. -/
  | hostStore (h : Host64) (pa : BitVec 56) (bytes : List Byte) (what : HostWrite) (how : HostStoreHow)
  /-- HOST_AMO (R283): A host-core AMO to an uncached address becomes ATOMIC_ADD or ATOMIC_CAS or faults. -/
  | hostAmo (h : Host64) (pa : BitVec 56) (amo : HostAmo) (how : HostStoreHow) (flaws : Flaws)
  /-- HOST_CORE_LOST (R285): An unattributable host-core cache fault stops the core's clock. -/
  | hostCoreLost (h : Host64)
  /-- PRODUCER_DOORBELL (R288): A HOST_DOORBELL write with SIDE 0 advances a ring's PI. -/
  | producerDoorbell (r : Requester) (ring : Fin 32768) (index : BitVec 16)
  /-- CONSUMER_DOORBELL (R288): A HOST_DOORBELL write with SIDE 1 advances a ring's CI. -/
  | consumerDoorbell (r : Requester) (ring : Fin 32768) (index : BitVec 16)
  /-- NOP (R290): A NOP ring entry is consumed and does nothing. -/
  | ringNop (entry : EntryAt)
  /-- SEND_INLINE (R290): An outbound entry sends a RoCEv2 SEND of its inline bytes. -/
  | sendInline (ring : Fin 32768) (w : Wire)
  /-- SEND (R290): An outbound entry sends a SEND of LEN bytes read from device memory. -/
  | ringSend (ring : Fin 32768) (w : Wire) (flaws : Flaws)
  /-- RDMA_WRITE (R290): An outbound entry writes LEN bytes to host memory under RKEY. -/
  | rdmaWrite (ring : Fin 32768) (w : Wire) (flaws : Flaws)
  /-- RDMA_READ (R290): An outbound entry reads LEN bytes from host memory into device memory. -/
  | rdmaRead (ring : Fin 32768) (w : Wire)
  /-- RAW_TX (R290): A raw-ring entry transmits a frame with a timestamp. -/
  | rawTx (ring : Fin 32768) (w : Wire) (flaws : Flaws)
  /-- SA_INSTALL (R300): A raw-ring entry installs a write-only MACsec key. -/
  | saInstall (entry : EntryAt)
  /-- COMPLETION_ROOM (R294): A full completion ring gains room and the waiting completion and its ring proceed. -/
  | completionRoom (ring : Fin 32768)
  /-- KEYX_REQUEST (R302): A KEYX with DATA[0] = 1 generates an ML-KEM key pair and a signed report. -/
  | keyxRequest (ring : Fin 32768)
  /-- KEYX_CIPHERTEXT (R302): A KEYX with DATA[0] = 2 decapsulates, derives the context keys and erases the key. -/
  | keyxCiphertext (ring : Fin 32768) (flaws : Flaws)
  /-- BOUNCE (R303): A BOUNCE entry registers a confidential context's host bounce window. -/
  | bounce (ring : Fin 32768)
  /-- RAW_FRAME_RX (R297): A non-RoCEv2 frame is timestamped and written to the raw ring as RAW_RX, or dropped. -/
  | rawFrameRx (f : FrameIn) (bytes : List Byte)
  /-- INBOUND_SEND (R298): An inbound SEND writes whole entries to the inbound ring or gets an RNR NAK. -/
  | inboundSend (f : FrameIn) (qpn : BitVec 24) (hdr pay : List Byte)
  /-- INBOUND_RDMA_WRITE (R298): An inbound RDMA WRITE writes device memory in a host-visible window. -/
  | inboundRdmaWrite (f : FrameIn) (qpn : BitVec 24) (hdr : List Byte) (va : BitVec 64) (rkey : BitVec 32) (pay : List Byte)
  /-- INBOUND_RDMA_READ (R298): An inbound RDMA READ returns device memory from a host-visible window. -/
  | inboundRdmaRead (f : FrameIn) (qpn : BitVec 24) (hdr : List Byte) (va : BitVec 64) (rkey : BitVec 32) (len : BitVec 24)
    (flaws : Flaws)
  /-- UNSUPPORTED_REQUEST (R298): An unsupported inbound RoCEv2 request is answered with a remote invalid request NAK. -/
  | unsupportedRequest (f : FrameIn) (qpn : BitVec 24)
  /-- CNP (R298): A Congestion Notification Packet halves the queue pair's rate. -/
  | cnp (f : FrameIn) (qpn : BitVec 24)
  /-- PFC_FRAME (R296): A received PFC frame pauses or releases a priority. -/
  | pfcFrame (prio : Fin 8) (pause : Bool)
  /-- RING_COPY (R292): Reserved entries lying below PI are copied to the landing area. -/
  | ringCopy (ring : Fin 32768) (flaws : Flaws)
  /-- RING_READY_SIGNAL (R292): After the copy or reservation, no earlier than b+0, the ready token SIGNAL is sent. -/
  | ringReadySignal (ring : Fin 32768)
  /-- RING_SLOT_RESERVE (R293): A producing bell's waiting reservation obtains E free slots. -/
  | ringSlotReserve (ring : Fin 32768)
  /-- RETRAIN (R305): Writing HOST_PORT_CTRL.RETRAIN takes the host link down and trains it again. -/
  | retrain (ok800 : Bool)
  /-- FORCE_400 (R296): Changing HOST_PORT_CTRL.FORCE_400 retrains the host port at the selected rate. -/
  | force400 (on ok800 : Bool)
  /-- ENABLE (R316): Writing CFG_CTRL.ENABLE locks the slot and starts the ENABLE check. -/
  | cfgEnable (part : Bool) (slot : Fin 64)
  /-- ENABLE_CHECK_DONE (R317): The check completes and the image is pending or refused with one reason. -/
  | enableCheckDone
  /-- CANCEL (R322): Writing CFG_CTRL.CANCEL stops a check or withdraws a pending image. -/
  | cfgCancel (part : Bool) (slot : Fin 64)
  /-- CFG_ACTIVATE (R319): Writing CFG_ACTIVATE with VALID makes the root cry SETTLE for bell B. -/
  | cfgActivate (valid : Bool) (bell : BitVec 48)
  /-- ALT_SELECT (R326): Writing CFG_ALT.SELECT requests a variant at the next settled boundary. -/
  | altSelect (v : Fin 16)
  /-- INSTALLATION_DONE (R320): Installation of an activated configuration completes and STATE becomes 5. -/
  | installationDone
  /-- COLD_START (R330): VIN reaching 44 V starts the cold-start sequence to the first bell. -/
  | coldStart (run : StartRun)
  /-- RESET_N (R477): RESET_N low for 10 µs holds the module in reset; its rising edge starts a cold start. -/
  | resetN (pin : ResetPin)
  /-- SITE_RESET (R333): GW_RESET.REQUEST 1 resets every die on the site. -/
  | siteReset (r : Requester) (site : Site)
  /-- GATEWAY_RESET (R340): GW_RESET.REQUEST 2 drains and resets the cache-die gateway. -/
  | gatewayReset (r : Requester) (site : Site)
  /-- COMPUTE_DIE_RESET (R333): GW_RESET.REQUEST 3 resets the compute die of a compute stack. -/
  | computeDieReset (r : Requester) (k : Stack)
  /-- GW_ACK_LOST (R348): Writing GW_RESET.ACK_LOST clears the LOST flags. -/
  | gwAckLost (r : Requester) (site : Site)
  /-- READMISSION (R343): A fenced site's reset completes and it retrains, calibrates and announces its epoch. -/
  | readmission (site : Site) (fail : Fin 6)
  /-- FIELD_RESET (R341): Writing FAB_FIELD_RESET.RESET resets a field's control domain and holds heater codes. -/
  | fieldReset (r : Requester) (field : Field)
  /-- HEATER_HOLD_EXPIRY (R341): At 50 ms of field reset every home ring is moved to its park code. -/
  | heaterHoldExpiry (field : Field)
  /-- FIELD_RELEASE (R342): Writing FAB_FIELD_RELEASE restarts the field and re-admits its sites. -/
  | fieldRelease (r : Requester) (field : Field)
  /-- HEARTBEAT_LOSS (R335): After 1 µs without heartbeat from a peer, a gateway fences it. -/
  | heartbeatLoss (site peer : Site)
  /-- MC_FENCE_ORDER (R336): The MC orders the same fence at every gateway and link engine of the package. -/
  | mcFenceOrder (peer : Site)
  /-- GATEWAY_SELF_FENCE (R337): A gateway losing every peer or its field fences itself and stops issuing. -/
  | gatewaySelfFence (site : Site)
  /-- COMPUTE_CLOCK_LOSS (R339): No compute clock edge for 1 µs silences the gateway. -/
  | computeClockLoss (k : Stack)
  /-- MC_SILENCE_RESET (R339): The MC applies the reset that the silence calls for. -/
  | mcSilenceReset (site : Site)
  /-- STOP_CHANNEL_TIMEOUT (R340): A stop without credit or heartbeat for 1 µs fails its transactions with PATH_RESET. -/
  | stopChannelTimeout (k : Stack) (stop : Fin 16)
  /-- REFCLK_LOSS (R349): REFCLK stops for 1 µs, PLLs hold and voting REFCLK_LOST is raised. -/
  | refclkLoss
  /-- REFCLK_TIMEOUT (R349): REFCLK absent for 1 ms stops every region's clock. -/
  | refclkTimeout
  /-- TARGET (R354): Writing CLK_REGION_CTRL.TARGET locks the standby PLL and raises the rail if needed. -/
  | regionTarget (r : Requester) (region : Fin 368) (target : Fin 16)
  /-- REGION_STOP (R354): In a qualifying guard interval the region stops, restarts on the new PLL and may lower its rail. -/
  | regionStop (region : Fin 368) (ns : Fin 201)
  /-- ADAPTIVE_STRETCH (R357): A droop or speed-monitor deficit lengthens the region's next period. -/
  | adaptiveStretch (region : Fin 368) (eighths : Fin 4)
  /-- SERVO_UPDATE (R366): Every 10 µs the servo averages link errors and slews the village clock. -/
  | servoUpdate
  /-- CLOCK_HOLDOVER (R366): 1 ms without a servo link puts a locked package into holdover. -/
  | clockHoldover
  /-- TEMPERATURE_CORRECTION (R364): Every 1 ms the rate word's temperature term is read from the MRAM table. -/
  | temperatureCorrection
  /-- LOCK_LOOP_UPDATE (R374): Every 5 µs a ring's lock loop updates its heater code, possibly losing lock. -/
  | lockLoopUpdate (site : Site) (ring : Fin 2792) (loop : Fin 11) (detune : Int)
  /-- HEATER_FAULT (R372): A heater segment's current departs from its code for 20 µs and the other segment takes over. -/
  | heaterFault (site : Site) (ring : Fin 2792)
  /-- IDENTITY_READ (R380): After acquisition the ring's grid mark is read and compared with the expectation. -/
  | identityRead (site : Site) (ring : Fin 2792) (code : BitVec 16) (tone : List (Fin 36 × Int)) (temp : Int)
  /-- FF_GAIN_ADAPT (R378): After FF_RAMP following a class change, FF_GAIN moves by one eighth of the needed correction. -/
  | ffGainAdapt (site : Site) (ring : Fin 2792)
  /-- BIAS_UPDATE (R382): Every 1 s a comb's bias is raised or lowered from its lowest received power. -/
  | biasUpdate (site : Site) (comb : Fin 7) (away capped hot : Bool)
  /-- SUPPLY_LOW (R394): VIN between 40 V and 44 V for 1 ms raises SUPPLY_LOW. -/
  | supplyLow
  /-- FIXING (R411): VIN sag or overvoltage triggers fixing of the critical state into MRAM from VHOLD. -/
  | fixing (high : Bool)
  /-- PWR_FAIL_N (R477): PWR_FAIL_N low for 1 µs triggers fixing. -/
  | pwrFailN
  /-- HOLDUP_FAULT (R397): VHOLD below 45 V raises HOLDUP_FAULT. -/
  | holdupFault
  /-- POWER_SAMPLE (R400): Every 100 µs input power is sampled and averaged and the limiter steps or releases regions. -/
  | powerSample (volts amps : BitVec 16) (stop : Fin 251)
  /-- THERMAL_SAMPLE (R403): A thermal pair is sampled and judged against throttle and trip limits. -/
  | thermalSample (read : ThermalRead) (stop : Fin 251)
  /-- TRIP_RELEASE (R405): A tripped part 20 °C below trip for 1 s is reset or released. -/
  | tripRelease (part : Fin 44)
  /-- SAFELIGHT (R406): Writing PWR_CTRL.SAFELIGHT stores a safelight request. -/
  | safelight (r : Requester)
  /-- SAFELIGHT_ENTRY (R406): At a period boundary of a hold the module enters safelight. -/
  | safelightEntry
  /-- WAKE_N (R409): WAKE_N low for 1 µs in safelight starts a wake. -/
  | wakeN
  /-- PWR_WAKE (R409): Writing PWR_CTRL.WAKE starts a wake. -/
  | pwrWake (r : Requester)
  /-- WAKE_FRAME (R409): A host-port frame of EtherType 0x88B5 carrying PWR_WAKE_CODE starts a wake. -/
  | wakeFrame (code : BitVec 64) (macsec : Bool)
  /-- WAKE_COMPLETE (R409): At t0 + 40 ms the module is awake and the domain holds for RESUME. -/
  | wakeComplete (lost : List Site) (awake : List (Fin 68)) (ok800 : Bool)
  /-- RETIRE_CORE (R422): Writing GRN_CTRL.RETIRE_CORE retires the matrix core in GRN_TARGET at a hold. -/
  | retireCore (r : Requester)
  /-- DRAW_HOST (R423): Writing GRN_CTRL.DRAW_HOST enables the die's granary host core. -/
  | drawHost (r : Requester)
  /-- BOND_PATTERN_TEST (R424): A bond column at wear 4 is pattern tested and steered or halved. -/
  | bondPatternTest (k : Stack) (u : Fin 80) (col : Fin 36) (bad : Option (Fin 64))
  /-- TRIPLE_DISAGREE (R425): The three copies of a triplicated signal disagree. -/
  | tripleDisagree (site : Site) (signal : BitVec 16) (copy : Fin 3) (base : Bool)
  /-- MAP_WRITE (R430): The MC writes a granary-map change to the older MRAM copy. -/
  | mapWrite
  /-- EVENT_RING_WRITE (R456): The MC writes an event record to the declared CTX0 ring. -/
  | eventRingWrite
  /-- OPKEY_CHANGE (R444): Writing SEC_OPKEY_CTRL.GO applies a signed operator-key change record. -/
  | opkeyChange (r : Requester) (addr : BitVec 48)
  /-- SEC_ATTEST (R447): A host core writing SEC_ATTEST requests an attestation report. -/
  | secAttest (h : Host64) (ctx : BitVec 8) (addr : BitVec 48)
  /-- ATTEST_DONE (R446): The device signs and writes the attestation report. -/
  | attestDone
  /-- GET_IDENTITY (R460): Command 0x01 returns a chunk of the top-level public key and certificate. -/
  | getIdentity (via : Via) (seq chunk : BitVec 8)
  /-- ATTEST (R460): Command 0x02 returns a chunk of an attestation report. -/
  | attest (via : Via) (seq ctx : BitVec 8) (nonce : BitVec 256) (chunk : BitVec 8)
  /-- WAKE (R460): Command 0x03 wakes the module. -/
  | wake (via : Via) (seq : BitVec 8)
  /-- SESSION_OPEN (R460): Command 0x04 returns a session nonce. -/
  | sessionOpen (via : Via) (seq : BitVec 8)
  /-- SESSION_PROVE (R460): Command 0x05 proves a session under the operator key. -/
  | sessionProve (via : Via) (seq : BitVec 8) (sig : List Byte)
  /-- SESSION_EXPIRY (R460): A proved session expires after 10 minutes. -/
  | sessionExpiry (r : Requester)
  /-- CTRL_READ (R460): Command 0x10 reads 1–14 control-space words. -/
  | ctrlRead (via : Via) (seq : BitVec 8) (addr : BitVec 40) (words : BitVec 8)
  /-- CTRL_WRITE (R460): Command 0x11 writes 1–14 control-space words. -/
  | ctrlWrite (via : Via) (seq : BitVec 8) (addr : BitVec 40) (words : List (BitVec 32))
  /-- EVENT_READ (R460): Command 0x12 returns the oldest event record not yet read. -/
  | eventRead (via : Via) (seq count : BitVec 8)
  /-- HALT (R462): Command 0x20 halts a matrix or host core. -/
  | halt (via : Via) (seq : BitVec 8) (target : CoreRef)
  /-- CORE_RESUME (R462): Command 0x20 RESUME resumes a halted core. -/
  | coreResume (via : Via) (seq : BitVec 8) (target : CoreRef)
  /-- MEM_READ (R460): Command 0x21 reads 1–48 bytes by granule READ_REQs. -/
  | memRead (via : Via) (seq : BitVec 8) (addr : BitVec 64) (len : BitVec 8) (flaws : Flaws)
  /-- MEM_WRITE (R460): Command 0x21 writes 1–48 bytes by masked granule WRITEs. -/
  | memWrite (via : Via) (seq : BitVec 8) (addr : BitVec 64) (bytes : List Byte)
  /-- MODULE_RESET (R460): Command 0x30 answers, then resets the module. -/
  | moduleReset (via : Via) (seq : BitVec 8) (run : StartRun)
  /-- FIRMWARE_UPDATE (R464): A PLDM Type 5 transfer delivers a verified firmware component to a bank. -/
  | firmwareUpdate (comp : Fin 5) (stage : List Byte) (version : BitVec 32) (good : Bool)
  /-- ACTIVATE_FIRMWARE (R460): PLDM ActivateFirmware with self-contained activation resets the module. -/
  | activateFirmware (run : StartRun)
  /-- PLDM_DISCOVERY (R459): A PLDM Type 0 discovery request is answered. -/
  | pldmDiscovery (ask : PldmAsk)
  /-- PLDM_MONITORING (R459): A PLDM Type 2 request returns sensor readings. -/
  | pldmMonitoring (sensor : PldmSensor)
  /-- MCTP_CONTROL (R459): An MCTP control message is answered. -/
  | mctpControl (ask : MctpAsk)
  /-- DYNAMIC_ADDRESS (R459): ENTDAA or SETDASA assigns the I3C dynamic address. -/
  | dynamicAddress (sa : BitVec 2) (static : Option (BitVec 7)) (addr : BitVec 7)
  /-- BYPASS (R461): The IEEE 1149.1 BYPASS instruction. -/
  | bypass (tdi : List Bool)
  /-- IDCODE (R482): The IDCODE instruction returns stepping, order code and identifier. -/
  | idcode
  /-- SAMPLE_PRELOAD (R461): The SAMPLE/PRELOAD instruction samples scannable pins. -/
  | samplePreload (pins load : List Bool)
  /-- EXTEST (R461): EXTEST drives and observes pins, refused while rails are up, and sets DEBUG bit 0. -/
  | extest (pins load : List Bool)
  /-- DEBUG_ACCESS (R461): The private DEBUG_ACCESS instruction carries Ohmune commands and sets DEBUG bit 0. -/
  | debugAccess (seq : BitVec 8) (cmd : Ohmune)
  /-- CKV_START (R466): Writing CKV_CTRL.START starts a check-value job, or stops a running one. -/
  | ckvStart (r : Requester) (unit : Fin 24)
  /-- CKV_JOB_DONE (R466): A compare job reaches its region's end and compares with EXPECT, restarting if REPEAT. -/
  | ckvJobDone (unit : Fin 24) (far : List Byte) (flaws : Flaws)
  /-- CKV_STREAM_CHUNK (R467): A stream chunk's check value is appended, or checked and stripped. -/
  | ckvStreamChunk (unit : Fin 24) (data : Option (List Byte)) (far : List Byte) (flaws : Flaws)
  /-- REFCLK_RETURN (R349): REFCLK comes back after a loss, ending the PLLs' hold on their last frequency. -/
  | refclkReturn
  /-- LOCAL_MOVE_COMPLETE (R92): A local move's last byte is written over the die's meshes and cache ports, and the MOVE completes and raises its DONE token. -/
  | localMoveComplete (k : Stack) (c : Core) (serial : Nat) (mets : Meets)
  /-- ROCE_RESPONSE (R298): A RoCEv2 acknowledgement, NAK or RDMA READ response frame from the peer arrives and completes or fails an outbound ring entry. -/
  | roceResponse (f : FrameIn) (qpn : BitVec 24) (answer : RoceAnswer)
  /-- READMISSION_TIMEOUT (R339): A reset site that has not reached STATE 4 within its R333 bound is left fenced in STATE 6 and handled as a degrade step. -/
  | readmissionTimeout (site : Site)
  /-- LOWER_TREE_GENERATED (R443): Background generation of the next lower LMS tree, begun once the current tree has used 16,384 leaves, completes and the spare tree becomes available. -/
  | lowerTreeGenerated
  deriving DecidableEq, Repr

end Sys2Proof
end

