-- ==== Sys2Proof/Config.lean ====
section
/-!
DEFINITION. What an implementation fixes and the spec leaves open: the free values (log 5), each an
opaque function of a plain counter of State or of the operands, and the signature, key and random
machinery whose results the spec does not compute (log 5).
-/

namespace Sys2Proof.Config

/-- The order code of the module, fused at test (R1, R17; log 4). -/
def order : Nat := 0x7704

/-- Enabled matrix cores per die at shipment, by order code (R18). -/
def coresPerDie : Nat := if order = 0x7736 then 92 else if order = 0x7672 then 84 else 88

/-- A fresh random 256-bit value: nonces, keys, LMS seeds (R302, R443, R460; free value, log 5). -/
opaque random : Nat → BitVec 256

/-- A result the spec leaves open, of up to 512 bits (free value, log 5). -/
opaque freeWord : Nat → BitVec 512

/-- Does an HSS/LMS signature verify: key digest, message bytes, signature bytes (R312, R444, R445,
R460; RFC 8554 is outside the spec; free value, log 5). -/
opaque hssVerify : List (BitVec 8) → List (BitVec 8) → List (BitVec 8) → Bool

/-- Has a signature the form of HSS over LMS with SHA-256 (R327; RFC 8554 is outside the spec; log 5)? -/
opaque hssFormed : List (BitVec 8) → Bool

/-- The bytes of an HSS signature over a message by the device's leaf `q` (R443, R446; log 5). -/
opaque hssSign : Nat → List (BitVec 8) → List (BitVec 8)

/-- The device's top-level public key and Ohmune certificate (R442, R460; log 5). -/
opaque identity : List (BitVec 8)

/-- The ML-KEM encapsulation key of a decapsulation seed (R302; log 5). -/
opaque kemPublic : BitVec 256 → List (BitVec 8)

/-- The ML-KEM shared secret of a seed and a ciphertext (R302, R451; log 5). -/
opaque kemShared : BitVec 256 → List (BitVec 8) → BitVec 256

/-- Ciphertext and tag of an AES-GCM packet: key, IV, additional data, plaintext (R303; log 5). -/
opaque encrypt : BitVec 256 → Nat → List (BitVec 8) → List (BitVec 8) → List (BitVec 8)

/-- Plaintext of an AES-GCM packet whose tag is good, none if it is bad: key, IV, additional data, ciphertext and
tag (R303; log 5). -/
opaque decrypt : BitVec 256 → Nat → List (BitVec 8) → List (BitVec 8) → Option (List (BitVec 8))

/-- The temperature term of the rate word at a temperature in 0.25 °C, from the MRAM table (R364;
log 5). -/
opaque rateTemp : Int → Int

/-- The servo's term of the rate word for a package error in 1/16 ns and the sum of the errors since it began (R366 gives
the time constant of its proportional-integral law and no gains; free value, log 5). -/
opaque servo : Int → Int → Int

/-- The correction in codes that a lock loop of a crossover in kHz makes for its error and the one before, in 10 kHz (R374
gives the crossover of its law and no gains; free value, log 5). -/
opaque lockLoop : Nat → Int → Int → Int

/-- Does a clock region send to another over a crossing (R359 numbers the crossings and does not list them;
free value, log 5)? -/
opaque sendsTo : Nat → Nat → Bool

/-- Reference power in W of a guest site, which its certificate declares (R124; free value, log 5). -/
opaque guestPower : Nat → Nat

/-- The firmware component as shipped (R464; free value, log 5). -/
opaque factoryStage : Nat → List (BitVec 8)

/-- The part of a microcode component that a site loads (R445 gives no layout; free value, log 5). -/
opaque siteCode : List (BitVec 8) → Nat → List (BitVec 8)

/-- Does a guest site's certificate declare a range of its site-local offsets (R161; free value, log 5)? -/
opaque guestRange : Nat → Nat → Nat → Bool

/-- Does the certificate of a guest die declare a frequency, in units of 50 MHz, for one of its regions (R351; free value,
log 5)? -/
opaque guestFreq : Nat → Nat → Bool

/-- The power that the monitor of a base ring reads, in 0.01 dBm as 16 bits, by ring and millisecond (R382, R391; free
value, log 5). -/
opaque ringPower : Nat → Nat → BitVec 16

/-- Bytes of the qualification certificate of a guest site's die (R452; free value, log 5). -/
opaque guestCert : Nat → List (BitVec 8)

/-- The limit in 0.25 °C of a bridge's, link engine's or guest die's own sensors, at which it trips: R405 trips
such a die and R404 gives no figure (free value, log 5). -/
opaque dieLimit : Nat → Int

/-- The maximum operating temperature of a bridge's HBM3E stack in °C, which its vendor sets (R404; free value,
log 5). -/
opaque hbmMax : Nat → Int

/-- Does the host port train at 800GBASE-R when a register write makes it train again (R296; free value, log 5)? -/
opaque portTrains : Nat → Bool

/-- Does a stack refresh doubly at a temperature in °C: JESD238 is outside the spec (R404; free value, log 5)? -/
opaque refresh2x : Int → Bool

end Sys2Proof.Config
end

