-- ==== Sys2Proof/Machine/Regs.lean ====
section
/-!
DEFINITION. The registers of the control space: their names, the address of each (R9 and the offset
tables of the chapters), and each field's bits, access code and reset value. `Reg.<NAME>` is the
address of a register's low word, `Fld.<NAME>_<FIELD>` a field of it, `regTable` the whole table.
-/

namespace Sys2Proof

/-- The 190 register names of the spec's register tables. -/
inductive RegName where
  | CFG_IDENT
  | CFG_SITE_MAP
  | CFG_CORE_COUNT
  | CORE_SITE_SLACK
  | CORE_SITE_SLACK_SRC
  | CORE_STATUS
  | CORE_SLACK
  | CORE_SLACK_MIN
  | CORE_MMA_CYC
  | CORE_WAIT_CYC
  | CORE_STRETCH
  | CORE_VFLAGS
  | CORE_PARITY_CNT
  | CORE_CTRL
  | CORE_STEP_BASE
  | CORE_SEQ_PC
  | CORE_SEQ_PHASE
  | CORE_SQUASH_CNT
  | CORE_DYN_STATUS
  | CORE_STALE_INC
  | CORE_TOKEN
  | CORE_CTOKEN
  | TITHE_BUDGET
  | TITHE_USED
  | TITHE_STALLS
  | BELL_NOW
  | BELL_COMMITTED
  | BELL_ORIGIN
  | BELL_STATUS
  | BELL_PLAN
  | BELL_PLAN2
  | BELL_CTRL
  | BELL_CNT_LATE
  | BELL_CNT_EXT
  | BELL_CNT_REPLAY
  | BELL_CNT_LATE_COMMIT
  | BELL_CNT_MISSING
  | GW_STALE_DROP
  | GW_CONFLICT_CNT
  | MEM_CACHE_CFG
  | MEM_CACHE_HIT
  | MEM_CACHE_MISS
  | MEM_CACHE_INV
  | MEM_PARITY_CNT
  | MEM_SPARE
  | MEM_HBM_STATUS
  | MEM_ECC_CORR
  | MEM_ECC_UNCORR
  | MEM_RETIRE_STATUS
  | MEM_FIX_CFG
  | MEM_FIX_USED
  | MEM_HBM_BYTES
  | MEM_CTRL
  | MEM_RETIRE_ENTRY
  | FAB_TX_PAIR
  | FAB_RX_PAIR
  | FAB_TX_STRIPE
  | FAB_RX_STRIPE
  | FAB_STEER
  | FAB_RESV
  | FAB_SYNC_ERR
  | FAB_RESTRIPE_CNT
  | FAB_COMB
  | GW_LATE_RESP_DROPPED
  | GW_EPOCH_DROP
  | GW_MALFORMED
  | GW_RETRY_CNT
  | GW_PAIR_RESET_CNT
  | GW_FEC_UNCORR
  | GW_CREDIT_STALL
  | GW_AGED_DROP
  | GW_SPEC_SERVED
  | GW_FEC_CORR
  | GW_EPOCH
  | GW_TAGS
  | LNK_STATUS
  | LNK_PEER
  | LNK_FAILOVER_CNT
  | LNK_RETRY_CNT
  | LNK_BUNDLE
  | LNK_ROUTE
  | LNK_CTRL
  | GW_DEDUPE_DROP
  | GW_DEDUPE_OVF
  | GW_RED_STATUS
  | GW_RED_IN
  | GW_RED_OUT
  | GW_RED_REFUSED
  | GW_RED_INCOMPLETE
  | GW_RED_BYTES
  | GW_MCAST_REPL
  | GW_RED_SLICE
  | GW_RED_SLICE2
  | HOST_PORT_STATUS
  | HOST_PORT_CTRL
  | HOST_PORT_DROP
  | HOST_RING_REFUSED
  | HOST_DOORBELL
  | HOST_RING_SEL
  | HOST_RING_INFO
  | HOST_RING_INDEX
  | HOST_CORE_STATUS
  | HOST_APERTURE
  | CFG_CTRL
  | CFG_STATUS
  | CFG_ACTIVATE
  | CFG_ALT
  | CFG_STAGE_RKEY
  | CFG_DIGEST
  | CFG_PARTIAL
  | CFG_STORE_MAP
  | CFG_START_STATUS
  | GW_RESET
  | GW_FENCE
  | GW_FENCE_CNT
  | FAB_FIELD_RESET
  | LNK_RESET
  | CLK_VC_NOW
  | CLK_VC_STATUS
  | CLK_VC_CTRL
  | CLK_VC_EPOCH
  | CLK_VC_RATE
  | CLK_VC_LINK
  | CLK_REGION_STATUS
  | CLK_REGION_CTRL
  | CLK_REGION_STRETCH
  | CLK_REGION_SYMP
  | CLK_XING
  | CAL_RING_HEAT
  | CAL_RING_ID
  | CAL_RING_FF
  | CAL_RING_EQ
  | CAL_RING_POWER
  | CAL_COMB_BIAS
  | CAL_COMB_RX
  | CAL_STATUS
  | CAL_REJECT_CNT
  | CAL_BRACKET_CNT
  | CAL_SENSOR_TRIM
  | CAL_SENSOR_OFS
  | PWR_STATUS
  | PWR_CTRL
  | PWR_INPUT
  | PWR_LIMIT
  | PWR_FIX
  | PWR_WAKE_CODE
  | THM_STATUS
  | THM_TRIP_CNT
  | THM_THROTTLE_CNT
  | THM_SENSOR
  | THM_FSENSOR
  | GRN_STATUS
  | GRN_CTRL
  | GRN_TARGET
  | GRN_FREE
  | GRN_MAP_SEQ
  | GRN_MAP_DIGEST
  | GRN_WEAR_SEL
  | GRN_WEAR
  | GRN_CORE_ROLE
  | GRN_HOST_ROLE
  | GRN_SITE
  | SEC_STATUS
  | SEC_LEAF
  | SEC_MEAS
  | SEC_IDENT
  | SEC_OPKEY
  | SEC_OPKEY_CTRL
  | SEC_OPKEY_SEQ
  | SEC_ATTEST
  | SEC_ATTEST_STATUS
  | SEC_GUEST
  | SEC_LEDGER_HEAD
  | SEC_LEDGER_CNT
  | EVT_STATUS
  | EVT_CTRL
  | EVT_UNMAPPED_CNT
  | MC_SHEET_BELL
  | DBG_TRACE
  | DBG_TRACE_BASE
  | CKV_CTRL
  | CKV_STATUS
  | MC_SHEET0
  | MC_SHEET1
  | CKV_ADDR
  | CKV_LEN
  | CKV_EXPECT
  | CKV_RESULT
  | CAL_FSENSOR_TRIM
  | CAL_FSENSOR_OFS
  deriving DecidableEq, Repr

/-- Access codes of R6. -/
inductive Access where
  | ro | rw | w1c | w1s | wo | rsv
  deriving DecidableEq, Repr

/-- Where the spec says a field's reset value comes from: a value, the fuses, the persistent granary
map, the MRAM, or the active image. -/
inductive ResetSrc where
  | value | fused | granary | mram | image
  deriving DecidableEq, Repr

/-- A bit range `[hi:lo]` of a register. -/
structure Fld where
  hi : Nat
  lo : Nat
  deriving DecidableEq, Repr

/-- One row of a register table. -/
structure FldRow where
  fld : Fld
  acc : Access
  reset : Nat
  src : ResetSrc
  deriving DecidableEq, Repr

/-- One index of a register array: `count` instances from index `first`, `stride` bytes apart. -/
structure Dim where
  first : Nat
  count : Nat
  stride : Nat
  deriving DecidableEq, Repr

/-- A register's instances: the address is `base` plus each index times its stride. -/
structure Place where
  base : Nat
  dims : List Dim
  deriving DecidableEq, Repr

/-- One register of the control space. -/
structure RegRow where
  name : RegName
  wide : Bool
  places : List Place
  flds : List FldRow
  deriving DecidableEq, Repr

namespace Reg

/-- CFG_IDENT (R17). -/
def CFG_IDENT : Nat := 0xF000
/-- CFG_SITE_MAP (R17). -/
def CFG_SITE_MAP : Nat := 0xF004
/-- CFG_CORE_COUNT (R17). -/
def CFG_CORE_COUNT : Nat := 0xF00C
/-- CORE_SITE_SLACK (R84). -/
def CORE_SITE_SLACK (i : Nat) : Nat := 0x1001000000 + 0x10000000 * i
/-- CORE_SITE_SLACK_SRC (R84). -/
def CORE_SITE_SLACK_SRC (i : Nat) : Nat := 0x1001000004 + 0x10000000 * i
/-- CORE_STATUS (R84). -/
def CORE_STATUS (i j : Nat) : Nat := 0x1002000000 + 0x10000000 * i + 0x1000 * j
/-- CORE_SLACK (R84). -/
def CORE_SLACK (i j : Nat) : Nat := 0x1002000004 + 0x10000000 * i + 0x1000 * j
/-- CORE_SLACK_MIN (R84). -/
def CORE_SLACK_MIN (i j : Nat) : Nat := 0x1002000008 + 0x10000000 * i + 0x1000 * j
/-- CORE_MMA_CYC (R84). -/
def CORE_MMA_CYC (i j : Nat) : Nat := 0x100200000C + 0x10000000 * i + 0x1000 * j
/-- CORE_WAIT_CYC (R84). -/
def CORE_WAIT_CYC (i j : Nat) : Nat := 0x1002000010 + 0x10000000 * i + 0x1000 * j
/-- CORE_STRETCH (R84). -/
def CORE_STRETCH (i j : Nat) : Nat := 0x1002000014 + 0x10000000 * i + 0x1000 * j
/-- CORE_VFLAGS (R84). -/
def CORE_VFLAGS (i j : Nat) : Nat := 0x1002000018 + 0x10000000 * i + 0x1000 * j
/-- CORE_PARITY_CNT (R84). -/
def CORE_PARITY_CNT (i j : Nat) : Nat := 0x100200001C + 0x10000000 * i + 0x1000 * j
/-- CORE_CTRL (R84). -/
def CORE_CTRL (i j : Nat) : Nat := 0x1002000020 + 0x10000000 * i + 0x1000 * j
/-- CORE_STEP_BASE (R125). -/
def CORE_STEP_BASE (i j : Nat) : Nat := 0x1001001000 + 0x10000000 * i + 0x4 * j
/-- CORE_SEQ_PC (R125). -/
def CORE_SEQ_PC (i j : Nat) : Nat := 0x1002000024 + 0x10000000 * i + 0x1000 * j
/-- CORE_SEQ_PHASE (R125). -/
def CORE_SEQ_PHASE (i j : Nat) : Nat := 0x1002000028 + 0x10000000 * i + 0x1000 * j
/-- CORE_SQUASH_CNT (R125). -/
def CORE_SQUASH_CNT (i j : Nat) : Nat := 0x100200002C + 0x10000000 * i + 0x1000 * j
/-- CORE_DYN_STATUS (R125). -/
def CORE_DYN_STATUS (i j : Nat) : Nat := 0x1002000030 + 0x10000000 * i + 0x1000 * j
/-- CORE_STALE_INC (R125). -/
def CORE_STALE_INC (i j : Nat) : Nat := 0x1002000034 + 0x10000000 * i + 0x1000 * j
/-- CORE_TOKEN (R125). -/
def CORE_TOKEN (i j k : Nat) : Nat := 0x1004000000 + 0x10000000 * i + 0x400 * j + 0x4 * k
/-- CORE_CTOKEN (R125). -/
def CORE_CTOKEN (i j k : Nat) : Nat := 0x1005000000 + 0x10000000 * i + 0x1000 * j + 0x4 * k
/-- TITHE_BUDGET (R158). -/
def TITHE_BUDGET (i j : Nat) : Nat := 0x21000 + 0x100 * i + 0x10 * j
/-- TITHE_USED (R158). -/
def TITHE_USED (i j : Nat) : Nat := 0x21004 + 0x100 * i + 0x10 * j
/-- TITHE_STALLS (R158). -/
def TITHE_STALLS (i j : Nat) : Nat := 0x21008 + 0x100 * i + 0x10 * j
/-- BELL_NOW (R159). -/
def BELL_NOW : Nat := 0x10000
/-- BELL_COMMITTED (R159). -/
def BELL_COMMITTED : Nat := 0x10008
/-- BELL_ORIGIN (R159). -/
def BELL_ORIGIN : Nat := 0x10010
/-- BELL_STATUS (R159). -/
def BELL_STATUS : Nat := 0x10018
/-- BELL_PLAN (R159). -/
def BELL_PLAN : Nat := 0x1001C
/-- BELL_PLAN2 (R159). -/
def BELL_PLAN2 : Nat := 0x10020
/-- BELL_CTRL (R159). -/
def BELL_CTRL : Nat := 0x10024
/-- BELL_CNT_LATE (R159). -/
def BELL_CNT_LATE : Nat := 0x10030
/-- BELL_CNT_EXT (R159). -/
def BELL_CNT_EXT : Nat := 0x10034
/-- BELL_CNT_REPLAY (R159). -/
def BELL_CNT_REPLAY : Nat := 0x10038
/-- BELL_CNT_LATE_COMMIT (R159). -/
def BELL_CNT_LATE_COMMIT : Nat := 0x1003C
/-- BELL_CNT_MISSING (R159). -/
def BELL_CNT_MISSING : Nat := 0x10040
/-- GW_STALE_DROP (R160). -/
def GW_STALE_DROP (i : Nat) : Nat := 0x1000000100 + 0x10000000 * i
/-- GW_CONFLICT_CNT (R160). -/
def GW_CONFLICT_CNT (i : Nat) : Nat := 0x1000000104 + 0x10000000 * i
/-- MEM_CACHE_CFG (R178). -/
def MEM_CACHE_CFG (i : Nat) : Nat := 0x1006000000 + 0x10000000 * i
/-- MEM_CACHE_HIT (R178). -/
def MEM_CACHE_HIT (i : Nat) : Nat := 0x1006000008 + 0x10000000 * i
/-- MEM_CACHE_MISS (R178). -/
def MEM_CACHE_MISS (i : Nat) : Nat := 0x1006000010 + 0x10000000 * i
/-- MEM_CACHE_INV (R178). -/
def MEM_CACHE_INV (i : Nat) : Nat := 0x1006000018 + 0x10000000 * i
/-- MEM_PARITY_CNT (R178). -/
def MEM_PARITY_CNT (i : Nat) : Nat := 0x100600001C + 0x10000000 * i
/-- MEM_SPARE (R178). -/
def MEM_SPARE (i : Nat) : Nat := 0x1006000020 + 0x10000000 * i
/-- MEM_HBM_STATUS (R179). -/
def MEM_HBM_STATUS (i : Nat) : Nat := 0x1006000000 + 0x10000000 * i
/-- MEM_ECC_CORR (R179). -/
def MEM_ECC_CORR (i : Nat) : Nat := 0x1006000008 + 0x10000000 * i
/-- MEM_ECC_UNCORR (R179). -/
def MEM_ECC_UNCORR (i : Nat) : Nat := 0x1006000010 + 0x10000000 * i
/-- MEM_RETIRE_STATUS (R179). -/
def MEM_RETIRE_STATUS (i : Nat) : Nat := 0x1006000014 + 0x10000000 * i
/-- MEM_FIX_CFG (R179). -/
def MEM_FIX_CFG (i : Nat) : Nat := 0x1006000018 + 0x10000000 * i
/-- MEM_FIX_USED (R179). -/
def MEM_FIX_USED (i : Nat) : Nat := 0x1006000020 + 0x10000000 * i
/-- MEM_HBM_BYTES (R179). -/
def MEM_HBM_BYTES (i : Nat) : Nat := 0x1006000024 + 0x10000000 * i
/-- MEM_CTRL (R179). -/
def MEM_CTRL (i : Nat) : Nat := 0x1006000028 + 0x10000000 * i
/-- MEM_RETIRE_ENTRY (R179). -/
def MEM_RETIRE_ENTRY (i j : Nat) : Nat := 0x1006001000 + 0x10000000 * i + 0x8 * j
/-- FAB_TX_PAIR (R203). -/
def FAB_TX_PAIR (i j : Nat) : Nat := 0x1008000000 + 0x10000000 * i + 0x4 * j
/-- FAB_RX_PAIR (R203). -/
def FAB_RX_PAIR (i j : Nat) : Nat := 0x1008000080 + 0x10000000 * i + 0x4 * j
/-- FAB_TX_STRIPE (R203). -/
def FAB_TX_STRIPE (i j : Nat) : Nat := 0x1008000100 + 0x10000000 * i + 0x8 * j
/-- FAB_RX_STRIPE (R203). -/
def FAB_RX_STRIPE (i j : Nat) : Nat := 0x1008000200 + 0x10000000 * i + 0x8 * j
/-- FAB_STEER (R203). -/
def FAB_STEER (i j : Nat) : Nat := 0x1008000400 + 0x10000000 * i + 0x4 * j
/-- FAB_RESV (R203). -/
def FAB_RESV (i : Nat) : Nat := 0x1008000500 + 0x10000000 * i
/-- FAB_SYNC_ERR (R203). -/
def FAB_SYNC_ERR (i : Nat) : Nat := 0x1008000504 + 0x10000000 * i
/-- FAB_RESTRIPE_CNT (R203). -/
def FAB_RESTRIPE_CNT (i : Nat) : Nat := 0x1008000508 + 0x10000000 * i
/-- FAB_COMB (R203). -/
def FAB_COMB (i : Nat) : Nat := 0x100800050C + 0x10000000 * i
/-- GW_LATE_RESP_DROPPED (R231). -/
def GW_LATE_RESP_DROPPED (i : Nat) : Nat := 0x1000000200 + 0x10000000 * i
/-- GW_EPOCH_DROP (R231). -/
def GW_EPOCH_DROP (i : Nat) : Nat := 0x1000000204 + 0x10000000 * i
/-- GW_MALFORMED (R231). -/
def GW_MALFORMED (i : Nat) : Nat := 0x1000000208 + 0x10000000 * i
/-- GW_RETRY_CNT (R231). -/
def GW_RETRY_CNT (i : Nat) : Nat := 0x100000020C + 0x10000000 * i
/-- GW_PAIR_RESET_CNT (R231). -/
def GW_PAIR_RESET_CNT (i : Nat) : Nat := 0x1000000210 + 0x10000000 * i
/-- GW_FEC_UNCORR (R231). -/
def GW_FEC_UNCORR (i : Nat) : Nat := 0x1000000214 + 0x10000000 * i
/-- GW_CREDIT_STALL (R231). -/
def GW_CREDIT_STALL (i : Nat) : Nat := 0x1000000220 + 0x10000000 * i
/-- GW_AGED_DROP (R231). -/
def GW_AGED_DROP (i : Nat) : Nat := 0x1000000224 + 0x10000000 * i
/-- GW_SPEC_SERVED (R231). -/
def GW_SPEC_SERVED (i : Nat) : Nat := 0x1000000228 + 0x10000000 * i
/-- GW_FEC_CORR (R231). -/
def GW_FEC_CORR (i : Nat) : Nat := 0x1000000218 + 0x10000000 * i
/-- GW_EPOCH (R231). -/
def GW_EPOCH (i : Nat) : Nat := 0x100000022C + 0x10000000 * i
/-- GW_TAGS (R231). -/
def GW_TAGS (i j : Nat) : Nat := 0x1000000400 + 0x10000000 * i + 0x4 * j
/-- LNK_STATUS (R260). -/
def LNK_STATUS (i j : Nat) : Nat := 0x100A000000 + 0x10000000 * i + 0x10 * j
/-- LNK_PEER (R260). -/
def LNK_PEER (i j : Nat) : Nat := 0x100A000004 + 0x10000000 * i + 0x10 * j
/-- LNK_FAILOVER_CNT (R260). -/
def LNK_FAILOVER_CNT (i j : Nat) : Nat := 0x100A000008 + 0x10000000 * i + 0x10 * j
/-- LNK_RETRY_CNT (R260). -/
def LNK_RETRY_CNT (i j : Nat) : Nat := 0x100A00000C + 0x10000000 * i + 0x10 * j
/-- LNK_BUNDLE (R260). -/
def LNK_BUNDLE (i j : Nat) : Nat := 0x100A000200 + 0x10000000 * i + 0x8 * j
/-- LNK_ROUTE (R260). -/
def LNK_ROUTE (i j : Nat) : Nat := 0x100B000000 + 0x10000000 * i + 0x4 * j
/-- LNK_CTRL (R260). -/
def LNK_CTRL (i : Nat) : Nat := 0x100A000400 + 0x10000000 * i
/-- GW_DEDUPE_DROP (R261). -/
def GW_DEDUPE_DROP (i : Nat) : Nat := 0x1000000230 + 0x10000000 * i
/-- GW_DEDUPE_OVF (R261). -/
def GW_DEDUPE_OVF (i : Nat) : Nat := 0x1000000234 + 0x10000000 * i
/-- GW_RED_STATUS (R278). -/
def GW_RED_STATUS (i : Nat) : Nat := 0x100C000000 + 0x10000000 * i
/-- GW_RED_IN (R278). -/
def GW_RED_IN (i : Nat) : Nat := 0x100C000008 + 0x10000000 * i
/-- GW_RED_OUT (R278). -/
def GW_RED_OUT (i : Nat) : Nat := 0x100C000010 + 0x10000000 * i
/-- GW_RED_REFUSED (R278). -/
def GW_RED_REFUSED (i : Nat) : Nat := 0x100C000018 + 0x10000000 * i
/-- GW_RED_INCOMPLETE (R278). -/
def GW_RED_INCOMPLETE (i : Nat) : Nat := 0x100C00001C + 0x10000000 * i
/-- GW_RED_BYTES (R278). -/
def GW_RED_BYTES (i : Nat) : Nat := 0x100C000020 + 0x10000000 * i
/-- GW_MCAST_REPL (R278). -/
def GW_MCAST_REPL (i : Nat) : Nat := 0x100C000024 + 0x10000000 * i
/-- GW_RED_SLICE (R278). -/
def GW_RED_SLICE (i j : Nat) : Nat := 0x100C010000 + 0x10000000 * i + 0x10 * j
/-- GW_RED_SLICE2 (R278). -/
def GW_RED_SLICE2 (i j : Nat) : Nat := 0x100C010008 + 0x10000000 * i + 0x10 * j
/-- HOST_PORT_STATUS (R305). -/
def HOST_PORT_STATUS : Nat := 0x90000
/-- HOST_PORT_CTRL (R305). -/
def HOST_PORT_CTRL : Nat := 0x90004
/-- HOST_PORT_DROP (R305). -/
def HOST_PORT_DROP : Nat := 0x90008
/-- HOST_RING_REFUSED (R305). -/
def HOST_RING_REFUSED : Nat := 0x90028
/-- HOST_DOORBELL (R305). -/
def HOST_DOORBELL : Nat := 0x90010
/-- HOST_RING_SEL (R305). -/
def HOST_RING_SEL : Nat := 0x90014
/-- HOST_RING_INFO (R305). -/
def HOST_RING_INFO : Nat := 0x90018
/-- HOST_RING_INDEX (R305). -/
def HOST_RING_INDEX : Nat := 0x90020
/-- HOST_CORE_STATUS (R305). -/
def HOST_CORE_STATUS (i : Nat) : Nat := 0x90100 + 0x4 * i
/-- HOST_APERTURE (R305). -/
def HOST_APERTURE (i j : Nat) : Nat := 0x90200 + 0x40 * i + 0x4 * j
/-- CFG_CTRL (R328). -/
def CFG_CTRL : Nat := 0x0
/-- CFG_STATUS (R328). -/
def CFG_STATUS : Nat := 0x8
/-- CFG_ACTIVATE (R328). -/
def CFG_ACTIVATE : Nat := 0x10
/-- CFG_ALT (R328). -/
def CFG_ALT : Nat := 0x18
/-- CFG_STAGE_RKEY (R328). -/
def CFG_STAGE_RKEY : Nat := 0x1C
/-- CFG_DIGEST (R328). -/
def CFG_DIGEST (i : Nat) : Nat := 0x20 + 0x4 * i
/-- CFG_PARTIAL (R328). -/
def CFG_PARTIAL (i : Nat) : Nat := 0x100 + 0x4 * i
/-- CFG_STORE_MAP (R328). -/
def CFG_STORE_MAP : Nat := 0x40
/-- CFG_START_STATUS (R348). -/
def CFG_START_STATUS : Nat := 0xF010
/-- GW_RESET (R348). -/
def GW_RESET (i : Nat) : Nat := 0x1000000300 + 0x10000000 * i
/-- GW_FENCE (R348). -/
def GW_FENCE (i : Nat) : Nat := 0x1000000304 + 0x10000000 * i
/-- GW_FENCE_CNT (R348). -/
def GW_FENCE_CNT (i : Nat) : Nat := 0x1000000308 + 0x10000000 * i
/-- FAB_FIELD_RESET (R348). -/
def FAB_FIELD_RESET (i : Nat) : Nat := 0x2000F00000 + 0x1000000 * i
/-- LNK_RESET (R348). -/
def LNK_RESET (i : Nat) : Nat := 0x100A000404 + 0x10000000 * i
/-- CLK_VC_NOW (R370). -/
def CLK_VC_NOW : Nat := 0x70000
/-- CLK_VC_STATUS (R370). -/
def CLK_VC_STATUS : Nat := 0x70008
/-- CLK_VC_CTRL (R370). -/
def CLK_VC_CTRL : Nat := 0x7000C
/-- CLK_VC_EPOCH (R370). -/
def CLK_VC_EPOCH : Nat := 0x70010
/-- CLK_VC_RATE (R370). -/
def CLK_VC_RATE : Nat := 0x70018
/-- CLK_VC_LINK (R370). -/
def CLK_VC_LINK (i : Nat) : Nat := 0x70100 + 0x4 * i
/-- CLK_REGION_STATUS (R370). -/
def CLK_REGION_STATUS (i : Nat) : Nat := 0x71000 + 0x10 * i
/-- CLK_REGION_CTRL (R370). -/
def CLK_REGION_CTRL (i : Nat) : Nat := 0x71004 + 0x10 * i
/-- CLK_REGION_STRETCH (R370). -/
def CLK_REGION_STRETCH (i : Nat) : Nat := 0x71008 + 0x10 * i
/-- CLK_REGION_SYMP (R370). -/
def CLK_REGION_SYMP (i : Nat) : Nat := 0x7100C + 0x10 * i
/-- CLK_XING (R370). -/
def CLK_XING (i j : Nat) : Nat := 0x74000 + 0x80 * i + 0x4 * j
/-- CAL_RING_HEAT (R391). -/
def CAL_RING_HEAT (i j : Nat) : Nat := 0x1009000000 + 0x10000000 * i + 0x20 * j
/-- CAL_RING_ID (R391). -/
def CAL_RING_ID (i j : Nat) : Nat := 0x1009000004 + 0x10000000 * i + 0x20 * j
/-- CAL_RING_FF (R391). -/
def CAL_RING_FF (i j : Nat) : Nat := 0x1009000008 + 0x10000000 * i + 0x20 * j
/-- CAL_RING_EQ (R391). -/
def CAL_RING_EQ (i j : Nat) : Nat := 0x100900000C + 0x10000000 * i + 0x20 * j
/-- CAL_RING_POWER (R391). -/
def CAL_RING_POWER (i j : Nat) : Nat := 0x1009000010 + 0x10000000 * i + 0x20 * j
/-- CAL_COMB_BIAS (R391). -/
def CAL_COMB_BIAS (i j : Nat) : Nat := 0x1009030000 + 0x10000000 * i + 0x8 * j
/-- CAL_COMB_RX (R391). -/
def CAL_COMB_RX (i j : Nat) : Nat := 0x1009030004 + 0x10000000 * i + 0x8 * j
/-- CAL_STATUS (R391). -/
def CAL_STATUS (i : Nat) : Nat := 0x1009030100 + 0x10000000 * i
/-- CAL_REJECT_CNT (R391). -/
def CAL_REJECT_CNT (i : Nat) : Nat := 0x1009030104 + 0x10000000 * i
/-- CAL_BRACKET_CNT (R391). -/
def CAL_BRACKET_CNT (i : Nat) : Nat := 0x1009030108 + 0x10000000 * i
/-- CAL_SENSOR_TRIM (R391). -/
def CAL_SENSOR_TRIM (i j : Nat) : Nat := 0x1009031000 + 0x10000000 * i + 0x8 * j
/-- CAL_SENSOR_OFS (R391). -/
def CAL_SENSOR_OFS (i j : Nat) : Nat := 0x1009031004 + 0x10000000 * i + 0x8 * j
/-- PWR_STATUS (R414). -/
def PWR_STATUS : Nat := 0x50000
/-- PWR_CTRL (R414). -/
def PWR_CTRL : Nat := 0x50004
/-- PWR_INPUT (R414). -/
def PWR_INPUT : Nat := 0x50008
/-- PWR_LIMIT (R414). -/
def PWR_LIMIT : Nat := 0x5000C
/-- PWR_FIX (R414). -/
def PWR_FIX : Nat := 0x50010
/-- PWR_WAKE_CODE (R414). -/
def PWR_WAKE_CODE : Nat := 0x50018
/-- THM_STATUS (R415). -/
def THM_STATUS : Nat := 0x60000
/-- THM_TRIP_CNT (R415). -/
def THM_TRIP_CNT : Nat := 0x60004
/-- THM_THROTTLE_CNT (R415). -/
def THM_THROTTLE_CNT : Nat := 0x60008
/-- THM_SENSOR (R415). -/
def THM_SENSOR (i j : Nat) : Nat := 0x61000 + 0x400 * i + 0x4 * j
/-- THM_FSENSOR (R415). -/
def THM_FSENSOR (i j : Nat) : Nat := 0x69000 + 0x80 * i + 0x4 * j
/-- GRN_STATUS (R433). -/
def GRN_STATUS : Nat := 0x30000
/-- GRN_CTRL (R433). -/
def GRN_CTRL : Nat := 0x30004
/-- GRN_TARGET (R433). -/
def GRN_TARGET : Nat := 0x30008
/-- GRN_FREE (R433). -/
def GRN_FREE : Nat := 0x3000C
/-- GRN_MAP_SEQ (R433). -/
def GRN_MAP_SEQ : Nat := 0x30010
/-- GRN_MAP_DIGEST (R433). -/
def GRN_MAP_DIGEST (i : Nat) : Nat := 0x30020 + 0x4 * i
/-- GRN_WEAR_SEL (R433). -/
def GRN_WEAR_SEL : Nat := 0x30040
/-- GRN_WEAR (R433). -/
def GRN_WEAR : Nat := 0x30044
/-- GRN_CORE_ROLE (R433). -/
def GRN_CORE_ROLE (i j : Nat) : Nat := 0x30100 + 0x20 * i + 0x4 * j
/-- GRN_HOST_ROLE (R433). -/
def GRN_HOST_ROLE (i : Nat) : Nat := 0x30200 + 0x4 * i
/-- GRN_SITE (R433). -/
def GRN_SITE (i : Nat) : Nat := 0x30300 + 0x4 * i
/-- SEC_STATUS (R454). -/
def SEC_STATUS : Nat := 0x40000
/-- SEC_LEAF (R454). -/
def SEC_LEAF : Nat := 0x40008
/-- SEC_MEAS (R454). -/
def SEC_MEAS (i j : Nat) : Nat := 0x40020 + 0x20 * i + 0x4 * j
/-- SEC_IDENT (R454). -/
def SEC_IDENT (i : Nat) : Nat := 0x400A0 + 0x4 * i
/-- SEC_OPKEY (R454). -/
def SEC_OPKEY (i : Nat) : Nat := 0x400C0 + 0x4 * i
/-- SEC_OPKEY_CTRL (R454). -/
def SEC_OPKEY_CTRL : Nat := 0x400E0
/-- SEC_OPKEY_SEQ (R454). -/
def SEC_OPKEY_SEQ : Nat := 0x400E8
/-- SEC_ATTEST (R454). -/
def SEC_ATTEST : Nat := 0x40100
/-- SEC_ATTEST_STATUS (R454). -/
def SEC_ATTEST_STATUS : Nat := 0x40108
/-- SEC_GUEST (R454). -/
def SEC_GUEST (i : Nat) : Nat := 0x40200 + 0x4 * i
/-- SEC_LEDGER_HEAD (R454). -/
def SEC_LEDGER_HEAD (i j : Nat) : Nat := 0x41000 + 0x40 * i + 0x4 * j
/-- SEC_LEDGER_CNT (R454). -/
def SEC_LEDGER_CNT (i : Nat) : Nat := 0x41020 + 0x40 * i
/-- EVT_STATUS (R468). -/
def EVT_STATUS : Nat := 0xC0000
/-- EVT_CTRL (R468). -/
def EVT_CTRL : Nat := 0xC0004
/-- EVT_UNMAPPED_CNT (R468). -/
def EVT_UNMAPPED_CNT : Nat := 0xC0008
/-- MC_SHEET_BELL (R468). -/
def MC_SHEET_BELL : Nat := 0xA0000
/-- DBG_TRACE (R468). -/
def DBG_TRACE : Nat := 0xB0000
/-- DBG_TRACE_BASE (R468). -/
def DBG_TRACE_BASE : Nat := 0xB0008
/-- CKV_CTRL (R468). -/
def CKV_CTRL (i : Nat) : Nat := 0x81000 + 0x40 * i
/-- CKV_STATUS (R468). -/
def CKV_STATUS (i : Nat) : Nat := 0x81004 + 0x40 * i
/-- MC_SHEET0 (R458). -/
def MC_SHEET0 (i j : Nat) : Nat := 0xA8000 + 0x100 * i + 0x4 * j
/-- MC_SHEET1 (R458). -/
def MC_SHEET1 (i j : Nat) : Nat := 0xAA000 + 0x100 * i + 0x4 * j
/-- CKV_ADDR (R468). -/
def CKV_ADDR (i : Nat) : Nat := 0x81008 + 0x40 * i
/-- CKV_LEN (R468). -/
def CKV_LEN (i : Nat) : Nat := 0x81010 + 0x40 * i
/-- CKV_EXPECT (R468). -/
def CKV_EXPECT (i : Nat) : Nat := 0x81018 + 0x40 * i
/-- CKV_RESULT (R468). -/
def CKV_RESULT (i : Nat) : Nat := 0x81020 + 0x40 * i
/-- CAL_FSENSOR_TRIM (R392). -/
def CAL_FSENSOR_TRIM (i j : Nat) : Nat := 0x2000100000 + 0x1000000 * i + 0x8 * j
/-- CAL_FSENSOR_OFS (R392). -/
def CAL_FSENSOR_OFS (i j : Nat) : Nat := 0x2000100004 + 0x1000000 * i + 0x8 * j

end Reg

namespace Fld

def CFG_IDENT_ORDER : Fld := ⟨31, 16⟩
def CFG_IDENT_STEPPING : Fld := ⟨15, 8⟩
def CFG_SITE_MAP_LIVE : Fld := ⟨63, 32⟩
def CFG_SITE_MAP_POPULATED : Fld := ⟨31, 0⟩
def CFG_CORE_COUNT_GRANARY_HOST : Fld := ⟨31, 28⟩
def CFG_CORE_COUNT_ENABLED_HOST : Fld := ⟨27, 22⟩
def CFG_CORE_COUNT_GRANARY_CORES : Fld := ⟨21, 15⟩
def CFG_CORE_COUNT_ENABLED_CORES : Fld := ⟨9, 0⟩
def CORE_SITE_SLACK_SLACK : Fld := ⟨31, 0⟩
def CORE_SITE_SLACK_SRC_BELL : Fld := ⟨31, 24⟩
def CORE_SITE_SLACK_SRC_CORE : Fld := ⟨6, 0⟩
def CORE_STATUS_BELL : Fld := ⟨31, 24⟩
def CORE_STATUS_CTX : Fld := ⟨23, 16⟩
def CORE_STATUS_STATE : Fld := ⟨4, 2⟩
def CORE_STATUS_ROLE : Fld := ⟨1, 0⟩
def CORE_SLACK_SLACK : Fld := ⟨31, 0⟩
def CORE_SLACK_MIN_MIN : Fld := ⟨31, 0⟩
def CORE_MMA_CYC_CYCLES : Fld := ⟨31, 0⟩
def CORE_WAIT_CYC_CYCLES : Fld := ⟨31, 0⟩
def CORE_STRETCH_PERIODS : Fld := ⟨31, 0⟩
def CORE_VFLAGS_NV : Fld := ⟨4, 4⟩
def CORE_VFLAGS_DZ : Fld := ⟨3, 3⟩
def CORE_VFLAGS_OF : Fld := ⟨2, 2⟩
def CORE_VFLAGS_UF : Fld := ⟨1, 1⟩
def CORE_VFLAGS_NX : Fld := ⟨0, 0⟩
def CORE_PARITY_CNT_COUNT : Fld := ⟨31, 0⟩
def CORE_CTRL_CLR_PARITY : Fld := ⟨1, 1⟩
def CORE_CTRL_CLR_MIN : Fld := ⟨0, 0⟩
def CORE_STEP_BASE_BASE : Fld := ⟨31, 0⟩
def CORE_SEQ_PC_UNRESOLVED : Fld := ⟨25, 23⟩
def CORE_SEQ_PC_RUNAHEAD : Fld := ⟨22, 16⟩
def CORE_SEQ_PC_PC : Fld := ⟨13, 0⟩
def CORE_SEQ_PHASE_LEN_M1 : Fld := ⟨23, 12⟩
def CORE_SEQ_PHASE_PHASE : Fld := ⟨11, 0⟩
def CORE_SQUASH_CNT_SQUASHES : Fld := ⟨31, 16⟩
def CORE_SQUASH_CNT_CANCELLED : Fld := ⟨15, 0⟩
def CORE_DYN_STATUS_REFUSED : Fld := ⟨31, 16⟩
def CORE_DYN_STATUS_PENDING : Fld := ⟨8, 0⟩
def CORE_STALE_INC_COUNT : Fld := ⟨31, 0⟩
def CORE_TOKEN_VALUE : Fld := ⟨31, 0⟩
def CORE_CTOKEN_VALUE : Fld := ⟨31, 0⟩
def TITHE_BUDGET_BUDGET : Fld := ⟨31, 0⟩
def TITHE_USED_USED : Fld := ⟨31, 0⟩
def TITHE_STALLS_COUNT : Fld := ⟨31, 0⟩
def BELL_NOW_NUMBER : Fld := ⟨47, 0⟩
def BELL_COMMITTED_VALID : Fld := ⟨63, 63⟩
def BELL_COMMITTED_NUMBER : Fld := ⟨47, 0⟩
def BELL_ORIGIN_T0 : Fld := ⟨63, 0⟩
def BELL_STATUS_STATE : Fld := ⟨31, 29⟩
def BELL_STATUS_EXT : Fld := ⟨28, 25⟩
def BELL_STATUS_REPLAYS : Fld := ⟨24, 23⟩
def BELL_STATUS_HOLD_REASON : Fld := ⟨22, 20⟩
def BELL_STATUS_ROOT : Fld := ⟨19, 19⟩
def BELL_STATUS_DEPTH : Fld := ⟨18, 12⟩
def BELL_PLAN_PERIOD : Fld := ⟨31, 19⟩
def BELL_PLAN_GUARD : Fld := ⟨18, 11⟩
def BELL_PLAN_D : Fld := ⟨10, 8⟩
def BELL_PLAN_EXT_MAX : Fld := ⟨7, 4⟩
def BELL_PLAN2_EXT_Q : Fld := ⟨31, 24⟩
def BELL_PLAN2_LEAD : Fld := ⟨23, 16⟩
def BELL_PLAN2_DRAIN : Fld := ⟨15, 0⟩
def BELL_CTRL_HOLD_REQ : Fld := ⟨1, 1⟩
def BELL_CTRL_RESUME : Fld := ⟨0, 0⟩
def BELL_CNT_LATE_COUNT : Fld := ⟨31, 0⟩
def BELL_CNT_EXT_COUNT : Fld := ⟨31, 0⟩
def BELL_CNT_REPLAY_COUNT : Fld := ⟨31, 0⟩
def BELL_CNT_LATE_COMMIT_COUNT : Fld := ⟨31, 0⟩
def BELL_CNT_MISSING_COUNT : Fld := ⟨31, 0⟩
def GW_STALE_DROP_COUNT : Fld := ⟨31, 0⟩
def GW_CONFLICT_CNT_COUNT : Fld := ⟨31, 0⟩
def MEM_CACHE_CFG_SCRATCH : Fld := ⟨20, 16⟩
def MEM_CACHE_CFG_SETS : Fld := ⟨11, 0⟩
def MEM_CACHE_HIT_COUNT : Fld := ⟨63, 0⟩
def MEM_CACHE_MISS_COUNT : Fld := ⟨63, 0⟩
def MEM_CACHE_INV_COUNT : Fld := ⟨31, 0⟩
def MEM_PARITY_CNT_COUNT : Fld := ⟨31, 0⟩
def MEM_SPARE_RETIRED : Fld := ⟨31, 16⟩
def MEM_SPARE_MIN_SPARE : Fld := ⟨13, 8⟩
def MEM_SPARE_PORT : Fld := ⟨5, 0⟩
def MEM_HBM_STATUS_COMMIT_LOST : Fld := ⟨12, 12⟩
def MEM_HBM_STATUS_REFRESH_2X : Fld := ⟨11, 11⟩
def MEM_HBM_STATUS_TEMP : Fld := ⟨10, 3⟩
def MEM_HBM_STATUS_STATE : Fld := ⟨2, 0⟩
def MEM_ECC_CORR_COUNT : Fld := ⟨63, 0⟩
def MEM_ECC_UNCORR_COUNT : Fld := ⟨31, 0⟩
def MEM_RETIRE_STATUS_RETIRED : Fld := ⟨28, 16⟩
def MEM_RETIRE_STATUS_PENDING : Fld := ⟨15, 8⟩
def MEM_RETIRE_STATUS_LOST : Fld := ⟨7, 0⟩
def MEM_FIX_CFG_SIZE : Fld := ⟨63, 52⟩
def MEM_FIX_CFG_BASE_VALID : Fld := ⟨51, 51⟩
def MEM_FIX_CFG_BASE : Fld := ⟨42, 20⟩
def MEM_FIX_USED_PEAK : Fld := ⟨31, 16⟩
def MEM_FIX_USED_NOW : Fld := ⟨15, 0⟩
def MEM_HBM_BYTES_BYTES : Fld := ⟨31, 0⟩
def MEM_CTRL_ACK_LOST : Fld := ⟨0, 0⟩
def MEM_RETIRE_ENTRY_STATE : Fld := ⟨63, 62⟩
def MEM_RETIRE_ENTRY_LOST : Fld := ⟨61, 61⟩
def MEM_RETIRE_ENTRY_PAGE : Fld := ⟨60, 30⟩
def MEM_RETIRE_ENTRY_LINES : Fld := ⟨29, 0⟩
def FAB_TX_PAIR_VERSION : Fld := ⟨31, 28⟩
def FAB_TX_PAIR_CARRIERS : Fld := ⟨27, 22⟩
def FAB_TX_PAIR_SPARED : Fld := ⟨21, 20⟩
def FAB_TX_PAIR_BRACKET : Fld := ⟨19, 19⟩
def FAB_TX_PAIR_OUT : Fld := ⟨18, 18⟩
def FAB_TX_PAIR_CTRL : Fld := ⟨17, 17⟩
def FAB_TX_PAIR_CTRL_ALONE : Fld := ⟨16, 16⟩
def FAB_TX_PAIR_FAILED : Fld := ⟨5, 0⟩
def FAB_RX_PAIR_VERSION : Fld := ⟨31, 28⟩
def FAB_RX_PAIR_CARRIERS : Fld := ⟨27, 22⟩
def FAB_RX_PAIR_SPARED : Fld := ⟨21, 20⟩
def FAB_RX_PAIR_BRACKET : Fld := ⟨19, 19⟩
def FAB_RX_PAIR_OUT : Fld := ⟨18, 18⟩
def FAB_RX_PAIR_CTRL : Fld := ⟨17, 17⟩
def FAB_RX_PAIR_CTRL_ALONE : Fld := ⟨16, 16⟩
def FAB_RX_PAIR_FAILED : Fld := ⟨5, 0⟩
def FAB_TX_STRIPE_PLANES : Fld := ⟨33, 0⟩
def FAB_RX_STRIPE_PLANES : Fld := ⟨33, 0⟩
def FAB_STEER_RX_SB : Fld := ⟨29, 24⟩
def FAB_STEER_RX_SA : Fld := ⟨21, 16⟩
def FAB_STEER_TX_SB : Fld := ⟨13, 8⟩
def FAB_STEER_TX_SA : Fld := ⟨5, 0⟩
def FAB_RESV_RESV : Fld := ⟨4, 0⟩
def FAB_SYNC_ERR_ONE_BAD : Fld := ⟨31, 16⟩
def FAB_SYNC_ERR_LOST : Fld := ⟨15, 0⟩
def FAB_RESTRIPE_CNT_COUNT : Fld := ⟨31, 0⟩
def FAB_COMB_SPARE_FOR : Fld := ⟨17, 15⟩
def FAB_COMB_C4 : Fld := ⟨14, 12⟩
def FAB_COMB_C3 : Fld := ⟨11, 9⟩
def FAB_COMB_C2 : Fld := ⟨8, 6⟩
def FAB_COMB_C1 : Fld := ⟨5, 3⟩
def FAB_COMB_C0 : Fld := ⟨2, 0⟩
def GW_LATE_RESP_DROPPED_COUNT : Fld := ⟨31, 0⟩
def GW_EPOCH_DROP_COUNT : Fld := ⟨31, 0⟩
def GW_MALFORMED_COUNT : Fld := ⟨31, 0⟩
def GW_RETRY_CNT_COUNT : Fld := ⟨31, 0⟩
def GW_PAIR_RESET_CNT_COUNT : Fld := ⟨31, 0⟩
def GW_FEC_UNCORR_COUNT : Fld := ⟨31, 0⟩
def GW_CREDIT_STALL_COUNT : Fld := ⟨31, 0⟩
def GW_AGED_DROP_COUNT : Fld := ⟨31, 0⟩
def GW_SPEC_SERVED_COUNT : Fld := ⟨31, 0⟩
def GW_FEC_CORR_COUNT : Fld := ⟨63, 0⟩
def GW_EPOCH_EPOCH : Fld := ⟨3, 0⟩
def GW_TAGS_QUARANTINED : Fld := ⟨28, 16⟩
def GW_TAGS_LIVE : Fld := ⟨12, 0⟩
def LNK_STATUS_STATE : Fld := ⟨31, 29⟩
def LNK_STATUS_REDIRECT : Fld := ⟨28, 28⟩
def LNK_STATUS_REVERTIVE : Fld := ⟨27, 27⟩
def LNK_STATUS_DUAL : Fld := ⟨26, 26⟩
def LNK_STATUS_WAVES : Fld := ⟨25, 21⟩
def LNK_STATUS_SPARE_WAVE : Fld := ⟨20, 20⟩
def LNK_STATUS_BRACKET : Fld := ⟨19, 19⟩
def LNK_STATUS_HELD : Fld := ⟨18, 16⟩
def LNK_STATUS_FIBRE : Fld := ⟨15, 0⟩
def LNK_PEER_PKG : Fld := ⟨31, 16⟩
def LNK_PEER_GEN : Fld := ⟨8, 7⟩
def LNK_PEER_LINK : Fld := ⟨6, 0⟩
def LNK_FAILOVER_CNT_COUNT : Fld := ⟨31, 0⟩
def LNK_RETRY_CNT_COUNT : Fld := ⟨31, 0⟩
def LNK_BUNDLE_VALID : Fld := ⟨63, 63⟩
def LNK_BUNDLE_REVERTIVE : Fld := ⟨62, 62⟩
def LNK_BUNDLE_SLOTS_M1 : Fld := ⟨61, 59⟩
def LNK_BUNDLE_SLOT : Fld := ⟨55, 0⟩
def LNK_ROUTE_ENTRY : Fld := ⟨31, 0⟩
def LNK_CTRL_RESTORE : Fld := ⟨0, 0⟩
def GW_DEDUPE_DROP_COUNT : Fld := ⟨31, 0⟩
def GW_DEDUPE_OVF_COUNT : Fld := ⟨31, 0⟩
def GW_RED_STATUS_GROUP : Fld := ⟨27, 16⟩
def GW_RED_STATUS_STATE : Fld := ⟨15, 14⟩
def GW_RED_STATUS_OPEN : Fld := ⟨13, 0⟩
def GW_RED_IN_COUNT : Fld := ⟨63, 0⟩
def GW_RED_OUT_COUNT : Fld := ⟨63, 0⟩
def GW_RED_REFUSED_COUNT : Fld := ⟨31, 0⟩
def GW_RED_INCOMPLETE_COUNT : Fld := ⟨31, 0⟩
def GW_RED_BYTES_BYTES : Fld := ⟨31, 0⟩
def GW_MCAST_REPL_RECORDS : Fld := ⟨31, 22⟩
def GW_MCAST_REPL_STALLS : Fld := ⟨21, 0⟩
def GW_RED_SLICE_VALID : Fld := ⟨63, 63⟩
def GW_RED_SLICE_OP : Fld := ⟨62, 61⟩
def GW_RED_SLICE_OUT_FMT : Fld := ⟨60, 57⟩
def GW_RED_SLICE_RMODE : Fld := ⟨56, 55⟩
def GW_RED_SLICE_CTX : Fld := ⟨54, 47⟩
def GW_RED_SLICE_PHASE : Fld := ⟨46, 35⟩
def GW_RED_SLICE_BASE : Fld := ⟨27, 14⟩
def GW_RED_SLICE_LEN : Fld := ⟨13, 0⟩
def GW_RED_SLICE2_CONTRIB_M1 : Fld := ⟨63, 48⟩
def GW_RED_SLICE2_DONE : Fld := ⟨47, 34⟩
def GW_RED_SLICE2_COMPLETE : Fld := ⟨33, 33⟩
def HOST_PORT_STATUS_STATE : Fld := ⟨31, 29⟩
def HOST_PORT_STATUS_MACSEC : Fld := ⟨28, 28⟩
def HOST_PORT_STATUS_XOFF : Fld := ⟨27, 27⟩
def HOST_PORT_STATUS_PAUSED : Fld := ⟨23, 16⟩
def HOST_PORT_CTRL_FORCE_400 : Fld := ⟨1, 1⟩
def HOST_PORT_CTRL_RETRAIN : Fld := ⟨0, 0⟩
def HOST_PORT_DROP_COUNT : Fld := ⟨31, 0⟩
def HOST_RING_REFUSED_COUNT : Fld := ⟨31, 0⟩
def HOST_DOORBELL_SIDE : Fld := ⟨31, 31⟩
def HOST_DOORBELL_RING : Fld := ⟨30, 16⟩
def HOST_DOORBELL_INDEX : Fld := ⟨15, 0⟩
def HOST_RING_SEL_RING : Fld := ⟨14, 0⟩
def HOST_RING_INFO_VALID : Fld := ⟨63, 63⟩
def HOST_RING_INFO_CTX : Fld := ⟨62, 55⟩
def HOST_RING_INFO_KIND : Fld := ⟨54, 52⟩
def HOST_RING_INFO_LOG2_DEPTH : Fld := ⟨51, 47⟩
def HOST_RING_INFO_STATE : Fld := ⟨46, 45⟩
def HOST_RING_INFO_QPN : Fld := ⟨23, 0⟩
def HOST_RING_INDEX_CI : Fld := ⟨63, 32⟩
def HOST_RING_INDEX_PI : Fld := ⟨31, 0⟩
def HOST_CORE_STATUS_CTX : Fld := ⟨31, 24⟩
def HOST_CORE_STATUS_ROLE : Fld := ⟨3, 2⟩
def HOST_CORE_STATUS_STATE : Fld := ⟨1, 0⟩
def HOST_APERTURE_PKG : Fld := ⟨15, 0⟩
def CFG_CTRL_KIND : Fld := ⟨15, 15⟩
def CFG_CTRL_SLOT : Fld := ⟨13, 8⟩
def CFG_CTRL_CANCEL : Fld := ⟨1, 1⟩
def CFG_CTRL_ENABLE : Fld := ⟨0, 0⟩
def CFG_STATUS_REASON : Fld := ⟨63, 48⟩
def CFG_STATUS_SEGMENT : Fld := ⟨47, 44⟩
def CFG_STATUS_VARIANT : Fld := ⟨43, 40⟩
def CFG_STATUS_STATE : Fld := ⟨39, 37⟩
def CFG_STATUS_KIND : Fld := ⟨36, 36⟩
def CFG_STATUS_SLOT : Fld := ⟨35, 30⟩
def CFG_STATUS_OFFSET : Fld := ⟨29, 0⟩
def CFG_ACTIVATE_VALID : Fld := ⟨63, 63⟩
def CFG_ACTIVATE_BELL : Fld := ⟨47, 0⟩
def CFG_ALT_ACTIVE : Fld := ⟨7, 4⟩
def CFG_ALT_SELECT : Fld := ⟨3, 0⟩
def CFG_STAGE_RKEY_RKEY : Fld := ⟨31, 0⟩
def CFG_DIGEST_DIGEST : Fld := ⟨31, 0⟩
def CFG_PARTIAL_STATE : Fld := ⟨31, 30⟩
def CFG_PARTIAL_PENDING_SLOT : Fld := ⟨13, 8⟩
def CFG_PARTIAL_ACTIVE_SLOT : Fld := ⟨5, 0⟩
def CFG_STORE_MAP_FULL0_VALID : Fld := ⟨31, 31⟩
def CFG_STORE_MAP_FULL0 : Fld := ⟨30, 26⟩
def CFG_STORE_MAP_FULL1_VALID : Fld := ⟨25, 25⟩
def CFG_STORE_MAP_FULL1 : Fld := ⟨24, 20⟩
def CFG_STORE_MAP_PART0_VALID : Fld := ⟨19, 19⟩
def CFG_STORE_MAP_PART0 : Fld := ⟨18, 14⟩
def CFG_STORE_MAP_PART1_VALID : Fld := ⟨13, 13⟩
def CFG_STORE_MAP_PART1 : Fld := ⟨12, 8⟩
def CFG_STORE_MAP_LOST : Fld := ⟨7, 0⟩
def CFG_START_STATUS_STEP : Fld := ⟨31, 28⟩
def CFG_START_STATUS_READY : Fld := ⟨27, 27⟩
def CFG_START_STATUS_DEGRADED : Fld := ⟨26, 26⟩
def CFG_START_STATUS_ELAPSED : Fld := ⟨19, 0⟩
def GW_RESET_STATE : Fld := ⟨31, 29⟩
def GW_RESET_DOMAIN : Fld := ⟨28, 26⟩
def GW_RESET_LOST_HBM : Fld := ⟨25, 25⟩
def GW_RESET_LOST_SCRATCH : Fld := ⟨24, 24⟩
def GW_RESET_LOST_COMPUTE : Fld := ⟨23, 23⟩
def GW_RESET_ACK_LOST : Fld := ⟨3, 3⟩
def GW_RESET_REQUEST : Fld := ⟨2, 0⟩
def GW_FENCE_PEERS : Fld := ⟨31, 0⟩
def GW_FENCE_CNT_COUNT : Fld := ⟨31, 0⟩
def FAB_FIELD_RESET_STATE : Fld := ⟨31, 29⟩
def FAB_FIELD_RESET_RELEASE : Fld := ⟨1, 1⟩
def FAB_FIELD_RESET_RESET : Fld := ⟨0, 0⟩
def LNK_RESET_LINK : Fld := ⟨9, 0⟩
def CLK_VC_NOW_TIME : Fld := ⟨63, 0⟩
def CLK_VC_STATUS_STATE : Fld := ⟨31, 29⟩
def CLK_VC_STATUS_LINKS : Fld := ⟨28, 22⟩
def CLK_VC_STATUS_ERR : Fld := ⟨15, 0⟩
def CLK_VC_CTRL_EPOCH_VALID : Fld := ⟨1, 1⟩
def CLK_VC_CTRL_SEED : Fld := ⟨0, 0⟩
def CLK_VC_EPOCH_TIME : Fld := ⟨63, 0⟩
def CLK_VC_RATE_RATE : Fld := ⟨31, 0⟩
def CLK_VC_LINK_USED : Fld := ⟨31, 31⟩
def CLK_VC_LINK_CONFLICT : Fld := ⟨30, 30⟩
def CLK_VC_LINK_OUTLIER : Fld := ⟨29, 29⟩
def CLK_VC_LINK_ERR : Fld := ⟨15, 0⟩
def CLK_REGION_STATUS_ENTRY : Fld := ⟨31, 28⟩
def CLK_REGION_STATUS_DERATE : Fld := ⟨27, 24⟩
def CLK_REGION_STATUS_STATE : Fld := ⟨23, 21⟩
def CLK_REGION_STATUS_FREQ : Fld := ⟨20, 15⟩
def CLK_REGION_CTRL_TARGET : Fld := ⟨3, 0⟩
def CLK_REGION_STRETCH_COUNT : Fld := ⟨31, 0⟩
def CLK_REGION_SYMP_COUNT : Fld := ⟨31, 0⟩
def CLK_XING_VALID : Fld := ⟨31, 31⟩
def CLK_XING_SRC : Fld := ⟨30, 22⟩
def CLK_XING_LATENCY : Fld := ⟨21, 19⟩
def CLK_XING_SYMP : Fld := ⟨18, 18⟩
def CLK_XING_DEBT : Fld := ⟨15, 8⟩
def CLK_XING_SLIPS : Fld := ⟨7, 0⟩
def CAL_RING_HEAT_CODE_B : Fld := ⟨31, 16⟩
def CAL_RING_HEAT_CODE_A : Fld := ⟨15, 0⟩
def CAL_RING_ID_STATE : Fld := ⟨31, 29⟩
def CAL_RING_ID_SEG : Fld := ⟨28, 28⟩
def CAL_RING_ID_SEG_FAILED : Fld := ⟨27, 27⟩
def CAL_RING_ID_STALE : Fld := ⟨26, 26⟩
def CAL_RING_ID_FAILS : Fld := ⟨25, 24⟩
def CAL_RING_ID_LOCKED : Fld := ⟨21, 16⟩
def CAL_RING_ID_EXPECT : Fld := ⟨15, 0⟩
def CAL_RING_FF_GAIN : Fld := ⟨31, 16⟩
def CAL_RING_FF_SRC : Fld := ⟨15, 11⟩
def CAL_RING_FF_RAMP : Fld := ⟨10, 0⟩
def CAL_RING_EQ_THRESH : Fld := ⟨31, 24⟩
def CAL_RING_EQ_CTLE : Fld := ⟨23, 20⟩
def CAL_RING_EQ_PRE : Fld := ⟨19, 14⟩
def CAL_RING_EQ_POST : Fld := ⟨13, 8⟩
def CAL_RING_EQ_H1 : Fld := ⟨7, 2⟩
def CAL_RING_POWER_POWER : Fld := ⟨31, 16⟩
def CAL_RING_POWER_MERIT : Fld := ⟨15, 0⟩
def CAL_COMB_BIAS_BIAS : Fld := ⟨27, 16⟩
def CAL_COMB_BIAS_LIMIT : Fld := ⟨11, 0⟩
def CAL_COMB_RX_MIN : Fld := ⟨31, 16⟩
def CAL_COMB_RX_TARGET : Fld := ⟨15, 0⟩
def CAL_STATUS_ACTIVE : Fld := ⟨31, 24⟩
def CAL_STATUS_STUCK : Fld := ⟨23, 16⟩
def CAL_STATUS_OVERDUE : Fld := ⟨15, 0⟩
def CAL_REJECT_CNT_COUNT : Fld := ⟨31, 0⟩
def CAL_BRACKET_CNT_COUNT : Fld := ⟨31, 0⟩
def CAL_SENSOR_TRIM_SLOPE : Fld := ⟨31, 16⟩
def CAL_SENSOR_TRIM_INTERCEPT : Fld := ⟨15, 0⟩
def CAL_SENSOR_OFS_STALE : Fld := ⟨31, 31⟩
def CAL_SENSOR_OFS_OFFSET : Fld := ⟨15, 0⟩
def PWR_STATUS_STATE : Fld := ⟨31, 29⟩
def PWR_STATUS_VHOLD_OK : Fld := ⟨28, 28⟩
def PWR_STATUS_SUPPLY_LOW : Fld := ⟨27, 27⟩
def PWR_STATUS_PHASES : Fld := ⟨26, 22⟩
def PWR_CTRL_WAKE : Fld := ⟨1, 1⟩
def PWR_CTRL_SAFELIGHT : Fld := ⟨0, 0⟩
def PWR_INPUT_VOLTS : Fld := ⟨31, 16⟩
def PWR_INPUT_AMPS : Fld := ⟨15, 0⟩
def PWR_LIMIT_WATTS : Fld := ⟨31, 16⟩
def PWR_LIMIT_STEPS : Fld := ⟨15, 12⟩
def PWR_FIX_SEQ : Fld := ⟨31, 16⟩
def PWR_FIX_REASON : Fld := ⟨15, 8⟩
def PWR_FIX_MERGED : Fld := ⟨0, 0⟩
def PWR_WAKE_CODE_CODE : Fld := ⟨63, 0⟩
def THM_STATUS_HOTTEST : Fld := ⟨31, 20⟩
def THM_STATUS_SOURCE : Fld := ⟨19, 14⟩
def THM_STATUS_FAST : Fld := ⟨0, 0⟩
def THM_TRIP_CNT_COUNT : Fld := ⟨31, 0⟩
def THM_THROTTLE_CNT_COUNT : Fld := ⟨31, 0⟩
def THM_SENSOR_VALID : Fld := ⟨31, 31⟩
def THM_SENSOR_STALE : Fld := ⟨30, 30⟩
def THM_SENSOR_FAST : Fld := ⟨29, 29⟩
def THM_SENSOR_TEMP : Fld := ⟨11, 0⟩
def THM_FSENSOR_VALID : Fld := ⟨31, 31⟩
def THM_FSENSOR_STALE : Fld := ⟨30, 30⟩
def THM_FSENSOR_FAST : Fld := ⟨29, 29⟩
def THM_FSENSOR_TEMP : Fld := ⟨11, 0⟩
def GRN_STATUS_PENDING : Fld := ⟨31, 31⟩
def GRN_STATUS_COPY_BAD : Fld := ⟨30, 30⟩
def GRN_CTRL_RETIRE_CORE : Fld := ⟨1, 1⟩
def GRN_CTRL_DRAW_HOST : Fld := ⟨0, 0⟩
def GRN_TARGET_SITE : Fld := ⟨9, 7⟩
def GRN_TARGET_CORE : Fld := ⟨6, 0⟩
def GRN_FREE_LINKS : Fld := ⟨31, 29⟩
def GRN_FREE_HOSTS : Fld := ⟨28, 25⟩
def GRN_FREE_CORES : Fld := ⟨24, 18⟩
def GRN_FREE_COMBS : Fld := ⟨17, 12⟩
def GRN_MAP_SEQ_SEQ : Fld := ⟨63, 0⟩
def GRN_MAP_DIGEST_DIGEST : Fld := ⟨31, 0⟩
def GRN_WEAR_SEL_KIND : Fld := ⟨31, 28⟩
def GRN_WEAR_SEL_INDEX : Fld := ⟨27, 0⟩
def GRN_WEAR_COUNT : Fld := ⟨31, 0⟩
def GRN_CORE_ROLE_ROLE : Fld := ⟨31, 0⟩
def GRN_HOST_ROLE_ROLE : Fld := ⟨15, 0⟩
def GRN_SITE_RETIRED : Fld := ⟨31, 31⟩
def GRN_SITE_C4_USED : Fld := ⟨30, 30⟩
def GRN_SITE_TRIPLE_DEGRADED : Fld := ⟨29, 29⟩
def GRN_SITE_HALF_WIDTH : Fld := ⟨28, 28⟩
def GRN_SITE_CTRL_INBAND : Fld := ⟨27, 27⟩
def GRN_SITE_SYNC_SINGLE : Fld := ⟨26, 26⟩
def GRN_SITE_LANES_USED : Fld := ⟨25, 16⟩
def GRN_SITE_TRIPLE_CNT : Fld := ⟨15, 8⟩
def GRN_SITE_BOND_SPARED : Fld := ⟨7, 0⟩
def SEC_STATUS_STAGE : Fld := ⟨31, 29⟩
def SEC_STATUS_FAIL : Fld := ⟨28, 26⟩
def SEC_STATUS_OPKEY : Fld := ⟨25, 25⟩
def SEC_STATUS_OPKEY_REFUSED : Fld := ⟨24, 24⟩
def SEC_STATUS_EXHAUSTED : Fld := ⟨23, 23⟩
def SEC_LEAF_TOP_Q : Fld := ⟨63, 53⟩
def SEC_LEAF_LOWER_Q : Fld := ⟨52, 37⟩
def SEC_LEAF_RESERVED_TO : Fld := ⟨36, 21⟩
def SEC_MEAS_DIGEST : Fld := ⟨31, 0⟩
def SEC_IDENT_DIGEST : Fld := ⟨31, 0⟩
def SEC_OPKEY_DIGEST : Fld := ⟨31, 0⟩
def SEC_OPKEY_CTRL_GO : Fld := ⟨63, 63⟩
def SEC_OPKEY_CTRL_ADDR : Fld := ⟨47, 0⟩
def SEC_OPKEY_SEQ_SEQ : Fld := ⟨63, 0⟩
def SEC_ATTEST_CTX : Fld := ⟨63, 56⟩
def SEC_ATTEST_ADDR : Fld := ⟨47, 0⟩
def SEC_ATTEST_STATUS_STATE : Fld := ⟨31, 30⟩
def SEC_ATTEST_STATUS_REASON : Fld := ⟨29, 28⟩
def SEC_GUEST_STATE : Fld := ⟨31, 29⟩
def SEC_GUEST_STEP : Fld := ⟨28, 26⟩
def SEC_LEDGER_HEAD_VALUE : Fld := ⟨31, 0⟩
def SEC_LEDGER_CNT_VALUE : Fld := ⟨63, 0⟩
def EVT_STATUS_OVERWRITTEN : Fld := ⟨31, 16⟩
def EVT_STATUS_RING_LOST : Fld := ⟨15, 0⟩
def EVT_CTRL_VALID : Fld := ⟨31, 31⟩
def EVT_CTRL_RING : Fld := ⟨14, 0⟩
def EVT_UNMAPPED_CNT_COUNT : Fld := ⟨31, 0⟩
def MC_SHEET_BELL_BELL : Fld := ⟨47, 0⟩
def DBG_TRACE_ENABLE : Fld := ⟨31, 31⟩
def DBG_TRACE_SITE : Fld := ⟨30, 26⟩
def DBG_TRACE_LOG2_SIZE : Fld := ⟨25, 20⟩
def DBG_TRACE_DROPPED : Fld := ⟨19, 0⟩
def DBG_TRACE_BASE_BASE : Fld := ⟨63, 0⟩
def CKV_CTRL_CTX : Fld := ⟨31, 24⟩
def CKV_CTRL_CHUNK : Fld := ⟨23, 5⟩
def CKV_CTRL_SEL : Fld := ⟨4, 3⟩
def CKV_CTRL_MODE : Fld := ⟨2, 2⟩
def CKV_CTRL_REPEAT : Fld := ⟨1, 1⟩
def CKV_CTRL_START : Fld := ⟨0, 0⟩
def CKV_STATUS_STATE : Fld := ⟨31, 30⟩
def CKV_STATUS_PASSES : Fld := ⟨29, 0⟩
def MC_SHEET0_WORD : Fld := ⟨31, 0⟩
def MC_SHEET1_WORD : Fld := ⟨31, 0⟩
def CKV_ADDR_VALUE : Fld := ⟨63, 0⟩
def CKV_LEN_VALUE : Fld := ⟨63, 0⟩
def CKV_EXPECT_VALUE : Fld := ⟨63, 0⟩
def CKV_RESULT_VALUE : Fld := ⟨63, 0⟩
def CAL_FSENSOR_TRIM_SLOPE : Fld := ⟨31, 16⟩
def CAL_FSENSOR_TRIM_INTERCEPT : Fld := ⟨15, 0⟩
def CAL_FSENSOR_OFS_STALE : Fld := ⟨31, 31⟩
def CAL_FSENSOR_OFS_OFFSET : Fld := ⟨15, 0⟩

end Fld

/-- Registers of chapter 01. -/
def regTable01 : List RegRow := [
  ⟨.CFG_IDENT, false, [⟨0xF000, []⟩],
    [⟨⟨31, 16⟩, .ro, 0x7704, .fused⟩, ⟨⟨15, 8⟩, .ro, 0xB0, .fused⟩, ⟨⟨7, 0⟩, .rsv, 0x0, .value⟩]⟩,
  ⟨.CFG_SITE_MAP, true, [⟨0xF004, []⟩],
    [⟨⟨63, 32⟩, .ro, 0x0, .value⟩, ⟨⟨31, 0⟩, .ro, 0x0, .fused⟩]⟩,
  ⟨.CFG_CORE_COUNT, false, [⟨0xF00C, []⟩],
    [⟨⟨31, 28⟩, .ro, 0x0, .granary⟩, ⟨⟨27, 22⟩, .ro, 0x0, .granary⟩, ⟨⟨21, 15⟩, .ro, 0x0, .granary⟩, ⟨⟨14, 10⟩, .rsv, 0x0, .value⟩, ⟨⟨9, 0⟩, .ro, 0x0, .granary⟩]⟩]
/-- Registers of chapter 03. -/
def regTable03 : List RegRow := [
  ⟨.CORE_SITE_SLACK, false, [⟨0x1001000000, [⟨0, 8, 0x10000000⟩]⟩],
    [⟨⟨31, 0⟩, .ro, 0x0, .value⟩]⟩,
  ⟨.CORE_SITE_SLACK_SRC, false, [⟨0x1001000004, [⟨0, 8, 0x10000000⟩]⟩],
    [⟨⟨31, 24⟩, .ro, 0x0, .value⟩, ⟨⟨23, 7⟩, .rsv, 0x0, .value⟩, ⟨⟨6, 0⟩, .ro, 0x0, .value⟩]⟩,
  ⟨.CORE_STATUS, false, [⟨0x1002000000, [⟨0, 8, 0x10000000⟩, ⟨0, 96, 0x1000⟩]⟩],
    [⟨⟨31, 24⟩, .ro, 0x0, .value⟩, ⟨⟨23, 16⟩, .ro, 0x0, .value⟩, ⟨⟨15, 5⟩, .rsv, 0x0, .value⟩, ⟨⟨4, 2⟩, .ro, 0x0, .value⟩, ⟨⟨1, 0⟩, .ro, 0x0, .granary⟩]⟩,
  ⟨.CORE_SLACK, false, [⟨0x1002000004, [⟨0, 8, 0x10000000⟩, ⟨0, 96, 0x1000⟩]⟩],
    [⟨⟨31, 0⟩, .ro, 0x0, .value⟩]⟩,
  ⟨.CORE_SLACK_MIN, false, [⟨0x1002000008, [⟨0, 8, 0x10000000⟩, ⟨0, 96, 0x1000⟩]⟩],
    [⟨⟨31, 0⟩, .ro, 0x7FFFFFFF, .value⟩]⟩,
  ⟨.CORE_MMA_CYC, false, [⟨0x100200000C, [⟨0, 8, 0x10000000⟩, ⟨0, 96, 0x1000⟩]⟩],
    [⟨⟨31, 0⟩, .ro, 0x0, .value⟩]⟩,
  ⟨.CORE_WAIT_CYC, false, [⟨0x1002000010, [⟨0, 8, 0x10000000⟩, ⟨0, 96, 0x1000⟩]⟩],
    [⟨⟨31, 0⟩, .ro, 0x0, .value⟩]⟩,
  ⟨.CORE_STRETCH, false, [⟨0x1002000014, [⟨0, 8, 0x10000000⟩, ⟨0, 96, 0x1000⟩]⟩],
    [⟨⟨31, 0⟩, .ro, 0x0, .value⟩]⟩,
  ⟨.CORE_VFLAGS, false, [⟨0x1002000018, [⟨0, 8, 0x10000000⟩, ⟨0, 96, 0x1000⟩]⟩],
    [⟨⟨31, 5⟩, .rsv, 0x0, .value⟩, ⟨⟨4, 4⟩, .w1c, 0x0, .value⟩, ⟨⟨3, 3⟩, .w1c, 0x0, .value⟩, ⟨⟨2, 2⟩, .w1c, 0x0, .value⟩, ⟨⟨1, 1⟩, .w1c, 0x0, .value⟩, ⟨⟨0, 0⟩, .w1c, 0x0, .value⟩]⟩,
  ⟨.CORE_PARITY_CNT, false, [⟨0x100200001C, [⟨0, 8, 0x10000000⟩, ⟨0, 96, 0x1000⟩]⟩],
    [⟨⟨31, 0⟩, .ro, 0x0, .value⟩]⟩,
  ⟨.CORE_CTRL, false, [⟨0x1002000020, [⟨0, 8, 0x10000000⟩, ⟨0, 96, 0x1000⟩]⟩],
    [⟨⟨31, 2⟩, .rsv, 0x0, .value⟩, ⟨⟨1, 1⟩, .wo, 0x0, .value⟩, ⟨⟨0, 0⟩, .wo, 0x0, .value⟩]⟩]
/-- Registers of chapter 04. -/
def regTable04 : List RegRow := [
  ⟨.CORE_STEP_BASE, false, [⟨0x1001001000, [⟨0, 8, 0x10000000⟩, ⟨0, 256, 0x4⟩]⟩],
    [⟨⟨31, 0⟩, .rw, 0x0, .value⟩]⟩,
  ⟨.CORE_SEQ_PC, false, [⟨0x1002000024, [⟨0, 8, 0x10000000⟩, ⟨0, 96, 0x1000⟩]⟩],
    [⟨⟨31, 26⟩, .rsv, 0x0, .value⟩, ⟨⟨25, 23⟩, .ro, 0x0, .value⟩, ⟨⟨22, 16⟩, .ro, 0x0, .value⟩, ⟨⟨15, 14⟩, .rsv, 0x0, .value⟩, ⟨⟨13, 0⟩, .ro, 0x0, .value⟩]⟩,
  ⟨.CORE_SEQ_PHASE, false, [⟨0x1002000028, [⟨0, 8, 0x10000000⟩, ⟨0, 96, 0x1000⟩]⟩],
    [⟨⟨31, 24⟩, .rsv, 0x0, .value⟩, ⟨⟨23, 12⟩, .ro, 0x0, .value⟩, ⟨⟨11, 0⟩, .ro, 0x0, .value⟩]⟩,
  ⟨.CORE_SQUASH_CNT, false, [⟨0x100200002C, [⟨0, 8, 0x10000000⟩, ⟨0, 96, 0x1000⟩]⟩],
    [⟨⟨31, 16⟩, .ro, 0x0, .value⟩, ⟨⟨15, 0⟩, .ro, 0x0, .value⟩]⟩,
  ⟨.CORE_DYN_STATUS, false, [⟨0x1002000030, [⟨0, 8, 0x10000000⟩, ⟨0, 96, 0x1000⟩]⟩],
    [⟨⟨31, 16⟩, .ro, 0x0, .value⟩, ⟨⟨15, 9⟩, .rsv, 0x0, .value⟩, ⟨⟨8, 0⟩, .ro, 0x0, .value⟩]⟩,
  ⟨.CORE_STALE_INC, false, [⟨0x1002000034, [⟨0, 8, 0x10000000⟩, ⟨0, 96, 0x1000⟩]⟩],
    [⟨⟨31, 0⟩, .ro, 0x0, .value⟩]⟩,
  ⟨.CORE_TOKEN, false, [⟨0x1004000000, [⟨0, 8, 0x10000000⟩, ⟨0, 96, 0x400⟩, ⟨0, 256, 0x4⟩]⟩],
    [⟨⟨31, 0⟩, .ro, 0x0, .value⟩]⟩,
  ⟨.CORE_CTOKEN, false, [⟨0x1005000000, [⟨0, 8, 0x10000000⟩, ⟨0, 12, 0x1000⟩, ⟨0, 1024, 0x4⟩]⟩],
    [⟨⟨31, 0⟩, .ro, 0x0, .value⟩]⟩]
/-- Registers of chapter 05. -/
def regTable05a : List RegRow := [
  ⟨.TITHE_BUDGET, false, [⟨0x21000, [⟨0, 32, 0x100⟩, ⟨0, 9, 0x10⟩]⟩],
    [⟨⟨31, 0⟩, .ro, 0x0, .value⟩]⟩,
  ⟨.TITHE_USED, false, [⟨0x21004, [⟨0, 32, 0x100⟩, ⟨0, 9, 0x10⟩]⟩],
    [⟨⟨31, 0⟩, .ro, 0x0, .value⟩]⟩,
  ⟨.TITHE_STALLS, false, [⟨0x21008, [⟨0, 32, 0x100⟩, ⟨0, 9, 0x10⟩]⟩],
    [⟨⟨31, 0⟩, .ro, 0x0, .value⟩]⟩,
  ⟨.BELL_NOW, true, [⟨0x10000, []⟩],
    [⟨⟨63, 48⟩, .rsv, 0x0, .value⟩, ⟨⟨47, 0⟩, .ro, 0x0, .value⟩]⟩,
  ⟨.BELL_COMMITTED, true, [⟨0x10008, []⟩],
    [⟨⟨63, 63⟩, .ro, 0x0, .value⟩, ⟨⟨62, 48⟩, .rsv, 0x0, .value⟩, ⟨⟨47, 0⟩, .ro, 0x0, .value⟩]⟩,
  ⟨.BELL_ORIGIN, true, [⟨0x10010, []⟩],
    [⟨⟨63, 0⟩, .ro, 0x0, .value⟩]⟩,
  ⟨.BELL_STATUS, false, [⟨0x10018, []⟩],
    [⟨⟨31, 29⟩, .ro, 0x0, .value⟩, ⟨⟨28, 25⟩, .ro, 0x0, .value⟩, ⟨⟨24, 23⟩, .ro, 0x0, .value⟩, ⟨⟨22, 20⟩, .ro, 0x0, .value⟩, ⟨⟨19, 19⟩, .ro, 0x0, .value⟩, ⟨⟨18, 12⟩, .ro, 0x0, .value⟩, ⟨⟨11, 0⟩, .rsv, 0x0, .value⟩]⟩,
  ⟨.BELL_PLAN, false, [⟨0x1001C, []⟩],
    [⟨⟨31, 19⟩, .ro, 0x0, .value⟩, ⟨⟨18, 11⟩, .ro, 0x0, .value⟩, ⟨⟨10, 8⟩, .ro, 0x0, .value⟩, ⟨⟨7, 4⟩, .ro, 0x0, .value⟩, ⟨⟨3, 0⟩, .rsv, 0x0, .value⟩]⟩,
  ⟨.BELL_PLAN2, false, [⟨0x10020, []⟩],
    [⟨⟨31, 24⟩, .ro, 0x0, .value⟩, ⟨⟨23, 16⟩, .ro, 0x0, .value⟩, ⟨⟨15, 0⟩, .ro, 0x0, .value⟩]⟩,
  ⟨.BELL_CTRL, false, [⟨0x10024, []⟩],
    [⟨⟨31, 2⟩, .rsv, 0x0, .value⟩, ⟨⟨1, 1⟩, .wo, 0x0, .value⟩, ⟨⟨0, 0⟩, .wo, 0x0, .value⟩]⟩,
  ⟨.BELL_CNT_LATE, false, [⟨0x10030, []⟩],
    [⟨⟨31, 0⟩, .ro, 0x0, .value⟩]⟩,
  ⟨.BELL_CNT_EXT, false, [⟨0x10034, []⟩],
    [⟨⟨31, 0⟩, .ro, 0x0, .value⟩]⟩]
/-- Registers of chapter 05. -/
def regTable05b : List RegRow := [
  ⟨.BELL_CNT_REPLAY, false, [⟨0x10038, []⟩],
    [⟨⟨31, 0⟩, .ro, 0x0, .value⟩]⟩,
  ⟨.BELL_CNT_LATE_COMMIT, false, [⟨0x1003C, []⟩],
    [⟨⟨31, 0⟩, .ro, 0x0, .value⟩]⟩,
  ⟨.BELL_CNT_MISSING, false, [⟨0x10040, []⟩],
    [⟨⟨31, 0⟩, .ro, 0x0, .value⟩]⟩,
  ⟨.GW_STALE_DROP, false, [⟨0x1000000100, [⟨0, 32, 0x10000000⟩]⟩],
    [⟨⟨31, 0⟩, .ro, 0x0, .value⟩]⟩,
  ⟨.GW_CONFLICT_CNT, false, [⟨0x1000000104, [⟨0, 32, 0x10000000⟩]⟩],
    [⟨⟨31, 0⟩, .ro, 0x0, .value⟩]⟩]
/-- Registers of chapter 06. -/
def regTable06a : List RegRow := [
  ⟨.MEM_CACHE_CFG, false, [⟨0x1006000000, [⟨0, 8, 0x10000000⟩]⟩],
    [⟨⟨31, 21⟩, .rsv, 0x0, .value⟩, ⟨⟨20, 16⟩, .ro, 0x0, .value⟩, ⟨⟨15, 12⟩, .rsv, 0x0, .value⟩, ⟨⟨11, 0⟩, .ro, 0x0, .value⟩]⟩,
  ⟨.MEM_CACHE_HIT, true, [⟨0x1006000008, [⟨0, 8, 0x10000000⟩]⟩],
    [⟨⟨63, 0⟩, .ro, 0x0, .value⟩]⟩,
  ⟨.MEM_CACHE_MISS, true, [⟨0x1006000010, [⟨0, 8, 0x10000000⟩]⟩],
    [⟨⟨63, 0⟩, .ro, 0x0, .value⟩]⟩,
  ⟨.MEM_CACHE_INV, false, [⟨0x1006000018, [⟨0, 8, 0x10000000⟩]⟩],
    [⟨⟨31, 0⟩, .ro, 0x0, .value⟩]⟩,
  ⟨.MEM_PARITY_CNT, false, [⟨0x100600001C, [⟨0, 8, 0x10000000⟩]⟩],
    [⟨⟨31, 0⟩, .ro, 0x0, .value⟩]⟩,
  ⟨.MEM_SPARE, false, [⟨0x1006000020, [⟨0, 8, 0x10000000⟩]⟩],
    [⟨⟨31, 16⟩, .ro, 0x0, .granary⟩, ⟨⟨15, 14⟩, .rsv, 0x0, .value⟩, ⟨⟨13, 8⟩, .ro, 0x0, .granary⟩, ⟨⟨7, 6⟩, .rsv, 0x0, .value⟩, ⟨⟨5, 0⟩, .ro, 0x0, .granary⟩]⟩,
  ⟨.MEM_HBM_STATUS, false, [⟨0x1006000000, [⟨8, 12, 0x10000000⟩]⟩],
    [⟨⟨31, 13⟩, .rsv, 0x0, .value⟩, ⟨⟨12, 12⟩, .ro, 0x0, .value⟩, ⟨⟨11, 11⟩, .ro, 0x0, .value⟩, ⟨⟨10, 3⟩, .ro, 0x0, .value⟩, ⟨⟨2, 0⟩, .ro, 0x0, .value⟩]⟩,
  ⟨.MEM_ECC_CORR, true, [⟨0x1006000008, [⟨8, 12, 0x10000000⟩]⟩],
    [⟨⟨63, 0⟩, .ro, 0x0, .value⟩]⟩,
  ⟨.MEM_ECC_UNCORR, false, [⟨0x1006000010, [⟨8, 12, 0x10000000⟩]⟩],
    [⟨⟨31, 0⟩, .ro, 0x0, .value⟩]⟩,
  ⟨.MEM_RETIRE_STATUS, false, [⟨0x1006000014, [⟨8, 12, 0x10000000⟩]⟩],
    [⟨⟨31, 29⟩, .rsv, 0x0, .value⟩, ⟨⟨28, 16⟩, .ro, 0x0, .granary⟩, ⟨⟨15, 8⟩, .ro, 0x0, .value⟩, ⟨⟨7, 0⟩, .ro, 0x0, .value⟩]⟩,
  ⟨.MEM_FIX_CFG, true, [⟨0x1006000018, [⟨8, 12, 0x10000000⟩]⟩],
    [⟨⟨63, 52⟩, .ro, 0x0, .value⟩, ⟨⟨51, 51⟩, .ro, 0x0, .value⟩, ⟨⟨50, 43⟩, .rsv, 0x0, .value⟩, ⟨⟨42, 20⟩, .ro, 0x0, .value⟩, ⟨⟨19, 0⟩, .rsv, 0x0, .value⟩]⟩,
  ⟨.MEM_FIX_USED, false, [⟨0x1006000020, [⟨8, 12, 0x10000000⟩]⟩],
    [⟨⟨31, 16⟩, .ro, 0x0, .value⟩, ⟨⟨15, 0⟩, .ro, 0x0, .value⟩]⟩]
/-- Registers of chapter 06. -/
def regTable06b : List RegRow := [
  ⟨.MEM_HBM_BYTES, false, [⟨0x1006000024, [⟨8, 12, 0x10000000⟩]⟩],
    [⟨⟨31, 0⟩, .ro, 0x0, .value⟩]⟩,
  ⟨.MEM_CTRL, false, [⟨0x1006000028, [⟨8, 12, 0x10000000⟩]⟩],
    [⟨⟨31, 1⟩, .rsv, 0x0, .value⟩, ⟨⟨0, 0⟩, .wo, 0x0, .value⟩]⟩,
  ⟨.MEM_RETIRE_ENTRY, true, [⟨0x1006001000, [⟨8, 12, 0x10000000⟩, ⟨0, 4096, 0x8⟩]⟩],
    [⟨⟨63, 62⟩, .ro, 0x0, .granary⟩, ⟨⟨61, 61⟩, .ro, 0x0, .value⟩, ⟨⟨60, 30⟩, .ro, 0x0, .granary⟩, ⟨⟨29, 0⟩, .ro, 0x0, .value⟩]⟩]
/-- Registers of chapter 07. -/
def regTable07 : List RegRow := [
  ⟨.FAB_TX_PAIR, false, [⟨0x1008000000, [⟨0, 32, 0x10000000⟩, ⟨0, 32, 0x4⟩]⟩],
    [⟨⟨31, 28⟩, .ro, 0x0, .value⟩, ⟨⟨27, 22⟩, .ro, 0x0, .value⟩, ⟨⟨21, 20⟩, .ro, 0x0, .granary⟩, ⟨⟨19, 19⟩, .ro, 0x0, .value⟩, ⟨⟨18, 18⟩, .ro, 0x0, .value⟩, ⟨⟨17, 17⟩, .ro, 0x0, .value⟩, ⟨⟨16, 16⟩, .ro, 0x0, .granary⟩, ⟨⟨15, 6⟩, .rsv, 0x0, .value⟩, ⟨⟨5, 0⟩, .ro, 0x0, .granary⟩]⟩,
  ⟨.FAB_RX_PAIR, false, [⟨0x1008000080, [⟨0, 32, 0x10000000⟩, ⟨0, 32, 0x4⟩]⟩],
    [⟨⟨31, 28⟩, .ro, 0x0, .value⟩, ⟨⟨27, 22⟩, .ro, 0x0, .value⟩, ⟨⟨21, 20⟩, .ro, 0x0, .granary⟩, ⟨⟨19, 19⟩, .ro, 0x0, .value⟩, ⟨⟨18, 18⟩, .ro, 0x0, .value⟩, ⟨⟨17, 17⟩, .ro, 0x0, .value⟩, ⟨⟨16, 16⟩, .ro, 0x0, .granary⟩, ⟨⟨15, 6⟩, .rsv, 0x0, .value⟩, ⟨⟨5, 0⟩, .ro, 0x0, .granary⟩]⟩,
  ⟨.FAB_TX_STRIPE, true, [⟨0x1008000100, [⟨0, 32, 0x10000000⟩, ⟨0, 32, 0x8⟩]⟩],
    [⟨⟨63, 34⟩, .rsv, 0x0, .value⟩, ⟨⟨33, 0⟩, .ro, 0x0, .value⟩]⟩,
  ⟨.FAB_RX_STRIPE, true, [⟨0x1008000200, [⟨0, 32, 0x10000000⟩, ⟨0, 32, 0x8⟩]⟩],
    [⟨⟨63, 34⟩, .rsv, 0x0, .value⟩, ⟨⟨33, 0⟩, .ro, 0x0, .value⟩]⟩,
  ⟨.FAB_STEER, false, [⟨0x1008000400, [⟨0, 32, 0x10000000⟩, ⟨0, 38, 0x4⟩]⟩],
    [⟨⟨31, 30⟩, .rsv, 0x0, .value⟩, ⟨⟨29, 24⟩, .ro, 0x3F, .value⟩, ⟨⟨23, 22⟩, .rsv, 0x0, .value⟩, ⟨⟨21, 16⟩, .ro, 0x0, .value⟩, ⟨⟨15, 14⟩, .rsv, 0x0, .value⟩, ⟨⟨13, 8⟩, .ro, 0x3F, .value⟩, ⟨⟨7, 6⟩, .rsv, 0x0, .value⟩, ⟨⟨5, 0⟩, .ro, 0x0, .value⟩]⟩,
  ⟨.FAB_RESV, false, [⟨0x1008000500, [⟨0, 32, 0x10000000⟩]⟩],
    [⟨⟨31, 5⟩, .rsv, 0x0, .value⟩, ⟨⟨4, 0⟩, .ro, 0x0, .value⟩]⟩,
  ⟨.FAB_SYNC_ERR, false, [⟨0x1008000504, [⟨0, 32, 0x10000000⟩]⟩],
    [⟨⟨31, 16⟩, .ro, 0x0, .value⟩, ⟨⟨15, 0⟩, .ro, 0x0, .value⟩]⟩,
  ⟨.FAB_RESTRIPE_CNT, false, [⟨0x1008000508, [⟨0, 32, 0x10000000⟩]⟩],
    [⟨⟨31, 0⟩, .ro, 0x0, .value⟩]⟩,
  ⟨.FAB_COMB, false, [⟨0x100800050C, [⟨0, 32, 0x10000000⟩]⟩],
    [⟨⟨31, 18⟩, .rsv, 0x0, .value⟩, ⟨⟨17, 15⟩, .ro, 0x7, .value⟩, ⟨⟨14, 12⟩, .ro, 0x4, .value⟩, ⟨⟨11, 9⟩, .ro, 0x4, .value⟩, ⟨⟨8, 6⟩, .ro, 0x4, .value⟩, ⟨⟨5, 3⟩, .ro, 0x4, .value⟩, ⟨⟨2, 0⟩, .ro, 0x4, .value⟩]⟩]
/-- Registers of chapter 08. -/
def regTable08 : List RegRow := [
  ⟨.GW_LATE_RESP_DROPPED, false, [⟨0x1000000200, [⟨0, 32, 0x10000000⟩]⟩],
    [⟨⟨31, 0⟩, .ro, 0x0, .value⟩]⟩,
  ⟨.GW_EPOCH_DROP, false, [⟨0x1000000204, [⟨0, 32, 0x10000000⟩]⟩],
    [⟨⟨31, 0⟩, .ro, 0x0, .value⟩]⟩,
  ⟨.GW_MALFORMED, false, [⟨0x1000000208, [⟨0, 32, 0x10000000⟩]⟩],
    [⟨⟨31, 0⟩, .ro, 0x0, .value⟩]⟩,
  ⟨.GW_RETRY_CNT, false, [⟨0x100000020C, [⟨0, 32, 0x10000000⟩]⟩],
    [⟨⟨31, 0⟩, .ro, 0x0, .value⟩]⟩,
  ⟨.GW_PAIR_RESET_CNT, false, [⟨0x1000000210, [⟨0, 32, 0x10000000⟩]⟩],
    [⟨⟨31, 0⟩, .ro, 0x0, .value⟩]⟩,
  ⟨.GW_FEC_UNCORR, false, [⟨0x1000000214, [⟨0, 32, 0x10000000⟩]⟩],
    [⟨⟨31, 0⟩, .ro, 0x0, .value⟩]⟩,
  ⟨.GW_CREDIT_STALL, false, [⟨0x1000000220, [⟨0, 32, 0x10000000⟩]⟩],
    [⟨⟨31, 0⟩, .ro, 0x0, .value⟩]⟩,
  ⟨.GW_AGED_DROP, false, [⟨0x1000000224, [⟨0, 32, 0x10000000⟩]⟩],
    [⟨⟨31, 0⟩, .ro, 0x0, .value⟩]⟩,
  ⟨.GW_SPEC_SERVED, false, [⟨0x1000000228, [⟨0, 32, 0x10000000⟩]⟩],
    [⟨⟨31, 0⟩, .ro, 0x0, .value⟩]⟩,
  ⟨.GW_FEC_CORR, true, [⟨0x1000000218, [⟨0, 32, 0x10000000⟩]⟩],
    [⟨⟨63, 0⟩, .ro, 0x0, .value⟩]⟩,
  ⟨.GW_EPOCH, false, [⟨0x100000022C, [⟨0, 32, 0x10000000⟩]⟩],
    [⟨⟨31, 4⟩, .rsv, 0x0, .value⟩, ⟨⟨3, 0⟩, .ro, 0x0, .value⟩]⟩,
  ⟨.GW_TAGS, false, [⟨0x1000000400, [⟨0, 32, 0x10000000⟩, ⟨0, 128, 0x4⟩]⟩],
    [⟨⟨31, 29⟩, .rsv, 0x0, .value⟩, ⟨⟨28, 16⟩, .ro, 0x0, .value⟩, ⟨⟨15, 13⟩, .rsv, 0x0, .value⟩, ⟨⟨12, 0⟩, .ro, 0x0, .value⟩]⟩]
/-- Registers of chapter 09. -/
def regTable09 : List RegRow := [
  ⟨.LNK_STATUS, false, [⟨0x100A000000, [⟨20, 8, 0x10000000⟩, ⟨0, 10, 0x10⟩]⟩],
    [⟨⟨31, 29⟩, .ro, 0x0, .value⟩, ⟨⟨28, 28⟩, .ro, 0x0, .value⟩, ⟨⟨27, 27⟩, .ro, 0x0, .value⟩, ⟨⟨26, 26⟩, .ro, 0x0, .value⟩, ⟨⟨25, 21⟩, .ro, 0x0, .value⟩, ⟨⟨20, 20⟩, .ro, 0x0, .granary⟩, ⟨⟨19, 19⟩, .ro, 0x0, .value⟩, ⟨⟨18, 16⟩, .ro, 0x0, .value⟩, ⟨⟨15, 0⟩, .ro, 0x0, .value⟩]⟩,
  ⟨.LNK_PEER, false, [⟨0x100A000004, [⟨20, 8, 0x10000000⟩, ⟨0, 10, 0x10⟩]⟩],
    [⟨⟨31, 16⟩, .ro, 0x0, .value⟩, ⟨⟨15, 9⟩, .rsv, 0x0, .value⟩, ⟨⟨8, 7⟩, .ro, 0x0, .value⟩, ⟨⟨6, 0⟩, .ro, 0x0, .value⟩]⟩,
  ⟨.LNK_FAILOVER_CNT, false, [⟨0x100A000008, [⟨20, 8, 0x10000000⟩, ⟨0, 10, 0x10⟩]⟩],
    [⟨⟨31, 0⟩, .ro, 0x0, .value⟩]⟩,
  ⟨.LNK_RETRY_CNT, false, [⟨0x100A00000C, [⟨20, 8, 0x10000000⟩, ⟨0, 10, 0x10⟩]⟩],
    [⟨⟨31, 0⟩, .ro, 0x0, .value⟩]⟩,
  ⟨.LNK_BUNDLE, true, [⟨0x100A000200, [⟨20, 8, 0x10000000⟩, ⟨0, 32, 0x8⟩]⟩],
    [⟨⟨63, 63⟩, .ro, 0x0, .value⟩, ⟨⟨62, 62⟩, .ro, 0x0, .value⟩, ⟨⟨61, 59⟩, .ro, 0x0, .value⟩, ⟨⟨58, 56⟩, .rsv, 0x0, .value⟩, ⟨⟨55, 0⟩, .ro, 0x0, .value⟩]⟩,
  ⟨.LNK_ROUTE, false, [⟨0x100B000000, [⟨20, 8, 0x10000000⟩, ⟨0, 65536, 0x4⟩]⟩],
    [⟨⟨31, 0⟩, .ro, 0x0, .value⟩]⟩,
  ⟨.LNK_CTRL, false, [⟨0x100A000400, [⟨20, 8, 0x10000000⟩]⟩],
    [⟨⟨31, 1⟩, .rsv, 0x0, .value⟩, ⟨⟨0, 0⟩, .wo, 0x0, .value⟩]⟩,
  ⟨.GW_DEDUPE_DROP, false, [⟨0x1000000230, [⟨0, 32, 0x10000000⟩]⟩],
    [⟨⟨31, 0⟩, .ro, 0x0, .value⟩]⟩,
  ⟨.GW_DEDUPE_OVF, false, [⟨0x1000000234, [⟨0, 32, 0x10000000⟩]⟩],
    [⟨⟨31, 0⟩, .ro, 0x0, .value⟩]⟩]
/-- Registers of chapter 10. -/
def regTable10 : List RegRow := [
  ⟨.GW_RED_STATUS, false, [⟨0x100C000000, [⟨8, 20, 0x10000000⟩]⟩],
    [⟨⟨31, 28⟩, .rsv, 0x0, .value⟩, ⟨⟨27, 16⟩, .ro, 0x0, .value⟩, ⟨⟨15, 14⟩, .ro, 0x0, .value⟩, ⟨⟨13, 0⟩, .ro, 0x0, .value⟩]⟩,
  ⟨.GW_RED_IN, true, [⟨0x100C000008, [⟨8, 20, 0x10000000⟩]⟩],
    [⟨⟨63, 0⟩, .ro, 0x0, .value⟩]⟩,
  ⟨.GW_RED_OUT, true, [⟨0x100C000010, [⟨8, 20, 0x10000000⟩]⟩],
    [⟨⟨63, 0⟩, .ro, 0x0, .value⟩]⟩,
  ⟨.GW_RED_REFUSED, false, [⟨0x100C000018, [⟨8, 20, 0x10000000⟩]⟩],
    [⟨⟨31, 0⟩, .ro, 0x0, .value⟩]⟩,
  ⟨.GW_RED_INCOMPLETE, false, [⟨0x100C00001C, [⟨8, 20, 0x10000000⟩]⟩],
    [⟨⟨31, 0⟩, .ro, 0x0, .value⟩]⟩,
  ⟨.GW_RED_BYTES, false, [⟨0x100C000020, [⟨8, 20, 0x10000000⟩]⟩],
    [⟨⟨31, 0⟩, .ro, 0x0, .value⟩]⟩,
  ⟨.GW_MCAST_REPL, false, [⟨0x100C000024, [⟨20, 8, 0x10000000⟩]⟩],
    [⟨⟨31, 22⟩, .ro, 0x0, .value⟩, ⟨⟨21, 0⟩, .ro, 0x0, .value⟩]⟩,
  ⟨.GW_RED_SLICE, true, [⟨0x100C010000, [⟨8, 20, 0x10000000⟩, ⟨0, 4096, 0x10⟩]⟩],
    [⟨⟨63, 63⟩, .ro, 0x0, .value⟩, ⟨⟨62, 61⟩, .ro, 0x0, .value⟩, ⟨⟨60, 57⟩, .ro, 0x0, .value⟩, ⟨⟨56, 55⟩, .ro, 0x0, .value⟩, ⟨⟨54, 47⟩, .ro, 0x0, .value⟩, ⟨⟨46, 35⟩, .ro, 0x0, .value⟩, ⟨⟨34, 28⟩, .rsv, 0x0, .value⟩, ⟨⟨27, 14⟩, .ro, 0x0, .value⟩, ⟨⟨13, 0⟩, .ro, 0x0, .value⟩]⟩,
  ⟨.GW_RED_SLICE2, true, [⟨0x100C010008, [⟨8, 20, 0x10000000⟩, ⟨0, 4096, 0x10⟩]⟩],
    [⟨⟨63, 48⟩, .ro, 0x0, .value⟩, ⟨⟨47, 34⟩, .ro, 0x0, .value⟩, ⟨⟨33, 33⟩, .ro, 0x0, .value⟩, ⟨⟨32, 0⟩, .rsv, 0x0, .value⟩]⟩]
/-- Registers of chapter 11. -/
def regTable11 : List RegRow := [
  ⟨.HOST_PORT_STATUS, false, [⟨0x90000, []⟩],
    [⟨⟨31, 29⟩, .ro, 0x0, .value⟩, ⟨⟨28, 28⟩, .ro, 0x0, .value⟩, ⟨⟨27, 27⟩, .ro, 0x0, .value⟩, ⟨⟨26, 24⟩, .rsv, 0x0, .value⟩, ⟨⟨23, 16⟩, .ro, 0x0, .value⟩, ⟨⟨15, 0⟩, .rsv, 0x0, .value⟩]⟩,
  ⟨.HOST_PORT_CTRL, false, [⟨0x90004, []⟩],
    [⟨⟨31, 2⟩, .rsv, 0x0, .value⟩, ⟨⟨1, 1⟩, .rw, 0x0, .value⟩, ⟨⟨0, 0⟩, .wo, 0x0, .value⟩]⟩,
  ⟨.HOST_PORT_DROP, false, [⟨0x90008, []⟩],
    [⟨⟨31, 0⟩, .ro, 0x0, .value⟩]⟩,
  ⟨.HOST_RING_REFUSED, false, [⟨0x90028, []⟩],
    [⟨⟨31, 0⟩, .ro, 0x0, .value⟩]⟩,
  ⟨.HOST_DOORBELL, false, [⟨0x90010, []⟩],
    [⟨⟨31, 31⟩, .wo, 0x0, .value⟩, ⟨⟨30, 16⟩, .wo, 0x0, .value⟩, ⟨⟨15, 0⟩, .wo, 0x0, .value⟩]⟩,
  ⟨.HOST_RING_SEL, false, [⟨0x90014, []⟩],
    [⟨⟨31, 15⟩, .rsv, 0x0, .value⟩, ⟨⟨14, 0⟩, .rw, 0x0, .value⟩]⟩,
  ⟨.HOST_RING_INFO, true, [⟨0x90018, []⟩],
    [⟨⟨63, 63⟩, .ro, 0x0, .value⟩, ⟨⟨62, 55⟩, .ro, 0x0, .value⟩, ⟨⟨54, 52⟩, .ro, 0x0, .value⟩, ⟨⟨51, 47⟩, .ro, 0x0, .value⟩, ⟨⟨46, 45⟩, .ro, 0x0, .value⟩, ⟨⟨44, 24⟩, .rsv, 0x0, .value⟩, ⟨⟨23, 0⟩, .ro, 0x0, .value⟩]⟩,
  ⟨.HOST_RING_INDEX, true, [⟨0x90020, []⟩],
    [⟨⟨63, 32⟩, .ro, 0x0, .value⟩, ⟨⟨31, 0⟩, .ro, 0x0, .value⟩]⟩,
  ⟨.HOST_CORE_STATUS, false, [⟨0x90100, [⟨0, 64, 0x4⟩]⟩],
    [⟨⟨31, 24⟩, .ro, 0x0, .image⟩, ⟨⟨23, 4⟩, .rsv, 0x0, .value⟩, ⟨⟨3, 2⟩, .ro, 0x0, .granary⟩, ⟨⟨1, 0⟩, .ro, 0x0, .value⟩]⟩,
  ⟨.HOST_APERTURE, false, [⟨0x90200, [⟨0, 64, 0x40⟩, ⟨0, 16, 0x4⟩]⟩],
    [⟨⟨31, 16⟩, .rsv, 0x0, .value⟩, ⟨⟨15, 0⟩, .rw, 0x0, .value⟩]⟩]
/-- Registers of chapter 12. -/
def regTable12 : List RegRow := [
  ⟨.CFG_CTRL, false, [⟨0x0, []⟩],
    [⟨⟨31, 16⟩, .rsv, 0x0, .value⟩, ⟨⟨15, 15⟩, .rw, 0x0, .value⟩, ⟨⟨14, 14⟩, .rsv, 0x0, .value⟩, ⟨⟨13, 8⟩, .rw, 0x0, .value⟩, ⟨⟨7, 2⟩, .rsv, 0x0, .value⟩, ⟨⟨1, 1⟩, .wo, 0x0, .value⟩, ⟨⟨0, 0⟩, .wo, 0x0, .value⟩]⟩,
  ⟨.CFG_STATUS, true, [⟨0x8, []⟩],
    [⟨⟨63, 48⟩, .ro, 0x0, .value⟩, ⟨⟨47, 44⟩, .ro, 0x0, .value⟩, ⟨⟨43, 40⟩, .ro, 0x0, .value⟩, ⟨⟨39, 37⟩, .ro, 0x0, .value⟩, ⟨⟨36, 36⟩, .ro, 0x0, .value⟩, ⟨⟨35, 30⟩, .ro, 0x0, .value⟩, ⟨⟨29, 0⟩, .ro, 0x0, .value⟩]⟩,
  ⟨.CFG_ACTIVATE, true, [⟨0x10, []⟩],
    [⟨⟨63, 63⟩, .rw, 0x0, .value⟩, ⟨⟨62, 48⟩, .rsv, 0x0, .value⟩, ⟨⟨47, 0⟩, .rw, 0x0, .value⟩]⟩,
  ⟨.CFG_ALT, false, [⟨0x18, []⟩],
    [⟨⟨31, 8⟩, .rsv, 0x0, .value⟩, ⟨⟨7, 4⟩, .ro, 0x0, .value⟩, ⟨⟨3, 0⟩, .rw, 0x0, .value⟩]⟩,
  ⟨.CFG_STAGE_RKEY, false, [⟨0x1C, []⟩],
    [⟨⟨31, 0⟩, .rw, 0x0, .value⟩]⟩,
  ⟨.CFG_DIGEST, false, [⟨0x20, [⟨0, 8, 0x4⟩]⟩],
    [⟨⟨31, 0⟩, .ro, 0x0, .value⟩]⟩,
  ⟨.CFG_PARTIAL, false, [⟨0x100, [⟨0, 256, 0x4⟩]⟩],
    [⟨⟨31, 30⟩, .ro, 0x0, .value⟩, ⟨⟨29, 14⟩, .rsv, 0x0, .value⟩, ⟨⟨13, 8⟩, .ro, 0x0, .value⟩, ⟨⟨7, 6⟩, .rsv, 0x0, .value⟩, ⟨⟨5, 0⟩, .ro, 0x0, .value⟩]⟩,
  ⟨.CFG_STORE_MAP, false, [⟨0x40, []⟩],
    [⟨⟨31, 31⟩, .ro, 0x0, .value⟩, ⟨⟨30, 26⟩, .ro, 0x0, .value⟩, ⟨⟨25, 25⟩, .ro, 0x0, .value⟩, ⟨⟨24, 20⟩, .ro, 0x0, .value⟩, ⟨⟨19, 19⟩, .ro, 0x0, .value⟩, ⟨⟨18, 14⟩, .ro, 0x0, .value⟩, ⟨⟨13, 13⟩, .ro, 0x0, .value⟩, ⟨⟨12, 8⟩, .ro, 0x0, .value⟩, ⟨⟨7, 0⟩, .ro, 0x0, .value⟩]⟩]
/-- Registers of chapter 13. -/
def regTable13 : List RegRow := [
  ⟨.CFG_START_STATUS, false, [⟨0xF010, []⟩],
    [⟨⟨31, 28⟩, .ro, 0x1, .value⟩, ⟨⟨27, 27⟩, .ro, 0x0, .value⟩, ⟨⟨26, 26⟩, .ro, 0x0, .value⟩, ⟨⟨25, 20⟩, .rsv, 0x0, .value⟩, ⟨⟨19, 0⟩, .ro, 0x0, .value⟩]⟩,
  ⟨.GW_RESET, false, [⟨0x1000000300, [⟨0, 32, 0x10000000⟩]⟩],
    [⟨⟨31, 29⟩, .ro, 0x0, .value⟩, ⟨⟨28, 26⟩, .ro, 0x0, .value⟩, ⟨⟨25, 25⟩, .ro, 0x0, .value⟩, ⟨⟨24, 24⟩, .ro, 0x0, .value⟩, ⟨⟨23, 23⟩, .ro, 0x0, .value⟩, ⟨⟨22, 4⟩, .rsv, 0x0, .value⟩, ⟨⟨3, 3⟩, .wo, 0x0, .value⟩, ⟨⟨2, 0⟩, .wo, 0x0, .value⟩]⟩,
  ⟨.GW_FENCE, false, [⟨0x1000000304, [⟨0, 32, 0x10000000⟩]⟩],
    [⟨⟨31, 0⟩, .ro, 0x0, .value⟩]⟩,
  ⟨.GW_FENCE_CNT, false, [⟨0x1000000308, [⟨0, 32, 0x10000000⟩]⟩],
    [⟨⟨31, 0⟩, .ro, 0x0, .value⟩]⟩,
  ⟨.FAB_FIELD_RESET, false, [⟨0x2000F00000, [⟨0, 12, 0x1000000⟩]⟩],
    [⟨⟨31, 29⟩, .ro, 0x0, .value⟩, ⟨⟨28, 2⟩, .rsv, 0x0, .value⟩, ⟨⟨1, 1⟩, .wo, 0x0, .value⟩, ⟨⟨0, 0⟩, .wo, 0x0, .value⟩]⟩,
  ⟨.LNK_RESET, false, [⟨0x100A000404, [⟨20, 8, 0x10000000⟩]⟩],
    [⟨⟨31, 10⟩, .rsv, 0x0, .value⟩, ⟨⟨9, 0⟩, .wo, 0x0, .value⟩]⟩]
/-- Registers of chapter 14. -/
def regTable14 : List RegRow := [
  ⟨.CLK_VC_NOW, true, [⟨0x70000, []⟩],
    [⟨⟨63, 0⟩, .ro, 0x0, .value⟩]⟩,
  ⟨.CLK_VC_STATUS, false, [⟨0x70008, []⟩],
    [⟨⟨31, 29⟩, .ro, 0x0, .value⟩, ⟨⟨28, 22⟩, .ro, 0x0, .value⟩, ⟨⟨21, 16⟩, .rsv, 0x0, .value⟩, ⟨⟨15, 0⟩, .ro, 0x0, .value⟩]⟩,
  ⟨.CLK_VC_CTRL, false, [⟨0x7000C, []⟩],
    [⟨⟨31, 2⟩, .rsv, 0x0, .value⟩, ⟨⟨1, 1⟩, .rw, 0x0, .value⟩, ⟨⟨0, 0⟩, .rw, 0x0, .value⟩]⟩,
  ⟨.CLK_VC_EPOCH, true, [⟨0x70010, []⟩],
    [⟨⟨63, 0⟩, .rw, 0x0, .value⟩]⟩,
  ⟨.CLK_VC_RATE, false, [⟨0x70018, []⟩],
    [⟨⟨31, 0⟩, .ro, 0x0, .value⟩]⟩,
  ⟨.CLK_VC_LINK, false, [⟨0x70100, [⟨0, 68, 0x4⟩]⟩],
    [⟨⟨31, 31⟩, .ro, 0x0, .value⟩, ⟨⟨30, 30⟩, .ro, 0x0, .value⟩, ⟨⟨29, 29⟩, .ro, 0x0, .value⟩, ⟨⟨28, 16⟩, .rsv, 0x0, .value⟩, ⟨⟨15, 0⟩, .ro, 0x0, .value⟩]⟩,
  ⟨.CLK_REGION_STATUS, false, [⟨0x71000, [⟨0, 368, 0x10⟩]⟩],
    [⟨⟨31, 28⟩, .ro, 0x0, .image⟩, ⟨⟨27, 24⟩, .ro, 0x0, .fused⟩, ⟨⟨23, 21⟩, .ro, 0x0, .value⟩, ⟨⟨20, 15⟩, .ro, 0x0, .value⟩, ⟨⟨14, 0⟩, .rsv, 0x0, .value⟩]⟩,
  ⟨.CLK_REGION_CTRL, false, [⟨0x71004, [⟨0, 368, 0x10⟩]⟩],
    [⟨⟨31, 4⟩, .rsv, 0x0, .value⟩, ⟨⟨3, 0⟩, .rw, 0x0, .image⟩]⟩,
  ⟨.CLK_REGION_STRETCH, false, [⟨0x71008, [⟨0, 368, 0x10⟩]⟩],
    [⟨⟨31, 0⟩, .ro, 0x0, .value⟩]⟩,
  ⟨.CLK_REGION_SYMP, false, [⟨0x7100C, [⟨0, 368, 0x10⟩]⟩],
    [⟨⟨31, 0⟩, .ro, 0x0, .value⟩]⟩,
  ⟨.CLK_XING, false, [⟨0x74000, [⟨0, 368, 0x80⟩, ⟨0, 32, 0x4⟩]⟩],
    [⟨⟨31, 31⟩, .ro, 0x0, .value⟩, ⟨⟨30, 22⟩, .ro, 0x0, .value⟩, ⟨⟨21, 19⟩, .ro, 0x0, .value⟩, ⟨⟨18, 18⟩, .ro, 0x0, .value⟩, ⟨⟨17, 16⟩, .rsv, 0x0, .value⟩, ⟨⟨15, 8⟩, .ro, 0x0, .value⟩, ⟨⟨7, 0⟩, .ro, 0x0, .value⟩]⟩]
/-- Registers of chapter 15. -/
def regTable15a : List RegRow := [
  ⟨.CAL_RING_HEAT, false, [⟨0x1009000000, [⟨0, 32, 0x10000000⟩, ⟨0, 2432, 0x20⟩]⟩, ⟨0x1009000000, [⟨20, 8, 0x10000000⟩, ⟨2432, 360, 0x20⟩]⟩],
    [⟨⟨31, 16⟩, .ro, 0x0, .mram⟩, ⟨⟨15, 0⟩, .ro, 0x0, .mram⟩]⟩,
  ⟨.CAL_RING_ID, false, [⟨0x1009000004, [⟨0, 32, 0x10000000⟩, ⟨0, 2432, 0x20⟩]⟩, ⟨0x1009000004, [⟨20, 8, 0x10000000⟩, ⟨2432, 360, 0x20⟩]⟩],
    [⟨⟨31, 29⟩, .ro, 0x0, .value⟩, ⟨⟨28, 28⟩, .ro, 0x0, .value⟩, ⟨⟨27, 27⟩, .ro, 0x0, .granary⟩, ⟨⟨26, 26⟩, .ro, 0x0, .value⟩, ⟨⟨25, 24⟩, .ro, 0x0, .value⟩, ⟨⟨23, 22⟩, .rsv, 0x0, .value⟩, ⟨⟨21, 16⟩, .ro, 0x3F, .value⟩, ⟨⟨15, 0⟩, .ro, 0x0, .mram⟩]⟩,
  ⟨.CAL_RING_FF, false, [⟨0x1009000008, [⟨0, 32, 0x10000000⟩, ⟨0, 2432, 0x20⟩]⟩, ⟨0x1009000008, [⟨20, 8, 0x10000000⟩, ⟨2432, 360, 0x20⟩]⟩],
    [⟨⟨31, 16⟩, .ro, 0x0, .mram⟩, ⟨⟨15, 11⟩, .ro, 0x0, .mram⟩, ⟨⟨10, 0⟩, .ro, 0x0, .mram⟩]⟩,
  ⟨.CAL_RING_EQ, false, [⟨0x100900000C, [⟨0, 32, 0x10000000⟩, ⟨0, 2432, 0x20⟩]⟩, ⟨0x100900000C, [⟨20, 8, 0x10000000⟩, ⟨2432, 360, 0x20⟩]⟩],
    [⟨⟨31, 24⟩, .ro, 0x0, .mram⟩, ⟨⟨23, 20⟩, .ro, 0x0, .mram⟩, ⟨⟨19, 14⟩, .ro, 0x0, .mram⟩, ⟨⟨13, 8⟩, .ro, 0x0, .mram⟩, ⟨⟨7, 2⟩, .ro, 0x0, .mram⟩, ⟨⟨1, 0⟩, .rsv, 0x0, .value⟩]⟩,
  ⟨.CAL_RING_POWER, false, [⟨0x1009000010, [⟨0, 32, 0x10000000⟩, ⟨0, 2432, 0x20⟩]⟩, ⟨0x1009000010, [⟨20, 8, 0x10000000⟩, ⟨2432, 360, 0x20⟩]⟩],
    [⟨⟨31, 16⟩, .ro, 0x0, .value⟩, ⟨⟨15, 0⟩, .ro, 0x0, .value⟩]⟩,
  ⟨.CAL_COMB_BIAS, false, [⟨0x1009030000, [⟨0, 32, 0x10000000⟩, ⟨0, 5, 0x8⟩]⟩, ⟨0x1009030000, [⟨20, 8, 0x10000000⟩, ⟨5, 2, 0x8⟩]⟩],
    [⟨⟨31, 28⟩, .rsv, 0x0, .value⟩, ⟨⟨27, 16⟩, .ro, 0x0, .mram⟩, ⟨⟨15, 12⟩, .rsv, 0x0, .value⟩, ⟨⟨11, 0⟩, .ro, 0x708, .value⟩]⟩,
  ⟨.CAL_COMB_RX, false, [⟨0x1009030004, [⟨0, 32, 0x10000000⟩, ⟨0, 5, 0x8⟩]⟩, ⟨0x1009030004, [⟨20, 8, 0x10000000⟩, ⟨5, 2, 0x8⟩]⟩],
    [⟨⟨31, 16⟩, .ro, 0x0, .value⟩, ⟨⟨15, 0⟩, .ro, 0x0, .value⟩]⟩,
  ⟨.CAL_STATUS, false, [⟨0x1009030100, [⟨0, 32, 0x10000000⟩]⟩],
    [⟨⟨31, 24⟩, .ro, 0x0, .value⟩, ⟨⟨23, 16⟩, .ro, 0x0, .value⟩, ⟨⟨15, 0⟩, .ro, 0x0, .value⟩]⟩,
  ⟨.CAL_REJECT_CNT, false, [⟨0x1009030104, [⟨0, 32, 0x10000000⟩]⟩],
    [⟨⟨31, 0⟩, .ro, 0x0, .value⟩]⟩,
  ⟨.CAL_BRACKET_CNT, false, [⟨0x1009030108, [⟨0, 32, 0x10000000⟩]⟩],
    [⟨⟨31, 0⟩, .ro, 0x0, .value⟩]⟩,
  ⟨.CAL_SENSOR_TRIM, false, [⟨0x1009031000, [⟨0, 8, 0x10000000⟩, ⟨0, 176, 0x8⟩]⟩, ⟨0x1009031000, [⟨8, 12, 0x10000000⟩, ⟨0, 4, 0x8⟩]⟩, ⟨0x1009031000, [⟨20, 8, 0x10000000⟩, ⟨0, 8, 0x8⟩]⟩],
    [⟨⟨31, 16⟩, .ro, 0x0, .fused⟩, ⟨⟨15, 0⟩, .ro, 0x0, .fused⟩]⟩,
  ⟨.CAL_SENSOR_OFS, false, [⟨0x1009031004, [⟨0, 8, 0x10000000⟩, ⟨0, 176, 0x8⟩]⟩, ⟨0x1009031004, [⟨8, 12, 0x10000000⟩, ⟨0, 4, 0x8⟩]⟩, ⟨0x1009031004, [⟨20, 8, 0x10000000⟩, ⟨0, 8, 0x8⟩]⟩],
    [⟨⟨31, 31⟩, .ro, 0x0, .value⟩, ⟨⟨30, 16⟩, .rsv, 0x0, .value⟩, ⟨⟨15, 0⟩, .ro, 0x0, .mram⟩]⟩]
/-- Registers of chapter 15. -/
def regTable15b : List RegRow := [
  ⟨.CAL_FSENSOR_TRIM, false, [⟨0x2000100000, [⟨0, 12, 0x1000000⟩, ⟨0, 24, 0x8⟩]⟩],
    [⟨⟨31, 16⟩, .ro, 0x0, .fused⟩, ⟨⟨15, 0⟩, .ro, 0x0, .fused⟩]⟩,
  ⟨.CAL_FSENSOR_OFS, false, [⟨0x2000100004, [⟨0, 12, 0x1000000⟩, ⟨0, 24, 0x8⟩]⟩],
    [⟨⟨31, 31⟩, .ro, 0x0, .value⟩, ⟨⟨30, 16⟩, .rsv, 0x0, .value⟩, ⟨⟨15, 0⟩, .ro, 0x0, .mram⟩]⟩]
/-- Registers of chapter 16. -/
def regTable16 : List RegRow := [
  ⟨.PWR_STATUS, false, [⟨0x50000, []⟩],
    [⟨⟨31, 29⟩, .ro, 0x0, .value⟩, ⟨⟨28, 28⟩, .ro, 0x0, .value⟩, ⟨⟨27, 27⟩, .ro, 0x0, .value⟩, ⟨⟨26, 22⟩, .ro, 0x0, .value⟩, ⟨⟨21, 0⟩, .rsv, 0x0, .value⟩]⟩,
  ⟨.PWR_CTRL, false, [⟨0x50004, []⟩],
    [⟨⟨31, 2⟩, .rsv, 0x0, .value⟩, ⟨⟨1, 1⟩, .wo, 0x0, .value⟩, ⟨⟨0, 0⟩, .wo, 0x0, .value⟩]⟩,
  ⟨.PWR_INPUT, false, [⟨0x50008, []⟩],
    [⟨⟨31, 16⟩, .ro, 0x0, .value⟩, ⟨⟨15, 0⟩, .ro, 0x0, .value⟩]⟩,
  ⟨.PWR_LIMIT, false, [⟨0x5000C, []⟩],
    [⟨⟨31, 16⟩, .ro, 0x0, .value⟩, ⟨⟨15, 12⟩, .ro, 0x0, .value⟩, ⟨⟨11, 0⟩, .rsv, 0x0, .value⟩]⟩,
  ⟨.PWR_FIX, false, [⟨0x50010, []⟩],
    [⟨⟨31, 16⟩, .ro, 0x0, .mram⟩, ⟨⟨15, 8⟩, .ro, 0x0, .mram⟩, ⟨⟨7, 1⟩, .rsv, 0x0, .value⟩, ⟨⟨0, 0⟩, .ro, 0x0, .value⟩]⟩,
  ⟨.PWR_WAKE_CODE, true, [⟨0x50018, []⟩],
    [⟨⟨63, 0⟩, .rw, 0x0, .value⟩]⟩,
  ⟨.THM_STATUS, false, [⟨0x60000, []⟩],
    [⟨⟨31, 20⟩, .ro, 0x0, .value⟩, ⟨⟨19, 14⟩, .ro, 0x0, .value⟩, ⟨⟨13, 1⟩, .rsv, 0x0, .value⟩, ⟨⟨0, 0⟩, .ro, 0x0, .value⟩]⟩,
  ⟨.THM_TRIP_CNT, false, [⟨0x60004, []⟩],
    [⟨⟨31, 0⟩, .ro, 0x0, .value⟩]⟩,
  ⟨.THM_THROTTLE_CNT, false, [⟨0x60008, []⟩],
    [⟨⟨31, 0⟩, .ro, 0x0, .value⟩]⟩,
  ⟨.THM_SENSOR, false, [⟨0x61000, [⟨0, 8, 0x400⟩, ⟨0, 176, 0x4⟩]⟩, ⟨0x61000, [⟨8, 12, 0x400⟩, ⟨0, 4, 0x4⟩]⟩, ⟨0x61000, [⟨20, 8, 0x400⟩, ⟨0, 8, 0x4⟩]⟩],
    [⟨⟨31, 31⟩, .ro, 0x0, .value⟩, ⟨⟨30, 30⟩, .ro, 0x0, .value⟩, ⟨⟨29, 29⟩, .ro, 0x0, .value⟩, ⟨⟨28, 12⟩, .rsv, 0x0, .value⟩, ⟨⟨11, 0⟩, .ro, 0x0, .value⟩]⟩,
  ⟨.THM_FSENSOR, false, [⟨0x69000, [⟨0, 12, 0x80⟩, ⟨0, 24, 0x4⟩]⟩],
    [⟨⟨31, 31⟩, .ro, 0x0, .value⟩, ⟨⟨30, 30⟩, .ro, 0x0, .value⟩, ⟨⟨29, 29⟩, .ro, 0x0, .value⟩, ⟨⟨28, 12⟩, .rsv, 0x0, .value⟩, ⟨⟨11, 0⟩, .ro, 0x0, .value⟩]⟩]
/-- Registers of chapter 17. -/
def regTable17 : List RegRow := [
  ⟨.GRN_STATUS, false, [⟨0x30000, []⟩],
    [⟨⟨31, 31⟩, .ro, 0x0, .value⟩, ⟨⟨30, 30⟩, .ro, 0x0, .value⟩, ⟨⟨29, 0⟩, .rsv, 0x0, .value⟩]⟩,
  ⟨.GRN_CTRL, false, [⟨0x30004, []⟩],
    [⟨⟨31, 2⟩, .rsv, 0x0, .value⟩, ⟨⟨1, 1⟩, .wo, 0x0, .value⟩, ⟨⟨0, 0⟩, .wo, 0x0, .value⟩]⟩,
  ⟨.GRN_TARGET, false, [⟨0x30008, []⟩],
    [⟨⟨31, 10⟩, .rsv, 0x0, .value⟩, ⟨⟨9, 7⟩, .rw, 0x0, .value⟩, ⟨⟨6, 0⟩, .rw, 0x0, .value⟩]⟩,
  ⟨.GRN_FREE, false, [⟨0x3000C, []⟩],
    [⟨⟨31, 29⟩, .ro, 0x0, .granary⟩, ⟨⟨28, 25⟩, .ro, 0x0, .granary⟩, ⟨⟨24, 18⟩, .ro, 0x0, .granary⟩, ⟨⟨17, 12⟩, .ro, 0x0, .granary⟩, ⟨⟨11, 0⟩, .rsv, 0x0, .value⟩]⟩,
  ⟨.GRN_MAP_SEQ, true, [⟨0x30010, []⟩],
    [⟨⟨63, 0⟩, .ro, 0x0, .mram⟩]⟩,
  ⟨.GRN_MAP_DIGEST, false, [⟨0x30020, [⟨0, 8, 0x4⟩]⟩],
    [⟨⟨31, 0⟩, .ro, 0x0, .mram⟩]⟩,
  ⟨.GRN_WEAR_SEL, false, [⟨0x30040, []⟩],
    [⟨⟨31, 28⟩, .rw, 0x0, .value⟩, ⟨⟨27, 0⟩, .rw, 0x0, .value⟩]⟩,
  ⟨.GRN_WEAR, false, [⟨0x30044, []⟩],
    [⟨⟨31, 0⟩, .ro, 0x0, .mram⟩]⟩,
  ⟨.GRN_CORE_ROLE, false, [⟨0x30100, [⟨0, 8, 0x20⟩, ⟨0, 6, 0x4⟩]⟩],
    [⟨⟨31, 0⟩, .ro, 0x0, .granary⟩]⟩,
  ⟨.GRN_HOST_ROLE, false, [⟨0x30200, [⟨0, 8, 0x4⟩]⟩],
    [⟨⟨31, 16⟩, .rsv, 0x0, .value⟩, ⟨⟨15, 0⟩, .ro, 0x0, .granary⟩]⟩,
  ⟨.GRN_SITE, false, [⟨0x30300, [⟨0, 32, 0x4⟩]⟩],
    [⟨⟨31, 31⟩, .ro, 0x0, .granary⟩, ⟨⟨30, 30⟩, .ro, 0x0, .granary⟩, ⟨⟨29, 29⟩, .ro, 0x0, .granary⟩, ⟨⟨28, 28⟩, .ro, 0x0, .granary⟩, ⟨⟨27, 27⟩, .ro, 0x0, .value⟩, ⟨⟨26, 26⟩, .ro, 0x0, .granary⟩, ⟨⟨25, 16⟩, .ro, 0x0, .granary⟩, ⟨⟨15, 8⟩, .ro, 0x0, .granary⟩, ⟨⟨7, 0⟩, .ro, 0x0, .granary⟩]⟩]
/-- Registers of chapter 18. -/
def regTable18 : List RegRow := [
  ⟨.SEC_STATUS, false, [⟨0x40000, []⟩],
    [⟨⟨31, 29⟩, .ro, 0x0, .value⟩, ⟨⟨28, 26⟩, .ro, 0x0, .value⟩, ⟨⟨25, 25⟩, .ro, 0x0, .mram⟩, ⟨⟨24, 24⟩, .w1c, 0x0, .value⟩, ⟨⟨23, 23⟩, .ro, 0x0, .mram⟩, ⟨⟨22, 0⟩, .rsv, 0x0, .value⟩]⟩,
  ⟨.SEC_LEAF, true, [⟨0x40008, []⟩],
    [⟨⟨63, 53⟩, .ro, 0x0, .mram⟩, ⟨⟨52, 37⟩, .ro, 0x0, .mram⟩, ⟨⟨36, 21⟩, .ro, 0x0, .mram⟩, ⟨⟨20, 0⟩, .rsv, 0x0, .value⟩]⟩,
  ⟨.SEC_MEAS, false, [⟨0x40020, [⟨0, 4, 0x20⟩, ⟨0, 8, 0x4⟩]⟩],
    [⟨⟨31, 0⟩, .ro, 0x0, .mram⟩]⟩,
  ⟨.SEC_IDENT, false, [⟨0x400A0, [⟨0, 8, 0x4⟩]⟩],
    [⟨⟨31, 0⟩, .ro, 0x0, .mram⟩]⟩,
  ⟨.SEC_OPKEY, false, [⟨0x400C0, [⟨0, 8, 0x4⟩]⟩],
    [⟨⟨31, 0⟩, .ro, 0x0, .mram⟩]⟩,
  ⟨.SEC_OPKEY_CTRL, true, [⟨0x400E0, []⟩],
    [⟨⟨63, 63⟩, .wo, 0x0, .value⟩, ⟨⟨62, 48⟩, .rsv, 0x0, .value⟩, ⟨⟨47, 0⟩, .wo, 0x0, .value⟩]⟩,
  ⟨.SEC_OPKEY_SEQ, true, [⟨0x400E8, []⟩],
    [⟨⟨63, 0⟩, .ro, 0x0, .mram⟩]⟩,
  ⟨.SEC_ATTEST, true, [⟨0x40100, []⟩],
    [⟨⟨63, 56⟩, .wo, 0x0, .value⟩, ⟨⟨55, 48⟩, .rsv, 0x0, .value⟩, ⟨⟨47, 0⟩, .wo, 0x0, .value⟩]⟩,
  ⟨.SEC_ATTEST_STATUS, false, [⟨0x40108, []⟩],
    [⟨⟨31, 30⟩, .ro, 0x0, .value⟩, ⟨⟨29, 28⟩, .ro, 0x0, .value⟩, ⟨⟨27, 0⟩, .rsv, 0x0, .value⟩]⟩,
  ⟨.SEC_GUEST, false, [⟨0x40200, [⟨0, 4, 0x4⟩]⟩],
    [⟨⟨31, 29⟩, .ro, 0x0, .value⟩, ⟨⟨28, 26⟩, .ro, 0x0, .value⟩, ⟨⟨25, 0⟩, .rsv, 0x0, .value⟩]⟩,
  ⟨.SEC_LEDGER_HEAD, false, [⟨0x41000, [⟨0, 256, 0x40⟩, ⟨0, 8, 0x4⟩]⟩],
    [⟨⟨31, 0⟩, .ro, 0x0, .mram⟩]⟩,
  ⟨.SEC_LEDGER_CNT, true, [⟨0x41020, [⟨0, 256, 0x40⟩]⟩],
    [⟨⟨63, 0⟩, .ro, 0x0, .mram⟩]⟩]
/-- Registers of chapter 19. -/
def regTable19a : List RegRow := [
  ⟨.EVT_STATUS, false, [⟨0xC0000, []⟩],
    [⟨⟨31, 16⟩, .ro, 0x0, .value⟩, ⟨⟨15, 0⟩, .ro, 0x0, .value⟩]⟩,
  ⟨.EVT_CTRL, false, [⟨0xC0004, []⟩],
    [⟨⟨31, 31⟩, .rw, 0x0, .value⟩, ⟨⟨30, 15⟩, .rsv, 0x0, .value⟩, ⟨⟨14, 0⟩, .rw, 0x0, .value⟩]⟩,
  ⟨.EVT_UNMAPPED_CNT, false, [⟨0xC0008, []⟩],
    [⟨⟨31, 0⟩, .ro, 0x0, .value⟩]⟩,
  ⟨.MC_SHEET_BELL, true, [⟨0xA0000, []⟩],
    [⟨⟨63, 48⟩, .rsv, 0x0, .value⟩, ⟨⟨47, 0⟩, .ro, 0x0, .value⟩]⟩,
  ⟨.DBG_TRACE, false, [⟨0xB0000, []⟩],
    [⟨⟨31, 31⟩, .rw, 0x0, .value⟩, ⟨⟨30, 26⟩, .rw, 0x0, .value⟩, ⟨⟨25, 20⟩, .rw, 0x0, .value⟩, ⟨⟨19, 0⟩, .ro, 0x0, .value⟩]⟩,
  ⟨.DBG_TRACE_BASE, true, [⟨0xB0008, []⟩],
    [⟨⟨63, 0⟩, .rw, 0x0, .value⟩]⟩,
  ⟨.CKV_CTRL, false, [⟨0x81000, [⟨0, 24, 0x40⟩]⟩],
    [⟨⟨31, 24⟩, .rw, 0x0, .value⟩, ⟨⟨23, 5⟩, .rw, 0x0, .value⟩, ⟨⟨4, 3⟩, .rw, 0x0, .value⟩, ⟨⟨2, 2⟩, .rw, 0x0, .value⟩, ⟨⟨1, 1⟩, .rw, 0x0, .value⟩, ⟨⟨0, 0⟩, .wo, 0x0, .value⟩]⟩,
  ⟨.CKV_STATUS, false, [⟨0x81004, [⟨0, 24, 0x40⟩]⟩],
    [⟨⟨31, 30⟩, .ro, 0x0, .value⟩, ⟨⟨29, 0⟩, .ro, 0x0, .value⟩]⟩,
  ⟨.MC_SHEET0, false, [⟨0xA8000, [⟨0, 32, 0x100⟩, ⟨0, 64, 0x4⟩]⟩],
    [⟨⟨31, 0⟩, .ro, 0x0, .value⟩]⟩,
  ⟨.MC_SHEET1, false, [⟨0xAA000, [⟨0, 32, 0x100⟩, ⟨0, 64, 0x4⟩]⟩],
    [⟨⟨31, 0⟩, .ro, 0x0, .value⟩]⟩,
  ⟨.CKV_ADDR, true, [⟨0x81008, [⟨0, 24, 0x40⟩]⟩],
    [⟨⟨63, 0⟩, .rw, 0x0, .value⟩]⟩,
  ⟨.CKV_LEN, true, [⟨0x81010, [⟨0, 24, 0x40⟩]⟩],
    [⟨⟨63, 0⟩, .rw, 0x0, .value⟩]⟩]
/-- Registers of chapter 19. -/
def regTable19b : List RegRow := [
  ⟨.CKV_EXPECT, true, [⟨0x81018, [⟨0, 24, 0x40⟩]⟩],
    [⟨⟨63, 0⟩, .rw, 0x0, .value⟩]⟩,
  ⟨.CKV_RESULT, true, [⟨0x81020, [⟨0, 24, 0x40⟩]⟩],
    [⟨⟨63, 0⟩, .ro, 0x0, .value⟩]⟩]

/-- The register table of the control space. -/
def regTable : List RegRow :=
  regTable01 ++ regTable03 ++ regTable04 ++ regTable05a ++ regTable05b ++ regTable06a ++ regTable06b ++ regTable07 ++ regTable08 ++ regTable09 ++ regTable10 ++ regTable11 ++ regTable12 ++ regTable13 ++ regTable14 ++ regTable15a ++ regTable15b ++ regTable16 ++ regTable17 ++ regTable18 ++ regTable19a ++ regTable19b

/-- The indices of the address offset `r` in an array with dimensions `ds`, if it is one of its
instances; the remainder must be 0, or 4 for the high word of a 64-bit register. -/
def dimsAt : List Dim → Nat → Option (List Nat × Nat)
  | [], r => some ([], r)
  | d :: ds, r =>
    let i := r / d.stride
    if d.first ≤ i ∧ i < d.first + d.count then
      match dimsAt ds (r % d.stride) with
      | some (is, q) => some (i :: is, q)
      | none => none
    else none

/-- A control-space address decoded: the register, its low word's address, its indices, and whether
the address is that of its high word. -/
structure RegHit where
  row : RegRow
  addr : Nat
  idx : List Nat
  high : Bool
  deriving DecidableEq, Repr

/-- Decode the address in one placement of a register. -/
def placeAt (row : RegRow) (a : Nat) (p : Place) : Option RegHit :=
  if a < p.base then none else
  match dimsAt p.dims (a - p.base) with
  | some (is, 0) => some ⟨row, a, is, false⟩
  | some (is, 4) => if row.wide then some ⟨row, a - 4, is, true⟩ else none
  | _ => none

/-- Decode the address in a list of rows. -/
def rowsAt : List RegRow → Nat → Option RegHit
  | [], _ => none
  | row :: rows, a =>
    match row.places.findSome? (placeAt row a) with
    | some h => some h
    | none => rowsAt rows a

/-- The register that a word address decodes to; `none` where R10 applies. -/
def regAt (a : Nat) : Option RegHit := rowsAt regTable a

/-- The bits of a field, as a mask of the register. -/
def Fld.mask (f : Fld) : BitVec 64 :=
  BitVec.ofNat 64 ((2 ^ (f.hi + 1 - f.lo) - 1) * 2 ^ f.lo)

/-- The value of a field of a register's value. -/
def Fld.get (f : Fld) (v : BitVec 64) : Nat := v.toNat / 2 ^ f.lo % 2 ^ (f.hi + 1 - f.lo)

/-- Replace a field of a register's value; the number is taken modulo the field's width. -/
def Fld.put (f : Fld) (v : BitVec 64) (x : Nat) : BitVec 64 :=
  BitVec.ofNat 64 (v.toNat % 2 ^ f.lo + x % 2 ^ (f.hi + 1 - f.lo) * 2 ^ f.lo
    + v.toNat / 2 ^ (f.hi + 1) * 2 ^ (f.hi + 1))

/-- The largest value of a field, at which its counters hold. -/
def Fld.max (f : Fld) : Nat := 2 ^ (f.hi + 1 - f.lo) - 1

/-- The reset value of a row's fields. -/
def fldsReset : List FldRow → BitVec 64
  | [] => 0
  | r :: rs => r.fld.put (fldsReset rs) r.reset

/-- Reset value of a register instance. The loopback slots of FAB_STEER (R184, R203) and the targets
of CAL_COMB_RX (R391) depend on the instance. -/
def RegHit.reset (h : RegHit) : BitVec 64 :=
  let v := fldsReset h.row.flds
  match h.row.name, h.idx with
  | .FAB_STEER, [s, q] =>
    if q = 36 ∨ q = 37 then Fld.FAB_STEER_RX_SA.put (Fld.FAB_STEER_TX_SA.put v 63) s else v
  | .CAL_COMB_RX, [_, c] =>
    Fld.CAL_COMB_RX_TARGET.put v (if c ≤ 4 then 65536 - 700 else 65536 - 950)
  | _, _ => v

/-- Reset value of the register at a low word's address; 0 where no register stands. -/
def resetAt (a : Nat) : BitVec 64 :=
  match regAt a with
  | some h => h.reset
  | none => 0

end Sys2Proof
end

