-- ==== Sys2Proof/Machine/State.lean ====
section
/-!
DEFINITION. The state of the module: plain data. Registers live in `regs`, by the address of their low
word; memory in `mem`, by site and offset; the state that is no register in one record per unit.
`State.reset` is the module before VIN is applied.
-/

namespace Sys2Proof.Machine

open Sys2Proof

/-! ## Configuration, events and what the block sends -/

/-- A record of the installed configuration (R311): segment TYPE, variant (0 for the base), KIND, the
image offset, and its bytes. -/
structure Rec where
  seg : Nat
  variant : Nat
  kind : Nat
  off : Nat
  bytes : List Byte
  deriving DecidableEq, Repr

/-- A 32-byte event record (R455). -/
structure EventRec where
  code : Nat
  site : Nat
  voted : Bool
  abandon : Bool
  bell : Nat
  count : Nat
  time : Nat
  args : List Nat
  deriving DecidableEq, Repr

/-- Where a sync frame goes: to the package's vote node, from the vote node up to the parent package,
from the vote node down to its sites and child packages, or to every site of the package. -/
inductive FrameDir where
  | toNode | up | down | sites
  deriving DecidableEq, Repr

/-- A RoCEv2 message or answer that the host port sends (R290, R298). -/
inductive Roce where
  | send (qpn : Nat) (imm : Nat) (pay : List Byte)
  | write (qpn : Nat) (va rkey imm : Nat) (pay : List Byte)
  | read (qpn : Nat) (va rkey len : Nat)
  | ack (qpn : Nat)
  | rnrNak (qpn : Nat)
  | accessNak (qpn : Nat)
  | invalidNak (qpn : Nat)
  | opErrNak (qpn : Nat)
  | readResp (qpn : Nat) (pay : List Byte)
  | cnp (qpn : Nat)
  deriving DecidableEq, Repr

/-- Everything the block sends or answers, in the order of sending: a packet with the carriers, or slots of a link, that
take its granules in turn (R187, R236), a control codeword on one of them (R220, R237), and so on. -/
inductive Output where
  | packet (site : Nat) (hop : Hop) (p : Packet) (via : List Nat)
  | code (site : Nat) (hop : Hop) (lane : Nat) (word : Nat)
  | marker (site : Nat) (hop : Hop) (version : Nat)
  | frame (site : Nat) (dir : FrameDir) (f : Frame)
  | readData (r : Requester) (wide : Bool) (v : BitVec 64)
  | writeDone (r : Requester)
  | hostValue (h : Nat) (bytes : List Byte)
  | hostStop (h : Nat) (cause : Nat)
  | irq (h : Nat) (id : Nat)
  | roce (m : Roce)
  | ether (bytes : List Byte) (stamp : Nat)
  | pfc (prio : Nat) (xoff : Bool)
  | secured (an pn : Nat)
  | sideband (r : Requester) (bytes : List Byte)
  | tap (bits : List Bool)
  | stream (unit : Nat) (bytes : List Byte)
  | drive (bits : List Bool)
  | ibi
  deriving DecidableEq, Repr

/-! ## Matrix cores and their sequencers -/

/-- A piece of a transfer still to be sent: at most one packet. `src` and `dst` are global
addresses. -/
structure Piece where
  src : Nat
  dst : Nat
  len : Nat
  last : Bool
  deriving DecidableEq, Repr

/-- A descriptor that has issued and not yet retired (R92, R113): its serial number in issue order,
its index in the program, its 64 bytes, whether it issued during run-ahead (R120), whether it is
complete, the status of a failure that waits for confirmation, the transactions outstanding, the
pieces of its transfer not yet sent, what its reads find in the site's own stores and what its writes meet. -/
structure Flight where
  serial : Nat
  idx : Nat
  desc : BitVec 512
  spec : Bool
  complete : Bool
  failed : List Nat
  left : Nat
  todo : List Piece
  flaws : Flaws := []
  mets : Meets := []
  deriving DecidableEq, Repr

/-- Data held in the speculative read buffer (R120). -/
structure SpecData where
  serial : Nat
  dst : Nat
  bytes : List Byte
  deriving DecidableEq, Repr

/-- An MMA descriptor on the array, in cycles of the bell (R74, R75): when its first group enters,
when its groups end and when its last group enters, when its drain or output stage ends, when its bank has been read. -/
structure MmaRun where
  serial : Nat
  groupsStart : Nat
  groupsEnd : Nat
  lastEntry : Nat
  bankFree : Nat
  done : Nat
  bank : Nat
  deriving DecidableEq, Repr

/-- A dynamic-slot fill (R116); `used` once the sequencer has passed its slot with it (R118). -/
structure Fill where
  bell : Nat
  slot : Nat
  desc : BitVec 512
  used : Bool
  deriving DecidableEq, Repr

/-- A fill record that waits at a core's slot-fill window because 256 are pending (R117): the context of its writer,
its bytes, where it came in a packet whose credit and answer are withheld, the hop and the packet, or the core and the
flight of the site that waits for it, and when it came (R224). -/
structure HeldFill where
  ctx : Nat
  bytes : List Byte
  back : Option (Hop × Packet)
  writer : Option (Nat × Nat)
  since : Nat
  deriving DecidableEq, Repr

/-- The registers of a core's vector unit (R78, R79): integer, floating-point and vector registers, zero where none is
listed, fcsr as its fields, vtype with vill in bit 63, vl, vstart, vxrm, vxsat, and the address of a load-reserve. -/
structure VecSt where
  x : SMap (BitVec 64)
  f : SMap (BitVec 64)
  v : SMap (BitVec 1024)
  fflags : BitVec 5
  frm : BitVec 3
  vtype : BitVec 64
  vl : Nat
  vstart : Nat
  vxrm : BitVec 2
  vxsat : Bool
  resv : Option Nat
  deriving DecidableEq, Repr

/-- The registers that a kernel starts with (R79). -/
def VecSt.start : VecSt :=
  { x := [], f := [], v := [], fflags := 0, frm := 0, vtype := BitVec.ofNat 64 (2 ^ 63), vl := 0, vstart := 0,
    vxrm := 0, vxsat := false, resv := none }

/-- One matrix core. `acc` holds the two accumulator banks, keyed `8192 * bank + 64 * row + column`
(R77). -/
structure CoreSt where
  running : Bool
  ctx : Nat
  phase : Nat
  pc : Nat
  serial : Nat
  flights : List Flight
  branches : List Nat
  runAhead : Nat
  halted : Bool
  parityStop : Bool
  atEnd : Bool
  retired : Bool
  mma : List MmaRun
  acc : SMap (BitVec 32)
  vec : VecSt
  specData : List SpecData
  fills : List Fill
  heldFills : List HeldFill
  waitFrom : Option Nat
  mmaCyc : Nat
  waitCyc : Nat
  squashes : Nat
  cancelled : Nat
  attributed : List (Nat × Nat)
  deriving DecidableEq, Repr

/-- A core that runs nothing. -/
def CoreSt.idle : CoreSt :=
  { running := false, ctx := 0, phase := 0, pc := 0, serial := 0, flights := [], branches := [],
    runAhead := 0, halted := false, parityStop := false, atEnd := false, retired := false, mma := [],
    acc := [], vec := .start, specData := [], fills := [], heldFills := [], waitFrom := none, mmaCyc := 0, waitCyc := 0,
    squashes := 0, cancelled := 0, attributed := [] }

/-! ## Bells at a site, the vote node and the root -/

/-- Life of a site's bells, as BELL_STATUS.STATE codes it (R159). -/
inductive Life where
  | notStarted | running | extended | lateHold | abandoning | held | settling
  deriving DecidableEq, Repr

/-- The code of a life state (R159). -/
def Life.code : Life → Nat
  | .notStarted => 0 | .running => 1 | .extended => 2 | .lateHold => 3 | .abandoning => 4
  | .held => 5 | .settling => 6

/-- R139: does a site in this state abandon work or hold? -/
def Life.abandons : Life → Bool
  | .abandoning | .held | .settling => true
  | _ => false

/-- What a bell began with, kept until it commits (R87, R134): the phases of the site's contexts and,
at compute stacks, the step bases. -/
structure Snapshot where
  bell : Nat
  phases : SMap Nat
  bases : SMap Nat
  deriving DecidableEq, Repr

/-- The bell state of one site (R126 to R152). `ext` counts the extensions granted to the bell, `closed` is the
lateness decision with FORCED once CLOSE is held, `checks` the check points judged, `late` whether LATE was sent;
`start` is the START of a replay or resume and `startBell` the bell that begins next after one or after a hold;
`holdFor` is HOLD_UNTIL with the bell at whose end it holds, `pendHold` the bell before which a requested hold
begins, `settleB` the bell of SETTLE; `resident` the context of core stores and cluster memories, 0 for none;
`runs` the runs of uncommitted bells by bell and T0; `again` marks a run of a replayed bell, `miss` a bell that the
site misses (R320); `perIdx` counts the period boundaries passed in a hold. -/
structure SiteBell where
  life : Life
  bell : Nat
  t0 : Nat
  guard : Bool
  ext : Nat
  closed : Option (Nat × Bool)
  checks : Nat
  late : Bool
  fault : Bool
  lost : Bool
  committed : Option Nat
  start : Option Nat
  startBell : Nat
  holdFor : Option (Nat × Nat)
  pendHold : Option Nat
  settleB : Option Nat
  phases : SMap Nat
  resident : Nat
  snaps : List Snapshot
  runs : List (Nat × Nat)
  again : Bool
  miss : Bool
  perIdx : Nat
  settleDue : Bool
  sheet : Option (List Byte)
  deriving DecidableEq, Repr

/-- A site whose bells have not started. -/
def SiteBell.idle : SiteBell :=
  { life := .notStarted, bell := 0, t0 := 0, guard := false, ext := 0, closed := none, checks := 0, late := false,
    fault := false, lost := false, committed := none, start := none, startBell := 0, holdFor := none,
    pendHold := none, settleB := none, phases := [], resident := 0, snaps := [], runs := [], again := false,
    miss := false, perIdx := 0, settleDue := false, sheet := none }

/-- A vote held by the vote node (R131). -/
structure Vote where
  bell : Nat
  child : Child
  fault : Bool
  lost : Bool
  deriving DecidableEq, Repr

/-- The package's vote node and, at the root package, the root (R131 to R151): votes held, the node's own FAULT
of sealed bells, the last bell passed on or cleared, replays of the oldest uncommitted bell, LATE reports of the
bell being run, the next check point to decide, whether CLOSE was cried for it, whether everything is dropped until
START, the bell of a requested hold, the bell of SETTLE, the FAULT of the bell being run, and the START whose settled boundary
the package has taken, with its bell (R22). -/
structure NodeSt where
  votes : List Vote
  own : List (Nat × Bool)
  passed : Option Nat
  replays : Nat
  lates : List (Nat × Nat)
  nextM : Nat
  closed : Bool
  mute : Bool
  holdAt : Option Nat
  settleAt : Option Nat
  nodeFault : Bool
  started : Option (Nat × Nat)
  deriving DecidableEq, Repr

/-- A vote node that has heard nothing. -/
def NodeSt.idle : NodeSt :=
  { votes := [], own := [], passed := none, replays := 0, lates := [], nextM := 0, closed := false, mute := false,
    holdAt := none, settleAt := none, nodeFault := false, started := none }

/-- A tithed request that waits (R156): class, units, and a number that names it to TITHE_ADMIT. -/
structure TitheReq where
  cls : Nat
  cost : Nat
  id : Nat
  deriving DecidableEq, Repr

/-- The tithe arbiter of a site (R156): used in this bell, stalled classes, waiting requests in order
of arrival, the ids admitted in order. -/
structure TitheSt where
  used : SMap Nat
  stalled : List Nat
  queue : List TitheReq
  admitted : List Nat
  deriving DecidableEq, Repr

/-- An arbiter with nothing used. -/
def TitheSt.idle : TitheSt := { used := [], stalled := [], queue := [], admitted := [] }

/-! ## Stacked caches and HBM3E stacks -/

/-- A cached line of HBM3E (R165): its bridge, line number `a[42:8]`, context, and the bytes held. -/
structure CacheLine where
  bridge : Nat
  line : Nat
  ctx : Nat
  data : List Byte
  deriving DecidableEq, Repr

/-- The stacked cache of a compute stack: lines by `(65536 * port + set) * 16 + way`, the tree bits of
each set by `65536 * port + set` (R165), the frame groups that wait for retirement as
`4096 * port + group`, and those of them that an abandoned copy left for a hold (R169). -/
structure StackMem where
  lines : SMap CacheLine
  plru : SMap Nat
  groups : List Nat
  held : List Nat
  deriving DecidableEq, Repr

/-- A cache that holds nothing. -/
def StackMem.idle : StackMem := { lines := [], plru := [], groups := [], held := [] }

/-- A page of a bridge's correction table (R426): its count, and its mark while it waits for the
retirement queue (R174). -/
structure PageNote where
  page : Nat
  count : Nat
  marked : Bool
  uncorr : Bool
  deriving DecidableEq, Repr

/-- A queued page (R174) and the list entry that it holds. -/
structure PageQueued where
  page : Nat
  entry : Nat
  uncorr : Bool
  deriving DecidableEq, Repr

/-- An entry of a bridge's fix area (R176): its place in the log, from the area's base, its bell, target offset, bytes,
and whether it is applied or discarded. -/
structure FixEntry where
  pos : Nat
  bell : Nat
  off : Nat
  bytes : List Byte
  done : Bool
  deriving DecidableEq, Repr

/-- The HBM3E stack of a bridge: correction table in order of marking, retirement queue, fix-area log
oldest first and the place of its next entry, bytes moved in this bell. -/
structure BridgeMem where
  notes : List PageNote
  queue : List PageQueued
  fix : List FixEntry
  tail : Nat
  moved : Nat
  deriving DecidableEq, Repr

/-- A stack with nothing noted. -/
def BridgeMem.idle : BridgeMem := { notes := [], queue := [], fix := [], tail := 0, moved := 0 }

/-- An invalidation on its way to a caching stack (R167), and the write it belongs to. -/
structure InvPend where
  id : Nat
  stack : Nat
  bridge : Nat
  line : Nat
  deriving DecidableEq, Repr

/-- An acknowledgement that a bridge withholds until every invalidation of its write is done (R167). -/
structure InvAck where
  id : Nat
  site : Nat
  pkt : Packet
  deriving DecidableEq, Repr

/-! ## Gateways and link engines -/

/-- What a live tag completes (R225). -/
inductive Purpose where
  | descRead (core : Nat) (serial : Nat) (dst : Nat) (spec : Bool)
  | cacheRead (core : Nat) (serial : Nat) (dst : Nat) (spec : Bool) (g : Nat) (lo : Nat) (n : Nat)
  | desc (core : Nat) (serial : Nat)
  | line (run : Nat)
  | xfer (id : Nat) (off : Nat)
  | xferLine (id : Nat) (off : Nat) (g : Nat) (lo : Nat) (n : Nat)
  | dma
  deriving DecidableEq, Repr

/-- A live tag's entry (R225). Of a multicast request, `kids` are the destinations that have not answered, a site of the
package by its number and a neighbour by 32 + its package, and `first` the first failure status (R273, R274). -/
structure TagEntry where
  gen : Nat
  bell : Nat
  epoch : Nat
  ctx : Nat
  dstPkg : Nat
  dstSite : Nat
  len : Nat
  issued : Nat
  purpose : Purpose
  kids : List Nat
  first : Nat
  deriving DecidableEq, Repr

/-- A dedupe entry (R252): the key of R212 step 9, when it was made, and the answer it gave. -/
structure Dedupe where
  key : Nat
  time : Nat
  dual : Bool
  deriving DecidableEq, Repr

/-- A packet that waits for credit or is held for retry, with the time it came in (R217, R224). -/
structure Held where
  pkt : Packet
  hop : Hop
  since : Nat
  deriving DecidableEq, Repr

/-- A packet in flight on a hop (R221): the byte of the stream after it, when the holder took it in (R224), when it
was last sent (R251). -/
structure Flown where
  pos : Nat
  since : Nat
  sent : Nat
  pkt : Packet
  deriving DecidableEq, Repr

/-- One go-back-N stream of a hop (R221), in bytes (R187). Transmit: the byte after the last packet, the turn of the
granule that holds it in the rotation of the stripe, or, where that granule was begun before a change of the stripe, its lane
with the turn of the granule after it (R188), packets not acknowledged, when ACK last advanced or data became
outstanding, when it was last resent, resends of one position. Receive: the byte expected, whether granules are
discarded until a marked retransmission, and the bytes of a retransmission that were taken before. `recent` are
packets of a link that were acknowledged within 1.5 µs of being sent. -/
structure Stream where
  pos : Nat
  turn : Nat
  begun : Option Nat
  flight : List Flown
  advanced : Nat
  tried : Nat
  resends : Nat
  expect : Nat
  discard : Bool
  skip : Nat
  recent : List Flown
  deriving DecidableEq, Repr

/-- A stream at position 0. -/
def Stream.idle : Stream :=
  { pos := 0, turn := 0, begun := none, flight := [], advanced := 0, tried := 0, resends := 0, expect := 0, discard := false, skip := 0,
    recent := [] }

/-- A replication record of a link engine (R274): the LAST packet it copied, the hop it came by, copies
not answered yet, the first failure status, how many failure statuses came later, when it was made. -/
structure Replica where
  pkt : Packet
  hop : Hop
  left : Nat
  status : Nat
  later : Nat
  since : Nat
  deriving DecidableEq, Repr

/-- A packet that an engine has replicated (R273): its loop key, when, and whether it was a DUAL copy (R251). -/
structure Seen where
  key : Nat
  time : Nat
  dual : Bool
  deriving DecidableEq, Repr

/-- A packet that a gateway or link engine holds, its credit withheld: a VC0 packet until a replication record frees (R274),
one behind such a packet of its link, or one behind a fill record of its source and VC that waits (R117, R215): the packet,
the hop it came by, what its write meets, whether a parity failure meets it, what its read meets, when it came. -/
structure HeldCopy where
  pkt : Packet
  hop : Hop
  mets : Meets
  bad : Bool
  flaws : Flaws
  since : Nat
  deriving DecidableEq, Repr

/-- A tagged packet that waits at its issuer until a tag is free (R225): the packet as it was formed, the copies in which a
multicast packet goes, to sites and along branches (none: as it is), whether the packet keeps the bell it was formed
with, what its tag will complete. -/
structure TagWait where
  issuer : Nat
  copies : List (Option Nat × Site)
  keepBell : Bool
  pkt : Packet
  len : Nat
  why : Purpose
  deriving DecidableEq, Repr

/-- The gateway of a site. Keys: `tags` and `quar` by `4096 * issuer + tag`, `gens` likewise;
`creditUsed`, `freed` and `freedAt` by `8 * hop number + VC`; `streams` by `2 * hop number + control`.
`stops` are the die's stops whose gateway channel is lost (R340); `torn` the sources of a MOVE that lost a granule
here before its LAST packet (R110). -/
structure GwSt where
  epochs : SMap Nat
  tags : SMap TagEntry
  quar : SMap Nat
  gens : SMap Nat
  sticky : List (Nat × Nat)
  dedupe : List Dedupe
  ovfUntil : Option Nat
  creditUsed : SMap Nat
  waiting : List Held
  freed : SMap Nat
  freedAt : SMap Nat
  stallSaid : List (Nat × Nat)
  streams : SMap Stream
  sheetMissed : Nat
  issueStop : Bool
  silent : Bool
  stops : List Nat
  replicas : List Replica
  replKeys : List Seen
  replHeld : List HeldCopy
  tagWait : List TagWait
  torn : List Nat
  deriving DecidableEq, Repr

/-- A gateway that has sent and received nothing. -/
def GwSt.idle : GwSt :=
  { epochs := [], tags := [], quar := [], gens := [], sticky := [], dedupe := [], ovfUntil := none,
    creditUsed := [], waiting := [], freed := [], freedAt := [], stallSaid := [], streams := [],
    sheetMissed := 0, issueStop := false, silent := false, stops := [], replicas := [],
    replKeys := [], replHeld := [], tagWait := [], torn := [] }

/-- A request that waits for the tithe arbiter with the packet it will send (R156). -/
structure Job where
  site : Nat
  id : Nat
  issuer : Nat
  pkt : Packet
  len : Nat
  why : Purpose
  deriving DecidableEq, Repr

/-- A 64-byte line that the caches of a die's host cores hold (R279, R282). -/
structure HostLine where
  bytes : List Byte
  dirty : Bool
  deriving DecidableEq, Repr

/-- What a host core does with the bytes of lines its die holds (R282, R283). -/
inductive HostDo where
  | load
  | store (bytes : List Byte)
  | amo (amo : HostAmo)
  deriving DecidableEq, Repr

/-- What a transfer of several packets does when the last is answered: a host core's load (start and
length of the bytes asked for, in the bytes read), store or AMO, an operator's MEM_READ or MEM_WRITE,
a ring copy of R292; `rep` is the length of the frame that answers through the host port. -/
inductive XferKind where
  | hostLoad (h : Nat) (lo : Nat) (n : Nat)
  | hostFill (h : Nat) (g : Nat) (n : Nat) (todo : HostDo)
  | hostStore (h : Nat)
  | hostAmo (h : Nat) (n : Nat)
  | memRead (r : Requester) (seq : Nat) (lo : Nat) (n : Nat) (rep : Nat)
  | memWrite (r : Requester) (seq : Nat) (rep : Nat)
  | ringCopy (ring : Nat) (bell : Nat)
  deriving DecidableEq, Repr

/-- A transfer of several packets: those not answered, the first failure status, the bytes read. -/
structure Xfer where
  id : Nat
  left : Nat
  status : Nat
  parts : List (Nat × List Byte)
  kind : XferKind
  deriving DecidableEq, Repr

/-- A bell that a bell-side ring serves (R292, R293): the side (true: it produces), its reservation, the
copy (0 none, 1 in flight, 2 written), whether its ready token is signalled in this run. -/
structure RingBell where
  bell : Nat
  prod : Bool
  held : Bool
  copy : Nat
  told : Bool
  deriving DecidableEq, Repr

/-- An entry that a ring's engine has started (R289, R290): its index and fields, whether it writes a
completion record, and where; its FLAGS and its first operand byte (the step of KEYX); the bytes kept to send a message
again (R298); the first failure of the writes of an RDMA_READ's data (R294); `fin` once it has completed, with status,
DATA[9], bytes moved and transmit timestamp. -/
structure RingOp where
  idx : Nat
  op : Nat
  len : Nat
  addr : Nat
  va : Nat
  rkey : Nat
  imm : Nat
  compl : Bool
  cring : Nat
  flags : Nat
  first : Nat
  kept : List (BitVec 8)
  hurt : Nat
  fin : Option (Nat × Nat × Nat × Nat)
  deriving DecidableEq, Repr

/-- A ring (R287): its indices, the entries that the engine has started and not consumed, oldest first,
and the bells it serves. -/
structure RingSt where
  pi : Nat
  ci : Nat
  ops : List RingOp
  bells : List RingBell
  deriving DecidableEq, Repr

/-- A ring with nothing in it. -/
def RingSt.idle : RingSt := { pi := 0, ci := 0, ops := [], bells := [] }

/-- A message or packet that the host port receives (R297, R298): what is left once the transport engine
has found it in sequence. `hdr` are the bytes of the BTH and, when present, the RETH. -/
inductive InBody where
  | raw (bytes : List Byte)
  | send (qpn : Nat) (hdr pay : List Byte)
  | write (qpn : Nat) (hdr : List Byte) (va rkey : Nat) (pay : List Byte)
  | read (qpn : Nat) (va rkey len : Nat) (flaws : Flaws)
  | bad (qpn : Nat)
  | cnp (qpn : Nat)
  | ack (qpn : Nat)
  | nak (qpn kind : Nat)
  | readData (qpn : Nat) (hdr : List Byte) (off : Nat) (pay : List Byte) (last : Bool)
  | ohmune (seq : Nat) (cmd : Ohmune)
  deriving DecidableEq, Repr

/-- A frame at the host port: its length from destination address to FCS, whether it is ECN-marked, whether its
queue pair is RC (or UD), the length of the frames that go back on it, their priority, the bytes of its path MTU and the
headers of their packets, and its body. -/
structure InFrame where
  size : Nat
  ecn : Bool
  rc : Bool
  reply : Nat
  prio : Nat
  mtu : Nat
  hdrs : List (List (BitVec 8))
  body : InBody
  deriving DecidableEq, Repr

/-- A message on its way out of the host port: what is sent, and the ring, index and length of the entry that is done
once it is sent, with whether its completion carries the transmit timestamp; its priority (R296). -/
structure Egress where
  what : Output
  entry : Option (Nat × Nat × Nat × Bool)
  prio : Nat
  deriving DecidableEq, Repr

/-- A context's confidential state (R302, R303): the decapsulation seed and nonce of a key agreement that
runs, whether keys are derived, whether every payload must be encrypted, keys and salts, the outbound
counter, the last counter accepted by queue pair, the bounce windows. -/
structure ConfSt where
  seed : Option (BitVec 256)
  nonce : BitVec 256
  keyed : Bool
  on : Bool
  kOut : BitVec 256
  kIn : BitVec 256
  sOut : BitVec 32
  sIn : BitVec 32
  ctr : Nat
  last : SMap Nat
  bounce : List (Nat × Nat × Nat)
  deriving DecidableEq, Repr

/-- A context with no keys. -/
def ConfSt.idle : ConfSt :=
  { seed := none, nonce := 0, keyed := false, on := false, kOut := 0, kIn := 0, sOut := 0, sIn := 0,
    ctr := 0, last := [], bounce := [] }

/-- A MACsec association (R300): key, next packet number, SSCI, salt. -/
structure Assoc where
  key : List Byte
  pn : Nat
  ssci : Nat
  salt : List Byte
  deriving DecidableEq, Repr

/-! ## Reduction engines -/

/-- A completed line that waits for output (R268): its position in the slice, its bytes, its scale. -/
structure LineOut where
  line : Nat
  bytes : List Byte
  scale : Nat
  deriving DecidableEq, Repr

/-- A slice in a bell (R269, R270): lines completed and not sent, lines sent, scales not sent, whether
LAST is sent, output transactions not answered, complete. -/
structure SliceRun where
  site : Nat
  group : Nat
  bell : Nat
  queue : List LineOut
  sent : List Nat
  scales : List (Nat × Nat)
  last : Bool
  left : Nat
  complete : Bool
  deriving DecidableEq, Repr

/-- A bracket that runs (R193, R386): of carrier `ch` of the pair direction `tx` to `rx`, or of wavelength
`ch` of local link `rx` of the engine at site `tx`; the granary carrier that stands in, when it began. -/
structure Bracket where
  wave : Bool
  tx : Nat
  rx : Nat
  ch : Nat
  stand : Nat
  since : Nat
  deriving DecidableEq, Repr

/-- An external link: since when it is redirected and untrained, trainings failed in a row, since when it
serves, whether this end sends OUT, whether the peer does, whether it is parked (R408), the link delay and
the errors heard in this servo interval in ns (R366), the last link error, whether it is in conflict
(R368), the peer's RXPOWER by slot (R237), the power received by slot with since when it is below −12.0 dBm (R242), the
data wavelengths, 16 for λ17, whose ring has lost lock with when each left (R257, R376), the slots of the transmit stripe in order of
D number with its version, the version last received with the data positions of the stripe whose marker was seen last (R236), and the return path of the handshake (R243). -/
structure LinkSt where
  outAt : Option Nat
  tries : Nat
  servedFrom : Nat
  sendsOut : Bool
  peerOut : Bool
  parked : Bool
  delay : Nat
  errs : List Int
  err : Int
  clash : Bool
  dualUntil : Nat
  power : SMap Nat
  level : SMap Int
  low : SMap Nat
  dark : List (Nat × Nat)
  stripe : List Nat
  version : Nat
  rxVersion : Nat
  rxWaves : Nat
  back : Nat
  deriving DecidableEq, Repr

/-- A link that has done nothing. -/
def LinkSt.idle : LinkSt :=
  { outAt := none, tries := 0, servedFrom := 0, sendsOut := false, peerOut := false, parked := false
    delay := 0, errs := [], err := 0, clash := false, dualUntil := 0, power := [], level := [], low := [],
    dark := [], stripe := [], version := 0, rxVersion := 0, rxWaves := 0, back := 0 }

/-! ## Configuration store -/

/-- A passed or installed image: KIND 1 is a partial image of context `ctx`; its slot, its DIGEST, the
segments it holds as `(variant, TYPE)`, and its records. -/
structure Image where
  part : Bool
  slot : Nat
  ctx : Nat
  digest : List Byte
  segs : List (Nat × Nat)
  recs : List Rec
  deriving DecidableEq, Repr

/-- The configuration store (R306 to R328). `eff` is the effective configuration: the active full
image with the selected variant and the active partial images laid over it. -/
structure CfgSt where
  full : Option Image
  variant : Nat
  partials : List Image
  eff : List Rec
  pendFull : Option Image
  pendPart : List Image
  pendAlt : Option Nat
  check : Option (Bool × Nat)
  fault : Option (Nat × Nat × Nat × Nat)
  found : Option Image
  install : Bool
  deriving DecidableEq, Repr

/-- A store that holds no image. -/
def CfgSt.empty : CfgSt :=
  { full := none, variant := 0, partials := [], eff := [], pendFull := none, pendPart := [],
    pendAlt := none, check := none, fault := none, found := none, install := false }

/-! ## Clock regions -/

/-- One clock region (R350 to R363): stretched periods and their added eighths of a period in this bell,
eighths of a cycle run in this bell up to `since`, periods of lockout left, the request held for after the
lockout in eighths, the phase of the next period in 1/160 of one, the entry granted, the entry asked for
whose change is under way and when it may take place, entries held down by power and by heat, stopped. -/
structure RegionSt where
  periods : Nat
  eighths : Nat
  cyc8 : Nat
  since : Nat
  lockout : Nat
  heldReq : Nat
  phase : Int
  entry : Nat
  target : Option Nat
  readyAt : Nat
  powerDown : Nat
  heatDown : Nat
  stopped : Bool
  deriving DecidableEq, Repr

/-- A region with nothing asked of it. -/
def RegionSt.idle : RegionSt :=
  { periods := 0, eighths := 0, cyc8 := 0, since := 0, lockout := 0, heldReq := 0, phase := 0, entry := 0,
    target := none, readyAt := 0, powerDown := 0, heatDown := 0, stopped := false }

/-- A receive crossing (R359 to R363): the sending region, the calibrated latency, the stretch debt in
`20 / (8 * lcm(1..60))` ns, whether a sympathetic demand is active, the times of its slips in the last second,
whether it waits to re-centre, and its repair (R428): 0 none, 1 recalibration due, 2 recalibrated. -/
structure XingSt where
  src : Nat
  lat : Nat
  debt : Int
  symp : Bool
  slips : List Nat
  slipped : Bool
  repair : Nat
  deriving DecidableEq, Repr

/-- A crossing that does not exist. -/
def XingSt.none : XingSt :=
  { src := 0, lat := 0, debt := 0, symp := false, slips := [], slipped := false, repair := 0 }

/-- The village clock's keeper (R364 to R368) and REFCLK (R349): when the servo and the temperature term
last ran, since when the package error is within 2 ns, when a link last took part, whether the package waits
for its first TIMESTAMP, when REFCLK stopped, whether the package joins a running system (R368), the
sum of the servo's errors (R366), and the link whose time was loaded with that time (R368). -/
structure VcSt where
  servoAt : Nat
  tempAt : Nat
  okSince : Option Nat
  linkAt : Nat
  waits : Bool
  refLost : Option Nat
  joins : Bool
  sum : Int
  loaded : Option (Nat × Nat)
  deriving DecidableEq, Repr

/-- A keeper that has not begun. -/
def VcSt.idle : VcSt :=
  { servoAt := 0, tempAt := 0, okSince := Option.none, linkAt := 0, waits := false, refLost := Option.none, joins := false,
    sum := 0, loaded := Option.none }

/-! ## Optical control and power -/

/-- What a ring's lock loop holds beside its registers (R371 to R381): STATE of CAL_RING_ID where it is not
that of its lit site, the slot held while not locked, the driving segment (true: HB), identity failures, whether
a corrective relock has been made, when the last verified lock began, when the loop last updated, updates in a
row beyond 4.0 GHz, T_E in 0.25 °C, the feed-forward term with the ramp it is on (from, to, start), when its gain last changed, the integrator at each change
of class of at least 2 that is not judged yet, with that change and its time (R378), the loop's last error (R374), and the
WRONG_LOCK of a third acquisition that waits for its outcome (R381). -/
structure RingCal where
  st : Option Nat
  held : Option Nat
  hb : Bool
  fails : Nat
  relocked : Bool
  lockAt : Nat
  updAt : Nat
  bad : Nat
  te : Int
  u : Int
  rampFrom : Int
  rampTo : Int
  rampAt : Nat
  gainAt : Nat
  marks : List (Int × Int × Nat)
  err : Int
  said : Option (Nat × Nat)
  deriving DecidableEq, Repr

/-- A ring of which nothing is known. -/
def RingCal.idle : RingCal :=
  { st := none, held := none, hb := false, fails := 0, relocked := false, lockAt := 0, updAt := 0, bad := 0,
    te := 0, u := 0, rampFrom := 0, rampTo := 0, rampAt := 0, gainAt := 0, marks := [], err := 0, said := none }

/-- A comb's bias loop (R382): when it last judged, when it last raised, since when the minimum has stayed 3 dB
above TARGET. -/
structure CombCal where
  judged : Nat
  raised : Option Nat
  high : Option Nat
  deriving DecidableEq, Repr

/-- A comb of which nothing is known. -/
def CombCal.idle : CombCal := { judged := 0, raised := none, high := none }

/-- The power class that the base follows for a site (R124, R377): the class, since when, and the class
before. -/
structure ClassSt where
  cls : Nat
  since : Nat
  before : Nat
  deriving DecidableEq, Repr

/-- Class 0 from the start. -/
def ClassSt.idle : ClassSt := { cls := 0, since := 0, before := 0 }

/-! ## Security -/

/-- The device's signing leaves (R442, R443): top leaves used, leaves used of the current lower tree, the end of
the reserved block, whether a spare lower tree is held. -/
structure LmsSt where
  top : Nat
  lower : Nat
  resv : Nat
  spare : Bool
  deriving DecidableEq, Repr

/-- The operator by one way in (R460): the nonce of SESSION_OPEN, the key and the end of a proved session, the CTX,
nonce and bytes of the last report. -/
structure MgmtSt where
  nonce : Option (BitVec 256)
  proved : Option (List Byte × Nat)
  report : Option (Nat × Nat × List Byte)
  deriving DecidableEq, Repr

/-- No session. -/
def MgmtSt.idle : MgmtSt := { nonce := none, proved := none, report := none }

/-- As shipped: the first lower tree is signed by top leaf 0 and unused (log 19). -/
def LmsSt.fresh : LmsSt := { top := 1, lower := 0, resv := 0, spare := false }

/-- A host core's request for a report that is being signed (R447): where it goes, as a local address, and the
body. -/
structure AttestReq where
  addr : Nat
  body : List Byte
  deriving DecidableEq, Repr

/-! ## Power -/

/-- Supply and limiter (R394 to R409). `on`: the module has its supply. `samples`: input power of the last second
in 10⁻⁴ W, newest first, with when the last was taken; since when the 1 ms average is above 7,600 W; when each
condition of R400 last stepped; when the limiter last released; entries held down; whether safelight is
requested; when a wake was triggered; when an entry into safelight began, and whether a wake waits for its end
(R413); whether the module, though supplied, is in reset because RESET_N is low (R477). -/
structure PowerSt where
  on : Bool
  sampleAt : Nat
  samples : List Nat
  overSince : Option Nat
  fastAt : Option Nat
  slowAt : Option Nat
  longAt : Option Nat
  freeAt : Nat
  steps : Nat
  want : Bool
  wakeAt : Nat
  enterAt : Option Nat
  wakeNext : Bool
  inReset : Bool
  deriving DecidableEq, Repr

/-- No supply. -/
def PowerSt.off : PowerSt :=
  { on := false, sampleAt := 0, samples := [], overSince := none, fastAt := none, slowAt := none, longAt := none,
    freeAt := 0, steps := 0, want := false, wakeAt := 0, enterAt := none, wakeNext := false, inReset := false }

/-- A location's throttle (R404): entries held down, when it last stepped, when it last released. -/
structure HeatSt where
  down : Nat
  stepAt : Option Nat
  freeAt : Nat
  deriving DecidableEq, Repr

/-- Nothing held down. -/
def HeatSt.idle : HeatSt := { down := 0, stepAt := none, freeAt := 0 }

/-- A part that a trip stopped (R405): its location, whether its HBM3E stack tripped, since when it is at least
20 °C below trip. -/
structure TripSt where
  loc : Nat
  hbm : Bool
  cool : Option Nat
  deriving DecidableEq, Repr

/-- A fixed record (R412): the map and wear counters are held in State itself. -/
structure FixRec where
  seq : Nat
  reason : Nat
  time : Nat
  bell : Nat
  committed : Nat
  log : List EventRec
  deriving DecidableEq, Repr

/-! ## Firmware -/

/-- A firmware image (R445, R464): its stage and its security version. -/
structure FwImage where
  stage : List Byte
  version : Nat
  deriving DecidableEq, Repr

/-- A component (R464): its two banks, the bank that the next cold start tries first (true: the second), the one it runs from, and its OTP
anti-rollback counter. -/
structure FwComp where
  a : Option FwImage
  b : Option FwImage
  second : Bool
  runs : Bool
  counter : Nat
  deriving DecidableEq, Repr

/-- As shipped (R464; log 22): MC firmware, base firmware, microcode, host-core boot code and the guest revocation
list, each in its first bank at version 0. -/
def FwComp.shipped : List FwComp :=
  (List.range 5).map fun i => { a := some ⟨Config.factoryStage i, 0⟩, b := none, second := false, runs := false, counter := 0 }
/-! ## The state -/

/-- The whole state of one module. -/
structure State where
  /-- Village time in nanoseconds (R364). -/
  vt : Nat
  /-- Fraction of a nanosecond, in `2^-32` (R364). -/
  vtFrac : Nat
  /-- Temperature term of the rate word, in `2^-32` (R364). -/
  rateTemp : Int
  /-- Servo term of the rate word, in `2^-32` (R366). -/
  rateServo : Int
  /-- The model's own counter of free values (log 5). -/
  free : Nat
  /-- Commands that wait, first in, first out. -/
  pending : List Instr
  /-- What the block has sent and answered, newest first. -/
  out : List Output
  /-- Register values by the address of the low word; an unlisted register reads `resetAt`. -/
  regs : SMap (BitVec 64)
  /-- Read latches of R8 by requester: the register's address and the high word. -/
  rlatch : SMap (Nat × BitVec 32)
  /-- Write latches of R8 by requester. -/
  wlatch : SMap (Nat × BitVec 32)
  /-- HOST_RING_SEL of each requester (R305). -/
  ringSel : SMap (BitVec 32)
  /-- GRN_WEAR_SEL of each requester (R433). -/
  wearSel : SMap (BitVec 32)
  /-- Byte memory by `2^43 * site + offset` (R23, R161); an unlisted byte reads 0 (log 3). -/
  mem : SMap Byte
  /-- Structural entries of the persistent granary map, by TYPE, SITE and INDEX (R430, R483). -/
  grn : SMap Nat
  /-- Wear counters by `2^28 * kind + index` (R426). -/
  wear : SMap Nat
  /-- The event log, oldest first (R456). -/
  log : List EventRec
  /-- Number of records that have left the log at its old end. -/
  logBase : Nat
  /-- Records the sideband has read (R460), counted from the first ever. -/
  logRead : Nat
  /-- Records offered to the declared ring (R456), counted from the first ever. -/
  logRing : Nat
  /-- Matrix cores by `96 * stack + core`. -/
  cores : SMap CoreSt
  /-- Bell state by site. -/
  bells : SMap SiteBell
  /-- The vote node and root. -/
  node : NodeSt
  /-- Tithe arbiters by site. -/
  tithes : SMap TitheSt
  /-- Gateways by site. -/
  gws : SMap GwSt
  /-- The configuration store. -/
  cfg : CfgSt
  /-- Clock regions by number (R350). -/
  regions : SMap RegionSt
  /-- Records written to the trace buffer (R463). -/
  tracePos : Nat
  /-- Stacked caches by compute stack (R165). -/
  stackMem : SMap StackMem
  /-- HBM3E stacks by bridge site (R172). -/
  bridgeMem : SMap BridgeMem
  /-- Invalidations on their way, oldest first (R167). -/
  invPend : List InvPend
  /-- Acknowledgements that wait for invalidations (R167). -/
  invAcks : List InvAck
  /-- Bell after the last in which a bridge retired a page (R174). -/
  pageBell : SMap Nat
  /-- Number of the next waiting request or transfer. -/
  nextId : Nat
  /-- Requests that wait for the tithe arbiter (R156). -/
  jobs : List Job
  /-- Transfers of several packets. -/
  xfers : List Xfer
  /-- STEP + 1 recorded for each line with contributions, by `2^14 * site + line` (R266). -/
  redSteps : SMap Nat
  /-- Slices by `2 * (4096 * site + group) + bell parity` (R270). -/
  runs : SMap SliceRun
  /-- Contribution bytes accepted in this bell, by engine site (GW_RED_BYTES). -/
  redBytes : SMap Nat
  /-- Next SEQ of the sync frames of each sender (R198). -/
  seqs : SMap Nat
  /-- Bell of the contact-sheet buffer in progress (R458). -/
  sheetBell : Nat
  /-- Sites whose sheet of that bell is stored (R458). -/
  sheetGot : List Nat
  /-- Rings by number (R286). -/
  rings : SMap RingSt
  /-- Carriers out of service awaiting relock, with the time each left, by `32 * tx + rx` (R190). -/
  outs : SMap (List (Nat × Nat))
  /-- Brackets that run (R193, R386). -/
  brackets : List Bracket
  /-- External links by number (R232). -/
  links : SMap LinkSt
  /-- Engine sites whose LNK_CTRL.RESTORE waits (R254). -/
  restores : List Nat
  /-- Contexts that drawn host cores have taken over (R423). -/
  hostTake : SMap Nat
  /-- Frames that wait in the port's ingress buffer for class 0, with their request numbers and arrival times (R297). -/
  ingress : List (Nat × Nat × InFrame)
  /-- Frames that wait for class 1, with their request numbers (R297). -/
  egress : List (Nat × Egress)
  /-- Queue pairs in error (R298). -/
  qpErr : List Nat
  /-- Rate in Mb/s of a queue pair that a CNP slowed, and since when (R298). -/
  qpRate : SMap (Nat × Nat)
  /-- One past the time of the last CNP sent on a queue pair (R298). -/
  cnpAt : SMap Nat
  /-- Confidential state by context (R302). -/
  conf : SMap ConfSt
  /-- MACsec associations by `2^31 * direction + 256 * channel + AN` (R300). -/
  sas : SMap Assoc
  /-- The operator key that is installed (R444). -/
  opkey : Option (List Byte)
  /-- Access ledgers by context: count and head (R448). -/
  led : SMap (Nat × List Byte)
  /-- Receive crossings by `32 * region + p` (R359). -/
  xings : SMap XingSt
  /-- The village clock's keeper (R364 to R368). -/
  vc : VcSt
  /-- Set points of the VCMP rails in mV by compute stack (R353). -/
  vcmp : SMap Nat
  /-- Matrix cores `96 * stack + core` to be retired at the next hold (R422). -/
  retireQ : List Nat
  /-- Sites whose rings are lit and locked by default (R342, R407). -/
  lit : List Nat
  /-- Rings by `4096 * site + n` (R391). -/
  rcal : SMap RingCal
  /-- Combs by `8 * site + c` (R382). -/
  combCal : SMap CombCal
  /-- Brackets of a channel rejected in a row (R387). -/
  calRej : SMap Nat
  /-- Bell of the last bracket of a channel (R384). -/
  calLast : SMap Nat
  /-- Sensor brackets that run: location, index, when each began (R388). -/
  sensOut : List (Nat × Nat × Nat)
  /-- Power classes by site (R124). -/
  classes : SMap ClassSt
  /-- When each site was reset, newest first (R339). -/
  resets : SMap (List Nat)
  /-- When each field in reset was reset (R341). -/
  fieldAt : SMap Nat
  /-- MRAM copies that do not hold the latest change of the granary map (R430, R433). -/
  mapLag : Nat
  /-- Core and host-core roles that take effect at the next boundary, as `grn` keys (R420). -/
  rolePend : SMap Nat
  /-- The half, columns 0-17 or 18-35, that a half-width port or channel has lost, by `80 * stack + u` (R424). -/
  bondHalf : SMap Nat
  /-- LMS leaves (R442, R443), in MRAM. -/
  lms : LmsSt
  /-- The report that a host core asked for and that is being signed (R447). -/
  attest : Option AttestReq
  /-- Measurement registers M0 to M3 (R445); one that is not there is 32 bytes of 0. -/
  meas : List (List Byte)
  /-- Operator-key changes that have taken effect (R444), in MRAM. -/
  opkeySeq : Nat
  /-- The boundary-scan debug port has been used since the last cold start (R450, R461). -/
  debugUsed : Bool
  /-- Supply, input-power limiter and safelight (R394 to R409). -/
  power : PowerSt
  /-- Throttles by location: site, or 32 + n for field Fn (R404). -/
  heat : SMap HeatSt
  /-- One past the time of a pair's last sample, by `128 * location + pair` (R403). -/
  pairAt : SMap Nat
  /-- Samples in a row in which a pair disagreed (R402). -/
  pairOff : SMap Nat
  /-- Pairs with no valid reading, by `128 * location + pair` (R402). -/
  pairLost : List Nat
  /-- Locations that sample at 20 kHz because they are near their limit (R403). -/
  fast : List Nat
  /-- One past the b+0 of the last bell whose class rose by 4 or more, by compute stack (R403). -/
  jumpAt : SMap Nat
  /-- Parts that a trip stopped (R405). -/
  tripped : List TripSt
  /-- Times of a location's trips, newest first (R405). -/
  trips : SMap (List Nat)
  /-- Bridges that halve their HBM3E issue rate (R404). -/
  hbmSlow : List Nat
  /-- The fixed records in MRAM, newest first, at most two (R412). -/
  fixed : List FixRec
  /-- The firmware components with their banks and anti-rollback counters, in MRAM and OTP (R445, R464). -/
  firmware : List FwComp
  /-- Counters of a site as they stood at its last contact sheet (R457). -/
  sheetBase : SMap (List Nat)
  /-- Reports to the funnel by site (R457). -/
  reports : SMap Nat
  /-- Nanoseconds since step 1 of the cold start began, until READY sets (R348). -/
  startedFor : Nat
  /-- Bytes done and CRC register of the jobs of the check-value units (R466). -/
  ckv : SMap (Nat × Nat)
  /-- The operator's sessions by requester number (R460). -/
  mgmt : SMap MgmtSt
  /-- Ohmune commands from the host port that are admitted and not yet served: length of the answer's frame, SEQ, command (R459). -/
  inbox : List (Nat × Nat × Ohmune)
  /-- The I3C dynamic address (R459). -/
  dynAddr : Option (BitVec 7)
  /-- The MCTP endpoint ID (R459). -/
  eid : Nat
  /-- The PLDM terminus ID (R459). -/
  tid : Nat
  /-- What SAMPLE/PRELOAD last put into the boundary register (R461). -/
  bscan : List Bool
  /-- Stripes whose marker a receiver has not seen, oldest first, with their versions, by `32 * tx + rx` (R188). -/
  markers : SMap (List (Nat × BitVec 64))
  /-- Granary carriers drawn for failures of a pair direction, by `32 * tx + rx` (R191, R192). -/
  draws : SMap (List Nat)
  /-- Levels of I3C_SA1 and I3C_SA0, which pull-downs hold at 0 (R473, R476). -/
  saPins : BitVec 2
  /-- Gateways that drain (R340): the site, since when, and whether its live transactions have failed. -/
  drains : List (Nat × Nat × Bool)
  /-- While the host port trains, the STATE in which its link comes up (R296, R305). -/
  portNext : Option Nat
  /-- Frames of the host port that wait while the peer holds their priority paused, oldest first (R296). -/
  heldOut : List Egress
  /-- The transmit association of MACsec that was installed last (R300). -/
  txAn : Option Nat
  /-- Who started the job of each check-value unit (R449, R468). -/
  ckvBy : SMap Requester
  /-- Lines that the host cores of a die hold in their caches (R279, R282), by die * 2^64 + global address of the line. -/
  hostLines : SMap HostLine
  /-- The load reservation of a host core (R283), by host core: its address and its width in bytes. -/
  hostResv : SMap (Nat × Nat)
  /-- Interrupt identities pending at S level in the IMSIC of a host core (R279, R287), by host core * 256 + identity: 1. -/
  imsic : SMap Nat
  deriving DecidableEq, Repr

/-! ## Stops -/

/-- Reasons a step can stop with a fault. No command of the table raises one: every failure of the
module is a status, an event or a vote. -/
inductive Fault where
  /-- Raised by nobody; kept because the host's interface asks for a fault type (safe). -/
  | none
  deriving DecidableEq, Repr

/-- Reasons a step can be refused. -/
inductive Refusal where
  /-- Raised by the dispatcher for a command that has no meaning yet (safe). -/
  | notModelled (mnemonic : String)
  deriving DecidableEq, Repr

/-! ## Reset -/

/-- The granary map at shipment (R18, R483): on every die cores below the grade's share are enabled,
the others granary cores; host cores 0-6 enabled, host core 7 granary (log 4). -/
def shipmentMap : SMap Nat :=
  ((List.range 8).flatMap fun k => (List.range 96).map fun c =>
    (2 ^ 48 + 2 ^ 32 * k + c, if c < Config.coresPerDie then 0 else 1)) ++
  ((List.range 8).flatMap fun k => (List.range 8).map fun j =>
    (2 * 2 ^ 48 + 2 ^ 32 * k + j, if j < 7 then 0 else 1))

/-- The module before VIN is applied: registers at their reset values, no image, no bell. -/
def State.reset : State :=
  { vt := 0, vtFrac := 0, rateTemp := 0, rateServo := 0, free := 0, pending := [], out := [],
    regs := [], rlatch := [], wlatch := [], ringSel := [], wearSel := [], mem := [],
    grn := shipmentMap, wear := [], log := [], logBase := 0, logRead := 0, logRing := 0, cores := [],
    bells := [], node := .idle, tithes := [], gws := [], cfg := .empty
    regions := []
    tracePos := 0
    stackMem := []
    bridgeMem := []
    invPend := []
    invAcks := []
    pageBell := []
    nextId := 0
    jobs := []
    xfers := []
    redSteps := []
    runs := []
    redBytes := []
    seqs := []
    sheetBell := 0
    sheetGot := []
    rings := []
    outs := []
    brackets := []
    links := []
    restores := []
    hostTake := []
    ingress := []
    egress := []
    qpErr := []
    qpRate := []
    cnpAt := []
    conf := []
    sas := []
    opkey := none
    led := []
    xings := []
    vc := VcSt.idle
    vcmp := []
    retireQ := []
    lit := []
    rcal := []
    combCal := []
    calRej := []
    calLast := []
    sensOut := []
    classes := []
    resets := []
    fieldAt := []
    mapLag := 0
    rolePend := []
    bondHalf := []
    lms := LmsSt.fresh
    attest := none
    meas := []
    opkeySeq := 0
    debugUsed := false
    power := PowerSt.off
    heat := []
    pairAt := []
    pairOff := []
    pairLost := []
    fast := []
    jumpAt := []
    tripped := []
    trips := []
    hbmSlow := []
    fixed := []
    firmware := FwComp.shipped
    sheetBase := []
    reports := []
    startedFor := 0
    ckv := []
    mgmt := []
    inbox := []
    dynAddr := none
    eid := 0
    tid := 0
    bscan := []
    markers := []
    draws := []
    saPins := 0
    drains := []
    portNext := none
    heldOut := []
    txAn := none
    ckvBy := []
    hostLines := []
    hostResv := []
    imsic := []
  }

/-! ## Canonical form -/

/-- The canonical form of the byte memory: addresses strictly rising, no entry that an unlisted byte reads as (log 3). -/
def Memory.wf (m : SMap Byte) : Bool := SMap.wf (fun _ => 0) m

/-- A state whose memory is in canonical form. -/
def State.memOk (s : State) : Prop := Memory.wf s.mem = true

end Sys2Proof.Machine
end

