-- ==== Sys2Proof/Machine/Image.lean ====
section
/-!
DEFINITION. What the installed configuration says: fields of its records (R311, R313, R315) and the
quantities derived from them (R126, R130, R145).
-/

namespace Sys2Proof.Machine

open Sys2Proof

/-- The little-endian number in bytes `o` to `o + n - 1` of a record. -/
def Rec.num (r : Rec) (o n : Nat) : Nat := leNat ((r.bytes.drop o).take n)

/-- Byte `o` of a record. -/
def Rec.u8 (r : Rec) (o : Nat) : Nat := r.num o 1
/-- Bytes `o`, `o + 1` of a record. -/
def Rec.u16 (r : Rec) (o : Nat) : Nat := r.num o 2
/-- Four bytes of a record. -/
def Rec.u32 (r : Rec) (o : Nat) : Nat := r.num o 4
/-- Six bytes of a record. -/
def Rec.u48 (r : Rec) (o : Nat) : Nat := r.num o 6
/-- Eight bytes of a record. -/
def Rec.u64 (r : Rec) (o : Nat) : Nat := r.num o 8

/-- Segment TYPEs of R310. -/
def segIdent : Nat := 1
def segSitemap : Nat := 2
def segGranary : Nat := 3
def segFabric : Nat := 4
def segLinkmap : Nat := 5
def segClock : Nat := 6
def segBell : Nat := 7
def segTithe : Nat := 8
def segContexts : Nat := 9
def segMem : Nat := 0xA
def segRings : Nat := 0xB
def segPrograms : Nat := 0xC
def segReduce : Nat := 0xD
def segAlt : Nat := 0xE
def segCal : Nat := 0xF

/-- The records of a segment and kind. -/
def recsOf (rs : List Rec) (seg kind : Nat) : List Rec :=
  rs.filter fun r => decide (r.seg = seg) && decide (r.kind = kind)

/-- The first record of a segment and kind with a property. -/
def recFind (rs : List Rec) (seg kind : Nat) (p : Rec → Bool) : Option Rec :=
  (recsOf rs seg kind).find? p

/-- A field of the first record of a segment and kind with a property, or a default. -/
def recField (rs : List Rec) (seg kind : Nat) (p : Rec → Bool) (f : Rec → Nat) (d : Nat) : Nat :=
  match recFind rs seg kind p with
  | some r => f r
  | none => d

/-- Is every byte of `[lo, hi)` in some range? -/
def covered (rs : List (Nat × Nat)) : Nat → Nat → Nat → Bool
  | 0, lo, hi => decide (hi ≤ lo)
  | fuel + 1, lo, hi =>
    if hi ≤ lo then true else
    match rs.find? (fun r => decide (r.1 ≤ lo) && decide (lo < r.1 + r.2)) with
    | some r => covered rs fuel (r.1 + r.2) hi
    | none => false

/-- Is a range inside the union of others? -/
def inRanges (rs : List (Nat × Nat)) (r : Nat × Nat) : Bool := covered rs (rs.length + 1) r.1 (r.1 + r.2)

/-- Every record. -/
def anyRec : Rec → Bool := fun _ => true

/-- The numbers of two bytes each in a list of bytes. -/
def words2 : List Byte → List Nat
  | a :: b :: r => leNat [a, b] :: words2 r
  | _ => []
/-- Four bytes at a time as numbers. -/
def words4 : List Byte → List Nat
  | a :: b :: c :: d :: r => leNat [a, b, c, d] :: words4 r
  | _ => []

/-! ### LINKMAP -/

/-- This package's number (LOCAL.PACKAGE). -/
def localPkg (rs : List Rec) : Nat := recField rs segLinkmap 1 anyRec (·.u16 8) 0
/-- The domain of LOCAL. -/
def localDomain (rs : List Rec) : Nat := recField rs segLinkmap 1 anyRec (·.u16 10) 0
/-- The site of the vote node (LOCAL.TREE_PORT). -/
def treePort (rs : List Rec) : Nat := recField rs segLinkmap 1 anyRec (·.u8 12) 20
/-- The DOMAIN record of this package's domain. -/
def domainRec (rs : List Rec) : Option Rec :=
  recFind rs segLinkmap 8 fun r => decide (r.u16 8 = localDomain rs)
/-- Root package of the domain. -/
def rootPkg (rs : List Rec) : Nat :=
  match domainRec rs with
  | some r => r.u16 10
  | none => 0xFFFF
/-- Tree depth h (R130). -/
def treeDepth (rs : List Rec) : Nat :=
  match domainRec rs with
  | some r => r.u8 12
  | none => 1
/-- Longest route latency of the domain in ns. -/
def longestNs (rs : List Rec) : Nat :=
  match domainRec rs with
  | some r => r.u32 16
  | none => 0
/-- Is this package the root of its domain? -/
def isRoot (rs : List Rec) : Bool := decide (rootPkg rs = localPkg rs)
/-- Parent of a package in the vote tree (TREE). -/
def treeParent (rs : List Rec) (p : Nat) : Nat := recField rs segLinkmap 10 anyRec (·.u16 (8 + 2 * p)) 0xFFFF
/-- The child packages of this package in the vote tree. -/
def childPkgs (rs : List Rec) : List Nat :=
  match recFind rs segLinkmap 10 anyRec with
  | none => []
  | some r =>
    let me := localPkg rs
    (words2 (r.bytes.drop 8)).zipIdx.filterMap fun (parent, p) => if p ≠ me ∧ parent = me then some p else none
/-- The route-table entry of a package (R246). -/
def routeEntry (rs : List Rec) (p : Nat) : Nat := recField rs segLinkmap 5 anyRec (·.u32 (8 + 4 * p)) 0

/-! ### BELLPLAN -/

/-- The DOMAIN record of BELLPLAN. -/
def bellRec (rs : List Rec) : Option Rec := recFind rs segBell 1 anyRec
/-- A field of BELLPLAN's DOMAIN record. -/
def bellField (rs : List Rec) (f : Rec → Nat) (d : Nat) : Nat := recField rs segBell 1 anyRec f d
/-- Period in ns (R127). -/
def periodNs (rs : List Rec) : Nat := 250 * bellField rs (·.u16 10) 80
/-- Run-ahead depth D (R127). -/
def depthD (rs : List Rec) : Nat := bellField rs (·.u8 12) 2
/-- Guard interval in ns (R127). -/
def guardNs (rs : List Rec) : Nat := 10 * bellField rs (·.u8 13) 25
/-- Extension quantum q in ns (R127). -/
def extQ (rs : List Rec) : Nat := 250 * bellField rs (·.u8 14) 8
/-- EXT_MAX (R127). -/
def extMax (rs : List Rec) : Nat := bellField rs (·.u8 15) 8
/-- Stretch allowance in units of 0.1 % (R82). -/
def stretchAllow (rs : List Rec) : Nat := bellField rs (·.u16 17) 30
/-- Round up to a multiple of 250 ns. -/
def up250 (x : Nat) : Nat := (x + 249) / 250 * 250
/-- Cry time C in ns (R130). -/
def cryTime (rs : List Rec) : Nat := treeDepth rs * 100
/-- The derived LEAD in ns (R130). -/
def leadDerived (rs : List Rec) : Nat := up250 (2 * cryTime rs + 250)
/-- LEAD in ns: derived, or BELLPLAN's larger value (R130). -/
def leadNs (rs : List Rec) : Nat := max (leadDerived rs) (250 * bellField rs (·.u8 16) 0)
/-- DRAIN in ns (R130). -/
def drainNs (rs : List Rec) : Nat := up250 (longestNs rs + 2000 + guardNs rs)
/-- The context of bell `k` by TURNS (R313), 0 for a bell with no context. -/
def turnOf (rs : List Rec) (k : Nat) : Nat :=
  match recFind rs segBell 2 anyRec with
  | some r => if r.u16 8 = 0 then 0 else r.u8 (16 + k % r.u16 8)
  | none => 0

/-! ### CONTEXTS, TITHE, MEMPLAN -/

/-- The CONTEXT record of a context. -/
def contextRec (rs : List Rec) (ctx : Nat) : Option Rec :=
  recFind rs segContexts 1 fun r => decide (r.u8 8 = ctx)
/-- The context seed of R48. -/
def ctxSeed (rs : List Rec) (ctx : Nat) : BitVec 64 :=
  match contextRec rs ctx with
  | some r => BitVec.ofNat 64 (r.u64 16)
  | none => 0
/-- Is a context confidential (R302)? -/
def ctxConfidential (rs : List Rec) (ctx : Nat) : Bool :=
  match contextRec rs ctx with
  | some r => decide (r.u8 9 % 2 = 1)
  | none => false
/-- The context that binds a host core (R280); CTX0 where none does. -/
def hostCtxOf (rs : List Rec) (h : Nat) : Nat :=
  match recFind rs segContexts 1 (fun r => decide (r.u64 24 / 2 ^ h % 2 = 1)) with
  | some r => r.u8 8
  | none => 0
/-- The declared contexts, in order of declaration. -/
def ctxList (rs : List Rec) : List Nat := (recsOf rs segContexts 1).map (·.u8 8)
/-- Does a window of `ctx` at `site` allow the bytes `[a, a + n)`; `bit` 0 read, 1 write, 2
host-visible? A range may lie across adjoining windows: every byte is inside one (R212 step 7). -/
def inWindows (rs : List Rec) (ctx site : Nat) (bitNo : Nat) (a n : Nat) : Bool :=
  let ws := (recsOf rs segContexts 2).filter fun r =>
    decide (r.u8 8 = ctx) && decide (r.u8 9 = site) && decide (r.u8 10 / 2 ^ bitNo % 2 = 1)
  inRanges (ws.map fun r => (r.u64 16, r.u64 24)) (a, n)
/-- Tithe budget of a site and class (R155, R313). -/
def titheBudget (rs : List Rec) (site cls : Nat) : Nat :=
  recField rs segTithe 1 (fun r => decide (r.u8 8 = site) && decide (r.u8 9 = cls)) (·.u32 12) 0
/-- Scratch size of a compute stack in bytes (R163). -/
def scratchSize (rs : List Rec) (site : Nat) : Nat :=
  2 ^ 26 * recField rs segMem 1 (fun r => decide (r.u8 8 = site)) (·.u8 9) 16
/-- Program area of a compute stack: base and size (R88). -/
def progArea (rs : List Rec) (site : Nat) : Nat × Nat :=
  match recFind rs segMem 1 (fun r => decide (r.u8 8 = site)) with
  | some r => (r.u64 16, r.u64 24)
  | none => (0, 0)
/-- Fix area of a bridge: base and size (R176). -/
def fixArea (rs : List Rec) (site : Nat) : Nat × Nat :=
  match recFind rs segMem 2 (fun r => decide (r.u8 8 = site)) with
  | some r => (r.u64 16, r.u64 24)
  | none => (0, 0)

/-! ### PROGRAMS -/

/-- Bells in the context's cycle L (R86). -/
def cycleLen (rs : List Rec) (ctx : Nat) : Nat :=
  max 1 (recField rs segPrograms 1 (fun r => decide (r.u8 8 = ctx)) (·.u16 10) 1)
/-- The PROGRAM record of a context, site, core and phase (R86). -/
def programRec (rs : List Rec) (ctx site core phase : Nat) : Option Rec :=
  recFind rs segPrograms 2 fun r => decide (r.u8 8 = ctx) && decide (r.u8 9 = site)
    && decide (r.u8 10 = core) && decide (r.u16 12 = phase)
/-- Site of a PROGRAM record. -/
def progSite (r : Rec) : Nat := r.u8 9
/-- Core of a PROGRAM record. -/
def progCore (r : Rec) : Nat := r.u8 10
/-- Number of descriptors of a PROGRAM record. -/
def progLen (r : Rec) : Nat := r.u32 16
/-- Descriptor `i` of a PROGRAM record. -/
def progDesc (r : Rec) (i : Nat) : BitVec 512 := BitVec.ofNat 512 (r.num (32 + 64 * i) 64)
/-- Arrival windows of a PROGRAM record: base, length, token reference (R110). -/
def progWindows (r : Rec) : List (Nat × Nat × Nat) :=
  (List.range (r.u8 14)).map fun i =>
    let o := 32 + 64 * progLen r + 16 * i
    (r.u64 o, r.u32 (o + 8), r.u16 (o + 12))
/-- Dynamic slots of a PROGRAM record: descriptor index, allowed operations (R115). -/
def progSlots (r : Rec) : List (Nat × Nat) :=
  (List.range (r.u8 11)).map fun i =>
    let o := 32 + 64 * progLen r + 16 * r.u8 14 + 8 * i
    (r.u16 o, r.u16 (o + 2))
/-- A declared address set of a program (R141): kind, slot, global address, length. -/
structure ProgSet where
  kind : Nat
  slot : Nat
  base : Nat
  len : Nat
  deriving DecidableEq, Repr
/-- The declared sets of a PROGRAM record. -/
def progSets (r : Rec) : List ProgSet :=
  (List.range (r.u32 24)).map fun i =>
    let o := 32 + 64 * progLen r + 16 * r.u8 14 + 8 * r.u8 11 + 24 * i
    ⟨r.u8 o, r.u8 (o + 1), r.u64 (o + 8), r.u64 (o + 16)⟩
/-- Power class of a context, site and phase (R124). -/
def powerClass (rs : List Rec) (ctx site phase : Nat) : Nat :=
  recField rs segPrograms 3 (fun r => decide (r.u8 8 = ctx) && decide (r.u8 9 = site))
    (·.u8 (16 + phase)) 0
/-- The KERNEL record of an entry (R97). -/
def kernelRec (rs : List Rec) (ctx site core entry : Nat) : Option Rec :=
  recFind rs segPrograms 4 fun r => decide (r.u8 8 = ctx) && decide (r.u8 9 = site)
    && decide (r.u8 10 = core) && decide (r.u16 12 = entry)

/-! ### FABRIC_PLAN, REDUCE, RINGS -/

/-- The MCAST record of a group (R201). -/
def mcastRec (rs : List Rec) (group : Nat) : Option Rec :=
  recFind rs segFabric 2 fun r => decide (r.u16 8 = group)
/-- Destinations of an MCAST record: site, stops, base. -/
def mcastDests (r : Rec) : List (Nat × Nat × Nat) :=
  (List.range (r.u8 10)).map fun i =>
    let o := 24 + 16 * i
    (r.u8 o, r.u16 (o + 2), r.u64 (o + 8))
/-- Branch bundles of an MCAST record (R272). -/
def mcastBranches (r : Rec) : List Nat :=
  ((List.range 8).map fun i => r.u8 (12 + i)).filter fun b => decide (b ≠ 0xFF)
/-- The GROUP record of a reduction group (R262). -/
def groupRec (rs : List Rec) (group : Nat) : Option Rec :=
  recFind rs segReduce 1 fun r => decide (r.u16 8 = group)
/-- Are a group's inputs 16-bit (R264)? -/
def groupRed16 (rs : List Rec) (group : Nat) : Bool :=
  (recsOf rs segPrograms 5).any fun r => decide (r.u16 8 = group)
/-- The RING record of a ring (R286). -/
def ringRec (rs : List Rec) (ring : Nat) : Option Rec :=
  recFind rs segRings 1 fun r => decide (r.u16 8 = ring)

end Sys2Proof.Machine
end

