-- ==== Sys2Proof/Machine/Numbers.lean ====
section
/-!
DEFINITION. Number formats and arithmetic (02): decoding every format of R29, the one rounding of R37
to R39, the choice of scales (R40, R41), the exact group sum and accumulator update (R43, R44), the
stochastic-rounding generator (R47), the 320-bit exact reduction (R50 to R53).
-/

namespace Sys2Proof

/-- A decoded value: a NaN, an infinity, or the exact value `(-1)^neg * m * 2^e`, where `m = 0` is a
zero with its sign. -/
inductive Num where
  | nan
  | inf (neg : Bool)
  | fin (neg : Bool) (m : Nat) (e : Int)
  deriving DecidableEq, Repr

/-- A binary element or scalar format: fraction bits, exponent bits, bias, the code of the largest
finite magnitude, whether exponent-all-ones means infinity and NaN (IEEE and E5M2), whether the
all-ones code alone is NaN (E4M3). -/
structure BinFmt where
  mw : Nat
  ew : Nat
  bias : Nat
  maxCode : Nat
  ieee : Bool
  topNan : Bool
  deriving DecidableEq, Repr

/-- FP32 (R30). -/
def fmtFP32 : BinFmt := ⟨23, 8, 127, 0x7F7FFFFF, true, false⟩
/-- BF16 (R30). -/
def fmtBF16 : BinFmt := ⟨7, 8, 127, 0x7F7F, true, false⟩
/-- FP16 (R30). -/
def fmtFP16 : BinFmt := ⟨10, 5, 15, 0x7BFF, true, false⟩
/-- MXFP8 E4M3 element (R33). -/
def fmtE4M3 : BinFmt := ⟨3, 4, 7, 0x7E, false, true⟩
/-- MXFP8 E5M2 element (R33). -/
def fmtE5M2 : BinFmt := ⟨2, 5, 15, 0x7B, true, false⟩
/-- MXFP6 E3M2 element (R33). -/
def fmtE3M2 : BinFmt := ⟨2, 3, 3, 0x1F, false, false⟩
/-- MXFP6 E2M3 element (R33). -/
def fmtE2M3 : BinFmt := ⟨3, 2, 1, 0x1F, false, false⟩
/-- MXFP4 E2M1 element, also of ZS4 (R33, R36). -/
def fmtE2M1 : BinFmt := ⟨1, 2, 1, 0x7, false, false⟩

/-- Decode a code of a binary format, exactly and with subnormals (R30, R31, R33). -/
def BinFmt.decode (f : BinFmt) (code : Nat) : Num :=
  let neg := decide (code / 2 ^ (f.mw + f.ew) % 2 = 1)
  let ex := code / 2 ^ f.mw % 2 ^ f.ew
  let fr := code % 2 ^ f.mw
  if f.ieee ∧ ex = 2 ^ f.ew - 1 then (if fr = 0 then .inf neg else .nan)
  else if f.topNan ∧ ex = 2 ^ f.ew - 1 ∧ fr = 2 ^ f.mw - 1 then .nan
  else if ex = 0 then .fin neg fr (1 - (f.bias : Int) - f.mw)
  else .fin neg (2 ^ f.mw + fr) ((ex : Int) - f.bias - f.mw)

/-- An MXINT8 element: `k * 2^-6` (R33). -/
def decodeInt8 (code : Nat) : Num :=
  let c := code % 256
  if c < 128 then .fin false c (-6) else .fin true (256 - c) (-6)

/-- Rounding modes of R38. -/
inductive RMode where
  | rne | rtz | sr
  deriving DecidableEq, Repr

/-- The mode of a 2-bit code; the reserved code 0b11 is refused where it is carried. -/
def rmodeOf (c : Nat) : RMode := if c = 1 then .rtz else if c = 2 then .sr else .rne

/-- `m * 2^e` cut to a multiple of `2^q`: the integer part, the rest and the divisor of the rest. -/
def cutTo (m : Nat) (e q : Int) : Nat × Nat × Nat :=
  if q ≤ e then (m * 2 ^ (e - q).toNat, 0, 1)
  else let d := 2 ^ (q - e).toNat
       (m / d, m % d, d)

/-- Round a magnitude to a multiple of `2^q` (R38, R46); `r` is the SR word. -/
def roundMag (mode : RMode) (r : BitVec 32) (m : Nat) (e q : Int) : Nat :=
  let (n, rest, d) := cutTo m e q
  if rest = 0 then n else
  match mode with
  | .rtz => n
  | .rne => if 2 * rest < d then n else if d < 2 * rest then n + 1 else n + n % 2
  | .sr => if r.toNat < 2 ^ 32 * rest / d then n + 1 else n

/-- `⌊log₂ (m * 2^e)⌋` for `m > 0`. -/
def log2Of (m : Nat) (e : Int) : Int := (Nat.log2 m : Int) + e

/-- `m * 2^e ≤ m' * 2^e'`. -/
def magLe (m : Nat) (e : Int) (m' : Nat) (e' : Int) : Bool :=
  if e ≤ e' then decide (m ≤ m' * 2 ^ (e' - e).toNat) else decide (m * 2 ^ (e - e').toNat ≤ m')

/-- The quantum exponent of a magnitude in a format. -/
def BinFmt.quantum (f : BinFmt) (m : Nat) (e : Int) : Int :=
  max (log2Of m e - f.mw) (1 - (f.bias : Int) - f.mw)

/-- The code (without sign) of a finite magnitude rounded to a format with no bound on the exponent. -/
def BinFmt.roundCode (f : BinFmt) (mode : RMode) (r : BitVec 32) (m : Nat) (e : Int) : Nat :=
  if m = 0 then 0 else
  let q := f.quantum m e
  ((q + f.bias + f.mw).toNat * 2 ^ f.mw + roundMag mode r m e q) - 2 ^ f.mw

/-- Is the finite magnitude above the format's largest? -/
def BinFmt.above (f : BinFmt) (m : Nat) (e : Int) : Bool :=
  match f.decode f.maxCode with
  | .fin _ lm le => !(magLe m e lm le)
  | _ => false

/-- Attach a sign to a code. -/
def BinFmt.signed (f : BinFmt) (neg : Bool) (code : Nat) : Nat :=
  if neg then code + 2 ^ (f.mw + f.ew) else code

/-- Convert to FP32, BF16 or FP16: one rounding, R39 for specials and overflow, canonical NaN (R30). -/
def BinFmt.encodeIeee (f : BinFmt) (mode : RMode) (r : BitVec 32) : Num → Nat
  | .nan => (2 ^ f.ew - 1) * 2 ^ f.mw + 2 ^ (f.mw - 1)
  | .inf neg => f.signed neg ((2 ^ f.ew - 1) * 2 ^ f.mw)
  | .fin neg m e =>
    let infCode := (2 ^ f.ew - 1) * 2 ^ f.mw
    if f.above m e then
      match mode with
      | .rtz => f.signed neg f.maxCode
      | .sr => f.signed neg infCode
      | .rne => f.signed neg (if f.roundCode .rne r m e ≤ f.maxCode then f.maxCode else infCode)
    else f.signed neg (f.roundCode mode r m e)

/-- Element kinds of the blocked formats. -/
inductive ElemKind where
  | bin (f : BinFmt)
  | int8
  deriving DecidableEq, Repr

/-- Convert to an element of a blocked format, saturating (R39). A NaN or an infinity that needs the
block scale 0xFF is found by `needsNanBlock` before. -/
def ElemKind.encode (k : ElemKind) (mode : RMode) (r : BitVec 32) (v : Num) : Nat :=
  match k, v with
  | .bin f, .nan => if f = fmtE4M3 then 0x7F else if f = fmtE5M2 then 0x7E else 0
  | .bin f, .inf neg =>
    if f = fmtE4M3 then 0x7F else if f = fmtE5M2 then f.signed neg 0x7C else 0
  | .bin f, .fin neg m e =>
    if f.above m e then f.signed neg f.maxCode else f.signed neg (f.roundCode mode r m e)
  | .int8, .fin neg m e =>
    if m = 0 then 0
    else if neg then
      (if magLe m e 128 (-6) then (256 - roundMag mode r m e (-6)) % 256 else 128)
    else (if magLe m e 127 (-6) then roundMag mode r m e (-6) else 127)
  | .int8, _ => 0

/-- Does this value force the block scale to 0xFF (R39)? -/
def ElemKind.needsNanBlock (k : ElemKind) (v : Num) : Bool :=
  match v with
  | .fin _ _ _ => false
  | _ => match k with
    | .bin f => !(decide (f = fmtE4M3) || decide (f = fmtE5M2))
    | .int8 => true

/-- Element kind, element width and emax of a blocked format code 0x3-0x9 (R29, R33, R40). -/
def blockFmt (code : Nat) : ElemKind × Nat × Int :=
  match code with
  | 3 => (.bin fmtE4M3, 8, 8)
  | 4 => (.bin fmtE5M2, 8, 15)
  | 5 => (.bin fmtE3M2, 6, 4)
  | 6 => (.bin fmtE2M3, 6, 2)
  | 7 => (.bin fmtE2M1, 4, 2)
  | 8 => (.int8, 8, 0)
  | _ => (.bin fmtE2M1, 4, 2)

/-- Decode an element of a block. -/
def ElemKind.decode : ElemKind → Nat → Num
  | .bin f, c => f.decode c
  | .int8, c => decodeInt8 c

/-- Multiply by a power of two. -/
def Num.scale (v : Num) (k : Int) : Num :=
  match v with
  | .fin n m e => .fin n m (e + k)
  | w => w

/-- The larger of two finite magnitudes, given as `(m, e)` with `m > 0`, or none. -/
def maxMag (acc : Option (Nat × Int)) (v : Num) : Option (Nat × Int) :=
  match v, acc with
  | .fin _ m e, none => if m = 0 then none else some (m, e)
  | .fin _ m e, some (a, b) => if m ≠ 0 ∧ !(magLe m e a b) then some (m, e) else some (a, b)
  | _, acc => acc

/-- Largest nonzero finite magnitude of a list. -/
def amaxOf (vs : List Num) : Option (Nat × Int) := vs.foldl maxMag none

/-- Clamp an integer. -/
def clampInt (lo hi x : Int) : Int := if x < lo then lo else if hi < x then hi else x

/-- The shared exponent of a block (R40). -/
def blockExp (emax : Int) (vs : List Num) : Int :=
  match amaxOf vs with
  | none => -127
  | some (m, e) => clampInt (-127) 127 (log2Of m e - emax)

/-- The sub-scale of a ZS4 sub-block (R41). -/
def zs4Sub (e : Int) (vs : List Num) : Nat :=
  match amaxOf vs with
  | none => 0
  | some (m, x) => (clampInt 0 3 (2 + e - log2Of m x)).toNat

/-- A converted block: scale byte, sub-scales (ZS4 only), element codes. -/
structure Block where
  scale : Nat
  subs : List Nat
  codes : List Nat
  deriving DecidableEq, Repr

/-- Sub-block `j` (eight elements) of a block's values. -/
def subBlock (vs : List Num) (j : Nat) : List Num := (vs.drop (8 * j)).take 8

/-- Convert 32 values to a block of an MX format or ZS4 (R39, R40, R41); `r i` is the SR word of
element `i`. -/
def convBlock (fmt : Nat) (mode : RMode) (r : Nat → BitVec 32) (vs : List Num) : Block :=
  let (k, _, emax) := blockFmt fmt
  let zs4 := decide (fmt = 9)
  if vs.any k.needsNanBlock then
    ⟨255, if zs4 then [0, 0, 0, 0] else [], vs.map fun _ => 0⟩
  else
    let e := blockExp emax vs
    let subs := if zs4 then (List.range 4).map fun j => zs4Sub e (subBlock vs j) else []
    let codes := vs.zipIdx.map fun (v, i) =>
      let s : Int := (subs.getD (i / 8) 0 : Nat)
      k.encode mode (r i) (v.scale (s - e))
    ⟨(e + 127).toNat, subs, codes⟩

/-- Pack codes of `w` bits each, little-endian, into a number (R35). -/
def packCodes (w : Nat) : List Nat → Nat
  | [] => 0
  | c :: cs => c % 2 ^ w + 2 ^ w * packCodes w cs

/-- Element bytes of an MX block, or the 18 bytes of a ZS4 block (R35, R36). -/
def Block.bytes (b : Block) (fmt : Nat) : List Byte :=
  let (_, w, _) := blockFmt fmt
  if fmt = 9 then leBytes 18 (b.scale + 2 ^ 8 * packCodes 2 b.subs + 2 ^ 16 * packCodes 4 b.codes)
  else leBytes (4 * w) (packCodes w b.codes)

/-- The 32 element values of an MX block without its block scale; `x` are its element bytes (R35). -/
def mxElems (fmt : Nat) (bytes : List Byte) : List Num :=
  let (k, w, _) := blockFmt fmt
  let n := leNat bytes
  (List.range 32).map fun i => k.decode (n / 2 ^ (w * i) % 2 ^ w)

/-- The 32 element values of an 18-byte ZS4 block, sub-scales applied, and its scale byte (R36). -/
def zs4Elems (bytes : List Byte) : Nat × List Num :=
  let n := leNat bytes
  (n % 256, (List.range 32).map fun i =>
    (fmtE2M1.decode (n / 2 ^ (16 + 4 * i) % 16)).scale (-((n / 2 ^ (8 + 2 * (i / 8)) % 4 : Nat) : Int)))

/-- One group of 32 operand elements: values and the E8M0 scale, 127 for 16-bit formats. -/
structure Group where
  vals : List Num
  scale : Nat
  deriving DecidableEq, Repr

/-- The exact product of two finite values, as an integer weighing `2^-600`, 0 for specials (R43). -/
def prodFix (a b : Num) : Int :=
  match a, b with
  | .fin na ma ea, .fin nb mb eb =>
    let mag : Int := ((ma * mb * 2 ^ (ea + eb + 600).toNat : Nat) : Int)
    if na = nb then mag else -mag
  | _, _ => 0

/-- The special outcome of one product under IEEE 754 rules: NaN, an infinity, or none (R44 step 1). -/
def prodSpecial (a b : Num) : Option Num :=
  match a, b with
  | .nan, _ => some .nan
  | _, .nan => some .nan
  | .inf na, .inf nb => some (.inf (na != nb))
  | .inf na, .fin nb m _ => some (if m = 0 then .nan else .inf (na != nb))
  | .fin na m _, .inf nb => some (if m = 0 then .nan else .inf (na != nb))
  | .fin _ _ _, .fin _ _ _ => none

/-- Join of the special outcomes of a group's products. -/
def joinSpecial (acc : Option Num) (v : Option Num) : Option Num :=
  match acc, v with
  | none, v => v
  | acc, none => acc
  | some (.inf a), some (.inf b) => if a = b then some (.inf a) else some .nan
  | _, _ => some .nan

/-- An integer weighing `2^e` as a value. -/
def numOfInt (x : Int) (e : Int) : Num := .fin (decide (x < 0)) x.natAbs e

/-- The FP32 value V of a group, `none` where the group contributes nothing (R44 steps 1 to 4). -/
def groupValue (a b : Group) : Option (BitVec 32) :=
  let ps := a.vals.zip b.vals
  let sp := ps.foldl (fun acc p => joinSpecial acc (prodSpecial p.1 p.2)) none
  if a.scale = 255 ∨ b.scale = 255 then some (BitVec.ofNat 32 (fmtFP32.encodeIeee .rne 0 .nan))
  else match sp with
    | some v => some (BitVec.ofNat 32 (fmtFP32.encodeIeee .rne 0 v))
    | none =>
      let s := ps.foldl (fun acc p => acc + prodFix p.1 p.2) 0
      if s = 0 then none
      else some (BitVec.ofNat 32 (fmtFP32.encodeIeee .rne 0
        (numOfInt s (-600 + (a.scale : Int) - 127 + (b.scale : Int) - 127))))

/-- Exact sum of two finite values; an exact zero is +0 unless both are −0 (IEEE 754, RNE). -/
def addFin (na : Bool) (ma : Nat) (ea : Int) (nb : Bool) (mb : Nat) (eb : Int) : Num :=
  let e := min ea eb
  let x : Int := ((ma * 2 ^ (ea - e).toNat : Nat) : Int)
  let y : Int := ((mb * 2 ^ (eb - e).toNat : Nat) : Int)
  let s := (if na then -x else x) + (if nb then -y else y)
  if s = 0 then .fin (na && nb) 0 e else numOfInt s e

/-- Exact IEEE sum of two values. -/
def Num.add (a b : Num) : Num :=
  match a, b with
  | .nan, _ => .nan
  | _, .nan => .nan
  | .inf x, .inf y => if x = y then .inf x else .nan
  | .inf x, .fin _ _ _ => .inf x
  | .fin _ _ _, .inf y => .inf y
  | .fin na ma ea, .fin nb mb eb => addFin na ma ea nb mb eb

/-- FP32 addition rounded with RNE (R44 step 5). -/
def fp32Add (a b : BitVec 32) : BitVec 32 :=
  BitVec.ofNat 32 (fmtFP32.encodeIeee .rne 0 ((fmtFP32.decode a.toNat).add (fmtFP32.decode b.toNat)))

/-- One group entering an accumulator (R44, R45). -/
def accumGroup (acc : BitVec 32) (a b : Group) : BitVec 32 :=
  match groupValue a b with
  | none => acc
  | some v => fp32Add acc v

/-- Rotate left (R47). -/
def rotl32 (x : BitVec 32) (n : Nat) : BitVec 32 := x.rotateLeft n

/-- The quarter round of R47. -/
def qround (a b c d : BitVec 32) : BitVec 32 × BitVec 32 × BitVec 32 × BitVec 32 :=
  let a := a + b
  let d := rotl32 (d ^^^ a) 16
  let c := c + d
  let b := rotl32 (b ^^^ c) 12
  let a := a + b
  let d := rotl32 (d ^^^ a) 8
  let c := c + d
  let b := rotl32 (b ^^^ c) 7
  (a, b, c, d)

/-- The stochastic-rounding word (R47, R48): seed 64 bits, stream, index 48 bits, step. -/
def srWord (seed : BitVec 64) (stream : BitVec 32) (index : Nat) (step : BitVec 32) : BitVec 32 :=
  let kLo := seed.extractLsb' 0 32
  let kHi := seed.extractLsb' 32 32
  let a := BitVec.ofNat 32 index
  let b := 0x7E110000#32 ||| BitVec.ofNat 32 (index / 2 ^ 32 % 2 ^ 16)
  let (a, b, c, d) := qround (a + kLo) (b ^^^ kHi) stream step
  let (a, _, c, _) := qround (a + kLo) (b ^^^ kHi) c d
  a ^^^ c

/-- Cycles the array spends on one group of a format (R71). -/
def groupCycles (fmt : Nat) : Nat :=
  if fmt = 7 ∨ fmt = 9 then 16 else if fmt = 1 ∨ fmt = 2 then 64 else 32

/-- The IEEE format of codes 0x0-0x2. -/
def ieeeFmt (code : Nat) : BinFmt := if code = 0 then fmtFP32 else if code = 1 then fmtBF16 else fmtFP16

/-- Bytes of one element of codes 0x0-0x2, 0xA, 0xB. -/
def scalarBytes (code : Nat) : Nat :=
  if code = 0 then 4 else if code = 0xA then 4 else if code = 0xB then 8 else 2

/-- Bytes that 32 elements of a format occupy in the element array (R35, R36). -/
def groupBytes (fmt : Nat) : Nat :=
  match fmt with
  | 0 => 128 | 1 => 64 | 2 => 64 | 5 => 24 | 6 => 24 | 7 => 16 | 9 => 18 | _ => 32

/-! ### The 320-bit accumulator (R50 to R53) -/

/-- An accumulator of a reduction engine (R50). -/
structure Accum where
  count : Nat
  nan : Bool
  negInf : Bool
  posInf : Bool
  have_ : Bool
  sum : Nat
  deriving DecidableEq, Repr

/-- Bit 293 and up of a two's-complement SUM. -/
def sumMod : Nat := 2 ^ 294

/-- Read the 40 bytes of an accumulator. -/
def Accum.ofBytes (bs : List Byte) : Accum :=
  let n := leNat bs
  ⟨n / 2 ^ 303 % 2 ^ 17, n / 2 ^ 302 % 2 = 1, n / 2 ^ 301 % 2 = 1, n / 2 ^ 300 % 2 = 1,
   n / 2 ^ 299 % 2 = 1, n % 2 ^ 294⟩

/-- The 40 bytes of an accumulator (R50). -/
def Accum.bytes (a : Accum) : List Byte :=
  leBytes 40 (a.sum % 2 ^ 294 + bit a.have_ * 2 ^ 299 + bit a.posInf * 2 ^ 300
    + bit a.negInf * 2 ^ 301 + bit a.nan * 2 ^ 302 + a.count % 2 ^ 17 * 2 ^ 303)

/-- Reduction operations (R51). -/
inductive RedOp where
  | add | max | min
  deriving DecidableEq, Repr

/-- A total order key of FP32 codes that puts −0 below +0 (R51). -/
def fp32Key (c : Nat) : Int := if c < 2 ^ 31 then (c : Int) else -((c : Int) - 2 ^ 31) - 1

/-- Apply one contribution, given as a decoded value of FP32, BF16 or FP16 (R51). -/
def Accum.apply (a : Accum) (op : RedOp) (v : Num) : Accum :=
  let a := { a with count := a.count + 1 }
  match op, v with
  | _, .nan => { a with nan := true }
  | .add, .inf neg => if neg then { a with negInf := true } else { a with posInf := true }
  | .add, .fin neg m e =>
    let x := m * 2 ^ (e + 149).toNat
    { a with sum := (if neg then a.sum + (sumMod - x % sumMod) else a.sum + x) % sumMod }
  | op, v =>
    let c := fmtFP32.encodeIeee .rne 0 v
    let old := a.sum % 2 ^ 32
    let take := !a.have_ || (match op with
      | .max => decide (fp32Key old < fp32Key c)
      | _ => decide (fp32Key c < fp32Key old))
    { a with have_ := true, sum := if take then c else old }

/-- The value an accumulator outputs, exact before the one rounding (R53). -/
def Accum.value (a : Accum) (op : RedOp) : Num :=
  match op with
  | .add =>
    if a.nan || (a.negInf && a.posInf) then .nan
    else if a.negInf then .inf true
    else if a.posInf then .inf false
    else if a.sum = 0 then .fin false 0 0
    else if a.sum < 2 ^ 293 then .fin false a.sum (-149)
    else .fin true (sumMod - a.sum) (-149)
  | _ => if a.nan then .nan else fmtFP32.decode (a.sum % 2 ^ 32)

end Sys2Proof
end

