-- ==== Sys2Proof/Machine/Time.lean ====
section
/-!
DEFINITION. Village time: one tick of the 1 GHz oscillator adds the rate word to it (R364; log 1).
-/

namespace Sys2Proof.Machine

open Sys2Proof

/-- The 64-bit rate word in `2^-32` ns per tick: 1 ns, the temperature term and the servo term (R364). -/
def State.rateWord (s : State) : Nat := ((2 : Int) ^ 32 + s.rateTemp + s.rateServo).toNat

/-- One tick of the oscillator (R364). -/
def State.tick (s : State) : State :=
  let x := s.vtFrac + s.rateWord
  { s with vt := (s.vt + x / 2 ^ 32) % 2 ^ 64, vtFrac := x % 2 ^ 32 }

end Sys2Proof.Machine
end

