-- ==== Sys2Proof/Machine/Ops.lean ====
section
/-!
DEFINITION. The named operations over the state that every meaning is written with: registers and
counters, memory, the persistent granary map, sites and cores, the fault funnel, bell time, tokens,
tags, and sending a packet on its first hop.
-/

namespace Sys2Proof

/-- Key of a source of untagged packets (R214). -/
def Packet.source (p : Packet) : Nat := p.srcPkg.toNat * 2 ^ 12 + p.srcSite.val * 128 + p.issuer

/-- Key of step 9 of R212. -/
def Packet.key (p : Packet) : Nat := p.source * 2 ^ 16 + p.tag.toNat * 16 + p.gen.toNat

end Sys2Proof

namespace Sys2Proof.Machine

open Sys2Proof

/-- The answer of every meaning. -/
abbrev Out := Host.Outcome State Fault Refusal

/-! ### Registers -/

/-- A register's value, by the address of its low word. -/
def State.reg (s : State) (a : Nat) : BitVec 64 := SMap.get (resetAt a) s.regs a

/-- Set a register's value. -/
def State.setReg (s : State) (a : Nat) (v : BitVec 64) : State :=
  { s with regs := SMap.set (resetAt a) s.regs a v }

/-- A field of a register. -/
def State.getF (s : State) (a : Nat) (f : Fld) : Nat := f.get (s.reg a)

/-- Set a field of a register; the number is taken modulo the field's width. -/
def State.setF (s : State) (a : Nat) (f : Fld) (x : Nat) : State := s.setReg a (f.put (s.reg a) x)

/-- Add to a counter that holds at its field's largest value. -/
def State.bump (s : State) (a : Nat) (f : Fld) (n : Nat) : State :=
  s.setF a f (min f.max (s.getF a f + n))

/-- A number as the two's-complement value of a 32-bit field. -/
def twos32 (x : Int) : Nat := (x % 2 ^ 32).toNat

/-- A 16-bit two's-complement field as a number. -/
def sint16 (n : Nat) : Int := if n < 2 ^ 15 then (n : Int) else (n : Int) - 2 ^ 16

/-- A 32-bit two's-complement field as a number. -/
def sint32 (n : Nat) : Int := if n < 2 ^ 31 then (n : Int) else (n : Int) - 2 ^ 32

/-- A number as a 16-bit two's-complement field. -/
def twos16 (x : Int) : Nat := (x % 2 ^ 16).toNat

/-! ### Answers and sending out -/

/-- Add to what the block has sent. -/
def State.emit (s : State) (o : Output) : State := { s with out := o :: s.out }

/-! ### Free values -/

/-- Take the next free value (log 5). -/
def State.takeFree (s : State) : Nat × State := (s.free, { s with free := s.free + 1 })

/-! ### Memory -/

/-- Key of a byte: site and site-local offset (R23). -/
def memKey (site off : Nat) : Nat := 2 ^ 43 * site + off

/-- One byte of memory. -/
def State.byteAt (s : State) (site off : Nat) : Byte := SMap.get 0 s.mem (memKey site off)

/-- `n` bytes of memory from an offset. -/
def State.readMem (s : State) (site off n : Nat) : List Byte := SMap.getMany 0 s.mem (memKey site off) n

/-- Write bytes from an offset. -/
def State.writeMem (s : State) (site off : Nat) (bs : List Byte) : State :=
  { s with mem := SMap.setMany 0 s.mem (memKey site off) bs }

/-- Write the bytes whose mask bit is 1, from an offset (R210). -/
def State.writeMasked (s : State) (site off : Nat) (mask : Nat) : List Byte → State
  | [] => s
  | b :: bs => State.writeMasked (if mask % 2 = 1 then s.writeMem site off [b] else s) site (off + 1) (mask / 2) bs

/-- Make every byte of a range read 0 (R437, R163). -/
def State.zeroMem (s : State) (site off n : Nat) : State :=
  { s with mem := SMap.clearRange s.mem (memKey site off) (memKey site off + n) }

/-- Global address parts (R23). -/
def gPkg (g : Nat) : Nat := g / 2 ^ 48 % 2 ^ 16
def gSite (g : Nat) : Nat := g / 2 ^ 43 % 32
def gOff (g : Nat) : Nat := g % 2 ^ 43
/-- A global address from its parts (R23). -/
def gAddr (pkg site off : Nat) : Nat := pkg * 2 ^ 48 + site * 2 ^ 43 + off

/-- Offsets of R161. -/
def clusterBase (k : Nat) : Nat := 0x1000000000 + k * 0x1000000
def coreStoreBase (c : Nat) : Nat := 0x2000000000 + c * 0x100000
def slotFillBase (c : Nat) : Nat := 0x3000000000 + c * 0x1000
def accStoreBridge : Nat := 0x40000000000
def sheetBoxBase : Nat := 0x50000000000
/-- Bytes of a core store and of a cluster memory (R67, R65). -/
def coreStoreSize : Nat := 0xC0000
def clusterSize : Nat := 0xC00000
/-- HBM3E bytes per bridge (R161). -/
def hbmSize : Nat := 48000000000
/-- Bytes of an accumulator store (R50). -/
def accStoreSize : Nat := 0x1000000

/-! ### The persistent granary map (R430, R483) -/

/-- Key of a granary-map entry. -/
def grnKey (type site index : Nat) : Nat := type * 2 ^ 48 + site * 2 ^ 32 + index

/-- The VALUE of an entry, or a default where the map has none. -/
def State.grnGet (s : State) (type site index d : Nat) : Nat := SMap.get d s.grn (grnKey type site index)

/-- Does the map hold an entry? -/
def State.grnHas (s : State) (type site index : Nat) : Bool :=
  s.grn.any fun kv => decide (kv.1 = grnKey type site index)

/-- The persistent map has changed: neither copy in MRAM holds the change (R430, R433). -/
def State.mapChanged (s : State) : State :=
  { s with mapLag := 2 }.setF Reg.GRN_STATUS Fld.GRN_STATUS_PENDING 1

/-- Put an entry into the map. -/
def State.grnPut (s : State) (type site index v : Nat) : State :=
  { s with grn := SMap.put (grnKey type site index) v s.grn }.mapChanged

/-- Remove an entry from the map. -/
def State.grnDel (s : State) (type site index : Nat) : State :=
  { s with grn := SMap.del (grnKey type site index) s.grn }.mapChanged

/-- ROLE of a matrix core: 0 enabled, 1 granary, 2 retired, 3 failed at test (R84). -/
def State.coreRole (s : State) (k c : Nat) : Nat := s.grnGet 1 k c 3
/-- The role that a core or host core has, or takes at the next boundary (R420). -/
def State.nextRole (s : State) (type k i : Nat) : Nat :=
  SMap.get (s.grnGet type k i 3) s.rolePend (grnKey type k i)
/-- Give a core or host core a role from the next boundary on (R420). -/
def State.putRole (s : State) (type k i role : Nat) : State :=
  { s with rolePend := SMap.put (grnKey type k i) role s.rolePend }
/-- ROLE of a host core of a die (R305). -/
def State.hostRole (s : State) (h : Nat) : Nat := s.grnGet 2 (h / 8) (h % 8) 3
/-- The context of a host core (R280): the one its image binds it to, or the one that a drawn host core took
over (R423). -/
def State.hostCtx (s : State) (h : Nat) : Nat :=
  match s.hostTake.find? (fun kv => decide (kv.1 = h)) with
  | some kv => kv.2
  | none => hostCtxOf s.cfg.eff h
/-- Is a requester the MC, an operator, or a host core bound to CTX0 (R308, R334)? -/
def State.trusted (s : State) : Requester → Bool
  | .host h => decide (s.hostCtx h = 0)
  | _ => true
/-- Is a site retired (R429)? -/
def State.siteRetired (s : State) (i : Nat) : Bool := s.grnHas 3 i 0
/-- Enabled cores of a die. -/
def State.enabledCores (s : State) (k : Nat) : List Nat :=
  (List.range 96).filter fun c => decide (s.coreRole k c = 0)
/-- Matrix cores of the module with a role. -/
def State.countCores (s : State) (role : Nat) : Nat :=
  (((List.range 8).map fun k =>
    ((List.range 96).filter fun c => decide (s.coreRole k c = role)).length)).sum
/-- Host cores of the module with a role. -/
def State.countHosts (s : State) (role : Nat) : Nat :=
  ((List.range 64).filter fun h => decide (s.hostRole h = role)).length

/-- Key of a wear counter (R426). -/
def wearKey (kind index : Nat) : Nat := kind * 2 ^ 28 + index
/-- A wear counter's value. -/
def State.wearGet (s : State) (kind index : Nat) : Nat := SMap.get 0 s.wear (wearKey kind index)
/-- Count one on a wear counter, which saturates (R426). -/
def State.wearUp (s : State) (kind index : Nat) : State :=
  { s with wear := SMap.set 0 s.wear (wearKey kind index) (min 0xFFFFFFFF (s.wearGet kind index + 1))
  }.mapChanged

/-! ### Sites and unit records -/

/-- The LIVE bit of a site (R17). -/
def State.live (s : State) (i : Nat) : Bool :=
  decide (s.getF Reg.CFG_SITE_MAP Fld.CFG_SITE_MAP_LIVE / 2 ^ i % 2 = 1)
/-- The POPULATED bit of a site (R17). -/
def State.populated (s : State) (i : Nat) : Bool :=
  decide (s.getF Reg.CFG_SITE_MAP Fld.CFG_SITE_MAP_POPULATED / 2 ^ i % 2 = 1)
/-- Set one bit of a number. -/
def setBit (n i : Nat) (b : Bool) : Nat :=
  if b then (if n / 2 ^ i % 2 = 1 then n else n + 2 ^ i)
  else (if n / 2 ^ i % 2 = 1 then n - 2 ^ i else n)
/-- Set the LIVE bit of a site. -/
def State.setLive (s : State) (i : Nat) (b : Bool) : State :=
  s.setF Reg.CFG_SITE_MAP Fld.CFG_SITE_MAP_LIVE
    (setBit (s.getF Reg.CFG_SITE_MAP Fld.CFG_SITE_MAP_LIVE) i b)
/-- The live sites. -/
def State.liveSites (s : State) : List Nat := (List.range 32).filter s.live
/-- The live compute stacks. -/
def State.liveStacks (s : State) : List Nat := (List.range 8).filter s.live

def State.core (s : State) (k c : Nat) : CoreSt := SMap.get CoreSt.idle s.cores (96 * k + c)
def State.setCore (s : State) (k c : Nat) (x : CoreSt) : State :=
  { s with cores := SMap.set CoreSt.idle s.cores (96 * k + c) x }
def State.bellAt (s : State) (i : Nat) : SiteBell := SMap.get SiteBell.idle s.bells i
def State.setBell (s : State) (i : Nat) (x : SiteBell) : State :=
  { s with bells := SMap.set SiteBell.idle s.bells i x }
def State.tithe (s : State) (i : Nat) : TitheSt := SMap.get TitheSt.idle s.tithes i
def State.setTithe (s : State) (i : Nat) (x : TitheSt) : State :=
  { s with tithes := SMap.set TitheSt.idle s.tithes i x }
def State.gw (s : State) (i : Nat) : GwSt := SMap.get GwSt.idle s.gws i
def State.setGw (s : State) (i : Nat) (x : GwSt) : State :=
  { s with gws := SMap.set GwSt.idle s.gws i x }

/-- The effective configuration. -/
abbrev State.rs (s : State) : List Rec := s.cfg.eff
/-- This package. -/
def State.pkg (s : State) : Nat := localPkg s.rs

/-- Has a gateway fenced a peer (R336)? -/
def State.fencedAt (s : State) (i j : Nat) : Bool :=
  decide (s.getF (Reg.GW_FENCE i) Fld.GW_FENCE_PEERS / 2 ^ j % 2 = 1)
/-- Is a site fenced by any gateway, or by itself? -/
def State.fencedAny (s : State) (j : Nat) : Bool :=
  (s.gw j).silent || (List.range 32).any fun i => s.fencedAt i j
/-- Is a site an empty or fenced guest site, whose block decodes to no register (R10)? -/
def State.guestShut (s : State) (i : Nat) : Bool :=
  decide (28 ≤ i ∧ i < 32) && (!(s.live i) || s.fencedAny i)
/-- An access under R10 is counted. -/
def State.unmapped (s : State) : State := s.bump Reg.EVT_UNMAPPED_CNT Fld.EVT_UNMAPPED_CNT_COUNT 1

/-! ### The fault funnel (R418, R455, R456) -/

/-- Site number of the MC and the package as a whole in event records (R455). -/
def mcSite : Nat := 63

/-- The MC's number as an issuer and its site (R211). -/
def mcIssuer : Nat := 127
def mcPort : Nat := 12

/-- Does the event-code table mark a code as voting (R432)? -/
def evVotes (code : Nat) : Bool :=
  decide (code ∈ [0x0105, 0x0106, 0x0107, 0x0201, 0x0202, 0x0205, 0x0404, 0x0504, 0x0602, 0x0606,
    0x0701, 0x0702, 0x0703, 0x0903, 0x0A01, 0x0A02, 0x0B06]) ||
  (decide (0x0301 ≤ code) && decide (code ≤ 0x030A))

/-- Merge a report into the log, or append it and drop the oldest of 8,192 records (R456). -/
def logAdd (r : EventRec) : List EventRec → List EventRec × Bool
  | [] => ([r], true)
  | e :: es =>
    if e.code = r.code ∧ e.site = r.site ∧ e.bell = r.bell ∧ e.args = r.args then
      ({ e with count := e.count + 1, voted := e.voted || r.voted, abandon := e.abandon || r.abandon }
        :: es, false)
    else match logAdd r es with
      | (es', b) => (e :: es', b)

/-- The bell state that stands for a reporter: the site's, or the vote node's site for a base field
and the MC (R455). -/
def State.bellOf (s : State) (site : Nat) : SiteBell :=
  s.bellAt (if site < 32 then site else treePort s.rs)

/-- Append an event record; a record of its own is notified in band on the sideband (R459). -/
def State.logEvent (s : State) (r : EventRec) : State :=
  let (log, fresh) := logAdd r s.log
  let s := if fresh ∧ s.dynAddr.isSome then s.emit .ibi else s
  if fresh ∧ s.log.length ≥ 8192 then
    ({ s with log := log.drop 1, logBase := s.logBase + 1 }).bump Reg.EVT_STATUS
      Fld.EVT_STATUS_OVERWRITTEN 1
  else { s with log := log }

/-- A report reaches the funnel; `votes` says whether its event votes (R418). -/
def State.report (s : State) (site code : Nat) (votes : Bool) (args : List Nat) : State :=
  let b := s.bellOf site
  let voted := votes && !b.life.abandons && decide (b.life ≠ .notStarted)
  let s := s.logEvent
    { code := code, site := site, voted := voted, abandon := b.life.abandons, bell := b.bell,
      count := 1, time := s.vt, args := args }
  let s := { s with reports := SMap.set 0 s.reports site (SMap.get 0 s.reports site + 1) }
  if !voted then s
  else if site < 32 then s.setBell site { s.bellAt site with fault := true }
  else { s with node := { s.node with nodeFault := true } }

/-- A report with the vote of the event-code table. -/
def State.raise (s : State) (site code : Nat) (args : List Nat) : State :=
  s.report site code (evVotes code) args

/-- A failed transaction or a detection that R416 names by a status: class 0x03 (R432). -/
def State.raiseStatus (s : State) (site status : Nat) (args : List Nat) : State :=
  s.raise site (0x0300 + status) args

/-- Two 16-bit argument fields of an issuer: package, then site × 128 + ISSUER (R455). -/
def issuerArgs (pkg site issuer : Nat) : List Nat := [pkg, site * 128 + issuer]

/-- Status codes of R230. -/
def stFenced : Nat := 1
def stPathReset : Nat := 2
def stWindow : Nat := 3
def stParity : Nat := 4
def stHbm : Nat := 5
def stTimeout : Nat := 6
def stCtx : Nat := 7
def stCapacity : Nat := 8
def stMalformed : Nat := 9
def stDenied : Nat := 10

/-- A parity fault in a matrix core's own circuits: PARITY, attributed to the core, which wears (R422,
R426). A report that does not vote is not a voting fault and is not counted. The sixteenth retires the core at the
next hold. A core holds the runs, by bell and T0, that such a fault marked. -/
def State.coreFault (s : State) (k c : Nat) (args : List Nat) : State :=
  let b := s.bellAt k
  let s := s.raiseStatus k stParity (c :: args)
  if b.life.abandons ∨ b.life = .notStarted then s
  else
    let n := 96 * k + c
    let s := s.wearUp 5 n
    let s := if s.wearGet 5 n = 16 ∧ s.coreRole k c = 0 ∧ n ∉ s.retireQ then
        { s.raise k 0x0204 [c] with retireQ := s.retireQ ++ [n] } else s
    let at' := (s.core k c).attributed.filter fun r => decide (r ≠ (b.bell, b.t0))
    s.setCore k c { s.core k c with attributed := at' ++ [(b.bell, b.t0)] }

/-! ### Bell time (R126, R145) -/

/-- Village time at which the site's current bell began. -/
def SiteBell.began (b : SiteBell) (rs : List Rec) : Nat := b.t0 + b.bell * periodNs rs
/-- Guard start after `m` extensions (R145). -/
def guardAt (b : SiteBell) (rs : List Rec) (m : Nat) : Nat :=
  b.began rs + periodNs rs - guardNs rs + m * extQ rs
/-- Check point `c_m` (R145). -/
def checkAt (b : SiteBell) (rs : List Rec) (m : Nat) : Nat := guardAt b rs m - leadNs rs
/-- End of the bell after `m` extensions. -/
def bellEnd (b : SiteBell) (rs : List Rec) (m : Nat) : Nat := b.began rs + periodNs rs + m * extQ rs
/-- The extensions in force: of the CLOSE held, or granted so far. -/
def SiteBell.extNow (b : SiteBell) : Nat :=
  match b.closed with
  | some (m, _) => m
  | none => b.ext

/-- Is the site executing a bell (running or extended)? -/
def SiteBell.executing (b : SiteBell) : Bool := decide (b.life = .running) || decide (b.life = .extended)

/-- May sequencers and tithed classes of the site issue (R128)? -/
def State.mayIssue (s : State) (i : Nat) : Bool :=
  (s.bellAt i).executing && !(s.bellAt i).guard && !(s.gw i).issueStop

/-- Copy the vote node's site's bell into the package's bell registers (R159). -/
def State.syncBellRegs (s : State) : State :=
  let b := s.bellAt (treePort s.rs)
  let s := s.setF Reg.BELL_NOW Fld.BELL_NOW_NUMBER b.bell
  let s := s.setF Reg.BELL_ORIGIN Fld.BELL_ORIGIN_T0 b.t0
  let s := match b.committed with
    | some n => (s.setF Reg.BELL_COMMITTED Fld.BELL_COMMITTED_VALID 1).setF Reg.BELL_COMMITTED
        Fld.BELL_COMMITTED_NUMBER n
    | none => s
  let s := s.setF Reg.BELL_STATUS Fld.BELL_STATUS_STATE b.life.code
  s.setF Reg.BELL_STATUS Fld.BELL_STATUS_EXT b.ext

/-! ### Tokens (R91, R109) -/

/-- The register of a token reference on a core, if it names a token. -/
def tokenReg (k c ref : Nat) : Option Nat :=
  if ref / 1024 % 4 = 1 then some (Reg.CORE_TOKEN k c (ref % 256))
  else if ref / 1024 % 4 = 2 then some (Reg.CORE_CTOKEN k (c / 8) (ref % 1024))
  else none

/-- Raise a token by an amount; past 2^32 - 1 it stays there and SCHEDULE_VIOLATION is reported
(R109). -/
def State.raiseToken (s : State) (k c ref n : Nat) : State :=
  match tokenReg k c ref with
  | none => s
  | some a =>
    let v := s.getF a Fld.CORE_TOKEN_VALUE + n
    if v < 2 ^ 32 then s.setF a Fld.CORE_TOKEN_VALUE v
    else (s.setF a Fld.CORE_TOKEN_VALUE (2 ^ 32 - 1)).raise k 0x0107 [c, ref]

/-! ### Links and routes (R232, R245 to R247) -/

/-- Link number of local link `l` of engine `e`; links 64-67 are the granary links of E0 and E4. -/
def linkNum (e l : Nat) : Nat := if l < 8 then 8 * e + l else if e = 0 then 56 + l else 58 + l
/-- Engine and local link of a link number. -/
def linkHome (x : Nat) : Nat × Nat :=
  if x < 64 then (x / 8, x % 8) else if x < 66 then (0, x - 56) else (4, x - 58)

/-- Slots of a bundle in the live bundle table, which every engine holds alike (R245, R260). -/
def State.bundleSlots (s : State) (b : Nat) : Nat :=
  if s.getF (Reg.LNK_BUNDLE 20 b) Fld.LNK_BUNDLE_VALID = 1 then
    s.getF (Reg.LNK_BUNDLE 20 b) Fld.LNK_BUNDLE_SLOTS_M1 + 1 else 0
/-- Link of slot `j` of a bundle. -/
def State.bundleLink (s : State) (b j : Nat) : Nat :=
  s.getF (Reg.LNK_BUNDLE 20 b) Fld.LNK_BUNDLE_SLOT / 2 ^ (7 * j) % 128

/-- Does a site treat a link as redirected: its own engine by LNK_STATUS, any gateway where it has fenced
the link's engine (R250, R338)? -/
def State.linkRedirected (s : State) (site x : Nat) : Bool :=
  (decide (site = 20 + (linkHome x).1) &&
    decide (s.getF (Reg.LNK_STATUS site (linkHome x).2) Fld.LNK_STATUS_REDIRECT = 1)) ||
  s.fencedAt site (20 + (linkHome x).1)

/-- Is a link of an engine not serving (R256)? -/
def State.linkDown (s : State) (x : Nat) : Bool :=
  decide (s.getF (Reg.LNK_STATUS (20 + (linkHome x).1) (linkHome x).2) Fld.LNK_STATUS_STATE ≠ 2)

/-- An engine drops a packet of an unserved slot and counts it (R256). -/
def State.unserved (s : State) (x : Nat) : State :=
  s.bump (Reg.LNK_FAILOVER_CNT (20 + (linkHome x).1) (linkHome x).2) Fld.LNK_FAILOVER_CNT_COUNT 1

/-- The standby link of slot `j` that a route entry gives, if it has one (R246, R247). -/
def State.standbyLink (s : State) (e j : Nat) : Option Nat :=
  let m := s.bundleSlots (e / 32 % 32)
  if e / 2 ^ 16 % 128 ≠ 0 ∧ m ≠ 0 then some (s.bundleLink (e / 32 % 32) (j % m)) else none

/-- The LINK record of a link: the peer's package and its link number (R313). -/
def linkPeer (rs : List Rec) (x : Nat) : Option (Nat × Nat) :=
  (recFind rs segLinkmap 2 fun r => decide (r.u8 8 = x)).map fun r => (r.u16 10, r.u8 12)

/-- The branch link of a branch bundle, slot SRC_SITE mod n, and its standby (R273). -/
def State.branchSlot (s : State) (b src : Nat) : Option (Nat × Option Nat) :=
  let n := s.bundleSlots b
  if n = 0 then none else
  let x := s.bundleLink b (src % n)
  (linkPeer s.rs x).map fun e => (x, s.standbyLink (routeEntry s.rs e.1) (src % n))

/-- The branch link and the standby of a multicast copy for another package (R273). -/
def State.copyLinks (s : State) (p : Packet) : Option (Nat × Option Nat) :=
  match mcastRec s.rs (p.addr.toNat % 4096) with
  | none => none
  | some r =>
    ((mcastBranches r).filterMap fun b => s.branchSlot b p.srcSite.val).find? fun e =>
      decide ((linkPeer s.rs e.1).map (·.1) = some p.dstPkg.toNat)

/-- The primary and standby links of a packet: of its slot (R247), or of its branch (R273). -/
def State.slotLinks (s : State) (p : Packet) : Option (Nat × Option Nat) :=
  if p.op = 0x03 then s.copyLinks p else
  let e := routeEntry s.rs p.dstPkg.toNat
  let n := s.bundleSlots (e % 32)
  if e / 2 ^ 30 ≠ 1 ∨ n = 0 then none else
  let j := (p.srcSite.val + p.dstSite.val + p.dstPkg.toNat) % n
  some (s.bundleLink (e % 32) j, s.standbyLink e j)

/-- The link that a packet at a site takes out of the package: the slot's primary link, or its standby
while the primary is redirected (R247, R250). `via` is the site it came from over a base hop: the
engine of the primary link sends there what its redirect moves. -/
def State.outLink (s : State) (site : Nat) (via : Option Nat) (p : Packet) : Option Nat :=
  match s.slotLinks p with
  | none => none
  | some (x, none) => some x
  | some (x, some y) =>
    if s.linkRedirected site x || (decide (via = some (20 + (linkHome x).1)) &&
        decide (20 + (linkHome y).1 = site)) then some y else some x

/-- A number below 32 as a site. -/
def siteOf (n : Nat) : Site := ⟨n % 32, Nat.mod_lt _ (by decide)⟩
/-- A number below 10 as a local link. -/
def localLinkOf (n : Nat) : LocalLink := ⟨n % 10, Nat.mod_lt _ (by decide)⟩

/-- The hop from a site towards a link: the link itself at its engine, else the engine's site. -/
def hopTo (site x : Nat) : Hop :=
  if 20 + (linkHome x).1 = site then .link (localLinkOf (linkHome x).2)
  else .base (siteOf (20 + (linkHome x).1))

/-- The first hop of a packet from a site (R24, R247). -/
def State.firstHop (s : State) (site : Nat) (p : Packet) : Option Hop :=
  if p.dstPkg.toNat = s.pkg then some (.base p.dstSite)
  else (s.outLink site none p).map (hopTo site)

/-- Number of a hop: 0-31 base peers, 32-41 local links. -/
def hopNum : Hop → Nat
  | .base p => p.val
  | .link l => 32 + l.val

/-! ### Arbiters (R153) -/

/-- Rank of requester `i` of `n` in bell `k`; the lowest rank wins (R153). -/
def rank (n i k : Nat) : Nat := (i + n - k % n) % n

/-- The requesters of an arbiter in the order of their ranks in bell `k` (R153). -/
def rankOrder (n k : Nat) : List Nat := (List.range n).map fun r => (r + k) % n

/-! ### Carriers (R182, R191, R236) -/

/-- Key of a pair direction. -/
def pairKey (i j : Nat) : Nat := 32 * i + j
/-- Is a carrier declared failed (R191, R483 TYPE 5)? -/
def State.carrierFailed (s : State) (i j q : Nat) : Bool := s.grnHas 5 i (64 * j + q)
/-- Carriers of a pair direction that await relock. -/
def State.outOf (s : State) (i j : Nat) : List (Nat × Nat) := SMap.get [] s.outs (pairKey i j)
/-- Is a carrier out of service? -/
def State.isOut (s : State) (i j q : Nat) : Bool := (s.outOf i j).any fun e => decide (e.1 = q)
/-- Is a control carrier in service? -/
def State.ctrlUp (s : State) (i j q : Nat) : Bool := !(s.carrierFailed i j q) && !(s.isOut i j q)
/-- Are both control carriers of a pair direction out, so that VC5 goes in band (R428)? -/
def State.inBand (s : State) (i j : Nat) : Bool := !(s.ctrlUp i j 34) && !(s.ctrlUp i j 35)

def State.linkAt (s : State) (x : Nat) : LinkSt := SMap.get LinkSt.idle s.links x
def State.setLink (s : State) (x : Nat) (l : LinkSt) : State :=
  { s with links := SMap.set LinkSt.idle s.links x l }

/-- Bits below `w` of a number that are 1, in ascending order. -/
def onesBelow (w n : Nat) : List Nat := (List.range w).filter fun q => n.testBit q

/-- What carries a hop's bulk stripe or its control traffic, in the order of the rotation: planes of a pair, slots of
a link (R187, R196, R233, R236). -/
def State.lanes (s : State) (site : Nat) (h : Hop) (ctrl : Bool) : List Nat :=
  match h with
  | .base p =>
    if ctrl then [34 + s.getF (Reg.FAB_TX_PAIR site p) Fld.FAB_TX_PAIR_CTRL]
    else onesBelow 34 (s.reg (Reg.FAB_TX_STRIPE site p)).toNat
  | .link l => if ctrl then [0] else (s.linkAt (linkNum (site - 20) l)).stripe

/-! ### Streams of a hop (R187, R204, R219 to R221) -/

/-- Credits of a VC on a base hop (R216) or an external hop (R240). -/
def vcCredits (h : Hop) (vc : Nat) : Nat :=
  match h with
  | .base _ => (match vc with
    | 0 => 1024 | 1 => 512 | 2 => 512 | 3 => 128 | 4 => 256 | _ => 64)
  | .link _ => (match vc with
    | 0 => 20480 | 1 => 8192 | 2 => 4096 | 3 => 512 | 4 => 1024 | _ => 256)

/-- Key of a hop and VC in the credit maps. -/
def vcKey (h : Hop) (vc : Nat) : Nat := 8 * hopNum h + vc
/-- Key of a stream: VC5 and CREDIT packets ride the control carrier, the rest the bulk stripe. -/
def streamKey (h : Hop) (vc : Nat) : Nat := 2 * hopNum h + (if vc = 5 then 1 else 0)

/-- Key of the stream that a site sends a VC on: VC5 on the bulk stripe while it goes in band (R428). -/
def State.txKey (s : State) (site : Nat) (h : Hop) (vc : Nat) : Nat :=
  match h with
  | .base p => streamKey h (if s.inBand site p then 0 else vc)
  | .link _ => streamKey h vc
/-- Key of the stream that a site receives a VC on. -/
def State.rxKey (s : State) (site : Nat) (h : Hop) (vc : Nat) : Nat :=
  match h with
  | .base p => streamKey h (if s.inBand p site then 0 else vc)
  | .link _ => streamKey h vc

/-- A stream of a hop. -/
def State.stream (s : State) (site key : Nat) : Stream := SMap.get Stream.idle (s.gw site).streams key
/-- Put a stream of a hop. -/
def State.setStream (s : State) (site key : Nat) (st : Stream) : State :=
  let g := s.gw site
  s.setGw site { g with streams := SMap.set Stream.idle g.streams key st }

/-- Bytes after which a stream's positions repeat: 2^24 granules (R221). -/
def streamSpan : Nat := 2 ^ 29

/-- Bytes of unacknowledged stream that a transmitter holds (R221, R223, R239). -/
def hopWindow : Hop → Nat
  | .base _ => 65536
  | .link _ => 700000

/-- Unacknowledged bytes of a stream. -/
def Stream.unacked (st : Stream) : Nat := (st.flight.map fun f => f.pkt.bytes).sum

/-- Deal `n` bytes, the first at byte `o` of the granule that the stream stands in, to lanes in rotation: the lane of
each granule, and the stream with the turn of the granule in which the next byte stands (R187). A granule begun before a
change of the stripe goes on where it was begun (R188). -/
def Stream.deal (st : Stream) (lanes : List Nat) (o n : Nat) : List Nat × Stream :=
  if lanes = [] then ([], st) else
  let k := (o + n + 31) / 32
  match st.begun with
  | none =>
    ((List.range k).map fun i => lanes.getD ((st.turn + i) % lanes.length) 0,
      { st with turn := (st.turn + (o + n) / 32) % lanes.length })
  | some c =>
    (c :: (List.range (k - 1)).map fun i => lanes.getD ((st.turn + i) % lanes.length) 0,
      if o + n < 32 then st
      else { st with turn := (st.turn + (o + n) / 32 - 1) % lanes.length, begun := none })

/-- A change of a stripe from lanes `old` (R188): the rotation's granule that is begun goes on at its lane, and the next
one has position 0 of the new stripe. -/
def Stream.restart (st : Stream) (old : List Nat) : Stream :=
  { st with
    turn := 0
    begun := if st.pos % 32 = 0 then none else some (st.begun.getD (old.getD (st.turn % max 1 old.length) 0)) }

/-- The turn of the next whole granule: a retransmission begins there (R221). -/
def Stream.whole (st : Stream) (lanes : List Nat) : Stream :=
  { st with
    turn := if st.pos % 32 = 0 ∨ st.begun.isSome then st.turn else (st.turn + 1) % max 1 lanes.length
    begun := none }

/-- The granule position that a receiver expects next: a packet's last granule counts as received with it (log 40). -/
def Stream.ackPos (st : Stream) : Nat := (st.expect + 31) / 32 % 2 ^ 24

/-- The control codeword that a site sends on a lane of a hop: ACK and NAK speak of the reverse stream (R220, R237). -/
def State.codeOn (s : State) (site : Nat) (h : Hop) (lane : Nat) (resend : Option Nat) : Nat :=
  match h with
  | .base p =>
    let st := s.stream site (streamKey h (if 34 ≤ lane then 5 else 0))
    PairWord.bits ⟨s.getF (Reg.FAB_TX_PAIR site p) Fld.FAB_TX_PAIR_VERSION, resend, st.discard, st.ackPos⟩
  | .link l =>
    let x := s.linkAt (linkNum (site - 20) l)
    let st := s.stream site (streamKey h (if lane = 0 then 5 else 0))
    LinkWord.bits
      { out := x.sendsOut, rxPower := (SMap.get 0 x.level lane % 2 ^ 16).toNat, slot := if x.parked then 0xFF else lane
        stamp := s.vt, version := x.version, resend := resend, nak := st.discard, ack := st.ackPos }

/-- Send a control codeword on a lane of a hop. -/
def State.sendCode (s : State) (site : Nat) (h : Hop) (lane : Nat) (resend : Option Nat) : State :=
  s.emit (.code site h lane (s.codeOn site h lane resend))

/-! ### Sending on a hop (R204, R216 to R218, R189) -/

/-- Put a packet that its holder took in at time `t` on its hop: it takes stream positions and is held for retry
(R187, R221, R224). -/
def State.putOnHop (s : State) (site : Nat) (h : Hop) (p : Packet) (t : Nat) : State :=
  let k := s.txKey site h p.vc.toNat
  let st := s.stream site k
  let (via, st) := st.deal (s.lanes site h (decide (k % 2 = 1))) (st.pos % 32) p.bytes
  let pos := (st.pos + p.bytes) % streamSpan
  (s.setStream site k { st with
    pos := pos, flight := st.flight ++ [⟨pos, t, s.vt, p⟩]
    advanced := if st.flight.isEmpty then s.vt else st.advanced
    tried := if st.flight.isEmpty then s.vt else st.tried }).emit (.packet site h p via)

/-- Does a packet go on its hop now: the stream holds it, and its VC has its credits (R217, R221)? A CREDIT takes
none. -/
def State.fitsHop (s : State) (site : Nat) (h : Hop) (p : Packet) : Bool :=
  decide ((s.stream site (s.txKey site h p.vc.toNat)).unacked + p.bytes ≤ hopWindow h) &&
  (decide (p.op = 0x38) ||
    decide (SMap.get 0 (s.gw site).creditUsed (vcKey h p.vc.toNat) + p.units ≤ vcCredits h p.vc.toNat))

/-- The packet of a VC that waits on a hop and goes first: a DUAL copy before the rest (R251). -/
def State.hopHead (s : State) (site : Nat) (h : Hop) (vc : Nat) (credit : Bool) : Option Held :=
  let mine := (s.gw site).waiting.filter fun w =>
    decide (w.hop = h) && decide (w.pkt.vc.toNat = vc) && (decide (w.pkt.op = 0x38) == credit)
  match mine.find? (·.pkt.dual) with
  | some w => some w
  | none => mine.head?

/-- The VCs of a hop's bulk stripe in the order in which they are served: in the first RESV granules of each frame of
64 the tithed VCs first, in the rest the scheduled ones, each three by rank (R153, R189). A link has no frames (log
31). -/
def State.vcOrder (s : State) (site : Nat) (h : Hop) : List Nat :=
  let k := (s.bellAt site).bell
  match h with
  | .base _ =>
    let tithed := (rankOrder 3 k).map fun i => [3, 4, 6].getD i 0
    let sched := (rankOrder 3 k).map fun i => [0, 1, 2].getD i 0
    if (s.stream site (streamKey h 0)).pos / 32 % 64 < s.getF (Reg.FAB_RESV site) Fld.FAB_RESV_RESV then tithed ++ sched
    else sched ++ tithed
  | .link _ => (rankOrder 6 k).map fun i => [0, 1, 2, 3, 4, 6].getD i 0

/-- The packet that a hop sends next, of those that wait and fit: CREDIT, then VC5, which have a carrier of their own or
the first granules of a frame (R217, R428), then the bulk VCs; DUAL copies before all others (R251). A packet is chosen by
the place of its first granule in the frame and goes whole, past the boundary of RESV where it reaches it, with no granule
of another VC between (R189; DESIGN CHOICE, log 48). -/
def State.nextOnHop (s : State) (site : Nat) (h : Hop) : Option Held :=
  let heads := (s.hopHead site h 5 true :: s.hopHead site h 5 false ::
    (s.vcOrder site h).map fun v => s.hopHead site h v false).filterMap id
  let fit := heads.filter fun w => s.fitsHop site h w.pkt
  match fit.find? (·.pkt.dual) with
  | some w => some w
  | none => fit.head?

/-- The element taken out of a list once. -/
def takeOut (w : Held) : List Held → List Held
  | [] => []
  | x :: xs => if x = w then xs else x :: takeOut w xs

/-- Send a packet that waits on a hop: it takes its credits (R217). -/
def State.launchHeld (s : State) (site : Nat) (w : Held) : State :=
  let g := s.gw site
  let k := vcKey w.hop w.pkt.vc.toNat
  let used := SMap.get 0 g.creditUsed k
  (s.setGw site { g with
    waiting := takeOut w g.waiting
    creditUsed := if w.pkt.op = 0x38 then g.creditUsed else SMap.set 0 g.creditUsed k (used + w.pkt.units) }).putOnHop
      site w.hop w.pkt w.since

/-- Send what waits on a hop, at most `n` packets, as far as credit and the stream's store go. -/
def State.drainHop (s : State) (site : Nat) (h : Hop) : Nat → State
  | 0 => s
  | n + 1 =>
    match s.nextOnHop site h with
    | none => s
    | some w => State.drainHop (s.launchHeld site w) site h n

/-- Packets that wait on a hop are sent in the order of its arbiter, as far as credit and the stream's store go. -/
def State.flushHop (s : State) (site : Nat) (h : Hop) : State := s.drainHop site h (s.gw site).waiting.length

/-- Send a packet that came in at time `t` on a hop if it may go now, else it waits (R217). -/
def State.sendHopSince (s : State) (site : Nat) (h : Hop) (p : Packet) (t : Nat) : State :=
  let g := s.gw site
  (s.setGw site { g with waiting := g.waiting ++ [⟨p, h, t⟩] }).flushHop site h

/-- Send a packet on a hop now. -/
def State.sendHop (s : State) (site : Nat) (h : Hop) (p : Packet) : State := s.sendHopSince site h p s.vt

/-- Send a packet from a site: its CRC is formed and it goes to its first hop. A packet with no route
is not sent (R24). -/
def State.send (s : State) (site : Nat) (p : Packet) : State :=
  match s.firstHop site p with
  | some (.link l) =>
    let x := linkNum (site - 20) l
    if s.linkDown x then s.unserved x else s.sendHop site (.link l) p.sealed
  | some h => s.sendHop site h p.sealed
  | none => s

/-- A branch copy of a multicast packet: it names the neighbour and the link engine at the far end of the branch link
(R273). -/
def State.branchCopy (s : State) (b : Nat) (p : Packet) : Option Packet :=
  match s.branchSlot b p.srcSite.val with
  | none => none
  | some (x, _) => (linkPeer s.rs x).map fun e =>
    { p with dstPkg := BitVec.ofNat 16 e.1, dstSite := siteOf (20 + (linkHome e.2).1) }

/-- Send a branch copy from a site by its branch link, or by the standby while that is redirected (R250, R273). -/
def State.sendCopy (s : State) (site : Nat) (p : Packet) : State :=
  match s.outLink site none p with
  | none => s
  | some x =>
    if 20 + (linkHome x).1 = site ∧ s.linkDown x = true then s.unserved x else s.sendHop site (hopTo site x) p

/-- Send a copy of a multicast packet along a branch from a site (R273). -/
def State.sendBranch (s : State) (site b : Nat) (p : Packet) : State :=
  match s.branchCopy b p with
  | none => s
  | some q => s.sendCopy site q.sealed

/-! ### Tags (R225) -/

/-- Key of a tag. -/
def tagKey (issuer tag : Nat) : Nat := 4096 * issuer + tag

/-- The lowest-numbered free tag of an issuer. -/
def GwSt.freeTag (g : GwSt) (issuer : Nat) : Option Nat :=
  (List.range 4096).find? fun t =>
    !(g.tags.any fun kv => decide (kv.1 = tagKey issuer t)) &&
    !(g.quar.any fun kv => decide (kv.1 = tagKey issuer t))

/-- Tags of an issuer that are live. -/
def GwSt.liveTags (g : GwSt) (issuer : Nat) : Nat :=
  (g.tags.filter fun kv => decide (kv.1 / 4096 = issuer)).length
/-- Tags of an issuer in quarantine. -/
def GwSt.quarTags (g : GwSt) (issuer : Nat) : Nat :=
  (g.quar.filter fun kv => decide (kv.1 / 4096 = issuer)).length

/-- The stop of an issuer on a compute die (R55, R211). -/
def stopOf (issuer : Nat) : Option Nat :=
  if issuer < 96 then some (issuer / 8) else if issuer < 104 then some (12 + (issuer - 96) / 2) else none

/-- The number of a destination of a multicast copy: a site of the package, or 32 + the package of a neighbour. -/
def State.kidOf (s : State) (pkg site : Nat) : Nat := if pkg = s.pkg then site else 32 + pkg

/-- The destinations of the copies in which a packet goes (R273). -/
def State.kidsOf (s : State) (p : Packet) (copies : List (Option Nat × Site)) : List Nat :=
  copies.filterMap fun c => match c.1 with
    | none => some c.2.val
    | some b => (s.branchCopy b p).map fun q => s.kidOf q.dstPkg.toNat q.dstSite.val

/-- Allocate a tag for a stamped packet and its copies, unless the gateway drains and its issuer is at a stop (R340): GEN increases
by 1 modulo 16 and the live entry is recorded. The packet comes back with its tag and generation, which all its copies have
(R273). -/
def State.allocTag (s : State) (site : Nat) (w : TagWait) : Option (State × Packet) :=
  let g := s.gw site
  let issuer := w.issuer
  let p := w.pkt
  match (if s.drains.any (fun d => decide (d.1 = site)) && (stopOf issuer).isSome then none else g.freeTag issuer) with
  | none => none
  | some t =>
    let gen := (SMap.get 0 g.gens (tagKey issuer t) + 1) % 16
    let epoch := s.getF (Reg.GW_EPOCH site) Fld.GW_EPOCH_EPOCH
    let e : TagEntry :=
      { gen := gen, bell := p.bell.toNat, epoch := epoch, ctx := p.ctx.toNat, dstPkg := p.dstPkg.toNat,
        dstSite := p.dstSite.val, len := w.len, issued := s.vt, purpose := w.why, kids := s.kidsOf p w.copies, first := 0 }
    let g := { g with tags := SMap.put (tagKey issuer t) e g.tags
                      gens := SMap.set 0 g.gens (tagKey issuer t) gen }
    some (s.setGw site g, { p with tag := BitVec.ofNat 12 t, gen := BitVec.ofNat 4 gen })

/-- Stamp the fields the issuing gateway sets in every packet (R205, R207): source, bell, epoch, and
the ISSUER in STEP except in REDUCE packets. -/
def State.stamp (s : State) (site issuer : Nat) (p : Packet) : Packet :=
  let p := { p with
    srcPkg := BitVec.ofNat 16 s.pkg
    srcSite := siteOf site
    bell := BitVec.ofNat 8 ((s.bellAt site).bell % 256)
    epoch := BitVec.ofNat 4 (s.getF (Reg.GW_EPOCH site) Fld.GW_EPOCH_EPOCH) }
  if p.op = 0x10 ∨ p.op = 0x11 ∨ p.op = 0x12 then
    { p with addr := p.addr ||| BitVec.ofNat 43 (issuer * 2 ^ 31) }
  else { p with step := BitVec.ofNat 32 issuer }

/-- Key of a replicated packet for the loop check: that of step 9, the BELL and the offset (log 10). -/
def loopKey (p : Packet) : Nat := (p.key * 256 + p.bell.toNat) * 2 ^ 43 + p.addr.toNat

/-- The package has spread a packet: it keeps its key (R273). -/
def State.keepKey (s : State) (site : Nat) (p : Packet) : State :=
  let live := (s.gw site).replKeys.filter fun e => decide (s.vt < e.time + 4000) && decide (e.key ≠ loopKey p)
  s.setGw site { s.gw site with replKeys := live ++ [⟨loopKey p, s.vt, p.dual⟩] }

/-- Send a packet from a site: along one branch of the multicast tree, whose root the package is, or to its destination. -/
def State.sendPart (s : State) (site : Nat) (branch : Option Nat) (p : Packet) : State :=
  match branch with
  | some b => (s.keepKey site p).sendBranch site b p
  | none => s.send site p

/-- Send the copies of a packet: to sites of the package, and along branches (R202, R273); none: the packet as it is. -/
def State.sendCopies (s : State) (site : Nat) (p : Packet) (copies : List (Option Nat × Site)) : State :=
  if copies = [] then s.send site p
  else copies.foldl (fun (s : State) c => s.sendPart site c.1 { p with dstSite := c.2 }) s

/-- Send a stamped packet, or its copies, under a tag of its issuer; with no free tag it waits for one (R225; log 35). -/
def State.sendTagged (s : State) (site : Nat) (w : TagWait) : State :=
  match s.allocTag site w with
  | some (s, p) => s.sendCopies site p w.copies
  | none => s.setGw site { s.gw site with tagWait := (s.gw site).tagWait ++ [w] }

/-- Put a live tag into quarantine for 2 × period (R225). -/
def State.quarantine (s : State) (site key : Nat) : State :=
  let g := s.gw site
  s.setGw site { g with tags := SMap.del key g.tags
                        quar := SMap.put key (s.vt + 2 * periodNs s.rs) g.quar }

/-- Free a live tag. -/
def State.freeLive (s : State) (site key : Nat) : State :=
  let g := s.gw site
  s.setGw site { g with tags := SMap.del key g.tags }

/-- The local failure of an access to a destination, formed by the issuing gateway before it sends, or by
the issuer's stop: PATH_RESET where the stop has lost its gateway (R340), SITE_FENCED where the target's
LIVE bit is 0 or the gateway has fenced it, or is itself fenced, WINDOW_DENIED where no route exists
(R24, R230, R336, R337). -/
def State.localFail (s : State) (site issuer : Nat) (dstPkg dstSite : Nat) : Option Nat :=
  if (match stopOf issuer with
      | some n => decide (site < 8) && decide (n ∈ (s.gw site).stops)
      | none => false) then some stPathReset
  else if (s.gw site).silent then some stFenced
  else if dstPkg = s.pkg then
    (if !(s.live dstSite) || s.fencedAt site dstSite then some stFenced else none)
  else if routeEntry s.rs dstPkg / 2 ^ 30 = 1 then none
  else some stWindow

end Sys2Proof.Machine
end

