-- ==== Sys2Proof/Machine/Tithe.lean ====
section
/-!
DEFINITION. The tithe arbiter (R155, R156) and the row TITHE_REQUEST.
-/

namespace Sys2Proof.Machine

open Sys2Proof

/-- The budget of a class at a site (R158). -/
def State.titheBudgetOf (s : State) (site cls : Nat) : Nat :=
  s.getF (Reg.TITHE_BUDGET site cls) Fld.TITHE_BUDGET_BUDGET

/-- Are tithes enforced at a site? Not before the first bell after a cold start (R152). -/
def State.titheOn (s : State) (site : Nat) : Bool := decide ((s.bellAt site).life ≠ .notStarted)

/-- Does a request fit the class's budget of this bell, outside a guard interval (R156)? -/
def State.titheFits (s : State) (site cls cost : Nat) : Bool :=
  !(s.titheOn site) ||
  (!(s.bellAt site).guard &&
    decide (SMap.get 0 (s.tithe site).used cls + cost ≤ s.titheBudgetOf site cls))

/-- Count an admitted request. -/
def State.titheCharge (s : State) (site cls cost : Nat) : State :=
  let t := s.tithe site
  s.setTithe site { t with used := SMap.set 0 t.used cls (SMap.get 0 t.used cls + cost) }

/-- Mark a class stalled in this bell; TITHE_STALLS counts the bell once (R156, R158). -/
def State.titheStall (s : State) (site cls : Nat) : State :=
  let t := s.tithe site
  if cls ∈ t.stalled then s
  else (s.setTithe site { t with stalled := cls :: t.stalled }).bump (Reg.TITHE_STALLS site cls)
    Fld.TITHE_STALLS_COUNT 1

/-- The request at the head of a class asks again: one that does not fit, outside a guard interval, stalls the class
(R156). -/
def State.titheRetry (s : State) (site cls : Nat) : State :=
  match (s.tithe site).queue.find? (fun r => decide (r.cls = cls)) with
  | none => s
  | some r => if s.titheFits site cls r.cost || (s.bellAt site).guard then s else s.titheStall site cls

/-- Ask for `cost` units now or not at all: the caller drops what is not admitted. -/
def State.titheTry (s : State) (site cls cost : Nat) : State × Bool :=
  if (s.tithe site).queue.any (fun r => decide (r.cls = cls)) then (s.titheRetry site cls, false)
  else if s.titheFits site cls cost then (s.titheCharge site cls cost, true)
  else if (s.bellAt site).guard then (s, false)
  else (s.titheStall site cls, false)

/-- A request that waits in its class's order until it is admitted (R156). -/
def State.titheAsk (s : State) (site cls cost id : Nat) : State :=
  let t := s.tithe site
  if t.queue.any (fun r => decide (r.cls = cls)) then
    s.setTithe site { t with queue := t.queue ++ [⟨cls, cost, id⟩] }
  else if s.titheFits site cls cost then
    let s := s.titheCharge site cls cost
    s.setTithe site { s.tithe site with admitted := (s.tithe site).admitted ++ [id] }
  else
    let s := if (s.bellAt site).guard then s else s.titheStall site cls
    s.setTithe site { s.tithe site with queue := (s.tithe site).queue ++ [⟨cls, cost, id⟩] }

/-- Remove the first waiting request of a class. -/
def dropFirst (cls : Nat) : List TitheReq → List TitheReq
  | [] => []
  | r :: rs => if r.cls = cls then rs else r :: dropFirst cls rs

/-- Step 4 of R22: used becomes used_last, which TITHE_USED shows, and starts again at 0; the heads that waited ask
again in the bell that begins (R156). -/
def State.titheReload (s : State) (site : Nat) : State :=
  let t := s.tithe site
  let s := (List.range 9).foldl (fun s c =>
    s.setF (Reg.TITHE_USED site c) Fld.TITHE_USED_USED (SMap.get 0 t.used c)) s
  let s := s.setTithe site { t with used := [], stalled := [] }
  (List.range 9).foldl (fun (s : State) c =>
    match (s.tithe site).queue.find? (fun r => decide (r.cls = c)) with
    | some r => if s.titheBudgetOf site c < r.cost ∧ s.titheOn site = true then s.titheStall site c else s
    | none => s) s

/-- TITHE_REQUEST (R156): a request of a class with a cost in the class's unit arrives at a site. -/
def execTitheRequest (site : Site) (cls : Fin 9) (cost : BitVec 32) (id : BitVec 32) (s : State) : Out :=
  .next (s.titheAsk site cls cost.toNat id.toNat)

end Sys2Proof.Machine
end

