-- ==== Sys2Proof/Machine/Memory.lean ====
section
/-!
DEFINITION. Memory (06): the site windows of R161, the stacked cache and its frame groups (R163 to
R169), HBM3E reads and page retirement (R173, R174), the fix area (R176, R177), and the rows
CACHE_INVALIDATION, FRAME_GROUP_RETIRE, PAGE_RETIRE and MEM_ACK_LOST.
-/

namespace Sys2Proof.Machine

open Sys2Proof

/-! ### Site windows (R161) -/

/-- Kinds of site (R5). -/
inductive SiteKind where
  | stack | bridge | engine | guest
  deriving DecidableEq, Repr

/-- The kind of a site number (R5). -/
def siteKind (i : Nat) : SiteKind :=
  if i < 8 then .stack else if i < 20 then .bridge else if i < 28 then .engine else .guest

/-- Is `[a, a + n)` inside `[base, base + size)`? -/
def within (a n base size : Nat) : Bool := decide (base ≤ a) && decide (a + n ≤ base + size)

/-- Do `[a, a + n)` and `[base, base + size)` share a byte? -/
def meets (a n base size : Nat) : Bool :=
  decide (0 < n) && decide (0 < size) && decide (a < base + size) && decide (base < a + n)

/-- Scratch size of a stack as MEM_CACHE_CFG holds it. -/
def State.scratch (s : State) (k : Nat) : Nat :=
  2 ^ 26 * s.getF (Reg.MEM_CACHE_CFG k) Fld.MEM_CACHE_CFG_SCRATCH

/-- The core whose core store holds `[a, a + n)`. -/
def coreOf (a n : Nat) : Option Nat :=
  let c := (a - coreStoreBase 0) / 0x100000
  if coreStoreBase 0 ≤ a ∧ c < 96 ∧ within a n (coreStoreBase c) coreStoreSize = true then some c else none

/-- The cluster whose memory holds `[a, a + n)`. -/
def clusterOf (a n : Nat) : Option Nat :=
  let k := (a - clusterBase 0) / 0x1000000
  if clusterBase 0 ≤ a ∧ k < 12 ∧ within a n (clusterBase k) clusterSize = true then some k else none

/-- The core whose slot-fill window holds the first byte of `[a, a + n)`, where the range lies in slot-fill windows: those
of the 96 cores adjoin (R161). -/
def fillWindowOf (a n : Nat) : Option Nat :=
  let c := (a - slotFillBase 0) / 0x1000
  if slotFillBase 0 ≤ a ∧ c < 96 ∧ within a n (slotFillBase 0) (96 * 0x1000) = true then some c else none

/-- The cores whose slot-fill windows a range that begins in core `c`'s reaches. -/
def fillCores (c a n : Nat) : List Nat := (List.range ((a % 0x1000 + n + 0xFFF) / 0x1000)).map (c + ·)

/-- Does R161 allow an access to `[a, a + n)` at a site, but for the contact-sheet mailbox? -/
def State.inRange (s : State) (site a n : Nat) : Bool :=
  match siteKind site with
  | .stack =>
    (within a n 0 (s.scratch site) && !(meets a n (progArea s.rs site).1 (progArea s.rs site).2)) ||
    (clusterOf a n).isSome ||
    (match coreOf a n with
     | some c => decide (s.coreRole site c = 0)
     | none => false) ||
    (match fillWindowOf a n with
     | some c => (fillCores c a n).all fun x => decide (s.coreRole site x = 0)
     | none => false)
  | .bridge =>
    (within a n 0 hbmSize && !(meets a n (fixArea s.rs site).1 (fixArea s.rs site).2)) ||
    within a n accStoreBridge (accStoreSize - 16)
  | .engine => within a n 0 (accStoreSize - 16)
  | .guest => within a n 0 (2 ^ 43) && Config.guestRange site a n

/-- The window right that an access needs, by window bits (R440): an atomic needs both. -/
def State.hasRights (s : State) (site ctx a n : Nat) (rd wr : Bool) : Bool :=
  (!rd || inWindows s.rs ctx site 0 a n) && (!wr || inWindows s.rs ctx site 1 a n)

/-- Is an access a contact sheet to S12's mailbox (R161, R458)? -/
def sheetWrite (site op ctx a n : Nat) : Bool :=
  decide (site = 12) && decide (op = 0x01) && decide (ctx = 0) && decide (n = 256) &&
  within a n sheetBoxBase 0x2000 && decide (a % 256 = 0)

/-! ### Unit records -/

def State.stackAt (s : State) (k : Nat) : StackMem := SMap.get StackMem.idle s.stackMem k
def State.setStack (s : State) (k : Nat) (x : StackMem) : State :=
  { s with stackMem := SMap.set StackMem.idle s.stackMem k x }
def State.bridgeAt (s : State) (b : Nat) : BridgeMem := SMap.get BridgeMem.idle s.bridgeMem b
def State.setBridge (s : State) (b : Nat) (x : BridgeMem) : State :=
  { s with bridgeMem := SMap.set BridgeMem.idle s.bridgeMem b x }

/-- Does the domain hold at a site (R150)? -/
def State.holding (s : State) (i : Nat) : Bool := decide ((s.bellAt i).life = .held)

/-- A GRANARY_POLICY field, or its default. -/
def State.policy (s : State) (f : Rec → Nat) (d : Nat) : Nat := recField s.rs segGranary 1 anyRec f d

/-- GRANARY_EMPTY with the resource, the scope's site and index (R420). -/
def State.granaryEmpty (s : State) (site code scope index : Nat) : State :=
  s.raise site 0x0C05 [code, scope, index]

/-! ### Writes that meet at a port (R69, R154) -/

/-- A write is discarded for another issuer's: counted (R160), and reported with both issuers, the kept one first. -/
def State.conflictLost (s : State) (site : Nat) (first args : List Nat) : State :=
  (s.bump (Reg.GW_CONFLICT_CNT site) Fld.GW_CONFLICT_CNT_COUNT 1).raise site 0x0107 (first ++ args)

/-- A write meets another at its port, at a byte of one 32-byte granule: true where it is kept. The second of two
issuers is discarded, counted (R160), and SCHEDULE_VIOLATION votes, the kept write's issuer first. A port A write,
the MMA engine's of the core that owns the store, always wins (R69; log 8). -/
def State.conflict (s : State) (site o : Nat) (met : Meet) (args : List Nat) : State × Bool :=
  match met with
  | .alone => (s, true)
  | .portA =>
    let first := issuerArgs s.pkg site ((coreOf o 1).getD 0)
    (if first = args then s.raise site 0x0107 (first ++ args) else s.conflictLost site first args, false)
  | .kept pkg st issuer =>
    let first := issuerArgs pkg.toNat st.val issuer.toNat
    if first = args then (s, true) else (s.conflictLost site first args, false)

/-- The meetings of the granules of a write of `n` bytes at `a`: the granules that it loses. -/
def State.meetings (s : State) (site a n : Nat) (args : List Nat) (mets : Meets) : State × List Nat :=
  mets.foldl (fun (st : State × List Nat) (o, m) =>
    if !(meets (o / 32 * 32) 32 a n) then st else
    match st.1.conflict site o m args with
    | (s, true) => (s, st.2)
    | (s, false) => (s, o / 32 :: st.2)) (s, [])

/-- Write the bytes that the mask allows (0: all) and whose granule is not lost. -/
def State.writeKept (s : State) (site : Nat) (lost : List Nat) (all : Bool) (a mask : Nat) : List Byte → State
  | [] => s
  | b :: bs =>
    State.writeKept (if (all || decide (mask % 2 = 1)) && !(decide (a / 32 ∈ lost)) then s.writeMem site a [b] else s)
      site lost all (a + 1) (mask / 2) bs

/-- A write reaches its memory port: the granules that it loses to another write are discarded, the rest written
(R69, R154, R210). True: every byte is written. -/
def State.portWrite (s : State) (site a mask : Nat) (args : List Nat) (mets : Meets) (bs : List Byte) :
    State × Bool :=
  match s.meetings site a bs.length args mets with
  | (s, []) => (if mask = 0 then s.writeMem site a bs else s.writeMasked site a mask bs, true)
  | (s, lost) => (s.writeKept site lost (decide (mask = 0)) a mask bs, false)

/-! ### Frame groups (R163, R168, R169) -/

/-- Port of a line offset (R56, R165). -/
def portOf (a : Nat) : Nat := a / 256 % 64

/-- Count a parity mismatch in a frame group (R168); at FRAME_LIMIT it waits for retirement (R169). -/
def State.groupParity (s : State) (k port group : Nat) : State :=
  let s := s.bump (Reg.MEM_PARITY_CNT k) Fld.MEM_PARITY_CNT_COUNT 1
  let idx := 262144 * k + 4096 * port + group
  let s := s.wearUp 4 idx
  let x := s.stackAt k
  let key := 4096 * port + group
  if s.policy (·.u8 8) 2 ≤ s.wearGet 4 idx ∧ s.grnHas 13 k key = false ∧ key ∉ x.groups then
    s.setStack k { x with groups := x.groups ++ [key] }
  else s

/-- Parity mismatches of a site's accesses that are attributed to bond columns wear them (R424, R426). -/
def State.bondWear (s : State) (k : Nat) (flaws : Flaws) : State :=
  flaws.foldl (fun (s : State) f => match f.2 with
    | .bond u col => s.wearUp 2 (4096 * k + 36 * u.val + col.val)
    | _ => s) s

/-- Spare groups of a port in use. -/
def State.sparesUsed (s : State) (k port : Nat) : Nat :=
  (s.grn.filter fun kv => decide (grnKey 13 k (4096 * port) ≤ kv.1) &&
    decide (kv.1 < grnKey 13 k (4096 * port + 4096)) && decide (kv.2 < 0x100)).length

/-! ### The cache (R165 to R168) -/

/-- Frames of scratch per port. -/
def State.scratchFrames (s : State) (k : Nat) : Nat := s.scratch k / 16384

/-- Cache sets per port. -/
def State.cacheSets (s : State) (k : Nat) : Nat :=
  s.getF (Reg.MEM_CACHE_CFG k) Fld.MEM_CACHE_CFG_SETS

/-- The set of a line (R165). -/
def State.cacheSet (s : State) (k b a : Nat) : Nat := (a / 16384 + 4099 * (b - 8)) % s.cacheSets k

/-- Key of the line in a way. -/
def lineKey (port set way : Nat) : Nat := (65536 * port + set) * 16 + way

/-- Is a set disabled (R169)? -/
def State.setDisabled (s : State) (k port set : Nat) : Bool :=
  decide (s.grnGet 13 k (4096 * port + s.scratchFrames k / 16 + set) 0 = 0x100)

/-- Is the line in a window that MEMPLAN marks as cached for the stack? -/
def State.cachedFor (s : State) (k ctx b a : Nat) : Bool :=
  decide (0 < s.cacheSets k) && (recsOf s.rs segMem 3).any fun r =>
    decide (r.u8 8 = ctx) && decide (r.u8 9 = b) && decide (r.u8 10 / 2 ^ k % 2 = 1) &&
    decide (r.u64 16 ≤ a) && decide (a < r.u64 16 + r.u64 24)

/-- The key of a line that is present, for a context. -/
def State.cacheFind (s : State) (k ctx b a : Nat) : Option Nat :=
  let port := portOf a
  let set := s.cacheSet k b a
  if s.setDisabled k port set then none else
  ((List.range 16).map (lineKey port set)).find? fun key =>
    match ((s.stackAt k).lines.find? fun kv => decide (kv.1 = key)) with
    | some (_, l) => decide (l.bridge = b) && decide (l.line = a / 256) && decide (l.ctx = ctx)
    | none => false

/-- Follow or set the tree bits towards a way: bit `n` of the 15 tells the side of node `n` used last.
Nodes are numbered from 1. -/
def plruTouch (bits way : Nat) : Nat :=
  ((List.range 4).foldl (fun (st : Nat × Nat) d =>
    let side := way / 2 ^ (3 - d) % 2
    (setBit st.1 st.2 (decide (side = 1)), 2 * st.2 + side)) (bits, 1)).1

/-- The way on the side not used last at every node. -/
def plruVictim (bits : Nat) : Nat :=
  (List.range 4).foldl (fun n _ => 2 * n + (1 - bits / 2 ^ n % 2)) 1 - 16

/-- Mark a way as used last. A set starts with tree bits of 0 (log 44). -/
def State.cacheTouch (s : State) (k key : Nat) : State :=
  let x := s.stackAt k
  s.setStack k { x with plru := SMap.set 0 x.plru (key / 16) (plruTouch (SMap.get 0 x.plru (key / 16)) (key % 16)) }

/-- Allocate a line: the lowest empty way (log 44), or the pseudo-LRU victim (R165). -/
def State.cacheFill (s : State) (k ctx b a : Nat) (data : List Byte) : State :=
  let port := portOf a
  let set := s.cacheSet k b a
  if !(s.cachedFor k ctx b a) || s.setDisabled k port set || (s.cacheFind k ctx b a).isSome then s else
  let x := s.stackAt k
  let free := (List.range 16).find? fun w => !(x.lines.any fun kv => decide (kv.1 = lineKey port set w))
  let w := free.getD (plruVictim (SMap.get 0 x.plru (65536 * port + set)))
  let key := lineKey port set w
  (s.setStack k { x with lines := SMap.put key ⟨b, a / 256, ctx, data⟩ x.lines }).cacheTouch k key

/-- Drop the lines of a cache that satisfy a test. -/
def State.cacheDrop (s : State) (k : Nat) (p : CacheLine → Bool) : State :=
  let x := s.stackAt k
  s.setStack k { x with lines := x.lines.filter fun kv => !(p kv.2) }

/-- The bytes `old` at `la` with the bytes `bs` at `a` laid over them where the mask allows (R210). -/
def overlay (la : Nat) (old : List Byte) (a mask : Nat) (bs : List Byte) : List Byte :=
  old.zipIdx.map fun (v, j) =>
    let o := la + j
    if within o 1 a bs.length && (decide (mask = 0) || decide (mask / 2 ^ (o - a) % 2 = 1)) then
      bs.getD (o - a) v
    else v

/-- The purpose of a fetch of a line that its stack writes meanwhile: the line is not allocated when it comes (log 48). -/
def unkept (pkg b a n : Nat) (w : Purpose) : Purpose :=
  let hit := fun (g : Nat) => decide (gPkg g = pkg) && decide (gSite g = b) && meets (gOff g) 256 a n
  match w with
  | .cacheRead c serial dst spec g lo m => .cacheRead c serial dst spec (if hit g then 0 else g) lo m
  | .xferLine id off g lo m => .xferLine id off (if hit g then 0 else g) lo m
  | w => w

/-- The lines that a stack is fetching as it writes them are not allocated when they come: what comes may be older than the
write, and no hit may change a result (R165; log 48). -/
def State.unkeep (s : State) (k b a n : Nat) : State :=
  let g := s.gw k
  if g.tags.any fun kv => decide (unkept s.pkg b a n kv.2.purpose ≠ kv.2.purpose) then
    s.setGw k { g with tags := g.tags.map fun kv => (kv.1, { kv.2 with purpose := unkept s.pkg b a n kv.2.purpose }) }
  else s

/-- A write issued at the caching stack updates a present line (R165). -/
def State.cacheWrite (s : State) (k ctx b a : Nat) (mask : Nat) (bs : List Byte) : State :=
  (List.range ((a % 256 + bs.length + 255) / 256)).foldl (fun (s : State) i =>
    let la := (a / 256 + i) * 256
    if !(s.cachedFor k ctx b la) then s else
    match s.cacheFind k ctx b la with
    | none => s
    | some key =>
      let x := s.stackAt k
      let lines := x.lines.map fun kv =>
        if kv.1 = key then (kv.1, { kv.2 with data := overlay la kv.2.data a mask bs }) else kv
      s.setStack k { x with lines := lines }) (s.unkeep k b a bs.length)

/-- What a lookup answers. -/
inductive Looked where
  | miss | hit (bs : List Byte) | bad
  deriving DecidableEq, Repr

/-- A lookup of `n` bytes of one line (R165, R168): a hit counts and is served, a parity mismatch
invalidates the line and fails the read. -/
def State.cacheLook (s : State) (k ctx b a n : Nat) (flaws : Flaws) : State × Looked :=
  match s.cacheFind k ctx b a with
  | none => (s.bump (Reg.MEM_CACHE_MISS k) Fld.MEM_CACHE_MISS_COUNT 1, .miss)
  | some key =>
    match (s.stackAt k).lines.find? (fun kv => decide (kv.1 = key)) with
    | none => (s, .miss)
    | some (_, l) =>
      let s := s.bump (Reg.MEM_CACHE_HIT k) Fld.MEM_CACHE_HIT_COUNT 1
      if flaws.any fun f => decide (a ≤ f.1) && decide (f.1 < a + n) then
        let s := s.bondWear k (flaws.filter fun f => decide (a ≤ f.1) && decide (f.1 < a + n))
        let s := s.groupParity k (portOf a) (s.scratchFrames k / 16 + key / 16 % 65536)
        let x := s.stackAt k
        ((s.setStack k { x with lines := SMap.del key x.lines }).raiseStatus k stParity [], .bad)
      else (s.cacheTouch k key, .hit ((l.data.drop (a % 256)).take n))

/-- CACHE_INVALIDATION (R167): the oldest invalidation for a caching stack arrives; its line goes in
every context, and the bridge acknowledges the write once every stack has answered. -/
def State.invalidate (s : State) (p : InvPend) : State :=
  let hits := ((s.stackAt p.stack).lines.filter fun kv =>
    decide (kv.2.bridge = p.bridge) && decide (kv.2.line = p.line)).length
  let s := s.cacheDrop p.stack fun l => decide (l.bridge = p.bridge) && decide (l.line = p.line)
  s.bump (Reg.MEM_CACHE_INV p.stack) Fld.MEM_CACHE_INV_COUNT hits

/-- Remove the first element with a property. -/
def dropOne {α : Type} (p : α → Bool) : List α → List α
  | [] => []
  | x :: xs => if p x then xs else x :: dropOne p xs

/-- Send the acknowledgements whose invalidations are all done. -/
def State.sendInvAcks (s : State) : State :=
  let done := s.invAcks.filter fun a => !(s.invPend.any fun p => decide (p.id = a.id))
  let s := { s with invAcks := s.invAcks.filter fun a => s.invPend.any fun p => decide (p.id = a.id) }
  done.foldl (fun (s : State) a => s.send a.site a.pkt) s

/-- CACHE_INVALIDATION (R167). -/
def execCacheInvalidation (k : Stack) (s : State) : Out :=
  match s.invPend.find? (fun p => decide (p.stack = k.val)) with
  | none => .next s
  | some p =>
    let s := { s with invPend := dropOne (fun q : InvPend => decide (q.stack = k.val)) s.invPend }
    .next (s.invalidate p).sendInvAcks

/-- The stacks that cache some context's window at a byte of a bridge. -/
def State.cachingStacks (s : State) (b a : Nat) : List Nat :=
  (List.range 8).filter fun k => (recsOf s.rs segMem 3).any fun r =>
    decide (r.u8 9 = b) && decide (r.u8 10 / 2 ^ k % 2 = 1) &&
    decide (r.u64 16 ≤ a) && decide (a < r.u64 16 + r.u64 24)

/-- The invalidations that a write to a bridge by no bell program starts (R167); they answer to `id`. -/
def State.startInvs (s : State) (b a n id : Nat) : State :=
  let lines := (List.range ((a % 256 + n + 255) / 256)).map fun i => a / 256 + i
  let ps := lines.flatMap fun l => (s.cachingStacks b (l * 256)).map fun k => (⟨id, k, b, l⟩ : InvPend)
  { s with invPend := s.invPend ++ ps }

/-- A write to a bridge by no bell program that completes within its row: every caching stack has dropped the lines by
then (R167; log 11). -/
def State.invNow (s : State) (b a n : Nat) : State :=
  let lines := (List.range ((a % 256 + n + 255) / 256)).map fun i => a / 256 + i
  (lines.flatMap fun l => (s.cachingStacks b (l * 256)).map fun k => (⟨0, k, b, l⟩ : InvPend)).foldl
    (fun (s : State) p => s.invalidate p) s

/-- FRAME_GROUP_RETIRE (R169): a waiting frame group is retired in a guard interval or a hold; `bad` are
the byte offsets of the 4 KiB copy that fail parity. A copy that is abandoned for one leaves the group for a hold. -/
def execFrameGroupRetire (k : Stack) (port : Fin 64) (group : Fin 4096) (bad : List Nat) (s : State) :
    Out :=
  let x := s.stackAt k
  let key := 4096 * port.val + group.val
  let hold := s.holding k
  if key ∉ x.groups ∨ !((s.bellAt k).guard || hold) then .next s else
  let scratch := decide (16 * group.val < s.scratchFrames k)
  if !hold && decide (key ∈ x.held) then .next s else
  if scratch && !hold && decide (bad ≠ []) then .next (s.setStack k { x with held := x.held ++ [key] }) else
  let used := s.sparesUsed k port
  let s := s.setStack k { x with
    groups := x.groups.filter fun g => decide (g ≠ key)
    held := x.held.filter fun g => decide (g ≠ key) }
  let s := if scratch then s else
    let set := group.val - s.scratchFrames k / 16
    let x := s.stackAt k
    s.setStack k { x with lines := x.lines.filter fun kv => decide (kv.1 / 16 ≠ 65536 * port.val + set) }
  if 32 ≤ used then
    if scratch then .next ((s.grnPut 13 k key 0x200).raise k 0x0406 [port, group])
    else .next ((s.grnPut 13 k key 0x100).raise k 0x0405 [port, group])
  else
    let s := s.grnPut 13 k key used
    let s := if used = 31 then s.granaryEmpty k 11 k port else s
    if scratch && decide (bad ≠ []) then
      let s := bad.foldl (fun (s : State) i =>
        s.writeMem k ((16 * group.val + i / 256 % 16) * 16384 + port.val * 256 + i % 256) [0]) s
      .next (s.raise k 0x0401 [port, group])
    else .next s

/-! ### HBM3E reads and page retirement (R173, R174) -/

/-- The page of an HBM3E offset. -/
def pageOf (a : Nat) : Nat := a / 8192

/-- Entries of a retirement list that are taken: retired ones and queued ones. -/
def State.retireTaken (s : State) (b i : Nat) : Bool :=
  s.grnHas 14 b i || (s.bridgeAt b).queue.any fun q => decide (q.entry = i)

/-- The entry that a page already holds, or the lowest empty one. -/
def State.retireEntry (s : State) (b page : Nat) : Option Nat :=
  match s.grn.find? (fun kv => decide (grnKey 14 b 0 ≤ kv.1) && decide (kv.1 < grnKey 14 b 4096) &&
      decide (kv.2 / 2 ^ 32 % 2 ^ 30 = page)) with
  | some kv => some (kv.1 - grnKey 14 b 0)
  | none => (List.range 4096).find? fun i => !(s.retireTaken b i)

/-- Arguments that name a page in an event (log 8). -/
def pageArgs (page lines : Nat) : List Nat :=
  [page % 2 ^ 16, page / 2 ^ 16, lines % 2 ^ 16, lines / 2 ^ 16]

/-- Make room in a full correction table: drop the lowest count among pages not marked (R426). -/
def evictNote (ns : List PageNote) : List PageNote :=
  if ns.length < 1024 then ns else
  match (ns.filter (fun n => !n.marked)).foldl (fun (m : Option PageNote) n => match m with
      | none => some n
      | some x => if n.count < x.count then some n else some x) none with
  | some x => dropOne (fun n => decide (n = x)) ns
  | none => ns

/-- Queue a page (R174); a full queue marks it in the correction table, a full list leaves it in
service. -/
def State.queuePage (s : State) (b page : Nat) (uncorr : Bool) : State :=
  let x := s.bridgeAt b
  if x.queue.any (fun q => decide (q.page = page)) then
    s.setBridge b { x with queue := x.queue.map fun q =>
      if q.page = page then { q with uncorr := q.uncorr || uncorr } else q }
  else if x.notes.any (fun n => decide (n.page = page) && n.marked) then
    s.setBridge b { x with notes := x.notes.map fun n =>
      if n.page = page then { n with uncorr := n.uncorr || uncorr } else n }
  else if 255 ≤ x.queue.length then
    let old := x.notes.find? fun n => decide (n.page = page)
    let rest := x.notes.filter fun n => decide (n.page ≠ page)
    let room := evictNote rest
    let note : PageNote := ⟨page, (old.map (·.count)).getD 0, true, uncorr⟩
    let s := if room.length < 1024 then s.setBridge b { x with notes := room ++ [note] } else s
    s.raise b 0x0407 (pageArgs page 0)
  else
    match s.retireEntry b page with
    | none => s.raise b 0x0403 (pageArgs page 0)
    | some e => s.setBridge b { x with queue := x.queue ++ [⟨page, e, uncorr⟩] }

/-- Count a corrected read of a page; at PAGE_LIMIT the page is queued (R173). The count stays as it is when the page is
queued or retired (log 44). -/
def State.correctedRead (s : State) (b page : Nat) : State :=
  let s := s.bump (Reg.MEM_ECC_CORR b) Fld.MEM_ECC_CORR_COUNT 1
  let x := s.bridgeAt b
  let notes := if x.notes.any (fun n => decide (n.page = page)) then
      x.notes.map fun n => if n.page = page then { n with count := n.count + 1 } else n
    else
      let room := evictNote x.notes
      if room.length < 1024 then room ++ [⟨page, 1, false, false⟩] else room
  let s := s.setBridge b { x with notes := notes }
  if notes.any (fun n => decide (n.page = page) && decide (s.policy (·.u16 10) 8 ≤ n.count)) then
    s.queuePage b page false
  else s

/-- Count bytes moved at a bridge's stack (MEM_HBM_BYTES). -/
def State.hbmMoved (s : State) (b n : Nat) : State :=
  let x := s.bridgeAt b
  s.setBridge b { x with moved := x.moved + n }

/-- The severity reports of a read: counts, and pages queued (R173). -/
def State.severity (s : State) (b : Nat) (here : Flaws) : State :=
  here.foldl (fun (s : State) f => match f.2 with
    | .corrected => s.correctedRead b (pageOf f.1)
    | .uncorrectable =>
      (s.bump (Reg.MEM_ECC_UNCORR b) Fld.MEM_ECC_UNCORR_COUNT 1).queuePage b (pageOf f.1) true
    | _ => s) s

/-- A bridge acts on the severity reports of a read (R173); a status means that the read failed. -/
def State.hbmRead (s : State) (b a n : Nat) (flaws : Flaws) (args : List Nat) : State × Option Nat :=
  let here := flaws.filter fun f => decide (a ≤ f.1) && decide (f.1 < a + n)
  let s := (s.hbmMoved b n)
  let s := s.severity b here
  if here.any (fun f => decide (f.2 = .uncorrectable)) then (s.raiseStatus b stHbm args, some stHbm)
  else if here.any (fun f => decide (f.2 ≠ .corrected)) then (s.raiseStatus b stParity args, some stParity)
  else (s, none)

/-- Count core-store parity mismatches and report them: each votes, the read still delivers (R66,
R70). -/
def State.coreStoreParity (s : State) (k c n : Nat) : State :=
  if n = 0 then s
  else ((s.bump (Reg.CORE_PARITY_CNT k c) Fld.CORE_PARITY_CNT_COUNT n).coreFault k c [])

/-- The checks of a read at a site (R66, R70, R168, R173): counts and reports are made; a status means
that a scratch or HBM3E read failed. `leaves` says that the bytes leave the site, where any parity
failure fails the transaction (R66). -/
def State.readCheck (s : State) (site a n : Nat) (flaws : Flaws) (leaves : Bool) (args : List Nat) :
    State × Option Nat :=
  if siteKind site = .bridge ∧ a < hbmSize then s.hbmRead site a n flaws args else
  let here := flaws.filter fun f => decide (a ≤ f.1) && decide (f.1 < a + n)
  if here = [] then (s, none) else
  if siteKind site = .stack ∧ a < 2 ^ 30 then
    let s := here.foldl (fun (s : State) f => s.groupParity site (portOf f.1) (f.1 / 16384 / 16))
      (s.bondWear site here)
    (s.raiseStatus site stParity args, some stParity)
  else
    match (if siteKind site = .stack then coreOf a n else none) with
    | some c => (s.coreStoreParity site c here.length, if leaves then some stParity else none)
    | none => (s.raiseStatus site stParity args,
        if leaves || decide (siteKind site ≠ .stack) then some stParity else none)

/-- A page that left the queue lets the first marked page in (R174). -/
def State.nextMarked (s : State) (b : Nat) : State :=
  let x := s.bridgeAt b
  match x.notes.find? (fun n => n.marked) with
  | none => s
  | some n =>
    let s := s.setBridge b { x with notes := x.notes.map fun m =>
      if m.page = n.page then { m with marked := false, uncorr := false } else m }
    s.queuePage b n.page n.uncorr

/-- The LOST entries of a bridge's retirement list. -/
def State.lostEntries (s : State) (b : Nat) : Nat :=
  (s.grn.filter fun kv => decide (grnKey 14 b 0 ≤ kv.1) && decide (kv.1 < grnKey 14 b 4096) &&
    decide (kv.2 / 2 ^ 62 % 2 = 1)).length

/-- Retire a queued page (R174): its lines are copied, 8 KiB read and 8 KiB written (R179), and it is redirected, its
uncorrectable lines written as 0 and marked LOST. -/
def State.retirePage (s : State) (b : Nat) (q : PageQueued) (lines : Nat) : State :=
  let x := s.bridgeAt b
  let fresh := !(s.grnHas 14 b q.entry)
  let s := s.setBridge b { x with queue := x.queue.filter fun p => decide (p.page ≠ q.page) }
  let s := s.hbmMoved b 16384
  let s := s.grnPut 14 b q.entry (lines + q.page * 2 ^ 32 + (if lines = 0 then 0 else 2 ^ 62))
  let s := (List.range 32).foldl (fun (s : State) i =>
    if lines / 2 ^ i % 2 = 1 then s.zeroMem b (q.page * 8192 + 256 * i) 256 else s) s
  let s := if lines = 0 then s else s.raise b 0x0402 (pageArgs q.page lines)
  let full := (List.range 4096).all fun i => s.grnHas 14 b i
  let s := if fresh && full then s.granaryEmpty b 12 b 0 else s
  s.nextMarked b

/-- PAGE_RETIRE (R174): the bridge copies a queued page in a guard interval, at most one a bell, or in a
hold; `bad` is the mask of lines that read as uncorrectable. -/
def execPageRetire (b : Bridge) (bad : BitVec 32) (s : State) : Out :=
  let i := bridgeSite b
  let x := s.bridgeAt i
  let t := s.bellAt i
  if s.holding i then
    match x.queue with
    | [] => .next s
    | q :: _ => .next (s.retirePage i q bad.toNat)
  else if t.guard && decide (SMap.get 0 s.pageBell i ≠ t.bell + 1) then
    match x.queue.find? (fun q => !q.uncorr) with
    | none => .next s
    | some q =>
      let s := { s with pageBell := SMap.set 0 s.pageBell i (t.bell + 1) }
      if bad.toNat = 0 then .next (s.retirePage i q 0)
      else .next ((s.setBridge i { x with queue := x.queue.map fun p =>
          if p.page = q.page then { p with uncorr := true } else p }).hbmMoved i 8192)
  else .next s

/-- Clear every LOST bit and COMMIT_LOST of a bridge (R174, R177, R179). -/
def State.ackMemLost (s : State) (b : Nat) : State :=
  let grn := s.grn.map fun kv =>
    if grnKey 14 b 0 ≤ kv.1 ∧ kv.1 < grnKey 14 b 4096 ∧ kv.2 / 2 ^ 62 % 2 = 1 then (kv.1, kv.2 - 2 ^ 62)
    else kv
  let s := if grn = s.grn then s else { s with grn := grn }.mapChanged
  s.setF (Reg.MEM_HBM_STATUS b) Fld.MEM_HBM_STATUS_COMMIT_LOST 0

/-- MEM_ACK_LOST (R179). -/
def execMemAckLost (b : Bridge) (s : State) : Out := .next (s.ackMemLost (bridgeSite b))

/-! ### The fix area (R144, R176, R177) -/

/-- Bytes that an entry takes in the log. -/
def FixEntry.size (e : FixEntry) : Nat := 64 + e.bytes.length

/-- Reclaim the log from its oldest end. -/
def fixReclaim : List FixEntry → List FixEntry
  | [] => []
  | e :: es => if e.done then fixReclaim es else e :: es

/-- Bytes of the log in use. -/
def fixUsed (es : List FixEntry) : Nat := (es.map FixEntry.size).sum

/-- Put a bridge's log, and MEM_FIX_USED with it. -/
def State.setFix (s : State) (b : Nat) (es : List FixEntry) : State :=
  let s := s.setBridge b { s.bridgeAt b with fix := es }
  let now := (fixUsed es + 131071) / 131072
  let a := Reg.MEM_FIX_USED b
  let s := s.setF a Fld.MEM_FIX_USED_NOW now
  s.setF a Fld.MEM_FIX_USED_PEAK (max now (s.getF a Fld.MEM_FIX_USED_PEAK))

/-- The entry that a bridge's log takes next. -/
def State.fixNext (s : State) (b bell off : Nat) (bytes : List Byte) : FixEntry :=
  ⟨(s.bridgeAt b).tail, bell, off, bytes, false⟩

/-- The next entry follows in the circular log. -/
def State.fixTail (s : State) (b n : Nat) : State :=
  s.setBridge b { s.bridgeAt b with tail := ((s.bridgeAt b).tail + n) % max 1 (fixArea s.rs b).2 }

/-- An entry joins the log; its bytes are written to the stack (R176, R179). -/
def State.fixTake (s : State) (b : Nat) (e : FixEntry) : State :=
  ((s.setFix b ((s.bridgeAt b).fix ++ [e])).fixTail b e.size).hbmMoved b e.size

/-- Append an entry, or nothing where it does not fit (R176). -/
def State.fixAppend (s : State) (b bell off : Nat) (bytes : List Byte) : Option State :=
  let e := s.fixNext b bell off bytes
  if fixUsed (s.bridgeAt b).fix + e.size ≤ (fixArea s.rs b).2 then some (s.fixTake b e) else none

/-- Discard every entry of bell `n` or later (R176). -/
def State.fixDiscard (s : State) (b n : Nat) : State :=
  let es := (s.bridgeAt b).fix
  if es.isEmpty then s else
  s.setFix b (fixReclaim (es.map fun e => if n ≤ e.bell then { e with done := true } else e))

/-- Do two entries of the log overlap in their targets? -/
def FixEntry.overlaps (e o : FixEntry) : Bool := meets e.off e.bytes.length o.off o.bytes.length

/-- The number of entries of a list that overlap the range of entry `e`, itself among them. -/
def fixOverlaps (es : List FixEntry) (e : FixEntry) : Nat := (es.filter e.overlaps).length

/-- The conflicts of a list of entries: the pairs that overlap (R144, R160; log 44). -/
def fixConflicts : List FixEntry → Nat
  | [] => 0
  | e :: es => (es.filter e.overlaps).length + fixConflicts es

/-- What an apply read of an entry meets: its bytes lie in the fix area, which goes round (R173, R176). -/
def State.fixFlaws (s : State) (b : Nat) (e : FixEntry) (flaws : Flaws) : Flaws :=
  let (base, size) := fixArea s.rs b
  flaws.filter fun f => decide (base ≤ f.1) && decide (f.1 < base + size) &&
    decide ((f.1 - base + size - e.pos) % size < e.size)

/-- An entry is read from the log and applied (R144, R176), unless its read is uncorrectable (R177). -/
def State.fixApplyOne (s : State) (b : Nat) (flaws : Flaws) (e : FixEntry) : State :=
  let mine := s.fixFlaws b e flaws
  let s := (s.severity b mine).hbmMoved b e.size
  if mine.any fun f => decide (f.2 = .uncorrectable) then
    (s.setF (Reg.MEM_HBM_STATUS b) Fld.MEM_HBM_STATUS_COMMIT_LOST 1).raise b 0x0404 (pageArgs (pageOf e.off) 0)
  else (s.writeMem b e.off e.bytes).hbmMoved b e.bytes.length

/-- The conflicts of a bell's entries are counted and reported (R144, R160). -/
def State.fixClash (s : State) (b n : Nat) : State :=
  if n = 0 then s else (s.bump (Reg.GW_CONFLICT_CNT b) Fld.GW_CONFLICT_CNT_COUNT n).raise b 0x0107 []

/-- Apply the entries of bell `n` in log order (R144, R176): overlapping entries are not applied and
report. `flaws` is what the apply reads meet (R173, R177). -/
def State.fixApply (s : State) (b n : Nat) (flaws : Flaws) : State :=
  let es := (s.bridgeAt b).fix
  if es.isEmpty then s else
  let mine := es.filter fun e => decide (e.bell = n) && !e.done
  let s := (mine.filter fun e => decide (fixOverlaps mine e = 1)).foldl (fun (s : State) e => s.fixApplyOne b flaws e) s
  let s := s.fixClash b (fixConflicts mine)
  s.setFix b (fixReclaim ((s.bridgeAt b).fix.map fun e =>
    if e.bell = n then { e with done := true } else e))

/-! ### Accesses on the issuing site (R24, R161, R162, R440) -/

/-- What an access of a context to its own site fails with: SITE_FENCED while the site is not live, WINDOW_DENIED
outside R161 or without the window right, or for a read of a slot-fill window (R24, R161, R162, R440). A write to a
slot-fill window is judged by its core. -/
def State.ownFails (s : State) (k ctx a n : Nat) (rd wr : Bool) : Option Nat :=
  if !(s.live k) then some stFenced
  else if !(s.inRange k a n) then some stWindow
  else if siteKind k = .stack ∧ (fillWindowOf a n).isSome = true then (if rd then some stWindow else none)
  else if s.hasRights k ctx a n rd wr then none
  else some stWindow

/-- Count and report a refused write to a slot-fill window (R117). -/
def State.fillRefused (s : State) (k c why : Nat) : State :=
  (s.bump (Reg.CORE_DYN_STATUS k c) Fld.CORE_DYN_STATUS_REFUSED 1).raise k 0x0203 [c, why]

end Sys2Proof.Machine
end

