-- ==== Sys2Proof/Machine/Sequencer.lean ====
section
/-!
DEFINITION. The descriptor sequencer (04): descriptor fields, which descriptor is next, when it may
issue, issue, completion and failure, run-ahead, confirmation and squash, sending the pieces of a
transfer, and the trace of R463.
-/

namespace Sys2Proof.Machine

open Sys2Proof

/-- Bits `[hi:lo]` of a descriptor (R90). -/
def df (d : BitVec 512) (hi lo : Nat) : Nat := d.toNat / 2 ^ lo % 2 ^ (hi + 1 - lo)

/-- OP of a descriptor (R90, R92). -/
def dOp (d : BitVec 512) : Nat := df d 7 0
/-- DONE token reference (R90). -/
def dDone (d : BitVec 512) : Nat := df d 19 8

/-- Clock region of a core's cluster (R350). -/
def coreRegion (k c : Nat) : Nat := 24 * k + c / 8

/-- Matrix-clock cycles of a core since its bell began: those run up to the region's last change of
frequency, then village time at its frequency, less the time of its stretches (R74, R355, R358). FREQ counts
50 MHz. -/
def State.cycle (s : State) (k c : Nat) : Nat :=
  let r := coreRegion k c
  let x := SMap.get RegionSt.idle s.regions r
  let ns := s.vt - max x.since ((s.bellAt k).began s.rs)
  let f := s.getF (Reg.CLK_REGION_STATUS r) Fld.CLK_REGION_STATUS_FREQ
  (x.cyc8 + ns * f * 8 / 20 - x.eighths) / 8

/-- The program a core runs in this bell (R86). -/
def State.coreProg (s : State) (k c : Nat) : Option Rec :=
  let x := s.core k c
  programRec s.rs x.ctx k c x.phase

/-- Position in a list of the first element with a property. -/
def findPos {α : Type} (p : α → Bool) : List α → Nat → Option Nat
  | [], _ => none
  | x :: xs, i => if p x then some i else findPos p xs (i + 1)

/-- The slot at a descriptor index of a program, if it is one (R115). -/
def slotAt (r : Rec) (idx : Nat) : Option Nat :=
  findPos (fun sl => decide (sl.1 = idx)) (progSlots r) 0

/-- The fill accepted last for a bell and slot (R118; of two accepted for one, the last runs: DESIGN CHOICE, log 48). -/
def fillFor (x : CoreSt) (bell slot : Nat) : Option Fill :=
  (x.fills.filter fun f => decide (f.bell = bell) && decide (f.slot = slot)).getLast?

/-- The descriptor at an index in this bell: the program's, or the slot's fill (R118). -/
def State.descAt (s : State) (k c idx : Nat) : Option (BitVec 512) :=
  match s.coreProg k c with
  | none => none
  | some r =>
    if idx < progLen r then
      match slotAt r idx with
      | none => some (progDesc r idx)
      | some sl =>
        match fillFor (s.core k c) (s.bellAt k).bell sl with
        | some f => some f.desc
        | none => none
    else none

/-- The descriptor that the sequencer would issue next, if it has one (R113). -/
def State.nextDesc (s : State) (k c : Nat) : Option (BitVec 512) :=
  let x := s.core k c
  if x.running && !x.halted && !x.parityStop && !x.atEnd && !x.retired then s.descAt k c x.pc else none

/-- Where a MOVE's ends lie (R99). -/
inductive MoveClass where
  | read | write | local_
  deriving DecidableEq, Repr

/-- Is a global address on the issuing site? -/
def State.onSite (s : State) (k g : Nat) : Bool := decide (gPkg g = s.pkg) && decide (gSite g = k)

/-- The class of a MOVE descriptor (R98, R99). -/
def State.moveClass (s : State) (k : Nat) (d : BitVec 512) : MoveClass :=
  if df d 34 34 = 1 then .write
  else if !(s.onSite k (df d 127 64)) then .read
  else if !(s.onSite k (df d 191 128)) then .write
  else .local_

/-- The FENCE class bit of a descriptor (R105): 0 MMA, 1 VEC, 2 reads and local moves, 3 writes, REDUCE
and COMMIT_WRITE, 4 SIGNAL; 5 for the rest. -/
def State.fenceClass (s : State) (k : Nat) (d : BitVec 512) : Nat :=
  if dOp d = 1 then 0 else if dOp d = 2 then 1
  else if dOp d = 3 then (if s.moveClass k d = .write then 3 else 2)
  else if dOp d = 4 ∨ dOp d = 9 then 3
  else if dOp d = 5 then 4 else 5

/-- Is a descriptor of the kinds that are in flight up to 32 at a time (R113)? -/
def flightKind (op : Nat) : Bool := decide (op = 3) || decide (op = 4) || decide (op = 5) || decide (op = 9)

/-- May this descriptor issue while a BRANCH is unresolved (R92)? -/
def State.runAheadOk (s : State) (k : Nat) (d : BitVec 512) : Bool :=
  match dOp d with
  | 3 => s.onSite k (df d 191 128) && decide (df d 34 34 = 0)
  | 6 => decide (df d 44 44 = 0)
  | 7 => true
  | 8 => true
  | _ => false

/-- Do the flights hold a younger descriptor: an unsatisfied WAIT or a pending FENCE (R103, R105)? -/
def CoreSt.holds (x : CoreSt) : Bool :=
  x.flights.any fun f => !f.complete && (decide (dOp f.desc = 6) || decide (dOp f.desc = 8))

/-- A flight of a core by serial number. -/
def CoreSt.flight (x : CoreSt) (serial : Nat) : Option Flight := x.flights.find? fun f => decide (f.serial = serial)

/-- Replace a flight. -/
def CoreSt.setFlight (x : CoreSt) (f : Flight) : CoreSt :=
  { x with flights := x.flights.map fun g => if g.serial = f.serial then f else g }

/-- The WAIT that a core stands at. -/
def CoreSt.waiting (x : CoreSt) : Option Flight :=
  x.flights.find? fun f => decide (dOp f.desc = 6) && !f.complete

/-- May the descriptor issue now (R113, R119, R128)? -/
def State.canIssue (s : State) (k c : Nat) (d : BitVec 512) : Bool :=
  let x := s.core k c
  s.mayIssue k && decide (s.coreRole k c = 0) && !x.holds &&
  (!(flightKind (dOp d)) || decide ((x.flights.filter fun f => flightKind (dOp f.desc)).length < 32)) &&
  (x.branches.isEmpty || (s.runAheadOk k d && decide (x.runAhead < 64))) &&
  (decide (dOp d ≠ 7) || decide (x.branches.length < 4)) &&
  (decide (dOp d ≠ 5) || decide (df d 44 44 = 0) ||
    !(x.flights.any fun f => decide (s.fenceClass k f.desc = 3)))

/-- The next descriptor, if it is of operation `op` and may issue. -/
def State.ready (s : State) (k c op : Nat) : Option (BitVec 512) :=
  match s.nextDesc k c with
  | some d => if dOp d = op ∧ s.canIssue k c d = true then some d else none
  | none => none

/-- Bring the sequencer's registers up to date (R125). -/
def State.syncSeq (s : State) (k c : Nat) : State :=
  let x := s.core k c
  let a := Reg.CORE_SEQ_PC k c
  let s := s.setF a Fld.CORE_SEQ_PC_PC x.pc
  let s := s.setF a Fld.CORE_SEQ_PC_UNRESOLVED x.branches.length
  let s := s.setF a Fld.CORE_SEQ_PC_RUNAHEAD x.runAhead
  let st := if x.halted then 4 else if x.retired ∨ x.atEnd then 3
    else if x.running then (if x.flights.any fun f => decide (dOp f.desc = 6) && !f.complete then 2 else 1) else 0
  let s := s.setF (Reg.CORE_STATUS k c) Fld.CORE_STATUS_STATE st
  s.setF (Reg.CORE_STATUS k c) Fld.CORE_STATUS_CTX (if x.running then x.ctx else 0)

/-- Stop counting a wait and add its cycles (R84, R118). -/
def State.endWait (s : State) (k c : Nat) : State :=
  let x := s.core k c
  match x.waitFrom with
  | none => s
  | some w => s.setCore k c { x with waitFrom := none, waitCyc := x.waitCyc + (s.cycle k c - w) }

/-- Start counting a wait if the sequencer stands at an unfilled dynamic slot (R118). -/
def State.slotWait (s : State) (k c : Nat) : State :=
  let x := s.core k c
  match s.coreProg k c with
  | none => s
  | some r =>
    if x.running && (slotAt r x.pc).isSome && (s.descAt k c x.pc).isNone && x.waitFrom.isNone then
      s.setCore k c { x with waitFrom := some (s.cycle k c) }
    else s

/-- The bytes of a trace record (R463). -/
def traceBytes (time core event op bell index : Nat) : List Byte :=
  leBytes 8 time ++ leBytes 1 core ++ leBytes 1 event ++ leBytes 1 op ++ leBytes 1 (bell % 256) ++
  leBytes 2 index ++ leBytes 2 0

/-- A WRITE of one granule-aligned run, of at most one packet, by an issuer other than a sequencer:
the LAST packet of a transfer of its own (log 7). -/
def State.dmaWrite (s : State) (site issuer vc ctx g : Nat) (mask : Nat) (bs : List Byte)
    (why : Purpose) : State :=
  match s.localFail site issuer (gPkg g) (gSite g) with
  | some st => s.raiseStatus site st (issuerArgs s.pkg site issuer)
  | none =>
    let p := s.stamp site issuer { Packet.zero with
      op := 0x01, vc := BitVec.ofNat 3 vc, last := true, ctx := BitVec.ofNat 8 ctx
      dstPkg := BitVec.ofNat 16 (gPkg g), dstSite := siteOf (gSite g), addr := BitVec.ofNat 43 (gOff g)
      len := BitVec.ofNat 13 bs.length, mask := BitVec.ofNat 32 mask, payload := bs }
    s.sendTagged site ⟨issuer, [], false, p, bs.length, why⟩

/-- A READ_REQ by an issuer other than a sequencer. -/
def State.dmaRead (s : State) (site issuer vc ctx g len : Nat) (why : Purpose) : State :=
  match s.localFail site issuer (gPkg g) (gSite g) with
  | some st => s.raiseStatus site st (issuerArgs s.pkg site issuer)
  | none =>
    let p := s.stamp site issuer { Packet.zero with
      op := 0x08, vc := BitVec.ofNat 3 vc, ctx := BitVec.ofNat 8 ctx
      dstPkg := BitVec.ofNat 16 (gPkg g), dstSite := siteOf (gSite g), addr := BitVec.ofNat 43 (gOff g)
      len := BitVec.ofNat 13 len }
    s.sendTagged site ⟨issuer, [], false, p, len, why⟩

/-- A trace record at the traced site itself passes the checks of any access (R24, R161, R162). -/
def State.traceOwn (s : State) (k off : Nat) (bs : List Byte) : State :=
  match s.ownFails k 0 off 16 false true with
  | some st => s.raiseStatus k st (issuerArgs s.pkg k 104)
  | none => match fillWindowOf off 16 with
    | some t => s.fillRefused k t 6
    | none => s.writeMem k off bs

/-- Trace one descriptor event (R463): a 16-byte record at the traced site, under tithe class 7, from
issuer 104, or dropped and counted. -/
def State.trace (s : State) (k c event : Nat) (d : BitVec 512) (idx : Nat) : State :=
  if s.getF Reg.DBG_TRACE Fld.DBG_TRACE_ENABLE = 1 ∧ s.getF Reg.DBG_TRACE Fld.DBG_TRACE_SITE = k then
    let (s, ok) := s.titheTry k 7 72
    if ok then
      let size := 2 ^ s.getF Reg.DBG_TRACE Fld.DBG_TRACE_LOG2_SIZE
      let g := s.getF Reg.DBG_TRACE_BASE Fld.DBG_TRACE_BASE_BASE + s.tracePos * 16 % size
      let bs := traceBytes s.vt c event (dOp d) (s.bellAt k).bell idx
      let s := { s with tracePos := s.tracePos + 1 }
      if s.onSite k g then s.traceOwn k (gOff g) bs
      else
        let low := decide (g % 32 = 0)
        s.dmaWrite k 104 3 0 (g / 32 * 32) (if low then 0xFFFF else 0xFFFF0000)
          (if low then bs ++ leBytes 16 0 else leBytes 16 0 ++ bs) .dma
    else s.bump Reg.DBG_TRACE Fld.DBG_TRACE_DROPPED 1
  else s

end Sys2Proof.Machine
end

