-- ==== Sys2Proof/Machine/DescCheck.lean ====
section
/-!
DEFINITION. What ENABLE and a dynamic-slot fill check of one descriptor alone (R42, R68, R72, R90 to
R107): the reason code of R327, or none.
-/

namespace Sys2Proof.Machine

open Sys2Proof

/-- Are all these bit ranges `(hi, lo)` of a descriptor 0? -/
def zeroBits (d : BitVec 512) (rs : List (Nat × Nat)) : Bool := rs.all fun (hi, lo) => decide (df d hi lo = 0)

/-- The reserved bit ranges of each operation's layout, beyond bits [31:0] (R95 to R107). -/
def reservedBits (op : Nat) : List (Nat × Nat) :=
  match op with
  | 1 => [(511, 480), (447, 432), (223, 218), (207, 204), (199, 197), (191, 188), (127, 124), (63, 49)]
  | 2 => [(511, 96), (63, 44)]
  | 3 => [(511, 384), (351, 340), (63, 35)]
  | 4 => [(511, 256), (159, 140), (63, 36)]
  | 5 => [(511, 160), (63, 45)]
  | 6 => [(511, 96), (63, 45)]
  | 7 => [(511, 224), (127, 84), (63, 38)]
  | 8 => [(511, 37)]
  | 9 => [(511, 224), (63, 32)]
  | 10 => [(511, 32)]
  | _ => []

/-- A token reference: reserved scope, or an index outside its scope (R91). One of SCOPE 0 with an INDEX other than 0 is
refused as an index outside its scope (DESIGN CHOICE, log 48). -/
def tokenFault (ref : Nat) : Option Nat :=
  let scope := ref / 1024 % 4
  if scope = 3 then some 0x0901
  else if scope = 0 ∧ ref % 1024 ≠ 0 then some 0x0903
  else if scope = 1 ∧ 256 ≤ ref % 1024 then some 0x0903 else none

/-- The first fault of a list of `(broken, code)` by lowest code. -/
def firstFault (cs : List (Bool × Nat)) : Option Nat :=
  (cs.filter (·.1)).foldl (fun (m : Option Nat) c => match m with
    | none => some c.2
    | some x => some (min x c.2)) none

/-- Does a core-store range of `rows` rows end at or below 0xC_0000 (R94)? -/
def csEnds (addr ld rows width : Nat) : Bool := decide (addr + (rows - 1) * ld + width ≤ coreStoreSize)

/-- Faults of an MMA descriptor (R42, R68, R72, R95, R96). -/
def mmaFaults (d : BitVec 512) : List (Bool × Nat) :=
  let fa := df d 35 32
  let fb := df d 39 36
  let fo := df d 43 40
  let m := 8 * df d 196 192
  let n := 8 * df d 203 200
  let g := df d 217 208
  let blocked (f : Nat) : Bool := decide (3 ≤ f) && decide (f ≤ 9)
  let half (f : Nat) : Bool := decide (f = 1) || decide (f = 2)
  let noScale (f : Nat) : Bool := half f || decide (f = 9)
  let conv := decide (df d 48 48 = 1)
  [(decide (12 ≤ fa) || decide (12 ≤ fb) || decide (12 ≤ fo) || decide (df d 45 44 = 3), 0x0901),
   (!((blocked fa && blocked fb) || (half fa && half fb)), 0x0902),
   (decide (m = 0) || decide (128 < m) || decide (n = 0) || decide (64 < n) || decide (g = 0) || decide (512 < g), 0x0902),
   (decide (df d 83 64 % 64 ≠ 0) || decide (df d 103 84 % 64 ≠ 0) || decide (df d 123 104 % 64 ≠ 0)
     || decide (df d 147 128 % 64 ≠ 0) || decide (df d 167 148 % 64 ≠ 0) || decide (df d 187 168 % 64 ≠ 0)
     || decide (df d 239 224 % 64 ≠ 0) || decide (df d 255 240 % 64 ≠ 0) || decide (df d 271 256 % 64 ≠ 0), 0x0902),
   (noScale fa && (decide (df d 147 128 ≠ 0) || decide (df d 287 272 ≠ 0)), 0x0902),
   (noScale fb && (decide (df d 167 148 ≠ 0) || decide (df d 303 288 ≠ 0)), 0x0902),
   (!conv && (decide (fo ≠ 0) || decide (df d 45 44 ≠ 0) || decide (df d 123 104 ≠ 0) || decide (df d 271 256 ≠ 0)
     || decide (df d 187 168 ≠ 0) || decide (df d 319 304 ≠ 0) || decide (df d 479 448 ≠ 0)
     || decide (df d 431 384 ≠ 0) || decide (df d 351 320 ≠ 0) || decide (df d 383 352 ≠ 0) || decide (df d 20 20 ≠ 0)), 0x0902),
   (conv && (decide (fo = 10) || decide (fo = 11)), 0x0902),
   (conv && decide (fo = 0) && decide (df d 45 44 ≠ 0), 0x0902),
   (conv && (decide (fo ≤ 2) || decide (fo = 9)) && (decide (df d 187 168 ≠ 0) || decide (df d 319 304 ≠ 0)), 0x0902),
   (conv && blocked fo && decide (n % 32 ≠ 0), 0x0902),
   (conv && decide (df d 45 44 = 2) &&
     decide (2 ^ 48 ≤ df d 431 384 + (m - 1) * df d 479 448 + (n - 1)), 0x0902),
   (!(csEnds (df d 83 64) (df d 239 224) m (g * groupBytes fa))
     || !(csEnds (df d 103 84) (df d 255 240) n (g * groupBytes fb)), 0x0903),
   (!(noScale fa) && !(csEnds (df d 147 128) (df d 287 272) m g), 0x0903),
   (!(noScale fb) && !(csEnds (df d 167 148) (df d 303 288) n g), 0x0903),
   (conv && !(csEnds (df d 123 104) (df d 271 256) m
     (if fo ≤ 2 then n * scalarBytes fo else n / 32 * groupBytes fo)), 0x0903),
   (conv && blocked fo && decide (fo ≠ 9) && !(csEnds (df d 187 168) (df d 319 304) m (n / 32)), 0x0903)]

/-- Faults of a MOVE descriptor in itself (R98, R99). -/
def moveFaults (d : BitVec 512) : List (Bool × Nat) :=
  let mc := decide (df d 34 34 = 1)
  let idx := df d 33 32
  [(decide (idx = 3), 0x0901),
   (mc && decide (df d 191 140 ≠ 0), 0x0902),
   (decide (df d 255 224 = 0) || decide (65536 < df d 255 224), 0x0902),
   (decide (df d 223 192 < 32) || decide (2 ^ 24 < df d 223 192) || decide (df d 223 192 % 32 ≠ 0), 0x0902),
   (decide (df d 127 64 % 32 ≠ 0) || (!mc && decide (df d 191 128 % 32 ≠ 0))
     || decide (df d 287 256 % 32 ≠ 0) || decide (df d 319 288 % 32 ≠ 0) || decide (df d 339 320 % 4 ≠ 0), 0x0902),
   (decide (idx ≠ 0) && decide (coreStoreSize < df d 339 320 + 4 * df d 255 224), 0x0903),
   (mc && (decide (df d 255 224 ≠ 1) || decide (idx ≠ 0)), 0x0904)]

/-- Faults of the other descriptors in themselves (R97, R101 to R107). A SIGNAL or WAIT that names no token, SCOPE 0, gets
0x0903 (DESIGN CHOICE, log 48). -/
def otherFaults (d : BitVec 512) : List (Bool × Nat) :=
  match dOp d with
  | 2 => [(decide (df d 95 64 = 0), 0x0902)]
  | 4 => [(decide (12 ≤ df d 35 32), 0x0901), (decide (2 < df d 35 32), 0x0902),
          (decide (df d 223 192 = 0) || decide (419430 < df d 223 192), 0x0902)]
  | 5 => [((tokenFault (df d 43 32)) = some 0x0901, 0x0901), ((tokenFault (df d 43 32)) = some 0x0903, 0x0903),
          (decide (df d 159 128 = 0), 0x0902),
          (decide (8 ≤ gSite (df d 127 64)) || decide (96 ≤ gOff (df d 127 64)), 0x0902),
          (decide (df d 43 42 = 2) && decide (df d 127 64 % 8 ≠ 0), 0x0902),
          (decide (df d 43 42 = 0), 0x0903)]
  | 6 => [((tokenFault (df d 43 32)) = some 0x0901, 0x0901), ((tokenFault (df d 43 32)) = some 0x0903, 0x0903),
          (decide (df d 95 64 = 0), 0x0902), (decide (df d 43 42 = 0), 0x0903)]
  | 7 => let w := 2 ^ df d 36 35
         [(decide (df d 191 128 ≠ df d 191 128 % 2 ^ (8 * w)), 0x0902),
          (decide (df d 83 64 % w ≠ 0), 0x0902), (decide (coreStoreSize < df d 83 64 + w), 0x0903),
          (decide (df d 223 192 = 0), 0x0903)]
  | 8 => [(decide (df d 36 32 = 0), 0x0904)]
  | 9 => [(decide (df d 223 192 < 32) || decide (2 ^ 24 < df d 223 192) || decide (df d 223 192 % 32 ≠ 0), 0x0902),
          (decide (df d 191 128 % 32 ≠ 0), 0x0902)]
  | _ => []

/-- The reason code of a descriptor's own lowest fault (R94, R327), none where it has none. What a layout
marks reserved gives 0x0901; a field that must be 0 under a condition gives 0x0902 (log 17). -/
def descFault (d : BitVec 512) : Option Nat :=
  let op := dOp d
  firstFault ([(decide (op = 0) || decide (10 < op), 0x0901),
    (decide (df d 31 21 ≠ 0) || !(zeroBits d (reservedBits op)), 0x0901),
    (decide (df d 20 20 = 1) && decide (op ≠ 1) && decide (op ≠ 4), 0x0902),
    (decide (op = 10) && decide (dDone d ≠ 0), 0x0902),
    (tokenFault (dDone d) = some 0x0901, 0x0901), (tokenFault (dDone d) = some 0x0903, 0x0903)] ++
    (if op = 1 then mmaFaults d else if op = 3 then moveFaults d else otherFaults d))

end Sys2Proof.Machine
end

