-- ==== Sys2Proof/Machine/Slots.lean ====
section
/-!
DEFINITION. Dynamic slots and their fills (R115 to R118), and what an access on the issuing site must pass (R161,
R162, R440).
-/

namespace Sys2Proof.Machine

open Sys2Proof

/-! ### Dynamic slots (R115 to R118) -/

/-- The phase that a context has in a future or current bell of its turns, counted from the site's
current phase (R87), or, while the site abandons bells, from that which the bell it begins again began with (R137). -/
def State.phaseIn (s : State) (k ctx bell : Nat) : Nat :=
  let b := s.bellAt k
  let phases := match (if b.life = .abandoning then b.snaps.find? fun n => decide (n.bell = b.startBell) else none) with
    | some n => n.phases
    | none => b.phases
  let p := SMap.get 0 phases ctx
  let from_ := if b.life = .held ∨ b.life = .settling ∨ b.life = .abandoning then b.startBell else b.bell
  let ahead := ((List.range (bell - from_)).filter fun i => decide (turnOf s.rs (from_ + i) = ctx)).length
  (p + ahead) % cycleLen s.rs ctx

/-- The sets of a slot's envelope (R115, R313). -/
def slotSets (r : Rec) (slot kind : Nat) : List ProgSet :=
  (progSets r).filter fun e => decide (e.kind = kind) && decide (e.slot = slot)

/-! ### What a descriptor accesses (R96 to R106) -/

/-- The offsets that a multicast copy for a site is written at (R62, R201): the base, or, where the base
lies in a cluster memory or core store and stops are named, the same place of each stop's own (log 9). -/
def mcastPlaces (site base stops : Nat) : List Nat :=
  let ks := (List.range 12).filter fun n => decide (stops / 2 ^ n % 2 = 1)
  if siteKind site ≠ .stack ∨ ks = [] then [base] else
  match clusterOf base 1, coreOf base 1 with
  | some k, _ => ks.map fun n => base - clusterBase k + clusterBase n
  | none, some c => ks.map fun n => base - coreStoreBase c + coreStoreBase (8 * n + c % 8)
  | none, none => [base]

/-- The envelope of an indexed MOVE (R100): read for a gather, written for a scatter. -/
def indexEnvelope (d : BitVec 512) : Option (Bool × Nat × Nat) :=
  if dOp d = 3 ∧ df d 33 32 = 1 then
    some (false, df d 127 64, (df d 383 352 - 1) * df d 287 256 + df d 223 192)
  else if dOp d = 3 ∧ df d 33 32 = 2 then
    some (true, df d 191 128, (df d 383 352 - 1) * df d 319 288 + df d 223 192)
  else none

/-- The rows of an array in core store. -/
def rowsAt (addr ld rows width : Nat) : List (Nat × Nat) := (List.range rows).map fun i => (addr + i * ld, width)

/-- The operands and the output of an MMA, as core-store ranges (R96). -/
def mmaAccess (d : BitVec 512) : List (Nat × Nat) × List (Nat × Nat) :=
  let m := 8 * df d 196 192
  let n := 8 * df d 203 200
  let g := df d 217 208
  let fa := df d 35 32
  let fb := df d 39 36
  let fo := df d 43 40
  (rowsAt (df d 83 64) (df d 239 224) m (g * groupBytes fa) ++
   rowsAt (df d 103 84) (df d 255 240) n (g * groupBytes fb) ++
   (if 3 ≤ fa ∧ fa ≤ 8 then rowsAt (df d 147 128) (df d 287 272) m g else []) ++
   (if 3 ≤ fb ∧ fb ≤ 8 then rowsAt (df d 167 148) (df d 303 288) n g else []),
   if df d 48 48 = 0 then [] else
     rowsAt (df d 123 104) (df d 271 256) m (if fo ≤ 2 then n * scalarBytes fo else n / 32 * groupBytes fo) ++
     (if 3 ≤ fo ∧ fo ≤ 8 then rowsAt (df d 187 168) (df d 319 304) m (n / 32) else []))

/-- Where the copies of a multicast MOVE of `len` bytes land on this package, as global ranges (R62, R201). -/
def State.mcastLands (t : State) (group len : Nat) : List (Nat × Nat) :=
  match mcastRec t.rs group with
  | none => []
  | some g => (mcastDests g).flatMap fun (site, stops, base) =>
      (mcastPlaces site base stops).map fun o => (gAddr t.pkg site o, len)

/-- The bytes that a MOVE reads and writes, as global ranges (R98 to R100). -/
def State.moveAccess (t : State) (base : Nat) (d : BitVec 512) : List (Nat × Nat) × List (Nat × Nat) :=
  let rows := df d 255 224
  let len := df d 223 192
  let env := (indexEnvelope d).map fun e => (e.2.1, e.2.2)
  (((if df d 33 32 = 1 then env.toList else rowsAt (df d 127 64) (df d 287 256) rows len) ++
    if df d 33 32 = 0 then [] else [(base + df d 339 320, 4 * rows)]),
   if df d 34 34 = 1 then t.mcastLands (df d 139 128) len
   else if df d 33 32 = 2 then env.toList else rowsAt (df d 191 128) (df d 319 288) rows len)

/-- The bytes that a descriptor of core `c` of die `k` reads and writes, as global ranges, but for those of a kernel,
which no record declares (R96 to R106; log 17). -/
def State.descAccess (t : State) (k c : Nat) (d : BitVec 512) : List (Nat × Nat) × List (Nat × Nat) :=
  let base := gAddr t.pkg k (coreStoreBase c)
  let lift := fun (rs : List (Nat × Nat)) => rs.map fun r => (base + r.1, r.2)
  match dOp d with
  | 1 => (lift (mmaAccess d).1, lift (mmaAccess d).2)
  | 3 => t.moveAccess base d
  | 4 => ([(df d 127 64, df d 223 192 * scalarBytes (df d 35 32))], [])
  | 7 => ([(base + df d 83 64, 2 ^ df d 36 35)], [])
  | 9 => ([(df d 127 64, df d 223 192)], [(df d 191 128, df d 223 192)])
  | _ => ([], [])

/-- R264: a REDUCE descriptor names no group of its context and phase, leaves the group, or sends FP32 into
a 16-bit one. -/
def reduceDescBroken (rs : List Rec) (r : Rec) (d : BitVec 512) : Bool :=
  decide (dOp d = 4) &&
  match groupRec rs (df d 139 128) with
  | none => true
  | some g => decide (g.u8 10 ≠ r.u8 8) || decide (g.u16 12 ≠ r.u16 12) ||
      decide (g.u32 20 < df d 191 160 + df d 223 192) ||
      (decide (df d 35 32 = 0) && groupRed16 rs (g.u16 8))

/-- Does a global range leave the core store that it begins in (R94)? -/
def storeLeft (g n : Nat) : Bool :=
  let o := gOff g
  decide (siteKind (gSite g) = .stack) && decide (coreStoreBase 0 ≤ o) && decide (o < coreStoreBase 96) &&
  decide (coreStoreSize < (o - coreStoreBase 0) % 0x100000 + n)

/-- Does a row of an array of rows leave the core store that it begins in? -/
def rowsLeft (g stride rows n : Nat) : Bool := (List.range rows).any fun i => storeLeft (g + i * stride) n

/-- Core-store ranges of a MOVE, REDUCE or COMMIT_WRITE that do not end below 0xC_0000 (R94): rows, and the envelope of
an indexed end. -/
def storeFaults (d : BitVec 512) : Bool :=
  let len := df d 223 192
  let rows := df d 255 224
  match dOp d with
  | 3 =>
    (if df d 33 32 = 1 then storeLeft (df d 127 64) ((df d 383 352 - 1) * df d 287 256 + len)
      else rowsLeft (df d 127 64) (df d 287 256) rows len) ||
    (decide (df d 34 34 = 0) &&
      if df d 33 32 = 2 then storeLeft (df d 191 128) ((df d 383 352 - 1) * df d 319 288 + len)
      else rowsLeft (df d 191 128) (df d 319 288) rows len)
  | 4 => storeLeft (df d 127 64) (len * scalarBytes (df d 35 32))
  | 9 => storeLeft (df d 127 64) len
  | _ => false

/-- Reasons of one descriptor in its program: its own (R94), where its ends lie (R94, R99, R106), its group
(R99, R264). `t` is the state under the plan. -/
def State.descFlts (t : State) (r : Rec) (d : BitVec 512) : List Nat :=
  let k := progSite r
  let op := dOp d
  let own := match descFault d with
    | some c => [c]
    | none => []
  let on := t.onSite k
  own ++ (if storeFaults d then [0x0903] else []) ++
  (if op = 3 ∧ on (df d 127 64) = false ∧ (df d 34 34 = 1 ∨ on (df d 191 128) = false) then [0x0904] else []) ++
  (if op = 3 ∧ df d 34 34 = 1 ∧ (mcastRec t.rs (df d 139 128)).isNone = true then [0x0902] else []) ++
  (if (op = 4 ∨ op = 9) ∧ on (df d 127 64) = false then [0x0902] else []) ++
  (if op = 9 ∧ (siteKind (gSite (df d 191 128)) ≠ .bridge ∨
      (gPkg (df d 191 128) = t.pkg ∧
        t.hasRights (gSite (df d 191 128)) (r.u8 8) (gOff (df d 191 128)) (df d 223 192) false true = false))
    then [0x0902] else []) ++
  (if op = 2 ∧ (kernelRec t.rs (r.u8 8) k (progCore r) (df d 43 32)).isNone = true then [0x090B] else []) ++
  (match indexEnvelope d with
    | some (w, a, n) =>
      if gPkg a = t.pkg ∧ t.hasRights (gSite a) (r.u8 8) (gOff a) n (!w) w = false then [0x090F] else []
    | none => [])

/-- The PROGRAM records. -/
def progRecs (rs : List Rec) : List Rec := recsOf rs segPrograms 2
/-- The programs of one bell: a context's phase. -/
def bellProgs (rs : List Rec) (ctx phase : Nat) : List Rec :=
  (progRecs rs).filter fun r => decide (r.u8 8 = ctx) && decide (r.u16 12 = phase)
/-- The places where a write MOVE's rows land, as `(site, offset, length)` (R100, R201). -/
def State.moveLands (t : State) (d : BitVec 512) : List (Nat × Nat × Nat) :=
  if dOp d ≠ 3 then [] else
  let len := df d 223 192
  if df d 34 34 = 1 then
    match mcastRec t.rs (df d 139 128) with
    | none => []
    | some g => (mcastDests g).flatMap fun (site, stops, base) =>
        (mcastPlaces site base stops).map fun o => (site, o, len)
  else if gPkg (df d 191 128) ≠ t.pkg then []
  else if df d 33 32 = 2 then
    (indexEnvelope d).toList.map fun e => (gSite e.2.1, gOff e.2.1, e.2.2)
  else (rowsAt (df d 191 128) (df d 319 288) (df d 255 224) len).map fun (a, n) => (gSite a, gOff a, n)

/-- R110: the bytes of a MOVE at one site fall partly inside a window of its bell, or inside two. -/
def State.moveStraddles (t : State) (r : Rec) (d : BitVec 512) : Bool :=
  let lands := t.moveLands d
  let sites := (lands.map (·.1)).eraseDups
  sites.any fun site =>
    let here := lands.filter fun l => decide (l.1 = site)
    let ws := ((bellProgs t.rs (r.u8 8) (r.u16 12)).filter fun q => decide (progSite q = site)).flatMap progWindows
    let hit := ws.filter fun (a, n, _) => here.any fun l => meets l.2.1 l.2.2 a n
    match hit with
    | [] => false
    | [(a, n, _)] => here.any fun l => !(within l.2.1 l.2.2 a n)
    | _ => true

/-! ### Fill records (R116 to R118, R162) -/

/-- Are all ranges inside the envelope of a slot (R115)? `kind` is 4 for reads and 5 for writes. -/
def inEnvelope (r : Rec) (slot kind : Nat) (rs : List (Nat × Nat)) : Bool :=
  rs.all (inRanges ((slotSets r slot kind).map fun e => (e.base, e.len)))

/-- Why a fill record is refused (R117): 1 the context does not run on the core in that bell, 2 the
bell's BELL_END has retired, 3 SLOT is no slot of the phase's program, 4 the descriptor breaks R94, the
slot's operations or a reserved field, 5 it leaves the envelope, 7 the sequencer has passed the slot (R118); none
where it is accepted. The numbers are the model's own, as is 6 of `State.fillWrite` (log 8). -/
def State.fillRefusal (s : State) (k c ctx : Nat) (f : Fill) (rsv : Nat) : Option Nat :=
  let b := s.bellAt k
  if turnOf s.rs f.bell ≠ ctx then some 1 else
  if f.bell < b.bell then some 2 else
  match programRec s.rs ctx k c (s.phaseIn k ctx f.bell) with
  | none => some 1
  | some r =>
    if f.bell = b.bell ∧ (s.core k c).retired = true then some 2 else
    match (progSlots r)[f.slot]? with
    | none => some 3
    | some (_, ops) =>
      let (rd, wr) := s.descAccess k c f.desc
      if rsv ≠ 0 ∨ s.descFlts r f.desc ≠ [] ∨ reduceDescBroken s.rs r f.desc = true ∨ s.moveStraddles r f.desc = true ∨
          ops / 2 ^ dOp f.desc % 2 = 0 then
        some 4
      else if (s.core k c).fills.any
          (fun g => decide (g.bell = f.bell) && decide (g.slot = f.slot) && g.used) then some 7
      else if inEnvelope r f.slot 4 rd && inEnvelope r f.slot 5 wr then none
      else some 5

/-- A fill record is checked, then held for its slot, or refused (R116, R117). A sequencer that stood at the slot, and at
no WAIT before it, waits no more (R118). -/
def State.fillTake (s : State) (k c ctx : Nat) (bytes : List Byte) : State :=
  let x := s.core k c
  let f : Fill := { bell := leNat ((bytes.drop 64).take 6), slot := leNat ((bytes.drop 70).take 2)
                    desc := BitVec.ofNat 512 (leNat (bytes.take 64)), used := false }
  match s.fillRefusal k c ctx f (leNat ((bytes.drop 72).take 56)) with
  | some why => s.fillRefused k c why
  | none =>
    let stood := (s.descAt k c x.pc).isNone
    let s := s.setCore k c { x with fills := x.fills ++ [f] }
    let s := if stood && x.waiting.isNone && (s.descAt k c x.pc).isSome then s.endWait k c else s
    s.setF (Reg.CORE_DYN_STATUS k c) Fld.CORE_DYN_STATUS_PENDING (s.core k c).fills.length

/-- Does a core's slot-fill window take no record: 256 are pending, or one waits (R117)? -/
def State.fillFull (s : State) (k c : Nat) : Bool :=
  decide (256 ≤ (s.core k c).fills.length) || !(s.core k c).heldFills.isEmpty

/-- The flight of a core that wrote a record waits for it to be taken (R117). -/
def State.flightHeld (s : State) (k : Nat) (writer : Option (Nat × Nat)) : State :=
  match writer with
  | none => s
  | some (c, n) => match (s.core k c).flight n with
    | none => s
    | some f => s.setCore k c ((s.core k c).setFlight { f with left := f.left + 1 })

/-- A fill record reaches a core's slot-fill window (R116, R117); while the window takes none, it waits there, and so does
its writer. -/
def State.fillArrives (s : State) (k c ctx : Nat) (bytes : List Byte) (back : Option (Hop × Packet))
    (writer : Option (Nat × Nat)) : State :=
  if s.fillFull k c then
    (s.setCore k c { s.core k c with heldFills := (s.core k c).heldFills ++ [⟨ctx, bytes, back, writer, s.vt⟩] }).flightHeld k writer
  else s.fillTake k c ctx bytes

/-- A write to core `t`'s slot-fill window at a site (R162): one aligned record of 128 bytes, by a context with a
window over it or by the MC, or it is refused. The reason number 6 is the model's (DESIGN CHOICE, log 8). -/
def State.fillWrite (s : State) (k t ctx a : Nat) (mc : Bool) (bs : List Byte) (back : Option (Hop × Packet))
    (writer : Option (Nat × Nat)) : State :=
  if bs.length = 128 ∧ a % 128 = 0 ∧ (mc || inWindows s.rs ctx k 1 a 128) = true then s.fillArrives k t ctx bs back writer
  else s.fillRefused k t 6

/-- Mark the fills of a slot in the running bell as used: the sequencer passes it (R118). -/
def CoreSt.useFill (x : CoreSt) (bell slot : Nat) : CoreSt :=
  { x with fills := x.fills.map fun f => if f.bell = bell ∧ f.slot = slot then { f with used := true } else f }

/-! ### Accesses on the issuing site (R24, R161, R162, R440) -/

/-- A write of flight `serial` of a sequencer to its own site, at one of its ports (R69, R92, R120, R154): none where it is
done or waits at a slot-fill window (R117), else the status that it fails with. -/
def State.ownWrite (s : State) (k c serial a : Nat) (mets : Meets) (bs : List Byte) : State × Option Nat :=
  let ctx := (s.core k c).ctx
  match s.ownFails k ctx a bs.length false true with
  | some st => (s, some st)
  | none =>
    match fillWindowOf a bs.length with
    | some t => (s.fillWrite k t ctx a false bs none (some (c, serial)), none)
    | none => ((s.portWrite k a 0 (issuerArgs s.pkg k c) mets bs).1, none)

end Sys2Proof.Machine
end

