-- ==== Sys2Proof/Machine/Transfers.lean ====
section
/-!
DEFINITION. Flights of a sequencer: issue, completion and failure (R93, R113), sending the pieces of a transfer (R98,
R106, R120), confirmation and squash (R121, R122).
-/

namespace Sys2Proof.Machine

open Sys2Proof

/-- The next descriptor becomes a flight and the sequencer moves on (R113). -/
def State.issueFlight (s : State) (k c : Nat) (d : BitVec 512) (left : Nat) (todo : List Piece)
    (failed : List Nat) : State :=
  let x := s.core k c
  let x := match (s.coreProg k c).bind fun r => slotAt r x.pc with
    | some slot => x.useFill (s.bellAt k).bell slot
    | none => x
  let f : Flight := { serial := x.serial, idx := x.pc, desc := d, spec := !x.branches.isEmpty,
                      complete := false, failed := failed, left := left, todo := todo }
  let s := s.setCore k c { x with
    pc := x.pc + 1, serial := x.serial + 1, flights := x.flights ++ [f]
    runAhead := if x.branches.isEmpty then 0 else x.runAhead + 1 }
  s.trace k c 0 d x.pc

/-- Issue the next descriptor; a sequencer that then stands at an open slot waits there (R113, R118). -/
def State.issue (s : State) (k c : Nat) (d : BitVec 512) (left : Nat) (todo : List Piece)
    (failed : List Nat) : State := ((s.issueFlight k c d left todo failed).slotWait k c).syncSeq k c

/-- What the reads and writes of a flight that are made later meet: parity failures, and other writes (R120, R154, R168). -/
def State.flightMeets (s : State) (k c serial : Nat) (flaws : Flaws) (mets : Meets) : State :=
  match (s.core k c).flight serial with
  | none => s
  | some f => s.setCore k c ((s.core k c).setFlight { f with flaws := flaws, mets := mets })

/-- A flight completes: it leaves the list and raises its DONE token by 1 (R90, R93). -/
def State.finish (s : State) (k c serial : Nat) : State :=
  match (s.core k c).flight serial with
  | none => s
  | some f =>
    let x := s.core k c
    let s := s.setCore k c { x with flights := x.flights.filter fun g => decide (g.serial ≠ serial) }
    let s := s.raiseToken k c (dDone f.desc) 1
    (s.trace k c 1 f.desc f.idx).syncSeq k c

/-- A failure of a flight (R93): reported to the funnel at once, or recorded until the flight is
confirmed (R120). The report names the core and the descriptor. -/
def State.failFlight (s : State) (k c serial code : Nat) : State :=
  match (s.core k c).flight serial with
  | none => s
  | some f =>
    if f.spec then s.setCore k c ((s.core k c).setFlight { f with failed := f.failed ++ [code] })
    else (s.raise k code [c, f.idx]).trace k c 3 f.desc f.idx

/-- Complete a flight that has nothing left to send or hear. -/
def State.tryFinish (s : State) (k c serial : Nat) : State :=
  match (s.core k c).flight serial with
  | none => s
  | some f => if f.left = 0 ∧ f.todo = [] ∧ f.spec = false then s.finish k c serial else s

/-- A WAIT, FENCE or BRANCH is over: it completes, or, while it is speculative, it holds nothing any
more and completes at its confirmation (R122: a squashed descriptor raises no token). -/
def State.waitOver (s : State) (k c serial : Nat) : State :=
  match (s.core k c).flight serial with
  | none => s
  | some f =>
    if f.spec then (s.setCore k c ((s.core k c).setFlight { f with complete := true })).syncSeq k c
    else s.finish k c serial

/-- Bytes reserved in the speculative read buffer: held, and asked for (R120). -/
def State.specUsed (s : State) (k c : Nat) : Nat :=
  ((s.core k c).specData.map fun d => d.bytes.length).sum +
  (((s.gw k).tags.map fun kv => match kv.2.purpose with
    | .descRead c' _ _ true => if c' = c then kv.2.len else 0
    | .cacheRead c' _ _ true _ _ _ => if c' = c then kv.2.len else 0
    | _ => 0)).sum

/-- The effective step of a descriptor: STEP, plus the context's step base under STEP_REL (R89). -/
def State.effStep (s : State) (k c : Nat) (d : BitVec 512) (step : Nat) : Nat :=
  if df d 20 20 = 1 then
    (step + s.getF (Reg.CORE_STEP_BASE k (s.core k c).ctx) Fld.CORE_STEP_BASE_BASE) % 2 ^ 32
  else step

/-- A REDUCE packet of a run within one slice (R265): the destination carries the slice-local index, the
last packet is padded to whole granules. -/
def State.reducePacket (s : State) (k c : Nat) (d : BitVec 512) (p : Piece) : Packet :=
  let group := df d 139 128
  let fmt := df d 35 32
  let op := match groupRec s.rs group with
    | some r => r.u8 11
    | none => 1
  let pad := (32 - p.len % 32) % 32
  s.stamp k c { Packet.zero with
    op := BitVec.ofNat 8 (0x0F + op), vc := 1, ctx := BitVec.ofNat 8 (s.core k c).ctx
    dstPkg := BitVec.ofNat 16 (gPkg p.dst), dstSite := siteOf (gSite p.dst)
    addr := BitVec.ofNat 43 (group + gOff p.dst * 2 ^ 12), len := BitVec.ofNat 13 (p.len + pad)
    fmt := BitVec.ofNat 4 fmt, red := BitVec.ofNat 4 op, padEl := BitVec.ofNat 4 (pad / scalarBytes fmt)
    step := BitVec.ofNat 32 (s.effStep k c d (df d 255 224))
    payload := s.readMem k (gOff p.src) p.len ++ leBytes pad 0 }

/-- The first piece of a flight that is still to be sent, as a packet: READ_REQ for reads, WRITE for
writes, WRITE_COMMIT for COMMIT_WRITE, REDUCE for REDUCE. -/
def State.piecePacket (s : State) (k c : Nat) (f : Flight) (p : Piece) : Packet :=
  let x := s.core k c
  let op := dOp f.desc
  let rd := decide (op = 3) && decide (s.moveClass k f.desc = .read)
  let g := if rd then p.src else p.dst
  if op = 4 then s.reducePacket k c f.desc p else
  let base : Packet := { Packet.zero with
    ctx := BitVec.ofNat 8 x.ctx, dstPkg := BitVec.ofNat 16 (gPkg g), dstSite := siteOf (gSite g)
    addr := BitVec.ofNat 43 (gOff g), len := BitVec.ofNat 13 p.len }
  s.stamp k c (if rd then { base with op := 0x08, spec := f.spec }
    else { base with
      op := if op = 9 then 0x02 else 0x01, commit := decide (op = 9)
      last := p.last && decide (op ≠ 9)
      payload := s.readMem k (gOff p.src) p.len })

/-- Does a piece's packet carry a tag (R209)? -/
def pieceTagged (f : Flight) (rd : Bool) (p : Piece) : Bool :=
  rd || decide (dOp f.desc = 9) || decide (dOp f.desc = 4) || p.last

/-- Write the bytes of a flight to a global address on the issuing site; an access that fails fails the flight (R93). -/
def State.writeLocal (s : State) (k c serial g : Nat) (mets : Meets) (bs : List Byte) : State :=
  match s.ownWrite k c serial (gOff g) mets bs with
  | (s, none) => s
  | (s, some st) => s.failFlight k c serial (0x300 + st)

/-- Read data of a flight reach the core: held in the speculative buffer, or written (R120). `mets` are the writes that
they meet there (R154). -/
def State.deliver (s : State) (k c serial dst : Nat) (spec : Bool) (mets : Meets) (bs : List Byte) : State :=
  if spec then
    let x := s.core k c
    s.setCore k c { x with specData := x.specData ++ [⟨serial, dst, bs⟩] }
  else s.writeLocal k c serial dst mets bs

/-- Is the byte at a global address in a line that the stack caches for a context (R165)? -/
def State.cachedAt (s : State) (k ctx g : Nat) : Bool :=
  decide (gPkg g = s.pkg) && decide (siteKind (gSite g) = .bridge) && s.cachedFor k ctx (gSite g) (gOff g)

/-- Send a read of a flight under a tag of the core; none where no tag is free. -/
def State.sendRead (s : State) (k c serial : Nat) (pk : Packet) (len : Nat) (why : Purpose) : Option State :=
  match s.allocTag k ⟨c, [], false, pk, len, why⟩ with
  | none => none
  | some (s, pk) =>
    match (s.core k c).flight serial with
    | none => some s
    | some f => some ((s.setCore k c ((s.core k c).setFlight { f with left := f.left + 1 })).send k pk)

/-- The pieces that a flight has yet to send. -/
def State.setTodo (s : State) (k c serial : Nat) (todo : List Piece) : State :=
  match (s.core k c).flight serial with
  | none => s
  | some f => s.setCore k c ((s.core k c).setFlight { f with todo := todo })

/-- Take the next piece of a cached window line by line: a hit is read, a miss reads the whole line (R165). None while
the speculative read buffer, which must hold the whole response (R120), or the tags do not allow it. -/
def State.pumpCached (s : State) (k c serial : Nat) (f : Flight) (p : Piece) (rest : List Piece) : Option State :=
  let a := gOff p.src
  let m := min p.len (256 - a % 256)
  let room := if (s.cacheFind k (s.core k c).ctx (gSite p.src) a).isSome then m else 256
  if f.spec && decide (131072 < s.specUsed k c + room) then none else
  let rest' := if m = p.len then rest else
    { p with src := p.src + m, dst := p.dst + m, len := p.len - m } :: rest
  match s.cacheLook k (s.core k c).ctx (gSite p.src) a m f.flaws with
  | (s, .hit bs) => some ((s.setTodo k c serial rest').deliver k c serial p.dst f.spec f.mets bs)
  | (s, .bad) =>
    -- a speculative read's store fault is no fault of its descriptor (R120)
    let s := s.setTodo k c serial rest'
    some (if f.spec then s else s.failFlight k c serial (0x300 + stParity))
  | (s', .miss) =>
    let line := p.src / 256 * 256
    let pk := s'.piecePacket k c f { p with src := line, len := 256 }
    (s'.setTodo k c serial rest').sendRead k c serial pk 256 (.cacheRead c serial p.dst f.spec line (a % 256) m)

/-- Send the next piece. None while the speculative read buffer or the tags do not allow it. -/
def State.pumpSent (s : State) (k c serial : Nat) (f : Flight) (rd : Bool) (p : Piece) (rest : List Piece) :
    Option State :=
  if f.spec && decide (131072 < s.specUsed k c + p.len) then none else
  let g := if rd then p.src else p.dst
  let pk := s.piecePacket k c f p
  let s' := if !rd && decide (dOp f.desc = 3) && decide (gPkg g = s.pkg) && decide (siteKind (gSite g) = .bridge) then
    s.cacheWrite k (s.core k c).ctx (gSite g) (gOff g) 0 pk.payload else s
  let s' := s'.setTodo k c serial rest
  if pieceTagged f rd p then
    s'.sendRead k c serial pk p.len (if rd then Purpose.descRead c serial p.dst f.spec else Purpose.desc c serial)
  else some (s'.send k pk)

/-- The next piece of a flight; one whose source fails on its own site, or whose destination fails at the issuing
gateway, fails with its status (R24, R440). None
where there is none or it must wait, as it does in a guard interval (R128). -/
def State.pumpOne (s : State) (k c serial : Nat) : Option State :=
  match (s.core k c).flight serial with
  | none => none
  | some f =>
    if (s.bellAt k).guard then none else
    match f.todo with
    | [] => none
    | p :: rest =>
      let rd := decide (dOp f.desc = 3) && decide (s.moveClass k f.desc = .read)
      let g := if rd then p.src else p.dst
      let own := if rd then none else s.ownFails k (s.core k c).ctx (gOff p.src) p.len true false
      match own.orElse fun _ => s.localFail k c (gPkg g) (gSite g) with
      | some st => some ((s.setTodo k c serial rest).failFlight k c serial (0x300 + st))
      | none =>
        if rd && s.cachedAt k (s.core k c).ctx p.src then s.pumpCached k c serial f p rest
        else s.pumpSent k c serial f rd p rest

/-- Send as many pieces of a flight as tags and the speculative read buffer allow (R113, R120). -/
def State.pump (s : State) (k c serial : Nat) : Nat → State
  | 0 => s
  | n + 1 =>
    match s.pumpOne k c serial with
    | none => s
    | some t => t.pump k c serial n

/-- Steps that sending a list of pieces can take: one a line. -/
def pumpFuel (ps : List Piece) : Nat := (ps.map fun p => p.len / 256 + 2).sum

/-- Read one local source piece into the speculative buffer: a parity mismatch is reported at once and is no fault of the
descriptor (R70, R120, R168). -/
def State.specPiece (s : State) (k c serial : Nat) (f : Flight) (p : Piece) : State :=
  match s.readCheck k (gOff p.src) p.len f.flaws false [c] with
  | (s, some _) => s.setTodo k c serial (f.todo.drop 1)
  | (s, none) =>
    let x := s.core k c
    s.setCore k c { (x.setFlight { f with todo := f.todo.drop 1 }) with
      specData := x.specData ++ [⟨serial, p.dst, s.readMem k (gOff p.src) p.len⟩] }

/-- Read local source pieces into the speculative buffer while there is room (R120). -/
def State.specRead (s : State) (k c serial : Nat) : List Piece → State
  | [] => s
  | p :: ps =>
    if 131072 < s.specUsed k c + p.len then s else
    match (s.core k c).flight serial with
    | none => s
    | some f =>
      let s := match s.ownFails k (s.core k c).ctx (gOff p.src) p.len true false with
        | some st => (s.setTodo k c serial (f.todo.drop 1)).failFlight k c serial (0x300 + st)
        | none => s.specPiece k c serial f p
      State.specRead s k c serial ps

/-- Send what a core's flights still hold once a tag or buffer space is free, and read what speculative local moves have
yet to read (R113, R120). -/
def State.pumpCore (s : State) (k c : Nat) : State :=
  (s.core k c).flights.foldl (fun (s : State) f =>
    if f.todo = [] then s
    else if dOp f.desc = 3 ∧ s.moveClass k f.desc = .local_ then
      (if f.spec then s.specRead k c f.serial f.todo else s)
    else (s.pump k c f.serial (pumpFuel f.todo)).tryFinish k c f.serial) s

/-- Cancel the live tags of a site whose purpose satisfies a test: each enters quarantine, and a packet that
still waits for such a tag goes; the count of the tags cancelled comes back (R122, R123). -/
def State.cancelTags (s : State) (k : Nat) (p : Purpose → Bool) : State × Nat :=
  let keys := ((s.gw k).tags.filter fun kv => p kv.2.purpose).map (·.1)
  let s := keys.foldl (fun s key => s.quarantine k key) s
  (s.setGw k { s.gw k with tagWait := (s.gw k).tagWait.filter fun w => !p w.why }, keys.length)

/-- Is a purpose a read of a core's flight from `from_` on? -/
def ofFlight (c from_ : Nat) : Purpose → Bool
  | .descRead c' n _ _ => decide (c' = c) && decide (from_ ≤ n)
  | .cacheRead c' n _ _ _ _ _ => decide (c' = c) && decide (from_ ≤ n)
  | .desc c' n => decide (c' = c) && decide (from_ ≤ n)
  | _ => false

/-- Squash every descriptor from a serial number on (R122): buffered data discarded, outstanding reads
cancelled, no token, byte or report of their own. -/
def State.squashFrom (s : State) (k c serial : Nat) : State :=
  let x := s.core k c
  let gone := x.flights.filter fun f => decide (serial ≤ f.serial)
  let (s, n) := s.cancelTags k (ofFlight c serial)
  let x := s.core k c
  let s := s.setCore k c { x with
    flights := x.flights.filter fun f => decide (f.serial < serial)
    specData := x.specData.filter fun d => decide (d.serial < serial)
    branches := x.branches.filter fun b => decide (b < serial)
    cancelled := min 0xFFFF (x.cancelled + n) }
  gone.foldl (fun (s : State) (f : Flight) => s.trace k c 2 f.desc f.idx) s

/-- The next descriptor fails parity at fetch (R417): nothing further issues, and BELL_END retires once
the older ones are complete; PARITY is attributed to the core. Issue is in order, so no younger
descriptor has issued that would need the squash. -/
def State.fetchParity (s : State) (k c : Nat) : State :=
  let x := s.core k c
  let s := s.setCore k c { x with parityStop := true, atEnd := true }
  (s.coreFault k c [x.pc]).syncSeq k c

/-- A token, sequencer state or a tag table that fails parity as the next descriptor uses it (R416): the value is used as
stored, and PARITY is attributed to the core. -/
def State.useParity (s : State) (k c : Nat) (fetched : Fetch) : State :=
  if fetched = .stale then s.coreFault k c [(s.core k c).pc] else s

/-- The outstanding reads of a confirmed flight are ordinary ones from now on (R121). -/
def State.plainReads (s : State) (k c serial : Nat) : State :=
  let g := s.gw k
  s.setGw k { g with tags := g.tags.map fun kv => match kv.2.purpose with
    | .descRead c' n dst true =>
      if c' = c ∧ n = serial then (kv.1, { kv.2 with purpose := .descRead c' n dst false }) else kv
    | .cacheRead c' n dst true g lo m =>
      if c' = c ∧ n = serial then (kv.1, { kv.2 with purpose := .cacheRead c' n dst false g lo m }) else kv
    | _ => kv }

/-- Confirm one speculative flight (R121): its buffered data go to their destination, its held failures are reported, its
remaining reads issue as ordinary ones. -/
def State.confirmFlight (s : State) (k c : Nat) (mets : Meets) (f : Flight) : State :=
  let x := s.core k c
  let mine := x.specData.filter fun d => decide (d.serial = f.serial)
  let s := s.setCore k c
    { (x.setFlight { f with spec := false, failed := [] }) with
      specData := x.specData.filter fun d => decide (d.serial ≠ f.serial) }
  let s := mine.foldl (fun s d => s.writeLocal k c f.serial d.dst mets d.bytes) s
  let s := f.failed.foldl (fun s code => s.failFlight k c f.serial code) (s.plainReads k c f.serial)
  if dOp f.desc = 3 then
    if s.moveClass k f.desc = .local_ then s
    else (s.pump k c f.serial (pumpFuel f.todo)).tryFinish k c f.serial
  else if f.complete then s.finish k c f.serial
  else s

/-- Confirm the speculative descriptors older than the oldest unresolved BRANCH (R121); the buffer space that they leave
serves the reads that wait (R120). `mets` are what the writes to their destinations meet (R154). -/
def State.confirm (s : State) (k c : Nat) (mets : Meets) : State :=
  let x := s.core k c
  let limit := (x.branches.head?).getD x.serial
  let due := x.flights.filter fun f => f.spec && decide (f.serial < limit)
  (due.foldl (fun (s : State) (f : Flight) => s.confirmFlight k c mets f) s).pumpCore k c

/-- Every descriptor of a core is abandoned (R123, R137): reads cancelled, buffers emptied, engines
stopped without writing. -/
def State.abandonCore (s : State) (k c : Nat) : State :=
  let (s, _) := s.cancelTags k (ofFlight c 0)
  let x := s.core k c
  s.setCore k c { x with
    running := false, flights := [], branches := [], runAhead := 0, mma := [], specData := []
    halted := false, waitFrom := none }

end Sys2Proof.Machine
end

