-- ==== Sys2Proof/Machine/Cores.lean ====
section
/-!
DEFINITION. The matrix-core rows: register clears (R84), the descriptors and their completions (R74,
R79, R81, R95 to R107), dynamic-slot fills (R117).
-/

namespace Sys2Proof.Machine

open Sys2Proof

/-- Set CORE_PARITY_CNT to 0 (R84); the per-core registers of a core that is not enabled read 0 and
take no effect. -/
def State.clrParity (s : State) (k c : Nat) : State :=
  s.setF (Reg.CORE_PARITY_CNT k c) Fld.CORE_PARITY_CNT_COUNT 0

/-- Set CORE_SLACK_MIN to 0x7FFF_FFFF (R84). -/
def State.clrMin (s : State) (k c : Nat) : State :=
  s.setF (Reg.CORE_SLACK_MIN k c) Fld.CORE_SLACK_MIN_MIN 0x7FFFFFFF

/-- CLR_PARITY (R84). -/
def execClrParity (k : Stack) (c : Core) (s : State) : Out := .next (s.clrParity k c)

/-- CLR_MIN (R84). -/
def execClrMin (k : Stack) (c : Core) (s : State) : Out := .next (s.clrMin k c)

/-! ### MMA (R71 to R77, R95, R96) -/

/-- Groups of an MMA descriptor: K ÷ 32. -/
def mmaGroups (d : BitVec 512) : Nat := df d 217 208
/-- Cycles per group of a mixed pair (R71). -/
def mmaCycles (d : BitVec 512) : Nat := max (groupCycles (df d 35 32)) (groupCycles (df d 39 36))

/-- When an MMA descriptor that is ready at cycle `t` enters, drains and finishes, after the runs
before it (R74, R75). One that becomes ready after the last group of the one before has entered, so that its
`t + 12` falls before that group ends, starts when the array is free: the spec gives `t + 12` and says nothing of
the busy array (DESIGN CHOICE, log 38). -/
def mmaSchedule (runs : List MmaRun) (serial t : Nat) (d : BitVec 512) : MmaRun :=
  let bank := df d 46 46
  let start := match runs.getLast? with
    | some r => if t < r.lastEntry then r.groupsEnd else max (t + 12) r.groupsEnd
    | none => t + 12
  let bankFree := (runs.filter fun r => decide (r.bank = bank)).foldl (fun m r => max m r.bankFree) 0
  let start := max start bankFree
  let ends := start + mmaGroups d * mmaCycles d
  let conv := decide (df d 48 48 = 1)
  { serial := serial, groupsStart := start, groupsEnd := ends, lastEntry := ends - mmaCycles d
    bankFree := if conv then ends + 8 + 256 else 0
    done := if conv then ends + 8 + 266 else ends + 8, bank := bank }

/-- MMA (R95): the next descriptor is an MMA and may issue; `fetched` says what it
meets (R416, R417). -/
def execMma (k : Stack) (c : Core) (fetched : Fetch) (s : State) : Out :=
  match s.ready k c 1 with
  | none => .next s
  | some d =>
    if fetched = .bad then .next (s.fetchParity k c) else
    let s := s.useParity k c fetched
    let x := s.core k c
    let run := mmaSchedule x.mma x.serial (s.cycle k c) d
    let s := s.issue k c d 1 [] []
    .next (s.setCore k c { s.core k c with mma := (s.core k c).mma ++ [run] })

/-- One group of 32 operand elements at block `g` of a row or column whose elements begin at `addr` and
whose scale bytes begin at `saddr`, both core-store offsets (R35, R36, R96). -/
def State.mmaOperand (s : State) (k c fmt addr saddr g : Nat) : Group :=
  let base := coreStoreBase c
  let bytes := s.readMem k (base + addr + g * groupBytes fmt) (groupBytes fmt)
  if fmt = 9 then let (x, vs) := zs4Elems bytes; ⟨vs, x⟩
  else if fmt = 1 ∨ fmt = 2 then
    let n := leNat bytes
    ⟨(List.range 32).map fun i => (ieeeFmt fmt).decode (n / 2 ^ (16 * i) % 2 ^ 16), 127⟩
  else ⟨mxElems fmt bytes, (s.byteAt k (base + saddr + g)).toNat⟩

/-- The accumulator of element `(m, n)` after a descriptor's groups in ascending K order (R44, R45). -/
def State.mmaAcc (s : State) (k c : Nat) (d : BitVec 512) (m n : Nat) : BitVec 32 :=
  let x := s.core k c
  let start := if df d 47 47 = 1 then SMap.get 0 x.acc (8192 * df d 46 46 + 64 * m + n) else 0
  (List.range (mmaGroups d)).foldl (fun acc g => accumGroup acc
    (s.mmaOperand k c (df d 35 32) (df d 83 64 + m * df d 239 224) (df d 147 128 + m * df d 287 272) g)
    (s.mmaOperand k c (df d 39 36) (df d 103 84 + n * df d 255 240) (df d 167 148 + n * df d 303 288) g))
    start

/-- SR word of output element `(m, n)` (R48, R96). -/
def State.mmaSr (s : State) (k c : Nat) (d : BitVec 512) (m n : Nat) : BitVec 32 :=
  srWord (ctxSeed s.rs (s.core k c).ctx) (BitVec.ofNat 32 (df d 351 320))
    (df d 431 384 + m * df d 479 448 + n) (BitVec.ofNat 32 (s.effStep k c d (df d 383 352)))

/-- The output stage writes one row from its accumulators (R73, R76, R96). -/
def State.mmaOutRow (s : State) (k c : Nat) (d : BitVec 512) (m : Nat) (row : List (BitVec 32)) : State :=
  let fmt := df d 43 40
  let mode := rmodeOf (df d 45 44)
  let vals := row.map fun a => fmtFP32.decode a.toNat
  let out := coreStoreBase c + df d 123 104 + m * df d 271 256
  if fmt = 0 then s.writeMem k out (row.flatMap fun a => leBytes 4 a.toNat)
  else if fmt = 1 ∨ fmt = 2 then
    s.writeMem k out (vals.zipIdx.flatMap fun (v, n) =>
      leBytes 2 ((ieeeFmt fmt).encodeIeee mode (s.mmaSr k c d m n) v))
  else
    (List.range (vals.length / 32)).foldl (fun (t : State) b =>
      let blk := convBlock fmt mode (fun i => s.mmaSr k c d m (32 * b + i)) ((vals.drop (32 * b)).take 32)
      let t := t.writeMem k (out + b * groupBytes fmt) (blk.bytes fmt)
      if fmt = 9 then t
      else t.writeMem k (coreStoreBase c + df d 187 168 + m * df d 319 304 + b) [BitVec.ofNat 8 blk.scale]) s

/-- The accumulators and output of an MMA descriptor (R44, R45, R76): operands are read, every cell's
groups enter in order, and with CONVERT the output stage writes the tile. -/
def State.mmaEffect (s : State) (k c : Nat) (d : BitVec 512) : State :=
  let rows := 8 * df d 196 192
  let cols := 8 * df d 203 200
  let tile := (List.range rows).map fun m => (List.range cols).map fun n => s.mmaAcc k c d m n
  let x := s.core k c
  let acc := tile.zipIdx.foldl (fun acc (row, m) => row.zipIdx.foldl (fun acc (v, n) =>
    SMap.set 0 acc (8192 * df d 46 46 + 64 * m + n) v) acc) x.acc
  let s := s.setCore k c { x with acc := acc }
  if df d 48 48 = 1 then
    tile.zipIdx.foldl (fun (t : State) (row, m) => t.mmaOutRow k c d m row) s
  else s

/-- MMA_COMPLETE (R74): the oldest MMA on the array reaches its last cycle. `storeFlaws` counts
core-store mismatches of its operand reads; `arrayBad` is a parity failure on the operand path, the
accumulators or the output stage, after which nothing is written (R416). -/
def execMmaComplete (k : Stack) (c : Core) (storeFlaws : Nat) (arrayBad : Bool) (s : State) : Out :=
  let x := s.core k c
  match x.mma with
  | [] => .next s
  | run :: _ =>
    match x.flight run.serial with
    | none => .next s
    | some f =>
      if s.cycle k c < run.done then .next s else
      let s := s.coreStoreParity k c storeFlaws
      let s := if arrayBad then s.coreFault k c [f.idx] else s.mmaEffect k c f.desc
      let x := s.core k c
      let s := s.setCore k c { x with
        mma := x.mma.filter fun r => decide (r.serial ≠ run.serial)
        mmaCyc := x.mmaCyc + mmaGroups f.desc * mmaCycles f.desc }
      .next (s.finish k c run.serial)

/-! ### MOVE (R98 to R100) -/

/-- Cut a range into pieces that lie within 4,096-byte aligned blocks of `align + i` (log 7). -/
def cutPieces (src dst align len : Nat) : Nat → List Piece
  | 0 => []
  | fuel + 1 =>
    if len = 0 then [] else
    let n := min len (4096 - align % 4096)
    ⟨src, dst, n, false⟩ :: cutPieces (src + n) (dst + n) (align + n) (len - n) fuel

/-- Mark the last piece for each destination site, which carries LAST (R110). -/
def markLast : List Piece → List Piece
  | [] => []
  | p :: ps => (if ps.any fun q => decide (q.dst / 2 ^ 43 = p.dst / 2 ^ 43) then p else { p with last := true }) ::
      markLast ps

/-- The row's index of an index list (R100). -/
def State.moveIndex (s : State) (k c : Nat) (d : BitVec 512) (r : Nat) : Nat :=
  leNat (s.readMem k (coreStoreBase c + df d 339 320 + 4 * r) 4)

/-- The rows of a MOVE: source, destination, or none where the index is not below IDX_LIMIT (R100). -/
def State.moveRow (s : State) (k c : Nat) (d : BitVec 512) (r : Nat) : Option (Nat × Nat) :=
  let idx := df d 33 32
  let i := if idx = 0 then r else s.moveIndex k c d r
  let src := df d 127 64 + (if idx = 2 then r else i) * df d 287 256
  let dst := df d 191 128 + (if idx = 1 then r else i) * df d 319 288
  if idx ≠ 0 ∧ df d 383 352 ≤ i then none else some (src, dst)

/-- The pieces of a MOVE in row order; reads and writes are cut at the remote end (log 7). -/
def State.movePieces (s : State) (k c : Nat) (d : BitVec 512) : List Piece :=
  let n := df d 223 192
  let cls := s.moveClass k d
  markLast ((List.range (df d 255 224)).flatMap fun r =>
    match s.moveRow k c d r with
    | none => []
    | some (src, dst) =>
      cutPieces src dst (if cls = .write then gOff dst else gOff src) n (n / 32 + 1))

/-- Is some row's index out of range (R100)? -/
def State.moveBadIndex (s : State) (k c : Nat) (d : BitVec 512) : Bool :=
  decide (df d 33 32 ≠ 0) && (List.range (df d 255 224)).any fun r => (s.moveRow k c d r).isNone

/-- Multicast packets of a MOVE (R62, R63, R202): one MCAST_WRITE per piece of the payload, which was read once, the
offset in the group's base in ADDR[42:12], LAST and a tag on the final one. -/
def State.mcastPackets (s : State) (k c : Nat) (d : BitVec 512) (pay : List Byte) : List Packet :=
  let x := s.core k c
  let ps := markLast (cutPieces (df d 127 64) 0 0 (df d 223 192) (df d 223 192 / 32 + 1))
  ps.map fun p => s.stamp k c { Packet.zero with
    op := 0x03, mcast := true, last := p.last, ctx := BitVec.ofNat 8 x.ctx
    dstPkg := BitVec.ofNat 16 s.pkg
    addr := BitVec.ofNat 43 (df d 139 128 + p.dst * 2 ^ 12), len := BitVec.ofNat 13 p.len
    payload := (pay.drop p.dst).take p.len }

/-- Send the copies of a multicast MOVE: every packet to each site and along each branch, the last ones under one tag (R202,
R209, R273). -/
def State.mcastSend (s : State) (k c serial : Nat) (copies : List (Option Nat × Site)) (ps : List Packet) : State :=
  if copies = [] then s else
  ps.foldl (fun (s : State) p =>
    if !p.last then s.sendCopies k p copies else
    match (s.core k c).flight serial with
    | none => s
    | some f =>
      (s.setCore k c ((s.core k c).setFlight { f with left := f.left + 1 })).sendTagged k
        ⟨c, copies, false, p, p.len.toNat, .desc c serial⟩) s

/-- What a multicast MOVE does at its own site for one site of the group: the own copy is written; a site that is not live
fails at the issuer (R24); a bridge's copy updates the lines that the issuing stack caches (R165, R202). -/
def State.mcastHere (s : State) (k c serial : Nat) (mets : Meets) (pay : List Byte) (d : Nat × List Nat) : State :=
  if d.1 = k then d.2.foldl (fun (s : State) o => s.writeLocal k c serial o mets pay) s else
  match s.localFail k c s.pkg d.1 with
  | some st => s.failFlight k c serial (0x300 + st)
  | none =>
    if siteKind d.1 = .bridge then
      d.2.foldl (fun (s : State) o => s.cacheWrite k (s.core k c).ctx d.1 o 0 pay) s
    else s

/-- A multicast MOVE (R62, R63, R202, R273): the payload is read once, written at the places of its own site, and sent
to each other site and along each branch. -/
def State.moveMcast (s : State) (k c serial : Nat) (mets : Meets) (d : BitVec 512) : State :=
  match s.ownFails k (s.core k c).ctx (gOff (df d 127 64)) (df d 223 192) true false with
  | some st => s.failFlight k c serial (0x300 + st)
  | none =>
    match mcastRec s.rs (df d 139 128) with
    | none => s
    | some r =>
      let pay := s.readMem k (gOff (df d 127 64)) (df d 223 192)
      let sites := (mcastDests r).map fun (site, stops, base) => (site, mcastPlaces site base stops)
      let far := sites.filter fun e => decide (e.1 ≠ k) && (s.localFail k c s.pkg e.1).isNone
      let s := sites.foldl (fun (s : State) e => s.mcastHere k c serial mets pay e) s
      s.mcastSend k c serial (far.map (fun e => (none, siteOf e.1)) ++ (mcastBranches r).map fun b => (some b, siteOf 0))
        (s.mcastPackets k c d pay)

/-- The checks of the parity failures that a transfer's source and index reads meet at its own site; a
status means that nothing is written (R66, R70, R168). -/
def State.sourceCheck (s : State) (k c : Nat) (flaws : Flaws) (leaves : Bool) : State × Option Nat :=
  flaws.foldl (fun (st : State × Option Nat) f =>
    let (s, r) := st.1.readCheck k f.1 1 [f] leaves [c]
    (s, if r.isSome then r else st.2)) (s, none)

/-- Is an own-site offset in the index list of a MOVE (R100)? -/
def inIndexList (c : Nat) (d : BitVec 512) (o : Nat) : Bool :=
  decide (df d 33 32 ≠ 0) && within o 1 (coreStoreBase c + df d 339 320) (4 * df d 255 224)

/-- The parity failures that a MOVE meets at its own site when it issues: those of its index list, and, unless its source
is read elsewhere or by pieces while it is speculative, those of its source; a status means that nothing is moved (R66,
R70, R120, R168). -/
def State.moveCheck (s : State) (k c : Nat) (d : BitVec 512) (cls : MoveClass) (spec : Bool) (flaws : Flaws) :
    State × Option Nat :=
  match cls with
  | .read => ((s.sourceCheck k c (flaws.filter fun f => inIndexList c d f.1) false).1, none)
  | .write => s.sourceCheck k c flaws true
  | .local_ =>
    if spec then ((s.sourceCheck k c (flaws.filter fun f => inIndexList c d f.1) false).1, none)
    else s.sourceCheck k c flaws false

/-- The parity failures of a MOVE that its later reads meet: at the cache, or at its own site while it is speculative. -/
def laterFlaws (c : Nat) (d : BitVec 512) (cls : MoveClass) (spec : Bool) (flaws : Flaws) : Flaws :=
  match cls with
  | .read => flaws.filter fun f => !(inIndexList c d f.1)
  | .write => []
  | .local_ => if spec then flaws.filter fun f => !(inIndexList c d f.1) else []

/-- A MOVE issues (R99, R120): a store fault of a speculative one is no fault of its descriptor. -/
def State.moveIssued (s : State) (k c : Nat) (d : BitVec 512) (flaws : Flaws) (mets : Meets) : State :=
  let serial := (s.core k c).serial
  let bad := s.moveBadIndex k c d
  let cls := s.moveClass k d
  let ps := if df d 34 34 = 1 then [] else s.movePieces k c d
  let spec := !(s.core k c).branches.isEmpty
  let (s, failed) := s.moveCheck k c d cls spec flaws
  let s := (s.issue k c d 0 (if failed.isSome then [] else ps) []).flightMeets k c serial (laterFlaws c d cls spec flaws) mets
  let s := if bad then s.failFlight k c serial 0x0202 else s
  match failed with
  | some st => if spec then s else (s.failFlight k c serial (0x300 + st)).tryFinish k c serial
  | none =>
    if df d 34 34 = 1 then (s.moveMcast k c serial mets d).tryFinish k c serial
    else if cls = .local_ then (if spec then s.specRead k c serial ps else s)
    else (s.pump k c serial (pumpFuel ps)).tryFinish k c serial

/-- MOVE (R99): the next descriptor is a MOVE and may issue; a read needs a free tag (R113). `flaws` are the parity
failures its reads meet: at offsets of its own site, or of the bridge where a read hits the cache; `mets` what its
writes on its own site meet. -/
def execMoveDesc (k : Stack) (c : Core) (fetched : Fetch) (flaws : Flaws) (mets : Meets) (s : State) : Out :=
  match s.ready k c 3 with
  | none => .next s
  | some d =>
    if fetched = .bad then .next (s.fetchParity k c)
    else if s.moveClass k d = .read ∧ (s.gw k).freeTag c = none then .next s
    else .next ((s.useParity k c fetched).moveIssued k c d flaws mets)

/-- One piece of a local move: read, and written over the die's meshes (R92). `flaws` are the parity failures that a piece
which confirmation left unread meets (R70, R120, R168). -/
def State.movePiece (s : State) (k c serial : Nat) (flaws : Flaws) (mets : Meets) (p : Piece) : State :=
  match s.ownFails k (s.core k c).ctx (gOff p.src) p.len true false with
  | some st => s.failFlight k c serial (0x300 + st)
  | none =>
    match s.readCheck k (gOff p.src) p.len flaws false [c] with
    | (s, some st) => s.failFlight k c serial (0x300 + st)
    | (s, none) => s.writeLocal k c serial p.dst mets (s.readMem k (gOff p.src) p.len)

/-- LOCAL_MOVE_COMPLETE (R92): the last byte of a local move is written over the die's meshes; the source is read then
(log 7). A move to a slot-fill window that takes no more records waits for them to be taken (R117). -/
def execLocalMoveComplete (k : Stack) (c : Core) (serial : Nat) (mets : Meets) (s : State) : Out :=
  match (s.core k c).flight serial with
  | none => .next s
  | some f =>
    if dOp f.desc = 3 ∧ s.moveClass k f.desc = .local_ ∧ df f.desc 34 34 = 0 ∧ f.spec = false then
      .next (((f.todo.foldl (fun (s : State) p => s.movePiece k c serial f.flaws mets p) s).setTodo k c serial []).tryFinish
        k c serial)
    else .next s

/-! ### SIGNAL and WAIT (R102, R103) -/

/-- SIGNAL (R102): a SIGNAL to the issuing site increments the token directly, any other sends a
SIGNAL packet with a tag. -/
def execSignalDesc (k : Stack) (c : Core) (fetched : Fetch) (s : State) : Out :=
  match s.ready k c 5 with
  | none => .next s
  | some d =>
    if fetched = .bad then .next (s.fetchParity k c) else
    let s := s.useParity k c fetched
    let serial := (s.core k c).serial
    let target := df d 127 64
    let amount := df d 159 128
    let s1 := s.issue k c d 0 [] []
    if s.onSite k target then
      .next ((s1.raiseToken k (target % 128) (df d 43 32) amount).finish k c serial)
    else
      match s.localFail k c (gPkg target) (gSite target) with
      | some st => .next ((s1.failFlight k c serial (0x300 + st)).finish k c serial)
      | none =>
        let p := s1.stamp k c { Packet.zero with
          op := 0x20, vc := 5, ctx := BitVec.ofNat 8 (s.core k c).ctx
          dstPkg := BitVec.ofNat 16 (gPkg target), dstSite := siteOf (gSite target)
          addr := BitVec.ofNat 43 (target % 128), len := 32
          payload := leBytes 4 (df d 43 32) ++ leBytes 4 amount ++ leBytes 24 0 }
        match s1.allocTag k ⟨c, [], false, p, 32, .desc c serial⟩ with
        | none => .next s
        | some (s2, p) =>
          match (s2.core k c).flight serial with
          | none => .next s2
          | some f => .next ((s2.setCore k c ((s2.core k c).setFlight { f with left := 1 })).send k p)

/-- WAIT (R103): the WAIT issues and holds younger descriptors until its token reaches the threshold;
the cycles it stands count (R84). -/
def execWaitDesc (k : Stack) (c : Core) (fetched : Fetch) (s : State) : Out :=
  match s.ready k c 6 with
  | none => .next s
  | some d =>
    if fetched = .bad then .next (s.fetchParity k c) else
    let s := s.useParity k c fetched
    let s := (s.endWait k c).issue k c d 0 [] []
    .next ((s.setCore k c { s.core k c with waitFrom := some (s.cycle k c) }).syncSeq k c)

/-- Does another core of a cluster come first on a cluster token: it stands at a consuming WAIT that the token's value `v`
satisfies, and its rank in this bell is lower (R112, R153)? -/
def State.waitFirst (s : State) (k c ref v : Nat) : Bool :=
  let b := (s.bellAt k).bell
  decide (ref / 1024 % 4 = 2) && (List.range 8).any fun n =>
    decide (rank 8 n b < rank 8 (c % 8) b) &&
    match (s.core k (c / 8 * 8 + n)).waiting with
    | none => false
    | some g => decide (df g.desc 43 32 % 4096 = ref % 4096) && decide (df g.desc 44 44 = 1) && decide (df g.desc 95 64 ≤ v)

/-- WAIT_SATISFIED (R103): the token has reached THRESHOLD; with CONSUME the threshold is subtracted. Of
consuming WAITs that meet on a cluster token the one of lowest rank goes first (R112, R153). A sequencer that then
stands at an open slot waits there (R118). -/
def execWaitSatisfied (k : Stack) (c : Core) (s : State) : Out :=
  match (s.core k c).waiting with
  | none => .next s
  | some f =>
    match tokenReg k c (df f.desc 43 32) with
    | none => .next s
    | some a =>
      let v := s.getF a Fld.CORE_TOKEN_VALUE
      let thr := df f.desc 95 64
      if v < thr ∨ (df f.desc 44 44 = 1 ∧ s.waitFirst k c (df f.desc 43 32) v = true) then .next s else
      let s := if df f.desc 44 44 = 1 then s.setF a Fld.CORE_TOKEN_VALUE (v - thr) else s
      .next (((s.endWait k c).waitOver k c f.serial).slotWait k c)

/-! ### BRANCH and FENCE (R104, R105, R119 to R122) -/

/-- Index of a BRANCH's target. -/
def branchTarget (idx : Nat) (d : BitVec 512) : Nat := ((idx : Int) + sint32 (df d 223 192)).toNat

/-- BRANCH (R104, R119): the BRANCH is met and the sequencer runs ahead along its hint. -/
def execBranchDesc (k : Stack) (c : Core) (fetched : Fetch) (s : State) : Out :=
  match s.ready k c 7 with
  | none => .next s
  | some d =>
    if fetched = .bad then .next (s.fetchParity k c) else
    let s := s.useParity k c fetched
    let x := s.core k c
    let s := s.issueFlight k c d 0 [] []
    let y := s.core k c
    let y := { y with
      branches := x.branches ++ [x.serial]
      runAhead := if x.branches.isEmpty then 0 else y.runAhead
      pc := if df d 37 37 = 1 then branchTarget x.pc d else x.pc + 1 }
    .next (((s.setCore k c y).slotWait k c).syncSeq k c)

/-- A number as a signed value of `w` bits. -/
def signedOf (w n : Nat) : Int := if n < 2 ^ (w - 1) then (n : Int) else (n : Int) - 2 ^ w

/-- The condition of a BRANCH on its value (R104). -/
def branchTaken (d : BitVec 512) (v : Nat) : Bool :=
  let w := 8 * 2 ^ df d 36 35
  let o := df d 191 128 % 2 ^ w
  match df d 34 32 with
  | 0 => decide (v = o)
  | 1 => decide (v ≠ o)
  | 2 => decide (v < o)
  | 3 => decide (o ≤ v)
  | 4 => decide (signedOf w v < signedOf w o)
  | 5 => decide (signedOf w o ≤ signedOf w v)
  | 6 => decide (v &&& o ≠ 0)
  | _ => decide (v &&& o = 0)

/-- The oldest BRANCH resolves as hinted: younger work is confirmed (R121). -/
def State.branchHinted (s : State) (k c : Nat) (mets : Meets) (b : Nat) (rest : List Nat) (f : Flight) : State :=
  let x := s.core k c
  let s := s.setCore k c { (x.setFlight { f with spec := false }) with
    branches := rest
    runAhead := match rest with
      | [] => 0
      | n :: _ => (x.flights.filter fun g => decide (n < g.serial)).length }
  ((s.finish k c b).confirm k c mets).syncSeq k c

/-- The oldest BRANCH resolves against its hint: younger work is squashed, and the sequencer goes on at `pc` (R122). -/
def State.branchMissed (s : State) (k c : Nat) (b pc : Nat) (f : Flight) : State :=
  let s := (s.squashFrom k c (b + 1)).endWait k c
  let x := s.core k c
  let s := s.setCore k c { (x.setFlight { f with spec := false }) with
    branches := [], runAhead := 0, squashes := min 0xFFFF (x.squashes + 1), pc := pc }
  ((s.finish k c b).slotWait k c).syncSeq k c

/-- BRANCH_RESOLVE (R104): the oldest BRANCH reads its value once every older descriptor is complete; as
hinted, younger work is confirmed (R121), against the hint it is squashed (R122). `flaws` are the core-store
mismatches that its read meets (R70), `mets` what the confirmed writes meet (R154). -/
def execBranchResolve (k : Stack) (c : Core) (flaws : Flaws) (mets : Meets) (s : State) : Out :=
  match (s.core k c).branches with
  | [] => .next s
  | b :: rest =>
    match (s.core k c).flight b with
    | none => .next s
    | some f =>
      if (s.core k c).flights.any (fun g => decide (g.serial < b)) then .next s else
      let s := (s.sourceCheck k c flaws false).1
      let v := leNat (s.readMem k (coreStoreBase c + df f.desc 83 64) (2 ^ df f.desc 36 35))
      let taken := branchTaken f.desc v
      .next (if taken = decide (df f.desc 37 37 = 1) then s.branchHinted k c mets b rest f
        else s.branchMissed k c b (if taken then branchTarget f.idx f.desc else f.idx + 1) f)

/-- FENCE (R105): the FENCE issues and holds younger descriptors. -/
def execFenceDesc (k : Stack) (c : Core) (fetched : Fetch) (s : State) : Out :=
  match s.ready k c 8 with
  | none => .next s
  | some d =>
    if fetched = .bad then .next (s.fetchParity k c) else .next ((s.useParity k c fetched).issue k c d 0 [] [])

/-- FENCE_COMPLETE (R105): every older descriptor of each selected class is complete. -/
def execFenceComplete (k : Stack) (c : Core) (s : State) : Out :=
  let x := s.core k c
  match x.flights.find? (fun f => decide (dOp f.desc = 8) && !f.complete) with
  | none => .next s
  | some f =>
    let older := x.flights.any fun g => decide (g.serial < f.serial) &&
      decide (df f.desc 36 32 / 2 ^ s.fenceClass k g.desc % 2 = 1)
    if older then .next s else .next (s.waitOver k c f.serial)

/-! ### COMMIT_WRITE and BELL_END (R106, R107) -/

/-- COMMIT_WRITE (R106): WRITE_COMMIT packets, one per 4,096-byte block of the target its range
touches. `flaws` are the parity failures that its source reads meet, at its own site (R70, R168). -/
def execCommitWrite (k : Stack) (c : Core) (fetched : Fetch) (flaws : Flaws) (s : State) : Out :=
  match s.ready k c 9 with
  | none => .next s
  | some d =>
    if fetched = .bad then .next (s.fetchParity k c) else
    let s := s.useParity k c fetched
    let serial := (s.core k c).serial
    let n := df d 223 192
    let ps := cutPieces (df d 127 64) (df d 191 128) (gOff (df d 191 128)) n (n / 32 + 1)
    let (s, failed) := s.sourceCheck k c flaws true
    let s := s.issue k c d 0 (if failed.isSome then [] else ps) []
    match failed with
    | some st => .next ((s.failFlight k c serial (0x300 + st)).tryFinish k c serial)
    | none => .next ((s.pump k c serial (pumpFuel ps)).tryFinish k c serial)

/-- BELL_END (R107): the sequencer reaches BELL_END and waits. -/
def execBellEnd (k : Stack) (c : Core) (fetched : Fetch) (s : State) : Out :=
  match s.ready k c 10 with
  | none => .next s
  | some _ =>
    if fetched = .bad then .next (s.fetchParity k c) else
    let s := s.useParity k c fetched
    .next ((s.setCore k c { s.core k c with atEnd := true }).syncSeq k c)

/-- The smallest slack of the site's enabled cores, and the lowest core that has it (R83, R86). -/
def State.minSlack (s : State) (k : Nat) : Int × Nat :=
  (s.enabledCores k).foldl (fun (m : Int × Nat) c =>
    let v := sint32 (s.getF (Reg.CORE_SLACK k c) Fld.CORE_SLACK_SLACK)
    if v < m.1 then (v, c) else m) (2 ^ 31, 0)

/-- Have all enabled cores of a site that have a program in this bell retired BELL_END? -/
def State.allRetired (s : State) (k : Nat) : Bool :=
  (s.enabledCores k).all fun c => !(s.core k c).running || (s.core k c).retired

/-- Put a core's slack and per-bell registers (R83, R84), and the site's when it is the last. -/
def State.putSlack (s : State) (k c : Nat) (slack : Int) : State :=
  let x := s.core k c
  let s := s.setF (Reg.CORE_SLACK k c) Fld.CORE_SLACK_SLACK (twos32 slack)
  let s := if slack < sint32 (s.getF (Reg.CORE_SLACK_MIN k c) Fld.CORE_SLACK_MIN_MIN) then
    s.setF (Reg.CORE_SLACK_MIN k c) Fld.CORE_SLACK_MIN_MIN (twos32 slack) else s
  let s := s.setF (Reg.CORE_STATUS k c) Fld.CORE_STATUS_BELL ((s.bellAt k).bell % 256)
  let s := s.setF (Reg.CORE_MMA_CYC k c) Fld.CORE_MMA_CYC_CYCLES x.mmaCyc
  let s := s.setF (Reg.CORE_WAIT_CYC k c) Fld.CORE_WAIT_CYC_CYCLES x.waitCyc
  let s := s.setF (Reg.CORE_STRETCH k c) Fld.CORE_STRETCH_PERIODS
    (SMap.get RegionSt.idle s.regions (coreRegion k c)).periods
  let s := s.setF (Reg.CORE_SQUASH_CNT k c) Fld.CORE_SQUASH_CNT_SQUASHES x.squashes
  let s := s.setF (Reg.CORE_SQUASH_CNT k c) Fld.CORE_SQUASH_CNT_CANCELLED x.cancelled
  if s.allRetired k then
    let (v, m) := s.minSlack k
    let s := s.setF (Reg.CORE_SITE_SLACK k) Fld.CORE_SITE_SLACK_SLACK (twos32 v)
    let s := s.setF (Reg.CORE_SITE_SLACK_SRC k) Fld.CORE_SITE_SLACK_SRC_BELL ((s.bellAt k).bell % 256)
    s.setF (Reg.CORE_SITE_SLACK_SRC k) Fld.CORE_SITE_SLACK_SRC_CORE m
  else s

/-- Is a read of the core outstanding? -/
def State.readsOut (s : State) (k c : Nat) : Bool :=
  (s.gw k).tags.any fun kv => match kv.2.purpose with
    | .descRead c' _ _ _ => decide (c' = c)
    | .cacheRead c' _ _ _ _ _ _ => decide (c' = c)
    | _ => false

/-- BELL_END_RETIRE (R107): every older descriptor is complete and every read is back; the core retires
and its registers take the bell (R83, R84). -/
def execBellEndRetire (k : Stack) (c : Core) (s : State) : Out :=
  let x := s.core k c
  if x.running && x.atEnd && !x.retired && !x.halted && x.flights.isEmpty && !(s.readsOut k c) then
    let b := s.bellAt k
    let slack : Int := (guardAt b s.rs 0 : Int) - s.vt - (if s.vtFrac = 0 then 0 else 1)
    let s := s.setCore k c { x with retired := true }
    .next ((s.putSlack k c slack).syncSeq k c)
  else .next s

/-! ### Fill records (R117) -/

/-- FILL_RECORD (R117, R162): a write of bytes at a 128-byte place of a core's slot-fill window, by the context of its
writer. The window of a core that is not enabled has no place for it (R161). -/
def execFillRecord (k : Stack) (c : Core) (ctx : Ctx) (at_ : Fin 32) (bytes : List Byte) (s : State) : Out :=
  let a := slotFillBase c + 128 * at_.val
  .next (if s.coreRole k c = 0 then s.fillWrite k c ctx.toNat a false bytes none none else s)

end Sys2Proof.Machine
end

