-- ==== Sys2Proof/Machine/Store.lean ====
section
/-!
DEFINITION. The image store (R306 to R308): where its slots lie, and which are locked.
-/

namespace Sys2Proof.Machine

open Sys2Proof

/-- Where a slot lies: bridge site, offset and size; none where it is absent or lost (R306, R307). -/
def State.slotPlace (s : State) (part : Bool) (slot : Nat) : Option (Nat × Nat × Nat) :=
  let a := Reg.CFG_STORE_MAP
  let lost := s.getF a Fld.CFG_STORE_MAP_LOST
  let pick (valid site : Fld) (bit off size : Nat) : Option (Nat × Nat × Nat) :=
    if s.getF a valid = 1 ∧ lost / 2 ^ bit % 2 = 0 then some (s.getF a site, off, size) else none
  match part with
  | false =>
    if slot = 0 then pick Fld.CFG_STORE_MAP_FULL0_VALID Fld.CFG_STORE_MAP_FULL0 0 0 0x40000000
    else if slot = 1 then pick Fld.CFG_STORE_MAP_FULL1_VALID Fld.CFG_STORE_MAP_FULL1 1 0 0x40000000
    else none
  | true =>
    if slot < 32 then
      pick Fld.CFG_STORE_MAP_PART0_VALID Fld.CFG_STORE_MAP_PART0 2 (slot * 0x2000000) 0x2000000
    else if slot < 64 then
      pick Fld.CFG_STORE_MAP_PART1_VALID Fld.CFG_STORE_MAP_PART1 3 ((slot - 32) * 0x2000000) 0x2000000
    else none

/-- Every slot: full 0 and 1, partial 0 to 63. -/
def allSlots : List (Bool × Nat) :=
  [(false, 0), (false, 1)] ++ (List.range 64).map fun p => (true, p)

/-- Is every byte of a range in the image store? -/
def State.inStore (s : State) (site a n : Nat) : Bool :=
  (List.range (n / 32 + 1)).all fun i =>
    let o := min (a + 32 * i) (a + n - 1)
    allSlots.any fun (k, x) => match s.slotPlace k x with
      | some (b, off, size) => decide (b = site) && within o 1 off size
      | none => false

/-- Is a slot locked (R308, R316)? -/
def State.slotLocked (s : State) (part : Bool) (slot : Nat) : Bool :=
  let at_ (i : Image) : Bool := decide (i.part = part) && decide (i.slot = slot)
  (s.cfg.full.any at_) || (s.cfg.pendFull.any at_) || s.cfg.partials.any at_ || s.cfg.pendPart.any at_ ||
  decide (s.cfg.check = some (part, slot))

/-- Does a range touch a locked slot? -/
def State.touchesLocked (s : State) (site a n : Nat) : Bool :=
  allSlots.any fun (k, x) => match s.slotPlace k x with
    | some (b, off, size) => decide (b = site) && meets a n off size && s.slotLocked k x
    | none => false

end Sys2Proof.Machine
end

