-- ==== Sys2Proof/Machine/Gateway.lean ====
section
/-!
DEFINITION. A gateway receives a packet (R212): the stream of the hop, forwarding, the checks of the ten
steps, sticky statuses (R214), dedupe (R252), answers (R207, R209) and the return of credits (R217).
-/

namespace Sys2Proof

/-- Byte `i` of a payload. -/
def Packet.byteAt (p : Packet) (i : Nat) : Nat := (p.payload.getD i 0).toNat

/-- `n` payload bytes from `o`, as a number. -/
def Packet.payNum (p : Packet) (o n : Nat) : Nat := leNat ((p.payload.drop o).take n)

/-- The issuer arguments of a packet. -/
def Packet.args (p : Packet) : List Nat := Machine.issuerArgs p.srcPkg.toNat p.srcSite.val p.issuer

/-- Bytes that a request touches at its address. -/
def Packet.span (p : Packet) : Nat :=
  if p.op = 0x18 ∨ p.op = 0x19 then (if p.fmt = 0xA then 4 else 8) else p.len.toNat

/-- The key of the request that a response answers. -/
def Packet.askKey (p : Packet) : Nat :=
  (p.dstPkg.toNat * 2 ^ 12 + p.dstSite.val * 128 + p.issuer) * 2 ^ 16 + p.tag.toNat * 16 + p.gen.toNat

end Sys2Proof

namespace Sys2Proof.Machine

open Sys2Proof

/-! ### Credits (R217) -/

/-- The site and package at the other end of a hop. -/
def State.hopPeer (s : State) (site : Nat) (h : Hop) : Nat × Nat :=
  match h with
  | .base p => (s.pkg, p.val)
  | .link l => match linkPeer s.rs (linkNum (site - 20) l.val) with
    | some (pkg, x) => (pkg, 20 + (linkHome x).1)
    | none => (s.pkg, site)

/-- Send a CREDIT packet on a hop with the units freed on each VC since the last (R217). -/
def State.sendCredit (s : State) (site : Nat) (h : Hop) : State :=
  let g := s.gw site
  let freed := (List.range 7).map fun v => SMap.get 0 g.freed (vcKey h v)
  let (pkg, peer) := s.hopPeer site h
  let p := s.stamp site 0 { Packet.zero with
    op := 0x38, vc := 5, dstPkg := BitVec.ofNat 16 pkg, dstSite := siteOf peer, len := 32
    payload := freed.flatMap (leBytes 2) ++ leBytes 18 0 }
  let g := { g with
    freed := (List.range 7).foldl (fun m v => SMap.del (vcKey h v) m) g.freed
    freedAt := SMap.del (hopNum h) g.freedAt }
  (s.setGw site g).sendHop site h p.sealed

/-- Units of a VC are freed in a hop's staging: a CREDIT goes once 64 units of any VC are freed (R217). -/
def State.freeUnits (s : State) (site : Nat) (h : Hop) (vc units : Nat) : State :=
  let g := s.gw site
  let n := SMap.get 0 g.freed (vcKey h vc) + units
  let at_ := match g.freedAt.find? (fun kv => decide (kv.1 = hopNum h)) with
    | some _ => g.freedAt
    | none => SMap.put (hopNum h) s.vt g.freedAt
  let s := s.setGw site { g with freed := SMap.set 0 g.freed (vcKey h vc) n, freedAt := at_ }
  if 64 ≤ n then s.sendCredit site h else s

/-! ### The stream of a hop (R212 step 1, R221) -/

/-- Is a gateway deaf: it has fenced itself, is silent, or is in reset (R337, R339)? -/
def State.deaf (s : State) (site : Nat) : Bool := (s.gw site).silent

/-- Has the gateway fenced the hop's peer or the packet's source (R336)? -/
def State.fromFenced (s : State) (site : Nat) (a : Arrival) : Bool :=
  (match a.hop with
   | .base p => s.fencedAt site p.val
   | .link _ => false) ||
  (decide (a.pkt.srcPkg.toNat = s.pkg) && s.fencedAt site a.pkt.srcSite.val)

/-- Symbol errors that a hop's code corrects in a codeword: RS(272,257) (R219), RS(544,514) (R235; log 40). -/
def fecLimit : Hop → Nat
  | .base _ => 7
  | .link _ => 15

/-- Granules of a data codeword (R219, R235). -/
def codeGranules : Hop → Nat
  | .base _ => 10
  | .link _ => 20

/-- Codewords received on a site's carriers are counted: those with corrected symbols, and those that could not be
corrected (R219, R231). -/
def State.countCodes (s : State) (site : Nat) (h : Hop) (codes : List Codeword) : State :=
  match h with
  | .base _ =>
    let bad := (codes.filter fun c => decide (fecLimit h < c.errs)).length
    let good := (codes.filter fun c => decide (0 < c.errs) && decide (c.errs ≤ fecLimit h)).length
    (s.bump (Reg.GW_FEC_CORR site) Fld.GW_FEC_CORR_COUNT good).bump (Reg.GW_FEC_UNCORR site) Fld.GW_FEC_UNCORR_COUNT bad
  | .link _ => s

/-- Lanes of the stripe that a site gathers a hop's stream from (R187). -/
def State.lanesIn (s : State) (site : Nat) (h : Hop) (ctrl : Bool) : Nat :=
  if ctrl then 1 else
  match h with
  | .base p => s.getF (Reg.FAB_RX_PAIR site p) Fld.FAB_RX_PAIR_CARRIERS
  | .link l => (s.linkAt (linkNum (site - 20) l)).rxWaves

/-- Is a granule of `n` stream bytes from byte `at_` among the granule positions of a codeword that could not be
corrected: every turn of its lane from its first granule on (R219)? -/
def granuleLost (h : Hop) (lanes at_ n : Nat) (codes : List Codeword) : Bool :=
  codes.any fun c => decide (fecLimit h < c.errs) && match c.pos with
    | none => false
    | some g => (List.range (codeGranules h)).any fun i =>
      decide ((g.toNat + i * lanes + 2 ^ 24 - at_ / 32) % 2 ^ 24 < (at_ % 32 + n + 31) / 32)

/-- Step 1 of R212 and the go-back-N of R221: the packet's granules arrive in order, or are lost, and then every granule
is discarded until the marked retransmission, which a NAK asks for. True: the packet is good. -/
def State.takeStream (s : State) (site : Nat) (a : Arrival) : State × Bool :=
  let k := s.rxKey site a.hop a.pkt.vc.toNat
  let s := s.countCodes site a.hop a.codes
  let st := s.stream site k
  if st.discard then (s, false)
  else if 32 ≤ st.skip then (s.setStream site k { st with skip := st.skip - a.pkt.bytes }, false)
  else
    let ctrl := decide (k % 2 = 1)
    if granuleLost a.hop (s.lanesIn site a.hop ctrl) st.expect a.pkt.bytes a.codes = true ∨
        a.pkt.crc ≠ a.pkt.calcCrc then
      ((s.setStream site k { st with discard := true, skip := 0 }).sendCode site a.hop
        ((s.lanes site a.hop ctrl).headD 0) none, false)
    else
      (s.setStream site k { st with expect := (st.expect + a.pkt.bytes) % streamSpan, skip := 0 }, true)

/-- Are granules of an arriving packet lost (R219)? -/
def State.arrivalLost (s : State) (site : Nat) (a : Arrival) : Bool :=
  let k := s.rxKey site a.hop a.pkt.vc.toNat
  granuleLost a.hop (s.lanesIn site a.hop (decide (k % 2 = 1))) (s.stream site k).expect a.pkt.bytes a.codes

/-! ### Well-formed (R212 step 2) -/

/-- Operations of R209. -/
def opKnown (op : Nat) : Bool :=
  decide (op ∈ [0x01, 0x02, 0x03, 0x08, 0x09, 0x10, 0x11, 0x12, 0x18, 0x19, 0x20, 0x30, 0x38])
/-- Is an operation a reduction? -/
def isReduce (op : Nat) : Bool := decide (op = 0x10) || decide (op = 0x11) || decide (op = 0x12)
/-- Is an operation a response? -/
def isResponse (op : Nat) : Bool := decide (op = 0x09) || decide (op = 0x30)
/-- Is an operation an atomic? -/
def isAtomic (op : Nat) : Bool := decide (op = 0x18) || decide (op = 0x19)

/-- The VCs of an operation (R209). -/
def vcFits (op vc : Nat) : Bool :=
  if op = 0x01 ∨ op = 0x08 then decide (vc ∈ [0, 3, 4, 6])
  else if op = 0x02 ∨ op = 0x03 then decide (vc = 0)
  else if isResponse op then decide (vc ∈ [2, 3, 4, 6])
  else if isReduce op then decide (vc = 1)
  else if isAtomic op then decide (vc = 4)
  else decide (vc = 5)

/-- FLAGS agree with R206. -/
def flagsFit (p : Packet) : Bool :=
  decide (p.commit = decide (p.op = 0x02)) && decide (p.mcast = decide (p.op = 0x03)) &&
  (!p.last || decide (p.op = 0x01) || decide (p.op = 0x03)) &&
  (!p.spec || decide (p.op = 0x08) || isResponse p.op.toNat)

/-- RED and FMT agree with R209. -/
def redFits (p : Packet) : Bool :=
  if isReduce p.op.toNat then
    decide (p.red.toNat = p.op.toNat - 0x0F) && decide (p.fmt.toNat ≤ 2)
  else decide (p.red = 0) &&
    (if isAtomic p.op.toNat then decide (p.fmt = 0xA) || decide (p.fmt = 0xB) else decide (p.fmt = 0))

/-- Elements of a granule in a format. -/
def granElems (fmt : Nat) : Nat := if fmt = 0 then 8 else 16

/-- LEN is legal for the operation, and the payload carried agrees with it (R204, R205). A LEN of 0 is legal only where an
operation has no payload to carry (DESIGN CHOICE, log 43). -/
def lenFits (p : Packet) : Bool :=
  let n := p.len.toNat
  let op := p.op.toNat
  decide (n % 32 = 0) && decide (n ≤ 4096) &&
  decide (p.payload.length = if op = 0x08 then 0 else n) &&
  (if isAtomic op ∨ op = 0x20 ∨ op = 0x38 then decide (n = 32)
   else if op = 0x30 then decide (n = 0)
   else if op = 0x09 then true
   else decide (0 < n))

/-- A SIGNAL is well-formed (R210). -/
def signalFits (p : Packet) : Bool :=
  let ref := p.payNum 0 2
  let c := p.addr.toNat
  decide (ref < 4096) && decide (p.payNum 2 2 = 0) && decide (p.payNum 4 4 ≠ 0) &&
  decide (p.payNum 8 24 = 0) && decide (c < 96) &&
  ((decide (ref / 1024 = 1) && decide (ref % 1024 < 256)) ||
   (decide (ref / 1024 = 2) && decide (c % 8 = 0)))

/-- Step 2 of R212, but for the destination. -/
def wellFormed (p : Packet) : Bool :=
  let op := p.op.toNat
  opKnown op && vcFits op p.vc.toNat && flagsFit p && redFits p && lenFits p &&
  decide (p.rsv = 0) && decide (p.pad = 0) &&
  (decide (p.mask = 0) || (decide (op = 0x01) && decide (p.len = 32))) &&
  (decide (p.padEl = 0) || (isReduce op && decide (p.padEl.toNat < granElems p.fmt.toNat))) &&
  (decide (op ≠ 0x20) || signalFits p)

/-! ### Answers and statuses (R207, R209, R214, R230) -/

/-- Does a packet carry a tag (R209)? -/
def tagged (p : Packet) : Bool :=
  p.last || (decide (p.op ≠ 0x01) && decide (p.op ≠ 0x03) && decide (p.op ≠ 0x38))

/-- A response to a request: acknowledgement or data (R207). -/
def State.answer (s : State) (site : Nat) (p : Packet) (status : Nat) (payload : List Byte) : Packet :=
  { Packet.zero with
    op := if status = 0 then 0x09 else 0x30
    vc := if p.vc = 3 ∨ p.vc = 4 ∨ p.vc = 6 then p.vc else 2
    spec := p.spec, ctx := p.ctx
    dstPkg := p.srcPkg, dstSite := p.srcSite, srcPkg := BitVec.ofNat 16 s.pkg, srcSite := siteOf site
    addr := p.addr, len := BitVec.ofNat 13 payload.length, tag := p.tag, gen := p.gen, bell := p.bell
    epoch := p.epoch, step := BitVec.ofNat 32 (p.issuer + 256 * status), payload := payload }

/-- Send an answer: the answer to a copy that another package's engine replicated goes back on the hop it
came by, since that engine gathers the answers (R273, R274; log 10). -/
def State.reply (s : State) (site : Nat) (h : Hop) (p r : Packet) : State :=
  if p.op = 0x03 ∧ p.srcPkg.toNat ≠ s.pkg then s.sendHop site h r.sealed else s.send site r

/-- Remember the first failure of a source's untagged packets (R214). -/
def State.setSticky (s : State) (site : Nat) (p : Packet) (status : Nat) : State :=
  let g := s.gw site
  if g.sticky.any (fun e => decide (e.1 = p.source)) ∨ 256 ≤ g.sticky.length then s
  else s.setGw site { g with sticky := g.sticky ++ [(p.source, status)] }

/-- The sticky status of a packet's source, taken out (R214). -/
def State.takeSticky (s : State) (site : Nat) (p : Packet) : State × Option Nat :=
  let g := s.gw site
  match g.sticky.find? (fun e => decide (e.1 = p.source)) with
  | none => (s, none)
  | some e => (s.setGw site { g with sticky := g.sticky.filter fun e => decide (e.1 ≠ p.source) }, some e.2)

/-- A request fails at the target with a status: reported, and answered where it carries a tag, with the
source's sticky status if there is one; an untagged one leaves its status (R213, R214). -/
def State.refuse (s : State) (site : Nat) (h : Hop) (p : Packet) (status : Nat) : State :=
  let s := s.raiseStatus site status p.args
  if isResponse p.op.toNat || decide (p.op = 0x38) then s
  else if !tagged p then s.setSticky site p status
  else if p.last then
    match s.takeSticky site p with
    | (s, some first) => s.reply site h p (s.answer site p first [])
    | (s, none) => s.reply site h p (s.answer site p status [])
  else s.reply site h p (s.answer site p status [])

/-- A packet fails at step 2 of R212: it is counted in GW_MALFORMED. -/
def State.refuseForm (s : State) (site : Nat) (h : Hop) (p : Packet) : State :=
  (s.bump (Reg.GW_MALFORMED site) Fld.GW_MALFORMED_COUNT 1).refuse site h p stMalformed

/-- A request succeeded: a LAST packet is acknowledged or carries its source's sticky status, any other
tagged one is answered (R209, R214). The Bool tells whether every packet of its MOVE was written. -/
def State.accept (s : State) (site : Nat) (h : Hop) (p : Packet) (payload : List Byte) : State × Bool :=
  if !tagged p then (s, true)
  else if p.last then
    match s.takeSticky site p with
    | (s, some first) => (s.reply site h p (s.answer site p first []), false)
    | (s, none) => (s.reply site h p (s.answer site p 0 []), true)
  else (s.reply site h p (s.answer site p 0 payload), true)

/-! ### Forwarding (R212 step 2, R247, R256, R273) -/

/-- The site that a packet came from over a base hop. -/
def viaOf : Hop → Option Nat
  | .base v => some v.val
  | .link _ => none

/-- The link engine passes a packet on that it took in at a time (R224, R247): out of the package by its slot, or to its
site over a base hop. Unserved slots drop it (R256), a fenced target fails it (R230). -/
def State.forward (s : State) (site : Nat) (h : Hop) (p : Packet) (since : Nat) : State :=
  if p.dstPkg.toNat = s.pkg then
    match h with
    | .base _ => s.refuseForm site h p
    | .link _ =>
      if (s.live p.dstSite.val) && !(s.fencedAt site p.dstSite.val) then s.sendHopSince site (.base p.dstSite) p since
      else s.refuse site h p stFenced
  else
    match s.outLink site (viaOf h) p with
    | none => s.refuseForm site h p
    | some x =>
      if 20 + (linkHome x).1 = site ∧ s.linkDown x = true then s.unserved x
      else s.sendHopSince site (hopTo site x) p since

/-- A copy that is ended with its CRC inverted (R247, R273). -/
def Packet.broken (p : Packet) : Packet :=
  let q := p.sealed
  { q with crc := ~~~ q.crc }

/-- Is a packet a multicast copy that came by a link, for the engine that receives it to replicate (R273; log 10)? -/
def State.copyIn (s : State) (h : Hop) (p : Packet) : Bool :=
  decide (p.op = 0x03) && decide (32 ≤ hopNum h) && decide (p.dstPkg.toNat = s.pkg)

/-- The copies of a multicast packet whose CRC failed on its way in are ended with their CRC inverted (R273). -/
def State.badCopies (s : State) (site : Nat) (p : Packet) : State :=
  match mcastRec s.rs (p.addr.toNat % 4096) with
  | none => s
  | some r =>
    let s := ((mcastDests r).map (·.1)).foldl (fun (s : State) d =>
      if d = site ∨ s.live d = false ∨ s.fencedAt site d = true then s
      else s.sendHop site (.base (siteOf d)) (Packet.broken { p with dstSite := siteOf d })) s
    (mcastBranches r).foldl (fun (s : State) b =>
      match s.branchCopy b p with
      | none => s
      | some q => s.sendCopy site (Packet.broken q)) s

/-- A forwarded copy whose CRC failed is ended with its CRC inverted (R247), as are the copies that an engine replicates
it to (R273). -/
def State.forwardBad (s : State) (site : Nat) (a : Arrival) : State :=
  let p := { a.pkt with crc := ~~~ a.pkt.crc }
  if siteKind site ≠ .engine ∨ s.arrivalLost site a = true then s
  else if s.copyIn a.hop p then s.badCopies site p
  else if p.dstPkg.toNat = s.pkg ∧ p.dstSite.val = site then s
  else if p.dstPkg.toNat = s.pkg then s.sendHop site (.base p.dstSite) p
  else match s.outLink site (viaOf a.hop) p with
    | none => s
    | some x => if 20 + (linkHome x).1 = site ∧ s.linkDown x = true then s else s.sendHop site (hopTo site x) p

/-! ### Bell, context, window, operation (R212 steps 3 to 8) -/

/-- The bell that a BELL field names at a site, if the gateway accepts it (R129): a site in a late-commit hold executes
no bell and is in no guard interval. -/
def State.bellNamed (s : State) (site field : Nat) : Option Nat :=
  let b := s.bellAt site
  if b.life.abandons ∨ b.life = .notStarted ∨ b.life = .lateHold then none
  else if field = b.bell % 256 then some b.bell
  else if b.guard ∧ field = (b.bell + 1) % 256 then some (b.bell + 1)
  else none

/-- Is a global address on a site of the package? -/
def State.gOnSite (s : State) (site g : Nat) : Bool := decide (gPkg g = s.pkg) && decide (gSite g = site)

/-- Slices of a GROUP record: package, site, output kind, base, length in lines, output address, scale
address, multicast group, announcement token, clusters, sites (R315). -/
structure Slice where
  pkg : Nat
  site : Nat
  mcast : Bool
  base : Nat
  len : Nat
  out : Nat
  sout : Nat
  group : Nat
  token : Nat
  clusters : Nat
  sites : Nat
  deriving DecidableEq, Repr

/-- The slices of a GROUP record. -/
def groupSlices (r : Rec) : List Slice :=
  (List.range (r.u32 36)).map fun i =>
    let o := 40 + 48 * i
    { pkg := r.u16 o, site := r.u8 (o + 2), mcast := decide (r.u8 (o + 3) = 1), base := r.u16 (o + 4)
      len := r.u16 (o + 6), out := r.u64 (o + 8), sout := r.u64 (o + 16), group := r.u16 (o + 24)
      token := r.u16 (o + 26), clusters := r.u16 (o + 28), sites := r.u8 (o + 30) }

/-- The slices of a GROUP record with the first index of each, in lines (R263). -/
def slicesFrom (first : Nat) : List Slice → List (Nat × Slice)
  | [] => []
  | q :: qs => (first, q) :: slicesFrom (first + q.len) qs

/-- Is a context resident at a site (R434)? -/
def State.ctxResident (s : State) (ctx site : Nat) : Bool :=
  (recsOf s.rs segContexts 2).any (fun r => decide (r.u8 8 = ctx) && decide (r.u8 9 = site)) ||
  (recsOf s.rs segPrograms 2).any (fun r => decide (r.u8 8 = ctx) && decide (r.u8 9 = site)) ||
  (decide (site < 8) && (List.range 8).any fun j =>
    decide (s.hostRole (8 * site + j) = 0) && decide (s.hostCtx (8 * site + j) = ctx)) ||
  (recsOf s.rs segReduce 1).any (fun r => decide (r.u8 10 = ctx) &&
    (groupSlices r).any fun q => decide (q.pkg = s.pkg) && decide (q.site = site)) ||
  (recsOf s.rs segRings 1).any (fun r => decide (r.u8 10 = ctx) &&
    (s.gOnSite site (r.u64 16) || s.gOnSite site (r.u64 56)))

/-- Does a range lie in core store or cluster memory, whose resident context is the turn's (R434)? -/
def turnMemory (site a n : Nat) : Bool :=
  decide (siteKind site = .stack) && ((coreOf a n).isSome || (clusterOf a n).isSome)

/-- Is a packet from the MC (R212, R440)? -/
def State.fromMc (s : State) (p : Packet) : Bool :=
  decide (p.srcPkg.toNat = s.pkg) && decide (p.srcSite.val = 12) && decide (p.issuer = 127)

/-- Step 6: the context is resident (R434, R438). A bell without a turn leaves none resident (R435). -/
def State.ctxFits (s : State) (site ctx a n : Nat) : Bool :=
  if turnMemory site a n then decide (ctx ≠ 0) && decide ((s.bellAt site).resident = ctx)
  else s.ctxResident ctx site || (decide (ctx = 0) && s.inStore site a n)

/-- Step 7 for a byte range: windows and R161; CTX0 reaches the image store, whose locked slots take no
write (R308). -/
def State.rangeFits (s : State) (site ctx a n : Nat) (mc rd wr : Bool) : Bool :=
  s.inRange site a n && !(wr && s.touchesLocked site a n) &&
  (mc || (decide (ctx = 0) && s.inStore site a n) || s.hasRights site ctx a n rd wr)

/-- Step 8: is the operation permitted at the target (R209)? -/
def opPermitted (op site a n : Nat) : Bool :=
  if op = 0x02 then decide (siteKind site = .bridge) && decide (a + n ≤ hbmSize)
  else if isReduce op then decide (siteKind site = .bridge) || decide (siteKind site = .engine)
  else if isAtomic op then
    (decide (siteKind site = .bridge) && decide (a + n ≤ hbmSize)) ||
    (decide (siteKind site = .stack) && (decide (a + n ≤ 2 ^ 30) || (clusterOf a n).isSome))
  else if op = 0x20 then decide (siteKind site = .stack)
  else true

/-- Steps 6 to 8 for WRITE, WRITE_COMMIT, READ_REQ and atomics: the status of the first that fails. A
write to a slot-fill window is judged by its core (R162). -/
def State.placeFails (s : State) (site : Nat) (p : Packet) : Option Nat :=
  let a := p.addr.toNat
  let n := p.span
  let ctx := p.ctx.toNat
  let op := p.op.toNat
  let mc := s.fromMc p
  let rd := decide (op = 0x08) || isAtomic op
  let wr := decide (op ≠ 0x08)
  if sheetWrite site op ctx a n then none
  else if !mc && !(s.ctxFits site ctx a n) then some stCtx
  else if siteKind site = .stack ∧ (fillWindowOf a n).isSome = true ∧ (op = 0x01 ∨ op = 0x08) then
    (if op = 0x01 ∧ s.inRange site a n = true then none else some stWindow)
  else if !(s.rangeFits site ctx a n mc rd wr) then some stWindow
  else if !(opPermitted op site a n) then some stDenied
  else none

/-- The place of a group's packet at a site: its record's bases, and the status that the checks of steps 6
and 7 give for them (R201, R202). -/
def State.mcastFit (s : State) (site : Nat) (p : Packet) : List Nat × Option Nat :=
  match mcastRec s.rs (p.addr.toNat % 4096) with
  | none => ([], some stWindow)
  | some r =>
    match (mcastDests r).find? (fun d => decide (d.1 = site)) with
    | none => ([], some stWindow)
    | some (_, stops, base) =>
      let n := p.len.toNat
      let places := mcastPlaces site (base + p.addr.toNat / 4096) stops
      if places.any (fun o => !(s.ctxFits site p.ctx.toNat o n)) then ([], some stCtx)
      else if places.any (fun o => !(s.rangeFits site p.ctx.toNat o n false false true)) then
        ([], some stWindow)
      else (places, none)

/-! ### Dedupe (R252) -/

/-- Step 9: a copy already recorded, or a DUAL copy during an overflow, is not applied. -/
def State.dedupe (s : State) (site : Nat) (p : Packet) : State × Bool :=
  if p.srcPkg.toNat = s.pkg then (s, true) else
  let g := s.gw site
  let old := fun (e : Dedupe) => decide (e.time + 4000 ≤ s.vt)
  if g.dedupe.any (fun e => decide (e.key = p.key) && !(old e)) then
    (s.bump (Reg.GW_DEDUPE_DROP site) Fld.GW_DEDUPE_DROP_COUNT 1, false)
  else if p.dual && (match g.ovfUntil with
      | some t => decide (s.vt < t)
      | none => false) then
    ((s.bump (Reg.GW_DEDUPE_OVF site) Fld.GW_DEDUPE_OVF_COUNT 1).raise site 0x0606 p.args, false)
  else
    let e : Dedupe := ⟨p.key, s.vt, p.dual⟩
    let live := g.dedupe.filter fun e => !(old e)
    if live.length < 4096 then (s.setGw site { g with dedupe := live ++ [e] }, true)
    else if live.any (fun e => !e.dual) then
      (s.setGw site { g with dedupe := dropOne (fun e => !e.dual) live ++ [e], ovfUntil := some (s.vt + 4000) },
        true)
    else (s.setGw site { g with ovfUntil := some (s.vt + 4000) }, true)

/-- Step 9 of a WRITE or MCAST_WRITE: only a LAST packet enters it (R252). -/
def State.dedupeLast (s : State) (site : Nat) (p : Packet) : State × Bool :=
  if p.last then s.dedupe site p else (s, true)

/-- Operations that step 9 covers (R212, R252). -/
def dedupes (p : Packet) : Bool :=
  p.last || isReduce p.op.toNat || isAtomic p.op.toNat || decide (p.op = 0x20) || decide (p.op = 0x02)

/-! ### Receiving (R212) -/

/-- What the engines of the package have replicated under a packet's key in the last 4 µs (R273; log 10). -/
def State.replSeen (s : State) (p : Packet) : Option Seen :=
  ((List.range 32).flatMap fun i => (s.gw i).replKeys).find? fun e =>
    decide (s.vt < e.time + 4000) && decide (e.key = loopKey p)

/-- The engine of the package that keeps the replication record of the request that a response answers (R274). -/
def State.replHolder (s : State) (p : Packet) : Option Nat :=
  (List.range 32).find? fun i => (s.gw i).replicas.any fun r => decide (r.pkt.key = p.askKey)

/-- Is a packet of the package's epochs, and of a bell that the site takes (R129, R229)? -/
def State.timely (s : State) (site : Nat) (p : Packet) : Bool :=
  (decide (p.srcPkg.toNat ≠ s.pkg) || decide (p.epoch.toNat = SMap.get 0 (s.gw site).epochs p.srcSite.val)) &&
  (decide (1 < p.vc.toNat) || (s.bellNamed site p.bell.toNat).isSome)

/-- Are two packets of one source and VC (R215)? -/
def sameLine (p q : Packet) : Bool := decide (p.source = q.source) && decide (p.vc = q.vc)

/-- Does a fill record of a packet's source and VC wait at a window of the site (R117, R215)? -/
def State.fillBehind (s : State) (site : Nat) (p : Packet) : Bool :=
  decide (siteKind site = .stack) && (List.range 96).any fun c =>
    (s.core site c).heldFills.any fun h => h.back.any fun b => sameLine b.2 p

/-- Does a packet come behind one that the site holds: of a link, behind a VC0 packet that waits at the engine for a
replication record; else, behind one of its source and VC (R117, R215, R274)? -/
def State.behindHeld (s : State) (site : Nat) (h : Hop) (p : Packet) : Bool :=
  if 32 ≤ hopNum h then decide (p.vc = 0) && (s.gw site).replHeld.any fun w => decide (w.hop = h)
  else s.fillBehind site p || (s.gw site).replHeld.any fun w => decide (hopNum w.hop < 32) && sameLine w.pkt p

/-- Does a copy that an engine is to replicate find no replication record: a LAST packet, not replicated before, while
all 512 are in use (R273, R274)? -/
def State.recordsFull (s : State) (site : Nat) (p : Packet) : Bool :=
  p.last && decide (512 ≤ (s.gw site).replicas.length) && (mcastRec s.rs (p.addr.toNat % 4096)).isSome &&
  (s.replSeen p).isNone

/-- Does a copy that an engine is to replicate wait, for a record or behind one that does (R215, R274)? -/
def State.noRecord (s : State) (site : Nat) (h : Hop) (p : Packet) : Bool :=
  s.copyIn h p && s.timely site p && (s.recordsFull site p || s.behindHeld site h p)

/-- A packet is held at a site, its credit withheld (R117, R215, R274). -/
def State.holdCopy (s : State) (site : Nat) (h : Hop) (p : Packet) (mets : Meets) (bad : Bool) (flaws : Flaws) : State :=
  s.setGw site { s.gw site with replHeld := (s.gw site).replHeld ++ [⟨p, h, mets, bad, flaws, s.vt⟩] }

/-- Does a copy of a tagged request stand in a site's dedupe table (R252)? -/
def State.recorded (s : State) (site : Nat) (p : Packet) : Bool :=
  decide (p.srcPkg.toNat ≠ s.pkg) &&
  (s.gw site).dedupe.any fun e => decide (e.key = p.key) && decide (s.vt < e.time + 4000)

/-- Does a well-formed packet for this site hold a fill record that must wait, its credit and answer withheld, because
the core's window takes none (R117)? -/
def State.fillWaits (s : State) (site : Nat) (p : Packet) : Bool :=
  let a := p.addr.toNat
  decide (p.op = 0x01) && decide (siteKind site = .stack) && (s.placeFails site p).isNone &&
  !(p.last && s.recorded site p) && decide (p.len.toNat = 128) && decide (a % 128 = 0) &&
  s.timely site p && (s.fromMc p || inWindows s.rs p.ctx.toNat site 1 a 128) &&
  match fillWindowOf a 128 with
  | some c => s.fillFull site c
  | none => false

/-- Is a packet for this site: it names it, or is a copy that this engine replicates (R212, R273)? -/
def State.here (s : State) (site : Nat) (h : Hop) (p : Packet) : Bool :=
  (decide (p.dstPkg.toNat = s.pkg) && decide (p.dstSite.val = site)) || s.copyIn h p

/-- Is a good packet's credit withheld: it waits for a replication record, behind one that does, or for its fill window
(R117, R215, R274)? -/
def State.withheld (s : State) (site : Nat) (h : Hop) (p : Packet) : Bool :=
  wellFormed p && (if s.here site h p then
    s.noRecord site h p || s.fillWaits site p ||
      ((decide (p.op = 0x01 ∨ p.op = 0x03 ∨ p.op = 0x08) || isAtomic p.op.toNat) && s.timely site p && s.behindHeld site h p)
    else s.behindHeld site h p)

/-- The checks of a good packet: steps 2, 3 and 5 of R212, and its forwarding. -/
def State.received (s : State) (site : Nat) (h : Hop) (p : Packet) : State × Option Packet :=
  if !(wellFormed p) || (!(s.here site h p) && (decide (siteKind site ≠ .engine) || decide (p.op = 0x38))) then
    (s.refuseForm site h p, none)
  else match (if isResponse p.op.toNat && decide (siteKind site = .engine) then s.replHolder p else none) with
  | some e => if e = site then (s, some p) else (s.sendHop site (.base (siteOf e)) p, none)
  | none =>
    if !(s.here site h p) then
      (if s.behindHeld site h p then s.holdCopy site h p [] false [] else s.forward site h p s.vt, none)
    else if !(isResponse p.op.toNat) && decide (p.srcPkg.toNat = s.pkg) &&
        decide (p.epoch.toNat ≠ SMap.get 0 (s.gw site).epochs p.srcSite.val) then
      (s.bump (Reg.GW_EPOCH_DROP site) Fld.GW_EPOCH_DROP_COUNT 1, none)
    else if (decide (p.vc = 0) || decide (p.vc = 1)) && (s.bellNamed site p.bell.toNat).isNone then
      (s.bump (Reg.GW_STALE_DROP site) Fld.GW_STALE_DROP_COUNT 1, none)
    else (s, some p)

/-- A packet arrives at a site: steps 1 to 3 and 5 of R212, and its forwarding. A packet that stands is
for this site and goes on to the checks of its operation. -/
def State.receive (s : State) (site : Nat) (a : Arrival) : State × Option Packet :=
  let p := a.pkt
  if s.deaf site || s.fromFenced site a then (s, none) else
  match s.takeStream site a with
  | (s', false) =>
    let st := s.stream site (s.rxKey site a.hop p.vc.toNat)
    if p.crc = p.calcCrc ∨ st.discard = true ∨ 32 ≤ st.skip then (s', none) else (s'.forwardBad site a, none)
  | (s, true) =>
    let s := if p.op = 0x38 ∨ s.withheld site a.hop p = true then s
      else s.freeUnits site a.hop p.vc.toNat p.units
    s.received site a.hop p

/-- A packet row's opening: the packet is of an operation of the row, or of none. -/
def State.arrives (s : State) (ops : List Nat) (site : Nat) (a : Arrival) : State × Option Packet :=
  let op := a.pkt.op.toNat
  if op ∈ ops ∨ opKnown op = false then s.receive site a else (s, none)

end Sys2Proof.Machine
end

