-- ==== Sys2Proof/Machine/Collect.lean ====
section
/-!
DEFINITION. Reduction engines (R263 to R271, R275): the rows REDUCE, REDUCE_ADD, REDUCE_MAX, REDUCE_MIN and
LINE_OUTPUT, completion of slices, and sync frames as senders form them (R198).
-/

namespace Sys2Proof.Machine

open Sys2Proof

/-! ### Sync frames (R197, R198) -/

/-- Send a sync frame: SEQ counts the sender's frames modulo 16 (R198). -/
def State.sendFrame (s : State) (site : Nat) (dir : FrameDir) (type : FrameType) (bell arg : Nat) : State :=
  let n := SMap.get 0 s.seqs site
  ({ s with seqs := SMap.set 0 s.seqs site ((n + 1) % 16) }).emit
    (.frame site dir ⟨type, n, bell, arg⟩)

/-! ### The REDUCE descriptor (R265) -/

/-- The pieces of a run of `n` elements of `eb` bytes at `src`, whose first goes to slice-local index `i`
of a slice (R265). -/
def redPieces (q : Slice) (eb src i n : Nat) : Nat → List Piece
  | 0 => []
  | fuel + 1 =>
    if n = 0 then [] else
    let m := min n (4096 / eb)
    ⟨src, gAddr q.pkg q.site i, m * eb, false⟩ :: redPieces q eb (src + m * eb) (i + m) (n - m) fuel

/-- The pieces of a REDUCE descriptor in slice order (R265). -/
def State.reducePieces (s : State) (d : BitVec 512) : List Piece :=
  match groupRec s.rs (df d 139 128) with
  | none => []
  | some r =>
    let eb := scalarBytes (df d 35 32)
    let first := df d 191 160
    let n := df d 223 192
    (slicesFrom 0 (groupSlices r)).flatMap fun (f, q) =>
      let lo := max first (32 * f)
      let hi := min (first + n) (32 * (f + q.len))
      redPieces q eb (df d 127 64 + (lo - first) * eb) (lo - 32 * f) (hi - lo) (hi - lo)

/-- REDUCE (R101, R265): the descriptor issues and its gateway cuts the source into REDUCE packets. -/
def execReduceDesc (k : Stack) (c : Core) (fetched : Fetch) (flaws : Flaws) (s : State) : Out :=
  match s.ready k c 4 with
  | none => .next s
  | some d =>
    if fetched = .bad then .next (s.fetchParity k c) else
    let s := s.useParity k c fetched
    let serial := (s.core k c).serial
    let ps := s.reducePieces d
    let (s, failed) := s.sourceCheck k c flaws true
    let s := s.issue k c d 0 (if failed.isSome then [] else ps) []
    match failed with
    | some st => .next ((s.failFlight k c serial (0x300 + st)).tryFinish k c serial)
    | none => .next ((s.pump k c serial (pumpFuel ps)).tryFinish k c serial)

/-! ### Accumulators and lines (R50, R263) -/

/-- Offset of an accumulator of an engine's store (R50, R161). -/
def accOffset (site i : Nat) : Nat := (if siteKind site = .bridge then accStoreBridge else 0) + 40 * i

/-- An accumulator of an engine's store. -/
def State.accum (s : State) (site i : Nat) : Accum := Accum.ofBytes (s.readMem site (accOffset site i) 40)

/-- Write an accumulator. -/
def State.setAccum (s : State) (site i : Nat) (a : Accum) : State :=
  s.writeMem site (accOffset site i) a.bytes

/-- Key of a line's recorded step. -/
def lineStep (site line : Nat) : Nat := 2 ^ 14 * site + line

/-- Lines of an engine that hold contributions (GW_RED_STATUS.OPEN). -/
def State.openLines (s : State) (site : Nat) : List Nat :=
  (s.redSteps.filter fun kv => decide (kv.1 / 2 ^ 14 = site)).map fun kv => kv.1 % 2 ^ 14

/-- Clear a line's 32 accumulators (R268, R270, R271). -/
def State.clearLine (s : State) (site line : Nat) : State :=
  let s := s.zeroMem site (accOffset site (32 * line)) 1280
  { s with redSteps := SMap.del (lineStep site line) s.redSteps }

/-- Bring GW_RED_STATUS up to date. -/
def State.syncRed (s : State) (site : Nat) : State :=
  let a := Reg.GW_RED_STATUS site
  let n := (s.openLines site).length
  let s := s.setF a Fld.GW_RED_STATUS_OPEN n
  s.setF a Fld.GW_RED_STATUS_STATE (if n = 0 then 0 else 1)

/-- The slice of a group at a site of this package, with the first index in lines. -/
def State.sliceHere (s : State) (group site : Nat) : Option (Rec × Nat × Slice) :=
  match groupRec s.rs group with
  | none => none
  | some r =>
    match (slicesFrom 0 (groupSlices r)).find? (fun fq => decide (fq.2.pkg = s.pkg) && decide (fq.2.site = site)) with
    | some (f, q) => some (r, f, q)
    | none => none

/-- The operation of a GROUP record (R315). -/
def redOpOf (op : Nat) : RedOp := if op = 2 then .max else if op = 3 then .min else .add

/-! ### Slices in a bell (R269, R270) -/

/-- Key of a slice in a bell. -/
def runKey (site group bell : Nat) : Nat := 2 * (4096 * site + group) + bell % 2

/-- A slice that has done nothing in a bell. -/
def SliceRun.fresh (site group bell : Nat) : SliceRun :=
  { site := site, group := group, bell := bell, queue := [], sent := [], scales := [], last := false
    left := 0, complete := false }

/-- The slice of a group in a bell. -/
def State.run (s : State) (site group bell : Nat) : SliceRun :=
  match s.runs.find? (fun kv => decide (kv.1 = runKey site group bell)) with
  | some (_, r) => if r.bell = bell then r else .fresh site group bell
  | none => .fresh site group bell

/-- Put a slice's progress, and GW_RED_SLICE2 with it. -/
def State.setRun (s : State) (r : SliceRun) : State :=
  let s := { s with runs := SMap.put (runKey r.site r.group r.bell) r s.runs }
  let a := Reg.GW_RED_SLICE2 r.site r.group
  let s := s.setF a Fld.GW_RED_SLICE2_DONE r.sent.length
  s.setF a Fld.GW_RED_SLICE2_COMPLETE (bit r.complete)

/-- The groups with an active slice at a site in a bell (R262). -/
def State.activeGroups (s : State) (site bell : Nat) : List Nat :=
  let ctx := turnOf s.rs bell
  ((recsOf s.rs segReduce 1).filter fun r =>
    decide (r.u8 10 = ctx) && decide (r.u16 12 = s.phaseIn site ctx bell) &&
    (groupSlices r).any fun q => decide (q.pkg = s.pkg) && decide (q.site = site)).map fun r => r.u16 8

/-- Is some active slice of a site incomplete in a bell (R270)? -/
def State.sliceOpen (s : State) (site bell : Nat) : Bool :=
  (s.activeGroups site bell).any fun g => !(s.run site g bell).complete

/-- A slice completes once every line is output and every output transaction answered: its announcement
is sent (R270, R275). -/
def State.sliceDone (s : State) (r : SliceRun) : State :=
  if !r.last || decide (r.left ≠ 0) || r.complete then s.setRun r else
  let s := s.setRun { r with complete := true }
  match s.sliceHere r.group r.site with
  | none => s
  | some (_, _, q) =>
    if q.token = 0 then s
    else s.sendFrame r.site .sites .announce r.bell
      (q.sites * 2 ^ 56 + q.clusters % 2 ^ 12 * 2 ^ 44 + q.token % 2 ^ 12 * 2 ^ 20 + r.group * 2 ^ 8 + r.site)

/-! ### Contributions (R266 to R268) -/

/-- The value of element `e` of a contribution (R51, R210). -/
def contribution (p : Packet) (e : Nat) : Num :=
  let fmt := p.fmt.toNat
  (ieeeFmt fmt).decode (p.payNum (scalarBytes fmt * e) (scalarBytes fmt))

/-- Elements of a contribution that are applied: the payload's less its padding (R210). -/
def contribCount (p : Packet) : Nat := p.len.toNat / scalarBytes p.fmt.toNat - p.padEl.toNat

/-- The lines of an engine's store that `n` accumulators from `i` lie in. -/
def linesOf (i n : Nat) : List Nat := (List.range ((i % 32 + n + 31) / 32)).map fun j => i / 32 + j

/-- The first check of R266 that a contribution fails, as a status. -/
def State.contribFails (s : State) (site : Nat) (p : Packet) : Option Nat :=
  match s.sliceHere (p.addr.toNat % 4096) site, s.bellNamed site p.bell.toNat with
  | some (r, _, q), some bell =>
    let idx := p.addr.toNat / 2 ^ 12 % 2 ^ 19
    let n := contribCount p
    let base := 32 * q.base + idx
    if r.u8 10 ≠ p.ctx.toNat ∨ turnOf s.rs bell ≠ r.u8 10 ∨ s.phaseIn site (r.u8 10) bell ≠ r.u16 12 then
      some stWindow
    else if 32 * q.len < idx + n then some stWindow
    else if r.u8 11 ≠ p.red.toNat then some stDenied
    else if (List.range n).any (fun e => decide (r.u32 16 ≤ (s.accum site (base + e)).count)) then
      some stCapacity
    else if (linesOf base n).any (fun l =>
        let st := SMap.get 0 s.redSteps (lineStep site l)
        decide (st ≠ 0) && decide (st ≠ p.step.toNat + 1)) then some stMalformed
    else none
  | _, _ => some stWindow

/-- SR word of the element at a group index of a reduction's output (R48, R268). -/
def State.redSr (s : State) (r : Rec) (g step : Nat) : BitVec 32 :=
  srWord (ctxSeed s.rs (r.u8 10)) (BitVec.ofNat 32 (r.u32 32)) (r.u48 24 + g) (BitVec.ofNat 32 step)

/-- A line is rounded once (R53, R268): its bytes and, for MXFP8, its scale. -/
def State.roundLine (s : State) (r : Rec) (site line g step : Nat) : List Byte × Nat :=
  let op := redOpOf (r.u8 11)
  let fmt := r.u8 14
  let mode := rmodeOf (r.u8 15)
  let vals := (List.range 32).map fun i => (s.accum site (32 * line + i)).value op
  if fmt = 0 ∨ fmt = 1 ∨ fmt = 2 then
    (vals.zipIdx.flatMap fun (v, i) =>
      leBytes (scalarBytes fmt) ((ieeeFmt fmt).encodeIeee mode (s.redSr r (g + i) step) v), 0)
  else
    let blk := convBlock fmt mode (fun i => s.redSr r (g + i) step) vals
    (blk.bytes fmt, blk.scale)

/-- Has a site's engine stopped its output of a bell: past `G_m` of a FORCED close (R270)? -/
def State.outputStopped (s : State) (site bell : Nat) : Bool :=
  let b := s.bellAt site
  decide (b.bell = bell) && b.guard && match b.closed with
    | some (_, forced) => forced
    | none => false

/-- Lines whose 32 accumulators have every contribution are rounded, cleared and queued (R268), but for lines of a bell
whose output has stopped, which are cleared (R270). -/
def State.completeLines (s : State) (r : Rec) (first : Nat) (q : Slice) (site bell : Nat)
    (lines : List Nat) : State :=
  lines.foldl (fun (s : State) l =>
    if (List.range 32).all fun i => decide ((s.accum site (32 * l + i)).count = r.u32 16) then
      if s.outputStopped site bell then s.clearLine site l else
      let t := l - q.base
      let step := SMap.get 0 s.redSteps (lineStep site l) - 1
      let (bs, sc) := s.roundLine r site l (32 * (first + t)) step
      let s := s.clearLine site l
      let run := s.run site (r.u16 8) bell
      s.setRun { run with queue := run.queue ++ [⟨t, bs, sc⟩] }
    else s) s

/-- Apply a contribution (R51, R210, R266): every element exactly once, the line's step recorded. -/
def State.contribute (s : State) (site : Nat) (p : Packet) : State :=
  match s.sliceHere (p.addr.toNat % 4096) site, s.bellNamed site p.bell.toNat with
  | some (r, first, q), some bell =>
    let base := 32 * q.base + p.addr.toNat / 2 ^ 12 % 2 ^ 19
    let n := contribCount p
    let s := (List.range n).foldl (fun (s : State) e =>
      s.setAccum site (base + e)
        ((s.accum site (base + e)).apply (redOpOf (r.u8 11)) (contribution p e))) s
    let lines := linesOf base n
    let s := { s with
      redSteps := lines.foldl (fun m l => SMap.put (lineStep site l) (p.step.toNat + 1) m) s.redSteps
      redBytes := SMap.set 0 s.redBytes site (SMap.get 0 s.redBytes site + p.len.toNat) }
    let s := s.bump (Reg.GW_RED_IN site) Fld.GW_RED_IN_COUNT n
    let s := s.setF (Reg.GW_RED_STATUS site) Fld.GW_RED_STATUS_GROUP (r.u16 8)
    let s := s.completeLines r first q site bell lines
    s.syncRed site
  | _, _ => s

/-- The lines of a contribution whose accumulators fail their parity check. -/
def State.badLines (s : State) (site : Nat) (p : Packet) (flaws : Flaws) : List Nat :=
  let i0 := 32 * (match s.sliceHere (p.addr.toNat % 4096) site with
    | some (_, _, q) => q.base
    | none => 0) + p.addr.toNat / 2 ^ 12 % 2 ^ 19
  (linesOf i0 (contribCount p)).filter fun l => flaws.any fun f => within f.1 1 (accOffset site (32 * l)) 1280

/-- A contribution reaches the engine, failover duplicates removed (R267): its checks, and its effect (R266). -/
def State.engineTakes (s : State) (site : Nat) (h : Hop) (p : Packet) (flaws : Flaws) : State :=
  match s.contribFails site p with
  | some st =>
    let s := s.bump (Reg.GW_RED_REFUSED site) Fld.GW_RED_REFUSED_COUNT 1
    let s := if st = stMalformed then s.raise site 0x0701 p.args else s
    s.refuse site h p st
  | none =>
    let bad := s.badLines site p flaws
    if bad ≠ [] then
      ((bad.foldl (fun (s : State) l => s.clearLine site l) s).syncRed site).refuse site h p stParity
    else ((s.contribute site p).accept site h p []).1

/-- A REDUCE packet arrives at an engine (R212, R266). `flaws` are the parity failures of its
accumulators: their lines are cleared and never output, and the packet fails with PARITY (R416). -/
def State.reduceArrives (s : State) (op : Nat) (site : Nat) (a : Arrival) (flaws : Flaws) : State :=
  match s.arrives [op] site a with
  | (s, none) => s
  | (s, some p) =>
    if !(opPermitted op site 0 0) then s.refuse site a.hop p stDenied else
    match s.dedupe site p with
    | (s, false) => s
    | (s, true) => s.engineTakes site a.hop p flaws

/-- REDUCE_ADD (R266). -/
def execReduceAdd (site : Site) (a : Arrival) (flaws : Flaws) (s : State) : Out :=
  .next (s.reduceArrives 0x10 site a flaws)

/-- REDUCE_MAX (R266). -/
def execReduceMax (site : Site) (a : Arrival) (flaws : Flaws) (s : State) : Out :=
  .next (s.reduceArrives 0x11 site a flaws)

/-- REDUCE_MIN (R266). -/
def execReduceMin (site : Site) (a : Arrival) (flaws : Flaws) (s : State) : Out :=
  .next (s.reduceArrives 0x12 site a flaws)

/-! ### Output (R269) -/

/-- Bytes of a line in an output format (R269). -/
def lineBytes (fmt : Nat) : Nat := if fmt = 0 then 128 else if fmt = 1 ∨ fmt = 2 then 64 else 32

/-- Consecutive completed lines from position `t`, at most `n`. -/
def takeLines (queue : List LineOut) (t : Nat) : Nat → List LineOut
  | 0 => []
  | n + 1 =>
    match queue.find? (fun o => decide (o.line = t)) with
    | some o => o :: takeLines queue (t + 1) n
    | none => []

/-- An output write of a slice fails at its issuer (R230): reported, and a LAST one is never acknowledged, so that the slice
stays incomplete (R270). -/
def State.outputFails (s : State) (run : Nat × Nat × Nat) (last : Bool) (status : Nat) : State :=
  let (eng, group, bell) := run
  let s := s.raiseStatus eng status (issuerArgs s.pkg eng 0)
  if last then s.setRun { s.run eng group bell with left := (s.run eng group bell).left + 1 } else s

/-- One output write of a slice to a site, or to its own site without a packet; LAST carries a tag that
the slice awaits (R209, R270). -/
def State.outputTo (s : State) (run : Nat × Nat × Nat) (ctx pkg site off : Nat) (last : Bool)
    (mets : Meets) (bs : List Byte) : State :=
  let (eng, group, bell) := run
  if pkg = s.pkg ∧ site = eng then
    if s.rangeFits site ctx off bs.length false false true then
      (s.portWrite site off 0 (issuerArgs s.pkg eng 0) mets bs).1
    else
      s.outputFails run last stWindow
  else
    let p := s.stamp eng 0 { Packet.zero with
      op := 0x01, last := last, ctx := BitVec.ofNat 8 ctx, dstPkg := BitVec.ofNat 16 pkg
      dstSite := siteOf site, addr := BitVec.ofNat 43 off, len := BitVec.ofNat 13 bs.length, payload := bs }
    match s.localFail eng 0 pkg site with
    | some st => s.outputFails run last st
    | none =>
      if !last then s.send eng p else
      (s.setRun { s.run eng group bell with left := (s.run eng group bell).left + 1 }).sendTagged eng
        ⟨0, [], false, p, bs.length, .line (runKey eng group bell)⟩

/-- The copies of a multicast output write are sent, LAST ones under a tag that the slice awaits (R209, R270, R273). -/
def State.putCopies (s : State) (run : Nat × Nat × Nat) (copies : List (Option Nat × Site)) (p : Packet) : State :=
  let (eng, group, bell) := run
  if copies = [] then s
  else if p.last = false then s.sendCopies eng p copies else
  (s.setRun { s.run eng group bell with left := (s.run eng group bell).left + 1 }).sendTagged eng
    ⟨0, copies, false, p, p.payload.length, .line (runKey eng group bell)⟩

/-- An engine's own copy of a multicast output write is written without a packet (R202). -/
def State.ownOutput (s : State) (run : Nat × Nat × Nat) (p : Packet) (mets : Meets) : State :=
  match s.mcastFit run.1 p with
  | (_, some st) => s.outputFails run p.last st
  | (places, none) =>
    let s := places.foldl (fun (s : State) o => (s.portWrite run.1 o 0 p.args mets p.payload).1) s
    if siteKind run.1 = .bridge then
      s.hbmMoved run.1 ((places.filter fun o => decide (o < hbmSize)).length * p.payload.length)
    else s

/-- What an engine does itself for one site of a multicast output write: its own copy, and the failure of a site that it
cannot reach (R24, R202). -/
def State.outputHere (s : State) (run : Nat × Nat × Nat) (p : Packet) (mets : Meets) (site : Nat) : State :=
  if site = run.1 then s.ownOutput run p mets else
  match s.localFail run.1 0 s.pkg site with
  | some st => s.outputFails run p.last st
  | none => s

/-- The packet of a multicast output write (R207, R269). -/
def State.outputPacket (s : State) (eng ctx mgroup off : Nat) (last : Bool) (bs : List Byte) : Packet :=
  s.stamp eng 0 { Packet.zero with
    op := 0x03, mcast := true, last := last, ctx := BitVec.ofNat 8 ctx
    dstPkg := BitVec.ofNat 16 s.pkg, dstSite := siteOf eng, addr := BitVec.ofNat 43 (mgroup + off * 2 ^ 12)
    len := BitVec.ofNat 13 bs.length, payload := bs }

/-- The multicast copies of one output write (R202, R269, R273). -/
def State.outputMcast (s : State) (run : Nat × Nat × Nat) (ctx mgroup off : Nat) (last : Bool)
    (mets : Meets) (bs : List Byte) : State :=
  match mcastRec s.rs mgroup with
  | none => s
  | some r =>
    let p := s.outputPacket run.1 ctx mgroup off last bs
    let sites := (mcastDests r).map (·.1)
    let far := sites.filter fun d => decide (d ≠ run.1) && (s.localFail run.1 0 s.pkg d).isNone
    (sites.foldl (fun (s : State) site => s.outputHere run p mets site) s).putCopies run
      (far.map (fun d => (none, siteOf d)) ++ (mcastBranches r).map fun b => (some b, siteOf 0)) p

/-- Send one output write of a slice by its kind (R269). -/
def State.output (s : State) (r : Rec) (q : Slice) (bell : Nat) (scale : Bool) (off : Nat) (last : Bool)
    (mets : Meets) (bs : List Byte) : State :=
  let run := (q.site, r.u16 8, bell)
  let g := (if scale then q.sout else q.out) + off
  if q.mcast then s.outputMcast run (r.u8 10) q.group g last mets bs
  else s.outputTo run (r.u8 10) (gPkg g) (gSite g) (gOff g) last mets bs

/-- Is an output format MXFP8, with scale bytes? -/
def scaled (fmt : Nat) : Bool := decide (fmt = 3) || decide (fmt = 4)

/-- The lines that the next packet of a slice's output carries: consecutive ones, at most `count`, up to a multiple of 4,096
of the offset that its ADDR carries (R269). A line that itself crosses one goes whole (log 43). -/
def nextLines (r : Rec) (q : Slice) (run : SliceRun) (count : Nat) : List LineOut :=
  match run.queue with
  | [] => []
  | o :: _ =>
    let w := lineBytes (r.u8 14)
    let start := (if q.mcast then q.out else gOff q.out) + o.line * w
    takeLines run.queue o.line (min count (min 32 (max 1 ((4096 - start % 4096) / w))))

/-- A slice's progress once lines of it are output (R269). -/
def SliceRun.outputs (run : SliceRun) (fmt len : Nat) (ls : List LineOut) : SliceRun :=
  { run with
    queue := run.queue.filter fun (x : LineOut) => !(ls.any fun (y : LineOut) => decide (y.line = x.line))
    sent := run.sent ++ ls.map LineOut.line
    scales := if scaled fmt then run.scales ++ ls.map fun (x : LineOut) => (x.line, x.scale) else []
    last := decide (run.sent.length + ls.length = len) }

/-- The scale granules whose 32 lines are all complete (R269). -/
def SliceRun.blocks (run : SliceRun) (len : Nat) : List Nat :=
  (List.range (len / 32)).filter fun j =>
    (List.range 32).all fun i => run.scales.any fun (e : Nat × Nat) => decide (e.1 = 32 * j + i)

/-- The scale bytes of granule `j`. -/
def SliceRun.scaleBytes (run : SliceRun) (j : Nat) : List Byte :=
  (List.range 32).map fun i =>
    BitVec.ofNat 8 (((run.scales.find? fun (e : Nat × Nat) => decide (e.1 = 32 * j + i)).map Prod.snd).getD 0)

/-- The scale granules that have gone are forgotten. -/
def SliceRun.dropBlocks (run : SliceRun) (js : List Nat) : SliceRun :=
  { run with scales := run.scales.filter fun (e : Nat × Nat) => !(js.any fun j => decide (e.1 / 32 = j)) }

/-- Output of a slice (R269): the scale granules whose last line these are, then the lines in one packet; LAST is on the
final packet of the slice, so a scale granule goes before it (R277). -/
def State.lineOutput (s : State) (r : Rec) (q : Slice) (run : SliceRun) (count : Nat) (mets : Meets) : State :=
  match nextLines r q run count with
  | [] => s
  | o :: ls =>
    let next := run.outputs (r.u8 14) q.len (o :: ls)
    let js := next.blocks q.len
    let s := s.setRun (next.dropBlocks js)
    let s := s.bump (Reg.GW_RED_OUT q.site) Fld.GW_RED_OUT_COUNT (32 * (ls.length + 1))
    let s := js.foldl (fun (s : State) j =>
      s.output r q run.bell true (32 * j) false mets (next.scaleBytes j)) s
    let s := s.output r q run.bell false (o.line * lineBytes (r.u8 14)) next.last mets ((o :: ls).flatMap LineOut.bytes)
    s.sliceDone (s.run q.site run.group run.bell)

/-- LINE_OUTPUT (R269): the engine sends completed lines of a group's slice, at most `count` in the
packet. `mets` tells what an output write on the engine's own site meets at its port (R154). -/
def execLineOutput (site : Site) (group : Fin 4096) (count : Fin 33) (mets : Meets) (s : State) : Out :=
  match s.sliceHere group site with
  | none => .next s
  | some (r, _, q) =>
    match s.runs.find? (fun kv => decide (kv.2.site = site.val) && decide (kv.2.group = group.val) &&
        !kv.2.queue.isEmpty) with
    | none => .next s
    | some (_, run) =>
      if count.val = 0 then .next s else .next (s.lineOutput r q run count mets)

/-! ### Boundaries and orders (R270, R271) -/

/-- Clear the open lines of a slice. -/
def State.clearSlice (s : State) (site : Nat) (q : Slice) : State :=
  ((s.openLines site).filter fun l => decide (q.base ≤ l) && decide (l < q.base + q.len)).foldl
    (fun (s : State) l => s.clearLine site l) s

/-- The check of R270 at the boundary that ends a bell: an incomplete active slice votes and its open
lines clear. -/
def State.checkSlices (s : State) (site bell : Nat) : State :=
  let s := (s.activeGroups site bell).foldl (fun (s : State) g =>
    if (s.run site g bell).complete then s else
    let s := s.bump (Reg.GW_RED_INCOMPLETE site) Fld.GW_RED_INCOMPLETE_COUNT 1
    let s := s.raise site 0x0702 [g]
    let s := s.setRun { s.run site g bell with queue := [], scales := [] }
    match s.sliceHere g site with
    | some (_, _, q) => s.clearSlice site q
    | none => s) s
  s.syncRed site

/-- Is a purpose a slice's output? -/
def isLine : Purpose → Bool
  | .line _ => true
  | _ => false

/-- Receipt of REPLAY or HOLD at an engine (R271): open lines clear, nothing further is sent, the
unacknowledged output transactions are abandoned; what was accepted counts for no bell (R278). -/
def State.abandonEngine (s : State) (site : Nat) : State :=
  let s := (s.openLines site).foldl (fun (s : State) l => s.clearLine site l) s
  let s := { s with runs := s.runs.filter fun kv => decide (kv.2.site ≠ site), redBytes := SMap.del site s.redBytes }
  let (s, _) := s.cancelTags site isLine
  let s := s.syncRed site
  s.setF (Reg.GW_RED_STATUS site) Fld.GW_RED_STATUS_STATE 2

/-- Under a FORCED close the engine stops output at `G_m` and clears its open lines (R270). -/
def State.forceEngine (s : State) (site : Nat) : State :=
  if site < 8 ∨ 28 ≤ site then s else
  let s := (s.openLines site).foldl (fun (s : State) l => s.clearLine site l) s
  let stop := fun (kv : Nat × SliceRun) =>
    if kv.2.site = site then (kv.1, { kv.2 with queue := [], scales := [] }) else kv
  State.syncRed { s with runs := s.runs.map stop } site

end Sys2Proof.Machine
end

