-- ==== Sys2Proof/Machine/Float.lean ====
section
/-!
DEFINITION. Floating-point arithmetic of the vector unit (R31, R32, R37, R78): every operation forms its exact value and
rounds it once, and gathers the flags of the RISC-V F extension. The rounding modes, flags and special cases are those of
the RISC-V standard that R78 names (PRESUMED: log 39).
-/

namespace Sys2Proof

/-- Binary64, of the D extension (R78; log 39). -/
def fmtFP64 : BinFmt := ⟨52, 11, 1023, 0x7FEFFFFFFFFFFFFF, true, false⟩

/-- A value with the exception flags of its computation: NV 16, DZ 8, OF 4, UF 2, NX 1. -/
abbrev Flagged (α : Type) := α × Nat

/-- The bits of a format. -/
def BinFmt.width (f : BinFmt) : Nat := 1 + f.ew + f.mw

/-- The canonical NaN (R30). -/
def BinFmt.nan (f : BinFmt) : Nat := (2 ^ f.ew - 1) * 2 ^ f.mw + 2 ^ (f.mw - 1)

/-- The code of an infinity. -/
def BinFmt.infinity (f : BinFmt) (neg : Bool) : Nat := f.signed neg ((2 ^ f.ew - 1) * 2 ^ f.mw)

/-- Does a magnitude cut to `n` with the rest `rest / d` round up? Modes 0 RNE, 1 RTZ, 2 RDN, 3 RUP, 4 RMM; 5 is
round-to-odd, of the narrowing conversions. -/
def roundsUp (rm : Nat) (neg : Bool) (n rest d : Nat) : Bool :=
  match rm with
  | 0 => decide (d < 2 * rest) || (decide (2 * rest = d) && decide (n % 2 = 1))
  | 2 => neg && decide (rest ≠ 0)
  | 3 => !neg && decide (rest ≠ 0)
  | 4 => decide (rest ≠ 0) && decide (d ≤ 2 * rest)
  | 5 => decide (rest ≠ 0) && decide (n % 2 = 0)
  | _ => false

/-- A magnitude rounded to a multiple of `2^q`, and whether that is inexact. -/
def roundAt (rm : Nat) (neg : Bool) (m : Nat) (e q : Int) : Nat × Bool :=
  let (n, rest, d) := cutTo m e q
  (if roundsUp rm neg n rest d then n + 1 else n, decide (rest ≠ 0))

/-- The result of an overflow: the largest finite value or an infinity. -/
def BinFmt.overflow (f : BinFmt) (rm : Nat) (neg : Bool) : Nat :=
  if rm = 1 ∨ rm = 5 ∨ (rm = 2 ∧ neg = false) ∨ (rm = 3 ∧ neg = true) then f.signed neg f.maxCode else f.infinity neg

/-- Round an exact value to a format once (R37); tininess is detected after rounding. -/
def BinFmt.round (f : BinFmt) (rm : Nat) : Num → Flagged Nat
  | .nan => (f.nan, 0)
  | .inf neg => (f.infinity neg, 0)
  | .fin neg m e =>
    if m = 0 then (f.signed neg 0, 0) else
    let q := f.quantum m e
    let (n, nx) := roundAt rm neg m e q
    let code := (q + f.bias + f.mw).toNat * 2 ^ f.mw + n - 2 ^ f.mw
    if f.maxCode < code then (f.overflow rm neg, 5) else
    let q' := log2Of m e - f.mw
    let tiny := !(magLe 1 (1 - (f.bias : Int)) (roundAt rm neg m e q').1 q')
    (f.signed neg code, if nx then (if tiny then 3 else 1) else 0)

/-- Negate. -/
def Num.neg : Num → Num
  | .nan => .nan
  | .inf n => .inf (!n)
  | .fin n m e => .fin (!n) m e

/-- A finite value as an integer multiple of `2^k`, for `k` at most its exponent. -/
def signedAt (n : Bool) (m : Nat) (e k : Int) : Int :=
  let x : Int := (m * 2 ^ (e - k).toNat : Nat)
  if n then -x else x

/-- The exact sum; a zero sum of unlike signs is +0, and -0 under RDN. -/
def Num.plus (rm : Nat) : Num → Num → Flagged Num
  | .nan, _ | _, .nan => (.nan, 0)
  | .inf a, .inf b => if a = b then (.inf a, 0) else (.nan, 16)
  | .inf a, _ | _, .inf a => (.inf a, 0)
  | .fin a m e, .fin b n g =>
    let k := min e g
    let z := signedAt a m e k + signedAt b n g k
    if z = 0 then (.fin (if m = 0 ∧ n = 0 ∧ a = b then a else decide (rm = 2)) 0 k, 0)
    else (.fin (decide (z < 0)) z.natAbs k, 0)

/-- The exact product. -/
def Num.mul : Num → Num → Flagged Num
  | .nan, .fin _ _ _ | .nan, .inf _ | .nan, .nan | .fin _ _ _, .nan | .inf _, .nan => (.nan, 0)
  | .inf a, .inf b => (.inf (a != b), 0)
  | .inf a, .fin b m _ | .fin b m _, .inf a => if m = 0 then (.nan, 16) else (.inf (a != b), 0)
  | .fin a m e, .fin b n g => (.fin (a != b) (m * n) (e + g), 0)

/-- The quotient to far more places than any format holds, with a last bit that stands for what is left. -/
def Num.div : Num → Num → Flagged Num
  | .nan, _ | _, .nan => (.nan, 0)
  | .inf _, .inf _ => (.nan, 16)
  | .inf a, .fin b _ _ => (.inf (a != b), 0)
  | .fin a _ _, .inf b => (.fin (a != b) 0 0, 0)
  | .fin a m e, .fin b n g =>
    if n = 0 then (if m = 0 then (.nan, 16) else (.inf (a != b), 8))
    else if m = 0 then (.fin (a != b) 0 0, 0)
    else
      let k := 128 + Nat.log2 n
      let x := m * 2 ^ k
      (.fin (a != b) (2 * (x / n) + (if x % n = 0 then 0 else 1)) (e - g - k - 1), 0)

/-- The square root, with a last bit that stands for what is left. -/
def Num.sqrt : Num → Flagged Num
  | .nan => (.nan, 0)
  | .inf n => if n then (.nan, 16) else (.inf false, 0)
  | .fin n m e =>
    if m = 0 then (.fin n 0 0, 0) else if n then (.nan, 16) else
    let odd := e.emod 2
    let x := m * 2 ^ (odd.toNat + 256)
    let r := Nat.sqrt x
    (.fin false (2 * r + (if r * r = x then 0 else 1)) ((e - odd - 256) / 2 - 1), 0)

/-- `a < b`, for values that are no NaN. -/
def Num.lt : Num → Num → Bool
  | .nan, _ | _, .nan => false
  | .inf a, .inf b => a && !b
  | .inf a, .fin _ _ _ => a
  | .fin _ _ _, .inf b => !b
  | .fin a m e, .fin b n g => decide (signedAt a m e (min e g) < signedAt b n g (min e g))

/-- Is the value a NaN? -/
def Num.isNan : Num → Bool
  | .nan => true
  | _ => false

/-- `a = b`: false for a NaN. -/
def Num.eq (a b : Num) : Bool := !a.isNan && !b.isNan && !(a.lt b) && !(b.lt a)

/-- The sign of a code. -/
def BinFmt.negative (f : BinFmt) (c : Nat) : Bool := decide (c / 2 ^ (f.mw + f.ew) % 2 = 1)

/-- Round a flagged value, its flags joined. -/
def BinFmt.finish (f : BinFmt) (rm : Nat) (v : Flagged Num) : Flagged Nat :=
  let (c, fl) := f.round rm v.1
  (c, fl ||| v.2)

/-- `a * b + c` in one rounding. -/
def BinFmt.fma (f : BinFmt) (rm : Nat) (a b c : Num) : Flagged Nat :=
  let (p, fl) := a.mul b
  let (z, fl') := p.plus rm c
  f.finish rm (z, fl ||| fl')

/-- The least or greatest of two codes; a NaN gives way to the other, and -0 is less than +0. -/
def BinFmt.minMax (f : BinFmt) (greatest : Bool) (a b : Nat) : Nat :=
  let x := f.decode a
  let y := f.decode b
  if x.isNan && y.isNan then f.nan
  else if x.isNan then b
  else if y.isNan then a
  else
    let less := x.lt y || (x.eq y && f.negative a)
    if less = !greatest then a else b

/-- FCLASS: the ten classes. Every NaN is in the class of the quiet ones (R31; log 39). -/
def BinFmt.classOf (f : BinFmt) (c : Nat) : Nat :=
  match f.decode c with
  | .nan => 2 ^ 9
  | .inf n => if n then 1 else 2 ^ 7
  | .fin n m _ =>
    if m = 0 then (if n then 2 ^ 3 else 2 ^ 4)
    else if m < 2 ^ f.mw then (if n then 2 ^ 2 else 2 ^ 5)
    else if n then 2 else 2 ^ 6

/-- To an integer of `w` bits, signed or not: a value out of range saturates, a NaN counts as large. -/
def Num.toInt (rm w : Nat) (signed : Bool) (v : Num) : Flagged Int :=
  let lo : Int := if signed then -(2 ^ (w - 1) : Nat) else 0
  let hi : Int := if signed then (2 ^ (w - 1) : Nat) - 1 else (2 ^ w : Nat) - 1
  match v with
  | .nan => (hi, 16)
  | .inf n => (if n then lo else hi, 16)
  | .fin n m e =>
    let (x, nx) := roundAt rm n m e 0
    let z : Int := if n then -(x : Int) else x
    if z < lo then (lo, 16) else if hi < z then (hi, 16) else (z, if nx then 1 else 0)

/-- An integer as an exact value. -/
def Num.ofInt (z : Int) : Num := .fin (decide (z < 0)) z.natAbs 0

/-- A code with its sign set, cleared or flipped by another's: 0 copies, 1 negates, 2 joins. A NaN that it produces is the
canonical one (R30, R31; log 39). -/
def BinFmt.sgnj (f : BinFmt) (kind a b : Nat) : Nat :=
  if (f.decode a).isNan then f.nan else
  let s := f.negative b
  let s := if kind = 0 then s else if kind = 1 then !s else s != f.negative a
  f.signed s (a % 2 ^ (f.mw + f.ew))

/-- A nonzero fraction of a subnormal shifted up to a leading one that falls out: the exponent and the fraction. -/
def normalise (mw ex fr : Nat) : Int × Nat :=
  if ex ≠ 0 then (ex, fr) else
  let z := mw - 1 - Nat.log2 fr
  (-(z : Int), fr * 2 ^ (z + 1) % 2 ^ mw)

/-- The 7-bit estimate of the reciprocal square root (VFRSQRT7). -/
def BinFmt.rsqrt7 (f : BinFmt) (c : Nat) : Flagged Nat :=
  match f.decode c with
  | .nan => (f.nan, 0)
  | .inf n => if n then (f.nan, 16) else (0, 0)
  | .fin n m _ =>
    if m = 0 then (f.infinity n, 8) else if n then (f.nan, 16) else
    let (ex, fr) := normalise f.mw (c / 2 ^ f.mw % 2 ^ f.ew) (c % 2 ^ f.mw)
    let odd := ex.emod 2
    let x := (129 + 2 * (fr / 2 ^ (f.mw - 6))) * (if odd = 1 then 1 else 2)
    let sig := (Nat.sqrt (2 ^ 25 / x) + 1) / 2 - 128
    let out := (3 * (f.bias : Int) - 1 - ex) / 2
    (out.toNat * 2 ^ f.mw + sig * 2 ^ (f.mw - 7), 0)

/-- The 7-bit estimate of the reciprocal (VFREC7). -/
def BinFmt.rec7 (f : BinFmt) (rm c : Nat) : Flagged Nat :=
  match f.decode c with
  | .nan => (f.nan, 0)
  | .inf n => (f.signed n 0, 0)
  | .fin n m _ =>
    if m = 0 then (f.infinity n, 8) else
    let (ex, fr) := normalise f.mw (c / 2 ^ f.mw % 2 ^ f.ew) (c % 2 ^ f.mw)
    if ex < -1 then (f.overflow rm n, 5) else
    let x := 257 + 2 * (fr / 2 ^ (f.mw - 7))
    let sig := (2 ^ 17 / x + 1) / 2 - 128
    let out := 2 * (f.bias : Int) - 1 - ex
    let code := if 0 < out then out.toNat * 2 ^ f.mw + sig * 2 ^ (f.mw - 7)
      else (2 ^ f.mw + sig * 2 ^ (f.mw - 7)) / (if out = 0 then 2 else 4)
    (f.signed n code, 0)

end Sys2Proof
end

