-- ==== Sys2Proof/Machine/Kernel.lean ====
section
/-!
DEFINITION. The machine that a VEC kernel runs on (R78 to R81): its registers, its accesses to memory and its scalar
integer instructions, RV64IMAC with Zba, Zbb and Zbs. R78 names the instruction sets; their encodings and meanings are
those of the RISC-V standard (PRESUMED: log 39).
-/

namespace Sys2Proof.Machine

open Sys2Proof

/-- A kernel that runs: its registers, the address of its next instruction, whether it has raised an exception (`bad`)
or returned, the bytes that its core could read when it started, its stores, newest first, and its loads. -/
structure Vm where
  r : VecSt
  pc : Nat
  next : Nat
  bad : Bool
  done : Bool
  src : Nat → Byte
  stores : List (Nat × List Byte)
  loads : List (Nat × Nat)

namespace Vm

/-! ### Registers and memory -/

/-- A bit field of an instruction. -/
def fld (w hi lo : Nat) : Nat := w / 2 ^ lo % 2 ^ (hi + 1 - lo)

/-- The two's complement value of the low `w` bits. -/
def sInt (w n : Nat) : Int :=
  let n := n % 2 ^ w
  if n < 2 ^ (w - 1) then n else (n : Int) - (2 ^ w : Nat)

/-- An integer as `w` bits of two's complement. -/
def wrap (w : Nat) (z : Int) : Nat := (z.emod (2 ^ w : Nat)).toNat

/-- Sign-extend `w` bits to 64. -/
def sext (w n : Nat) : Nat := wrap 64 (sInt w n)

/-- The kernel raises an exception or leaves the data map: it ends (R81). -/
def fault (m : Vm) : Vm := { m with bad := true }

/-- An integer register; x0 is 0. -/
def x (m : Vm) (i : Nat) : Nat := if i = 0 then 0 else (SMap.get 0 m.r.x i).toNat

/-- Write an integer register; a write of x0 is discarded. -/
def setX (m : Vm) (i v : Nat) : Vm :=
  if i = 0 then m else { m with r := { m.r with x := SMap.set 0 m.r.x i (BitVec.ofNat 64 v) } }

/-- Is an address in the data map (R78): the core's store or its cluster memory? -/
def mapped (a : Nat) : Bool := decide (a < 0xC0000) || (decide (0x1000000 ≤ a) && decide (a < 0x1C00000))

/-- Is every byte of an access in the data map? Addresses are 64 bits. -/
def reach (a n : Nat) : Bool := (List.range n).all fun i => mapped (a + i)

/-- A byte as the kernel sees it: its own newest store, or what was there. -/
def byte (m : Vm) (a : Nat) : Byte :=
  match m.stores.find? (fun e => decide (e.1 ≤ a) && decide (a < e.1 + e.2.length)) with
  | some e => e.2.getD (a - e.1) 0
  | none => m.src a

/-- The number at an address, little-endian. -/
def peek (m : Vm) (a n : Nat) : Nat := leNat ((List.range n).map fun i => m.byte (a + i))

/-- Load `n` bytes; outside the data map the kernel ends (R81). -/
def load (m : Vm) (a n : Nat) : Vm × Nat :=
  let a := a % 2 ^ 64
  if reach a n then ({ m with loads := m.loads ++ [(a, n)] }, m.peek a n) else (m.fault, 0)

/-- Store `n` bytes; outside the data map the kernel ends (R81). -/
def store (m : Vm) (a n v : Nat) : Vm :=
  let a := a % 2 ^ 64
  if reach a n then { m with stores := (a, leBytes n v) :: m.stores } else m.fault

/-- Go on at an address. -/
def goto (m : Vm) (a : Nat) : Vm := { m with next := a % 2 ^ 64 }

/-! ### Arithmetic of `w` bits, of the scalar and the vector instructions -/

/-- Quotient toward zero; by 0 all ones, and the most negative by -1 itself. -/
def divS (w a b : Nat) : Nat :=
  if b = 0 then 2 ^ w - 1 else wrap w (Int.tdiv (sInt w a) (sInt w b))

/-- Unsigned quotient; by 0 all ones. -/
def divU (w a b : Nat) : Nat := if b = 0 then 2 ^ w - 1 else a / b

/-- Remainder with the dividend's sign; by 0 the dividend. -/
def remS (w a b : Nat) : Nat := if b = 0 then a else wrap w (Int.tmod (sInt w a) (sInt w b))

/-- Unsigned remainder; by 0 the dividend. -/
def remU (a b : Nat) : Nat := if b = 0 then a else a % b

/-- Difference. -/
def sub (w a b : Nat) : Nat := (a + 2 ^ w - b) % 2 ^ w

/-- Complement. -/
def not (w a : Nat) : Nat := 2 ^ w - 1 - a

/-- Shift right, the sign drawn in. -/
def sra (w a n : Nat) : Nat := wrap w (sInt w a / (2 ^ n : Nat))

/-- The high half of a product. -/
def mulH (w : Nat) (a b : Int) : Nat := wrap w (a * b / (2 ^ w : Nat))

/-- 1 for true. -/
def bit (b : Bool) : Nat := if b then 1 else 0

/-- Rotate right. -/
def ror (w a n : Nat) : Nat := (a / 2 ^ (n % w) + a * 2 ^ (w - n % w)) % 2 ^ w

/-- Leading zeros. -/
def clz (w a : Nat) : Nat := if a = 0 then w else w - 1 - Nat.log2 a

/-- Trailing zeros. -/
def ctz (w a : Nat) : Nat := ((List.range w).find? fun i => decide (a / 2 ^ i % 2 = 1)).getD w

/-- Bits set. -/
def cpop (w a : Nat) : Nat := ((List.range w).filter fun i => decide (a / 2 ^ i % 2 = 1)).length

/-- The bytes of a 64-bit value in the opposite order (REV8). -/
def rev8 (a : Nat) : Nat := leNat ((leBytes 8 a).reverse)

/-- Every byte that is not 0 becomes 0xFF (ORC.B). -/
def orcb (a : Nat) : Nat := leNat ((leBytes 8 a).map fun b => if b = 0 then 0 else 0xFF)

/-- OP and OP-32: an operation of `w` bits on two registers, by funct7 and funct3; none is illegal. -/
def alu (w f7 f3 a b : Nat) : Option Nat :=
  let n := b % w
  match f7, f3 with
  | 0x00, 0 => some ((a + b) % 2 ^ w)
  | 0x20, 0 => some (sub w a b)
  | 0x00, 1 => some (a * 2 ^ n % 2 ^ w)
  | 0x00, 5 => some (a / 2 ^ n)
  | 0x20, 5 => some (sra w a n)
  | 0x01, 0 => some (a * b % 2 ^ w)
  | 0x01, 4 => some (divS w a b)
  | 0x01, 5 => some (divU w a b)
  | 0x01, 6 => some (remS w a b)
  | 0x01, 7 => some (remU a b)
  | 0x30, 1 => some (ror w a (w - n))
  | 0x30, 5 => some (ror w a n)
  | _, _ => none

/-- The operations that only OP has, on 64 bits. -/
def alu64 (f7 f3 a b : Nat) : Option Nat :=
  let n := b % 64
  let sa := sInt 64 a
  let sb := sInt 64 b
  match f7, f3 with
  | 0x00, 2 => some (bit (decide (sa < sb)))
  | 0x00, 3 => some (bit (decide (a < b)))
  | 0x00, 4 => some (a ^^^ b)
  | 0x00, 6 => some (a ||| b)
  | 0x00, 7 => some (a &&& b)
  | 0x20, 4 => some (not 64 (a ^^^ b))
  | 0x20, 6 => some (a ||| not 64 b)
  | 0x20, 7 => some (a &&& not 64 b)
  | 0x01, 1 => some (mulH 64 sa sb)
  | 0x01, 2 => some (mulH 64 sa b)
  | 0x01, 3 => some (a * b / 2 ^ 64)
  | 0x10, 2 => some ((2 * a + b) % 2 ^ 64)
  | 0x10, 4 => some ((4 * a + b) % 2 ^ 64)
  | 0x10, 6 => some ((8 * a + b) % 2 ^ 64)
  | 0x05, 4 => some (if sa < sb then a else b)
  | 0x05, 5 => some (min a b)
  | 0x05, 6 => some (if sa < sb then b else a)
  | 0x05, 7 => some (max a b)
  | 0x24, 1 => some (if a / 2 ^ n % 2 = 1 then a - 2 ^ n else a)
  | 0x24, 5 => some (a / 2 ^ n % 2)
  | 0x34, 1 => some (a ^^^ 2 ^ n)
  | 0x14, 1 => some (a ||| 2 ^ n)
  | _, _ => alu 64 f7 f3 a b

/-- OP-32: 32-bit results are sign-extended; the forms of Zba zero-extend their first operand. -/
def alu32 (f7 f3 rs2 a b : Nat) : Option Nat :=
  let u := a % 2 ^ 32
  match f7, f3 with
  | 0x04, 0 => some ((u + b) % 2 ^ 64)
  | 0x04, 4 => if rs2 = 0 then some (a % 2 ^ 16) else none
  | 0x10, 2 => some ((2 * u + b) % 2 ^ 64)
  | 0x10, 4 => some ((4 * u + b) % 2 ^ 64)
  | 0x10, 6 => some ((8 * u + b) % 2 ^ 64)
  | _, _ => (alu 32 f7 f3 u (b % 2 ^ 32)).map (sext 32)

/-- One-operand forms of Zbb, by the rs2 field. -/
def unary (w n a : Nat) : Option Nat :=
  match n with
  | 0 => some (clz w a)
  | 1 => some (ctz w a)
  | 2 => some (cpop w a)
  | 4 => if w = 64 then some (sext 8 a) else none
  | 5 => if w = 64 then some (sext 16 a) else none
  | _ => none

/-- OP-IMM: `imm` is the 12-bit field. -/
def opImm (f3 imm a : Nat) : Option Nat :=
  let i := sext 12 imm
  let n := imm % 64
  match f3, imm / 64 with
  | 0, _ => alu64 0 0 a i
  | 2, _ => alu64 0 2 a i
  | 3, _ => alu64 0 3 a i
  | 4, _ => alu64 0 4 a i
  | 6, _ => alu64 0 6 a i
  | 7, _ => alu64 0 7 a i
  | 1, 0x00 => alu64 0 1 a n
  | 1, 0x12 => alu64 0x24 1 a n
  | 1, 0x1A => alu64 0x34 1 a n
  | 1, 0x0A => alu64 0x14 1 a n
  | 1, 0x18 => unary 64 n a
  | 5, 0x00 => alu64 0 5 a n
  | 5, 0x10 => alu64 0x20 5 a n
  | 5, 0x12 => alu64 0x24 5 a n
  | 5, 0x18 => alu64 0x30 5 a n
  | _, _ => if f3 = 5 ∧ imm = 0x287 then some (orcb a) else if f3 = 5 ∧ imm = 0x6B8 then some (rev8 a) else none

/-- OP-IMM-32. -/
def opImm32 (f3 imm a : Nat) : Option Nat :=
  let n := imm % 32
  match f3, imm / 32 with
  | 0, _ => some (sext 32 ((a + sext 12 imm) % 2 ^ 32))
  | 1, 0x00 => alu32 0 1 0 a n
  | 1, 0x04 => some (a % 2 ^ 32 * 2 ^ n % 2 ^ 64)
  | 1, 0x05 => some (a % 2 ^ 32 * 2 ^ (32 + n) % 2 ^ 64)
  | 1, 0x30 => (unary 32 n (a % 2 ^ 32)).map (sext 32)
  | 5, 0x00 => alu32 0 5 0 a n
  | 5, 0x20 => alu32 0x20 5 0 a n
  | 5, 0x30 => alu32 0x30 5 0 a n
  | _, _ => none

/-- A result goes to a register, or the instruction is illegal. -/
def put (m : Vm) (rd : Nat) : Option Nat → Vm
  | some v => m.setX rd v
  | none => m.fault

/-- A conditional branch is taken. -/
def branchTaken (f3 a b : Nat) : Option Bool :=
  match f3 with
  | 0 => some (decide (a = b))
  | 1 => some (decide (a ≠ b))
  | 4 => some (decide (sInt 64 a < sInt 64 b))
  | 5 => some (decide (sInt 64 b ≤ sInt 64 a))
  | 6 => some (decide (a < b))
  | 7 => some (decide (b ≤ a))
  | _ => none

/-- The 12-bit immediate of a store. -/
def immS (w : Nat) : Nat := sext 12 (fld w 31 25 * 32 + fld w 11 7)

/-- The offset of a branch. -/
def immB (w : Nat) : Nat :=
  sext 13 (fld w 31 31 * 2 ^ 12 + fld w 7 7 * 2 ^ 11 + fld w 30 25 * 2 ^ 5 + fld w 11 8 * 2)

/-- The offset of JAL. -/
def immJ (w : Nat) : Nat :=
  sext 21 (fld w 31 31 * 2 ^ 20 + fld w 19 12 * 2 ^ 12 + fld w 20 20 * 2 ^ 11 + fld w 30 21 * 2)

/-- LOAD. -/
def scalarLoad (m : Vm) (f3 rd a : Nat) : Vm :=
  if f3 = 7 then m.fault else
  let n := 2 ^ (f3 % 4)
  let (m, v) := m.load a n
  m.setX rd (if f3 < 4 then sext (8 * n) v else v)

/-- The value that an AMO leaves, by funct5; none is illegal. -/
def amoValue (f5 w a b : Nat) : Option Nat :=
  match f5 with
  | 0x00 => some ((a + b) % 2 ^ w)
  | 0x01 => some b
  | 0x04 => some (a ^^^ b)
  | 0x08 => some (a ||| b)
  | 0x0C => some (a &&& b)
  | 0x10 => some (if sInt w a < sInt w b then a else b)
  | 0x14 => some (if sInt w a < sInt w b then b else a)
  | 0x18 => some (min a b)
  | 0x1C => some (max a b)
  | _ => none

/-- AMO, LR and SC: a store-conditional succeeds if its reservation stands (log 39). -/
def amo (m : Vm) (w : Nat) : Vm :=
  let f3 := fld w 14 12
  let f5 := fld w 31 27
  let rd := fld w 11 7
  let a := m.x (fld w 19 15)
  let b := m.x (fld w 24 20)
  let n := 2 ^ f3
  if f3 ≠ 2 ∧ f3 ≠ 3 then m.fault
  else if f5 = 0x02 then
    if fld w 24 20 ≠ 0 then m.fault else
    let (m, v) := m.load a n
    ({ m with r := { m.r with resv := some a } }).setX rd (sext (8 * n) v)
  else if f5 = 0x03 then
    let held := decide (m.r.resv = some a)
    let m := { m with r := { m.r with resv := none } }
    if held then (m.store a n b).setX rd 0 else if reach a n then m.setX rd 1 else m.fault
  else
    match amoValue f5 (8 * n) (m.peek a n) (b % 2 ^ (8 * n)) with
    | none => m.fault
    | some v =>
      let (m, old) := m.load a n
      if m.bad then m else (m.store a n v).setX rd (sext (8 * n) old)

/-! ### Control and status registers -/

/-- A control and status register that a kernel may read: those of the F, D and V extensions (log 39). -/
def csr (m : Vm) (a : Nat) : Option Nat :=
  match a with
  | 0x001 => some m.r.fflags.toNat
  | 0x002 => some m.r.frm.toNat
  | 0x003 => some (m.r.frm.toNat * 32 + m.r.fflags.toNat)
  | 0x008 => some m.r.vstart
  | 0x009 => some (bit m.r.vxsat)
  | 0x00A => some m.r.vxrm.toNat
  | 0x00F => some (m.r.vxrm.toNat * 2 + bit m.r.vxsat)
  | 0xC20 => some m.r.vl
  | 0xC21 => some m.r.vtype.toNat
  | 0xC22 => some 128
  | _ => none

/-- Write a control and status register; vl, vtype and vlenb are read-only. -/
def setCsr (m : Vm) (a v : Nat) : Vm :=
  match a with
  | 0x001 => { m with r := { m.r with fflags := BitVec.ofNat 5 v } }
  | 0x002 => { m with r := { m.r with frm := BitVec.ofNat 3 v } }
  | 0x003 => { m with r := { m.r with fflags := BitVec.ofNat 5 v, frm := BitVec.ofNat 3 (v / 32) } }
  | 0x008 => { m with r := { m.r with vstart := v % 1024 } }
  | 0x009 => { m with r := { m.r with vxsat := decide (v % 2 = 1) } }
  | 0x00A => { m with r := { m.r with vxrm := BitVec.ofNat 2 v } }
  | 0x00F => { m with r := { m.r with vxsat := decide (v % 2 = 1), vxrm := BitVec.ofNat 2 (v / 2) } }
  | _ => m.fault

/-- SYSTEM: ECALL, EBREAK and MRET end the kernel (R81), WFI does nothing, the rest access a control and status
register. -/
def system (m : Vm) (w : Nat) : Vm :=
  let f3 := fld w 14 12
  let rs1 := fld w 19 15
  if f3 = 0 then (if w = 0x10500073 then m else m.fault)
  else if f3 = 4 then m.fault
  else
    let a := fld w 31 20
    match m.csr a with
    | none => m.fault
    | some old =>
      let v := if f3 < 4 then m.x rs1 else rs1
      let new := match f3 % 4 with
        | 1 => v
        | 2 => old ||| v
        | _ => old &&& not 64 v
      let m := m.setX (fld w 11 7) old
      if f3 % 4 ≠ 1 ∧ rs1 = 0 then m else m.setCsr a new

/-! ### Jumps -/

/-- The value of `ra` that the entry function starts with: every register is 0 (R79). A jump there through `ra`, with no
link, is the return from the entry function (log 39). -/
def returnsTo (m : Vm) (rd rs1 target : Nat) : Bool :=
  decide (rd = 0) && decide (rs1 = 1) && decide (target = 0) && decide (m.x 1 = 0)

/-- JALR. -/
def jalr (m : Vm) (rd rs1 imm link : Nat) : Vm :=
  let t := (m.x rs1 + imm) % 2 ^ 64 / 2 * 2
  if m.returnsTo rd rs1 t then { m with done := true } else (m.goto t).setX rd link

/-- The scalar instructions of a 32-bit word that touch no floating-point register. -/
def scalar (m : Vm) (w : Nat) : Vm :=
  let rd := fld w 11 7
  let f3 := fld w 14 12
  let rs1 := fld w 19 15
  let rs2 := fld w 24 20
  let a := m.x rs1
  let b := m.x rs2
  match fld w 6 0 with
  | 0x37 => m.setX rd (sext 32 (fld w 31 12 * 2 ^ 12))
  | 0x17 => m.setX rd ((m.pc + sext 32 (fld w 31 12 * 2 ^ 12)) % 2 ^ 64)
  | 0x6F => (m.goto (m.pc + immJ w)).setX rd m.next
  | 0x67 => if f3 = 0 then m.jalr rd rs1 (sext 12 (fld w 31 20)) m.next else m.fault
  | 0x63 => match branchTaken f3 a b with
    | none => m.fault
    | some t => if t then m.goto (m.pc + immB w) else m
  | 0x03 => m.scalarLoad f3 rd (a + sext 12 (fld w 31 20))
  | 0x23 => if f3 < 4 then m.store (a + immS w) (2 ^ f3) (b % 2 ^ (8 * 2 ^ f3)) else m.fault
  | 0x13 => m.put rd (opImm f3 (fld w 31 20) a)
  | 0x1B => m.put rd (opImm32 f3 (fld w 31 20) a)
  | 0x33 => m.put rd (alu64 (fld w 31 25) f3 a b)
  | 0x3B => m.put rd (alu32 (fld w 31 25) f3 rs2 a b)
  | 0x0F => if f3 ≤ 1 then m else m.fault
  | 0x2F => m.amo w
  | 0x73 => m.system w
  | _ => m.fault

/-! ### Compressed instructions -/

/-- A word of the I format. -/
def encI (op rd f3 rs1 imm : Nat) : Nat := op + rd * 2 ^ 7 + f3 * 2 ^ 12 + rs1 * 2 ^ 15 + imm % 2 ^ 12 * 2 ^ 20

/-- A word of the R format. -/
def encR (op rd f3 rs1 rs2 f7 : Nat) : Nat := op + rd * 2 ^ 7 + f3 * 2 ^ 12 + rs1 * 2 ^ 15 + rs2 * 2 ^ 20 + f7 * 2 ^ 25

/-- A word of the S format. -/
def encS (op f3 rs1 rs2 imm : Nat) : Nat := encR op (imm % 32) f3 rs1 rs2 (imm / 32 % 128)

/-- A branch on a register against x0. -/
def encB (f3 rs1 off : Nat) : Nat :=
  encR 0x63 (fld off 4 1 * 2 + fld off 11 11) f3 rs1 0 (fld off 12 12 * 64 + fld off 10 5)

/-- A jump with a link register. -/
def encJ (rd off : Nat) : Nat :=
  0x6F + rd * 2 ^ 7 + (fld off 20 20 * 2 ^ 19 + fld off 10 1 * 2 ^ 9 + fld off 11 11 * 2 ^ 8 + fld off 19 12) * 2 ^ 12

/-- The 6-bit immediate of a compressed instruction, sign-extended. -/
def immC (h : Nat) : Nat := sext 6 (fld h 12 12 * 32 + fld h 6 2)

/-- Compressed words of quadrant 0: accesses through a register. -/
def quad0 (h : Nat) : Option Nat :=
  let rd := 8 + fld h 4 2
  let rs := 8 + fld h 9 7
  let d := fld h 12 10 * 8 + fld h 6 5 * 64
  let w := fld h 12 10 * 8 + fld h 6 6 * 4 + fld h 5 5 * 64
  let s := fld h 10 7 * 64 + fld h 12 11 * 16 + fld h 5 5 * 8 + fld h 6 6 * 4
  match fld h 15 13 with
  | 0 => if s = 0 then none else some (encI 0x13 rd 0 2 s)
  | 1 => some (encI 0x07 rd 3 rs d)
  | 2 => some (encI 0x03 rd 2 rs w)
  | 3 => some (encI 0x03 rd 3 rs d)
  | 5 => some (encS 0x27 3 rs rd d)
  | 6 => some (encS 0x23 2 rs rd w)
  | 7 => some (encS 0x23 3 rs rd d)
  | _ => none

/-- Compressed register arithmetic of quadrant 1. -/
def quad1Alu (h : Nat) : Option Nat :=
  let rd := 8 + fld h 9 7
  let rs := 8 + fld h 4 2
  let n := fld h 12 12 * 32 + fld h 6 2
  match fld h 11 10, fld h 12 12, fld h 6 5 with
  | 0, _, _ => some (encI 0x13 rd 5 rd n)
  | 1, _, _ => some (encI 0x13 rd 5 rd (0x400 + n))
  | 2, _, _ => some (encI 0x13 rd 7 rd (immC h))
  | _, 0, 0 => some (encR 0x33 rd 0 rd rs 0x20)
  | _, 0, 1 => some (encR 0x33 rd 4 rd rs 0)
  | _, 0, 2 => some (encR 0x33 rd 6 rd rs 0)
  | _, 0, _ => some (encR 0x33 rd 7 rd rs 0)
  | _, _, 0 => some (encR 0x3B rd 0 rd rs 0x20)
  | _, _, 1 => some (encR 0x3B rd 0 rd rs 0)
  | _, _, _ => none

/-- Compressed words of quadrant 1: immediates, jumps and branches. -/
def quad1 (h : Nat) : Option Nat :=
  let rd := fld h 11 7
  let i := immC h
  let j := sext 12 (fld h 12 12 * 2 ^ 11 + fld h 8 8 * 2 ^ 10 + fld h 10 9 * 2 ^ 8 + fld h 6 6 * 2 ^ 7 +
    fld h 7 7 * 2 ^ 6 + fld h 2 2 * 2 ^ 5 + fld h 11 11 * 2 ^ 4 + fld h 5 3 * 2)
  let b := sext 9 (fld h 12 12 * 256 + fld h 6 5 * 64 + fld h 2 2 * 32 + fld h 11 10 * 8 + fld h 4 3 * 2)
  let s := sext 10 (fld h 12 12 * 512 + fld h 4 3 * 128 + fld h 5 5 * 64 + fld h 2 2 * 32 + fld h 6 6 * 16)
  match fld h 15 13 with
  | 0 => some (encI 0x13 rd 0 rd i)
  | 1 => if rd = 0 then none else some (encI 0x1B rd 0 rd i)
  | 2 => some (encI 0x13 rd 0 0 i)
  | 3 => if i = 0 then none else if rd = 2 then some (encI 0x13 2 0 2 s)
      else some (0x37 + rd * 2 ^ 7 + i % 2 ^ 20 * 2 ^ 12)
  | 4 => quad1Alu h
  | 5 => some (encJ 0 j)
  | 6 => some (encB 0 (8 + fld h 9 7) b)
  | _ => some (encB 1 (8 + fld h 9 7) b)

/-- Compressed words of quadrant 2: accesses by the stack pointer, moves and indirect jumps. -/
def quad2 (h : Nat) : Option Nat :=
  let rd := fld h 11 7
  let rs := fld h 6 2
  let d := fld h 12 12 * 32 + fld h 6 5 * 8 + fld h 4 2 * 64
  let w := fld h 12 12 * 32 + fld h 6 4 * 4 + fld h 3 2 * 64
  let ds := fld h 12 10 * 8 + fld h 9 7 * 64
  let ws := fld h 12 9 * 4 + fld h 8 7 * 64
  match fld h 15 13, fld h 12 12 with
  | 0, _ => some (encI 0x13 rd 1 rd (fld h 12 12 * 32 + rs))
  | 1, _ => some (encI 0x07 rd 3 2 d)
  | 2, _ => if rd = 0 then none else some (encI 0x03 rd 2 2 w)
  | 3, _ => if rd = 0 then none else some (encI 0x03 rd 3 2 d)
  | 4, 0 => if rs = 0 then (if rd = 0 then none else some (encI 0x67 0 0 rd 0)) else some (encR 0x33 rd 0 0 rs 0)
  | 4, _ => if rs = 0 then (if rd = 0 then some 0x00100073 else some (encI 0x67 1 0 rd 0))
      else some (encR 0x33 rd 0 rd rs 0)
  | 5, _ => some (encS 0x27 3 2 rs ds)
  | 6, _ => some (encS 0x23 2 2 rs ws)
  | _, _ => some (encS 0x23 3 2 rs ds)

/-- The 32-bit word that a compressed one stands for; none is illegal. -/
def expand (h : Nat) : Option Nat :=
  match h % 4 with
  | 0 => quad0 h
  | 1 => quad1 h
  | _ => quad2 h

end Vm

end Sys2Proof.Machine
end

