-- ==== Sys2Proof/Machine/HostCache.lean ====
section
/-!
DEFINITION. The lines that the caches of a die's host cores hold, and what loads, stores, AMOs, LR and SC do in them
(R279, R282, R283; log 48). The eight cores of a die are coherent among themselves, so a line has one value on a die.
-/

namespace Sys2Proof.Machine

open Sys2Proof

/-- The bases of the units of `u` bytes that `n` bytes at `a` touch. -/
def unitBases (u a n : Nat) : List Nat :=
  (List.range ((a % u + n + u - 1) / u)).map fun i => (a / u + i) * u

/-- The key of the line at global address `b` on compute die `k`. -/
def hostKey (k b : Nat) : Nat := k * 2 ^ 64 + b

/-- The line that die `k` holds at `b`. -/
def State.hostLine (s : State) (k b : Nat) : Option HostLine :=
  (s.hostLines.find? fun kv => decide (kv.1 = hostKey k b)).map (·.2)

def State.putLine (s : State) (k b : Nat) (l : HostLine) : State :=
  { s with hostLines := SMap.put (hostKey k b) l s.hostLines }

/-- A line leaves the die's caches. -/
def State.dropLine (s : State) (k b : Nat) : State :=
  { s with hostLines := SMap.del (hostKey k b) s.hostLines }

/-- A fetched line is kept, unless the die has it by then. -/
def State.fillLine (s : State) (k b : Nat) (bs : List Byte) : State :=
  if (s.hostLine k b).isSome then s else s.putLine k b ⟨bs, false⟩

/-- Does the die hold every line of `n` bytes at `g`? -/
def State.linesHeld (s : State) (k g n : Nat) : Bool :=
  (unitBases 64 g n).all fun b => (s.hostLine k b).isSome

/-- The bytes that the die's lines hold of `n` bytes at `g`. -/
def State.lineBytes (s : State) (k g n : Nat) : List Byte :=
  (((unitBases 64 g n).flatMap fun b => ((s.hostLine k b).map (·.bytes)).getD []).drop (g % 64)).take n

/-- The bytes `bs` at `a` laid over the line at `b`. -/
def overLine (old : List Byte) (b a : Nat) (bs : List Byte) : List Byte :=
  (List.range 64).map fun j =>
    if a ≤ b + j ∧ b + j < a + bs.length then bs.getD (b + j - a) 0 else old.getD j 0

/-- Reservations that other cores of a core's die hold on one of the lines end. -/
def State.breakResv (s : State) (h : Nat) (lines : List Nat) : State :=
  { s with hostResv := s.hostResv.filter fun kv =>
      decide (kv.1 / 8 ≠ h / 8) || decide (kv.1 = h) || !(lines.contains (kv.2.1 / 64 * 64)) }

/-- A host core stores into lines its die holds, which become dirty. -/
def State.storeLines (s : State) (h g : Nat) (bs : List Byte) : State :=
  let bases := unitBases 64 g bs.length
  (bases.foldl (fun (s : State) b =>
    s.putLine (h / 8) b ⟨overLine (((s.hostLine (h / 8) b).map (·.bytes)).getD []) b g bs, true⟩) s).breakResv h bases

/-- A clean line that fails parity is invalidated, and the access fetches it again (R285). -/
def State.refetchLines (s : State) (k g n : Nat) : State :=
  (unitBases 64 g n).foldl (fun (s : State) b =>
    if s.hostLine k b |>.any (fun l => !l.dirty) then s.dropLine k b else s) s

/-- The operand width of an AMO, LR or SC in bytes. -/
def amoWidth : HostAmo → Nat
  | .add w _ | .cas w _ _ | .fn _ w _ | .lr w | .sc w _ => if w then 4 else 8
  | .casq _ _ => 16

/-- The operation code of an AMO (A extension). -/
def amoCode : AmoFn → Nat
  | .swap => 0x01
  | .xor => 0x04
  | .or => 0x08
  | .and => 0x0C
  | .min => 0x10
  | .max => 0x14
  | .minu => 0x18
  | .maxu => 0x1C

/-- What an AMO stores where it finds `old`; LR and SC are none (R283, the A and Zacas extensions). -/
def amoStores (amo : HostAmo) (old : Nat) : Option Nat :=
  let bits := 8 * amoWidth amo
  match amo with
  | .add _ v => Vm.amoValue 0x00 bits old (v.toNat % 2 ^ bits)
  | .fn f _ v => Vm.amoValue (amoCode f) bits old (v.toNat % 2 ^ bits)
  | .cas _ a b => some (if a.toNat % 2 ^ bits = old then b.toNat % 2 ^ bits else old)
  | .casq a b => some (if a.toNat = old then b.toNat else old)
  | .lr _ | .sc _ _ => none

/-- An AMO, LR or SC in a line that the die holds (R283): the core gets the old value, and SC 0 where its reservation stands,
else 1. -/
def State.amoInLine (s : State) (h g : Nat) (amo : HostAmo) : State :=
  let n := amoWidth amo
  let old := s.lineBytes (h / 8) g n
  match amo with
  | .lr _ => { s with hostResv := SMap.put h (g, n) s.hostResv }.emit (.hostValue h old)
  | .sc _ v =>
    let held := decide (SMap.get (0, 0) s.hostResv h = (g, n))
    let s := { s with hostResv := SMap.del h s.hostResv }
    (if held then s.storeLines h g (leBytes n v.toNat) else s).emit (.hostValue h [if held then 0 else 1])
  | amo =>
    match amoStores amo (leNat old) with
    | none => s
    | some v => (s.storeLines h g (leBytes n v)).emit (.hostValue h old)

/-- What a host core does once its die holds the lines (R282, R283). -/
def State.hostDo (s : State) (h g n : Nat) (todo : HostDo) : State :=
  match todo with
  | .load => s.emit (.hostValue h (s.lineBytes (h / 8) g n))
  | .store bs => s.storeLines h g bs
  | .amo amo => s.amoInLine h g amo

/-- The exception of an access whose line cannot be had: a load access fault or a store/AMO access fault (log 12). -/
def HostDo.cause : HostDo → Nat
  | .load | .amo (.lr _) => 5
  | _ => 7

/-- The lines of an access have come, with `bs` from the first line's base: the die keeps them and the core goes on. -/
def State.linesCome (s : State) (h g n : Nat) (todo : HostDo) (bs : List Byte) : State :=
  (((unitBases 64 g n).zipIdx.foldl (fun (s : State) (b, i) =>
    s.fillLine (h / 8) b ((bs.drop (64 * i)).take 64)) s)).hostDo h g n todo

/-- What the host cores of a die hold in their caches is lost with the die (R333). -/
def State.loseHosts (s : State) (k : Nat) : State :=
  { s with hostLines := SMap.clearRange s.hostLines (k * 2 ^ 64) ((k + 1) * 2 ^ 64)
           hostResv := SMap.clearRange s.hostResv (8 * k) (8 * k + 8)
           imsic := SMap.clearRange s.imsic (2048 * k) (2048 * k + 2048) }

end Sys2Proof.Machine
end

