-- ==== Sys2Proof/Machine/Transactions.lean ====
section
/-!
DEFINITION. Transactions at their issuer: tithed requests that wait to be sent (R156), transfers of several
packets, what a response or a local failure does by the purpose of its tag (R93, R225 to R228), and the
rows TITHE_ADMIT, TAG_TIMEOUT and QUARANTINE_END.
-/

namespace Sys2Proof.Machine

open Sys2Proof

/-! ### Transfers of several packets -/

/-- Begin a transfer of `left` packets. -/
def State.beginXfer (s : State) (left : Nat) (kind : XferKind) : State × Nat :=
  ({ s with nextId := s.nextId + 1, xfers := s.xfers ++ [⟨s.nextId, left, 0, [], kind⟩] }, s.nextId)

/-- The bytes of a transfer's parts in order of their offsets. -/
def joinParts (ps : List (Nat × List Byte)) : List Byte :=
  (ps.foldl (fun (m : SMap (List Byte)) p => SMap.put p.1 p.2 m) []).flatMap (·.2)

/-- The answer to an Ohmune command (R460): COMMAND, SEQ, STATUS, a byte of 0, and what follows. -/
def ohmune (cmd seq status : Nat) (bytes : List Byte) : List Byte :=
  leBytes 1 cmd ++ leBytes 1 seq ++ leBytes 1 status ++ leBytes 1 0 ++ bytes

/-- The site of the ring engine and the host port (R286, R296). -/
def portSite : Nat := 22

/-- Does the peer hold a priority of the host port paused (R296)? -/
def State.prioPaused (s : State) (p : Nat) : Bool :=
  decide (s.getF Reg.HOST_PORT_STATUS Fld.HOST_PORT_STATUS_PAUSED / 2 ^ p % 2 = 1)

/-- Does a frame carry MKA, which goes in clear: EtherType 0x888E (PRESUMED, IEEE 802.1X; log 15)? -/
def isEapol : Output → Bool
  | .ether bs _ => decide ((bs.drop 12).take 2 = [0x88, 0x8E])
  | _ => false

/-- A frame leaves the host port, under the transmit association that was installed last, whose packet number goes up
(R300; log 15). -/
def State.frameOut (s : State) (what : Output) : State :=
  match (if isEapol what then none else s.txAn) with
  | none => s.emit what
  | some an =>
    match s.sas.find? fun kv => decide (kv.1 = 2 ^ 31 + an) with
    | none => s.emit what
    | some (k, a) => (({ s with sas := SMap.put k { a with pn := a.pn + 1 } s.sas }).emit (.secured an a.pn)).emit what

/-- Send an answer to the operator: over the sideband, or through the host port in an untagged frame of `rep`
bytes under class 1 (R155, R459), which has priority 0 (DESIGN CHOICE, log 15). -/
def State.operatorOut (s : State) (q : Requester) (rep : Nat) (bytes : List Byte) : State :=
  if q ≠ .port then s.emit (.sideband q bytes) else
  let id := s.nextId
  let s := { s with nextId := id + 1 }.titheAsk portSite 1 rep id
  let t := s.tithe portSite
  if id ∈ t.admitted then
    let s := s.setTithe portSite { t with admitted := t.admitted.filter fun i => decide (i ≠ id) }
    if s.prioPaused 0 then { s with heldOut := s.heldOut ++ [⟨.sideband q bytes, none, 0⟩] }
    else s.frameOut (.sideband q bytes)
  else { s with egress := s.egress ++ [(id, ⟨.sideband q bytes, none, 0⟩)] }

/-- Put a bell of a ring. -/
def RingSt.setBell (r : RingSt) (b : RingBell) : RingSt :=
  { r with bells := r.bells.map fun x => if x.bell = b.bell ∧ x.prod = b.prod then b else x }

def State.ring (s : State) (r : Nat) : RingSt := SMap.get RingSt.idle s.rings r
def State.setRing (s : State) (r : Nat) (x : RingSt) : State :=
  { s with rings := SMap.set RingSt.idle s.rings r x }

/-- What a transfer does when its last packet is answered: host cores get their value or an access fault
(log 12), the operator a response, a ring copy counts as written (R292). -/
def State.endXfer (s : State) (x : Xfer) : State :=
  let bs := joinParts x.parts
  match x.kind with
  | .hostLoad h lo n => s.emit (if x.status = 0 then .hostValue h ((bs.drop lo).take n) else .hostStop h 5)
  | .hostFill h g n todo =>
    if x.status = 0 then s.linesCome h g n todo bs else s.emit (.hostStop h todo.cause)
  | .hostStore h => if x.status = 0 then s else s.emit (.hostStop h 7)
  | .hostAmo h n => s.emit (if x.status = 0 then .hostValue h (bs.take n) else .hostStop h 7)
  | .memRead r seq lo n rep => s.operatorOut r rep
      (if x.status = 0 then ohmune 0x21 seq 0 ((bs.drop lo).take n) else ohmune 0x21 seq (0x80 + x.status) [])
  | .memWrite r seq rep => s.operatorOut r rep (ohmune 0x21 seq (if x.status = 0 then 0 else 0x80 + x.status) [])
  | .ringCopy ring bell =>
    let r := s.ring ring
    match r.bells.find? (fun b => decide (b.bell = bell) && !b.prod) with
    | none => s
    | some b => if x.status = 0 then s.setRing ring (r.setBell { b with copy := 2 }) else s

/-- One packet of a transfer is answered. -/
def State.xferPart (s : State) (id off status : Nat) (bytes : List Byte) : State :=
  match s.xfers.find? (fun x => decide (x.id = id)) with
  | none => s
  | some x =>
    let x := { x with left := x.left - 1, status := if x.status = 0 then status else x.status
                      parts := if status = 0 then x.parts ++ [(off, bytes)] else x.parts }
    if x.left = 0 then ({ s with xfers := s.xfers.filter fun y => decide (y.id ≠ id) }).endXfer x
    else { s with xfers := s.xfers.map fun y => if y.id = id then x else y }

/-! ### Completing and failing by purpose (R93, R226, R230) -/

/-- A flight has one answer fewer to hear. -/
def State.flightHears (s : State) (k c serial : Nat) : State :=
  match (s.core k c).flight serial with
  | none => s
  | some f => s.setCore k c ((s.core k c).setFlight { f with left := f.left - 1 })

/-- The transaction of a tag ends with a status, 0 for success, the bytes read, and what they meet where they are written. A failed descriptor
is reported and still completes (R93). -/
def State.endTag (s : State) (site issuer : Nat) (why : Purpose) (ctx status : Nat) (mets : Meets)
    (bs : List Byte) : State :=
  match why with
  | .descRead c serial dst spec =>
    let s := if status = 0 then s.deliver site c serial dst spec mets bs
      else s.failFlight site c serial (0x300 + status)
    (s.flightHears site c serial).tryFinish site c serial
  | .cacheRead c serial dst spec g lo n =>
    let s := if status = 0 then
        (s.cacheFill site ctx (gSite g) (gOff g) bs).deliver site c serial dst spec mets ((bs.drop lo).take n)
      else s.failFlight site c serial (0x300 + status)
    (s.flightHears site c serial).tryFinish site c serial
  | .desc c serial =>
    let s := if status = 0 then s else s.failFlight site c serial (0x300 + status)
    (s.flightHears site c serial).tryFinish site c serial
  | .line key =>
    if status ≠ 0 then s.raiseStatus site status (issuerArgs s.pkg site issuer)
    else match s.runs.find? (fun kv => decide (kv.1 = key)) with
      | none => s
      | some (_, r) => s.sliceDone { r with left := r.left - 1 }
  | .xfer id off =>
    let s := if status = 0 then s else s.raiseStatus site status (issuerArgs s.pkg site issuer)
    s.xferPart id off status bs
  | .xferLine id off g lo n =>
    let s := if status = 0 then s.cacheFill site ctx (gSite g) (gOff g) bs
      else s.raiseStatus site status (issuerArgs s.pkg site issuer)
    s.xferPart id off status ((bs.drop lo).take n)
  | .dma => if status = 0 then s else s.raiseStatus site status (issuerArgs s.pkg site issuer)

/-- Does a guard interval keep a packet from being issued: a sequencer's, or one of a tithed class (R128)? -/
def State.guardKeeps (s : State) (site issuer : Nat) (p : Packet) : Bool :=
  (s.bellAt site).guard && (decide (site < 8 ∧ issuer < 96) || decide (p.vc ∈ [3, 4, 6]))

/-- The local failure of a packet that waits for a tag, or of one of its copies to a site (R24). -/
def State.waitFails (s : State) (site : Nat) (w : TagWait) : Option Nat :=
  if w.copies = [] then s.localFail site w.issuer w.pkt.dstPkg.toNat w.pkt.dstSite.val
  else (w.copies.filterMap fun c => if c.1.isSome then none else s.localFail site w.issuer s.pkg c.2.val).head?

/-- The packets of an issuer that wait for a tag go in their order while a tag is free (R225), stamped as they go; one
whose destination has failed by then fails (R24; log 35). In a guard interval those that R128 keeps wait on. -/
def State.tagDrain (s : State) (site issuer : Nat) : State :=
  let g := s.gw site
  let mine := fun (w : TagWait) => decide (w.issuer = issuer) && !(s.guardKeeps site issuer w.pkt)
  match g.tagWait.filter mine with
  | [] => s
  | ws =>
    ws.foldl (fun (s : State) w =>
      match s.waitFails site w with
      | some st => s.endTag site issuer w.why w.pkt.ctx.toNat st [] []
      | none =>
        let p := s.stamp site issuer w.pkt
        s.sendTagged site { w with pkt := if w.keepBell then { p with bell := w.pkt.bell } else p })
      (s.setGw site { g with tagWait := g.tagWait.filter fun w => !(mine w) })

/-- A tag of an issuer may be free: its waiting packets go, then the rest of its core's flights, if it is a core. -/
def State.pumpIssuer (s : State) (site issuer : Nat) : State :=
  let s := s.tagDrain site issuer
  if site < 8 ∧ issuer < 96 then s.pumpCore site issuer else s

/-- The issuers of a site whose packets wait for a tag, and the cores with pieces to send, go on, by rank (R153): a
guard interval is over (R128). -/
def State.pumpSite (s : State) (site : Nat) : State :=
  let wait := (s.gw site).tagWait.map (·.issuer)
  ((rankOrder 128 (s.bellAt site).bell).filter fun n => decide (n ∈ wait)).foldl (fun (s : State) n => s.pumpIssuer site n) s

/-- A live tag ends by an accepted response (R226): it is free and its transaction ends. -/
def State.respTag (s : State) (site key status : Nat) (mets : Meets) (bs : List Byte) : State :=
  match (s.gw site).tags.find? (fun kv => decide (kv.1 = key)) with
  | none => s
  | some (_, e) =>
    ((s.freeLive site key).endTag site (key / 4096) e.purpose e.ctx status mets bs).pumpIssuer site (key / 4096)

/-- A live tag ends by a failure formed at its issuer or gateway: it is quarantined (R225). -/
def State.failTag (s : State) (site key status : Nat) : State :=
  match (s.gw site).tags.find? (fun kv => decide (kv.1 = key)) with
  | none => s
  | some (_, e) =>
    ((s.quarantine site key).endTag site (key / 4096) e.purpose e.ctx status [] []).pumpIssuer site (key / 4096)

/-- Every live tag of a site that satisfies a test fails with a status (R222, R336, R340). -/
def State.failTags (s : State) (site status : Nat) (p : Nat × TagEntry → Bool) : State :=
  (((s.gw site).tags.filter p).map (·.1)).foldl (fun (s : State) key => s.failTag site key status) s

/-- Every packet of a site that waits to be sent, under its tithe or for a tag, from an issuer that satisfies a test fails
with a status (R340). -/
def State.failWaiting (s : State) (site status : Nat) (p : Nat → Bool) : State :=
  let out := fun (j : Job) => decide (j.site = site) && p j.issuer
  let jobs := s.jobs.filter out
  let ids := jobs.map (·.id)
  let ws := (s.gw site).tagWait.filter fun w => p w.issuer
  let s := { s with jobs := s.jobs.filter fun j => !(out j) }
  let t := s.tithe site
  let s := s.setTithe site { t with queue := t.queue.filter fun r => decide (r.id ∉ ids) }
  let s := s.setGw site { s.gw site with tagWait := (s.gw site).tagWait.filter fun w => !(p w.issuer) }
  let s := jobs.foldl (fun (s : State) j => s.endTag site j.issuer j.why j.pkt.ctx.toNat status [] []) s
  ws.foldl (fun (s : State) w => s.endTag site w.issuer w.why w.pkt.ctx.toNat status [] []) s

/-- TAG_TIMEOUT (R227): a tag that is live for 2 × period fails with TIMEOUT. -/
def execTagTimeout (site : Site) (issuer : Fin 128) (tag : Fin 4096) (s : State) : Out :=
  let key := tagKey issuer tag
  match (s.gw site).tags.find? (fun kv => decide (kv.1 = key)) with
  | none => .next s
  | some (_, e) =>
    if s.vt < e.issued + 2 * periodNs s.rs then .next s else .next (s.failTag site key stTimeout)

/-- QUARANTINE_END (R225): a quarantined tag is free after 2 × period. -/
def execQuarantineEnd (site : Site) (issuer : Fin 128) (tag : Fin 4096) (s : State) : Out :=
  let key := tagKey issuer tag
  let g := s.gw site
  match g.quar.find? (fun kv => decide (kv.1 = key)) with
  | none => .next s
  | some (_, t) =>
    if s.vt < t then .next s
    else .next ((s.setGw site { g with quar := SMap.del key g.quar }).pumpIssuer site issuer)

/-! ### Tithed requests (R155, R156) -/

/-- Send the packet of an admitted request; a destination that fails at the gateway fails it (R24). -/
def State.launch (s : State) (j : Job) : State :=
  match s.localFail j.site j.issuer j.pkt.dstPkg.toNat j.pkt.dstSite.val with
  | some st => s.endTag j.site j.issuer j.why j.pkt.ctx.toNat st [] []
  | none =>
    s.sendTagged j.site ⟨j.issuer, [], false, s.stamp j.site j.issuer j.pkt, j.len, j.why⟩

/-- Send a packet under a tithe class once the arbiter admits its cost: now, or at a TITHE_ADMIT. -/
def State.titheSend (s : State) (site cls cost issuer : Nat) (pkt : Packet) (len : Nat) (why : Purpose) :
    State :=
  let j : Job := ⟨site, s.nextId, issuer, pkt, len, why⟩
  let s := { s with nextId := s.nextId + 1 }
  let s := s.titheAsk site cls cost j.id
  let t := s.tithe site
  if j.id ∈ t.admitted then
    (s.setTithe site { t with admitted := t.admitted.filter fun i => decide (i ≠ j.id) }).launch j
  else { s with jobs := s.jobs ++ [j] }

end Sys2Proof.Machine
end

