-- ==== Sys2Proof/Machine/Packets.lean ====
section
/-!
DEFINITION. The packet rows (R202, R209, R210, R226, R273, R274) and the hop rows (R217 to R224, R252).
-/

namespace Sys2Proof.Machine

open Sys2Proof

/-! ### Arrival windows (R110, R111) -/

/-- The LAST packet of a MOVE landed at `[a, a + n)`: the tokens of the windows it lies in rise, unless its
BELL is not the executing bell's (R110, R111). A LAST write of another issuer, a host core, a DMA or the MC, raises them
too (DESIGN CHOICE, log 48). -/
def State.landed (s : State) (site : Nat) (p : Packet) (a n : Nat) : State :=
  if siteKind site ≠ .stack ∨ p.last = false then s else
  (s.enabledCores site).foldl (fun (s : State) c =>
    match s.coreProg site c with
    | none => s
    | some r => (progWindows r).foldl (fun (s : State) w =>
        if !(within a n w.1 w.2.1) then s
        else if p.bell.toNat = (s.bellAt site).bell % 256 then s.raiseToken site c w.2.2 1
        else s.bump (Reg.CORE_STALE_INC site c) Fld.CORE_STALE_INC_COUNT 1) s) s

/-! ### WRITE, WRITE_COMMIT, MCAST_WRITE -/

/-- The stacks that must drop their lines before a write is acknowledged (R167): writes that no bell
program causes, but for the lines of the stack that issued it. -/
def State.invsFor (s : State) (site : Nat) (p : Packet) (n : Nat) : State × Option Nat :=
  let a := p.addr.toNat
  if siteKind site ≠ .bridge ∨ p.vc = 0 ∨ hbmSize < a + n then (s, none) else
  let id := s.nextId
  let t := { s with nextId := s.nextId + 1 }.startInvs site a n id
  let own := fun (i : InvPend) => decide (i.id = id) && decide (p.srcPkg.toNat = s.pkg) &&
    decide (i.stack = p.srcSite.val)
  let t := { t with invPend := t.invPend.filter fun i => !(own i) }
  if t.invPend.any (fun i => decide (i.id = id)) then (t, some id) else (s, none)

/-- Accept a write or an atomic, its answer held back while invalidations are out (R167). -/
def State.acceptWrite (s : State) (site : Nat) (h : Hop) (p : Packet) (n : Nat) (payload : List Byte) :
    State × Bool :=
  match s.invsFor site p n with
  | (s, none) => s.accept site h p payload
  | (s, some id) =>
    if !tagged p || (s.gw site).sticky.any (fun e => decide (e.1 = p.source)) then s.accept site h p payload
    else ({ s with invAcks := s.invAcks ++ [⟨id, site, s.answer site p 0 payload⟩] }, true)

/-- The MC stores a contact sheet (R458); MC_SHEET_BELL follows once every live site's is in. -/
def State.storeSheet (s : State) (a : Nat) (bs : List Byte) : State :=
  let i := (a - sheetBoxBase) / 256
  let bell := leNat ((bs.drop 4).take 6)
  let s := (List.range 64).foldl (fun (s : State) j =>
    s.setReg (if bell % 2 = 0 then Reg.MC_SHEET0 i j else Reg.MC_SHEET1 i j)
      (BitVec.ofNat 64 (leNat ((bs.drop (4 * j)).take 4)))) s
  let got := if s.sheetBell = bell then i :: s.sheetGot.filter (fun j => decide (j ≠ i)) else [i]
  let s := { s with sheetBell := bell, sheetGot := got }
  if s.liveSites.all (fun j => decide (j ∈ got)) then
    s.setF Reg.MC_SHEET_BELL Fld.MC_SHEET_BELL_BELL bell else s

/-- The bytes of a write that has passed its checks reach the site's memory, but for the granules that it loses to
another write (R69, R154, R210). True: all are written. A source that loses some raises no token of the arrival
window that its MOVE ends in (R110). -/
def State.putBytes (s : State) (site : Nat) (p : Packet) (a : Nat) (mets : Meets) : State × Bool :=
  let (s, kept) := s.portWrite site a p.mask.toNat p.args mets p.payload
  let s := if kept ∨ p.last = true ∨ p.source ∈ (s.gw site).torn then s
    else s.setGw site { s.gw site with torn := (s.gw site).torn ++ [p.source] }
  (if siteKind site = .bridge ∧ a < hbmSize then s.hbmMoved site p.payload.length else s, kept)

/-- A packet of a MOVE that is dropped on its way to a site of the package: the MOVE is not whole there, and its LAST packet
raises no token (R110). -/
def State.lostPart (s : State) (p : Packet) : State :=
  let i := p.dstSite.val
  if (p.op = 0x01 ∨ p.op = 0x03) ∧ p.last = false ∧ p.dstPkg.toNat = s.pkg ∧ p.source ∉ (s.gw i).torn then
    s.setGw i { s.gw i with torn := (s.gw i).torn ++ [p.source] }
  else s

/-- The LAST packet of a MOVE lands: a MOVE that lost a granule on the way raises no token (R110). -/
def State.landMove (s : State) (site : Nat) (p : Packet) (whole : Bool) (places : List Nat) : State :=
  if p.last = false then s else
  let torn := decide (p.source ∈ (s.gw site).torn)
  let s := s.setGw site { s.gw site with torn := (s.gw site).torn.filter fun x => decide (x ≠ p.source) }
  if whole && !torn then places.foldl (fun (s : State) o => s.landed site p o p.len.toNat) s else s

/-- The fill records that wait at a core's window are taken while fewer than 256 are pending; a packet's credit goes
back and its answer goes, and a flight that waited for its record goes on (R117). -/
def State.fillDrain (s : State) (k c : Nat) : Nat → State
  | 0 => s
  | n + 1 =>
    match (s.core k c).heldFills with
    | [] => s
    | h :: rest =>
      if 256 ≤ (s.core k c).fills.length then s else
      let s := (s.setCore k c { s.core k c with heldFills := rest }).fillTake k c h.ctx h.bytes
      let s := match h.back with
        | none => s
        | some (hop, p) => ((s.freeUnits k hop p.vc.toNat p.units).accept k hop p []).1
      let s := match h.writer with
        | none => s
        | some (c, n) => (s.flightHears k c n).tryFinish k c n
      s.fillDrain k c n

/-- A write that a memory meets a parity failure on while it applies it writes nothing and fails (R213). -/
def State.writeFlawed (s : State) (site : Nat) (h : Hop) (p : Packet) : State := s.refuse site h p stParity

/-- A WRITE that has passed the ten steps is applied and answered (R210). -/
def State.writeApplied (s : State) (site : Nat) (h : Hop) (p : Packet) (mets : Meets) : State :=
  let o := p.addr.toNat
  let n := p.len.toNat
  if sheetWrite site 0x01 p.ctx.toNat o n then ((s.storeSheet o p.payload).accept site h p []).1 else
  match (if siteKind site = .stack then fillWindowOf o n else none) with
  | some c =>
    if s.fillWaits site p then s.fillWrite site c p.ctx.toNat o (s.fromMc p) p.payload (some (h, p)) none
    else ((s.fillWrite site c p.ctx.toNat o (s.fromMc p) p.payload none none).accept site h p []).1
  | none =>
    let (s, kept) := s.putBytes site p o mets
    let (s, whole) := s.acceptWrite site h p n []
    s.landMove site p (whole && kept) [o]

/-- A WRITE that a site has received: steps 6 to 10 of R212. -/
def State.writeArrived (s : State) (site : Nat) (h : Hop) (p : Packet) (mets : Meets) (bad : Bool) : State :=
  match s.placeFails site p with
  | some st => s.refuse site h p st
  | none =>
    match s.dedupeLast site p with
    | (s, false) => s
    | (s, true) => if bad then s.writeFlawed site h p else s.writeApplied site h p mets

/-- WRITE (R210): a packet arrives at a site. `mets` is what its granules meet at their memory port, `bad` a parity
failure on the way into the memory (R212 step 10, R213). -/
def execWritePacket (site : Site) (a : Arrival) (mets : Meets) (bad : Bool) (s : State) : Out :=
  match s.arrives [0x01] site a with
  | (s, none) => .next s
  | (s, some p) =>
    .next (if s.behindHeld site a.hop p then s.holdCopy site a.hop p mets bad []
      else s.writeArrived site a.hop p mets bad)

/-- WRITE_COMMIT (R176, R210): the packet is appended to the bridge's fix area, or fails with CAPACITY; `bad`: a parity
failure on the way (R213). -/
def execWriteCommit (site : Site) (a : Arrival) (bad : Bool) (s : State) : Out :=
  match s.arrives [0x02] site a with
  | (s, none) => .next s
  | (s, some p) =>
    match s.placeFails site p, s.bellNamed site p.bell.toNat with
    | some st, _ => .next (s.refuse site a.hop p st)
    | none, none => .next s
    | none, some bell =>
      match s.dedupe site p with
      | (s, false) => .next s
      | (s, true) =>
        if bad then .next (s.writeFlawed site a.hop p) else
        match s.fixAppend site bell p.addr.toNat p.payload with
        | none => .next (s.refuse site a.hop p stCapacity)
        | some s => .next (s.accept site a.hop p []).1

/-- A group's packet is written at its places of this site; a slot-fill window refuses what is no record (R162). -/
def State.mcastPut (s : State) (site : Nat) (p : Packet) (places : List Nat) (mets : Meets) : State × Bool :=
  places.foldl (fun (st : State × Bool) o =>
    match (if siteKind site = .stack then fillWindowOf o p.len.toNat else none) with
    | some c => (st.1.fillRefused site c 6, st.2)
    | none =>
      let (s, kept) := st.1.putBytes site p o mets
      (s, st.2 && kept)) (s, true)

/-- Replication records in use (GW_MCAST_REPL.RECORDS). -/
def State.syncRepl (s : State) (site : Nat) : State :=
  s.setF (Reg.GW_MCAST_REPL site) Fld.GW_MCAST_REPL_RECORDS (s.gw site).replicas.length

/-- One child of a record has answered: the first failure status stays, later ones are counted in the record (R274;
log 10). -/
def Replica.answered (r : Replica) (status : Nat) : Replica :=
  { r with
    left := r.left - 1
    status := if r.status = 0 then status else r.status
    later := if r.status ≠ 0 ∧ status ≠ 0 then r.later + 1 else r.later }

/-- A replicated packet's record is answered by one child; once all have, the engine answers upstream with the first
failure status, or an acknowledgement (R274). -/
def State.replAnswered (s : State) (site key status : Nat) : State :=
  let g := s.gw site
  match g.replicas.find? (fun r => decide (r.pkt.key = key)) with
  | none => s
  | some r =>
    let r := r.answered status
    if r.left ≠ 0 then
      s.setGw site { g with replicas := g.replicas.map fun x => if x.pkt.key = key then r else x }
    else
      let s := s.setGw site { g with replicas := g.replicas.filter fun x => decide (x.pkt.key ≠ key) }
      ((s.syncRepl site).sendHop site r.hop (s.answer site r.pkt r.status []).sealed)

/-- The copy of a replicated packet that the engine itself ends, with a status or 0: a LAST packet answers its record, with
the source's sticky status if there is one; an untagged one leaves its failure (R214, R274). -/
def State.childEnds (s : State) (site : Nat) (p : Packet) (status : Nat) : State :=
  if p.last = false then (if status = 0 then s else s.setSticky site p status) else
  match s.takeSticky site p with
  | (s, some first) => s.replAnswered site p.key first
  | (s, none) => s.replAnswered site p.key status

/-- The engine's own copy of a packet that it replicates (R202, R273). -/
def State.ownCopy (s : State) (site : Nat) (p : Packet) (mets : Meets) (bad : Bool) : State :=
  match s.mcastFit site p with
  | (_, some st) => (s.raiseStatus site st p.args).childEnds site p st
  | (places, none) =>
    if bad then (s.raiseStatus site stParity p.args).childEnds site p stParity
    else (s.mcastPut site p places mets).1.childEnds site p 0

/-- A replicating engine's copy for one site of its package (R273). -/
def State.siteCopy (s : State) (site : Nat) (p : Packet) (mets : Meets) (bad : Bool) (d : Nat) : State :=
  if d = site then s.ownCopy site p mets bad
  else if s.live d && !(s.fencedAt site d) then
    s.sendHop site (.base (siteOf d)) { p with dstSite := siteOf d }.sealed
  else (s.raiseStatus site stFenced p.args).childEnds site p stFenced

/-- The replication record of a LAST packet (R274). -/
def State.openRecord (s : State) (site : Nat) (h : Hop) (p : Packet) (kids : Nat) : State :=
  if p.last = false then s else
  (s.setGw site { s.gw site with replicas := (s.gw site).replicas ++ [⟨p, h, kids, 0, 0, s.vt⟩] }).syncRepl site

/-- The copies of a packet go to the package's sites and branches, and the package keeps its key (R273). -/
def State.spreadCopies (s : State) (site : Nat) (h : Hop) (p : Packet) (r : Rec) (mets : Meets) (bad : Bool) : State :=
  let s := s.keepKey site p
  let dests := (mcastDests r).map (·.1)
  let s := s.openRecord site h p (dests.length + (mcastBranches r).length)
  let s := dests.foldl (fun (s : State) d => s.siteCopy site p mets bad d) s
  (mcastBranches r).foldl (fun (s : State) b => s.sendBranch site b p) s

/-- A link engine replicates a group's packet that came by a link (R273), a LAST one after step 9 (R252). A packet that its
package has replicated is a loop, unless one of the two is a DUAL copy: then a LAST packet is not applied again, and any other
is (R252, R253). -/
def State.replicateNow (s : State) (site : Nat) (h : Hop) (p : Packet) (mets : Meets) (bad : Bool) : State :=
  match mcastRec s.rs (p.addr.toNat % 4096), s.replSeen p with
  | none, _ => s.refuse site h p stWindow
  | some r, none =>
    (match s.dedupeLast site p with
    | (s, false) => s
    | (s, true) => s.spreadCopies site h p r mets bad)
  | some r, some e =>
    if e.dual = false ∧ p.dual = false then s.raise site 0x0703 p.args
    else if p.last then
      (match s.dedupe site p with
      | (s, false) => s
      | (_, true) => s.bump (Reg.GW_DEDUPE_DROP site) Fld.GW_DEDUPE_DROP_COUNT 1)
    else s.spreadCopies site h p r mets bad

/-- A copy that an engine is to replicate: without a free record a LAST packet is held, its credit withheld, and so is
what comes behind it (R215, R273, R274). -/
def State.replicate (s : State) (site : Nat) (h : Hop) (p : Packet) (mets : Meets) (bad : Bool) : State :=
  if s.recordsFull site p then
    (s.holdCopy site h p mets bad []).bump (Reg.GW_MCAST_REPL site) Fld.GW_MCAST_REPL_STALLS 1
  else if s.behindHeld site h p then s.holdCopy site h p mets bad []
  else s.replicateNow site h p mets bad

/-- A group's packet that a site has received for itself: steps 6 to 10 of R212 (R202). -/
def State.mcastArrived (s : State) (site : Nat) (h : Hop) (p : Packet) (mets : Meets) (bad : Bool) : State :=
  match s.mcastFit site p with
  | (_, some st) => s.refuse site h p st
  | (places, none) =>
    match s.dedupeLast site p with
    | (s, false) => s
    | (s, true) =>
      if bad then s.writeFlawed site h p else
      let (s, kept) := s.mcastPut site p places mets
      let (s, whole) := s.accept site h p []
      s.landMove site p (whole && kept) places

/-- A READ_REQ that a site has received: LEN bytes are read and returned, unless a byte fails its check (R210, R213). -/
def State.readArrived (s : State) (site : Nat) (h : Hop) (p : Packet) (flaws : Flaws) : State :=
  match s.placeFails site p with
  | some st => s.refuse site h p st
  | none =>
    let s := if p.spec then s.bump (Reg.GW_SPEC_SERVED site) Fld.GW_SPEC_SERVED_COUNT 1 else s
    match s.readCheck site p.addr.toNat p.len.toNat flaws true p.args with
    | (s, some st) => s.reply site h p (s.answer site p st [])
    | (s, none) => (s.accept site h p (s.readMem site p.addr.toNat p.len.toNat)).1

/-- An atomic's new value from the old value and the payload (R54, R210). -/
def atomicNew (p : Packet) (old : Nat) : Nat :=
  let n := p.span
  if p.op = 0x18 then (old + p.payNum 0 n) % 2 ^ (8 * n)
  else if old = p.payNum 0 n then p.payNum n n else old

/-- An atomic of a stack of the package updates the line that the stack caches, as any write issued there does (R165). -/
def State.amoLine (s : State) (b : Nat) (p : Packet) (bs : List Byte) : State :=
  if p.srcPkg.toNat = s.pkg ∧ siteKind p.srcSite.val = .stack then
    s.cacheWrite p.srcSite.val p.ctx.toNat b p.addr.toNat 0 bs
  else s

/-- An atomic that a site has received: one access at the memory port, the old value returned (R210). One whose ADDR is not
aligned to its element is applied where it points (DESIGN CHOICE, log 43). -/
def State.atomicArrived (s : State) (site : Nat) (h : Hop) (p : Packet) (flaws : Flaws) : State :=
  match s.placeFails site p with
  | some st => s.refuse site h p st
  | none =>
    match s.dedupe site p with
    | (s, false) => s
    | (s, true) =>
      let o := p.addr.toNat
      let n := p.span
      match s.readCheck site o n flaws true p.args with
      | (s, some st) => s.reply site h p (s.answer site p st [])
      | (s, none) =>
        let old := leNat (s.readMem site o n)
        let s := s.writeMem site o (leBytes n (atomicNew p old))
        let s := if siteKind site = .bridge then (s.hbmMoved site n).amoLine site p (leBytes n (atomicNew p old)) else s
        (s.acceptWrite site h p n (leBytes 32 old)).1

/-- What a packet that a site held does once it goes on (R117, R215, R274); its age runs from its arrival (R224). -/
def State.heldRuns (s : State) (site : Nat) (w : HeldCopy) : State :=
  if s.copyIn w.hop w.pkt then s.replicateNow site w.hop w.pkt w.mets w.bad
  else if s.here site w.hop w.pkt = false then s.forward site w.hop w.pkt w.since
  else if w.pkt.op = 0x08 then s.readArrived site w.hop w.pkt w.flaws
  else if w.pkt.op = 0x03 then s.mcastArrived site w.hop w.pkt w.mets w.bad
  else if isAtomic w.pkt.op.toNat then s.atomicArrived site w.hop w.pkt w.flaws
  else s.writeArrived site w.hop w.pkt w.mets w.bad

/-- A packet that a site held goes on, its credit given back; one held for more than 10 µs is dropped (R224). -/
def State.heldGoes (s : State) (site : Nat) (w : HeldCopy) : State :=
  let s := s.freeUnits site w.hop w.pkt.vc.toNat w.pkt.units
  if w.since + 10000 < s.vt then (s.bump (Reg.GW_AGED_DROP site) Fld.GW_AGED_DROP_COUNT 1).lostPart w.pkt
  else s.heldRuns site w

/-- Must a held packet wait on: for a replication record, for a fill record of its source and VC, or behind an earlier held
packet that stays (R117, R215, R274)? -/
def State.heldWaits (s : State) (site : Nat) (stay : List HeldCopy) (w : HeldCopy) : Bool :=
  (s.copyIn w.hop w.pkt && s.recordsFull site w.pkt) || s.fillBehind site w.pkt ||
  stay.any fun v => if 32 ≤ hopNum w.hop then decide (v.hop = w.hop) else sameLine v.pkt w.pkt

/-- The packets that a site holds go on, oldest first, but for those that must wait on (R215, R274). -/
def State.replDrain (s : State) (site : Nat) : List HeldCopy → List HeldCopy → State
  | _, [] => s
  | stay, w :: ws =>
    if s.heldWaits site stay w then s.replDrain site (stay ++ [w]) ws else
    ((s.setGw site { s.gw site with replHeld := dropOne (fun x => decide (x = w)) (s.gw site).replHeld }).heldGoes site
      w).replDrain site stay ws

/-- What waits at a site goes on as far as it may (R215, R274). -/
def State.replNext (s : State) (site : Nat) : State := s.replDrain site [] (s.gw site).replHeld

/-- MCAST_WRITE (R202, R273): written at the site's base plus offset; a link engine that receives it by a
link replicates it. `mets` and `bad` are as for WRITE. -/
def execMcastWrite (site : Site) (a : Arrival) (mets : Meets) (bad : Bool) (s : State) : Out :=
  match s.arrives [0x03] site a with
  | (s, none) => .next s
  | (s, some p) =>
    .next (if 32 ≤ hopNum a.hop then s.replicate site a.hop p mets bad
      else if s.behindHeld site a.hop p then s.holdCopy site a.hop p mets bad []
      else s.mcastArrived site a.hop p mets bad)

/-- The fill records that wait at a core's window are taken as far as it goes, and what is held behind them goes on (R117,
R215). -/
def State.fillsMove (s : State) (k c : Nat) : State :=
  if (s.core k c).heldFills = [] then s else (s.fillDrain k c 256).replNext k

/-! ### READ_REQ, responses, atomics, SIGNAL -/

/-- READ_REQ (R210, R213); behind a held packet of its source it waits (R215). -/
def execReadReq (site : Site) (a : Arrival) (flaws : Flaws) (s : State) : Out :=
  match s.arrives [0x08] site a with
  | (s, none) => .next s
  | (s, some p) =>
    .next (if s.behindHeld site a.hop p then s.holdCopy site a.hop p [] false flaws else s.readArrived site a.hop p flaws)

/-- A response that fits a live tag is accepted: the tag ends, that of a multicast request once every copy has been
answered, with the first failure status (R226, R273, R274). -/
def State.answered (s : State) (site key : Nat) (e : TagEntry) (kid status : Nat) (mets : Meets) (bs : List Byte) : State :=
  if e.kids = [] then s.respTag site key status mets bs
  else if kid ∉ e.kids then s.bump (Reg.GW_LATE_RESP_DROPPED site) Fld.GW_LATE_RESP_DROPPED_COUNT 1
  else
    let kids := e.kids.erase kid
    let first := if e.first = 0 then status else e.first
    if kids = [] then s.respTag site key first mets bs
    else s.setGw site { s.gw site with tags := SMap.put key { e with kids := kids, first := first } (s.gw site).tags }

/-- A response arrives (R226, R274): to a replication record, or to a live tag with the same GEN, BELL, EPOCH
and CTX, or it is dropped. `mets` is what the data meet where they are written (R154). -/
def State.response (s : State) (op : Nat) (site : Nat) (a : Arrival) (mets : Meets) : State :=
  match s.arrives [op] site a with
  | (s, none) => s
  | (s, some p) =>
    let status := if op = 0x09 then 0 else if 1 ≤ p.status ∧ p.status ≤ 10 then p.status else stMalformed
    if s.replHolder p = some site then
      (s.replAnswered site p.askKey status).replNext site
    else
      let key := tagKey p.issuer p.tag.toNat
      let fits := fun (e : TagEntry) => decide (e.gen = p.gen.toNat) && decide (e.bell = p.bell.toNat) &&
        decide (e.epoch = p.epoch.toNat) && decide (e.ctx = p.ctx.toNat)
      match (s.gw site).tags.find? (fun kv => decide (kv.1 = key)) with
      | none => s.bump (Reg.GW_LATE_RESP_DROPPED site) Fld.GW_LATE_RESP_DROPPED_COUNT 1
      | some (_, e) =>
        if fits e then s.answered site key e (s.kidOf p.srcPkg.toNat p.srcSite.val) status mets p.payload
        else s.bump (Reg.GW_LATE_RESP_DROPPED site) Fld.GW_LATE_RESP_DROPPED_COUNT 1

/-- READ_RESP (R226). `mets` is what the data meet where they are written (R154). -/
def execReadResp (site : Site) (a : Arrival) (mets : Meets) (s : State) : Out := .next (s.response 0x09 site a mets)

/-- ERROR_RESP (R226). -/
def execErrorResp (site : Site) (a : Arrival) (s : State) : Out := .next (s.response 0x30 site a [])

/-- An atomic arrives; behind a held packet of its source it waits (R215). -/
def State.atomicArrives (s : State) (op : Nat) (site : Nat) (a : Arrival) (flaws : Flaws) : State :=
  match s.arrives [op] site a with
  | (s, none) => s
  | (s, some p) =>
    if s.behindHeld site a.hop p then s.holdCopy site a.hop p [] false flaws else s.atomicArrived site a.hop p flaws

/-- ATOMIC_ADD (R210). -/
def execAtomicAdd (site : Site) (a : Arrival) (flaws : Flaws) (s : State) : Out :=
  .next (s.atomicArrives 0x18 site a flaws)

/-- ATOMIC_CAS (R210). -/
def execAtomicCas (site : Site) (a : Arrival) (flaws : Flaws) (s : State) : Out :=
  .next (s.atomicArrives 0x19 site a flaws)

/-- SIGNAL_PACKET (R111, R210, R212): a token rises by AMOUNT unless BELL is not the executing bell's. -/
def execSignalPacket (site : Site) (a : Arrival) (s : State) : Out :=
  match s.arrives [0x20] site a with
  | (s, none) => .next s
  | (s, some p) =>
    if (p.ctx = 0 ∨ p.ctx.toNat ≠ (s.bellAt site).resident) ∧ s.fromMc p = false then .next (s.refuse site a.hop p stCtx)
    else if !(opPermitted 0x20 site 0 0) then .next (s.refuse site a.hop p stDenied)
    else match s.dedupe site p with
    | (s, false) => .next s
    | (s, true) =>
      let c := p.addr.toNat % 128
      let s := if p.bell.toNat = (s.bellAt site).bell % 256 then
          s.raiseToken site c (p.payNum 0 2) (p.payNum 4 4)
        else s.bump (Reg.CORE_STALE_INC site c) Fld.CORE_STALE_INC_COUNT 1
      .next (s.accept site a.hop p []).1

/-! ### Credits (R217, R218) -/

/-- CREDIT (R217): the units freed on each VC come back. -/
def execCredit (site : Site) (a : Arrival) (s : State) : Out :=
  match s.arrives [0x38] site a with
  | (s, none) => .next s
  | (s, some p) =>
    let g := s.gw site
    let used := (List.range 7).foldl (fun (m : SMap Nat) v =>
      let k := vcKey a.hop v
      SMap.set 0 m k (SMap.get 0 m k - p.payNum (2 * v) 2)) g.creditUsed
    .next ((s.setGw site { g with creditUsed := used }).flushHop site a.hop)

/-- CREDIT_RETURN_TIMER (R217): 200 ns after the first unreturned unit was freed on a hop. -/
def execCreditReturnTimer (site : Site) (hop : Hop) (s : State) : Out :=
  match (s.gw site).freedAt.find? (fun kv => decide (kv.1 = hopNum hop)) with
  | none => .next s
  | some (_, t) => if s.vt < t + 200 ∨ s.deaf site = true then .next s else .next (s.sendCredit site hop)

/-- Does the first packet of a VC that waits on a hop wait for credit, for more than 1 µs (R218)? -/
def State.stalled (s : State) (site : Nat) (h : Hop) (vc : Nat) : Bool :=
  (s.hopHead site h vc false).any fun w => decide (w.since + 1000 < s.vt) &&
    decide (vcCredits h vc < SMap.get 0 (s.gw site).creditUsed (vcKey h vc) + w.pkt.units)

/-- CREDIT_STALL (R218): a VC0, VC1 or VC2 packet has waited more than 1 µs for credit; reported once per
pair direction, VC and bell. The first argument is the model's number of cause CREDIT (log 8). -/
def execCreditStall (site : Site) (hop : Hop) (vc : Fin 3) (s : State) : Out :=
  let g := s.gw site
  let key := (hopNum hop, vc.val)
  if s.stalled site hop vc && decide (key ∉ g.stallSaid) then
    let s := s.setGw site { g with stallSaid := key :: g.stallSaid }
    .next ((s.bump (Reg.GW_CREDIT_STALL site) Fld.GW_CREDIT_STALL_COUNT 1).report site 0x0107 false
      [1, hopNum hop, vc])
  else .next s

/-! ### Retry of a hop (R220 to R224) -/

/-- Drop the packets that an acknowledgement covers: those whose end does not lie after the granule ACK. -/
def ackFlight (ack : Nat) : List Flown → List Flown
  | [] => []
  | f :: fs =>
    if (32 * ack + streamSpan - f.pos) % streamSpan < streamSpan / 2 then ackFlight ack fs else f :: fs

/-- An acknowledgement advances a transmit stream. -/
def State.ackStream (s : State) (site key ack : Nat) : State :=
  let st := s.stream site key
  let rest := ackFlight ack st.flight
  if rest.length = st.flight.length then s
  else
    let gone := st.flight.take (st.flight.length - rest.length)
    let recent := if 64 ≤ key then (st.recent ++ gone).filter (fun f => decide (s.vt ≤ f.sent + 1500)) else []
    s.setStream site key { st with flight := rest, advanced := s.vt, resends := 0, recent := recent }

/-- Resend one packet: its granules go on with the rotation. -/
def State.resendOne (s : State) (site : Nat) (h : Hop) (key o : Nat) (f : Flown) : State :=
  let st := s.stream site key
  let (via, st) := st.deal (s.lanes site h (decide (key % 2 = 1))) o f.pkt.bytes
  (s.setStream site key st).emit (.packet site h f.pkt via)

/-- Resend packets in order; `o` is the place of the first in its granule. -/
def State.resendAll (s : State) (site : Nat) (h : Hop) (key o : Nat) : List Flown → State
  | [] => s
  | f :: fs => State.resendAll (s.resendOne site h key o f) site h key ((o + f.pkt.bytes) % 32) fs

/-- Resend from the acknowledged position, marked with RESEND in a control codeword (R220, R221). -/
def State.resend (s : State) (site : Nat) (h : Hop) (key : Nat) : State :=
  let st := s.stream site key
  match st.flight with
  | [] => s
  | f :: _ =>
    let start := (f.pos + streamSpan - f.pkt.bytes) % streamSpan
    let lanes := s.lanes site h (decide (key % 2 = 1))
    let st := st.whole lanes
    let s := s.setStream site key { st with
      tried := s.vt, resends := st.resends + 1
      flight := st.flight.map fun g => { g with sent := s.vt } }
    let s := s.sendCode site h (lanes.getD st.turn 0) (some (start / 32))
    s.resendAll site h key (start % 32) st.flight

/-- A marked retransmission begins at a granule of the receive stream (R221). -/
def State.resumeAt (s : State) (site key pos : Nat) : State :=
  let st := s.stream site key
  let back := (st.expect + streamSpan - 32 * pos) % streamSpan
  if back < streamSpan / 2 then s.setStream site key { st with discard := false, skip := back } else s

/-- Count a retransmission of a hop: in GW_RETRY_CNT, or LNK_RETRY_CNT of a link (R221, R260). -/
def State.countRetry (s : State) (site : Nat) (h : Hop) : State :=
  match h with
  | .base _ => s.bump (Reg.GW_RETRY_CNT site) Fld.GW_RETRY_CNT_COUNT 1
  | .link l => s.bump (Reg.LNK_RETRY_CNT site l) Fld.LNK_RETRY_CNT_COUNT 1

/-- A hop resends a stream that has been resent fewer than eight times from one position, and counts it (R221, R222). -/
def State.retryHop (s : State) (site : Nat) (h : Hop) (key : Nat) : State :=
  if (s.stream site key).flight = [] ∨ 8 ≤ (s.stream site key).resends then s
  else (s.countRetry site h).resend site h key

/-- RESEND of a control codeword (R221). -/
def State.hearResend (s : State) (site key : Nat) (resend : Option Nat) : State :=
  match resend with
  | some pos => s.resumeAt site key pos
  | none => s

/-- ACK, NAK and RESEND of a control codeword act on a hop's streams (R221, R239): what the acknowledgement makes room
for goes out, a marked retransmission is taken, and a NAK is answered by a resend. -/
def State.hearCode (s : State) (site : Nat) (h : Hop) (key ack : Nat) (nak : Bool) (resend : Option Nat) : State :=
  let s := ((s.ackStream site key ack).flushHop site h).hearResend site key resend
  if nak then s.retryHop site h key else s

/-- CONTROL_CODEWORD (R219 to R221): a control codeword of a pair arrives on a carrier, P0 to P33, CA or CB; the
sender's stripe version shows in FAB_RX_PAIR, and this side answers with its own on the same carrier (log 40). -/
def execControlCodeword (site peer : Site) (lane : Fin 36) (word : BitVec 2570) (codes : List Codeword) (s : State) :
    Out :=
  if s.deaf site ∨ s.fencedAt site peer = true ∨ site = peer then .next s else
  let s := s.countCodes site (.base peer) codes
  match pairWordOf word.toNat with
  | none => .next s
  | some w =>
    let key := streamKey (.base peer) (if 34 ≤ lane.val then 5 else 0)
    let s := s.setF (Reg.FAB_RX_PAIR site peer) Fld.FAB_RX_PAIR_VERSION w.version
    .next ((s.hearCode site (.base peer) key w.ack w.nak w.resend).sendCode site (.base peer) lane none)

/-- HOP_RETRY_TIMEOUT (R221, R239): 500 ns without an advance of ACK on a stream of a hop. -/
def execHopRetryTimeout (site : Site) (hop : Hop) (ctrl : Bool) (s : State) : Out :=
  let key := streamKey hop (if ctrl then 5 else 0)
  let st := s.stream site key
  if s.vt < max st.advanced st.tried + 500 ∨ s.deaf site = true then .next s else .next (s.retryHop site hop key)

/-- A packet that a gateway discards with its stream fails its transaction at its issuer, where that is a
site of this package (R222). -/
def State.discardPacket (s : State) (p : Packet) (status : Nat) : State :=
  let fail := fun (s : State) (pkg site : Nat) =>
    if pkg = s.pkg then
      s.failTags site status fun kv => decide (kv.1 = tagKey p.issuer p.tag.toNat) &&
        decide (kv.2.gen = p.gen.toNat)
    else s
  if isResponse p.op.toNat then fail s p.dstPkg.toNat p.dstSite.val
  else if tagged p then fail s p.srcPkg.toNat p.srcSite.val
  else s

/-- Reset one stream between two sites: both ends discard what is not acknowledged and start at position
0, its tagged transactions fail with PATH_RESET (R222). The credits of what is discarded go back to the transmitter
(DESIGN CHOICE, log 48), and a MOVE that loses a packet so is not whole (R110). -/
def State.resetStream (s : State) (site peer : Nat) (ctrl : Bool) : State :=
  let v := if ctrl then 5 else 0
  let ka := streamKey (.base (siteOf peer)) v
  let kb := streamKey (.base (siteOf site)) v
  let gone := (s.stream site ka).flight.map (·.pkt)
  let out := s.stream site ka
  let s := s.setStream site ka { out with pos := 0, turn := 0, begun := none, flight := [], resends := 0, advanced := s.vt, tried := s.vt }
  let in_ := s.stream peer kb
  let s := s.setStream peer kb { in_ with expect := 0, discard := false, skip := 0 }
  let back := fun (s : State) (p : Packet) =>
    if p.op = 0x38 then s else
    let g := s.gw site
    let k := vcKey (.base (siteOf peer)) p.vc.toNat
    s.setGw site { g with creditUsed := SMap.set 0 g.creditUsed k (SMap.get 0 g.creditUsed k - p.units) }
  gone.foldl (fun (s : State) p => ((back s p).lostPart p).discardPacket p stPathReset) s

/-- PAIR_RESET (R222): after eight resends of one position the stream of a pair direction is reset. -/
def execPairReset (site peer : Site) (ctrl : Bool) (s : State) : Out :=
  let st := s.stream site (streamKey (.base peer) (if ctrl then 5 else 0))
  if st.flight = [] ∨ st.resends < 8 ∨ s.vt < max st.advanced st.tried + 500 then .next s else
  let s := s.resetStream site peer ctrl
  let v := (s.getF (Reg.FAB_TX_PAIR site peer) Fld.FAB_TX_PAIR_VERSION + 1) % 16
  let s := s.setF (Reg.FAB_TX_PAIR site peer) Fld.FAB_TX_PAIR_VERSION v
  let s := s.setF (Reg.FAB_RX_PAIR peer site) Fld.FAB_RX_PAIR_VERSION v
  let s := s.bump (Reg.GW_PAIR_RESET_CNT site) Fld.GW_PAIR_RESET_CNT_COUNT 1
  .next ((s.raise site 0x0504 [site, peer]).flushHop site (.base peer))

/-- The fill records of a hop's packets that have waited too long at the windows of a site are dropped (R117, R224). -/
def State.dropFills (s : State) (site : Nat) (hop : Hop) (old : Nat → Bool) : State × List Packet :=
  (List.range 96).foldl (fun (st : State × List Packet) c =>
    let x := st.1.core site c
    let gone := x.heldFills.filter fun h => (h.back.any fun b => decide (b.1 = hop)) && old h.since
    if gone = [] then st
    else (st.1.setCore site c { x with heldFills := x.heldFills.filter fun h => decide (h ∉ gone) },
      st.2 ++ gone.filterMap fun h => h.back.map (·.2))) (s, [])

/-- PACKET_AGED (R224): packets held for more than 10 µs, in staging or for retry, are dropped, and a MOVE that one was of
is not whole (R110); the credit of one that was held goes back (R117, R274). -/
def execPacketAged (site : Site) (hop : Hop) (s : State) : Out :=
  let g := s.gw site
  let old := fun (t : Nat) => decide (t + 10000 < s.vt)
  let waits := (g.waiting.filter fun w => decide (w.hop = hop) && old w.since).map (·.pkt)
  let keys := [2 * hopNum hop, 2 * hopNum hop + 1]
  let flown := keys.flatMap fun k =>
    ((SMap.get Stream.idle g.streams k).flight.filter fun f => old f.since).map (·.pkt)
  let streams := keys.foldl (fun (m : SMap Stream) k =>
    let st := SMap.get Stream.idle m k
    SMap.set Stream.idle m k { st with flight := st.flight.filter fun f => !(old f.since) }) g.streams
  let late := (g.replHeld.filter fun w => decide (w.hop = hop) && old w.since).map (·.pkt)
  let (s, fills) := (s.setGw site { g with
    waiting := g.waiting.filter fun w => !(decide (w.hop = hop) && old w.since)
    streams := streams
    replHeld := g.replHeld.filter fun w => !(decide (w.hop = hop) && old w.since) }).dropFills site hop old
  let held := late ++ fills
  let gone := waits ++ flown ++ held
  let s := gone.foldl (fun (s : State) p => s.lostPart p) (s.bump (Reg.GW_AGED_DROP site) Fld.GW_AGED_DROP_COUNT gone.length)
  .next (((held.foldl (fun (s : State) p => s.freeUnits site hop p.vc.toNat p.units) s).replNext site).flushHop site hop)

/-! ### Records that end (R252, R274) -/

/-- DEDUPE_EXPIRY (R252): entries and the overflow flag end after 4 µs. -/
def execDedupeExpiry (site : Site) (s : State) : Out :=
  let g := s.gw site
  .next (s.setGw site { g with
    dedupe := g.dedupe.filter fun e => decide (s.vt < e.time + 4000)
    ovfUntil := g.ovfUntil.filter fun t => decide (s.vt < t) })

/-- REPLICATION_TIMEOUT (R274): the oldest record that is 2 × period old ends with TIMEOUT at the engine. -/
def execReplicationTimeout (site : Site) (s : State) : Out :=
  let g := s.gw site
  match g.replicas.find? (fun r => decide (r.since + 2 * periodNs s.rs ≤ s.vt)) with
  | none => .next s
  | some r =>
    let s := (s.setGw site { g with replicas := dropOne (fun x => decide (x = r)) g.replicas }).syncRepl site
    .next ((s.raiseStatus site stTimeout r.pkt.args).replNext site)

end Sys2Proof.Machine
end

