-- ==== Sys2Proof/Machine/Fence.lean ====
section
/-!
DEFINITION. Fencing (R335 to R340): a gateway fences a peer or itself, the MC orders a fence everywhere, a
compute die's stops lose their gateway; and what a lost bridge takes with it (R307).
-/

namespace Sys2Proof.Machine

open Sys2Proof

/-! ### Image-store slots lost in service (R307) -/

/-- The bit of CFG_STORE_MAP.LOST of a slot. -/
def slotBit (part : Bool) (slot : Nat) : Nat := if part then 2 + slot / 32 else slot

/-- Is a slot lost? -/
def State.slotLost (s : State) (part : Bool) (slot : Nat) : Bool :=
  decide (s.getF Reg.CFG_STORE_MAP Fld.CFG_STORE_MAP_LOST / 2 ^ slotBit part slot % 2 = 1)

/-- CFG_STATUS takes a state, with no reason and no fault (R328); KIND and SLOT stay those of the image last checked. -/
def State.setCfgState (s : State) (state : Nat) : State :=
  let a := Reg.CFG_STATUS
  let s := (s.setF a Fld.CFG_STATUS_STATE state).setF a Fld.CFG_STATUS_REASON 0
  let s := (s.setF a Fld.CFG_STATUS_SEGMENT 0).setF a Fld.CFG_STATUS_VARIANT 0
  s.setF a Fld.CFG_STATUS_OFFSET 0

/-- Put CFG_PARTIAL of a context from the store's state (R328). -/
def State.syncPartial (s : State) (ctx : Nat) : State :=
  let act := s.cfg.partials.find? fun i => decide (i.ctx = ctx)
  let pend := s.cfg.pendPart.find? fun i => decide (i.ctx = ctx)
  let a := Reg.CFG_PARTIAL ctx
  let st := (if pend.isSome then 1 else 0) + (if act.isSome then 2 else 0)
  let s := s.setF a Fld.CFG_PARTIAL_STATE st
  let s := s.setF a Fld.CFG_PARTIAL_PENDING_SLOT ((pend.map (·.slot)).getD 0)
  s.setF a Fld.CFG_PARTIAL_ACTIVE_SLOT ((act.map (·.slot)).getD 0)

/-- Withdraw a pending partial image: its slot unlocks (R322). -/
def State.withdrawPart (s : State) (i : Image) : State :=
  ({ s with cfg := { s.cfg with pendPart := s.cfg.pendPart.filter fun j => decide (j.ctx ≠ i.ctx) } }).syncPartial
    i.ctx

/-- Withdraw what is pending or under check in lost slots; CFG_STATUS.STATE reads 6 (R307). -/
def State.withdrawLost (s : State) : State :=
  let s := match s.cfg.check with
    | some (part, slot) =>
      if s.slotLost part slot then
        { s with cfg := { s.cfg with check := none } }.setCfgState 6
      else s
    | none => s
  let s := match s.cfg.pendFull with
    | some i =>
      if s.slotLost false i.slot then
        { s with cfg := { s.cfg with pendFull := none } }.setCfgState 6
      else s
    | none => s
  s.cfg.pendPart.foldl (fun (s : State) i =>
    if s.slotLost true i.slot then (s.withdrawPart i).setCfgState 6 else s) s

/-- A bridge is fenced or retired: the slots and the ledger area it held are lost until the next cold
start (R307). -/
def State.storeLost (s : State) (b : Nat) : State :=
  let a := Reg.CFG_STORE_MAP
  let hit := fun (valid site : Fld) (bits : List Nat) (m : Nat) =>
    if s.getF a valid = 1 ∧ s.getF a site = b then bits.foldl (fun m i => setBit m i true) m else m
  let m := s.getF a Fld.CFG_STORE_MAP_LOST
  let m := hit Fld.CFG_STORE_MAP_FULL0_VALID Fld.CFG_STORE_MAP_FULL0 [0, 4] m
  let m := hit Fld.CFG_STORE_MAP_FULL1_VALID Fld.CFG_STORE_MAP_FULL1 [1] m
  let m := hit Fld.CFG_STORE_MAP_PART0_VALID Fld.CFG_STORE_MAP_PART0 [2] m
  let m := hit Fld.CFG_STORE_MAP_PART1_VALID Fld.CFG_STORE_MAP_PART1 [3] m
  (s.setF a Fld.CFG_STORE_MAP_LOST m).withdrawLost

/-! ### Fencing -/

/-- A gateway fences a peer (R336): live transactions to it fail, its packets are dropped from now on,
GW_FENCE shows it, SITE_FENCED is reported and the site votes LOST; STATE of the peer reads 6 until a reset
begins (R339). -/
def State.fencePeer (s : State) (i j : Nat) : State :=
  if i = j ∨ s.fencedAt i j = true then s else
  let a := Reg.GW_FENCE i
  let s := s.setF a Fld.GW_FENCE_PEERS (setBit (s.getF a Fld.GW_FENCE_PEERS) j true)
  let s := s.bump (Reg.GW_FENCE_CNT i) Fld.GW_FENCE_CNT_COUNT 1
  let st := s.getF (Reg.GW_RESET j) Fld.GW_RESET_STATE
  let s := if st = 0 ∨ st = 4 then s.setF (Reg.GW_RESET j) Fld.GW_RESET_STATE 6 else s
  let b := s.bellAt i
  let s := s.raiseStatus i stFenced [j]
  let s := if b.life.abandons ∨ b.life = .notStarted then s
    else s.setBell i { s.bellAt i with lost := true }
  let s := s.failTags i stFenced fun kv =>
    if kv.2.kids = [] then decide (kv.2.dstPkg = s.pkg) && decide (kv.2.dstSite = j) else decide (j ∈ kv.2.kids)
  let g := s.gw i
  let s := s.setGw i { g with waiting := g.waiting.filter fun w => decide (w.hop ≠ .base (siteOf j)) }
  if siteKind j = .bridge then s.storeLost j else s

/-- Does a site take part in heartbeats and fences: it is live, or re-admitted and awaiting its admission (R335, R343)? -/
def State.working (s : State) (i : Nat) : Bool :=
  s.live i || decide (s.getF (Reg.GW_RESET i) Fld.GW_RESET_STATE = 4)

/-- Every working gateway and link engine of the package fences a site (R336). -/
def State.fenceAll (s : State) (j : Nat) : State :=
  ((List.range 32).filter fun i => s.working i && decide (i ≠ j) && !(s.deaf i)).foldl (fun (s : State) i => s.fencePeer i j) s

/-- The MC retires a site (R429): recorded, fenced everywhere, LIVE clears at the boundary. -/
def State.retireSite (s : State) (i : Nat) : State :=
  if s.siteRetired i then s
  else ((s.grnPut 3 i 0 1).raise mcSite 0x0906 [i]).fenceAll i

/-- HEARTBEAT_LOSS (R335, R336): a gateway has had no heartbeat from a working peer for 1 µs. -/
def execHeartbeatLoss (site peer : Site) (s : State) : Out :=
  if s.working site && s.working peer && !(s.deaf site) then .next (s.fencePeer site peer) else .next s

/-- MC_FENCE_ORDER (R336): the MC orders the fence of a site, reported by one gateway, at every other. -/
def execMcFenceOrder (peer : Site) (s : State) : Out :=
  if s.fencedAny peer then .next (s.fenceAll peer) else .next s

/-- The site's epoch rises, once per fence (R344). -/
def State.nextEpoch (s : State) (i : Nat) : State :=
  let a := Reg.GW_EPOCH i
  s.setF a Fld.GW_EPOCH_EPOCH ((s.getF a Fld.GW_EPOCH_EPOCH + 1) % 16)

/-- A gateway goes silent: it issues and answers nothing. -/
def State.silence (s : State) (i : Nat) : State :=
  s.setGw i { s.gw i with silent := true, issueStop := true, waiting := [] }

/-- A gateway fences itself (R337): its live transactions fail, it issues nothing, STATE reads 6. -/
def State.selfFence (s : State) (i : Nat) : State :=
  if (s.gw i).silent then s else
  let s := s.silence i
  let s := s.failTags i stFenced fun _ => true
  (s.nextEpoch i).setF (Reg.GW_RESET i) Fld.GW_RESET_STATE 6

/-- GATEWAY_SELF_FENCE (R337): a gateway has lost every live peer within 1 µs, or its home field is in
reset. -/
def execGatewaySelfFence (site : Site) (s : State) : Out :=
  if s.working site then .next (s.selfFence site) else .next s

/-- COMPUTE_CLOCK_LOSS (R339): no compute clock edge has crossed the bond for 1 µs: the gateway goes silent
and STATE reads 5. -/
def execComputeClockLoss (k : Stack) (s : State) : Out :=
  if (s.gw k).silent then .next s
  else .next ((s.silence k).setF (Reg.GW_RESET k) Fld.GW_RESET_STATE 5)

/-- STOP_CHANNEL_TIMEOUT (R340): a stop has had neither credit nor heartbeat on its gateway channel for 1 µs:
its transactions, its waiting packets and every new issue fail with PATH_RESET until the gateway is re-admitted. -/
def execStopChannelTimeout (k : Stack) (stop : Fin 16) (s : State) : Out :=
  let g := s.gw k
  if stop.val ∈ g.stops then .next s else
  let s := s.setGw k { g with stops := g.stops ++ [stop.val] }
  let s := s.failTags k stPathReset fun kv => decide (stopOf (kv.1 / 4096) = some stop.val)
  .next (s.failWaiting k stPathReset fun n => decide (stopOf n = some stop.val))

end Sys2Proof.Machine
end

