-- ==== Sys2Proof/Machine/Fabric.lean ====
section
/-!
DEFINITION. The base fabric (07): carriers and stripes of a pair direction (R186 to R193), lane steering
(R185), control failover (R196, R428), combs (R194, R195) and sync frames received (R199), with the rows
CARRIER_LOSS, CARRIER_RETURN, CARRIER_FAILED, STRIPE_MARKER and COMB_FAILURE.
-/

namespace Sys2Proof.Machine

open Sys2Proof

/-! ### Carriers of a pair direction -/

/-- Key of a ring. -/
def ringKey (i n : Nat) : Nat := 4096 * i + n
def State.ringCal (s : State) (i n : Nat) : RingCal := SMap.get RingCal.idle s.rcal (ringKey i n)
def State.setRingCal (s : State) (i n : Nat) (x : RingCal) : State :=
  { s with rcal := SMap.set RingCal.idle s.rcal (ringKey i n) x }

/-- Has a ring's acquisition begun, and not been verified (R380)? -/
def RingCal.late (x : RingCal) : Bool := decide (x.st = some 1) || decide (x.st = some 2)

/-- Carriers of a pair direction with a ring that has not locked again (R342, R380, R409). -/
def State.lateCarriers (s : State) (i j : Nat) : List Nat :=
  let w := (j + 32 - i) % 32
  (List.range 36).filter fun q => (s.ringCal i (64 * q + w)).late || (s.ringCal j (64 * q + 32 + w)).late

/-- The home field of a site (R15). -/
def homeField (i : Nat) : Nat :=
  [0, 1, 2, 3, 8, 9, 10, 11, 0, 1, 2, 3, 5, 5, 6, 6, 8, 9, 10, 11, 0, 3, 4, 4, 7, 7, 8, 11, 1, 2, 9, 10].getD i 0

/-- Is a plane retired (R192)? -/
def State.planeRetired (s : State) (q : Nat) : Bool := s.grnHas 6 0xFFFF q
/-- The bracket of a pair direction, if one runs. -/
def State.pairBracket (s : State) (i j : Nat) : Option Bracket :=
  s.brackets.find? fun b => !b.wave && decide (b.tx = i) && decide (b.rx = j)

/-- Carriers of a pair direction declared failed (FAB_TX_PAIR.FAILED). -/
def State.failedCount (s : State) (i j : Nat) : Nat :=
  ((List.range 34).filter fun q => s.carrierFailed i j q).length

/-- The granary carriers that are drawn for failures (R191, R192). -/
def State.drawn (s : State) (i j : Nat) : List Nat := SMap.get [] s.draws (pairKey i j)
/-- Put the granary carriers that are drawn. -/
def State.setDrawn (s : State) (i j : Nat) (qs : List Nat) : State :=
  { s with draws := SMap.set [] s.draws (pairKey i j) qs }
/-- Base carriers of a pair direction declared failed: each asks for a granary carrier (R192). -/
def State.drawsAsked (s : State) (i j : Nat) : Nat := ((List.range 32).filter fun q => s.carrierFailed i j q).length

/-- The first granary carrier of a pair direction that serves nothing (R193). -/
def State.freeGranary (s : State) (i j : Nat) : Option Nat :=
  [32, 33].find? fun q => !(s.carrierFailed i j q) && !(s.isOut i j q) && decide (q ∉ s.drawn i j) &&
    !((s.pairBracket i j).any fun b => decide (b.stand = q))

/-- The planes that the stripe of a pair direction holds once settled (R186, R190 to R193). -/
def State.planesOf (s : State) (i j : Nat) : List Nat :=
  let b := s.pairBracket i j
  (List.range 34).filter fun q =>
    (decide (q < 32) || decide (q ∈ s.drawn i j) || b.any fun b => decide (b.stand = q)) &&
    !(s.carrierFailed i j q) && !(s.isOut i j q) && !(b.any fun b => decide (b.ch = q))

/-- Show a pair direction's state at both ends (R203). OUT is 1 while any carrier of the direction awaits relock, a control
carrier or a granary carrier that is not drawn too (DESIGN CHOICE, log 48). -/
def State.syncPair (s : State) (i j : Nat) : State :=
  let alone := s.carrierFailed i j 34 || s.carrierFailed i j 35
  let put := fun (s : State) (a : Nat) (spared brk out al failed : Fld) =>
    let s := s.setF a spared (s.drawn i j).length
    let s := s.setF a brk (bit ((s.pairBracket i j).any fun b => decide (b.stand = 32) || decide (b.stand = 33)))
    let s := s.setF a out (bit (decide (s.outOf i j ≠ [])))
    (s.setF a al (bit alone)).setF a failed (s.failedCount i j)
  let s := put s (Reg.FAB_TX_PAIR i j) Fld.FAB_TX_PAIR_SPARED Fld.FAB_TX_PAIR_BRACKET Fld.FAB_TX_PAIR_OUT
    Fld.FAB_TX_PAIR_CTRL_ALONE Fld.FAB_TX_PAIR_FAILED
  put s (Reg.FAB_RX_PAIR j i) Fld.FAB_RX_PAIR_SPARED Fld.FAB_RX_PAIR_BRACKET Fld.FAB_RX_PAIR_OUT
    Fld.FAB_RX_PAIR_CTRL_ALONE Fld.FAB_RX_PAIR_FAILED

/-- The planes of a stripe as FAB_TX_STRIPE holds them. -/
def planeBits (ps : List Nat) : Nat := (ps.map fun q => 2 ^ q).sum

/-- Bring the transmitter to the stripe that its carriers allow (R188): the marker goes out under the next
version; an empty stripe fences the peer (R428). -/
def State.restripe (s : State) (i j : Nat) : State :=
  let s := s.syncPair i j
  let ps := s.planesOf i j
  let now := (s.reg (Reg.FAB_TX_STRIPE i j)).toNat
  if now = planeBits ps then s else
  let a := Reg.FAB_TX_PAIR i j
  let v := (s.getF a Fld.FAB_TX_PAIR_VERSION + 1) % 16
  let s := s.setReg (Reg.FAB_TX_STRIPE i j) (BitVec.ofNat 64 (planeBits ps))
  let s := (s.setF a Fld.FAB_TX_PAIR_VERSION v).setF a Fld.FAB_TX_PAIR_CARRIERS ps.length
  let s := s.bump (Reg.FAB_RESTRIPE_CNT i) Fld.FAB_RESTRIPE_CNT_COUNT 1
  if ps = [] then s.fencePeer i j else
  let key := streamKey (.base (siteOf j)) 0
  let s := s.setStream i key ((s.stream i key).restart (onesBelow 34 now))
  let due := SMap.get [] s.markers (pairKey i j) ++ [(v, BitVec.ofNat 64 (planeBits ps))]
  { s with markers := SMap.set [] s.markers (pairKey i j) due }.emit (.marker i (.base (siteOf j)) v)

/-- The stripe whose marker of version `v` a receiver sees, with the changes that this marker ends: those agreed before
it too. -/
def seenMarker (v : Nat) : List (Nat × BitVec 64) → Nat → Option (BitVec 64 × Nat × List (Nat × BitVec 64))
  | [], _ => none
  | e :: es, n => if e.1 = v then some (e.2, n + 1, es) else seenMarker v es (n + 1)

/-- A receiver has seen the marker of a pair's new stripe on every carrier of it (R188). -/
def State.markerSeen (s : State) (site peer v : Nat) : State :=
  match seenMarker v (SMap.get [] s.markers (pairKey peer site)) 0 with
  | none => s
  | some (ps, n, rest) =>
    let a := Reg.FAB_RX_PAIR site peer
    let s := { s with markers := SMap.set [] s.markers (pairKey peer site) rest }
    let s := s.setReg (Reg.FAB_RX_STRIPE site peer) ps
    let s := (s.setF a Fld.FAB_RX_PAIR_VERSION v).setF a Fld.FAB_RX_PAIR_CARRIERS (onesBelow 34 ps.toNat).length
    s.bump (Reg.FAB_RESTRIPE_CNT site) Fld.FAB_RESTRIPE_CNT_COUNT n

/-! ### Control carriers (R196, R428) -/

/-- Control traffic that is not acknowledged goes in band with the pair's VC5 (R428). -/
def State.goInBand (s : State) (i j : Nat) : State :=
  let h : Hop := .base (siteOf j)
  let st := s.stream i (streamKey h 5)
  st.flight.foldl (fun (s : State) f => s.putOnHop i h f.pkt f.since)
    (s.setStream i (streamKey h 5) { st with flight := [], resends := 0 })

/-- Move the control traffic of a pair direction to the standby where the active carrier has left service;
with both out, VC5 goes in band (R196, R428). -/
def State.controlFailover (s : State) (i j : Nat) : State :=
  let a := Reg.FAB_TX_PAIR i j
  let cur := s.getF a Fld.FAB_TX_PAIR_CTRL
  if s.ctrlUp i j (34 + cur) then s.syncPair i j
  else if s.ctrlUp i j (35 - cur) then
    let s := s.setF a Fld.FAB_TX_PAIR_CTRL (1 - cur)
    (s.setF (Reg.FAB_RX_PAIR j i) Fld.FAB_RX_PAIR_CTRL (1 - cur)).syncPair i j
  else ((s.raise i 0x0505 [i, j]).goInBand i j).syncPair i j

/-! ### Leaving and returning (R190) -/

/-- Put the carriers out of service of a pair direction. -/
def State.setOut (s : State) (i j : Nat) (es : List (Nat × Nat)) : State :=
  { s with outs := SMap.set [] s.outs (pairKey i j) es }

/-- The stripe or the control carriers of a pair direction follow a change of carrier `q`. -/
def State.follow (s : State) (i j q : Nat) : State :=
  if q < 34 then s.restripe i j else s.controlFailover i j

/-- A carrier leaves service, not yet failed. -/
def State.carrierOut (s : State) (i j q : Nat) : State :=
  if s.carrierFailed i j q || s.isOut i j q then s
  else (s.setOut i j (s.outOf i j ++ [(q, s.vt)])).follow i j q

/-- CARRIER_LOSS (R190, R196): a receiver loses lock or frame on a carrier of plane P0 to P33, CA or CB. -/
def execCarrierLoss (tx rx : Site) (plane : Fin 36) (s : State) : Out :=
  if tx = rx ∨ !(s.live tx && s.live rx) then .next s else .next (s.carrierOut tx rx plane)

/-! ### Lanes (R184, R185) -/

/-- The four spare fields of FAB_STEER: direction 0 transmit, 1 receive; SA, SB. -/
def spareFld (dir : Nat) (sb : Bool) : Fld :=
  if dir = 0 then (if sb then Fld.FAB_STEER_TX_SB else Fld.FAB_STEER_TX_SA)
  else (if sb then Fld.FAB_STEER_RX_SB else Fld.FAB_STEER_RX_SA)

/-- Default assignment of SA (R184). -/
def saDefault (site q dir : Nat) : Nat := if q < 36 then 0 else if dir = 0 then 63 else site

/-- Steer a spare lane to a slot code, in the register and the granary map. -/
def State.setSpare (s : State) (site q dir : Nat) (sb : Bool) (code : Nat) : State :=
  (s.setF (Reg.FAB_STEER site q) (spareFld dir sb) code).grnPut 4 site ((2 * q + dir) * 2 + bit sb) code

/-- The spare that a failed lane takes: SB if it is parked, else SA if it serves no other slot (R185). -/
def State.freeSpare (s : State) (site q dir : Nat) : Option Bool :=
  if s.getF (Reg.FAB_STEER site q) (spareFld dir true) = 63 then some true
  else if s.getF (Reg.FAB_STEER site q) (spareFld dir false) = saDefault site q dir then some false
  else none

/-- The number of the working lane of a slot (R184): in the order of the slots, without the loopback's on the bulk and
control planes and the site's own on sync receive; sync transmit has one lane (DESIGN CHOICE, log 41). -/
def workingLane (site q dir slot : Nat) : Nat :=
  if q < 36 then slot - 1 else if dir = 0 then 0 else if slot < site then slot else slot - 1

/-- The lane that drives a slot: 0-30 working, 31 SA, 32 SB (R426). -/
def State.laneOf (s : State) (site q dir slot : Nat) : Nat :=
  if s.getF (Reg.FAB_STEER site q) (spareFld dir true) = slot then 32
  else if s.getF (Reg.FAB_STEER site q) (spareFld dir false) = slot then 31
  else workingLane site q dir slot

/-- A spare lane takes over a slot; once the last is taken, GRANARY_EMPTY (R185). -/
def State.takeSpare (s : State) (site q dir : Nat) (sb : Bool) (slot : Nat) : State :=
  let s := s.setSpare site q dir sb slot
  if (s.freeSpare site q dir).isNone then s.granaryEmpty site 6 site (2 * q + dir) else s

/-- Count a failing lane and steer a spare to its slot; the first `bad` spares fail training themselves.
True: the slot is served again (R185, R191). -/
def State.steer (s : State) (site q dir slot bad : Nat) : State × Bool :=
  let lane := s.laneOf site q dir slot
  let s := s.wearUp 1 ((38 * site + q) * 66 + 33 * dir + lane)
  let s := if lane = 32 then s.setSpare site q dir true 62
    else if lane = 31 then s.setSpare site q dir false 62 else s
  match s.freeSpare site q dir with
  | none => (s, false)
  | some sb =>
    if bad = 0 then ((s.takeSpare site q dir sb slot).raise site 0x0501 [site, q, dir, slot], true) else
    let s := s.setSpare site q dir sb 62
    match s.freeSpare site q dir with
    | none => (s, false)
    | some sb2 =>
      if bad = 1 then ((s.takeSpare site q dir sb2 slot).raise site 0x0501 [site, q, dir, slot], true)
      else (s.setSpare site q dir sb2 62, false)

/-! ### Failed carriers (R191, R192) -/

/-- A pair direction's bracket ends. -/
def State.cutBracket (s : State) (i j : Nat) : State :=
  { s with brackets := s.brackets.filter fun b => b.wave || decide (b.tx ≠ i) || decide (b.rx ≠ j) }

/-- Abandon a pair direction's bracket (R193): the carrier returns to the stripe with its previous coefficients. -/
def State.dropBracket (s : State) (i j : Nat) : State :=
  if (s.pairBracket i j).isNone then s else (s.cutBracket i j).restripe i j

/-- A failed base carrier, or a drawn granary carrier that failed, asks for the pair's first free granary carrier: with
none, the stripe stays one carrier short (R191 steps 3b and 3c, R192). -/
def State.drawGranary (s : State) (i j q : Nat) : State :=
  match s.freeGranary i j with
  | some r =>
    let s := ((s.setDrawn i j (s.drawn i j ++ [r])).restripe i j).raise i 0x0502 [i, j, q, r]
    if (s.freeGranary i j).isNone then s.granaryEmpty i 3 i j else s
  | none => s.raise i 0x0C01 [i, j, (s.planesOf i j).length]

/-- Record a carrier as failed (R191): the stripe goes without it, a bracket of the pair ends (R193), and a granary
carrier, the standby or nothing serves for it (R192, R196). -/
def State.carrierDown (s : State) (i j q : Nat) : State :=
  if s.carrierFailed i j q then s else
  let s := (s.dropBracket i j).carrierOut i j q
  let was := decide (q < 32) || decide (q ∈ s.drawn i j)
  let s := s.setOut i j ((s.outOf i j).filter fun e => decide (e.1 ≠ q))
  let s := s.grnPut 5 i (64 * j + q) 0
  if 34 ≤ q then
    let s := s.controlFailover i j
    if s.carrierFailed i j (69 - q) then s else s.granaryEmpty i 4 i j
  else
    let s := (s.setDrawn i j ((s.drawn i j).filter fun r => decide (r ≠ q))).syncPair i j
    if was then s.drawGranary i j q else s

/-- The planes that a comb feeds (R194). -/
def combPlanes (c : Nat) : List Nat :=
  if c = 0 then (List.range 9) ++ [34]
  else if c = 1 then ((List.range 9).map (· + 9)) ++ [36]
  else if c = 2 then ((List.range 8).map (· + 18)) ++ [35, 37]
  else if c = 3 then (List.range 8).map (· + 26)
  else []

/-- The field of a comb in FAB_COMB. -/
def combFld (c : Nat) : Fld :=
  if c = 0 then Fld.FAB_COMB_C0 else if c = 1 then Fld.FAB_COMB_C1 else if c = 2 then Fld.FAB_COMB_C2
  else if c = 3 then Fld.FAB_COMB_C3 else Fld.FAB_COMB_C4

/-- Has a site lost the comb of a plane with no comb in its place (R195)? -/
def State.combLost (s : State) (i q : Nat) : Bool :=
  (List.range 4).any fun c => decide (q ∈ combPlanes c) &&
    decide (s.getF (Reg.FAB_COMB i) (combFld c) = 3) &&
    !(decide (s.getF (Reg.FAB_COMB i) Fld.FAB_COMB_C4 = 0) &&
      decide (s.getF (Reg.FAB_COMB i) Fld.FAB_COMB_SPARE_FOR = c))

/-- Pair directions whose carrier on a plane is failed. A lost comb takes its site's transmit direction alone out, and
counts against no plane (R195; DEDUCED, log 41). -/
def State.planeFailures (s : State) (q : Nat) : Nat :=
  (s.grn.filter fun kv => decide (kv.1 / 2 ^ 48 = 5) && decide (kv.1 % 64 = q) &&
    decide (kv.1 % 2 ^ 32 < 2048) && !(s.combLost (kv.1 / 2 ^ 32 % 2 ^ 16) q)).length

/-- Retire a bulk plane at PLANE_LIMIT (R192): its carriers fail on every pair. -/
def State.planeLimit (s : State) (q : Nat) : State :=
  if 34 ≤ q ∨ s.planeRetired q = true ∨ s.planeFailures q < s.policy (·.u8 9) 8 then s else
  let s := (s.grnPut 6 0xFFFF q 0).raise mcSite 0x0503 [q]
  s.liveSites.foldl (fun (s : State) i => (s.liveSites.filter fun j => decide (j ≠ i)).foldl
    (fun (s : State) j => s.carrierDown i j q) s) s

/-- A site's own transmit on a sync plane fails: SYNC_SINGLE, or the site is retired (R427). -/
def State.syncDown (s : State) (i q : Nat) : State :=
  if s.grnHas 5 i (2048 + q) then s else
  let s := s.grnPut 5 i (2048 + q) 0
  if s.grnHas 5 i (2048 + (73 - q)) then s.retireSite i else s.raise i 0x0506 [i, q]

/-- A carrier is declared failed, with no lane to mend it. -/
def State.failCarrier (s : State) (i j q : Nat) : State :=
  if 36 ≤ q then s.syncDown i q else (s.carrierDown i j q).planeLimit q

/-- The stripe goes without a carrier that is declared failed, and a bracket of its pair ends (R191 step 1, R193). -/
def State.failStepOne (s : State) (tx rx q : Nat) : State :=
  if q < 36 then (s.dropBracket tx rx).carrierOut tx rx q else s

/-- The loopback has found a lane at fault: a spare lane takes its slot and the carrier returns to the stripe, or the
carrier fails (R191 steps 3a to 3c). -/
def State.laneFault (s : State) (tx rx q : Nat) (atRx : Bool) (bad : Nat) : State :=
  let slot := if q < 36 then (rx + 32 - tx) % 32 else tx
  match s.steer (if atRx then rx else tx) q (bit atRx) slot bad with
  | (s, false) => s.failCarrier tx rx q
  | (s, true) =>
    if 36 ≤ q then s else (s.setOut tx rx ((s.outOf tx rx).filter fun e => decide (e.1 ≠ q))).follow tx rx q

/-- CARRIER_FAILED (R191): a carrier is declared failed, because it has been out for 200 µs (`late`) or for
another cause of R191; the stripe goes without it first. The electrical loopback finds the transmit lane
(`some false`) or the receive lane (`some true`) at fault, or neither; `bad` spare lanes fail training before one
serves. A sync receive lane that no spare mends costs the sender its sync transmit on the plane (DESIGN CHOICE,
log 41). -/
def execCarrierFailed (tx rx : Site) (plane : Fin 38) (late : Bool) (lane : Option Bool) (bad : Fin 3)
    (s : State) : Out :=
  let q := plane.val
  let gone := late && !((s.outOf tx rx).any fun e => decide (e.1 = q) && decide (e.2 + 200000 ≤ s.vt))
  if (tx = rx ∧ q < 36) ∨ !(s.live tx) ∨ (q < 36 ∧ !(s.live rx)) ∨ gone = true ∨ s.carrierFailed tx rx q = true then .next s else
  match lane with
  | none => .next (s.failCarrier tx rx q)
  | some atRx => .next ((s.failStepOne tx rx q).laneFault tx rx q atRx bad)

/-! ### Combs (R194, R195) -/

/-- Set a comb's state, in FAB_COMB and the granary map (R483 TYPE 7). -/
def State.setComb (s : State) (i c code : Nat) : State :=
  let s := s.setF (Reg.FAB_COMB i) (combFld c) code
  let standsFor := if c = 4 then s.getF (Reg.FAB_COMB i) Fld.FAB_COMB_SPARE_FOR else 7
  if code = (if c = 4 then 1 else 0) then s.grnDel 7 i c else s.grnPut 7 i c (code + 256 * standsFor)

/-- A ring acquires again from its code (R374). -/
def RingCal.again (x : RingCal) : RingCal := { x with st := some 1, held := none, bad := 0, relocked := false, said := none }

/-- A ring whose loop has stopped. -/
def RingCal.stopped (x : RingCal) : RingCal :=
  { x with st := none, held := none, bad := 0, relocked := false, said := none }

/-- C4 stands in for a comb (R195). -/
def State.combSwap (s : State) (i c : Nat) : State :=
  let s := s.setF (Reg.FAB_COMB i) Fld.FAB_COMB_SPARE_FOR c
  let s := (s.setComb i c 3).setComb i 4 0
  (s.raise i 0x0507 [i, c]).granaryEmpty i 5 i 0

/-- A carrier whose comb is switched leaves its stripe, and its transmit ring locks again on the new light (R195). -/
def State.combCarrierOut (s : State) (i j q : Nat) : State :=
  let n := 64 * q + (j + 32 - i) % 32
  (s.setRingCal i n (s.ringCal i n).again).carrierOut i j q

/-- C4 takes a comb's planes in service: their carriers leave every stripe and return as they relock (R195). -/
def State.switchComb (s : State) (i c : Nat) : State :=
  let s := s.combSwap i c
  (s.liveSites.filter fun j => decide (j ≠ i)).foldl (fun (s : State) j =>
    ((combPlanes c).filter fun q => decide (q < 36)).foldl (fun (s : State) q => s.combCarrierOut i j q) s) s

/-- The planes of a comb with no spare leave the site's transmit direction (R195). -/
def State.combPlanesDown (s : State) (i c : Nat) : State :=
  (combPlanes c).foldl (fun (s : State) q =>
    if 36 ≤ q then s.syncDown i q
    else (s.liveSites.filter fun j => decide (j ≠ i)).foldl (fun (s : State) j => s.carrierDown i j q) s) s

/-- A base comb fails outright (R195). -/
def State.combFails (s : State) (i c : Nat) : State :=
  let st := s.getF (Reg.FAB_COMB i) (combFld c)
  let idle := decide (s.getF (Reg.FAB_COMB i) Fld.FAB_COMB_C4 = 1)
  if c < 4 then
    if st ≠ 0 ∧ st ≠ 2 then s
    else if idle then s.switchComb i c
    else (s.setComb i c 3).combPlanesDown i c
  else if st = 1 then s.setComb i 4 3
  else if st = 0 then (s.setComb i 4 3).combPlanesDown i (s.getF (Reg.FAB_COMB i) Fld.FAB_COMB_SPARE_FOR)
  else s

/-- Does a comb wait for its replacement, which C4 can give (R195)? -/
def State.combDue (s : State) (i c : Nat) : Bool :=
  decide (s.getF (Reg.FAB_COMB i) (combFld c) = 2) && decide (s.getF (Reg.FAB_COMB i) Fld.FAB_COMB_C4 = 1)

/-- A comb whose replacement waits for a hold is replaced (R195). -/
def State.replaceCombs (s : State) : State :=
  s.liveSites.foldl (fun (s : State) i => (List.range 4).foldl (fun (s : State) c =>
    if s.combDue i c then s.switchComb i c else s) s) s

/-- A comb whose replacement waits is replaced at a cold start or a wake, before any ring has locked (R195). -/
def State.swapCombs (s : State) : State :=
  s.liveSites.foldl (fun (s : State) i => (List.range 4).foldl (fun (s : State) c =>
    if s.combDue i c then s.combSwap i c else s) s) s

/-! ### Start-up and sync frames -/

/-- Bring up the carriers of a pair direction as the granary map records them, both ends on one stripe: none on a
retired plane (R192) or one whose comb the sender has lost (R195), the granary carriers drawn for those that are failed, and
none whose rings have not locked again (R190). -/
def State.pairUp (s : State) (i j : Nat) : State :=
  if i = j then s else
  let s := (List.range 36).foldl (fun (s : State) q =>
    if (s.planeRetired q ∨ s.combLost i q = true) ∧ s.carrierFailed i j q = false then s.grnPut 5 i (64 * j + q) 0 else s) s
  let late := (s.lateCarriers i j).filter fun q => !(s.carrierFailed i j q)
  let s := { s.setOut i j (late.map fun q => (q, s.vt)) with markers := SMap.del (pairKey i j) s.markers }
  let s := s.setDrawn i j (([32, 33].filter fun q => !(s.carrierFailed i j q)).take (s.drawsAsked i j))
  let ps := s.planesOf i j
  let s := s.setReg (Reg.FAB_TX_STRIPE i j) (BitVec.ofNat 64 (planeBits ps))
  let s := s.setReg (Reg.FAB_RX_STRIPE j i) (BitVec.ofNat 64 (planeBits ps))
  let s := s.setF (Reg.FAB_TX_PAIR i j) Fld.FAB_TX_PAIR_CARRIERS ps.length
  let s := s.setF (Reg.FAB_RX_PAIR j i) Fld.FAB_RX_PAIR_CARRIERS ps.length
  s.controlFailover i j

/-- Every pair direction between some sites comes up. -/
def State.pairsUp (s : State) (up : List Nat) : State :=
  up.foldl (fun (s : State) i => up.foldl (fun (s : State) j => s.pairUp i j) s) s

/-- A site's spare lanes and combs as the granary map records them. -/
def State.siteLanesUp (s : State) (i : Nat) : State :=
  let s := (List.range 38).foldl (fun (s : State) q => [0, 1].foldl (fun (s : State) dir =>
    [false, true].foldl (fun (s : State) sb =>
      s.setF (Reg.FAB_STEER i q) (spareFld dir sb)
        (s.grnGet 4 i ((2 * q + dir) * 2 + bit sb) (if sb then 63 else saDefault i q dir))) s) s) s
  let s := (List.range 5).foldl (fun (s : State) c =>
    s.setF (Reg.FAB_COMB i) (combFld c) (s.grnGet 7 i c (if c = 4 then 1 else 0) % 8)) s
  s.setF (Reg.FAB_COMB i) Fld.FAB_COMB_SPARE_FOR (s.grnGet 7 i 4 (7 * 256) / 256 % 8)

/-- A site receives a sync frame (R199): counted where a copy is bad or both are; true: delivered. -/
def State.frameRx (s : State) (i : Nat) (rx : Rx) : State × Bool :=
  match rx with
  | .both => (s, true)
  | .oneBad => (s.bump (Reg.FAB_SYNC_ERR i) Fld.FAB_SYNC_ERR_ONE_BAD 1, true)
  | .lost => (s.bump (Reg.FAB_SYNC_ERR i) Fld.FAB_SYNC_ERR_LOST 1, false)

end Sys2Proof.Machine
end

