-- ==== Sys2Proof/Machine/Links.lean ====
section
/-!
DEFINITION. External links (09): their state, redirects and the dual-active window (R250, R251), restoring
(R254 to R256), sparing (R257 to R259), and their rows.
-/

namespace Sys2Proof.Machine

open Sys2Proof

/-! ### A link's state -/

/-- Engine site of a link. -/
def linkSite (x : Nat) : Nat := 20 + (linkHome x).1
/-- LNK_STATUS of a link. -/
def linkStat (x : Nat) : Nat := Reg.LNK_STATUS (linkSite x) (linkHome x).2
/-- The hop of a link at its engine. -/
def linkHop (x : Nat) : Hop := .link (localLinkOf (linkHome x).2)
/-- STATE of a link (R260). -/
def State.linkState (s : State) (x : Nat) : Nat := s.getF (linkStat x) Fld.LNK_STATUS_STATE
/-- Is a link's REDIRECT set? -/
def State.redirected (s : State) (x : Nat) : Bool := decide (s.getF (linkStat x) Fld.LNK_STATUS_REDIRECT = 1)

/-- Set STATE; a departure from serving counts as wear (R426 kind 7). -/
def State.setLinkState (s : State) (x st : Nat) : State :=
  let s := if s.linkState x = 2 ∧ st ≠ 2 then s.wearUp 7 x else s
  s.setF (linkStat x) Fld.LNK_STATUS_STATE st

/-- The LINK record of a link. -/
def linkRec (rs : List Rec) (x : Nat) : Option Rec := recFind rs segLinkmap 2 fun r => decide (r.u8 8 = x)
/-- Declared fibre of a link in metres. -/
def linkFibre (rs : List Rec) (x : Nat) : Nat := match linkRec rs x with
  | some r => r.u16 14
  | none => 0

/-! ### Slots and standbys (R245 to R247) -/

/-- The primary and standby bundles that routes of KIND 1 use together. -/
def routePairs (rs : List Rec) : List (Nat × Option Nat) :=
  match recFind rs segLinkmap 5 anyRec with
  | none => []
  | some r => (((words4 (r.bytes.drop 8)).filter fun e => decide (e / 2 ^ 30 = 1)).map fun e =>
      (e % 32, if e / 2 ^ 16 % 128 ≠ 0 then some (e / 32 % 32) else none)).eraseDups

/-- Every slot of a route: its primary link and its standby link. -/
def State.routeSlots (s : State) : List (Nat × Option Nat) :=
  (routePairs s.rs).flatMap fun (b, sb) => (List.range (s.bundleSlots b)).map fun j =>
    (s.bundleLink b j, sb.bind fun t =>
      if s.bundleSlots t = 0 then none else some (s.bundleLink t (j % s.bundleSlots t)))

/-- Slots that a link serves as primary. -/
def State.slotsOf (s : State) (x : Nat) : List (Nat × Option Nat) :=
  s.routeSlots.filter fun e => decide (e.1 = x)

/-- Primary links whose slots are redirected onto a link. -/
def State.servedBy (s : State) (y : Nat) : List Nat :=
  ((s.routeSlots.filter fun e => decide (e.2 = some y) && s.redirected e.1).map (·.1)).eraseDups

/-- Is a link in a revertive bundle? -/
def State.revertive (s : State) (x : Nat) : Bool :=
  (List.range 32).any fun b =>
    decide (s.getF (Reg.LNK_BUNDLE 20 b) Fld.LNK_BUNDLE_REVERTIVE = 1) &&
    (List.range (s.bundleSlots b)).any fun j => decide (s.bundleLink b j = x)

/-! ### The dual-active window (R251) -/

/-- Packets that an engine sent, or sent again, on a link in the last 1.5 µs, in order; CREDIT goes no further than its
hop (R217). -/
def State.sentLately (s : State) (x : Nat) : List Packet :=
  let at_ := fun (k : Nat) =>
    let st := s.stream (linkSite x) k
    ((st.recent ++ st.flight).filter fun f => decide (s.vt ≤ f.sent + 1500) && decide (f.pkt.op ≠ 0x38)).map (·.pkt)
  at_ (2 * hopNum (linkHop x) + 1) ++ at_ (2 * hopNum (linkHop x))

/-- Send DUAL copies of packets on a link. -/
def State.dualOn (s : State) (from_ y : Nat) (ps : List Packet) : State :=
  if ps = [] then s else
  let s := s.setLink y { s.linkAt y with dualUntil := s.vt + 2000 }
  ps.foldl (fun (s : State) p => s.sendHop (linkSite from_) (hopTo (linkSite from_) y) { p with dual := true }) s

/-- The link that serves a packet's slot: its primary, or its standby while that is redirected (R250, R254). -/
def State.linkInUse (s : State) (p : Packet) : Option Nat :=
  match s.slotLinks p with
  | some (x, sb) => if s.redirected x then sb else some x
  | none => none

/-- What waited for a link at its engine is dispatched again, on the link that now serves its slot; what no link serves is
dropped and counted (R250, R256). -/
def State.redispatch (s : State) (x : Nat) : State :=
  let i := linkSite x
  let g := s.gw i
  let mine := g.waiting.filter fun w => decide (w.hop = linkHop x)
  let s := s.setGw i { g with waiting := g.waiting.filter fun w => decide (w.hop ≠ linkHop x) }
  mine.foldl (fun (s : State) (w : Held) =>
    if w.pkt.op.toNat = 0x38 then s else
    match s.linkInUse w.pkt with
    | some y => if linkSite y = i ∧ s.linkDown y = true then s.unserved y else s.sendHop i (hopTo i y) w.pkt
    | none => s.unserved x) s

/-- Both streams and the credits of a link start again. -/
def State.freshHop (s : State) (site : Nat) (h : Hop) : State :=
  let g := s.gw site
  let vs := List.range 8
  s.setGw site { g with
    streams := SMap.del (2 * hopNum h) (SMap.del (2 * hopNum h + 1) g.streams)
    creditUsed := vs.foldl (fun m v => SMap.del (vcKey h v) m) g.creditUsed
    freed := vs.foldl (fun m v => SMap.del (vcKey h v) m) g.freed
    freedAt := SMap.del (hopNum h) g.freedAt
    waiting := g.waiting.filter fun w => decide (w.hop ≠ h)
    replHeld := g.replHeld.filter fun w => decide (w.hop ≠ h) }

/-- Return the slots of a primary link from their standby (R251, R254, R255). -/
def State.returnSlots (s : State) (x : Nat) : State :=
  let ys := ((s.slotsOf x).filterMap (·.2)).eraseDups
  let s := s.setF (linkStat x) Fld.LNK_STATUS_REDIRECT 0
  let s := s.setLink x { s.linkAt x with outAt := none }
  ys.foldl (fun (s : State) y => s.dualOn y x ((s.sentLately y).filter fun p =>
    match s.slotLinks p with
    | some (a, _) => decide (a = x)
    | none => false)) s

/-- The slots of a link that is out go to their standby (R250, R251): DUAL copies of packets sent lately; slots with no
standby that serves are unserved (R256). -/
def State.leaveSlots (s : State) (x : Nat) (lately : List Packet) : State :=
  let slots := s.slotsOf x
  if slots = [] ∨ s.redirected x = true then s else
  let s := s.setF (linkStat x) Fld.LNK_STATUS_REDIRECT 1
  let s := s.bump (Reg.LNK_FAILOVER_CNT (linkSite x) (linkHome x).2) Fld.LNK_FAILOVER_CNT_COUNT 1
  let s := s.raise (linkSite x) 0x0601 [x, slots.length]
  let s := if slots.any (fun e => match e.2 with
      | some y => s.linkDown y
      | none => true) then s.raise (linkSite x) 0x0602 [x, x] else s
  let ys := (slots.filterMap (·.2)).eraseDups
  ys.foldl (fun (s : State) y =>
    if s.linkDown y then s else
    s.dualOn x y (lately.filter fun p =>
      match s.slotLinks p with
      | some (a, some b) => decide (a = x) && decide (b = y)
      | _ => false)) s

/-- Redirect a link, or take an idle granary link out (R234, R250, R251): out, OUT in its control codewords, its slots carried by their standby. Slots it carried
as standby return to their primary, or are unserved (R254, R256). -/
def State.redirect (s : State) (x : Nat) : State :=
  if s.linkState x ≠ 2 ∧ s.linkState x ≠ 5 then s else
  let s := s.setLinkState x 3
  let s := s.setLink x { s.linkAt x with outAt := some s.vt, sendsOut := true }
  let s := s.sendCode (linkSite x) (linkHop x) 0 none
  let lent := s.servedBy x
  let s := s.leaveSlots x (s.sentLately x)
  let s := lent.foldl (fun (s : State) p =>
    if s.linkState p = 2 then s.returnSlots p else s.raise (linkSite p) 0x0602 [p, x]) s
  s.redispatch x

/-! ### Failed links and granary links (R257 to R259) -/

/-- Put a link into every bundle slot of another. -/
def State.swapLink (s : State) (x y : Nat) : State :=
  (List.range 32).foldl (fun (s : State) b => (List.range (s.bundleSlots b)).foldl (fun (s : State) j =>
    if s.bundleLink b j ≠ x then s else
    let v := s.getF (Reg.LNK_BUNDLE 20 b) Fld.LNK_BUNDLE_SLOT
    s.setF (Reg.LNK_BUNDLE 20 b) Fld.LNK_BUNDLE_SLOT (v - x * 2 ^ (7 * j) + y * 2 ^ (7 * j))) s) s

/-- Show whether a link is in a revertive bundle. -/
def State.showRevertive (s : State) (x : Nat) : State :=
  s.setF (linkStat x) Fld.LNK_STATUS_REVERTIVE (bit (s.revertive x))

/-- The granary link that LINKMAP declares as a link's spare, if it is idle (R258). -/
def State.spareFor (s : State) (x : Nat) : Option Nat :=
  ((recsOf s.rs segLinkmap 4).find? fun r =>
    decide (s.linkState (r.u8 8) = 5) && (List.range (r.u8 9)).any fun i => decide (r.u8 (10 + i) = x)).map
      (·.u8 8)

/-- A part is left out of a cold start (R331). -/
def State.degraded (s : State) : State := s.setF Reg.CFG_START_STATUS Fld.CFG_START_STATUS_DEGRADED 1

/-- A link is failed (R258, R259; before READY a part left out, R331): recorded, its slots stay on their standby, and its granary link takes its place, or
capacity is lost. -/
def State.linkFails (s : State) (x : Nat) : State :=
  if s.linkState x = 4 then s else
  let s := (s.redirect x).leaveSlots x []
  let s := if s.getF Reg.CFG_START_STATUS Fld.CFG_START_STATUS_READY = 0 then s.degraded else s
  let s := (s.setLinkState x 4).grnPut 9 0xFFFF x (s.grnGet 9 0xFFFF x 0 / 2 * 2 + 1)
  match s.spareFor x with
  | none => s.raise (linkSite x) 0x0C01 [x, 0]
  | some y =>
    let old := s.slotsOf x
    let s := s.setF (linkStat x) Fld.LNK_STATUS_REDIRECT 0
    let s := ((s.swapLink x y).showRevertive x).showRevertive y
    let s := (s.setLinkState y 2).grnPut 9 0xFFFF y (2 + 256 * x)
    let s := s.setLink y { s.linkAt y with servedFrom := s.vt }
    let ys := (old.filterMap (·.2)).eraseDups
    let s := ys.foldl (fun (s : State) z => s.dualOn z y ((s.sentLately z).filter fun p =>
      match s.slotLinks p with
      | some (a, _) => decide (a = y)
      | none => false)) s
    (s.raise (linkSite x) 0x0605 [x, y]).granaryEmpty (linkSite x) 9 0xFFFF y

/-- LINK_FAILED (R259): a link has stayed redirected for 200 µs without training. -/
def execLinkFailed (link : Fin 68) (s : State) : Out :=
  let l := s.linkAt link
  match l.outAt with
  | none => .next s
  | some t =>
    if s.linkState link ≠ 3 ∨ l.parked = true ∨ s.vt < t + 200000 then .next s else .next (s.linkFails link)

/-- Data positions lost in a link's stripe. -/
def State.wavesLost (s : State) (x : Nat) : Nat :=
  ((List.range 16).filter fun w => decide (s.grnGet 10 (linkSite x) (32 * x + w) 0 = 1)).length

/-- Does λ17 of a link stand in for a failed wavelength? -/
def State.spareWave (s : State) (x : Nat) : Bool :=
  (List.range 16).any fun w => decide (s.grnGet 10 (linkSite x) (32 * x + w) 0 = 3)

/-- Index of a link's ring at its engine's site (R391): direction 0 transmit, 1 receive; slot 0 to 17. -/
def waveRing (x dir w : Nat) : Nat := 2432 + (2 * (linkHome x).2 + dir) * 18 + w

/-- Is a ring of λ17 retired, so that it can stand in for nothing? -/
def State.spareGone (s : State) (x : Nat) : Bool :=
  [0, 1].any fun dir => decide (s.grnGet 8 (linkSite x) (waveRing x dir 17) 0 / 2 = 1)

/-- The slot that serves data position `w` of a link: its own, or λ17's where that stands in for it, none where its ring or
λ17's is out (R236, R257, R386). -/
def State.waveSlot (s : State) (x w : Nat) : Option Nat :=
  let l := s.linkAt x
  let out := fun (n : Nat) => l.dark.any fun d => decide (d.1 = n)
  let g := s.grnGet 10 (linkSite x) (32 * x + w) 0
  let stands := decide (g = 3) || s.brackets.any fun b =>
    b.wave && decide (b.tx = linkSite x) && decide (b.rx = (linkHome x).2) && decide (b.ch = w)
  if g = 1 then none
  else if stands then (if out 16 then none else some 17)
  else if out w then none else some (w + 1)

/-- The stripe of a link follows its wavelengths: WAVES counts its data positions, SPARE_WAVE tells whether λ17 serves a
failed one, and a change is told on λ0 and goes out under the next version with its marker (R188, R236). -/
def State.showWaves (s : State) (x : Nat) : State :=
  let ws := (List.range 16).filterMap fun w => s.waveSlot x w
  let s := s.setF (linkStat x) Fld.LNK_STATUS_WAVES ws.length
  let s := s.setF (linkStat x) Fld.LNK_STATUS_SPARE_WAVE (bit (s.spareWave x))
  let l := s.linkAt x
  if l.stripe = ws then s else
  let v := (l.version + 1) % 16
  let s := s.setLink x { l with stripe := ws, version := v }
  let key := streamKey (linkHop x) 0
  let s := s.setStream (linkSite x) key ((s.stream (linkSite x) key).restart l.stripe)
  (s.emit (.marker (linkSite x) (linkHop x) v)).sendCode (linkSite x) (linkHop x) 0 none

/-- The wavelength bracket of a link is abandoned (R256, R390). -/
def State.dropWaveBracket (s : State) (x : Nat) : State :=
  let s := { s with brackets := s.brackets.filter fun b =>
    !(b.wave && decide (b.tx = linkSite x) && decide (b.rx = (linkHome x).2)) }
  s.setF (linkStat x) Fld.LNK_STATUS_BRACKET 0

/-- One data position of a link is lost for good (R257). -/
def State.waveLost (s : State) (x w : Nat) : State :=
  let i := linkSite x
  let s := (s.grnPut 10 i (32 * x + w) 1).showWaves x
  let n := s.wavesLost x
  let s := s.raise i 0x0C01 [x, 16 - n]
  if 5 ≤ n then s.linkFails x else s

/-- A data wavelength of a link fails, or λ17 (`w` 16), whose data position is then lost where it serves one (R257). -/
def State.waveFails (s : State) (x w : Nat) : State :=
  let i := linkSite x
  if 16 ≤ w then
    let s := (s.dropWaveBracket x).showWaves x
    match (List.range 16).find? fun v => decide (s.grnGet 10 i (32 * x + v) 0 = 3) with
    | none => s
    | some v => s.waveLost x v
  else if s.grnHas 10 i (32 * x + w) then s else
  let s := s.dropWaveBracket x
  let s := s.setLink x { s.linkAt x with dark := (s.linkAt x).dark.filter fun d => decide (d.1 ≠ w) }
  if !(s.spareWave x) && !(s.spareGone x) && !((s.linkAt x).dark.any fun d => decide (d.1 = 16)) then
    let s := (s.grnPut 10 i (32 * x + w) 3).showWaves x
    (s.raise i 0x0604 [x, w]).granaryEmpty i 10 i x
  else s.waveLost x w

/-- WAVELENGTH_FAILED (R242, R257): a data wavelength, or λ17 (16), is out of the stripe for 200 µs, or its received power
has stayed below −12.0 dBm for 1 ms, or one of its rings is retired. -/
def execWavelengthFailed (link : Fin 68) (wave : Fin 17) (s : State) : Out :=
  let x := link.val
  let w := wave.val
  let l := s.linkAt x
  let late := l.dark.any fun d => decide (d.1 = w) && decide (d.2 + 200000 ≤ s.vt)
  let dim := l.low.any fun kv => decide (kv.1 = w + 1) && decide (kv.2 + 1000000 ≤ s.vt)
  let retired := [0, 1].any fun dir => decide (s.grnGet 8 (linkSite x) (waveRing x dir (w + 1)) 0 / 2 = 1)
  if s.linkState x = 0 ∨ !(late || dim || retired) then .next s else .next (s.waveFails x w)

/-- STRIPE_MARKER (R188, R236): a receiver sees the marker of a stripe change, by its version, on every carrier of the new
stripe of a pair, or on every wavelength of a link. -/
def execStripeMarker (site : Site) (hop : Hop) (version : BitVec 4) (s : State) : Out :=
  match hop with
  | .base p => if p = site then .next s else .next (s.markerSeen site p version.toNat)
  | .link l =>
    let x := linkNum (site - 20) l
    if siteKind site ≠ .engine ∨ s.linkState x = 0 then .next s
    else .next (s.setLink x { s.linkAt x with
      rxVersion := version.toNat, rxWaves := (s.linkAt x).stripe.length })

/-! ### External combs (R234) -/

/-- The links that an external comb (5 CE0, 6 CE1) of an engine's site feeds. -/
def combLinks (i c : Nat) : List Nat :=
  ((List.range 10).filter fun l => decide (c = (if l < 4 ∨ l = 8 then 5 else 6)) &&
    (decide (l < 8) || decide (i = 20) || decide (i = 24))).map fun l => linkNum (i - 20) l

/-- An external comb fails: every link it feeds loses its transmit direction and is redirected (R234, R250). -/
def State.extCombFails (s : State) (i c : Nat) : State :=
  (combLinks i c).foldl (fun (s : State) x => s.redirect x) (s.grnPut 7 i c (3 + 256 * 7))

/-- COMB_FAILURE (R195, R234): a base comb C0 to C4 fails, or an external comb CE0 (5) or CE1 (6) of a link engine. -/
def execCombFailure (site : Site) (comb : Fin 7) (s : State) : Out :=
  if comb.val < 5 then .next (s.combFails site comb)
  else if siteKind site = .engine then .next (s.extCombFails site comb) else .next s

/-- LINK_REDIRECT (R250): the engine has lost the link's receive direction (`lost`), or it finds the peer's
OUT, ACK not advancing for 1 µs + 10 ns/m, or eight resends. -/
def execLinkRedirect (link : Fin 68) (lost : Bool) (s : State) : Out :=
  let x := link.val
  let stuck := [0, 1].any fun c =>
    let st := s.stream (linkSite x) (2 * hopNum (linkHop x) + c)
    decide (st.flight ≠ []) &&
      (decide (st.advanced + 1000 + 10 * linkFibre s.rs x ≤ s.vt) || decide (8 ≤ st.resends))
  if lost || (s.linkAt x).peerOut || stuck then .next (s.redirect x) else .next s

/-! ### Training (R243, R244) -/

/-- The system digest of this package (R314). -/
def systemDigest (rs : List Rec) : List Byte :=
  sha256 ((rs.filter fun r => decide (r.seg = segLinkmap) && decide (r.kind ∈ [8, 9, 10])).flatMap (·.bytes))

/-- Why a handshake holds a link out (R244): 0 where it does not. -/
def State.miswired (s : State) (x : Nat) (h : Handshake) : Nat :=
  match linkRec s.rs x with
  | none => 1
  | some r =>
    if r.u16 10 ≠ h.pkg.toNat ∨ r.u8 12 ≠ h.link.toNat then 1
    else if h.digest ≠ systemDigest s.rs then 2
    else if r.u16 14 + 10 < h.fibre.toNat then 3
    else if h.zx5000 ∧ s.revertive x = false then 4
    else 0

/-- Has a granary link been drawn (R258)? -/
def State.linkDrawn (s : State) (x : Nat) : Bool := decide (s.grnGet 9 0xFFFF x 0 / 2 % 2 = 1)

/-- Clear every redirect of an engine whose primary link serves (R254). -/
def State.clearRedirects (s : State) (e : Nat) : State :=
  (List.range 68).foldl (fun (s : State) x =>
    if linkSite x = e ∧ s.linkState x = 2 ∧ s.redirected x = true then
      (s.setF (linkStat x) Fld.LNK_STATUS_REDIRECT 0).setLink x { s.linkAt x with outAt := none }
    else s) s

/-- A link has trained: it enters its role (R243 step 7, R254), and its slots return to it where their standby does not
serve (R254, R256). A link held out counts as failed for routing (R244). -/
def State.linkTrained (s : State) (x : Nat) (h : Handshake) : State :=
  let i := linkSite x
  let a := Reg.LNK_PEER i (linkHome x).2
  let s := s.setF a Fld.LNK_PEER_PKG h.pkg.toNat
  let s := (s.setF a Fld.LNK_PEER_GEN (bit h.zx5000)).setF a Fld.LNK_PEER_LINK h.link.toNat
  let s := s.setF (linkStat x) Fld.LNK_STATUS_FIBRE h.fibre.toNat
  match s.miswired x h with
  | 0 =>
    let s := s.freshHop i (linkHop x)
    let s := s.setF (linkStat x) Fld.LNK_STATUS_HELD 0
    let s := s.setLinkState x (if 64 ≤ x ∧ s.linkDrawn x = false then 5 else 2)
    let s := s.setLink x { s.linkAt x with
      outAt := none, tries := 0, servedFrom := s.vt, sendsOut := false, peerOut := false, parked := false
      delay := h.delay.toNat, errs := [], clash := false, dark := [], low := [], back := h.path.toNat }
    let s := s.showWaves x
    let s := s.setLink x { s.linkAt x with rxWaves := (s.linkAt x).stripe.length }
    if i ∈ s.restores ∧ s.holding i = true then s.clearRedirects i
    else if s.redirected x ∧ (s.slotsOf x).any (fun e => match e.2 with
        | some y => s.linkDown y
        | none => true) then s.returnSlots x
    else s
  | why =>
    let s := (s.redirect x).leaveSlots x []
    let s := (s.setLinkState x 6).setF (linkStat x) Fld.LNK_STATUS_HELD why
    let s := if s.getF Reg.CFG_START_STATUS Fld.CFG_START_STATUS_READY = 0 then s.degraded else s
    s.raise i 0x0603 [x, why]

/-- LINK_TRAINING (R243, R244): a link in training, out or failed trains; `peer` is what its handshake
reports, or none where a step fails: after three restarts the link is failed (R259). -/
def execLinkTraining (link : Fin 68) (peer : Option Handshake) (s : State) : Out :=
  let x := link.val
  if !(decide (s.linkState x ∈ [1, 3, 4])) then .next s else
  match peer with
  | some h => .next (s.linkTrained x h)
  | none =>
    let l := s.linkAt x
    let s := s.setLink x { l with tries := l.tries + 1 }
    if 4 ≤ l.tries + 1 then .next (s.linkFails x) else .next s

/-- What a link control codeword tells beside ACK, NAK and RESEND (R237, R242, R408): OUT, RXPOWER, the stripe version, the
error of its TIMESTAMP, and the power at which it arrived, in 0.01 dBm, which a bracketed slot does not change (`held`:
R389). -/
def LinkSt.hears (l : LinkSt) (slot : Nat) (level : Int) (held : Bool) (now : Nat) (w : LinkWord) : LinkSt :=
  { l with
    peerOut := w.out
    parked := l.parked || (w.out && decide (w.slot = 0xFF))
    errs := l.errs ++ [(now : Int) - w.stamp]
    power := SMap.set 0 l.power w.slot w.rxPower
    level := if held then l.level else SMap.set 0 l.level slot level
    low := if held then l.low else if level < -1200 then (if l.low.any fun kv => decide (kv.1 = slot) then l.low else SMap.put slot now l.low)
      else SMap.del slot l.low
    rxVersion := w.version }

/-- Is a wavelength of a link bracketed at its receiver (R389)? -/
def State.waveHeld (s : State) (x slot : Nat) : Bool :=
  s.brackets.any fun b => b.wave && decide (b.tx = linkSite x) && decide (b.rx = (linkHome x).2) && decide (b.ch + 1 = slot)

/-- Does a link's TIMESTAMP set the clock (R368): the first that a waiting package hears, and of several links at that
moment the lowest? -/
def State.loads (s : State) (x : Nat) : Bool :=
  decide (s.linkState x = 2) && (s.vc.waits || (match s.vc.loaded with
    | some (y, t) => decide (x < y) && decide (s.vt = t)
    | none => false))

/-- A package loads a peer's time (R368): what runs by village time starts from it, and no error measured before stays
(R366). -/
def State.loadTime (s : State) (x t : Nat) : State :=
  let s := { s with
    vt := t, vtFrac := 0
    vc := { s.vc with waits := false, linkAt := t, servoAt := t, tempAt := t, sum := 0, loaded := some (x, t) } }
  (s.links.map (·.1)).foldl (fun (s : State) y => s.setLink y { s.linkAt y with errs := [] }) s

/-- LINK_CONTROL_CODEWORD (R237, R239, R242, R408): a link control codeword arrives on a slot, at a received power: ACK, NAK and
RESEND act on the data stripe's stream or on λ0's, the engine notes what else it tells, and answers with its own on the
same slot (log 40). A package that waits for time loads the peer's time plus the link delay from its first TIMESTAMP
(R368). -/
def execLinkControlCodeword (link : Fin 68) (slot : Fin 18) (level : Int) (word : BitVec 5140) (codes : List Codeword)
    (s : State) : Out :=
  let x := link.val
  let i := linkSite x
  if s.linkState x = 0 ∨ s.deaf i then .next s else
  let s := s.countCodes i (linkHop x) codes
  match linkWordOf word.toNat with
  | none => .next s
  | some w =>
    let l := s.linkAt x
    let s := if s.loads x then s.loadTime x ((w.stamp + l.delay) % 2 ^ 64) else s
    let s := s.setLink x ((s.linkAt x).hears slot level (s.waveHeld x slot) s.vt w)
    let key := streamKey (linkHop x) (if slot.val = 0 then 5 else 0)
    .next ((s.hearCode i (linkHop x) key w.ack w.nak w.resend).sendCode i (linkHop x) slot none)

/-! ### Restoring (R254, R255, R348) -/

/-- Write of LNK_CTRL.RESTORE. -/
def State.restore (s : State) (e : Nat) : State :=
  if s.holding e then s.clearRedirects e
  else { s with restores := e :: s.restores.filter fun i => decide (i ≠ e) }

/-- RESTORE (R254): redirects whose primary link serves are cleared at the next hold or settled boundary. -/
def execRestoreLinks (engine : Engine) (s : State) : Out := .next (s.restore (engineSite engine))

/-- At a hold or a settled boundary of an engine, a waiting RESTORE takes effect (R254). -/
def State.restoreDue (s : State) (e : Nat) : State :=
  if e ∈ s.restores then
    { s.clearRedirects e with restores := s.restores.filter fun i => decide (i ≠ e) }
  else s

/-- REVERTIVE_RETURN (R255): a redirected link of a revertive bundle has served cleanly for 100 ms. -/
def execRevertiveReturn (link : Fin 68) (s : State) : Out :=
  if s.revertive link && s.redirected link && decide (s.linkState link = 2) &&
      decide ((s.linkAt link).servedFrom + 100000000 ≤ s.vt) then .next (s.returnSlots link)
  else .next s

/-- Reset a local link: redirected, then it trains again (R348); one in training is in reset already (R334). -/
def State.resetLink (s : State) (x : Nat) : State :=
  if s.linkState x = 0 ∨ s.linkState x = 1 then s else
  let s := s.redirect x
  let s := s.setLink x { s.linkAt x with tries := 0 }
  s.setLinkState x 1

/-- Is an engine's site or its field in a reset, which is larger than a link's (R334)? -/
def State.engineInReset (s : State) (e : Nat) : Bool :=
  decide (s.getF (Reg.GW_RESET e) Fld.GW_RESET_STATE ∈ [1, 2, 3]) ||
  decide (s.getF (Reg.FAB_FIELD_RESET (homeField e)) Fld.FAB_FIELD_RESET_STATE ∈ [1, 2, 3])

/-- Write of LNK_RESET: every link of the mask, unless its engine is in a larger reset (R334). -/
def State.resetLinks (s : State) (e mask : Nat) : State :=
  if s.engineInReset e then s else
  (List.range 10).foldl (fun (s : State) l =>
    if mask / 2 ^ l % 2 = 1 ∧ (l < 8 ∨ e = 20 ∨ e = 24) then s.resetLink (linkNum (e - 20) l) else s) s

/-- LNK_RESET (R348). -/
def execLnkReset (r : Requester) (engine : Engine) (mask : BitVec 10) (s : State) : Out :=
  .next (if s.trusted r then s.resetLinks (engineSite engine) mask.toNat else s)

/-- An activated LINKMAP: bundles with the granary links drawn, links declared and held-out links tried
again (R244, R245, R258, R260). -/
def State.linksUp (s : State) : State :=
  let s := (List.range 32).foldl (fun (s : State) b =>
    match recFind s.rs segLinkmap 3 (fun r => decide (r.u8 8 = b)) with
    | none => s.setReg (Reg.LNK_BUNDLE 20 b) 0
    | some r =>
      let slots := ((List.range (r.u8 9)).map fun j =>
        let x := r.u8 (12 + j)
        let y := ([64, 65, 66, 67].find? fun y =>
          s.linkDrawn y && decide (s.grnGet 9 0xFFFF y 0 / 256 = x)).getD x
        y * 2 ^ (7 * j)).sum
      let a := Reg.LNK_BUNDLE 20 b
      let s := (s.setF a Fld.LNK_BUNDLE_VALID 1).setF a Fld.LNK_BUNDLE_REVERTIVE (r.u8 10 % 2)
      (s.setF a Fld.LNK_BUNDLE_SLOTS_M1 (r.u8 9 - 1)).setF a Fld.LNK_BUNDLE_SLOT slots) s
  (List.range 68).foldl (fun (s : State) x =>
    let s := s.showRevertive x
    let st := s.linkState x
    if (linkRec s.rs x).isNone then s.setLinkState x 0
    else if st = 0 ∨ st = 6 then
      let s := s.setLink x { s.linkAt x with tries := 0 }
      if s.grnGet 9 0xFFFF x 0 % 2 = 1 then (s.setLinkState x 4).leaveSlots x [] else s.setLinkState x 1
    else s) s

end Sys2Proof.Machine
end

