-- ==== Sys2Proof/Machine/Ledger.lean ====
section
/-!
DEFINITION. The access ledgers (R448, R449): the chain of each context and its area on the bridge that
holds full slot 0.
-/

namespace Sys2Proof.Machine

open Sys2Proof

/-- The ledger area of a context (R448). -/
def ledgerBase (ctx : Nat) : Nat := 0x40000000 + ctx * 0x40000

/-- Count and head of a context's chain; a chain that has no entry has 32 bytes of 0 (R448). -/
def State.ledger (s : State) (ctx : Nat) : Nat × List Byte := SMap.get (0, leBytes 32 0) s.led ctx

/-- A context's chain takes an entry (R448). -/
def State.ledgerChain (s : State) (ctx : Nat) (e : List Byte) : State :=
  let (n, head) := s.ledger ctx
  { s with led := SMap.set (0, leBytes 32 0) s.led ctx (n + 1, sha256 (head ++ e)) }

/-- An entry is written to the ledger area of a bridge: it counts there (R179), and no stale copy stays cached (R167). -/
def State.ledgerStore (s : State) (b a : Nat) (e : List Byte) : State :=
  ((s.writeMem b a e).hbmMoved b e.length).invNow b a e.length

/-- Append an entry (R448): requester 0 MC, 1 operator by the host port, 2 operator by sideband or boundary
scan, 3 CTX0 host core. -/
def State.ledgerAdd (s : State) (ctx kind req host site len : Nat) (detail : List Byte) : State :=
  let n := (s.ledger ctx).1
  let e := leBytes 8 (n + 1) ++ leBytes 8 s.vt ++ leBytes 6 (s.getF Reg.BELL_NOW Fld.BELL_NOW_NUMBER) ++
    leBytes 1 ctx ++ leBytes 1 kind ++ leBytes 1 req ++ leBytes 1 host ++ leBytes 1 site ++ leBytes 1 0 ++
    leBytes 4 len ++ (detail ++ leBytes 32 0).take 32
  let s := s.ledgerChain ctx e
  match s.slotPlace false 0 with
  | some (b, _, _) => s.ledgerStore b (ledgerBase ctx + n % 4096 * 64) e
  | none => s

/-- The contexts, other than CTX0, whose bytes a range at a site holds (R449): in a window, or in core
store or cluster memory while resident. -/
def State.ctxsOf (s : State) (site a n : Nat) : List Nat :=
  (ctxList s.rs).filter fun c => decide (c ≠ 0) &&
    (((recsOf s.rs segContexts 2).any fun r => decide (r.u8 8 = c) && decide (r.u8 9 = site) &&
      meets a n (r.u64 16) (r.u64 24)) ||
     (turnMemory site a n && decide ((s.bellAt site).resident = c)))

/-- An access by CTX0 to bytes of the own package is entered in the ledger of every context whose bytes it
touches (R449): kind 4 a read, kind 5 a write. -/
def State.ledgerTouch (s : State) (kind req host g n : Nat) : State :=
  if gPkg g ≠ s.pkg then s else
  (s.ctxsOf (gSite g) (gOff g) n).foldl (fun (s : State) c =>
    s.ledgerAdd c kind req host (gSite g) n (leBytes 8 g)) s

/-- REQUESTER and HOST of a requester (R448). -/
def ledgerWho : Requester → Nat × Nat
  | .mc => (0, 0)
  | .port => (1, 0)
  | .sideband => (2, 0)
  | .host h => (3, h.val)

end Sys2Proof.Machine
end

