-- ==== Sys2Proof/Machine/Host.lean ====
section
/-!
DEFINITION. Host cores (R279 to R285) and their loads, stores and AMOs to other sites, rings and
doorbells (R286 to R288, R294), the rings of bell phases (R291 to R293, R295), and the state of the
Ethernet port (R296, R297).
-/

namespace Sys2Proof.Machine

open Sys2Proof

/-! ### Host cores (R279 to R281, R285, R423) -/

/-- Is a host core enabled and running (R19, R305)? -/
def State.hostRuns (s : State) (h : Nat) : Bool :=
  decide (s.hostRole h = 0) &&
    decide (s.getF (Reg.HOST_CORE_STATUS h) Fld.HOST_CORE_STATUS_STATE = 1)

/-- The issuer of a host core (R211). -/
def hostIssuer (h : Nat) : Nat := 96 + h % 8

/-- Targets of a host core's physical address (R281): a global address, control space, or none. -/
inductive HostTarget where
  | mem (g : Nat)
  | ctrl
  | none
  deriving DecidableEq, Repr

/-- The target of a physical address (R281). -/
def State.hostTarget (s : State) (h : Nat) (pa : BitVec 56) : HostTarget :=
  let a := pa.toNat
  if a / 2 ^ 52 = 0 ∧ a / 2 ^ 48 % 16 = 0 then .mem (s.pkg * 2 ^ 48 + a % 2 ^ 48)
  else if a / 2 ^ 52 = 8 then
    .mem (s.getF (Reg.HOST_APERTURE h (a / 2 ^ 48 % 16)) Fld.HOST_APERTURE_PKG * 2 ^ 48 + a % 2 ^ 48)
  else if a / 2 ^ 52 = 15 ∧ a / 2 ^ 40 % 4096 = 0 then .ctrl
  else .none

/-- Does an address lie in a ring's area or shadow (R286)? -/
def inRingArea (rs : List Rec) (g : Nat) : Bool :=
  (recsOf rs segRings 1).any fun r =>
    (decide (r.u64 16 ≤ g) && decide (g < r.u64 16 + 64 * 2 ^ (r.u8 11 % 32))) ||
    (decide (r.u64 24 ≤ g) && decide (g < r.u64 24 + 16))

/-- Is a target cached by the host cores of a die: scratch of their own site, HBM3E of the package's
bridges, but for ring areas and shadows (R282)? -/
def State.hostCached (s : State) (h g : Nat) : Bool :=
  decide (gPkg g = s.pkg) && !(inRingArea s.rs g) &&
  ((decide (gSite g = h / 8) && decide (gOff g < 2 ^ 30)) ||
   (decide (siteKind (gSite g) = .bridge) && decide (gOff g < hbmSize)))

/-- Is an address on the host core's own site? -/
def State.hostOwn (s : State) (h g : Nat) : Bool := s.gOnSite (h / 8) g

/-- An access fails at its own site: reported, and the core takes an access fault (log 12). -/
def State.hostRefuse (s : State) (h status cause : Nat) : State :=
  (s.raiseStatus (h / 8) status (issuerArgs s.pkg (h / 8) (hostIssuer h))).emit (.hostStop h cause)

/-- A CTX0 host core's access is entered in the ledgers (R449). -/
def State.hostLedger (s : State) (h g n kind : Nat) : State :=
  if s.hostCtx h = 0 then s.ledgerTouch kind 3 h g n else s

/-- The checks of a host core's access to its own site (R24, R434, R440, R161);
a store to a slot-fill window is judged by its core (R162). -/
def State.hostOwnFails (s : State) (h g n : Nat) (rd wr : Bool) : Option Nat :=
  let k := h / 8
  let ctx := s.hostCtx h
  if s.live k = false then some stFenced
  else if !(s.ctxFits k ctx (gOff g) n) then some stCtx
  else if (fillWindowOf (gOff g) n).isSome then (if rd || !(s.inRange k (gOff g) n) then some stWindow else none)
  else if !(s.rangeFits k ctx (gOff g) n false rd wr) then some stWindow
  else none

/-- A packet of a host core to another site (R211, R284). -/
def State.hostPacket (s : State) (h g : Nat) (op len mask : Nat) (bs : List Byte) : Packet :=
  { Packet.zero with
    op := BitVec.ofNat 8 op, vc := 4, last := decide (op = 0x01), ctx := BitVec.ofNat 8 (s.hostCtx h)
    dstPkg := BitVec.ofNat 16 (gPkg g), dstSite := siteOf (gSite g), addr := BitVec.ofNat 43 (gOff g)
    len := BitVec.ofNat 13 len, mask := BitVec.ofNat 32 mask, payload := bs }

/-- One unit of a load from another site (R165, R284): a line of a window that the stack caches is looked
up there first, and a miss fetches the whole 256-byte line. -/
def State.hostFetch (s : State) (h g id o u : Nat) (flaws : Flaws) : State :=
  let k := h / 8
  let ctx := s.hostCtx h
  let b := gSite g
  let a := gOff g
  let read := fun (s : State) (g len : Nat) (why : Purpose) =>
    s.titheSend k 2 (len + 80) (hostIssuer h) (s.hostPacket h g 0x08 len 0 []) len why
  if s.cachedAt k ctx g then
    match s.cacheLook k ctx b a u flaws with
    | (s, .hit bs) => s.xferPart id o 0 bs
    | (s, .bad) => s.xferPart id o stParity []
    | (s, .miss) => read s (g - a % 256) 256 (.xferLine id o (g - a % 256) (a % 256) u)
  else read s g u (.xfer id o)

/-- A dirty line or a register of a host core fails parity: a precise exception with mcause 24, and
HOST_PARITY votes (R285). -/
def State.hostParity (s : State) (h : Nat) : State :=
  (((s.wearUp 6 h).raise (h / 8) 0x0205 [h % 8])).emit (.hostStop h 24)

/-- A clean line of a host core that fails parity is fetched again: counted, not reported (R285). -/
def State.hostClean (s : State) (h : Nat) (parity : HostParity) : State :=
  if parity = .clean then s.wearUp 6 h else s

/-- The bytes of a store that lie in the granule at `base`, laid into 32 bytes, and their mask (R210). -/
def granuleOf (base a : Nat) (bs : List Byte) : List Byte × Nat :=
  let inside := fun j => decide (a ≤ base + j) && decide (base + j < a + bs.length)
  ((List.range 32).map fun j => if inside j then bs.getD (base + j - a) 0 else 0,
   ((List.range 32).map fun j => if inside j then 2 ^ j else 0).sum)

/-- A host core's write packet (R165, R284): it goes through to the bridge, and a line of the stacked cache
that is present takes it. -/
def State.hostWrite (s : State) (h g mask : Nat) (bs : List Byte) (id o : Nat) : State :=
  let k := h / 8
  let s := if s.cachedAt k (s.hostCtx h) g then s.cacheWrite k (s.hostCtx h) (gSite g) (gOff g) mask bs else s
  s.titheSend k 2 (bs.length + 40) (hostIssuer h) (s.hostPacket h g 0x01 bs.length mask bs) bs.length
    (.xfer id o)

/-- The atomic packet of an AMO (R54, R210, R283): its operation, width in bytes and payload. -/
def amoPacket : HostAmo → Option (Nat × Nat × List Byte)
  | .add w v =>
    let n := if w then 4 else 8
    some (0x18, n, leBytes n v.toNat ++ leBytes (32 - n) 0)
  | .cas w old new =>
    let n := if w then 4 else 8
    some (0x19, n, leBytes n old.toNat ++ leBytes n new.toNat ++ leBytes (32 - 2 * n) 0)
  | _ => none

/-- A host core's access to a cached address (R282, R283, R284): its die's lines serve it, or the lines are fetched
first, from the own site at once, from another by READ_REQ. -/
def State.hostLineAccess (s : State) (h g n : Nat) (todo : HostDo) (flaws : Flaws) : State :=
  let k := h / 8
  let bases := unitBases 64 g n
  if s.linesHeld k g n then s.hostDo h g n todo
  else if s.hostOwn h g then
    let g0 := g - g % 64
    let len := 64 * bases.length
    match s.hostOwnFails h g0 len true false with
    | some st => s.hostRefuse h st todo.cause
    | none =>
      match s.readCheck k (gOff g0) len flaws false (issuerArgs s.pkg k (hostIssuer h)) with
      | (s, some _) => s.emit (.hostStop h todo.cause)
      | (s, none) => s.linesCome h g n todo (s.readMem k (gOff g0) len)
  else
    let (s, id) := s.beginXfer bases.length (.hostFill h g n todo)
    bases.zipIdx.foldl (fun (s : State) (b, i) => s.hostFetch h b id (64 * i) 64 flaws) s

/-- An AMO, LR or SC to a cached address (R283): one that is not aligned raises an address-misaligned exception (PRESUMED,
the A extension; log 12). -/
def State.hostAmoLine (s : State) (h g : Nat) (amo : HostAmo) (flaws : Flaws) : State :=
  let n := amoWidth amo
  if g % n ≠ 0 then s.emit (.hostStop h (if (HostDo.amo amo).cause = 5 then 4 else 6))
  else (s.hostLedger h g n 5).hostLineAccess h g n (.amo amo) flaws

/-- A clean line of a cached access that fails parity is invalidated first (R285). -/
def State.hostRefetch (s : State) (h g n : Nat) (parity : HostParity) : State :=
  if parity = .clean ∧ s.hostCached h g = true then s.refetchLines (h / 8) g n else s

/-- HOST_AMO (R283): an AMO, LR or SC. One to a cached address is performed in the die's L2 and never leaves it. -/
def execHostAmo (h : Host64) (pa : BitVec 56) (amo : HostAmo) (how : HostStoreHow) (flaws : Flaws) (s : State) : Out :=
  let k := h.val / 8
  if !(s.hostRuns h) then .next s
  else if how.parity = .dirty then .next (s.hostParity h)
  else
    let s := s.hostClean h how.parity
    match s.hostTarget h pa with
    | .none => .next (s.emit (.hostStop h 7))
    | .ctrl => .next (s.emit (.hostStop h 7))
    | .mem g =>
      if s.hostCached h g then
        .next ((s.hostRefetch h g (amoWidth amo) how.parity).hostAmoLine h g amo flaws) else
      match amoPacket amo with
      | none => .next (s.emit (.hostStop h 7))
      | some (op, n, pay) =>
        let p := { s.hostPacket h g op 32 0 pay with fmt := if n = 4 then 0xA else 0xB }
        let s := s.hostLedger h g n 5
        if s.hostOwn h g then
          match s.hostOwnFails h g n true true with
          | some st => .next (s.hostRefuse h st 7)
          | none =>
            if !(opPermitted op k (gOff g) n) then .next (s.hostRefuse h stDenied 7) else
            match s.readCheck k (gOff g) n flaws true (issuerArgs s.pkg k (hostIssuer h)) with
            | (s, some _) => .next (s.emit (.hostStop h 7))
            | (s, none) =>
              let old := leNat (s.readMem k (gOff g) n)
              .next ((s.portWrite k (gOff g) 0 (issuerArgs s.pkg k (hostIssuer h)) how.mets (leBytes n (atomicNew p old))).1.emit
                (.hostValue h (leBytes n old)))
        else
          let (s, id) := s.beginXfer 1 (.hostAmo h n)
          .next (s.titheSend k 2 144 (hostIssuer h) p 32 (.xfer id 0))

/-- Draw the granary host core of a lost host core's die (R423): from the next boundary (R420) it runs in the
context of the lost core. -/
def State.drawHost (s : State) (lost : Nat) : State :=
  let k := lost / 8
  if s.nextRole 2 k (lost % 8) ≠ 2 then s else
  match (List.range 8).find? (fun j => decide (s.nextRole 2 k j = 1)) with
  | none => s.raise k 0x0C01 [k]
  | some j =>
    let s := { s with hostTake := SMap.put (8 * k + j) (s.hostCtx lost) s.hostTake }
    ((s.putRole 2 k j 0).raise k 0x0C04 [lost % 8, j]).granaryEmpty k 2 k 0

/-- HOST_CORE_LOST (R285, R423). -/
def execHostCoreLost (h : Host64) (s : State) : Out :=
  let k := h.val / 8
  let j := h.val % 8
  if s.nextRole 2 k j ≠ 0 then .next s else
  let s := s.setF (Reg.HOST_CORE_STATUS h) Fld.HOST_CORE_STATUS_STATE 3
  let s := ((s.wearUp 6 h).raise k 0x0206 [j]).putRole 2 k j 2
  .next (if s.policy (·.u8 13) 1 = 0 then s.drawHost h else s)

end Sys2Proof.Machine
end

