-- ==== Sys2Proof/Machine/Rings.lean ====
section
/-!
DEFINITION. Rings (R286 to R295): the ring record's fields, the published indices, doorbells, completion
records, queue pairs in error, and the rings of bell phases.
-/

namespace Sys2Proof.Machine

open Sys2Proof

/-! ### The ring record (R286, R315) -/

/-- Issuers of S22 for ring copies and for the host-port engine (R291). -/
def ringIssuer : Nat := 3
def portIssuer : Nat := 4

/-- DEPTH of a ring. -/
def ringDepth (r : Rec) : Nat := 2 ^ (r.u8 11 % 32)
/-- Context of a ring. -/
def ringCtx (r : Rec) : Nat := r.u8 10
/-- Kind of a side: 0 queue pair, 1 host cores, 2 bell phase. -/
def ringSide (r : Rec) (prod : Bool) : Nat := if prod then r.u8 12 else r.u8 13
/-- QPN, host-core mask or phase of a side. -/
def ringWho (r : Rec) (prod : Bool) : Nat := if prod then r.u64 32 else r.u64 40
/-- Is a ring the raw ring: it has a raw buffer and no side is a bell phase (log 15)? -/
def ringRaw (r : Rec) : Bool :=
  decide (r.u64 56 ≠ 0) && decide (r.u8 12 ≠ 2) && decide (r.u8 13 ≠ 2)
/-- Entry `i` of a ring (R287). -/
def ringEntry (r : Rec) (i : Nat) : Nat := r.u64 16 + i % ringDepth r * 64
/-- QPN of a ring, if a side is a queue pair. -/
def ringQpn (r : Rec) : Option Nat :=
  if r.u8 12 = 0 then some (r.u64 32 % 2 ^ 24) else if r.u8 13 = 0 then some (r.u64 40 % 2 ^ 24) else none
/-- KIND of a ring (R305): internal, inbound, outbound, raw. -/
def ringKind (r : Rec) : Nat :=
  if ringRaw r then 3 else if r.u8 12 = 0 then 1 else if r.u8 13 = 0 then 2 else 0

/-- Entries that a ring holds (R287). -/
def RingSt.fill (x : RingSt) : Nat := (x.pi + 2 ^ 32 - x.ci) % 2 ^ 32

/-- The declared rings. -/
def State.ringRecs (s : State) : List Rec := recsOf s.rs segRings 1

/-- The ring of a side bound to a queue pair. -/
def State.qpRing (s : State) (qpn : Nat) (prod : Bool) : Option Rec :=
  s.ringRecs.find? fun r => decide (ringSide r prod = 0) && decide (ringWho r prod % 2 ^ 24 = qpn)

/-! ### Device memory behind the port and ring engines (R24, R161, R162, R291, R299, R308; log 11) -/

/-- The packets of a copy: 4,096 bytes each. -/
def copyPieces (bs : List Byte) : List (Nat × List Byte) :=
  (List.range ((bs.length + 4095) / 4096)).map fun i => (4096 * i, (bs.drop (4096 * i)).take 4096)

/-- The core whose slot-fill window a range of a site lies in (R162). -/
def fillAt (site a n : Nat) : Option Nat := if siteKind site = .stack then fillWindowOf a n else none

/-- Bytes of a context are written to the own package by an engine: a slot-fill window judges each packet (R162), HBM3E
counts them (R179), and cached copies of HBM3E lines are invalidated (R167). -/
def State.storeRun (s : State) (ctx site a : Nat) (bs : List Byte) : State :=
  match fillAt site a bs.length with
  | some _ => (copyPieces bs).foldl (fun (s : State) (o, c) =>
      match fillWindowOf (a + o) c.length with
      | some t => s.fillWrite site t ctx (a + o) false c none none
      | none => s) s
  | none =>
    let s := s.writeMem site a bs
    if siteKind site = .bridge ∧ a < hbmSize then (s.hbmMoved site bs.length).invNow site a bs.length else s

/-- The status with which an access of an engine of S22 to the own package fails: SITE_FENCED, PATH_RESET, CTX_MISMATCH,
or WINDOW_DENIED outside R161, for a write of a locked slot or a read of a slot-fill window (R24, R161, R162, R230, R308,
R434). Its windows were checked when its ring or entry was accepted. -/
def State.engineFails (s : State) (who ctx g n : Nat) (wr : Bool) : Option Nat :=
  let site := gSite g
  let a := gOff g
  if n = 0 then none else
  match s.localFail portSite who (gPkg g) site with
  | some st => some st
  | none =>
    if turnMemory site a n = true ∧ s.ctxFits site ctx a n = false then some stCtx
    else if s.inRange site a n = false ∨ (wr = true ∧ s.touchesLocked site a n = true) ∨
        (wr = false ∧ (fillAt site a n).isSome = true) then some stWindow
    else none

/-- An engine of S22 writes bytes of the own package: entries, shadows, inbound data; a status means that the write failed,
which is reported. -/
def State.engineStore (s : State) (who ctx g : Nat) (bs : List Byte) : State × Option Nat :=
  match s.engineFails who ctx g bs.length true with
  | some st => (s.raiseStatus portSite st (issuerArgs s.pkg portSite who), some st)
  | none => (s.storeRun ctx (gSite g) (gOff g) bs, none)

/-- As `engineStore`, where nothing but the report tells of a failure. -/
def State.engineWrite (s : State) (who ctx g : Nat) (bs : List Byte) : State := (s.engineStore who ctx g bs).1

/-- An engine of S22 reads bytes of the own package; a status means that the read failed (R299). -/
def State.engineRead (s : State) (who ctx g n : Nat) (flaws : Flaws) : State × Option Nat × List Byte :=
  match s.engineFails who ctx g n false with
  | some st => (s.raiseStatus portSite st (issuerArgs s.pkg portSite who), some st, [])
  | none =>
    match s.readCheck (gSite g) (gOff g) n flaws true (issuerArgs s.pkg portSite who) with
    | (s, some st) => (s, some st, [])
    | (s, none) => (s, none, s.readMem (gSite g) (gOff g) n)

/-- A transfer of CTX0 that reaches memory is one entry in the ledgers of the contexts whose bytes it touches (R449);
`who` and `host` say whose it is (R448). -/
def State.dmaLedger (s : State) (ctx who host g n : Nat) (wr : Bool) : State :=
  if ctx = 0 ∧ n ≠ 0 ∧ s.engineFails portIssuer ctx g n wr = none then s.ledgerTouch (if wr then 5 else 4) who host g n
  else s

/-! ### Indices and doorbells (R287, R288) -/

/-- The engine sends an identity to a host core, where it is pending at S level (R279, R287). -/
def State.sendIrq (s : State) (h id : Nat) : State :=
  { s with imsic := SMap.put (256 * h + id) 1 s.imsic }.emit (.irq h id)

/-- Publish indices: SHADOW is written where an index changes, and a crossing of the NOTIFY threshold interrupts
(R287). -/
def State.publish (s : State) (r : Rec) (pi ci : Nat) : State :=
  let n := r.u16 8
  let x := s.ring n
  let y := { x with pi := pi % 2 ^ 32, ci := ci % 2 ^ 32 }
  let s := s.setRing n y
  let s := if y = x then s else s.engineWrite portIssuer (ringCtx r) (r.u64 24) (leBytes 4 y.pi ++ leBytes 4 y.ci ++ leBytes 8 0)
  if r.u16 14 ≠ 0 ∧ x.fill < r.u16 50 ∧ r.u16 50 ≤ y.fill then s.sendIrq (r.u8 48) (r.u16 14) else s

/-- May a requester ring a side (R288)? -/
def mayRing (req : Requester) (r : Rec) (prod : Bool) : Bool :=
  decide (ringSide r prod = 1) &&
  match req with
  | .host h => decide (ringWho r prod / 2 ^ h.val % 2 = 1)
  | _ => decide (ringCtx r = 0)

/-- The new index that a doorbell names, if it exists (R288). -/
def ringIndex (r : Rec) (x : RingSt) (prod : Bool) (index : Nat) : Option Nat :=
  let base := if prod then x.pi else x.ci
  let up := (index + 2 ^ 16 - base % 2 ^ 16) % 2 ^ 16
  let room := if prod then ringDepth r - 1 - x.fill else x.fill
  if up ≤ room then some (base + up) else none

/-- A doorbell is refused (R288). -/
def State.refuseBell (s : State) (ring : Nat) : State :=
  (s.bump Reg.HOST_RING_REFUSED Fld.HOST_RING_REFUSED_COUNT 1).raise portSite 0x0801 [ring]

/-- A doorbell (R288). -/
def State.doorbell (s : State) (req : Requester) (ring : Nat) (prod : Bool) (index : Nat) : State :=
  match ringRec s.rs ring with
  | none => s.refuseBell ring
  | some r =>
    let x := s.ring ring
    if !(mayRing req r prod) then s.refuseBell ring else
    match ringIndex r x prod index with
    | none => s.refuseBell ring
    | some i => if prod then s.publish r i x.ci else s.publish r x.pi i

/-- PRODUCER_DOORBELL (R288). -/
def execProducerDoorbell (r : Requester) (ring : Fin 32768) (index : BitVec 16) (s : State) : Out :=
  .next (s.doorbell r ring true index.toNat)

/-- CONSUMER_DOORBELL (R288). -/
def execConsumerDoorbell (r : Requester) (ring : Fin 32768) (index : BitVec 16) (s : State) : Out :=
  .next (s.doorbell r ring false index.toNat)

/-! ### Completion (R290, R294) -/

/-- The engine writes an entry to a ring at PI if the ring has room. -/
def State.produce (s : State) (r : Rec) (bs : List Byte) : Option State :=
  let x := s.ring (r.u16 8)
  if ringDepth r - 1 ≤ x.fill then none
  else some ((s.engineWrite portIssuer (ringCtx r) (ringEntry r x.pi) bs).publish r (x.pi + 1) x.ci)

/-- A COMPLETION record (R290, R294): ring, index, status, DATA[9], bytes moved, transmit timestamp. -/
def completionBytes (ring idx : Nat) (fin : Nat × Nat × Nat × Nat) : List Byte :=
  leBytes 1 0x20 ++ leBytes 1 0 ++ leBytes 2 0xFFFF ++ leBytes 4 fin.2.2.1 ++ leBytes 24 0 ++
  leBytes 4 ring ++ leBytes 4 idx ++ leBytes 1 fin.1 ++ leBytes 1 fin.2.1 ++ leBytes 6 0 ++
  leBytes 8 fin.2.2.2 ++ leBytes 8 0

/-- Write the completion record of an entry, if it asks for one; none while its ring is full (R294). -/
def State.complete (s : State) (r : Rec) (o : RingOp) (fin : Nat × Nat × Nat × Nat) : Option State :=
  if !o.compl then some s else
  match ringRec s.rs o.cring with
  | none => some s
  | some c =>
    if ringCtx c ≠ ringCtx r then some s
    else s.produce c (completionBytes (r.u16 8) o.idx fin)

/-- Consume the entries at the head of a ring that have completed, in ring order (R294). -/
def State.flushRing (s : State) (r : Rec) : Nat → State
  | 0 => s
  | n + 1 =>
    let x := s.ring (r.u16 8)
    match x.ops with
    | [] => s
    | o :: rest =>
      match o.fin with
      | none => s
      | some fin =>
        match s.complete r o fin with
        | none => s
        | some s =>
          let x := s.ring (r.u16 8)
          State.flushRing ((s.setRing (r.u16 8) { x with ops := rest }).publish r x.pi (x.ci + 1)) r n

/-- Flush a ring as far as it goes. -/
def State.flush (s : State) (r : Rec) : State := s.flushRing r (s.ring (r.u16 8)).ops.length

/-- An entry that the engine has started ends: a status other than 0 is reported (R294). -/
def State.finishOp (s : State) (r : Rec) (idx : Nat) (fin : Nat × Nat × Nat × Nat) : State :=
  let x := s.ring (r.u16 8)
  let ops := x.ops.map fun o => if o.idx = idx ∧ o.fin.isNone = true then { o with fin := some fin } else o
  let s := s.setRing (r.u16 8) { x with ops := ops }
  let s := if fin.1 = 0 then s else s.raise portSite 0x0802 [r.u16 8, fin.1]
  s.flush r

/-- Does a ring wait for room in a completion ring (R294)? -/
def RingSt.waitsRoom (x : RingSt) : Bool :=
  match x.ops with
  | o :: _ => o.fin.isSome
  | [] => false

/-- The completion record of a control entry, whose ADDR and VA name what KEYX made (R302); none while its ring is
full (R294). -/
def State.completeControl (s : State) (r : Rec) (o : RingOp) (fin : Nat × Nat × Nat × Nat) : Option State :=
  let bs := completionBytes (r.u16 8) o.idx fin
  match (if o.compl then ringRec s.rs o.cring else none) with
  | none => some s
  | some c =>
    if ringCtx c ≠ ringCtx r then some s
    else s.produce c (bs.take 8 ++ leBytes 8 o.addr ++ leBytes 8 o.va ++ bs.drop 24)

/-- The control entries at the head of an inbound ring's list that have ended leave it, each once its record is written
(R294). -/
def State.flushControl (s : State) (r : Rec) : Nat → State
  | 0 => s
  | n + 1 =>
    match (s.ring (r.u16 8)).ops with
    | [] => s
    | o :: rest =>
      match o.fin with
      | none => s
      | some fin =>
        match s.completeControl r o fin with
        | none => s
        | some s => State.flushControl (s.setRing (r.u16 8) { s.ring (r.u16 8) with ops := rest }) r n

/-- COMPLETION_ROOM (R294): a ring whose completion waits tries again. -/
def execCompletionRoom (ring : Fin 32768) (s : State) : Out :=
  match ringRec s.rs ring with
  | none => .next s
  | some r => .next (if ringKind r = 1 then s.flushControl r (s.ring (r.u16 8)).ops.length else s.flush r)

/-- The fields of an entry (R289). -/
def ringOpOf (idx : Nat) (bs : List Byte) : RingOp :=
  let n := fun o l => leNat ((bs.drop o).take l)
  { idx := idx, op := n 0 1, len := n 4 4, addr := n 8 8, va := n 16 8, rkey := n 24 4, imm := n 28 4
    compl := decide (n 1 1 % 2 = 1), cring := n 2 2, flags := n 1 1
    first := n 32 1, kept := [], hurt := 0, fin := none }

/-- Index of the next entry that a ring's engine has not started. -/
def RingSt.next (x : RingSt) : Nat := (x.ci + x.ops.length) % 2 ^ 32

/-- Put an entry among those started. -/
def State.pushOp (s : State) (r : Rec) (o : RingOp) : State :=
  let x := s.ring (r.u16 8)
  s.setRing (r.u16 8) { x with ops := x.ops ++ [o] }

/-- Bytes of the entry at an index. -/
def State.entryBytes (s : State) (r : Rec) (idx : Nat) : List Byte :=
  s.readMem (gSite (ringEntry r idx)) (gOff (ringEntry r idx)) 64

/-- The engine reads the entry at an index: the checks and counts of the read (R24, R168, R173, R179). -/
def State.fetchEntry (s : State) (r : Rec) (idx : Nat) (flaws : Flaws) : State × Option Nat :=
  let x := s.engineRead portIssuer (ringCtx r) (ringEntry r idx) 64 flaws
  (x.1, x.2.1)

/-- Every pending entry of a queue pair in error completes with status 4, in ring order (R295); those not read yet are
read for it. -/
def State.failPending (s : State) (r : Rec) : State :=
  let x := s.ring (r.u16 8)
  let s := (List.range (x.fill - x.ops.length)).foldl (fun (s : State) i => (s.fetchEntry r (x.next + i) []).1) s
  let rest := (List.range (x.fill - x.ops.length)).map fun i =>
    ringOpOf ((x.next + i) % 2 ^ 32) (s.entryBytes r (x.next + i))
  let open_ := (x.ops ++ rest).filter fun o => o.fin.isNone
  let s := s.setRing (r.u16 8) { x with ops := (x.ops ++ rest).map fun o =>
    if o.fin.isNone then { o with fin := some (4, 0, 0, 0) } else o }
  (open_.foldl (fun (s : State) _ => s.raise portSite 0x0802 [r.u16 8, 4]) s).flush r

/-- A queue pair enters the error state (R295, R298). -/
def State.qpFails (s : State) (qpn : Nat) : State :=
  if qpn ∈ s.qpErr then s else
  let s := ({ s with qpErr := s.qpErr ++ [qpn] }).raise portSite 0x0803 [qpn % 2 ^ 16, qpn / 2 ^ 16]
  match s.qpRing qpn false with
  | some r => s.failPending r
  | none => s

/-! ### Rings of bell phases (R291 to R293, R295) -/

/-- The sides of a ring that a bell's phase holds: (record, producing). -/
def State.bellRings (s : State) (n : Nat) : List (Rec × Bool) :=
  let ctx := turnOf s.rs n
  let phase := s.phaseIn portSite ctx n
  s.ringRecs.flatMap fun r =>
    if ringCtx r ≠ ctx then [] else
    ([true, false].filter fun p => decide (ringSide r p = 2) && decide (ringWho r p % 4096 = phase)).map
      fun p => (r, p)

/-- E of a bell-side ring. -/
def ringE (r : Rec) : Nat := r.u16 52

/-- Reservations of earlier bells on a side of a ring. -/
def RingSt.heldBefore (x : RingSt) (prod : Bool) (n : Nat) : Nat :=
  (x.bells.filter fun b => decide (b.prod = prod) && b.held && decide (b.bell ≠ n)).length

/-- Does a ring have room for the slots of one bell more (R293)? -/
def roomFor (r : Rec) (x : RingSt) (n : Nat) : Bool :=
  decide (x.fill + (x.heldBefore true n + 1) * ringE r ≤ ringDepth r - 1)

/-- Guard start before bell `n` (R292 step 1, R293 step 1): entries and slots are reserved for it. -/
def State.ringReserve (s : State) (n : Nat) : State :=
  (s.bellRings n).foldl (fun (s : State) (r, prod) =>
    let x := s.ring (r.u16 8)
    if x.bells.any (fun b => decide (b.bell = n) && decide (b.prod = prod)) then s else
    let held := !prod || roomFor r x n
    s.setRing (r.u16 8) { x with bells := x.bells ++ [⟨n, prod, held, 0, false⟩] }) s

/-- RING_SLOT_RESERVE (R293): the oldest waiting reservation of a ring obtains its slots. -/
def execRingSlotReserve (ring : Fin 32768) (s : State) : Out :=
  match ringRec s.rs ring with
  | none => .next s
  | some r =>
    let x := s.ring ring
    match x.bells.find? (fun b => b.prod && !b.held) with
    | none => .next s
    | some b =>
      if roomFor r x b.bell then .next (s.setRing ring (x.setBell { b with held := true })) else .next s

/-- Does the ring engine work for bell `n` now: it executes, or its guard interval precedes it (R292)? -/
def State.ringWorks (s : State) (n : Nat) : Bool :=
  let b := s.bellAt portSite
  b.executing && (decide (n = b.bell) || (b.guard && decide (n = b.bell + 1)))

/-- Send a packet of the ring engine stamped with a bell (R291, R292). -/
def State.sendForBell (s : State) (n : Nat) (p : Packet) (len : Nat) (why : Purpose) : State :=
  match s.localFail portSite ringIssuer p.dstPkg.toNat p.dstSite.val with
  | some st => s.endTag portSite ringIssuer why p.ctx.toNat st [] []
  | none =>
    let p := { s.stamp portSite ringIssuer p with bell := BitVec.ofNat 8 n }
    s.sendTagged portSite ⟨ringIssuer, [], true, p, len, why⟩

/-- RING_COPY (R292 step 2): the reserved entries of a bell, once they all lie below PI, are copied to the
landing area. -/
def execRingCopy (ring : Fin 32768) (flaws : Flaws) (s : State) : Out :=
  match ringRec s.rs ring with
  | none => .next s
  | some r =>
    let x := s.ring ring
    let e := ringE r
    match x.bells.find? (fun b => !b.prod && decide (b.copy = 0)) with
    | none => .next s
    | some b =>
      let before := (x.bells.filter fun c => !c.prod && decide (c.bell < b.bell)).length
      let first := x.ci + before * e
      if !(s.ringWorks b.bell) || decide (x.fill < (before + 1) * e) then .next s else
      let head := min e (ringDepth r - first % ringDepth r)
      match s.engineRead ringIssuer (ringCtx r) (ringEntry r first) (64 * head) flaws with
      | (s, some _, _) => .next s
      | (s, none, bs) =>
        match (if head = e then (s, none, ([] : List Byte))
               else s.engineRead ringIssuer (ringCtx r) (r.u64 16) (64 * (e - head)) flaws) with
        | (s, some _, _) => .next s
        | (s, none, bs') =>
          let pieces := copyPieces (bs ++ bs')
          let (s, id) := s.beginXfer pieces.length (.ringCopy ring b.bell)
          let s := s.setRing ring ((s.ring ring).setBell { b with copy := 1 })
          let g := r.u64 56
          .next (pieces.foldl (fun (s : State) (o, c) =>
            s.sendForBell b.bell { Packet.zero with
              op := 0x01, last := true, ctx := BitVec.ofNat 8 (ringCtx r)
              dstPkg := BitVec.ofNat 16 (gPkg (g + o)), dstSite := siteOf (gSite (g + o))
              addr := BitVec.ofNat 43 (gOff (g + o)), len := BitVec.ofNat 13 c.length, payload := c }
              c.length (.xfer id o)) s)

/-- RING_READY_SIGNAL (R292 step 3, R293 step 2): in the bell itself, once its copy is written or its slots
are reserved, the ready token rises. -/
def execRingReadySignal (ring : Fin 32768) (s : State) : Out :=
  match ringRec s.rs ring with
  | none => .next s
  | some r =>
    let x := s.ring ring
    let t := s.bellAt portSite
    match x.bells.find? (fun b => decide (b.bell = t.bell) && !b.told &&
        (if b.prod then b.held else decide (b.copy = 2))) with
    | none => .next s
    | some b =>
      if !t.executing then .next s else
      let s := s.setRing ring (x.setBell { b with told := true })
      .next (s.sendForBell b.bell { Packet.zero with
        op := 0x20, vc := 5, ctx := BitVec.ofNat 8 (ringCtx r), dstPkg := BitVec.ofNat 16 s.pkg
        dstSite := siteOf (r.u8 64), len := 32
        payload := leBytes 2 (r.u16 54 % 4096) ++ leBytes 2 0 ++ leBytes 4 1 ++ leBytes 24 0 } 32 .dma)

/-- REPLAY or HOLD reaches the ring engine (R292, R293, R295): copies in flight are abandoned, their writes
cancelled and quarantined; the token is to be signalled again. -/
def State.ringAbandon (s : State) : State :=
  let ids := (s.xfers.filter fun x => match x.kind with
    | .ringCopy _ _ => true
    | _ => false).map (·.id)
  let s := { s with xfers := s.xfers.filter fun x => decide (x.id ∉ ids) }
  let s := (s.cancelTags portSite fun w => match w with
    | .xfer id _ => decide (id ∈ ids)
    | _ => false).1
  { s with rings := s.rings.map fun kv => (kv.1, { kv.2 with bells := kv.2.bells.map fun b =>
      { b with copy := if b.copy = 1 then 0 else b.copy, told := false } }) }

/-- The staged entries of a ring that are no NOP (R293); none without a reservation, or where the staging area cannot be read (log 11). -/
def State.stagedEntries (s : State) (r : Rec) (held : Bool) : State × List (List Byte) :=
  if held = false then (s, []) else
  match s.engineRead ringIssuer (ringCtx r) (r.u64 56) (64 * ringE r) [] with
  | (s, some _, _) => (s, [])
  | (s, none, bs) => (s, ((List.range (ringE r)).map fun i => (bs.drop (64 * i)).take 64).filter fun e =>
      decide (leNat (e.take 1) ≠ 0))

/-- CLEAR(n) reaches the ring engine (R292 step 4, R293 step 3): consumed entries are released, staged
entries that are no NOP are published. -/
def State.ringCommit (s : State) (n : Nat) : State :=
  s.ringRecs.foldl (fun (s : State) r =>
    let k := r.u16 8
    let mine := (s.ring k).bells.filter fun b => decide (b.bell = n)
    if mine = [] then s else
    let x := s.ring k
    let s := s.setRing k { x with bells := x.bells.filter fun b => decide (b.bell ≠ n) }
    let ci := if mine.any (fun b => !b.prod) then x.ci + ringE r else x.ci
    let (s, staged) := s.stagedEntries r (mine.any fun b => b.prod && b.held)
    let s := staged.zipIdx.foldl (fun (s : State) (bs, i) =>
      s.engineWrite ringIssuer (ringCtx r) (ringEntry r (x.pi + i)) bs) s
    s.publish r (x.pi + staged.length) ci) s

/-! ### The port (R296, R297, R305) -/

/-- Is the host port up? -/
def State.portUp (s : State) : Bool :=
  decide (2 ≤ s.getF Reg.HOST_PORT_STATUS Fld.HOST_PORT_STATUS_STATE)

/-- Where the link comes up: at 400 Gb/s under FORCE_400, in safelight or where 800GBASE-R has failed three
times in a row (R296). -/
def State.portRate (s : State) (ok800 : Bool) : Nat :=
  let slow := decide (s.getF Reg.HOST_PORT_CTRL Fld.HOST_PORT_CTRL_FORCE_400 = 1) || !ok800 ||
    decide (2 ≤ s.getF Reg.PWR_STATUS Fld.PWR_STATUS_STATE)
  if slow then 3 else 2

/-- The link goes down and trains again (R296). -/
def State.trainPort (s : State) (ok800 : Bool) : State :=
  { s.setF Reg.HOST_PORT_STATUS Fld.HOST_PORT_STATUS_STATE 1 with portNext := some (s.portRate ok800) }

/-- The link comes up once it has trained: with the tick that follows (DESIGN CHOICE within the 8 ms of R296, log 15). -/
def State.portTick (s : State) : State :=
  match s.portNext with
  | none => s
  | some st => { s.setF Reg.HOST_PORT_STATUS Fld.HOST_PORT_STATUS_STATE st with portNext := none }

/-- RETRAIN (R305): a write of 1 takes a link that has come up down and trains it again. -/
def execRetrain (ok800 : Bool) (s : State) : Out :=
  .next (if s.getF Reg.HOST_PORT_STATUS Fld.HOST_PORT_STATUS_STATE = 0 then s else s.trainPort ok800)

/-- FORCE_400 (R296): a change of the field changes the rate by training again. -/
def execForce400 (on : Bool) (ok800 : Bool) (s : State) : Out :=
  let old := s.getF Reg.HOST_PORT_CTRL Fld.HOST_PORT_CTRL_FORCE_400
  let s := s.setF Reg.HOST_PORT_CTRL Fld.HOST_PORT_CTRL_FORCE_400 (bit on)
  .next (if old = bit on ∨ s.getF Reg.HOST_PORT_STATUS Fld.HOST_PORT_STATUS_STATE = 0 then s
    else s.trainPort ok800)

end Sys2Proof.Machine
end

