-- ==== Sys2Proof/Machine/Gidric.lean ====
section
/-!
DEFINITION. The Gidric image (R309 to R315): the container, its segments and records as they lie in a
slot, the faults of class 0x01 and 0x0A (R312, R327), and the configuration that a full image, a variant
and partial images make together (R323 to R325).
-/

namespace Sys2Proof.Machine

open Sys2Proof

/-! ### Faults (R317, R327) -/

/-- A fault: reason code, segment TYPE, variant, image offset. -/
structure Flt where
  code : Nat
  seg : Nat
  var : Nat
  off : Nat
  deriving DecidableEq, Repr

/-- The fault that is reported (R317): the lowest code, then the lowest offset. -/
def firstFlt (fs : List Flt) : Option Flt :=
  fs.foldl (fun (m : Option Flt) f => match m with
    | none => some f
    | some x => if f.code < x.code ∨ (f.code = x.code ∧ f.off < x.off) then some f else some x) none

/-- A fault where a condition holds. -/
def fltIf (b : Bool) (f : Flt) : List Flt := if b then [f] else []

/-- A fault at a record. -/
def Rec.flt (r : Rec) (code : Nat) : Flt := ⟨code, r.seg, r.variant, r.off⟩

/-- A fault at a record where a condition holds. -/
def Rec.fltIf (r : Rec) (b : Bool) (code : Nat) : List Flt := if b then [r.flt code] else []

/-! ### The container (R309, R310) -/

/-- Where an image lies: bridge, base offset and size of its slot. -/
structure Slot where
  site : Nat
  base : Nat
  size : Nat
  deriving DecidableEq, Repr

/-- Bytes of an image in its slot. -/
def State.img (s : State) (p : Slot) (o n : Nat) : List Byte := s.readMem p.site (p.base + o) n
/-- A number of an image. -/
def State.imgNum (s : State) (p : Slot) (o n : Nat) : Nat := leNat (s.img p o n)
/-- Is a byte range of an image 0? -/
def State.imgZero (s : State) (p : Slot) (o n : Nat) : Bool := (s.img p o n).all fun b => decide (b = 0)

/-- A segment-table entry (R310): its own offset, TYPE, records, offset, length. -/
structure SegEnt where
  at_ : Nat
  type : Nat
  count : Nat
  off : Nat
  len : Nat
  deriving DecidableEq, Repr

/-- TOTAL and NSEG of the header. -/
def State.imgTotal (s : State) (p : Slot) : Nat := s.imgNum p 8 8
def State.imgSegs (s : State) (p : Slot) : Nat := s.imgNum p 16 2

/-- The segment table. -/
def State.segTable (s : State) (p : Slot) : List SegEnt :=
  (List.range (s.imgSegs p)).map fun i =>
    let o := 256 + 32 * i
    ⟨o, s.imgNum p o 1, s.imgNum p (o + 4) 4, s.imgNum p (o + 8) 8, s.imgNum p (o + 16) 8⟩

/-- Faults 0x0101 and 0x0102 of the header (R309, R327). -/
def State.headerFaults (s : State) (p : Slot) (part : Bool) : List Flt :=
  let kind := s.imgNum p 6 1
  let ctx := s.imgNum p 7 1
  let total := s.imgTotal p
  let sigOff := s.imgNum p 64 8
  let sigLen := s.imgNum p 72 4
  let limit := if part then 2 ^ 25 else 2 ^ 30
  let noSig := decide (sigOff = 0) && decide (sigLen = 0)
  let sigOk := noSig || (decide (sigOff % 64 = 0) && decide (total ≤ sigOff) && decide (sigLen ≠ 0))
  fltIf (decide (s.imgNum p 0 4 ≠ 0x43524447) || decide (s.imgNum p 4 2 ≠ 1) || decide (kind ≠ bit part) ||
    decide ((ctx = 0) ≠ (part = false)) || !sigOk) ⟨0x0101, 0, 0, 0⟩ ++
  fltIf (decide (limit < total + sigLen) || decide (p.size < total) ||
    (!noSig && decide (p.size < sigOff + sigLen))) ⟨0x0102, 0, 0, 0⟩

/-- The segments that an image kind must hold and may hold (R310). -/
def segRequired (part : Bool) : List Nat :=
  if part then [1, 9, 0xC] else [1, 2, 3, 4, 5, 6, 7, 8, 9, 0xA, 0xB, 0xC, 0xD, 0xF]
def segAllowed (part : Bool) : List Nat :=
  if part then [1, 9, 0xA, 0xB, 0xC, 0xD, 0xE] else segRequired false ++ [0xE]

/-- Faults 0x0103 and 0x0104 of the segment table (R310). -/
def State.tableFaults (s : State) (p : Slot) (part : Bool) : List Flt :=
  let total := s.imgTotal p
  let es := s.segTable p
  let at103 := fun (e : SegEnt) => (⟨0x0103, e.type % 16, 0, e.at_⟩ : Flt)
  let at104 := fun (e : SegEnt) => (⟨0x0104, e.type % 16, 0, e.at_⟩ : Flt)
  let own := es.flatMap fun e =>
    fltIf (decide (e.off % 64 ≠ 0) || decide (e.off < 256 + 32 * es.length) || decide (total < e.off + e.len))
      (at103 e) ++
    fltIf (decide (e.type = 0) || decide (15 < e.type) || !(decide (e.type ∈ segAllowed part))) (at104 e)
  let pairs := (es.zip (es.drop 1)).flatMap fun (a, b) =>
    fltIf (decide (b.type < a.type) || decide (b.off < a.off + a.len)) (at103 b) ++
    fltIf (decide (b.type = a.type)) (at104 b)
  let last := match es.getLast? with
    | some e => fltIf (decide (e.off + e.len ≠ total)) (at103 e)
    | none => [⟨0x0103, 0, 0, 256⟩]
  let missing := (segRequired part).flatMap fun t =>
    fltIf (!(es.any fun e => decide (e.type = t))) ⟨0x0104, t, 0, 256⟩
  own ++ pairs ++ last ++ missing

/-- Fault 0x0105: DIGEST is the SHA-256 over bytes 256 to TOTAL − 1 (R309). -/
def State.digestFaults (s : State) (p : Slot) : List Flt :=
  fltIf (decide (s.img p 32 32 ≠ sha256 (s.img p 256 (s.imgTotal p - 256)))) ⟨0x0105, 0, 0, 0⟩

/-! ### Records (R311, R313, R315) -/

/-- Cut a segment's bytes, at image offset `off`, into records; the offset of a record whose LENGTH is
malformed ends them (R311). -/
def cutRecs (seg var : Nat) : Nat → Nat → List Byte → List Rec × Option Nat
  | 0, _, _ => ([], none)
  | fuel + 1, off, bs =>
    if bs = [] then ([], none) else
    let n := leNat ((bs.drop 4).take 4)
    if n < 8 ∨ n % 8 ≠ 0 ∨ bs.length < n then ([], some off) else
    let (rs, bad) := cutRecs seg var fuel (off + n) (bs.drop n)
    (⟨seg, var, leNat (bs.take 2), off, bs.take n⟩ :: rs, bad)

/-- Round up to a multiple of 8. -/
def pad8 (n : Nat) : Nat := (n + 7) / 8 * 8

/-- The LENGTH that a record's kind gives it (R313, R315), none for an unknown kind. POWER's length depends
on its context's CYCLE. -/
def recLen (r : Rec) : Option Nat :=
  match r.seg, r.kind with
  | 1, 1 => some 64
  | 2, 1 => some 32
  | 3, 1 => some 24
  | 4, 1 => some 16
  | 4, 2 => some (24 + 16 * r.u8 10)
  | 5, 1 => some 32
  | 5, 2 => some 16
  | 5, 3 => some 24
  | 5, 4 => some 24
  | 5, 5 => some 262152
  | 5, 6 => some 65552
  | 5, 8 => some 24
  | 5, 9 => some 131080
  | 5, 10 => some 131080
  | 6, 1 => some (pad8 (16 + 4 * r.u8 10))
  | 7, 1 => some 24
  | 7, 2 => some (pad8 (16 + r.u16 8))
  | 8, 1 => some 16
  | 9, 1 => some 64
  | 9, 2 => some 32
  | 10, 1 => some 32
  | 10, 2 => some 32
  | 10, 3 => some 32
  | 11, 1 => some 80
  | 12, 1 => some 16
  | 12, 2 => some (32 + 64 * r.u32 16 + 16 * r.u8 14 + 8 * r.u8 11 + 24 * r.u32 24)
  | 12, 3 => some r.bytes.length
  | 12, 4 => some (pad8 (32 + r.u32 20))
  | 12, 5 => some 16
  | 13, 1 => some (40 + 48 * r.u32 36)
  | 14, 1 => some r.bytes.length
  | 15, 1 => some 16
  | 15, 2 => some 24
  | _, _ => none

/-- Byte ranges `(offset, length)` of a record's fields (R313, R315); every other byte is reserved or
padding. -/
def recFields (r : Rec) : List (Nat × Nat) :=
  match r.seg, r.kind with
  | 1, 1 => [(8, 51)]
  | 2, 1 => [(8, 2), (16, 12)]
  | 3, 1 => [(8, 6)]
  | 4, 1 => [(8, 2)]
  | 4, 2 => [(8, 3), (12, 8)] ++ (List.range (r.u8 10)).flatMap fun i =>
      [(24 + 16 * i, 1), (26 + 16 * i, 2), (32 + 16 * i, 8)]
  | 5, 1 => [(8, 6)]
  | 5, 2 => [(8, 1), (10, 3), (14, 2)]
  | 5, 3 => [(8, 3), (12, 8)]
  | 5, 4 => [(8, 10)]
  | 5, 5 => [(8, 262144)]
  | 5, 6 => [(8, 2), (16, 65536)]
  | 5, 8 => [(8, 5), (16, 4)]
  | 5, 9 => [(8, 131072)]
  | 5, 10 => [(8, 131072)]
  | 6, 1 => [(8, 4)] ++ (List.range (r.u8 10)).flatMap fun i => [(16 + 4 * i, 1), (18 + 4 * i, 2)]
  | 7, 1 => [(8, 11)]
  | 7, 2 => [(8, 2), (16, r.u16 8)]
  | 8, 1 => [(8, 2), (12, 4)]
  | 9, 1 => [(8, 2), (16, 48)]
  | 9, 2 => [(8, 3), (12, 20)]
  | 10, 1 => [(8, 2), (16, 16)]
  | 10, 2 => [(8, 1), (16, 16)]
  | 10, 3 => [(8, 3), (16, 16)]
  | 11, 1 => [(8, 41), (50, 15)]
  | 12, 1 => [(8, 1), (10, 2)]
  | 12, 2 =>
    let w := 32 + 64 * r.u32 16
    let l := w + 16 * r.u8 14
    let e := l + 8 * r.u8 11
    [(8, 7), (16, 12), (32, 64 * r.u32 16)] ++ (List.range (r.u8 14)).map (fun i => (w + 16 * i, 14)) ++
    (List.range (r.u8 11)).map (fun i => (l + 8 * i, 4)) ++
    (List.range (r.u32 24)).flatMap fun i => [(e + 24 * i, 2), (e + 24 * i + 8, 16)]
  | 12, 3 => [(8, 2), (16, r.bytes.length - 16)]
  | 12, 4 => [(8, 3), (12, 2), (16, 12), (32, r.u32 20)]
  | 12, 5 => [(8, 3)]
  | 13, 1 => [(8, 22), (32, 8)] ++ (List.range (r.u32 36)).map fun i => (40 + 48 * i, 31)
  | 14, 1 => [(8, r.bytes.length - 8)]
  | 15, 1 => [(8, 1), (12, 4)]
  | 15, 2 => [(8, 2), (12, 12)]
  | _, _ => [(8, r.bytes.length - 8)]

/-- Reserved bits inside the fields of a record (R246, R313, R315). -/
def recBits (r : Rec) : Bool :=
  match r.seg, r.kind with
  | 5, 3 => decide (r.u8 10 < 2)
  | 5, 5 => (words4 (r.bytes.drop 8)).all fun e => decide (e / 2 ^ 10 % 64 = 0)
  | 9, 1 => decide (r.u8 9 < 2)
  | 9, 2 => decide (r.u8 10 < 8)
  | 11, 1 => [(12, 32), (13, 40)].all fun (k, o) =>
      if r.u8 k = 0 then decide (r.u64 o < 2 ^ 24) else if r.u8 k = 2 then decide (r.u64 o < 4096) else true
  | _, _ => true

/-- Does a field of a record leave the range that its layout gives it (R313, R315), where no reason of R327 names that
range? -/
def recRange (r : Rec) : Bool :=
  match r.seg, r.kind with
  | 2, 1 => decide (1 < r.u8 9)
  | 5, 2 => decide (67 < r.u8 8) || decide (r.u16 14 = 0) || decide (500 < r.u16 14)
  | 5, 4 => decide (r.u8 8 < 64) || decide (67 < r.u8 8) || decide (r.u8 9 = 0) || decide (8 < r.u8 9)
  | 8, 1 => decide (31 < r.u8 8) || decide (8 < r.u8 9)
  | 12, 3 => decide (31 < r.u8 9) || (r.bytes.drop 16).any fun b => decide (15 < b.toNat)
  | 15, 1 => decide (3 < r.u8 8)
  | _, _ => false

/-- Are the reserved bytes of a record, header and padding included, 0 (R4, R311)? -/
def recClean (r : Rec) : Bool :=
  let fs := (0, 2) :: (4, 4) :: recFields r
  r.bytes.zipIdx.all fun (b, i) => decide (b = 0) || fs.any (fun (o, n) => decide (o ≤ i) && decide (i < o + n))

/-- The embedded segments of a variant (R315): TYPE, offset within the record, length; whether they fill the record;
whether the reserved bytes of their sub-headers are 0. -/
def altSegs : Nat → Nat → List Byte → List (Nat × Nat × Nat) × Bool × Bool
  | 0, _, bs => ([], decide (bs = []), true)
  | n + 1, o, bs =>
    let len := leNat ((bs.drop 8).take 8)
    if bs.length < 16 + len then ([], false, true) else
    let (es, ok, clean) := altSegs n (o + 16 + len) (bs.drop (16 + len))
    ((leNat (bs.take 1), o + 16, len) :: es, ok, clean && ((bs.drop 1).take 7).all fun b => decide (b = 0))

/-- Segments that a variant may replace (R323, R325). -/
def altAllowed (part : Bool) : List Nat :=
  if part then [9, 0xA, 0xB, 0xC, 0xD] else [2, 4, 5, 7, 8, 9, 0xA, 0xB, 0xC, 0xD]

/-- What is read of an image: the segments as `(variant, TYPE, table offset)`, its records, faults of
class 0x01. -/
structure Parsed where
  segs : List (Nat × Nat × Nat)
  recs : List Rec
  faults : List Flt
  deriving DecidableEq, Repr

/-- Read the records of one segment at an image offset. -/
def readSeg (seg var tab off : Nat) (bs : List Byte) : Parsed :=
  let (rs, bad) := cutRecs seg var bs.length off bs
  ⟨[(var, seg, tab)], rs, match bad with
    | some o => [⟨0x0106, seg, var, o⟩]
    | none => []⟩

/-- Join what two parts of an image read. -/
def Parsed.join (a b : Parsed) : Parsed := ⟨a.segs ++ b.segs, a.recs ++ b.recs, a.faults ++ b.faults⟩

/-- Read a variant record's embedded segments (R315, R325). Its own entry says that the variant is there, though it replaces
nothing. -/
def readAlt (part : Bool) (r : Rec) : Parsed :=
  let v := r.u8 8
  let (es, ok, clean) := altSegs (r.u8 9) 16 (r.bytes.drop 16)
  let fs := r.fltIf (!ok || decide (v = 0) || decide (15 < v)) 0x0106 ++
    es.flatMap (fun (t, o, _) =>
      fltIf (!(decide (t ∈ altAllowed part)) || (es.any fun e => decide (e.1 = t) && decide (e.2.1 < o)))
        ⟨0x0104, t % 16, v % 16, r.off + o - 16⟩) ++
    r.fltIf (!clean || ((r.bytes.drop 10).take 6).any fun b => decide (b ≠ 0)) 0x0107
  es.foldl (fun (p : Parsed) (t, o, n) =>
    p.join (readSeg t v (r.off + o - 16) (r.off + o) ((r.bytes.drop o).take n))) ⟨[(v, segAlt, r.off)], [], fs⟩

/-- Read every segment of an image whose container is sound. -/
def State.readImage (s : State) (p : Slot) (part : Bool) : Parsed :=
  let base := (s.segTable p).foldl (fun (a : Parsed) e =>
    let b := readSeg e.type 0 e.at_ e.off (s.img p e.off e.len)
    let n := fltIf (b.faults.isEmpty && decide (b.recs.length ≠ e.count)) ⟨0x0106, e.type, 0, e.at_⟩
    (a.join b).join ⟨[], [], n⟩) ⟨[], [], []⟩
  let alts := base.recs.filter fun r => decide (r.seg = segAlt) && decide (r.kind = 1)
  let dup := (alts.zip (alts.drop 1)).flatMap fun (_, b) =>
    b.fltIf (alts.any fun c => decide (c.off < b.off) && decide (c.u8 8 = b.u8 8)) 0x0106
  alts.foldl (fun (a : Parsed) r => a.join (readAlt part r)) (base.join ⟨[], [], dup⟩)

/-- Faults 0x0106 and 0x0107 of the records one by one, and the zeros between segments (R310, R311). A value out of a
range that R327 gives no reason for is 0x0106 (DESIGN CHOICE, log 48). -/
def State.recordFaults (s : State) (p : Slot) (q : Parsed) : List Flt :=
  let own := q.recs.flatMap fun r =>
    r.fltIf (decide (recLen r ≠ some r.bytes.length) || recRange r) 0x0106 ++ r.fltIf (!(recClean r) || !(recBits r)) 0x0107
  let es := s.segTable p
  let gap := fun (o e : Nat) => !(s.imgZero p o (e - o))
  let gaps := ((256 + 32 * es.length) :: es.map (fun e => e.off + e.len)).zip es
  let tab := gaps.flatMap fun (o, e) => fltIf (gap o e.off) ⟨0x0107, e.type, 0, e.at_⟩
  let ents := es.flatMap fun e =>
    fltIf (!(s.imgZero p (e.at_ + 1) 3) || !(s.imgZero p (e.at_ + 24) 8)) ⟨0x0107, e.type, 0, e.at_⟩
  own ++ tab ++ ents ++
    fltIf (!(s.imgZero p 18 14) || !(s.imgZero p 76 180)) ⟨0x0107, 0, 0, 0⟩

/-! ### The effective configuration (R323 to R325) -/

/-- The context that a record belongs to, if it belongs to one (R323). -/
def recCtx (r : Rec) : Option Nat :=
  match r.seg, r.kind with
  | 9, 1 => some (r.u8 8)
  | 9, 2 => some (r.u8 8)
  | 10, 3 => some (r.u8 8)
  | 11, 1 => some (r.u8 10)
  | 12, 5 => some (r.u8 10)
  | 12, _ => some (r.u8 8)
  | 13, 1 => some (r.u8 10)
  | _, _ => none

/-- The records of an image under a variant: each segment comes from the variant if it replaces it, else
from the base (R325). -/
def planRecs (recs : List Rec) (segs : List (Nat × Nat)) (v : Nat) : List Rec :=
  recs.filter fun r => decide (r.seg ≠ segAlt) &&
    decide (r.variant = if decide ((v, r.seg) ∈ segs) then v else 0)

/-- The records of a partial image under a variant of the full image: its own variant of that number if
it has one, else its main records (R323). -/
def partRecs (recs : List Rec) (segs : List (Nat × Nat)) (v : Nat) : List Rec :=
  (planRecs recs segs (if segs.any (fun e => decide (e.1 = v)) then v else 0)).filter fun r =>
    decide (r.seg ≠ segIdent)

/-- Lay a partial image over a configuration: the context's records are replaced (R324). -/
def layPart (rs : List Rec) (ctx : Nat) (part : List Rec) : List Rec :=
  (rs.filter fun r => decide (recCtx r ≠ some ctx)) ++ part

/-- The configuration that a full image under a variant and partial images make. -/
def effective (full : Image) (v : Nat) (parts : List Image) : List Rec :=
  parts.foldl (fun rs p => layPart rs p.ctx (partRecs p.recs p.segs v)) (planRecs full.recs full.segs v)

/-- The variants of an image. -/
def variantsOf (segs : List (Nat × Nat)) : List Nat :=
  (List.range 16).filter fun v => decide (0 < v) && segs.any fun e => decide (e.1 = v)

/-! ### Record counts (R313) -/

/-- Segments of which a record kind occurs exactly `n` times, once for each value of a key. -/
def recCounts : List (Nat × Nat × List Nat × (Rec → Nat)) :=
  [(1, 1, [0], fun _ => 0), (2, 1, List.range 32, (·.u8 8)), (3, 1, [0], fun _ => 0),
   (4, 1, List.range 32, (·.u8 8)), (5, 1, [0], fun _ => 0), (5, 5, [0], fun _ => 0),
   (5, 9, [0], fun _ => 0), (5, 10, [0], fun _ => 0), (7, 1, [0], fun _ => 0), (7, 2, [0], fun _ => 0),
   (10, 1, List.range 8, (·.u8 8)), (10, 2, (List.range 12).map (8 + ·), (·.u8 8))]

/-- Values that a list of numbers holds more than once or that its key set lacks. -/
def keysWrong (want got : List Nat) : Bool :=
  want.any (fun k => !(decide (k ∈ got))) || got.any (fun k => !(decide (k ∈ want))) ||
  decide (got.length ≠ want.length)

/-- The table offset of a segment in a plan, and the variant that holds it. -/
def segAt (segs : List (Nat × Nat × Nat)) (v seg : Nat) : Nat × Nat :=
  match segs.find? (fun e => decide (e.1 = v) && decide (e.2.1 = seg)) with
  | some e => (v, e.2.2)
  | none => match segs.find? (fun e => decide (e.1 = 0) && decide (e.2.1 = seg)) with
    | some e => (0, e.2.2)
    | none => (0, 256)

/-- Faults 0x0106 of a plan's record counts: exactly one, one per site, neighbour, domain or context, and
POWER records of their context's length (R313, R315, R317). A partial image holds IDENT alone of those kinds (R323). -/
def countFaults (segs : List (Nat × Nat × Nat)) (rs : List Rec) (v : Nat) (part : Bool) : List Flt :=
  let at_ := fun seg => let e := segAt segs v seg; (⟨0x0106, seg, v, e.2⟩ : Flt)
  let fixed := (recCounts.filter fun k => !part || decide (k.1 = segIdent)).flatMap fun (seg, kind, keys, f) =>
    fltIf (keysWrong keys ((recsOf rs seg kind).map f)) (at_ seg)
  let peers := ((recsOf rs segLinkmap 2).map (·.u16 10)).eraseDups
  let hops := fltIf (!part && keysWrong peers ((recsOf rs segLinkmap 6).map (·.u16 8))) (at_ segLinkmap)
  let doms := (recsOf rs segLinkmap 8).map (·.u16 8)
  let dom := fltIf (!part && decide (doms.eraseDups.length ≠ doms.length)) (at_ segLinkmap)
  let used := ((recsOf rs segPrograms 2) ++ (recsOf rs segPrograms 3)).map (·.u8 8) |>.filter fun c => decide (c = 0) || decide (c ∈ ctxList rs)
  let cyc := (recsOf rs segPrograms 1).map (·.u8 8)
  let cycles := fltIf (decide (cyc.eraseDups.length ≠ cyc.length) ||
    (used ++ (ctxList rs).filter (· ≠ 0)).any (fun c => !(decide (c ∈ cyc)))) (at_ segPrograms)
  let power := (recsOf rs segPrograms 3).flatMap fun r =>
    let l := cycleLen rs (r.u8 8)
    (r.fltIf (decide (r.bytes.length ≠ pad8 (16 + l))) 0x0106 ++
      r.fltIf ((r.bytes.drop (16 + l)).any fun b => decide (b ≠ 0)) 0x0107).map fun f => { f with var := v }
  fixed ++ hops ++ dom ++ cycles ++ power

/-! ### Class 0x01 and the signature -/

/-- Faults 0x0108 and 0x010A (R313, R324). -/
def State.identFaults (s : State) (q : Parsed) (part : Bool) (ctx : Nat) : List Flt :=
  let order := s.getF Reg.CFG_IDENT Fld.CFG_IDENT_ORDER
  let step := s.getF Reg.CFG_IDENT Fld.CFG_IDENT_STEPPING
  ((recsOf q.recs segIdent 1).flatMap fun r =>
    r.fltIf ((decide (r.u16 56 ≠ 0) && decide (r.u16 56 ≠ order)) || decide (step < r.u8 58)) 0x0108) ++
  fltIf (part && s.cfg.pendPart.any fun i => decide (i.ctx = ctx)) ⟨0x010A, 0, 0, 0⟩

/-- The faults of class 0x01 of an image in a slot, with what was read of it: each check rests on those
before it, and the lowest code is reported (R317). -/
def State.containerFaults (s : State) (p : Slot) (part : Bool) : Parsed × List Flt :=
  let none_ : Parsed := ⟨[], [], []⟩
  let h := s.headerFaults p part
  if h ≠ [] then (none_, h) else
  let t := s.tableFaults p part
  if t ≠ [] then (none_, t) else
  let d := s.digestFaults p
  if d ≠ [] then (none_, d) else
  let q := s.readImage p part
  let ss := q.segs.map fun e => (e.1, e.2.1)
  let plans := 0 :: variantsOf ss
  let fs := q.faults ++ s.recordFaults p q ++
    plans.flatMap (fun v => countFaults q.segs (planRecs q.recs ss v) v part) ++
    s.identFaults q part (s.imgNum p 7 1)
  (q, fs)

/-- Faults of class 0x0A (R312): while an operator key is installed, the signature is required, has the
form of HSS with LMS and SHA-256 (RFC 8554: 5,236 bytes for the two levels of R442 are not prescribed, so
its first word counts the levels), and verifies over header bytes 0-63. -/
def State.signatureFaults (s : State) (p : Slot) (key : Option (List Byte)) : List Flt :=
  match key with
  | none => []
  | some k =>
    let off := s.imgNum p 64 8
    let len := s.imgNum p 72 4
    if len = 0 then [⟨0x0A01, 0, 0, 0⟩]
    else
      let sig := s.img p off len
      if !(Config.hssFormed sig) then [⟨0x0A02, 0, 0, 0⟩]
      else if !(Config.hssVerify k (s.img p 0 64) sig) then [⟨0x0A03, 0, 0, 0⟩] else []

end Sys2Proof.Machine
end

