-- ==== Sys2Proof/Machine/ProgCheck.lean ====
section
/-!
DEFINITION. The ENABLE check of programs, reductions and bell-side rings: reasons of class 0x09 (R81, R94,
R99, R100, R105, R110, R114, R115, R140 to R143, R264, R291, R327, R439), and the declared sets that
other classes use too.
-/

namespace Sys2Proof.Machine

open Sys2Proof

/-! ### Ranges -/

/-- Do two ranges share a byte? -/
def rangesMeet (a b : Nat × Nat) : Bool := meets a.1 a.2 b.1 b.2

/-- The shared bytes of two ranges. -/
def rangeInter (a b : Nat × Nat) : Nat × Nat :=
  let lo := max a.1 b.1
  (lo, min (a.1 + a.2) (b.1 + b.2) - lo)

/-- Do ranges meet, but for bytes of `except`? -/
def clash (as bs except : List (Nat × Nat)) : Bool :=
  as.any fun a => bs.any fun b => rangesMeet a b && !(inRanges except (rangeInter a b))

/-- The record at which a running sum of amounts, from `base`, first exceeds a limit (R317). -/
def overAt (base limit : Nat) : List (Rec × Nat) → Option Rec
  | [] => none
  | (r, n) :: rest => if limit < base + n then some r else overAt (base + n) limit rest

/-- The fault of a sum over records. -/
def overFlt (code base limit : Nat) (items : List (Rec × Nat)) : List Flt :=
  match overAt base limit items with
  | some r => [r.flt code]
  | none => []

/-! ### A plan's programs and sets (R86, R141) -/

/-- The descriptors of a program. -/
def progDescs (r : Rec) : List (BitVec 512) := (List.range (progLen r)).map (progDesc r)
/-- The context-phases that hold a program. -/
def progBells (rs : List Rec) : List (Nat × Nat) := ((progRecs rs).map fun r => (r.u8 8, r.u16 12)).eraseDups

/-- May slot `j` of a program hold an operation (R115)? -/
def slotAllows (r : Rec) (j op : Nat) : Bool :=
  match (progSlots r)[j]? with
  | some (_, ops) => decide (ops / 2 ^ op % 2 = 1)
  | none => false

/-- May slot `j` of a program write by plain writes: an MMA, a VEC or a MOVE does (R141)? -/
def slotPlain (r : Rec) (j : Nat) : Bool := slotAllows r j 1 || slotAllows r j 2 || slotAllows r j 3

/-- A set of a program: 0 READ, 1 WRITE, 2 LOCAL, 3 COMMIT, with what its slots' and index envelopes add
(R141). -/
def progRanges (r : Rec) (kind : Nat) : List (Nat × Nat) :=
  let es := progSets r
  let own := (es.filter fun e => decide (e.kind = kind)).map fun e => (e.base, e.len)
  let slots := (es.filter fun e => (decide (kind = 0) && decide (e.kind = 4)) ||
    (decide (kind = 1) && decide (e.kind = 5) && slotPlain r e.slot) ||
    (decide (kind = 3) && decide (e.kind = 5) && slotAllows r e.slot 9)).map fun e => (e.base, e.len)
  let idx := (progDescs r).filterMap fun d => match indexEnvelope d with
    | some (w, a, n) => if (kind = 0 ∧ w = false) ∨ (kind = 1 ∧ w = true) then some (a, n) else none
    | none => none
  own ++ slots ++ idx

/-- The union of a set over the programs of a bell. -/
def bellRanges (rs : List Rec) (ctx phase kind : Nat) : List (Nat × Nat) :=
  (bellProgs rs ctx phase).flatMap fun r => progRanges r kind

/-- The TURNS list. -/
def turnList (rs : List Rec) : List Nat :=
  match recFind rs segBell 2 anyRec with
  | some r => (List.range (r.u16 8)).map fun i => r.u8 (16 + i)
  | none => []

/-- The context of bell `k` of a TURNS list. -/
def turnAt (ts : List Nat) (k : Nat) : Nat := if ts.length = 0 then 0 else ts.getD (k % ts.length) 0

/-- The pairs of a context's own bells within `D` bells: by distance in bells and in the context's own
phases, the bell itself among them (R141). -/
def ownPairs (rs : List Rec) (ctx : Nat) : List (Nat × Nat) :=
  let ts := turnList rs
  if ctx ∉ ts then [] else
  (0, 0) :: ((List.range ts.length).flatMap fun k =>
    if turnAt ts k ≠ ctx then [] else
    ((List.range (depthD rs)).map (· + 1)).filterMap fun d =>
      if turnAt ts (k + d) ≠ ctx then none
      else some (d, ((List.range d).filter fun j => decide (turnAt ts (k + j + 1) = ctx)).length)).eraseDups

/-- Can a bell of context `b` follow a bell of context `a` within `D` bells (R141)? -/
def canFollow (rs : List Rec) (a b : Nat) : Bool :=
  let ts := turnList rs
  (List.range ts.length).any fun k => decide (turnAt ts k = a) &&
    (List.range (depthD rs)).any fun d => decide (turnAt ts (k + d + 1) = b)

/-- The bells that can follow a bell of a context and phase within `D`, with their distance 0 or not:
(context, phase, is it the bell itself). -/
def laterBells (rs : List Rec) (ctx phase : Nat) : List (Nat × Nat × Bool) :=
  let l := cycleLen rs ctx
  ((ownPairs rs ctx).map fun (d, e) => (ctx, (phase + e) % l, decide (d = 0))) ++
  (progBells rs).filterMap fun (c, p) =>
    if c ≠ ctx ∧ canFollow rs ctx c = true then some (c, p, false) else none

/-- R140, R141, R143: a later bell writes bytes that an earlier one reads, or reads bytes that an earlier
one commits. Both programs are named. -/
def replayFaults (rs : List Rec) : List Flt :=
  (progBells rs).flatMap fun (ctx, phase) =>
    let early := bellProgs rs ctx phase
    let locals := bellRanges rs ctx phase 2
    (laterBells rs ctx phase).flatMap fun (c, p, same) =>
      (bellProgs rs c p).flatMap fun m => early.flatMap fun i =>
        let bad := clash (progRanges i 0) (progRanges m 1) locals
        let com := !same && clash (progRanges i 3) (progRanges m 0) []
        i.fltIf bad 0x0908 ++ m.fltIf bad 0x0908 ++ i.fltIf com 0x090A ++ m.fltIf com 0x090A

/-- R439: a bell that reads core store or cluster memory outside its LOCAL set before a switch. -/
def switchFaults (rs : List Rec) (pkg : Nat) : List Flt :=
  let ts := turnList rs
  (progRecs rs).flatMap fun r =>
    let ctx := r.u8 8
    let soon := (List.range ts.length).any fun k => decide (turnAt ts k = ctx) &&
      (List.range (depthD rs)).any fun d => decide (turnAt ts (k + d) ≠ turnAt ts (k + d + 1))
    let k := progSite r
    let onDie := fun (a : Nat × Nat) =>
      (List.range 12).any (fun j => rangesMeet a (gAddr pkg k (clusterBase j), clusterSize)) ||
      (List.range 96).any (fun c => rangesMeet a (gAddr pkg k (coreStoreBase c), coreStoreSize))
    let locals := bellRanges rs ctx (r.u16 12) 2
    r.fltIf (soon && (progRanges r 0).any fun a => onDie a && !(inRanges locals a)) 0x0908

/-- R141, R143: two programs of one bell on different cores with overlapping WRITE or COMMIT sets. -/
def sameBellFaults (rs : List Rec) : List Flt :=
  (progBells rs).flatMap fun (ctx, phase) =>
    let ps := bellProgs rs ctx phase
    ps.flatMap fun a => ps.flatMap fun b =>
      if a.off = b.off ∧ a.seg = b.seg then [] else
      a.fltIf (clash (progRanges a 1) (progRanges b 1) []) 0x0909 ++
      a.fltIf (clash (progRanges a 3) (progRanges b 3) []) 0x090A

/-! ### Descriptors and control flow (R94, R99, R104, R106) -/

/-- Targets of a descriptor at an index; none ends the path. -/
def flowFrom (r : Rec) (i : Nat) : List Int :=
  let d := progDesc r i
  if dOp d = 10 then []
  else if dOp d = 7 then [(i : Int) + 1, (i : Int) + sint32 (df d 223 192)]
  else [(i : Int) + 1]

/-- The indices that a list of indices reaches, itself among them. -/
def reachFrom (r : Rec) (n : Nat) : Nat → List Nat → List Nat
  | 0, seen => seen
  | fuel + 1, seen =>
    let next := (seen.flatMap (flowFrom r)).filterMap fun (t : Int) =>
      if 0 ≤ t ∧ t < n ∧ !(decide (t.toNat ∈ seen)) then some t.toNat else none
    if next = [] then seen else reachFrom r n fuel (seen ++ next.eraseDups)

/-- The indices from which a BELL_END is reached. -/
def endsFrom (r : Rec) (n : Nat) : Nat → List Nat → List Nat
  | 0, good => good
  | fuel + 1, good =>
    let more := (List.range n).filter fun i => !(decide (i ∈ good)) &&
      (flowFrom r i).any fun t => decide (0 ≤ t) && decide (t.toNat ∈ good)
    if more = [] then good else endsFrom r n fuel (good ++ more)

/-- Is the control flow of a program broken (R94)? -/
def flowBroken (r : Rec) : Bool :=
  let n := progLen r
  let idx := List.range n
  let away := idx.any fun i => decide (dOp (progDesc r i) = 7) &&
    let t := (i : Int) + sint32 (df (progDesc r i) 223 192)
    decide (t < 0) || decide ((n : Int) ≤ t)
  let seen := reachFrom r n n [0]
  let good := endsFrom r n n (idx.filter fun i => decide (dOp (progDesc r i) = 10))
  decide (n = 0) || decide (16384 < n) || away || seen.any fun i =>
    (decide (i + 1 = n) && decide (dOp (progDesc r i) ≠ 10)) || !(decide (i ∈ good))

/-! ### Core-store hazards (R114) -/

/-- The operations that the place of a descriptor may hold: its own, or those of its slot (R115). -/
def placeOps (r : Rec) (i : Nat) : List Nat :=
  match slotAt r i with
  | some j => (List.range 11).filter (slotAllows r j)
  | none => [dOp (progDesc r i)]

/-- The FENCE classes that the place of a descriptor may need (R105, R115): a MOVE of a slot may be of either class. -/
def State.placeClasses (t : State) (r : Rec) (i : Nat) : List Nat :=
  match slotAt r i with
  | some _ => (placeOps r i).flatMap fun op =>
      if op = 1 then [0] else if op = 2 then [1] else if op = 3 then [2, 3]
      else if op = 4 ∨ op = 9 then [3] else if op = 5 then [4] else [5]
  | none => [t.fenceClass (progSite r) (progDesc r i)]

/-- The core-store bytes that the place of a descriptor reads and writes, in any core store: its own accesses, or its
slot's envelope (R114, R115). What a kernel accesses no record declares (log 17). -/
def State.storeAccess (t : State) (r : Rec) (i : Nat) : List (Nat × Nat) × List (Nat × Nat) :=
  let (rd, wr) := match slotAt r i with
    | some j => ((slotSets r j 4).map fun (e : ProgSet) => (e.base, e.len),
        (slotSets r j 5).map fun (e : ProgSet) => (e.base, e.len))
    | none => t.descAccess (progSite r) (progCore r) (progDesc r i)
  let stores := fun (a : Nat × Nat) =>
    decide (siteKind (gSite a.1) = .stack) && meets (gOff a.1) a.2 (coreStoreBase 0) (96 * 0x100000)
  (rd.filter stores, wr.filter stores)

/-- Is the descriptor at `j` ordered after the older one at `i` (R114): both on a unit that keeps order, a
FENCE of the class between them, or a WAIT on the older one's DONE token that counts its completion
before `j`? Program order is taken as the order of indices. What a slot will hold is not known: its place orders nothing
and its DONE token counts nowhere (log 17). -/
def State.ordered (t : State) (r : Rec) (ds : List (BitVec 512)) (i j : Nat) : Bool :=
  let at_ := fun n => if (slotAt r n).isSome then 0 else ds.getD n 0
  let a := at_ i
  let between := (List.range (j - i - 1)).map (i + 1 + ·)
  let only := fun op => (placeOps r i).all (fun x => decide (x = op)) && (placeOps r j).all fun x => decide (x = op)
  let fence := between.any fun n => decide (dOp (at_ n) = 8) &&
    (t.placeClasses r i).all fun cls => decide (df (at_ n) 36 32 / 2 ^ cls % 2 = 1)
  let tok := dDone a
  let wait := decide (tok ≠ 0) && between.any fun w =>
    decide (dOp (at_ w) = 6) && decide (df (at_ w) 43 32 = tok) &&
    let raised := ((List.range w).filter fun n => decide (dDone (at_ n) = tok)).length
    let upTo := ((List.range (i + 1)).filter fun n => decide (dDone (at_ n) = tok)).length
    let inOrder := (List.range w).all fun n => decide (dDone (at_ n) ≠ tok) || decide (dOp (at_ n) = 1)
    let eaten := (((List.range w).filter fun n => decide (dOp (at_ n) = 6) &&
      decide (df (at_ n) 43 32 = tok) && decide (df (at_ n) 44 44 = 1)).map fun n => df (at_ n) 95 64).sum
    decide ((if inOrder then upTo else raised) ≤ df (at_ w) 95 64 + eaten)
  only 1 || only 2 || fence || wait

/-- R114: two descriptors meet in core store, one writes, and neither is ordered before the other. -/
def State.hazard (t : State) (r : Rec) : Bool :=
  let ds := progDescs r
  let acc := (List.range ds.length).map (t.storeAccess r)
  let get := fun n => acc.getD n ([], [])
  (List.range ds.length).any fun j => (List.range j).any fun i =>
    (clash (get i).2 ((get j).1 ++ (get j).2) [] || clash (get i).1 (get j).2 []) &&
    !(t.ordered r ds i j)

/-! ### Arrival windows and slots (R110, R115) -/

/-- Is a token reference usable as a window's or ring's token? -/
def tokenNamed (ref : Nat) : Bool := (tokenFault ref).isNone && decide (ref / 1024 % 4 ≠ 0)

/-- The reasons that the tokens of a program's arrival windows give (R91, R94, R110). -/
def windowTokens (r : Rec) : List Nat :=
  (progWindows r).filterMap fun (_, _, ref) =>
    if ref / 1024 % 4 = 3 ∨ 4096 ≤ ref then some 0x0901
    else if tokenNamed ref then none else some 0x0903

/-- R110: at most 16 windows, on the program's own site's memories, none over another. -/
def State.windowsBroken (t : State) (r : Rec) : Bool :=
  let ws := progWindows r
  let k := progSite r
  decide (16 < ws.length) || ws.any (fun (a, n, _) => decide (n = 0) ||
    !(within a n 0 (t.scratch k) || (clusterOf a n).isSome || (coreOf a n).isSome)) ||
  (List.range ws.length).any fun j => (List.range j).any fun i =>
    match ws[i]?, ws[j]? with
    | some (a, n, _), some (b, m, _) => meets a n b m
    | _, _ => false

/-- R115: a slot names a descriptor of the program that is no BRANCH or BELL_END, once, and may not hold
one. -/
def slotsBroken (r : Rec) : Bool :=
  let ss := progSlots r
  decide (64 < ss.length) || ss.any (fun (i, ops) => decide (progLen r ≤ i) ||
    decide (dOp (progDesc r i) = 7) || decide (dOp (progDesc r i) = 10) ||
    decide (ops / 2 ^ 7 % 2 = 1) || decide (ops / 2 ^ 10 % 2 = 1) || decide (ops % 2 = 1) ||
    decide (2 ^ 10 ≤ ops)) ||
  decide ((ss.map (·.1)).eraseDups.length ≠ ss.length) ||
  (progSets r).any fun e => decide (5 < e.kind) || (decide (4 ≤ e.kind) && decide (ss.length ≤ e.slot))

/-- R115: the envelope of a slot leaves the context's windows. -/
def State.envelopeBroken (t : State) (r : Rec) : Bool :=
  (progSets r).any fun e => (decide (e.kind = 4) || decide (e.kind = 5)) && decide (gPkg e.base = t.pkg) &&
    !(t.hasRights (gSite e.base) (r.u8 8) (gOff e.base) e.len (decide (e.kind = 4)) (decide (e.kind = 5)))

/-! ### Kernels (R78, R81) -/

/-- R81: the kernels placed on a core exceed 64 KiB in all, or one leaves the kernel store. -/
def kernelFaults (rs : List Rec) : List Flt :=
  let ks := recsOf rs segPrograms 4
  let cores := (ks.map fun r => (r.u8 9, r.u8 10)).eraseDups
  cores.flatMap fun (k, c) =>
    let mine := ks.filter fun r => decide (r.u8 9 = k) && decide (r.u8 10 = c)
    overFlt 0x090B 0 65536 (mine.map fun r => (r, r.u32 20)) ++
    mine.flatMap fun r => r.fltIf (decide (65536 < r.u32 16 + r.u32 20) || decide (4096 ≤ r.u16 12)) 0x090B

/-! ### Reductions (R262 to R264) -/

/-- Bytes of one output element of a group. -/
def outBytes (fmt : Nat) : Nat := if fmt = 0 then 4 else if fmt = 1 then 2 else 1
/-- Is a group's output MXFP8 (R262)? -/
def outMx (fmt : Nat) : Bool := decide (fmt = 3) || decide (fmt = 4)

/-- What R262, R263 and R264 ask of a GROUP record by its structure. -/
def groupBroken (r : Rec) : Bool :=
  let qs := groupSlices r
  let fmt := r.u8 14
  let mode := r.u8 15
  let eng := qs.map fun q => (q.pkg, q.site)
  decide (4096 ≤ r.u16 8) || decide (r.u8 10 = 0) || decide (r.u8 11 = 0) || decide (3 < r.u8 11) ||
  !((decide (fmt = 0) && decide (mode = 0)) ||
    ((decide (fmt = 1) || outMx fmt) && (decide (mode = 0) || decide (mode = 2)))) ||
  decide (r.u32 16 = 0) || decide (65536 < r.u32 16) || decide (r.u32 20 % 32 ≠ 0) ||
  decide (2 ^ 48 < r.u48 24 + r.u32 20) ||
  decide ((qs.map (·.len)).sum * 32 ≠ r.u32 20) || decide (eng.eraseDups.length ≠ eng.length) ||
  qs.any fun q =>
    (decide (siteKind q.site ≠ .bridge) && decide (siteKind q.site ≠ .engine)) ||
    decide (q.len = 0) || decide (13107 < q.len) || decide (419430 < 32 * (q.base + q.len)) ||
    (outMx fmt && decide (q.len % 32 ≠ 0))

/-- Can two groups be active in the same bell (R264)? -/
def groupsMeet (a b : Rec) : Bool := decide (a.u8 10 ≠ b.u8 10) || decide (a.u16 12 = b.u16 12)

/-- The output ranges of a slice (R263, R269): elements, then scales. -/
def State.sliceOut (t : State) (r : Rec) (q : Slice) : List (Nat × Nat) :=
  let fmt := r.u8 14
  let n := 32 * q.len * outBytes fmt
  let at_ := fun (o len : Nat) =>
    if q.mcast then
      match mcastRec t.rs q.group with
      | none => []
      | some g => (mcastDests g).flatMap fun (site, stops, base) =>
          (mcastPlaces site (base + o) stops).map fun p => (gAddr t.pkg site p, len)
    else [(o, len)]
  at_ q.out n ++ (if outMx fmt then at_ q.sout q.len else [])

/-- Contributions that one index receives in a bell from this package's programs: the intervals of a
group's REDUCE descriptors. -/
def reduceSpans (rs : List Rec) (r : Rec) : List (Nat × Nat) :=
  (bellProgs rs (r.u8 10) (r.u16 12)).flatMap fun p => (progDescs p).filterMap fun d =>
    if dOp d = 4 ∧ df d 139 128 = r.u16 8 then some (df d 191 160, df d 223 192) else none

/-- The faults of R264 that one GROUP record shows. -/
def State.groupFlts (t : State) (r : Rec) : List Flt :=
  let rs := t.rs
  let here := (groupSlices r).filter fun q => decide (q.pkg = t.pkg)
  let writes := bellRanges rs (r.u8 10) (r.u16 12) 1
  let spans := reduceSpans rs r
  let others := (recsOf rs segReduce 1).filter fun g => decide (g.off ≠ r.off)
  let dead := here.any fun q => !(t.live q.site)
  let overlap := here.any fun q => others.any fun g => groupsMeet r g && (groupSlices g).any fun p =>
    decide (p.pkg = t.pkg) && decide (p.site = q.site) && meets q.base q.len p.base p.len
  let twice := others.any fun g => decide (g.u16 8 = r.u16 8)
  let many := spans.any fun s => decide (r.u32 16 <
    (spans.filter fun x => decide (x.1 ≤ s.1) && decide (s.1 < x.1 + x.2)).length)
  let missing := here.any fun q => (t.sliceOut r q).any fun o => !(inRanges writes o)
  r.fltIf (groupBroken r || !(decide (r.u8 10 ∈ ctxList rs)) || decide (cycleLen rs (r.u8 10) ≤ r.u16 12) || dead || overlap || twice || many || missing) 0x090C

/-- R264: the contribution bytes of one bell at an engine exceed its input rate. -/
def State.rateFlts (t : State) : List Flt :=
  let rs := t.rs
  let gs := recsOf rs segReduce 1
  let ns := periodNs rs - guardNs rs
  (gs.map fun g => (g.u8 10, g.u16 12)).eraseDups.flatMap fun (ctx, phase) =>
    (List.range 28).flatMap fun site =>
      let mine := gs.filter fun g => decide (g.u8 10 = ctx) && decide (g.u16 12 = phase)
      let bytes := fun (g : Rec) => (((groupSlices g).filter fun q => decide (q.pkg = t.pkg) &&
        decide (q.site = site)).map fun q =>
          32 * q.len * g.u32 16 * (if groupRed16 rs (g.u16 8) then 2 else 4)).sum
      overFlt 0x090C 0 ((if siteKind site = .bridge then 1200 else 800) * ns) (mine.map fun g => (g, bytes g))

/-! ### Bell-side rings (R291) -/

/-- The faults of R291 that one RING record shows. -/
def ringBellBroken (rs : List Rec) (r : Rec) : Bool :=
  let ctx := ringCtx r
  let area := (r.u64 56, 64 * ringE r)
  let side := fun (prod : Bool) (kind : Nat) => decide (ringSide r prod = 2) &&
    (decide (cycleLen rs ctx < depthD rs + 1) || decide (ringE r = 0) || decide (4096 < ringE r) ||
     decide (ringDepth r - 1 < ringE r) || decide (8 ≤ r.u8 64) || !(tokenNamed (r.u16 54)) ||
     !(inRanges (bellRanges rs ctx (ringWho r prod % 4096) kind) area))
  side true 1 || side false 0

/-! ### Class 0x09 -/

/-- Faults of class 0x09 of a plan; `t` is the state under it. -/
def State.progFaults (t : State) : List Flt :=
  let rs := t.rs
  let progs := progRecs rs
  let used := fun (k c : Nat) => (recFind rs segSitemap 1 fun r => decide (r.u8 8 = k)).any fun r =>
    decide (r.u8 9 = 1) && decide (r.num 16 12 / 2 ^ c % 2 = 1)
  progs.flatMap (fun r =>
    let ds := progDescs r
    (ds.flatMap (t.descFlts r) ++ windowTokens r).eraseDups.map r.flt ++
    r.fltIf (flowBroken r) 0x0903 ++
    r.fltIf (t.hazard r) 0x0905 ++
    r.fltIf (t.windowsBroken r || ds.any (t.moveStraddles r)) 0x0906 ++
    r.fltIf (slotsBroken r) 0x0907 ++
    r.fltIf (ds.any (reduceDescBroken rs r)) 0x090C ++
    r.fltIf (decide (8 ≤ progSite r) || decide (96 ≤ progCore r) || !(used (progSite r) (progCore r)) ||
      decide (cycleLen rs (r.u8 8) ≤ r.u16 12) ||
      progs.any fun q => decide (q.off < r.off) && decide (q.u8 8 = r.u8 8) && decide (progSite q = progSite r) &&
        decide (progCore q = progCore r) && decide (q.u16 12 = r.u16 12)) 0x090E ++
    r.fltIf (t.envelopeBroken r) 0x090F) ++
  (recsOf rs segPrograms 1).flatMap (fun r =>
    r.fltIf (decide (r.u16 10 = 0) || decide (4096 < r.u16 10)) 0x090E) ++
  replayFaults rs ++ switchFaults rs t.pkg ++ sameBellFaults rs ++ kernelFaults rs ++
  (recsOf rs segReduce 1).flatMap t.groupFlts ++ t.rateFlts ++
  (recsOf rs segRings 1).flatMap fun r => r.fltIf (ringBellBroken rs r) 0x090D

end Sys2Proof.Machine
end

