-- ==== Sys2Proof/Machine/PlanCheck.lean ====
section
/-!
DEFINITION. The ENABLE check of a plan: reasons of classes 0x02 to 0x08 (R19, R62, R82, R127, R130, R141,
R143, R157, R161, R163, R166, R172, R176, R189, R201, R249, R258, R272, R280, R286, R306, R323, R351, R352,
R421, R434, R440, R448) and the whole check of an image (R316, R317).
-/

namespace Sys2Proof.Machine

open Sys2Proof

/-- The state as a plan would have it: its records in force, and the scratch sizes it sets. -/
def State.underPlan (s : State) (rs : List Rec) : State :=
  (List.range 8).foldl (fun (s : State) k =>
    s.setF (Reg.MEM_CACHE_CFG k) Fld.MEM_CACHE_CFG_SCRATCH
      (recField rs segMem 1 (fun r => decide (r.u8 8 = k)) (·.u8 9) 16))
    { s with cfg := { s.cfg with eff := rs }, hostTake := [] }

/-! ### Class 0x02 (R19, R421) -/

/-- Cores, sites and policy. -/
def State.siteFlts (t : State) : List Flt :=
  (recsOf t.rs segSitemap 1).flatMap (fun r =>
    let i := r.u8 8
    r.fltIf (decide (i < 8) && decide (r.u8 9 = 1) && (List.range 96).any fun c =>
      decide (r.num 16 12 / 2 ^ c % 2 = 1) && decide (t.coreRole i c ≠ 0)) 0x0201 ++
    r.fltIf (decide (r.u8 9 ≠ 0) && !(t.live i)) 0x0202) ++
  (recsOf t.rs segGranary 1).flatMap fun r =>
    r.fltIf (decide (r.u8 8 = 0) || decide (r.u8 9 = 0) || decide (62 < r.u8 9) || decide (r.u16 10 = 0) ||
      decide (2 < r.u8 12) || decide (1 < r.u8 13)) 0x0203

/-! ### Class 0x03 (R189, R201, R272) -/

/-- The ranges of a multicast group that a plan writes, as offsets from a destination's base: its MOVEs and the outputs of
slices; the base's own granule where nothing names the group (R201, R202, R269). -/
def groupUses (rs : List Rec) (group : Nat) : List (Nat × Nat) :=
  let moves := (recsOf rs segPrograms 2).flatMap fun r => ((List.range (progLen r)).map (progDesc r)).filterMap fun d =>
    if dOp d = 3 ∧ df d 34 34 = 1 ∧ df d 139 128 = group then some (0, df d 223 192) else none
  let outs := (recsOf rs segReduce 1).flatMap fun g => ((groupSlices g).filter fun q =>
      q.mcast && decide (q.group = group)).flatMap fun q =>
    (q.out, 32 * q.len * outBytes (g.u8 14)) :: if outMx (g.u8 14) then [(q.sout, q.len)] else []
  match moves ++ outs with
  | [] => [(0, 32)]
  | us => us

/-- Reservations and multicast groups. -/
def State.fabricFlts (t : State) : List Flt :=
  let gs := recsOf t.rs segFabric 2
  (recsOf t.rs segFabric 1).flatMap (fun r => r.fltIf (decide (16 < r.u8 9)) 0x0301) ++
  gs.flatMap fun r =>
    let ds := mcastDests r
    let empty := ds.any fun (site, stops, base) =>
      !(t.live site) || (decide (site < 8) && (decide (2 ^ 12 ≤ stops) ||
        (List.range 12).any (fun n => decide (stops / 2 ^ n % 2 = 1) &&
          !((List.range 8).any fun j => decide (t.coreRole site (8 * n + j) = 0))) ||
        (mcastPlaces site base stops).any fun o => match coreOf o 1 with
          | some c => decide (t.coreRole site c ≠ 0)
          | none => false))
    let out := ds.any fun (site, stops, base) =>
      (groupUses t.rs (r.u16 8)).any fun u =>
        (mcastPlaces site (base + u.1) stops).any fun o => !(t.inRange site o u.2)
    let declared := fun b => (recsOf t.rs segLinkmap 3).any fun q => decide (q.u8 8 = b)
    r.fltIf (empty || decide (r.u8 10 = 0) || decide (32 < r.u8 10)) 0x0302 ++ r.fltIf out 0x0303 ++
    r.fltIf ((mcastBranches r).any fun b => !(declared b)) 0x0304 ++
    r.fltIf (decide (4096 ≤ r.u16 8) || gs.any fun q => decide (q.off < r.off) && decide (q.u16 8 = r.u16 8)) 0x0305

/-! ### Class 0x04 (R130, R249, R258) -/

/-- The domain of a package (MEMBER). -/
def memberOf (rs : List Rec) (p : Nat) : Nat := recField rs segLinkmap 9 anyRec (·.u16 (8 + 2 * p)) 0xFFFF

/-- Does a package reach its root within `n` steps of the tree? -/
def climbs (rs : List Rec) (root : Nat) : Nat → Nat → Bool
  | 0, p => decide (p = root)
  | n + 1, p => decide (p = root) || (decide (treeParent rs p ≠ 0xFFFF) && climbs rs root n (treeParent rs p))

/-- The links of a bundle. -/
def bundleLinks (r : Rec) : List Nat := (List.range (r.u8 9)).map fun j => r.u8 (12 + j)
/-- The BUNDLE record of a bundle. -/
def bundleRec (rs : List Rec) (b : Nat) : Option Rec := recFind rs segLinkmap 3 fun r => decide (r.u8 8 = b)
/-- The links of a bundle of a plan. -/
def planLinks (rs : List Rec) (b : Nat) : List Nat :=
  match bundleRec rs b with
  | some r => bundleLinks r
  | none => []
/-- The neighbour of a bundle of a plan. -/
def planPeer (rs : List Rec) (b : Nat) : Option Nat :=
  match planLinks rs b with
  | x :: _ => (linkPeer rs x).map (·.1)
  | [] => none
/-- A neighbour's hop count to a package (HOPS). -/
def hopsOf (rs : List Rec) (n p : Nat) : Nat :=
  recField rs segLinkmap 6 (fun r => decide (r.u16 8 = n)) (·.u8 (16 + p)) 0xFF

/-- Domains and the vote tree. -/
def domainFlts (rs : List Rec) : List Flt :=
  let doms := recsOf rs segLinkmap 8
  let declared := fun d => doms.any fun r => decide (r.u16 8 = d)
  (recsOf rs segLinkmap 1).flatMap (fun r =>
    r.fltIf (decide (memberOf rs (r.u16 8) ≠ r.u16 10) || !(declared (r.u16 10))) 0x0401 ++
    r.fltIf (decide (r.u8 13 ≠ 0xFF) && (bundleRec rs (r.u8 13)).isNone) 0x0403 ++
    r.fltIf (decide (r.u8 12 < 20) || decide (27 < r.u8 12)) 0x0401) ++
  (recsOf rs segLinkmap 9).flatMap (fun r => r.fltIf ((words2 (r.bytes.drop 8)).any fun d =>
    decide (d ≠ 0xFFFF) && !(declared d)) 0x0401) ++
  doms.flatMap (fun r => r.fltIf (decide (64 < r.u8 12)) 0x0402) ++
  (recsOf rs segLinkmap 10).flatMap fun r => r.fltIf (doms.any fun d => decide (treeParent rs (d.u16 10) ≠ d.u16 10) || (recsOf rs segLinkmap 9).any fun m =>
    (words2 (m.bytes.drop 8)).zipIdx.any fun (dom, p) =>
      decide (dom = d.u16 8) && !(climbs rs (d.u16 10) 63 p)) 0x0402

/-- Bundles and spares. -/
def bundleFlts (rs : List Rec) : List Flt :=
  let bs := recsOf rs segLinkmap 3
  bs.flatMap (fun r =>
    let xs := bundleLinks r
    let peers := xs.map fun x => (linkPeer rs x).map (·.1)
    r.fltIf (decide (r.u8 9 = 0) || decide (8 < r.u8 9) || decide (31 < r.u8 8) ||
      decide (xs.eraseDups.length ≠ xs.length) || peers.any (·.isNone) || decide (1 < peers.eraseDups.length) ||
      bs.any fun q => decide (q.off < r.off) && decide (q.u8 8 = r.u8 8)) 0x0403 ++
    (recsOf rs segLinkmap 1).flatMap fun l =>
      if l.u8 13 ≠ r.u8 8 then [] else
      (recsOf rs segLinkmap 2).flatMap fun x =>
        x.fltIf (decide (x.u8 8 ∈ xs) && decide (11 < x.u16 14)) 0x0408) ++
  (recsOf rs segLinkmap 4).flatMap fun r =>
    let own := (linkPeer rs (r.u8 8)).map (·.1)
    r.fltIf (own.isNone || (List.range (r.u8 9)).any fun i =>
      decide ((linkPeer rs (r.u8 (10 + i))).map (·.1) ≠ own)) 0x0409

/-- The known part of a route's latency by a link: its hops, and the first link's fibre (R130; log 17). -/
def routeNs (rs : List Rec) (hops x : Nat) : Nat := 250 * hops + 5 * linkFibre rs x + 70

/-- Reasons of one route entry (R246, R249). -/
def routeCodes (rs : List Rec) (p e : Nat) : List Nat :=
  let kind := e / 2 ^ 30
  let ph := e / 2 ^ 23 % 128
  let sh := e / 2 ^ 16 % 128
  let xs := planLinks rs (e % 32)
  let ys := planLinks rs (e / 32 % 32)
  let n := xs.length
  let m := ys.length
  let slots := (List.range n).map fun j => (xs.getD j 0, ys.getD (j % m) 0)
  let bad := decide (kind = 3) || (decide (kind = 2) && decide (p ≠ localPkg rs)) ||
    (decide (p = localPkg rs) && decide (kind ≠ 2)) ||
    (decide (kind = 1) && (decide (ph = 0) || decide (64 < ph) || decide (ph < sh) || decide (n = 0) ||
      (decide (sh ≠ 0) && decide (m = 0))))
  if bad then [0x0404] else if kind ≠ 1 then [] else
  (if sh ≠ 0 ∧ slots.any (fun (x, y) => decide (x = y)) then [0x0405] else []) ++
  (if (match planPeer rs (e % 32) with
      | some q => decide (hopsOf rs q p + 1 ≠ ph)
      | none => false) ||
      (decide (sh ≠ 0) && match planPeer rs (e / 32 % 32) with
      | some q => decide (ph < hopsOf rs q p + 1)
      | none => false) then [0x0406] else []) ++
  (if sh ≠ 0 ∧ slots.any (fun (x, y) =>
      decide (routeNs rs ph x + 500 < routeNs rs sh y) || decide (routeNs rs sh y + 3500 < routeNs rs ph x))
    then [0x0407] else []) ++
  (if memberOf rs p = localDomain rs ∧ slots.any (fun (x, _) => decide (longestNs rs < routeNs rs ph x))
    then [0x040A] else [])

/-- Routes. -/
def routeFlts (rs : List Rec) : List Flt :=
  (recsOf rs segLinkmap 5).flatMap fun r =>
    ((words4 (r.bytes.drop 8)).zipIdx.flatMap fun (e, p) => routeCodes rs p e).eraseDups.map r.flt

/-! ### Class 0x05 (R82, R127, R130, R350 to R352) -/

/-- The bell plan. -/
def bellFlts (rs : List Rec) : List Flt :=
  let ctxs := 0 :: ctxList rs
  (recsOf rs segBell 1).flatMap (fun r =>
    let lead := 250 * r.u8 16
    r.fltIf (decide (r.u16 10 < 16) || decide (4096 < r.u16 10) || decide (r.u8 12 = 0) || decide (4 < r.u8 12) ||
      decide (r.u8 13 < 10) || decide (200 < r.u8 13) || decide (r.u8 14 = 0) || decide (8 < r.u8 15) ||
      decide (200 < r.u16 17) || (decide (lead ≠ 0) && decide (lead < leadDerived rs))) 0x0501 ++
    r.fltIf (decide (depthD rs * periodNs rs < 2 * cryTime rs + guardNs rs)) 0x0502 ++
    r.fltIf (decide (periodNs rs ≤ leadNs rs + guardNs rs)) 0x0503 ++
    r.fltIf (decide (r.u16 8 ≠ localDomain rs)) 0x0506) ++
  (recsOf rs segBell 2).flatMap fun r =>
    r.fltIf (decide (r.u16 8 = 0) || decide (4096 < r.u16 8)) 0x0501 ++
    r.fltIf ((turnList rs).any fun c => !(decide (c ∈ ctxs))) 0x0506

/-- What a region takes (R350): nothing where it is no region, cluster, fixed frequency, or guest. -/
inductive RegionKind where
  | none | cluster | fixed (f : Nat) | guest
  deriving DecidableEq, Repr

/-- The kind of a region; frequencies in units of 50 MHz (R350). -/
def regionKind (r : Nat) : RegionKind :=
  if r < 192 then (if r % 24 < 12 then .cluster else if r % 24 < 20 then .fixed 60 else .fixed 40)
  else if r < 256 then .fixed 40
  else if r < 280 then (if r % 2 = 0 then .fixed 10 else .fixed 35)
  else if r < 328 then (if r % 4 < 2 then .fixed 48 else .fixed 40)
  else if r < 360 then (if r % 4 < 2 then .fixed 35 else .fixed 40)
  else if r < 368 then .guest else .none

/-- The site of a region, none for a base field (R350). -/
def regionSite (r : Nat) : Option Nat :=
  if r < 192 then some (r / 24) else if r < 256 then some ((r - 192) / 8)
  else if r < 280 then none else if r < 328 then some (8 + (r - 280) / 4)
  else if r < 360 then some (20 + (r - 328) / 4) else some (28 + (r - 360) / 2)

/-- Is a region present: on a populated site, or in a field (R351)? -/
def State.regionHere (s : State) (r : Nat) : Bool :=
  decide (r < 368) && match regionSite r with
    | some i => s.populated i
    | none => true

/-- Minimum supply of a cluster entry in mV before the uplift, at a frequency in units of 50 MHz (R352). -/
def supplyMin (f : Nat) : Nat :=
  let at_ := [650, 670, 695, 720, 750, 790, 830]
  let i := (f - 24) / 2
  let a := at_.getD i 830
  let b := at_.getD (i + 1) a
  if (f - 24) % 2 = 0 then a else (a + b + 1) / 2

/-- Is a REGION record broken (R351, R352)? -/
def State.regionBroken (t : State) (r : Rec) : Bool :=
  let n := r.u8 10
  let f := fun i => r.u8 (16 + 4 * i)
  let mv := fun i => r.u16 (18 + 4 * i)
  let es := List.range n
  let d := t.getF (Reg.CLK_REGION_STATUS (r.u16 8)) Fld.CLK_REGION_STATUS_DERATE
  !(t.regionHere (r.u16 8)) || decide (n = 0) || decide (16 < n) || decide (n ≤ r.u8 11) ||
  (es.any fun i => decide (i + 1 < n) && (decide (f (i + 1) ≤ f i) || decide (mv (i + 1) < mv i))) ||
  es.any (fun i => decide (850 < mv i + 6 * d)) ||
  match regionKind (r.u16 8) with
  | .cluster => es.any fun i => decide (f i < 24) || decide (36 < f i) || decide (mv i < supplyMin (f i))
  | .fixed x => decide (n ≠ 1) || decide (f 0 ≠ x)
  | .guest => es.any fun i => decide (f i < 10) || decide (60 < f i) || !(Config.guestFreq (r.u16 8) (f i))
  | .none => true

/-- Clock regions; `tab` gives where a segment's table entry lies. -/
def State.clockFlts (t : State) (tab : Nat → Nat × Nat) : List Flt :=
  let cs := recsOf t.rs segClock 1
  let e := tab segClock
  cs.flatMap (fun r => r.fltIf (t.regionBroken r ||
    cs.any fun q => decide (q.off < r.off) && decide (q.u16 8 = r.u16 8)) 0x0505) ++
  fltIf ((List.range 368).any fun i => t.regionHere i && !(cs.any fun r => decide (r.u16 8 = i)))
    ⟨0x0505, segClock, e.1, e.2⟩

/-- Nominal matrix clock of a core's region in units of 50 MHz (R351). -/
def nominalFreq (rs : List Rec) (k c : Nat) : Nat :=
  recField rs segClock 1 (fun r => decide (r.u16 8 = coreRegion k c)) (fun r => r.u8 (16 + 4 * r.u8 11)) 0

/-- R82: declared critical paths against the available cycles less the allowance, which alone is rounded: cycles are
counted in twentieths here. -/
def criticalFlts (rs : List Rec) : List Flt :=
  (progRecs rs).flatMap fun r =>
    let avail20 := (periodNs rs - guardNs rs) * nominalFreq rs (progSite r) (progCore r)
    let allow := (avail20 * stretchAllow rs + 19999) / 20000
    r.fltIf (decide (avail20 < 20 * (r.u32 20 + allow))) 0x0504

/-! ### Class 0x06 (R157, R189) -/

/-- Classes whose bytes cross the base (R155, R157): all but the scrub, which reads its own site, and
calibration, which is no byte budget. -/
def crossesBase (cls : Nat) : Bool := decide (cls ∈ [0, 1, 2, 3, 5, 6, 7])

/-- RESV of a site. -/
def siteResv (rs : List Rec) (i : Nat) : Nat := recField rs segFabric 1 (fun r => decide (r.u8 8 = i)) (·.u8 9) 0

/-- The site of the package at which a transfer between a site and a global address ends on the base: the address's own,
or the engine of its route's slot, for both directions (R247; log 42). -/
def farSite (rs : List Rec) (pkg site g : Nat) : Option Nat :=
  if gPkg g = pkg then some (gSite g) else
  let e := routeEntry rs (gPkg g)
  let ls := planLinks rs (e % 32)
  if e / 2 ^ 30 ≠ 1 ∨ ls = [] then none
  else some (20 + (linkHome (ls.getD ((site + gSite g + gPkg g) % ls.length) 0)).1)

/-- Bytes of ranges that a site reaches by way of another. -/
def bytesVia (rs : List Rec) (pkg site b : Nat) (as : List (Nat × Nat)) : Nat :=
  ((as.filter fun a => decide (farSite rs pkg site a.1 = some b)).map (·.2)).sum

/-- What a program's REDUCE descriptors contribute: the slices' sites with bytes (R101, R265). -/
def reduceTo (rs : List Rec) (r : Rec) : List (Nat × Nat) :=
  (progDescs r).flatMap fun d =>
    if dOp d ≠ 4 then [] else
    match groupRec rs (df d 139 128) with
    | none => []
    | some g => (slicesFrom 0 (groupSlices g)).map fun (f, q) =>
      let lo := max (df d 191 160) (32 * f)
      let hi := min (df d 191 160 + df d 223 192) (32 * (f + q.len))
      (gAddr q.pkg q.site 0, (hi - lo) * scalarBytes (df d 35 32))

/-- Declared traffic of a program from site `a` to site `b` (R157): what it reads there from here or from beyond here,
and what it writes, commits or contributes there or beyond there. -/
def pairBytes (rs : List Rec) (pkg : Nat) (r : Rec) (a b : Nat) : Nat :=
  if a = b then 0 else
  (if progSite r = b then bytesVia rs pkg b a (progRanges r 0) else 0) +
  (if progSite r = a then bytesVia rs pkg a b (progRanges r 1 ++ progRanges r 3 ++ reduceTo rs r) else 0)

/-- Ring copies of a bell from S22 to a site (R291). -/
def ringBytes (rs : List Rec) (pkg ctx phase a b : Nat) : Nat :=
  ((recsOf rs segRings 1).map fun r =>
    let mine := fun prod => decide (ringCtx r = ctx) && decide (ringSide r prod = 2) &&
      decide (ringWho r prod % 4096 = phase) && decide (gPkg (r.u64 56) = pkg)
    (if mine false && decide (a = portSite) && decide (b = gSite (r.u64 56)) then 64 * ringE r else 0) +
    (if mine true && decide (b = portSite) && decide (a = gSite (r.u64 56)) then 64 * ringE r else 0)).sum

/-- Tithe budgets and pair capacities. -/
def State.titheFlts (t : State) : List Flt :=
  let rs := t.rs
  let ns := periodNs rs - guardNs rs
  let bs := recsOf rs segTithe 1
  bs.flatMap (fun r => r.fltIf (decide (r.u8 9 < 8) && decide (0 < r.u32 12) && decide (r.u32 12 < 16384)) 0x0601) ++
  (List.range 32).flatMap (fun i =>
    overFlt 0x0602 0 (siteResv rs i * 25 * ns) ((bs.filter fun r => decide (r.u8 8 = i) && crossesBase (r.u8 9)).map
      fun r => (r, 8 * r.u32 12))) ++
  (progBells rs).flatMap fun (ctx, phase) =>
    (List.range 32).flatMap fun a => (List.range 32).flatMap fun b =>
      let cap := (64 - siteResv rs a) * (t.planesOf a b).length * 625 * ns
      if a = b then [] else
      overFlt 0x0603 (6400 * ringBytes rs t.pkg ctx phase a b) cap
        ((bellProgs rs ctx phase).map fun r => (r, 6400 * pairBytes rs t.pkg r a b))

/-! ### Class 0x07 (R280, R286, R323, R434, R440) -/

/-- Is a context declared: CTX0 always is (R434). -/
def ctxDeclared (rs : List Rec) (c : Nat) : Bool := decide (c = 0) || decide (c ∈ ctxList rs)

/-- Contexts, windows and rings; `tab` gives where a segment's table entry lies. -/
def State.contextFlts (t : State) (tab : Nat → Nat × Nat) : List Flt :=
  let rs := t.rs
  let cs := recsOf rs segContexts 1
  let ws := recsOf rs segContexts 2
  let rings := recsOf rs segRings 1
  let e := tab segContexts
  let binds := fun (r : Rec) h => decide (r.u64 24 / 2 ^ h % 2 = 1)
  let enabled := (List.range 64).filter fun h => decide (t.hostRole h = 0)
  let raws := rings.filter ringRaw
  let qpns := fun (prod : Bool) (q : Rec) => ringSide q prod = 0
  fltIf (enabled.any fun h => !(cs.any fun r => binds r h)) ⟨0x0701, segContexts, e.1, e.2⟩ ++
  cs.flatMap (fun r =>
    r.fltIf ((List.range 64).any fun h => binds r h && (decide (t.hostRole h ≠ 0) ||
      cs.any fun q => decide (q.off < r.off) && binds q h)) 0x0701 ++
    r.fltIf ((cs.any fun q => decide (q.off < r.off) && decide (q.u8 8 = r.u8 8)) ||
      (decide (r.u8 8 ≠ 0) &&
        decide (63 ≤ (cs.filter fun q => decide (q.off < r.off) && decide (q.u8 8 ≠ 0)).length))) 0x0702) ++
  ws.flatMap (fun r =>
    let vis := decide (r.u8 10 / 4 % 2 = 1)
    let same := ws.filter fun q => decide (q.off < r.off) && decide (q.u8 8 = r.u8 8) && decide (q.u8 9 = r.u8 9)
    r.fltIf (decide (256 ≤ same.length) || decide (r.u64 16 % 4096 ≠ 0) || decide (r.u64 24 % 4096 ≠ 0)) 0x0703 ++
    r.fltIf (decide (vis = decide (r.u32 12 = 0)) || (vis && ws.any fun q => decide (q.off < r.off) &&
      decide (q.u8 10 / 4 % 2 = 1) && decide (q.u32 12 = r.u32 12))) 0x0708 ++
    r.fltIf (!(ctxDeclared rs (r.u8 8))) 0x0702) ++
  (recsOf rs segMem 3 ++ rs.filter fun r => decide (r.seg = segPrograms)).flatMap (fun r =>
    r.fltIf (!(ctxDeclared rs (if r.seg = segPrograms ∧ r.kind = 5 then r.u8 10 else r.u8 8))) 0x0702) ++
  rings.flatMap fun r =>
    let ctx := ringCtx r
    let inWin := fun (g n : Nat) => decide (gPkg g = t.pkg) && inWindows rs ctx (gSite g) 0 (gOff g) n &&
      inWindows rs ctx (gSite g) 1 (gOff g) n
    let area := r.u64 16
    let placed := (decide (siteKind (gSite area) = .bridge) && decide (gOff area < hbmSize)) ||
      (decide (siteKind (gSite area) = .stack) && decide (gOff area < 2 ^ 30))
    let bound := fun h => decide (hostCtxOf rs h = ctx) && cs.any fun q => binds q h
    let named := fun prod => decide (ringSide r prod ≠ 1) ||
      (List.range 64).all fun h => decide (ringWho r prod / 2 ^ h % 2 = 0) || bound h
    let qs := [true, false].filter fun p => decide (ringSide r p = 0)
    r.fltIf (!(inWin area (64 * ringDepth r)) || !placed || decide (area % 4096 ≠ 0) || decide (r.u64 24 % 16 ≠ 0) ||
      !(inWin (r.u64 24) 16) || (ringRaw r && !(inWin (r.u64 56) (2048 * ringDepth r))) ||
      decide (r.u8 11 < 6) || decide (16 < r.u8 11) || decide (2 < r.u8 12) || decide (2 < r.u8 13) ||
      !(named true) || !(named false) ||
      (decide (r.u16 14 ≠ 0) && (!(bound (r.u8 48)) || decide (255 < r.u16 14) || decide (r.u16 50 = 0) ||
        decide (ringDepth r ≤ r.u16 50))) || decide (32768 ≤ r.u16 8) ||
      rings.any fun q => decide (q.off < r.off) && decide (q.u16 8 = r.u16 8)) 0x0704 ++
    r.fltIf (decide (qs.length = 2) || (ringRaw r && (decide (ctx ≠ 0) || raws.any fun q => decide (q.off < r.off))))
      0x0705 ++
    r.fltIf (qs.any fun p => decide (8191 < ringWho r p % 2 ^ 24) || rings.any fun q => decide (q.off < r.off) &&
      qpns p q && decide (ringWho q p % 2 ^ 24 = ringWho r p % 2 ^ 24)) 0x0706

/-! ### Class 0x08 (R143, R161, R163, R166, R172, R176, R264, R306, R448) -/

/-- Bytes and entries that one COMMIT_WRITE sends, cut at 4,096-byte blocks (R106, R143). -/
def commitCut (off len : Nat) : Nat × Nat := (len, (off + len + 4095) / 4096 - off / 4096)

/-- Volume and entries that a program stages at a bridge in one bell (R143). A descriptor at a dynamic slot is never sent: the
slot is charged instead (R115, R118). -/
def staged (pkg : Nat) (r : Rec) (b : Nat) : Nat × Nat :=
  let sum := fun (ps : List (Nat × Nat)) => ((ps.map (·.1)).sum, (ps.map (·.2)).sum)
  let here := fun (g : Nat) => decide (gPkg g = pkg) && decide (gSite g = b)
  let own := (progDescs r).zipIdx.filterMap fun (d, i) =>
    if dOp d = 9 ∧ (slotAt r i).isNone = true ∧ here (df d 191 128) = true then some (commitCut (gOff (df d 191 128)) (df d 223 192)) else none
  let slots := (progSets r).filterMap fun e =>
    if e.kind = 5 ∧ slotAllows r e.slot 9 = true ∧ here e.base = true then
      let n := (commitCut (gOff e.base) e.len).2
      some (4096 * n, n)
    else none
  sum (own ++ slots)

/-- A range put into a list that rises. -/
def insertRange (a : Nat × Nat) : List (Nat × Nat) → List (Nat × Nat)
  | [] => [a]
  | x :: xs => if a.1 ≤ x.1 then a :: x :: xs else x :: insertRange a xs

/-- The runs that ranges cover: those that overlap are one; those that only touch are two (the spec does not say what a run is:
DESIGN CHOICE, log 48). -/
def runsOf (as : List (Nat × Nat)) : List (Nat × Nat) :=
  (as.foldr insertRange []).foldl (fun rs b =>
    match rs with
    | [] => [b]
    | a :: as => if b.1 < a.1 + a.2 then (a.1, max a.2 (b.1 + b.2 - a.1)) :: as else b :: a :: as) []

/-- Declared HBM3E bytes of a program at a bridge, short runs charged as 2,048 bytes (R172). -/
def hbmDeclared (pkg : Nat) (r : Rec) (b : Nat) : Nat :=
  let at_ := fun kind => ((runsOf ((progRanges r kind).filter fun a =>
    decide (gPkg a.1 = pkg) && decide (gSite a.1 = b))).map fun a => max 2048 a.2).sum
  at_ 0 + at_ 1

/-- Fix areas and HBM3E rates. The entries of R172's sum are those of the bell that stages most, by twice its volume with
its entries (DESIGN CHOICE, log 42); the sum of a bell with no program is that of the staging and the budgets. -/
def bridgeFlts (rs : List Rec) : List Flt :=
  let pkg := localPkg rs
  (List.range 12).flatMap fun i =>
    let b := 8 + i
    let bells := progBells rs
    let vol := fun (c : Nat × Nat) => (bellProgs rs c.1 c.2).map fun r => (r, staged pkg r b)
    let most := (bells.map fun c => ((vol c).map fun x => 2 * x.2.1 + 64 * x.2.2).sum).foldl max 0
    let budgets := [3, 4, 5].map (titheBudget rs b) |>.sum
    let fixed := most + budgets
    ((recsOf rs segTithe 1).filter fun r => decide (r.u8 8 = b) && decide (r.u8 9 ∈ [3, 4, 5])).flatMap (fun r =>
      r.fltIf (decide (1050 * (periodNs rs - guardNs rs) < fixed)) 0x0807) ++
    bells.flatMap fun c =>
      overFlt 0x0805 0 (fixArea rs b).2 ((vol c).map fun x => (x.1, (depthD rs + 1) * (x.2.1 + 64 * x.2.2))) ++
      overFlt 0x0806 0 (400 * periodNs rs) ((vol c).map fun x => (x.1, x.2.1)) ++
      overFlt 0x0807 fixed (1050 * (periodNs rs - guardNs rs))
        ((bellProgs rs c.1 c.2).map fun r => (r, hbmDeclared pkg r b))

/-- Is a range in the image store or the ledger area as placed now (R306, R448)? -/
def State.meetsStore (s : State) (site a n : Nat) : Bool :=
  allSlots.any fun (k, x) => match s.slotPlace k x with
    | some (b, off, size) => decide (b = site) && meets a n off size
    | none => false

/-- Does a range meet a context's ledger area? -/
def State.meetsLedger (s : State) (site a n ctx : Nat) : Bool :=
  match s.slotPlace false 0 with
  | some (b, _, _) => decide (b = site) && meets a n (ledgerBase ctx) 0x40000
  | none => false

/-- Windows, scratch, cached windows, fix areas, program areas. -/
def State.memFlts (t : State) : List Flt :=
  let rs := t.rs
  let ws := recsOf rs segContexts 2
  let slices := (recsOf rs segReduce 1).flatMap fun g => (groupSlices g).filter fun q => decide (q.pkg = t.pkg)
  ws.flatMap (fun r =>
    let ctx := r.u8 8
    let site := r.u8 9
    let a := r.u64 16
    let n := r.u64 24
    let acc := slices.any fun q => decide (q.site = site) && meets a n
      ((if siteKind site = .bridge then accStoreBridge else 0) + 1280 * q.base) (1280 * q.len)
    let ledger := (List.range 256).any fun c => t.meetsLedger site a n c &&
      (decide (c ≠ ctx) || decide (r.u8 10 / 2 % 2 = 1))
    r.fltIf (decide (31 < site) || !(t.inRange site a n) || acc || ledger ||
      (decide (ctx ≠ 0) && t.meetsStore site a n)) 0x0801) ++
  (recsOf rs segMem 1).flatMap (fun r =>
    r.fltIf (decide (r.u8 9 = 0) || decide (16 < r.u8 9) || decide (r.u64 16 % 2 ^ 20 ≠ 0) ||
      decide (r.u64 24 % 2 ^ 20 ≠ 0) || decide (2 ^ 26 * r.u8 9 < r.u64 16 + r.u64 24)) 0x0802) ++
  (recsOf rs segMem 3).flatMap (fun r =>
    let b := r.u8 9
    let here := (gAddr t.pkg b (r.u64 16), r.u64 24)
    let only := fun k => decide (r.u8 10 = 2 ^ k)
    let outs := (recsOf rs segReduce 1).flatMap fun g =>
      (groupSlices g).flatMap (t.sliceOut g)
    r.fltIf (decide (siteKind b ≠ .bridge) || decide (r.u64 16 % 16384 ≠ 0) || decide (r.u64 24 % 16384 ≠ 0) ||
      !(inWindows rs (r.u8 8) b 0 (r.u64 16) (r.u64 24) || inWindows rs (r.u8 8) b 1 (r.u64 16) (r.u64 24)) ||
      (progRecs rs).any (fun p => clash (progRanges p 3) [here] [] ||
        (clash (progRanges p 1) [here] [] && !(only (progSite p)))) ||
      clash outs [here] [] ||
      (List.range 8).any fun k => decide (r.u8 10 / 2 ^ k % 2 = 1) && decide (16 ≤ scratchSize rs k / 2 ^ 26))
      0x0803) ++
  (recsOf rs segMem 2).flatMap (fun r =>
    let b := r.u8 8
    let a := r.u64 16
    let n := r.u64 24
    r.fltIf (decide (a % 2 ^ 20 ≠ 0) || decide (n % 2 ^ 20 ≠ 0) || decide (2 ^ 32 < n) || decide (hbmSize < a + n) ||
      (ws.any fun w => decide (w.u8 9 = b) && meets a n (w.u64 16) (w.u64 24)) || t.meetsStore b a n ||
      (List.range 256).any fun c => t.meetsLedger b a n c) 0x0804) ++
  (List.range 8).flatMap (fun k =>
    let items := (rs.filter fun r => decide (r.seg = segPrograms) && decide (r.u8 9 = k)).filterMap fun r =>
      if r.kind = 2 then some (r, 64 * progLen r) else if r.kind = 4 then some (r, r.u32 20) else none
    overFlt 0x0808 0 (progArea rs k).2 items) ++
  bridgeFlts rs

/-! ### The whole check (R316, R317, R323) -/

/-- Faults of classes 0x02 to 0x09 of a plan. -/
def State.planFaults (s : State) (rs : List Rec) (tab : Nat → Nat × Nat) : List Flt :=
  let t := s.underPlan rs
  t.siteFlts ++ t.fabricFlts ++ domainFlts rs ++ bundleFlts rs ++ routeFlts rs ++ bellFlts rs ++
  t.clockFlts tab ++ criticalFlts rs ++ t.titheFlts ++ t.contextFlts tab ++ t.memFlts ++ t.progFaults

/-- The faults of a variant's plan carry its number (R317). -/
def inVariant (v : Nat) (fs : List Flt) : List Flt := fs.map fun f => { f with var := v }

/-- The faults of a full image: every rule over its base plan and over every variant (R316, R325). -/
def State.fullFaults (s : State) (q : Parsed) : List Flt :=
  let ss := q.segs.map fun e => (e.1, e.2.1)
  let base := planRecs q.recs ss 0
  let sys := fun (rs : List Rec) => (rs.filter fun r => decide (r.seg = segLinkmap) && decide (8 ≤ r.kind)).map (·.bytes)
  (0 :: variantsOf ss).flatMap fun v =>
    let rs := planRecs q.recs ss v
    let e := segAt q.segs v segLinkmap
    inVariant v (fltIf (decide (sys rs ≠ sys base)) ⟨0x0104, segLinkmap, v, e.2⟩ ++ s.planFaults rs (segAt q.segs v))

/-- Where a partial image's records stand while it is checked beside others: their offsets are lifted, so
that a fault of its own is known. -/
def liftOff : Nat := 2 ^ 40

/-- Every choice of some elements of a list, in its order. -/
def someOf {α : Type} : List α → List (List α)
  | [] => [[]]
  | x :: xs => let ys := someOf xs; ys ++ ys.map (x :: ·)

/-- The partial images of other contexts that a new one may come to stand beside (R323): the active ones, with any of
the pending ones in place of their contexts' own. -/
def State.besides (s : State) (ctx : Nat) : List (List Image) :=
  (someOf (s.cfg.pendPart.filter fun p => decide (p.ctx ≠ ctx))).map fun ps =>
    (s.cfg.partials.filter fun p => decide (p.ctx ≠ ctx) && !(ps.any fun x => decide (x.ctx = p.ctx))) ++ ps

/-- The faults that a partial image makes in one plan: those at its own records, and, at OFFSET 0, those that the plan has
at other records with it and not without it (DESIGN CHOICE, log 48: the spec gives OFFSET in the image itself only). -/
def State.partPlan (s : State) (f : Image) (mine : List Rec) (ss : List (Nat × Nat)) (segs : List (Nat × Nat × Nat))
    (ctx v : Nat) (others : List Image) : List Flt :=
  let tab := fun seg => let e := segAt segs v seg; (e.1, e.2 + liftOff)
  let before := effective f v others
  let was := s.planFaults before tab
  (s.planFaults (layPart before ctx (partRecs mine ss v)) tab).filterMap fun x =>
    if liftOff ≤ x.off then some { x with off := x.off - liftOff }
    else if x ∈ was then none else some { x with off := 0 }

/-- The faults of a partial image (R323): its own records, laid over the active full image and the active
and pending partial images of other contexts, under the base and every variant. -/
def State.partFaults (s : State) (q : Parsed) (ctx : Nat) : List Flt :=
  let ss := q.segs.map fun e => (e.1, e.2.1)
  let stray := q.recs.flatMap fun r => r.fltIf (decide (r.seg ≠ segIdent) && decide (r.seg ≠ segAlt) &&
    decide (recCtx r ≠ some ctx)) 0x0707
  let lone := (0 :: variantsOf ss).flatMap fun v =>
    let e := segAt q.segs v segContexts
    fltIf (decide ((recsOf (planRecs q.recs ss v) segContexts 1).length ≠ 1)) ⟨0x0106, segContexts, v, e.2⟩
  match s.cfg.full with
  | none => ⟨0x0707, 0, 0, 0⟩ :: (stray ++ lone)
  | some f =>
    let unknown := fltIf (!((ctxList (planRecs f.recs f.segs 0)).any fun c => decide (c = ctx)))
      ⟨0x0707, 0, 0, 0⟩
    let mine := q.recs.map fun r => { r with off := r.off + liftOff }
    let plans := (0 :: variantsOf (f.segs ++ ss)).flatMap fun v =>
      inVariant v ((s.besides ctx).flatMap fun others => s.partPlan f mine ss q.segs ctx v others)
    stray ++ lone ++ unknown ++ plans

/-- The operator key that is installed, if one is (R312, R444). -/
def State.opKey (s : State) : Option (List Byte) := s.opkey

/-- The outcome of a check: the fault to report, or the image that passed (R316, R317). -/
def State.checkImage (s : State) (p : Slot) (part : Bool) (slot : Nat) : Except Flt Image :=
  let (q, c) := s.containerFaults p part
  let ctx := s.imgNum p 7 1
  let rest := if c ≠ [] then [] else if part then s.partFaults q ctx else s.fullFaults q
  let sig := if c ≠ [] then [] else s.signatureFaults p s.opKey
  match firstFlt (c ++ rest ++ sig) with
  | some f => .error f
  | none => .ok ⟨part, slot, ctx, s.img p 32 32, q.segs.map fun e => (e.1, e.2.1), q.recs⟩

end Sys2Proof.Machine
end

