-- ==== Sys2Proof/Machine/Clocks.lean ====
section
/-!
DEFINITION. Clock regions and the village clock (14): frequency entries and changes (R350 to R356), stretches
and crossings (R357 to R363), the servo (R366), REFCLK (R349), and their rows.
-/

namespace Sys2Proof.Machine

open Sys2Proof

/-! ### Regions (R350 to R353) -/

def State.region (s : State) (r : Nat) : RegionSt := SMap.get RegionSt.idle s.regions r
def State.setRegion (s : State) (r : Nat) (x : RegionSt) : State :=
  { s with regions := SMap.set RegionSt.idle s.regions r x }

/-- The REGION record of a region. -/
def regionRec (rs : List Rec) (r : Nat) : Option Rec := recFind rs segClock 1 fun q => decide (q.u16 8 = r)
/-- Entries of a region's table. -/
def regionEntries (rs : List Rec) (r : Nat) : Nat := match regionRec rs r with
  | some q => q.u8 10
  | none => 0
/-- Frequency of an entry in units of 50 MHz. -/
def regionFreq (rs : List Rec) (r e : Nat) : Nat := match regionRec rs r with
  | some q => q.u8 (16 + 4 * e)
  | none => 0
/-- SUPPLY of an entry in mV. -/
def regionSupply (rs : List Rec) (r e : Nat) : Nat := match regionRec rs r with
  | some q => q.u16 (18 + 4 * e)
  | none => 0

/-- The site number that a region reports under: a site, or 32 + n for field Fn (R455). -/
def regionReporter (r : Nat) : Nat := (regionSite r).getD (32 + (r - 256) / 2)
/-- The site whose guard intervals a region keeps: its own, or for a field the vote node's. -/
def State.regionBell (s : State) (r : Nat) : Nat := (regionSite r).getD (treePort s.rs)

/-- FREQ of a region: what runs now, in units of 50 MHz. -/
def State.freqOf (s : State) (r : Nat) : Nat :=
  s.getF (Reg.CLK_REGION_STATUS r) Fld.CLK_REGION_STATUS_FREQ
/-- ENTRY of a region: what runs now. -/
def State.entryOf (s : State) (r : Nat) : Nat :=
  s.getF (Reg.CLK_REGION_STATUS r) Fld.CLK_REGION_STATUS_ENTRY

/-- Show whether a region runs, is throttled, is stopped by a trip or in reset, or is not present (R370). -/
def State.showRegion (s : State) (r : Nat) : State :=
  let x := s.region r
  s.setF (Reg.CLK_REGION_STATUS r) Fld.CLK_REGION_STATUS_STATE
    (if s.regionHere r = false then 5
      else if x.stopped then
        (if s.getF (Reg.CLK_REGION_STATUS r) Fld.CLK_REGION_STATUS_STATE = 4 then 4 else 3)
      else if x.powerDown ≠ 0 ∨ x.heatDown ≠ 0 then 2 else 0)

/-- The least common multiple of 1 to 60: stretch time is counted in `20 / (8 * lcm60)` ns, in which every
eighth of a period of R350 is whole. -/
def lcm60 : Nat := 9690712164777231700912800

/-- Number of a receive crossing. -/
def xingKey (r p : Nat) : Nat := 32 * r + p

/-- Show a crossing's state in CLK_XING; DEBT is Δ in eighths of a receiver period (R370). -/
def State.showXing (s : State) (key : Nat) (x : XingSt) : State :=
  let a := Reg.CLK_XING (key / 32) (key % 32)
  let f : Int := max 1 (s.freqOf (key / 32))
  let s := (s.setF a Fld.CLK_XING_VALID 1).setF a Fld.CLK_XING_SRC x.src
  let s := (s.setF a Fld.CLK_XING_LATENCY x.lat).setF a Fld.CLK_XING_SYMP (bit x.symp)
  s.setF a Fld.CLK_XING_DEBT (((x.debt * f).tdiv lcm60) % 256).toNat

/-- Put a crossing's state. -/
def State.putXing (s : State) (key : Nat) (x : XingSt) : State :=
  ({ s with xings := SMap.set XingSt.none s.xings key x }).showXing key x

/-- A region goes on at a frequency after a stop of `ns`: the cycles run so far are kept (R355), and DEBT of what it
receives counts the new periods. -/
def State.runAt (s : State) (r freq ns : Nat) : State :=
  let x := s.region r
  let s := s.setRegion r { x with
    cyc8 := x.cyc8 + (s.vt - x.since) * s.freqOf r * 8 / 20
    since := s.vt + ns }
  let s := s.setF (Reg.CLK_REGION_STATUS r) Fld.CLK_REGION_STATUS_FREQ freq
  if freq = 0 then s else
  s.xings.foldl (fun (s : State) kv => if kv.1 / 32 = r then s.showXing kv.1 kv.2 else s) s

/-- The entry that a region should run: the one granted, lowered by the larger of its two throttles
(R356, R404). -/
def RegionSt.demand (x : RegionSt) : Nat := x.entry - max x.powerDown x.heatDown

/-- A region runs the entry that it should, after a stop of `ns`. -/
def State.runDemand (s : State) (r ns : Nat) : State :=
  let x := s.region r
  if x.stopped then s else
  let s := s.runAt r (regionFreq s.rs r x.demand) ns
  (s.setF (Reg.CLK_REGION_STATUS r) Fld.CLK_REGION_STATUS_ENTRY x.demand).showRegion r

/-- A region's clock stops. -/
def State.stopRegion (s : State) (r : Nat) : State :=
  if s.regionHere r = false ∨ (s.region r).stopped = true then s else
  let s := s.runAt r 0 0
  (s.setRegion r { s.region r with stopped := true, heldReq := 0, lockout := 0, target := none }).showRegion r

/-- A stopped region starts again at its granted entry, its throttles let go. -/
def State.startRegion (s : State) (r : Nat) : State :=
  let s := s.setRegion r { s.region r with stopped := false, powerDown := 0, heatDown := 0 }
  s.runDemand r 0

/-- The regions of a site. -/
def siteRegions (i : Nat) : List Nat := (List.range 368).filter fun r => decide (regionSite r = some i)
/-- The cluster regions of a compute stack. -/
def clusterRegions (k : Nat) : List Nat := (List.range 12).map fun c => 24 * k + c

/-- The set point that R353 asks of a compute stack's VCMP rail, in mV. -/
def State.railNeed (s : State) (k : Nat) : Nat :=
  (clusterRegions k).foldl (fun m r =>
    let x := s.region r
    let need := fun e => regionSupply s.rs r e +
      6 * s.getF (Reg.CLK_REGION_STATUS r) Fld.CLK_REGION_STATUS_DERATE
    max m (max (need x.entry) (need (x.target.getD x.entry)))) 0

/-- The VCMP rail of the region's die takes the set point that R353 asks for (R354 steps 2 and 4). -/
def State.setRail (s : State) (r : Nat) : State :=
  if 192 ≤ r then s else { s with vcmp := SMap.set 0 s.vcmp (r / 24) (s.railNeed (r / 24)) }

/-- An activated CLOCKPLAN: a region whose record has changed goes to its INITIAL entry (R351, R370). `old` is
the configuration before. -/
def State.clockPlanUp (s : State) (old : List Rec) : State :=
  (List.range 368).foldl (fun (s : State) r =>
    match regionRec s.rs r with
    | none => s
    | some q =>
      if (regionRec old r).map (·.bytes) = some q.bytes then s else
      let s := s.setF (Reg.CLK_REGION_CTRL r) Fld.CLK_REGION_CTRL_TARGET (q.u8 11)
      let s := s.setRegion r { s.region r with entry := q.u8 11, target := none }
      (s.runDemand r 0).setRail r) s

/-- A bell begins at a site: its regions count the bell's stretches and cycles from here (R74, R84). -/
def State.regionsBegin (s : State) (i : Nat) : State :=
  let b := (s.bellAt i).began s.rs
  (siteRegions i).foldl (fun (s : State) r =>
    s.setRegion r { s.region r with periods := 0, eighths := 0, cyc8 := 0, since := max b (s.region r).since }) s

/-! ### Changing frequency (R354 to R356) -/

/-- A change to an entry begins: the standby PLL locks in 20 µs, and the rail rises in 40 µs more if R353 asks for more
than it holds (R354 steps 1 and 2; DEDUCED: without a rise step 2 takes no time, log 46). -/
def State.beginChange (s : State) (r e : Nat) : State :=
  if e < regionEntries s.rs r then
    let t := s.setRegion r { s.region r with target := some e, readyAt := s.vt + 20000 }
    if r < 192 ∧ SMap.get 0 s.vcmp (r / 24) < t.railNeed (r / 24) then
      (t.setRegion r { t.region r with readyAt := s.vt + 60000 }).setRail r
    else t.setRail r
  else s

/-- A write of CLK_REGION_CTRL.TARGET (R354): a change under way goes on, and the new target follows it
(R363). -/
def State.writeTarget (s : State) (req : Requester) (r e : Nat) : State :=
  let may := match req with
    | .mc => true
    | .host h => decide (s.hostCtx h = 0)
    | _ => false
  if may = false ∨ s.regionHere r = false then s else
  let s := s.setF (Reg.CLK_REGION_CTRL r) Fld.CLK_REGION_CTRL_TARGET e
  if (s.region r).target.isSome then s else s.beginChange r e

/-- TARGET (R354). -/
def execRegionTarget (r : Requester) (region : Fin 368) (target : Fin 16) (s : State) : Out :=
  .next (s.writeTarget r region target)

/-- May a region stop now, for `ns`, for a change that was ready at a time (R354): in a domain whose guard interval is at
least 250 ns, between 10 ns and 210 ns into one that began no earlier, so that 40 ns are left to clear tokens; in any other,
while it holds or stands at a settled boundary. Before its first START a domain holds (R332). -/
def State.mayStop (s : State) (r ready ns : Nat) : Bool :=
  let b := s.bellAt (s.regionBell r)
  if 250 ≤ guardNs s.rs then
    let g := guardAt b s.rs b.extNow
    b.guard && decide (ready ≤ g) && decide (g + 10 ≤ s.vt) && decide (s.vt + ns ≤ g + 210)
  else (decide (b.life = .held) || decide (b.life = .settling) || decide (b.life = .notStarted)) && decide (ready ≤ s.vt)

/-- A crossing that slipped and has a side that stops within the guard interval re-centres once, at the restart (R361,
R363); the pause hides the moment (log 46). -/
def State.stopCentres (s : State) (r : Nat) : State :=
  if (s.bellAt (s.regionBell r)).guard = false then s else
  s.xings.foldl (fun (s : State) kv =>
    if kv.2.slipped ∧ (kv.1 / 32 = r ∨ kv.2.src = r) then
      s.putXing kv.1 { kv.2 with slipped := false, debt := 0, symp := false }
    else s) s

/-- A region stops for `ns` and goes on at the entry that it should run; a held request is discarded (R354 step 3, R356,
R363). -/
def State.stopFor (s : State) (r ns : Nat) : State :=
  ((s.setRegion r { s.region r with heldReq := 0 }).runDemand r ns).stopCentres r

/-- REGION_STOP (R354 steps 3 and 4, R356, R363): the region stops for at most 200 ns and goes on at the entry
asked for, or, where a throttle has let go, at the entry that it may run again. A requested entry waits for
every throttle to let go. -/
def execRegionStop (region : Fin 368) (ns : Fin 201) (s : State) : Out :=
  let r := region.val
  let x := s.region r
  if x.stopped then .next s else
  let back := if s.entryOf r ≠ x.demand ∧ s.mayStop r 0 ns = true then s.stopFor r ns else s
  match x.target with
  | some e =>
    if x.powerDown = 0 ∧ x.heatDown = 0 ∧ s.mayStop r x.readyAt ns = true then
      let s := ((s.setRegion r { x with entry := e, target := none }).stopFor r ns).setRail r
      let t := s.getF (Reg.CLK_REGION_CTRL r) Fld.CLK_REGION_CTRL_TARGET
      .next (if t = e then s else s.beginChange r t)
    else .next back
  | none => .next back

/-- An emergency throttle puts a region's entry down at once, with a stop of `ns` (R356). -/
def State.throttle (s : State) (r ns : Nat) : State :=
  if s.entryOf r ≤ (s.region r).demand then s.showRegion r else s.stopFor r ns

/-! ### Stretches and crossings (R357 to R362) -/

/-- A crossing slips (R361, R428): it is reported and counted; a third slip within 1 s asks for a
recalibration at the next hold, and after one it retires the receiving cluster's cores or site. -/
def State.slip (s : State) (key : Nat) (x : XingSt) : State :=
  let r := key / 32
  let s := s.bump (Reg.CLK_XING r (key % 32)) Fld.CLK_XING_SLIPS 1
  let s := s.wearUp 8 key
  let s := s.raise (regionReporter r) 0x0A02 [r, key % 32]
  let slips := x.slips.filter (fun t => decide (s.vt ≤ t + 1000000000)) ++ [s.vt]
  if slips.length < 3 then s.putXing key { x with slips := slips, slipped := true }
  else
    let s := s.putXing key { x with slips := [], slipped := true, repair := max 1 x.repair }
    if x.repair ≠ 2 then s
    else if regionKind r = .cluster then
      let cs := ((List.range 8).map fun j => 8 * (r % 24) + j).filter fun c => decide (s.coreRole (r / 24) c = 0)
      { s with retireQ := s.retireQ ++ (cs.map fun c => 96 * (r / 24) + c).filter fun n => decide (n ∉ s.retireQ) }
    else match regionSite r with
      | some i => s.retireSite i
      | none => s

/-- A crossing's debt changes by stretch time of its sender (positive) or receiver (negative): demand from 2
receiver periods to 1, a slip at 3 (R360, R361). -/
def State.addDebt (s : State) (key : Nat) (d : Int) : State :=
  let x := SMap.get XingSt.none s.xings key
  let period : Int := 8 * (lcm60 / max 1 (s.freqOf (key / 32)) : Nat)
  let debt := x.debt + d
  let x := { x with
    debt := debt
    symp := if 2 * period ≤ debt ∨ debt ≤ -(2 * period) then true
            else if -period ≤ debt ∧ debt ≤ period then false else x.symp }
  if (3 * period ≤ debt ∨ debt ≤ -(3 * period)) ∧ x.slipped = false then s.slip key x else s.putXing key x

/-- Does a region stand still: stopped, or in the stop of a change (R362)? -/
def State.paused (s : State) (r : Nat) : Bool := (s.region r).stopped || decide (s.vt < (s.region r).since)

/-- A region lengthens a period by `k` eighths (R357, R358, R360): `ad` for an adaptive request, `sy` for a
sympathetic demand. A crossing whose other side stands still pauses, its debt unchanged (R362). -/
def State.stretch (s : State) (r k : Nat) (ad sy : Bool) : State :=
  let x := s.region r
  let s := s.setRegion r { x with
    periods := x.periods + 1, eighths := x.eighths + k, phase := x.phase - 20 * k
    lockout := if ad then 3 else x.lockout - 1
    heldReq := if ad then 0 else x.heldReq }
  let s := if ad then s.bump (Reg.CLK_REGION_STRETCH r) Fld.CLK_REGION_STRETCH_COUNT 1 else s
  let s := if sy then s.bump (Reg.CLK_REGION_SYMP r) Fld.CLK_REGION_SYMP_COUNT 1 else s
  let d : Int := k * (lcm60 / max 1 (s.freqOf r) : Nat)
  s.xings.foldl (fun (s : State) kv =>
    if kv.2.src = r then (if s.paused (kv.1 / 32) then s else s.addDebt kv.1 d)
    else if kv.1 / 32 = r then (if s.paused kv.2.src then s else s.addDebt kv.1 (-d)) else s) s

/-- Does a crossing call a region for sympathetic stretches: the side with less stretch (R360)? -/
def State.called (s : State) (r : Nat) : Bool :=
  s.xings.any fun kv => kv.2.symp &&
    (if 0 < kv.2.debt then decide (kv.1 / 32 = r) else decide (kv.2.src = r))

/-- ADAPTIVE_STRETCH (R357, R360, R363): a detector asks for 1 to 4 eighths. The region's next period outside its lockout
takes the largest request; a request that meets a stop is discarded. -/
def execAdaptiveStretch (region : Fin 368) (eighths : Fin 4) (s : State) : Out :=
  let r := region.val
  let x := s.region r
  if s.paused r = true ∨ s.freqOf r = 0 then .next s
  else .next (s.setRegion r { x with heldReq := max x.heldReq (eighths.val + 1) })

/-- The periods of a region that begin within a tick. -/
def State.periodsPass (s : State) (r : Nat) : Nat → State
  | 0 => s
  | n + 1 =>
    let x := s.region r
    if x.phase < 160 then s else
    let s := s.setRegion r { x with phase := x.phase - 160 }
    let ad := decide (x.lockout = 0) && decide (x.heldReq ≠ 0)
    let sy := s.called r
    let s :=
      if ad || sy then s.stretch r (if sy then 4 else x.heldReq) ad sy
      else s.setRegion r { s.region r with lockout := x.lockout - 1 }
    s.periodsPass r n

/-- One nanosecond of stretches: requests, lockouts and sympathetic demands take their periods (R357, R360; log 1), but
none in a stop (R363). -/
def State.stretchTick (s : State) : State :=
  let waiting := (s.regions.filter fun kv => decide (kv.2.lockout ≠ 0) || decide (kv.2.heldReq ≠ 0)).map (·.1)
  let led := ((s.xings.filter fun kv => kv.2.symp).map fun kv =>
    if 0 < kv.2.debt then kv.1 / 32 else kv.2.src)
  ((waiting ++ led).eraseDups).foldl (fun (s : State) r =>
    let x := s.region r
    if s.paused r then s else
    let s := s.setRegion r { x with phase := x.phase + 8 * s.freqOf r }
    s.periodsPass r 4) s

/-- In the guard interval of a site the crossings that slipped re-centre (R361). -/
def State.recentre (s : State) (i : Nat) : State :=
  s.xings.foldl (fun (s : State) kv =>
    if kv.2.slipped ∧ s.regionBell (kv.1 / 32) = i then
      s.putXing kv.1 { kv.2 with slipped := false, debt := 0, symp := false }
    else s) s

/-- Crossing calibration of regions with a property (R359): senders and latencies of 3 to 6 cycles, which the
spec leaves open (log 5), are measured; the debt starts at 0. -/
def State.calibrateXings (s : State) (p : Nat → Bool) : State :=
  (List.range 368).foldl (fun (s : State) r =>
    let srcs := ((List.range 368).filter fun q => Config.sendsTo q r && s.regionHere q && decide (q ≠ r)).take 32
    if s.regionHere r = false then s else
    (List.range srcs.length).foldl (fun (s : State) i =>
      let q := srcs.getD i 0
      if p r = false ∧ p q = false then s else
      let (n, s) := s.takeFree
      let x := SMap.get XingSt.none s.xings (xingKey r i)
      s.putXing (xingKey r i) { x with
        src := q, lat := 3 + (Config.freeWord n).toNat % 4, debt := 0, symp := false, slipped := false
        repair := if x.repair = 1 then 2 else x.repair }) s) s

/-- At a hold, crossings whose repair is due are calibrated with their two regions (R428). -/
def State.repairXings (s : State) : State :=
  let due := s.xings.filter fun kv => decide (kv.2.repair = 1)
  if due = [] then s
  else s.calibrateXings fun r => due.any fun kv => decide (kv.1 / 32 = r) || decide (kv.2.src = r)

/-! ### REFCLK (R349) -/

/-- REFCLK_LOSS: REFCLK has stopped for 1 µs; every PLL holds its frequency. -/
def execRefclkLoss (s : State) : Out :=
  if s.vc.refLost.isSome then .next s
  else .next ({ s with vc := { s.vc with refLost := some (s.vt - 1000) } }.raise mcSite 0x0A01 [])

/-- REFCLK_TIMEOUT: REFCLK has been absent for 1 ms: every region's clock stops, and with it every gateway. -/
def execRefclkTimeout (s : State) : Out :=
  match s.vc.refLost with
  | none => .next s
  | some t =>
    if s.vt < t + 1000000 then .next s else
    let s := (List.range 368).foldl (fun (s : State) r => s.stopRegion r) s
    .next (s.liveSites.foldl (fun (s : State) i => s.silence i) s)

/-- REFCLK_RETURN: the PLLs follow REFCLK again. -/
def execRefclkReturn (s : State) : Out := .next { s with vc := { s.vc with refLost := none } }

/-! ### The village clock (R364 to R368) -/

/-- STATE of the village clock: 0 free-running, 1 seeded, 2 acquiring, 3 locked, 4 holdover. -/
def State.vcState (s : State) : Nat := s.getF Reg.CLK_VC_STATUS Fld.CLK_VC_STATUS_STATE
/-- Is the package locked? A seeded package is (R368). -/
def State.vcLocked (s : State) : Bool := decide (s.vcState = 1) || decide (s.vcState = 3)

/-- CLK_VC_RATE shows the total correction in 10⁻¹² (R370). -/
def State.showRate (s : State) : State :=
  s.setF Reg.CLK_VC_RATE Fld.CLK_VC_RATE_RATE (twos32 ((s.rateTemp + s.rateServo) * 1000000000000 / 2 ^ 32))

/-- ±50 ppm of the rate word, the servo's limit (R364). -/
def servoLimit : Int := 214748

/-- TEMPERATURE_CORRECTION (R364): every 1 ms the temperature term follows the nearest sensor of F5 (pairs 10
and 11 lie at the MC). -/
def execTemperatureCorrection (s : State) : Out :=
  if s.vt < s.vc.tempAt + 1000000 then .next s else
  let temp := fun i =>
    let t := s.getF (Reg.THM_FSENSOR 5 i) Fld.THM_FSENSOR_TEMP
    if t < 2048 then (t : Int) else (t : Int) - 4096
  let s := { s with rateTemp := Config.rateTemp (max (temp 20) (temp 21)), vc := { s.vc with tempAt := s.vt } }
  .next s.showRate

/-- The link error in 1/16 ns over the codewords of an interval (R366). -/
def LinkSt.meanErr (l : LinkSt) : Option Int :=
  if l.errs = [] then none else some (16 * l.errs.sum / l.errs.length - 16 * l.delay)

/-- Judge one link at the servo's interval: its error, conflict and outlier; true: it takes part. -/
def State.judgeLink (s : State) (x : Nat) : State × Option Int :=
  let l := s.linkAt x
  let a := Reg.CLK_VC_LINK x
  let s := s.setLink x { l with errs := [] }
  match (if s.linkState x = 2 ∧ l.parked = false then l.meanErr else none) with
  | none => (s.setF a Fld.CLK_VC_LINK_USED 0, none)
  | some e =>
    let far := fun (ns : Int) => decide (16 * ns < e) || decide (e < -(16 * ns))
    let clash := s.vcLocked && far 1000
    let outlier := s.vcLocked && !clash && far 100
    let was := s.getF a Fld.CLK_VC_LINK_OUTLIER
    let s := s.setLink x { s.linkAt x with err := e, clash := clash }
    let s := (s.setF a Fld.CLK_VC_LINK_ERR (twos16 e)).setF a Fld.CLK_VC_LINK_CONFLICT (bit clash)
    let s := s.setF a Fld.CLK_VC_LINK_OUTLIER (bit outlier)
    let s := if clash ∧ l.clash = false then s.raise (linkSite x) 0x0A05 [x] else s
    let s := if outlier ∧ was = 0 then s.raise (linkSite x) 0x0A03 [x] else s
    let used := !clash && !outlier
    (s.setF a Fld.CLK_VC_LINK_USED (bit used), if used then some e else none)

/-- The servo term follows a package error and the sum of the errors by a proportional-integral law whose gains the spec
leaves open (log 5), within ±50 ppm (R366). -/
def State.servoStep (s : State) (e : Int) : State :=
  let sum := s.vc.sum + e
  { s with
    rateServo := max (-servoLimit) (min servoLimit (Config.servo e sum))
    vc := { s.vc with sum := sum } }

/-- How long the package error has been within 2 ns (R368). -/
def State.servoHolds (s : State) (e : Int) : State :=
  let ok := decide (-32 ≤ e) && decide (e ≤ 32)
  { s with vc := { s.vc with linkAt := s.vt, okSince := if ok then some (s.vc.okSince.getD s.vt) else none } }

/-- Judge every link at the servo's interval: the errors of those that take part. -/
def State.judgeLinks (s : State) : State × List Int :=
  (List.range 68).foldl (fun (p : State × List Int) x =>
    match p.1.judgeLink x with
    | (s, some e) => (s, p.2 ++ [e])
    | (s, none) => (s, p.2)) (s, [])

/-- A package whose error has been within 2 ns for 100 µs is locked (R368). -/
def State.servoLocks (s : State) : State :=
  let held := match s.vc.okSince with
    | some t => decide (t + 100000 ≤ s.vt)
    | none => false
  if s.vcState ∈ [2, 4] ∧ held = true then s.setF Reg.CLK_VC_STATUS Fld.CLK_VC_STATUS_STATE 3 else s

/-- The servo runs on the errors of the links that take part (R366, R368). -/
def State.servoRuns (s : State) (es : List Int) : State :=
  let e := es.sum / es.length
  (((s.setF Reg.CLK_VC_STATUS Fld.CLK_VC_STATUS_ERR (twos16 e)).servoStep e).servoHolds e).showRate.servoLocks

/-- SERVO_UPDATE (R366, R368): every 10 µs the link errors are judged and averaged, and the servo runs. -/
def execServoUpdate (s : State) : Out :=
  if s.vcState = 0 ∨ s.vc.waits = true ∨ s.vt < s.vc.servoAt + 10000 then .next s else
  let (s, es) := s.judgeLinks
  let s := s.setF Reg.CLK_VC_STATUS Fld.CLK_VC_STATUS_LINKS es.length
  let s := { s with vc := { s.vc with servoAt := s.vt } }
  .next (if es = [] then s else s.servoRuns es)

/-- CLOCK_HOLDOVER (R366): a locked package has had no link taking part for 1 ms: it runs on compensation
alone. -/
def execClockHoldover (s : State) : Out :=
  if s.vcLocked = false ∨ s.vt < s.vc.linkAt + 1000000 then .next s else
  let s := { s with rateServo := 0, vc := { s.vc with okSince := none, sum := 0 } }
  let s := s.setF Reg.CLK_VC_STATUS Fld.CLK_VC_STATUS_STATE 4
  .next (s.showRate.raise mcSite 0x0A04 [])

end Sys2Proof.Machine
end

