-- ==== Sys2Proof/Machine/Activate.lean ====
section
/-!
DEFINITION. The configuration store at work (R316 to R328): ENABLE and its check, pending images, the root's
SETTLE, and what an activation changes; with the rows of CFG_CTRL, CFG_ACTIVATE and CFG_ALT.
-/

namespace Sys2Proof.Machine

open Sys2Proof

/-! ### Sync frames from a site (R198) -/

/-- Send a sync frame from a site under its next SEQ. -/
def State.sendFrameTo (s : State) (site : Nat) (dir : FrameDir) (t : FrameType) (bell arg : Nat) : State :=
  let q := SMap.get 0 s.seqs site
  ({ s with seqs := SMap.set 0 s.seqs site ((q + 1) % 16) }).emit (.frame site dir ⟨t, q, bell, arg⟩)

/-- The root cries down the tree, from the vote node (R133). -/
def State.cry (s : State) (t : FrameType) (bell arg : Nat) : State :=
  s.sendFrameTo (treePort s.rs) .down t bell arg

/-- The first bell whose boundary lies at least C after now (R150, R319). A START ends no bell and is no such
boundary. In a late-commit hold the next boundary is that of HOLD_UNTIL, or, while the root has cried none, one at
least C away (R135). -/
def State.firstBellAhead (s : State) : Nat :=
  let b := s.bellAt (treePort s.rs)
  let from_ := b.began s.rs
  let t := s.vt + cryTime s.rs
  let next := if b.life ≠ .lateHold then bellEnd b s.rs b.extNow else match b.holdFor with
    | some (k, u) => if k = b.bell then u else t
    | none => t
  if b.life = .abandoning then b.startBell + 1
  else if t ≤ from_ then b.bell
  else if t ≤ next then b.bell + 1
  else b.bell + 1 + (t - next + periodNs s.rs - 1) / max 1 (periodNs s.rs)

/-! ### What waits to be activated (R318, R319) -/

/-- Is a change pending? -/
def State.changePending (s : State) : Bool :=
  s.cfg.pendFull.isSome || decide (s.cfg.pendPart ≠ []) || s.cfg.pendAlt.isSome

/-- The records of two configurations that make a change need a settled boundary (R318). -/
def heavyRecs (rs : List Rec) : List (Nat × Nat × List Byte) :=
  (rs.filter fun r => !(decide (r.seg ∈ [segIdent, segGranary, segClock, segTithe, segCal]))).map fun r =>
    (r.seg, r.kind, r.bytes)

/-- Does the pending full image activate at the next bell boundary (R318)? -/
def State.lightPending (s : State) : Bool :=
  match s.cfg.pendFull with
  | some i => s.cfg.full.isSome && decide (s.cfg.partials = []) && decide (s.cfg.variant = 0) &&
      decide (heavyRecs (effective i 0 []) = heavyRecs s.cfg.eff)
  | none => false

/-- Is the pending change to be activated at a settled boundary before a bell (R319)? A hold that is cried while the
domain settles activates it whatever its bell (R322). -/
def State.activateReady (s : State) (bell : Nat) : Bool :=
  decide (s.getF Reg.CFG_ACTIVATE Fld.CFG_ACTIVATE_VALID = 0) ||
  decide (s.getF Reg.CFG_ACTIVATE Fld.CFG_ACTIVATE_BELL ≤ bell) ||
  (decide ((s.bellAt (treePort s.rs)).life = .held) && s.node.settleAt.isSome)

/-- The root cries SETTLE once its own pending change has passed and its CFG_ACTIVATE is valid (R151, R319). -/
def State.trySettle (s : State) : State :=
  let b := s.bellAt (treePort s.rs)
  if isRoot s.rs ∧ s.changePending = true ∧ s.getF Reg.CFG_ACTIVATE Fld.CFG_ACTIVATE_VALID = 1 ∧
      s.node.settleAt = none ∧ (b.executing = true ∨ b.life = .lateHold ∨ b.life = .abandoning) then
    let n := max (s.getF Reg.CFG_ACTIVATE Fld.CFG_ACTIVATE_BELL) s.firstBellAhead
    { s with node := { s.node with settleAt := some n } }.cry .settle n 0
  else s

/-! ### What an activation changes -/

/-- The bell registers that BELLPLAN and LINKMAP set (R159). -/
def State.bellPlanUp (s : State) : State :=
  let rs := s.rs
  let a := Reg.BELL_PLAN
  let s := (s.setF a Fld.BELL_PLAN_PERIOD (periodNs rs / 250)).setF a Fld.BELL_PLAN_GUARD (guardNs rs / 10)
  let s := (s.setF a Fld.BELL_PLAN_D (depthD rs)).setF a Fld.BELL_PLAN_EXT_MAX (extMax rs)
  let a := Reg.BELL_PLAN2
  let s := (s.setF a Fld.BELL_PLAN2_EXT_Q (extQ rs / 250)).setF a Fld.BELL_PLAN2_LEAD (leadNs rs / 250)
  let s := s.setF a Fld.BELL_PLAN2_DRAIN (drainNs rs / 250)
  let s := s.setF Reg.BELL_STATUS Fld.BELL_STATUS_ROOT (bit (isRoot rs))
  s.setF Reg.BELL_STATUS Fld.BELL_STATUS_DEPTH (treeDepth rs)

/-- Is a line of the cache of stack `k` still in a cached window? -/
def State.lineCached (s : State) (k : Nat) (l : CacheLine) : Bool :=
  s.cachedFor k l.ctx l.bridge (l.line * 256)

/-- The cached windows of a stack: context, bridge, base and length (R165). -/
def cachedWindows (rs : List Rec) (k : Nat) : List (Nat × Nat × Nat × Nat) :=
  ((recsOf rs segMem 3).filter fun r => decide (r.u8 10 / 2 ^ k % 2 = 1)).map fun r =>
    (r.u8 8, r.u8 9, r.u64 16, r.u64 24)

/-- Cache lines of a stack that an activation invalidates go, counted (R167, R178). -/
def State.cacheInv (s : State) (k : Nat) (p : CacheLine → Bool) : State :=
  let n := ((s.stackAt k).lines.filter fun kv => p kv.2).length
  (s.cacheDrop k p).bump (Reg.MEM_CACHE_INV k) Fld.MEM_CACHE_INV_COUNT n

/-- A compute stack takes the SCRATCH_SIZE of MEMPLAN: every frame that changes role is 0 (R163, R164). Every cache line
goes where SCRATCH_SIZE or its cached windows change, else those of contexts that have none there (R167). `was` is the
configuration before. -/
def State.scratchUp (s : State) (was : List Rec) (k : Nat) : State :=
  let old := s.scratch k
  let new := scratchSize s.rs k
  let s := s.setF (Reg.MEM_CACHE_CFG k) Fld.MEM_CACHE_CFG_SCRATCH (new / 2 ^ 26)
  let s := s.setF (Reg.MEM_CACHE_CFG k) Fld.MEM_CACHE_CFG_SETS ((65536 - new / 16384) / 16)
  if old ≠ new then (s.zeroMem k (min old new) (max old new - min old new)).cacheInv k fun _ => true
  else if cachedWindows was k ≠ cachedWindows s.rs k then s.cacheInv k fun _ => true
  else s.cacheInv k fun l => !(s.lineCached k l)

/-- A bridge takes the fix area of MEMPLAN (R176, R179). -/
def State.fixUp (s : State) (b : Nat) : State :=
  let (base, size) := fixArea s.rs b
  let a := Reg.MEM_FIX_CFG b
  let s := (s.setF a Fld.MEM_FIX_CFG_SIZE (size / 2 ^ 20)).setF a Fld.MEM_FIX_CFG_BASE_VALID (bit (decide (size ≠ 0)))
  s.setF a Fld.MEM_FIX_CFG_BASE (base / 2 ^ 20)

/-- The registers of the structures that an image sets, package by package: bell plan, tithes, memories,
reservations, links and clock regions. `old` is the configuration before. -/
def State.planUp (s : State) (old : List Rec) : State :=
  let s := s.bellPlanUp
  let s := (List.range 32).foldl (fun (s : State) i =>
    let s := (List.range 9).foldl (fun (s : State) c =>
      s.setF (Reg.TITHE_BUDGET i c) Fld.TITHE_BUDGET_BUDGET (titheBudget s.rs i c)) s
    s.setF (Reg.FAB_RESV i) Fld.FAB_RESV_RESV
      (recField s.rs segFabric 1 (fun r => decide (r.u8 8 = i)) (·.u8 9) 0)) s
  let s := (List.range 8).foldl (fun (s : State) k => s.scratchUp old k) s
  let s := (List.range 12).foldl (fun (s : State) b => s.fixUp (8 + b)) s
  (s.linksUp).clockPlanUp old

/-- Logically clear every core store and cluster memory of a stack (R437). -/
def State.clearStores (s : State) (k : Nat) : State :=
  (s.zeroMem k (clusterBase 0) (12 * 0x1000000)).zeroMem k (coreStoreBase 0) (96 * 0x100000)

/-- A context is activated afresh (R87, R439, R449): phase 0, the step base that CORE_STEP_BASE holds, its
core stores and cluster memories cleared, its rings empty, an entry in its ledger. -/
def State.contextUp (s : State) (ctx : Nat) (digest : List Byte) : State :=
  let s := (List.range 32).foldl (fun (s : State) i =>
    let b := s.bellAt i
    let s := s.setBell i { b with
      phases := SMap.del ctx b.phases
      snaps := b.snaps.map fun n => { n with phases := SMap.del ctx n.phases, bases := SMap.del ctx n.bases } }
    if i < 8 ∧ b.resident = ctx then s.clearStores i else s) s
  let mine := (s.ringRecs.filter fun r => decide (ringCtx r = ctx)).map (·.u16 8)
  let s := { s with rings := s.rings.filter fun kv => decide (kv.1 ∉ mine) }
  s.ledgerAdd ctx 0 0 0 mcSite 0 digest

/-- The records of a context that a full activation compares (R321). -/
def ctxRecs (rs : List Rec) (ctx : Nat) : List (Nat × Nat × List Byte) :=
  (rs.filter fun r => decide (recCtx r = some ctx)).map fun r => (r.seg, r.kind, r.bytes)

/-- Put a new configuration in force: `cfg` with its effective records. The contexts of `fresh` are activated
afresh. -/
def State.putConfig (s : State) (cfg : CfgSt) (fresh : List Nat) (digest : List Byte) : State :=
  let old := s.rs
  let gone := (s.ringRecs.filter fun r => !(decide (ringCtx r ∈ ctxList cfg.eff))).map (·.u16 8)
  let s := { s with cfg := cfg, rings := s.rings.filter fun kv => decide (kv.1 ∉ gone) }
  let s := s.planUp old
  let s := s.setF Reg.CFG_ALT Fld.CFG_ALT_ACTIVE cfg.variant
  fresh.foldl (fun (s : State) c => s.contextUp c digest) s

/-- CFG_DIGEST shows the DIGEST of the active full image (R328). -/
def State.showDigest (s : State) (d : List Byte) : State :=
  (List.range 8).foldl (fun (s : State) i =>
    s.setF (Reg.CFG_DIGEST i) Fld.CFG_DIGEST_DIGEST (leNat ((d.drop (4 * i)).take 4))) s

/-- CFG_PARTIAL of every context (R328). -/
def State.syncPartials (s : State) : State := (List.range 256).foldl (fun (s : State) c => s.syncPartial c) s

/-- The first reason for which a plan cannot be activated: a core that is not enabled or a site that is not
live (R322, R325). -/
def State.unusable (s : State) (rs : List Rec) : Option Flt :=
  let t := s.underPlan rs
  let cores := (recsOf rs segPrograms 2).flatMap fun r =>
    r.fltIf (decide (t.coreRole (r.u8 9) (r.u8 10) ≠ 0)) 0x0201 ++ r.fltIf (!(t.live (r.u8 9))) 0x0202
  firstFlt ((t.siteFlts.filter fun f => decide (f.code ≠ 0x0203)) ++ cores)

/-- CFG_STATUS reports a refusal (R317). -/
def State.refuseCfg (s : State) (f : Flt) : State :=
  let a := Reg.CFG_STATUS
  let s := s.setCfgState 3
  let s := (s.setF a Fld.CFG_STATUS_REASON f.code).setF a Fld.CFG_STATUS_SEGMENT f.seg
  (s.setF a Fld.CFG_STATUS_VARIANT f.var).setF a Fld.CFG_STATUS_OFFSET f.off

/-- CFG_STATUS after an image has been put in force: 5, or 4 while its installation runs (R320). -/
def State.installed (s : State) (atOnce : Bool) : State :=
  let s := { s with cfg := { s.cfg with install := !atOnce } }
  s.setCfgState (if atOnce then 5 else 4)

/-- A full image activates (R321): partial images and the variant end, the bindings of drawn host cores end,
a context whose records are unchanged goes on. -/
def State.activateFull (s : State) (i : Image) (atOnce : Bool) : State :=
  let eff := effective i 0 []
  match s.unusable eff with
  | some f => { s with cfg := { s.cfg with pendFull := none } }.refuseCfg f
  | none =>
    let fresh := (ctxList eff).filter fun c => s.cfg.full.isNone || decide (ctxRecs eff c ≠ ctxRecs s.rs c)
    let cfg := { s.cfg with full := some i, variant := 0, partials := [], eff := eff, pendFull := none, pendAlt := none }
    let s := { s with hostTake := [] }
    let s := (s.putConfig cfg fresh i.digest).showDigest i.digest
    (s.syncPartials).installed atOnce

/-- A partial image activates (R324): its context is replaced and activated afresh. -/
def State.activatePart (s : State) (i : Image) : State :=
  match s.cfg.full with
  | none => s
  | some f =>
    let parts := (s.cfg.partials.filter fun p => decide (p.ctx ≠ i.ctx)) ++ [i]
    let pend := s.cfg.pendPart.filter fun p => decide (p.ctx ≠ i.ctx)
    let eff := effective f s.cfg.variant parts
    match s.unusable (partRecs i.recs i.segs s.cfg.variant) with
    | some e => { s with cfg := { s.cfg with pendPart := pend } }.syncPartial i.ctx |>.refuseCfg e
    | none =>
      let s := s.putConfig { s.cfg with partials := parts, eff := eff, pendPart := pend } [i.ctx] i.digest
      (s.syncPartial i.ctx).installed false

/-- A variant is selected (R325, R326): contexts whose records change are activated afresh. -/
def State.activateAlt (s : State) (v : Nat) : State :=
  match s.cfg.full with
  | none => { s with cfg := { s.cfg with pendAlt := none } }
  | some f =>
    let eff := effective f v s.cfg.partials
    match s.unusable eff with
    | some e => { s with cfg := { s.cfg with pendAlt := none } }.refuseCfg e
    | none =>
      let fresh := (ctxList eff).filter fun c => decide (ctxRecs eff c ≠ ctxRecs s.rs c)
      (s.putConfig { s.cfg with variant := v, eff := eff, pendAlt := none } fresh f.digest).installed false

/-- CFG_ACTIVATE is cleared (R319, R328). -/
def State.clearActivate (s : State) : State :=
  (s.setF Reg.CFG_ACTIVATE Fld.CFG_ACTIVATE_VALID 0).setF Reg.CFG_ACTIVATE Fld.CFG_ACTIVATE_BELL 0

/-- At a settled boundary, or before the first bell (`cold`), what is pending and due activates: the full image,
the partial images, the variant; CFG_ACTIVATE is then cleared (R319). -/
def State.activateSettled (s : State) (bell : Nat) (cold : Bool) : State :=
  if s.changePending = false ∨ (cold = false ∧ s.activateReady bell = false) then s else
  let s := match s.cfg.pendFull with
    | some i => s.activateFull i cold
    | none => s
  let s := s.cfg.pendPart.foldl (fun (s : State) i => s.activatePart i) s
  let s := match s.cfg.pendAlt with
    | some v => s.activateAlt v
    | none => s
  let s := s.clearActivate
  { s with node := { s.node with settleAt := none } }

/-- At a bell boundary, a pending full image that changes no running program activates (R318). -/
def State.activateNext (s : State) : State :=
  match s.cfg.pendFull with
  | some i => if s.lightPending then (s.activateFull i true).clearActivate else s
  | none => s

/-! ### ENABLE and its check (R316, R317) -/

/-- STEP of the cold start (R348). -/
def State.startStep (s : State) : Nat := s.getF Reg.CFG_START_STATUS Fld.CFG_START_STATUS_STEP
def State.setStep (s : State) (n : Nat) : State := s.setF Reg.CFG_START_STATUS Fld.CFG_START_STATUS_STEP n

/-- Before the first bell whatever has passed activates at once (R318). -/
def State.coldActivate (s : State) : State :=
  if (s.bellAt (treePort s.rs)).life ≠ .notStarted then s
  else
    let s := s.activateSettled 0 true
    if s.cfg.full.isSome ∧ s.startStep = 8 then s.setStep 9 else s

/-- A write of CFG_CTRL.ENABLE: the slot locks and the check starts; it judges the structure as it stands now. The start
goes past step 7 only where the slot is there (R307). While a check runs it is ignored (R322), as after a boot stage that fails (R445). -/
def State.enable (s : State) (part : Bool) (slot : Nat) : State :=
  if s.cfg.check.isSome ∨ s.power.on = false ∨ s.getF Reg.SEC_STATUS Fld.SEC_STATUS_FAIL ≠ 0 then s else
  let s := if part = false ∧ s.startStep = 7 ∧ (s.slotPlace part slot).isSome = true then s.setStep 8 else s
  let a := Reg.CFG_STATUS
  let s := ((s.setCfgState 1).setF a Fld.CFG_STATUS_KIND (bit part)).setF a Fld.CFG_STATUS_SLOT slot
  let verdict : Except Flt Image := match s.slotPlace part slot with
    | some (site, base, size) => s.checkImage ⟨site, base, size⟩ part slot
    | none => .error ⟨0x0102, 0, 0, 0⟩
  match verdict with
  | .ok i => { s with cfg := { s.cfg with check := some (part, slot), fault := none, found := some i } }
  | .error f =>
    { s with cfg := { s.cfg with check := some (part, slot), fault := some (f.code, f.seg, f.var, f.off), found := none } }

/-- CFG_CTRL.KIND and SLOT take what is written. -/
def State.ctrlSlot (s : State) (part : Bool) (slot : Nat) : State :=
  (s.setF Reg.CFG_CTRL Fld.CFG_CTRL_KIND (bit part)).setF Reg.CFG_CTRL Fld.CFG_CTRL_SLOT slot

/-- ENABLE (R316). -/
def execCfgEnable (part : Bool) (slot : Fin 64) (s : State) : Out :=
  .next ((s.ctrlSlot part slot).enable part slot)

/-- A checked image passes: a full image becomes the only pending one and withdraws what was pending, a partial
image becomes its context's pending one (R318, R322). -/
def State.passImage (s : State) (i : Image) : State :=
  let s := s.setCfgState 2
  if i.part then
    ({ s with cfg := { s.cfg with pendPart := s.cfg.pendPart ++ [i] } }.syncPartial i.ctx).trySettle.coldActivate
  else
    let s := s.cfg.pendPart.foldl (fun (s : State) p => s.withdrawPart p) s
    { s with cfg := { s.cfg with pendFull := some i } }.trySettle.coldActivate

/-- ENABLE_CHECK_DONE (R316 to R318): the check completes: the image is pending, or refused with one reason and
its slot unlocks. -/
def execEnableCheckDone (s : State) : Out :=
  match s.cfg.check with
  | none => .next s
  | some _ =>
    let cfg := { s.cfg with check := none, fault := none, found := none }
    match s.cfg.found, s.cfg.fault with
    | some i, _ => .next ({ s with cfg := cfg }.passImage i)
    | none, some (c, g, v, o) => .next ({ s with cfg := cfg }.refuseCfg ⟨c, g, v, o⟩)
    | none, none => .next { s with cfg := cfg }

/-- CANCEL (R322, R328): a check stops, or a pending image is withdrawn: STATE 6, the slot unlocks. -/
def State.cancel (s : State) (part : Bool) (slot : Nat) : State :=
  if s.cfg.check = some (part, slot) then
    { s with cfg := { s.cfg with check := none, fault := none, found := none } }.setCfgState 6
  else if part = false ∧ s.cfg.pendFull.any (fun i => decide (i.slot = slot)) = true then
    { s with cfg := { s.cfg with pendFull := none } }.setCfgState 6
  else match (if part then s.cfg.pendPart.find? fun i => decide (i.slot = slot) else none) with
    | some i => (s.withdrawPart i).setCfgState 6
    | none => s

/-- CANCEL. -/
def execCfgCancel (part : Bool) (slot : Fin 64) (s : State) : Out :=
  .next ((s.ctrlSlot part slot).cancel part slot)

/-- A write of CFG_ACTIVATE. -/
def State.writeActivate (s : State) (valid : Bool) (bell : Nat) : State :=
  let s := s.setF Reg.CFG_ACTIVATE Fld.CFG_ACTIVATE_VALID (bit valid)
  (s.setF Reg.CFG_ACTIVATE Fld.CFG_ACTIVATE_BELL bell).trySettle

/-- CFG_ACTIVATE (R319). -/
def execCfgActivate (valid : Bool) (bell : BitVec 48) (s : State) : Out := .next (s.writeActivate valid bell.toNat)

/-- A write of CFG_ALT.SELECT (R326): a variant that is absent is refused, as every one is while no full image is
active, and what was pending goes, since the active plan is kept; any other than the one that runs is pending. -/
def State.selectAlt (s : State) (v : Nat) : State :=
  let s := s.setF Reg.CFG_ALT Fld.CFG_ALT_SELECT v
  match s.cfg.full with
  | none => if v = 0 then s else s.refuseCfg ⟨0x0104, 0, v, 0⟩
  | some f =>
    if v ≠ 0 ∧ v ∉ variantsOf f.segs then
      { s with cfg := { s.cfg with pendAlt := none } }.refuseCfg ⟨0x0104, 0, v, 0⟩
    else
      let pend := if v = s.cfg.variant then none else some v
      { s with cfg := { s.cfg with pendAlt := pend } }.trySettle.coldActivate

/-- ALT_SELECT (R326). -/
def execAltSelect (v : Fin 16) (s : State) : Out := .next (s.selectAlt v)

/-- INSTALLATION_DONE (R320). -/
def execInstallationDone (s : State) : Out :=
  if s.cfg.install then
    .next ({ s with cfg := { s.cfg with install := false } }.setF Reg.CFG_STATUS Fld.CFG_STATUS_STATE 5)
  else .next s

end Sys2Proof.Machine
end

