-- ==== Sys2Proof/Machine/Optical.lean ====
section
/-!
DEFINITION. Optical control loops and calibration (15): lock loops and feed-forward (R374 to R378), identity
(R379 to R381), heaters (R372), comb bias (R382, R383) and brackets (R384 to R389), with their rows.
-/

namespace Sys2Proof.Machine

open Sys2Proof

/-- A number as a two's-complement field of `w` bits. -/
def twosN (w : Nat) (x : Int) : Nat := (x % 2 ^ w).toNat
/-- A two's-complement field of `w` bits as a number. -/
def sintN (w n : Nat) : Int := if n < 2 ^ (w - 1) then (n : Int) else (n : Int) - 2 ^ w

/-! ### Limits (R387) -/

/-- Coefficient codes with LOW, HIGH and STEP by default. -/
def calDefaults : List (Nat × Int × Int × Nat) := [
  (0x10, -96, 96, 8), (0x11, 0, 15, 1), (0x12, -16, 0, 1), (0x13, -24, 0, 1), (0x14, -8, 31, 1),
  (0x20, -512, 512, 16), (0x30, -1024, 0, 32), (0x31, 25, 2000, 125), (0x40, 600, 1800, 5), (0x50, -48, 48, 4)]

/-- Is a change of a coefficient accepted by CALPOLICY's LIMIT record or the defaults? -/
def calOk (rs : List Rec) (code : Nat) (old new : Int) : Bool :=
  let (low, high, step) := match recFind rs segCal 2 fun r => decide (r.u16 8 = code) with
    | some r => (sint32 (r.u32 16), sint32 (r.u32 20), r.u32 12)
    | none => match calDefaults.find? fun d => decide (d.1 = code) with
      | some d => (d.2.1, d.2.2.1, d.2.2.2)
      | none => (0, 0, 0)
  decide (low ≤ new) && decide (new ≤ high) && decide (new - old ≤ step) && decide (old - new ≤ step)

/-! ### Rings -/

/-- Slot of a ring (R391). -/
def ringSlot (n : Nat) : Nat := if n < 2432 then n % 32 else (n - 2432) % 18
/-- Direction of a ring: 0 transmit, 1 receive. -/
def ringDir (n : Nat) : Nat := if n < 2432 then n / 32 % 2 else (n - 2432) / 18 % 2
/-- The carrier of a base ring of a site: sender, receiver and plane (R183); none for an external ring. -/
def ringCarrier (i n : Nat) : Option (Nat × Nat × Nat) :=
  if 2432 ≤ n then none
  else if n / 64 < 36 then
    (if n / 32 % 2 = 0 then some (i, (i + n % 32) % 32, n / 64) else some ((i + 32 - n % 32) % 32, i, n / 64))
  else some (n % 32, i, n / 64)
/-- The link and slot of an external ring of an engine's site. -/
def ringWave (i n : Nat) : Option (Nat × Nat) :=
  if n < 2432 then none else some (linkNum (i - 20) ((n - 2432) / 36), (n - 2432) % 18)

/-- Is a ring there: on a slot of its site, and external rings at link engines only? -/
def ringThere (i n : Nat) : Bool :=
  if n < 2432 then true
  else decide (20 ≤ i) && decide (i < 28) && decide ((n - 2432) / 36 < 8 ∨ i = 20 ∨ i = 24)

/-- Is a ring retired (R483 TYPE 8)? -/
def State.ringRetired (s : State) (i n : Nat) : Bool := decide (s.grnGet 8 i n 0 / 2 = 1)
/-- Is a guest site empty, or refused (R16)? -/
def State.guestAbsent (s : State) (i : Nat) : Bool :=
  decide (28 ≤ i) && s.power.on &&
  (!(s.populated i) || decide (s.getF (Reg.SEC_GUEST (i - 28)) Fld.SEC_GUEST_STATE = 3))

/-- Do the rings of a site lock again: its field restarts (R342), or the module is 25 ms into its wake (R409)? -/
def State.relocking (s : State) (i : Nat) : Bool :=
  decide (s.getF (Reg.FAB_FIELD_RESET (homeField i)) Fld.FAB_FIELD_RESET_STATE = 3) ||
  (s.live i && decide (s.getF Reg.PWR_STATUS Fld.PWR_STATUS_STATE = 4) && decide (s.power.wakeAt + 25000000 ≤ s.vt))

/-- STATE of a ring on which no loop has acted since its site was last lit or dark (R16, R341, R409). -/
def State.ringRest (s : State) (i : Nat) : Nat :=
  if s.guestAbsent i then 5 else if i ∈ s.lit then 3 else if s.relocking i then 1 else
    match s.getF (Reg.FAB_FIELD_RESET (homeField i)) Fld.FAB_FIELD_RESET_STATE with
    | 1 => 4 | 2 => 5 | _ => 0

/-- STATE of a ring (R391): 0 off, 1 acquiring, 2 verifying, 3 locked, 4 holding, 5 parked, 6 retired. -/
def State.ringState (s : State) (i n : Nat) : Nat :=
  if ringThere i n = false then 0 else if s.ringRetired i n then 6 else (s.ringCal i n).st.getD (s.ringRest i)
/-- The slot a ring holds: 63 none. -/
def State.ringLocked (s : State) (i n : Nat) : Nat :=
  if s.ringState i n = 3 then ringSlot n else (s.ringCal i n).held.getD 63

/-- The codes of HA and HB as they stand: a parked ring is half a slot (100 GHz, 819 codes) from its lock, toward
higher frequency where the heater range allows it (R341). -/
def State.ringHeat (s : State) (i n : Nat) : BitVec 64 :=
  let v := s.reg (Reg.CAL_RING_HEAT i n)
  if s.ringState i n ≠ 5 then v else
  let f := if (s.ringCal i n).hb then Fld.CAL_RING_HEAT_CODE_B else Fld.CAL_RING_HEAT_CODE_A
  let c := f.get v
  f.put v (if 819 ≤ c then c - 819 else c + 819)

/-- The code of the driving segment. -/
def State.ringCode (s : State) (i n : Nat) : Nat :=
  s.getF (Reg.CAL_RING_HEAT i n) (if (s.ringCal i n).hb then Fld.CAL_RING_HEAT_CODE_B else Fld.CAL_RING_HEAT_CODE_A)
/-- Set the code of the driving segment, within its 16 bits. -/
def State.setRingCode (s : State) (i n : Nat) (c : Int) : State :=
  s.setF (Reg.CAL_RING_HEAT i n)
    (if (s.ringCal i n).hb then Fld.CAL_RING_HEAT_CODE_B else Fld.CAL_RING_HEAT_CODE_A)
    (max 0 (min 65535 c)).toNat

/-- Nearest whole number of a fraction, halves away from zero. -/
def nearest (a : Int) (d : Nat) : Int :=
  if 0 ≤ a then (2 * a + d) / (2 * max 1 d : Nat) else -((-2 * a + d) / (2 * max 1 d : Nat))

/-- The expectation of R373 at a ring temperature in 0.25 °C: 78.6 codes per °C. -/
def State.ringExpect (s : State) (i n : Nat) (temp : Int) : Int :=
  s.getF (Reg.CAL_RING_ID i n) Fld.CAL_RING_ID_EXPECT + nearest ((temp - (s.ringCal i n).te) * 1965) 100

/-- CARRIER_RETURN (R190): a carrier that left service returns to its stripe: its rings at both ends are locked again on its
slot, with their identity, and have been for the 10 µs for which its framing has been clean. -/
def execCarrierReturn (tx rx : Site) (plane : Fin 36) (s : State) : Out :=
  let w := (rx.val + 32 - tx.val) % 32
  let ok := fun (i n : Nat) => decide (s.ringState i n = 3) && decide ((s.ringCal i n).lockAt + 10000 ≤ s.vt)
  let locked := ok tx (64 * plane.val + w) && ok rx (64 * plane.val + 32 + w)
  let clean := (s.outOf tx rx).any fun e => decide (e.1 = plane.val) && decide (e.2 + 10000 ≤ s.vt)
  if !locked || !clean then .next s else
  let s := s.setOut tx rx ((s.outOf tx rx).filter fun e => decide (e.1 ≠ plane.val))
  .next (s.follow tx rx plane)

/-! ### A ring's channel leaves service (R376, R390) -/

/-- The bracket of a ring's channel, if its channel is bracketed. -/
def State.ringBracket (s : State) (i n : Nat) : Option Bracket :=
  match ringCarrier i n, ringWave i n with
  | some (tx, rx, q), _ => s.brackets.find? fun b =>
      !b.wave && decide (b.tx = tx) && decide (b.rx = rx) && decide (b.ch = q)
  | _, some (x, w) => s.brackets.find? fun b =>
      b.wave && decide (b.tx = linkSite x) && decide (b.rx = (linkHome x).2) && decide (b.ch + 1 = w)
  | _, _ => none

/-- A bracket begins or has ended: BRACKET of its link shows it, and the stripe of its pair or link follows (R193, R386). -/
def State.bracketShown (s : State) (b : Bracket) (on : Nat) : State :=
  if b.wave then (s.setF (Reg.LNK_STATUS b.tx b.rx) Fld.LNK_STATUS_BRACKET on).showWaves (linkNum (b.tx - 20) b.rx)
  else s.restripe b.tx b.rx

/-- A bracket ends. -/
def State.takeBracket (s : State) (b : Bracket) : State :=
  { s with brackets := s.brackets.filter fun c => decide (c ≠ b) }

/-- Abandon the bracket of a ring's channel: the old coefficients stay (R390). -/
def State.dropRingBracket (s : State) (i n : Nat) : State :=
  match s.ringBracket i n with
  | none => s
  | some b => (s.takeBracket b).bracketShown b 0

/-- A ring's carrier or wavelength leaves its stripe until the ring is locked again; with the receive ring of λ0 the engine
loses the link's receive direction (R250). -/
def State.ringOut (s : State) (i n : Nat) : State :=
  let s := s.dropRingBracket i n
  match ringCarrier i n, ringWave i n with
  | some (tx, rx, q), _ => if q < 36 ∧ tx ≠ rx then s.carrierOut tx rx q else s
  | _, some (x, w) =>
    let l := s.linkAt x
    if w = 0 then (if ringDir n = 1 then s.redirect x else s)
    else if (l.dark.any fun d => decide (d.1 + 1 = w)) ∨ (w ≤ 16 ∧ s.grnHas 10 i (32 * x + (w - 1)) = true) then s
    else (s.setLink x { l with dark := l.dark ++ [(w - 1, s.vt)] }).showWaves x
  | _, _ => s

/-- A wavelength whose ring is locked again returns to its stripe, if its ring of the other direction is in lock. -/
def State.ringBack (s : State) (i n : Nat) : State :=
  match ringWave i n with
  | some (x, w) =>
    let l := s.linkAt x
    if s.ringState i (waveRing x (1 - ringDir n) w) ∈ [1, 2] then s else
    (s.setLink x { l with dark := l.dark.filter fun d => decide (d.1 + 1 ≠ w) }).showWaves x
  | none => s

/-- A ring is retired (R372, R381): its carrier is failed under R191, its wavelength under R257. -/
def State.retireRing (s : State) (i n : Nat) : State :=
  if s.ringRetired i n then s else
  let s := s.dropRingBracket i n
  let s := s.grnPut 8 i n (s.grnGet 8 i n 0 % 2 + 2)
  match ringCarrier i n, ringWave i n with
  | some (tx, rx, q), _ => if tx ≠ rx ∨ 36 ≤ q then s.failCarrier tx rx q else s
  | _, some (x, w) => if 1 ≤ w then s.waveFails x (w - 1) else if ringDir n = 1 then s.redirect x else s
  | _, _ => s

/-! ### The lock loop and feed-forward (R374 to R378) -/

/-- Reference power of a site in W (R124); a guest's is as its certificate declares (log 5). -/
def refPower (i : Nat) : Nat := if i < 8 then 840 else if i < 28 then 60 else Config.guestPower i

/-- The class that the base follows for a site. -/
def State.classAt (s : State) (i : Nat) : ClassSt := SMap.get ClassSt.idle s.classes i

/-- The sites' classes of a bell, or 0 where no context has its turn or the domain holds (R124, R377). -/
def State.classesTo (s : State) (f : Nat → Nat) : State :=
  (List.range 32).foldl (fun (s : State) i =>
    let c := s.classAt i
    if f i = c.cls then s
    else { s with classes := SMap.set ClassSt.idle s.classes i ⟨f i, s.vt, c.cls⟩ }) s

/-- Nearest whole number of a fraction, halves toward zero. -/
def nearestLow (a : Int) (d : Nat) : Int :=
  if 0 ≤ a then (2 * a + d - 1) / (2 * max 1 d : Nat) else -((-2 * a + d - 1) / (2 * max 1 d : Nat))

/-- The target of the feed-forward term for a class (R377): FF_GAIN is in 1/256 code per W. A half is rounded toward 0, which
gives the moves of R378's example (DEDUCED, log 49). -/
def ffTarget (gain : Int) (c ref : Nat) : Int := nearestLow (gain * c * ref) (256 * 15)

/-- Where a ramp stands: linear over `len` ns, then at its end (R377). -/
def rampAt (from_ goal : Int) (start len now : Nat) : Int :=
  if len = 0 ∨ start + len ≤ now then goal else from_ + nearest ((goal - from_) * ((now - start : Nat) : Int)) len

/-- A ring takes up a new class of its source, or at the next bell of the source a target that a new gain has moved: a new
ramp of full length from where u is (R377, R378). -/
def State.newRamp (s : State) (i n : Nat) : State :=
  let x := s.ringCal i n
  let a := Reg.CAL_RING_FF i n
  let src := s.getF a Fld.CAL_RING_FF_SRC
  let c := s.classAt src
  let goal := ffTarget (sint16 (s.getF a Fld.CAL_RING_FF_GAIN)) c.cls (refPower src)
  let b := s.bellAt src
  if c.since ≤ x.rampAt then
    if goal ≠ x.rampTo ∧ b.executing = true ∧ max x.rampAt x.gainAt < b.began s.rs then
      s.setRingCal i n { x with rampFrom := x.u, rampAt := b.began s.rs, rampTo := goal }
    else s
  else
  let far := 2 ≤ c.cls - c.before ∨ 2 ≤ c.before - c.cls
  s.setRingCal i n { x with
    rampFrom := x.u, rampAt := c.since
    rampTo := goal
    marks := if far then x.marks ++ [((s.ringCode i n : Int) - x.u, (c.cls : Int) - c.before, c.since)] else x.marks }

/-- A ring loses lock (R374, R376): its channel leaves the stripe and it acquires again from its code. -/
def State.loseLock (s : State) (i n : Nat) : State :=
  let x := s.ringCal i n
  let s := s.setRingCal i n { x.again with
    fails := if x.lockAt + 1000000000 ≤ s.vt then 0 else x.fails }
  (s.wearUp 3 (4096 * i + n)).ringOut i n

/-- MOD_OFFSET of a transmit ring (R391). -/
def modOffsetFld : Fld := ⟨10, 0⟩

/-- The error of a ring's lock in 10 kHz: its detuning from its line in MHz, for a transmit ring less MOD_OFFSET, 122.07 MHz
a code (R371, R374). -/
def State.lockErr (s : State) (i n : Nat) (detune : Int) : Int :=
  100 * detune - (if ringDir n = 0 then 12207 * sintN 11 (s.getF (Reg.CAL_RING_EQ i n) modOffsetFld) else 0)

/-- LOCK_LOOP_UPDATE (R374, R377, R390): every 5 µs the code of a locked ring follows the loop by at most 2 codes, and that of
any ring that is locked or acquiring the feed-forward ramp by at most 4; an error above 4.0 GHz at two updates in a row
loses lock. The ring's crossover is 45 kHz + `loop`; `detune` is its distance from its line in MHz. -/
def execLockLoopUpdate (site : Site) (ring : Fin 2792) (loop : Fin 11) (detune : Int) (s : State) : Out :=
  let i := site.val
  let n := ring.val
  let st := s.ringState i n
  if st < 1 ∨ 3 < st ∨ s.vt < (s.ringCal i n).updAt + 5000 then .next s else
  let s := s.newRamp i n
  let x := s.ringCal i n
  let len := 2000 * s.getF (Reg.CAL_RING_FF i n) Fld.CAL_RING_FF_RAMP
  let want := rampAt x.rampFrom x.rampTo x.rampAt len s.vt
  let du := max (-4) (min 4 (want - x.u))
  let e := s.lockErr i n detune
  let own := if st = 3 then max (-2) (min 2 (Config.lockLoop (45 + loop) e x.err)) else 0
  let s := s.setRingCode i n (s.ringCode i n + own + du)
  let bad := if st = 3 ∧ (400000 < e ∨ e < -400000) then x.bad + 1 else 0
  let s := s.setRingCal i n { x with u := x.u + du, bad := bad, updAt := s.vt, err := e }
  .next (if 2 ≤ bad then s.loseLock i n else s)

/-- One eighth of the change of FF_GAIN that would have cancelled the integrator's movement since a change of class by
`dc` from `was` (R378). -/
def State.ffStep (s : State) (i n : Nat) (was dc : Int) : Int :=
  let moved := (s.ringCode i n : Int) - (s.ringCal i n).u - was
  let watts := dc * refPower (s.getF (Reg.CAL_RING_FF i n) Fld.CAL_RING_FF_SRC)
  if 0 ≤ watts then nearest (moved * 256 * 15) (8 * watts.toNat)
  else nearest (-(moved * 256 * 15)) (8 * (-watts).toNat)

/-- FF_GAIN_ADAPT (R378): FF_RAMP after a change of class of at least 2, the gain moves by one eighth of what would have
cancelled the integrator's movement, within the limits of R387; u follows the new gain from the source's next bell. -/
def execFfGainAdapt (site : Site) (ring : Fin 2792) (s : State) : Out :=
  let i := site.val
  let n := ring.val
  let x := s.ringCal i n
  let a := Reg.CAL_RING_FF i n
  match x.marks with
  | [] => .next s
  | (was, dc, t) :: rest =>
    if s.vt < t + 2000 * s.getF a Fld.CAL_RING_FF_RAMP then .next s else
    let step := s.ffStep i n was dc
    let s := s.setRingCal i n { x with marks := rest, gainAt := s.vt }
    let gain := sint16 (s.getF a Fld.CAL_RING_FF_GAIN)
    if dc ≠ 0 ∧ refPower (s.getF a Fld.CAL_RING_FF_SRC) ≠ 0 ∧ calOk s.rs 0x30 gain (gain + step) = true then
      .next (s.setF a Fld.CAL_RING_FF_GAIN (twos16 (gain + step)))
    else .next s

/-! ### Identity (R380, R381) -/

/-- The slot of the strongest tone of a read, if that is at least 6 dB above every other (R379): tones with their levels in
0.01 dB. -/
def toneRead (ts : List (Fin 36 × Int)) : Option (Fin 36) :=
  (ts.find? fun t => ts.all fun u => decide (u.1 = t.1) || decide (u.2 + 600 ≤ t.2)).map (·.1)

/-- Codes of the action that WRONG_LOCK names: relock at another slot, at another order, acquire again, ring
retired (log 8). -/
def wrongLock (s : State) (i n tone action : Nat) : State := s.raise i 0x050A [n, tone, action]

/-- A corrective relock raises WRONG_LOCK (R380); at a third acquisition only its outcome tells the action (R381). -/
def State.relockSaid (s : State) (i n tone action : Nat) : State :=
  let x := s.ringCal i n
  if x.fails < 2 then wrongLock s i n tone action else s.setRingCal i n { x with said := some (tone, action) }

/-- An acquisition fails identity: the third time, with no verified lock of 1 s between, retires the ring, which its
WRONG_LOCK names (R381). -/
def State.identityFails (s : State) (i n tone : Nat) : State :=
  let x := s.ringCal i n
  let s := s.wearUp 3 (4096 * i + n)
  let s := s.setRingCal i n { x with fails := min 3 (x.fails + 1), relocked := false, st := some 1, said := none }
  if 3 ≤ x.fails + 1 then (wrongLock s i n tone 4).retireRing i n else s

/-- A ring is verified (R373, R380): locked, with its code and temperature as its new expectation. -/
def State.ringVerified (s : State) (i n code : Nat) (temp : Int) : State :=
  let x := s.ringCal i n
  let s := match x.said with
    | some (tone, act) => wrongLock s i n tone act
    | none => s
  let s := s.setF (Reg.CAL_RING_ID i n) Fld.CAL_RING_ID_EXPECT code
  (s.setRingCal i n { x with
    st := some 3, held := none, relocked := false, lockAt := s.vt, te := temp, bad := 0, said := none }).ringBack i n

/-- An acquisition's first read does not verify: the ring relocks at another code, or has had its relock and fails
(R380, R381). `tone` is 63 for no valid tone. -/
def State.ringRelocks (s : State) (i n tone : Nat) (act : Nat) (code : Int) : State :=
  let x := s.ringCal i n
  let held := if tone = 63 then none else some tone
  if x.relocked then (s.setRingCal i n { x with held := held }).identityFails i n tone
  else ((s.setRingCal i n { x with st := some 2, held := held, relocked := true }).relockSaid i n tone act).setRingCode i n
    code

/-- IDENTITY_READ (R373, R379, R380): a ring that has acquired at `code` reads the tones of its light; `temp` is its field's
temperature in 0.25 °C. -/
def execIdentityRead (site : Site) (ring : Fin 2792) (code : BitVec 16) (tone : List (Fin 36 × Int)) (temp : Int)
    (s : State) : Out :=
  let i := site.val
  let n := ring.val
  if s.ringState i n ≠ 1 ∧ s.ringState i n ≠ 2 then .next s else
  let s := s.setRingCode i n code.toNat
  let want := s.ringExpect i n temp
  let w := ringSlot n
  let off := (code.toNat : Int) - want
  let near := decide (-29491 ≤ off) && decide (off ≤ 29491)
  match toneRead tone with
  | some t =>
    if t.val ≠ w then .next (s.ringRelocks i n t 1 (code.toNat + ((t.val : Int) - w) * 1638))
    else if near then .next (s.ringVerified i n code.toNat temp)
    else .next (s.ringRelocks i n t 2 (if 0 < off then code.toNat - 58982 else code.toNat + 58982))
  | none => .next (s.ringRelocks i n 63 3 (want + (s.ringCal i n).u))

/-- The external rings of a site whose acquisition has begun and is not verified stay out once their site is lit: their
wavelengths leave the stripes (R380, R409). -/
def State.ringsLate (s : State) (i : Nat) : State :=
  (s.rcal.filter fun kv => decide (kv.1 / 4096 = i) && decide (2432 ≤ kv.1 % 4096) && kv.2.late).foldl
    (fun (s : State) kv => s.ringOut i (kv.1 % 4096)) s

/-! ### Heaters (R372) -/

/-- HEATER_FAULT (R372, R390): the driving segment's current departs from its code: the other segment takes over
the code, or, if it has failed before, the ring is retired. -/
def execHeaterFault (site : Site) (ring : Fin 2792) (s : State) : Out :=
  let i := site.val
  let n := ring.val
  if ringThere i n = false ∨ s.ringRetired i n = true then .next s
  else if s.grnGet 8 i n 0 % 2 = 1 then .next (s.retireRing i n)
  else
    let s := s.dropRingBracket i n
    let code := s.ringCode i n
    let s := s.setRingCode i n 0
    let s := s.setRingCal i n { s.ringCal i n with hb := !(s.ringCal i n).hb }
    let s := (s.setRingCode i n code).grnPut 8 i n 1
    .next ((s.raise i 0x0509 [n]).granaryEmpty i 13 i n)

/-! ### Comb bias (R382, R383) -/

def State.combAt (s : State) (i c : Nat) : CombCal := SMap.get CombCal.idle s.combCal (8 * i + c)
def State.setCombCal (s : State) (i c : Nat) (x : CombCal) : State :=
  { s with combCal := SMap.set CombCal.idle s.combCal (8 * i + c) x }

/-- State code of a comb; CE0 and CE1 are 5 and 6 (R203, R483). -/
def State.combState (s : State) (i c : Nat) : Nat :=
  if c < 5 then s.getF (Reg.FAB_COMB i) (combFld c)
  else if 20 ≤ i ∧ i < 28 then s.grnGet 7 i c 0 % 8 else 4

/-- The planes that a comb of a site feeds now (R194, R195). -/
def State.combFeeds (s : State) (i c : Nat) : List Nat :=
  if c = 4 then combPlanes (s.getF (Reg.FAB_COMB i) Fld.FAB_COMB_SPARE_FOR) else combPlanes c

/-- Is a carrier that a base comb feeds bracketed (R383)? -/
def State.combBracketed (s : State) (i c : Nat) : Bool :=
  s.brackets.any fun b => !b.wave && decide (b.tx = i) && decide (c < 5) && decide (b.ch ∈ s.combFeeds i c)

/-- POWER of a ring (R382, R389, R391): 0 while it is off, the level heard for an external receive ring, what its monitor
reads for any other (log 5); a bracketed channel's is held. -/
def State.ringPower (s : State) (i n : Nat) : Nat :=
  if s.ringState i n = 0 then 0 else
  let now := match s.ringBracket i n with
    | some b => b.since
    | none => s.vt
  match (if ringDir n = 1 then ringWave i n else none) with
  | some (x, w) => twos16 (SMap.get 0 (s.linkAt x).level w)
  | none => (Config.ringPower (ringKey i n) (now / 1000000)).toNat

/-- The received powers of a base comb's lit lines on a plane, in 0.01 dBm, without carriers that are failed, bracketed or
out of their stripe (R382). -/
def State.planePowers (s : State) (i q : Nat) : List Int :=
  let at_ := fun (j w : Nat) => sint16 (s.ringPower j (64 * q + 32 + w))
  (s.liveSites.filter fun j => decide (j ≠ i)).filterMap fun j =>
    if 36 ≤ q then (if s.grnHas 5 i (2048 + q) then none else some (at_ j i))
    else if 34 ≤ q then (if s.ctrlUp i j q then some (at_ j ((j + 32 - i) % 32)) else none)
    else if q ∈ s.planesOf i j then some (at_ j ((j + 32 - i) % 32)) else none

/-- The received powers of a comb's lit lines (R382): the receiving fields' on the base, RXPOWER of the far end's control
codewords on a link that serves. -/
def State.combPowers (s : State) (i c : Nat) : List Int :=
  if c < 5 then (s.combFeeds i c).flatMap fun q => s.planePowers i q
  else (combLinks i c).flatMap fun x =>
    if s.linkState x ≠ 2 then [] else
      (0 :: (s.linkAt x).stripe).filterMap fun w => ((s.linkAt x).power.find? fun kv => decide (kv.1 = w)).map fun kv =>
        sint16 kv.2

/-- The lowest received power of a comb's lines, if any is lit (R382). -/
def State.combLow (s : State) (i c : Nat) : Option Int :=
  match s.combPowers i c with
  | [] => none
  | p :: ps => some (ps.foldl min p)

/-- A comb has come to its end of life (R383): COMB_EOL, and a base comb waits for replacement (R195). -/
def State.combEol (s : State) (i c : Nat) : State :=
  if s.combState i c ≠ 0 then s else
  let s := s.raise i 0x0508 [i, c]
  if c < 5 then s.setComb i c 2 else s.grnPut 7 i c (2 + 256 * 7)

/-- A comb's bias is judged by its lowest received power (R382, R383). A change that CALPOLICY's limits refuse is not made
(R387). -/
def State.judgeBias (s : State) (i c : Nat) (low : Int) (capped hot : Bool) (high : Option Nat) : State :=
  let a := Reg.CAL_COMB_BIAS i c
  let bias := s.getF a Fld.CAL_COMB_BIAS_BIAS
  let ready : Bool := match (s.combAt i c).raised with
    | some t => decide (t + 10000000000 ≤ s.vt)
    | none => true
  let lower : Bool := match high with
    | some t => decide (t + 60000000000 ≤ s.vt)
    | none => false
  if low < (if c < 5 then -700 else -950) then
    if (capped = true ∧ 5 ≤ c) ∨ ready = false then s
    else if hot ∨ 1800 < bias + 5 then s.combEol i c
    else if calOk s.rs 0x40 bias (bias + 5) = false then s
    else
      let s := s.setF a Fld.CAL_COMB_BIAS_BIAS (bias + 5)
      let s := s.setCombCal i c { s.combAt i c with raised := some s.vt }
      s.wearUp 0 (8 * i + c)
  else if lower = true ∧ 605 ≤ bias ∧ calOk s.rs 0x40 bias (bias - 5 : Nat) = true then
    let s := s.setF a Fld.CAL_COMB_BIAS_BIAS (bias - 5)
    let s := s.setCombCal i c { s.combAt i c with high := none }
    s.wearUp 0 (8 * i + c)
  else s

/-- BIAS_UPDATE (R382, R383): every 1 s a comb's bias is judged by its lowest received power, in 0.01 dBm. `away`: a line of an
external comb is bracketed at its far end; `capped`: one launches at +3.0 dBm; `hot`: the junction is within 5 °C of its
limit. With no line lit there is nothing to judge. -/
def execBiasUpdate (site : Site) (comb : Fin 7) (away capped hot : Bool) (s : State) : Out :=
  let i := site.val
  let c := comb.val
  let x := s.combAt i c
  if s.combState i c ≠ 0 ∧ s.combState i c ≠ 2 ∨ s.vt < x.judged + 1000000000 then .next s else
  match s.combLow i c with
  | none => .next s
  | some low =>
    let s := s.setF (Reg.CAL_COMB_RX i c) Fld.CAL_COMB_RX_MIN (twos16 low)
    let high := if (if c < 5 then -700 else -950) + 300 ≤ low then some (x.high.getD s.vt) else none
    let s := s.setCombCal i c { x with judged := s.vt, high := high }
    if s.combBracketed i c || (away && decide (5 ≤ c)) then .next s else .next (s.judgeBias i c low capped hot high)

/-! ### Brackets (R384 to R389) -/

/-- Number of a channel in the model's own tables: carriers, wavelengths, sensors. -/
def carrierId (tx rx q : Nat) : Nat := (32 * tx + rx) * 64 + q
def waveId (x w : Nat) : Nat := 2 ^ 20 + 32 * x + w
def sensorId (loc i : Nat) : Nat := 2 ^ 21 + 256 * loc + i

/-- INTERVAL of a channel kind (R384). -/
def calInterval (rs : List Rec) (kind : Nat) : Nat :=
  recField rs segCal 1 (fun r => decide (r.u8 8 = kind)) (·.u32 12) 1000000

/-- The site at which a bracket is charged: its receiving site (R385). -/
def Bracket.home (b : Bracket) : Nat := if b.wave then b.tx else b.rx

/-- Brackets that run at a site. -/
def State.bracketsAt (s : State) (i : Nat) : Nat :=
  (s.brackets.filter fun b => decide (b.home = i)).length

/-- Does a site's channel serve, so that it is due to be bracketed: no failed carrier or wavelength, no granary carrier that
is not drawn, no link that does not serve (R384)? -/
def State.channelServes (s : State) (b : Bracket) : Bool :=
  if b.wave then
    let x := linkNum (b.tx - 20) b.rx
    decide (s.linkState x = 2) && !(s.grnHas 10 b.tx (32 * x + b.ch))
  else !(s.carrierFailed b.tx b.rx b.ch) && (decide (b.ch < 32) || decide (34 ≤ b.ch) || decide (b.ch ∈ s.drawn b.tx b.rx))

/-- Channels of a site in the order of its rotation: `(kind, id, bracket)` (R384). A bracket with no stand-in
has `stand` 63. -/
def State.siteChannels (s : State) (i : Nat) : List (Nat × Nat × Bracket) :=
  let carriers : List (Nat × Nat × Bracket) := (s.liveSites.filter fun j => decide (j ≠ i)).flatMap fun j =>
    let standby := 35 - s.getF (Reg.FAB_TX_PAIR j i) Fld.FAB_TX_PAIR_CTRL
    ((List.range 34).map fun q => (0, carrierId j i q, ⟨false, j, i, q, 63, s.vt⟩)) ++
    [(1, carrierId j i standby, ⟨false, j, i, standby, 63, s.vt⟩)]
  let waves : List (Nat × Nat × Bracket) := if i < 20 ∨ 28 ≤ i then [] else
    ((List.range 10).filter fun l => decide (l < 8) || decide (i = 20) || decide (i = 24)).flatMap fun l =>
      (List.range 16).map fun w => (2, waveId (linkNum (i - 20) l) w, ⟨true, i, l, w, 17, s.vt⟩)
  (carriers ++ waves).filter fun c => s.channelServes c.2.2

/-- May a channel be bracketed now, and with which stand-in (R193, R236, R257, R384, R385)? -/
def State.bracketStart (s : State) (b : Bracket) (hold : Bool) : Option Bracket :=
  if b.wave then
    let x := linkNum (b.tx - 20) b.rx
    if s.linkState x ≠ 2 ∨ s.spareWave x = true ∨ s.spareGone x = true ∨ ((s.linkAt x).dark.any fun d => decide (d.1 = b.ch) || decide (d.1 = 16)) = true ∨
        s.grnHas 10 b.tx (32 * x + b.ch) = true ∨
        (s.brackets.any fun c => c.wave && decide (c.tx = b.tx) && decide (c.rx = b.rx)) = true then none
    else some b
  else if s.carrierFailed b.tx b.rx b.ch ∨ s.isOut b.tx b.rx b.ch ∨ (s.pairBracket b.tx b.rx).isSome then none
  else if 34 ≤ b.ch then some b
  else if 32 ≤ b.ch ∧ b.ch ∉ s.drawn b.tx b.rx then none
  else match s.freeGranary b.tx b.rx with
    | some q => some { b with stand := q }
    | none => if hold then some b else none

/-- The last bracket of a channel. -/
def State.lastBracket (s : State) (id : Nat) : Nat := SMap.get 0 s.calLast id

/-- Bells run again: a site that receives carriers bracketed with no stand-in ends those brackets, each carrier back in
its stripe with its old coefficients (R193; DEDUCED, log 48). -/
def State.endHoldBrackets (s : State) (i : Nat) : State :=
  (s.brackets.filter fun b => !b.wave && decide (b.rx = i) && decide (b.ch < 34) && decide (b.stand = 63)).foldl
    (fun (s : State) b => (s.takeBracket b).bracketShown b 0) s

/-- Start a bracket: the stand-in joins the stripe and the channel leaves it (R386 step 2). -/
def State.startBracket (s : State) (id bell : Nat) (b : Bracket) : State :=
  let s := { s with brackets := s.brackets ++ [b], calLast := SMap.set 0 s.calLast id bell }
  s.bracketShown b 1

/-- Start the brackets that are due at a site while class 8 has budget, in rotation order; a budget of 0 starts none
(R384, R385). -/
def State.startDue (s : State) (i bell : Nat) (hold : Bool) : List (Nat × Nat × Bracket) → State
  | [] => s
  | (_, id, b) :: cs =>
    match s.bracketStart b hold with
    | some b =>
      if s.titheBudgetOf i 8 = 0 then s
      else if s.titheBudgetOf i 8 < SMap.get 0 (s.tithe i).used 8 + 1 then s.titheStall i 8
      else ((s.titheCharge i 8 1).startBracket id bell b).startDue i bell hold cs
    | none => s.startDue i bell hold cs

/-- Put a channel behind those that are at least as late. -/
def insertLate (late : Nat × Nat × Bracket → Nat) (c : Nat × Nat × Bracket) :
    List (Nat × Nat × Bracket) → List (Nat × Nat × Bracket)
  | [] => [c]
  | d :: ds => if late c ≤ late d then d :: insertLate late c ds else c :: d :: ds

/-- Sensors of a location: site 0 to 31, or 32 + n for field Fn (R401). -/
def sensorCount (loc : Nat) : Nat :=
  if loc < 8 then 176 else if loc < 20 then 4 else if loc < 28 then 8 else if loc < 32 then 0 else 24

/-- Sensors of a site that are more than INTERVAL late (R384). -/
def State.sensorsLate (s : State) (i bell : Nat) : Nat :=
  ((List.range (sensorCount i)).filter fun n =>
    decide (2 * calInterval s.rs 3 < bell - s.lastBracket (sensorId i n))).length

/-- At a bell boundary every running bracket of a site is charged, then those that are due may start; OVERDUE
counts channels and sensors more than INTERVAL late (R384, R385). -/
def State.bracketBoundary (s : State) (i bell : Nat) (hold : Bool) : State :=
  let s := s.titheCharge i 8 (s.bracketsAt i)
  if [0, 1, 2, 3].all (fun k => decide (bell < calInterval s.rs k)) then s else
  let late := fun (c : Nat × Nat × Bracket) => bell - s.lastBracket c.2.1
  let due := (s.siteChannels i).filter fun c => decide (calInterval s.rs c.1 ≤ late c)
  let tooLate := due.filter fun c => decide (2 * calInterval s.rs c.1 < late c)
  let s := s.setF (Reg.CAL_STATUS i) Fld.CAL_STATUS_OVERDUE (min 0xFFFF (tooLate.length + s.sensorsLate i bell))
  s.startDue i bell hold (due.foldl (fun cs c => insertLate late c cs) [])

/-- A bracket of a channel has been rejected, or accepted: STUCK counts channels rejected three times in a row
(R387). -/
def State.noteReject (s : State) (home id : Nat) (bad : Bool) : State :=
  let n := SMap.get 0 s.calRej id
  let m := if bad then min 3 (n + 1) else 0
  let s := { s with calRej := SMap.set 0 s.calRej id m }
  let stuck := s.getF (Reg.CAL_STATUS home) Fld.CAL_STATUS_STUCK
  let s := if home < 32 then s.setF (Reg.CAL_STATUS home) Fld.CAL_STATUS_STUCK
      (if n < 3 ∧ m = 3 then min 255 (stuck + 1) else if n = 3 ∧ m < 3 then stuck - 1 else stuck)
    else s
  if bad then
    let s := if home < 32 then s.bump (Reg.CAL_REJECT_CNT home) Fld.CAL_REJECT_CNT_COUNT 1 else s
    let s := s.raise home 0x050B [id / 65536, id % 65536]
    if m = 3 then s.raise home 0x050C [id / 65536, id % 65536] else s
  else s

/-- The step that a coefficient's trial keeps: the largest merit of one step below, none, one step above (R386). Of equal
merits the current value is kept, then the lower (DESIGN CHOICE, log 49). -/
def trialStep (t : Trial) : Int :=
  if t.here.toNat < t.down.toNat ∧ t.up.toNat ≤ t.down.toNat then -1 else if t.here.toNat < t.up.toNat then 1 else 0

/-- THRESH as a bracket leaves it: at the last histogram's valley, then at most 2 steps toward an even balance (R386). -/
def threshNew (r : CalResult) : Int := if r.high then r.valley + r.trim.val else r.valley - r.trim.val

/-- The five coefficients of a receive ring, each with its code, field and width, its old value and the one that a bracket's
adaptation gives (R386, R387, R391). -/
def State.eqChanges (s : State) (home rx : Nat) (r : CalResult) : List (Nat × Fld × Nat × Int × Int) :=
  let a := Reg.CAL_RING_EQ home rx
  let old := fun (f : Fld) (w : Nat) => sintN w (s.getF a f)
  let ctle := (s.getF a Fld.CAL_RING_EQ_CTLE : Int)
  let pre := old Fld.CAL_RING_EQ_PRE 6
  let post := old Fld.CAL_RING_EQ_POST 6
  let h1 := old Fld.CAL_RING_EQ_H1 6
  [(0x10, Fld.CAL_RING_EQ_THRESH, 8, old Fld.CAL_RING_EQ_THRESH 8, threshNew r),
   (0x11, Fld.CAL_RING_EQ_CTLE, 4, ctle, ctle + trialStep r.ctle), (0x12, Fld.CAL_RING_EQ_PRE, 6, pre, pre + trialStep r.pre),
   (0x13, Fld.CAL_RING_EQ_POST, 6, post, post + trialStep r.post), (0x14, Fld.CAL_RING_EQ_H1, 6, h1, h1 + trialStep r.h1)]

/-- MOD_OFFSET of a transmit ring. -/
def State.modOffset (s : State) (i n : Nat) : Int := sintN 11 (s.getF (Reg.CAL_RING_EQ i n) modOffsetFld)

/-- The old MOD_OFFSET of a bracketed channel: its transmit ring's, or what the far end of a link reports. -/
def State.modOld (s : State) (tx : Option (Nat × Nat)) (r : CalResult) : Int :=
  match tx with
  | some (i, n) => s.modOffset i n
  | none => r.modOld

/-- Are a bracket's results accepted (R387)? `rx` is the receive ring at `home`, `tx` the transmit ring where it is on this
package. -/
def State.bracketGood (s : State) (home rx : Nat) (tx : Option (Nat × Nat)) (r : CalResult) : Bool :=
  ((s.eqChanges home rx r).all fun (c, _, _, old, new) => calOk s.rs c old new) &&
  calOk s.rs 0x20 (s.modOld tx r) (s.modOld tx r + trialStep r.modOffset) &&
  decide (r.meritOld.toNat ≤ r.meritNew.toNat) && decide (29492 ≤ r.above.val) && decide (r.above.val ≤ 36044)

/-- MOD_OFFSET of a transmit ring after a bracket's adaptation. -/
def State.setModOffset (s : State) (i n : Nat) (x : Int) : State :=
  s.setF (Reg.CAL_RING_EQ i n) modOffsetFld (twosN 11 x)

/-- Judge and keep a bracket's results (R387): the receive ring's coefficients, and MOD_OFFSET of a transmit ring
of this package. -/
def State.judgeBracket (s : State) (home rx : Nat) (tx : Option (Nat × Nat)) (id : Nat) (r : CalResult) : State :=
  let good := s.bracketGood home rx tx r
  let mod := s.modOld tx r + trialStep r.modOffset
  let s := if good then
      let s := (s.eqChanges home rx r).foldl (fun (s : State) (e : Nat × Fld × Nat × Int × Int) =>
        s.setF (Reg.CAL_RING_EQ home rx) e.2.1 (twosN e.2.2.1 e.2.2.2.2)) s
      let s := s.setF (Reg.CAL_RING_POWER home rx) Fld.CAL_RING_POWER_MERIT r.meritNew.toNat
      match tx with
      | some (i, n) => s.setModOffset i n mod
      | none => s
    else s
  (s.bump (Reg.CAL_BRACKET_CNT home) Fld.CAL_BRACKET_CNT_COUNT 1).noteReject home id (!good)

/-- The bracket of a channel, if one runs. -/
def State.channelBracket (s : State) (ch : CalChannel) : Option Bracket :=
  match ch with
  | .carrier tx rx q => (s.pairBracket tx rx).filter fun b => decide (b.ch = q.val)
  | .wave x w => s.brackets.find? fun b =>
      b.wave && decide (b.tx = linkSite x) && decide (b.rx = (linkHome x).2) && decide (b.ch = w.val)
  | .far .. => none

/-- BRACKET_COMPLETE (R386, R387): a bracket's results are judged and its channel returns to its stripe, the
stand-in to idle. Of a bracket that a link's far end ran on a wavelength of this package, the transmit ring keeps the
adapted MOD_OFFSET where the far end has accepted (`kept`). -/
def execBracketComplete (ch : CalChannel) (r : CalResult) (s : State) : Out :=
  match ch, s.channelBracket ch with
  | .far x w kept, _ =>
    let n := waveRing x 0 (w + 1)
    let i := linkSite x
    .next (if kept && decide (s.linkState x = 2) then s.setModOffset i n (s.modOffset i n + trialStep r.modOffset) else s)
  | _, none => .next s
  | _, some b =>
    let s := (s.takeBracket b).bracketShown b 0
    if b.wave then
      let x := linkNum (b.tx - 20) b.rx
      .next (s.judgeBracket b.tx (waveRing x 1 (b.ch + 1)) none (waveId x b.ch) r)
    else
      let w := (b.rx + 32 - b.tx) % 32
      .next (s.judgeBracket b.rx ((2 * b.ch + 1) * 32 + w) (some (b.tx, 2 * b.ch * 32 + w))
        (carrierId b.tx b.rx b.ch) r)

/-! ### Sensors (R388, R392, R401) -/

/-- The reading register of a sensor. -/
def sensorReg (loc i : Nat) : Nat := if loc < 32 then Reg.THM_SENSOR loc i else Reg.THM_FSENSOR (loc - 32) i
/-- The offset register of a sensor. -/
def sensorOfs (loc i : Nat) : Nat := if loc < 32 then Reg.CAL_SENSOR_OFS loc i else Reg.CAL_FSENSOR_OFS (loc - 32) i

/-- Throttle and trip limits of a location in 0.25 °C (R404): dies of compute stacks, fields; R404 names no
limit of the other dies' own sensors, which is a free value (log 5). -/
def throttleLimit (loc : Nat) : Int := if loc < 8 then 400 else if loc < 32 then Config.dieLimit loc else 360
def tripLimit (loc : Nat) : Int := if loc < 8 then 460 else if loc < 32 then Config.dieLimit loc else 400

/-- A reading in 0.25 °C. -/
def State.sensorTemp (s : State) (loc i : Nat) : Int := sintN 12 (s.getF (sensorReg loc i) Fld.THM_SENSOR_TEMP)
def State.sensorValid (s : State) (loc i : Nat) : Bool := decide (s.getF (sensorReg loc i) Fld.THM_SENSOR_VALID = 1)
def State.sensorFast (s : State) (loc i : Nat) : Bool := decide (s.getF (sensorReg loc i) Fld.THM_SENSOR_FAST = 1)
/-- Is a sensor bracketed? -/
def State.sensorOut (s : State) (loc i : Nat) : Bool :=
  s.sensOut.any fun e => decide (e.1 = loc) && decide (e.2.1 = i)

/-- Partner of a sensor in its pair (R401). -/
def sensorMate (i : Nat) : Nat := if i % 2 = 0 then i + 1 else i - 1

/-- May a sensor be bracketed (R388)? -/
def State.sensorMay (s : State) (loc i : Nat) : Bool :=
  let j := sensorMate i
  !(s.sensorOut loc j) && s.sensorValid loc j && !(s.sensorFast loc i) &&
  decide (s.sensorTemp loc i + 40 < throttleLimit loc)

/-- Mark a sensor STALE, or no longer (R389). -/
def State.sensorStale (s : State) (loc i : Nat) (b : Bool) : State :=
  (s.setF (sensorReg loc i) Fld.THM_SENSOR_STALE (bit b)).setF (sensorOfs loc i) Fld.CAL_SENSOR_OFS_STALE (bit b)

/-- At a bell boundary the sensors of a location that are due are bracketed, uncharged, unless a class-8 budget of 0 disables
bracketing at its site (R384, R385); a field has no budget (DESIGN CHOICE, log 49). -/
def State.sensorBoundary (s : State) (loc bell : Nat) : State :=
  if bell < calInterval s.rs 3 ∨ (loc < 32 ∧ s.titheBudgetOf loc 8 = 0) then s else
  (List.range (sensorCount loc)).foldl (fun (s : State) i =>
    if s.lastBracket (sensorId loc i) + calInterval s.rs 3 ≤ bell ∧ s.sensorMay loc i = true ∧
        s.sensorOut loc i = false then
      let s := { s with sensOut := s.sensOut ++ [(loc, i, s.vt)]
                        calLast := SMap.set 0 s.calLast (sensorId loc i) bell }
      s.sensorStale loc i true
    else s) s

/-- SENSOR_BRACKET (R388): a sensor's 1 ms count ends; its new ageing offset in 1/16 °C is judged. -/
def execSensorBracket (loc : Fin 44) (i : Fin 176) (offset : Int) (s : State) : Out :=
  match s.sensOut.find? fun e => decide (e.1 = loc.val) && decide (e.2.1 = i.val) with
  | none => .next s
  | some e =>
    if s.vt < e.2.2 + 1000000 then .next s else
    let s := { s with sensOut := s.sensOut.filter fun c => decide (c ≠ e) }
    let s := s.sensorStale loc i false
    let a := sensorOfs loc i
    let old := sint16 (s.getF a Fld.CAL_SENSOR_OFS_OFFSET)
    let good := calOk s.rs 0x50 old offset
    let s := if good then s.setF a Fld.CAL_SENSOR_OFS_OFFSET (twos16 offset) else s
    let s := if loc.val < 32 then s.bump (Reg.CAL_BRACKET_CNT loc) Fld.CAL_BRACKET_CNT_COUNT 1 else s
    .next (s.noteReject loc (sensorId loc i) (!good))

end Sys2Proof.Machine
end

