-- ==== Sys2Proof/Machine/Resets.lean ====
section
/-!
DEFINITION. Resets of a site, a gateway, a compute die and a base field, and re-admission (R333 to R346), with
their rows.
-/

namespace Sys2Proof.Machine

open Sys2Proof

/-- STATE and DOMAIN of a site's reset (R348). -/
def State.resetState (s : State) (i : Nat) : Nat := s.getF (Reg.GW_RESET i) Fld.GW_RESET_STATE
def State.resetDomain (s : State) (i : Nat) : Nat := s.getF (Reg.GW_RESET i) Fld.GW_RESET_DOMAIN

/-- STATE of a field's reset (R348). -/
def State.fieldState (s : State) (n : Nat) : Nat := s.getF (Reg.FAB_FIELD_RESET n) Fld.FAB_FIELD_RESET_STATE

/-- Home sites of a field (R15). -/
def homeSites (n : Nat) : List Nat := (List.range 32).filter fun i => decide (homeField i = n)

/-- The address of a site's control block. -/
def siteBlock (i : Nat) : Nat := 0x1000000000 + 0x10000000 * i

/-- Registers of a site's block from `lo` to `hi` take their reset values. -/
def State.clearRegs (s : State) (i lo hi : Nat) : State :=
  { s with regs := SMap.clearRange s.regs (siteBlock i + lo) (siteBlock i + hi) }

/-! ### What each reset loses (R333, R346) -/

/-- The matrix cores, core stores, cluster memories, host cores and meshes of a compute die (log 4: what a lost
store reads). -/
def State.loseCompute (s : State) (k : Nat) : State :=
  let s := (s.cancelTags k fun _ => true).1
  let mine := fun (x : Xfer) => match x.kind with
    | .hostLoad h _ _ => decide (h / 8 = k)
    | .hostFill h _ _ _ => decide (h / 8 = k)
    | .hostStore h => decide (h / 8 = k)
    | .hostAmo h _ => decide (h / 8 = k)
    | _ => false
  let s := { s with
    cores := s.cores.filter fun kv => decide (kv.1 / 96 ≠ k)
    xfers := s.xfers.filter fun x => !(mine x)
    jobs := s.jobs.filter fun j => decide (j.site ≠ k) }
  let s := ((s.loseHosts k).clearStores k).clearRegs k 0x2000000 0x6000000
  s.clearRegs k 0x1000000 0x1001000

/-- Gateway logic: streams, tags, dedupe table and credits; the counters of its registers (log 36). GW_EPOCH stays, and
stops that have lost their channel stay so until re-admission (R340). -/
def State.loseGateway (s : State) (i : Nat) : State :=
  let epoch := s.reg (Reg.GW_EPOCH i)
  let s := s.setGw i { GwSt.idle with silent := true, issueStop := true, gens := (s.gw i).gens, stops := (s.gw i).stops }
  let s := (s.clearRegs i 0x100 0x300).setReg (Reg.GW_EPOCH i) epoch
  let s := s.setF (Reg.GW_FENCE_CNT i) Fld.GW_FENCE_CNT_COUNT 0
  if i < 8 then s.cacheDrop i fun _ => true else s

/-- The reduction engine's accumulators and slices of a site. -/
def State.loseEngine (s : State) (i : Nat) : State :=
  { s with runs := s.runs.filter fun kv => decide (kv.2.site ≠ i)
           redSteps := s.redSteps.filter fun kv => decide (kv.1 / 2 ^ 14 ≠ i)
           redBytes := SMap.del i s.redBytes }

/-- Every queue pair goes into error (R346). -/
def State.failPairs (s : State) : State :=
  s.ringRecs.foldl (fun (s : State) r => match ringQpn r with
    | some q => s.qpFails q
    | none => s) s

/-- Each ring reloads its indices from its SHADOW (R346). -/
def State.reloadRings (s : State) : State :=
  s.ringRecs.foldl (fun (s : State) r =>
    let g := r.u64 24
    if gPkg g ≠ s.pkg then s else
    s.setRing (r.u16 8) { s.ring (r.u16 8) with
      pi := leNat (s.readMem (gSite g) (gOff g) 4), ci := leNat (s.readMem (gSite g) (gOff g + 4) 4), ops := [] }) s

/-- A reset of S22 (R346): every queue pair goes into error, copies in flight are abandoned, what the port held is lost
and each ring reloads its indices. -/
def State.portReset (s : State) : State :=
  let s := s.failPairs.ringAbandon
  { s with ingress := [], egress := [], heldOut := [] }.reloadRings

/-- The LOST flags of a reset: HBM3E, scratch, compute state (R346). -/
def lostFlags (i domain : Nat) : Nat :=
  (if domain = 1 ∧ 8 ≤ i ∧ i < 20 then 4 else 0) + (if domain = 1 ∧ i < 8 then 2 else 0) +
  (if i < 8 ∧ (domain = 1 ∨ domain = 3) then 1 else 0)

/-- What a reset of a domain (1 site, 2 gateway, 3 compute die) loses. -/
def State.loseDomain (s : State) (i domain : Nat) : State :=
  let s := if i < 8 ∧ domain ≠ 2 then s.loseCompute i else s
  let s := if domain ≠ 3 then s.loseGateway i else s
  if domain ≠ 1 then s else
  let s := s.loseEngine i
  let s := s.clearRegs i 0xC000000 0xC020000
  if i < 8 then (s.zeroMem i 0 (s.scratch i)).clearRegs i 0x6000008 0x6000024
  else if i < 20 then
    let s := (s.zeroMem i 0 hbmSize).zeroMem i accStoreBridge accStoreSize
    let s := s.setBridge i { BridgeMem.idle with notes := (s.bridgeAt i).notes, queue := (s.bridgeAt i).queue }
    (s.clearRegs i 0x6000000 0x6000018).clearRegs i 0x6000020 0x6000028
  else if i < 28 then
    let s := s.zeroMem i 0 accStoreSize
    let s := (List.range 68).foldl (fun (s : State) x => if linkSite x = i then s.resetLink x else s) s
    if i = 22 then s.portReset else s
  else s

/-! ### Requested resets (R334, R339, R340) -/

/-- Rank of a reset domain under way at a site: a request must be larger (R334). Nothing is under way at 0;
1 compute die, 2 gateway, 3 site, 4 field. -/
def State.resetRank (s : State) (i : Nat) : Nat :=
  if s.fieldState (homeField i) = 1 ∨ s.fieldState (homeField i) = 2 then 4
  else if s.resetState i = 1 then 2
  else if s.resetState i ∈ [2, 3] then (match s.resetDomain i with | 1 => 3 | 2 => 2 | 3 => 1 | _ => 4) else 0

/-- Rank of a requested domain. -/
def domainRank (domain : Nat) : Nat := match domain with | 1 => 3 | 2 => 2 | _ => 1

/-- Does a reset of a domain at a site cover the dies of a region: all of the site's, its base part, its compute dies, or
with its field the field's? -/
def resetCovers (i domain r : Nat) : Bool :=
  match domain with
  | 1 => decide (regionSite r = some i)
  | 2 => decide (regionSite r = some i) && decide (192 ≤ r)
  | 4 => decide (regionSite r = none) && decide (256 ≤ r) && decide ((r - 256) / 2 = homeField i)
  | _ => decide (regionSite r = some i) && decide (r < 192)

/-- Regions of the dies that a reset covers show that they are in reset. -/
def State.regionsReset (s : State) (i domain : Nat) : State :=
  (siteRegions i).foldl (fun (s : State) r =>
    if resetCovers i domain r then (s.stopRegion r).setF (Reg.CLK_REGION_STATUS r) Fld.CLK_REGION_STATUS_STATE 4 else s) s

/-- A drained gateway resets (R340 step 4): its stops have lost it, and what waits at them, or is live, fails with
PATH_RESET. -/
def State.drainGateway (s : State) (i : Nat) : State :=
  let s := s.setGw i { s.gw i with stops := if i < 8 then List.range 16 else [] }
  (s.failTags i stPathReset fun _ => true).failWaiting i stPathReset fun _ => true

/-- Reset a domain of a site: the gateway has drained where it was asked to (R340), the site is fenced (R336), its
epoch rises once per fence (R344), SITE_LOST names what is lost (R346). The third reset within 1 s leaves the
site in STATE 6 and retires it (R339, R427). -/
def State.resetSite (s : State) (i domain : Nat) : State :=
  let was := s.resetState i
  let s := { s with drains := s.drains.filter fun d => decide (d.1 ≠ i) }
  let s := if domain = 2 then s.drainGateway i else s
  let s := if (s.gw i).silent ∧ (was = 6 ∨ was = 2) then s else s.nextEpoch i
  let s := s.silence i
  let log := s.vt :: (SMap.get [] s.resets i).filter fun t => decide (s.vt ≤ t + 1000000000)
  let s := { s with resets := SMap.set [] s.resets i log }
  let a := Reg.GW_RESET i
  let flags := lostFlags i domain
  let s := s.setF a Fld.GW_RESET_STATE 2
  let s := s.fenceAll i
  let s := (s.loseDomain i domain).regionsReset i domain
  let s := s.setF a Fld.GW_RESET_DOMAIN domain
  let s := if flags / 4 = 1 then s.setF a Fld.GW_RESET_LOST_HBM 1 else s
  let s := if flags / 2 % 2 = 1 then s.setF a Fld.GW_RESET_LOST_SCRATCH 1 else s
  let s := if flags % 2 = 1 then s.setF a Fld.GW_RESET_LOST_COMPUTE 1 else s
  let s := s.raise mcSite 0x0901 [i, domain, flags]
  if 3 ≤ log.length then (s.setF a Fld.GW_RESET_STATE 6).retireSite i else s

/-- A requested gateway reset begins to drain (R340 step 1): STATE 1, and no stop's packet finds a tag any more (log 36). -/
def State.startDrain (s : State) (i : Nat) : State :=
  { s.setF (Reg.GW_RESET i) Fld.GW_RESET_STATE 1 with drains := s.drains ++ [(i, s.vt, false)] }

/-- A draining gateway after some time: after 1 µs its site's live transactions fail with PATH_RESET, after 2 µs it resets
(R340 steps 2 to 4). -/
def State.drainStep (s : State) (d : Nat × Nat × Bool) : State :=
  if d.2.1 + 2000 ≤ s.vt then s.resetSite d.1 2
  else if d.2.1 + 1000 ≤ s.vt ∧ d.2.2 = false then
    { s with drains := s.drains.map fun e => if e = d then (d.1, d.2.1, true) else e }.failTags d.1 stPathReset fun _ => true
  else s

/-- What a tick does for resets under way: gateways drain, and a site whose reset has begun is re-admitting (R340, R343,
R348; log 36). -/
def State.resetTick (s : State) : State :=
  let s := s.drains.foldl (fun (s : State) d => s.drainStep d) s
  (List.range 32).foldl (fun (s : State) i =>
    if s.resetState i = 2 then s.setF (Reg.GW_RESET i) Fld.GW_RESET_STATE 3 else s) s

/-- A write of GW_RESET.REQUEST (R334, R348). -/
def State.requestReset (s : State) (r : Requester) (i domain : Nat) : State :=
  if s.trusted r = false ∨ s.populated i = false ∨ s.siteRetired i = true ∨ (domain = 3 ∧ 8 ≤ i) ∨
      domain = 0 ∨ 3 < domain ∨ domainRank domain ≤ s.resetRank i then s
  else if domain = 2 then s.startDrain i else s.resetSite i domain

/-- SITE_RESET (R333, R334). A guest site that is empty or fenced does not decode the write (R10). -/
def execSiteReset (r : Requester) (site : Site) (s : State) : Out :=
  .next (if s.guestShut site then s.unmapped else s.requestReset r site 1)
/-- GATEWAY_RESET (R333, R340), with R10 as for SITE_RESET. -/
def execGatewayReset (r : Requester) (site : Site) (s : State) : Out :=
  .next (if s.guestShut site then s.unmapped else s.requestReset r site 2)
/-- COMPUTE_DIE_RESET (R333). -/
def execComputeDieReset (r : Requester) (k : Stack) (s : State) : Out := .next (s.requestReset r k.val 3)

/-- Clear the LOST flags of a site (R348). -/
def State.ackLost (s : State) (i : Nat) : State :=
  let a := Reg.GW_RESET i
  ((s.setF a Fld.GW_RESET_LOST_HBM 0).setF a Fld.GW_RESET_LOST_SCRATCH 0).setF a Fld.GW_RESET_LOST_COMPUTE 0

/-- GW_ACK_LOST (R348): a write of GW_RESET by the MC, an operator or a CTX0 host core (R334), with R10 as for
SITE_RESET. -/
def execGwAckLost (r : Requester) (site : Site) (s : State) : Out :=
  .next (if s.guestShut site then s.unmapped else if s.trusted r then s.ackLost site else s)

/-- MC_SILENCE_RESET (R339): a silent compute die (STATE 5) is reset alone, any other fenced site (STATE 6) as a
whole; a part that a trip stopped waits for its release (R405). -/
def execMcSilenceReset (site : Site) (s : State) : Out :=
  let i := site.val
  if s.siteRetired i ∨ s.fieldState (homeField i) ≠ 0 ∨ s.tripped.any (fun t => decide (t.loc = i)) then .next s
  else if s.resetState i = 5 then .next (s.resetSite i 3)
  else if s.resetState i = 6 then .next (s.resetSite i 1)
  else .next s

/-! ### Fields (R341, R342) -/

/-- The stripes of every carrier sent or received by a site empty (R341). -/
def State.dropStripes (s : State) (i : Nat) : State :=
  (List.range 32).foldl (fun (s : State) j =>
    if i = j then s else
    let both := fun (s : State) (a b : Nat) =>
      let s := (s.cutBracket a b).setOut a b []
      let s := { s with markers := SMap.del (pairKey a b) s.markers }
      let s := (s.setReg (Reg.FAB_TX_STRIPE a b) 0).setReg (Reg.FAB_RX_STRIPE b a) 0
      let s := s.setF (Reg.FAB_TX_PAIR a b) Fld.FAB_TX_PAIR_CARRIERS 0
      s.setF (Reg.FAB_RX_PAIR b a) Fld.FAB_RX_PAIR_CARRIERS 0
    both (both s i j) j i) s

/-- The rings and combs of a field's home sites stop: their heaters hold their codes (R341). -/
def State.fieldDark (s : State) (n : Nat) : State :=
  (homeSites n).foldl (fun (s : State) i =>
    let s := s.dropStripes i
    let s := { s with
      lit := s.lit.filter fun j => decide (j ≠ i)
      brackets := s.brackets.filter fun b => decide (b.home ≠ i) && decide (b.tx ≠ i)
      rcal := s.rcal.map fun kv => if kv.1 / 4096 = i then (kv.1, kv.2.stopped) else kv }
    s) s

/-- A field enters reset (R341): its home sites' gateways fence themselves (R337) and their peers fence them. -/
def State.resetField (s : State) (n : Nat) : State :=
  if s.fieldState n = 1 ∨ s.fieldState n = 2 then s else
  let s := s.setF (Reg.FAB_FIELD_RESET n) Fld.FAB_FIELD_RESET_STATE 1
  let s := { s with fieldAt := SMap.set 0 s.fieldAt n s.vt }
  let s := s.fieldDark n
  ((homeSites n).filter s.working).foldl (fun (s : State) i =>
    let s := (s.selfFence i).setF (Reg.GW_RESET i) Fld.GW_RESET_DOMAIN 4
    (s.fenceAll i).raise mcSite 0x0901 [i, 4, 0]) s

/-- A field restarts from release (R342). -/
def State.releaseField (s : State) (n : Nat) : State :=
  if s.fieldState n = 1 ∨ s.fieldState n = 2 then
    { s.setF (Reg.FAB_FIELD_RESET n) Fld.FAB_FIELD_RESET_STATE 3 with fieldAt := SMap.set 0 s.fieldAt n s.vt }
  else s

/-- FIELD_RESET (R334, R341). -/
def execFieldReset (r : Requester) (field : Field) (s : State) : Out :=
  .next (if s.trusted r then s.resetField field else s)

/-- HEATER_HOLD_EXPIRY (R341): a field still in reset at 50 ms parks every home ring. -/
def execHeaterHoldExpiry (field : Field) (s : State) : Out :=
  if s.fieldState field = 1 ∧ SMap.get 0 s.fieldAt field + 50000000 ≤ s.vt then
    .next (s.setF (Reg.FAB_FIELD_RESET field) Fld.FAB_FIELD_RESET_STATE 2)
  else .next s

/-- FIELD_RELEASE (R334, R342). -/
def execFieldRelease (r : Requester) (field : Field) (s : State) : Out :=
  .next (if s.trusted r then s.releaseField field else s)

/-! ### Re-admission (R343 to R345) -/

/-- The bound of R333 in ns for a site to reach STATE 4 (R16: a guest's verification comes beside it). -/
def readmitBound (i domain : Nat) : Nat :=
  match domain with
  | 1 => if i < 8 then 30000000 else if i < 20 then 2500000000 else if i < 28 then 600000000 else 66000000
  | 2 => 8000000
  | 3 => 25000000
  | _ => 45000000

/-- Is a guest die refused, which the MC tries again only at the next cold start (R452)? -/
def State.guestRefused (s : State) (i : Nat) : Bool :=
  decide (28 ≤ i) && decide (s.getF (Reg.SEC_GUEST (i - 28)) Fld.SEC_GUEST_STATE = 3)

/-- When a site's way back began: with its reset, or with its field's release. -/
def State.backSince (s : State) (i : Nat) : Nat :=
  if s.fieldState (homeField i) = 3 then SMap.get 0 s.fieldAt (homeField i) else (SMap.get [] s.resets i).headD 0

/-- Is a site on its way back: in reset, or fenced with its field restarting? -/
def State.returning (s : State) (i : Nat) : Bool :=
  !(s.siteRetired i) && !(s.guestRefused i) && s.populated i &&
  (decide (s.resetState i ∈ [2, 3]) && decide (s.fieldState (homeField i) = 0) ||
   decide (s.resetState i ∈ [2, 3, 6]) && decide (s.fieldState (homeField i) = 3))

/-- A re-admitted gateway starts afresh: it records the epochs of the working sites, those awaiting their admission among
them, and every such peer records its epoch and clears its fence (R343 step 5, R347). -/
def State.gatewayBack (s : State) (i : Nat) : State :=
  let peers := (List.range 32).filter fun j => decide (j ≠ i) && s.working j && !(s.deaf j)
  let epochOf := fun (s : State) (j : Nat) => s.getF (Reg.GW_EPOCH j) Fld.GW_EPOCH_EPOCH
  let s := s.setGw i { s.gw i with
    silent := false, issueStop := false, stops := [], waiting := [], streams := [], creditUsed := []
    freed := [], freedAt := []
    epochs := peers.foldl (fun m j => SMap.set 0 m j (epochOf s j)) (s.gw i).epochs }
  let fenced := ((List.range 32).filter fun j => decide (j ≠ i) && !(decide (j ∈ peers))).foldl (fun m j => m + 2 ^ j) 0
  let s := s.setF (Reg.GW_FENCE i) Fld.GW_FENCE_PEERS fenced
  peers.foldl (fun (s : State) j =>
    let s := s.freshHop j (.base (siteOf i))
    let s := s.setGw j { s.gw j with epochs := SMap.set 0 (s.gw j).epochs i (epochOf s i) }
    let a := Reg.GW_FENCE j
    let s := s.setF a Fld.GW_FENCE_PEERS (setBit (s.getF a Fld.GW_FENCE_PEERS) i false)
    (s.pairUp i j).pairUp j i) s

/-- A restarting field is in service again once none of its home sites is on its way back (R342). -/
def State.fieldBack (s : State) (n : Nat) : State :=
  if s.fieldState n = 3 ∧ (homeSites n).any s.returning = false then
    s.setF (Reg.FAB_FIELD_RESET n) Fld.FAB_FIELD_RESET_STATE 0
  else s

/-- A site has come back to STATE 4 (R343); the crossings of its reset dies are calibrated (step 4, R359). -/
def State.readmit (s : State) (i : Nat) : State :=
  let s := if i ∈ s.lit then s else { s with lit := s.lit ++ [i] }
  let s := s.siteLanesUp i
  let s := (siteRegions i).foldl (fun (s : State) r => if (s.region r).stopped then s.startRegion r else s) s
  let s := s.calibrateXings (resetCovers i (s.resetDomain i))
  let s := s.gatewayBack i
  let s := if 8 ≤ i ∧ i < 20 then s.setF (Reg.MEM_HBM_STATUS i) Fld.MEM_HBM_STATUS_STATE 2 else s
  let s := if i < 28 then s else s.setF (Reg.SEC_GUEST (i - 28)) Fld.SEC_GUEST_STATE 2
  (s.setF (Reg.GW_RESET i) Fld.GW_RESET_STATE 4).fieldBack (homeField i)

/-- A guest site whose die fails its verification is as an empty one: its lanes are untrained, its rings parked (R16). -/
def State.guestOut (s : State) (i : Nat) : State :=
  let s := s.setF Reg.CFG_SITE_MAP Fld.CFG_SITE_MAP_POPULATED
    (setBit (s.getF Reg.CFG_SITE_MAP Fld.CFG_SITE_MAP_POPULATED) i false)
  let s := s.dropStripes i
  { s with
    lit := s.lit.filter fun j => decide (j ≠ i)
    rcal := (s.rcal.map fun kv => (kv.1, if kv.1 / 4096 = i then kv.2.stopped else kv.2)).filter fun kv =>
      decide (kv.2 ≠ RingCal.idle) }

/-- READMISSION (R343, R344, R452): a fenced site's reset completes; never earlier than 1 ms after the fence. A
guest die must pass its verification; `fail` is the step of R452 that it fails, or 0. -/
def execReadmission (site : Site) (fail : Fin 6) (s : State) : Out :=
  let i := site.val
  if s.returning i = false ∨ s.vt < s.backSince i + 1000000 then .next s
  else if 28 ≤ i ∧ fail.val ≠ 0 then
    let a := Reg.SEC_GUEST (i - 28)
    .next (((((s.setF a Fld.SEC_GUEST_STATE 3).setF a Fld.SEC_GUEST_STEP fail.val).setF (Reg.GW_RESET i)
      Fld.GW_RESET_STATE 6).guestOut i).fieldBack (homeField i))
  else .next (s.readmit i)

/-- READMISSION_TIMEOUT (R339, R427): a site that has not reached STATE 4 within its bound of R333 is left fenced in
STATE 6 and retired. -/
def execReadmissionTimeout (site : Site) (s : State) : Out :=
  let i := site.val
  let bound := if s.fieldState (homeField i) = 3 then 45000000 else readmitBound i (s.resetDomain i)
  if s.returning i ∧ s.backSince i + bound < s.vt then
    .next (((s.setF (Reg.GW_RESET i) Fld.GW_RESET_STATE 6).retireSite i).fieldBack (homeField i))
  else .next s

end Sys2Proof.Machine
end

