-- ==== Sys2Proof/Machine/Granary.lean ====
section
/-!
DEFINITION. The granary (R419 to R431, R433, R483): retirement and draw of matrix cores, host-core draws on
command, bond columns, triplicated signals, and the persistent map.
-/

namespace Sys2Proof.Machine

open Sys2Proof

/-! ### Matrix cores (R420 to R422) -/

/-- GRANARY_POLICY.CORE_ORDER (R421). -/
def State.coreOrder (s : State) : Nat := s.policy (·.u8 12) 0

/-- Granary cores of a die, lowest first. -/
def State.granaryCores (s : State) (k : Nat) : List Nat :=
  (List.range 96).filter fun c => decide (s.nextRole 1 k c = 1)

/-- The dies that hold the most granary cores, if any holds one. -/
def State.richDies (s : State) : List Nat :=
  let n := (List.range 8).map fun k => (s.granaryCores k).length
  let most := n.foldl max 0
  if most = 0 then [] else (List.range 8).filter fun k => decide (n.getD k 0 = most)

/-- The granary core that CORE_ORDER yields for a retired core: stack and core (R421). -/
def State.drawCore (s : State) (k c : Nat) : Option (Nat × Nat) :=
  let own := s.granaryCores k
  let first := fun (ks : List Nat) => ks.findSome? fun j => ((s.granaryCores j).head?).map fun d => (j, d)
  match s.coreOrder with
  | 0 =>
    match own.find? (fun d => decide (d / 8 = c / 8)), own with
    | some d, _ => some (k, d)
    | none, d :: _ => some (k, d)
    | none, [] =>
      let rich := s.richDies
      (List.range 96).findSome? fun d => (rich.find? fun j => decide (s.nextRole 1 j d = 1)).map fun j => (j, d)
  | 1 => first [k]
  | _ => first s.richDies

/-- Retire a matrix core (R422): its ROLE becomes 2 and a granary core takes its place, from the next period
boundary of the hold (R420). A granary core that is retired leaves the granary and is not replaced. -/
def State.retireCore (s : State) (k c : Nat) : State :=
  let role := s.nextRole 1 k c
  if role ≠ 0 ∧ role ≠ 1 then s else
  let s := (s.putRole 1 k c 2).raise k 0x0C02 [c]
  if role = 1 then s else
  match s.drawCore k c with
  | none => s.raise k 0x0C01 [c]
  | some (j, d) =>
    let s := (s.putRole 1 j d 0).raise k 0x0C03 [c, j, d]
    if s.coreOrder = 1 then (if s.granaryCores k = [] then s.granaryEmpty k 1 k 0 else s)
    else if s.richDies = [] then s.granaryEmpty k 1 0xFFFF 0 else s

/-- A hold retires the cores that wait for it (R422). -/
def State.retireWaiting (s : State) : State :=
  s.retireQ.foldl (fun (s : State) n => s.retireCore (n / 96) (n % 96)) { s with retireQ := [] }

/-- A hold of a bell with CHECKPOINT_REQUIRED retires each core that every run of the bell faulted at (R422). -/
def State.retireFaulty (s : State) (bell : Nat) : State :=
  let hit := (List.range 768).filter fun n =>
    let runs := (s.bellAt (n / 96)).runs.filter fun r => decide (r.1 = bell)
    decide (s.coreRole (n / 96) (n % 96) = 0) && decide (runs ≠ []) &&
    runs.all fun r => decide (r ∈ (s.core (n / 96) (n % 96)).attributed)
  { s with retireQ := s.retireQ ++ hit.filter fun n => decide (n ∉ s.retireQ) }

/-- The count fields of CFG_CORE_COUNT (R17). -/
def State.countRoles (s : State) : State :=
  let a := Reg.CFG_CORE_COUNT
  let s := s.setF a Fld.CFG_CORE_COUNT_ENABLED_CORES (s.countCores 0)
  let s := s.setF a Fld.CFG_CORE_COUNT_GRANARY_CORES (s.countCores 1)
  let s := s.setF a Fld.CFG_CORE_COUNT_ENABLED_HOST (s.countHosts 0)
  s.setF a Fld.CFG_CORE_COUNT_GRANARY_HOST (s.countHosts 1)

/-- Roles that wait take effect at a boundary (R420): a drawn core's store reads 0 (R422), a drawn host core
runs (R423). -/
def State.applyRoles (s : State) : State :=
  if s.rolePend = [] then s else
  let s' := s.rolePend.foldl (fun (s : State) kv =>
    let type := kv.1 / 2 ^ 48
    let k := kv.1 / 2 ^ 32 % 2 ^ 16
    let i := kv.1 % 2 ^ 32
    let s := s.grnPut type k i kv.2
    if type = 1 then (if kv.2 = 0 then (s.setCore k i .idle).zeroMem k (coreStoreBase i) coreStoreSize else
        s.setCore k i .idle)
    else if kv.2 = 0 then s.setF (Reg.HOST_CORE_STATUS (8 * k + i)) Fld.HOST_CORE_STATUS_STATE 1 else s) s
  { s' with rolePend := [] }.countRoles

/-- The MC's view of whether the domain holds: its vote node's site. -/
def State.domainHolds (s : State) : Bool := s.holding (treePort s.rs)

/-- RETIRE_CORE (R422, R433): a write of GRN_CTRL.RETIRE_CORE retires the core that GRN_TARGET names, in the
current hold or at the next. -/
def execRetireCore (r : Requester) (s : State) : Out :=
  let k := s.getF Reg.GRN_TARGET Fld.GRN_TARGET_SITE
  let c := s.getF Reg.GRN_TARGET Fld.GRN_TARGET_CORE
  if s.trusted r = false ∨ 96 ≤ c then .next s
  else if s.domainHolds then .next (s.retireCore k c)
  else if 96 * k + c ∈ s.retireQ then .next s
  else .next { s with retireQ := s.retireQ ++ [96 * k + c] }

/-- DRAW_HOST (R423, R431, R433): a write of GRN_CTRL.DRAW_HOST draws the granary host core for the retired
host core in GRN_TARGET. -/
def execDrawHost (r : Requester) (s : State) : Out :=
  let k := s.getF Reg.GRN_TARGET Fld.GRN_TARGET_SITE
  let j := s.getF Reg.GRN_TARGET Fld.GRN_TARGET_CORE % 8
  if s.trusted r then .next (s.drawHost (8 * k + j)) else .next s

/-! ### Bond columns (R424) -/

/-- Is a port or gateway channel of a stack at half width? -/
def State.halfWidth (s : State) (k u : Nat) : Bool := s.grnHas 11 k (65536 + u)

/-- The pattern test of a column finds a failing signal (R424). -/
def State.bondFails (s : State) (k u col sig : Nat) : State :=
  let index := 36 * u + col
  if s.halfWidth k u then
    if SMap.get 0 s.bondHalf (80 * k + u) = col / 18 then s else s.retireSite k
  else if s.grnHas 11 k index = false then
    ((s.grnPut 11 k index sig).raise k 0x0904 [u, col, sig]).granaryEmpty k 7 k index
  else
    let s := { s with bondHalf := SMap.set 0 s.bondHalf (80 * k + u) (col / 18) }
    ((s.grnPut 11 k (65536 + u) 1).raise k 0x0905 [u]).raise k 0x0C01 [u]

/-- BOND_PATTERN_TEST (R424): in a guard interval of at least 250 ns, or in a hold, the device tests a column
whose wear counter has reached 4; `bad` is the signal that fails. -/
def execBondPatternTest (k : Stack) (u : Fin 80) (col : Fin 36) (bad : Option (Fin 64)) (s : State) : Out :=
  let ready := s.holding k || ((s.bellAt k).guard && decide (250 ≤ guardNs s.rs))
  if s.wearGet 2 (4096 * k + 36 * u.val + col.val) < 4 ∨ ready = false then .next s else
  match bad with
  | none => .next s
  | some sig => .next (s.bondFails k u.val col.val sig.val)

/-! ### Triplicated signals (R425) -/

/-- TRIPLE_DISAGREE (R425, R61, R418): `copy` of a signal of a site dissents. The first copy to dissent is marked
failed; a further disagreement fences and retires the site
(SITE_LOST, R427). `base` says that a field's voter found it. -/
def execTripleDisagree (site : Site) (signal : BitVec 16) (copy : Fin 3) (base : Bool) (s : State) : Out :=
  let who := if base then 32 + homeField site else site.val
  let g := signal.toNat
  if s.siteRetired site then .next s
  else if s.grnHas 12 site g then
    if s.grnGet 12 site g 3 = copy.val then .next s
    else
      let s := (s.raise who 0x0903 [site, g]).fenceAll site
      .next ((s.raise mcSite 0x0901 [site, 1, lostFlags site 1]).retireSite site)
  else .next (((s.grnPut 12 site g copy).raise who 0x0902 [site, g, copy]).granaryEmpty site 8 site g)

/-! ### Persistence (R430, R483) -/

/-- MAP_WRITE (R430, R433): the MC writes a change of the map to the copy in MRAM that lacks it longest. The
first write of a change counts in GRN_MAP_SEQ; the second brings the other copy up and ends PENDING (log 18). -/
def execMapWrite (s : State) : Out :=
  match s.mapLag with
  | 0 => .next s
  | 1 => .next ({ s with mapLag := 0 }.setF Reg.GRN_STATUS Fld.GRN_STATUS_PENDING 0)
  | _ => .next ({ s with mapLag := 1 }.setReg Reg.GRN_MAP_SEQ (s.reg Reg.GRN_MAP_SEQ + 1))

/-- The canonical form of the map (R483). -/
def State.mapBytes (s : State) : List Byte :=
  let n := s.grn.length
  ([0x47, 0x52, 0x4E, 0x4D] ++ leBytes 2 1 ++ leBytes 2 0 ++ leBytes 4 n ++ leBytes 4 0 : List Byte) ++
  s.grn.flatMap fun kv => leBytes 2 (kv.1 / 2 ^ 48) ++ leBytes 2 (kv.1 / 2 ^ 32 % 2 ^ 16) ++
    leBytes 4 (kv.1 % 2 ^ 32) ++ leBytes 8 kv.2

/-- GRN_MAP_DIGEST (R430, R483). -/
def State.mapDigest (s : State) : List Byte := sha256 s.mapBytes

end Sys2Proof.Machine
end

