-- ==== Sys2Proof/Machine/Security.lean ====
section
/-!
DEFINITION. Signing leaves (R442, R443), the operator key (R444), and attestation (R446, R447, R450). The access
ledgers are in Ledger.lean, guest admission with re-admission and cold start.
-/

namespace Sys2Proof.Machine

open Sys2Proof

/-! ### Leaves (R443) -/

/-- Top leaves and lower leaves of a tree, and the size of a reserved block (R442, R443). -/
def topLeaves : Nat := 1024
def lowerLeaves : Nat := 32768
def leafBlock : Nat := 64

/-- Are all signatures spent (R443)? -/
def LmsSt.exhausted (l : LmsSt) : Bool :=
  decide (topLeaves ≤ l.top) && decide (lowerLeaves ≤ l.lower) && !l.spare

/-- Is there a leaf to sign with: in the current tree, or in a spare one? -/
def LmsSt.ready (l : LmsSt) : Bool := decide (l.lower < lowerLeaves) || l.spare

/-- A spent tree gives way to the spare one. -/
def LmsSt.turn (l : LmsSt) : LmsSt :=
  if lowerLeaves ≤ l.lower ∧ l.spare then { l with lower := 0, resv := 0, spare := false } else l

/-- The leaf that signs, a number no other signature of the device has, and the state once it is used: a block is
reserved before its first leaf (R443). -/
def LmsSt.take (l : LmsSt) : Nat × LmsSt :=
  let l := l.turn
  let l := if l.resv ≤ l.lower then { l with resv := l.lower + leafBlock } else l
  -- a spare tree that is held was signed by the newest top leaf, the current tree by the one before it
  (lowerLeaves * (l.top - 1 - (if l.spare then 1 else 0)) + l.lower, { l with lower := l.lower + 1 })

/-- At a cold start and at a wake the device goes on at the end of the last reserved block (R443). -/
def LmsSt.restart (l : LmsSt) : LmsSt := { l with lower := l.resv }

/-- Bytes cut or filled with 0 to a length. -/
def fitBytes (n : Nat) (bs : List Byte) : List Byte := (bs ++ List.replicate n 0).take n

/-- Length of an HSS signature of the device (R442). -/
def sigLen : Nat := 5236

/-- Sign bytes with the next leaf; none where no leaf is ready. -/
def State.sign (s : State) (bs : List Byte) : Option (List Byte × State) :=
  if s.lms.ready = false then none else
  let (q, l) := s.lms.take
  some (fitBytes sigLen (Config.hssSign q bs), { s with lms := l })

/-- LOWER_TREE_GENERATED (R443): once the current tree has used 16,384 leaves, a spare tree is generated and signed
by the next top leaf, which is written as used before it signs. -/
def execLowerTreeGenerated (s : State) : Out :=
  let l := s.lms
  if l.spare ∨ l.lower < 16384 ∨ topLeaves ≤ l.top then .next s
  else .next { s with lms := { l with top := l.top + 1, spare := true } }

/-! ### The operator key (R444) -/

/-- The address in bits [47:0] of a register: site and offset in the own package. -/
def localSite (a : BitVec 48) : Nat := a.toNat / 2 ^ 43
def localOff (a : BitVec 48) : Nat := a.toNat % 2 ^ 43

/-- May a context read, or write, a range at a site: its windows and the ranges of R161 (R440)? -/
def State.ctxReads (s : State) (ctx site a n : Nat) : Bool := s.rangeFits site ctx a n false true false
def State.ctxWrites (s : State) (ctx site a n : Nat) : Bool := s.rangeFits site ctx a n false false true

/-- What a key-change record says (R444), if it is well formed and names SEC_OPKEY_SEQ: the key, none for a
removal, and the signature. -/
def State.keyRecord (s : State) (addr : BitVec 48) : Option (Option (List Byte) × List Byte) :=
  let site := localSite addr
  let a := localOff addr
  let rec_ := s.readMem site a 64
  let num := fun (o n : Nat) => leNat ((rec_.drop o).take n)
  let action := num 0 1
  let keyLen := num 16 4
  let sigLen := num 20 4
  if a % 64 ≠ 0 ∨ s.ctxReads 0 site a 64 = false ∨ (action ≠ 1 ∧ action ≠ 2) ∨ num 1 7 ≠ 0 ∨
      num 8 8 ≠ s.opkeySeq ∨ keyLen ≠ (if action = 1 then 60 else 0) ∨ 16384 < sigLen ∨ num 24 40 ≠ 0 ∨
      s.ctxReads 0 site a (64 + keyLen + sigLen) = false then none
  else
    let key := s.readMem site (a + 64) keyLen
    some (if action = 1 then some key else none, s.readMem site (a + 64 + keyLen) sigLen)

/-- The message that a change signs (R444). -/
def keyMessage (key : Option (List Byte)) (seq : Nat) : List Byte :=
  (match key with
    | some k => sha256 k
    | none => leBytes 32 0) ++ leBytes 8 seq

/-- A key-change record is applied (R444). -/
def State.changeKey (s : State) (addr : BitVec 48) : State :=
  let refused := s.setF Reg.SEC_STATUS Fld.SEC_STATUS_OPKEY_REFUSED 1
  match s.keyRecord addr with
  | none => refused
  | some (key, sig) =>
    match s.opkey with
    | none => if key.isSome then { s with opkey := key, opkeySeq := s.opkeySeq + 1 } else s
    | some k =>
      if Config.hssVerify k (keyMessage key s.opkeySeq) sig then
        { s with opkey := key, opkeySeq := s.opkeySeq + 1 }
      else refused

/-- Is a requester the MC or an operator (R454)? -/
def isOperator : Requester → Bool
  | .host _ => false
  | _ => true

/-- OPKEY_CHANGE (R444, R454): a write of SEC_OPKEY_CTRL with GO set. -/
def execOpkeyChange (r : Requester) (addr : BitVec 48) (s : State) : Out :=
  .next (if isOperator r then s.changeKey addr else s)

/-! ### Attestation (R446, R447, R450) -/

/-- A measurement register (R445). -/
def State.measAt (s : State) (m : Nat) : List Byte := s.meas.getD m (leBytes 32 0)

/-- Is a core or host core of a context halted (R450, R462)? -/
def State.ctxHalted (s : State) (ctx : Nat) : Bool :=
  (s.cores.any fun kv => kv.2.halted && decide (kv.2.ctx = ctx)) ||
  (List.range 64).any fun h => decide (s.hostCtx h = ctx) &&
    decide (s.getF (Reg.HOST_CORE_STATUS h) Fld.HOST_CORE_STATUS_STATE = 2)

/-- The DEBUG field (R450). -/
def State.debugBits (s : State) (ctx : Nat) : Nat :=
  bit s.debugUsed + 2 * bit ((List.range 32).any fun i =>
    decide (s.getF (Reg.TITHE_BUDGET i 7) Fld.TITHE_BUDGET_BUDGET ≠ 0)) + 4 * bit (s.ctxHalted ctx)

/-- The device's top-level public key: the first 60 bytes of its identity (R442, R460). -/
def topKey : List Byte := Config.identity.take 60

/-- Digest of a guest site's certificate, 32 bytes of 0 without an admitted die (R446). -/
def State.guestDigest (s : State) (g : Nat) : List Byte :=
  if s.getF (Reg.SEC_GUEST g) Fld.SEC_GUEST_STATE = 2 then sha256 (Config.guestCert g) else leBytes 32 0

/-- The body of a report (R446). -/
def State.attestBody (s : State) (ctx : Nat) (nonce : List Byte) (kem : Option (List Byte)) : List Byte :=
  let digest := fun (o : Option (List Byte)) => match o with
    | some bs => sha256 bs
    | none => leBytes 32 0
  let part := (s.cfg.partials.find? fun p => decide (p.ctx = ctx)).map (·.digest)
  let (n, head) := s.ledger ctx
  ([0x5A, 0x58, 0x41, 0x54] ++ leBytes 2 1 ++ leBytes 1 ctx ++
    leBytes 1 (bit (ctxConfidential s.rs ctx) + 2 * bit s.opkey.isSome) ++ fitBytes 32 nonce ++
    leBytes 8 s.vt ++ leBytes 6 (s.getF Reg.BELL_COMMITTED Fld.BELL_COMMITTED_NUMBER) ++ leBytes 2 0 ++
    leBytes 2 (s.getF Reg.CFG_IDENT Fld.CFG_IDENT_ORDER) ++
    leBytes 1 (s.getF Reg.CFG_IDENT Fld.CFG_IDENT_STEPPING) ++ leBytes 5 0 ++ sha256 topKey ++
    s.measAt 0 ++ s.measAt 1 ++ s.measAt 2 ++ s.measAt 3 ++
    fitBytes 32 ((s.cfg.full.map (·.digest)).getD []) ++ fitBytes 32 (part.getD []) ++ s.mapDigest ++ head ++
    leBytes 8 n ++ leBytes 4 (s.debugBits ctx) ++ leBytes 1 (s.getF Reg.CFG_ALT Fld.CFG_ALT_ACTIVE) ++
    leBytes 3 0 ++ digest kem ++ digest s.opkey ++
    sha256 (s.guestDigest 0 ++ s.guestDigest 1 ++ s.guestDigest 2 ++ s.guestDigest 3) : List Byte)

/-- Length of a report (R446). -/
def reportLen : Nat := 5700

/-- A request for a report is refused (R447, R453). -/
def State.attestRefused (s : State) (reason : Nat) : State :=
  (s.setF Reg.SEC_ATTEST_STATUS Fld.SEC_ATTEST_STATUS_STATE 3).setF Reg.SEC_ATTEST_STATUS Fld.SEC_ATTEST_STATUS_REASON reason

/-- A request whose site is not live is refused, and its access reported (R24; log 19). -/
def State.attestFenced (s : State) : State :=
  (s.attestRefused 1).raiseStatus mcPort stFenced (issuerArgs s.pkg mcPort mcIssuer)

/-- A signed report is written at ADDR (R447), unless its site has been fenced meanwhile (R24). -/
def State.attestWrite (s : State) (q : AttestReq) (sig : List Byte) : State :=
  let site := q.addr / 2 ^ 43
  if s.live site = false ∨ s.fencedAt mcPort site = true then s.attestFenced
  else (s.storeRun 0 site (q.addr % 2 ^ 43) (q.body ++ sig)).setF Reg.SEC_ATTEST_STATUS Fld.SEC_ATTEST_STATUS_STATE 2

/-- SEC_ATTEST (R447, R453): a host core asks for a report; the report describes what is active when signing
begins, which it does at once (log 19). A request while another is being signed is ignored. -/
def execSecAttest (h : Host64) (ctx : BitVec 8) (addr : BitVec 48) (s : State) : Out :=
  let own := s.hostCtx h
  let site := localSite addr
  let a := localOff addr
  let st := Reg.SEC_ATTEST_STATUS
  if s.hostRuns h = false ∨ s.attest.isSome then .next s
  else if a % 64 ≠ 0 ∨ s.ctxReads own site a reportLen = false ∨ s.ctxWrites own site a reportLen = false then
    .next (s.attestRefused 1)
  else if s.live site = false then .next s.attestFenced
  else if s.lms.exhausted then .next (s.attestRefused 2)
  else
    let body := s.attestBody (if own = 0 then ctx.toNat else own) (s.readMem site a 32) none
    .next ((({ s with attest := some ⟨addr.toNat, body⟩ }).setF st Fld.SEC_ATTEST_STATUS_STATE 1).setF st
      Fld.SEC_ATTEST_STATUS_REASON 0)

/-- ATTEST_DONE (R446, R447): the device signs the body and writes the report. While no leaf is ready it goes on
signing; once all signatures are spent it refuses (R443). -/
def execAttestDone (s : State) : Out :=
  match s.attest with
  | none => .next s
  | some q =>
    if s.lms.exhausted then .next ({ s with attest := none }.attestRefused 2)
    else match s.sign q.body with
      | none => .next s
      | some (sig, s) => .next ({ s with attest := none }.attestWrite q sig)

end Sys2Proof.Machine
end

