-- ==== Sys2Proof/Machine/Power.lean ====
section
/-!
DEFINITION. Power, heat, safelight and fixing (16): the forecast (R398, R399), the input-power limiter (R400),
thermal pairs, throttles and trips (R401 to R405), safelight and wake (R406 to R409), fixing (R410 to R412), and
their rows.
-/

namespace Sys2Proof.Machine

open Sys2Proof

/-! ### The forecast (R398, R399) -/

/-- STATE of PWR_STATUS (R414): 0 starting, 1 running, 2 entering safelight, 3 safelight, 4 waking. -/
def State.pwrState (s : State) : Nat := s.getF Reg.PWR_STATUS Fld.PWR_STATUS_STATE
def State.setPwrState (s : State) (n : Nat) : State := s.setF Reg.PWR_STATUS Fld.PWR_STATUS_STATE n
/-- Does the module sleep, enter its sleep or wake from it? -/
def State.asleep (s : State) : Bool := decide (2 ≤ s.pwrState) && decide (s.pwrState ≤ 4)

/-- P_in for classes, in 1/1500 W: 1.08 × (Σ c / 15 × reference power + 780 W) over the live sites. -/
def State.forecast (s : State) (cls : Nat → Nat) : Nat :=
  108 * ((s.liveSites.map fun i => cls i * refPower i).sum + 11700)

/-- Phases for a forecast (R398). -/
def phasesFor (p : Nat) : Nat := min 16 ((p + 900000 - 1) / 900000 + 2)

/-- At b+0 of a bell with classes `now` the classes `next` of the bell after it arrive (R398, R399): phases are added
at once and removed only when the later bell begins. -/
def State.forecastBell (s : State) (now next : Nat → Nat) : State :=
  let p := s.forecast next
  let n := max (phasesFor (s.forecast now)) (phasesFor p)
  let s := s.setF Reg.PWR_STATUS Fld.PWR_STATUS_PHASES n
  if 7600 * 1500 < p then s.raise mcSite 0x0B03 [] else s

/-! ### Supply -/

/-- SUPPLY_LOW (R394): VIN has been between 40 V and 44 V for 1 ms. -/
def execSupplyLow (s : State) : Out :=
  if s.power.on = false then .next s
  else .next ((s.setF Reg.PWR_STATUS Fld.PWR_STATUS_SUPPLY_LOW 1).raise mcSite 0x0B01 [])

/-- HOLDUP_FAULT (R397): VHOLD falls below 45 V in service. -/
def execHoldupFault (s : State) : Out :=
  if s.power.on = false then .next s
  else .next ((s.setF Reg.PWR_STATUS Fld.PWR_STATUS_VHOLD_OK 0).raise mcSite 0x0B02 [])

/-! ### The input-power limiter (R400) -/

/-- Every cluster region of every compute die. -/
def allClusters : List Nat := (List.range 8).flatMap clusterRegions

/-- The cluster regions run with `n` entries held down by the power limit; a step stops them for `ns` (R356). -/
def State.powerDown (s : State) (n ns : Nat) : State :=
  let s := { s with power := { s.power with steps := n } }
  let s := s.setF Reg.PWR_LIMIT Fld.PWR_LIMIT_STEPS (min 15 n)
  allClusters.foldl (fun (s : State) r =>
    if s.regionHere r = false then s
    else (s.setRegion r { s.region r with powerDown := n }).throttle r ns) s

/-- Does any of some regions still run above its lowest entry? -/
def State.anyAbove (s : State) (rs : List Nat) : Bool :=
  rs.any fun r => s.regionHere r && decide (0 < (s.region r).demand)

/-- One step of the limiter, reported as POWER_LIMIT (R400); none where every region runs at its lowest entry. -/
def State.powerStep (s : State) (ns : Nat) : State :=
  if s.anyAbove allClusters then (s.powerDown (s.power.steps + 1) ns).raise mcSite 0x0B04 [] else s

/-- Mean of the newest `n` samples in 10⁻⁴ W. -/
def PowerSt.mean (p : PowerSt) (n : Nat) : Nat := (p.samples.take n).sum / max 1 (min n p.samples.length)

/-- Is a step due that comes every `gap` ns? -/
def due (last : Option Nat) (gap now : Nat) : Bool :=
  match last with
  | none => true
  | some t => decide (t + gap ≤ now)

/-- The limiter judges the averages (R400). Each condition steps when it begins and then at its own pace. -/
def State.limiter (s : State) (ns : Nat) : State :=
  let w : Nat := 10000
  let ms : Nat := s.power.mean 10
  let sec : Nat := s.power.mean 10000
  let now : Nat := s.vt
  let above := if 7600 * w < ms then some (s.power.overSince.getD now) else none
  let fast := decide (8800 * w < ms)
  let slow := match above with
    | some t => decide (t + 15000000 ≤ now)
    | none => false
  let long := decide (7400 * w < sec)
  let p := { s.power with
    overSince := above
    fastAt := if fast then s.power.fastAt else none
    slowAt := if slow then s.power.slowAt else none
    longAt := if long then s.power.longAt else none }
  let s := { s with power := p }
  let s := if fast && due p.fastAt 1000000 now then
      ({ s with power := { s.power with fastAt := some now } } : State).powerStep ns else s
  let s := if slow && due p.slowAt 1000000 now then
      ({ s with power := { s.power with slowAt := some now } } : State).powerStep ns else s
  let s := if long && due p.longAt 100000000 now then
      ({ s with power := { s.power with longAt := some now } } : State).powerStep ns else s
  if 0 < s.power.steps ∧ sec < 7200 * w ∧ ms < 7600 * w ∧ s.power.freeAt + 100000000 ≤ now then
    ({ s with power := { s.power with freeAt := now } } : State).powerDown (s.power.steps - 1) 0
  else s

/-- POWER_SAMPLE (R400): every 100 µs VIN (10 mV) and its current (10 mA) are sampled; `stop` is how long a step
stops a region. VIN of at least 44 V ends SUPPLY_LOW. -/
def execPowerSample (volts amps : BitVec 16) (stop : Fin 251) (s : State) : Out :=
  if s.power.on = false ∨ s.vt < s.power.sampleAt + 100000 then .next s else
  let p := { s.power with
    sampleAt := s.vt, samples := ((volts.toNat * amps.toNat) :: s.power.samples).take 10000 }
  let s := { s with power := p }
  let s := (s.setF Reg.PWR_INPUT Fld.PWR_INPUT_VOLTS volts.toNat).setF Reg.PWR_INPUT Fld.PWR_INPUT_AMPS amps.toNat
  let s := s.setF Reg.PWR_LIMIT Fld.PWR_LIMIT_WATTS (min 0xFFFF (p.mean 10 / 10000))
  let s := if 4400 ≤ volts.toNat then s.setF Reg.PWR_STATUS Fld.PWR_STATUS_SUPPLY_LOW 0 else s
  .next (s.limiter stop)

/-! ### Thermal pairs (R401 to R403) -/

/-- Key of a pair. -/
def heatPair (loc k : Nat) : Nat := 128 * loc + k
/-- Pairs of a location (R401). -/
def pairsOf (loc : Nat) : List Nat := List.range (sensorCount loc / 2)

/-- A reading in 0.25 °C, if its oscillator runs and it lies within -40 °C to 150 °C (R402). -/
def validReading (r : Option Int) : Option Int :=
  match r with
  | some t => if -160 ≤ t ∧ t ≤ 600 then some t else none
  | none => none

/-- The reading of a sensor that counts: valid and not bracketed (R389, R402). -/
def State.reading (s : State) (loc i : Nat) : Option Int :=
  if s.sensorOut loc i = false ∧ s.sensorValid loc i = true then some (s.sensorTemp loc i) else none

/-- Value of a pair: the higher of its valid readings; a lost pair reads its location's throttle limit (R402). -/
def State.pairValue (s : State) (loc k : Nat) : Option Int :=
  if heatPair loc k ∈ s.pairLost then some (throttleLimit loc) else
  match s.reading loc (2 * k), s.reading loc (2 * k + 1) with
  | some a, some b => some (max a b)
  | some a, none => some a
  | none, some b => some b
  | none, none => none

/-- The hottest pair of a location. -/
def State.hottest (s : State) (loc : Nat) : Option Int :=
  (pairsOf loc).foldl (fun m k => match m, s.pairValue loc k with
    | some a, some b => some (max a b)
    | some a, none => some a
    | none, b => b) none

/-- Does a compute stack sample fast after its class has risen (R403)? -/
def State.jumped (s : State) (loc : Nat) : Bool :=
  let t := SMap.get 0 s.jumpAt loc
  decide (t ≠ 0) && decide (s.vt < t - 1 + 10000000)

/-- Does a location sample at 20 kHz (R403)? -/
def State.samplesFast (s : State) (loc : Nat) : Bool := decide (loc ∈ s.fast) || s.jumped loc

/-- FAST of a location's sensors and of THM_STATUS follow its rate (R415). -/
def State.showFast (s : State) (loc : Nat) : State :=
  let b := bit (s.samplesFast loc)
  let s := (List.range (sensorCount loc)).foldl (fun (s : State) i =>
    s.setF (sensorReg loc i) Fld.THM_SENSOR_FAST b) s
  s.setF Reg.THM_STATUS Fld.THM_STATUS_FAST (bit ((List.range 44).any s.samplesFast))

/-- A compute stack whose class rises by at least 4 samples fast for 10 ms (R403). -/
def State.classRises (s : State) (now : Nat → Nat) (k : Nat) : State :=
  if (s.classAt k).cls + 4 ≤ now k then
    { s with jumpAt := SMap.set 0 s.jumpAt k (s.vt + 1) }.showFast k
  else s

/-- A bell begins with its classes (R377, R398, R403). -/
def State.classesBegin (s : State) (now next : Nat → Nat) : State :=
  (((List.range 8).foldl (fun (s : State) k => s.classRises now k) s).classesTo now).forecastBell now next

/-- A location goes over to 20 kHz within 10 °C of its throttle limit, and back when every pair is more than 12 °C
below it (R403). -/
def State.rate (s : State) (loc : Nat) : State :=
  let near := match s.hottest loc with
    | some t => if throttleLimit loc - 40 ≤ t then some true
                else if t < throttleLimit loc - 48 then some false else none
    | none => none
  let fast := match near with
    | some true => if loc ∈ s.fast then s.fast else s.fast ++ [loc]
    | some false => s.fast.filter fun l => decide (l ≠ loc)
    | none => s.fast
  { s with fast := fast }.showFast loc

/-- HOTTEST and SOURCE (R415): the pair that is highest against its own throttle limit. -/
def State.showHottest (s : State) : State :=
  let best := (List.range 44).foldl (fun (m : Option (Int × Nat)) loc =>
    match m, s.hottest loc with
    | some a, some t => if a.1 < t - throttleLimit loc then some (t - throttleLimit loc, loc) else some a
    | none, some t => some (t - throttleLimit loc, loc)
    | m, none => m) none
  match best with
  | some (t, loc) =>
    (s.setF Reg.THM_STATUS Fld.THM_STATUS_HOTTEST (twosN 12 t)).setF Reg.THM_STATUS Fld.THM_STATUS_SOURCE loc
  | none => s

/-! ### Throttles (R404) -/

/-- The compute stacks that a location's throttle acts on: a stack itself; those whose home field it is; for F4 to
F7 those of the fields adjacent across a seam. -/
def heatStacks (loc : Nat) : List Nat :=
  if loc < 8 then [loc]
  else if loc < 32 then []
  else if loc = 36 then [0, 4] else if loc = 37 then [1, 5] else if loc = 38 then [2, 6]
  else if loc = 39 then [3, 7]
  else (List.range 8).filter fun k => decide (homeField k = loc - 32)

/-- The cluster regions that a location's throttle acts on. -/
def heatRegions (loc : Nat) : List Nat := (heatStacks loc).flatMap clusterRegions

def State.heatAt (s : State) (loc : Nat) : HeatSt := SMap.get HeatSt.idle s.heat loc
def State.setHeat (s : State) (loc : Nat) (x : HeatSt) : State :=
  { s with heat := SMap.set HeatSt.idle s.heat loc x }

/-- The entries held down on a stack by heat: the most that any location asks. -/
def State.heatOn (s : State) (k : Nat) : Nat :=
  (s.heat.filter fun kv => decide (k ∈ heatStacks kv.1)).foldl (fun m kv => max m kv.2.down) 0

/-- The stacks of a location run with the throttles as they now are. -/
def State.heatApply (s : State) (loc ns : Nat) : State :=
  (heatStacks loc).foldl (fun (s : State) k =>
    let n := s.heatOn k
    (clusterRegions k).foldl (fun (s : State) r =>
      if s.regionHere r = false then s
      else (s.setRegion r { s.region r with heatDown := n }).throttle r ns) s) s

/-- THERMAL_THROTTLE (R404), counted in THM_THROTTLE_CNT. -/
def State.saidThrottle (s : State) (site : Nat) (args : List Nat) : State :=
  (s.bump Reg.THM_THROTTLE_CNT Fld.THM_THROTTLE_CNT_COUNT 1).raise site 0x0B05 args

/-- A location's throttle is judged (R404): one entry down at once, one more each 1 ms while above the limit or
while a pair is lost, where a region it acts on is not yet at its lowest entry; one entry back each 10 ms below the
release value. -/
def State.judgeHeat (s : State) (loc ns : Nat) : State :=
  let x := s.heatAt loc
  let lost := s.pairLost.any fun p => decide (p / 128 = loc)
  match s.hottest loc with
  | none => s
  | some t =>
    if throttleLimit loc < t ∨ lost = true then
      if s.anyAbove (heatRegions loc) = true ∧ due x.stepAt 1000000 s.vt = true then
        ((s.setHeat loc { x with down := x.down + 1, stepAt := some s.vt }).heatApply loc ns).saidThrottle loc [loc]
      else s
    else
      let s := s.setHeat loc { x with stepAt := none }
      if 0 < x.down ∧ t < throttleLimit loc - 12 ∧ x.freeAt + 10000000 ≤ s.vt then
        (s.setHeat loc { down := x.down - 1, stepAt := none, freeAt := s.vt }).heatApply loc 0
      else s

/-! ### Trips (R405) -/

/-- Is a location stopped by a trip? -/
def State.isTripped (s : State) (loc : Nat) : Bool := s.tripped.any fun t => decide (t.loc = loc)

/-- The clock of every region of a site stops, and its gateway falls silent. -/
def State.siteStops (s : State) (i : Nat) : State :=
  ((siteRegions i).foldl (fun (s : State) r => s.stopRegion r) s).silence i

/-- What a trip of a location does (R405): a stack stops and falls silent; another die stops and is fenced, an HBM3E
stack entering self-refresh; a field stops every die on it, its lasers go off and it enters reset. -/
def State.tripActs (s : State) (loc : Nat) : State :=
  if loc < 8 then s.siteStops loc
  else if loc < 32 then
    let s := (s.siteStops loc).fenceAll loc
    if siteKind loc = .bridge then s.setF (Reg.MEM_HBM_STATUS loc) Fld.MEM_HBM_STATUS_STATE 3 else s
  else
    (homeSites (loc - 32)).foldl (fun (s : State) i => s.siteStops i) (s.resetField (loc - 32))

/-- A trip is reported and counted; the third of a part within 1 h leaves it fenced and retires it (R405, R427). -/
def State.countTrip (s : State) (part site : Nat) (args : List Nat) : State × Bool :=
  let s := (s.bump Reg.THM_TRIP_CNT Fld.THM_TRIP_CNT_COUNT 1).raise site 0x0B06 args
  let log := s.vt :: (SMap.get [] s.trips part).filter fun t => decide (s.vt ≤ t + 3600000000000)
  ({ s with trips := SMap.set [] s.trips part log }, decide (3 ≤ log.length))

/-- A location trips (R405). -/
def State.trip (s : State) (loc : Nat) (hbm : Bool) : State :=
  if s.isTripped loc then s else
  let (s, third) := s.countTrip loc loc [loc]
  let s := { s with tripped := s.tripped ++ [({ loc := loc, hbm := hbm, cool := none } : TripSt)] }
  let s := s.tripActs loc
  if third then
    (if loc < 32 then [loc] else homeSites (loc - 32)).foldl (fun (s : State) i => s.retireSite i) s
  else s

/-- A comb laser trips (R405): it goes off, and C4 replaces a base comb at once; the links of an external comb are
redirected (R234). -/
def State.tripComb (s : State) (i c : Nat) : State :=
  if s.combState i c ≠ 0 ∧ s.combState i c ≠ 2 then s else
  let (s, _) := s.countTrip (64 + 8 * i + c) i [i, c]
  if c < 5 then s.combFails i c
  else s.extCombFails i c

/-- The temperature by which a tripped part is judged, and its trip limit, in 0.25 °C. -/
def State.tripHeat (s : State) (t : TripSt) : Option Int × Int :=
  if t.hbm then
    (some (4 * sintN 8 (s.getF (Reg.MEM_HBM_STATUS t.loc) Fld.MEM_HBM_STATUS_TEMP)), 4 * Config.hbmMax t.loc)
  else (s.hottest t.loc, tripLimit t.loc)

/-- A location's trip is judged after a sample (R405): it trips at its limit; a tripped part notes since when it has
been at least 20 °C below trip. -/
def State.judgeTrip (s : State) (loc : Nat) (hbm : Bool) : State :=
  if s.isTripped loc then
    { s with tripped := s.tripped.map fun t =>
        if t.loc ≠ loc then t else
        match s.tripHeat t with
        | (some v, limit) => { t with cool := if v ≤ limit - 80 then some (t.cool.getD s.vt) else none }
        | (none, _) => t }
  else
    match s.tripHeat ({ loc := loc, hbm := hbm, cool := none } : TripSt) with
    | (some v, limit) => if limit ≤ v then s.trip loc hbm else s
    | (none, _) => s

/-! ### Samples (R402 to R405) -/

/-- A sensor's reading is stored; a bracketed sensor holds its last (R389). -/
def State.storeReading (s : State) (loc i : Nat) (r : Option Int) : State :=
  if s.sensorOut loc i then s else
  let a := sensorReg loc i
  match validReading r with
  | some t => (s.setF a Fld.THM_SENSOR_VALID 1).setF a Fld.THM_SENSOR_TEMP (twosN 12 t)
  | none => s.setF a Fld.THM_SENSOR_VALID 0

/-- Disagreement and loss of a pair (R402), after its readings are stored. -/
def State.judgePair (s : State) (loc k : Nat) : State :=
  let key := heatPair loc k
  let a := s.reading loc (2 * k)
  let b := s.reading loc (2 * k + 1)
  let apart := match a, b with
    | some x, some y => decide (24 < x - y) || decide (24 < y - x)
    | _, _ => false
  let n := if apart then min 101 (SMap.get 0 s.pairOff key + 1) else 0
  let s := { s with pairOff := SMap.set 0 s.pairOff key n }
  let s := if n = 100 then s.raise loc 0x0B07 [loc, k] else s
  if a.isNone && b.isNone then
    if key ∈ s.pairLost then s else { s with pairLost := s.pairLost ++ [key] }.raise loc 0x0B08 [loc, k]
  else { s with pairLost := s.pairLost.filter fun p => decide (p ≠ key) }

/-- An HBM3E stack's temperature in °C (R404): it shows in MEM_HBM_STATUS, and the bridge halves its issue rate
from 3 °C below the vendor's maximum until more than 6 °C below it. -/
def State.hbmHeat (s : State) (b : Nat) (t : Int) : State :=
  let a := Reg.MEM_HBM_STATUS b
  let s := s.setF a Fld.MEM_HBM_STATUS_TEMP (twosN 8 t)
  let s := s.setF a Fld.MEM_HBM_STATUS_REFRESH_2X (bit (Config.refresh2x t))
  let s := if Config.hbmMax b - 3 ≤ t ∧ b ∉ s.hbmSlow then
      { s with hbmSlow := s.hbmSlow ++ [b] }.saidThrottle b [b]
    else if t < Config.hbmMax b - 6 then { s with hbmSlow := s.hbmSlow.filter fun i => decide (i ≠ b) }
    else s
  s.judgeTrip b true

/-- Is only one reading of a pair valid? It is then the pair's value, and the partner of the other is drawn. -/
def State.oneValid (s : State) (loc k : Nat) : Option Bool :=
  let a := s.sensorValid loc (2 * k)
  if a = s.sensorValid loc (2 * k + 1) then none else some a

/-- A sensor whose readings cease to be valid leaves its pair to its partner, the pair's last spare (R402, R420);
`before` is the state before its readings are stored. -/
def State.sensorSpared (s before : State) (loc k : Nat) : State :=
  if (s.oneValid loc k).isSome ∧ s.oneValid loc k ≠ before.oneValid loc k then s.granaryEmpty loc 14 loc k else s

/-- A pair's readings are stored and judged (R402). -/
def State.samplePair (s : State) (loc k : Nat) (a b : Option Int) : State :=
  (((({ s with pairAt := SMap.set 0 s.pairAt (heatPair loc k) (s.vt + 1) }.storeReading loc (2 * k) a).storeReading
    loc (2 * k + 1) b).sensorSpared s loc k).judgePair loc k)

/-- THERMAL_SAMPLE (R402 to R405): a pair is sampled at 1 kHz, or 20 kHz, and judged; or an HBM3E stack's or a
comb's temperature is judged. `stop` is how long a throttle stops a region. -/
def execThermalSample (read : ThermalRead) (stop : Fin 251) (s : State) : Out :=
  if s.power.on = false then .next s else
  match read with
  | .pair loc k a b =>
    let key := heatPair loc k
    let gap := if s.samplesFast loc then 50000 else 1000000
    if sensorCount loc ≤ 2 * k.val ∨ (SMap.get 0 s.pairAt key ≠ 0 ∧ s.vt + 1 < SMap.get 0 s.pairAt key + gap) then
      .next s
    else
      let s := (s.samplePair loc k a b).rate loc
      let s := s.judgeTrip loc false
      .next ((if s.isTripped loc then s else s.judgeHeat loc stop).showHottest)
  | .hbm b t => .next (s.hbmHeat (bridgeSite b) t)
  | .comb site c t => .next (if 340 ≤ t then s.tripComb site c else s)

/-- TRIP_RELEASE (R405): a tripped part whose hottest pair has been at least 20 °C below trip for 1 s gets the reset
of R339, or its field is released (R342). A retired part stays fenced. -/
def execTripRelease (part : Fin 44) (s : State) : Out :=
  let loc := part.val
  match s.tripped.find? fun t => decide (t.loc = loc) with
  | none => .next s
  | some t =>
    let ready := match t.cool with
      | some c => decide (c + 1000000000 ≤ s.vt)
      | none => false
    let gone := if loc < 32 then s.siteRetired loc else (homeSites (loc - 32)).any s.siteRetired
    if ready = false ∨ gone = true then .next s else
    let s := { s with tripped := s.tripped.filter fun t => decide (t.loc ≠ loc) }
    .next (if loc < 32 then s.resetSite loc 1 else s.releaseField (loc - 32))

/-! ### Safelight (R406 to R408) -/

/-- SAFELIGHT (R406, R414): a request is stored until the domain holds. -/
def execSafelight (r : Requester) (s : State) : Out :=
  if s.trusted r = false ∨ s.asleep then .next s
  else .next { s with power := { s.power with want := true } }

/-- Is a time at the boundary of a period of village time, as a hold counts them (R152)? -/
def State.atPeriod (s : State) : Bool :=
  decide (((s.vt : Int) - (s.bellAt (treePort s.rs)).t0) % (periodNs s.rs : Nat) = 0)

/-- Is every outstanding transaction answered or timed out? -/
def State.quiet (s : State) : Bool :=
  decide (s.xfers = []) && decide (s.jobs = []) && s.gws.all fun kv => decide (kv.2.tags = []) && decide (kv.2.tagWait = [])

/-- Every bracket is abandoned: old coefficients stay (R390, R406 step 2). -/
def State.dropBrackets (s : State) : State :=
  let bs := s.brackets
  let s := { s with brackets := [] }
  let s := s.sensOut.foldl (fun (s : State) e => s.sensorStale e.1 e.2.1 false) s
  let s := { s with sensOut := [] }
  bs.foldl (fun (s : State) b => s.bracketShown b 0) s

/-- What safelight does not keep (R407): core stores, cluster memory, accumulators, cache lines, and what the
gateways hold beside their epochs and tables. -/
def State.sleepLoses (s : State) : State :=
  let s := (List.range 8).foldl (fun (s : State) k => (s.clearStores k).cacheDrop k fun _ => true) s
  let s := ((List.range 12).map (· + 8)).foldl (fun (s : State) b => s.zeroMem b accStoreBridge accStoreSize) s
  let s := ((List.range 8).map (· + 20)).foldl (fun (s : State) e => s.zeroMem e 0 accStoreSize) s
  let s := (List.range 32).foldl (fun (s : State) i =>
    s.setGw i { s.gw i with silent := true, issueStop := true, waiting := [], streams := [], creditUsed := []
                            freed := [], freedAt := [], stallSaid := [], replicas := [], replHeld := [] }) s
  { s with cores := [], runs := [], redSteps := [], redBytes := [] }

/-- A serving link's peer is told OUT with SLOT 0xFF before safelight (R408). -/
def State.parkLink (s : State) (x : Nat) : State :=
  if s.linkState x = 2 then
    (s.setLink x { s.linkAt x with sendsOut := true, parked := true }).sendCode (linkSite x) (linkHop x) 0 none
  else s

/-- No ring is lit, and every lock loop has stopped with its code stored (R390). -/
def State.lightsOut (s : State) : State :=
  { s with
    lit := []
    rcal := (s.rcal.map fun kv => (kv.1, kv.2.stopped)).filter fun kv => decide (kv.2 ≠ RingCal.idle) }

/-- The request for safelight is met, and its entry has begun (R406). -/
def State.sleepBegins (s : State) : State :=
  { s with power := { s.power with want := false, enterAt := some s.vt, wakeNext := false } }

/-- SAFELIGHT_ENTRY (R406): at a period boundary of a hold with every transaction done, the module begins to enter
safelight: brackets end, serving links are told, the HBM3E stacks refresh themselves, and the host port trains at
400GBASE-R. -/
def execSafelightEntry (s : State) : Out :=
  if s.power.want = false ∨ s.pwrState ≠ 1 ∨ s.domainHolds = false ∨ s.atPeriod = false ∨ s.quiet = false then
    .next s
  else
    let s := s.dropBrackets
    let s := (List.range 68).foldl (fun (s : State) x => s.parkLink x) s
    let s := ((List.range 12).map (· + 8)).foldl (fun (s : State) b =>
      if s.getF (Reg.MEM_HBM_STATUS b) Fld.MEM_HBM_STATUS_STATE = 2 then
        s.setF (Reg.MEM_HBM_STATUS b) Fld.MEM_HBM_STATUS_STATE 3 else s) s
    let s := (s.setPwrState 2).sleepBegins
    .next (if s.getF Reg.HOST_PORT_STATUS Fld.HOST_PORT_STATUS_STATE = 0 then s else s.trainPort false)

/-- The rails drop, which ends the entry into safelight (R406 step 6, R407). -/
def State.railsDrop (s : State) : State :=
  let s := s.setPwrState 3
  let s := (List.range 368).foldl (fun (s : State) r =>
    if (s.region r).stopped ∨ s.regionHere r = false then s else s.runAt r 0 0) s
  let s := s.setF Reg.PWR_STATUS Fld.PWR_STATUS_PHASES 0
  s.sleepLoses.lightsOut

/-! ### Wake (R409) -/

/-- A wake is triggered in safelight; during the entry it waits until the entry has ended (R413); elsewhere it is
ignored (R409, R477). -/
def State.wake (s : State) : State :=
  if s.pwrState = 3 then { s.setPwrState 4 with power := { s.power with wakeAt := s.vt } }
  else if s.pwrState = 2 then { s with power := { s.power with wakeNext := true } }
  else s

/-- The entry into safelight ends 10 ms after its boundary, the latest moment R406 allows (log 20); a wake that waited
for it starts then (R413). -/
def State.sleepTick (s : State) : State :=
  match s.power.enterAt with
  | none => s
  | some t =>
    if s.vt < t + 10000000 then s else
    let woken := s.power.wakeNext
    let s := { s with power := { s.power with enterAt := none, wakeNext := false } }.railsDrop
    if woken then s.wake else s

/-- WAKE_N (R409, R477). -/
def execWakeN (s : State) : Out := .next s.wake

/-- PWR_WAKE (R409, R414). -/
def execPwrWake (r : Requester) (s : State) : Out := .next (if s.trusted r then s.wake else s)

/-- Is a transmit association installed (R300, R409)? -/
def State.txSecured (s : State) : Bool := s.sas.any fun kv => decide (2 ^ 31 ≤ kv.1)

/-- WAKE_FRAME (R409): a frame whose first 8 payload bytes equal PWR_WAKE_CODE; 0 disables wake frames. While a
transmit association is installed it must pass MACsec. -/
def execWakeFrame (code : BitVec 64) (macsec : Bool) (s : State) : Out :=
  if code = 0 ∨ code ≠ s.reg Reg.PWR_WAKE_CODE ∨ (s.txSecured && !macsec) = true then .next s else .next s.wake

/-- A site that has not returned at the end of a wake is left out (R331, R409). -/
def State.leaveOut (s : State) (i : Nat) : State :=
  (s.fenceAll i).setF Reg.CFG_START_STATUS Fld.CFG_START_STATUS_DEGRADED 1

/-- Does a site return at the end of a wake: `out` are those that have not? -/
def State.wakesUp (s : State) (out : List Nat) (i : Nat) : Bool :=
  s.live i && !(decide (i ∈ out)) && !(s.isTripped i) && !(s.isTripped (32 + homeField i))

/-- A site wakes: its gateway, its clocks and its HBM3E stack. -/
def State.siteWakes (s : State) (i : Nat) : State :=
  let s := s.setGw i { s.gw i with silent := false, issueStop := false }
  let s := (siteRegions i).foldl (fun (s : State) r => s.runDemand r 0) s
  if siteKind i = .bridge ∧ s.getF (Reg.MEM_HBM_STATUS i) Fld.MEM_HBM_STATUS_STATE = 3 then
    s.setF (Reg.MEM_HBM_STATUS i) Fld.MEM_HBM_STATUS_STATE 2 else s

/-- The pairs of the sites that are lit come up, without the rings that have not locked again (R380, R409). -/
def State.pairsWake (s : State) (up : List Nat) : State :=
  up.foldl (fun (s : State) i => s.ringsLate i) (s.pairsUp up)

/-- A parked link serves again where its peer is awake, and stays out where not (R408, R409). -/
def State.linkWakes (s : State) (x : Nat) (awake : Bool) : State :=
  let l := s.linkAt x
  if s.linkState x = 2 ∧ l.parked = true then
    if awake then
      (s.setLink x { l with parked := false, sendsOut := false, servedFrom := s.vt }).freshHop (linkSite x) (linkHop x)
    else (s.setLinkState x 3).setLink x { l with outAt := some s.vt }
  else s

/-- The host port trains again at the end of a wake, where it has trained before (R296, R409). -/
def State.portWakes (s : State) (ok800 : Bool) : State :=
  if s.getF Reg.HOST_PORT_STATUS Fld.HOST_PORT_STATUS_STATE = 0 then s else (s.trainPort ok800).portTick

/-- WAKE_COMPLETE (R408, R409, R443): at t₀ + 40 ms the module is awake and its domain holds for RESUME; `lost` are
sites that have not returned, `awake` the links whose peers are awake; the others stay parked. -/
def execWakeComplete (lost : List Site) (awake : List (Fin 68)) (ok800 : Bool) (s : State) : Out :=
  if s.pwrState ≠ 4 ∨ s.vt < s.power.wakeAt + 40000000 then .next s else
  let out := lost.map (·.val)
  let up := (List.range 32).filter fun i => s.wakesUp out i
  let gone := (List.range 32).filter fun i => decide (i ∈ out) && s.live i
  let s := s.setPwrState 1
  let s := ({ s with lms := s.lms.restart, lit := up } : State).swapCombs
  let s := s.portWakes ok800
  let s := up.foldl (fun (s : State) i => s.siteWakes i) s
  let s := gone.foldl (fun (s : State) i => s.leaveOut i) s
  let s := ((List.range 368).filter fun r => (regionSite r).isNone).foldl (fun (s : State) r => s.runDemand r 0) s
  let s := s.pairsWake up
  let s := (List.range 68).foldl (fun (s : State) x => s.linkWakes x (awake.any fun y => decide (y.val = x))) s
  .next (s.setF Reg.PWR_STATUS Fld.PWR_STATUS_PHASES (max 4 (phasesFor (s.forecast fun _ => 0))))

/-! ### Fixing and what outlives a loss of supply (R410 to R412, R430) -/

/-- Registers that MRAM holds (R391, R433; log 21): ring codes, expectations, feed-forward and equaliser
coefficients, comb bias, sensor offsets, GRN_MAP_SEQ; and the epoch and seed of the village clock, which a later
cold start reads (R370). -/
def regKept (a : Nat) : Bool :=
  decide (a = Reg.GRN_MAP_SEQ) || decide (a = Reg.CLK_VC_CTRL) || decide (a = Reg.CLK_VC_EPOCH) ||
  (decide (0x2000100000 ≤ a) && decide (a % 0x1000000 < 0x101000) && decide (0x100000 ≤ a % 0x1000000)) ||
  (decide (0x1000000000 ≤ a) && decide (a < 0x1200000000) &&
    (let o := a % 0x10000000
     (decide (0x9000000 ≤ o) && decide (o < 0x9030000) && decide (o % 0x20 ≠ 0x10)) ||
     (decide (0x9030000 ≤ o) && decide (o < 0x9030100) && decide (o % 8 = 0)) ||
     (decide (0x9031000 ≤ o) && decide (o < 0x9032000))))

/-- The module without supply or in reset: everything but what MRAM, OTP and the outside world hold is as before
VIN was applied (R333, R430, R444, R448). -/
def State.powerOff (s : State) : State :=
  let s := s.sensOut.foldl (fun (s : State) e => s.sensorStale e.1 e.2.1 false) s
  let t := { State.reset with
    free := s.free, pending := s.pending, out := s.out
    regs := s.regs.filter fun kv => regKept kv.1
    grn := s.grn, wear := s.wear, mapLag := s.mapLag, bondHalf := s.bondHalf
    rcal := (s.rcal.map fun kv => (kv.1, { RingCal.idle with hb := kv.2.hb, te := kv.2.te })).filter fun kv =>
      decide (kv.2 ≠ RingCal.idle)
    led := s.led, opkey := s.opkey, opkeySeq := s.opkeySeq, lms := s.lms, fixed := s.fixed, firmware := s.firmware }
  if s.mapLag = 0 then t else t.setF Reg.GRN_STATUS Fld.GRN_STATUS_PENDING 1

/-- Fixing (R411, R412), in reset too (R477): the record is written to the older slot, with the event log's newest 1,024 records, and the
module falls silent. The map and the counters that it carries are in State itself. -/
def State.fixing (s : State) (reason : Nat) : State :=
  if s.power.on = false ∧ s.power.inReset = false then s else
  let rec_ : FixRec := ⟨(s.fixed.map (·.seq)).headD 0 + 1, reason, s.vt, s.getF Reg.BELL_NOW Fld.BELL_NOW_NUMBER,
    s.getF Reg.BELL_COMMITTED Fld.BELL_COMMITTED_NUMBER, s.log.drop (s.log.length - 1024)⟩
  { s with fixed := (rec_ :: s.fixed).take 2 }.powerOff

/-- FIXING (R394, R411): VIN below 40 V for more than 2 µs, or above 60 V for 10 µs (`high`). -/
def execFixing (high : Bool) (s : State) : Out := .next (s.fixing (if high then 3 else 1))

/-- PWR_FAIL_N (R411, R477). -/
def execPwrFailN (s : State) : Out := .next (s.fixing 2)

end Sys2Proof.Machine
end

