-- ==== Sys2Proof/Machine/Roce.lean ====
section
/-!
DEFINITION. The host port at work: ring entries that the engine runs (R289, R290, R299), frames in and out with
tithe classes 0 and 1 (R297), inbound RoCEv2 (R298), MACsec keys (R300), confidential contexts (R302, R303), and
the row TITHE_ADMIT, which also admits frames (R156).
-/

namespace Sys2Proof.Machine

open Sys2Proof

/-! ### Frames out (R297) -/

/-- A message that class 1 has admitted is sent, unless the peer holds its priority paused (R296): the entry behind it is
done, with the transmit timestamp of a raw frame (R301). -/
def State.sentOut (s : State) (e : Egress) : State :=
  if s.prioPaused e.prio then { s with heldOut := s.heldOut ++ [e] } else
  let s := s.frameOut e.what
  match e.entry with
  | none => s
  | some (ring, idx, len, stamp) =>
    match ringRec s.rs ring with
    | none => s
    | some r => s.finishOp r idx (0, 0, len, if stamp then s.vt else 0)

/-- Give a message to class 1 of the port's site: it goes once it is admitted (R297, R156). -/
def State.sendOut (s : State) (cost : Nat) (e : Egress) : State :=
  let id := s.nextId
  let s := { s with nextId := id + 1 }.titheAsk portSite 1 cost id
  let t := s.tithe portSite
  if id ∈ t.admitted then
    (s.setTithe portSite { t with admitted := t.admitted.filter fun i => decide (i ≠ id) }).sentOut e
  else { s with egress := s.egress ++ [(id, e)] }

/-- An answer of the engine to the peer. -/
def State.answerOut (s : State) (f : InFrame) (m : Roce) : State := s.sendOut f.reply ⟨.roce m, none, f.prio⟩

/-- PFC_FRAME (R296, R305): the peer pauses a priority, or releases it and what waited on it goes. -/
def execPfcFrame (prio : Fin 8) (pause : Bool) (s : State) : Out :=
  let s := s.setF Reg.HOST_PORT_STATUS Fld.HOST_PORT_STATUS_PAUSED
    (setBit (s.getF Reg.HOST_PORT_STATUS Fld.HOST_PORT_STATUS_PAUSED) prio pause)
  let go := s.heldOut.filter fun e => !(s.prioPaused e.prio)
  let s := { s with heldOut := s.heldOut.filter fun e => s.prioPaused e.prio }
  .next (go.foldl (fun (s : State) e => s.sentOut e) s)

/-! ### Confidential payloads (R302, R303) -/

def State.confAt (s : State) (ctx : Nat) : ConfSt := SMap.get ConfSt.idle s.conf ctx
def State.setConf (s : State) (ctx : Nat) (c : ConfSt) : State :=
  { s with conf := SMap.set ConfSt.idle s.conf ctx c }

/-- The context of a queue pair: that of its ring; a queue pair bound to no ring belongs to CTX0 (R308). -/
def State.qpCtx (s : State) (qpn : Nat) : Nat :=
  match s.qpRing qpn true, s.qpRing qpn false with
  | some r, _ => ringCtx r
  | none, some r => ringCtx r
  | none, none => 0

/-- The form of R303: counter, ciphertext and tag; IV is the salt followed by the counter. -/
def sealPayload (key : BitVec 256) (salt : BitVec 32) (ctr : Nat) (aad pay : List Byte) : List Byte :=
  leBytes 8 ctr ++ Config.encrypt key (salt.toNat * 2 ^ 64 + ctr) aad pay

/-- A payload of a context as it leaves, one packet (R303): in clear, or under the next counter. -/
def State.sealOut (s : State) (ctx : Nat) (aad pay : List Byte) : State × List Byte :=
  let c := s.confAt ctx
  if c.on = false then (s, pay)
  else (s.setConf ctx { c with ctr := c.ctr + 1 }, sealPayload c.kOut c.sOut c.ctr aad pay)

/-- The packets of a message under a path MTU, each sealed as R303 states. -/
def State.sealAll (s : State) (ctx mtu : Nat) : List (List Byte) → List Byte → Nat → State × List Byte
  | _, _, 0 => (s, [])
  | hdrs, pay, n + 1 =>
    let (s, bs) := s.sealOut ctx (hdrs.headD []) (pay.take mtu)
    let (s, rest) := s.sealAll ctx mtu hdrs.tail (pay.drop mtu) n
    (s, bs ++ rest)

/-- Bytes of a path MTU (R298). -/
def mtuBytes (mtu : Fin 3) : Nat := 1024 * 2 ^ mtu.val

/-- A message's payload as it leaves, packet by packet under the path MTU. -/
def State.sealMessage (s : State) (ctx mtu : Nat) (hdrs : List (List Byte)) (pay : List Byte) : State × List Byte :=
  s.sealAll ctx mtu hdrs pay (max 1 ((pay.length + mtu - 1) / mtu))

/-- A packet's payload as it arrives (R303): none where the packet is dropped, with CONF_AUTH_FAIL. A context that
has keys and is not confidential yet takes what does not authenticate as it is (log 23). -/
def State.openIn (s : State) (qpn : Nat) (aad pay : List Byte) : State × Option (List Byte) :=
  let ctx := s.qpCtx qpn
  let c := s.confAt ctx
  if c.keyed = false then (s, some pay) else
  let ctr := leNat (pay.take 8)
  let last := SMap.get 0 c.last qpn
  let good := if pay.length < 24 ∨ ctr ≤ last then none
    else Config.decrypt c.kIn (c.sIn.toNat * 2 ^ 64 + ctr) aad (pay.drop 8)
  match good with
  | some bs => (s.setConf ctx { c with last := SMap.set 0 c.last qpn ctr }, some bs)
  | none => if c.on then (s.raise portSite 0x0804 [qpn % 2 ^ 16, qpn / 2 ^ 16], none) else (s, some pay)

/-- A SEND of a context completes: once its bounce windows are registered the context becomes confidential (R302
steps 5 and 6). -/
def State.sendDone (s : State) (ctx : Nat) : State :=
  let c := s.confAt ctx
  if c.keyed ∧ c.on = false ∧ c.bounce ≠ [] then s.setConf ctx { c with on := true } else s

/-! ### Entries (R289, R290, R294) -/

/-- Does an operation send on the port (R290)? -/
def opSends (op : Nat) : Bool := decide (op ∈ [0x10, 0x11, 0x18, 0x1A, 0x29])

/-- The record of a declared ring whose next entry the engine may take: the port is up if the entry sends, an entry is
there, nothing waits for a completion ring, and a FENCE waits for every earlier entry (R289, R294). -/
def State.nextEntry (s : State) (ring : Nat) : Option (Rec × RingOp × List Byte) :=
  match ringRec s.rs ring with
  | none => none
  | some r =>
    let x := s.ring ring
    let bs := s.entryBytes r x.next
    if ringKind r < 2 ∨ (opSends (leNat (bs.take 1)) = true ∧ s.portUp = false) ∨ x.ops.length = x.fill ∨ x.waitsRoom = true ∨
        (leNat ((bs.drop 1).take 1) / 2 % 2 = 1 ∧ x.ops ≠ []) then none
    else some (r, ringOpOf x.next bs, bs)

/-- Are the bytes of an own-package range in windows of a context with a right (R289)? -/
def State.opRange (s : State) (ctx g n : Nat) (rd wr : Bool) : Bool :=
  decide (n = 0) || (decide (gPkg g = s.pkg) && s.rangeFits (gSite g) ctx (gOff g) n false rd wr)

/-- Is an operation valid on a kind of ring (R290)? -/
def opOnRing (kind op : Nat) : Bool :=
  if kind = 2 then decide (op ∈ [0x00, 0x10, 0x11, 0x18, 0x1A])
  else if kind = 3 then decide (op ∈ [0x00, 0x28, 0x29, 0x40]) else false

/-- Is an entry malformed (R289, R290)? -/
def State.entryBad (s : State) (r : Rec) (o : RingOp) (bs : List Byte) : Bool :=
  let ctx := ringCtx r
  !(opOnRing (ringKind r) o.op) || decide (4 ≤ leNat ((bs.drop 1).take 1)) ||
  (decide (o.op = 0x10) && decide (32 < o.len)) ||
  (decide (o.op ∈ [0x11, 0x18, 0x1A]) &&
    (decide (2 ^ 24 < o.len) || decide (o.addr % 32 ≠ 0) || decide (o.len % 32 ≠ 0))) ||
  (decide (o.op = 0x29) && decide (9216 < o.len)) ||
  (decide (o.op ∈ [0x11, 0x18, 0x29]) && !(s.opRange ctx o.addr o.len true false)) ||
  (decide (o.op = 0x1A) && !(s.opRange ctx o.addr o.len false true)) ||
  (decide (o.op = 0x40) && (decide (o.imm / 4 % 64 ≠ 0) || decide (o.imm / 2 ^ 13 % 2 ^ 18 ≠ 0) ||
    (decide (o.imm / 2 ^ 31 = 1) && decide (o.imm / 256 % 32 ≠ 0))))

/-- An entry whose own read fails ends with status 5 and no record, since its flags are not known (R294; log 11). -/
def State.entryLost (s : State) (r : Rec) (o : RingOp) (st : Nat) : State :=
  (s.pushOp r { o with compl := false }).finishOp r o.idx (5, st, 0, 0)

/-- The engine reads the next entry of a ring and takes it if it is an operation: it runs, unless it is malformed (status
1) or its queue pair is in error (status 4). `flaws` is what the read of the entry meets. -/
def State.takeEntry (s : State) (ring op : Nat) (flaws : Flaws) (run : State → Rec → RingOp → List Byte → State) :
    State :=
  match s.nextEntry ring with
  | none => s
  | some (r, o, bs) =>
    match s.fetchEntry r o.idx flaws with
    | (s, some st) => s.entryLost r o st
    | (t, none) =>
    if o.op ≠ op then s else
    let s := t.pushOp r o
    if s.entryBad r o bs then s.finishOp r o.idx (1, 0, 0, 0)
    else if (match ringQpn r with | some q => decide (q ∈ s.qpErr) | none => false) then
      s.finishOp r o.idx (4, 0, 0, 0)
    else run s r o bs

/-- NOP (R290): consumed; it does nothing. So is a RAW_RX that the engine itself wrote. An entry whose OP is reserved or
invalid on its ring performs nothing either and completes with MALFORMED: this row takes it too. -/
def execRingNop (entry : EntryAt) (s : State) : Out :=
  match s.nextEntry entry.ring with
  | none => .next s
  | some (r, o, bs) =>
    match s.fetchEntry r o.idx entry.flaws with
    | (s, some st) => .next (s.entryLost r o st)
    | (t, none) =>
    if o.op ≠ 0 ∧ o.op ≠ 0x28 ∧ opOnRing (ringKind r) o.op = true then .next s
    else .next ((t.pushOp r o).finishOp r o.idx (if s.entryBad r o bs then 1 else 0, 0, 0, 0))

/-- Put an entry that the engine has started. -/
def State.setOp (s : State) (r : Rec) (o : RingOp) : State :=
  let x := s.ring (r.u16 8)
  s.setRing (r.u16 8) { x with ops := x.ops.map fun p => if p.idx = o.idx then o else p }

/-- QPN of an outbound ring. -/
def ringQ (r : Rec) : Nat := (ringQpn r).getD 0

/-- The message of an outbound entry with its payload as it leaves (R290). -/
def opMessage (r : Rec) (o : RingOp) (pay : List Byte) : Roce :=
  if o.op = 0x18 then .write (ringQ r) o.va o.rkey o.imm pay
  else if o.op = 0x1A then .read (ringQ r) o.va o.rkey o.len
  else .send (ringQ r) (if o.op = 0x10 then 0 else o.imm) pay

/-- The message of an outbound entry goes out. Of RC it is kept until the peer acknowledges it (R298); one that is not
acknowledged is done once it is sent. -/
def State.message (s : State) (r : Rec) (o : RingOp) (w : Wire) (plain : List Byte) : State :=
  let (s, pay) := s.sealMessage (ringCtx r) (mtuBytes w.mtu) w.hdrs plain
  let s := if w.rc then s.setOp r { o with kept := plain } else s.sendDone (ringCtx r)
  s.sendOut w.bytes.toNat ⟨.roce (opMessage r o pay), if w.rc then none else some (r.u16 8, o.idx, o.len, false), w.prio⟩

/-- SEND_INLINE (R290). -/
def execSendInline (ring : Fin 32768) (w : Wire) (s : State) : Out :=
  .next (s.takeEntry ring 0x10 w.entry fun s r o bs => s.message r o w ((bs.drop 32).take o.len))

/-- The transfer of an entry of a CTX0 ring is entered in the ledgers (R449) as that of a host core: the lowest that the ring
names as its producer (log 48). -/
def State.entryLedger (s : State) (r : Rec) (o : RingOp) (wr : Bool) : State :=
  s.dmaLedger (ringCtx r) 3 (((List.range 64).find? fun h => decide (ringWho r true / 2 ^ h % 2 = 1)).getD 0) o.addr o.len wr

/-- The bytes that an entry reads from device memory, or its end with status 5 (R294, R299). -/
def State.entryRead (s : State) (r : Rec) (o : RingOp) (flaws : Flaws) (run : State → List Byte → State) : State :=
  match (s.entryLedger r o false).engineRead portIssuer (ringCtx r) o.addr o.len flaws with
  | (s, some st, _) => s.finishOp r o.idx (5, st, 0, 0)
  | (s, none, bs) => run s bs

/-- SEND (R290). -/
def execRingSend (ring : Fin 32768) (w : Wire) (flaws : Flaws) (s : State) : Out :=
  .next (s.takeEntry ring 0x11 w.entry fun s r o _ => s.entryRead r o flaws fun s bs => s.message r o w bs)

/-- Does an entry stay within the bounce windows of a confidential context (R303)? -/
def State.bounceFits (s : State) (ctx : Nat) (o : RingOp) : Bool :=
  let c := s.confAt ctx
  !c.on || c.bounce.any fun b => decide (b.1 ≤ o.va) && decide (o.va + o.len ≤ b.1 + b.2.1) && decide (b.2.2 = o.rkey)

/-- RDMA_WRITE (R290, R303). -/
def execRdmaWrite (ring : Fin 32768) (w : Wire) (flaws : Flaws) (s : State) : Out :=
  .next (s.takeEntry ring 0x18 w.entry fun s r o _ =>
    if s.bounceFits (ringCtx r) o = false then s.finishOp r o.idx (2, 0, 0, 0)
    else s.entryRead r o flaws fun s bs => s.message r o { w with rc := true } bs)

/-- RDMA_READ (R290, R303). -/
def execRdmaRead (ring : Fin 32768) (w : Wire) (s : State) : Out :=
  .next (s.takeEntry ring 0x1A w.entry fun s r o _ =>
    if s.bounceFits (ringCtx r) o = false then s.finishOp r o.idx (2, 0, 0, 0)
    else (s.entryLedger r o true).sendOut w.bytes.toNat ⟨.roce (opMessage r o []), none, w.prio⟩)

/-- RAW_TX (R290, R301): the frame goes out as it is; its completion carries the transmit timestamp. -/
def execRawTx (ring : Fin 32768) (w : Wire) (flaws : Flaws) (s : State) : Out :=
  .next (s.takeEntry ring 0x29 w.entry fun s r o _ => s.entryRead r o flaws fun s bs =>
    s.sendOut w.bytes.toNat ⟨.ether bs s.vt, some (r.u16 8, o.idx, o.len, true), w.prio⟩)

/-- SA_INSTALL (R300): an association takes its key, packet number, SSCI and salt; frames leave under the transmit
association installed last, and HOST_PORT_STATUS.MACSEC shows that there is one (log 15: bytes 28-31 are both IMM and the salt's end). -/
def execSaInstall (entry : EntryAt) (s : State) : Out :=
  .next (s.takeEntry entry.ring 0x40 entry.flaws fun s r o bs =>
    let a : Assoc := {
      key := (bs.drop 32).take 32, pn := leNat ((bs.drop 8).take 8), ssci := leNat ((bs.drop 16).take 4)
      salt := (bs.drop 20).take 12 }
    let out := o.imm / 2 ^ 31
    let s := { s with
      sas := SMap.put (2 ^ 31 * out + 256 * (o.imm / 256 % 32) + o.imm % 4) a s.sas
      txAn := if out = 1 then some (o.imm % 4) else s.txAn }
    let s := if out = 1 then s.setF Reg.HOST_PORT_STATUS Fld.HOST_PORT_STATUS_MACSEC 1 else s
    s.finishOp r o.idx (0, 0, 0, 0))

/-! ### Key agreement (R302, R303, R451) -/

/-- Is a ring the control ring of its context: the first inbound ring of a context that is declared confidential
(R302)? -/
def State.controlRing (s : State) (r : Rec) : Bool :=
  decide (ringKind r = 1) && ctxConfidential s.rs (ringCtx r) &&
  decide ((s.ringRecs.find? fun q => decide (ringKind q = 1) && decide (ringCtx q = ringCtx r)) = some r)

/-- The oldest control entry of a control ring that the engine has not run, if it is an operation with a step (0 for
any) and no earlier entry waits for its record; it leaves the engine's list. -/
def State.takeControl (s : State) (ring op step : Nat) : Option (State × Rec × RingOp) :=
  match ringRec s.rs ring with
  | none => none
  | some r =>
    let x := s.ring ring
    match x.ops with
    | [] => none
    | o :: rest =>
      if ringKind r ≠ 1 ∨ o.fin ≠ none ∨ o.op ≠ op ∨ (step ≠ 0 ∧ o.first ≠ step) then none
      else some (s.setRing ring { x with ops := rest }, r, o)

/-- A control entry ends: reported where it fails, completed where it asks for a record or where it names a key that
KEYX made, once the completion ring has room (R294, R302). -/
def State.endControl (s : State) (r : Rec) (o : RingOp) (fin : Nat × Nat × Nat × Nat) (made : Option (Nat × Nat)) :
    State :=
  let s := if fin.1 = 0 then s else s.raise portSite 0x0802 [r.u16 8, fin.1]
  let x := s.ring (r.u16 8)
  let named := made.getD (0, 0)
  let o := { o with fin := some fin, compl := o.compl || made.isSome, addr := named.1, va := named.2 }
  (s.setRing (r.u16 8) { x with ops := o :: x.ops }).flushControl r (x.ops.length + 1)

/-- A control entry ends with a failure. -/
def State.failControl (s : State) (r : Rec) (o : RingOp) (status : Nat) : State :=
  s.endControl r o (status, 0, 0, 0) none

/-- Is a control entry malformed: not on the control ring of its context, or with reserved FLAGS bits (R289, R290, R302)? -/
def State.controlBad (s : State) (r : Rec) (o : RingOp) : Bool := !(s.controlRing r) || decide (4 ≤ o.flags)

/-- Length of an ML-KEM-1024 encapsulation key and of a ciphertext (R302). -/
def kemLen : Nat := 1568

/-- May the device write a range for a context where the host can see it (R302)? -/
def State.hostSees (s : State) (ctx g n : Nat) : Bool :=
  s.opRange ctx g n true true && inWindows s.rs ctx (gSite g) 2 (gOff g) n

/-- KEYX_REQUEST (R302 steps 1 and 2, R447): a fresh key pair; the encapsulation key and a signed report that binds it
are written at ADDR, one after the other, and a completion names both (log 23). A request without a leaf ready
waits; once all are spent it fails with status 1. So does an entry whose DATA[0] names neither step (log 32). -/
def execKeyxRequest (ring : Fin 32768) (s : State) : Out :=
  match s.takeControl ring 0x48 1 with
  | none =>
    match s.takeControl ring 0x48 0 with
    | none => .next s
    | some (t, r, o) =>
      if o.first = 2 then .next s else .next (t.failControl r o 1)
  | some (t, r, o) =>
    let ctx := ringCtx r
    if s.controlBad r o = true ∨ s.lms.exhausted then .next (t.failControl r o 1)
    else if s.hostSees ctx o.addr (kemLen + reportLen) = false then .next (t.failControl r o 1)
    else if s.lms.ready = false then .next s
    else
      let (n, t) := t.takeFree
      let (m, t) := t.takeFree
      let seed := Config.random n
      let nonce := Config.random m
      let key := fitBytes kemLen (Config.kemPublic seed)
      let body := t.attestBody ctx (leBytes 32 nonce.toNat) (some key)
      match t.sign body with
      | none => .next s
      | some (sig, t) =>
        match t.engineStore portIssuer ctx o.addr (key ++ body ++ sig) with
        | (t, some st) => .next (t.endControl r o (5, st, 0, 0) none)
        | (t, none) =>
          let t := t.setConf ctx { t.confAt ctx with seed := some seed, nonce := nonce }
          .next (t.endControl r o (0, 0, kemLen + reportLen, 0) (some (o.addr, o.addr + kemLen)))

/-- The KEYREF of a context (R313, R451), 32 bytes. -/
def keyRef (rs : List Rec) (ctx : Nat) : List Byte :=
  match contextRec rs ctx with
  | some r => (r.bytes.drop 32).take 32
  | none => leBytes 32 0

/-- KEYX_CIPHERTEXT (R302 steps 3 and 4, R451): the tenant's signature is checked where KEYREF asks for one, the
secret is decapsulated, keys and salts are derived and the decapsulation key is erased. -/
def execKeyxCiphertext (ring : Fin 32768) (flaws : Flaws) (s : State) : Out :=
  match s.takeControl ring 0x48 2 with
  | none => .next s
  | some (t, r, o) =>
    let ctx := ringCtx r
    let c := t.confAt ctx
    let need := keyRef s.rs ctx
    let n := if need = leBytes 32 0 then kemLen else max kemLen o.len
    match c.seed with
    | none => .next (t.failControl r o 1)
    | some seed =>
      if s.controlBad r o then .next (t.failControl r o 1)
      else if s.opRange ctx o.addr n true false = false then .next (t.failControl r o 1)
      else match t.engineRead portIssuer ctx o.addr n flaws with
      | (t, some st, _) => .next (t.endControl r o (5, st, 0, 0) none)
      | (t, none, bs) =>
        let ct := bs.take kemLen
        let sig := bs.drop kemLen
        if need ≠ leBytes 32 0 ∧ (sig = [] ∨ Config.hssVerify need (sha256 ct) sig = false) then
          .next (t.failControl r o 1)
        else
          let info : List Byte := [0x5A, 0x58, 0x20, 0x63, 0x74, 0x78, 0x20, 0x6B, 0x65, 0x79, 0x73] ++ leBytes 1 ctx
          let ks := hkdf72 (leBytes 32 c.nonce.toNat) (leBytes 32 (Config.kemShared seed ct).toNat) info
          let num := fun (o n : Nat) => leNat ((ks.drop o).take n)
          .next ((t.setConf ctx { c with
            seed := none, keyed := true, kOut := BitVec.ofNat 256 (num 0 32), kIn := BitVec.ofNat 256 (num 32 32)
            sOut := BitVec.ofNat 32 (num 64 4), sIn := BitVec.ofNat 32 (num 68 4), ctr := 1, last := [] }).endControl
              r o (0, 0, 0, 0) none)

/-- BOUNCE (R303): a confidential context with keys registers a host window, at most 64. -/
def execBounce (ring : Fin 32768) (s : State) : Out :=
  match s.takeControl ring 0x49 0 with
  | none => .next s
  | some (t, r, o) =>
    let ctx := ringCtx r
    let c := t.confAt ctx
    if s.controlBad r o = true ∨ c.keyed = false then .next (t.failControl r o 1)
    else if 64 ≤ c.bounce.length then .next (t.failControl r o 2)
    else .next ((t.setConf ctx { c with bounce := c.bounce ++ [(o.va, o.len, o.rkey)] }).endControl r o (0, 0, 0, 0) none)

/-! ### Frames in (R297, R298) -/

/-- The device address that an inbound request's rkey opens (R298, R308): a host-visible window of the queue pair's
context, or the image store under CFG_STAGE_RKEY; the virtual address is the device address (log 23). -/
def State.rkeyOpens (s : State) (qpn va rkey n : Nat) (wr : Bool) : Bool :=
  let ctx := s.qpCtx qpn
  let site := gSite va
  let a := gOff va
  let bound := (s.qpRing qpn true).isSome || (s.qpRing qpn false).isSome
  let stage := decide (ctx = 0) && decide (rkey = s.getF Reg.CFG_STAGE_RKEY Fld.CFG_STAGE_RKEY_RKEY) &&
    s.inStore site a n && (bound || wr)
  let window := bound && ((recsOf s.rs segContexts 2).any fun r =>
    decide (r.u8 8 = ctx) && decide (r.u8 9 = site) && decide (r.u8 10 / 4 % 2 = 1) && decide (r.u32 12 = rkey) &&
    decide (r.u8 10 / (if wr then 2 else 1) % 2 = 1) && decide (r.u64 16 ≤ a) &&
    decide (a + n ≤ r.u64 16 + r.u64 24)) && s.inRange site a n
  decide (va < 2 ^ 48) && (stage || window)

/-- A request that the engine turns away ends the queue pair (log 16). -/
def State.nakFatal (s : State) (f : InFrame) (qpn : Nat) (m : Roce) : State := (s.answerOut f m).qpFails qpn

/-- An acknowledgement, of RC only. -/
def State.ackOut (s : State) (f : InFrame) (qpn : Nat) : State := if f.rc then s.answerOut f (.ack qpn) else s

/-- The engine reads an entry written to an inbound ring (R289, R290, R302): NOP and DATA are not its concern; KEYX and
BOUNCE join its list; any other operation, or a reserved FLAGS bit, is malformed and ends in its turn with status 1. -/
def State.noteControl (s : State) (r : Rec) (idx : Nat) (bs : List Byte) : State :=
  let o := ringOpOf idx bs
  if o.op = 0x48 ∨ o.op = 0x49 then s.pushOp r o
  else if o.op ≤ 1 ∧ leNat ((bs.drop 1).take 1) < 4 then s
  else
    let s := (s.raise portSite 0x0802 [r.u16 8, 1]).pushOp r { o with addr := 0, va := 0, fin := some (1, 0, 0, 0) }
    s.flushControl r (s.ring (r.u16 8)).ops.length

/-- An inbound SEND (R298): whole entries go to the inbound ring at PI, or an RNR NAK goes back. -/
def State.recvSend (s : State) (f : InFrame) (qpn : Nat) (hdr pay : List Byte) : State :=
  match s.qpRing qpn true with
  | none => s.nakFatal f qpn (.invalidNak qpn)
  | some r =>
    match s.openIn qpn hdr pay with
    | (s, none) => s
    | (s, some bs) =>
      let n := bs.length / 64
      let x := s.ring (r.u16 8)
      if bs.length % 64 ≠ 0 then s.nakFatal f qpn (.invalidNak qpn)
      else if ringDepth r - 1 < x.fill + n then s.answerOut f (.rnrNak qpn)
      else
        let s := (List.range n).foldl (fun (s : State) i =>
          let e := (bs.drop (64 * i)).take 64
          (s.engineWrite portIssuer (ringCtx r) (ringEntry r (x.pi + i)) e).noteControl r ((x.pi + i) % 2 ^ 32) e) s
        ((s.publish r (x.pi + n) x.ci).sendDone (ringCtx r)).ackOut f qpn

/-- An inbound RDMA WRITE (R298, R308): what the device refuses, a locked slot too, is a remote operational error. -/
def State.recvWrite (s : State) (f : InFrame) (qpn : Nat) (hdr : List Byte) (va rkey : Nat) (pay : List Byte) :
    State :=
  match s.openIn qpn hdr pay with
  | (s, none) => s
  | (s, some bs) =>
    if s.rkeyOpens qpn va rkey bs.length true = false then s.nakFatal f qpn (.accessNak qpn)
    else
      let g := gAddr s.pkg (gSite va) (gOff va)
      match (s.dmaLedger (s.qpCtx qpn) 1 0 g bs.length true).engineStore portIssuer (s.qpCtx qpn) g bs with
      | (s, some _) => s.nakFatal f qpn (.opErrNak qpn)
      | (s, none) => s.ackOut f qpn

/-- An inbound RDMA READ (R298, R299, R303): a byte that fails parity or ECC leaves no data, but a remote operational
error; each packet of the response is sealed under its own header. -/
def State.recvRead (s : State) (f : InFrame) (qpn va rkey len : Nat) (flaws : Flaws) : State :=
  if s.rkeyOpens qpn va rkey len false = false then s.nakFatal f qpn (.accessNak qpn)
  else
    let g := gAddr s.pkg (gSite va) (gOff va)
    match (s.dmaLedger (s.qpCtx qpn) 1 0 g len false).engineRead portIssuer (s.qpCtx qpn) g len flaws with
    | (s, some _, _) => s.nakFatal f qpn (.opErrNak qpn)
    | (s, none, bs) =>
      let (s, pay) := s.sealMessage (s.qpCtx qpn) f.mtu f.hdrs bs
      s.answerOut f (.readResp qpn pay)

/-- A congestion notification halves a queue pair's rate, to 1 Gb/s at least; it has recovered after 55 µs (R298).
Rates are in Mb/s. -/
def State.slowDown (s : State) (qpn : Nat) : State :=
  let full := if s.getF Reg.HOST_PORT_STATUS Fld.HOST_PORT_STATUS_STATE = 3 then 400000 else 800000
  let now := match s.qpRate.find? fun kv => decide (kv.1 = qpn) with
    | some (_, rate, since) => if since + 55000 ≤ s.vt then full else rate
    | none => full
  { s with qpRate := SMap.put qpn (max 1000 (now / 2), s.vt) s.qpRate }

/-- The oldest entry of a queue pair's outbound ring that is not done. -/
def State.oldestOp (s : State) (qpn : Nat) : Option (Rec × RingOp) :=
  match s.qpRing qpn false with
  | none => none
  | some r => ((s.ring (r.u16 8)).ops.find? fun o => o.fin.isNone).map fun o => (r, o)

/-- The payload of a message that is sent again; an RDMA READ request has none. -/
def State.sealAgain (s : State) (f : InFrame) (r : Rec) (o : RingOp) : State × List Byte :=
  if o.op = 0x1A then (s, []) else s.sealMessage (ringCtx r) f.mtu f.hdrs o.kept

/-- The oldest message of a queue pair is sent again, in a confidential context under new counters (R298, R303); `f` says how
its packets go. -/
def State.resendOp (s : State) (f : InFrame) (r : Rec) (o : RingOp) : State :=
  let (s, pay) := s.sealAgain f r o
  s.answerOut f (opMessage r o pay)

/-- An answer of the peer (R294, R298): an acknowledgement ends the oldest entry; a receiver-not-ready or sequence NAK asks
for it again; a NAK for access ends it with status 3 and the queue pair fails, as it does at any other NAK (log 16). -/
def State.recvAnswer (s : State) (f : InFrame) (qpn : Nat) (nak : Option Nat) : State :=
  match s.oldestOp qpn, nak with
  | none, _ => s
  | some (r, o), none =>
    if o.op = 0x1A then s else
    let s := if o.op = 0x18 then s else s.sendDone (ringCtx r)
    s.finishOp r o.idx (0, 0, o.len, 0)
  | some (r, o), some k =>
    if k < 2 then s.resendOp f r o
    else if k = 3 then (s.finishOp r o.idx (3, 0, 0, 0)).qpFails qpn
    else s.qpFails qpn

/-- A packet of an RDMA READ response (R290, R303): its bytes go to ADDR, and the last ends the entry, with status 5 where a
write failed, the first such status in DATA[9] (R294). -/
def State.recvData (s : State) (qpn : Nat) (hdr : List Byte) (off : Nat) (pay : List Byte) (last : Bool) : State :=
  match s.oldestOp qpn with
  | none => s
  | some (r, o) =>
    if o.op ≠ 0x1A then s else
    match s.openIn qpn hdr pay with
    | (s, none) => s
    | (s, some bs) =>
      let bs := bs.take (o.len - off)
      let (s, st) := s.engineStore portIssuer (ringCtx r) (o.addr + off) bs
      let hurt := if o.hurt = 0 then st.getD 0 else o.hurt
      let s := s.setOp r { o with hurt := hurt }
      if last = false then s
      else s.finishOp r o.idx (if hurt = 0 then (0, 0, o.len, 0) else (5, hurt, 0, 0))

/-- A raw frame (R290, R297, R301): stored with its timestamp, or dropped and counted where it exceeds 2,048 bytes or
finds the raw ring full (R305). -/
def State.recvRaw (s : State) (t : Nat) (bytes : List Byte) : State :=
  match s.ringRecs.find? ringRaw with
  | none => s
  | some r =>
    let x := s.ring (r.u16 8)
    if 2048 < bytes.length ∨ ringDepth r - 1 ≤ x.fill then s.bump Reg.HOST_PORT_DROP Fld.HOST_PORT_DROP_COUNT 1 else
    let s := s.engineWrite portIssuer (ringCtx r) (r.u64 56 + x.pi % ringDepth r * 2048) bytes
    let e : List Byte := leBytes 1 0x28 ++ leBytes 1 0 ++ leBytes 2 0xFFFF ++ leBytes 4 bytes.length ++ leBytes 24 0 ++
      leBytes 8 t ++ leBytes 24 0
    (s.produce r e).getD s

/-- The queue pair that a frame names. -/
def bodyQpn : InBody → Option Nat
  | .raw _ => none
  | .send q _ _ => some q
  | .write q _ _ _ _ => some q
  | .read q _ _ _ _ => some q
  | .bad q => some q
  | .cnp q => some q
  | .ack q => some q
  | .nak q _ => some q
  | .readData q _ _ _ _ => some q
  | .ohmune _ _ => none

/-- A frame marked with congestion is answered by a CNP, at most one every 50 µs for a queue pair (R298). -/
def State.congested (s : State) (f : InFrame) (q : Nat) : State :=
  let last := SMap.get 0 s.cnpAt q
  if last ≠ 0 ∧ s.vt < last - 1 + 50000 then s
  else { s with cnpAt := SMap.set 0 s.cnpAt q (s.vt + 1) }.answerOut f (.cnp q)

/-- What a frame that arrived at a time does (R297, R298). -/
def State.runFrame (s : State) (t : Nat) (f : InFrame) : State :=
  match f.body with
  | .raw bs => s.recvRaw t bs
  | .send q h p => s.recvSend f q h p
  | .write q h va k p => s.recvWrite f q h va k p
  | .read q va k n fl => s.recvRead f q va k n fl
  | .bad q => s.nakFatal f q (.invalidNak q)
  | .cnp q => s.slowDown q
  | .ack q => s.recvAnswer f q none
  | .nak q k => s.recvAnswer f q (some k)
  | .readData q h o p l => s.recvData q h o p l
  | .ohmune seq cmd => { s with inbox := s.inbox ++ [(f.reply, seq, cmd)] }

/-- The engine takes a frame that arrived at a time (R297, R298). A queue pair in error answers nothing. -/
def State.takeFrame (s : State) (t : Nat) (f : InFrame) : State :=
  match bodyQpn f.body with
  | none => s.runFrame t f
  | some q => if q ∈ s.qpErr then s else (if f.ecn then s.congested f q else s).runFrame t f

/-- Bytes in the ingress buffer. -/
def State.ingressFill (s : State) : Nat := (s.ingress.map fun e => e.2.2.size).sum

/-- PFC follows the buffer: XOFF above 3 MiB, XON below 2 MiB, on every priority (R297). -/
def State.pfc (s : State) : State :=
  let off := decide (s.getF Reg.HOST_PORT_STATUS Fld.HOST_PORT_STATUS_XOFF = 1)
  let n := s.ingressFill
  let tell := fun (b : Bool) => (List.range 8).foldl (fun (s : State) p => s.emit (.pfc p b))
    (s.setF Reg.HOST_PORT_STATUS Fld.HOST_PORT_STATUS_XOFF (bit b))
  if !off ∧ 3 * 2 ^ 20 < n then tell true else if off ∧ n < 2 * 2 ^ 20 then tell false else s

/-- MACsec on the way in (R300): a protected frame passes under an installed association if its check value is right and its
packet number is not below the next one, which then follows it; an unprotected frame passes (PRESUMED, IEEE 802.1AE;
log 15). -/
def State.secTake (s : State) (tag : Option SecTag) : State × Bool :=
  match tag with
  | none => (s, true)
  | some t =>
    match s.sas.find? fun kv => decide (kv.1 = 256 * t.chan.val + t.an.val) with
    | none => (s, false)
    | some (k, a) =>
      if t.good && decide (a.pn ≤ t.pn.toNat) then ({ s with sas := SMap.put k { a with pn := t.pn.toNat + 1 } s.sas }, true)
      else (s, false)

/-- Class 0 admits a frame, or it waits in the 4 MiB buffer, or it is dropped (R297). -/
def State.queueFrame (s : State) (f : InFrame) : State :=
  let id := s.nextId
  let full := decide (4 * 2 ^ 20 < s.ingressFill + f.size)
  let waits := (s.tithe portSite).queue.any (fun r => decide (r.cls = 0)) || !(s.titheFits portSite 0 f.size)
  if waits && full then s.bump Reg.HOST_PORT_DROP Fld.HOST_PORT_DROP_COUNT 1 else
  let s := { s with nextId := id + 1 }.titheAsk portSite 0 f.size id
  let t := s.tithe portSite
  if id ∈ t.admitted then
    (s.setTithe portSite { t with admitted := t.admitted.filter fun i => decide (i ≠ id) }).takeFrame s.vt f
  else { s with ingress := s.ingress ++ [(id, s.vt, f)] }.pfc

/-- A frame arrives (R297): MACsec checks it and class 0 admits it. In safelight the port
accepts wake frames only (R407). -/
def State.arrive (s : State) (tag : Option SecTag) (f : InFrame) : State :=
  if s.portUp = false ∨ s.asleep = true then s else
  match s.secTake tag with
  | (s, false) => s
  | (s, true) => s.queueFrame f

/-- A frame of a row. -/
def frameWith (f : FrameIn) (b : InBody) : InFrame := 
  ⟨f.size.val, f.ecn, f.rc, f.reply.toNat, f.prio.val, mtuBytes f.mtu, f.hdrs, b⟩

/-- RAW_FRAME_RX (R297). -/
def execRawFrameRx (f : FrameIn) (bytes : List Byte) (s : State) : Out := .next (s.arrive f.sec (frameWith f (.raw bytes)))
/-- INBOUND_SEND (R298). -/
def execInboundSend (f : FrameIn) (qpn : BitVec 24) (hdr pay : List Byte) (s : State) : Out :=
  .next (s.arrive f.sec (frameWith f (.send qpn.toNat hdr pay)))
/-- INBOUND_RDMA_WRITE (R298). -/
def execInboundRdmaWrite (f : FrameIn) (qpn : BitVec 24) (hdr : List Byte) (va : BitVec 64) (rkey : BitVec 32)
    (pay : List Byte) (s : State) : Out :=
  .next (s.arrive f.sec (frameWith f (.write qpn.toNat hdr va.toNat rkey.toNat pay)))
/-- INBOUND_RDMA_READ (R298). -/
def execInboundRdmaRead (f : FrameIn) (qpn : BitVec 24) (_hdr : List Byte) (va : BitVec 64) (rkey : BitVec 32)
    (len : BitVec 24) (flaws : Flaws) (s : State) : Out :=
  .next (s.arrive f.sec (frameWith f (.read qpn.toNat va.toNat rkey.toNat len.toNat flaws)))
/-- UNSUPPORTED_REQUEST (R298). -/
def execUnsupportedRequest (f : FrameIn) (qpn : BitVec 24) (s : State) : Out :=
  .next (s.arrive f.sec (frameWith f (.bad qpn.toNat)))
/-- CNP (R298). -/
def execCnp (f : FrameIn) (qpn : BitVec 24) (s : State) : Out := .next (s.arrive f.sec (frameWith f (.cnp qpn.toNat)))
/-- ROCE_RESPONSE (R298). -/
def execRoceResponse (f : FrameIn) (qpn : BitVec 24) (answer : RoceAnswer) (s : State) : Out :=
  .next (s.arrive f.sec (frameWith f (match answer with
    | .ack => .ack qpn.toNat
    | .nak k => .nak qpn.toNat k.val
    | .readData h o p l => .readData qpn.toNat h o.toNat p l)))

/-! ### Admission (R156) -/

/-- What waits on an admitted request goes: a packet, a frame that arrived, a message. -/
def State.admitted (s : State) (site id : Nat) : State :=
  match s.jobs.find? (fun j => decide (j.id = id)) with
  | some j => { s with jobs := s.jobs.filter fun x => decide (x.id ≠ id) }.launch j
  | none =>
    match s.ingress.find? (fun e => decide (e.1 = id)), s.egress.find? (fun e => decide (e.1 = id)) with
    | some (_, t, f), _ =>
      ({ s with ingress := s.ingress.filter fun e => decide (e.1 ≠ id) }.pfc).takeFrame t f
    | none, some (_, e) => { s with egress := s.egress.filter fun e => decide (e.1 ≠ id) }.sentOut e
    | none, none =>
      let t := s.tithe site
      s.setTithe site { t with admitted := t.admitted ++ [id] }

/-- The oldest waiting request of a class is admitted once it fits; what waits on it goes (R156). -/
def State.titheAdmit (s : State) (site cls : Nat) : State :=
  match (s.tithe site).queue.find? (fun r => decide (r.cls = cls)) with
  | none => s
  | some r =>
    if !(s.titheFits site cls r.cost) then s else
    let s := s.titheCharge site cls r.cost
    let t := s.tithe site
    ((s.setTithe site { t with queue := dropFirst cls t.queue }).titheRetry site cls).admitted site r.id

end Sys2Proof.Machine
end

