-- ==== Sys2Proof/Machine/Root.lean ====
section
/-!
DEFINITION. The package's vote node and the root (R130 to R136, R145 to R151): votes and missing votes, the commit
decision of a bell, lateness decisions, requested holds and resumes, and their rows.
-/

namespace Sys2Proof.Machine

open Sys2Proof

/-! ### Votes (R131 to R133) -/

/-- The children of the vote node: the live sites of the package and the packages whose parent it is (R130). -/
def State.isChild (s : State) : Child → Bool
  | .site i => s.live i
  | .pkg p => decide (p.toNat ∈ childPkgs s.rs)

/-- All children. -/
def State.children (s : State) : List Child :=
  (s.liveSites.map fun i => .site (siteOf i)) ++ (childPkgs s.rs).map fun p => .pkg (BitVec.ofNat 16 p)

/-- The bell whose result the vote node passes on, or decides, next. -/
def NodeSt.next (n : NodeSt) : Nat :=
  match n.passed with
  | some k => k + 1
  | none => 0

/-- Does the vote node hold a child's vote for a bell? -/
def NodeSt.holds (n : NodeSt) (bell : Nat) (c : Child) : Bool :=
  n.votes.any fun v => decide (v.bell = bell) && decide (v.child = c)

/-- The vote node of the package's tree port. -/
def State.port (s : State) : SiteBell := s.bellAt (treePort s.rs)

/-- When a bell of the run being executed ends, as far as is known now. -/
def State.endOf (s : State) (n : Nat) : Nat :=
  let b := s.port
  if n < b.bell then b.t0 + (n + 1) * periodNs s.rs
  else bellEnd b s.rs b.extNow + (n - b.bell) * periodNs s.rs

/-- START of a replay or resume cried now (R136, R150). -/
def State.startTime (s : State) : Nat := up250 (s.vt + cryTime s.rs + drainNs s.rs)

/-- The vote node forgets what it heard of a bell and of later ones. -/
def NodeSt.forget (n : NodeSt) (bell : Nat) : NodeSt :=
  { n with
    votes := n.votes.filter fun v => decide (v.bell < bell)
    own := n.own.filter fun o => decide (o.1 < bell) }

/-- The root decides a bell (R133 to R136, R148, R149): CLEAR with HOLD_UNTIL where it would come too late, REPLAY,
or HOLD where a site is lost or the bell has been replayed three times in a row. -/
def State.decideBell (s : State) (n : Nat) (fault lost : Bool) : State :=
  if fault = false ∧ lost = false then
    let t := s.vt + cryTime s.rs
    let until_ := if s.endOf (n + depthD s.rs) < t then up250 t else 0
    { s with node := { s.node with passed := some n, replays := 0 } }.cry .clear n until_
  else
    let node := { s.node.forget n with mute := true }
    if lost then { s with node := { node with holdAt := none } }.cry .hold n 2
    else if 3 ≤ node.replays then { s with node := { node with holdAt := none } }.cry .hold n 1
    else { s with node := { node with replays := node.replays + 1 } }.cry .replay n s.startTime

/-- Once every child's vote and its own flags for the next bell are in, the vote node passes the result on, or at the
root decides (R131, R133). -/
def State.tryPass (s : State) : Nat → State
  | 0 => s
  | fuel + 1 =>
    let n := s.node.next
    match s.node.own.find? (fun o => decide (o.1 = n)) with
    | none => s
    | some (_, own) =>
      if s.node.mute ∨ (s.children.all fun c => s.node.holds n c) = false then s else
      let mine := s.node.votes.filter fun v => decide (v.bell = n)
      let fault := own || mine.any (·.fault)
      let lost := mine.any (·.lost)
      let s := { s with node := { s.node with
        votes := s.node.votes.filter fun v => decide (v.bell ≠ n), own := s.node.own.filter fun o => decide (o.1 ≠ n) } }
      if isRoot s.rs then (s.decideBell n fault lost).tryPass fuel
      else
        (({ s with node := { s.node with passed := some n } }).sendFrameTo (treePort s.rs) .up .vote n
          (2 * bit lost + bit fault)).tryPass fuel

/-- Pass on whatever is complete. -/
def State.passVotes (s : State) : State := s.tryPass (s.node.votes.length + s.node.own.length + 1)

/-- Does the vote node drop what is said of a bell (R132, R133, R150)? -/
def State.drops (s : State) (c : Child) (bell : Nat) : Bool :=
  s.node.mute || !(s.isChild c) || decide (bell < s.node.next) ||
  (match s.node.holdAt with | some h => decide (h ≤ bell) | none => false)

/-- A vote enters (R131). -/
def State.putVote (s : State) (c : Child) (bell : Nat) (fault lost : Bool) : State :=
  { s with node := { s.node with votes := s.node.votes ++ [(⟨bell, c, fault, lost⟩ : Vote)] } }.passVotes

/-- VOTE (R131, R132): the first of each child counts. -/
def execVoteFrame (child : Child) (bell : BitVec 48) (fault lost : Bool) (rx : Rx) (s : State) : Out :=
  match s.frameRx (treePort s.rs) rx with
  | (s, false) => .next s
  | (s, true) =>
    if s.drops child bell.toNat ∨ s.node.holds bell.toNat child = true then .next s
    else .next (s.putVote child bell.toNat fault lost)

/-- VOTE_MISSING (R132): at the end of bell n + D a child's vote for the next bell is absent: it counts as FAULT. -/
def execVoteMissing (child : Child) (s : State) : Out :=
  let n := s.node.next
  if s.drops child n ∨ s.node.holds n child = true ∨ s.port.life = .notStarted ∨ s.port.bell < n ∨
      s.vt < s.endOf (n + depthD s.rs) then .next s
  else .next ((s.bump Reg.BELL_CNT_MISSING Fld.BELL_CNT_MISSING_COUNT 1).putVote child n true false)

/-! ### Lateness (R145, R146) -/

/-- LATE (R145, R146): a report for a check point; a vote node below the root passes it up once. -/
def execLateFrame (child : Child) (bell : BitVec 48) (m : Fin 9) (rx : Rx) (s : State) : Out :=
  match s.frameRx (treePort s.rs) rx with
  | (s, false) => .next s
  | (s, true) =>
    let r := (bell.toNat, m.val)
    if s.drops child bell.toNat ∨ r ∈ s.node.lates then .next s else
    let s := { s with node := { s.node with lates := s.node.lates ++ [r] } }
    .next (if isRoot s.rs then s else s.sendFrameTo (treePort s.rs) .up .late r.1 r.2)

/-- LATENESS_DECISION (R146): at c_m + C the root cries EXTEND or CLOSE for the bell being run. -/
def execLatenessDecision (s : State) : Out :=
  let b := s.port
  let m := s.node.nextM
  if isRoot s.rs = false ∨ b.executing = false ∨ b.guard = true ∨ s.node.closed = true ∨ s.node.mute = true ∨
      s.vt < checkAt b s.rs m + cryTime s.rs then .next s
  else
    let late := decide ((b.bell, m) ∈ s.node.lates)
    if late = true ∧ m < extMax s.rs then
      .next ({ s with node := { s.node with nextM := m + 1 } }.cry .extend b.bell (m + 1))
    else .next ({ s with node := { s.node with closed := true } }.cry .close b.bell (16 * bit late + m))

/-! ### Holds and resumes (R150, R332) -/

/-- Does the site hold before a bell all of whose predecessors have committed? -/
def SiteBell.settled (b : SiteBell) : Bool :=
  (decide (b.life = .held) || decide (b.life = .settling)) &&
  decide (b.startBell = match b.committed with | some n => n + 1 | none => 0)

/-- BELL_CTRL_HOLD_REQ (R150): the root cries HOLD for the first boundary at least C away. It is ignored elsewhere
and while the domain does not run bells. -/
def execBellCtrlHoldReq (s : State) : Out :=
  let b := s.port
  if isRoot s.rs = false ∨ s.node.holdAt.isSome = true ∨
      (b.executing = false ∧ b.life ≠ .lateHold ∧ b.life ≠ .abandoning) then .next s
  else
    let n := s.firstBellAhead
    .next ({ s with node := { s.node with holdAt := some n } }.cry .hold n 3)

/-- BELL_CTRL_RESUME (R150, R332): while the domain holds, the root cries RESUME for the bell after the last committed
one. Before the first bell the domain counts as holding. -/
def execBellCtrlResume (s : State) : Out :=
  let b := s.port
  if isRoot s.rs = false ∨ s.power.on = false ∨ s.asleep = true ∨ (b.life ≠ .notStarted ∧ b.settled = false) then .next s
  else
    let n := match b.committed with | some k => k + 1 | none => 0
    let node := { s.node.forget 0 with
      replays := 0, holdAt := none, settleAt := none, passed := b.committed, mute := true }
    .next ({ s with node := node }.cry .resume n s.startTime)

end Sys2Proof.Machine
end

