-- ==== Sys2Proof/Machine/Sheets.lean ====
section
/-!
DEFINITION. Contact sheets (R457, R458): what a site writes about a bell, and how the sheet reaches the MC.
-/

namespace Sys2Proof.Machine

open Sys2Proof

/-- Sum over the enabled cores of a stack of a register's field. -/
def State.coreSum (s : State) (k : Nat) (a : Nat → Nat) (f : Fld) : Nat :=
  ((s.enabledCores k).map fun c => s.getF (a c) f).sum

/-- Links of an engine as local link numbers: the granary links 8 and 9 belong to E0 and E4 (R232). -/
def engineLinks (i : Nat) : List Nat :=
  if i < 20 ∨ 28 ≤ i then [] else if i = 20 ∨ i = 24 then List.range 10 else List.range 8

/-- The running counters of a site whose change over a bell a sheet reports (R457): FEC_CORR, FEC_UNCORR, RETRY,
PARITY, REPORTS, STALE_DROP, LATE_RESP, then cache hits and misses or corrected reads. -/
def State.sheetCounts (s : State) (i : Nat) : List Nat :=
  let links := (engineLinks i).map fun l => s.getF (Reg.LNK_RETRY_CNT i l) Fld.LNK_RETRY_CNT_COUNT
  [s.getF (Reg.GW_FEC_CORR i) Fld.GW_FEC_CORR_COUNT, s.getF (Reg.GW_FEC_UNCORR i) Fld.GW_FEC_UNCORR_COUNT,
   s.getF (Reg.GW_RETRY_CNT i) Fld.GW_RETRY_CNT_COUNT + links.sum,
   if i < 8 then s.getF (Reg.MEM_PARITY_CNT i) Fld.MEM_PARITY_CNT_COUNT +
     ((List.range 96).map fun c => s.getF (Reg.CORE_PARITY_CNT i c) Fld.CORE_PARITY_CNT_COUNT).sum else 0,
   SMap.get 0 s.reports i, s.getF (Reg.GW_STALE_DROP i) Fld.GW_STALE_DROP_COUNT,
   s.getF (Reg.GW_LATE_RESP_DROPPED i) Fld.GW_LATE_RESP_DROPPED_COUNT,
   if i < 8 then s.getF (Reg.MEM_CACHE_HIT i) Fld.MEM_CACHE_HIT_COUNT
   else if i < 20 then s.getF (Reg.MEM_ECC_CORR i) Fld.MEM_ECC_CORR_COUNT else 0,
   if i < 8 then s.getF (Reg.MEM_CACHE_MISS i) Fld.MEM_CACHE_MISS_COUNT else 0]

/-- The hottest valid pair of a site: the sensor index of the pair, and its value in 0.25 °C (R457). -/
def State.hotPair (s : State) (i : Nat) : Nat × Int :=
  let valid := (pairsOf i).filter fun k => decide (heatPair i k ∉ s.pairLost)
  match valid.foldl (fun (m : Option (Nat × Int)) k => match m, s.pairValue i k with
    | some a, some t => if a.2 < t then some (2 * k, t) else some a
    | none, some t => some (2 * k, t)
    | m, none => m) none with
  | some p => p
  | none => (0, 0)

/-- Lowest RXPOWER heard of a link's slots, a signed number (R237, R457); 0 where none has been. -/
def LinkSt.lowPower (l : LinkSt) : Nat :=
  match l.power with
  | [] => 0
  | (_, v) :: m => m.foldl (fun a kv => if sintN 16 kv.2 < sintN 16 a then kv.2 else a) v

/-- SITE_DATA (R457), bytes of MEM_HBM_BYTES and GW_RED_BYTES in their units of 256; `d` are the changes of `sheetCounts`. -/
def State.siteData (s : State) (i : Nat) (d : Nat → Nat) : List Byte :=
  if i < 8 then
    leBytes 4 (s.coreSum i (Reg.CORE_MMA_CYC i) Fld.CORE_MMA_CYC_CYCLES) ++
    leBytes 4 (s.coreSum i (Reg.CORE_WAIT_CYC i) Fld.CORE_WAIT_CYC_CYCLES) ++
    leBytes 4 (s.coreSum i (Reg.CORE_STRETCH i) Fld.CORE_STRETCH_PERIODS) ++ leBytes 4 (d 7) ++ leBytes 4 (d 8)
  else if i < 20 then
    leBytes 4 ((s.bridgeAt i).moved / 256) ++ leBytes 4 (d 7) ++
    leBytes 4 (s.getF (Reg.MEM_FIX_USED i) Fld.MEM_FIX_USED_NOW) ++ leBytes 4 (SMap.get 0 s.redBytes i / 256)
  else if i < 28 then
    leBytes 4 (SMap.get 0 s.redBytes i / 256) ++
    leBytes 4 (((engineLinks i).filter fun l => decide (s.linkState (linkNum (i - 20) l) = 2)).map (2 ^ ·)).sum
  else []

/-- Is a value of the site bracketed (R389)? -/
def State.staleAt (s : State) (i : Nat) : Bool :=
  decide (0 < s.bracketsAt i) || s.sensOut.any fun e => decide (e.1 = i)

/-- Build the sheet of a live site for the bell just sealed (R457): `fault` and `lost` are its vote. The mean rail
power is a free value (log 24). -/
def State.buildSheet (s : State) (i : Nat) (fault lost : Bool) : State × List Byte :=
  let b := s.bellAt i
  let now := s.sheetCounts i
  let base := SMap.get [] s.sheetBase i
  let d := fun (j : Nat) => now.getD j 0 - base.getD j 0
  let (n, s) := s.takeFree
  let kind := if i < 8 then 0 else if i < 20 then 1 else if i < 28 then 2 else 3
  let flags := bit (s.staleAt i) + 2 * bit b.late + 4 * bit fault + 8 * bit lost + 16 * bit b.again
  let slack := if i < 8 then s.getF (Reg.CORE_SITE_SLACK i) Fld.CORE_SITE_SLACK_SLACK else 0
  let core := if i < 8 then s.getF (Reg.CORE_SITE_SLACK_SRC i) Fld.CORE_SITE_SLACK_SRC_CORE else 0
  let hot := s.hotPair i
  let t := s.tithe i
  let head :=
    leBytes 1 i ++ leBytes 1 kind ++ leBytes 1 flags ++ leBytes 1 (s.classAt i).cls ++ leBytes 6 b.bell ++
    leBytes 2 (s.gw i).sheetMissed ++ leBytes 4 slack ++ leBytes 1 core ++ leBytes 1 hot.1 ++
    leBytes 2 (twos16 hot.2) ++ leBytes 4 (Config.freeWord n).toNat ++
    (List.range 9).flatMap (fun c => leBytes 4 (SMap.get 0 t.used c)) ++ leBytes 4 0 ++
    leBytes 8 (d 0) ++ (List.range 6).flatMap (fun j => leBytes 4 (d (j + 1)))
  let body := head ++ fitBytes 32 (s.siteData i d) ++
    (List.range 32).flatMap (fun p => leBytes 1 (s.getF (Reg.FAB_TX_PAIR i p) Fld.FAB_TX_PAIR_CARRIERS)) ++
    (List.range 32).flatMap (fun p => leBytes 1 (s.getF (Reg.FAB_RX_PAIR i p) Fld.FAB_RX_PAIR_CARRIERS)) ++
    (List.range 10).flatMap (fun l => leBytes 2
      (if l ∈ engineLinks i then (s.linkAt (linkNum (i - 20) l)).lowPower else 0))
  let bytes := fitBytes 252 body
  ({ s with sheetBase := SMap.set [] s.sheetBase i now }, bytes ++ leBytes 4 (crc32c.calc bytes))

/-- Send a sheet to the MC through S12 under tithe class 6 (R458). What cannot be sent counts in MISSED. -/
def State.sendSheet (s : State) (i : Nat) (bs : List Byte) : State :=
  let miss := fun (s : State) => s.setGw i { s.gw i with sheetMissed := min 0xFFFF ((s.gw i).sheetMissed + 1) }
  let at_ := sheetBoxBase + 256 * i
  if s.live 12 = false then miss s else
  match s.titheTry i 6 296 with
  | (s, false) => miss s
  | (s, true) =>
    let s := if i = 12 then s.storeSheet at_ bs
      else s.dmaWrite i (if i < 8 then 104 else 2) 3 0 (gAddr s.pkg 12 at_) 0 bs .dma
    s.setGw i { s.gw i with sheetMissed := 0 }

/-- At a boundary of the MC's site, the buffer in progress is complete or closed (R458). -/
def State.closeSheets (s : State) (i : Nat) : State :=
  if i = 12 then s.setF Reg.MC_SHEET_BELL Fld.MC_SHEET_BELL_BELL s.sheetBell else s

end Sys2Proof.Machine
end

