-- ==== Sys2Proof/Machine/Bells.lean ====
section
/-!
DEFINITION. The bells of a site (05): check points, guard starts, boundaries, late commits, the root's cries, replays,
holds and resumes, with their rows. A timed row acts when its moment has come (log 1). Each site acts for itself; what
belongs to the package as a whole happens at the boundary of its vote node's site.
-/

namespace Sys2Proof.Machine

open Sys2Proof

/-! ### Parts of a boundary -/

/-- Is a site the one whose boundary stands for the package (R159)? -/
def State.isPort (s : State) (i : Nat) : Bool := decide (i = treePort s.rs)

/-- Refresh the package's bell registers if the site stands for it. -/
def State.showBell (s : State) (i : Nat) : State := if s.isPort i then s.syncBellRegs else s

/-- Is the package's configuration not ready to run bells (R320)? -/
def State.notReady (s : State) : Bool := s.cfg.install || s.cfg.full.isNone

/-- Does a package run no bell from a RESUME boundary on: its configuration is not ready (R320), or it uses a site that is
not live or a core that is not enabled (R345, R422)? -/
def State.barred (s : State) : Bool := s.notReady || (s.unusable s.rs).isSome

/-- Set HOLD_REASON if the site stands for the package (R159). -/
def State.holdReason (s : State) (i reason : Nat) : State :=
  if s.isPort i then s.setF Reg.BELL_STATUS Fld.BELL_STATUS_HOLD_REASON reason else s

/-- Cores of a stack that run a program and have not retired BELL_END. -/
def State.unretired (s : State) (i : Nat) : List Nat :=
  if 8 ≤ i then [] else (s.enabledCores i).filter fun c => (s.core i c).running && !(s.core i c).retired

/-- Abandon the work of some cores (R123, R137, R146). -/
def State.abandonAll (s : State) (i : Nat) (cs : List Nat) : State :=
  cs.foldl (fun (s : State) c => (s.abandonCore i c).syncSeq i c) s

/-- Cores of a stack with work in hand. -/
def State.busyCores (s : State) (i : Nat) : List Nat :=
  if 8 ≤ i then [] else (List.range 96).filter fun c => (s.core i c).running || decide ((s.core i c).flights ≠ [])

/-- Tokens and accumulators of a stack clear (R77, R108, R137). -/
def State.clearTokens (s : State) (i : Nat) : State :=
  if 8 ≤ i then s else
  let s := (s.clearRegs i 0x4000000 (0x4000000 + 96 * 0x400)).clearRegs i 0x5000000 (0x5000000 + 12 * 0x1000)
  (List.range 96).foldl (fun (s : State) c =>
    if (s.core i c).acc = [] then s else s.setCore i c { s.core i c with acc := [] }) s

/-- The context of core stores and cluster memories becomes that of a bell: at a switch they are cleared and the
speculative read buffers emptied (R435 to R437). -/
def State.switchTo (s : State) (i bell : Nat) : State :=
  let ctx := turnOf s.rs bell
  if 8 ≤ i ∨ (s.bellAt i).resident = ctx then s else
  let s := (List.range 96).foldl (fun (s : State) c =>
    if (s.core i c).specData = [] then s else s.setCore i c { s.core i c with specData := [] }) s
  (s.clearStores i).setBell i { s.bellAt i with resident := ctx }

/-- At a bell boundary the LIVE bits of the sites that a gateway has fenced clear (R336). -/
def State.liveUpdate (s : State) (i : Nat) : State :=
  (List.range 32).foldl (fun (s : State) j => if s.fencedAt i j ∧ s.live j then s.setLive j false else s) s

/-- The boundary that ends a bell of a context's turn advances its phase; at the wrap the step base of a compute
stack increases (R87). -/
def State.endTurn (s : State) (i : Nat) : State :=
  let b := s.bellAt i
  let ctx := turnOf s.rs b.bell
  if ctx = 0 then s else
  let p := SMap.get 0 b.phases ctx + 1
  let wrap := decide (cycleLen s.rs ctx ≤ p)
  let s := s.setBell i { b with phases := SMap.set 0 b.phases ctx (if wrap then 0 else p) }
  let a := Reg.CORE_STEP_BASE i ctx
  if wrap ∧ i < 8 then s.setF a Fld.CORE_STEP_BASE_BASE (s.getF a Fld.CORE_STEP_BASE_BASE + 1) else s

/-- What a bell begins with (R87, R134). -/
def State.snapshot (s : State) (i bell : Nat) : Snapshot :=
  let bases := if 8 ≤ i then [] else (ctxList s.rs).foldl (fun m c =>
    SMap.put c (s.getF (Reg.CORE_STEP_BASE i c) Fld.CORE_STEP_BASE_BASE) m) []
  ⟨bell, (s.bellAt i).phases, bases⟩

/-- Restore the phases and step bases that a bell began with (R87, R137). -/
def State.restoreTo (s : State) (i bell : Nat) : State :=
  let b := s.bellAt i
  match b.snaps.find? (fun n => decide (n.bell = bell)) with
  | none => s
  | some n =>
    let s := s.setBell i { b with phases := n.phases }
    n.bases.foldl (fun (s : State) kv =>
      s.setF (Reg.CORE_STEP_BASE i kv.1) Fld.CORE_STEP_BASE_BASE kv.2) s

/-- The sequencers of a stack start a bell at descriptor 0 (R86, R137); a core without a program in a bell of its context
runs nothing and counts as retired at b+0. -/
def State.startCores (s : State) (i n : Nat) (miss : Bool) : State :=
  if 8 ≤ i then s else
  let ctx := turnOf s.rs n
  let phase := SMap.get 0 (s.bellAt i).phases ctx
  let s := (s.enabledCores i).foldl (fun (s : State) c =>
    let x := s.core i c
    let run := decide (ctx ≠ 0) && !miss && (programRec s.rs ctx i c phase).isSome
    let s := s.setCore i c { CoreSt.idle with
      running := run, ctx := ctx, phase := phase, serial := x.serial, fills := x.fills, heldFills := x.heldFills, attributed := x.attributed }
    let a := Reg.CORE_SEQ_PHASE i c
    let s := s.setF a Fld.CORE_SEQ_PHASE_PHASE (if ctx = 0 then 0 else phase)
    let s := s.setF a Fld.CORE_SEQ_PHASE_LEN_M1 (if ctx = 0 then 0 else cycleLen s.rs ctx - 1)
    (s.slotWait i c).syncSeq i c) s
  if ctx = 0 ∨ miss = true then s else
  ((s.enabledCores i).filter fun c => !(s.core i c).running).foldl (fun (s : State) c =>
    s.putSlack i c ((periodNs s.rs : Int) - guardNs s.rs)) s

/-- Power class of a site in a bell (R124). -/
def State.classOf (s : State) (n i : Nat) : Nat :=
  let ctx := turnOf s.rs n
  if ctx = 0 then 0 else powerClass s.rs ctx i (s.phaseIn i ctx n)

/-- Brackets and sensor brackets of a boundary (R384, R385): fields go with the vote node's site. -/
def State.calBoundary (s : State) (i bell : Nat) (hold : Bool) : State :=
  let s := (s.bracketBoundary i bell hold).sensorBoundary i bell
  if s.isPort i then (List.range 12).foldl (fun (s : State) n => s.sensorBoundary (32 + n) bell) s else s

/-- A site takes bell `n` with origin `t0`, its sequencers start, and what the guard interval kept goes (R128). -/
def State.openBell (s : State) (i n t0 : Nat) (again miss : Bool) : State :=
  let b := s.bellAt i
  let snaps := b.snaps.filter (fun (x : Snapshot) => decide (x.bell ≠ n)) ++ [s.snapshot i n]
  let s := s.setBell i { b with
    life := .running, bell := n, t0 := t0, guard := false, ext := 0, closed := none, checks := 0, late := false
    start := none, holdFor := none, snaps := snaps, runs := b.runs ++ [(n, t0)], again := again, miss := miss }
  let s := (s.startCores i n miss).regionsBegin i
  (s.setGw i { s.gw i with stallSaid := [] }).pumpSite i

/-- Bell `n` begins at a site with origin `t0`. `start`: it begins at a START; `again`: it has run before; `miss`: the
site is not ready for it (R320). -/
def State.beginBell (s : State) (i n t0 : Nat) (start again miss : Bool) : State :=
  let s := s.openBell i n t0 again miss
  let lost := decide (8 ≤ i) && decide (i < 20) &&
    decide (s.getF (Reg.MEM_HBM_STATUS i) Fld.MEM_HBM_STATUS_COMMIT_LOST = 1)
  let s := if lost then s.raise i 0x0404 [] else s
  let s := s.calBoundary i n false
  if s.isPort i = false then s else
  let s := s.sendFrameTo i .sites .bell n s.vt
  let node := { s.node with lates := [], nextM := 0, closed := false, mute := if start then false else s.node.mute }
  let s := { s with node := node }
  ((s.syncBellRegs).holdReason i 0).classesBegin (s.classOf n) (s.classOf (n + 1))

/-! ### Holds -/

/-- The number of whole periods since the origin. -/
def State.periodIdx (s : State) (b : SiteBell) : Nat := (s.vt - b.t0) / max 1 (periodNs s.rs)

/-- A site stops before a bell: held or settling (R150, R151). -/
def State.stopBefore (s : State) (i : Nat) (life : Life) (bell : Nat) : State :=
  let b := s.bellAt i
  let s := s.setBell i { b with
    life := life, startBell := bell, guard := false, ext := 0, closed := none, perIdx := s.periodIdx b, start := none
    settleDue := decide (life = .settling) }
  let s := if s.isPort i then s.classesBegin (fun _ => 0) (fun _ => 0) else s
  s.showBell i

/-- Sites re-admitted to STATE 4 are live again at a settled boundary, with the bell state of their package (R345). -/
def State.liveReturn (s : State) : State :=
  (List.range 32).foldl (fun (s : State) j =>
    if s.getF (Reg.GW_RESET j) Fld.GW_RESET_STATE = 4 then
      ((s.setLive j true).setBell j { s.port with resident := 0, again := false, miss := false }).setF
        (Reg.GW_RESET j) Fld.GW_RESET_STATE 0
    else s) s

/-- A settled boundary of the package before a bell (R319, R345, R420): site returns, retirements and roles take effect,
and what is pending activates. A package that has stopped for SETTLE and has nothing pending at the first such boundary
says so. -/
def State.settledBoundary (s : State) (bell : Nat) : State :=
  let s := if s.port.settleDue then
      let t := s.setBell (treePort s.rs) { s.port with settleDue := false }
      if s.changePending then t else t.raise mcSite 0x0907 []
    else s
  let s := s.liveReturn.retireWaiting.applyRoles.activateSettled bell false
  (List.range 8).foldl (fun (s : State) e => s.restoreDue (20 + e)) s

/-- What begins a hold at the package (R150, R422, R427, R428, R455): its event, retirements, combs and crossings. -/
def State.packageHolds (s : State) (reason bell : Nat) : State :=
  let s := if reason = 1 then (s.raise mcSite 0x0103 []).retireFaulty bell
    else if reason = 2 then s.raise mcSite 0x0901 []
    else if reason = 3 then s.raise mcSite 0x0104 [] else s
  let s := (s.retireWaiting.replaceCombs).repairXings
  (List.range 8).foldl (fun (s : State) e => s.restoreDue (20 + e)) s

/-! ### Check points and guard starts (R145 to R147) -/

/-- CHECK_POINT (R145, R146, R270): at the next `c_m` a site with an unretired core or an incomplete slice sends
LATE. LATE_BELL names the lowest unretired core, or core 0 where only a slice is late (DESIGN CHOICE, log 45). -/
def execCheckPoint (site : Site) (s : State) : Out :=
  let i := site.val
  let b := s.bellAt i
  if s.live i = false ∨ b.executing = false ∨ b.guard = true ∨ b.closed.isSome = true ∨ extMax s.rs < b.checks ∨
      s.vt < checkAt b s.rs b.checks then .next s
  else
    let s := s.setBell i { b with checks := b.checks + 1 }
    let cores := s.unretired i
    if cores = [] ∧ s.sliceOpen i b.bell = false then .next s else
    let s := s.sendFrameTo i .toNode .late b.bell b.checks
    .next ((s.setBell i { s.bellAt i with late := true }).raise i 0x0101 [cores.headD 0])

/-- A package counts a CLOSE at its vote node's site (R146): its extensions, and one late bell where it has any or was
FORCED. -/
def State.countClose (s : State) (i m : Nat) (forced : Bool) : State :=
  if s.isPort i = false then s else
  let s := s.bump Reg.BELL_CNT_EXT Fld.BELL_CNT_EXT_COUNT m
  if 0 < m ∨ forced = true then s.bump Reg.BELL_CNT_LATE Fld.BELL_CNT_LATE_COUNT 1 else s

/-- The guard interval of a site's bell begins (R128). A site without a decision takes it as CLOSE (R147). Tokens are cleared
at its start, so one that rises later in it counts in the next bell (R108 says no moment: DESIGN CHOICE, log 48). -/
def State.guardBegins (s : State) (i : Nat) : State :=
  let b := s.bellAt i
  let s := match b.closed with
    | some _ => s
    | none => ((s.setBell i { b with closed := some (b.ext, false) }).raise i 0x0105 []).countClose i b.ext false
  let forced : Bool := match b.closed with
    | some (_, f) => f
    | none => false
  let s := s.setBell i { s.bellAt i with guard := true }
  let late := s.unretired i
  let s := if forced = true ∧ (late ≠ [] ∨ s.sliceOpen i b.bell = true) then
      let s := (s.abandonAll i late).forceEngine i
      s.setBell i { s.bellAt i with fault := true }
    else s
  let s := (s.clearTokens i).switchTo i (b.bell + 1)
  let s := if i = portSite then s.ringReserve (b.bell + 1) else s
  s.recentre i

/-- GUARD_START (R128, R146, R147): at the guard start of CLOSE, or, with no decision held for its check point, at
that of the extensions granted. -/
def execGuardStart (site : Site) (s : State) : Out :=
  let i := site.val
  let b := s.bellAt i
  if s.live i = false ∨ b.executing = false ∨ b.guard = true ∨ s.vt < guardAt b s.rs b.extNow then .next s
  else .next ((s.guardBegins i).showBell i)

/-! ### The boundary (R22, R131, R135) -/

/-- Does a site hold the decision on bell `n - D` by the end of bell `n` (R135)? -/
def State.deadlineMet (s : State) (i n : Nat) : Bool :=
  decide (n < depthD s.rs) || (match (s.bellAt i).committed with
    | some c => decide (n - depthD s.rs ≤ c)
    | none => false)

/-- Step 1 of R22 at the end of a site's bell: the vote is sealed and sent, and the sheet of the bell is built; it waits
in `sheet` for the rest of the boundary. While REFCLK is lost the vote node's own vote is faulty at every bell, so that the
domain comes to hold under R148 (R349: DEDUCED, log 46). Counts in units of 256 bytes are rounded down (DESIGN CHOICE, log 48). -/
def State.sealBell (s : State) (i : Nat) : State :=
  let n := (s.bellAt i).bell
  let s := (s.checkSlices i n).abandonAll i (s.unretired i)
  let b := s.bellAt i
  let fault := b.fault || b.miss
  let s := s.sendFrameTo i .toNode .vote n (2 * bit b.lost + bit fault)
  let s := if s.isPort i then
      { s with node := { s.node with own := s.node.own ++ [(n, s.node.nodeFault || s.vc.refLost.isSome)], nodeFault := false } }
    else s
  let (s, sheet) := s.buildSheet i fault b.lost
  let s := s.setBell i { s.bellAt i with fault := false, lost := false, sheet := some sheet }
  let s := s.closeSheets i
  let s := if 8 ≤ i ∧ i < 20 then
      let s := s.setF (Reg.MEM_HBM_BYTES i) Fld.MEM_HBM_BYTES_BYTES ((s.bridgeAt i).moved / 256)
      s.setBridge i { s.bridgeAt i with moved := 0 }
    else s
  if 8 ≤ i ∧ i < 28 then
    let n := SMap.get 0 s.redBytes i
    let s := s.setF (Reg.GW_RED_BYTES i) Fld.GW_RED_BYTES_BYTES (n / 256)
    { s with redBytes := SMap.del i s.redBytes }
  else s

/-- Has the end of a site's bell come? -/
def State.bellOver (s : State) (i : Nat) : Bool :=
  let b := s.bellAt i
  s.live i && b.executing && b.guard && decide (bellEnd b s.rs b.extNow ≤ s.vt)

/-- Steps 1 to 3 of R22 at every site whose bell ends now: all seal before anything takes effect, then LIVE and, with
the vote node's site, the package's pending changes take effect (log 30). Sites that have done so are not met again. -/
def State.sealSites (s : State) : State :=
  let due := (List.range 32).filter fun i => s.bellOver i && (s.bellAt i).sheet.isNone
  let s := due.foldl (fun (s : State) i => s.sealBell i) s
  let s := due.foldl (fun (s : State) i => s.liveUpdate i) s
  if due.any s.isPort then s.activateNext.applyRoles else s

/-- What follows the end of a bell: a hold, a settled wait, a late-commit hold, or the next bell. -/
def State.nextBell (s : State) (i : Nat) : State :=
  let b := s.bellAt i
  let n := b.bell
  let due := fun (o : Option Nat) => match o with
    | some k => decide (k ≤ n + 1)
    | none => false
  if due b.pendHold then
    let s := ((s.endTurn i).stopBefore i .held (n + 1)).holdReason i 3
    if s.isPort i then s.packageHolds 3 (n + 1) else s
  else if due b.settleB then
    ((s.endTurn i).stopBefore i .settling (n + 1)).holdReason i 4
  else if s.deadlineMet i n = false ∨ (match b.holdFor with
      | some (k, t) => decide (k = n) && decide (s.vt < t)
      | none => false) = true then
    (s.setBell i { b with life := .lateHold, guard := false }).showBell i
  else
    let s := s.endTurn i
    s.beginBell i (n + 1) (s.bellAt i).t0 false (b.runs.any fun r => decide (r.1 = n + 1)) (b.miss && s.barred)

/-- The end of a site's bell (R22): steps 1 to 3 with every site whose bell ends now, then its tithes reload, and what
follows begins. -/
def State.boundary (s : State) (i : Nat) : State :=
  let b := s.bellAt i
  let s := s.sealSites
  let sheet := (s.bellAt i).sheet.getD []
  let s := s.titheReload i
  let s := s.setBell i { s.bellAt i with t0 := b.t0 + b.extNow * extQ s.rs, ext := 0, closed := none, sheet := none }
  let s := s.nextBell i
  let s := s.sendSheet i sheet
  if s.isPort i then s.passVotes else s

/-- BELL_BOUNDARY (R22). -/
def execBellBoundary (site : Site) (s : State) : Out :=
  .next (if s.bellOver site then s.boundary site else s)

/-- COMMIT_DEADLINE (R135): the end of bell n + D comes without CLEAR(n) or REPLAY(n): the site holds. -/
def execCommitDeadline (site : Site) (s : State) : Out :=
  .next (if s.bellOver site = true ∧ s.deadlineMet site (s.bellAt site).bell = false then s.boundary site else s)

/-- HOLD_UNTIL (R135): a late-commit hold ends once the CLEAR is held and HOLD_UNTIL has come: T0 moves later and the
next bell starts. -/
def execHoldUntil (site : Site) (s : State) : Out :=
  let i := site.val
  let b := s.bellAt i
  let n := b.bell
  if s.live i = false ∨ b.life ≠ .lateHold ∨ s.deadlineMet i n = false then .next s else
  let until_ := match b.holdFor with
    | some (k, t) => if k = n then t else s.vt
    | none => s.vt
  if s.vt < until_ then .next s else
  let s := s.endTurn i
  .next (s.beginBell i (n + 1) (until_ - (n + 1) * periodNs s.rs) false
    (b.runs.any fun r => decide (r.1 = n + 1)) (b.miss && s.barred))

/-! ### CLEAR (R134, R135) -/

/-- Does a site take a cry? A fenced site hears none. -/
def State.hears (s : State) (i : Nat) (rx : Rx) : State × Bool :=
  let (s, ok) := s.frameRx i rx
  (s, ok && s.live i)

/-- The vote node hears a cry once, at its own site, and passes it down unless it made it (R133). -/
def State.relay (s : State) (i : Nat) (t : FrameType) (bell arg : Nat) : State :=
  if s.isPort i ∧ isRoot s.rs = false then s.sendFrameTo i .down t bell arg else s

/-- Bell `n` commits at a site (R134). -/
def State.commitAt (s : State) (i n until_ : Nat) (flaws : Flaws) : State :=
  let s := if siteKind i = .bridge then s.fixApply i n flaws else s
  let s := if i < 8 then
      (List.range 96).foldl (fun (s : State) c =>
        let x := s.core i c
        if x.fills = [] ∧ x.attributed = [] then s
        else (s.setCore i c { x with
          fills := x.fills.filter fun f => decide (n < f.bell)
          attributed := x.attributed.filter fun r => decide (n < r.1) }).fillsMove i c) s
    else s
  let b := s.bellAt i
  let s := s.setBell i { b with
    committed := some n
    snaps := b.snaps.filter fun x => decide (n < x.bell)
    runs := b.runs.filter fun r => decide (n < r.1)
    holdFor := if until_ = 0 then b.holdFor else some (n + depthD s.rs, until_) }
  let s := if i = portSite then s.ringCommit n else s
  if s.isPort i = false then s else
  let s := s.setF Reg.BELL_STATUS Fld.BELL_STATUS_REPLAYS 0
  let s := if until_ = 0 then s else
    (s.bump Reg.BELL_CNT_LATE_COMMIT Fld.BELL_CNT_LATE_COMMIT_COUNT 1).raise mcSite 0x0102 []
  s.syncBellRegs

/-- The bell that a site commits next. -/
def SiteBell.nextCommit (b : SiteBell) : Nat :=
  match b.committed with
  | some n => n + 1
  | none => 0

/-- CLEAR (R134, R135, R144): the oldest uncommitted bell commits. `flaws` is what a bridge's apply reads
meet in its fix area (R173, R177). -/
def execClearFrame (site : Site) (bell : BitVec 48) (until_ : BitVec 64) (flaws : Flaws) (rx : Rx) (s : State) :
    Out :=
  let i := site.val
  let n := bell.toNat
  match s.hears i rx with
  | (s, false) => .next s
  | (s, true) =>
    let s := s.relay i .clear n until_.toNat
    let b := s.bellAt i
    if b.life = .notStarted ∨ n ≠ b.nextCommit ∨ (b.life = .abandoning ∧ b.startBell ≤ n) then .next s
    else .next (s.commitAt i n until_.toNat flaws)

/-! ### REPLAY and HOLD (R136 to R139, R148 to R150) -/

/-- A site abandons bell `n` and the bells after it (R137, R271, R292, R295). -/
def State.abandonAt (s : State) (i n : Nat) : State :=
  let s := s.abandonAll i (s.busyCores i)
  let s := if 8 ≤ i ∧ i < 28 then s.abandonEngine i else s
  let s := if siteKind i = .bridge then s.fixDiscard i n else s
  let s := if i = portSite then s.ringAbandon else s
  s.setBell i { s.bellAt i with
    guard := false, fault := false, lost := false, ext := 0, closed := none, holdFor := none, sheet := none }

/-- The vote node's site hears that bell `n` is abandoned: a node below the root forgets what it held (R133). -/
def State.nodeAbandons (s : State) (n : Nat) : State :=
  if isRoot s.rs then { s with node := s.node.forget n } else
  let node := { s.node.forget n with mute := true, passed := if n = 0 then none else some (n - 1) }
  { s with node := node }

/-- May a REPLAY or HOLD of bell `n` act on a site? It names the oldest uncommitted bell. -/
def SiteBell.abandonable (b : SiteBell) (n : Nat) : Bool :=
  decide (b.life ≠ .notStarted) && decide (n = b.nextCommit) &&
  !((decide (b.life = .held) || decide (b.life = .settling)) && decide (b.startBell ≤ n))

/-- REPLAY (R136, R137). -/
def execReplayFrame (site : Site) (bell : BitVec 48) (start : BitVec 64) (rx : Rx) (s : State) : Out :=
  let i := site.val
  let n := bell.toNat
  match s.hears i rx with
  | (s, false) => .next s
  | (s, true) =>
    let s := s.relay i .replay n start.toNat
    if (s.bellAt i).abandonable n = false then .next s else
    let s := s.abandonAt i n
    let s := s.setBell i { s.bellAt i with life := .abandoning, start := some start.toNat, startBell := n }
    if s.isPort i = false then .next s else
    let s := s.nodeAbandons n
    let s := s.bump Reg.BELL_CNT_REPLAY Fld.BELL_CNT_REPLAY_COUNT 1
    let s := s.setF Reg.BELL_STATUS Fld.BELL_STATUS_REPLAYS (min 3 (s.getF Reg.BELL_STATUS Fld.BELL_STATUS_REPLAYS + 1))
    .next s.syncBellRegs

/-- A site stops at once and holds before bell `n` (R150). -/
def State.holdAtOnce (s : State) (i n reason : Nat) : State :=
  let s := (s.abandonAt i n).restoreTo i n
  let s := s.setBell i { s.bellAt i with settleB := none, pendHold := none }
  let s := (s.stopBefore i .held n).holdReason i reason
  if s.isPort i then (s.nodeAbandons n).packageHolds reason n else s

/-- HOLD (R148 to R150): a hold request is kept for the boundary that it names; every other reason acts at once. -/
def execHoldFrame (site : Site) (bell : BitVec 48) (reason : Fin 8) (rx : Rx) (s : State) : Out :=
  let i := site.val
  let n := bell.toNat
  match s.hears i rx with
  | (s, false) => .next s
  | (s, true) =>
    let s := s.relay i .hold n reason.val
    let b := s.bellAt i
    if reason.val = 3 then
      .next (if b.executing = true ∨ b.life = .lateHold ∨ b.life = .abandoning then
        s.setBell i { b with pendHold := some n } else s)
    else if reason.val ≠ 1 ∧ reason.val ≠ 2 then .next s
    else if b.abandonable n = false then .next s
    else .next (s.holdAtOnce i n reason.val)

/-- What belongs to the package at a START of bell `n` (R22 step 3, R319) takes effect before its first site begins,
whichever that is. -/
def State.startSteps (s : State) (resume : Bool) (n t : Nat) : State :=
  if s.node.started = some (n, t) then s else
  let s := if resume then s.settledBoundary n else s.activateNext
  { s with node := { s.node with started := some (n, t) } }

/-- A bell begins at START (R137, R150): state clears, phase, step base and fills are those the bell began with, tithes
reload. A site whose package is not ready runs no bell and votes FAULT for it (R320); nor does one, at a RESUME boundary,
whose package's configuration uses a site that is not live or a core that is not enabled, which the MC reports (R345,
R422). -/
def State.startAt (s : State) (i : Nat) (resume : Bool) (t : Nat) : State :=
  let n := (s.bellAt i).startBell
  let s := s.startSteps resume n t
  let s := ((s.restoreTo i n).clearTokens i).switchTo i n
  let s := s.titheReload i
  let s := if resume then s.endHoldBrackets i else s
  let s := if 8 ≤ i ∧ i < 28 then s.syncRed i else s
  let miss := if resume then s.barred else s.notReady
  let s := if s.notReady then s.raise i 0x0907 [] else if miss && s.isPort i then s.raise mcSite 0x0907 [] else s
  let b := s.bellAt i
  let again := b.runs.any fun r => decide (r.1 = n)
  let s := s.setBell i { b with
    fault := false, lost := false
    pendHold := if resume then none else b.pendHold
    settleB := if resume then none else b.settleB }
  let s := s.beginBell i n (t - n * periodNs s.rs) true again miss
  let s := if s.isPort i then s.trySettle else s
  if i = portSite then s.ringReserve n else s

/-- REPLAY_START (R137). -/
def execReplayStart (site : Site) (s : State) : Out :=
  let i := site.val
  let b := s.bellAt i
  match b.start with
  | none => .next s
  | some t => .next (if s.live i = true ∧ b.life = .abandoning ∧ t ≤ s.vt then s.startAt i false t else s)

/-! ### RESUME and SETTLE (R150 to R152, R332) -/

/-- RESUME (R150, R332): a site that holds, or has not begun, notes START. -/
def execResumeFrame (site : Site) (bell : BitVec 48) (start : BitVec 64) (rx : Rx) (s : State) : Out :=
  let i := site.val
  let n := bell.toNat
  match s.hears i rx with
  | (s, false) => .next s
  | (s, true) =>
    let s := s.relay i .resume n start.toNat
    let b := s.bellAt i
    if (b.life ≠ .notStarted ∧ b.settled = false) ∨ n ≠ b.nextCommit then .next s else
    let s := s.setBell i { b with start := some start.toNat, startBell := n }
    if s.isPort i = false then .next s else
    let s := s.setF Reg.BELL_STATUS Fld.BELL_STATUS_REPLAYS 0
    .next (if isRoot s.rs then s else
      { s with node := { s.node.forget 0 with passed := b.committed, mute := true, settleAt := none } })

/-- RESUME_START (R150): at START bell BELL_COMMITTED + 1 begins. -/
def execResumeStart (site : Site) (s : State) : Out :=
  let i := site.val
  let b := s.bellAt i
  match b.start with
  | none => .next s
  | some t =>
    .next (if s.live i = true ∧ (b.life = .notStarted ∨ b.life = .held ∨ b.life = .settling) ∧ t ≤ s.vt then
      s.startAt i true t else s)

/-- SETTLE (R151): the site holds before bell B. -/
def execSettleFrame (site : Site) (bell : BitVec 48) (rx : Rx) (s : State) : Out :=
  let i := site.val
  let n := bell.toNat
  match s.hears i rx with
  | (s, false) => .next s
  | (s, true) =>
    let s := s.relay i .settle n 0
    let b := s.bellAt i
    if b.executing = false ∧ b.life ≠ .lateHold ∧ b.life ≠ .abandoning then .next s else
    let s := s.setBell i { b with settleB := some n }
    .next (if s.isPort i then { s with node := { s.node with settleAt := some n } } else s)

/-- HOLD_PERIOD_BOUNDARY (R152): while a site holds or settles, each period of village time reloads its tithes, builds
a sheet and starts brackets; at a settled boundary of the package what is pending takes effect. -/
def execHoldPeriodBoundary (site : Site) (s : State) : Out :=
  let i := site.val
  let b := s.bellAt i
  if s.live i = false ∨ s.asleep = true ∨ (b.life ≠ .held ∧ b.life ≠ .settling) ∨ s.periodIdx b ≤ b.perIdx then .next s
  else
    let s := s.setBell i { b with perIdx := s.periodIdx b }
    let (s, sheet) := s.buildSheet i false false
    let s := (s.closeSheets i).liveUpdate i
    let s := if s.isPort i = true ∧ b.settled = true then s.settledBoundary b.startBell else s
    let s := (s.titheReload i).calBoundary i b.bell true
    .next (s.sendSheet i sheet)

/-! ### Lateness decisions (R146) and the other frames -/

/-- EXTEND (R146). -/
def execExtendFrame (site : Site) (bell : BitVec 48) (m : Fin 9) (rx : Rx) (s : State) : Out :=
  let i := site.val
  let n := bell.toNat
  match s.hears i rx with
  | (s, false) => .next s
  | (s, true) =>
    let s := s.relay i .extend n m.val
    let b := s.bellAt i
    if b.executing = false ∨ b.bell ≠ n ∨ b.guard = true ∨ b.closed.isSome = true ∨ m.val ≤ b.ext then .next s
    else .next ((s.setBell i { b with ext := m.val, life := .extended }).showBell i)

/-- CLOSE (R146): the guard start is fixed; every package counts the extensions and the late bell. -/
def execCloseFrame (site : Site) (bell : BitVec 48) (m : Fin 9) (forced : Bool) (rx : Rx) (s : State) : Out :=
  let i := site.val
  let n := bell.toNat
  match s.hears i rx with
  | (s, false) => .next s
  | (s, true) =>
    let s := s.relay i .close n (16 * bit forced + m.val)
    let b := s.bellAt i
    if b.executing = false ∨ b.bell ≠ n ∨ b.guard = true ∨ b.closed.isSome = true then .next s else
    .next ((s.setBell i { b with closed := some (m.val, forced) }).countClose i m.val forced)

/-- BELL (R200): a site whose own bell number differs reports BELL_MISMATCH. -/
def execBellFrame (site : Site) (bell : BitVec 48) (time : BitVec 64) (rx : Rx) (s : State) : Out :=
  let i := site.val
  match s.hears i rx with
  | (s, false) => .next s
  | (s, true) =>
    let b := s.bellAt i
    if b.life = .notStarted ∨ b.bell = bell.toNat then .next s
    else .next (s.raise i 0x0106 [b.bell % 2 ^ 16, bell.toNat % 2 ^ 16, time.toNat % 2 ^ 16])

/-- ANNOUNCE (R275, R276): each listening cluster of a compute stack raises its token by 1, provided the frame's bell is
the one being executed. -/
def execAnnounce (site : Site) (bell : BitVec 48) (arg : BitVec 64) (rx : Rx) (s : State) : Out :=
  let i := site.val
  let a := arg.toNat
  match s.hears i rx with
  | (s, false) => .next s
  | (s, true) =>
    if 8 ≤ i ∨ a / 2 ^ (56 + i) % 2 = 0 then .next s else
    let now := (s.bellAt i).executing && decide ((s.bellAt i).bell = bell.toNat)
    .next (((List.range 12).filter fun k => decide (a / 2 ^ (44 + k) % 2 = 1)).foldl (fun (s : State) k =>
      if now then s.raiseToken i (8 * k) (a / 2 ^ 20 % 2 ^ 12) 1
      else s.bump (Reg.CORE_STALE_INC i (8 * k)) Fld.CORE_STALE_INC_COUNT 1) s)

end Sys2Proof.Machine
end

