-- ==== Sys2Proof/Machine/Ckv.lean ====
section
/-!
DEFINITION. The check-value units (R465 to R467): compare jobs and streams. A unit's reads and writes of its own
package's memory happen inside its rows; what it reads from another package is an operand (log 26).
-/

namespace Sys2Proof.Machine

open Sys2Proof

/-- Site of a unit (R465): bridges, link engines, and the MC through S12. -/
def ckvSite (u : Nat) : Nat := if u < 12 then 8 + u else if u < 20 then 8 + u else 12

/-- Number of a unit as an issuer (R211): 1 at a bridge or link engine; the MC's own. -/
def ckvIssuer (u : Nat) : Nat := if u < 20 then 1 else 127

/-- The arguments that name a unit as the issuer of an access (R455). -/
def State.ckvArgs (s : State) (u : Nat) : List Nat := issuerArgs s.pkg (ckvSite u) (ckvIssuer u)

/-- STATE of a unit. -/
def State.ckvState (s : State) (u : Nat) : Nat := s.getF (Reg.CKV_STATUS u) Fld.CKV_STATUS_STATE
def State.setCkv (s : State) (u st : Nat) : State := s.setF (Reg.CKV_STATUS u) Fld.CKV_STATUS_STATE st

/-- Bytes done of the job that runs, and its CRC register. -/
def State.ckvAt (s : State) (u : Nat) : Nat × Nat := SMap.get (0, 0) s.ckv u

/-- The polynomial of a unit's job. -/
def State.ckvPoly (s : State) (u : Nat) : CrcPoly := crcSel (s.getF (Reg.CKV_CTRL u) Fld.CKV_CTRL_SEL)

/-- The job starts at its region's start. -/
def State.ckvBegin (s : State) (u : Nat) : State :=
  { s with ckv := SMap.set (0, 0) s.ckv u (0, (s.ckvPoly u).init) }

/-- START: it starts a job, whose requester the unit keeps (R449), or stops the one that runs (R468). -/
def State.ckvStart (s : State) (r : Requester) (u : Nat) : State :=
  if s.ckvState u = 1 then s.setCkv u 0
  else
    let s := { s with ckvBy := SMap.set Requester.mc s.ckvBy u r }
    ((s.setCkv u 1).setF (Reg.CKV_STATUS u) Fld.CKV_STATUS_PASSES 0).ckvBegin u

/-- CKV_START (R466, R468): a write from the MC, an operator or a CTX0 host core. -/
def execCkvStart (r : Requester) (unit : Fin 24) (s : State) : Out :=
  .next (if s.trusted r then s.ckvStart r unit else s)

/-- A job of CTX0, or of a unit of the MC, is one access of CTX0: before its first bytes move it is entered in the ledgers of
the contexts whose bytes its region holds (R440, R449): kind 4 a read, kind 5 a write. -/
def State.ckvLedger (s : State) (u kind : Nat) : State :=
  let len := (s.reg (Reg.CKV_LEN u)).toNat
  if (s.getF (Reg.CKV_CTRL u) Fld.CKV_CTRL_CTX ≠ 0 ∧ u < 20) ∨ (s.ckvAt u).1 ≠ 0 ∨ len = 0 ∨
      s.getF (Reg.CKV_STATUS u) Fld.CKV_STATUS_PASSES ≠ 0 then s
  else
    let who := ledgerWho (SMap.get Requester.mc s.ckvBy u)
    s.ledgerTouch kind who.1 who.2 (s.reg (Reg.CKV_ADDR u)).toNat len

/-- The status with which a unit's access to its own package fails before it reaches memory (R230, R441). The MC's units are
not bound by contexts and windows (R440). -/
def State.ckvFails (s : State) (u g n : Nat) (rd wr : Bool) : Option Nat :=
  let ctx := s.getF (Reg.CKV_CTRL u) Fld.CKV_CTRL_CTX
  let site := gSite g
  if s.live site = false ∨ (site ≠ ckvSite u ∧ s.fencedAt (ckvSite u) site = true) then some stFenced
  else if u < 20 ∧ s.ctxFits site ctx (gOff g) n = false then some stCtx
  else if s.rangeFits site ctx (gOff g) n (decide (20 ≤ u)) rd wr = false then some stWindow
  else if rd ∧ siteKind site = .stack ∧ (fillWindowOf (gOff g) n).isSome = true then some stWindow
  else none

/-- Read a unit's bytes: of another package they are those that the packets bring. -/
def State.ckvRead (s : State) (u g n : Nat) (far : List Byte) (flaws : Flaws) : State × Option Nat × List Byte :=
  if gPkg g ≠ s.pkg then (s, none, fitBytes n far) else
  match s.ckvFails u g n true false with
  | some st => (s.raiseStatus (ckvSite u) st (s.ckvArgs u), some st, [])
  | none =>
    match (s.ckvLedger u 4).readCheck (gSite g) (gOff g) n flaws (decide (gSite g ≠ ckvSite u)) (s.ckvArgs u) with
    | (s, some st) => (s, some st, [])
    | (s, none) => (s, none, s.readMem (gSite g) (gOff g) n)

/-- The value of a finished CRC register. -/
def crcFinish (c : CrcPoly) (x : Nat) : Nat := x ^^^ c.xorOut

/-- A pass is complete: PASSES counts it. -/
def State.ckvPass (s : State) (u : Nat) : State := s.bump (Reg.CKV_STATUS u) Fld.CKV_STATUS_PASSES 1

/-- A mismatch stops the job and is raised with the unit and its region (R466, R467), by the MC for its own units
(R455). -/
def State.ckvMismatch (s : State) (u : Nat) : State :=
  let g := (s.reg (Reg.CKV_ADDR u)).toNat
  (s.setCkv u 3).raise (if u < 20 then ckvSite u else mcSite) 0x0908 [u, g % 2 ^ 16, g / 2 ^ 16 % 2 ^ 16, g / 2 ^ 32 % 2 ^ 16, g / 2 ^ 48]

/-- CKV_JOB_DONE (R466): a compare job reads what its class-4 budget admits in this bell; at the region's end it
compares. -/
def execCkvJobDone (unit : Fin 24) (far : List Byte) (flaws : Flaws) (s : State) : Out :=
  let u := unit.val
  let i := ckvSite u
  if s.ckvState u ≠ 1 ∨ s.getF (Reg.CKV_CTRL u) Fld.CKV_CTRL_MODE = 1 then .next s else
  let (done, crc) := s.ckvAt u
  let len := (s.reg (Reg.CKV_LEN u)).toNat
  let room := if s.titheOn i then s.titheBudgetOf i 4 - SMap.get 0 (s.tithe i).used 4 else len
  let n := min (len - done) room
  match s.titheTry i 4 n with
  | (s, false) => .next s
  | (s, true) =>
    let g := ((s.reg (Reg.CKV_ADDR u)).toNat + done) % 2 ^ 64
    match (if n = 0 then (s, none, []) else s.ckvRead u g n far flaws) with
    | (s, some _, _) => .next (s.setCkv u 3)
    | (s, none, bs) =>
      let crc := bs.foldl (s.ckvPoly u).byte crc
      if done + n < len then .next ({ s with ckv := SMap.set (0, 0) s.ckv u (done + n, crc) }.titheStall i 4) else
      let v := crcFinish (s.ckvPoly u) crc
      let s := s.setF (Reg.CKV_RESULT u) Fld.CKV_RESULT_VALUE v
      if v ≠ (s.reg (Reg.CKV_EXPECT u)).toNat then .next (s.ckvMismatch u)
      else if s.getF (Reg.CKV_CTRL u) Fld.CKV_CTRL_REPEAT = 1 then .next ((s.ckvPass u).ckvBegin u)
      else .next ((s.ckvPass u).setCkv u 2)

/-- Bytes of an appended check value (R467). -/
def ckvBytes (sel v : Nat) : List Byte := if sel = 2 then leBytes 8 v else leBytes 4 v

/-- CKV_STREAM_CHUNK (R467): the next chunk goes out with its check value, or comes in as `data` with one, which is
checked and stripped before the chunk is written. -/
def execCkvStreamChunk (unit : Fin 24) (data : Option (List Byte)) (far : List Byte) (flaws : Flaws) (s : State) : Out :=
  let u := unit.val
  let i := ckvSite u
  let sel := s.getF (Reg.CKV_CTRL u) Fld.CKV_CTRL_SEL
  if s.ckvState u ≠ 1 ∨ s.getF (Reg.CKV_CTRL u) Fld.CKV_CTRL_MODE = 0 then .next s else
  let done := (s.ckvAt u).1
  let len := (s.reg (Reg.CKV_LEN u)).toNat
  let n := min (len - done) (1024 * s.getF (Reg.CKV_CTRL u) Fld.CKV_CTRL_CHUNK)
  let g := ((s.reg (Reg.CKV_ADDR u)).toNat + done) % 2 ^ 64
  let next := fun (s : State) (v : Nat) =>
    let s := (s.setF (Reg.CKV_RESULT u) Fld.CKV_RESULT_VALUE v).ckvPass u
    let s := { s with ckv := SMap.set (0, 0) s.ckv u (done + n, 0) }
    if len ≤ done + n then s.setCkv u 2 else s
  match data with
  | none =>
    match s.ckvRead u g n far flaws with
    | (s, some _, _) => .next (s.setCkv u 3)
    | (s, none, bs) =>
      let v := (s.ckvPoly u).calc bs
      .next ((next s v).emit (.stream u (bs ++ ckvBytes sel v)))
  | some bs =>
    let body := fitBytes n bs
    let v := (s.ckvPoly u).calc body
    if bs ≠ body ++ ckvBytes sel v then .next ((s.setF (Reg.CKV_RESULT u) Fld.CKV_RESULT_VALUE v).ckvMismatch u)
    else if gPkg g ≠ s.pkg then .next ((next s v).emit (.stream u body))
    else match s.ckvFails u g n false true with
      | some st => .next ((s.setCkv u 3).raiseStatus i st (s.ckvArgs u))
      | none => .next ((next (s.ckvLedger u 5) v).storeRun (s.getF (Reg.CKV_CTRL u) Fld.CKV_CTRL_CTX) (gSite g) (gOff g) body)

end Sys2Proof.Machine
end

