-- ==== Sys2Proof/Machine/Start.lean ====
section
/-!
DEFINITION. The cold start (R330 to R332) with the boot stages (R445), and the resets that begin one. Steps 1 to 7
are one command, whose operand says what fails; steps 8 to 11 follow from commands and from the clock.
-/

namespace Sys2Proof.Machine

open Sys2Proof

/-! ### Boot stages (R445, R464) -/

/-- How an image of a component fares: 0 it verifies, 1 signature, 2 rollback, 3 absent (R445). -/
def bankFault (c : FwComp) (second bad : Bool) : Nat :=
  match (if second then c.b else c.a) with
  | none => 3
  | some i => if bad then 1 else if i.version < c.counter then 2 else 0

/-- The image that a component starts from: the bank to try first, else the other (R464); the fault of the first
where neither verifies. -/
def bootBank (bad : List (Fin 4 × Bool)) (c : FwComp) (n : Nat) : Nat × Bool :=
  let isBad := fun (second : Bool) => bad.any fun e => decide (e.1.val = n) && decide (e.2 = second)
  let first := bankFault c c.second (isBad c.second)
  if first = 0 then (0, c.second)
  else if bankFault c (!c.second) (isBad (!c.second)) = 0 then (0, !c.second)
  else (first, c.second)

/-- The bytes of an image of a component. -/
def FwComp.bytes (c : FwComp) (second : Bool) : List Byte :=
  match (if second then c.b else c.a) with
  | some i => i.stage
  | none => []

/-- Extend a measurement register (R445). -/
def State.extend (s : State) (m : Nat) (stage : List Byte) : State :=
  { s with meas := (List.range 4).map fun i =>
      if i = m then sha256 (s.measAt m ++ sha256 stage) else s.measAt i }

/-- Verify and run component `n` (R445). On a failure SEC_STATUS names it and the sequence stops. -/
def State.bootStage (s : State) (bad : List (Fin 4 × Bool)) (n : Nat) (measure : State → List Byte → State) :
    State × Bool :=
  let c := s.firmware.getD n ⟨none, none, false, false, 0⟩
  match bootBank bad c n with
  | (0, second) =>
    let firmware := s.firmware.zipIdx.map fun p => if p.2 = n then { p.1 with second := second, runs := second } else p.1
    ((measure { s with firmware := firmware } (c.bytes second)).setF Reg.SEC_STATUS Fld.SEC_STATUS_STAGE (n + 1), true)
  | (f, _) => (s.setF Reg.SEC_STATUS Fld.SEC_STATUS_FAIL f, false)

/-- Every stage has verified: the anti-rollback counters advance to the running versions (R464). -/
def State.bootDone (s : State) : State :=
  let up := fun (c : FwComp) => match (if c.second then c.b else c.a) with
    | some i => { c with counter := max c.counter i.version }
    | none => c
  { s with firmware := s.firmware.map up }.setF Reg.SEC_STATUS Fld.SEC_STATUS_STAGE 5

/-! ### Steps 1 to 7 -/

/-- The sites that come up: populated, not retired, their field alight, their lanes and their HBM3E trained. -/
def State.comesUp (s : State) (run : StartRun) (i : Nat) : Bool :=
  s.populated i && !(s.siteRetired i) && !(run.fields.any fun n => decide (n.val = homeField i)) &&
  !(run.lanes.any fun j => decide (j.val = i)) && !(run.hbmBad.any fun b => decide (bridgeSite b = i))

/-- A part that fails at the start is left out and reported, the host port and a refused guest under their site's number
(R331; log 25). -/
def State.partOut (s : State) (i : Nat) : State := (s.raise mcSite 0x0901 [i, 0, 0]).degraded

/-- Guest die `n` passes its verification: its site is populated and M2 measures its microcode (R452). -/
def State.guestIn (s : State) (n : Nat) (stage : List Byte) : State :=
  let s := s.setF Reg.CFG_SITE_MAP Fld.CFG_SITE_MAP_POPULATED
    (setBit (s.getF Reg.CFG_SITE_MAP Fld.CFG_SITE_MAP_POPULATED) (28 + n) true)
  (s.setF (Reg.SEC_GUEST n) Fld.SEC_GUEST_STATE 2).extend 2 (Config.siteCode stage (28 + n))

/-- Guest dies are admitted or refused (R452 step by step in the operand). -/
def State.admitGuests (s : State) (gs : List (Fin 4 × Fin 6)) (stage : List Byte) : State :=
  gs.foldl (fun (s : State) g =>
    let a := Reg.SEC_GUEST g.1
    if s.populated (28 + g.1) = true ∨ (g.2.val ≠ 0) then
      ((s.setF a Fld.SEC_GUEST_STATE 3).setF a Fld.SEC_GUEST_STEP g.2.val).partOut (28 + g.1)
    else s.guestIn g.1 stage) s

/-- The rows of a stack that hold a failing line of a retired page and are repaired: at most 64 (R175). -/
def State.rowsRepaired (s : State) (run : StartRun) (b : Nat) : List (Nat × Nat) :=
  (((run.repaired.filter fun e => decide (bridgeSite e.1 = b)).map fun e => (e.2.1.val, e.2.2.val)).eraseDups.filter
    fun e => decide (s.grnGet 14 b e.1 0 / 2 ^ e.2 % 2 = 1)).take 64

/-- Do repaired rows hold every failing line of a retired page (R175)? A page without a recorded failing line stays
(log 44). -/
def State.pageRepaired (s : State) (b : Nat) (rows : List (Nat × Nat)) (e : Nat) : Bool :=
  (rows.any fun r => decide (r.1 = e)) && (List.range 32).all fun l =>
    decide (s.grnGet 14 b e 0 / 2 ^ l % 2 = 0) || decide ((e, l) ∈ rows)

/-- HBM3E training with hard repair (R175): a page whose failing lines all lie in repaired rows leaves the list. -/
def State.hbmUp (s : State) (run : StartRun) (b : Nat) : State :=
  let a := Reg.MEM_HBM_STATUS b
  if run.hbmBad.any (fun x => decide (bridgeSite x = b)) then s.setF a Fld.MEM_HBM_STATUS_STATE 4
  else
    let rows := s.rowsRepaired run b
    let mine := ((rows.map (·.1)).eraseDups).filter fun e => s.pageRepaired b rows e
    (mine.foldl (fun (s : State) e => s.grnDel 14 b e) s).setF a
      Fld.MEM_HBM_STATUS_STATE 2

/-- The image store and ledger area lie on the lowest live bridges (R307). -/
def State.placeStore (s : State) : State :=
  let bs := ((List.range 12).map (· + 8)).filter s.live
  let put := fun (s : State) (j : Nat) (valid site : Fld) => match bs[j]? with
    | some b => (s.setF Reg.CFG_STORE_MAP valid 1).setF Reg.CFG_STORE_MAP site b
    | none => s
  let s := put s 0 Fld.CFG_STORE_MAP_FULL0_VALID Fld.CFG_STORE_MAP_FULL0
  let s := put s 1 Fld.CFG_STORE_MAP_FULL1_VALID Fld.CFG_STORE_MAP_FULL1
  let s := put s 2 Fld.CFG_STORE_MAP_PART0_VALID Fld.CFG_STORE_MAP_PART0
  put s 3 Fld.CFG_STORE_MAP_PART1_VALID Fld.CFG_STORE_MAP_PART1

/-- Gateways of live sites open with each other's epochs; every other site is fenced (R16, R336). -/
def State.gatewaysUp (s : State) : State :=
  let dark := ((List.range 32).filter fun j => !(s.live j)).foldl (fun m j => m + 2 ^ j) 0
  (List.range 32).foldl (fun (s : State) i =>
    if s.live i then
      let s := s.setF (Reg.GW_FENCE i) Fld.GW_FENCE_PEERS dark
      let epochs := s.liveSites.foldl (fun m j =>
        if j = i then m else SMap.set 0 m j (s.getF (Reg.GW_EPOCH j) Fld.GW_EPOCH_EPOCH)) []
      s.setGw i { s.gw i with silent := false, issueStop := false, epochs := epochs }
    else s.setGw i { s.gw i with silent := true, issueStop := true }) s

/-- The sites that come up train their lanes and are LIVE; every other that is populated is left out (R331). -/
def State.lanesUp (s : State) (up : List Nat) : State :=
  (List.range 32).foldl (fun (s : State) i =>
    if i ∈ up then (s.siteLanesUp i).setLive i true
    else if s.populated i ∧ s.siteRetired i = false then s.partOut i else s) s

/-- Steps 4 to 6: rails, microcode, lanes, crossings, HBM3E, LIVE. -/
def State.sitesUp (s : State) (run : StartRun) : State :=
  let s := ((List.range 12).map (· + 8)).foldl (fun (s : State) b => s.hbmUp run b) s
  let up := (List.range 32).filter (s.comesUp run)
  let s := s.lanesUp up
  let s := ({ s with lit := up } : State).swapCombs
  let s := s.pairsUp up
  let s := s.calibrateXings fun _ => true
  (s.gatewaysUp).placeStore

/-- Step 7: host cores run, the port links up. -/
def State.hostsUp (s : State) (run : StartRun) : State :=
  let s := (List.range 64).foldl (fun (s : State) h =>
    if s.live (h / 8) ∧ s.hostRole h = 0 then s.setF (Reg.HOST_CORE_STATUS h) Fld.HOST_CORE_STATUS_STATE 1 else s) s
  if s.live portSite ∧ run.port then (s.trainPort run.ok800).portTick
  else if s.live portSite then (s.setF Reg.HOST_PORT_STATUS Fld.HOST_PORT_STATUS_STATE 1).partOut portSite else s

/-- A cold start of a module without supply up to the staging of an image (R330 steps 1 to 7; log 25). It stops at step 1
where VHOLD has not reached 45 V (R397). -/
def State.coldStart (s : State) (run : StartRun) : State :=
  let s := { s with
    power := { s.power with on := true, inReset := false }, lms := s.lms.restart, debugUsed := false, vc := { s.vc with joins := run.joins } }
  let s := s.setF Reg.PWR_STATUS Fld.PWR_STATUS_VHOLD_OK (bit run.holdup)
  let (s, ok) := s.bootStage run.badFirmware 0 fun s bs => s.extend 0 bs
  if !ok then s else
  let (s, ok) := s.bootStage run.badFirmware 1 fun s bs => s.extend 1 bs
  if !ok then s else
  let s := match s.fixed with
    | [] => s
    | _ :: _ => s.setF Reg.PWR_FIX Fld.PWR_FIX_MERGED 1
  let s := s.setF Reg.GRN_STATUS Fld.GRN_STATUS_COPY_BAD (bit run.mapBad)
  let s := (s.setF Reg.CFG_SITE_MAP Fld.CFG_SITE_MAP_POPULATED 0x0FFFFFFF).countRoles
  if !run.holdup then s.raise mcSite 0x0B02 [] else
  let (s, ok) := s.bootStage run.badFirmware 2 fun s bs =>
    ((List.range 28).foldl (fun (s : State) i => s.extend 2 (Config.siteCode bs i)) s).admitGuests run.guests bs
  if !ok then s.setStep 4 else
  let s := s.sitesUp run
  let (s, ok) := s.bootStage run.badFirmware 3 fun s bs => s.extend 3 bs
  let s := s.setStep 7
  if !ok then s else
  let s := (s.bootDone.hostsUp run).setPwrState 1
  s.setF Reg.PWR_STATUS Fld.PWR_STATUS_PHASES (max 4 (phasesFor (s.forecast fun _ => 0)))

/-- COLD_START (R330, R332): VIN reaches 44 V at a module without supply. -/
def execColdStart (run : StartRun) (s : State) : Out :=
  .next (if s.power.on ∨ s.power.inReset then s else s.coldStart run)

/-- The module stays in reset, though supplied (R477). -/
def State.heldReset (s : State) : State := { s with power := { s.power with inReset := true } }
/-- The module is reset and stays so while RESET_N is low (R477). -/
def State.intoReset (s : State) : State := s.powerOff.heldReset

/-- RESET_N (R333, R477): low for 10 µs, the module is reset and stays so; at the rising edge a cold start runs with the
supply present. -/
def execResetN (pin : ResetPin) (s : State) : Out :=
  match pin with
  | .low => .next (if s.power.on then s.intoReset else s)
  | .high run => .next (if s.power.inReset then s.coldStart run else s)

/-! ### Steps 9 to 11 with the clock (R348, R368) -/

/-- Step 10 begins: a seeded package loads its epoch and is locked, any other, and any that joins a running system, waits
for a serving link's first TIMESTAMP (R368; log 25). -/
def State.clockStarts (s : State) : State :=
  if s.getF Reg.CLK_VC_CTRL Fld.CLK_VC_CTRL_SEED = 1 ∧ s.vc.joins = false then
    let t := if s.getF Reg.CLK_VC_CTRL Fld.CLK_VC_CTRL_EPOCH_VALID = 1 then (s.reg Reg.CLK_VC_EPOCH).toNat else 0
    { s with vt := t, vtFrac := 0, vc := { s.vc with linkAt := t, servoAt := t, tempAt := t, sum := 0 } }.setF Reg.CLK_VC_STATUS
      Fld.CLK_VC_STATUS_STATE 1
  else { s with vc := { s.vc with waits := true } }.setF Reg.CLK_VC_STATUS Fld.CLK_VC_STATUS_STATE 2

/-- What a tick of the oscillator does for a start that is under way: its time passes; training done, step 10
begins; the clock locked, READY sets. -/
def State.startTick (s : State) : State :=
  if s.power.on = false ∨ s.getF Reg.CFG_START_STATUS Fld.CFG_START_STATUS_READY = 1 then s else
  let s := { s with startedFor := s.startedFor + 1 }
  if s.startStep = 9 then
    if (List.range 68).any fun x => decide (s.linkState x = 1) then s else (s.setStep 10).clockStarts
  else if s.startStep = 10 ∧ s.vcLocked = true then
    (s.setStep 11).setF Reg.CFG_START_STATUS Fld.CFG_START_STATUS_READY 1
  else s

end Sys2Proof.Machine
end

