-- ==== Sys2Proof/Machine/View.lean ====
section
/-!
DEFINITION. What a read of a register returns (R6): its stored value without WO and reserved fields, with the fields
that follow other state laid over it.
-/

namespace Sys2Proof.Machine

open Sys2Proof

/-- The bits of a register's fields whose access code has a property. -/
def rowBits (row : RegRow) (p : Access → Bool) : BitVec 64 :=
  row.flds.foldl (fun m r => if p r.acc then m ||| r.fld.mask else m) 0

/-- The fields that a read returns (R6). -/
def Access.reads : Access → Bool
  | .ro | .rw | .w1c | .w1s => true
  | .wo | .rsv => false

/-- Lay a number over a field. -/
def lay (v : BitVec 64) (f : Fld) (x : Nat) : BitVec 64 := f.put v (min x f.max)

/-- Word `i` of a digest (R454): bytes 4i to 4i + 3, little-endian. -/
def digestWord (d : List Byte) (i : Nat) : Nat := leNat ((d.drop (4 * i)).take 4)

/-- Entries of the granary map of a type at a site, with a property of INDEX and VALUE. -/
def State.grnCount (s : State) (type site : Nat) (p : Nat → Nat → Bool) : Nat :=
  (s.grn.filter fun kv => decide (kv.1 / 2 ^ 32 = grnKey type site 0 / 2 ^ 32) && p (kv.1 % 2 ^ 32) kv.2).length

/-- GRN_SITE (R433). -/
def State.viewSite (s : State) (i : Nat) (v : BitVec 64) : BitVec 64 :=
  let tx := fun (j : Nat) => !(s.ctrlUp i j 34) && !(s.ctrlUp i j 35) && s.live i && s.live j && decide (i ≠ j)
  let v := lay v Fld.GRN_SITE_RETIRED (bit (s.siteRetired i))
  let v := lay v Fld.GRN_SITE_C4_USED (bit (decide (s.grnGet 7 i 4 1 % 8 = 0)))
  let v := lay v Fld.GRN_SITE_TRIPLE_DEGRADED (bit (decide (0 < s.grnCount 12 i fun _ _ => true)))
  let v := lay v Fld.GRN_SITE_HALF_WIDTH (bit (decide (0 < s.grnCount 11 i fun n _ => decide (65536 ≤ n))))
  let v := lay v Fld.GRN_SITE_CTRL_INBAND (bit ((List.range 32).any tx))
  let v := lay v Fld.GRN_SITE_SYNC_SINGLE (bit (s.grnHas 5 i (2048 + 36) || s.grnHas 5 i (2048 + 37)))
  let v := lay v Fld.GRN_SITE_LANES_USED (s.grnCount 4 i fun _ c => decide (c ≠ 62))
  let v := lay v Fld.GRN_SITE_TRIPLE_CNT (s.grnCount 12 i fun _ _ => true)
  lay v Fld.GRN_SITE_BOND_SPARED (s.grnCount 11 i fun n _ => decide (n < 65536))

/-- GRN_FREE (R433). -/
def State.viewFree (s : State) (v : BitVec 64) : BitVec 64 :=
  let links := ([64, 65, 66, 67].filter fun x => decide (s.grnGet 9 0xFFFF x 0 = 0)).length
  let combs := ((List.range 32).filter fun i => s.populated i && decide (s.grnGet 7 i 4 1 % 8 = 1)).length
  let v := lay (lay v Fld.GRN_FREE_LINKS links) Fld.GRN_FREE_HOSTS (s.countHosts 1)
  lay (lay v Fld.GRN_FREE_CORES (s.countCores 1)) Fld.GRN_FREE_COMBS combs

/-- MEM_SPARE of a compute stack (R178): a port has 32 spare groups. -/
def State.viewSpare (s : State) (k : Nat) (v : BitVec 64) : BitVec 64 :=
  let best := (List.range 64).foldl (fun (m : Nat × Nat) p =>
    if 32 - s.sparesUsed k p < m.1 then (32 - s.sparesUsed k p, p) else m) (33, 0)
  let v := lay v Fld.MEM_SPARE_RETIRED (s.grnCount 13 k fun _ c => decide (c ≠ 0x200))
  lay (lay v Fld.MEM_SPARE_MIN_SPARE best.1) Fld.MEM_SPARE_PORT best.2

/-- MEM_RETIRE_ENTRY `i` of a bridge (R179): a retired page of the map, or a queued one. -/
def State.viewRetire (s : State) (b i : Nat) (v : BitVec 64) : BitVec 64 :=
  if s.grnHas 14 b i then
    let x := s.grnGet 14 b i 0
    let v := lay (lay v Fld.MEM_RETIRE_ENTRY_STATE 1) Fld.MEM_RETIRE_ENTRY_LOST (x / 2 ^ 62 % 2)
    lay (lay v Fld.MEM_RETIRE_ENTRY_PAGE (x / 2 ^ 32 % 2 ^ 30)) Fld.MEM_RETIRE_ENTRY_LINES (x % 2 ^ 30)
  else match (s.bridgeAt b).queue.find? fun q => decide (q.entry = i) with
    | some q => lay (lay v Fld.MEM_RETIRE_ENTRY_STATE (if q.uncorr then 3 else 2)) Fld.MEM_RETIRE_ENTRY_PAGE q.page
    | none => v

/-- GW_RED_SLICE and GW_RED_SLICE2 of a group at an engine (R278). -/
def State.viewSlice (s : State) (i g : Nat) (second : Bool) (v : BitVec 64) : BitVec 64 :=
  match s.sliceHere g i with
  | none => 0
  | some (r, _, q) =>
    if second then
      let b := s.bellAt i
      let v := lay v Fld.GW_RED_SLICE2_CONTRIB_M1 (r.u32 16 - 1)
      if b.executing = false ∨ g ∉ s.activeGroups i b.bell then v else
      lay (lay v Fld.GW_RED_SLICE2_DONE (s.run i g b.bell).sent.length) Fld.GW_RED_SLICE2_COMPLETE
        (bit (s.run i g b.bell).complete)
    else
    let v := lay (lay v Fld.GW_RED_SLICE_VALID 1) Fld.GW_RED_SLICE_OP (r.u8 11)
    let v := lay (lay v Fld.GW_RED_SLICE_OUT_FMT (r.u8 14)) Fld.GW_RED_SLICE_RMODE (r.u8 15)
    let v := lay (lay v Fld.GW_RED_SLICE_CTX (r.u8 10)) Fld.GW_RED_SLICE_PHASE (r.u16 12)
    lay (lay v Fld.GW_RED_SLICE_BASE q.base) Fld.GW_RED_SLICE_LEN q.len

/-- HOST_RING_INFO and HOST_RING_INDEX of the ring that a requester has selected (R305). -/
def State.viewRing (s : State) (q : Requester) (index : Bool) (v : BitVec 64) : BitVec 64 :=
  let n := (SMap.get 0 s.ringSel q.num).toNat % 2 ^ 15
  match ringRec s.rs n with
  | none => 0
  | some r =>
    let x := s.ring n
    if index then lay (lay v Fld.HOST_RING_INDEX_CI x.ci) Fld.HOST_RING_INDEX_PI x.pi else
    let qpn := (ringQpn r).getD 0
    let st := if (ringQpn r).isSome ∧ qpn ∈ s.qpErr then 1 else if x.waitsRoom then 2 else 0
    let v := lay (lay v Fld.HOST_RING_INFO_VALID 1) Fld.HOST_RING_INFO_CTX (ringCtx r)
    let v := lay (lay v Fld.HOST_RING_INFO_KIND (ringKind r)) Fld.HOST_RING_INFO_LOG2_DEPTH (r.u8 11)
    lay (lay v Fld.HOST_RING_INFO_STATE st) Fld.HOST_RING_INFO_QPN qpn

/-- CAL_RING_ID (R391). -/
def State.viewRingId (s : State) (i n : Nat) (v : BitVec 64) : BitVec 64 :=
  if ringThere i n = false then 0 else
  let x := s.ringCal i n
  let v := lay (lay v Fld.CAL_RING_ID_STATE (s.ringState i n)) Fld.CAL_RING_ID_SEG (bit x.hb)
  let v := lay v Fld.CAL_RING_ID_SEG_FAILED (s.grnGet 8 i n 0 % 2)
  let v := lay v Fld.CAL_RING_ID_STALE (bit (s.ringBracket i n).isSome)
  lay (lay v Fld.CAL_RING_ID_FAILS x.fails) Fld.CAL_RING_ID_LOCKED (s.ringLocked i n)

/-- Registers of a matrix core that read 0 while the core is not enabled (R84). -/
def coreOwn : RegName → Bool
  | .CORE_SLACK | .CORE_SLACK_MIN | .CORE_MMA_CYC | .CORE_WAIT_CYC | .CORE_STRETCH | .CORE_VFLAGS | .CORE_PARITY_CNT
  | .CORE_CTRL | .CORE_SEQ_PC | .CORE_SEQ_PHASE | .CORE_SQUASH_CNT | .CORE_DYN_STATUS | .CORE_STALE_INC
  | .CORE_TOKEN => true
  | _ => false

/-- The fields of registers that follow other state. `q` is the requester: some registers are its own. -/
def State.overlay (s : State) (q : Requester) (name : RegName) (idx : List Nat) (v : BitVec 64) : BitVec 64 :=
  match name, idx with
  | .CORE_STATUS, [k, c] =>
    let role := s.coreRole k c
    let v := if (s.region (coreRegion k c)).stopped then lay v Fld.CORE_STATUS_STATE 5 else v
    lay (if role = 0 then v else 0) Fld.CORE_STATUS_ROLE role
  | .CORE_DYN_STATUS, [k, c] =>
    if s.coreRole k c = 0 then lay v Fld.CORE_DYN_STATUS_PENDING (s.core k c).fills.length else 0
  | .CFG_START_STATUS, _ => lay v Fld.CFG_START_STATUS_ELAPSED (s.startedFor / 1000000)
  | .GRN_FREE, _ => s.viewFree v
  | .GRN_MAP_DIGEST, [i] => lay v Fld.GRN_MAP_DIGEST_DIGEST (digestWord s.mapDigest i)
  | .GRN_WEAR_SEL, _ => (SMap.get 0 s.wearSel q.num).zeroExtend 64
  | .GRN_WEAR, _ =>
    let sel := (SMap.get 0 s.wearSel q.num).toNat
    lay v Fld.GRN_WEAR_COUNT (s.wearGet (sel / 2 ^ 28) (sel % 2 ^ 28))
  | .GRN_CORE_ROLE, [k, w] =>
    BitVec.ofNat 64 ((List.range 16).map fun m => s.coreRole k (16 * w + m) % 4 * 4 ^ m).sum
  | .GRN_HOST_ROLE, [k] => BitVec.ofNat 64 ((List.range 8).map fun j => s.hostRole (8 * k + j) % 4 * 4 ^ j).sum
  | .GRN_SITE, [i] => s.viewSite i v
  | .HOST_RING_SEL, _ => (SMap.get 0 s.ringSel q.num).zeroExtend 64
  | .HOST_RING_INFO, _ => s.viewRing q false v
  | .HOST_RING_INDEX, _ => s.viewRing q true v
  | .HOST_CORE_STATUS, [h] =>
    lay (lay v Fld.HOST_CORE_STATUS_CTX (s.hostCtx h)) Fld.HOST_CORE_STATUS_ROLE (s.hostRole h)
  | .HOST_PORT_STATUS, _ => lay v Fld.HOST_PORT_STATUS_MACSEC (bit (s.sas.any fun kv => decide (2 ^ 31 ≤ kv.1)))
  | .CLK_VC_NOW, _ => BitVec.ofNat 64 s.vt
  | .CLK_REGION_STATUS, [r] =>
    if s.regionHere r = false then lay 0 ⟨23, 21⟩ 5
    else if (s.region r).stopped = false ∧ s.vt < (s.region r).since then lay v Fld.CLK_REGION_STATUS_STATE 1 else v
  | .GW_TAGS, [i, n] =>
    lay (lay v Fld.GW_TAGS_QUARANTINED ((s.gw i).quarTags n)) Fld.GW_TAGS_LIVE ((s.gw i).liveTags n)
  | .LNK_ROUTE, [_, p] => lay v Fld.LNK_ROUTE_ENTRY (routeEntry s.rs p)
  | .LNK_BUNDLE, [_, b] => s.reg (Reg.LNK_BUNDLE 20 b)
  | .LNK_STATUS, [i, l] =>
    lay (lay v Fld.LNK_STATUS_DUAL (bit (decide (s.vt < (s.linkAt (linkNum (i - 20) l)).dualUntil))))
      Fld.LNK_STATUS_SPARE_WAVE (bit (s.spareWave (linkNum (i - 20) l)))
  | .MEM_SPARE, [k] => s.viewSpare k v
  | .MEM_RETIRE_STATUS, [b] =>
    let v := lay v Fld.MEM_RETIRE_STATUS_RETIRED (s.grnCount 14 b fun _ _ => true)
    let v := lay v Fld.MEM_RETIRE_STATUS_PENDING (s.bridgeAt b).queue.length
    lay v Fld.MEM_RETIRE_STATUS_LOST (s.grnCount 14 b fun _ x => decide (x / 2 ^ 62 % 2 = 1))
  | .MEM_RETIRE_ENTRY, [b, i] => s.viewRetire b i v
  | .GW_RED_SLICE, [i, g] => s.viewSlice i g false v
  | .GW_RED_SLICE2, [i, g] => s.viewSlice i g true v
  | .CAL_RING_HEAT, [i, n] => if ringThere i n then s.ringHeat i n else 0
  | .CAL_RING_ID, [i, n] => s.viewRingId i n v
  | .CAL_RING_POWER, [i, n] => lay v Fld.CAL_RING_POWER_POWER (s.ringPower i n)
  | .CAL_STATUS, [i] =>
    lay v Fld.CAL_STATUS_ACTIVE (s.bracketsAt i + (s.sensOut.filter fun e => decide (e.1 = i)).length)
  | .SEC_STATUS, _ =>
    lay (lay v Fld.SEC_STATUS_OPKEY (bit s.opkey.isSome)) Fld.SEC_STATUS_EXHAUSTED (bit s.lms.exhausted)
  | .SEC_LEAF, _ =>
    let v := lay (lay v Fld.SEC_LEAF_TOP_Q s.lms.top) Fld.SEC_LEAF_LOWER_Q s.lms.lower
    lay v Fld.SEC_LEAF_RESERVED_TO s.lms.resv
  | .SEC_MEAS, [m, i] => lay v Fld.SEC_MEAS_DIGEST (digestWord (s.measAt m) i)
  | .SEC_IDENT, [i] => lay v Fld.SEC_IDENT_DIGEST (digestWord (sha256 topKey) i)
  | .SEC_OPKEY, [i] => lay v Fld.SEC_OPKEY_DIGEST (match s.opkey with
    | some key => digestWord (sha256 key) i
    | none => 0)
  | .SEC_OPKEY_SEQ, _ => BitVec.ofNat 64 s.opkeySeq
  | .SEC_LEDGER_HEAD, [c, i] => lay v Fld.SEC_LEDGER_HEAD_VALUE (digestWord (s.ledger c).2 i)
  | .SEC_LEDGER_CNT, [c] => BitVec.ofNat 64 (s.ledger c).1
  | .PWR_FIX, _ => match s.fixed with
    | f :: _ => lay (lay v Fld.PWR_FIX_SEQ (f.seq % 2 ^ 16)) Fld.PWR_FIX_REASON f.reason
    | [] => v
  | .FAB_TX_PAIR, [i, j] => if i = j ∨ s.fencedAt i j = true ∨ s.live j = false then 0 else v
  | .FAB_RX_PAIR, [i, j] => if i = j ∨ s.fencedAt i j = true ∨ s.live j = false then 0 else v
  | .FAB_TX_STRIPE, [i, j] => if i = j ∨ s.fencedAt i j = true ∨ s.live j = false then 0 else v
  | .FAB_RX_STRIPE, [i, j] => if i = j ∨ s.fencedAt i j = true ∨ s.live j = false then 0 else v
  | name, k :: c :: _ => if coreOwn name = true ∧ s.coreRole k c ≠ 0 then 0 else v
  | _, _ => v

/-- The value of a register as a requester reads it: 64 bits, of which a 32-bit register has the low half. -/
def State.view (s : State) (q : Requester) (h : RegHit) : BitVec 64 :=
  s.overlay q h.row.name h.idx (s.reg h.addr) &&& rowBits h.row Access.reads

/-- The register that an address decodes to (R9, R10): the block of an empty or fenced guest site decodes to none. -/
def State.hit (s : State) (a : Nat) : Option RegHit :=
  let site := (a - 0x1000000000) / 0x10000000
  if 0x1000000000 ≤ a ∧ s.guestShut site = true then none else regAt a

/-! ### Reads (R8) -/

/-- The half of a register's value at a word address. -/
def half (v : BitVec 64) (high : Bool) : Nat := if high then v.toNat / 2 ^ 32 else v.toNat % 2 ^ 32

/-- A 32-bit read with the latch of its requester. -/
def State.read32 (s : State) (q : Requester) (a : Nat) : State × Nat :=
  match s.hit a with
  | none => (s.unmapped, 0)
  | some h =>
    let v := s.view q h
    if h.row.wide = false then (s, half v false)
    else if h.high then
      match s.rlatch.find? (fun kv => decide (kv.1 = q.num)) with
      | some (_, at_, w) =>
        if at_ = h.addr then ({ s with rlatch := SMap.del q.num s.rlatch }, w.toNat) else (s, half v true)
      | none => (s, half v true)
    else
      ({ s with rlatch := SMap.put q.num (h.addr, BitVec.ofNat 32 (half v true)) s.rlatch }, half v false)

/-- A half of a 64-bit access that starts elsewhere than at a 64-bit register's low word: no latch. -/
def State.readHalf (s : State) (q : Requester) (a : Nat) : State × Nat :=
  match s.hit a with
  | none => (s.unmapped, 0)
  | some h => (s, half (s.view q h) h.high)

/-- A read of one or two words (R8). -/
def State.ctrlRead (s : State) (q : Requester) (a : Nat) (wide : Bool) : State × BitVec 64 :=
  if wide = false then
    let (s, v) := s.read32 q a
    (s, BitVec.ofNat 64 v)
  else match s.hit a with
    | some h =>
      if h.row.wide ∧ h.high = false then (s, s.view q h)
      else
        let (s, lo) := s.readHalf q a
        let (s, hi) := s.readHalf q (a + 4)
        (s, BitVec.ofNat 64 (hi * 2 ^ 32 + lo))
    | none =>
      let (s, lo) := s.readHalf q a
      let (s, hi) := s.readHalf q (a + 4)
      (s, BitVec.ofNat 64 (hi * 2 ^ 32 + lo))

end Sys2Proof.Machine
end

