-- ==== Sys2Proof/Machine/Control.lean ====
section
/-!
DEFINITION. Writes of registers (R6, R8, R11) and the rows of control space: what each write does, who may make it, the
two latches of each requester, and unmapped accesses (R10).
-/

namespace Sys2Proof.Machine

open Sys2Proof

/-! ### Who may write (R112, R305, R308, R334, R354, R370, R414, R433, R454, R468) -/

/-- The MC, or a host core bound to CTX0 (R354, R370). -/
def State.keeper (s : State) : Requester → Bool
  | .mc => true
  | .host h => decide (s.hostCtx h = 0)
  | _ => false

/-- Does a register take a requester's write? -/
def State.mayWrite (s : State) (q : Requester) (h : RegHit) : Bool :=
  match h.row.name, h.idx with
  | .CORE_STEP_BASE, [k, ctx] => !(s.ctxResident ctx k)
  | .HOST_APERTURE, [n, _] => match q with
    | .mc => true
    | .host g => decide (g.val = n)
    | _ => false
  | .CFG_STAGE_RKEY, _ | .GW_RESET, _ | .FAB_FIELD_RESET, _ | .LNK_RESET, _ | .PWR_CTRL, _ | .PWR_WAKE_CODE, _
  | .GRN_CTRL, _ | .GRN_TARGET, _ | .DBG_TRACE, _ | .DBG_TRACE_BASE, _ | .CKV_CTRL, _ | .CKV_ADDR, _ | .CKV_LEN, _
  | .CKV_EXPECT, _ => s.trusted q
  | .CLK_VC_CTRL, _ | .CLK_VC_EPOCH, _ | .CLK_REGION_CTRL, _ => s.keeper q
  | .SEC_OPKEY_CTRL, _ => isOperator q
  | .SEC_ATTEST, _ => !(isOperator q)
  | _, _ => true

/-! ### Storing (R6) -/

/-- What a register holds after a write of the bits of `mask`: RW bits take the value, W1C bits written 1 clear, W1S
bits written 1 set, every other bit stays. -/
def storeBits (row : RegRow) (old v mask : BitVec 64) : BitVec 64 :=
  let on := v &&& mask
  let rw := rowBits row (fun a => decide (a = .rw))
  let w1c := rowBits row (fun a => decide (a = .w1c))
  let w1s := rowBits row (fun a => decide (a = .w1s))
  (((old &&& ~~~(mask &&& rw)) ||| (on &&& rw)) &&& ~~~(on &&& w1c)) ||| (on &&& w1s)

/-- Store a write in its register. -/
def State.store (s : State) (h : RegHit) (v mask : BitVec 64) : State :=
  s.setReg h.addr (storeBits h.row (s.reg h.addr) v mask)

/-! ### Actions -/

/-- The state of an answer. -/
def outState (s : State) : Out → State
  | .next t => t
  | _ => s

/-- Do one thing or nothing. -/
def State.also (s : State) (b : Bool) (f : State → State) : State := if b then f s else s

/-- A write of HOST_PORT_CTRL (R296, R305): a change of FORCE_400 and RETRAIN each train the link again, if it is up or
training; a write that does both trains it once. -/
def State.portCtrl (s : State) (force retrain : Bool) : State :=
  let old := s.getF Reg.HOST_PORT_CTRL Fld.HOST_PORT_CTRL_FORCE_400
  let s := s.setF Reg.HOST_PORT_CTRL Fld.HOST_PORT_CTRL_FORCE_400 (bit force)
  if (old = bit force ∧ retrain = false) ∨ s.getF Reg.HOST_PORT_STATUS Fld.HOST_PORT_STATUS_STATE = 0 then s
  else
    let (n, s) := s.takeFree
    s.trainPort (Config.portTrains n)


/-- A write that its register takes: `v` under `mask`; `on` says of a field that its written bits are not 0. -/
def State.regPut (s : State) (q : Requester) (h : RegHit) (v mask : BitVec 64) : State :=
  let w := v &&& mask
  let on := fun (f : Fld) => decide (f.get w = 1)
  match h.row.name, h.idx with
  | .CORE_CTRL, [k, c] =>
    (s.also (on Fld.CORE_CTRL_CLR_PARITY) fun s => s.clrParity k c).also (on Fld.CORE_CTRL_CLR_MIN) fun s => s.clrMin k c
  | .BELL_CTRL, _ =>
    let s := s.also (on Fld.BELL_CTRL_HOLD_REQ) fun s => outState s (execBellCtrlHoldReq s)
    s.also (on Fld.BELL_CTRL_RESUME) fun s => outState s (execBellCtrlResume s)
  | .MEM_CTRL, [b] => s.also (on Fld.MEM_CTRL_ACK_LOST) fun s => s.ackMemLost b
  | .LNK_CTRL, [e] => s.also (on Fld.LNK_CTRL_RESTORE) fun s => s.restore e
  | .HOST_PORT_CTRL, _ => s.portCtrl (on Fld.HOST_PORT_CTRL_FORCE_400) (on Fld.HOST_PORT_CTRL_RETRAIN)
  | .HOST_DOORBELL, _ =>
    s.doorbell q (Fld.HOST_DOORBELL_RING.get w) (!(on Fld.HOST_DOORBELL_SIDE)) (Fld.HOST_DOORBELL_INDEX.get w)
  | .HOST_RING_SEL, _ =>
    { s with ringSel := SMap.set 0 s.ringSel q.num (BitVec.ofNat 32 (Fld.HOST_RING_SEL_RING.get w)) }
  | .GRN_WEAR_SEL, _ => { s with wearSel := SMap.set 0 s.wearSel q.num (BitVec.ofNat 32 w.toNat) }
  | .CFG_CTRL, _ =>
    let part := on Fld.CFG_CTRL_KIND
    let slot := Fld.CFG_CTRL_SLOT.get w
    let s := (s.ctrlSlot part slot).also (on Fld.CFG_CTRL_CANCEL) fun s => s.cancel part slot
    s.also (on Fld.CFG_CTRL_ENABLE) fun s => s.enable part slot
  | .CFG_ACTIVATE, _ =>
    let x := storeBits h.row (s.reg h.addr) v mask
    s.writeActivate (decide (Fld.CFG_ACTIVATE_VALID.get x = 1)) (Fld.CFG_ACTIVATE_BELL.get x)
  | .CFG_ALT, _ => s.selectAlt (Fld.CFG_ALT_SELECT.get w)
  | .GW_RESET, [i] =>
    (s.also (on Fld.GW_RESET_ACK_LOST) fun s => s.ackLost i).requestReset q i (Fld.GW_RESET_REQUEST.get w)
  | .FAB_FIELD_RESET, [n] =>
    (s.also (on Fld.FAB_FIELD_RESET_RELEASE) fun s => s.releaseField n).also
      (on Fld.FAB_FIELD_RESET_RESET) fun s => s.resetField n
  | .LNK_RESET, [e] => s.resetLinks e (Fld.LNK_RESET_LINK.get w)
  | .CLK_REGION_CTRL, [r] => s.writeTarget q r (Fld.CLK_REGION_CTRL_TARGET.get w)
  | .PWR_CTRL, _ =>
    (s.also (on Fld.PWR_CTRL_SAFELIGHT) fun s => outState s (execSafelight q s)).also (on Fld.PWR_CTRL_WAKE) State.wake
  | .GRN_CTRL, _ =>
    (s.also (on Fld.GRN_CTRL_RETIRE_CORE) fun s => outState s (execRetireCore q s)).also
      (on Fld.GRN_CTRL_DRAW_HOST) fun s => outState s (execDrawHost q s)
  | .SEC_OPKEY_CTRL, _ =>
    s.also (on Fld.SEC_OPKEY_CTRL_GO) fun s => s.changeKey (BitVec.ofNat 48 (Fld.SEC_OPKEY_CTRL_ADDR.get w))
  | .SEC_ATTEST, _ => match q with
    | .host g => outState s (execSecAttest g (BitVec.ofNat 8 (Fld.SEC_ATTEST_CTX.get w))
        (BitVec.ofNat 48 (Fld.SEC_ATTEST_ADDR.get w)) s)
    | _ => s
  | .CKV_CTRL, [u] => (s.store h v mask).also (on Fld.CKV_CTRL_START) fun s => s.ckvStart q u
  | _, _ => s.store h v mask

/-- A write of a register by a requester. -/
def State.ctrlPut (s : State) (q : Requester) (h : RegHit) (v mask : BitVec 64) : State :=
  if s.mayWrite q h then s.regPut q h v mask else s

/-! ### Writes (R8) -/

/-- The bits of a register's low word, of its high word, and of all of it. -/
def lowMask : BitVec 64 := 0xFFFFFFFF
def highMask : BitVec 64 := 0xFFFFFFFF00000000
def allMask : BitVec 64 := 0xFFFFFFFFFFFFFFFF

/-- A 32-bit write with the latch of its requester. -/
def State.write32 (s : State) (q : Requester) (a : Nat) (v : BitVec 32) : State :=
  match s.hit a with
  | none => s.unmapped
  | some h =>
    let low := v.zeroExtend 64
    if h.row.wide = false then s.ctrlPut q h low lowMask
    else if h.high then { s with wlatch := SMap.put q.num (h.addr, v) s.wlatch }
    else match s.wlatch.find? (fun kv => decide (kv.1 = q.num)) with
      | some (_, at_, w) =>
        if at_ = h.addr then
          ({ s with wlatch := SMap.del q.num s.wlatch } : State).ctrlPut q h (low ||| (w.zeroExtend 64 <<< 32)) allMask
        else s.ctrlPut q h low lowMask
      | none => s.ctrlPut q h low lowMask

/-- A half of a 64-bit access that starts elsewhere than at a 64-bit register's low word: no latch. -/
def State.writeHalf (s : State) (q : Requester) (a : Nat) (v : BitVec 32) : State :=
  match s.hit a with
  | none => s.unmapped
  | some h =>
    if h.high then s.ctrlPut q h (v.zeroExtend 64 <<< 32) highMask else s.ctrlPut q h (v.zeroExtend 64) lowMask

/-- A write of one or two words (R8). -/
def State.ctrlWrite (s : State) (q : Requester) (a : Nat) (wide : Bool) (v : BitVec 64) : State :=
  let halves := (s.writeHalf q a (v.truncate 32)).writeHalf q (a + 4) ((v >>> 32).truncate 32)
  if wide = false then s.write32 q a (v.truncate 32)
  else match s.hit a with
    | some h => if h.row.wide ∧ h.high = false then s.ctrlPut q h v allMask else halves
    | none => halves

/-! ### The rows of control space -/

/-- REGISTER_WRITE (R6, R8, R11): a write of one word, or of two. -/
def execRegisterWrite (r : Requester) (addr : BitVec 40) (wide : Bool) (v : BitVec 64) (s : State) : Out :=
  if s.power.on then .next ((s.ctrlWrite r addr.toNat wide v).emit (.writeDone r)) else .next s

/-- Is an address the low word, or the high word, of a 64-bit register? -/
def State.wideWord (s : State) (a : Nat) (high : Bool) : Bool :=
  (s.hit a).any fun h => h.row.wide && decide (h.high = high)

/-- Answer a one-word read. -/
def State.answerRead (s : State) (q : Requester) (a : Nat) : State :=
  let (s, v) := s.ctrlRead q a false
  s.emit (.readData q false v)

/-- LATCHED_LOW_READ (R8): a one-word read that names no high word; of a 64-bit register it fills the read latch. -/
def execLatchedLowRead (r : Requester) (addr : BitVec 40) (s : State) : Out :=
  .next (if s.power.on = false ∨ s.wideWord addr.toNat true = true then s else s.answerRead r addr.toNat)

/-- LATCHED_HIGH_READ (R8). -/
def execLatchedHighRead (r : Requester) (addr : BitVec 40) (s : State) : Out :=
  .next (if s.power.on = true ∧ s.wideWord addr.toNat true = true then s.answerRead r addr.toNat else s)

/-- LATCHED_HIGH_WRITE (R8). -/
def execLatchedHighWrite (r : Requester) (addr : BitVec 40) (v : BitVec 32) (s : State) : Out :=
  .next (if s.power.on = true ∧ s.wideWord addr.toNat true = true then
    (s.write32 r addr.toNat v).emit (.writeDone r) else s)

/-- LATCHED_LOW_WRITE (R8). -/
def execLatchedLowWrite (r : Requester) (addr : BitVec 40) (v : BitVec 32) (s : State) : Out :=
  .next (if s.power.on = true ∧ s.wideWord addr.toNat false = true then
    (s.write32 r addr.toNat v).emit (.writeDone r) else s)

/-- UNMAPPED_ACCESS (R10): an access of one word at an address that decodes to no register. -/
def execUnmappedAccess (r : Requester) (addr : BitVec 40) (write : Bool) (s : State) : Out :=
  .next (if s.power.on = false ∨ (s.hit addr.toNat).isSome = true then s
    else s.unmapped.emit (if write then .writeDone r else .readData r false 0))

end Sys2Proof.Machine
end

