-- ==== Sys2Proof/Machine/HostIo.lean ====
section
/-!
DEFINITION. The loads and stores of host cores (R281 to R285): memory of the own site, of other sites and packages,
and control space.
-/

namespace Sys2Proof.Machine

open Sys2Proof

/-- HOST_LOAD (R282, R284): a load of `2^size` bytes, from the lines of a cached target or as an uncached access. -/
def execHostLoad (h : Host64) (pa : BitVec 56) (size : Fin 4) (parity : HostParity) (flaws : Flaws)
    (s : State) : Out :=
  let n := 2 ^ size.val
  if !(s.hostRuns h) then .next s
  else if parity = .dirty then .next (s.hostParity h)
  else
    let s := s.hostClean h parity
    match s.hostTarget h pa with
    | .none => .next (s.emit (.hostStop h 5))
    | .ctrl =>
      if size.val < 2 then .next (s.emit (.hostStop h 5)) else
      let (s, v) := s.ctrlRead (.host h) (pa.toNat % 2 ^ 40) (decide (size.val = 3))
      .next (s.emit (.hostValue h (leBytes n v.toNat)))
    | .mem g =>
      let s := s.hostLedger h g n 4
      if s.hostCached h g then .next ((s.hostRefetch h g n parity).hostLineAccess h g n .load flaws)
      else if s.hostOwn h g then
        match s.hostOwnFails h g n true false with
        | some st => .next (s.hostRefuse h st 5)
        | none =>
          match s.readCheck (h / 8) (gOff g) n flaws false (issuerArgs s.pkg (h / 8) (hostIssuer h)) with
          | (s, some _) => .next (s.emit (.hostStop h 5))
          | (s, none) => .next (s.emit (.hostValue h (s.readMem (h / 8) (gOff g) n)))
      else
        let bases := unitBases 32 g n
        let (s, id) := s.beginXfer bases.length (.hostLoad h (g % 32) n)
        .next (bases.zipIdx.foldl (fun (s : State) (b, i) => s.hostFetch h b id (32 * i) 32 flaws) s)

/-- A host core's store to its own site: a slot-fill window refuses it (R162), and a granule that meets another write may
lose it (R69, R154). -/
def State.hostOwnWrite (s : State) (h : Nat) (g : Nat) (mets : Meets) (bytes : List Byte) : State :=
  match fillWindowOf (gOff g) bytes.length with
  | some c => s.fillRefused (h / 8) c 6
  | none => (s.portWrite (h / 8) (gOff g) 0 (issuerArgs s.pkg (h / 8) (hostIssuer h)) mets bytes).1

/-- The write-back of a line that a die holds dirty (R284). -/
def State.hostBack (s : State) (h b : Nat) (mets : Meets) (bytes : List Byte) : State :=
  if s.hostOwn h b then
    match s.hostOwnFails h b 64 false true with
    | some st => s.hostRefuse h st 7
    | none => s.hostOwnWrite h b mets bytes
  else
    let (s, id) := s.beginXfer 1 (.hostStore h)
    s.hostWrite h b 0 bytes id 0

/-- A cache operation on the line at `b` (R282): cbo.clean and cbo.flush write back what is dirty, cbo.flush and cbo.inval
give the line up, and cbo.zero writes zeros without a fetch. -/
def State.hostLineOp (s : State) (h b : Nat) (what : HostWrite) (mets : Meets) : State :=
  let k := h / 8
  match what, s.hostLine k b with
  | .zero, _ => s.storeLines h b (leBytes 64 0)
  | .inval, _ => s.dropLine k b
  | .clean, some l => if l.dirty then (s.putLine k b { l with dirty := false }).hostBack h b mets l.bytes else s
  | .flush, some l => if l.dirty then (s.dropLine k b).hostBack h b mets l.bytes else s.dropLine k b
  | _, _ => s

/-- HOST_STORE (R282, R284): a store of 1, 2, 4 or 8 bytes, into a line of a cached target or as an uncached access, or an
operation on a line. -/
def execHostStore (h : Host64) (pa : BitVec 56) (bytes : List Byte) (what : HostWrite) (how : HostStoreHow) (s : State) :
    Out :=
  let n := bytes.length
  if !(s.hostRuns h) then .next s
  else if how.parity = .dirty then .next (s.hostParity h)
  else
    let s := s.hostClean h how.parity
    match s.hostTarget h pa with
    | .none => .next (s.emit (.hostStop h 7))
    | .ctrl =>
      match what with
      | .store _ =>
        if n = 4 ∨ n = 8 then
          .next (s.ctrlWrite (.host h) (pa.toNat % 2 ^ 40) (decide (n = 8)) (BitVec.ofNat 64 (leNat bytes)))
        else .next (s.emit (.hostStop h 7))
      | _ => .next (s.emit (.hostStop h 7))
    | .mem g =>
      match what with
      | .store flaws =>
        if n ∉ [1, 2, 4, 8] then .next s else
        let s := s.hostLedger h g n 5
        if s.hostCached h g then .next ((s.hostRefetch h g n how.parity).hostLineAccess h g n (.store bytes) flaws)
        else if s.hostOwn h g then
          match s.hostOwnFails h g n false true with
          | some st => .next (s.hostRefuse h st 7)
          | none => .next (s.hostOwnWrite h g how.mets bytes)
        else
          let bases := unitBases 32 g n
          let (s, id) := s.beginXfer bases.length (.hostStore h)
          .next (bases.zipIdx.foldl (fun (s : State) (b, i) =>
            let (bs, mask) := granuleOf b g bytes
            s.hostWrite h b mask bs id (32 * i)) s)
      | what => if s.hostCached h g then .next (s.hostLineOp h (g - g % 64) what how.mets) else .next s

end Sys2Proof.Machine
end

