-- ==== Sys2Proof/Machine/KernelFp.lean ====
section
/-!
DEFINITION. The scalar floating-point instructions of a VEC kernel: F and D, and the conversions and moves of 16-bit
formats that Zvfh, Zvfbfmin and Zvfbfwma ask for (R78, R79; PRESUMED: log 39).
-/

namespace Sys2Proof.Machine

open Sys2Proof

namespace Vm

/-- Raise exception flags: they stay until they are written (R79). -/
def flag (m : Vm) (fl : Nat) : Vm := { m with r := { m.r with fflags := m.r.fflags ||| BitVec.ofNat 5 fl } }

/-- The bits of a floating-point register. -/
def fbits (m : Vm) (i : Nat) : Nat := (SMap.get 0 m.r.f i).toNat

/-- A floating-point register read in a format: one that is not boxed in ones reads as the canonical NaN. -/
def freg (m : Vm) (f : BinFmt) (i : Nat) : Nat :=
  let v := m.fbits i
  let w := f.width
  if v / 2 ^ w = 2 ^ (64 - w) - 1 then v % 2 ^ w else f.nan

/-- Write a floating-point register, boxed in ones. -/
def setF (m : Vm) (w i v : Nat) : Vm :=
  { m with r := { m.r with f := SMap.set 0 m.r.f i (BitVec.ofNat 64 (v % 2 ^ w + (2 ^ 64 - 2 ^ w))) } }

/-- The scalar formats, by the fmt field: S, D, H. -/
def scalarFmt : Nat → Option BinFmt
  | 0 => some fmtFP32
  | 1 => some fmtFP64
  | 2 => some fmtFP16
  | _ => none

/-- The rounding mode of an instruction: 7 takes frm; 5 and 6 are illegal. -/
def roundMode (m : Vm) (rm : Nat) : Option Nat :=
  let r := if rm = 7 then m.r.frm.toNat else rm
  if r ≤ 4 then some r else none

/-- A flagged result goes to a floating-point register. -/
def putF (m : Vm) (f : BinFmt) (rd : Nat) (v : Flagged Nat) : Vm := (m.flag v.2).setF f.width rd v.1

/-- FMADD, FMSUB, FNMSUB and FNMADD, by opcode. -/
def fusedOp (m : Vm) (w : Nat) : Vm :=
  match scalarFmt (fld w 26 25), m.roundMode (fld w 14 12) with
  | some f, some rm =>
    if f = fmtFP16 then m.fault else
    let a := f.decode (m.freg f (fld w 19 15))
    let b := f.decode (m.freg f (fld w 24 20))
    let c := f.decode (m.freg f (fld w 31 27))
    let k := fld w 3 2
    m.putF f (fld w 11 7) (f.fma rm (if k = 2 ∨ k = 3 then a.neg else a) b (if k = 1 ∨ k = 3 then c.neg else c))
  | _, _ => m.fault

/-- A comparison: FLE, FLT and FEQ, by funct3; FLE and FLT raise NV for a NaN. -/
def compareF (f : BinFmt) (f3 a b : Nat) : Flagged Nat :=
  let x := f.decode a
  let y := f.decode b
  let nv := if f3 ≠ 2 ∧ (x.isNan || y.isNan) then 16 else 0
  (bit (match f3 with
    | 0 => x.lt y || x.eq y
    | 1 => x.lt y
    | _ => x.eq y), nv)

/-- The format that an FCVT between formats reads, by its rs2 field, with the one that it writes, by its fmt field: 6 is
BF16 as a source, 8 a conversion to BF16. -/
def convertFmts (to_ from_ : Nat) : Option (BinFmt × BinFmt) :=
  match to_, from_ with
  | 0, 1 => some (fmtFP32, fmtFP64)
  | 1, 0 => some (fmtFP64, fmtFP32)
  | 0, 2 => some (fmtFP32, fmtFP16)
  | 2, 0 => some (fmtFP16, fmtFP32)
  | 1, 2 => some (fmtFP64, fmtFP16)
  | 2, 1 => some (fmtFP16, fmtFP64)
  | 0, 6 => some (fmtFP32, fmtBF16)
  | 2, 8 => some (fmtBF16, fmtFP32)
  | _, _ => none

/-- Conversions between formats, to integers and from integers. -/
def convertOp (m : Vm) (w : Nat) : Vm :=
  let rd := fld w 11 7
  let rs1 := fld w 19 15
  let rs2 := fld w 24 20
  let n := if rs2 < 2 then 32 else 64
  match m.roundMode (fld w 14 12), fld w 31 27 with
  | none, _ => m.fault
  | some rm, 0x08 =>
    match convertFmts (fld w 26 25) rs2 with
    | some (t, g) => m.putF t rd (t.round rm (g.decode (m.freg g rs1)))
    | none => m.fault
  | some rm, op =>
    match scalarFmt (fld w 26 25) with
    | none => m.fault
    | some f =>
      if f = fmtFP16 ∨ 3 < rs2 then m.fault
      else if op = 0x18 then
        let (z, fl) := (f.decode (m.freg f rs1)).toInt rm n (decide (rs2 % 2 = 0))
        (m.flag fl).setX rd (sext n (wrap n z))
      else
        let v := m.x rs1 % 2 ^ n
        m.putF f rd (f.round rm (Num.ofInt (if rs2 % 2 = 0 then sInt n v else v)))

/-- Arithmetic, sign injection, comparison, classification and moves of one format. -/
def arithOp (m : Vm) (f : BinFmt) (w : Nat) : Vm :=
  let rd := fld w 11 7
  let f3 := fld w 14 12
  let rs2 := fld w 24 20
  let a := m.freg f (fld w 19 15)
  let b := m.freg f rs2
  let x := f.decode a
  let y := f.decode b
  match fld w 31 27, m.roundMode f3 with
  | 0x00, some rm => m.putF f rd (f.finish rm (x.plus rm y))
  | 0x01, some rm => m.putF f rd (f.finish rm (x.plus rm y.neg))
  | 0x02, some rm => m.putF f rd (f.finish rm (x.mul y))
  | 0x03, some rm => m.putF f rd (f.finish rm (x.div y))
  | 0x0B, some rm => if rs2 = 0 then m.putF f rd (f.finish rm x.sqrt) else m.fault
  | 0x04, _ => if f3 < 3 then m.setF f.width rd (f.sgnj f3 a b) else m.fault
  | 0x05, _ => if f3 < 2 then m.setF f.width rd (f.minMax (decide (f3 = 1)) a b) else m.fault
  | 0x14, _ => if f3 < 3 then (m.flag (compareF f f3 a b).2).setX rd (compareF f f3 a b).1 else m.fault
  | 0x1C, _ =>
    if rs2 = 0 ∧ f3 = 0 then m.setX rd (sext f.width (m.fbits (fld w 19 15)))
    else if rs2 = 0 ∧ f3 = 1 then m.setX rd (f.classOf a)
    else m.fault
  | 0x1E, _ => if rs2 = 0 ∧ f3 = 0 then m.setF f.width rd (m.x (fld w 19 15)) else m.fault
  | _, _ => m.fault

/-- OP-FP. Of the 16-bit formats there are only moves and conversions. -/
def opFp (m : Vm) (w : Nat) : Vm :=
  let f5 := fld w 31 27
  if f5 = 0x08 ∨ f5 = 0x18 ∨ f5 = 0x1A then m.convertOp w else
  match scalarFmt (fld w 26 25) with
  | none => m.fault
  | some f =>
    if f = fmtFP16 ∧ ¬(fld w 14 12 = 0 ∧ (f5 = 0x1C ∨ f5 = 0x1E)) then m.fault else m.arithOp f w

/-- Loads and stores of a floating-point register: 2, 4 or 8 bytes, by funct3. -/
def memFp (m : Vm) (w : Nat) : Vm :=
  let n := 2 ^ fld w 14 12
  let a := m.x (fld w 19 15)
  if fld w 6 0 = 0x07 then
    let (m, v) := m.load (a + sext 12 (fld w 31 20)) n
    m.setF (8 * n) (fld w 11 7) v
  else m.store (a + immS w) n (m.fbits (fld w 24 20) % 2 ^ (8 * n))

end Vm

end Sys2Proof.Machine
end

