-- ==== Sys2Proof/Machine/KernelVec.lean ====
section
/-!
DEFINITION. The vector instructions of a VEC kernel: RVV 1.0 with Zvfh, Zvfbfmin and Zvfbfwma at VLEN 1,024 and ELEN 64
(R78), with the fixed choices of R80. The rest is the RISC-V standard (PRESUMED: log 39); a reserved form is illegal.
-/

namespace Sys2Proof.Machine

open Sys2Proof

namespace Vm

/-! ### Configuration -/

/-- log₂ LMUL of a vtype. -/
def lmulOf (vt : Nat) : Int := if vt % 8 < 4 then (vt % 8 : Nat) else (vt % 8 : Nat) - 8

/-- SEW of a vtype. -/
def sewOf (vt : Nat) : Nat := 8 * 2 ^ (vt / 8 % 8)

/-- Does the unit support a vtype: SEW to 64, LMUL of 1/8 to 8, and SEW at most LMUL × ELEN? -/
def vtypeOk (vt : Nat) : Bool :=
  decide (vt < 256) && decide (vt % 8 ≠ 4) && decide (sewOf vt ≤ 64) &&
  decide (sewOf vt * 2 ^ (-lmulOf vt).toNat ≤ 64)

/-- The elements of a register group. -/
def vlmaxOf (vt : Nat) : Nat := 1024 / sewOf vt * 2 ^ (lmulOf vt).toNat / 2 ^ (-lmulOf vt).toNat

/-- Set vtype, and vl to the lesser of AVL and VLMAX (R80); an unsupported vtype sets vill and vl 0. -/
def setVl (m : Vm) (rd vt avl : Nat) : Vm :=
  let ok := vtypeOk vt
  let vl := if ok then min avl (vlmaxOf vt) else 0
  let r := { m.r with vtype := BitVec.ofNat 64 (if ok then vt else 2 ^ 63), vl := vl, vstart := 0 }
  ({ m with r := r }).setX rd vl

/-- VSETVLI, VSETIVLI and VSETVL. x0 as AVL asks for VLMAX, or keeps vl where rd is x0 too and VLMAX stays. -/
def config (m : Vm) (w : Nat) : Vm :=
  let rd := fld w 11 7
  let rs1 := fld w 19 15
  let old := m.r.vtype.toNat
  let set := fun vt =>
    if rs1 ≠ 0 then m.setVl rd vt (m.x rs1)
    else if rd ≠ 0 then m.setVl rd vt (2 ^ 64 - 1)
    else if vtypeOk old && vtypeOk vt && decide (vlmaxOf old = vlmaxOf vt) then m.setVl 0 vt m.r.vl
    else m.setVl 0 (2 ^ 63) 0
  if fld w 31 31 = 0 then set (fld w 30 20)
  else if fld w 31 30 = 3 then m.setVl rd (fld w 29 20) rs1
  else if fld w 31 25 = 0x40 then set (m.x (fld w 24 20))
  else m.fault

/-- SEW, in bits. -/
def sew (m : Vm) : Nat := sewOf m.r.vtype.toNat

/-- VLMAX. -/
def vlmax (m : Vm) : Nat := vlmaxOf m.r.vtype.toNat

/-- vill. -/
def ill (m : Vm) : Bool := !(vtypeOk m.r.vtype.toNat)

/-- log₂ EMUL of a group of elements of `eew` bits; a mask is one register. -/
def emul (m : Vm) (eew : Nat) : Int :=
  if eew = 1 then 0 else (Nat.log2 eew : Int) - Nat.log2 m.sew + lmulOf m.r.vtype.toNat

/-- Registers of a group. -/
def regs (m : Vm) (eew : Nat) : Nat := 2 ^ (m.emul eew).toNat

/-! ### Elements -/

/-- Element `i` of a group of elements of `eew` bits. -/
def el (m : Vm) (eew reg i : Nat) : Nat :=
  (SMap.get 0 m.r.v (reg + i * eew / 1024)).toNat / 2 ^ (i * eew % 1024) % 2 ^ eew

/-- Write an element. -/
def setEl (m : Vm) (eew reg i v : Nat) : Vm :=
  let k := reg + i * eew / 1024
  let lo := i * eew % 1024
  let old := (SMap.get 0 m.r.v k).toNat
  let new := old - old / 2 ^ lo % 2 ^ eew * 2 ^ lo + v % 2 ^ eew * 2 ^ lo
  { m with r := { m.r with v := SMap.set 0 m.r.v k (BitVec.ofNat 1024 new) } }

/-- Is an element active: unmasked, or its bit of v0 is set? -/
def active (m : Vm) (vm i : Nat) : Bool := decide (vm = 1) || decide (m.el 1 0 i = 1)

/-- The active body elements, from vstart on. -/
def body (m : Vm) (vm : Nat) : List Nat :=
  (List.range m.r.vl).filter fun i => decide (m.r.vstart ≤ i) && m.active vm i

/-- Write the active elements of a group; every other element is left undisturbed (R80). -/
def mapEl (m : Vm) (vm eew vd : Nat) (f : Nat → Flagged Nat) : Vm :=
  (m.body vm).foldl (fun a i => (a.flag (f i).2).setEl eew vd i (f i).1) m

/-- Is a group aligned and its EMUL one that exists? -/
def groupOk (m : Vm) (g : Nat × Nat) : Bool :=
  decide (-3 ≤ m.emul g.2) && decide (m.emul g.2 ≤ 3) && decide (g.1 % m.regs g.2 = 0) && decide (g.2 ≤ 64)

/-- Do two groups share no register? -/
def apart (m : Vm) (d s : Nat × Nat) : Bool :=
  decide (d.1 + m.regs d.2 ≤ s.1) || decide (s.1 + m.regs s.2 ≤ d.1)

/-- May a destination overlap a source: of one width, or a narrower one its lowest part, or a wider one the source as
its highest part? -/
def overlapOk (m : Vm) (d s : Nat × Nat) : Bool :=
  m.apart d s || decide (d.2 = s.2) || (decide (d.2 < s.2) && decide (d.1 = s.1)) ||
  (decide (s.2 < d.2) && decide (0 ≤ m.emul s.2) && decide (s.1 + m.regs s.2 = d.1 + m.regs d.2))

/-- Is a form legal: groups given by register and element width, the destination no v0 under a mask but where it is a
mask itself? One register may be read as sources of two widths (log 39). -/
def formOk (m : Vm) (vm : Nat) (d : Nat × Nat) (srcs : List (Nat × Nat)) : Bool :=
  m.groupOk d && srcs.all m.groupOk && srcs.all (m.overlapOk d) &&
  (decide (vm = 1) || decide (d.1 ≠ 0) || decide (d.2 = 1))

/-- A vector instruction is over: vstart is 0 again. -/
def endV (m : Vm) : Vm := { m with r := { m.r with vstart := 0 } }

/-- Run a form if it is legal. -/
def whenOk (m : Vm) (ok : Bool) (t : Vm) : Vm := if ok then t.endV else m.fault

/-- The fields of a vector arithmetic instruction. -/
structure VOp where
  f6 : Nat
  f3 : Nat
  vm : Nat
  vs2 : Nat
  vs1 : Nat
  vd : Nat

/-- Take the fields apart. -/
def vop (w : Nat) : VOp := ⟨fld w 31 26, fld w 14 12, fld w 25 25, fld w 24 20, fld w 19 15, fld w 11 7⟩

/-- Is the first operand a vector? -/
def VOp.vv (o : VOp) : Bool := decide (o.f3 ≤ 2)

/-- The format of the elements of a width; none for 8 bits. -/
def fmtOf : Nat → Option BinFmt
  | 16 => some fmtFP16
  | 32 => some fmtFP32
  | 64 => some fmtFP64
  | _ => none

/-- The first operand, in `eew` bits: an element, an integer register, an immediate, or a floating-point register. -/
def op1 (m : Vm) (o : VOp) (eew : Nat) (unsigned : Bool) (i : Nat) : Nat :=
  match o.f3 with
  | 3 => if unsigned then o.vs1 else wrap eew (sInt 5 o.vs1)
  | 4 | 6 => m.x o.vs1 % 2 ^ eew
  | 5 => match fmtOf eew with
    | some f => m.freg f o.vs1
    | none => 0
  | _ => m.el eew o.vs1 i

/-- The source groups of a form. -/
def sources (o : VOp) (eew2 eew1 : Nat) : List (Nat × Nat) :=
  (o.vs2, eew2) :: (if o.vv then [(o.vs1, eew1)] else [])

/-! ### Integer arithmetic -/

/-- An integer operation of one width: `a` of vs2, `b` the first operand, `d` of vd; the multiply forms are at `64 +
funct6`. -/
def intOp (w key a b d : Nat) : Option Nat :=
  let sa := sInt w a
  let sb := sInt w b
  let n := b % w
  match key with
  | 0x00 => some ((a + b) % 2 ^ w)
  | 0x02 => some (sub w a b)
  | 0x03 => some (sub w b a)
  | 0x04 => some (min a b)
  | 0x05 => some (if sa < sb then a else b)
  | 0x06 => some (max a b)
  | 0x07 => some (if sa < sb then b else a)
  | 0x09 => some (a &&& b)
  | 0x0A => some (a ||| b)
  | 0x0B => some (a ^^^ b)
  | 0x25 => some (a * 2 ^ n % 2 ^ w)
  | 0x28 => some (a / 2 ^ n)
  | 0x29 => some (sra w a n)
  | 0x60 => some (divU w a b)
  | 0x61 => some (divS w a b)
  | 0x62 => some (remU a b)
  | 0x63 => some (remS w a b)
  | 0x64 => some (a * b / 2 ^ w)
  | 0x65 => some (a * b % 2 ^ w)
  | 0x66 => some (mulH w sa b)
  | 0x67 => some (mulH w sa sb)
  | 0x69 => some ((d * b + a) % 2 ^ w)
  | 0x6B => some (wrap w (a - (d * b : Int)))
  | 0x6D => some ((b * a + d) % 2 ^ w)
  | 0x6F => some (wrap w (d - (b * a : Int)))
  | _ => none

/-- A value shifted right by `d` and rounded by vxrm. -/
def roundoff (mode d : Nat) (v : Int) : Int :=
  let q := v / (2 ^ d : Nat)
  let rest := (v.emod (2 ^ d : Nat)).toNat
  let odd := q.emod 2 = 1
  if d = 0 then v else
  match mode with
  | 0 => if 2 ^ (d - 1) ≤ rest then q + 1 else q
  | 1 => if 2 ^ (d - 1) < rest ∨ (rest = 2 ^ (d - 1) ∧ odd) then q + 1 else q
  | 2 => q
  | _ => if rest ≠ 0 ∧ ¬odd then q + 1 else q

/-- A value held to the range of `w` bits, with whether it left it. -/
def saturate (w : Nat) (signed : Bool) (v : Int) : Nat × Bool :=
  let lo : Int := if signed then -(2 ^ (w - 1) : Nat) else 0
  let hi : Int := if signed then (2 ^ (w - 1) : Nat) - 1 else (2 ^ w : Nat) - 1
  if v < lo then (wrap w lo, true) else if hi < v then (wrap w hi, true) else (wrap w v, false)

/-- A fixed-point operation of one width: its result and whether it saturated; the averaging forms are at `64 + funct6`.
-/
def fixOp (w mode key a b : Nat) : Option (Nat × Bool) :=
  let sa := sInt w a
  let sb := sInt w b
  let n := b % w
  match key with
  | 0x20 => some (saturate w false ((a : Int) + b))
  | 0x21 => some (saturate w true (sa + sb))
  | 0x22 => some (saturate w false ((a : Int) - b))
  | 0x23 => some (saturate w true (sa - sb))
  | 0x27 => some (saturate w true (roundoff mode (w - 1) (sa * sb)))
  | 0x2A => some (wrap w (roundoff mode n a), false)
  | 0x2B => some (wrap w (roundoff mode n sa), false)
  | 0x48 => some (wrap w (roundoff mode 1 ((a : Int) + b)), false)
  | 0x49 => some (wrap w (roundoff mode 1 (sa + sb)), false)
  | 0x4A => some (wrap w (roundoff mode 1 ((a : Int) - b)), false)
  | 0x4B => some (wrap w (roundoff mode 1 (sa - sb)), false)
  | _ => none

/-- A comparison, by funct6. -/
def cmpOp (w f6 a b : Nat) : Bool :=
  match f6 with
  | 0x18 => decide (a = b)
  | 0x19 => decide (a ≠ b)
  | 0x1A => decide (a < b)
  | 0x1B => decide (sInt w a < sInt w b)
  | 0x1C => decide (a ≤ b)
  | 0x1D => decide (sInt w a ≤ sInt w b)
  | 0x1E => decide (b < a)
  | _ => decide (sInt w b < sInt w a)

/-- Which of the forms VV, VX and VI an OPI instruction has. -/
def opiForm (o : VOp) : Bool :=
  match o.f3 with
  | 0 => !([0x03, 0x0F, 0x1E, 0x1F].contains o.f6)
  | 3 => [0x00, 0x03, 0x09, 0x0A, 0x0B, 0x0C, 0x0E, 0x0F, 0x10, 0x11, 0x17, 0x18, 0x19, 0x1C, 0x1D, 0x1E, 0x1F, 0x20,
      0x21, 0x25, 0x27, 0x28, 0x29, 0x2A, 0x2B, 0x2C, 0x2D, 0x2E, 0x2F].contains o.f6
  | _ => decide (o.f6 ≠ 0x30) && decide (o.f6 ≠ 0x31)

/-- A saturating result: vxsat stays set once it is. -/
def mapFix (m : Vm) (vm eew vd : Nat) (f : Nat → Nat × Bool) : Vm :=
  (m.body vm).foldl (fun a i =>
    ({ a with r := { a.r with vxsat := a.r.vxsat || (f i).2 } }).setEl eew vd i (f i).1) m

/-- One-width integer and fixed-point arithmetic; `key` is funct6, with 64 added for the multiply forms. -/
def arith (m : Vm) (o : VOp) (key : Nat) : Vm :=
  let w := m.sew
  let b := m.op1 o w (decide (0x25 ≤ key) && decide (key < 0x30))
  let a := m.el w o.vs2
  let ok := m.formOk o.vm (o.vd, w) (sources o w w)
  if (intOp w key 0 0 0).isSome then
    m.whenOk ok (m.mapEl o.vm w o.vd fun i => ((intOp w key (a i) (b i) (m.el w o.vd i)).getD 0, 0))
  else if (fixOp w 0 key 0 0).isSome then
    m.whenOk ok (m.mapFix o.vm w o.vd fun i => (fixOp w m.r.vxrm.toNat key (a i) (b i)).getD (0, false))
  else m.fault

/-- Comparisons write a mask. -/
def compare (m : Vm) (o : VOp) : Vm :=
  let w := m.sew
  m.whenOk (m.formOk o.vm (o.vd, 1) (sources o w w))
    (m.mapEl o.vm 1 o.vd fun i => (bit (cmpOp w o.f6 (m.el w o.vs2 i) (m.op1 o w false i)), 0))

/-- Sums and differences with a carry or borrow in: VADC, VMADC, VSBC, VMSBC. The mask is the carry in. -/
def carry (m : Vm) (o : VOp) : Vm :=
  let w := m.sew
  let a := m.el w o.vs2
  let b := m.op1 o w false
  let c := fun i => if o.vm = 0 then m.el 1 0 i else 0
  let out := decide (o.f6 % 2 = 1)
  let v := fun i => if o.f6 < 0x12 then a i + b i + c i else a i + 2 ^ (w + 1) - b i - c i
  let ovf := fun i => if o.f6 < 0x12 then decide (2 ^ w ≤ v i) else decide (a i < b i + c i)
  let ok := m.formOk 1 (o.vd, if out then 1 else w) (sources o w w) && (out || (decide (o.vm = 0) && decide (o.vd ≠ 0)))
  m.whenOk ok (m.mapEl 1 (if out then 1 else w) o.vd fun i => (if out then bit (ovf i) else v i, 0))

/-- VMERGE, and VMV.V where nothing is masked. -/
def merge (m : Vm) (o : VOp) : Vm :=
  let w := m.sew
  let b := m.op1 o w false
  let ok := m.formOk o.vm (o.vd, w) (sources o w w) && (decide (o.vm = 0) || decide (o.vs2 = 0))
  m.whenOk ok (m.mapEl 1 w o.vd fun i => (if m.active o.vm i then b i else m.el w o.vs2 i, 0))

/-- Narrowing shifts and clips: VNSRL, VNSRA, VNCLIPU, VNCLIP. -/
def narrow (m : Vm) (o : VOp) : Vm :=
  let w := m.sew
  let n := fun i => m.op1 o w true i % (2 * w)
  let a := m.el (2 * w) o.vs2
  let ok := decide (2 * w ≤ 64) && m.formOk o.vm (o.vd, w) (sources o (2 * w) w)
  m.whenOk ok (m.mapFix o.vm w o.vd fun i =>
    match o.f6 with
    | 0x2C => (a i / 2 ^ n i % 2 ^ w, false)
    | 0x2D => (wrap w (sInt (2 * w) (a i) / (2 ^ n i : Nat)), false)
    | 0x2E => saturate w false (roundoff m.r.vxrm.toNat (n i) (a i))
    | _ => saturate w true (roundoff m.r.vxrm.toNat (n i) (sInt (2 * w) (a i))))

/-- Widening sums, products and multiply-adds of the OPM forms. -/
def widen (m : Vm) (o : VOp) : Vm :=
  let w := m.sew
  let w2 := 2 * w
  let wide := decide (0x34 ≤ o.f6) && decide (o.f6 < 0x38)
  let sg := fun (e n : Nat) (s : Bool) => if s then sInt e n else (n : Int)
  -- is vs2, is the first operand signed?
  let s2 := [0x31, 0x33, 0x35, 0x37, 0x3A, 0x3B, 0x3D, 0x3F].contains o.f6
  let s1 := [0x31, 0x33, 0x35, 0x37, 0x3B, 0x3D].contains o.f6
  -- VWMACCSU takes vs2 unsigned and the first operand signed, VWMACCUS the other way round
  let s2 := if o.f6 = 0x3F then false else if o.f6 = 0x3E then true else s2
  let s1 := if o.f6 = 0x3F then true else s1
  let a := fun i => if wide then sg w2 (m.el w2 o.vs2 i) s2 else sg w (m.el w o.vs2 i) s2
  let b := fun i => sg w (m.op1 o w false i) s1
  let ok := decide (w2 ≤ 64) && decide (o.f6 ≠ 0x39) && (decide (o.f6 ≠ 0x3E) || !o.vv) &&
    m.formOk o.vm (o.vd, w2) (sources o (if wide then w2 else w) w)
  m.whenOk ok (m.mapEl o.vm w2 o.vd fun i =>
    (wrap w2 (if o.f6 < 0x38 then (if o.f6 / 2 % 2 = 0 then a i + b i else a i - b i)
      else if o.f6 < 0x3C then a i * b i
      else a i * b i + m.el w2 o.vd i), 0))

/-- Reductions into element 0 of vd, in ascending order from element 0 of vs1; none where vl is 0. -/
def reduce (m : Vm) (o : VOp) (w2 : Nat) (f : Nat → Nat → Flagged Nat) : Vm :=
  let ok := o.vv && decide (m.r.vstart = 0) && decide (w2 ≤ 64) && m.groupOk (o.vs2, m.sew)
  if !ok then m.fault else
  if m.r.vl = 0 then m.endV else
  let v := (m.body o.vm).foldl (fun (a : Flagged Nat) i =>
    let r := f a.1 (m.el m.sew o.vs2 i)
    (r.1, a.2 ||| r.2)) (m.el w2 o.vs1 0, 0)
  ((m.flag v.2).setEl w2 o.vd 0 v.1).endV

/-- The integer reductions of OPM: sum, and, or, xor, least and greatest. -/
def intReduce (m : Vm) (o : VOp) : Vm :=
  let w := m.sew
  let key := match o.f6 with
    | 0 => 0x00 | 1 => 0x09 | 2 => 0x0A | 3 => 0x0B | n => n
  m.reduce o w fun a b => ((intOp w key b a 0).getD 0, 0)

/-! ### Permutations -/

/-- VRGATHER and VRGATHEREI16. -/
def gather (m : Vm) (o : VOp) (wi : Nat) : Vm :=
  let w := m.sew
  let idx := fun i => if o.vv then m.el wi o.vs1 i else if o.f3 = 3 then o.vs1 else m.x o.vs1
  let ok := m.formOk o.vm (o.vd, w) (sources o w wi) && (sources o w wi).all (m.apart (o.vd, w))
  m.whenOk ok (m.mapEl o.vm w o.vd fun i => (if m.vlmax ≤ idx i then 0 else m.el w o.vs2 (idx i), 0))

/-- VSLIDEUP and VSLIDEDOWN. -/
def slide (m : Vm) (o : VOp) (up : Bool) : Vm :=
  let w := m.sew
  let n := if o.f3 = 3 then o.vs1 else m.x o.vs1
  let ok := m.formOk o.vm (o.vd, w) [(o.vs2, w)] && (!up || m.apart (o.vd, w) (o.vs2, w))
  m.whenOk ok (m.mapEl o.vm w o.vd fun i =>
    (if up then (if i < n then m.el w o.vd i else m.el w o.vs2 (i - n))
     else if i + n < m.vlmax then m.el w o.vs2 (i + n) else 0, 0))

/-- VSLIDE1UP and VSLIDE1DOWN, of integers and of floating-point values: `v` comes in at the end. -/
def slide1 (m : Vm) (o : VOp) (up : Bool) (v : Nat) : Vm :=
  let w := m.sew
  let ok := m.formOk o.vm (o.vd, w) [(o.vs2, w)] && (!up || m.apart (o.vd, w) (o.vs2, w))
  m.whenOk ok (m.mapEl o.vm w o.vd fun i =>
    (if up then (if i = 0 then v else m.el w o.vs2 (i - 1))
     else if i + 1 = m.r.vl then v else m.el w o.vs2 (i + 1), 0))

/-- VCOMPRESS: the elements that a mask selects, packed. -/
def compress (m : Vm) (o : VOp) : Vm :=
  let w := m.sew
  let ok := decide (o.vm = 1) && decide (m.r.vstart = 0) && m.formOk 1 (o.vd, w) [(o.vs2, w)] &&
    m.apart (o.vd, w) (o.vs2, w) && m.apart (o.vd, w) (o.vs1, 1)
  let picked := (List.range m.r.vl).filter fun i => decide (m.el 1 o.vs1 i = 1)
  m.whenOk ok (picked.zipIdx.foldl (fun a e => a.setEl w o.vd e.2 (m.el w o.vs2 e.1)) m)

/-- VMV1R to VMV8R. -/
def wholeMove (m : Vm) (o : VOp) : Vm :=
  let n := o.vs1 + 1
  let ok := decide (n ∈ [1, 2, 4, 8]) && decide (o.vm = 1) && decide (o.vd % n = 0) && decide (o.vs2 % n = 0)
  let lo := m.r.vstart * m.sew / 8
  m.whenOk ok (((List.range (128 * n)).filter fun i => decide (lo ≤ i)).foldl
    (fun a i => a.setEl 8 o.vd i (m.el 8 o.vs2 i)) m)

/-! ### Masks -/

/-- Logic on masks, by funct6; it is never masked itself. -/
def maskLogic (m : Vm) (o : VOp) : Vm :=
  let f := fun a b => match o.f6 with
    | 0x18 => a && !b | 0x19 => a && b | 0x1A => a || b | 0x1B => a != b
    | 0x1C => a || !b | 0x1D => !(a && b) | 0x1E => !(a || b) | _ => a == b
  m.whenOk (decide (o.vm = 1) && o.vv) (m.mapEl 1 1 o.vd fun i =>
    (bit (f (decide (m.el 1 o.vs2 i = 1)) (decide (m.el 1 o.vs1 i = 1))), 0))

/-- VCPOP and VFIRST, and VMV.X.S. -/
def toScalar (m : Vm) (o : VOp) : Vm :=
  let set := (m.body o.vm).filter fun i => decide (m.el 1 o.vs2 i = 1)
  match o.vs1 with
  | 0x00 => m.whenOk (decide (o.vm = 1)) (m.setX o.vd (sext m.sew (m.el m.sew o.vs2 0)))
  | 0x10 => m.whenOk (decide (m.r.vstart = 0)) (m.setX o.vd set.length)
  | 0x11 => m.whenOk (decide (m.r.vstart = 0)) (m.setX o.vd (set.head?.getD (2 ^ 64 - 1)))
  | _ => m.fault

/-- VMSBF, VMSOF, VMSIF, VIOTA and VID. -/
def maskUnary (m : Vm) (o : VOp) : Vm :=
  let set := fun i => decide (m.el 1 o.vs2 i = 1)
  let before := fun i => ((m.body o.vm).filter fun j => decide (j < i) && set j).length
  let ok := decide (m.r.vstart = 0) && decide (o.vd ≠ o.vs2) && (decide (o.vm = 1) || decide (o.vd ≠ 0))
  let w := m.sew
  match o.vs1 with
  | 0x01 => m.whenOk ok (m.mapEl o.vm 1 o.vd fun i => (bit (decide (before i = 0) && !(set i)), 0))
  | 0x02 => m.whenOk ok (m.mapEl o.vm 1 o.vd fun i => (bit (decide (before i = 0) && set i), 0))
  | 0x03 => m.whenOk ok (m.mapEl o.vm 1 o.vd fun i => (bit (decide (before i = 0)), 0))
  | 0x10 => m.whenOk (ok && m.formOk o.vm (o.vd, w) [] && m.apart (o.vd, w) (o.vs2, 1))
      (m.mapEl o.vm w o.vd fun i => (before i, 0))
  | 0x11 => m.whenOk (decide (o.vs2 = 0) && m.formOk o.vm (o.vd, w) []) (m.mapEl o.vm w o.vd fun i => (i, 0))
  | _ => m.fault

/-- VZEXT and VSEXT. -/
def extend (m : Vm) (o : VOp) : Vm :=
  let w := m.sew
  let n := w / (match o.vs1 / 2 with | 1 => 8 | 2 => 4 | _ => 2)
  let ok := decide (2 ≤ o.vs1) && decide (o.vs1 ≤ 7) && decide (8 ≤ n) && m.formOk o.vm (o.vd, w) [(o.vs2, n)]
  m.whenOk ok (m.mapEl o.vm w o.vd fun i =>
    let v := m.el n o.vs2 i
    (if o.vs1 % 2 = 1 then wrap w (sInt n v) else v, 0))

/-- The OPI instructions: VV, VX and VI. -/
def opI (m : Vm) (o : VOp) : Vm :=
  if !(opiForm o) then m.fault else
  if o.f6 = 0x0C then m.gather o m.sew
  else if o.f6 = 0x0E then (if o.vv then m.gather o 16 else m.slide o true)
  else if o.f6 = 0x0F then m.slide o false
  else if 0x10 ≤ o.f6 ∧ o.f6 ≤ 0x13 then m.carry o
  else if o.f6 = 0x17 then m.merge o
  else if 0x18 ≤ o.f6 ∧ o.f6 ≤ 0x1F then m.compare o
  else if o.f6 = 0x27 ∧ o.f3 = 3 then m.wholeMove o
  else if 0x2C ≤ o.f6 ∧ o.f6 ≤ 0x2F then m.narrow o
  else if o.f6 = 0x30 then m.reduce o (2 * m.sew) fun a b => ((a + b) % 2 ^ (2 * m.sew), 0)
  else if o.f6 = 0x31 then m.reduce o (2 * m.sew) fun a b => (wrap (2 * m.sew) (a + sInt m.sew b), 0)
  else m.arith o o.f6

/-- The OPM instructions: VV and VX. -/
def opM (m : Vm) (o : VOp) : Vm :=
  if o.f6 < 8 then m.intReduce o
  else if o.f6 = 0x0E ∨ o.f6 = 0x0F then
    (if o.vv then m.fault else m.slide1 o (decide (o.f6 = 0x0E)) (m.x o.vs1))
  else if o.f6 = 0x10 then
    (if o.vv then m.toScalar o
     else m.whenOk (decide (o.vm = 1) && decide (o.vs2 = 0))
      (if m.r.vstart < m.r.vl then m.setEl m.sew o.vd 0 (m.x o.vs1) else m))
  else if o.f6 = 0x12 then (if o.vv then m.extend o else m.fault)
  else if o.f6 = 0x14 then (if o.vv then m.maskUnary o else m.fault)
  else if o.f6 = 0x17 then (if o.vv then m.compress o else m.fault)
  else if 0x18 ≤ o.f6 ∧ o.f6 ≤ 0x1F then m.maskLogic o
  else if 0x30 ≤ o.f6 then m.widen o
  else m.arith o (64 + o.f6)

/-! ### Floating point -/

/-- A floating-point operation of one format: codes `a` of vs2, `b` the first operand, `d` of vd. -/
def fpOp (f : BinFmt) (rm f6 a b d : Nat) : Option (Flagged Nat) :=
  let x := f.decode a
  let y := f.decode b
  let z := f.decode d
  match f6 with
  | 0x00 => some (f.finish rm (x.plus rm y))
  | 0x02 => some (f.finish rm (x.plus rm y.neg))
  | 0x27 => some (f.finish rm (y.plus rm x.neg))
  | 0x24 => some (f.finish rm (x.mul y))
  | 0x20 => some (f.finish rm (x.div y))
  | 0x21 => some (f.finish rm (y.div x))
  | 0x04 => some (f.minMax false a b, 0)
  | 0x06 => some (f.minMax true a b, 0)
  | 0x08 => some (f.sgnj 0 a b, 0)
  | 0x09 => some (f.sgnj 1 a b, 0)
  | 0x0A => some (f.sgnj 2 a b, 0)
  | 0x28 => some (f.fma rm z y x)
  | 0x29 => some (f.fma rm z.neg y x.neg)
  | 0x2A => some (f.fma rm z y x.neg)
  | 0x2B => some (f.fma rm z.neg y x)
  | 0x2C => some (f.fma rm y x z)
  | 0x2D => some (f.fma rm y.neg x z.neg)
  | 0x2E => some (f.fma rm y x z.neg)
  | 0x2F => some (f.fma rm y.neg x z)
  | _ => none

/-- Floating-point comparisons write a mask; all but equality raise NV for a NaN. -/
def fpCompare (m : Vm) (o : VOp) (f : BinFmt) : Vm :=
  let w := m.sew
  let ok := [0x18, 0x19, 0x1B, 0x1C, 0x1D, 0x1F].contains o.f6 && (decide (o.f6 < 0x1D) || !o.vv)
  m.whenOk (ok && m.formOk o.vm (o.vd, 1) (sources o w w)) (m.mapEl o.vm 1 o.vd fun i =>
    let a := m.el w o.vs2 i
    let b := m.op1 o w false i
    match o.f6 with
    | 0x18 => compareF f 2 a b
    | 0x1C => (1 - (compareF f 2 a b).1, 0)
    | 0x19 => compareF f 0 a b
    | 0x1B => compareF f 1 a b
    | 0x1D => compareF f 1 b a
    | _ => compareF f 0 b a)

/-- Widening sums, products and multiply-adds: the operands are exact, and one rounding follows (R37). `f` is the format
of the narrow operands, `g` that of the result. -/
def fpWiden (m : Vm) (o : VOp) (rm : Nat) (f g : BinFmt) : Vm :=
  let w := m.sew
  let w2 := 2 * w
  let wide := decide (o.f6 = 0x34) || decide (o.f6 = 0x36)
  let op := fun i =>
    let a := if wide then g.decode (m.el w2 o.vs2 i) else f.decode (m.el w o.vs2 i)
    let b := f.decode (if o.vv then m.el w o.vs1 i else m.freg f o.vs1)
    let d := g.decode (m.el w2 o.vd i)
    match o.f6 with
    | 0x30 | 0x34 => g.finish rm (a.plus rm b)
    | 0x32 | 0x36 => g.finish rm (a.plus rm b.neg)
    | 0x38 => g.finish rm (a.mul b)
    | 0x3D => g.fma rm b.neg a d.neg
    | 0x3E => g.fma rm b a d.neg
    | 0x3F => g.fma rm b.neg a d
    | _ => g.fma rm b a d
  m.whenOk (m.formOk o.vm (o.vd, w2) (sources o (if wide then w2 else w) w)) (m.mapEl o.vm w2 o.vd op)

/-- One conversion of VFUNARY0: by the low five bits, from an element of `wi` bits to one of `wo`. Integers have no
format at 8 bits. -/
def convertEl (rm kind wi wo a : Nat) : Option (Flagged Nat) :=
  let k := kind % 8
  if k < 2 ∨ k = 6 ∨ k = 7 then
    (fmtOf wi).map fun f =>
      let (z, fl) := (f.decode a).toInt (if 6 ≤ k then 1 else rm) wo (decide (k % 2 = 1))
      (wrap wo z, fl)
  else if k < 4 then
    (fmtOf wo).map fun f => f.round rm (Num.ofInt (if k = 3 then sInt wi a else a))
  else if kind = 0x0D then some (fmtFP32.round rm (fmtBF16.decode a))
  else if kind = 0x1D then some (fmtBF16.round rm (fmtFP32.decode a))
  else if k = 4 ∨ kind = 0x15 then
    match fmtOf wi, fmtOf wo with
    | some f, some g => some (g.round (if k = 5 then 5 else rm) (f.decode a))
    | _, _ => none
  else none

/-- VFUNARY0: conversions within a width, to the double width and to half of it. -/
def fpConvert (m : Vm) (o : VOp) (rm : Nat) : Vm :=
  let w := m.sew
  let (wi, wo) := if o.vs1 < 8 then (w, w) else if o.vs1 < 16 then (w, 2 * w) else (2 * w, w)
  let known := [0x00, 0x01, 0x02, 0x03, 0x06, 0x07, 0x08, 0x09, 0x0A, 0x0B, 0x0C, 0x0D, 0x0E, 0x0F, 0x10, 0x11, 0x12, 0x13,
    0x14, 0x15, 0x16, 0x17, 0x1D].contains o.vs1 && ((decide (o.vs1 ≠ 0x0D) && decide (o.vs1 ≠ 0x1D)) || decide (w = 16))
  let ok := known && o.vv && decide (wi ≤ 64) && decide (wo ≤ 64) && (convertEl rm o.vs1 wi wo 0).isSome &&
    m.formOk o.vm (o.vd, wo) [(o.vs2, wi)]
  m.whenOk ok (m.mapEl o.vm wo o.vd fun i => (convertEl rm o.vs1 wi wo (m.el wi o.vs2 i)).getD (0, 0))

/-- VFUNARY1: square root, the two estimates and the class. -/
def fpUnary (m : Vm) (o : VOp) (rm : Nat) (f : BinFmt) : Vm :=
  let w := m.sew
  let ok := o.vv && [0x00, 0x04, 0x05, 0x10].contains o.vs1 && m.formOk o.vm (o.vd, w) [(o.vs2, w)]
  m.whenOk ok (m.mapEl o.vm w o.vd fun i =>
    let a := m.el w o.vs2 i
    match o.vs1 with
    | 0x00 => f.finish rm (f.decode a).sqrt
    | 0x04 => f.rsqrt7 a
    | 0x05 => f.rec7 rm a
    | _ => (f.classOf a, 0))

/-- Moves between a floating-point register and element 0, and VFMERGE with VFMV.V.F. -/
def fpMove (m : Vm) (o : VOp) (f : BinFmt) : Vm :=
  let w := m.sew
  if o.f6 = 0x17 then (if o.vv then m.fault else m.merge o)
  else if o.vv then
    m.whenOk (decide (o.vm = 1) && decide (o.vs1 = 0)) (m.setF w o.vd (m.el w o.vs2 0))
  else m.whenOk (decide (o.vm = 1) && decide (o.vs2 = 0))
    (if m.r.vstart < m.r.vl then m.setEl w o.vd 0 (m.freg f o.vs1) else m)

/-- The reductions of OPF, sums in ascending element order (R80). -/
def fpReduce (m : Vm) (o : VOp) (rm : Nat) (f : BinFmt) : Vm :=
  let w := m.sew
  match o.f6 with
  | 0x05 => m.reduce o w fun a b => (f.minMax false a b, 0)
  | 0x07 => m.reduce o w fun a b => (f.minMax true a b, 0)
  | 0x01 | 0x03 => m.reduce o w fun a b => f.finish rm ((f.decode a).plus rm (f.decode b))
  | _ => match fmtOf (2 * w) with
    | some g => m.reduce o (2 * w) fun a b => g.finish rm ((g.decode a).plus rm (f.decode b))
    | none => m.fault

/-- The OPF instructions: VV and VF. An frm that is no mode makes them all illegal. -/
def opF (m : Vm) (o : VOp) : Vm :=
  let w := m.sew
  match m.roundMode 7 with
  | none => m.fault
  | some rm =>
    if o.f6 = 0x12 then m.fpConvert o rm else
    if o.f6 = 0x3B then (if w = 16 then m.fpWiden o rm fmtBF16 fmtFP32 else m.fault) else
    match fmtOf w with
    | none => m.fault
    | some f =>
      if [0x01, 0x03, 0x05, 0x07, 0x31, 0x33].contains o.f6 then m.fpReduce o rm f
      else if o.f6 = 0x0E ∨ o.f6 = 0x0F then
        (if o.vv then m.fault else m.slide1 o (decide (o.f6 = 0x0E)) (m.freg f o.vs1))
      else if o.f6 = 0x10 ∨ o.f6 = 0x17 then m.fpMove o f
      else if o.f6 = 0x13 then m.fpUnary o rm f
      else if 0x18 ≤ o.f6 ∧ o.f6 ≤ 0x1F then m.fpCompare o f
      else if [0x30, 0x32, 0x34, 0x36, 0x38, 0x3C, 0x3D, 0x3E, 0x3F].contains o.f6 then
        (match fmtOf (2 * w) with
        | some g => m.fpWiden o rm f g
        | none => m.fault)
      else if (fpOp f rm o.f6 0 0 0).isNone || ((decide (o.f6 = 0x21) || decide (o.f6 = 0x27)) && o.vv) then m.fault
      else m.whenOk (m.formOk o.vm (o.vd, w) (sources o w w)) (m.mapEl o.vm w o.vd fun i =>
        (fpOp f rm o.f6 (m.el w o.vs2 i) (m.op1 o w false i) (m.el w o.vd i)).getD (0, 0))

/-! ### Loads and stores -/

/-- Do something for each of a list until the kernel ends. -/
def eachUntil (g : Vm → Nat → Vm) : List Nat → Vm → Vm
  | [], m => m
  | i :: is, m => if m.bad then m else eachUntil g is (g m i)

/-- Load or store one element of `eew` bits. -/
def access (m : Vm) (isLoad : Bool) (eew reg i a : Nat) : Vm :=
  if isLoad then
    let (m, v) := m.load a (eew / 8)
    if m.bad then m else m.setEl eew reg i v
  else m.store a (eew / 8) (m.el eew reg i)

/-- Element width of a width field. -/
def eewOf : Nat → Nat
  | 0 => 8 | 5 => 16 | 6 => 32 | _ => 64

/-- Whole registers, and masks: `n` elements of one group, whatever vl is. -/
def plainBlock (m : Vm) (isLoad : Bool) (eew reg n a : Nat) : Vm :=
  (eachUntil (fun m i => m.access isLoad eew reg i (a + i * (eew / 8)))
    ((List.range n).filter fun i => decide (m.r.vstart ≤ i)) m).endV

/-- A vector load or store of elements and segments: `at_ i` is the address of segment `i`, whose fields follow one
another. Elements go in ascending order (R80). -/
def segments (m : Vm) (isLoad : Bool) (vm eew nf vd : Nat) (first : Bool) (at_ : Nat → Nat) : Vm :=
  let k := m.regs eew
  let cut := if first then
      (m.body vm).find? fun i => decide (0 < i) && !(reach (at_ i % 2 ^ 64) (nf * (eew / 8)))
    else none
  let m' := match cut with
    | some i => { m with r := { m.r with vl := i } }
    | none => m
  let t := eachUntil (fun m i => eachUntil (fun m f => m.access isLoad eew (vd + f * k) i (at_ i + f * (eew / 8)))
    (List.range nf) m) (m'.body vm) m'
  if t.bad then t else t.endV

/-- LOAD-FP and STORE-FP of vectors. -/
def memV (m : Vm) (w : Nat) : Vm :=
  let isLoad := decide (fld w 6 0 = 0x07)
  let nf := fld w 31 29 + 1
  let mop := fld w 27 26
  let vm := fld w 25 25
  let rs2 := fld w 24 20
  let a := m.x (fld w 19 15)
  let vd := fld w 11 7
  let eew := eewOf (fld w 14 12)
  if fld w 28 28 = 1 then m.fault
  else if mop = 0 ∧ rs2 = 0x08 then
    if nf ∈ [1, 2, 4, 8] ∧ vd % nf = 0 ∧ vm = 1 ∧ (isLoad = true ∨ eew = 8) then
      m.plainBlock isLoad eew vd (nf * 1024 / eew) a
    else m.fault
  else if m.ill then m.fault
  else if mop = 0 ∧ rs2 = 0x0B then
    if nf = 1 ∧ vm = 1 ∧ eew = 8 then m.plainBlock isLoad 8 vd ((m.r.vl + 7) / 8) a else m.fault
  else
    let indexed := decide (mop % 2 = 1)
    let data := if indexed then m.sew else eew
    let k := m.regs data
    let ok := m.groupOk (vd, data) && decide (nf * k ≤ 8) && decide (vd + nf * k ≤ 32) &&
      (!isLoad || decide (vm = 1) || decide (vd ≠ 0)) &&
      (!indexed || (m.groupOk (rs2, eew) && (!isLoad ||
        (if nf = 1 then m.overlapOk (vd, data) (rs2, eew)
         else (List.range nf).all fun f => m.apart (vd + f * k, data) (rs2, eew))))) &&
      (decide (mop ≠ 0) || decide (rs2 = 0) || (decide (rs2 = 0x10) && isLoad))
    if !ok then m.fault else
    m.segments isLoad vm data nf vd (decide (mop = 0) && decide (rs2 = 0x10)) fun i =>
      match mop with
      | 0 => a + i * nf * (eew / 8)
      | 2 => a + i * m.x rs2
      | _ => a + m.el eew rs2 i

/-- OP-V. All but the configuration instructions need a vtype. -/
def opV (m : Vm) (w : Nat) : Vm :=
  let o := vop w
  if o.f3 = 7 then m.config w
  else if m.ill then m.fault
  else match o.f3 with
    | 0 | 3 | 4 => m.opI o
    | 2 | 6 => m.opM o
    | _ => m.opF o

end Vm

end Sys2Proof.Machine
end

