-- ==== Sys2Proof/Machine/KernelRun.lean ====
section
/-!
DEFINITION. VEC and its ends (R78 to R81, R97): a kernel runs from its entry until it returns, raises an exception or
reaches its instruction limit. The model runs it whole at the row that ends it (log 14).
-/

namespace Sys2Proof.Machine

open Sys2Proof

/-! ### Running a kernel -/

namespace Vm

/-- One instruction word. -/
def exec (m : Vm) (w : Nat) : Vm :=
  let f3 := fld w 14 12
  match fld w 6 0 with
  | 0x07 | 0x27 => if f3 = 4 then m.fault else if 1 ≤ f3 ∧ f3 ≤ 3 then m.memFp w else m.memV w
  | 0x43 | 0x47 | 0x4B | 0x4F => m.fusedOp w
  | 0x53 => m.opFp w
  | 0x57 => m.opV w
  | _ => m.scalar w

/-- Fetch an instruction of two or four bytes from the kernel store and execute it; outside the store there is none. -/
def step (code : Nat → Nat) (m : Vm) : Vm :=
  let h := code m.pc + 256 * code (m.pc + 1)
  if 65536 < m.pc + 2 then m.fault
  else if h % 4 ≠ 3 then
    match expand h with
    | none => m.fault
    | some w => { m with next := m.pc + 2 }.exec w
  else if 65536 < m.pc + 4 then m.fault
  else { m with next := m.pc + 4 }.exec (h + 65536 * (code (m.pc + 2) + 256 * code (m.pc + 3)))

end Vm

/-- How a kernel ends (R79, R81, R97). -/
inductive KernelEnd where
  | returned | faulted | limit
  deriving DecidableEq, Repr

/-- Run a kernel for at most `n` instructions; `pc` stays at the instruction that it ends at. -/
def Vm.run (code : Nat → Nat) : Nat → Vm → Vm × KernelEnd
  | 0, m => (m, .limit)
  | n + 1, m =>
    let t := m.step code
    if t.bad then (t, .faulted)
    else if t.done then (t, .returned)
    else if n = 0 then (t, .limit)
    else Vm.run code n { t with pc := t.next }

/-- Run `n` instructions of a kernel; none if it ends before. -/
def Vm.runFor (code : Nat → Nat) : Nat → Vm → Option Vm
  | 0, m => some m
  | n + 1, m =>
    let t := m.step code
    if t.bad || t.done then none else Vm.runFor code n { t with pc := t.next }

/-- A byte of a core's kernel store: the image's KERNEL records laid into it in their order (R78; log 39). -/
def kernelByte (rs : List Rec) (k c a : Nat) : Nat :=
  match (recsOf rs segPrograms 4).reverse.find? (fun r => decide (r.u8 9 = k) && decide (r.u8 10 = c) &&
      decide (r.u32 16 ≤ a) && decide (a < r.u32 16 + r.u32 20)) with
  | some r => r.u8 (32 + (a - r.u32 16))
  | none => 0

/-- The kernel that runs: the oldest VEC (R113). -/
def CoreSt.kernel (x : CoreSt) : Option Flight := x.flights.find? fun f => decide (dOp f.desc = 2)

/-- The site-local offset of a kernel's data address, if the data map of R78 has it. -/
def kernelAddr (c a : Nat) : Option Nat :=
  if a < coreStoreSize then some (coreStoreBase c + a)
  else if 0x1000000 ≤ a ∧ a < 0x1000000 + clusterSize then some (clusterBase (c / 8) + (a - 0x1000000))
  else none

/-- A kernel at its start (R79): at its entry point, every register at its start value. -/
def State.kernelVm (s : State) (k c : Nat) (f : Flight) : Vm :=
  let pc := match kernelRec s.rs (s.core k c).ctx k c (df f.desc 43 32) with
    | some r => r.u32 16 + r.u32 24
    | none => 65536
  { r := .start, pc := pc, next := pc, bad := false, done := false
    src := fun a => match kernelAddr c a with
      | some off => s.byteAt k off
      | none => 0
    stores := [], loads := [] }

/-- A kernel run to its end (R81, R97). -/
def State.kernelRun (s : State) (k c : Nat) (f : Flight) : Vm × KernelEnd :=
  Vm.run (kernelByte s.rs k c) (df f.desc 95 64) (s.kernelVm k c f)

/-! ### The rows -/

/-- VEC (R97): the next descriptor is a VEC and may issue; its kernel starts with every register zeroed (R79) once the
one before it has ended. -/
def execVec (k : Stack) (c : Core) (fetched : Fetch) (s : State) : Out :=
  match s.ready k c 2 with
  | none => .next s
  | some d =>
    if fetched = .bad then .next (s.fetchParity k c) else
    let s := s.useParity k c fetched
    let s := if (s.core k c).kernel.isSome then s else s.setCore k c { s.core k c with vec := .start }
    .next (s.issue k c d 1 [] [])

/-- The stores that a kernel has completed reach their memories through port B, in order (R69, R81). `mets` are the
writes that they meet there. -/
def State.kernelStores (s : State) (k c : Nat) (mets : Meets) (st : List (Nat × List Byte)) : State :=
  st.foldl (fun (s : State) e =>
    match kernelAddr c e.1 with
    | some off => (s.portWrite k off 0 (issuerArgs s.pkg k c) mets e.2).1
    | none => s) s

/-- OR a kernel's fflags into CORE_VFLAGS (R79). -/
def State.orFlags (s : State) (k c : Nat) (fl : BitVec 5) : State :=
  s.setReg (Reg.CORE_VFLAGS k c) (s.reg (Reg.CORE_VFLAGS k c) ||| fl.setWidth 64)

/-- The parity failures among those of a kernel's loads (R66, R70). -/
def Vm.met (m : Vm) (c : Nat) (flaws : Flaws) : Flaws :=
  flaws.filter fun f => m.loads.any fun l => match kernelAddr c l.1 with
    | some off => decide (off ≤ f.1) && decide (f.1 < off + l.2)
    | none => false

/-- A kernel ends: what its loads met is reported, its stores are made, its flags joined, and the VEC completes (R66, R70,
R79, R81). The registers stay as it left them until the next kernel starts. -/
def State.kernelEnd (s : State) (k c : Nat) (f : Flight) (m : Vm) (flaws : Flaws) (mets : Meets) : State :=
  let s := (s.sourceCheck k c (m.met c flaws) false).1.kernelStores k c mets m.stores.reverse
  let s := ((s.setCore k c { s.core k c with vec := m.r }).orFlags k c m.r.fflags).finish k c f.serial
  if (s.core k c).kernel.isSome then s.setCore k c { s.core k c with vec := .start } else s

/-- VEC_KERNEL_RETURN (R79): the kernel returns from its entry function. `flaws` are the parity failures that its loads
meet, `mets` the writes that its stores meet. -/
def execVecKernelReturn (k : Stack) (c : Core) (flaws : Flaws) (mets : Meets) (s : State) : Out :=
  match (s.core k c).kernel with
  | none => .next s
  | some f =>
    match s.kernelRun k c f with
    | (m, .returned) => .next (s.kernelEnd k c f m flaws mets)
    | _ => .next s

/-- VEC_KERNEL_FAULT with the core and the program counter, which votes (R81). -/
def State.kernelFault (s : State) (k c pc : Nat) : State :=
  s.raise k 0x0201 [c, pc % 2 ^ 16, pc / 2 ^ 16]

/-- VEC_KERNEL_FAULT (R81): an exception or an access outside the data map ends the kernel. `parity` is the number of
instructions after which a parity failure of the kernel store or the vector registers ends it, which reports PARITY in
its place (R416). -/
def execVecKernelFault (k : Stack) (c : Core) (parity : Option Nat) (flaws : Flaws) (mets : Meets) (s : State) : Out :=
  match (s.core k c).kernel with
  | none => .next s
  | some f =>
    match parity with
    | some n =>
      match Vm.runFor (kernelByte s.rs k c) n (s.kernelVm k c f) with
      | some m =>
        if n < df f.desc 95 64 then
          .next ((s.kernelEnd k c f m flaws mets).coreFault k c [m.pc % 2 ^ 16, m.pc / 2 ^ 16 % 2 ^ 16])
        else .next s
      | none => .next s
    | none =>
      match s.kernelRun k c f with
      | (m, .faulted) => .next ((s.kernelEnd k c f m flaws mets).kernelFault k c (m.pc % 2 ^ 32))
      | _ => .next s

/-- INSTRUCTION_LIMIT (R97): the kernel retires MAX_INSN instructions and ends as a kernel fault. -/
def execInstructionLimit (k : Stack) (c : Core) (flaws : Flaws) (mets : Meets) (s : State) : Out :=
  match (s.core k c).kernel with
  | none => .next s
  | some f =>
    match s.kernelRun k c f with
    | (m, .limit) => .next ((s.kernelEnd k c f m flaws mets).kernelFault k c (m.pc % 2 ^ 32))
    | _ => .next s

end Sys2Proof.Machine
end

