-- ==== Sys2Proof/Machine/Management.lean ====
section
/-!
DEFINITION. The management plane (R455 to R464): the event ring, the Ohmune commands over the sideband, the host port
and the boundary-scan port, PLDM and MCTP, firmware update, and the IEEE 1149.1 instructions.
-/

namespace Sys2Proof.Machine

open Sys2Proof

/-! ### The event ring (R456) -/

/-- The 32 bytes of an event record (R455). -/
def eventBytes (r : EventRec) : List Byte :=
  leBytes 2 r.code ++ leBytes 1 r.site ++ leBytes 1 (bit r.voted + 2 * bit r.abandon) ++ leBytes 6 r.bell ++
    leBytes 2 0 ++ leBytes 4 r.count ++ leBytes 8 r.time ++ fitBytes 8 (r.args.flatMap fun a => leBytes 2 a)

/-- The ring that EVT_CTRL names, if it is a declared internal CTX0 ring. -/
def State.eventRing (s : State) : Option Rec :=
  if s.getF Reg.EVT_CTRL Fld.EVT_CTRL_VALID = 1 then
    (ringRec s.rs (s.getF Reg.EVT_CTRL Fld.EVT_CTRL_RING)).filter fun r =>
      decide (ringKind r = 0) && decide (ringCtx r = 0)
  else none

/-- EVENT_RING_WRITE (R456): the MC writes the oldest record not offered yet as an entry of OP 0x01; a full ring loses
it. A record that comes while no ring is named is not written to one (log 27). -/
def execEventRingWrite (s : State) : Out :=
  let i := max s.logRing s.logBase
  match s.log[i - s.logBase]? with
  | none => .next s
  | some r =>
    let s := { s with logRing := i + 1 }
    match s.eventRing with
    | none => .next s
    | some q =>
      let e : List Byte := leBytes 1 1 ++ leBytes 1 0 ++ leBytes 2 0xFFFF ++ leBytes 4 32 ++ leBytes 24 0 ++ eventBytes r
      .next ((s.produce q e).getD (s.bump Reg.EVT_STATUS Fld.EVT_STATUS_RING_LOST 1))

/-! ### Sessions (R460) -/

/-- Is the MC up? After a failed boot stage it accepts only a firmware update (R445). -/
def State.mcUp (s : State) : Bool :=
  s.power.on && decide (s.getF Reg.SEC_STATUS Fld.SEC_STATUS_FAIL = 0)

def State.session (s : State) (q : Requester) : MgmtSt := SMap.get MgmtSt.idle s.mgmt q.num
def State.setSession (s : State) (q : Requester) (x : MgmtSt) : State :=
  { s with mgmt := SMap.set MgmtSt.idle s.mgmt q.num x }

/-- Does a requester hold a session proved under the installed key that has not ended? -/
def State.proved (s : State) (q : Requester) : Bool :=
  match (s.session q).proved with
  | some (key, until_) => decide (s.opkey = some key) && decide (s.vt < until_)
  | none => false

/-- The COMMAND byte (R460). -/
def ohmuneCode : Ohmune → Nat
  | .getIdentity _ => 0x01
  | .attest _ _ _ => 0x02
  | .wake => 0x03
  | .sessionOpen => 0x04
  | .sessionProve _ => 0x05
  | .ctrlRead _ _ => 0x10
  | .ctrlWrite _ _ => 0x11
  | .eventRead _ => 0x12
  | .halt _ => 0x20
  | .resume _ => 0x20
  | .memRead _ _ _ => 0x21
  | .memWrite _ _ => 0x21
  | .moduleReset _ => 0x30

/-- Is a command accepted: while an operator key is installed, 0x06 and above need a proved session. -/
def State.accepts (s : State) (q : Requester) (cmd : Ohmune) : Bool :=
  s.opkey.isNone || decide (ohmuneCode cmd ≤ 0x05) || s.proved q

/-- Chunk `i` of 56 bytes. -/
def chunkOf (bs : List Byte) (i : Nat) : List Byte := (bs.drop (56 * i)).take 56

/-- The 32 bytes of a nonce. -/
def nonceBytes (n : BitVec 256) : List Byte := leBytes 32 n.toNat

/-- Ten minutes in ns. -/
def sessionNs : Nat := 600000000000

/-- SESSION_OPEN: a fresh nonce. -/
def State.openSession (s : State) (q : Requester) : State × List Byte :=
  let (n, s) := s.takeFree
  let nonce := Config.random n
  (s.setSession q { s.session q with nonce := some nonce }, nonceBytes nonce)

/-- SESSION_PROVE: the signature verifies over the nonce under the operator key; a nonce serves once (log 27). -/
def State.proveSession (s : State) (q : Requester) (sig : List Byte) : State × Bool :=
  let x := s.session q
  let t := s.setSession q { x with nonce := none }
  match s.opkey, x.nonce with
  | some key, some nonce =>
    if Config.hssVerify key (nonceBytes nonce) sig then
      (s.setSession q { x with nonce := none, proved := some (key, s.vt + sessionNs) }, true)
    else (t, false)
  | _, _ => (t, false)

/-- Sign, generating a lower tree first where no leaf is ready (R443). -/
def State.signNow (s : State) (bs : List Byte) : Option (List Byte × State) :=
  match s.sign bs with
  | some r => some r
  | none => (outState s (execLowerTreeGenerated s)).sign bs

/-- ATTEST: the report of a CTX and nonce, signed once and read in chunks (log 27). -/
def State.attestReport (s : State) (q : Requester) (ctx nonce chunk : Nat) : State × Option (List Byte) :=
  let x := s.session q
  let fresh : Bool := match x.report with
    | some (c, n, _) => decide (chunk = 0) || decide (c ≠ ctx) || decide (n ≠ nonce)
    | none => true
  if fresh = false then (s, x.report.map (·.2.2)) else
  if s.lms.exhausted then (s, none) else
  let body := s.attestBody ctx (leBytes 32 nonce) none
  match s.signNow body with
  | none => (s, none)
  | some (sig, s) => (s.setSession q { s.session q with report := some (ctx, nonce, body ++ sig) }, some (body ++ sig))

/-! ### Halts (R449, R462) -/

/-- Enter an access to a core in the ledger of the context it runs; a core that runs none has none. -/
def State.coreLedger (s : State) (q : Requester) (kind len : Nat) (t : CoreRef) : State :=
  let (who, host) := ledgerWho q
  match t with
  | .core k c =>
    let x := s.core k c
    if x.running then s.ledgerAdd x.ctx kind who host k len (leBytes 2 c.val) else s
  | .host h => s.ledgerAdd (s.hostCtx h) kind who host (h.val / 8) len (leBytes 2 h.val)

/-- Is a core enabled at a live site? -/
def State.coreThere (s : State) : CoreRef → Bool
  | .core k c => s.live k && decide (s.coreRole k c = 0)
  | .host h => s.live (h.val / 8) && decide (s.hostRole h = 0) &&
      decide (s.getF (Reg.HOST_CORE_STATUS h) Fld.HOST_CORE_STATUS_STATE ∈ [1, 2])

/-- Is a core halted? -/
def State.coreHalted (s : State) : CoreRef → Bool
  | .core k c => (s.core k c).halted
  | .host h => decide (s.getF (Reg.HOST_CORE_STATUS h) Fld.HOST_CORE_STATUS_STATE = 2)

/-- Halt a core or let it go on. -/
def State.setHalt (s : State) (t : CoreRef) (b : Bool) : State :=
  match t with
  | .core k c => (s.setCore k c { s.core k c with halted := b }).syncSeq k c
  | .host h => s.setF (Reg.HOST_CORE_STATUS h) Fld.HOST_CORE_STATUS_STATE (if b then 2 else 1)

/-- HALT (R462): entered in the ledger first. A core that is halted already stays so. -/
def State.halt (s : State) (q : Requester) (t : CoreRef) : State × Nat :=
  if s.coreThere t = false then (s, 3)
  else if s.coreHalted t then (s, 0)
  else ((s.coreLedger q 1 0 t).setHalt t true, 0)

/-- RESUME (R460). -/
def State.resumeCore (s : State) (q : Requester) (t : CoreRef) : State × Nat :=
  if s.coreThere t = false ∨ s.coreHalted t = false then (s, 3)
  else ((s.coreLedger q 2 0 t).setHalt t false, 0)

/-! ### Words and bytes (R449, R460) -/

/-- The core whose architectural register, CORE_VFLAGS, an address names (R449; log 27). -/
def State.archReg (s : State) (a : Nat) : Option CoreRef :=
  match s.hit a with
  | some h => match h.row.name, h.idx with
    | .CORE_VFLAGS, [k, c] =>
      if hk : k < 8 then if hc : c < 96 then some (.core ⟨k, hk⟩ ⟨c, hc⟩) else none else none
    | _, _ => none
  | none => none

/-- One command is one entry for each such core among its words (R449). -/
def State.regLedger (s : State) (q : Requester) (kind a n : Nat) : State :=
  (List.range n).foldl (fun (s : State) i => match s.archReg (a + 4 * i) with
    | some t => s.coreLedger q kind 4 t
    | none => s) s

/-- CTRL_READ: words in order, each a 32-bit read. -/
def State.readWords (s : State) (q : Requester) (a n : Nat) : State × List Byte :=
  (List.range n).foldl (fun (p : State × List Byte) i =>
    let (s, v) := p.1.ctrlRead q (a + 4 * i) false
    (s, p.2 ++ leBytes 4 v.toNat)) (s, [])

/-- CTRL_WRITE: words in order, each a 32-bit write. -/
def State.writeWords (s : State) (q : Requester) (a : Nat) (ws : List (BitVec 32)) : State :=
  ws.zipIdx.foldl (fun (s : State) p => s.ctrlWrite q (a + 4 * p.2) false (p.1.zeroExtend 64)) s

/-- Is a granule on the MC's own bridge? -/
def State.mcOwn (s : State) (b : Nat) : Bool := decide (gPkg b = s.pkg) && decide (gSite b = mcPort)

/-- An access of the MC fails at its own bridge. -/
def State.mcFails (s : State) (id o status : Nat) : State :=
  (s.raiseStatus mcPort status (issuerArgs s.pkg mcPort mcIssuer)).xferPart id o status []

/-- A packet of the MC: VC6, CTX0. -/
def mcPacket (b op mask : Nat) (bs : List Byte) : Packet :=
  { Packet.zero with
    op := BitVec.ofNat 8 op, vc := 6, last := decide (op = 0x01), dstPkg := BitVec.ofNat 16 (gPkg b)
    dstSite := siteOf (gSite b), addr := BitVec.ofNat 43 (gOff b), len := 32, mask := BitVec.ofNat 32 mask
    payload := bs }

/-- One granule of a MEM_READ: at S12 itself, or by a READ_REQ under class 3. -/
def State.mcRead (s : State) (b id o : Nat) (flaws : Flaws) : State :=
  if s.mcOwn b then
    if s.live mcPort = false then s.mcFails id o stFenced
    else if s.rangeFits mcPort 0 (gOff b) 32 true true false = false then s.mcFails id o stWindow
    else match s.readCheck mcPort (gOff b) 32 flaws false (issuerArgs s.pkg mcPort mcIssuer) with
      | (s, some st) => s.xferPart id o st []
      | (s, none) => s.xferPart id o 0 (s.readMem mcPort (gOff b) 32)
  else s.titheSend mcPort 3 112 mcIssuer (mcPacket b 0x08 0 []) 32 (.xfer id o)

/-- One granule of a MEM_WRITE: only the requested bytes. -/
def State.mcWrite (s : State) (b id o g : Nat) (bytes : List Byte) : State :=
  if s.mcOwn b then
    if s.live mcPort = false then s.mcFails id o stFenced
    else if s.rangeFits mcPort 0 (gOff b) 32 true false true = false then s.mcFails id o stWindow
    else
      let from_ := max b g
      (s.storeRun 0 (gSite from_) (gOff from_) ((bytes.drop (from_ - g)).take (b + 32 - from_))).xferPart id o 0 []
  else
    let (bs, mask) := granuleOf b g bytes
    s.titheSend mcPort 3 72 mcIssuer (mcPacket b 0x01 mask bs) 32 (.xfer id o)

/-- MEM_READ: every granule that holds a requested byte. -/
def State.memRead (s : State) (q : Requester) (rep seq g n : Nat) (flaws : Flaws) : State :=
  let (who, host) := ledgerWho q
  let s := s.ledgerTouch 4 who host g n
  let bases := unitBases 32 g n
  let (s, id) := s.beginXfer bases.length (.memRead q seq (g % 32) n rep)
  bases.zipIdx.foldl (fun (s : State) p => s.mcRead p.1 id (32 * p.2) flaws) s

/-- MEM_WRITE. -/
def State.memWrite (s : State) (q : Requester) (rep seq g : Nat) (bytes : List Byte) : State :=
  let (who, host) := ledgerWho q
  let s := s.ledgerTouch 5 who host g bytes.length
  let bases := unitBases 32 g bytes.length
  let (s, id) := s.beginXfer bases.length (.memWrite q seq rep)
  bases.zipIdx.foldl (fun (s : State) p => s.mcWrite p.1 id (32 * p.2) g bytes) s

/-- EVENT_READ: the oldest record not read yet. -/
def State.nextEvent (s : State) : State × List Byte :=
  let i := max s.logRead s.logBase
  match s.log[i - s.logBase]? with
  | some r => ({ s with logRead := i + 1 }, eventBytes r)
  | none => (s, [])

/-! ### Serving a command (R460) -/

/-- Serve an Ohmune command of a requester; `rep` is the length of the frame that answers through the host port. -/
def State.serve (s : State) (q : Requester) (rep seq : Nat) (cmd : Ohmune) : State :=
  let ans := fun (s : State) (st : Nat) (bs : List Byte) => s.operatorOut q rep (ohmune (ohmuneCode cmd) seq st bs)
  if s.accepts q cmd = false then ans s 2 [] else
  match cmd with
  | .getIdentity i =>
    let bs := chunkOf Config.identity i.toNat
    ans s (if bs = [] then 1 else 0) bs
  | .attest ctx nonce i =>
    if reportLen ≤ 56 * i.toNat then ans s 1 [] else
    match s.attestReport q ctx.toNat nonce.toNat i.toNat with
    | (s, some bs) => ans s 0 (chunkOf bs i.toNat)
    | (s, none) => ans s 4 []
  | .wake => ans s.wake 0 []
  | .sessionOpen =>
    let (s, bs) := s.openSession q
    ans s 0 bs
  | .sessionProve sig =>
    let (s, ok) := s.proveSession q sig
    ans s (if ok then 0 else 2) []
  | .ctrlRead a n =>
    if n = 0 ∨ 14 < n.toNat then ans s 1 [] else
    let (s, bs) := (s.regLedger q 3 a.toNat n.toNat).readWords q a.toNat n.toNat
    ans s 0 bs
  | .ctrlWrite a ws =>
    if ws = [] ∨ 14 < ws.length then ans s 1 [] else
    ans ((s.regLedger q 6 a.toNat ws.length).writeWords q a.toNat ws) 0 []
  | .eventRead n =>
    if n ≠ 1 then ans s 1 [] else
    let (s, bs) := s.nextEvent
    ans s 0 bs
  | .halt t =>
    let (s, st) := s.halt q t
    ans s st []
  | .resume t =>
    let (s, st) := s.resumeCore q t
    ans s st []
  | .memRead g n flaws =>
    if n = 0 ∨ 48 < n.toNat then ans s 1 [] else s.memRead q rep seq g.toNat n.toNat flaws
  | .memWrite g bs =>
    if bs = [] ∨ 48 < bs.length then ans s 1 [] else s.memWrite q rep seq g.toNat bs
  | .moduleReset run => ((ans s 0 []).powerOff).coldStart run

/-- Serve the commands that the host port has let through. -/
def State.serveInbox (s : State) : State :=
  s.inbox.foldl (fun (s : State) e => s.serve .port e.1 e.2.1 e.2.2) { s with inbox := [] }

/-- A command comes in. -/
def State.ask (s : State) (via : Via) (seq : BitVec 8) (cmd : Ohmune) : State :=
  if s.mcUp = false then s else
  match via with
  | .bus => s.serve .sideband 0 seq.toNat cmd
  | .port f => (s.arrive f.sec (frameWith f (.ohmune seq.toNat cmd))).serveInbox

/-- TITHE_ADMIT (R156): what waits on the request goes; an Ohmune command of the host port is served. -/
def execTitheAdmit (site : Site) (cls : Fin 9) (s : State) : Out := .next (s.titheAdmit site cls).serveInbox

/-- GET_IDENTITY (R460). -/
def execGetIdentity (via : Via) (seq chunk : BitVec 8) (s : State) : Out := .next (s.ask via seq (.getIdentity chunk))
/-- ATTEST (R460, R447). -/
def execAttest (via : Via) (seq ctx : BitVec 8) (nonce : BitVec 256) (chunk : BitVec 8) (s : State) : Out :=
  .next (s.ask via seq (.attest ctx nonce chunk))
/-- WAKE (R409, R460). -/
def execWake (via : Via) (seq : BitVec 8) (s : State) : Out := .next (s.ask via seq .wake)
/-- SESSION_OPEN (R460). -/
def execSessionOpen (via : Via) (seq : BitVec 8) (s : State) : Out := .next (s.ask via seq .sessionOpen)
/-- SESSION_PROVE (R460). -/
def execSessionProve (via : Via) (seq : BitVec 8) (sig : List Byte) (s : State) : Out :=
  .next (s.ask via seq (.sessionProve sig))
/-- SESSION_EXPIRY (R460): a session that was proved 10 minutes ago ends. -/
def execSessionExpiry (r : Requester) (s : State) : Out :=
  match (s.session r).proved with
  | some (_, until_) => .next (if until_ ≤ s.vt then s.setSession r { s.session r with proved := none } else s)
  | none => .next s
/-- CTRL_READ (R460). -/
def execCtrlRead (via : Via) (seq : BitVec 8) (addr : BitVec 40) (words : BitVec 8) (s : State) : Out :=
  .next (s.ask via seq (.ctrlRead addr words))
/-- CTRL_WRITE (R460). -/
def execCtrlWrite (via : Via) (seq : BitVec 8) (addr : BitVec 40) (words : List (BitVec 32)) (s : State) : Out :=
  .next (s.ask via seq (.ctrlWrite addr words))
/-- EVENT_READ (R460). -/
def execEventRead (via : Via) (seq count : BitVec 8) (s : State) : Out := .next (s.ask via seq (.eventRead count))
/-- HALT (R460, R462). -/
def execHalt (via : Via) (seq : BitVec 8) (target : CoreRef) (s : State) : Out := .next (s.ask via seq (.halt target))
/-- RESUME (R460, R462). -/
def execCoreResume (via : Via) (seq : BitVec 8) (target : CoreRef) (s : State) : Out :=
  .next (s.ask via seq (.resume target))
/-- MEM_READ (R460). -/
def execMemRead (via : Via) (seq : BitVec 8) (addr : BitVec 64) (len : BitVec 8) (flaws : Flaws) (s : State) : Out :=
  .next (s.ask via seq (.memRead addr len flaws))
/-- MEM_WRITE (R460). -/
def execMemWrite (via : Via) (seq : BitVec 8) (addr : BitVec 64) (bytes : List Byte) (s : State) : Out :=
  .next (s.ask via seq (.memWrite addr bytes))
/-- MODULE_RESET (R333, R460). -/
def execModuleReset (via : Via) (seq : BitVec 8) (run : StartRun) (s : State) : Out :=
  .next (s.ask via seq (.moduleReset run))

/-! ### The boundary-scan port (R461, R482) -/

/-- DEBUG_ACCESS (R461): an Ohmune command with the sideband's requester (R8); it sets DEBUG bit 0. -/
def execDebugAccess (seq : BitVec 8) (cmd : Ohmune) (s : State) : Out :=
  .next ({ s with debugUsed := true }.ask .bus seq cmd)

/-- Is a rail above the standby domain up (R407, R461)? -/
def State.railsUp (s : State) : Bool := s.power.on && decide (s.pwrState ≠ 3)

/-- BYPASS (R461): one stage that captures 0 between TDI and TDO (PRESUMED: IEEE 1149.1). -/
def execBypass (tdi : List Bool) (s : State) : Out := .next (s.emit (.tap ((false :: tdi).take tdi.length)))

/-- The 32 bits of IDCODE (R482). -/
def idcode (stepping order : Nat) : BitVec 32 :=
  BitVec.ofNat 32 (stepping / 16 * 2 ^ 28 + order * 2 ^ 12 + 0x4D7 * 2 + 1)

/-- IDCODE (R482), least significant bit first. -/
def execIdcode (s : State) : Out :=
  let v := idcode (s.getF Reg.CFG_IDENT Fld.CFG_IDENT_STEPPING) (s.getF Reg.CFG_IDENT Fld.CFG_IDENT_ORDER)
  .next (s.emit (.tap ((List.range 32).map fun i => v.getLsbD i)))

/-- SAMPLE/PRELOAD (R461): the pins are sampled and the boundary register takes what is shifted in. -/
def execSamplePreload (pins load : List Bool) (s : State) : Out :=
  .next { s.emit (.tap pins) with bscan := load }

/-- EXTEST (R461): drives the boundary register's bits and samples the pins; refused while a rail above the standby
domain is up. Either use sets DEBUG bit 0. -/
def execExtest (pins load : List Bool) (s : State) : Out :=
  let s := { s with debugUsed := true }
  if s.railsUp then .next s
  else .next { (s.emit (.drive s.bscan)).emit (.tap pins) with bscan := load }

/-! ### Firmware update (R445, R464) -/

/-- Put a verified image into the bank that the component does not run from; the next cold start tries it first. A
revocation list, component 4, activates at once. -/
def FwComp.take (c : FwComp) (n : Nat) (i : FwImage) : FwComp :=
  let bank := !c.runs
  let c := if bank then { c with b := some i } else { c with a := some i }
  { c with second := bank, runs := if n = 4 then bank else c.runs }

/-- FIRMWARE_UPDATE (R464): `good` says that the image's signature verifies; its security version must reach the OTP
counter (R445). The MC takes it in a failed start too. The completion code is PRESUMED (DSP0240). -/
def execFirmwareUpdate (comp : Fin 5) (stage : List Byte) (version : BitVec 32) (good : Bool) (s : State) : Out :=
  if s.power.on = false then .next s else
  match s.firmware[comp.val]? with
  | none => .next s
  | some c =>
    if good = true ∧ c.counter ≤ version.toNat then
      .next (({ s with firmware := s.firmware.set comp.val (c.take comp.val ⟨stage, version.toNat⟩) }).emit
        (.sideband .sideband [0]))
    else .next (s.emit (.sideband .sideband [1]))

/-- ACTIVATE_FIRMWARE (R460): self-contained activation is a module reset. -/
def execActivateFirmware (run : StartRun) (s : State) : Out :=
  if s.power.on then .next (((s.emit (.sideband .sideband [0])).powerOff).coldStart run) else .next s

/-! ### An empty queue (log 1) -/

/-- With no command waiting, one tick of the 1 GHz oscillator passes: village time, the stretches that wait, a start or
resets under way, and the entry into safelight. Without supply nothing passes. -/
def State.idle (s : State) : State := if s.power.on then ((((s.tick.stretchTick).startTick).resetTick).sleepTick).portTick else s

/-! ### PLDM, MCTP and the bus (R459) -/

/-- Answer over the sideband. -/
def State.busOut (s : State) (bs : List Byte) : State := s.emit (.sideband .sideband bs)

/-- PLDM_DISCOVERY (R459): types 0, 2 and 5. Formats and completion codes are PRESUMED (DSP0240); versions and the
supported commands are free values. -/
def execPldmDiscovery (ask : PldmAsk) (s : State) : Out :=
  if s.mcUp = false then .next s else
  let known := fun (t : BitVec 8) => decide (t.toNat ∈ [0, 2, 5])
  match ask with
  | .setTid t => .next ({ s with tid := t.toNat }.busOut [0])
  | .getTid => .next (s.busOut (0 :: leBytes 1 s.tid))
  | .getTypes => .next (s.busOut (0 :: leBytes 8 0x25))
  | .getVersion t =>
    if known t then
      let (n, s) := s.takeFree
      .next (s.busOut (0 :: leBytes 4 (Config.freeWord n).toNat))
    else .next (s.busOut [5])
  | .getCommands t =>
    if known t then
      let (n, s) := s.takeFree
      .next (s.busOut (0 :: leBytes 32 (Config.freeWord n).toNat))
    else .next (s.busOut [5])

/-- PLDM_MONITORING (R459): a sensor's reading, 4 bytes; a pair with no valid reading answers 1 (unavailable). What a
rail measures is a free value. -/
def execPldmMonitoring (sensor : PldmSensor) (s : State) : Out :=
  if s.mcUp = false then .next s else
  match sensor with
  | .pair loc k => match s.pairValue loc k with
    | some t => .next (s.busOut (0 :: leBytes 4 (twos32 t)))
    | none => .next (s.busOut [1])
  | .vin => .next (s.busOut (0 :: leBytes 4 (s.getF Reg.PWR_INPUT Fld.PWR_INPUT_VOLTS)))
  | .power => .next (s.busOut (0 :: leBytes 4 (s.getF Reg.PWR_LIMIT Fld.PWR_LIMIT_WATTS)))
  | .rail _ =>
    let (n, s) := s.takeFree
    .next (s.busOut (0 :: leBytes 4 (Config.freeWord n).toNat))

/-- MCTP_CONTROL (R459): message types 0x01 PLDM and 0x7F, vendor 0x0000_7A31. Formats are PRESUMED (DSP0236); the
version is a free value. -/
def execMctpControl (ask : MctpAsk) (s : State) : Out :=
  if s.mcUp = false then .next s else
  match ask with
  | .setEid e =>
    if e = 0 ∨ e = 0xFF then .next (s.busOut [2])
    else .next ({ s with eid := e.toNat }.busOut ([0, 0, e, 0] : List Byte))
  | .getEid => .next (s.busOut ([0] ++ leBytes 1 s.eid ++ [0, 0]))
  | .getVersion =>
    let (n, s) := s.takeFree
    .next (s.busOut (([0, 1] : List Byte) ++ leBytes 4 (Config.freeWord n).toNat))
  | .getTypes => .next (s.busOut [0, 2, 0x01, 0x7F])
  | .getVendor => .next (s.busOut (([0, 0xFF, 1] : List Byte) ++ (leBytes 4 0x7A31).reverse ++ leBytes 2 0))

/-- The static I3C address that SETDASA uses (R473). -/
def State.staticAddr (s : State) : Nat := 0x30 + s.saPins.toNat

/-- DYNAMIC_ADDRESS (R459, R473): ENTDAA (`static` none) or SETDASA to a static address assigns the I3C dynamic address;
`sa` are the levels of I3C_SA1 and I3C_SA0. SETDASA to another static address is not for this module. -/
def execDynamicAddress (sa : BitVec 2) (static : Option (BitVec 7)) (addr : BitVec 7) (s : State) : Out :=
  if s.power.on = false then .next s else
  let s := { s with saPins := sa }
  let mine := match static with
    | none => true
    | some a => decide (a.toNat = s.staticAddr)
  .next (if mine then { s with dynAddr := some addr } else s)

end Sys2Proof.Machine
end

