-- ==== Sys2Proof/Machine/Dispatch.lean ====
section
/-!
DEFINITION. The dispatcher: one arm per command, each a call of its meaning.
-/

namespace Sys2Proof.Machine

open Sys2Proof

/-- The effect of a command on everything but the queue. -/
def exec (i : Instr) (s : State) : Host.Outcome State Fault Refusal :=
  match i with
  | .registerWrite r addr wide v => Sys2Proof.Machine.execRegisterWrite r addr wide v s
  | .latchedLowRead r addr => Sys2Proof.Machine.execLatchedLowRead r addr s
  | .latchedHighRead r addr => Sys2Proof.Machine.execLatchedHighRead r addr s
  | .latchedHighWrite r addr v => Sys2Proof.Machine.execLatchedHighWrite r addr v s
  | .latchedLowWrite r addr v => Sys2Proof.Machine.execLatchedLowWrite r addr v s
  | .unmappedAccess r addr write => Sys2Proof.Machine.execUnmappedAccess r addr write s
  | .clrParity k c => Sys2Proof.Machine.execClrParity k c s
  | .clrMin k c => Sys2Proof.Machine.execClrMin k c s
  | .mma k c fetched => Sys2Proof.Machine.execMma k c fetched s
  | .mmaComplete k c storeFlaws arrayBad => Sys2Proof.Machine.execMmaComplete k c storeFlaws arrayBad s
  | .vec k c fetched => Sys2Proof.Machine.execVec k c fetched s
  | .vecKernelReturn k c flaws mets => Sys2Proof.Machine.execVecKernelReturn k c flaws mets s
  | .vecKernelFault k c parity flaws mets => Sys2Proof.Machine.execVecKernelFault k c parity flaws mets s
  | .instructionLimit k c flaws mets => Sys2Proof.Machine.execInstructionLimit k c flaws mets s
  | .moveDesc k c fetched flaws mets => Sys2Proof.Machine.execMoveDesc k c fetched flaws mets s
  | .reduceDesc k c fetched flaws => Sys2Proof.Machine.execReduceDesc k c fetched flaws s
  | .signalDesc k c fetched => Sys2Proof.Machine.execSignalDesc k c fetched s
  | .waitDesc k c fetched => Sys2Proof.Machine.execWaitDesc k c fetched s
  | .waitSatisfied k c => Sys2Proof.Machine.execWaitSatisfied k c s
  | .branchDesc k c fetched => Sys2Proof.Machine.execBranchDesc k c fetched s
  | .branchResolve k c flaws mets => Sys2Proof.Machine.execBranchResolve k c flaws mets s
  | .fenceDesc k c fetched => Sys2Proof.Machine.execFenceDesc k c fetched s
  | .fenceComplete k c => Sys2Proof.Machine.execFenceComplete k c s
  | .commitWrite k c fetched flaws => Sys2Proof.Machine.execCommitWrite k c fetched flaws s
  | .bellEnd k c fetched => Sys2Proof.Machine.execBellEnd k c fetched s
  | .bellEndRetire k c => Sys2Proof.Machine.execBellEndRetire k c s
  | .fillRecord k c ctx at_ bytes => Sys2Proof.Machine.execFillRecord k c ctx at_ bytes s
  | .bellBoundary site => Sys2Proof.Machine.execBellBoundary site s
  | .guardStart site => Sys2Proof.Machine.execGuardStart site s
  | .checkPoint site => Sys2Proof.Machine.execCheckPoint site s
  | .voteFrame child bell fault lost rx => Sys2Proof.Machine.execVoteFrame child bell fault lost rx s
  | .voteMissing child => Sys2Proof.Machine.execVoteMissing child s
  | .lateFrame child bell m rx => Sys2Proof.Machine.execLateFrame child bell m rx s
  | .latenessDecision => Sys2Proof.Machine.execLatenessDecision s
  | .clearFrame site bell until_ flaws rx => Sys2Proof.Machine.execClearFrame site bell until_ flaws rx s
  | .replayFrame site bell start rx => Sys2Proof.Machine.execReplayFrame site bell start rx s
  | .replayStart site => Sys2Proof.Machine.execReplayStart site s
  | .extendFrame site bell m rx => Sys2Proof.Machine.execExtendFrame site bell m rx s
  | .closeFrame site bell m forced rx => Sys2Proof.Machine.execCloseFrame site bell m forced rx s
  | .holdFrame site bell reason rx => Sys2Proof.Machine.execHoldFrame site bell reason rx s
  | .resumeFrame site bell start rx => Sys2Proof.Machine.execResumeFrame site bell start rx s
  | .resumeStart site => Sys2Proof.Machine.execResumeStart site s
  | .settleFrame site bell rx => Sys2Proof.Machine.execSettleFrame site bell rx s
  | .bellFrame site bell time rx => Sys2Proof.Machine.execBellFrame site bell time rx s
  | .announce site bell arg rx => Sys2Proof.Machine.execAnnounce site bell arg rx s
  | .commitDeadline site => Sys2Proof.Machine.execCommitDeadline site s
  | .holdUntil site => Sys2Proof.Machine.execHoldUntil site s
  | .bellCtrlHoldReq => Sys2Proof.Machine.execBellCtrlHoldReq s
  | .bellCtrlResume => Sys2Proof.Machine.execBellCtrlResume s
  | .holdPeriodBoundary site => Sys2Proof.Machine.execHoldPeriodBoundary site s
  | .titheRequest site cls cost id => Sys2Proof.Machine.execTitheRequest site cls cost id s
  | .titheAdmit site cls => Sys2Proof.Machine.execTitheAdmit site cls s
  | .cacheInvalidation k => Sys2Proof.Machine.execCacheInvalidation k s
  | .frameGroupRetire k port group bad => Sys2Proof.Machine.execFrameGroupRetire k port group bad s
  | .pageRetire b bad => Sys2Proof.Machine.execPageRetire b bad s
  | .memAckLost b => Sys2Proof.Machine.execMemAckLost b s
  | .carrierLoss tx rx plane => Sys2Proof.Machine.execCarrierLoss tx rx plane s
  | .carrierReturn tx rx plane => Sys2Proof.Machine.execCarrierReturn tx rx plane s
  | .carrierFailed tx rx plane late lane bad => Sys2Proof.Machine.execCarrierFailed tx rx plane late lane bad s
  | .stripeMarker site hop version => Sys2Proof.Machine.execStripeMarker site hop version s
  | .combFailure site comb => Sys2Proof.Machine.execCombFailure site comb s
  | .bracketComplete ch r => Sys2Proof.Machine.execBracketComplete ch r s
  | .sensorBracket loc n offset => Sys2Proof.Machine.execSensorBracket loc n offset s
  | .writePacket site a mets bad => Sys2Proof.Machine.execWritePacket site a mets bad s
  | .writeCommit site a bad => Sys2Proof.Machine.execWriteCommit site a bad s
  | .mcastWrite site a mets bad => Sys2Proof.Machine.execMcastWrite site a mets bad s
  | .readReq site a flaws => Sys2Proof.Machine.execReadReq site a flaws s
  | .readResp site a mets => Sys2Proof.Machine.execReadResp site a mets s
  | .errorResp site a => Sys2Proof.Machine.execErrorResp site a s
  | .reduceAdd site a flaws => Sys2Proof.Machine.execReduceAdd site a flaws s
  | .reduceMax site a flaws => Sys2Proof.Machine.execReduceMax site a flaws s
  | .reduceMin site a flaws => Sys2Proof.Machine.execReduceMin site a flaws s
  | .lineOutput site group count mets => Sys2Proof.Machine.execLineOutput site group count mets s
  | .atomicAdd site a flaws => Sys2Proof.Machine.execAtomicAdd site a flaws s
  | .atomicCas site a flaws => Sys2Proof.Machine.execAtomicCas site a flaws s
  | .signalPacket site a => Sys2Proof.Machine.execSignalPacket site a s
  | .credit site a => Sys2Proof.Machine.execCredit site a s
  | .creditReturnTimer site hop => Sys2Proof.Machine.execCreditReturnTimer site hop s
  | .creditStall site hop vc => Sys2Proof.Machine.execCreditStall site hop vc s
  | .controlCodeword site peer lane word codes => Sys2Proof.Machine.execControlCodeword site peer lane word codes s
  | .hopRetryTimeout site hop ctrl => Sys2Proof.Machine.execHopRetryTimeout site hop ctrl s
  | .pairReset site peer ctrl => Sys2Proof.Machine.execPairReset site peer ctrl s
  | .packetAged site hop => Sys2Proof.Machine.execPacketAged site hop s
  | .tagTimeout site issuer tag => Sys2Proof.Machine.execTagTimeout site issuer tag s
  | .quarantineEnd site issuer tag => Sys2Proof.Machine.execQuarantineEnd site issuer tag s
  | .linkTraining link peer => Sys2Proof.Machine.execLinkTraining link peer s
  | .linkControlCodeword link slot level word codes => Sys2Proof.Machine.execLinkControlCodeword link slot level word codes s
  | .linkRedirect link lost => Sys2Proof.Machine.execLinkRedirect link lost s
  | .dedupeExpiry site => Sys2Proof.Machine.execDedupeExpiry site s
  | .restoreLinks engine => Sys2Proof.Machine.execRestoreLinks engine s
  | .revertiveReturn link => Sys2Proof.Machine.execRevertiveReturn link s
  | .wavelengthFailed link wave => Sys2Proof.Machine.execWavelengthFailed link wave s
  | .linkFailed link => Sys2Proof.Machine.execLinkFailed link s
  | .lnkReset r engine mask => Sys2Proof.Machine.execLnkReset r engine mask s
  | .replicationTimeout site => Sys2Proof.Machine.execReplicationTimeout site s
  | .hostLoad h pa size parity flaws => Sys2Proof.Machine.execHostLoad h pa size parity flaws s
  | .hostStore h pa bytes what how => Sys2Proof.Machine.execHostStore h pa bytes what how s
  | .hostAmo h pa amo how flaws => Sys2Proof.Machine.execHostAmo h pa amo how flaws s
  | .hostCoreLost h => Sys2Proof.Machine.execHostCoreLost h s
  | .producerDoorbell r ring index => Sys2Proof.Machine.execProducerDoorbell r ring index s
  | .consumerDoorbell r ring index => Sys2Proof.Machine.execConsumerDoorbell r ring index s
  | .ringNop ring => Sys2Proof.Machine.execRingNop ring s
  | .sendInline ring w => Sys2Proof.Machine.execSendInline ring w s
  | .ringSend ring w flaws => Sys2Proof.Machine.execRingSend ring w flaws s
  | .rdmaWrite ring w flaws => Sys2Proof.Machine.execRdmaWrite ring w flaws s
  | .rdmaRead ring w => Sys2Proof.Machine.execRdmaRead ring w s
  | .rawTx ring w flaws => Sys2Proof.Machine.execRawTx ring w flaws s
  | .saInstall ring => Sys2Proof.Machine.execSaInstall ring s
  | .completionRoom ring => Sys2Proof.Machine.execCompletionRoom ring s
  | .keyxRequest ring => Sys2Proof.Machine.execKeyxRequest ring s
  | .keyxCiphertext ring flaws => Sys2Proof.Machine.execKeyxCiphertext ring flaws s
  | .bounce ring => Sys2Proof.Machine.execBounce ring s
  | .rawFrameRx f bytes => Sys2Proof.Machine.execRawFrameRx f bytes s
  | .inboundSend f qpn hdr pay => Sys2Proof.Machine.execInboundSend f qpn hdr pay s
  | .inboundRdmaWrite f qpn hdr va rkey pay => Sys2Proof.Machine.execInboundRdmaWrite f qpn hdr va rkey pay s
  | .inboundRdmaRead f qpn hdr va rkey len flaws => Sys2Proof.Machine.execInboundRdmaRead f qpn hdr va rkey len flaws s
  | .unsupportedRequest f qpn => Sys2Proof.Machine.execUnsupportedRequest f qpn s
  | .cnp f qpn => Sys2Proof.Machine.execCnp f qpn s
  | .pfcFrame prio pause => Sys2Proof.Machine.execPfcFrame prio pause s
  | .ringCopy ring flaws => Sys2Proof.Machine.execRingCopy ring flaws s
  | .ringReadySignal ring => Sys2Proof.Machine.execRingReadySignal ring s
  | .ringSlotReserve ring => Sys2Proof.Machine.execRingSlotReserve ring s
  | .retrain ok800 => Sys2Proof.Machine.execRetrain ok800 s
  | .force400 on ok800 => Sys2Proof.Machine.execForce400 on ok800 s
  | .cfgEnable part slot => Sys2Proof.Machine.execCfgEnable part slot s
  | .enableCheckDone => Sys2Proof.Machine.execEnableCheckDone s
  | .cfgCancel part slot => Sys2Proof.Machine.execCfgCancel part slot s
  | .cfgActivate valid bell => Sys2Proof.Machine.execCfgActivate valid bell s
  | .altSelect v => Sys2Proof.Machine.execAltSelect v s
  | .installationDone => Sys2Proof.Machine.execInstallationDone s
  | .coldStart run => Sys2Proof.Machine.execColdStart run s
  | .resetN run => Sys2Proof.Machine.execResetN run s
  | .siteReset r site => Sys2Proof.Machine.execSiteReset r site s
  | .gatewayReset r site => Sys2Proof.Machine.execGatewayReset r site s
  | .computeDieReset r k => Sys2Proof.Machine.execComputeDieReset r k s
  | .gwAckLost r site => Sys2Proof.Machine.execGwAckLost r site s
  | .readmission site fail => Sys2Proof.Machine.execReadmission site fail s
  | .fieldReset r field => Sys2Proof.Machine.execFieldReset r field s
  | .heaterHoldExpiry field => Sys2Proof.Machine.execHeaterHoldExpiry field s
  | .fieldRelease r field => Sys2Proof.Machine.execFieldRelease r field s
  | .heartbeatLoss site peer => Sys2Proof.Machine.execHeartbeatLoss site peer s
  | .mcFenceOrder peer => Sys2Proof.Machine.execMcFenceOrder peer s
  | .gatewaySelfFence site => Sys2Proof.Machine.execGatewaySelfFence site s
  | .computeClockLoss k => Sys2Proof.Machine.execComputeClockLoss k s
  | .mcSilenceReset site => Sys2Proof.Machine.execMcSilenceReset site s
  | .stopChannelTimeout k stop => Sys2Proof.Machine.execStopChannelTimeout k stop s
  | .refclkLoss => Sys2Proof.Machine.execRefclkLoss s
  | .refclkTimeout => Sys2Proof.Machine.execRefclkTimeout s
  | .regionTarget r region target => Sys2Proof.Machine.execRegionTarget r region target s
  | .regionStop region ns => Sys2Proof.Machine.execRegionStop region ns s
  | .adaptiveStretch region eighths => Sys2Proof.Machine.execAdaptiveStretch region eighths s
  | .servoUpdate => Sys2Proof.Machine.execServoUpdate s
  | .clockHoldover => Sys2Proof.Machine.execClockHoldover s
  | .temperatureCorrection => Sys2Proof.Machine.execTemperatureCorrection s
  | .lockLoopUpdate site ring loop detune => Sys2Proof.Machine.execLockLoopUpdate site ring loop detune s
  | .heaterFault site ring => Sys2Proof.Machine.execHeaterFault site ring s
  | .identityRead site ring code tone temp => Sys2Proof.Machine.execIdentityRead site ring code tone temp s
  | .ffGainAdapt site ring => Sys2Proof.Machine.execFfGainAdapt site ring s
  | .biasUpdate site comb away capped hot => Sys2Proof.Machine.execBiasUpdate site comb away capped hot s
  | .supplyLow => Sys2Proof.Machine.execSupplyLow s
  | .fixing high => Sys2Proof.Machine.execFixing high s
  | .pwrFailN => Sys2Proof.Machine.execPwrFailN s
  | .holdupFault => Sys2Proof.Machine.execHoldupFault s
  | .powerSample volts amps stop => Sys2Proof.Machine.execPowerSample volts amps stop s
  | .thermalSample read stop => Sys2Proof.Machine.execThermalSample read stop s
  | .tripRelease part => Sys2Proof.Machine.execTripRelease part s
  | .safelight r => Sys2Proof.Machine.execSafelight r s
  | .safelightEntry => Sys2Proof.Machine.execSafelightEntry s
  | .wakeN => Sys2Proof.Machine.execWakeN s
  | .pwrWake r => Sys2Proof.Machine.execPwrWake r s
  | .wakeFrame code macsec => Sys2Proof.Machine.execWakeFrame code macsec s
  | .wakeComplete lost awake ok800 => Sys2Proof.Machine.execWakeComplete lost awake ok800 s
  | .retireCore r => Sys2Proof.Machine.execRetireCore r s
  | .drawHost r => Sys2Proof.Machine.execDrawHost r s
  | .bondPatternTest k u col bad => Sys2Proof.Machine.execBondPatternTest k u col bad s
  | .tripleDisagree site signal copy base => Sys2Proof.Machine.execTripleDisagree site signal copy base s
  | .mapWrite => Sys2Proof.Machine.execMapWrite s
  | .eventRingWrite => Sys2Proof.Machine.execEventRingWrite s
  | .opkeyChange r addr => Sys2Proof.Machine.execOpkeyChange r addr s
  | .secAttest h ctx addr => Sys2Proof.Machine.execSecAttest h ctx addr s
  | .attestDone => Sys2Proof.Machine.execAttestDone s
  | .getIdentity via seq chunk => Sys2Proof.Machine.execGetIdentity via seq chunk s
  | .attest via seq ctx nonce chunk => Sys2Proof.Machine.execAttest via seq ctx nonce chunk s
  | .wake via seq => Sys2Proof.Machine.execWake via seq s
  | .sessionOpen via seq => Sys2Proof.Machine.execSessionOpen via seq s
  | .sessionProve via seq sig => Sys2Proof.Machine.execSessionProve via seq sig s
  | .sessionExpiry r => Sys2Proof.Machine.execSessionExpiry r s
  | .ctrlRead via seq addr words => Sys2Proof.Machine.execCtrlRead via seq addr words s
  | .ctrlWrite via seq addr words => Sys2Proof.Machine.execCtrlWrite via seq addr words s
  | .eventRead via seq count => Sys2Proof.Machine.execEventRead via seq count s
  | .halt via seq target => Sys2Proof.Machine.execHalt via seq target s
  | .coreResume via seq target => Sys2Proof.Machine.execCoreResume via seq target s
  | .memRead via seq addr len flaws => Sys2Proof.Machine.execMemRead via seq addr len flaws s
  | .memWrite via seq addr bytes => Sys2Proof.Machine.execMemWrite via seq addr bytes s
  | .moduleReset via seq run => Sys2Proof.Machine.execModuleReset via seq run s
  | .firmwareUpdate comp stage version good => Sys2Proof.Machine.execFirmwareUpdate comp stage version good s
  | .activateFirmware run => Sys2Proof.Machine.execActivateFirmware run s
  | .pldmDiscovery ask => Sys2Proof.Machine.execPldmDiscovery ask s
  | .pldmMonitoring sensor => Sys2Proof.Machine.execPldmMonitoring sensor s
  | .mctpControl ask => Sys2Proof.Machine.execMctpControl ask s
  | .dynamicAddress sa static addr => Sys2Proof.Machine.execDynamicAddress sa static addr s
  | .bypass tdi => Sys2Proof.Machine.execBypass tdi s
  | .idcode => Sys2Proof.Machine.execIdcode s
  | .samplePreload pins load => Sys2Proof.Machine.execSamplePreload pins load s
  | .extest pins load => Sys2Proof.Machine.execExtest pins load s
  | .debugAccess seq cmd => Sys2Proof.Machine.execDebugAccess seq cmd s
  | .ckvStart r unit => Sys2Proof.Machine.execCkvStart r unit s
  | .ckvJobDone unit far flaws => Sys2Proof.Machine.execCkvJobDone unit far flaws s
  | .ckvStreamChunk unit data far flaws => Sys2Proof.Machine.execCkvStreamChunk unit data far flaws s
  | .refclkReturn => Sys2Proof.Machine.execRefclkReturn s
  | .localMoveComplete k c serial mets => Sys2Proof.Machine.execLocalMoveComplete k c serial mets s
  | .roceResponse f qpn answer => Sys2Proof.Machine.execRoceResponse f qpn answer s
  | .readmissionTimeout site => Sys2Proof.Machine.execReadmissionTimeout site s
  | .lowerTreeGenerated => Sys2Proof.Machine.execLowerTreeGenerated s

end Sys2Proof.Machine
end

