-- ==== Sys2Proof/Safety.lean ====
section
/-!
DEFINITION. What a safe run is: steps that answer next states, with memory in canonical form throughout; and the words
that the statements are made of.
-/

namespace Sys2Proof.Machine

open Sys2Proof

/-- A run of `n` steps from `s` in which no step stops and memory keeps its canonical form. -/
def safeFor : Nat → State → Prop
  | 0, s => s.memOk
  | n + 1, s => s.memOk ∧ ∃ t, step s = .next t ∧ safeFor n t

/-- A safe state: every run from it is safe, whatever commands wait. -/
def safe (s : State) : Prop := ∀ n, safeFor n s

/-! ### Words of the statements -/

/-- What a requester's latch holds (R8). -/
def latchOf (m : SMap (Nat × BitVec 32)) (q : Requester) : Option (Nat × BitVec 32) :=
  (m.find? fun kv => decide (kv.1 = q.num)).map (·.2)

/-- Every register but those at the addresses `as` reads as before. -/
def regsBut (as : List Nat) (s t : State) : Prop := ∀ a, a ∉ as → t.reg a = s.reg a

/-- Every byte of memory but those of a range of one site reads as before. -/
def memBut (site lo n : Nat) (s t : State) : Prop :=
  ∀ i off, ¬(i = site ∧ lo ≤ off ∧ off < lo + n) → off < 2 ^ 43 → t.byteAt i off = s.byteAt i off

/-- Every byte of memory reads as before. -/
def memSame (s t : State) : Prop := ∀ i off, t.byteAt i off = s.byteAt i off

/-- Every matrix core but one is as before. -/
def coresBut (k : Stack) (c : Core) (s t : State) : Prop :=
  ∀ (k' : Stack) (c' : Core), (k', c') ≠ (k, c) → t.core k' c' = s.core k' c'

/-- Does a write of a register act, rather than store only? -/
def actsOnWrite : RegName → Bool
  | .CORE_CTRL | .BELL_CTRL | .MEM_CTRL | .LNK_CTRL | .HOST_PORT_CTRL | .HOST_DOORBELL | .HOST_RING_SEL | .GRN_WEAR_SEL
  | .CFG_CTRL | .CFG_ACTIVATE | .CFG_ALT | .GW_RESET | .FAB_FIELD_RESET | .LNK_RESET | .CLK_REGION_CTRL | .PWR_CTRL
  | .GRN_CTRL | .SEC_OPKEY_CTRL | .SEC_ATTEST | .CKV_CTRL => true
  | _ => false

/-- Is descriptor trace on for a site (R463)? Its records take tithe class 7, memory and packets. -/
def tracedAt (s : State) (k : Nat) : Bool :=
  decide (s.getF Reg.DBG_TRACE Fld.DBG_TRACE_ENABLE = 1) && decide (s.getF Reg.DBG_TRACE Fld.DBG_TRACE_SITE = k)

/-- A report stands in the event log. -/
def logged (t : State) (site code : Nat) (args : List Nat) : Prop :=
  ∃ e ∈ t.log, e.code = code ∧ e.site = site ∧ e.args = args

/-- Does a voting report at a site set its bell's fault bit: the site runs a bell and does not abandon it (R139)? -/
def votesNow (s : State) (site : Nat) : Bool :=
  decide (site < 32) && !(s.bellAt site).life.abandons && decide ((s.bellAt site).life ≠ .notStarted)

/-- The next descriptor `d` of a core is in flight: the sequencer has moved on and the other cores are as they were.
Where the site is not traced, only the core's sequencer registers and the core have changed. -/
def issued (s t : State) (k : Stack) (c : Core) (d : BitVec 512) (left : Nat) : Prop :=
  let x := s.core k c
  let y := t.core k c
  y.serial = x.serial + 1 ∧ y.acc = x.acc ∧
  y.fills.map (fun f => (f.bell, f.slot, f.desc)) = x.fills.map (fun f => (f.bell, f.slot, f.desc)) ∧
  y.specData = x.specData ∧ y.ctx = x.ctx ∧ y.phase = x.phase ∧
  y.flights = x.flights ++ [⟨x.serial, x.pc, d, !x.branches.isEmpty, false, [], left, [], [], []⟩] ∧
  coresBut k c s t ∧
  (tracedAt s k = false → { t with cores := s.cores, regs := s.regs } = s ∧
    regsBut [Reg.CORE_SEQ_PC k c, Reg.CORE_STATUS k c] s t)

/-- A flight of a core is done: it is in flight no more and its DONE token has risen by 1, holding at 2^32 - 1 (R90, R109). -/
def doneWith (s t : State) (k : Stack) (c : Core) (f : Flight) : Prop :=
  (t.core k c).flight f.serial = none ∧
  ∀ a, tokenReg k c (dDone f.desc) = some a →
    t.getF a Fld.CORE_TOKEN_VALUE = min 0xFFFFFFFF (s.getF a Fld.CORE_TOKEN_VALUE + 1)

/-- The DONE tokens of a core's flights. -/
def doneRegs (k : Stack) (c : Core) (f : Flight) : List Nat :=
  match tokenReg k c (dDone f.desc) with
  | some a => [a]
  | none => []

/-- What the end of a kernel, flight `g` of a core, leaves (R79, R97): the VEC is done, its fflags are joined, and, where
no load met a parity failure, no store met another write and the site is not traced, its stores alone have changed
memory. -/
def kernelEnded (s t : State) (k : Stack) (c : Core) (g : Flight) (m : Vm) (flaws : Flaws) (mets : Meets) : Prop :=
  doneWith s t k c g ∧ coresBut k c s t ∧
  (t.core k c).flights = (s.core k c).flights.filter (fun h => decide (h.serial ≠ g.serial)) ∧
  t.reg (Reg.CORE_VFLAGS k c) = s.reg (Reg.CORE_VFLAGS k c) ||| m.r.fflags.setWidth 64 ∧
  (m.met c flaws = [] → mets = [] → tracedAt s k = false → t.mem = (s.kernelStores k c [] m.stores.reverse).mem)

/-- The registers that sequencing and reports of a core touch beside its tokens. -/
def seqRegs (k : Stack) (c : Core) : List Nat := [Reg.CORE_SEQ_PC k c, Reg.CORE_STATUS k c, Reg.EVT_STATUS]

/-- Bytes that the output stage writes for one row of a tile (R73, R76). -/
def mmaRowBytes (d : BitVec 512) : Nat :=
  let cols := 8 * df d 203 200
  match df d 43 40 with
  | 0 => 4 * cols
  | 1 => 2 * cols
  | 2 => 2 * cols
  | fmt => cols / 32 * groupBytes fmt

/-- A site has sent a packet on a hop, or holds it until the hop has credit for it (R217). -/
def sentOn (t : State) (site : Nat) (h : Hop) (p : Packet) : Prop :=
  (∃ via, Output.packet site h p via ∈ t.out) ∨ ∃ w ∈ (t.gw site).waiting, w.pkt = p ∧ w.hop = h

/-- A tag of an issuer is live for a purpose (R225). -/
def tagLive (t : State) (site issuer tag : Nat) (why : Purpose) : Prop :=
  ∃ kv ∈ (t.gw site).tags, kv.1 = tagKey issuer tag ∧ kv.2.purpose = why

/-- Every site's bell state but one's is as before. -/
def bellsBut (i : Site) (s t : State) : Prop := ∀ j : Site, j ≠ i → t.bellAt j = s.bellAt j

/-- Does a live site hear a cry of which it received a good copy (R199)? -/
def heard (s : State) (i : Site) (rx : Rx) : Prop := rx ≠ .lost ∧ s.live i = true

/-- A sync frame has been sent. -/
def cried (t : State) (site : Nat) (dir : FrameDir) (type : FrameType) (bell arg : Nat) : Prop :=
  ∃ q, Output.frame site dir ⟨type, q, bell, arg⟩ ∈ t.out

/-- The end of a site's bell (R22, R131, R135, R150, R151, R156): the vote is sent; where no full image waits to activate
and the site awaits no admission, the tithes reload, T0 moves by the extensions, and the next bell begins, or the site holds, settles, or waits for the
commit decision. -/
def bellEnded (s t : State) (site : Site) : Prop :=
  let b := s.bellAt site
  (b.sheet = none → ∃ x, cried t site .toNode .vote b.bell x ∧ x / 2 = bit b.lost) ∧
  (s.cfg.pendFull = none → s.resetState site ≠ 4 →
    (∀ c : Fin 9, t.getF (Reg.TITHE_USED site c) Fld.TITHE_USED_USED = SMap.get 0 (s.tithe site).used c % 2 ^ 32) ∧
    (t.bellAt site).ext = 0 ∧ (t.bellAt site).closed = none ∧ (t.bellAt site).sheet = none ∧
    (t.bellAt site).t0 = b.t0 + b.extNow * extQ s.rs ∧
    (∀ n, b.pendHold = some n → n ≤ b.bell + 1 → (t.bellAt site).life = .held ∧ (t.bellAt site).startBell = b.bell + 1) ∧
    (b.pendHold = none → ∀ n, b.settleB = some n → n ≤ b.bell + 1 →
      (t.bellAt site).life = .settling ∧ (t.bellAt site).startBell = b.bell + 1) ∧
    (b.pendHold = none → b.settleB = none →
      (s.deadlineMet site b.bell = false → (t.bellAt site).life = .lateHold ∧ (t.bellAt site).bell = b.bell) ∧
      (s.deadlineMet site b.bell = true → b.holdFor = none → (t.bellAt site).life = .running ∧
        (t.bellAt site).bell = b.bell + 1 ∧ (t.bellAt site).guard = false)))

/-- The stripe of a pair direction has followed its carriers (R188): the register holds its planes, and beside the pair's
registers, its marker and its stream nothing has changed. -/
def restriped (s t : State) (tx rx : Nat) : Prop :=
  t.reg (Reg.FAB_TX_STRIPE tx rx) = BitVec.ofNat 64 (planeBits (t.planesOf tx rx)) ∧
  { t with regs := s.regs, outs := s.outs, out := s.out, markers := s.markers, gws := s.gws } = s ∧
  regsBut [Reg.FAB_TX_PAIR tx rx, Reg.FAB_RX_PAIR rx tx, Reg.FAB_TX_STRIPE tx rx, Reg.FAB_RESTRIPE_CNT tx] s t

/-- Does the vote node wait for something before it can pass on its next bell: its own flags, a child's vote, or START? -/
def nodeWaits (s : State) : Prop :=
  s.node.own.find? (fun o => decide (o.1 = s.node.next)) = none ∨ s.node.mute = true ∨
  (s.children.all fun c => s.node.holds s.node.next c) = false

/-- A packet of one operation arrives whole at the site it is for and passes steps 1 to 5 of R212: the gateway answers,
its stream is in order, the packet is well-formed, and its epoch and bell are accepted. -/
def arrived (s : State) (op : BitVec 8) (site : Site) (a : Arrival) : Prop :=
  a.pkt.op = op ∧ s.deaf site = false ∧ s.fromFenced site a = false ∧
  (s.stream site (s.rxKey site a.hop a.pkt.vc.toNat)).discard = false ∧
  (s.stream site (s.rxKey site a.hop a.pkt.vc.toNat)).skip < 32 ∧ s.arrivalLost site a = false ∧
  a.pkt.crc = a.pkt.calcCrc ∧
  wellFormed a.pkt = true ∧ a.pkt.dstPkg.toNat = s.pkg ∧ a.pkt.dstSite = site ∧
  (isResponse op.toNat = false → a.pkt.srcPkg.toNat = s.pkg →
    a.pkt.epoch.toNat = SMap.get 0 (s.gw site).epochs a.pkt.srcSite.val) ∧
  (a.pkt.vc = 0 ∨ a.pkt.vc = 1 → (s.bellNamed site a.pkt.bell.toNat).isSome = true)

/-- A source of this package has left no sticky status at a site (R214). -/
def unstuck (s : State) (site : Nat) (p : Packet) : Prop :=
  p.srcPkg.toNat = s.pkg ∧ ∀ e ∈ (s.gw site).sticky, e.1 ≠ p.source

/-- A request of this package has been answered with a status and bytes, over the hop to its source (R207). -/
def answered (s t : State) (site : Nat) (p : Packet) (status : Nat) (bytes : List Byte) : Prop :=
  sentOn t site (.base p.srcSite) (s.answer site p status bytes).sealed

/-- A write has been answered, or its answer waits for invalidations (R167). -/
def writeAnswered (s t : State) (site : Nat) (p : Packet) (bytes : List Byte) : Prop :=
  answered s t site p 0 bytes ∨ ∃ q ∈ t.invAcks, q.site = site ∧ q.pkt = s.answer site p 0 bytes

/-- Step 9 of R212 lets a packet through where it applies. -/
def isNew (s : State) (site : Nat) (p : Packet) : Prop := dedupes p = true → (s.dedupe site p).2 = true

/-- No flaw lies in a range. -/
def clean (flaws : Flaws) (a n : Nat) : Prop := ∀ f ∈ flaws, ¬(a ≤ f.1 ∧ f.1 < a + n)

/-- A tag of an issuer is free: not live. -/
def tagFree (t : State) (site issuer tag : Nat) : Prop := ∀ kv ∈ (t.gw site).tags, kv.1 ≠ tagKey issuer tag

/-- An issuer can have a tag: one is free, and its gateway does not drain (R225, R340). -/
abbrev hasTag (s : State) (site issuer : Nat) : Prop :=
  (s.gw site).freeTag issuer ≠ none ∧ ∀ d ∈ s.drains, d.1 ≠ site

/-- No packet of an issuer waits for a tag (R225). -/
def noneWait (s : State) (site issuer : Nat) : Prop := ∀ w ∈ (s.gw site).tagWait, w.issuer ≠ issuer

/-- A message to the peer has been sent, or waits for class 1 of the port or for a priority that the peer holds paused
(R156, R296, R297). -/
def told (t : State) (what : Output) : Prop :=
  what ∈ t.out ∨ (∃ e ∈ t.egress, e.2.what = what) ∨ ∃ e ∈ t.heldOut, e.what = what

/-- An engine of S22 may read a range of the own package for a context (R24, R161, R162, R230). -/
def mayGet (s : State) (who ctx g n : Nat) : Prop := gPkg g = s.pkg ∧ s.engineFails who ctx g n false = none

/-- An engine of S22 may write a range of the own package for a context, and no slot-fill window takes it (R24, R161, R162,
R230, R308). -/
def mayPut (s : State) (who ctx g n : Nat) : Prop :=
  gPkg g = s.pkg ∧ s.engineFails who ctx g n true = none ∧ fillAt (gSite g) (gOff g) n = none

/-- A transfer enters no ledger: it is not of CTX0, or its range holds bytes of no other context (R449). -/
def unlogged (s : State) (ctx g n : Nat) : Prop := ctx ≠ 0 ∨ n = 0 ∨ s.ctxsOf (gSite g) (gOff g) n = []

/-- The tithe class of a site takes a cost at once: none of the class waits and it fits (R156). -/
def admitsNow (s : State) (site cls cost : Nat) : Prop :=
  (∀ r ∈ (s.tithe site).queue, r.cls ≠ cls) ∧ s.titheFits site cls cost = true

/-- The port takes a frame in at once: it is up and awake, MACsec passes the frame, class 0 admits it, it carries no
congestion mark and its queue pair is in no error (R296, R297, R298, R300, R407). -/
def takesNow (s : State) (f : FrameIn) (qpn : Option Nat) : Prop :=
  s.portUp = true ∧ s.asleep = false ∧ (s.secTake f.sec).2 = true ∧ admitsNow s portSite 0 f.size.val ∧ f.ecn = false ∧ ∀ q, qpn = some q → q ∉ s.qpErr

/-- A ring's engine has nothing started, its next entry can be read and its shadow written, and the entry asks for no
completion record. -/
def soloEntry (s : State) (ring : Nat) (r : Rec) (o : RingOp) (bs : List Byte) : Prop :=
  s.nextEntry ring = some (r, o, bs) ∧ r.u16 8 = ring ∧ (s.ring ring).ops = [] ∧ o.compl = false ∧
  mayGet s portIssuer (ringCtx r) (ringEntry r o.idx) 64 ∧ mayPut s portIssuer (ringCtx r) (r.u64 24) 16

/-- Entry consumed: the ring's CI has risen by one and nothing of it is left with the engine (R287, R294). -/
def consumed (s t : State) (ring : Nat) : Prop :=
  (t.ring ring).ops = [] ∧ (t.ring ring).ci = ((s.ring ring).ci + 1) % 2 ^ 32 ∧
  (t.ring ring).pi = (s.ring ring).pi % 2 ^ 32

/-- Every component that starts has an image that verifies (R445, R464). -/
def bootsWhole (s : State) (run : StartRun) : Prop :=
  ∀ n, n < 4 → (bootBank run.badFirmware (s.firmware.getD n ⟨none, none, false, false, 0⟩) n).1 = 0

/-- A management command is heard: the MC is up and, at the host port, the frame is admitted at once and no other
command waits (R460). -/
def hears (s : State) (via : Via) : Prop := s.mcUp = true ∧ ∀ f, via = .port f → takesNow s f none ∧ s.inbox = []

/-- The requester of a way in (R8, R460). -/
def asker : Via → Requester
  | .bus => .sideband
  | .port _ => .port

/-- The answer to a command has gone out, or waits at the port. -/
def replied (t : State) (via : Via) (bytes : List Byte) : Prop :=
  match via with
  | .bus => Output.sideband .sideband bytes ∈ t.out
  | .port _ => told t (.sideband .port bytes)

/-- The resets of a site that count against its limit of three within 1 s (R339). -/
def lateResets (s : State) (i : Nat) : Nat :=
  ((SMap.get [] s.resets i).filter fun t => decide (s.vt ≤ t + 1000000000)).length

/-- May a requester reset a domain of a site now (R334): the site is there and no reset as large is under way? -/
def mayReset (s : State) (r : Requester) (i domain : Nat) : Prop :=
  s.trusted r = true ∧ s.populated i = true ∧ s.siteRetired i = false ∧ s.resetRank i < domainRank domain

/-- A site has been reset (R333, R339, R346): it is silent, its loss is reported, what it loses reads 0, and at the third
reset within 1 s it is retired. -/
def resetTaken (s t : State) (i domain : Nat) : Prop :=
  t.resetDomain i = domain ∧ (t.gw i).silent = true ∧
  (lateResets s i < 2 → t.resetState i = 2 ∧ logged t mcSite 0x0901 [i, domain, lostFlags i domain]) ∧
  (2 ≤ lateResets s i → t.resetState i = 6 ∧ t.siteRetired i = true) ∧
  (domain = 1 → siteKind i = .bridge → ∀ off, off < hbmSize → t.byteAt i off = 0) ∧
  (domain ≠ 2 → i < 8 → ∀ c off, c < 96 → off < 0x100000 → t.byteAt i (coreStoreBase c + off) = 0)

/-- A fixing record has been written with its reason, and what MRAM keeps is as before (R411, R412, R430). -/
def fixedFor (s t : State) (reason : Nat) : Prop :=
  (∃ r rest, t.fixed = r :: rest ∧ r.reason = reason ∧ r.time = s.vt ∧ r.log = s.log.drop (s.log.length - 1024) ∧
    rest = s.fixed.take 1) ∧
  t.power.on = false ∧ t.grn = s.grn ∧ t.wear = s.wear ∧ t.led = s.led ∧ t.opkey = s.opkey ∧ t.lms = s.lms ∧
  t.firmware = s.firmware ∧ t.pending = s.pending

/-- A wake has begun (R409): the module wakes from now, and nothing else has changed. -/
def waking (s t : State) : Prop :=
  t.pwrState = 4 ∧ t.power.wakeAt = s.vt ∧ { t with regs := s.regs, power := s.power } = s ∧
  regsBut [Reg.PWR_STATUS] s t

/-- The MC reaches a range of one granule at its own bridge (R460): the bridge is live, the granule readable or writable
as asked and in no confidential context, and no transfer has the next number. -/
def mcReaches (s : State) (g n : Nat) (rd wr : Bool) : Prop :=
  gPkg g = s.pkg ∧ gSite g = mcPort ∧ s.live mcPort = true ∧ 0 < n ∧ gOff g % 32 + n ≤ 32 ∧
  s.ctxsOf mcPort (gOff g) n = [] ∧ (∀ x ∈ s.xfers, x.id < s.nextId) ∧
  s.rangeFits mcPort 0 (gOff g / 32 * 32) 32 true rd wr = true

/-- A refused command is answered with status 2 and has had no effect (R460). -/
def turnedAway (s t : State) (via : Via) (code seq : Nat) : Prop :=
  replied t via (ohmune code seq 2 []) ∧ t.mem = s.mem ∧ t.cores = s.cores ∧ t.logRead = s.logRead

/-- Every token of every core and cluster is as before (R108). -/
def tokensSame (s t : State) : Prop :=
  ∀ (k : Stack) (c : Core) (n : Fin 12) (x : Fin 256) (y : Fin 1024),
    t.reg (Reg.CORE_TOKEN k c x) = s.reg (Reg.CORE_TOKEN k c x) ∧ t.reg (Reg.CORE_CTOKEN k n y) = s.reg (Reg.CORE_CTOKEN k n y)

end Sys2Proof.Machine
end

