-- ==== Sys2Proof/Certificates/Slice0/Obligations.lean ====
section
/-!
DEFINITION. The statements for the provers. Each conclusion names the next state that `exec` answers, what it holds and
what it leaves as it was.
-/

open Sys2Proof Sys2Proof.Machine

/-! ### The step, reset and time -/

/-- A step with a command at the front of the queue is `exec` of that command on the queue's rest; with an empty queue
it is one idle tick (log 1: the model's choice). -/
def Obligations.StepRunsFront : Prop :=
  (∀ (i : Instr) (rest : List Instr) (s : State), step { s with pending := i :: rest } = exec i { s with pending := rest }) ∧
  (∀ s : State, s.pending = [] → step s = .next s.idle)

/-- R364: a tick of the 1 GHz oscillator adds the rate word to the village clock and changes nothing else; without
supply an idle step changes nothing. That ticks pass only while no command waits is the model's choice (log 1). -/
def Obligations.IdleAdvancesVillageTime : Prop :=
  (∀ s : State, s.tick.vt * 2 ^ 32 + s.tick.vtFrac = (s.vt * 2 ^ 32 + s.vtFrac + s.rateWord) % 2 ^ 96) ∧
  (∀ s : State, { s.tick with vt := s.vt, vtFrac := s.vtFrac } = s) ∧
  (∀ s : State, s.power.on = false → s.pending = [] → step s = .next s)

/-- The state before VIN is applied: every register that decodes reads its table's reset value, no bell has begun, no
core runs, nothing is configured, sent, logged or waiting, and memory is in canonical form. That memory reads 0 is the
model's choice (log 3), and so are the values of fused and granary fields (log 4). -/
def Obligations.ResetState : Prop :=
  State.reset.memOk ∧ State.reset.pending = [] ∧ State.reset.out = [] ∧ State.reset.power.on = false ∧
  (∀ a h, regAt a = some h → h.high = false → State.reset.reg a = h.reset) ∧
  (∀ i, (State.reset.bellAt i).life = .notStarted) ∧ (∀ k c, State.reset.core k c = CoreSt.idle) ∧
  State.reset.cfg = CfgSt.empty ∧ State.reset.log = [] ∧ (∀ i off, State.reset.byteAt i off = 0)

/-! ### Control space (R4, R6, R8, R10) -/

/-- R6: a write under `mask` leaves RO, WO and RSV fields and every bit outside the mask as they were, stores into RW
fields, clears the W1C bits written 1 and sets the W1S bits written 1; a read returns 0 in WO and RSV fields. -/
def Obligations.AccessCodes : Prop :=
  ∀ row ∈ regTable, ∀ r ∈ row.flds, ∀ (old v mask : BitVec 64) (i : Nat), r.fld.lo ≤ i → i ≤ r.fld.hi →
    (storeBits row old v mask).getLsbD i = (match r.acc with
      | .rw => if mask.getLsbD i then v.getLsbD i else old.getLsbD i
      | .w1c => old.getLsbD i && !(mask.getLsbD i && v.getLsbD i)
      | .w1s => old.getLsbD i || (mask.getLsbD i && v.getLsbD i)
      | .ro => old.getLsbD i
      | .wo => old.getLsbD i
      | .rsv => old.getLsbD i) ∧
    ∀ (s : State) (q : Requester) (h : RegHit), h.row = row → r.acc = .wo ∨ r.acc = .rsv → (s.view q h).getLsbD i = false

/-- R6, R8: REGISTER_WRITE of a register whose write has no action of its own stores by its access codes, answers, and
changes nothing else: a 32-bit register by one word, a 64-bit register whole by two. A register that does not take the
requester's write keeps its value. -/
def Obligations.RegisterWrite : Prop :=
  ∀ (r : Requester) (addr : BitVec 40) (wide : Bool) (v : BitVec 64) (s : State) (h : RegHit),
    s.power.on = true → s.hit addr.toNat = some h → h.high = false → h.row.wide = wide →
    (s.mayWrite r h = true → actsOnWrite h.row.name = false) →
    ∃ t, exec (.registerWrite r addr wide v) s = .next t ∧
      t.reg h.addr = (if s.mayWrite r h then
        storeBits h.row (s.reg h.addr) (if wide then v else v &&& lowMask) (if wide then allMask else lowMask)
        else s.reg h.addr) ∧
      t.out = .writeDone r :: s.out ∧ regsBut [h.addr] s t ∧ { t with regs := s.regs, out := s.out } = s

/-- R8, read latch: a one-word read of a 64-bit register's low word answers it and latches its high word taken at the
same moment; a read of a high word answers the value latched from that register and empties the latch, else the
current high word; other latches, registers and all the rest stay. A 32-bit register is read whole. R8, write latch: a
one-word write of a 64-bit register's high word is latched and changes no register; the write of the same register's
low word then stores all 64 bits and empties the latch; with nothing latched for that register it stores the low 32
bits alone and the latch stays. Other latches, registers and all the rest stay. -/
def Obligations.Latches : Prop :=
  (∀ (r : Requester) (addr : BitVec 40) (s : State) (h : RegHit), s.power.on = true → s.hit addr.toNat = some h →
     (h.high = false → ∃ t, exec (.latchedLowRead r addr) s = .next t ∧
       t.out = .readData r false (s.view r h &&& lowMask) :: s.out ∧ { t with rlatch := s.rlatch, out := s.out } = s ∧
       latchOf t.rlatch r = (if h.row.wide then some (h.addr, (s.view r h).extractLsb' 32 32) else latchOf s.rlatch r) ∧
       ∀ q, q ≠ r → latchOf t.rlatch q = latchOf s.rlatch q) ∧
     (h.row.wide = true → h.high = true → ∃ t, exec (.latchedHighRead r addr) s = .next t ∧
       { t with rlatch := s.rlatch, out := s.out } = s ∧ (∀ q, q ≠ r → latchOf t.rlatch q = latchOf s.rlatch q) ∧
       (∀ w, latchOf s.rlatch r = some (h.addr, w) →
         t.out = .readData r false (w.zeroExtend 64) :: s.out ∧ latchOf t.rlatch r = none) ∧
       ((∀ w, latchOf s.rlatch r ≠ some (h.addr, w)) →
         t.out = .readData r false (s.view r h >>> 32) :: s.out ∧ t.rlatch = s.rlatch))) ∧
  (∀ (r : Requester) (addr : BitVec 40) (v : BitVec 32) (s : State) (h : RegHit),
     s.power.on = true → s.hit addr.toNat = some h → h.row.wide = true →
     (h.high = true → ∃ t, exec (.latchedHighWrite r addr v) s = .next t ∧
       latchOf t.wlatch r = some (h.addr, v) ∧ (∀ q, q ≠ r → latchOf t.wlatch q = latchOf s.wlatch q) ∧
       t.out = .writeDone r :: s.out ∧ { t with wlatch := s.wlatch, out := s.out } = s) ∧
     (h.high = false → s.mayWrite r h = true → actsOnWrite h.row.name = false → ∃ t, exec (.latchedLowWrite r addr v) s = .next t ∧
       t.out = .writeDone r :: s.out ∧ regsBut [h.addr] s t ∧
       { t with regs := s.regs, wlatch := s.wlatch, out := s.out } = s ∧
       (∀ q, q ≠ r → latchOf t.wlatch q = latchOf s.wlatch q) ∧
       (∀ w, latchOf s.wlatch r = some (h.addr, w) → latchOf t.wlatch r = none ∧
         t.reg h.addr = storeBits h.row (s.reg h.addr) (v.zeroExtend 64 ||| (w.zeroExtend 64 <<< 32)) allMask) ∧
       ((∀ w, latchOf s.wlatch r ≠ some (h.addr, w)) → t.wlatch = s.wlatch ∧
         t.reg h.addr = storeBits h.row (s.reg h.addr) (v.zeroExtend 64) lowMask)))

/-- R10: an access to an address that decodes to no register, or into the block of an empty or fenced guest site,
reads 0, writes nothing and counts one in EVT_UNMAPPED_CNT, which holds at its largest value; no event is raised and
nothing else changes. -/
def Obligations.UnmappedAccess : Prop :=
  (∀ (s : State) (a : Nat), regAt a = none → s.hit a = none) ∧
  (∀ (s : State) (g : Fin 4) (o : Nat), s.live (28 + g.val) = false ∨ s.fencedAny (28 + g.val) = true → o < 0x10000000 →
    s.hit (0x1000000000 + (28 + g.val) * 0x10000000 + o) = none) ∧
  (∀ (r : Requester) (addr : BitVec 40) (write : Bool) (s : State), s.power.on = true → s.hit addr.toNat = none →
    ∃ t, exec (.unmappedAccess r addr write) s = .next t ∧
      t.out = (if write then Output.writeDone r else .readData r false 0) :: s.out ∧
      t.getF Reg.EVT_UNMAPPED_CNT Fld.EVT_UNMAPPED_CNT_COUNT =
        min 0xFFFFFFFF (s.getF Reg.EVT_UNMAPPED_CNT Fld.EVT_UNMAPPED_CNT_COUNT + 1) ∧
      regsBut [Reg.EVT_UNMAPPED_CNT] s t ∧ { t with regs := s.regs, out := s.out } = s)

/-! ### Matrix cores (R71 to R125) -/

/-- R84: CLR_PARITY and CLR_MIN set their counter and change nothing else. R116, R117, R162: an aligned 128-byte record
of a context with a window over the slot-fill window that passes the checks is held for its slot; one that does not, and
any other write to the window, changes no core, is counted and is reported with its reason; while 256 are pending or one
waits, the record waits there. The window of a core that is not enabled takes nothing. The reason numbers are the
model's (log 8). -/
def Obligations.ClearsAndFills : Prop :=
  (∀ (k : Stack) (c : Core) (s : State),
     (∃ t, exec (.clrParity k c) s = .next t ∧ t.getF (Reg.CORE_PARITY_CNT k c) Fld.CORE_PARITY_CNT_COUNT = 0 ∧
       regsBut [Reg.CORE_PARITY_CNT k c] s t ∧ { t with regs := s.regs } = s) ∧
     (∃ t, exec (.clrMin k c) s = .next t ∧ t.getF (Reg.CORE_SLACK_MIN k c) Fld.CORE_SLACK_MIN_MIN = 0x7FFFFFFF ∧
       regsBut [Reg.CORE_SLACK_MIN k c] s t ∧ { t with regs := s.regs } = s)) ∧
  (∀ (k : Stack) (c : Core) (ctx : Ctx) (at_ : Fin 32) (bytes : List Byte) (s : State),
     let f : Fill := { bell := leNat ((bytes.drop 64).take 6), slot := leNat ((bytes.drop 70).take 2)
                       desc := BitVec.ofNat 512 (leNat (bytes.take 64)), used := false }
     let why := if bytes.length = 128 ∧ inWindows s.rs ctx.toNat k 1 (slotFillBase c + 128 * at_.val) 128 = true then
       s.fillRefusal k c ctx.toNat f (leNat ((bytes.drop 72).take 56)) else some 6
     (s.coreRole k c = 0 → s.fillFull k c = false → why = none →
       ∃ t, exec (.fillRecord k c ctx at_ bytes) s = .next t ∧ (t.core k c).fills = (s.core k c).fills ++ [f] ∧
         (t.core k c).flights = (s.core k c).flights ∧ (t.core k c).pc = (s.core k c).pc ∧
         regsBut [Reg.CORE_DYN_STATUS k c] s t ∧ coresBut k c s t ∧ { t with cores := s.cores, regs := s.regs } = s) ∧
     (∀ w, s.coreRole k c = 0 → why = some w → w = 6 ∨ s.fillFull k c = false →
       ∃ t, exec (.fillRecord k c ctx at_ bytes) s = .next t ∧ t.cores = s.cores ∧ logged t k 0x0203 [c, w] ∧
         t.getF (Reg.CORE_DYN_STATUS k c) Fld.CORE_DYN_STATUS_REFUSED =
           min Fld.CORE_DYN_STATUS_REFUSED.max (s.getF (Reg.CORE_DYN_STATUS k c) Fld.CORE_DYN_STATUS_REFUSED + 1) ∧
         t.mem = s.mem ∧ regsBut [Reg.CORE_DYN_STATUS k c, Reg.EVT_STATUS] s t) ∧
     (s.coreRole k c = 0 → s.fillFull k c = true → why ≠ some 6 →
       ∃ t, exec (.fillRecord k c ctx at_ bytes) s = .next t ∧ coresBut k c s t ∧
         t.core k c = { s.core k c with heldFills := (s.core k c).heldFills ++ [⟨ctx.toNat, bytes, none, none, s.vt⟩] } ∧
         { t with cores := s.cores } = s) ∧
     (s.coreRole k c ≠ 0 → exec (.fillRecord k c ctx at_ bytes) s = .next s))

/-- R79, R95, R97, R103, R104, R105, R107, R113, R119: MMA, VEC, WAIT, FENCE and BRANCH issue when they are next and may
issue: each is in flight, an MMA takes its place on the array, a VEC's kernel that starts has every register zero, a WAIT starts to count, and a BRANCH makes the
sequencer run ahead along its hint. BELL_END stops the sequencer. R417: a descriptor that fails parity at fetch is not
executed: nothing further issues in that bell, the sequencer stands at its end, and PARITY is reported with the core
and the descriptor index and votes. No memory changes. R416: where a token, sequencer state or a tag table fails parity
in use, PARITY is reported and votes, and the descriptor issues on the values as stored. -/
def Obligations.DescriptorsIssue : Prop :=
  (∀ (k : Stack) (c : Core) (s : State) (d : BitVec 512),
     (s.ready k c 1 = some d → ∃ t, exec (.mma k c .good) s = .next t ∧ issued s t k c d 1 ∧
       (t.core k c).pc = (s.core k c).pc + 1 ∧ (t.core k c).branches = (s.core k c).branches ∧
       (t.core k c).mma = (s.core k c).mma ++ [mmaSchedule (s.core k c).mma (s.core k c).serial (s.cycle k c) d]) ∧
     (s.ready k c 2 = some d → ∃ t, exec (.vec k c .good) s = .next t ∧ issued s t k c d 1 ∧
       (t.core k c).pc = (s.core k c).pc + 1 ∧ (t.core k c).branches = (s.core k c).branches ∧
       (t.core k c).mma = (s.core k c).mma ∧ ((s.core k c).kernel = none → (t.core k c).vec = .start)) ∧
     (s.ready k c 6 = some d → ∃ t, exec (.waitDesc k c .good) s = .next t ∧ issued s t k c d 0 ∧
       (t.core k c).pc = (s.core k c).pc + 1 ∧ (t.core k c).branches = (s.core k c).branches ∧
       (t.core k c).waitFrom = some (s.cycle k c)) ∧
     (s.ready k c 8 = some d → ∃ t, exec (.fenceDesc k c .good) s = .next t ∧ issued s t k c d 0 ∧
       (t.core k c).pc = (s.core k c).pc + 1 ∧ (t.core k c).branches = (s.core k c).branches) ∧
     (s.ready k c 7 = some d → ∃ t, exec (.branchDesc k c .good) s = .next t ∧ issued s t k c d 0 ∧
       (t.core k c).branches = (s.core k c).branches ++ [(s.core k c).serial] ∧
       (t.core k c).pc = (if df d 37 37 = 1 then branchTarget (s.core k c).pc d else (s.core k c).pc + 1)) ∧
     (s.ready k c 10 = some d → ∃ t, exec (.bellEnd k c .good) s = .next t ∧
       t.core k c = { s.core k c with atEnd := true } ∧ t.nextDesc k c = none ∧ coresBut k c s t ∧
       { t with cores := s.cores, regs := s.regs } = s ∧ regsBut [Reg.CORE_SEQ_PC k c, Reg.CORE_STATUS k c] s t)) ∧
  (∀ (k : Stack) (c : Core) (s : State) (d : BitVec 512) (op : Nat) (i : Instr) (fl : Flaws) (mets : Meets), s.ready k c op = some d →
     (op, i) ∈ [(1, Instr.mma k c .bad), (2, .vec k c .bad), (3, .moveDesc k c .bad fl mets), (4, .reduceDesc k c .bad fl),
       (5, .signalDesc k c .bad), (6, .waitDesc k c .bad), (7, .branchDesc k c .bad), (8, .fenceDesc k c .bad),
       (9, .commitWrite k c .bad fl), (10, .bellEnd k c .bad)] →
     ∃ t, exec i s = .next t ∧ (t.core k c).atEnd = true ∧ t.nextDesc k c = none ∧
       (t.core k c).flights = (s.core k c).flights ∧ (t.core k c).pc = (s.core k c).pc ∧
       (s.log.length < 8191 → logged t k 0x0304 [c, (s.core k c).pc]) ∧ (votesNow s k = true → (t.bellAt k).fault = true) ∧
       t.mem = s.mem ∧ t.gws = s.gws ∧ coresBut k c s t) ∧
  (∀ (k : Stack) (c : Core) (s : State) (d : BitVec 512) (op : Nat) (i j : Instr) (fl : Flaws) (mets : Meets),
     s.ready k c op = some d → (op = 3 → s.moveClass k d = .read → ((s.gw k).freeTag c).isSome = true) →
     (op, i, j) ∈ [(1, Instr.mma k c .stale, Instr.mma k c .good), (2, .vec k c .stale, .vec k c .good),
       (3, .moveDesc k c .stale fl mets, .moveDesc k c .good fl mets), (4, .reduceDesc k c .stale fl, .reduceDesc k c .good fl),
       (5, .signalDesc k c .stale, .signalDesc k c .good), (6, .waitDesc k c .stale, .waitDesc k c .good),
       (7, .branchDesc k c .stale, .branchDesc k c .good), (8, .fenceDesc k c .stale, .fenceDesc k c .good),
       (9, .commitWrite k c .stale fl, .commitWrite k c .good fl), (10, .bellEnd k c .stale, .bellEnd k c .good)] →
     let u := s.coreFault k c [(s.core k c).pc]
     exec i s = exec j u ∧ (s.log.length < 8191 → logged u k 0x0304 [c, (s.core k c).pc]) ∧
       (votesNow s k = true → (u.bellAt k).fault = true))

/-- R71, R74, R75: an MMA of G groups of P cycles on an idle array enters after 12 cycles of fill and takes 12 + G × P
+ 8 cycles, and 266 more if it converts; one that is ready before the last group of the one before it enters follows
that one without a gap, if its bank is free by then. R44, R45, R74, R76: when the oldest MMA reaches its last cycle,
every cell of its tile holds the accumulation of its groups in K order, every other accumulator stays, it is off the
array and its token rises (a tile has at most 128 rows and 64 columns). Without CONVERT no memory changes; with it,
only its tile rows and scale bytes in the core store do. -/
def Obligations.MmaRuns : Prop :=
  (∀ (runs : List MmaRun) (serial t : Nat) (d : BitVec 512),
     let g := mmaGroups d * mmaCycles d
     let conv := if df d 48 48 = 1 then 266 else 0
     ((mmaSchedule [] serial t d).groupsStart = t + 12 ∧ (mmaSchedule [] serial t d).done = t + 12 + g + 8 + conv) ∧
     (∀ r, t < r.lastEntry → (∀ q ∈ runs ++ [r], q.bank = df d 46 46 → q.bankFree ≤ r.groupsEnd) →
       (mmaSchedule (runs ++ [r]) serial t d).groupsStart = r.groupsEnd ∧
       (mmaSchedule (runs ++ [r]) serial t d).done = r.groupsEnd + g + 8 + conv) ∧
     (mmaSchedule runs serial t d).groupsEnd = (mmaSchedule runs serial t d).groupsStart + g) ∧
  (∀ (k : Stack) (c : Core) (s : State) (run : MmaRun) (rest : List MmaRun) (f : Flight),
     (s.core k c).mma = run :: rest → (s.core k c).flight run.serial = some f → run.done ≤ s.cycle k c →
     df f.desc 196 192 ≤ 16 → df f.desc 203 200 ≤ 8 → tracedAt s k = false →
     let d := f.desc
     ∃ t, exec (.mmaComplete k c 0 false) s = .next t ∧ doneWith s t k c f ∧ coresBut k c s t ∧
       (t.core k c).mma = (s.core k c).mma.filter (fun r => decide (r.serial ≠ run.serial)) ∧
       (t.core k c).mmaCyc = (s.core k c).mmaCyc + mmaGroups d * mmaCycles d ∧
       (∀ m n, m < 8 * df d 196 192 → n < 8 * df d 203 200 →
         SMap.get 0 (t.core k c).acc (8192 * df d 46 46 + 64 * m + n) = s.mmaAcc k c d m n) ∧
       (∀ i, (∀ m n, m < 8 * df d 196 192 → n < 8 * df d 203 200 → i ≠ 8192 * df d 46 46 + 64 * m + n) →
         SMap.get 0 (t.core k c).acc i = SMap.get 0 (s.core k c).acc i) ∧
       (df d 48 48 = 0 → t.mem = s.mem) ∧
       (∀ i off, off < 2 ^ 43 → (i = k.val → ∀ m, m < 8 * df d 196 192 →
           ¬(coreStoreBase c + df d 123 104 + m * df d 271 256 ≤ off ∧
             off < coreStoreBase c + df d 123 104 + m * df d 271 256 + mmaRowBytes d) ∧
           ¬(coreStoreBase c + df d 187 168 + m * df d 319 304 ≤ off ∧
             off < coreStoreBase c + df d 187 168 + m * df d 319 304 + df d 203 200 / 4)) →
         t.byteAt i off = s.byteAt i off) ∧
       { t with cores := s.cores, regs := s.regs, mem := s.mem, log := t.log, logBase := t.logBase, reports := t.reports,
                bells := t.bells, out := t.out } =
         { s with log := t.log, logBase := t.logBase, reports := t.reports, bells := t.bells, out := t.out } ∧
       regsBut (seqRegs k c ++ doneRegs k c f) s t)

/-- R79, R81, R97: when a kernel returns, its stores are made, its fflags are ORed into CORE_VFLAGS, and the VEC completes
and raises its token; one that raises an exception or leaves the data map, and one that retires MAX_INSN instructions,
ends so and reports VEC_KERNEL_FAULT with the core and the program counter, which votes; a parity failure on its way ends
it with PARITY (R416). R78: a kernel's store of one byte at an address of its data map changes that byte and no other. -/
def Obligations.KernelsEnd : Prop :=
  (∀ (k : Stack) (c : Core) (s : State) (f g : Flight) (flaws : Flaws) (mets : Meets), (s.core k c).kernel = some f →
     (s.core k c).flight f.serial = some g →
     (∀ m, s.kernelRun k c f = (m, .returned) → ∃ t, exec (.vecKernelReturn k c flaws mets) s = .next t ∧
       kernelEnded s t k c g m flaws mets) ∧
     (∀ m, s.kernelRun k c f = (m, .faulted) → ∃ t, exec (.vecKernelFault k c none flaws mets) s = .next t ∧
       kernelEnded s t k c g m flaws mets ∧ logged t k 0x0201 [c, m.pc % 2 ^ 32 % 2 ^ 16, m.pc % 2 ^ 32 / 2 ^ 16] ∧
       (votesNow s k = true → (t.bellAt k).fault = true)) ∧
     (∀ m, s.kernelRun k c f = (m, .limit) → ∃ t, exec (.instructionLimit k c flaws mets) s = .next t ∧
       kernelEnded s t k c g m flaws mets ∧ logged t k 0x0201 [c, m.pc % 2 ^ 32 % 2 ^ 16, m.pc % 2 ^ 32 / 2 ^ 16] ∧
       (votesNow s k = true → (t.bellAt k).fault = true)) ∧
     (∀ n m, n < df f.desc 95 64 → Vm.runFor (kernelByte s.rs k c) n (s.kernelVm k c f) = some m →
       ∃ t, exec (.vecKernelFault k c (some n) flaws mets) s = .next t ∧ kernelEnded s t k c g m flaws mets ∧
         (votesNow s k = true → (t.bellAt k).fault = true) ∧
         (flaws = [] → mets = [] → tracedAt s k = false → s.log.length < 8000 →
           logged t k 0x0304 [c, m.pc % 2 ^ 16, m.pc / 2 ^ 16 % 2 ^ 16]))) ∧
  (∀ (k : Stack) (c : Core) (s : State) (a : Nat) (b : Byte),
     (∀ off, kernelAddr c a = some off →
       (s.kernelStores k c [] [(a, [b])]).byteAt k off = b ∧ memBut k off 1 s (s.kernelStores k c [] [(a, [b])])) ∧
     (kernelAddr c a = none → s.kernelStores k c [] [(a, [b])] = s) ∧
     (kernelAddr c a = (if a < 0xC0000 then some (0x2000000000 + c.val * 0x100000 + a)
       else if 0x1000000 ≤ a ∧ a < 0x1000000 + 0xC00000 then some (0x1000000000 + c.val / 8 * 0x1000000 + (a - 0x1000000))
       else none)))

/-- R103, R105: a WAIT whose token has reached THRESHOLD completes and, with CONSUME, takes the threshold from the
token; a FENCE completes once no older descriptor of a selected class is incomplete. One that is still speculative
only holds nothing any more (R122). Of consuming WAITs that meet on a cluster token the one of lowest rank goes first
(R112, R153). R104, R119, R122: once every older descriptor is complete the oldest BRANCH reads
its value; against its hint every younger descriptor is squashed and the sequencer goes on at the right place, as
hinted it stays where it is. -/
def Obligations.WaitsFencesBranches : Prop :=
  (∀ (k : Stack) (c : Core) (s : State) (f g : Flight), (s.core k c).flight f.serial = some g → tracedAt s k = false →
     (∀ a, (s.core k c).waiting = some f → tokenReg k c (df f.desc 43 32) = some a →
       let v := s.getF a Fld.CORE_TOKEN_VALUE
       let eats := if df f.desc 44 44 = 1 then df f.desc 95 64 else 0
       df f.desc 95 64 ≤ v → ¬(df f.desc 44 44 = 1 ∧ s.waitFirst k c (df f.desc 43 32) v = true) →
       ∃ t, exec (.waitSatisfied k c) s = .next t ∧ t.mem = s.mem ∧ coresBut k c s t ∧
         (((s.coreProg k c).bind fun r => slotAt r (s.core k c).pc) = none → (t.core k c).waitFrom = none) ∧
         regsBut (a :: seqRegs k c ++ doneRegs k c g) s t ∧ (g.spec = true → t.getF a Fld.CORE_TOKEN_VALUE = v - eats) ∧
         (g.spec = false → (t.core k c).flight f.serial = none ∧ t.getF a Fld.CORE_TOKEN_VALUE = min 0xFFFFFFFF
           (v - eats + (if tokenReg k c (dDone g.desc) = some a then 1 else 0)))) ∧
     ((s.core k c).flights.find? (fun h => decide (dOp h.desc = 8) && !h.complete) = some f →
       (∀ h ∈ (s.core k c).flights, h.serial < f.serial → df f.desc 36 32 / 2 ^ s.fenceClass k h.desc % 2 = 0) →
       ∃ t, exec (.fenceComplete k c) s = .next t ∧ t.mem = s.mem ∧ coresBut k c s t ∧
         regsBut (seqRegs k c ++ doneRegs k c g) s t ∧ (g.spec = false → doneWith s t k c g) ∧
         (g.spec = true → (t.core k c).flights = ((s.core k c).setFlight { g with complete := true }).flights))) ∧
  (∀ (k : Stack) (c : Core) (s : State) (b : Nat) (rest : List Nat) (f : Flight) (flaws : Flaws) (mets : Meets),
     (s.core k c).branches = b :: rest → (s.core k c).flight b = some f → (∀ g ∈ (s.core k c).flights, b ≤ g.serial) →
     let v := leNat (s.readMem k (coreStoreBase c + df f.desc 83 64) (2 ^ df f.desc 36 35))
     let taken := branchTaken f.desc v
     ∃ t, exec (.branchResolve k c flaws mets) s = .next t ∧
       (taken = decide (df f.desc 37 37 = 1) → (t.core k c).branches = rest ∧ (t.core k c).pc = (s.core k c).pc ∧
         (t.core k c).squashes = (s.core k c).squashes ∧ (t.core k c).flight b = none ∧
         ((s.core k c).flights = [f] → coresBut k c s t)) ∧
       (taken ≠ decide (df f.desc 37 37 = 1) → (t.core k c).branches = [] ∧ (t.core k c).flights = [] ∧
         (t.core k c).specData = (s.core k c).specData.filter (fun e => decide (e.serial < b + 1)) ∧
         (t.core k c).pc = (if taken then branchTarget f.idx f.desc else f.idx + 1) ∧
         (t.core k c).squashes = min 0xFFFF ((s.core k c).squashes + 1) ∧ (t.core k c).acc = (s.core k c).acc ∧
         coresBut k c s t ∧ (tracedAt s k = false → t.mem = s.mem)))

/-- R98, R99, R106, R113, R265: MOVE, REDUCE and COMMIT_WRITE issue in order whatever their reads meet, a MOVE that
reads as long as a tag is free. R99, R106, R209: a MOVE that reads one piece from another site of the package sends
its READ_REQ, and a COMMIT_WRITE of one piece its WRITE_COMMIT with the source bytes, each under a live tag. -/
def Obligations.TransfersIssue : Prop :=
  (∀ (k : Stack) (c : Core) (s : State) (d : BitVec 512) (fl : Flaws) (mets : Meets) (op : Nat) (i : Instr),
     s.ready k c op = some d →
     (op, i) ∈ [(3, Instr.moveDesc k c .good fl mets), (4, .reduceDesc k c .good fl), (9, .commitWrite k c .good fl)] →
     (op = 3 → s.moveClass k d = .read → ((s.gw k).freeTag c).isSome = true) →
     ∃ t, exec i s = .next t ∧ (t.core k c).pc = (s.core k c).pc + 1 ∧ (t.core k c).serial = (s.core k c).serial + 1 ∧
       (t.core k c).acc = (s.core k c).acc ∧ (t.core k c).branches = (s.core k c).branches ∧
       (op ≠ 3 ∨ (df d 34 34 = 0 ∧ s.moveClass k d ≠ .read) → coresBut k c s t)) ∧
  (∀ (k : Stack) (c : Core) (s : State) (d : BitVec 512) (p : Piece), tracedAt s k = false →
     (s.core k c).branches = [] → (s.core k c).flight (s.core k c).serial = none → hasTag s k c →
     (s.ready k c 3 = some d → df d 34 34 = 0 → s.moveClass k d = .read → s.moveBadIndex k c d = false →
       s.movePieces k c d = [p] → gPkg p.src = s.pkg → s.localFail k c s.pkg (gSite p.src) = none →
       s.cachedAt k (s.core k c).ctx p.src = false → ∀ mets,
       ∃ t q, exec (.moveDesc k c .good [] mets) s = .next t ∧ q.op = 0x08 ∧ q.vc = 0 ∧ q.dstSite.val = gSite p.src ∧
         q.addr.toNat = gOff p.src ∧ q.len = BitVec.ofNat 13 p.len ∧ q.ctx = BitVec.ofNat 8 (s.core k c).ctx ∧
         q.crc = q.calcCrc ∧ sentOn t k (.base q.dstSite) q ∧
         tagLive t k c q.tag.toNat (.descRead c (s.core k c).serial p.dst false) ∧ t.mem = s.mem) ∧
     (s.ready k c 9 = some d → gPkg p.dst = s.pkg → s.localFail k c s.pkg (gSite p.dst) = none →
       s.ownFails k (s.core k c).ctx (gOff p.src) p.len true false = none →
       cutPieces (df d 127 64) (df d 191 128) (gOff (df d 191 128)) (df d 223 192) (df d 223 192 / 32 + 1) = [p] →
       ∃ t q, exec (.commitWrite k c .good []) s = .next t ∧ q.op = 0x02 ∧ q.commit = true ∧ q.dstSite.val = gSite p.dst ∧
         q.addr.toNat = gOff p.dst ∧ q.payload = s.readMem k (gOff p.src) p.len ∧ q.crc = q.calcCrc ∧
         sentOn t k (.base q.dstSite) q ∧ tagLive t k c q.tag.toNat (.desc c (s.core k c).serial) ∧
         t.mem = s.mem))

/-- R92, R99: when the last byte of a local move is written, the MOVE completes and raises its token; each piece's
destination then holds its source's bytes and no other byte has changed, where the accesses are permitted (R24, R161,
R440), meet no parity failure, no other write (R69) and no slot-fill window. A core's window that the move fills takes
its records (R117). -/
def Obligations.LocalMoveCompletes : Prop :=
  ∀ (k : Stack) (c : Core) (s : State) (serial : Nat) (mets : Meets) (f : Flight), (s.core k c).flight serial = some f →
    dOp f.desc = 3 → s.moveClass k f.desc = .local_ → df f.desc 34 34 = 0 → f.spec = false → f.left = 0 →
    (∀ p ∈ f.todo, ∀ n, fillWindowOf (gOff p.dst) p.len = some n →
      (s.core k n).heldFills = [] ∧ (s.core k n).fills.length + f.todo.length ≤ 256) →
    ∃ t, exec (.localMoveComplete k c serial mets) s = .next t ∧ doneWith s t k c f ∧
      (mets = [] → f.flaws = [] → tracedAt s k = false → (∀ p ∈ f.todo, fillWindowOf (gOff p.dst) p.len = none ∧
          s.ownFails k (s.core k c).ctx (gOff p.src) p.len true false = none ∧
          s.ownFails k (s.core k c).ctx (gOff p.dst) p.len false true = none) →
        coresBut k c s t ∧
        (∀ p, f.todo = [p] → gOff p.dst + p.len ≤ 2 ^ 43 →
          t.readMem k (gOff p.dst) p.len = s.readMem k (gOff p.src) p.len ∧ memBut k (gOff p.dst) p.len s t) ∧
        (∀ i off, off < 2 ^ 43 → (∀ p ∈ f.todo, gOff p.dst + p.len ≤ 2 ^ 43 ∧
            ¬(i = k.val ∧ gOff p.dst ≤ off ∧ off < gOff p.dst + p.len)) → t.byteAt i off = s.byteAt i off) ∧
        { t with cores := s.cores, regs := s.regs, mem := s.mem, log := s.log, logBase := s.logBase, reports := s.reports,
                 bells := s.bells, out := s.out } = s ∧ regsBut (seqRegs k c ++ doneRegs k c f) s t)

/-- R102, R109: a SIGNAL to the issuing site raises its token by AMOUNT, holding at 2^32 - 1, and is done at once; one
to another site of the package sends a SIGNAL packet with the token reference and the amount under a tag. R83, R84,
R107: BELL_END retires once the core has nothing in flight and no read outstanding. Its slack is the time to the guard
start in whole ns rounded down, the least slack follows it, and the counters of the bell are shown; no memory, and
nothing but the core and its slack registers, changes. -/
def Obligations.SignalIssuesAndBellEndRetires : Prop :=
  (∀ (k : Stack) (c : Core) (s : State) (d : BitVec 512), s.ready k c 5 = some d → tracedAt s k = false →
     (s.core k c).flight (s.core k c).serial = none →
     let target := df d 127 64
     (∀ a, s.onSite k target = true → tokenReg k (target % 128) (df d 43 32) = some a →
       ∃ t, exec (.signalDesc k c .good) s = .next t ∧ (t.core k c).pc = (s.core k c).pc + 1 ∧
         (t.core k c).serial = (s.core k c).serial + 1 ∧ (t.core k c).flights = (s.core k c).flights ∧
         t.getF a Fld.CORE_TOKEN_VALUE = min 0xFFFFFFFF (s.getF a Fld.CORE_TOKEN_VALUE + df d 159 128 +
           (if tokenReg k c (dDone d) = some a then 1 else 0)) ∧
         t.mem = s.mem ∧ t.gws = s.gws ∧ coresBut k c s t) ∧
     (s.onSite k target = false → gPkg target = s.pkg → s.localFail k c s.pkg (gSite target) = none →
       hasTag s k c →
       ∃ t q, exec (.signalDesc k c .good) s = .next t ∧ (t.core k c).pc = (s.core k c).pc + 1 ∧
         (t.core k c).serial = (s.core k c).serial + 1 ∧ q.op = 0x20 ∧ q.vc = 5 ∧ q.dstSite.val = gSite target ∧
         q.addr = BitVec.ofNat 43 (target % 128) ∧ q.payload = leBytes 4 (df d 43 32) ++ leBytes 4 (df d 159 128) ++ leBytes 24 0 ∧
         q.crc = q.calcCrc ∧ sentOn t k (.base q.dstSite) q ∧ tagLive t k c q.tag.toNat (.desc c (s.core k c).serial) ∧
         t.mem = s.mem ∧ coresBut k c s t)) ∧
  (∀ (k : Stack) (c : Core) (s : State),
     (s.core k c).running = true → (s.core k c).atEnd = true → (s.core k c).retired = false →
     (s.core k c).halted = false → (s.core k c).flights = [] → s.readsOut k c = false →
     let b := s.bellAt k
     let slack : Int := (guardAt b s.rs 0 : Int) - s.vt - (if s.vtFrac = 0 then 0 else 1)
     let old := s.getF (Reg.CORE_SLACK_MIN k c) Fld.CORE_SLACK_MIN_MIN
     ∃ t, exec (.bellEndRetire k c) s = .next t ∧ t.core k c = { s.core k c with retired := true } ∧ coresBut k c s t ∧
       t.getF (Reg.CORE_SLACK k c) Fld.CORE_SLACK_SLACK = twos32 slack ∧
       t.getF (Reg.CORE_SLACK_MIN k c) Fld.CORE_SLACK_MIN_MIN = (if slack < sint32 old then twos32 slack else old) ∧
       t.getF (Reg.CORE_MMA_CYC k c) Fld.CORE_MMA_CYC_CYCLES = (s.core k c).mmaCyc % 2 ^ 32 ∧
       t.getF (Reg.CORE_WAIT_CYC k c) Fld.CORE_WAIT_CYC_CYCLES = (s.core k c).waitCyc % 2 ^ 32 ∧
       t.getF (Reg.CORE_STATUS k c) Fld.CORE_STATUS_BELL = b.bell % 256 ∧
       t.getF (Reg.CORE_STATUS k c) Fld.CORE_STATUS_STATE = 3 ∧
       regsBut [Reg.CORE_SLACK k c, Reg.CORE_SLACK_MIN k c, Reg.CORE_STATUS k c, Reg.CORE_MMA_CYC k c,
         Reg.CORE_WAIT_CYC k c, Reg.CORE_STRETCH k c, Reg.CORE_SQUASH_CNT k c, Reg.CORE_SITE_SLACK k,
         Reg.CORE_SITE_SLACK_SRC k, Reg.CORE_SEQ_PC k c] s t ∧
       { t with cores := s.cores, regs := s.regs } = s)

/-! ### Votes, lateness and the root (R130 to R151) -/

/-- R131, R132, R133: the vote node takes the first vote of each child, drops a further one, and passes nothing on
until every child's vote and its own flags are in; a vote that is missing at the end of bell n + D counts as FAULT and
in BELL_CNT_MISSING. -/
def Obligations.VotesAreGathered : Prop :=
  ∀ (child : Child) (s : State),
    (∀ (bell : BitVec 48) (fault lost : Bool) (rx : Rx), rx ≠ .lost → s.drops child bell.toNat = false →
      s.node.holds bell.toNat child = false →
      let v : Vote := ⟨bell.toNat, child, fault, lost⟩
      nodeWaits { s with node := { s.node with votes := s.node.votes ++ [v] } } →
      ∃ t, exec (.voteFrame child bell fault lost rx) s = .next t ∧
        t.node = { s.node with votes := s.node.votes ++ [v] } ∧ { t with node := s.node, regs := s.regs } = s ∧
        regsBut [Reg.FAB_SYNC_ERR (treePort s.rs)] s t) ∧
    (∀ (bell : BitVec 48) (fault lost : Bool), s.drops child bell.toNat = true ∨ s.node.holds bell.toNat child = true →
      exec (.voteFrame child bell fault lost .both) s = .next s) ∧
    (let n := s.node.next
     s.drops child n = false → s.node.holds n child = false → s.port.life ≠ .notStarted → n ≤ s.port.bell →
      s.endOf (n + depthD s.rs) ≤ s.vt →
      nodeWaits { s with node := { s.node with votes := s.node.votes ++ [⟨n, child, true, false⟩] } } →
      ∃ t, exec (.voteMissing child) s = .next t ∧ t.node = { s.node with votes := s.node.votes ++ [⟨n, child, true, false⟩] } ∧
        t.getF Reg.BELL_CNT_MISSING Fld.BELL_CNT_MISSING_COUNT =
          min 0xFFFFFFFF (s.getF Reg.BELL_CNT_MISSING Fld.BELL_CNT_MISSING_COUNT + 1) ∧
        { t with node := s.node, regs := s.regs } = s ∧ regsBut [Reg.BELL_CNT_MISSING] s t)

/-- R133 to R136, R148, R149: the last vote of a bell makes the root decide it: CLEAR where no vote is faulty; HOLD
with SITE_LOST where one carries LOST; HOLD with CHECKPOINT_REQUIRED after three replays in a row; else REPLAY with
START its send time plus C plus DRAIN, rounded up to 250 ns. A decision that is not CLEAR mutes the node until START.
That a vote with LOST alone counts as faulty is the model's reading (log 28). -/
def Obligations.RootDecides : Prop :=
  ∀ (child : Child) (bell : BitVec 48) (fault lost own : Bool) (s : State), isRoot s.rs = true →
    s.drops child bell.toNat = false → s.node.holds bell.toNat child = false → bell.toNat = s.node.next →
    s.node.own.find? (fun o => decide (o.1 = bell.toNat)) = some (bell.toNat, own) → s.node.mute = false →
    let votes := s.node.votes ++ [⟨bell.toNat, child, fault, lost⟩]
    (s.children.all fun c => { s.node with votes := votes }.holds bell.toNat c) = true →
    let mine := votes.filter fun v => decide (v.bell = bell.toNat)
    let anyFault := own || mine.any (·.fault)
    let anyLost := mine.any (·.lost)
    ∃ t, exec (.voteFrame child bell fault lost .both) s = .next t ∧ t.mem = s.mem ∧ t.regs = s.regs ∧
      (anyFault = false → anyLost = false → ∃ u, cried t (treePort s.rs) .down .clear bell.toNat u) ∧
      (anyLost = true → cried t (treePort s.rs) .down .hold bell.toNat 2 ∧ t.node.mute = true) ∧
      (anyFault = true → anyLost = false → 3 ≤ s.node.replays →
        cried t (treePort s.rs) .down .hold bell.toNat 1 ∧ t.node.mute = true) ∧
      (anyFault = true → anyLost = false → s.node.replays < 3 →
        cried t (treePort s.rs) .down .replay bell.toNat (up250 (s.vt + cryTime s.rs + drainNs s.rs)) ∧
        t.node.replays = s.node.replays + 1 ∧ t.node.mute = true)

/-- R149: when a faulty VOTE of a bell carries LOST, the decision of that bell at the root is HOLD with reason
SITE_LOST and no other frame, whatever else is faulty and however often it was replayed; the last vote of the bell
brings it at once. -/
def Obligations.LostHolds : Prop :=
  (∀ (s : State) (n : Nat), ∃ q,
    (s.decideBell n true true).out = .frame (treePort s.rs) .down ⟨.hold, q, n, 2⟩ :: s.out ∧
    (s.decideBell n true true).node.replays = s.node.replays) ∧
  (∀ (child : Child) (bell : BitVec 48) (fault lost own : Bool) (s : State), isRoot s.rs = true →
    s.drops child bell.toNat = false → s.node.holds bell.toNat child = false → bell.toNat = s.node.next →
    s.node.own.find? (fun o => decide (o.1 = bell.toNat)) = some (bell.toNat, own) → s.node.mute = false →
    let votes := s.node.votes ++ [⟨bell.toNat, child, fault, lost⟩]
    (s.children.all fun c => { s.node with votes := votes }.holds bell.toNat c) = true →
    (∃ v ∈ votes, v.bell = bell.toNat ∧ v.fault = true ∧ v.lost = true) →
    ∃ t q, exec (.voteFrame child bell fault lost .both) s = .next t ∧
      t.out = .frame (treePort s.rs) .down ⟨.hold, q, bell.toNat, 2⟩ :: s.out ∧ t.node.replays = s.node.replays ∧ t.mem = s.mem)

/-- R145, R146: G_m = b + period − guard interval + m × q and c_m = G_m − LEAD; at c_m a site with an unretired core
or an incomplete slice sends LATE(k, m) and raises LATE_BELL, any other notes the check point alone. R145, R146: a
LATE report is kept, and at c_m + C the root cries EXTEND(k, m + 1) where it has one and m is below EXT_MAX, else
CLOSE(k, m), FORCED where it has one; after CLOSE it decides no more for the bell. -/
def Obligations.LatenessDecided : Prop :=
  (∀ (site : Site) (s : State), s.live site = true → (s.bellAt site).executing = true → (s.bellAt site).guard = false →
     (s.bellAt site).closed = none → (s.bellAt site).checks ≤ extMax s.rs →
     let b := s.bellAt site
     let g := b.t0 + b.bell * periodNs s.rs + periodNs s.rs - guardNs s.rs + b.checks * extQ s.rs
     g - leadNs s.rs ≤ s.vt →
     ∃ t, exec (.checkPoint site) s = .next t ∧ (t.bellAt site).checks = b.checks + 1 ∧ bellsBut site s t ∧ t.mem = s.mem ∧
       (s.unretired site ≠ [] ∨ s.sliceOpen site b.bell = true → (t.bellAt site).late = true ∧
         cried t site .toNode .late b.bell b.checks ∧ logged t site 0x0101 [(s.unretired site).headD 0] ∧
         (t.bellAt site).fault = b.fault) ∧
       (s.unretired site = [] → s.sliceOpen site b.bell = false → t.out = s.out ∧ t.log = s.log ∧
         { t with bells := s.bells } = s)) ∧
  (∀ (s : State), isRoot s.rs = true →
     (∀ (child : Child) (bell : BitVec 48) (m : Fin 9), s.drops child bell.toNat = false → (bell.toNat, m.val) ∉ s.node.lates →
       ∃ t, exec (.lateFrame child bell m .both) s = .next t ∧
         t.node = { s.node with lates := s.node.lates ++ [(bell.toNat, m.val)] } ∧ { t with node := s.node } = s) ∧
     (let b := s.port
      let m := s.node.nextM
      let late := decide ((b.bell, m) ∈ s.node.lates)
      b.executing = true → b.guard = false → s.node.closed = false → s.node.mute = false →
       guardAt b s.rs m - leadNs s.rs + cryTime s.rs ≤ s.vt →
       ∃ t, exec .latenessDecision s = .next t ∧ { t with node := s.node, out := s.out, seqs := s.seqs } = s ∧
         (late = true → m < extMax s.rs → cried t (treePort s.rs) .down .extend b.bell (m + 1) ∧
           t.node = { s.node with nextM := m + 1 }) ∧
         (late = false ∨ extMax s.rs ≤ m → cried t (treePort s.rs) .down .close b.bell (16 * bit late + m) ∧
           t.node = { s.node with closed := true })) ∧
     (s.node.closed = true → exec .latenessDecision s = .next s))

/-- R146: EXTEND moves the guard start of the bell it names; CLOSE fixes it, and the package of the vote node's site
adds m to BELL_CNT_EXT and 1 to BELL_CNT_LATE where m is above 0 or FORCED is set. A frame that is not heard changes
nothing but the site's sync errors. R77, R108, R128: at the guard start the site's issue stops, and the tokens and
accumulators of every core of a compute stack clear; without a change of context no byte of a core store or cluster
memory changes. -/
def Obligations.BellsClose : Prop :=
  (∀ (site : Site) (bell : BitVec 48) (m : Fin 9) (forced : Bool) (s : State), s.live site = true →
     (s.bellAt site).executing = true → (s.bellAt site).bell = bell.toNat → (s.bellAt site).guard = false →
     (s.bellAt site).closed = none → isRoot s.rs = true →
     ((s.bellAt site).ext < m.val → ∃ t, exec (.extendFrame site bell m .both) s = .next t ∧
       t.bellAt site = { s.bellAt site with ext := m.val, life := .extended } ∧ bellsBut site s t ∧
       { t with bells := s.bells, regs := s.regs } = s ∧
       regsBut [Reg.BELL_NOW, Reg.BELL_ORIGIN, Reg.BELL_COMMITTED, Reg.BELL_STATUS] s t) ∧
     (∃ t, exec (.closeFrame site bell m forced .both) s = .next t ∧
       t.bellAt site = { s.bellAt site with closed := some (m.val, forced) } ∧ bellsBut site s t ∧
       { t with bells := s.bells, regs := s.regs } = s ∧ regsBut [Reg.BELL_CNT_EXT, Reg.BELL_CNT_LATE] s t ∧
       (site.val = treePort s.rs →
         t.getF Reg.BELL_CNT_EXT Fld.BELL_CNT_EXT_COUNT = min 0xFFFFFFFF (s.getF Reg.BELL_CNT_EXT Fld.BELL_CNT_EXT_COUNT + m.val) ∧
         t.getF Reg.BELL_CNT_LATE Fld.BELL_CNT_LATE_COUNT = min 0xFFFFFFFF (s.getF Reg.BELL_CNT_LATE Fld.BELL_CNT_LATE_COUNT +
           (if 0 < m.val ∨ forced = true then 1 else 0)))) ∧
     (exec (.extendFrame site bell m .lost) s = .next (s.bump (Reg.FAB_SYNC_ERR site) Fld.FAB_SYNC_ERR_LOST 1))) ∧
  (∀ (site : Site) (s : State), s.live site = true → (s.bellAt site).executing = true → (s.bellAt site).guard = false →
     guardAt (s.bellAt site) s.rs (s.bellAt site).extNow ≤ s.vt →
     ∃ t, exec (.guardStart site) s = .next t ∧ (t.bellAt site).guard = true ∧ t.mayIssue site = false ∧
       (t.bellAt site).bell = (s.bellAt site).bell ∧ ∀ k : Stack, k.val = site.val →
       (∀ (c : Core) (i : Fin 256), t.getF (Reg.CORE_TOKEN k c i) Fld.CORE_TOKEN_VALUE = 0) ∧
       (∀ (n : Fin 12) (i : Fin 1024), t.getF (Reg.CORE_CTOKEN k n i) Fld.CORE_TOKEN_VALUE = 0) ∧
       (∀ (c : Core), (t.core k c).acc = []) ∧
       ((s.bellAt k).resident = turnOf s.rs ((s.bellAt k).bell + 1) → t.mem = s.mem))

/-! ### Bells at a site (R22, R77, R108, R126 to R152) -/

/-- R22, R131, R135, R156: at the end of its bell a site sends its vote, its tithes reload, and bell n + 1 begins with
T0 later by the extensions, or the site holds or settles where it is to; without the decision on bell n − D it holds for
it, which is the row COMMIT_DEADLINE. -/
def Obligations.BellBoundary : Prop :=
  ∀ (site : Site) (s : State), s.bellOver site = true →
    (∃ t, exec (.bellBoundary site) s = .next t ∧ bellEnded s t site) ∧
    (s.deadlineMet site (s.bellAt site).bell = false →
      ∃ t, exec (.commitDeadline site) s = .next t ∧ bellEnded s t site)

/-- R135, R137, R150: a late-commit hold ends at HOLD_UNTIL; a replay begins bell n again at START, and a resume bell
BELL_COMMITTED + 1, with T0 set so that the bell begins then; before START nothing happens. -/
def Obligations.BellsBeginAgain : Prop :=
  ∀ (site : Site) (s : State), s.live site = true →
    let b := s.bellAt site
    (∀ u, b.life = .lateHold → s.deadlineMet site b.bell = true →
      u = (match b.holdFor with
        | some (k, t) => if k = b.bell then t else s.vt
        | none => s.vt) → u ≤ s.vt →
      ∃ t, exec (.holdUntil site) s = .next t ∧ (t.bellAt site).life = .running ∧ (t.bellAt site).bell = b.bell + 1 ∧
        (t.bellAt site).t0 = u - (b.bell + 1) * periodNs s.rs) ∧
    (∀ u, b.start = some u → u ≤ s.vt →
      (b.life = .abandoning → ∃ t, exec (.replayStart site) s = .next t ∧ (t.bellAt site).life = .running ∧
        (t.bellAt site).bell = b.startBell ∧ (t.bellAt site).t0 = u - b.startBell * periodNs t.rs ∧
        (t.bellAt site).guard = false ∧ (t.bellAt site).lost = false) ∧
      (b.life = .held ∨ b.life = .settling ∨ b.life = .notStarted → ∃ t, exec (.resumeStart site) s = .next t ∧
        (t.bellAt site).life = .running ∧ (t.bellAt site).bell = b.startBell ∧
        (t.bellAt site).t0 = u - b.startBell * periodNs t.rs ∧ (t.bellAt site).pendHold = none ∧
        (t.bellAt site).settleB = none)) ∧
    (∀ u, b.start = some u → s.vt < u → exec (.replayStart site) s = .next s ∧ exec (.resumeStart site) s = .next s)

/-- R134: at CLEAR(n) bell n is committed at the site: a bridge's fix area holds no staged write of it any more, the
fills and the snapshot of bell n are released, and BELL_COMMITTED shows n at the vote node's site. R137, R138, R148,
R150: a REPLAY of the oldest uncommitted bell makes a site abandon its work until START; a HOLD that is no hold
request makes it hold before that bell; neither undoes a byte of a compute stack's memory; a hold request is kept for its
boundary. R150, R151, R332: a site that holds notes the START of RESUME, and one that runs the bell of SETTLE. -/
def Obligations.CriesAtSites : Prop :=
  ∀ (site : Site) (bell : BitVec 48) (rx : Rx) (s : State), heard s site rx →
    let b := s.bellAt site
    let frames := [Reg.FAB_SYNC_ERR site, Reg.BELL_STATUS]
    (∀ (until_ : BitVec 64) (flaws : Flaws), b.life ≠ .notStarted → bell.toNat = b.nextCommit →
       ¬(b.life = .abandoning ∧ b.startBell ≤ bell.toNat) →
       ∃ t, exec (.clearFrame site bell until_ flaws rx) s = .next t ∧ (t.bellAt site).committed = some bell.toNat ∧
         (t.bellAt site).snaps = b.snaps.filter (fun x => decide (bell.toNat < x.bell)) ∧ bellsBut site s t ∧
         ((∀ c : Core, (s.core site c).heldFills = []) → (site.val < 8 → t.mem = s.mem) ∧
           ∀ (k : Stack) (c : Core), k.val = site.val → ∀ f ∈ (t.core k c).fills, bell.toNat < f.bell) ∧
         (siteKind site = .bridge → ∀ e ∈ (t.bridgeAt site).fix, e.bell = bell.toNat → e.done = true) ∧
         (site.val = treePort s.rs → t.getF Reg.BELL_COMMITTED Fld.BELL_COMMITTED_NUMBER = bell.toNat ∧
           t.getF Reg.BELL_COMMITTED Fld.BELL_COMMITTED_VALID = 1)) ∧
    (∀ start : BitVec 64, b.abandonable bell.toNat = true →
       ∃ t, exec (.replayFrame site bell start rx) s = .next t ∧ (t.bellAt site).life = .abandoning ∧
         (t.bellAt site).start = some start.toNat ∧ (t.bellAt site).startBell = bell.toNat ∧
         (t.bellAt site).committed = b.committed ∧ bellsBut site s t ∧ (site.val < 8 → t.mem = s.mem) ∧
         (∀ (k : Stack) (c : Core), k.val = site.val → (t.core k c).running = false ∧ (t.core k c).flights = [] ∧
           (t.core k c).mma = [] ∧ (t.core k c).specData = [] ∨
           t.core k c = s.core k c ∧ (s.core k c).running = false ∧ (s.core k c).flights = []) ∧
         (site.val = treePort s.rs → t.getF Reg.BELL_CNT_REPLAY Fld.BELL_CNT_REPLAY_COUNT =
           min 0xFFFFFFFF (s.getF Reg.BELL_CNT_REPLAY Fld.BELL_CNT_REPLAY_COUNT + 1))) ∧
    (∀ reason : Fin 8, reason.val = 1 ∨ reason.val = 2 → b.abandonable bell.toNat = true →
       ∃ t, exec (.holdFrame site bell reason rx) s = .next t ∧ (t.bellAt site).life = .held ∧
         (t.bellAt site).startBell = bell.toNat ∧ (t.bellAt site).committed = b.committed ∧ t.mayIssue site = false ∧
         (site.val < 8 → site.val ≠ treePort s.rs → t.mem = s.mem)) ∧
    (b.executing = true ∨ b.life = .lateHold ∨ b.life = .abandoning →
       (∃ t, exec (.holdFrame site bell 3 rx) s = .next t ∧ bellsBut site s t ∧ regsBut frames s t ∧
         t.bellAt site = { b with pendHold := some bell.toNat } ∧
         { t with bells := s.bells, regs := s.regs, out := s.out, seqs := s.seqs } = s) ∧
       ∃ t, exec (.settleFrame site bell rx) s = .next t ∧ bellsBut site s t ∧ regsBut frames s t ∧
         t.bellAt site = { b with settleB := some bell.toNat } ∧
         t.node = (if site.val = treePort s.rs then { s.node with settleAt := some bell.toNat } else s.node) ∧
         { t with bells := s.bells, regs := s.regs, out := s.out, seqs := s.seqs, node := s.node } = s) ∧
    (∀ start : BitVec 64, b.life = .notStarted ∨ b.settled = true → bell.toNat = b.nextCommit →
       ∃ t, exec (.resumeFrame site bell start rx) s = .next t ∧ bellsBut site s t ∧ regsBut frames s t ∧
         t.bellAt site = { b with start := some start.toNat, startBell := bell.toNat } ∧
         { t with bells := s.bells, regs := s.regs, out := s.out, seqs := s.seqs, node := s.node } = s)

/-- R150: HOLD_REQ at the root cries HOLD with reason hold request for the first boundary at least C away; RESUME
while the domain holds cries RESUME with START its send time plus C plus DRAIN, rounded up to 250 ns; both are ignored
at a package that is not the root. -/
def Obligations.RootRequests : Prop :=
  ∀ (s : State),
    (isRoot s.rs = true → s.node.holdAt = none →
      s.port.executing = true ∨ s.port.life = .lateHold ∨ s.port.life = .abandoning →
      ∃ t, exec .bellCtrlHoldReq s = .next t ∧ cried t (treePort s.rs) .down .hold s.firstBellAhead 3 ∧
        t.node = { s.node with holdAt := some s.firstBellAhead } ∧ { t with node := s.node, out := s.out, seqs := s.seqs } = s) ∧
    (isRoot s.rs = true → s.power.on = true → s.asleep = false →
      s.port.settled = true ∨ s.port.life = .notStarted →
      ∃ t, exec .bellCtrlResume s = .next t ∧
        cried t (treePort s.rs) .down .resume s.port.nextCommit (up250 (s.vt + cryTime s.rs + drainNs s.rs)) ∧
        t.node.replays = 0 ∧ t.node.holdAt = none ∧ { t with node := s.node, out := s.out, seqs := s.seqs } = s) ∧
    (isRoot s.rs = false → exec .bellCtrlHoldReq s = .next s ∧ exec .bellCtrlResume s = .next s)

/-- R152, R156: while a site holds or settles, each period boundary reloads its tithes; a tithed request within its
class's budget is admitted and charged, one beyond it, or behind one, waits, and one beyond it marks the class stalled
outside a guard interval; a waiting one is admitted and charged once it fits, and what waits on it goes: here nothing of
the site's own, or a packet of the package. -/
def Obligations.Tithes : Prop :=
  ∀ (site : Site) (cls : Fin 9) (s : State),
    (s.live site = true → s.asleep = false → (s.bellAt site).life = .held ∨ (s.bellAt site).life = .settling →
      (s.bellAt site).perIdx < s.periodIdx (s.bellAt site) →
      ∃ t, exec (.holdPeriodBoundary site) s = .next t ∧
        (site.val ≠ treePort s.rs ∨ (s.bellAt site).settled = false →
          (t.bellAt site).perIdx = s.periodIdx (s.bellAt site) ∧ (t.bellAt site).life = (s.bellAt site).life ∧
          ∀ c : Fin 9, t.getF (Reg.TITHE_USED site c) Fld.TITHE_USED_USED = SMap.get 0 (s.tithe site).used c % 2 ^ 32)) ∧
    (∀ cost id : BitVec 32, let waits := (s.tithe site).queue.any (fun r => decide (r.cls = cls.val))
      (waits = false → s.titheFits site cls cost.toNat = true →
        ∃ t, exec (.titheRequest site cls cost id) s = .next t ∧ { t with tithes := s.tithes } = s ∧
          t.tithe site = { s.tithe site with
            used := SMap.set 0 (s.tithe site).used cls (SMap.get 0 (s.tithe site).used cls + cost.toNat)
            admitted := (s.tithe site).admitted ++ [id.toNat] }) ∧
      (waits = true ∨ s.titheFits site cls cost.toNat = false →
        ∃ t, exec (.titheRequest site cls cost id) s = .next t ∧
          (t.tithe site).queue = (s.tithe site).queue ++ [⟨cls, cost.toNat, id.toNat⟩] ∧
          (t.tithe site).used = (s.tithe site).used ∧ (t.tithe site).admitted = (s.tithe site).admitted ∧
          (waits = false → (s.bellAt site).guard = false → cls.val ∈ (t.tithe site).stalled) ∧
          { t with tithes := s.tithes, regs := s.regs } = s ∧ regsBut [Reg.TITHE_STALLS site cls] s t)) ∧
    (∀ r : TitheReq, (s.tithe site).queue.find? (fun x => decide (x.cls = cls.val)) = some r →
      s.titheFits site cls r.cost = true →
      ∃ t, exec (.titheAdmit site cls) s = .next t ∧ (s.inbox = [] →
        ((∀ j ∈ s.jobs, j.id ≠ r.id) → (∀ e ∈ s.ingress, e.1 ≠ r.id) → (∀ e ∈ s.egress, e.1 ≠ r.id) →
          { t with tithes := s.tithes, regs := s.regs } = s ∧ regsBut [Reg.TITHE_STALLS site cls] s t ∧
          (t.tithe site).used = SMap.set 0 (s.tithe site).used cls (SMap.get 0 (s.tithe site).used cls + r.cost) ∧
          (t.tithe site).queue = dropFirst cls (s.tithe site).queue ∧
          (t.tithe site).admitted = (s.tithe site).admitted ++ [r.id]) ∧
        (∀ j, s.jobs.find? (fun j => decide (j.id = r.id)) = some j → j.pkt.dstPkg.toNat = s.pkg →
          s.localFail j.site j.issuer s.pkg j.pkt.dstSite.val = none → hasTag s j.site j.issuer →
          ∃ q, q.op = j.pkt.op ∧ q.dstSite = j.pkt.dstSite ∧ sentOn t j.site (.base j.pkt.dstSite) q ∧
            tagLive t j.site j.issuer q.tag.toNat j.why)))

/-- R200, R276: a BELL frame whose number is not the site's reports BELL_MISMATCH, which votes; one that agrees
changes nothing. ANNOUNCE raises the named token of each listening cluster by 1 if its bell is being executed, else it
counts in CORE_STALE_INC. -/
def Obligations.BellAndAnnounce : Prop :=
  ∀ (site : Site) (bell : BitVec 48) (rx : Rx) (s : State), heard s site rx →
    (∀ time : BitVec 64,
      ((s.bellAt site).life ≠ .notStarted → (s.bellAt site).bell ≠ bell.toNat →
        ∃ t, exec (.bellFrame site bell time rx) s = .next t ∧
        logged t site 0x0106 [(s.bellAt site).bell % 2 ^ 16, bell.toNat % 2 ^ 16, time.toNat % 2 ^ 16] ∧
        (votesNow s site = true → (t.bellAt site).fault = true) ∧ t.mem = s.mem ∧
        regsBut [Reg.EVT_STATUS, Reg.FAB_SYNC_ERR site] s t) ∧
      ((s.bellAt site).bell = bell.toNat → ∃ t, exec (.bellFrame site bell time rx) s = .next t ∧
        { t with regs := s.regs } = s ∧ regsBut [Reg.FAB_SYNC_ERR site] s t)) ∧
    (∀ (k : Stack) (arg : BitVec 64), k.val = site.val → arg.getLsbD (56 + k) = true →
      ∃ t, exec (.announce site bell arg rx) s = .next t ∧ t.mem = s.mem ∧ t.cores = s.cores ∧
        ∀ (n : Fin 12) (x : Fin 1024), arg.toNat / 2 ^ 20 % 2 ^ 12 = 2048 + x.val →
        ((s.bellAt site).executing = true → (s.bellAt site).bell = bell.toNat →
          t.getF (Reg.CORE_CTOKEN k n x) Fld.CORE_TOKEN_VALUE = min 0xFFFFFFFF
            (s.getF (Reg.CORE_CTOKEN k n x) Fld.CORE_TOKEN_VALUE + bit (arg.getLsbD (44 + n))) ∧
          regsBut ([Reg.EVT_STATUS, Reg.FAB_SYNC_ERR site] ++ (List.range 12).map (fun m => Reg.CORE_CTOKEN k m x)) s t) ∧
        ((s.bellAt site).bell ≠ bell.toNat →
          t.getF (Reg.CORE_STALE_INC k (8 * n)) Fld.CORE_STALE_INC_COUNT = min Fld.CORE_STALE_INC_COUNT.max
            (s.getF (Reg.CORE_STALE_INC k (8 * n)) Fld.CORE_STALE_INC_COUNT + bit (arg.getLsbD (44 + n))) ∧
          regsBut (Reg.FAB_SYNC_ERR site :: (List.range 12).map (fun m => Reg.CORE_STALE_INC k (8 * m))) s t))

/-! ### Memory (R163 to R179) -/

/-- R167: an invalidation drops its line from the stack's cache in every context and no other line, counts the lines
dropped, and leaves memory alone; it is answered once: it waits no more. -/
def Obligations.CacheInvalidates : Prop :=
  ∀ (k : Stack) (s : State) (p : InvPend), s.invPend.find? (fun q => decide (q.stack = k.val)) = some p →
    ∃ t, exec (.cacheInvalidation k) s = .next t ∧ t.mem = s.mem ∧
      (t.stackAt k).lines = (s.stackAt k).lines.filter (fun kv => !(decide (kv.2.bridge = p.bridge) && decide (kv.2.line = p.line))) ∧
      t.invPend.length + 1 = s.invPend.length ∧
      t.getF (Reg.MEM_CACHE_INV k) Fld.MEM_CACHE_INV_COUNT = min Fld.MEM_CACHE_INV_COUNT.max
        (s.getF (Reg.MEM_CACHE_INV k) Fld.MEM_CACHE_INV_COUNT +
          ((s.stackAt k).lines.length - (t.stackAt k).lines.length)) ∧
      (∀ j : Stack, j ≠ k → t.stackAt j = s.stackAt j)

/-- R169, R174: a frame group that waits is retired in a guard interval or a hold: the granary map gives it the port's
next spare group, or, with none left, marks the set disabled or the scratch frames lost, which is reported; its cache
set is emptied, and of a scratch group copied in a hold the bytes that fail parity alone become 0. A copy that fails in a
guard interval leaves the group for a hold. A queued page is retired in a hold: the lines that cannot be read are written
as 0 and marked LOST, and no other byte changes; in a guard interval one page a bell is, or is left for a hold. R174,
R177, R179: ACK_LOST clears every LOST bit and COMMIT_LOST of its bridge and changes no byte of memory; the entries of
other bridges stay. -/
def Obligations.MemoryRetires : Prop :=
  (∀ (k : Stack) (port : Fin 64) (group : Fin 4096) (bad : List Nat) (s : State),
     let key := 4096 * port.val + group.val
     let scratch := decide (16 * group.val < s.scratchFrames k)
     let used := s.sparesUsed k port
     key ∈ (s.stackAt k).groups →
     (s.holding k = true ∨ ((s.bellAt k).guard = true ∧ key ∉ (s.stackAt k).held ∧ (scratch = true → bad = [])) →
       ∃ t, exec (.frameGroupRetire k port group bad) s = .next t ∧ key ∉ (t.stackAt k).groups ∧
         t.grnGet 13 k key 0 = (if used < 32 then used else if scratch then 0x200 else 0x100) ∧
         (32 ≤ used → logged t k (if scratch then 0x0406 else 0x0405) [port, group]) ∧
         (scratch = false → ∀ kv ∈ (t.stackAt k).lines,
           kv.1 / 16 ≠ 65536 * port.val + (group.val - s.scratchFrames k / 16)) ∧
         (bad = [] ∨ scratch = false ∨ 32 ≤ used → t.mem = s.mem) ∧
         (bad ≠ [] → scratch = true → used < 32 → logged t k 0x0401 [port, group] ∧
           ∀ i off, off < 2 ^ 43 → t.byteAt i off =
             (if i = k.val ∧ ∃ x ∈ bad, off = (16 * group.val + x / 256 % 16) * 16384 + port.val * 256 + x % 256 then 0
              else s.byteAt i off))) ∧
     (s.holding k = false → (s.bellAt k).guard = true → key ∉ (s.stackAt k).held → scratch = true → bad ≠ [] →
       ∃ t, exec (.frameGroupRetire k port group bad) s = .next t ∧ key ∈ (t.stackAt k).groups ∧
         key ∈ (t.stackAt k).held ∧ { t with stackMem := s.stackMem } = s)) ∧
  (∀ (b : Bridge) (bad : BitVec 32) (s : State) (q : PageQueued), let i := bridgeSite b
     let retired := fun t : State => t.grnHas 14 i q.entry = true ∧
       t.grnGet 14 i q.entry 0 = bad.toNat + q.page * 2 ^ 32 + (if bad = 0 then 0 else 2 ^ 62) ∧
       (q.page * 8192 + 8192 ≤ 2 ^ 43 → ∀ j off, off < 2 ^ 43 → t.byteAt j off =
         (if j = i ∧ off / 8192 = q.page ∧ bad.getLsbD (off / 256 % 32) = true then 0 else s.byteAt j off))
     (∀ rest, s.holding i = true → (s.bridgeAt i).queue = q :: rest →
       ∃ t, exec (.pageRetire b bad) s = .next t ∧ retired t) ∧
     (s.holding i = false → (s.bellAt i).guard = true → SMap.get 0 s.pageBell i ≠ (s.bellAt i).bell + 1 →
       (s.bridgeAt i).queue.find? (fun p => !p.uncorr) = some q →
       ∃ t, exec (.pageRetire b bad) s = .next t ∧ t.mem = s.mem ∧
         SMap.get 0 t.pageBell i = (s.bellAt i).bell + 1 ∧ (bad = 0 → retired t) ∧
         (bad ≠ 0 → ∃ p ∈ (t.bridgeAt i).queue, p.page = q.page ∧ p.uncorr = true))) ∧
  (∀ (b : Bridge) (s : State), ∃ t, exec (.memAckLost b) s = .next t ∧
     t.getF (Reg.MEM_HBM_STATUS (bridgeSite b)) Fld.MEM_HBM_STATUS_COMMIT_LOST = 0 ∧ t.lostEntries (bridgeSite b) = 0 ∧
     (∀ c : Bridge, c ≠ b → t.lostEntries (bridgeSite c) = s.lostEntries (bridgeSite c)) ∧
     { t with regs := s.regs, grn := s.grn, mapLag := s.mapLag } = s ∧
     regsBut [Reg.MEM_HBM_STATUS (bridgeSite b), Reg.GRN_STATUS] s t)

/-! ### The base fabric (R184 to R203) -/

/-- R188, R190: a carrier that loses lock leaves service, and a bulk carrier its pair direction's stripe; one whose rings
have been locked again for 10 µs returns. A receiver follows the stripe of each change as its marker comes. Where the pair
keeps a carrier no memory changes. -/
def Obligations.CarriersMove : Prop :=
  (∀ (tx rx : Site) (plane : Fin 36) (s : State), let w := (rx.val + 32 - tx.val) % 32
    (tx ≠ rx → s.live tx = true → s.live rx = true → s.carrierFailed tx rx plane = false →
      s.isOut tx rx plane = false →
      ∃ t, exec (.carrierLoss tx rx plane) s = .next t ∧
        ((∃ q ∈ s.planesOf tx rx, q ≠ plane.val) → plane.val < 34 → t.isOut tx rx plane = true ∧
          t.planesOf tx rx = (s.planesOf tx rx).filter (fun q => decide (q ≠ plane.val)) ∧ restriped s t tx rx) ∧
        (34 ≤ plane.val → t.isOut tx rx plane = true ∧ t.mem = s.mem)) ∧
    (s.ringState tx (64 * plane.val + w) = 3 → s.ringState rx (64 * plane.val + 32 + w) = 3 →
      (s.ringCal tx (64 * plane.val + w)).lockAt + 10000 ≤ s.vt → (s.ringCal rx (64 * plane.val + 32 + w)).lockAt + 10000 ≤ s.vt →
      (∃ e ∈ s.outOf tx rx, e.1 = plane.val ∧ e.2 + 10000 ≤ s.vt) →
      ∃ t, exec (.carrierReturn tx rx plane) s = .next t ∧ t.isOut tx rx plane = false ∧ (34 ≤ plane.val → t.mem = s.mem) ∧
        (s.planesOf tx rx ≠ [] → plane.val < 34 → restriped s t tx rx))) ∧
  (∀ (site peer : Site) (version : BitVec 4) (s : State) (before after : List (Nat × BitVec 64)) (ps : BitVec 64),
    site ≠ peer → SMap.get [] s.markers (pairKey peer site) = before ++ (version.toNat, ps) :: after →
    (∀ e ∈ before, e.1 ≠ version.toNat) →
    ∃ t, exec (.stripeMarker site (.base peer) version) s = .next t ∧ t.reg (Reg.FAB_RX_STRIPE site peer) = ps ∧
      t.getF (Reg.FAB_RX_PAIR site peer) Fld.FAB_RX_PAIR_VERSION = version.toNat ∧
      t.getF (Reg.FAB_RX_PAIR site peer) Fld.FAB_RX_PAIR_CARRIERS = (onesBelow 34 ps.toNat).length ∧
      SMap.get [] t.markers (pairKey peer site) = after ∧ { t with regs := s.regs, markers := s.markers } = s ∧
      regsBut [Reg.FAB_RX_STRIPE site peer, Reg.FAB_RX_PAIR site peer, Reg.FAB_RESTRIPE_CNT site] s t) ∧
  (∀ (site : Site) (l : Fin 10) (version : BitVec 4) (s : State), siteKind site = .engine →
    let x := linkNum (site - 20) l
    s.linkState x ≠ 0 →
    ∃ t, exec (.stripeMarker site (.link l) version) s = .next t ∧ { t with links := s.links } = s ∧
      t.linkAt x = { s.linkAt x with rxVersion := version.toNat, rxWaves := (s.linkAt x).stripe.length })

/-- R185, R191, R195, R234: a carrier whose lane is at fault is served by a spare lane, in the register and the map, and
is not failed; one without such a lane is recorded as failed. A base comb that fails gives its planes to C4, if C4 is
idle, else its site's carriers on them fail; an external comb that fails is recorded. -/
def Obligations.CarriersFail : Prop :=
  (∀ (tx rx : Site) (plane : Fin 38) (late : Bool) (lane : Option Bool) (bad : Fin 3) (s : State),
    let q := plane.val
    (q < 36 → tx ≠ rx) → s.live tx = true → (q < 36 → s.live rx = true) → s.carrierFailed tx rx q = false →
    (late = true → ∃ e ∈ s.outOf tx rx, e.1 = q ∧ e.2 + 200000 ≤ s.vt) →
    ∃ t, exec (.carrierFailed tx rx plane late lane bad) s = .next t ∧
      (lane = none → if q < 36 then t.carrierFailed tx rx q = true else t.grnHas 5 tx (2048 + q) = true) ∧
      (∀ atRx, lane = some atRx → bad = 0 →
        let site := if atRx then rx else tx
        let slot := if q < 36 then (rx.val + 32 - tx.val) % 32 else tx.val
        s.getF (Reg.FAB_STEER site q) (spareFld (bit atRx) true) = 63 →
        (q < 34 → s.pairBracket tx rx = none ∧ ∃ p ∈ s.planesOf tx rx, p ≠ q) →
        t.getF (Reg.FAB_STEER site q) (spareFld (bit atRx) true) = slot ∧
        t.grnGet 4 site (4 * q + 2 * bit atRx + 1) 63 = slot ∧ t.carrierFailed tx rx q = false ∧
        (q < 36 → t.isOut tx rx q = false) ∧ t.mem = s.mem)) ∧
  (∀ (site : Site) (c : Fin 4) (s : State),
    s.getF (Reg.FAB_COMB site) (combFld c) = 0 ∨ s.getF (Reg.FAB_COMB site) (combFld c) = 2 →
    ∃ t, exec (.combFailure site ⟨c.val, by omega⟩) s = .next t ∧ t.getF (Reg.FAB_COMB site) (combFld c) = 3 ∧
      (s.getF (Reg.FAB_COMB site) Fld.FAB_COMB_C4 = 1 →
        t.getF (Reg.FAB_COMB site) Fld.FAB_COMB_C4 = 0 ∧ t.getF (Reg.FAB_COMB site) Fld.FAB_COMB_SPARE_FOR = c) ∧
      (s.getF (Reg.FAB_COMB site) Fld.FAB_COMB_C4 ≠ 1 → ∀ (q : Fin 36) (j : Site), q.val ∈ combPlanes c → j ≠ site →
        s.live j = true → t.carrierFailed site j q = true)) ∧
  (∀ (site : Site) (c : Fin 2) (s : State), siteKind site = .engine →
    ∃ t, exec (.combFailure site ⟨5 + c.val, by omega⟩) s = .next t ∧ t.combState site (5 + c.val) = 3)

/-! ### Optical control (R372 to R389) -/

/-- R372, R374, R377, R378, R380: every 5 µs a locked ring's code moves by at most 2 codes of the loop, whose law is a free
value (log 5), and that of a locked or acquiring one by at most 4 of the feed-forward; two updates in a row beyond 4.0 GHz
lose lock; FF_RAMP after a change of class the gain moves by one eighth where the limits allow it; a ring whose strongest
tone, 6 dB above the next, is its own, with its code near its expectation, is locked, with that code as its new expectation; at a first heater fault the other segment takes over the code. R382: every 1 s a comb's least received
power over its lit lines is noted; below its target, with 10 s since the last raise and no cap, its bias rises by 5, up to 1,800, where CALPOLICY's limits allow it, and its
wear counts one; where it may not rise it has come to its end of life. A ring on a wrong slot's tone moves by the slots'
distance and is reported, at a third acquisition once its outcome is known (R381); a second heater fault retires the ring. -/
def Obligations.RingLoopsAndCombs : Prop :=
  (∀ (site : Site) (ring : Fin 2792) (s : State),
     (∀ (loop : Fin 11) (detune : Int), 1 ≤ s.ringState site ring → s.ringState site ring ≤ 3 →
       (s.ringCal site ring).updAt + 5000 ≤ s.vt →
       let x := (s.newRamp site ring).ringCal site ring
       let e := s.lockErr site ring detune
       let want := rampAt x.rampFrom x.rampTo x.rampAt (2000 * s.getF (Reg.CAL_RING_FF site ring) Fld.CAL_RING_FF_RAMP) s.vt
       let du := max (-4) (min 4 (want - x.u))
       ∃ t, exec (.lockLoopUpdate site ring loop detune) s = .next t ∧
         (s.ringState site ring ≠ 3 ∨ (-400000 ≤ e ∧ e ≤ 400000) → (t.ringCal site ring).u = x.u + du ∧
           t.ringState site ring = s.ringState site ring ∧
           (t.ringCode site ring : Int) = max 0 (min 65535 (s.ringCode site ring +
             (if s.ringState site ring = 3 then max (-2) (min 2 (Config.lockLoop (45 + loop) e x.err)) else 0) + du)) ∧
           { t with regs := s.regs, rcal := s.rcal } = s ∧ regsBut [Reg.CAL_RING_HEAT site ring] s t) ∧
         (s.ringState site ring = 3 → 400000 < e ∨ e < -400000 → 1 ≤ x.bad → (t.ringCal site ring).st = some 1)) ∧
     (∀ (was dc : Int) (at_ : Nat) (rest : List (Int × Int × Nat)), (s.ringCal site ring).marks = (was, dc, at_) :: rest →
       at_ + 2000 * s.getF (Reg.CAL_RING_FF site ring) Fld.CAL_RING_FF_RAMP ≤ s.vt →
       let gain := sint16 (s.getF (Reg.CAL_RING_FF site ring) Fld.CAL_RING_FF_GAIN)
       let step := s.ffStep site ring was dc
       ∃ t, exec (.ffGainAdapt site ring) s = .next t ∧ (t.ringCal site ring).marks = rest ∧ (t.ringCal site ring).gainAt = s.vt ∧
         (dc ≠ 0 → refPower (s.getF (Reg.CAL_RING_FF site ring) Fld.CAL_RING_FF_SRC) ≠ 0 →
           t.getF (Reg.CAL_RING_FF site ring) Fld.CAL_RING_FF_GAIN = (if calOk s.rs 0x30 gain (gain + step) then
             twos16 (gain + step) else s.getF (Reg.CAL_RING_FF site ring) Fld.CAL_RING_FF_GAIN)) ∧
         { t with regs := s.regs, rcal := s.rcal } = s ∧ regsBut [Reg.CAL_RING_FF site ring] s t) ∧
     (∀ (code : BitVec 16) (tone : List (Fin 36 × Int)) (temp : Int),
       s.ringState site ring = 1 ∨ s.ringState site ring = 2 →
       ∃ t, exec (.identityRead site ring code tone temp) s = .next t ∧
         (∀ slot, toneRead tone = some slot → slot.val = ringSlot ring →
           (code.toNat : Int) - s.ringExpect site ring temp ≤ 29491 →
           -29491 ≤ (code.toNat : Int) - s.ringExpect site ring temp → t.ringState site ring = 3 ∧
           t.ringCode site ring = code.toNat ∧ t.getF (Reg.CAL_RING_ID site ring) Fld.CAL_RING_ID_EXPECT = code.toNat ∧
           t.mem = s.mem) ∧
         (∀ slot, toneRead tone = some slot → slot.val ≠ ringSlot ring → (s.ringCal site ring).relocked = false →
           ((s.ringCal site ring).fails < 2 → logged t site 0x050A [ring, slot, 1]) ∧
           (2 ≤ (s.ringCal site ring).fails → (t.ringCal site ring).said = some (slot.val, 1)) ∧ (t.ringCal site ring).st = some 2 ∧
           (t.ringCal site ring).held = some slot.val ∧ (t.ringCal site ring).relocked = true ∧
           (t.ringCode site ring : Int) = max 0 (min 65535 (code.toNat + ((slot.val : Int) - ringSlot ring) * 1638)) ∧
           t.mem = s.mem)) ∧
     (ringThere site ring = true → s.ringRetired site ring = false →
       ∃ t, exec (.heaterFault site ring) s = .next t ∧
         (s.grnGet 8 site ring 0 % 2 = 0 → (t.ringCal site ring).hb = !(s.ringCal site ring).hb ∧
           t.ringCode site ring = s.ringCode site ring ∧ t.grnGet 8 site ring 0 = 1 ∧
           (s.ringBracket site ring = none → t.mem = s.mem)) ∧
         (s.grnGet 8 site ring 0 % 2 = 1 → t.ringRetired site ring = true))) ∧
  (∀ (site : Site) (comb : Fin 7) (low : Int) (away capped hot : Bool) (s : State), s.combLow site comb = some low →
     s.combState site comb = 0 ∨ s.combState site comb = 2 → (s.combAt site comb).judged + 1000000000 ≤ s.vt →
     let target : Int := if comb.val < 5 then -700 else -950
     let bias := s.getF (Reg.CAL_COMB_BIAS site comb) Fld.CAL_COMB_BIAS_BIAS
     ∃ t, exec (.biasUpdate site comb away capped hot) s = .next t ∧ t.mem = s.mem ∧
       t.getF (Reg.CAL_COMB_RX site comb) Fld.CAL_COMB_RX_MIN = twos16 low ∧ (t.combAt site comb).judged = s.vt ∧
       (s.combBracketed site comb = false → away = false ∨ comb.val < 5 → low < target → capped = false ∨ comb.val < 5 →
         (∀ r, (s.combAt site comb).raised = some r → r + 10000000000 ≤ s.vt) →
         (bias ≤ 1795 → hot = false → calOk s.rs 0x40 bias (bias + 5) = true → t.getF (Reg.CAL_COMB_BIAS site comb) Fld.CAL_COMB_BIAS_BIAS = bias + 5 ∧
           (t.combAt site comb).raised = some s.vt ∧
           t.wearGet 0 (8 * site + comb) = min 0xFFFFFFFF (s.wearGet 0 (8 * site + comb) + 1) ∧
           { t with regs := s.regs, combCal := s.combCal, wear := s.wear, mapLag := s.mapLag } = s ∧
           regsBut [Reg.CAL_COMB_BIAS site comb, Reg.CAL_COMB_RX site comb, Reg.GRN_STATUS] s t) ∧
         (bias ≤ 1795 → hot = false → calOk s.rs 0x40 bias (bias + 5) = false →
           t.getF (Reg.CAL_COMB_BIAS site comb) Fld.CAL_COMB_BIAS_BIAS = bias ∧ t.log = s.log) ∧
         (1795 < bias ∨ hot = true → t.getF (Reg.CAL_COMB_BIAS site comb) Fld.CAL_COMB_BIAS_BIAS = bias ∧
           t.combState site comb = 2 ∧ (s.combState site comb = 0 → logged t site 0x0508 [site, comb]))))

/-- R386, R387, R388: a bracket's results are kept where every change is within its limits, the merit is no worse and the
samples balance, else the old coefficients stay and the rejection counts; of a bracket at a link's far end the transmit ring
keeps the adapted MOD_OFFSET; a sensor bracket's offset is judged in the
same way once its 1 ms is over. Either way the bracket is over and its channel is back. -/
def Obligations.BracketsJudge : Prop :=
  (∀ (r : CalResult) (s : State),
    let judged := fun (t : State) (home rx : Nat) (good : Bool) => let a := Reg.CAL_RING_EQ home rx
      (good = true → ∀ c ∈ s.eqChanges home rx r, t.getF a c.2.1 = twosN c.2.2.1 c.2.2.2.2) ∧
      (good = false → t.reg a = s.reg a ∧ t.getF (Reg.CAL_REJECT_CNT home) Fld.CAL_REJECT_CNT_COUNT =
        min Fld.CAL_REJECT_CNT_COUNT.max (s.getF (Reg.CAL_REJECT_CNT home) Fld.CAL_REJECT_CNT_COUNT + 1))
    (∀ (x : Fin 68) (w : Fin 16) (b : Bracket),
      s.brackets.find? (fun b => b.wave && decide (b.tx = linkSite x) && decide (b.rx = (linkHome x).2) && decide (b.ch = w.val)) = some b →
      let rx := waveRing (linkNum (b.tx - 20) b.rx) 1 (b.ch + 1)
      ∃ t, exec (.bracketComplete (.wave x w) r) s = .next t ∧ b ∉ t.brackets ∧ t.mem = s.mem ∧
        t.getF (Reg.LNK_STATUS b.tx b.rx) Fld.LNK_STATUS_BRACKET = 0 ∧
        judged t b.tx rx (s.bracketGood b.tx rx none r)) ∧
    (∀ (x : Fin 68) (w : Fin 16) (kept : Bool), let n := waveRing x 0 (w + 1)
      exec (.bracketComplete (.far x w kept) r) s = .next (if kept = true ∧ s.linkState x = 2 then
        s.setF (Reg.CAL_RING_EQ (linkSite x) n) modOffsetFld (twosN 11 (s.modOffset (linkSite x) n + trialStep r.modOffset))
        else s)) ∧
    (∀ (tx rx : Site) (q : Fin 36) (b : Bracket), s.pairBracket tx rx = some b → b.ch = q.val →
      let w := (rx.val + 32 - tx.val) % 32
      let home := (2 * q.val + 1) * 32 + w
      let good := s.bracketGood rx home (some (tx.val, 2 * q.val * 32 + w)) r
      ∃ t, exec (.bracketComplete (.carrier tx rx q) r) s = .next t ∧ b ∉ t.brackets ∧ judged t rx home good ∧
        (good = true → t.getF (Reg.CAL_RING_EQ tx (2 * q.val * 32 + w)) modOffsetFld =
          twosN 11 (s.modOffset tx (2 * q.val * 32 + w) + trialStep r.modOffset)) ∧
        (t.planesOf tx rx ≠ [] → t.mem = s.mem ∧
          t.reg (Reg.FAB_TX_STRIPE tx rx) = BitVec.ofNat 64 (planeBits (t.planesOf tx rx))))) ∧
  (∀ (loc : Fin 44) (i : Fin 176) (offset : Int) (s : State) (e : Nat × Nat × Nat),
    s.sensOut.find? (fun e => decide (e.1 = loc.val) && decide (e.2.1 = i.val)) = some e → e.2.2 + 1000000 ≤ s.vt →
    let old := s.getF (sensorOfs loc i) Fld.CAL_SENSOR_OFS_OFFSET
    ∃ t, exec (.sensorBracket loc i offset) s = .next t ∧ e ∉ t.sensOut ∧ t.mem = s.mem ∧
      t.getF (sensorOfs loc i) Fld.CAL_SENSOR_OFS_OFFSET =
        (if calOk s.rs 0x50 (sint16 old) offset then twos16 offset else old) ∧
      t.getF (sensorReg loc i) Fld.THM_SENSOR_STALE = 0)

/-! ### Packets at their target (R201 to R226) -/

/-- R210, R212, R213, R458: a WRITE that passes its checks stores its bytes where the byte mask allows and no others, and
its LAST packet is acknowledged; a contact sheet goes to the MC's registers; a copy is dropped, one that meets a parity
failure stores nothing, and one that fails a check changes no memory and is reported and answered with the first status. A
WRITE_COMMIT is appended to the bridge's log and changes no memory, or fails with CAPACITY. An MCAST_WRITE is stored at
every place of its group on the site; a link engine sends it on to the group's other sites, or holds it while it has no
record for it (R274). What comes behind one that is held waits with it (R215). -/
def Obligations.PacketWrites : Prop :=
  (∀ (site : Site) (a : Arrival) (mets : Meets) (bad : Bool) (s : State), arrived s 0x01 site a →
    let p := a.pkt
    let o := p.addr.toNat
    let n := p.len.toNat
    let box := sheetWrite site 0x01 p.ctx.toNat o n
    ∃ t, exec (.writePacket site a mets bad) s = .next t ∧
      (s.behindHeld site a.hop p = true → t.mem = s.mem ∧
        (t.gw site).replHeld = (s.gw site).replHeld ++ [⟨p, a.hop, mets, bad, [], s.vt⟩]) ∧
      (s.behindHeld site a.hop p = false →
        (s.placeFails site p = none → box = false → (siteKind site = .stack → fillWindowOf o n = none) → isNew s site p →
          bad = false → memBut site o n s t ∧ t.cores = s.cores ∧ t.stackMem = s.stackMem ∧
          (unstuck s site p → p.last = true → writeAnswered s t site p []) ∧
          (mets = [] → t.grn = s.grn ∧ ∀ off, o ≤ off → off < o + n → t.byteAt site off =
            if p.mask = 0 ∨ p.mask.getLsbD (off - o) = true then p.payload.getD (off - o) 0 else s.byteAt site off)) ∧
        (s.placeFails site p = none → box = true → isNew s site p → bad = false → t.mem = s.mem ∧
          ∀ j : Fin 64, t.reg (if leNat ((p.payload.drop 4).take 6) % 2 = 0 then Reg.MC_SHEET0 ((o - sheetBoxBase) / 256) j
            else Reg.MC_SHEET1 ((o - sheetBoxBase) / 256) j) =
            BitVec.ofNat 64 (leNat ((p.payload.drop (4 * j)).take 4))) ∧
        (s.placeFails site p = none → bad = true → isNew s site p → t.mem = s.mem ∧ logged t site 0x304 p.args) ∧
        (∀ st, s.placeFails site p = some st → t.mem = s.mem ∧
          logged t site (0x300 + st) p.args ∧ (unstuck s site p → p.last = true → answered s t site p st [])) ∧
        (s.placeFails site p = none → p.last = true → (s.dedupe site p).2 = false → t.mem = s.mem))) ∧
  (∀ (site : Site) (a : Arrival) (bad : Bool) (s : State) (bell : Nat), arrived s 0x02 site a →
    s.placeFails site a.pkt = none → s.bellNamed site a.pkt.bell.toNat = some bell → isNew s site a.pkt →
    let e := s.fixNext site bell a.pkt.addr.toNat a.pkt.payload
    ∃ t, exec (.writeCommit site a bad) s = .next t ∧ t.mem = s.mem ∧
      (bad = false → fixUsed (s.bridgeAt site).fix + e.size ≤ (fixArea s.rs site).2 →
        (t.bridgeAt site).fix = (s.bridgeAt site).fix ++ [e] ∧ (unstuck s site a.pkt → answered s t site a.pkt 0 [])) ∧
      (bad = false → (fixArea s.rs site).2 < fixUsed (s.bridgeAt site).fix + e.size →
        (t.bridgeAt site).fix = (s.bridgeAt site).fix ∧ logged t site 0x308 a.pkt.args ∧
        (unstuck s site a.pkt → answered s t site a.pkt 8 [])) ∧
      (bad = true → (t.bridgeAt site).fix = (s.bridgeAt site).fix ∧ logged t site 0x304 a.pkt.args)) ∧
  (∀ (site : Site) (a : Arrival) (mets : Meets) (bad : Bool) (s : State), arrived s 0x03 site a →
    let p := a.pkt
    let n := p.len.toNat
    (hopNum a.hop < 32 → s.behindHeld site a.hop p = false → ∀ places, s.mcastFit site p = (places, none) → isNew s site p →
      ∃ t, exec (.mcastWrite site a mets bad) s = .next t ∧
        (∀ i off, off < 2 ^ 43 → (i ≠ site.val ∨ ∀ o ∈ places, ¬(o ≤ off ∧ off < o + n)) → t.byteAt i off = s.byteAt i off) ∧
        (bad = true → t.mem = s.mem ∧ logged t site 0x304 p.args) ∧
        (bad = false → (unstuck s site p → p.last = true → answered s t site p 0 []) ∧
          (mets = [] → (siteKind site = .stack → ∀ o ∈ places, fillWindowOf o n = none) →
            ∀ o ∈ places, ∀ off, o ≤ off → off < o + n → (∀ o' ∈ places, o' ≠ o → ¬(o' ≤ off ∧ off < o' + n)) →
              t.byteAt site off = p.payload.getD (off - o) 0))) ∧
    (32 ≤ hopNum a.hop → ∀ r, mcastRec s.rs (p.addr.toNat % 4096) = some r → s.replSeen p = none →
      ∃ t, exec (.mcastWrite site a mets bad) s = .next t ∧
        (s.behindHeld site a.hop p = false → (p.last = true → (s.gw site).replicas.length < 512 ∧ (s.dedupe site p).2 = true) →
          ∀ d ∈ mcastDests r, d.1 ≠ site.val → s.live d.1 = true → s.fencedAt site d.1 = false →
          sentOn t site (.base (siteOf d.1)) { p with dstSite := siteOf d.1 }.sealed) ∧
        (p.last = true → 512 ≤ (s.gw site).replicas.length → t.mem = s.mem ∧ (t.gw site).freed = (s.gw site).freed ∧
          (t.gw site).replHeld = (s.gw site).replHeld ++ [⟨p, a.hop, mets, bad, [], s.vt⟩] ∧
          t.getF (Reg.GW_MCAST_REPL site) Fld.GW_MCAST_REPL_STALLS = min Fld.GW_MCAST_REPL_STALLS.max
            (s.getF (Reg.GW_MCAST_REPL site) Fld.GW_MCAST_REPL_STALLS + 1))))

/-- R210, R215, R226, R273: READ_REQ, ATOMIC_ADD, ATOMIC_CAS, READ_RESP and ERROR_RESP complete. A READ_REQ returns its bytes and
changes none, or fails with HBM_UNCORRECTABLE on an uncorrectable page; an atomic stores its new value in one access and
returns the old one; a response ends the live tag it fits, that of a multicast request with the last of its copies
(R273), and one that fits none is dropped and counted. A read or an
atomic behind a held packet of its source and VC waits. -/
def Obligations.PacketReads : Prop :=
  (∀ (site : Site) (a : Arrival) (flaws : Flaws) (s : State), arrived s 0x08 site a →
    (s.behindHeld site a.hop a.pkt = false → s.placeFails site a.pkt = none →
      clean flaws a.pkt.addr.toNat a.pkt.len.toNat → ∃ t, exec (.readReq site a flaws) s = .next t ∧ t.mem = s.mem ∧
      (unstuck s site a.pkt → answered s t site a.pkt 0 (s.readMem site a.pkt.addr.toNat a.pkt.len.toNat))) ∧
    (s.behindHeld site a.hop a.pkt = true → ∃ t, exec (.readReq site a flaws) s = .next t ∧ t.mem = s.mem ∧
      (t.gw site).replHeld = (s.gw site).replHeld ++ [⟨a.pkt, a.hop, [], false, flaws, s.vt⟩]) ∧
    (s.behindHeld site a.hop a.pkt = false → s.placeFails site a.pkt = none → siteKind site = .bridge →
      a.pkt.addr.toNat < hbmSize →
      (∃ f ∈ flaws, a.pkt.addr.toNat ≤ f.1 ∧ f.1 < a.pkt.addr.toNat + a.pkt.len.toNat ∧ f.2 = .uncorrectable) →
      ∃ t, exec (.readReq site a flaws) s = .next t ∧ t.mem = s.mem ∧ logged t site 0x305 a.pkt.args ∧
        (unstuck s site a.pkt → answered s t site a.pkt 5 []))) ∧
  (∀ (site : Site) (a : Arrival) (flaws : Flaws) (s : State), arrived s 0x18 site a →
    s.behindHeld site a.hop a.pkt = false → s.placeFails site a.pkt = none → isNew s site a.pkt →
    clean flaws a.pkt.addr.toNat a.pkt.span →
    let o := a.pkt.addr.toNat
    let n := a.pkt.span
    let old := leNat (s.readMem site o n)
    ∃ t, exec (.atomicAdd site a flaws) s = .next t ∧ leNat (t.readMem site o n) = (old + a.pkt.payNum 0 n) % 2 ^ (8 * n) ∧
      memBut site o n s t ∧ (unstuck s site a.pkt → writeAnswered s t site a.pkt (leBytes 32 old))) ∧
  (∀ (site : Site) (a : Arrival) (flaws : Flaws) (s : State), arrived s 0x19 site a →
    s.behindHeld site a.hop a.pkt = false → s.placeFails site a.pkt = none → isNew s site a.pkt →
    clean flaws a.pkt.addr.toNat a.pkt.span →
    let o := a.pkt.addr.toNat
    let n := a.pkt.span
    let old := leNat (s.readMem site o n)
    ∃ t, exec (.atomicCas site a flaws) s = .next t ∧
      leNat (t.readMem site o n) = (if old = a.pkt.payNum 0 n then a.pkt.payNum n n else old) ∧
      memBut site o n s t ∧ (unstuck s site a.pkt → writeAnswered s t site a.pkt (leBytes 32 old))) ∧
  (∀ (site : Site) (a : Arrival) (mets : Meets) (s : State), s.replHolder a.pkt = none →
    let key := tagKey a.pkt.issuer a.pkt.tag.toNat
    let fits := fun (e : TagEntry) => e.gen = a.pkt.gen.toNat ∧ e.bell = a.pkt.bell.toNat ∧ e.epoch = a.pkt.epoch.toNat ∧
      e.ctx = a.pkt.ctx.toNat
    let kid := s.kidOf a.pkt.srcPkg.toNat a.pkt.srcSite.val
    let ends := fun (t : State) (e : TagEntry) => SMap.get 0 (s.gw site).gens key = e.gen →
      ∀ x ∈ (t.gw site).tags, x.1 = key → x.2.gen ≠ e.gen
    let drops := fun (t : State) => t.mem = s.mem ∧
      t.getF (Reg.GW_LATE_RESP_DROPPED site) Fld.GW_LATE_RESP_DROPPED_COUNT = min Fld.GW_LATE_RESP_DROPPED_COUNT.max
        (s.getF (Reg.GW_LATE_RESP_DROPPED site) Fld.GW_LATE_RESP_DROPPED_COUNT + 1)
    (arrived s 0x09 site a →
      (∀ e, (s.gw site).tags.find? (fun kv => decide (kv.1 = key)) = some (key, e) → fits e →
        ∃ t, exec (.readResp site a mets) s = .next t ∧ (e.kids = [] ∨ e.kids = [kid] → ends t e) ∧
          (kid ∈ e.kids → e.kids ≠ [kid] →
            ∃ x ∈ (t.gw site).tags, x.1 = key ∧ x.2 = { e with kids := e.kids.erase kid })) ∧
      (tagFree s site a.pkt.issuer a.pkt.tag.toNat → ∃ t, exec (.readResp site a mets) s = .next t ∧ drops t)) ∧
    (arrived s 0x30 site a →
      (∀ e, (s.gw site).tags.find? (fun kv => decide (kv.1 = key)) = some (key, e) → fits e →
        ∃ t, exec (.errorResp site a) s = .next t ∧ (e.kids = [] ∨ e.kids = [kid] → ends t e) ∧
          (kid ∈ e.kids → e.kids ≠ [kid] → ∃ x ∈ (t.gw site).tags, x.1 = key ∧ x.2 = { e with
            kids := e.kids.erase kid, first := if e.first ≠ 0 then e.first
              else if 1 ≤ a.pkt.status ∧ a.pkt.status ≤ 10 then a.pkt.status else 9 }) ∧
          (e.kids = [] → e.purpose = .dma → 96 ≤ a.pkt.issuer ∨ 8 ≤ site.val → noneWait s site a.pkt.issuer →
            logged t site (0x300 + if 1 ≤ a.pkt.status ∧ a.pkt.status ≤ 10 then a.pkt.status else 9)
              (issuerArgs s.pkg site a.pkt.issuer))) ∧
      (tagFree s site a.pkt.issuer a.pkt.tag.toNat → ∃ t, exec (.errorResp site a) s = .next t ∧ drops t)))

/-- R51, R266, R267, R269, R416: a contribution that passes the checks is applied to each of its accumulators once, no
other byte changes outside the lines it touches, and it is answered; one that fails changes no memory, is counted and
reported; one whose lines fail parity clears them and is reported. Completed lines leave in order, the first in the
packet's first place. -/
def Obligations.Reductions : Prop :=
  (∀ (op : RedOp) (site : Site) (a : Arrival) (flaws : Flaws) (s : State),
    let p := a.pkt
    let run := match op with
      | .add => Instr.reduceAdd site a flaws
      | .max => .reduceMax site a flaws
      | .min => .reduceMin site a flaws
    let code : BitVec 8 := match op with
      | .add => 0x10
      | .max => 0x11
      | .min => 0x12
    arrived s code site a → siteKind site = .bridge ∨ siteKind site = .engine → isNew s site p →
    ∃ t, exec run s = .next t ∧
      (∀ (r : Rec) (first : Nat) (q : Slice), s.sliceHere (p.addr.toNat % 4096) site = some (r, first, q) →
        s.contribFails site p = none →
        let base := 32 * q.base + p.addr.toNat / 2 ^ 12 % 2 ^ 19
        let n := contribCount p
        memBut site (accOffset site (32 * (base / 32))) (1280 * (linesOf base n).length) s t ∧
        (s.badLines site p flaws = [] → (unstuck s site p → answered s t site p 0 []) ∧
          ∀ e, e < n → (∃ i, i < 32 ∧ (s.accum site (32 * ((base + e) / 32) + i)).count + 1 < r.u32 16) →
            t.accum site (base + e) =
              Accum.ofBytes ((s.accum site (base + e)).apply (redOpOf (r.u8 11)) (contribution p e)).bytes) ∧
        (s.badLines site p flaws ≠ [] → logged t site 0x304 p.args ∧
          ∀ l ∈ s.badLines site p flaws, ∀ i, i < 1280 → t.byteAt site (accOffset site (32 * l) + i) = 0)) ∧
      (∀ st, s.contribFails site p = some st → t.mem = s.mem ∧ logged t site (0x300 + st) p.args ∧
        t.getF (Reg.GW_RED_REFUSED site) Fld.GW_RED_REFUSED_COUNT =
          min Fld.GW_RED_REFUSED_COUNT.max (s.getF (Reg.GW_RED_REFUSED site) Fld.GW_RED_REFUSED_COUNT + 1))) ∧
  (∀ (site : Site) (group : Fin 4096) (count : Fin 33) (mets : Meets) (s : State) (r : Rec) (first : Nat) (q : Slice)
    (kv : Nat × SliceRun) (o : LineOut) (rest : List LineOut), s.sliceHere group site = some (r, first, q) →
    s.runs.find? (fun kv => decide (kv.2.site = site.val) && decide (kv.2.group = group.val) && !kv.2.queue.isEmpty) =
      some kv → kv.2.queue = o :: rest → count.val ≠ 0 →
    ∃ t m, exec (.lineOutput site group count mets) s = .next t ∧ 1 ≤ m ∧ m ≤ count.val ∧ m ≤ 32 ∧
      t.getF (Reg.GW_RED_OUT site) Fld.GW_RED_OUT_COUNT =
        min Fld.GW_RED_OUT_COUNT.max (s.getF (Reg.GW_RED_OUT site) Fld.GW_RED_OUT_COUNT + 32 * m) ∧
      let g := q.out + o.line * lineBytes (r.u8 14)
      (hasTag s site 0 → q.mcast = false → gPkg g = s.pkg → gSite g ≠ site.val →
        s.localFail site 0 s.pkg (gSite g) = none →
        ∃ p, sentOn t site (.base (siteOf (gSite g))) p ∧ p.op = 0x01 ∧ p.addr.toNat = gOff g ∧
          p.payload = (takeLines kv.2.queue o.line m).flatMap LineOut.bytes))

/-- R109, R111, R210: a SIGNAL of the executing bell raises its token by AMOUNT, holding at 2^32 - 1, and one of
another bell is counted and raises none; both are answered. R225, R227: a tag live for twice the period fails with
TIMEOUT and is held back for twice the period, then free: a packet that waited for a tag goes under it. R217, R218: a CREDIT frees what it names on each VC of its
hop, and a packet that waited for it goes; 200 ns after the first unit was freed a CREDIT with all of them is sent; a
packet that has waited more than 1 µs is reported once. -/
def Obligations.SignalsTagsCredits : Prop :=
  ((∀ (site : Site) (a : Arrival) (s : State), arrived s 0x20 site a → siteKind site = .stack →
     (a.pkt.ctx ≠ 0 ∧ a.pkt.ctx.toNat = (s.bellAt site).resident) ∨ s.fromMc a.pkt = true → isNew s site a.pkt →
     let c := a.pkt.addr.toNat % 128
     ∃ t, exec (.signalPacket site a) s = .next t ∧ t.mem = s.mem ∧ t.cores = s.cores ∧
       (unstuck s site a.pkt → answered s t site a.pkt 0 []) ∧
       ∀ r, tokenReg site c (a.pkt.payNum 0 2) = some r →
         (a.pkt.bell.toNat = (s.bellAt site).bell % 256 → t.getF r Fld.CORE_TOKEN_VALUE =
           min 0xFFFFFFFF (s.getF r Fld.CORE_TOKEN_VALUE + a.pkt.payNum 4 4)) ∧
         (a.pkt.bell.toNat ≠ (s.bellAt site).bell % 256 → t.reg r = s.reg r ∧
           t.getF (Reg.CORE_STALE_INC site c) Fld.CORE_STALE_INC_COUNT = min Fld.CORE_STALE_INC_COUNT.max
             (s.getF (Reg.CORE_STALE_INC site c) Fld.CORE_STALE_INC_COUNT + 1))) ∧
   (∀ (site : Site) (issuer : Fin 128) (tag : Fin 4096) (s : State),
     (∀ kv, (s.gw site).tags.find? (fun kv => decide (kv.1 = tagKey issuer tag)) = some kv →
       (kv.2.issued + 2 * periodNs s.rs ≤ s.vt → ∃ t, exec (.tagTimeout site issuer tag) s = .next t ∧
         tagFree t site issuer tag ∧ SMap.get 0 (t.gw site).quar (tagKey issuer tag) = s.vt + 2 * periodNs s.rs ∧
         (kv.2.purpose = .dma → 96 ≤ issuer.val ∨ 8 ≤ site.val → noneWait s site issuer →
           logged t site 0x306 (issuerArgs s.pkg site issuer))) ∧
       (s.vt < kv.2.issued + 2 * periodNs s.rs → exec (.tagTimeout site issuer tag) s = .next s)) ∧
     (∀ kv, (s.gw site).quar.find? (fun kv => decide (kv.1 = tagKey issuer tag)) = some kv → kv.2 ≤ s.vt →
       ∃ t, exec (.quarantineEnd site issuer tag) s = .next t ∧
         (∀ e ∈ (t.gw site).quar, e.1 ≠ tagKey issuer tag) ∧ (96 ≤ issuer.val ∨ 8 ≤ site.val →
           (noneWait s site issuer → { t with gws := s.gws } = s) ∧
           ∀ w, (s.gw site).tagWait.filter (fun w => decide (w.issuer = issuer.val)) = [w] →
             s.waitFails site w = none → s.guardKeeps site issuer w.pkt = false → (∀ d ∈ s.drains, d.1 ≠ site.val) →
             (s.gw site).freeTag issuer = none → tagFree s site issuer tag → noneWait t site issuer ∧
             ∃ e ∈ (t.gw site).tags, e.1 = tagKey issuer tag ∧ e.2.purpose = w.why)))) ∧
  ((∀ (site : Site) (a : Arrival) (s : State), arrived s 0x38 site a →
     let used := fun v => SMap.get 0 (s.gw site).creditUsed (vcKey a.hop v) - a.pkt.payNum (2 * v) 2
     ∃ t, exec (.credit site a) s = .next t ∧ t.mem = s.mem ∧ t.cores = s.cores ∧
       ((∀ w ∈ (s.gw site).waiting, w.hop ≠ a.hop) →
         ∀ v, v < 7 → SMap.get 0 (t.gw site).creditUsed (vcKey a.hop v) = used v) ∧
       (∀ w, (s.gw site).waiting.filter (fun w => decide (w.hop = a.hop)) = [w] → w.pkt.vc.toNat < 7 →
         w.pkt.op ≠ 0x38 → used w.pkt.vc.toNat + w.pkt.units ≤ vcCredits a.hop w.pkt.vc.toNat →
         (s.stream site (s.txKey site a.hop w.pkt.vc.toNat)).unacked + w.pkt.bytes ≤ hopWindow a.hop →
         (∃ via, Output.packet site a.hop w.pkt via ∈ t.out) ∧ ∀ x ∈ (t.gw site).waiting, x.hop ≠ a.hop)) ∧
   (∀ (site : Site) (hop : Hop) (s : State) (kv : Nat × Nat),
     (s.gw site).freedAt.find? (fun kv => decide (kv.1 = hopNum hop)) = some kv → kv.2 + 200 ≤ s.vt → s.deaf site = false →
     ∃ t p, exec (.creditReturnTimer site hop) s = .next t ∧ sentOn t site hop p ∧ p.op = 0x38 ∧
       (∀ v, v < 7 → p.payNum (2 * v) 2 = SMap.get 0 (s.gw site).freed (vcKey hop v) % 2 ^ 16 ∧
         SMap.get 0 (t.gw site).freed (vcKey hop v) = 0) ∧
       { t with gws := s.gws, out := s.out } = s) ∧
   (∀ (site : Site) (hop : Hop) (vc : Fin 3) (s : State), (hopNum hop, vc.val) ∉ (s.gw site).stallSaid →
     (∃ w, s.hopHead site hop vc false = some w ∧ w.since + 1000 < s.vt ∧
       vcCredits hop vc < SMap.get 0 (s.gw site).creditUsed (vcKey hop vc) + w.pkt.units) →
     ∃ t, exec (.creditStall site hop vc) s = .next t ∧ logged t site 0x0107 [1, hopNum hop, vc] ∧ t.mem = s.mem ∧
       (hopNum hop, vc.val) ∈ (t.gw site).stallSaid ∧
       t.getF (Reg.GW_CREDIT_STALL site) Fld.GW_CREDIT_STALL_COUNT = min Fld.GW_CREDIT_STALL_COUNT.max
         (s.getF (Reg.GW_CREDIT_STALL site) Fld.GW_CREDIT_STALL_COUNT + 1)))

/-- R111: an increment whose BELL is not the executing bell's is not applied, whether a SIGNAL packet, an ANNOUNCE
frame or the LAST packet in an arrival window brings it: no token changes, it is counted in CORE_STALE_INC, and
nothing is reported. -/
def Obligations.StaleIncrements : Prop :=
  (∀ (site : Site) (a : Arrival) (s : State), arrived s 0x20 site a → siteKind site = .stack →
    (a.pkt.ctx ≠ 0 ∧ a.pkt.ctx.toNat = (s.bellAt site).resident) ∨ s.fromMc a.pkt = true → isNew s site a.pkt →
    a.pkt.bell.toNat ≠ (s.bellAt site).bell % 256 →
    ∃ t, exec (.signalPacket site a) s = .next t ∧ t.log = s.log ∧ tokensSame s t ∧
      t.getF (Reg.CORE_STALE_INC site (a.pkt.addr.toNat % 128)) Fld.CORE_STALE_INC_COUNT = min Fld.CORE_STALE_INC_COUNT.max
        (s.getF (Reg.CORE_STALE_INC site (a.pkt.addr.toNat % 128)) Fld.CORE_STALE_INC_COUNT + 1)) ∧
  (∀ (k : Stack) (site : Site) (bell : BitVec 48) (arg : BitVec 64) (rx : Rx) (s : State), site.val = k.val →
    heard s site rx → arg.getLsbD (56 + k) = true →
    ((s.bellAt site).executing = true → (s.bellAt site).bell ≠ bell.toNat) →
    ∃ t, exec (.announce site bell arg rx) s = .next t ∧ t.log = s.log ∧ tokensSame s t ∧
      ∀ n : Fin 12, t.getF (Reg.CORE_STALE_INC k (8 * n)) Fld.CORE_STALE_INC_COUNT = min Fld.CORE_STALE_INC_COUNT.max
        (s.getF (Reg.CORE_STALE_INC k (8 * n)) Fld.CORE_STALE_INC_COUNT + bit (arg.getLsbD (44 + n)))) ∧
  (∀ (k : Stack) (p : Packet) (a n : Nat) (s : State), p.last = true → p.bell.toNat ≠ (s.bellAt k).bell % 256 →
    (s.landed k p a n).log = s.log ∧ tokensSame s (s.landed k p a n) ∧
    ∀ c prog, c ∈ s.enabledCores k → s.coreProg k c = some prog →
      (s.landed k p a n).getF (Reg.CORE_STALE_INC k c) Fld.CORE_STALE_INC_COUNT = min Fld.CORE_STALE_INC_COUNT.max
        (s.getF (Reg.CORE_STALE_INC k c) Fld.CORE_STALE_INC_COUNT +
          ((progWindows prog).filter fun w => within a n w.1 w.2.1).length))

/-- R219 to R224, R252, R274: a control codeword's ACK releases what it covers, its NAK resends the rest, its RESEND
ends the discarding, and the receiver answers with its own; 500 ns without progress resend; after eight resends the pair
resets with the next version and the lost transactions fail with PATH_RESET; packets older than 10 µs are dropped. Dedupe
entries end after 4 µs, and a replicated packet's record after twice the period, with TIMEOUT. -/
def Obligations.HopRetry : Prop :=
  (∀ (site peer : Site) (lane : Fin 36) (word : BitVec 2570) (codes : List Codeword) (w : PairWord) (s : State),
    site ≠ peer → s.deaf site = false → s.fencedAt site peer = false → pairWordOf word.toNat = some w →
    let key := streamKey (.base peer) (if 34 ≤ lane.val then 5 else 0)
    let st := s.stream site key
    let rest := ackFlight w.ack st.flight
    ∃ t, exec (.controlCodeword site peer lane word codes) s = .next t ∧
      t.getF (Reg.FAB_RX_PAIR site peer) Fld.FAB_RX_PAIR_VERSION = w.version ∧
      ((∀ x ∈ (s.gw site).waiting, x.hop ≠ .base peer) →
        (t.stream site key).flight.map (·.pkt) = rest.map (·.pkt)) ∧
      { t with regs := s.regs, gws := s.gws, out := s.out } = s ∧
      regsBut [Reg.FAB_RX_PAIR site peer, Reg.GW_RETRY_CNT site, Reg.GW_FEC_CORR site, Reg.GW_FEC_UNCORR site] s t ∧
      (∃ x, Output.code site (.base peer) lane x ∈ t.out) ∧
      (w.nak = false → t.reg (Reg.GW_RETRY_CNT site) = s.reg (Reg.GW_RETRY_CNT site)) ∧
      (w.nak = true → st.resends < 8 → ∀ f ∈ rest, ∃ via, Output.packet site (.base peer) f.pkt via ∈ t.out) ∧
      (∀ pos, w.resend = some pos → (st.expect + streamSpan - 32 * pos) % streamSpan < streamSpan / 2 →
        (t.stream site key).discard = false ∧
        (t.stream site key).skip = (st.expect + streamSpan - 32 * pos) % streamSpan)) ∧
  (∀ (site : Site) (hop : Hop) (ctrl : Bool) (s : State),
    let st := s.stream site (streamKey hop (if ctrl then 5 else 0))
    st.flight ≠ [] → max st.advanced st.tried + 500 ≤ s.vt → st.resends < 8 → s.deaf site = false →
    ∃ t, exec (.hopRetryTimeout site hop ctrl) s = .next t ∧
      (∀ f ∈ st.flight, ∃ via, Output.packet site hop f.pkt via ∈ t.out) ∧
      (∃ lane x, Output.code site hop lane x ∈ t.out) ∧
      (t.stream site (streamKey hop (if ctrl then 5 else 0))).resends = st.resends + 1 ∧
      { t with regs := s.regs, gws := s.gws, out := s.out } = s) ∧
  (∀ (site peer : Site) (ctrl : Bool) (s : State),
    let st := s.stream site (streamKey (.base peer) (if ctrl then 5 else 0))
    let back := streamKey (.base site) (if ctrl then 5 else 0)
    let v := (s.getF (Reg.FAB_TX_PAIR site peer) Fld.FAB_TX_PAIR_VERSION + 1) % 16
    st.flight ≠ [] → 8 ≤ st.resends → max st.advanced st.tried + 500 ≤ s.vt →
    ∃ t, exec (.pairReset site peer ctrl) s = .next t ∧ logged t site 0x0504 [site, peer] ∧
      t.getF (Reg.FAB_TX_PAIR site peer) Fld.FAB_TX_PAIR_VERSION = v ∧
      t.getF (Reg.FAB_RX_PAIR peer site) Fld.FAB_RX_PAIR_VERSION = v ∧
      (t.stream peer back).expect = 0 ∧ (t.stream peer back).discard = false ∧
      (∀ f ∈ st.flight, isResponse f.pkt.op.toNat = false → tagged f.pkt = true → f.pkt.srcPkg.toNat = s.pkg →
        f.pkt.srcSite = site →
        (∃ kv ∈ (s.gw site).tags, kv.1 = tagKey f.pkt.issuer f.pkt.tag.toNat ∧ kv.2.gen = f.pkt.gen.toNat) →
        tagFree t site f.pkt.issuer f.pkt.tag.toNat)) ∧
  (∀ (site : Site) (hop : Hop) (s : State), ∃ t, exec (.packetAged site hop) s = .next t ∧
    (∀ w ∈ (t.gw site).waiting, w.hop = hop → s.vt ≤ w.since + 10000) ∧
    (∀ w ∈ (t.gw site).replHeld, w.hop = hop → s.vt ≤ w.since + 10000) ∧
    (∀ b f, b < 2 → f ∈ (t.stream site (2 * hopNum hop + b)).flight → s.vt ≤ f.since + 10000) ∧
    ((s.gw site).replHeld = [] → (∀ c, (s.core site c).heldFills = []) →
      { t with regs := s.regs, gws := s.gws, out := s.out } = s ∧ regsBut [Reg.GW_AGED_DROP site] s t)) ∧
  (∀ (site : Site) (s : State), (∃ t, exec (.dedupeExpiry site) s = .next t ∧
      (t.gw site).dedupe = (s.gw site).dedupe.filter (fun e => decide (s.vt < e.time + 4000)) ∧
      (∀ u, (t.gw site).ovfUntil = some u → s.vt < u) ∧ { t with gws := s.gws } = s) ∧
    ∀ r, (s.gw site).replicas.find? (fun r => decide (r.since + 2 * periodNs s.rs ≤ s.vt)) = some r →
      ∃ t, exec (.replicationTimeout site) s = .next t ∧
        ((s.gw site).replHeld = [] → logged t site 0x306 r.pkt.args ∧ t.mem = s.mem ∧
          (t.gw site).replicas.length + 1 = (s.gw site).replicas.length) ∧
        ((s.gw site).replHeld ≠ [] → (s.gw site).replicas.length = 512 →
          (t.gw site).replHeld.length < (s.gw site).replHeld.length))

/-! ### External links (R232 to R260, R348) -/

/-- R237, R243, R244, R254, R259, R368: a link whose handshake fits its record enters its role, a drawn or ordinary link
serving and a granary link idle; one that does not fit is held out with the reason and reported; a failed step counts,
and the fourth in a row fails the link. A codeword's OUT and ACK are taken, and a package that waits for time loads
the peer's with the link's delay, of several links at one moment that of the lowest. A waiting RESTORE, or one in a hold, clears redirects whose link serves. -/
def Obligations.LinksTrain : Prop :=
  (∀ (link : Fin 68) (s : State), s.linkState link ∈ [1, 3, 4] →
    (∀ h : Handshake, s.miswired link h = 0 → ∃ t, exec (.linkTraining link (some h)) s = .next t ∧
      t.linkState link = (if 64 ≤ link.val ∧ s.linkDrawn link = false then 5 else 2) ∧
      t.getF (linkStat link) Fld.LNK_STATUS_HELD = 0 ∧ t.getF (linkStat link) Fld.LNK_STATUS_FIBRE = h.fibre.toNat ∧
      t.getF (Reg.LNK_PEER (linkSite link) (linkHome link).2) Fld.LNK_PEER_PKG = h.pkg.toNat ∧
      t.getF (Reg.LNK_PEER (linkSite link) (linkHome link).2) Fld.LNK_PEER_LINK = h.link.toNat ∧
      (t.linkAt link).tries = 0 ∧ (t.linkAt link).back = h.path.toNat ∧
      { t with regs := s.regs, gws := s.gws, links := s.links, out := s.out } = s) ∧
    (∀ h : Handshake, s.miswired link h ≠ 0 → ∃ t, exec (.linkTraining link (some h)) s = .next t ∧
      t.linkState link = 6 ∧ t.getF (linkStat link) Fld.LNK_STATUS_HELD = s.miswired link h ∧ t.mem = s.mem ∧
      logged t (linkSite link) 0x0603 [link, s.miswired link h]) ∧
    ((s.linkAt link).tries < 3 → ∃ t, exec (.linkTraining link none) s = .next t ∧
      (t.linkAt link).tries = (s.linkAt link).tries + 1 ∧ { t with links := s.links } = s) ∧
    (3 ≤ (s.linkAt link).tries → ∃ t, exec (.linkTraining link none) s = .next t ∧ t.linkState link = 4 ∧ t.mem = s.mem)) ∧
  (∀ (link : Fin 68) (slot : Fin 18) (level : Int) (word : BitVec 5140) (codes : List Codeword) (w : LinkWord) (s : State),
    s.linkState link ≠ 0 → s.deaf (linkSite link) = false → linkWordOf word.toNat = some w →
    let key := streamKey (linkHop link) (if slot.val = 0 then 5 else 0)
    let st := s.stream (linkSite link) key
    let rest := ackFlight w.ack st.flight
    ∃ t, exec (.linkControlCodeword link slot level word codes) s = .next t ∧ (t.linkAt link).peerOut = w.out ∧
      (t.linkAt link).rxVersion = w.version ∧ SMap.get 0 (t.linkAt link).power w.slot = w.rxPower ∧
      ((∀ x ∈ (s.gw (linkSite link)).waiting, x.hop ≠ linkHop link) →
        (t.stream (linkSite link) key).flight.map (·.pkt) = rest.map (·.pkt)) ∧
      (let loads := s.linkState link = 2 ∧ (s.vc.waits = true ∨ ∃ y, s.vc.loaded = some (y, s.vt) ∧ link.val < y)
       (loads → t.vt = (w.stamp + (s.linkAt link).delay) % 2 ^ 64 ∧ t.vc.waits = false) ∧
       (¬loads → t.vt = s.vt ∧ t.vtFrac = s.vtFrac ∧ t.vc = s.vc)) ∧
      (w.nak = true → st.resends < 8 →
        ∀ f ∈ rest, ∃ via, Output.packet (linkSite link) (linkHop link) f.pkt via ∈ t.out) ∧
      (∃ x, Output.code (linkSite link) (linkHop link) slot x ∈ t.out) ∧
      { t with regs := s.regs, gws := s.gws, links := s.links, out := s.out, vt := s.vt, vtFrac := s.vtFrac, vc := s.vc } = s) ∧
  (∀ (e : Engine) (s : State),
    (s.holding (engineSite e) = true → ∃ t, exec (.restoreLinks e) s = .next t ∧
      { t with regs := s.regs, links := s.links } = s ∧
      ∀ x : Fin 68, linkSite x = engineSite e → s.linkState x = 2 → t.redirected x = false) ∧
    (s.holding (engineSite e) = false → ∃ t, exec (.restoreLinks e) s = .next t ∧
      engineSite e ∈ t.restores ∧ { t with restores := s.restores } = s))

/-- R250, R251, R255, R257 to R259, R348: a serving link that is lost goes out, its slots are carried by their standby
and the redirect is reported; one that stays out 200 µs without training is failed in the link map; a revertive link
that has served cleanly for 100 ms takes its slots back; a failed wavelength is served by λ17 while that is free, else
leaves the stripe, and the fifth fails the link; LNK_RESET, by a requester that may, sends the links of the mask to
training. -/
def Obligations.LinksRedirect : Prop :=
  (∀ (link : Fin 68) (lost : Bool) (s : State), s.linkState link = 2 →
    lost = true ∨ (s.linkAt link).peerOut = true ∨ (∃ c : Fin 2,
      let st := s.stream (linkSite link) (2 * hopNum (linkHop link) + c)
      st.flight ≠ [] ∧ (st.advanced + 1000 + 10 * linkFibre s.rs link ≤ s.vt ∨ 8 ≤ st.resends)) →
    ∃ t, exec (.linkRedirect link lost) s = .next t ∧
    t.linkState link = 3 ∧ t.mem = s.mem ∧ (t.linkAt link).sendsOut = true ∧
    (∃ x, Output.code (linkSite link) (linkHop link) 0 x ∈ t.out) ∧
    (s.slotsOf link ≠ [] → s.redirected link = false → t.redirected link = true ∧
      (s.log.length ≤ 7000 → logged t (linkSite link) 0x0601 [link, (s.slotsOf link).length]))) ∧
  (∀ (link : Fin 68) (s : State) (since : Nat), s.linkState link = 3 → (s.linkAt link).outAt = some since →
    (s.linkAt link).parked = false →
    (since + 200000 ≤ s.vt → ∃ t, exec (.linkFailed link) s = .next t ∧ t.linkState link = 4 ∧
      t.grnGet 9 0xFFFF link 0 % 2 = 1 ∧ t.mem = s.mem) ∧
    (s.vt < since + 200000 → exec (.linkFailed link) s = .next s)) ∧
  (∀ (link : Fin 68) (s : State), s.revertive link = true → s.redirected link = true → s.linkState link = 2 →
    (s.linkAt link).servedFrom + 100000000 ≤ s.vt → ∃ t, exec (.revertiveReturn link) s = .next t ∧
      t.redirected link = false ∧ t.linkState link = 2 ∧ { t with regs := s.regs, gws := s.gws, links := s.links, out := s.out } = s) ∧
  (∀ (link : Fin 68) (w : Fin 17) (s : State), s.linkState link ≠ 0 →
    (∃ d ∈ (s.linkAt link).dark, d.1 = w.val ∧ d.2 + 200000 ≤ s.vt) ∨
      (∃ e ∈ (s.linkAt link).low, e.1 = w.val + 1 ∧ e.2 + 1000000 ≤ s.vt) ∨
      (∃ dir : Fin 2, s.grnGet 8 (linkSite link) (waveRing link dir (w.val + 1)) 0 / 2 = 1) →
    let i := linkSite link
    let free := !(s.spareWave link) && !(s.spareGone link) && (s.linkAt link).dark.all (fun d => decide (d.1 ≠ 16))
    ∃ t, exec (.wavelengthFailed link w) s = .next t ∧ t.mem = s.mem ∧
      (t.linkState link ≠ 4 → t.getF (linkStat link) Fld.LNK_STATUS_WAVES =
        if w.val < 16 ∧ s.grnHas 10 i (32 * link + w) = true then s.getF (linkStat link) Fld.LNK_STATUS_WAVES
        else ((List.range 16).filterMap fun v => t.waveSlot link v).length) ∧
      (w.val < 16 → s.grnHas 10 i (32 * link + w) = false →
        (free = true → t.grnGet 10 i (32 * link + w) 0 = 3 ∧ t.getF (linkStat link) Fld.LNK_STATUS_SPARE_WAVE = 1 ∧
          t.linkState link = s.linkState link) ∧
        (free = false → t.grnGet 10 i (32 * link + w) 0 = 1 ∧ t.wavesLost link = s.wavesLost link + 1 ∧
          (4 ≤ s.wavesLost link → t.linkState link = 4) ∧
          (s.wavesLost link < 4 → t.linkState link = s.linkState link))) ∧
      (w.val = 16 → ∀ v, (List.range 16).find? (fun v => decide (s.grnGet 10 i (32 * link + v) 0 = 3)) = some v →
        t.grnGet 10 i (32 * link + v) 0 = 1)) ∧
  (∀ (r : Requester) (e : Engine) (mask : BitVec 10) (s : State),
    (s.trusted r = false ∨ s.engineInReset (engineSite e) = true → exec (.lnkReset r e mask) s = .next s) ∧
    (s.trusted r = true → s.engineInReset (engineSite e) = false → ∃ t, exec (.lnkReset r e mask) s = .next t ∧ t.mem = s.mem ∧
      ∀ l : LocalLink, mask.getLsbD l = true → l.val < 8 ∨ e = 0 ∨ e = 4 → s.linkState (linkNum e l) ≠ 0 →
        t.linkState (linkNum e l) = 1))

/-! ### Host cores, rings and the host port (R279 to R303) -/

/-- R281 to R285: an access of a running host core to no target is an access fault. A load, store or AMO of a cached target
whose lines its die holds is served by them and reaches no memory; one whose lines the die does not hold fetches them. cbo.flush
writes a dirty line back and gives it up, cbo.inval gives it up. An uncached access to the own site reads, writes or updates
exactly its bytes at once; one to another site that class 2 admits leaves as one packet, a line of a cached target or a granule,
whose answer completes it. A register or dirty line that fails parity ends the access with mcause 24. A host core that is lost
stops, is reported, and is retired at the next boundary. -/
def Obligations.HostAccesses : Prop :=
  (∀ (h : Host64) (pa : BitVec 56) (s : State), s.hostRuns h = true →
    (s.hostTarget h pa = .none →
      (∀ size flaws, exec (.hostLoad h pa size .good flaws) s = .next (s.emit (.hostStop h 5))) ∧
      (∀ (bs : List Byte) what mets, exec (.hostStore h pa bs what ⟨.good, mets⟩) s = .next (s.emit (.hostStop h 7))) ∧
      (∀ amo mets flaws, exec (.hostAmo h pa amo ⟨.good, mets⟩ flaws) s = .next (s.emit (.hostStop h 7)))) ∧
    (∀ size mets flaws amo, ∃ t, exec (.hostLoad h pa size .dirty flaws) s = .next t ∧
      exec (.hostAmo h pa amo ⟨.dirty, mets⟩ flaws) s = .next t ∧ t.mem = s.mem ∧ Output.hostStop h 24 ∈ t.out ∧
      (s.log.length ≤ 8000 → logged t (h / 8) 0x0205 [h % 8]))) ∧
  (∀ (h : Host64) (pa : BitVec 56) (s : State) (g : Nat), s.hostRuns h = true → s.hostCtx h ≠ 0 →
    s.hostTarget h pa = .mem g → s.hostCached h g = true →
    let k := h.val / 8
    (∀ size flaws, s.linesHeld k g (2 ^ size.val) = true →
      exec (.hostLoad h pa size .good flaws) s = .next (s.emit (.hostValue h (s.lineBytes k g (2 ^ size.val))))) ∧
    (∀ (bs : List Byte) flaws mets, bs.length ∈ [1, 2, 4, 8] → s.linesHeld k g bs.length = true →
      ∃ t, exec (.hostStore h pa bs (.store flaws) ⟨.good, mets⟩) s = .next t ∧
        { t with hostLines := s.hostLines, hostResv := s.hostResv } = s ∧ t.lineBytes k g bs.length = bs ∧
        ∀ b, b ∉ unitBases 64 g bs.length → b < 2 ^ 64 → t.hostLine k b = s.hostLine k b) ∧
    (∀ (amo : HostAmo) flaws mets v, g % amoWidth amo = 0 → s.linesHeld k g (amoWidth amo) = true →
      let old := s.lineBytes k g (amoWidth amo)
      amoStores amo (leNat old) = some v →
      ∃ t, exec (.hostAmo h pa amo ⟨.good, mets⟩ flaws) s = .next t ∧ t.out = .hostValue h old :: s.out ∧ t.mem = s.mem ∧
        t.lineBytes k g (amoWidth amo) = leBytes (amoWidth amo) v) ∧
    (∀ w v flaws mets, let n := if w then 4 else 8
      g % n = 0 → s.linesHeld k g n = true → SMap.get (0, 0) s.hostResv h ≠ (g, n) →
      ∃ t, exec (.hostAmo h pa (.sc w v) ⟨.good, mets⟩ flaws) s = .next t ∧ t.out = .hostValue h [1] :: s.out ∧
        t.hostLines = s.hostLines ∧ t.mem = s.mem) ∧
    (∀ size flaws, s.hostOwn h g = true → s.linesHeld k g (2 ^ size.val) = false → g % 64 + 2 ^ size.val ≤ 64 →
      s.hostLine k (g - g % 64) = none → s.hostOwnFails h (g - g % 64) 64 true false = none →
      clean flaws (gOff (g - g % 64)) 64 →
      ∃ t, exec (.hostLoad h pa size .good flaws) s = .next t ∧ t.mem = s.mem ∧
        t.hostLine k (g - g % 64) = some ⟨s.readMem k (gOff (g - g % 64)) 64, false⟩ ∧
        t.out = .hostValue h (((s.readMem k (gOff (g - g % 64)) 64).drop (g % 64)).take (2 ^ size.val)) :: s.out) ∧
    (∀ mets, ∃ t, exec (.hostStore h pa [] .inval ⟨.good, mets⟩) s = .next t ∧ t.hostLine k (g - g % 64) = none ∧
      { t with hostLines := s.hostLines } = s) ∧
    (∀ l : HostLine, l.dirty = true → l.bytes.length = 64 → s.hostLine k (g - g % 64) = some l → s.hostOwn h g = true →
      s.hostOwn h (g - g % 64) = true → s.hostOwnFails h (g - g % 64) 64 false true = none →
      fillWindowOf (gOff (g - g % 64)) 64 = none →
      ∃ t, exec (.hostStore h pa [] .flush ⟨.good, []⟩) s = .next t ∧ t.hostLine k (g - g % 64) = none ∧
        t.readMem k (gOff (g - g % 64)) 64 = l.bytes ∧ memBut k (gOff (g - g % 64)) 64 s t)) ∧
  (∀ (h : Host64) (pa : BitVec 56) (parity : HostParity) (s : State) (g : Nat), s.hostRuns h = true → parity ≠ .dirty →
    s.hostTarget h pa = .mem g → s.hostOwn h g = true → s.hostCached h g = false →
    (∀ size flaws, s.hostOwnFails h g (2 ^ size.val) true false = none → clean flaws (gOff g) (2 ^ size.val) →
      ∃ t, exec (.hostLoad h pa size parity flaws) s = .next t ∧
        (s.hostCtx h ≠ 0 → t.out = .hostValue h (s.readMem (h / 8) (gOff g) (2 ^ size.val)) :: s.out ∧
          { t with out := s.out, wear := s.wear, regs := s.regs, mapLag := s.mapLag } = s)) ∧
    (∀ (bs : List Byte) flaws, bs.length ∈ [1, 2, 4, 8] → s.hostOwnFails h g bs.length false true = none → ∀ mets,
      ∃ t, exec (.hostStore h pa bs (.store flaws) ⟨parity, mets⟩) s = .next t ∧
        (s.hostCtx h ≠ 0 → fillWindowOf (gOff g) bs.length = none → mets = [] →
          { t with mem := s.mem, wear := s.wear, regs := s.regs, mapLag := s.mapLag } = s ∧
          memBut (h / 8) (gOff g) bs.length s t ∧ t.readMem (h / 8) (gOff g) bs.length = bs)) ∧
    (∀ (w : Bool) (v : BitVec 64) flaws, let n := if w then 4 else 8
      s.hostOwnFails h g n true true = none → opPermitted 0x18 (h / 8) (gOff g) n = true →
      clean flaws (gOff g) n → let old := leNat (s.readMem (h / 8) (gOff g) n)
      ∀ mets, ∃ t, exec (.hostAmo h pa (.add w v) ⟨parity, mets⟩ flaws) s = .next t ∧
        (s.hostCtx h ≠ 0 → mets = [] → t.out = .hostValue h (leBytes n old) :: s.out ∧
          leNat (t.readMem (h / 8) (gOff g) n) = (old + v.toNat) % 2 ^ (8 * n) ∧ memBut (h / 8) (gOff g) n s t))) ∧
  (∀ (h : Host64) (pa : BitVec 56) (s : State) (g : Nat), s.hostRuns h = true → s.hostTarget h pa = .mem g →
    s.hostOwn h g = false →
    let k := h.val / 8
    let u := if s.hostCached h g then 64 else 32
    let goes := gPkg g = s.pkg ∧ s.hostCtx h ≠ 0 ∧ s.localFail k (hostIssuer h) s.pkg (gSite g) = none ∧
      hasTag s k (hostIssuer h)
    let sends := fun (t : State) (op : BitVec 8) (len : Nat) => ∃ p, sentOn t k (.base (siteOf (gSite g))) p ∧
      p.op = op ∧ p.len.toNat = len ∧ ∃ tag, tagLive t k (hostIssuer h) tag (.xfer s.nextId 0)
    (∀ size flaws, ∃ t, exec (.hostLoad h pa size .good flaws) s = .next t ∧
      (goes → g % u + 2 ^ size.val ≤ u → (s.hostCached h g = true → s.cachedFor k (s.hostCtx h) (gSite g) (gOff (g - g % u)) = false ∧
          s.hostLine k (g - g % 64) = none) →
        admitsNow s k 2 (u + 80) → t.mem = s.mem ∧ sends t 0x08 u)) ∧
    (s.hostCached h g = true → ∀ l : HostLine, l.dirty = true → l.bytes.length = 64 → s.hostLine k (g - g % 64) = some l →
      gSite (g - g % 64) = gSite g ∧ gPkg (g - g % 64) = gPkg g ∧ s.hostOwn h (g - g % 64) = false →
      ∀ mets, ∃ t, exec (.hostStore h pa [] .flush ⟨.good, mets⟩) s = .next t ∧ t.hostLine k (g - g % 64) = none ∧
        (goes → admitsNow s k 2 104 → t.mem = s.mem ∧ sends t 0x01 64)) ∧
    (s.hostCached h g = false → ∀ (bs : List Byte) flaws mets, bs.length ∈ [1, 2, 4, 8] →
      ∃ t, exec (.hostStore h pa bs (.store flaws) ⟨.good, mets⟩) s = .next t ∧
        (goes → g % 32 + bs.length ≤ 32 → admitsNow s k 2 72 → t.mem = s.mem ∧ sends t 0x01 32)) ∧
    (s.hostCached h g = false → ∀ (amo : HostAmo) mets flaws, amoPacket amo ≠ none →
      ∃ t, exec (.hostAmo h pa amo ⟨.good, mets⟩ flaws) s = .next t ∧
      (goes → admitsNow s k 2 144 → t.mem = s.mem ∧ ∃ op, sends t op 32 ∧
        (op = 0x18 ∧ (∃ w v, amo = .add w v) ∨ op = 0x19 ∧ ∃ w a b, amo = .cas w a b)))) ∧
  (∀ (h : Host64) (s : State), s.nextRole 2 (h / 8) (h % 8) = 0 → ∃ t, exec (.hostCoreLost h) s = .next t ∧
    t.getF (Reg.HOST_CORE_STATUS h) Fld.HOST_CORE_STATUS_STATE = 3 ∧ t.nextRole 2 (h / 8) (h % 8) = 2 ∧ t.mem = s.mem ∧
    (s.log.length ≤ 8000 → logged t (h / 8) 0x0206 [h % 8]))

/-- R287, R288: a doorbell of a requester that may ring, with an index the ring can take, sets PI or CI and writes the
shadow if the index changed; any other is refused, counted and reported, and leaves rings and memory as they were. -/
def Obligations.Doorbells : Prop :=
  ∀ (prod : Bool) (q : Requester) (ring : Fin 32768) (index : BitVec 16) (s : State),
    let bell := if prod then Instr.producerDoorbell q ring index else .consumerDoorbell q ring index
    (ringRec s.rs ring = none ∨ (∃ r, ringRec s.rs ring = some r ∧
        (mayRing q r prod = false ∨ ringIndex r (s.ring (r.u16 8)) prod index.toNat = none)) →
      (∀ r, ringRec s.rs ring = some r → r.u16 8 = ring.val) →
      ∃ t, exec bell s = .next t ∧ t.rings = s.rings ∧ t.mem = s.mem ∧ logged t portSite 0x0801 [ring] ∧
        t.getF Reg.HOST_RING_REFUSED Fld.HOST_RING_REFUSED_COUNT = min Fld.HOST_RING_REFUSED_COUNT.max
          (s.getF Reg.HOST_RING_REFUSED Fld.HOST_RING_REFUSED_COUNT + 1)) ∧
    (∀ r i, ringRec s.rs ring = some r → r.u16 8 = ring.val → mayRing q r prod = true →
      ringIndex r (s.ring ring) prod index.toNat = some i →
      let pi := (if prod then i else (s.ring ring).pi) % 2 ^ 32
      let ci := (if prod then (s.ring ring).ci else i) % 2 ^ 32
      ∃ t, exec bell s = .next t ∧ t.ring ring = { s.ring ring with pi := pi, ci := ci } ∧
        (pi = (s.ring ring).pi → ci = (s.ring ring).ci → t.log = s.log ∧ t.mem = s.mem) ∧
        (mayPut s portIssuer (ringCtx r) (r.u64 24) 16 → pi ≠ (s.ring ring).pi ∨ ci ≠ (s.ring ring).ci → t.log = s.log ∧
          t.readMem (gSite (r.u64 24)) (gOff (r.u64 24)) 16 = leBytes 4 pi ++ leBytes 4 ci ++ leBytes 8 0) ∧
        (gOff (r.u64 24) + 16 ≤ 2 ^ 43 → memBut (gSite (r.u64 24)) (gOff (r.u64 24)) 16 s t))

/-- R289, R290, R294, R300, R301: an entry of an outbound or raw ring that is malformed completes with status 1 and is
reported, and one of a queue pair in error with status 4; any other has its operation's effect: a message with the
entry's bytes, a raw frame, an association installed; NOP and the engine's own RAW_RX do nothing. An entry is consumed in
ring order; one whose completion waits for room is consumed once there is. -/
def Obligations.RingEntries : Prop :=
  (∀ (ring : Fin 32768) (w : Wire) (flaws : Flaws) (s : State) (r : Rec) (o : RingOp) (bs : List Byte),
    s.nextEntry ring = some (r, o, bs) →
    let run := match o.op with
      | 0x10 => Instr.sendInline ring w
      | 0x11 => .ringSend ring w flaws
      | 0x18 => .rdmaWrite ring w flaws
      | 0x1A => .rdmaRead ring w
      | 0x29 => .rawTx ring w flaws
      | 0x40 => .saInstall ⟨ring, w.entry⟩
      | _ => .ringNop ⟨ring, w.entry⟩
    let good := s.entryBad r o bs = false ∧ ∀ q, ringQpn r = some q → q ∉ s.qpErr
    let bytes := s.readMem (gSite o.addr) (gOff o.addr) o.len
    ∃ t, exec run s = .next t ∧ (soloEntry s ring r o bs → w.entry = [] →
      (s.entryBad r o bs = true → consumed s t ring ∧ logged t portSite 0x0802 [ring, 1]) ∧
      (o.op ≠ 0 → o.op ≠ 0x28 → s.entryBad r o bs = false → (∃ q, ringQpn r = some q ∧ q ∈ s.qpErr) →
        consumed s t ring ∧ logged t portSite 0x0802 [ring, 4]) ∧
      (o.op = 0 ∨ o.op = 0x28 → s.entryBad r o bs = false → consumed s t ring ∧ t.log = s.log) ∧
      ((s.confAt (ringCtx r)).on = false → good →
        (o.op = 0x10 → told t (.roce (.send (ringQ r) 0 ((bs.drop 32).take o.len))) ∧
          (w.rc = true → t.mem = s.mem ∧ (t.ring ring).ops = [{ o with kept := (bs.drop 32).take o.len }] ∧
            (t.ring ring).ci = (s.ring ring).ci)) ∧
        (mayGet s portIssuer (ringCtx r) o.addr o.len → flaws = [] → unlogged s (ringCtx r) o.addr o.len →
          (o.op = 0x11 → told t (.roce (.send (ringQ r) o.imm bytes))) ∧
          (o.op = 0x18 → told t (.roce (.write (ringQ r) o.va o.rkey o.imm bytes)) ∧
            t.mem = s.mem ∧ (t.ring ring).ops = [{ o with kept := bytes }]) ∧
          (o.op = 0x29 → told t (.ether bytes s.vt))) ∧
        (mayGet s portIssuer 0 o.addr o.len → ringCtx r = 0 → o.len ≠ 0 → flaws = [] → o.op = 0x11 →
          ∀ c ∈ s.ctxsOf (gSite o.addr) (gOff o.addr) o.len, (s.ledger c).1 < (t.ledger c).1) ∧
        (o.op = 0x1A → told t (.roce (.read (ringQ r) o.va o.rkey o.len)) ∧ (t.ring ring).ops = [o] ∧
          (unlogged s (ringCtx r) o.addr o.len → t.mem = s.mem))) ∧
      (good → o.op = 0x40 → consumed s t ring ∧
        (∃ a ∈ t.sas, a.1 = 2 ^ 31 * (o.imm / 2 ^ 31) + 256 * (o.imm / 256 % 32) + o.imm % 4 ∧
          a.2.key = (bs.drop 32).take 32 ∧ a.2.pn = leNat ((bs.drop 8).take 8) ∧ a.2.salt = (bs.drop 20).take 12) ∧
        (o.imm / 2 ^ 31 = 1 → t.txAn = some (o.imm % 4) ∧ t.getF Reg.HOST_PORT_STATUS Fld.HOST_PORT_STATUS_MACSEC = 1)))) ∧
  (∀ (ring : Fin 32768) (s : State) (r : Rec) (o : RingOp) (rest : List RingOp) (fin : Nat × Nat × Nat × Nat),
    ringRec s.rs ring = some r → (s.ring ring).ops = o :: rest → o.fin = some fin →
    ∃ t, exec (.completionRoom ring) s = .next t ∧ ∀ c, o.compl = true → ringRec s.rs o.cring = some c →
      ringCtx c = ringCtx r → o.cring ≠ ring.val →
      ((s.ring o.cring).fill < ringDepth c - 1 → rest = [] → consumed s t ring ∧
        (t.ring o.cring).pi = ((s.ring o.cring).pi + 1) % 2 ^ 32) ∧
      (ringDepth c - 1 ≤ (s.ring o.cring).fill → t = s))

/-- R302, R303, R451: on its context's control ring, KEYX step 1 makes a fresh key pair and uses one leaf, step 2 derives
the context's keys, under a signature where KEYREF asks for one, and erases the decapsulation key, and BOUNCE registers a
window once there are keys, at most 64. An entry that is malformed, or a step that is neither 1 nor 2, changes no key and
ends as MALFORMED. -/
def Obligations.KeyAgreement : Prop :=
  ∀ (ring : Fin 32768) (flaws : Flaws) (s t0 : State) (r : Rec) (o : RingOp),
    let ctx := ringCtx r
    let c := s.confAt ctx
    let bad := fun (t : State) (status : Nat) => t.conf = s.conf ∧ t.lms = s.lms ∧
      (s.log.length ≤ 8000 → logged t portSite 0x0802 [r.u16 8, status])
    (s.takeControl ring 0x48 1 = some (t0, r, o) → s.lms.exhausted = true ∨ s.lms.ready = true →
      ∃ t, exec (.keyxRequest ring) s = .next t ∧
        (s.controlBad r o = false → s.lms.exhausted = false → s.hostSees ctx o.addr (kemLen + reportLen) = true →
          mayPut s portIssuer ctx o.addr (kemLen + reportLen) → (t.confAt ctx).seed = some (Config.random s.free) ∧ (t.confAt ctx).nonce = Config.random (s.free + 1) ∧
          (t.confAt ctx).keyed = c.keyed ∧ t.lms = s.lms.take.2) ∧
        (s.controlBad r o = true ∨ s.lms.exhausted = true ∨ s.hostSees ctx o.addr (kemLen + reportLen) = false →
          bad t 1)) ∧
    (s.takeControl ring 0x48 0 = some (t0, r, o) → s.takeControl ring 0x48 1 = none → s.takeControl ring 0x48 2 = none →
      ∃ t, exec (.keyxRequest ring) s = .next t ∧ bad t 1) ∧
    (s.takeControl ring 0x48 2 = some (t0, r, o) →
      let need := keyRef s.rs ctx
      let n := if need = leBytes 32 0 then kemLen else max kemLen o.len
      let bs := s.readMem (gSite o.addr) (gOff o.addr) n
      let fine := c.seed ≠ none ∧ s.controlBad r o = false ∧ s.opRange ctx o.addr n true false = true
      ∃ t, exec (.keyxCiphertext ring flaws) s = .next t ∧ (¬fine → bad t 1) ∧
        (fine → mayGet s portIssuer ctx o.addr n → flaws = [] → need = leBytes 32 0 ∨
            (bs.drop kemLen ≠ [] ∧ Config.hssVerify need (sha256 (bs.take kemLen)) (bs.drop kemLen) = true) →
          (t.confAt ctx).keyed = true ∧ (t.confAt ctx).seed = none ∧ (t.confAt ctx).ctr = 1 ∧
          (t.confAt ctx).on = c.on)) ∧
    (s.takeControl ring 0x49 0 = some (t0, r, o) → ∃ t, exec (.bounce ring) s = .next t ∧
      (s.controlBad r o = false → c.keyed = true → c.bounce.length < 64 →
        (t.confAt ctx).bounce = c.bounce ++ [(o.va, o.len, o.rkey)]) ∧
      (s.controlBad r o = true ∨ c.keyed = false → bad t 1) ∧
      (s.controlBad r o = false → c.keyed = true → 64 ≤ c.bounce.length → bad t 2))

/-- R290, R296 to R298: what a port that is up and awake does with a frame that class 0 admits. A raw frame is stored or
dropped and counted; a SEND's entries join the inbound ring or a receiver-not-ready NAK goes back; an RDMA WRITE or READ under an
open rkey writes or answers exactly its bytes, or an operational-error NAK where a byte read fails parity or ECC; any other request is answered with a NAK and its queue pair fails, as is a
WRITE that the device refuses; a CNP halves a rate; an acknowledgement ends the oldest entry, a receiver-not-ready or
sequence NAK has its message sent again, the bytes of a READ are stored, and a NAK for access fails the queue pair. -/
def Obligations.InboundFrames : Prop :=
  ∀ (f : FrameIn) (s : State), s.portUp = true → s.asleep = false →
  (∀ bytes : List Byte, ∃ t, exec (.rawFrameRx f bytes) s = .next t ∧
    ∀ r, takesNow s f none → s.ringRecs.find? ringRaw = some r → let x := s.ring (r.u16 8)
      (2048 < bytes.length ∨ ringDepth r - 1 ≤ x.fill → t.rings = s.rings ∧ t.mem = s.mem ∧
        t.getF Reg.HOST_PORT_DROP Fld.HOST_PORT_DROP_COUNT = min Fld.HOST_PORT_DROP_COUNT.max
          (s.getF Reg.HOST_PORT_DROP Fld.HOST_PORT_DROP_COUNT + 1)) ∧
      (bytes.length ≤ 2048 → x.fill < ringDepth r - 1 →
        t.ring (r.u16 8) = { x with pi := (x.pi + 1) % 2 ^ 32, ci := x.ci % 2 ^ 32 })) ∧
  (∀ qpn : BitVec 24, let clear := takesNow s f (some qpn.toNat) ∧ (s.confAt (s.qpCtx qpn.toNat)).keyed = false
    (∀ hdr pay : List Byte, ∃ t, exec (.inboundSend f qpn hdr pay) s = .next t ∧
      ∀ r, clear → s.qpRing qpn.toNat true = some r → pay.length % 64 = 0 → let x := s.ring (r.u16 8)
        (ringDepth r - 1 < x.fill + pay.length / 64 →
          told t (.roce (.rnrNak qpn.toNat)) ∧ t.rings = s.rings ∧ t.mem = s.mem) ∧
        (x.fill + pay.length / 64 ≤ ringDepth r - 1 → (t.ring (r.u16 8)).pi = (x.pi + pay.length / 64) % 2 ^ 32 ∧
          (f.rc = true → told t (.roce (.ack qpn.toNat))))) ∧
    (∀ (hdr : List Byte) (va : BitVec 64) (rkey : BitVec 32), let site := gSite va.toNat
      let a := gOff va.toNat
      let g := gAddr s.pkg site a
      (∀ pay : List Byte, ∃ t, exec (.inboundRdmaWrite f qpn hdr va rkey pay) s = .next t ∧
        (clear → s.rkeyOpens qpn.toNat va.toNat rkey.toNat pay.length true = true →
          mayPut s portIssuer (s.qpCtx qpn.toNat) g pay.length → unlogged s (s.qpCtx qpn.toNat) g pay.length →
          t.readMem site a pay.length = pay ∧
          t.rings = s.rings ∧ (a + pay.length ≤ 2 ^ 43 → memBut site a pay.length s t) ∧
          (f.rc = true → told t (.roce (.ack qpn.toNat)))) ∧
        (clear → s.rkeyOpens qpn.toNat va.toNat rkey.toNat pay.length true = true →
          s.engineFails portIssuer (s.qpCtx qpn.toNat) g pay.length true ≠ none →
          told t (.roce (.opErrNak qpn.toNat)) ∧ qpn.toNat ∈ t.qpErr ∧ t.mem = s.mem) ∧
        (clear → s.rkeyOpens qpn.toNat va.toNat rkey.toNat pay.length true = false →
          told t (.roce (.accessNak qpn.toNat)) ∧ qpn.toNat ∈ t.qpErr)) ∧
      (∀ (len : BitVec 24) (flaws : Flaws), ∃ t, exec (.inboundRdmaRead f qpn hdr va rkey len flaws) s = .next t ∧
        (takesNow s f (some qpn.toNat) → (s.confAt (s.qpCtx qpn.toNat)).on = false →
          s.rkeyOpens qpn.toNat va.toNat rkey.toNat len.toNat false = true →
          mayGet s portIssuer (s.qpCtx qpn.toNat) g len.toNat → flaws = [] → unlogged s (s.qpCtx qpn.toNat) g len.toNat →
          t.mem = s.mem ∧ t.rings = s.rings ∧ told t (.roce (.readResp qpn.toNat (s.readMem site a len.toNat)))) ∧
        (takesNow s f (some qpn.toNat) → s.rkeyOpens qpn.toNat va.toNat rkey.toNat len.toNat false = true →
          mayGet s portIssuer (s.qpCtx qpn.toNat) g len.toNat → unlogged s (s.qpCtx qpn.toNat) g len.toNat →
          (s.readCheck site a len.toNat flaws true (issuerArgs s.pkg portSite portIssuer)).2 ≠ none →
          told t (.roce (.opErrNak qpn.toNat)) ∧ qpn.toNat ∈ t.qpErr))) ∧
    (∃ t, exec (.unsupportedRequest f qpn) s = .next t ∧ (takesNow s f (some qpn.toNat) →
      told t (.roce (.invalidNak qpn.toNat)) ∧ qpn.toNat ∈ t.qpErr)) ∧
    (∃ t, exec (.cnp f qpn) s = .next t ∧ (takesNow s f (some qpn.toNat) → t.mem = s.mem ∧
      ((∀ kv ∈ s.qpRate, kv.1 ≠ qpn.toNat) → t.qpRate.find? (fun kv => decide (kv.1 = qpn.toNat)) = some (qpn.toNat,
        if s.getF Reg.HOST_PORT_STATUS Fld.HOST_PORT_STATUS_STATE = 3 then 200000 else 400000, s.vt)) ∧
      (∀ rate since, s.qpRate.find? (fun kv => decide (kv.1 = qpn.toNat)) = some (qpn.toNat, rate, since) →
        s.vt < since + 55000 → t.qpRate.find? (fun kv => decide (kv.1 = qpn.toNat)) =
          some (qpn.toNat, max 1000 (rate / 2), s.vt)))) ∧
    (∀ answer : RoceAnswer, ∃ t, exec (.roceResponse f qpn answer) s = .next t ∧
      (takesNow s f (some qpn.toNat) → ∀ r o, s.oldestOp qpn.toNat = some (r, o) →
        (answer = .ack → (s.ring (r.u16 8)).ops = [o] → o.compl = false → o.op ≠ 0x1A → consumed s t (r.u16 8)) ∧
        (answer = .nak 3 → qpn.toNat ∈ t.qpErr) ∧
        (answer = .nak 0 ∨ answer = .nak 1 → t.rings = s.rings ∧ t.mem = s.mem ∧
          ((s.confAt (ringCtx r)).on = false → told t (.roce (opMessage r o o.kept)))) ∧
        (∀ hdr off pay last, answer = .readData hdr off pay last → clear → o.op = 0x1A →
          off.toNat + pay.length ≤ o.len → let g := o.addr + off.toNat
          mayPut s portIssuer (ringCtx r) g pay.length → gOff g + pay.length ≤ 2 ^ 43 →
          (last = false → memBut (gSite g) (gOff g) pay.length s t ∧ t.readMem (gSite g) (gOff g) pay.length = pay ∧
            ((s.ring (r.u16 8)).ops = [o] → t.ring (r.u16 8) = s.ring (r.u16 8))) ∧
          (last = true → (s.ring (r.u16 8)).ops = [o] → o.compl = false → consumed s t (r.u16 8))))))

/-- R292, R293, R296: the entries reserved for a bell are copied once they lie below PI; a waiting reservation obtains
its slots once there is room; in the bell its ready token is signalled once. The port trains at 400 Gb/s where that is
forced or 800GBASE-R fails, and comes up with the next tick (the tick is the model's choice: log 15); it shows the priorities
the peer pauses, and a released one lets its messages go. -/
def Obligations.BellRingsAndPort : Prop :=
  (∀ (ring : Fin 32768) (flaws : Flaws) (s : State) (r : Rec) (b : RingBell), ringRec s.rs ring = some r →
    let before := ((s.ring ring).bells.filter fun c => !c.prod && decide (c.bell < b.bell)).length
    ((s.ring ring).bells.find? (fun b => !b.prod && decide (b.copy = 0)) = some b →
      s.ringWorks b.bell = true → (before + 1) * ringE r ≤ (s.ring ring).fill →
      ∃ t, exec (.ringCopy ring flaws) s = .next t ∧
        (flaws = [] → let first := (s.ring ring).ci + before * ringE r
          let head := min (ringE r) (ringDepth r - first % ringDepth r)
          mayGet s ringIssuer (ringCtx r) (ringEntry r first) (64 * head) →
          mayGet s ringIssuer (ringCtx r) (r.u64 16) (64 * (ringE r - head)) → t.mem = s.mem ∧
          ∃ c ∈ (t.ring ring).bells, c.bell = b.bell ∧ c.prod = false ∧ 1 ≤ c.copy)) ∧
    ((s.ring ring).bells.find? (fun b => b.prod && !b.held) = some b → roomFor r (s.ring ring) b.bell = true →
      ∃ t, exec (.ringSlotReserve ring) s = .next t ∧ { t with rings := s.rings } = s ∧
        ∃ c ∈ (t.ring ring).bells, c.bell = b.bell ∧ c.prod = true ∧ c.held = true) ∧
    ((s.ring ring).bells.find? (fun b => decide (b.bell = (s.bellAt portSite).bell) && !b.told &&
        (if b.prod then b.held else decide (b.copy = 2))) = some b → (s.bellAt portSite).executing = true →
      ∃ t, exec (.ringReadySignal ring) s = .next t ∧ (∃ c ∈ (t.ring ring).bells, c.bell = b.bell ∧ c.told = true) ∧
        (s.localFail portSite ringIssuer s.pkg (r.u8 64 % 32) = none → hasTag s portSite ringIssuer →
          s.pkg < 2 ^ 16 → ∃ p, sentOn t portSite (.base (siteOf (r.u8 64))) p ∧ p.op = 0x20 ∧
            p.bell.toNat = b.bell % 256 ∧ p.payNum 0 2 = r.u16 54 % 4096 ∧ p.payNum 4 4 = 1))) ∧
  (∀ (ok on : Bool) (s : State),
    (s.getF Reg.HOST_PORT_STATUS Fld.HOST_PORT_STATUS_STATE ≠ 0 →
      ∃ t, exec (.retrain ok) s = .next t ∧ { t with regs := s.regs, portNext := s.portNext } = s ∧
      regsBut [Reg.HOST_PORT_STATUS] s t ∧ t.getF Reg.HOST_PORT_STATUS Fld.HOST_PORT_STATUS_STATE = 1 ∧
      t.portNext = some (if s.getF Reg.HOST_PORT_CTRL Fld.HOST_PORT_CTRL_FORCE_400 = 1 ∨ ok = false ∨
          2 ≤ s.getF Reg.PWR_STATUS Fld.PWR_STATUS_STATE then 3 else 2)) ∧
    (∀ st, s.portNext = some st → s.pending = [] → s.power.on = true → st < 8 → ∃ t, step s = .next t ∧
      t.getF Reg.HOST_PORT_STATUS Fld.HOST_PORT_STATUS_STATE = st ∧ t.portNext = none) ∧
    (∃ t, exec (.force400 on ok) s = .next t ∧
      { t with regs := s.regs, portNext := s.portNext } = s ∧ regsBut [Reg.HOST_PORT_STATUS, Reg.HOST_PORT_CTRL] s t ∧
      t.getF Reg.HOST_PORT_CTRL Fld.HOST_PORT_CTRL_FORCE_400 = bit on ∧
      (s.getF Reg.HOST_PORT_CTRL Fld.HOST_PORT_CTRL_FORCE_400 = bit on →
        t.reg Reg.HOST_PORT_STATUS = s.reg Reg.HOST_PORT_STATUS) ∧
      (on = true → s.getF Reg.HOST_PORT_CTRL Fld.HOST_PORT_CTRL_FORCE_400 = 0 →
        s.getF Reg.HOST_PORT_STATUS Fld.HOST_PORT_STATUS_STATE ≠ 0 →
        t.getF Reg.HOST_PORT_STATUS Fld.HOST_PORT_STATUS_STATE = 1 ∧ t.portNext = some 3))) ∧
  (∀ (prio : Fin 8) (pause : Bool) (s : State), ∃ t, exec (.pfcFrame prio pause) s = .next t ∧
    (pause = true ∨ s.heldOut = [] → (∀ e ∈ s.heldOut, s.prioPaused e.prio = true) →
      { t with regs := s.regs } = s ∧ regsBut [Reg.HOST_PORT_STATUS] s t) ∧
    (pause = false → ∀ e ∈ s.heldOut, e.prio = prio.val → e.what ∈ t.out) ∧
    ∀ p : Fin 8, decide (t.getF Reg.HOST_PORT_STATUS Fld.HOST_PORT_STATUS_PAUSED / 2 ^ p.val % 2 = 1) =
      if p = prio then pause else
        decide (s.getF Reg.HOST_PORT_STATUS Fld.HOST_PORT_STATUS_PAUSED / 2 ^ p.val % 2 = 1))

/-! ### Configuration (R306 to R328) -/

/-- R316 to R320, R322, R326: ENABLE locks a slot and begins its check, and while one runs does nothing; a check that
ends in a fault refuses the image with its reason, and one that passes makes it pending without touching what is
active; CANCEL withdraws; CFG_ACTIVATE is stored, and a root with a pending change cries SETTLE; an absent variant is
refused, a present one pending; the installation ends in state 5. -/
def Obligations.ConfigImages : Prop :=
  (∀ (part : Bool) (slot : Fin 64) (s : State),
    (s.cfg.check ≠ none → ∃ t, exec (.cfgEnable part slot) s = .next t ∧ { t with regs := s.regs } = s ∧
      regsBut [Reg.CFG_CTRL] s t) ∧
    (s.cfg.check = none → s.power.on = true → s.getF Reg.SEC_STATUS Fld.SEC_STATUS_FAIL = 0 →
      ∃ t, exec (.cfgEnable part slot) s = .next t ∧ { t with regs := s.regs, cfg := s.cfg } = s ∧
        t.cfg.check = some (part, slot.val) ∧ t.cfg.eff = s.cfg.eff ∧ t.cfg.full = s.cfg.full ∧
        t.cfg.pendFull = s.cfg.pendFull ∧ t.getF Reg.CFG_STATUS Fld.CFG_STATUS_STATE = 1 ∧
        t.getF Reg.CFG_STATUS Fld.CFG_STATUS_KIND = bit part ∧ t.getF Reg.CFG_STATUS Fld.CFG_STATUS_SLOT = slot ∧
        (t.cfg.found = none ↔ t.cfg.fault ≠ none) ∧
        (s.slotPlace part slot = none → t.cfg.fault = some (0x0102, 0, 0, 0)) ∧
        regsBut [Reg.CFG_CTRL, Reg.CFG_STATUS, Reg.CFG_START_STATUS] s t)) ∧
  (∀ (s : State) (part : Bool) (slot : Nat), s.cfg.check = some (part, slot) →
    ∃ t, exec .enableCheckDone s = .next t ∧
      (∀ c g v o, s.cfg.found = none → s.cfg.fault = some (c, g, v, o) →
        { t with regs := s.regs, cfg := s.cfg } = s ∧ t.cfg.check = none ∧ t.cfg.eff = s.cfg.eff ∧
        t.cfg.pendFull = s.cfg.pendFull ∧ t.cfg.pendPart = s.cfg.pendPart ∧ regsBut [Reg.CFG_STATUS] s t ∧
        t.getF Reg.CFG_STATUS Fld.CFG_STATUS_STATE = 3 ∧
        (c < 2 ^ 16 → t.getF Reg.CFG_STATUS Fld.CFG_STATUS_REASON = c)) ∧
      (∀ i, s.cfg.found = some i → (s.bellAt (treePort s.rs)).life ≠ .notStarted →
        t.cfg.check = none ∧ t.cfg.eff = s.cfg.eff ∧ t.cfg.full = s.cfg.full ∧
        t.mem = s.mem ∧ t.getF Reg.CFG_STATUS Fld.CFG_STATUS_STATE = 2 ∧
        (i.part = false → t.cfg.pendFull = some i ∧ t.cfg.pendPart = []) ∧
        (i.part = true → t.cfg.pendFull = s.cfg.pendFull ∧ t.cfg.pendPart = s.cfg.pendPart ++ [i]))) ∧
  (∀ (part : Bool) (slot : Fin 64) (s : State),
    ∃ t, exec (.cfgCancel part slot) s = .next t ∧ { t with regs := s.regs, cfg := s.cfg } = s ∧ t.cfg.eff = s.cfg.eff ∧
      t.cfg.full = s.cfg.full ∧
      let fullThere := ∃ i, s.cfg.pendFull = some i ∧ i.slot = slot
      (s.cfg.check = some (part, slot.val) → t.cfg.check = none ∧ t.cfg.pendFull = s.cfg.pendFull ∧
        t.cfg.pendPart = s.cfg.pendPart ∧ t.getF Reg.CFG_STATUS Fld.CFG_STATUS_STATE = 6 ∧
        regsBut [Reg.CFG_CTRL, Reg.CFG_STATUS] s t) ∧
      (s.cfg.check ≠ some (part, slot.val) → t.cfg.check = s.cfg.check ∧
        (part = false → fullThere → t.cfg.pendFull = none ∧ t.cfg.pendPart = s.cfg.pendPart ∧
          t.getF Reg.CFG_STATUS Fld.CFG_STATUS_STATE = 6 ∧ regsBut [Reg.CFG_CTRL, Reg.CFG_STATUS] s t) ∧
        (∀ i, part = true → s.cfg.pendPart.find? (fun i => decide (i.slot = slot.val)) = some i →
          t.cfg.pendFull = s.cfg.pendFull ∧ t.cfg.pendPart = s.cfg.pendPart.filter (fun j => decide (j.ctx ≠ i.ctx)) ∧
          t.getF Reg.CFG_STATUS Fld.CFG_STATUS_STATE = 6 ∧
          regsBut [Reg.CFG_CTRL, Reg.CFG_STATUS, Reg.CFG_PARTIAL i.ctx] s t) ∧
        ((part = false → ¬fullThere) → (part = true → ∀ i ∈ s.cfg.pendPart, i.slot ≠ slot) →
          t.cfg = s.cfg ∧ regsBut [Reg.CFG_CTRL] s t))) ∧
  (∀ (valid : Bool) (bell : BitVec 48) (s : State), ∃ t, exec (.cfgActivate valid bell) s = .next t ∧
    t.getF Reg.CFG_ACTIVATE Fld.CFG_ACTIVATE_VALID = bit valid ∧ t.getF Reg.CFG_ACTIVATE Fld.CFG_ACTIVATE_BELL = bell.toNat ∧
    regsBut [Reg.CFG_ACTIVATE] s t ∧ { t with regs := s.regs, node := s.node, out := s.out, seqs := s.seqs } = s ∧
    (valid = true → isRoot s.rs = true → s.changePending = true → s.node.settleAt = none →
      (s.bellAt (treePort s.rs)).executing = true →
      t.node.settleAt = some (max bell.toNat s.firstBellAhead) ∧
      cried t (treePort s.rs) .down .settle (max bell.toNat s.firstBellAhead) 0)) ∧
  (∀ (v : Fin 16) (s : State), ∃ t, exec (.altSelect v) s = .next t ∧
    (s.cfg.full = none → v.val = 0 → { t with regs := s.regs } = s ∧ regsBut [Reg.CFG_ALT] s t ∧
      t.getF Reg.CFG_ALT Fld.CFG_ALT_SELECT = v) ∧
    (s.cfg.full = none → v.val ≠ 0 → { t with regs := s.regs } = s ∧ regsBut [Reg.CFG_ALT, Reg.CFG_STATUS] s t ∧
      t.getF Reg.CFG_STATUS Fld.CFG_STATUS_STATE = 3 ∧ t.getF Reg.CFG_STATUS Fld.CFG_STATUS_REASON = 0x0104) ∧
    ∀ f, s.cfg.full = some f →
      (v.val ≠ 0 → v.val ∉ variantsOf f.segs → { t with regs := s.regs } = { s with cfg := { s.cfg with pendAlt := none } } ∧
        regsBut [Reg.CFG_ALT, Reg.CFG_STATUS] s t ∧ t.getF Reg.CFG_STATUS Fld.CFG_STATUS_STATE = 3 ∧
        t.getF Reg.CFG_STATUS Fld.CFG_STATUS_REASON = 0x0104) ∧
      (v.val = 0 ∨ v.val ∈ variantsOf f.segs → (s.bellAt (treePort s.rs)).life ≠ .notStarted →
        t.cfg.pendAlt = (if v.val = s.cfg.variant then none else some v.val) ∧ t.cfg.eff = s.cfg.eff ∧ t.mem = s.mem ∧ regsBut [Reg.CFG_ALT] s t ∧
        t.getF Reg.CFG_ALT Fld.CFG_ALT_SELECT = v)) ∧
  (∀ s : State, s.cfg.install = true → ∃ t, exec .installationDone s = .next t ∧ t.cfg.install = false ∧
    t.cfg.eff = s.cfg.eff ∧ t.getF Reg.CFG_STATUS Fld.CFG_STATUS_STATE = 5 ∧ { t with regs := s.regs, cfg := s.cfg } = s)

/-! ### Starts, resets and fences (R329 to R348) -/

/-- R330, R333, R397, R445: a cold start of a module without supply runs every stage that verifies and stops with its
fault at one that does not. R477: while RESET_N is low the module stays in reset, in which memory reads as never written,
while the operator key, ledgers, wear and fixing records are as before; its rising edge begins a cold start. -/
def Obligations.ColdStarts : Prop :=
  ∀ (run : StartRun) (s : State),
    let off := s.power.on = false ∧ s.power.inReset = false
    (s.power.on = true → exec (.coldStart run) s = .next s) ∧ (s.power.on = false → exec (.resetN .low) s = .next s) ∧
    (s.power.inReset = true → exec (.coldStart run) s = .next s) ∧
    (s.power.inReset = false → exec (.resetN (.high run)) s = .next s) ∧
    (off → bootsWhole s run → run.holdup = true → ∃ t, exec (.coldStart run) s = .next t ∧ t.power.on = true ∧ t.startStep = 7 ∧
      t.getF Reg.SEC_STATUS Fld.SEC_STATUS_STAGE = 5 ∧ t.pwrState = 1 ∧ t.mem = s.mem ∧
      ∀ i, i < 28 → s.siteRetired i = false → (∀ f ∈ run.fields, f.val ≠ homeField i) → (∀ j ∈ run.lanes, j.val ≠ i) →
        (∀ b ∈ run.hbmBad, bridgeSite b ≠ i) → t.live i = true) ∧
    (off → ∀ f, (bootBank run.badFirmware (s.firmware.getD 0 ⟨none, none, false, false, 0⟩) 0).1 = f + 1 →
      ∃ t, exec (.coldStart run) s = .next t ∧ t.getF Reg.SEC_STATUS Fld.SEC_STATUS_FAIL = f + 1 ∧ t.mem = s.mem ∧
        t.startStep = s.startStep) ∧
    (off → bootsWhole s run → run.holdup = false → ∃ t, exec (.coldStart run) s = .next t ∧
      logged t mcSite 0x0B02 [] ∧ t.startStep = s.startStep ∧ t.mem = s.mem ∧ t.pwrState = s.pwrState) ∧
    (s.power.on = true → ∃ t, exec (.resetN .low) s = .next t ∧ t.power.on = false ∧ t.power.inReset = true ∧
      (∀ i off, t.byteAt i off = 0) ∧ t.opkey = s.opkey ∧ t.opkeySeq = s.opkeySeq ∧ t.led = s.led ∧ t.wear = s.wear ∧
      t.fixed = s.fixed ∧ t.grn = s.grn) ∧
    (s.power.on = false → s.power.inReset = true → bootsWhole s run → run.holdup = true →
      ∃ t, exec (.resetN (.high run)) s = .next t ∧ t.power.on = true ∧ t.power.inReset = false ∧ t.startStep = 7 ∧ t.mem = s.mem)

/-- R333, R334, R339 to R342, R344, R346, R348: a requester that may resets a populated site, gateway or compute die
unless a reset at least as large is under way: the site falls silent, SITE_LOST names what is lost, its lost memory
reads 0 and, at the third reset within 1 s, it is retired. A gateway drains before its reset: its live transactions fail
after 1 µs with its epoch unchanged, and it resets after 2 µs. GW_ACK_LOST clears the LOST flags. A field's reset darkens
it, parks its rings after 50 ms, and ends with its release. -/
def Obligations.Resets : Prop :=
  (∀ (r : Requester) (site : Site) (s : State), s.guestShut site = true →
    exec (.siteReset r site) s = .next s.unmapped ∧ exec (.gatewayReset r site) s = .next s.unmapped ∧
    exec (.gwAckLost r site) s = .next s.unmapped) ∧
  (∀ (r : Requester) (site : Site) (s : State), s.guestShut site = false →
    (s.trusted r = false → exec (.siteReset r site) s = .next s ∧ exec (.gatewayReset r site) s = .next s) ∧
    (domainRank 1 ≤ s.resetRank site → exec (.siteReset r site) s = .next s) ∧
    (domainRank 2 ≤ s.resetRank site → exec (.gatewayReset r site) s = .next s) ∧
    (mayReset s r site 1 → ∃ t, exec (.siteReset r site) s = .next t ∧ resetTaken s t site 1) ∧
    (mayReset s r site 2 → ∃ t, exec (.gatewayReset r site) s = .next t ∧ t.resetState site = 1 ∧
      t.drains = s.drains ++ [(site.val, s.vt, false)] ∧ { t with regs := s.regs, drains := s.drains } = s ∧
      regsBut [Reg.GW_RESET site] s t)) ∧
  (∀ (site : Site) (since : Nat) (failed : Bool) (s : State),
    (since + 2000 ≤ s.vt → resetTaken s (s.drainStep (site, since, failed)) site 2) ∧
    (since + 1000 ≤ s.vt → s.vt < since + 2000 → failed = false →
      let t := s.drainStep (site, since, failed)
      t.resetState site = s.resetState site ∧
        t.getF (Reg.GW_EPOCH site) Fld.GW_EPOCH_EPOCH = s.getF (Reg.GW_EPOCH site) Fld.GW_EPOCH_EPOCH ∧
        ∀ kv ∈ (s.gw site).tags, ∀ e ∈ (t.gw site).tags, e.1 ≠ kv.1)) ∧
  (∀ (r : Requester) (k : Stack) (s : State),
    (s.trusted r = false ∨ domainRank 3 ≤ s.resetRank k → exec (.computeDieReset r k) s = .next s) ∧
    (mayReset s r k 3 → ∃ t, exec (.computeDieReset r k) s = .next t ∧ resetTaken s t k 3)) ∧
  (∀ (r : Requester) (site : Site) (s : State), s.guestShut site = false →
    (s.trusted r = false → exec (.gwAckLost r site) s = .next s) ∧
    (s.trusted r = true → ∃ t, exec (.gwAckLost r site) s = .next t ∧ { t with regs := s.regs } = s ∧
      regsBut [Reg.GW_RESET site] s t ∧ t.getF (Reg.GW_RESET site) Fld.GW_RESET_LOST_HBM = 0 ∧
      t.getF (Reg.GW_RESET site) Fld.GW_RESET_LOST_SCRATCH = 0 ∧ t.getF (Reg.GW_RESET site) Fld.GW_RESET_LOST_COMPUTE = 0 ∧
      t.resetState site = s.resetState site ∧ t.resetDomain site = s.resetDomain site)) ∧
  (∀ (r : Requester) (n : Field) (s : State),
    (s.trusted r = false → exec (.fieldReset r n) s = .next s ∧ exec (.fieldRelease r n) s = .next s) ∧
    (s.fieldState n = 1 ∨ s.fieldState n = 2 → exec (.fieldReset r n) s = .next s) ∧
    (s.trusted r = true → s.fieldState n ≠ 1 → s.fieldState n ≠ 2 → ∃ t, exec (.fieldReset r n) s = .next t ∧
      t.fieldState n = 1 ∧ ∀ i ∈ homeSites n, s.live i = true → (t.gw i).silent = true ∧ i ∉ t.lit) ∧
    (s.fieldState n = 1 → SMap.get 0 s.fieldAt n + 50000000 ≤ s.vt → ∃ t, exec (.heaterHoldExpiry n) s = .next t ∧
      t.fieldState n = 2 ∧ { t with regs := s.regs } = s ∧ regsBut [Reg.FAB_FIELD_RESET n] s t) ∧
    (s.trusted r = true → s.fieldState n = 1 ∨ s.fieldState n = 2 → ∃ t, exec (.fieldRelease r n) s = .next t ∧
      t.fieldState n = 3 ∧ { t with regs := s.regs, fieldAt := s.fieldAt } = s ∧ regsBut [Reg.FAB_FIELD_RESET n] s t)) ∧
  (∀ (site : Site) (s : State), s.siteRetired site = false → s.fieldState (homeField site) = 0 →
    (∀ t ∈ s.tripped, t.loc ≠ site.val) → s.resetState site = 5 ∨ s.resetState site = 6 →
    ∃ t, exec (.mcSilenceReset site) s = .next t ∧ (t.gw site).silent = true ∧
      t.resetDomain site = (if s.resetState site = 5 then 3 else 1))

/-- R335 to R340, R343, R452: a lost peer is fenced, its live transactions fail, and the site votes LOST; the MC's
order fences it at every working gateway; a gateway that fences itself or loses its compute clock falls silent; a stop
without its gateway fails its transactions. A site whose reset is done is opened again by every working peer, those that await
admission among them, no sooner than 1 ms after the reset, a guest only if it passes; one that is too late is retired. -/
def Obligations.FencesAndReadmission : Prop :=
  (∀ (site peer : Site) (s : State), site ≠ peer → s.working site = true → s.working peer = true → s.deaf site = false →
    ∃ t, exec (.heartbeatLoss site peer) s = .next t ∧ t.fencedAt site peer = true ∧
      (s.fencedAt site peer = true → t = s) ∧
      (s.fencedAt site peer = false →
        (∀ kv ∈ (s.gw site).tags, (kv.2.kids = [] ∧ kv.2.dstPkg = s.pkg ∧ kv.2.dstSite = peer.val) ∨ peer.val ∈ kv.2.kids →
          ∀ e ∈ (t.gw site).tags, e.1 ≠ kv.1) ∧
        ((s.bellAt site).life.abandons = false → (s.bellAt site).life ≠ .notStarted → (t.bellAt site).lost = true))) ∧
  (∀ (peer : Site) (s : State), s.fencedAny peer = true → ∃ t, exec (.mcFenceOrder peer) s = .next t ∧
    ∀ i, i < 32 → i ≠ peer.val → s.working i = true → s.deaf i = false → t.fencedAt i peer = true) ∧
  (∀ (site : Site) (s : State), s.working site = true → (s.gw site).silent = false →
    ∃ t, exec (.gatewaySelfFence site) s = .next t ∧ (t.gw site).silent = true ∧ t.resetState site = 6 ∧
      t.getF (Reg.GW_EPOCH site) Fld.GW_EPOCH_EPOCH = (s.getF (Reg.GW_EPOCH site) Fld.GW_EPOCH_EPOCH + 1) % 16 ∧
      ∀ kv ∈ (s.gw site).tags, ∀ e ∈ (t.gw site).tags, e.1 ≠ kv.1) ∧
  (∀ (k : Stack) (s : State), (s.gw k).silent = false → ∃ t, exec (.computeClockLoss k) s = .next t ∧
    (t.gw k).silent = true ∧ t.resetState k = 5 ∧ { t with regs := s.regs, gws := s.gws } = s ∧
    regsBut [Reg.GW_RESET k] s t) ∧
  (∀ (k : Stack) (stop : Fin 16) (s : State), stop.val ∉ (s.gw k).stops →
    ∃ t, exec (.stopChannelTimeout k stop) s = .next t ∧ stop.val ∈ (t.gw k).stops ∧
      ∀ kv ∈ (s.gw k).tags, stopOf (kv.1 / 4096) = some stop.val → ∀ e ∈ (t.gw k).tags, e.1 ≠ kv.1) ∧
  (∀ (site : Site) (fail : Fin 6) (s : State), s.returning site = true →
    (s.vt < s.backSince site + 1000000 → exec (.readmission site fail) s = .next s) ∧
    (s.backSince site + 1000000 ≤ s.vt → site.val < 28 ∨ fail.val = 0 →
      ∃ t, exec (.readmission site fail) s = .next t ∧ t.resetState site = 4 ∧ (t.gw site).silent = false ∧
        (t.gw site).stops = [] ∧ t.mem = s.mem ∧
        ∀ j, j < 32 → j ≠ site.val → s.working j = true → s.deaf j = false →
          t.fencedAt j site = false ∧ t.fencedAt site j = false) ∧
    (s.backSince site + 1000000 ≤ s.vt → 28 ≤ site.val → fail.val ≠ 0 →
      ∃ t, exec (.readmission site fail) s = .next t ∧ t.mem = s.mem ∧ t.resetState site = 6 ∧ site.val ∉ t.lit ∧
        t.populated site = false ∧
        t.getF (Reg.SEC_GUEST (site - 28)) Fld.SEC_GUEST_STATE = 3 ∧
        t.getF (Reg.SEC_GUEST (site - 28)) Fld.SEC_GUEST_STEP = fail)) ∧
  (∀ (site : Site) (s : State), s.returning site = true →
    s.backSince site + (if s.fieldState (homeField site) = 3 then 45000000 else readmitBound site (s.resetDomain site)) < s.vt →
    ∃ t, exec (.readmissionTimeout site) s = .next t ∧ t.resetState site = 6 ∧ t.siteRetired site = true)

/-! ### Clocks (R349 to R370) -/

/-- R349, R354, R357, R364, R366: a target of a requester that may begins a change that is ready 20 µs later, or
60 µs later where the rail must rise (without a rise the 40 µs of step 2 are the
model's reading, log 46), and the region's
stop then puts it in force; a detector's request is held at its largest, discarded in a stop, and lengthens the first period
outside the lockout, which it begins anew; the servo stays within its limits; a locked package without links for 1 ms goes to
holdover; REFCLK's loss is reported, and after 1 ms stops every region and silences every live gateway. -/
def Obligations.Clocks : Prop :=
  (∀ (r : Requester) (region : Fin 368) (e : Fin 16) (s : State), s.regionHere region = true →
    let may := r = .mc ∨ ∃ h, r = .host h ∧ s.hostCtx h = 0
    (¬may → exec (.regionTarget r region e) s = .next s) ∧
    (may → ∃ t, exec (.regionTarget r region e) s = .next t ∧
      t.getF (Reg.CLK_REGION_CTRL region) Fld.CLK_REGION_CTRL_TARGET = e ∧
      { t with regs := s.regs, regions := s.regions, vcmp := s.vcmp } = s ∧ regsBut [Reg.CLK_REGION_CTRL region] s t ∧
      ((s.region region).target ≠ none → t.regions = s.regions) ∧
      ((s.region region).target = none → e.val < regionEntries s.rs region →
        (t.region region).target = some e.val ∧ (t.region region).readyAt = s.vt +
          (if region.val < 192 ∧ SMap.get 0 s.vcmp (region.val / 24) < t.railNeed (region.val / 24) then 60000 else 20000)))) ∧
  (∀ (region : Fin 368) (ns : Fin 201) (s : State), (s.region region).stopped = false →
    (∀ e, (s.region region).target = some e → (s.region region).powerDown = 0 → (s.region region).heatDown = 0 →
      s.mayStop region (s.region region).readyAt ns = true →
      ∃ t, exec (.regionStop region ns) s = .next t ∧ (t.region region).entry = e ∧
        { t with regs := s.regs, regions := s.regions, vcmp := s.vcmp, xings := s.xings } = s ∧
        ((s.bellAt (s.regionBell region)).guard = false → t.xings = s.xings) ∧
        regsBut (Reg.CLK_REGION_STATUS region :: s.xings.map fun kv => Reg.CLK_XING (kv.1 / 32) (kv.1 % 32)) s t ∧ (e < 16 → t.entryOf region = e) ∧
        (regionFreq s.rs region e < 64 → t.freqOf region = regionFreq s.rs region e)) ∧
    ((s.region region).target = none → s.entryOf region ≠ (s.region region).demand → s.mayStop region 0 ns = true →
      ∃ t, exec (.regionStop region ns) s = .next t ∧ (t.region region).entry = (s.region region).entry ∧
        { t with regs := s.regs, regions := s.regions, xings := s.xings } = s ∧
        ((s.bellAt (s.regionBell region)).guard = false → t.xings = s.xings) ∧
        regsBut (Reg.CLK_REGION_STATUS region :: s.xings.map fun kv => Reg.CLK_XING (kv.1 / 32) (kv.1 % 32)) s t ∧
        ((s.region region).demand < 16 → t.entryOf region = (s.region region).demand))) ∧
  (∀ (region : Fin 368) (k : Fin 4) (s : State),
    (s.paused region = true → exec (.adaptiveStretch region k) s = .next s) ∧
    (s.paused region = false → s.freqOf region ≠ 0 → ∃ t, exec (.adaptiveStretch region k) s = .next t ∧
      { t with regions := s.regions } = s ∧ (t.region region).heldReq = max (s.region region).heldReq (k + 1) ∧
      (t.region region).periods = (s.region region).periods ∧
      ((t.region region).lockout = 0 → 160 ≤ (t.region region).phase → s.called region = false →
        let u := t.periodsPass region 1
        (u.region region).periods = (s.region region).periods + 1 ∧ (u.region region).lockout = 3 ∧
        (u.region region).heldReq = 0 ∧
        (u.region region).eighths = (s.region region).eighths + max (s.region region).heldReq (k + 1) ∧
        u.getF (Reg.CLK_REGION_STRETCH region) Fld.CLK_REGION_STRETCH_COUNT = min Fld.CLK_REGION_STRETCH_COUNT.max
          (s.getF (Reg.CLK_REGION_STRETCH region) Fld.CLK_REGION_STRETCH_COUNT + 1)))) ∧
  (∀ s : State, s.vcState ≠ 0 → s.vc.waits = false → s.vc.servoAt + 10000 ≤ s.vt →
    ∃ t, exec .servoUpdate s = .next t ∧ t.vc.servoAt = s.vt ∧ t.mem = s.mem ∧
      (-servoLimit ≤ s.rateServo → s.rateServo ≤ servoLimit → -servoLimit ≤ t.rateServo ∧ t.rateServo ≤ servoLimit) ∧
      ∀ x, (t.linkAt x).errs = [] ∨ 68 ≤ x) ∧
  (∀ s : State, s.vcLocked = true → s.vc.linkAt + 1000000 ≤ s.vt → ∃ t, exec .clockHoldover s = .next t ∧
    t.vcState = 4 ∧ t.rateServo = 0 ∧ logged t mcSite 0x0A04 [] ∧ t.mem = s.mem) ∧
  (∀ s : State, s.vc.tempAt + 1000000 ≤ s.vt → ∃ t, exec .temperatureCorrection s = .next t ∧ t.vc.tempAt = s.vt ∧
    { t with regs := s.regs, rateTemp := s.rateTemp, vc := s.vc } = s ∧ regsBut [Reg.CLK_VC_RATE] s t) ∧
  (∀ s : State, (s.vc.refLost = none → ∃ t, exec .refclkLoss s = .next t ∧ t.vc.refLost = some (s.vt - 1000) ∧
      logged t mcSite 0x0A01 [] ∧ t.mem = s.mem) ∧
    (∀ since, s.vc.refLost = some since → since + 1000000 ≤ s.vt → ∃ t, exec .refclkTimeout s = .next t ∧
      (∀ r, r < 368 → s.regionHere r = true → (t.region r).stopped = true) ∧
      (∀ i, i < 32 → s.live i = true → (t.gw i).silent = true) ∧ t.mem = s.mem) ∧
    ∃ t, exec .refclkReturn s = .next t ∧ t.vc.refLost = none ∧ { t with vc := s.vc } = s)

/-! ### Power and safelight (R393 to R415) -/

/-- R394, R397, R400, R402, R405, R411: low supply and a hold-up fault are reported; a loss of supply writes a fixing
record with its reason, time and the newest events and keeps what MRAM keeps; samples are shown; a comb at 85 °C
trips; a tripped part that has been cool for 1 s is reset or its field released. -/
def Obligations.PowerAndHeat : Prop :=
  (∀ s : State, s.power.on = false → s.power.inReset = true → ∃ t, exec .pwrFailN s = .next t ∧ fixedFor s t 2) ∧
  (∀ s : State, s.power.on = true →
    (∃ t, exec .supplyLow s = .next t ∧ t.getF Reg.PWR_STATUS Fld.PWR_STATUS_SUPPLY_LOW = 1 ∧
      logged t mcSite 0x0B01 [] ∧ t.mem = s.mem) ∧
    (∃ t, exec .holdupFault s = .next t ∧ t.getF Reg.PWR_STATUS Fld.PWR_STATUS_VHOLD_OK = 0 ∧
      logged t mcSite 0x0B02 [] ∧ t.mem = s.mem) ∧
    (∀ high, ∃ t, exec (.fixing high) s = .next t ∧ fixedFor s t (if high then 3 else 1)) ∧
    ∃ t, exec .pwrFailN s = .next t ∧ fixedFor s t 2) ∧
  (∀ (volts amps : BitVec 16) (stop : Fin 251) (s : State), s.power.on = true → s.power.sampleAt + 100000 ≤ s.vt →
    ∃ t, exec (.powerSample volts amps stop) s = .next t ∧ t.power.sampleAt = s.vt ∧ t.mem = s.mem ∧
      t.power.samples = ((volts.toNat * amps.toNat) :: s.power.samples).take 10000 ∧
      t.getF Reg.PWR_INPUT Fld.PWR_INPUT_VOLTS = volts.toNat ∧ t.getF Reg.PWR_INPUT Fld.PWR_INPUT_AMPS = amps.toNat ∧
      (4400 ≤ volts.toNat → t.getF Reg.PWR_STATUS Fld.PWR_STATUS_SUPPLY_LOW = 0)) ∧
  (∀ (stop : Fin 251) (s : State), s.power.on = true →
    (∀ (loc : Fin 44) (k : Fin 88) (a b : Option Int), ∃ t, exec (.thermalSample (.pair loc k a b) stop) s = .next t ∧
      let last := SMap.get 0 s.pairAt (heatPair loc k)
      (2 * k.val + 1 < sensorCount loc → last = 0 ∨ last + (if s.samplesFast loc then 50000 else 1000000) ≤ s.vt + 1 →
        SMap.get 0 t.pairAt (heatPair loc k) = s.vt + 1 ∧
        ∀ x ∈ [(2 * k.val, a), (2 * k.val + 1, b)], s.sensorOut loc x.1 = false →
          (∀ v, x.2 = some v → -160 ≤ v → v ≤ 600 → t.getF (sensorReg loc x.1) Fld.THM_SENSOR_VALID = 1 ∧
            t.getF (sensorReg loc x.1) Fld.THM_SENSOR_TEMP = twosN 12 v) ∧
          (x.2 = none → t.getF (sensorReg loc x.1) Fld.THM_SENSOR_VALID = 0))) ∧
    (∀ (b : Bridge) (v : Int), ∃ t, exec (.thermalSample (.hbm b v) stop) s = .next t ∧
      t.getF (Reg.MEM_HBM_STATUS (bridgeSite b)) Fld.MEM_HBM_STATUS_TEMP = twosN 8 v) ∧
    (∀ (site : Site) (c : Fin 7) (v : Int), ∃ t, exec (.thermalSample (.comb site c v) stop) s = .next t ∧
      (v < 340 → t = s) ∧
      (340 ≤ v → s.combState site c = 0 ∨ s.combState site c = 2 →
        t.getF Reg.THM_TRIP_CNT Fld.THM_TRIP_CNT_COUNT = min Fld.THM_TRIP_CNT_COUNT.max
          (s.getF Reg.THM_TRIP_CNT Fld.THM_TRIP_CNT_COUNT + 1)))) ∧
  (∀ (loc : Fin 44) (s : State) (x : TripSt) (since : Nat), s.tripped.find? (fun t => decide (t.loc = loc.val)) = some x →
    x.cool = some since → since + 1000000000 ≤ s.vt →
    (loc.val < 32 → s.siteRetired loc = false → ∃ t, exec (.tripRelease loc) s = .next t ∧ t.isTripped loc = false ∧
      t.resetDomain loc = 1 ∧ (t.gw loc).silent = true) ∧
    (32 ≤ loc.val → (∀ i ∈ homeSites (loc - 32), s.siteRetired i = false) →
      s.fieldState (loc - 32) = 1 ∨ s.fieldState (loc - 32) = 2 → ∃ t, exec (.tripRelease loc) s = .next t ∧
        t.isTripped loc = false ∧ t.fieldState (loc - 32) = 3 ∧ t.mem = s.mem))

/-- R406 to R409: a request for safelight is kept until the domain holds; then, at a period boundary, the module
begins to enter it, and once the entry has ended it has lost its core stores (the entry's 10 ms are the latest moment
of R406, log 20); a wake during the entry waits for its end; only a wake that is permitted leaves safelight, and 40 ms
later every site that has returned works again. -/
def Obligations.Safelight : Prop :=
  (∀ (r : Requester) (s : State), (s.trusted r = false → exec (.safelight r) s = .next s ∧ exec (.pwrWake r) s = .next s) ∧
    (s.asleep = true → exec (.safelight r) s = .next s) ∧
    (s.trusted r = true → s.asleep = false → ∃ t, exec (.safelight r) s = .next t ∧ t.power.want = true ∧
      { t with power := s.power } = s)) ∧
  (∀ s : State, s.power.want = true → s.pwrState = 1 → s.domainHolds = true → s.atPeriod = true → s.quiet = true →
    ∃ t, exec .safelightEntry s = .next t ∧ t.pwrState = 2 ∧ t.power.want = false ∧ t.power.enterAt = some s.vt ∧
      t.power.wakeNext = false ∧ t.brackets = [] ∧ t.mem = s.mem ∧
      (∀ x, x < 68 → s.linkState x = 2 → (t.linkAt x).parked = true ∧ (t.linkAt x).sendsOut = true) ∧
      ∀ b : Bridge, s.getF (Reg.MEM_HBM_STATUS (bridgeSite b)) Fld.MEM_HBM_STATUS_STATE = 2 →
        t.getF (Reg.MEM_HBM_STATUS (bridgeSite b)) Fld.MEM_HBM_STATUS_STATE = 3) ∧
  (∀ (s : State) (t0 : Nat), s.power.enterAt = some t0 → (s.vt < t0 + 10000000 → s.sleepTick = s) ∧
    (t0 + 10000000 ≤ s.vt → let t := s.sleepTick
      t.pwrState = (if s.power.wakeNext = true then 4 else 3) ∧ t.power.enterAt = none ∧ t.cores = [] ∧ t.lit = [] ∧
      (∀ k : Stack, ∀ c off, c < 96 → off < 0x100000 → t.byteAt k (coreStoreBase c + off) = 0) ∧
      (∀ b : Bridge, ∀ off, off < hbmSize → t.byteAt (bridgeSite b) off = s.byteAt (bridgeSite b) off) ∧
      ∀ i, i < 32 → (t.gw i).silent = true)) ∧
  (∀ (r : Requester) (code : BitVec 64) (sec : Bool) (s : State),
    let good := code ≠ 0 ∧ code = s.reg Reg.PWR_WAKE_CODE ∧ (s.txSecured = true → sec = true)
    (s.pwrState ≠ 2 → s.pwrState ≠ 3 →
      exec .wakeN s = .next s ∧ exec (.pwrWake r) s = .next s ∧ exec (.wakeFrame code sec) s = .next s) ∧
    (s.pwrState = 2 → let t := { s with power := { s.power with wakeNext := true } }
      exec .wakeN s = .next t ∧ (s.trusted r = true → exec (.pwrWake r) s = .next t) ∧
      (good → exec (.wakeFrame code sec) s = .next t)) ∧
    (¬good → exec (.wakeFrame code sec) s = .next s) ∧
    (s.pwrState = 3 → (∃ t, exec .wakeN s = .next t ∧ waking s t) ∧
      (s.trusted r = true → ∃ t, exec (.pwrWake r) s = .next t ∧ waking s t) ∧
      (good → ∃ t, exec (.wakeFrame code sec) s = .next t ∧ waking s t))) ∧
  (∀ (lost : List Site) (awake : List (Fin 68)) (ok : Bool) (s : State), s.pwrState = 4 →
    s.power.wakeAt + 40000000 ≤ s.vt → ∃ t, exec (.wakeComplete lost awake ok) s = .next t ∧ t.pwrState = 1 ∧
      t.lms = s.lms.restart ∧ ∀ i : Site, s.live i = true → i ∉ lost → s.isTripped i = false →
        s.isTripped (32 + homeField i) = false → (t.gw i).silent = false ∧ i.val ∈ t.lit)

/-! ### Granary and security (R416 to R454) -/

/-- R420 to R425, R430, R456: a core named for retirement waits for a hold, in which it is retired and one of the
granary takes its place; a host core is drawn for a retired one; a bond column that fails its test is steered around
and reported; a dissenting copy is recorded, and a second one retires the site; each of the two MRAM copies of a
changed map is written once; an event goes to the named ring or is counted lost. -/
def Obligations.GranaryDraws : Prop :=
  (∀ (r : Requester) (s : State), (s.trusted r = false → exec (.retireCore r) s = .next s ∧ exec (.drawHost r) s = .next s) ∧
    let k := s.getF Reg.GRN_TARGET Fld.GRN_TARGET_SITE
    let c := s.getF Reg.GRN_TARGET Fld.GRN_TARGET_CORE
    (s.trusted r = true → c < 96 → s.domainHolds = false → 96 * k + c ∉ s.retireQ →
      ∃ t, exec (.retireCore r) s = .next t ∧ t.retireQ = s.retireQ ++ [96 * k + c] ∧ { t with retireQ := s.retireQ } = s) ∧
    (s.trusted r = true → c < 96 → s.domainHolds = true → ∃ t, exec (.retireCore r) s = .next t ∧
      t.mem = s.mem ∧ t.cores = s.cores ∧ t.grn = s.grn ∧
      (s.nextRole 1 k c = 0 ∨ s.nextRole 1 k c = 1 → t.nextRole 1 k c = 2) ∧
      (s.nextRole 1 k c = 0 → (∃ d, d < 96 ∧ s.nextRole 1 k d = 1) → s.coreOrder = 1 →
        ∃ d, d < 96 ∧ s.nextRole 1 k d = 1 ∧ t.nextRole 1 k d = 0)) ∧
    (s.trusted r = true → s.nextRole 2 k (c % 8) = 2 → (∃ j, j < 8 ∧ s.nextRole 2 k j = 1) →
      ∃ t j, exec (.drawHost r) s = .next t ∧ j < 8 ∧ s.nextRole 2 k j = 1 ∧ t.nextRole 2 k j = 0 ∧
        t.hostCtx (8 * k + j) = s.hostCtx (8 * k + c % 8) ∧ t.mem = s.mem)) ∧
  (∀ (k : Stack) (u : Fin 80) (col : Fin 36) (sig : Fin 64) (s : State), 4 ≤ s.wearGet 2 (4096 * k + 36 * u + col) →
    s.holding k = true ∨ ((s.bellAt k).guard = true ∧ 250 ≤ guardNs s.rs) →
    exec (.bondPatternTest k u col none) s = .next s ∧
    ∃ t, exec (.bondPatternTest k u col (some sig)) s = .next t ∧ t.mem = s.mem ∧
      (s.halfWidth k u = false → s.grnHas 11 k (36 * u + col) = false → t.grnGet 11 k (36 * u + col) 0 = sig ∧
        t.halfWidth k u = false ∧ (s.log.length ≤ 8000 → logged t k 0x0904 [u, col, sig])) ∧
      (s.halfWidth k u = false → s.grnHas 11 k (36 * u + col) = true → t.halfWidth k u = true) ∧
      (s.halfWidth k u = true → SMap.get 0 s.bondHalf (80 * k + u) = col / 18 → t = s) ∧
      (s.halfWidth k u = true → SMap.get 0 s.bondHalf (80 * k + u) ≠ col / 18 → t.siteRetired k = true)) ∧
  (∀ (site : Site) (signal : BitVec 16) (copy : Fin 3) (base : Bool) (s : State),
    s.siteRetired site = true → exec (.tripleDisagree site signal copy base) s = .next s) ∧
  (∀ (site : Site) (signal : BitVec 16) (copy : Fin 3) (base : Bool) (s : State), s.siteRetired site = false →
    (s.grnHas 12 site signal.toNat = false → ∃ t, exec (.tripleDisagree site signal copy base) s = .next t ∧
      t.grnGet 12 site signal.toNat 3 = copy ∧ t.mem = s.mem ∧ t.siteRetired site = false) ∧
    (s.grnHas 12 site signal.toNat = true → s.grnGet 12 site signal.toNat 3 = copy →
      exec (.tripleDisagree site signal copy base) s = .next s) ∧
    (s.grnHas 12 site signal.toNat = true → s.grnGet 12 site signal.toNat 3 ≠ copy →
      ∃ t, exec (.tripleDisagree site signal copy base) s = .next t ∧ t.siteRetired site = true)) ∧
  (∀ s : State, (s.mapLag = 0 → exec .mapWrite s = .next s) ∧
    (2 ≤ s.mapLag → ∃ t, exec .mapWrite s = .next t ∧ t.mapLag = 1 ∧ t.reg Reg.GRN_MAP_SEQ = s.reg Reg.GRN_MAP_SEQ + 1 ∧
      { t with mapLag := s.mapLag, regs := s.regs } = s ∧ regsBut [Reg.GRN_MAP_SEQ] s t) ∧
    (s.mapLag = 1 → ∃ t, exec .mapWrite s = .next t ∧ t.mapLag = 0 ∧ t.getF Reg.GRN_STATUS Fld.GRN_STATUS_PENDING = 0 ∧
      { t with mapLag := s.mapLag, regs := s.regs } = s ∧ regsBut [Reg.GRN_STATUS] s t)) ∧
  (∀ (s : State) (e : EventRec), s.log[max s.logRing s.logBase - s.logBase]? = some e →
    (s.eventRing = none → ∃ t, exec .eventRingWrite s = .next t ∧ t.logRing = max s.logRing s.logBase + 1 ∧
      { t with logRing := s.logRing } = s) ∧
    (∀ q, s.eventRing = some q → (ringDepth q - 1 ≤ (s.ring (q.u16 8)).fill →
        ∃ t, exec .eventRingWrite s = .next t ∧ t.rings = s.rings ∧ t.mem = s.mem ∧
          t.getF Reg.EVT_STATUS Fld.EVT_STATUS_RING_LOST = min Fld.EVT_STATUS_RING_LOST.max
            (s.getF Reg.EVT_STATUS Fld.EVT_STATUS_RING_LOST + 1)) ∧
      ((s.ring (q.u16 8)).fill < ringDepth q - 1 → ∃ t, exec .eventRingWrite s = .next t ∧
        (t.ring (q.u16 8)).pi = ((s.ring (q.u16 8)).pi + 1) % 2 ^ 32)))

/-- R443, R444, R447: the operator key changes by a record that names the sequence number and, where a key is
installed, is signed by it; a refused record changes no key. A report is asked for at an aligned address that the host
core's context may write, signed by a fresh leaf and written there, unless its site is fenced (refused for reason 1: the
model's choice, log 19); a spare tree is signed by the next top leaf. -/
def Obligations.KeysAndReports : Prop :=
  (∀ (r : Requester) (addr : BitVec 48) (s : State), (isOperator r = false → exec (.opkeyChange r addr) s = .next s) ∧
    (isOperator r = true → (∀ key sig, s.keyRecord addr = some (some key, sig) → s.opkey = none →
        ∃ t, exec (.opkeyChange r addr) s = .next t ∧ t.opkey = some key ∧ t.opkeySeq = s.opkeySeq + 1 ∧
          { t with opkey := s.opkey, opkeySeq := s.opkeySeq } = s) ∧
      (∀ sig, s.keyRecord addr = some (none, sig) → s.opkey = none → exec (.opkeyChange r addr) s = .next s) ∧
      (∀ key sig k, s.keyRecord addr = some (key, sig) → s.opkey = some k →
        ∃ t, exec (.opkeyChange r addr) s = .next t ∧
          (if Config.hssVerify k (keyMessage key s.opkeySeq) sig = true then
            t.opkey = key ∧ t.opkeySeq = s.opkeySeq + 1 ∧ t.regs = s.regs
          else t.opkey = s.opkey ∧ t.opkeySeq = s.opkeySeq ∧
            t.getF Reg.SEC_STATUS Fld.SEC_STATUS_OPKEY_REFUSED = 1)) ∧
      (s.keyRecord addr = none → ∃ t, exec (.opkeyChange r addr) s = .next t ∧ { t with regs := s.regs } = s ∧
        t.getF Reg.SEC_STATUS Fld.SEC_STATUS_OPKEY_REFUSED = 1))) ∧
  (∀ (h : Host64) (ctx : BitVec 8) (addr : BitVec 48) (s : State), s.hostRuns h = true → s.attest = none →
    let fits := localOff addr % 64 = 0 ∧ s.ctxReads (s.hostCtx h) (localSite addr) (localOff addr) reportLen = true ∧
      s.ctxWrites (s.hostCtx h) (localSite addr) (localOff addr) reportLen = true
    let there := s.live (localSite addr)
    (fits → there = false → ∃ t, exec (.secAttest h ctx addr) s = .next t ∧ t.attest = none ∧ t.mem = s.mem ∧
      t.lms = s.lms ∧ t.getF Reg.SEC_ATTEST_STATUS Fld.SEC_ATTEST_STATUS_STATE = 3 ∧
      t.getF Reg.SEC_ATTEST_STATUS Fld.SEC_ATTEST_STATUS_REASON = 1) ∧
    (¬fits ∨ there = true ∧ s.lms.exhausted = true → ∃ t, exec (.secAttest h ctx addr) s = .next t ∧ { t with regs := s.regs } = s ∧
      regsBut [Reg.SEC_ATTEST_STATUS] s t ∧ t.getF Reg.SEC_ATTEST_STATUS Fld.SEC_ATTEST_STATUS_STATE = 3 ∧
      (¬fits → t.getF Reg.SEC_ATTEST_STATUS Fld.SEC_ATTEST_STATUS_REASON = 1) ∧
      (fits → t.getF Reg.SEC_ATTEST_STATUS Fld.SEC_ATTEST_STATUS_REASON = 2)) ∧
    (fits → there = true → s.lms.exhausted = false →
      ∃ t q, exec (.secAttest h ctx addr) s = .next t ∧ t.attest = some q ∧ q.addr = addr.toNat ∧
        t.getF Reg.SEC_ATTEST_STATUS Fld.SEC_ATTEST_STATUS_STATE = 1 ∧
        { t with regs := s.regs, attest := s.attest } = s ∧ regsBut [Reg.SEC_ATTEST_STATUS] s t)) ∧
  (∀ (s : State) (q : AttestReq), s.attest = some q → s.lms.exhausted = true → ∃ t, exec .attestDone s = .next t ∧
    t.attest = none ∧ t.getF Reg.SEC_ATTEST_STATUS Fld.SEC_ATTEST_STATUS_STATE = 3 ∧
    t.getF Reg.SEC_ATTEST_STATUS Fld.SEC_ATTEST_STATUS_REASON = 2 ∧ { t with regs := s.regs, attest := s.attest } = s) ∧
  (∀ (s : State) (q : AttestReq), s.attest = some q → s.lms.exhausted = false → s.lms.ready = true →
    let site := q.addr / 2 ^ 43
    let a := q.addr % 2 ^ 43
    let n := q.body.length + sigLen
    ∃ t, exec .attestDone s = .next t ∧ t.attest = none ∧ t.lms = s.lms.take.2 ∧
      (s.live site = true → s.fencedAt mcPort site = false → fillAt site a n = none →
        t.getF Reg.SEC_ATTEST_STATUS Fld.SEC_ATTEST_STATUS_STATE = 2 ∧
        t.readMem site a n = q.body ++ fitBytes sigLen (Config.hssSign s.lms.take.1 q.body) ∧
        (a + n ≤ 2 ^ 43 → memBut site a n s t) ∧ (siteKind site ≠ .bridge ∨ hbmSize ≤ a →
          { t with regs := s.regs, attest := s.attest, mem := s.mem, lms := s.lms } = s)) ∧
      (s.live site = false ∨ s.fencedAt mcPort site = true → t.mem = s.mem ∧
        t.getF Reg.SEC_ATTEST_STATUS Fld.SEC_ATTEST_STATUS_STATE = 3 ∧
        t.getF Reg.SEC_ATTEST_STATUS Fld.SEC_ATTEST_STATUS_REASON = 1)) ∧
  (∀ s : State, s.lms.spare = false → 16384 ≤ s.lms.lower → s.lms.top < 1024 → ∃ t, exec .lowerTreeGenerated s = .next t ∧
    t.lms.spare = true ∧ t.lms.top = s.lms.top + 1 ∧ t.lms.lower = s.lms.lower ∧ { t with lms := s.lms } = s)

/-! ### Management and debug (R455 to R468) -/

/-- R460 to R462: every command is answered on the way it came; while an operator key is installed one of code 0x06
and above needs a proved session; each has the effect and the bytes that R460 gives it. -/
def Obligations.OhmuneCommands : Prop :=
  (∀ (via : Via) (seq n : BitVec 8) (a : BitVec 40) (ws : List (BitVec 32)) (c : CoreRef) (g : BitVec 64)
      (bs : List Byte) (flaws : Flaws) (run : StartRun) (s : State),
    hears s via → s.opkey ≠ none → s.proved (asker via) = false →
      (∃ t, exec (.ctrlRead via seq a n) s = .next t ∧ turnedAway s t via 0x10 seq.toNat) ∧
      (∃ t, exec (.ctrlWrite via seq a ws) s = .next t ∧ turnedAway s t via 0x11 seq.toNat) ∧
      (∃ t, exec (.eventRead via seq n) s = .next t ∧ turnedAway s t via 0x12 seq.toNat) ∧
      (∃ t, exec (.halt via seq c) s = .next t ∧ turnedAway s t via 0x20 seq.toNat) ∧
      (∃ t, exec (.coreResume via seq c) s = .next t ∧ turnedAway s t via 0x20 seq.toNat) ∧
      (∃ t, exec (.memRead via seq g n flaws) s = .next t ∧ turnedAway s t via 0x21 seq.toNat) ∧
      (∃ t, exec (.memWrite via seq g bs) s = .next t ∧ turnedAway s t via 0x21 seq.toNat) ∧
      (∃ t, exec (.moduleReset via seq run) s = .next t ∧ turnedAway s t via 0x30 seq.toNat)) ∧
  (∀ (via : Via) (seq chunk ctx : BitVec 8) (nonce : BitVec 256) (sig : List Byte) (s : State), hears s via →
    (∃ t, exec (.getIdentity via seq chunk) s = .next t ∧ t.mem = s.mem ∧
      replied t via (ohmune 1 seq.toNat (if chunkOf Config.identity chunk.toNat = [] then 1 else 0)
        (chunkOf Config.identity chunk.toNat))) ∧
    (∃ t, exec (.attest via seq ctx nonce chunk) s = .next t ∧ t.mem = s.mem ∧
      (reportLen ≤ 56 * chunk.toNat → replied t via (ohmune 2 seq.toNat 1 [])) ∧
      (56 * chunk.toNat < reportLen → s.lms.exhausted = false → s.lms.ready = true →
        ∃ report, (t.session (asker via)).report = some (ctx.toNat, nonce.toNat, report) ∧
          replied t via (ohmune 2 seq.toNat 0 (chunkOf report chunk.toNat)))) ∧
    (∃ t, exec (.wake via seq) s = .next t ∧ replied t via (ohmune 3 seq.toNat 0 []) ∧
      (s.pwrState = 3 → t.pwrState = 4)) ∧
    (∃ t, exec (.sessionOpen via seq) s = .next t ∧ (t.session (asker via)).nonce = some (Config.random s.free) ∧
      replied t via (ohmune 4 seq.toNat 0 (nonceBytes (Config.random s.free))) ∧ t.mem = s.mem) ∧
    (∃ t, exec (.sessionProve via seq sig) s = .next t ∧ (t.session (asker via)).nonce = none ∧ t.mem = s.mem ∧
      (∀ key n, s.opkey = some key → (s.session (asker via)).nonce = some n →
        (t.session (asker via)).proved = (if Config.hssVerify key (nonceBytes n) sig = true then
          some (key, s.vt + sessionNs) else (s.session (asker via)).proved) ∧
        replied t via (ohmune 5 seq.toNat (if Config.hssVerify key (nonceBytes n) sig = true then 0 else 2) [])) ∧
      (s.opkey = none ∨ (s.session (asker via)).nonce = none →
        (t.session (asker via)).proved = (s.session (asker via)).proved ∧ replied t via (ohmune 5 seq.toNat 2 [])))) ∧
  (∀ (r : Requester) (s : State) (key : List Byte) (until_ : Nat), (s.session r).proved = some (key, until_) →
    until_ ≤ s.vt → ∃ t, exec (.sessionExpiry r) s = .next t ∧ (t.session r).proved = none ∧ { t with mgmt := s.mgmt } = s) ∧
  (∀ (via : Via) (seq : BitVec 8) (s : State), hears s via → s.opkey = none ∨ s.proved (asker via) = true →
    (∀ (a : BitVec 40) (n : BitVec 8), ∃ t, exec (.ctrlRead via seq a n) s = .next t ∧ t.cores = s.cores ∧
      ((∀ i, i < n.toNat → s.archReg (a.toNat + 4 * i) = none) → t.mem = s.mem) ∧
      (n = 0 ∨ 14 < n.toNat → replied t via (ohmune 0x10 seq.toNat 1 [])) ∧
      (n ≠ 0 → n.toNat ≤ 14 → ∃ bs, bs.length = 4 * n.toNat ∧ replied t via (ohmune 0x10 seq.toNat 0 bs) ∧
        ∀ h : RegHit, n = 1 → via = .bus → s.hit a.toNat = some h → h.row.wide = false → s.archReg a.toNat = none →
          bs = leBytes 4 (s.view (asker via) h &&& lowMask).toNat)) ∧
    (∀ (a : BitVec 40) (ws : List (BitVec 32)), ∃ t, exec (.ctrlWrite via seq a ws) s = .next t ∧
      (ws = [] ∨ 14 < ws.length → replied t via (ohmune 0x11 seq.toNat 1 []) ∧ t.mem = s.mem ∧ t.cores = s.cores) ∧
      (ws ≠ [] → ws.length ≤ 14 → via = .bus → replied t via (ohmune 0x11 seq.toNat 0 []) ∧
        ∀ (h : RegHit) (v : BitVec 32), ws = [v] → s.hit a.toNat = some h → h.row.wide = false → s.archReg a.toNat = none →
          s.mayWrite (asker via) h = true → actsOnWrite h.row.name = false →
          t.reg h.addr = storeBits h.row (s.reg h.addr) (v.zeroExtend 64) lowMask)) ∧
    (∀ n : BitVec 8, ∃ t, exec (.eventRead via seq n) s = .next t ∧ t.mem = s.mem ∧
      (n ≠ 1 → replied t via (ohmune 0x12 seq.toNat 1 []) ∧ t.logRead = s.logRead) ∧
      (n = 1 → (∀ e, s.log[max s.logRead s.logBase - s.logBase]? = some e →
          replied t via (ohmune 0x12 seq.toNat 0 (eventBytes e)) ∧ t.logRead = max s.logRead s.logBase + 1) ∧
        (s.log[max s.logRead s.logBase - s.logBase]? = none →
          replied t via (ohmune 0x12 seq.toNat 0 []) ∧ t.logRead = s.logRead))) ∧
    (∀ c : CoreRef, (∃ t, exec (.halt via seq c) s = .next t ∧
        (s.coreThere c = false → replied t via (ohmune 0x20 seq.toNat 3 []) ∧ t.cores = s.cores) ∧
        (s.coreThere c = true → replied t via (ohmune 0x20 seq.toNat 0 []) ∧ t.coreHalted c = true)) ∧
      (∃ t, exec (.coreResume via seq c) s = .next t ∧
        (s.coreThere c = false ∨ s.coreHalted c = false →
          replied t via (ohmune 0x20 seq.toNat 3 []) ∧ t.cores = s.cores) ∧
        (s.coreThere c = true → s.coreHalted c = true →
          replied t via (ohmune 0x20 seq.toNat 0 []) ∧ t.coreHalted c = false))) ∧
    (∀ (g : BitVec 64) (n : BitVec 8) (flaws : Flaws), ∃ t, exec (.memRead via seq g n flaws) s = .next t ∧
      (s.ctxsOf (gSite g.toNat) (gOff g.toNat) n.toNat = [] → t.mem = s.mem) ∧
      (n = 0 ∨ 48 < n.toNat → replied t via (ohmune 0x21 seq.toNat 1 [])) ∧
      (flaws = [] → mcReaches s g.toNat n.toNat true false →
        replied t via (ohmune 0x21 seq.toNat 0 (s.readMem mcPort (gOff g.toNat) n.toNat)))) ∧
    (∀ (g : BitVec 64) (bs : List Byte), ∃ t, exec (.memWrite via seq g bs) s = .next t ∧
      (bs = [] ∨ 48 < bs.length → replied t via (ohmune 0x21 seq.toNat 1 []) ∧ t.mem = s.mem) ∧
      (mcReaches s g.toNat bs.length false true → replied t via (ohmune 0x21 seq.toNat 0 []) ∧
        t.readMem mcPort (gOff g.toNat) bs.length = bs ∧ memBut mcPort (gOff g.toNat) bs.length s t))) ∧
  (∀ (via : Via) (seq : BitVec 8) (run : StartRun) (s : State), hears s via →
    s.opkey = none ∨ s.proved (asker via) = true → ∃ t, exec (.moduleReset via seq run) s = .next t ∧
    (via = .bus → Output.sideband .sideband (ohmune 0x30 seq.toNat 0 []) ∈ t.out) ∧
    t.power.on = true ∧ (∀ i off, t.byteAt i off = 0) ∧ t.opkey = s.opkey ∧ t.opkeySeq = s.opkeySeq)

/-- R459, R461, R464, R482: the boundary-scan port gives its identity, samples and drives pins, EXTEST only while no
rail above the standby domain is up, and carries commands of the sideband; a firmware image that verifies and whose
version suffices goes to the bank not running, and activating is a module reset; the bus answers identities and
sensors. The formats of the bus answers are the model's choice (log 27). -/
def Obligations.BusAndBoundaryScan : Prop :=
  (∀ (bits load : List Bool) (s : State),
    (∃ t, exec (.bypass bits) s = .next t ∧ t.out = .tap ((false :: bits).take bits.length) :: s.out ∧
      { t with out := s.out } = s) ∧
    (∃ t, exec (.samplePreload bits load) s = .next t ∧ t.out = .tap bits :: s.out ∧ t.bscan = load ∧
      { t with out := s.out, bscan := s.bscan } = s) ∧
    (∃ t, exec (.extest bits load) s = .next t ∧ t.debugUsed = true ∧
      (s.railsUp = true → t.out = s.out ∧ t.bscan = s.bscan) ∧
      (s.railsUp = false → t.out = .tap bits :: .drive s.bscan :: s.out ∧ t.bscan = load) ∧
      { t with out := s.out, bscan := s.bscan, debugUsed := s.debugUsed } = s)) ∧
  (∀ s : State, ∃ t bits, exec .idcode s = .next t ∧ t.out = .tap bits :: s.out ∧ bits.length = 32 ∧
    bits[0]? = some true ∧ { t with out := s.out } = s ∧
    ∀ i, i < 16 → bits[12 + i]? = some (decide (s.getF Reg.CFG_IDENT Fld.CFG_IDENT_ORDER / 2 ^ i % 2 = 1))) ∧
  (∀ (seq : BitVec 8) (s : State),
    let d := { s with debugUsed := true }
    (∀ cmd, ∃ t, exec (.debugAccess seq cmd) s = .next t ∧ ((∀ run, cmd ≠ .moduleReset run) → t.debugUsed = true)) ∧
    (∀ c, exec (.debugAccess seq (.getIdentity c)) s = exec (.getIdentity .bus seq c) d) ∧
    (∀ ctx n c, exec (.debugAccess seq (.attest ctx n c)) s = exec (.attest .bus seq ctx n c) d) ∧
    exec (.debugAccess seq .wake) s = exec (.wake .bus seq) d ∧
    exec (.debugAccess seq .sessionOpen) s = exec (.sessionOpen .bus seq) d ∧
    (∀ sig, exec (.debugAccess seq (.sessionProve sig)) s = exec (.sessionProve .bus seq sig) d) ∧
    (∀ a n, exec (.debugAccess seq (.ctrlRead a n)) s = exec (.ctrlRead .bus seq a n) d) ∧
    (∀ a ws, exec (.debugAccess seq (.ctrlWrite a ws)) s = exec (.ctrlWrite .bus seq a ws) d) ∧
    (∀ n, exec (.debugAccess seq (.eventRead n)) s = exec (.eventRead .bus seq n) d) ∧
    (∀ c, exec (.debugAccess seq (.halt c)) s = exec (.halt .bus seq c) d ∧
      exec (.debugAccess seq (.resume c)) s = exec (.coreResume .bus seq c) d) ∧
    (∀ g n flaws, exec (.debugAccess seq (.memRead g n flaws)) s = exec (.memRead .bus seq g n flaws) d) ∧
    (∀ g bs, exec (.debugAccess seq (.memWrite g bs)) s = exec (.memWrite .bus seq g bs) d) ∧
    (∀ run, exec (.debugAccess seq (.moduleReset run)) s = exec (.moduleReset .bus seq run) d)) ∧
  (∀ (seq chunk : BitVec 8) (s : State), s.mcUp = true → ∃ t, exec (.debugAccess seq (.getIdentity chunk)) s = .next t ∧
    t.debugUsed = true ∧ Output.sideband .sideband (ohmune 1 seq.toNat
      (if chunkOf Config.identity chunk.toNat = [] then 1 else 0) (chunkOf Config.identity chunk.toNat)) ∈ t.out) ∧
  (∀ (comp : Fin 5) (stage : List Byte) (version : BitVec 32) (good : Bool) (s : State) (c : FwComp), s.power.on = true →
    s.firmware[comp.val]? = some c →
    (good = false ∨ version.toNat < c.counter → ∃ t, exec (.firmwareUpdate comp stage version good) s = .next t ∧
      { t with out := s.out } = s ∧ ∃ o, t.out = o :: s.out) ∧
    (good = true → c.counter ≤ version.toNat → ∃ t d, exec (.firmwareUpdate comp stage version good) s = .next t ∧
      t.firmware[comp.val]? = some d ∧ d.second = !c.runs ∧ d.counter = c.counter ∧
      (if c.runs then d.a = some ⟨stage, version.toNat⟩ ∧ d.b = c.b else d.b = some ⟨stage, version.toNat⟩ ∧ d.a = c.a) ∧
      (∀ n, n ≠ comp.val → t.firmware[n]? = s.firmware[n]?) ∧ { t with firmware := s.firmware, out := s.out } = s)) ∧
  (∀ (run : StartRun) (s : State), s.power.on = true → ∃ t, exec (.activateFirmware run) s = .next t ∧ t.power.on = true ∧
    (∀ i off, t.byteAt i off = 0) ∧ t.opkey = s.opkey ∧ .sideband .sideband [0] ∈ t.out) ∧
  (∀ s : State, s.mcUp = true →
    (∀ ask, ∃ t bytes, exec (.pldmDiscovery ask) s = .next t ∧ t.out = .sideband .sideband bytes :: s.out ∧
      { t with tid := s.tid, out := s.out, free := s.free } = s ∧
      (∀ tid, ask = .setTid tid → t.tid = tid.toNat) ∧ ((∀ tid, ask ≠ .setTid tid) → t.tid = s.tid) ∧
      (ask = .getTid → bytes = 0 :: leBytes 1 s.tid) ∧ (ask = .getTypes → bytes = 0 :: leBytes 8 (2 ^ 0 + 2 ^ 2 + 2 ^ 5))) ∧
    (∀ sensor, ∃ t bytes, exec (.pldmMonitoring sensor) s = .next t ∧ t.out = .sideband .sideband bytes :: s.out ∧
      { t with out := s.out, free := s.free } = s ∧
      (sensor = .vin → bytes = 0 :: leBytes 4 (s.getF Reg.PWR_INPUT Fld.PWR_INPUT_VOLTS)) ∧
      (sensor = .power → bytes = 0 :: leBytes 4 (s.getF Reg.PWR_LIMIT Fld.PWR_LIMIT_WATTS)) ∧
      (∀ loc k v, sensor = .pair loc k → s.pairValue loc k = some v → bytes = 0 :: leBytes 4 (twos32 v))) ∧
    (∀ ask, ∃ t bytes, exec (.mctpControl ask) s = .next t ∧ t.out = .sideband .sideband bytes :: s.out ∧
      { t with eid := s.eid, out := s.out, free := s.free } = s ∧
      (∀ e, ask = .setEid e → e ≠ 0 → e ≠ 0xFF → t.eid = e.toNat) ∧
      (ask = .getEid → bytes = [0] ++ leBytes 1 s.eid ++ [0, 0]) ∧
      (ask = .getTypes → bytes = [0, 2, 0x01, 0x7F]))) ∧
  (∀ (sa : BitVec 2) (static : Option (BitVec 7)) (a : BitVec 7) (s : State), s.power.on = true →
    ∃ t, exec (.dynamicAddress sa static a) s = .next t ∧ t.saPins = sa ∧
      { t with dynAddr := s.dynAddr, saPins := s.saPins } = s ∧
      (static = none ∨ (∃ x, static = some x ∧ x.toNat = 0x30 + sa.toNat) → t.dynAddr = some a) ∧
      (∀ x, static = some x → x.toNat ≠ 0x30 + sa.toNat → t.dynAddr = s.dynAddr))

/-- R465 to R468: START begins a job afresh or stops the one that runs, for a requester that may; a compare job that
reads its region to the end shows the check value and stops done or with CHECK_MISMATCH; a chunk goes out with its
check value, and one that comes in with a wrong one stops the job, is reported, and changes no memory. R449: a job of CTX0 is entered in
the ledger of each context whose bytes its region holds, before its first bytes move. -/
def Obligations.CheckValues : Prop :=
  (∀ (r : Requester) (u : Fin 24) (s : State), (s.trusted r = false → exec (.ckvStart r u) s = .next s) ∧
    (s.trusted r = true → ∃ t, exec (.ckvStart r u) s = .next t ∧ t.ckvState u = (if s.ckvState u = 1 then 0 else 1) ∧
      { t with regs := s.regs, ckv := s.ckv, ckvBy := s.ckvBy } = s ∧ regsBut [Reg.CKV_STATUS u] s t ∧
      (s.ckvState u ≠ 1 → t.ckvAt u = (0, (s.ckvPoly u).init) ∧ SMap.get Requester.mc t.ckvBy u = r ∧
        t.getF (Reg.CKV_STATUS u) Fld.CKV_STATUS_PASSES = 0))) ∧
  (∀ (u : Fin 24) (s : State), s.ckvState u = 1 →
    let g := (s.reg (Reg.CKV_ADDR u)).toNat
    let n := (s.reg (Reg.CKV_LEN u)).toNat
    let ctx := s.getF (Reg.CKV_CTRL u) Fld.CKV_CTRL_CTX
    let alone := gPkg g ≠ s.pkg ∨ (u.val < 20 ∧ ctx ≠ 0) ∨ s.ctxsOf (gSite g) (gOff g) n = []
    (s.getF (Reg.CKV_CTRL u) Fld.CKV_CTRL_MODE ≠ 1 → ∀ far flaws, ∃ t, exec (.ckvJobDone u far flaws) s = .next t ∧
      (alone → t.mem = s.mem) ∧
      (gPkg g = s.pkg → ctx = 0 → (s.ckvAt u).1 = 0 → s.getF (Reg.CKV_STATUS u) Fld.CKV_STATUS_PASSES = 0 → 0 < n →
        s.titheOn (ckvSite u) = false → (∀ q ∈ (s.tithe (ckvSite u)).queue, q.cls ≠ 4) → s.ckvFails u g n true false = none →
        ∀ c ∈ s.ctxsOf (gSite g) (gOff g) n, (s.ledger c).1 < (t.ledger c).1) ∧
      let got := if gPkg g = s.pkg then s.readMem (gSite g) (gOff g) n else fitBytes n far
      let v := (s.ckvPoly u).calc got
      (s.ckvAt u = (0, (s.ckvPoly u).init) → 0 < n → s.titheOn (ckvSite u) = false →
        (∀ q ∈ (s.tithe (ckvSite u)).queue, q.cls ≠ 4) → alone →
        (gPkg g = s.pkg → flaws = [] ∧ s.ckvFails u g n true false = none) →
        (t.reg (Reg.CKV_RESULT u)).toNat = v % 2 ^ 64 ∧
        (v = (s.reg (Reg.CKV_EXPECT u)).toNat → s.getF (Reg.CKV_CTRL u) Fld.CKV_CTRL_REPEAT ≠ 1 → t.ckvState u = 2) ∧
        (v = (s.reg (Reg.CKV_EXPECT u)).toNat → s.getF (Reg.CKV_CTRL u) Fld.CKV_CTRL_REPEAT = 1 →
          t.ckvState u = 1 ∧ t.ckvAt u = (0, (s.ckvPoly u).init)) ∧
        (v ≠ (s.reg (Reg.CKV_EXPECT u)).toNat → t.ckvState u = 3 ∧ logged t (if u.val < 20 then ckvSite u else mcSite) 0x0908
          [u, g % 2 ^ 16, g / 2 ^ 16 % 2 ^ 16, g / 2 ^ 32 % 2 ^ 16, g / 2 ^ 48]))) ∧
    (s.getF (Reg.CKV_CTRL u) Fld.CKV_CTRL_MODE ≠ 0 → ∀ (data : Option (List Byte)) far flaws,
      ∃ t, exec (.ckvStreamChunk u data far flaws) s = .next t ∧
      let sel := s.getF (Reg.CKV_CTRL u) Fld.CKV_CTRL_SEL
      let m := min n (1024 * s.getF (Reg.CKV_CTRL u) Fld.CKV_CTRL_CHUNK)
      let here := s.readMem (gSite g) (gOff g) m
      ((s.ckvAt u).1 = 0 →
        (∀ bs, data = some bs →
          let body := fitBytes m bs
          let v := (s.ckvPoly u).calc body
          (bs ≠ body ++ ckvBytes sel v → t.mem = s.mem ∧ t.ckvState u = 3 ∧
            (t.reg (Reg.CKV_RESULT u)).toNat = v % 2 ^ 64) ∧
          (bs = body ++ ckvBytes sel v → gPkg g = s.pkg → alone → s.ckvFails u g m false true = none → fillAt (gSite g) (gOff g) m = none →
            t.readMem (gSite g) (gOff g) m = body ∧ memBut (gSite g) (gOff g) m s t ∧ (t.ckvAt u).1 = m)) ∧
        (data = none → (alone → t.mem = s.mem) ∧ (gPkg g = s.pkg → alone → flaws = [] → s.ckvFails u g m true false = none →
          (t.ckvAt u).1 = m ∧ Output.stream u (here ++ ckvBytes sel ((s.ckvPoly u).calc here)) ∈ t.out)))))

/-! ### Every step -/

/-- Every step answers a next state and takes exactly the front of the queue off it: commands are served first in,
first out, and no command stops the block or puts one into the queue. -/
def Obligations.EveryStepAnswers : Prop :=
  (∀ s : State, ∃ t, step s = .next t ∧ t.pending = s.pending.tail) ∧
  ∀ (i : Instr) (s : State), ∃ t, exec i s = .next t ∧ t.pending = s.pending

/-- Memory keeps its canonical form in every step, whatever command is at the front of the queue, or none. -/
def Obligations.MemoryStaysCanonical : Prop :=
  ∀ s t : State, s.memOk → step s = .next t → t.memOk
end

