-- ==== Sys2Proof/Laws/SMap.lean ====
section
/-!
SUPPORT. The sparse map: what a read gives after each update, and that every update keeps the canonical form.
-/

namespace Sys2Proof.SMap

variable {α : Type}

/-! ### Reads after updates -/

theorem get_put_same (d : α) (m : SMap α) (i : Nat) (v : α) : get d (put i v m) i = v := by
  induction m with
  | nil => simp [put, get]
  | cons kv m ih =>
    obtain ⟨k, w⟩ := kv
    simp only [put]
    split
    · simp [get]
    · split
      · simp [get]
      · next h => simp only [get, if_neg h]; exact ih

theorem get_put_other (d : α) (m : SMap α) {i j : Nat} (v : α) (h : j ≠ i) : get d (put i v m) j = get d m j := by
  induction m with
  | nil => simp [put, get, h]
  | cons kv m ih =>
    obtain ⟨k, w⟩ := kv
    simp only [put]
    split
    · simp [get, h]
    · split
      · next e => subst e; simp [get, h]
      · simp only [get]; split
        · rfl
        · exact ih

theorem get_del_same (d : α) (m : SMap α) (i : Nat) : get d (del i m) i = d := by
  induction m with
  | nil => rfl
  | cons kv m ih =>
    obtain ⟨k, w⟩ := kv
    simp only [del]
    split
    · exact ih
    · next h => simp only [get, if_neg h]; exact ih

theorem get_del_other (d : α) (m : SMap α) {i j : Nat} (h : j ≠ i) : get d (del i m) j = get d m j := by
  induction m with
  | nil => rfl
  | cons kv m ih =>
    obtain ⟨k, w⟩ := kv
    simp only [del]
    split
    · next e => subst e; simp only [get, if_neg h]; exact ih
    · simp only [get]; split
      · rfl
      · exact ih

@[simp] theorem get_set_same [DecidableEq α] (d : α) (m : SMap α) (i : Nat) (v : α) : get d (set d m i v) i = v := by
  unfold set
  split
  · next h => rw [get_del_same, h]
  · exact get_put_same d m i v

theorem get_set_other [DecidableEq α] (d : α) (m : SMap α) {i j : Nat} (v : α) (h : j ≠ i) :
    get d (set d m i v) j = get d m j := by
  unfold set
  split
  · exact get_del_other d m h
  · exact get_put_other d m v h

/-- A read under another default agrees wherever the written key is read. -/
theorem get_set [DecidableEq α] (d : α) (m : SMap α) (i j : Nat) (v : α) :
    get d (set d m i v) j = if j = i then v else get d m j := by
  split
  · next h => rw [h, get_set_same]
  · next h => exact get_set_other d m v h

/-- A read with one default after a write that removes another default's entry: only the written key can differ. -/
theorem get_set_default [DecidableEq α] (d e : α) (m : SMap α) {i j : Nat} (v : α) (h : j ≠ i) :
    get e (set d m i v) j = get e m j := by
  unfold set
  split
  · exact get_del_other e m h
  · exact get_put_other e m v h

/-- After consecutive writes from `i`, key `j` reads the element for it, or what it read before. -/
theorem get_setMany [DecidableEq α] (d : α) (vs : List α) (m : SMap α) (i j : Nat) :
    get d (setMany d m i vs) j = if i ≤ j ∧ j < i + vs.length then vs.getD (j - i) d else get d m j := by
  induction vs generalizing m i with
  | nil =>
    have : ¬(i ≤ j ∧ j < i + ([] : List α).length) := by simp only [List.length_nil]; omega
    rw [if_neg this]; rfl
  | cons v vs ih =>
    simp only [setMany, ih, List.length_cons]
    by_cases h : j = i
    · subst h
      rw [if_neg (by omega), if_pos (by omega), get_set_same, Nat.sub_self]; rfl
    · rw [get_set_other d m v h]
      by_cases h2 : i + 1 ≤ j ∧ j < i + 1 + vs.length
      · have h3 : i ≤ j ∧ j < i + (vs.length + 1) := by omega
        have h4 : j - i = (j - (i + 1)) + 1 := by omega
        rw [if_pos h2, if_pos h3, h4]; rfl
      · have h3 : ¬(i ≤ j ∧ j < i + (vs.length + 1)) := by omega
        rw [if_neg h2, if_neg h3]

/-- A cleared range reads as unlisted, every other key as before. -/
theorem get_clearRange (d : α) (m : SMap α) (lo hi j : Nat) :
    get d (clearRange m lo hi) j = if lo ≤ j ∧ j < hi then d else get d m j := by
  unfold clearRange
  induction m with
  | nil => simp [get]
  | cons kv m ih =>
    obtain ⟨k, w⟩ := kv
    simp only [List.filter_cons]
    by_cases hk : k < lo ∨ hi ≤ k
    · have : (decide (k < lo) || decide (hi ≤ k)) = true := by simpa using hk
      simp only [this, if_true, get, ih]
      by_cases hj : j = k
      · subst hj
        have : ¬(lo ≤ j ∧ j < hi) := by omega
        simp [this]
      · simp [hj]
    · have : (decide (k < lo) || decide (hi ≤ k)) = false := by simpa using hk
      simp only [this, Bool.false_eq_true, if_false, ih, get]
      by_cases hj : j = k
      · subst hj
        have : lo ≤ j ∧ j < hi := by omega
        simp [this]
      · simp [hj]

@[simp] theorem getMany_length (d : α) (m : SMap α) (i n : Nat) : (getMany d m i n).length = n := by
  induction n generalizing i with
  | zero => rfl
  | succ n ih => simp [getMany, ih]

/-- Consecutive reads give each key's value. -/
theorem getMany_getD (d e : α) (m : SMap α) (i n k : Nat) (h : k < n) : (getMany d m i n).getD k e = get d m (i + k) := by
  induction n generalizing i k with
  | zero => omega
  | succ n ih =>
    cases k with
    | zero => rfl
    | succ k =>
      simp only [getMany, List.getD_cons_succ]
      rw [ih (i + 1) k (by omega)]
      congr 1; omega

/-! ### The canonical form -/

theorem above_mono {b c : Nat} (h : c ≤ b) (m : SMap α) (hm : above b m = true) : above c m = true := by
  induction m with
  | nil => rfl
  | cons kv m ih =>
    simp only [above, Bool.and_eq_true, decide_eq_true_eq] at hm ⊢
    exact ⟨by omega, ih hm.2⟩

theorem above_put {b i : Nat} (v : α) (m : SMap α) (hb : b < i) (hm : above b m = true) : above b (put i v m) = true := by
  induction m with
  | nil => simp [put, above, hb]
  | cons kv m ih =>
    obtain ⟨k, w⟩ := kv
    simp only [above, Bool.and_eq_true, decide_eq_true_eq] at hm
    simp only [put]
    split
    · simp [above, hb, hm]
    · split
      · simp [above, hb, hm]
      · simp [above, hm, ih hm.2]

theorem above_del {b i : Nat} (m : SMap α) (hm : above b m = true) : above b (del i m) = true := by
  induction m with
  | nil => rfl
  | cons kv m ih =>
    obtain ⟨k, w⟩ := kv
    simp only [above, Bool.and_eq_true, decide_eq_true_eq] at hm
    simp only [del]
    split
    · exact ih hm.2
    · simp [above, hm, ih hm.2]

theorem above_filter {b : Nat} (p : Nat × α → Bool) (m : SMap α) (hm : above b m = true) : above b (m.filter p) = true := by
  induction m with
  | nil => rfl
  | cons kv m ih =>
    simp only [above, Bool.and_eq_true, decide_eq_true_eq] at hm
    simp only [List.filter_cons]
    split
    · simp [above, hm, ih hm.2]
    · exact ih hm.2

variable [DecidableEq α] {d : Nat → α}

theorem wf_cons {k : Nat} {v : α} {m : SMap α} : wf d ((k, v) :: m) = true ↔ above k m = true ∧ v ≠ d k ∧ wf d m = true := by
  simp [wf, and_assoc]

theorem wf_put {i : Nat} {v : α} {m : SMap α} (hv : v ≠ d i) (hm : wf d m = true) : wf d (put i v m) = true := by
  induction m with
  | nil => simp [put, wf, above, hv]
  | cons kv m ih =>
    obtain ⟨k, w⟩ := kv
    obtain ⟨ha, hw, hm'⟩ := wf_cons.1 hm
    simp only [put]
    split
    · next h =>
      refine wf_cons.2 ⟨?_, hv, hm⟩
      simp [above, h, above_mono (Nat.le_of_lt h) m ha]
    · split
      · next h => subst h; exact wf_cons.2 ⟨ha, hv, hm'⟩
      · exact wf_cons.2 ⟨above_put v m (by omega) ha, hw, ih hm'⟩

theorem wf_del {i : Nat} {m : SMap α} (hm : wf d m = true) : wf d (del i m) = true := by
  induction m with
  | nil => rfl
  | cons kv m ih =>
    obtain ⟨k, w⟩ := kv
    obtain ⟨ha, hw, hm'⟩ := wf_cons.1 hm
    simp only [del]
    split
    · exact ih hm'
    · exact wf_cons.2 ⟨above_del m ha, hw, ih hm'⟩

theorem wf_filter (p : Nat × α → Bool) {m : SMap α} (hm : wf d m = true) : wf d (m.filter p) = true := by
  induction m with
  | nil => rfl
  | cons kv m ih =>
    obtain ⟨k, w⟩ := kv
    obtain ⟨ha, hw, hm'⟩ := wf_cons.1 hm
    simp only [List.filter_cons]
    split
    · exact wf_cons.2 ⟨above_filter p m ha, hw, ih hm'⟩
    · exact ih hm'

theorem wf_set {i : Nat} {v : α} {m : SMap α} (hm : wf d m = true) : wf d (set (d i) m i v) = true := by
  unfold set
  split
  · exact wf_del hm
  · next h => exact wf_put h hm

theorem wf_setMany {e : α} {i : Nat} (vs : List α) {m : SMap α} (hm : wf (fun _ => e) m = true) :
    wf (fun _ => e) (setMany e m i vs) = true := by
  induction vs generalizing m i with
  | nil => exact hm
  | cons v vs ih => exact ih (wf_set (d := fun _ => e) hm)

theorem wf_clearRange {lo hi : Nat} {m : SMap α} (hm : wf d m = true) : wf d (clearRange m lo hi) = true :=
  wf_filter _ hm

omit [DecidableEq α] in
/-- Below the lowest key every read gives the unlisted value. -/
theorem get_of_above {e : α} {b i : Nat} (m : SMap α) (h : above b m = true) (hi : i ≤ b) : get e m i = e := by
  induction m with
  | nil => rfl
  | cons kv m ih =>
    simp only [above, Bool.and_eq_true, decide_eq_true_eq] at h
    have : ¬i = kv.1 := by omega
    simp only [get, if_neg this]
    exact ih h.2

/-- Maps in canonical form that read alike are the same map. -/
theorem ext_of_wf {m n : SMap α} (hm : wf d m = true) (hn : wf d n = true) (h : ∀ i, get (d i) m i = get (d i) n i) :
    m = n := by
  induction m generalizing n with
  | nil =>
    cases n with
    | nil => rfl
    | cons kv n =>
      obtain ⟨ha, hv, -⟩ := wf_cons.1 hn
      have := h kv.1
      simp [get] at this
      exact absurd this.symm hv
  | cons kv m ih =>
    obtain ⟨k, v⟩ := kv
    obtain ⟨ha, hv, hm'⟩ := wf_cons.1 hm
    cases n with
    | nil =>
      have := h k
      simp [get] at this
      exact absurd this hv
    | cons kw n =>
      obtain ⟨l, w⟩ := kw
      obtain ⟨hb, hw, hn'⟩ := wf_cons.1 hn
      rcases Nat.lt_trichotomy k l with hk | hk | hk
      · have := h k
        have hne : ¬k = l := by omega
        simp only [get, if_true, if_neg hne] at this
        rw [get_of_above n hb (by omega)] at this
        exact absurd this hv
      · subst hk
        have e0 := h k
        simp only [get, if_true] at e0
        subst e0
        congr 1
        refine ih hm' hn' fun i => ?_
        by_cases hi : i = k
        · subst hi; rw [get_of_above m ha (Nat.le_refl _), get_of_above n hb (Nat.le_refl _)]
        · have := h i
          simpa only [get, if_neg hi] using this
      · have := h l
        have hne : ¬l = k := by omega
        simp only [get, if_true, if_neg hne] at this
        rw [get_of_above m ha (by omega)] at this
        exact absurd this.symm hw

end Sys2Proof.SMap
end

