-- ==== Sys2Proof/Laws/Frame.lean ====
section
/-!
SUPPORT. Frames: which parts of the state an operation may touch. A set of parts is a number, one bit for each field of
State; `Touches ps s t` says that `t` agrees with `s` in every field outside `ps`, and that memory keeps its canonical
form. Every shared operation has one lemma of this kind in the other files of this folder.
-/

namespace Sys2Proof.Machine

/-! ### The fields, as sets of one -/

namespace Touch

abbrev vt : Nat := 2 ^ 0
abbrev vtFrac : Nat := 2 ^ 1
abbrev rateTemp : Nat := 2 ^ 2
abbrev rateServo : Nat := 2 ^ 3
abbrev free : Nat := 2 ^ 4
abbrev pending : Nat := 2 ^ 5
abbrev out : Nat := 2 ^ 6
abbrev regs : Nat := 2 ^ 7
abbrev rlatch : Nat := 2 ^ 8
abbrev wlatch : Nat := 2 ^ 9
abbrev ringSel : Nat := 2 ^ 10
abbrev wearSel : Nat := 2 ^ 11
abbrev mem : Nat := 2 ^ 12
abbrev grn : Nat := 2 ^ 13
abbrev wear : Nat := 2 ^ 14
abbrev log : Nat := 2 ^ 15
abbrev logBase : Nat := 2 ^ 16
abbrev logRead : Nat := 2 ^ 17
abbrev logRing : Nat := 2 ^ 18
abbrev cores : Nat := 2 ^ 19
abbrev bells : Nat := 2 ^ 20
abbrev node : Nat := 2 ^ 21
abbrev tithes : Nat := 2 ^ 22
abbrev gws : Nat := 2 ^ 23
abbrev cfg : Nat := 2 ^ 24
abbrev regions : Nat := 2 ^ 25
abbrev tracePos : Nat := 2 ^ 26
abbrev stackMem : Nat := 2 ^ 27
abbrev bridgeMem : Nat := 2 ^ 28
abbrev invPend : Nat := 2 ^ 29
abbrev invAcks : Nat := 2 ^ 30
abbrev pageBell : Nat := 2 ^ 31
abbrev nextId : Nat := 2 ^ 32
abbrev jobs : Nat := 2 ^ 33
abbrev xfers : Nat := 2 ^ 34
abbrev redSteps : Nat := 2 ^ 35
abbrev runs : Nat := 2 ^ 36
abbrev redBytes : Nat := 2 ^ 37
abbrev seqs : Nat := 2 ^ 38
abbrev sheetBell : Nat := 2 ^ 39
abbrev sheetGot : Nat := 2 ^ 40
abbrev rings : Nat := 2 ^ 41
abbrev outs : Nat := 2 ^ 42
abbrev brackets : Nat := 2 ^ 43
abbrev links : Nat := 2 ^ 44
abbrev restores : Nat := 2 ^ 45
abbrev hostTake : Nat := 2 ^ 46
abbrev ingress : Nat := 2 ^ 47
abbrev egress : Nat := 2 ^ 48
abbrev qpErr : Nat := 2 ^ 49
abbrev qpRate : Nat := 2 ^ 50
abbrev cnpAt : Nat := 2 ^ 51
abbrev conf : Nat := 2 ^ 52
abbrev sas : Nat := 2 ^ 53
abbrev opkey : Nat := 2 ^ 54
abbrev led : Nat := 2 ^ 55
abbrev xings : Nat := 2 ^ 56
abbrev vc : Nat := 2 ^ 57
abbrev vcmp : Nat := 2 ^ 58
abbrev retireQ : Nat := 2 ^ 59
abbrev lit : Nat := 2 ^ 60
abbrev rcal : Nat := 2 ^ 61
abbrev combCal : Nat := 2 ^ 62
abbrev calRej : Nat := 2 ^ 63
abbrev calLast : Nat := 2 ^ 64
abbrev sensOut : Nat := 2 ^ 65
abbrev classes : Nat := 2 ^ 66
abbrev resets : Nat := 2 ^ 67
abbrev fieldAt : Nat := 2 ^ 68
abbrev mapLag : Nat := 2 ^ 69
abbrev rolePend : Nat := 2 ^ 70
abbrev bondHalf : Nat := 2 ^ 71
abbrev lms : Nat := 2 ^ 72
abbrev attest : Nat := 2 ^ 73
abbrev meas : Nat := 2 ^ 74
abbrev opkeySeq : Nat := 2 ^ 75
abbrev debugUsed : Nat := 2 ^ 76
abbrev power : Nat := 2 ^ 77
abbrev heat : Nat := 2 ^ 78
abbrev pairAt : Nat := 2 ^ 79
abbrev pairOff : Nat := 2 ^ 80
abbrev pairLost : Nat := 2 ^ 81
abbrev fast : Nat := 2 ^ 82
abbrev jumpAt : Nat := 2 ^ 83
abbrev tripped : Nat := 2 ^ 84
abbrev trips : Nat := 2 ^ 85
abbrev hbmSlow : Nat := 2 ^ 86
abbrev fixed : Nat := 2 ^ 87
abbrev firmware : Nat := 2 ^ 88
abbrev sheetBase : Nat := 2 ^ 89
abbrev reports : Nat := 2 ^ 90
abbrev startedFor : Nat := 2 ^ 91
abbrev ckv : Nat := 2 ^ 92
abbrev mgmt : Nat := 2 ^ 93
abbrev inbox : Nat := 2 ^ 94
abbrev dynAddr : Nat := 2 ^ 95
abbrev eid : Nat := 2 ^ 96
abbrev tid : Nat := 2 ^ 97
abbrev bscan : Nat := 2 ^ 98
abbrev markers : Nat := 2 ^ 99
abbrev draws : Nat := 2 ^ 100
abbrev saPins : Nat := 2 ^ 101
abbrev drains : Nat := 2 ^ 102
abbrev portNext : Nat := 2 ^ 103
abbrev heldOut : Nat := 2 ^ 104
abbrev txAn : Nat := 2 ^ 105
abbrev ckvBy : Nat := 2 ^ 106
abbrev hostLines : Nat := 2 ^ 107
abbrev hostResv : Nat := 2 ^ 108
abbrev imsic : Nat := 2 ^ 109
/-- Every field. -/
abbrev all : Nat := 2 ^ 110 - 1

end Touch

/-- Every field outside `ps` is as before, and memory is in canonical form if it was. -/
structure Touches (ps : Nat) (s t : State) : Prop where
  ok : s.memOk → t.memOk
  vt : ps.testBit 0 = false → t.vt = s.vt
  vtFrac : ps.testBit 1 = false → t.vtFrac = s.vtFrac
  rateTemp : ps.testBit 2 = false → t.rateTemp = s.rateTemp
  rateServo : ps.testBit 3 = false → t.rateServo = s.rateServo
  free : ps.testBit 4 = false → t.free = s.free
  pending : ps.testBit 5 = false → t.pending = s.pending
  out : ps.testBit 6 = false → t.out = s.out
  regs : ps.testBit 7 = false → t.regs = s.regs
  rlatch : ps.testBit 8 = false → t.rlatch = s.rlatch
  wlatch : ps.testBit 9 = false → t.wlatch = s.wlatch
  ringSel : ps.testBit 10 = false → t.ringSel = s.ringSel
  wearSel : ps.testBit 11 = false → t.wearSel = s.wearSel
  mem : ps.testBit 12 = false → t.mem = s.mem
  grn : ps.testBit 13 = false → t.grn = s.grn
  wear : ps.testBit 14 = false → t.wear = s.wear
  log : ps.testBit 15 = false → t.log = s.log
  logBase : ps.testBit 16 = false → t.logBase = s.logBase
  logRead : ps.testBit 17 = false → t.logRead = s.logRead
  logRing : ps.testBit 18 = false → t.logRing = s.logRing
  cores : ps.testBit 19 = false → t.cores = s.cores
  bells : ps.testBit 20 = false → t.bells = s.bells
  node : ps.testBit 21 = false → t.node = s.node
  tithes : ps.testBit 22 = false → t.tithes = s.tithes
  gws : ps.testBit 23 = false → t.gws = s.gws
  cfg : ps.testBit 24 = false → t.cfg = s.cfg
  regions : ps.testBit 25 = false → t.regions = s.regions
  tracePos : ps.testBit 26 = false → t.tracePos = s.tracePos
  stackMem : ps.testBit 27 = false → t.stackMem = s.stackMem
  bridgeMem : ps.testBit 28 = false → t.bridgeMem = s.bridgeMem
  invPend : ps.testBit 29 = false → t.invPend = s.invPend
  invAcks : ps.testBit 30 = false → t.invAcks = s.invAcks
  pageBell : ps.testBit 31 = false → t.pageBell = s.pageBell
  nextId : ps.testBit 32 = false → t.nextId = s.nextId
  jobs : ps.testBit 33 = false → t.jobs = s.jobs
  xfers : ps.testBit 34 = false → t.xfers = s.xfers
  redSteps : ps.testBit 35 = false → t.redSteps = s.redSteps
  runs : ps.testBit 36 = false → t.runs = s.runs
  redBytes : ps.testBit 37 = false → t.redBytes = s.redBytes
  seqs : ps.testBit 38 = false → t.seqs = s.seqs
  sheetBell : ps.testBit 39 = false → t.sheetBell = s.sheetBell
  sheetGot : ps.testBit 40 = false → t.sheetGot = s.sheetGot
  rings : ps.testBit 41 = false → t.rings = s.rings
  outs : ps.testBit 42 = false → t.outs = s.outs
  brackets : ps.testBit 43 = false → t.brackets = s.brackets
  links : ps.testBit 44 = false → t.links = s.links
  restores : ps.testBit 45 = false → t.restores = s.restores
  hostTake : ps.testBit 46 = false → t.hostTake = s.hostTake
  ingress : ps.testBit 47 = false → t.ingress = s.ingress
  egress : ps.testBit 48 = false → t.egress = s.egress
  qpErr : ps.testBit 49 = false → t.qpErr = s.qpErr
  qpRate : ps.testBit 50 = false → t.qpRate = s.qpRate
  cnpAt : ps.testBit 51 = false → t.cnpAt = s.cnpAt
  conf : ps.testBit 52 = false → t.conf = s.conf
  sas : ps.testBit 53 = false → t.sas = s.sas
  opkey : ps.testBit 54 = false → t.opkey = s.opkey
  led : ps.testBit 55 = false → t.led = s.led
  xings : ps.testBit 56 = false → t.xings = s.xings
  vc : ps.testBit 57 = false → t.vc = s.vc
  vcmp : ps.testBit 58 = false → t.vcmp = s.vcmp
  retireQ : ps.testBit 59 = false → t.retireQ = s.retireQ
  lit : ps.testBit 60 = false → t.lit = s.lit
  rcal : ps.testBit 61 = false → t.rcal = s.rcal
  combCal : ps.testBit 62 = false → t.combCal = s.combCal
  calRej : ps.testBit 63 = false → t.calRej = s.calRej
  calLast : ps.testBit 64 = false → t.calLast = s.calLast
  sensOut : ps.testBit 65 = false → t.sensOut = s.sensOut
  classes : ps.testBit 66 = false → t.classes = s.classes
  resets : ps.testBit 67 = false → t.resets = s.resets
  fieldAt : ps.testBit 68 = false → t.fieldAt = s.fieldAt
  mapLag : ps.testBit 69 = false → t.mapLag = s.mapLag
  rolePend : ps.testBit 70 = false → t.rolePend = s.rolePend
  bondHalf : ps.testBit 71 = false → t.bondHalf = s.bondHalf
  lms : ps.testBit 72 = false → t.lms = s.lms
  attest : ps.testBit 73 = false → t.attest = s.attest
  meas : ps.testBit 74 = false → t.meas = s.meas
  opkeySeq : ps.testBit 75 = false → t.opkeySeq = s.opkeySeq
  debugUsed : ps.testBit 76 = false → t.debugUsed = s.debugUsed
  power : ps.testBit 77 = false → t.power = s.power
  heat : ps.testBit 78 = false → t.heat = s.heat
  pairAt : ps.testBit 79 = false → t.pairAt = s.pairAt
  pairOff : ps.testBit 80 = false → t.pairOff = s.pairOff
  pairLost : ps.testBit 81 = false → t.pairLost = s.pairLost
  fast : ps.testBit 82 = false → t.fast = s.fast
  jumpAt : ps.testBit 83 = false → t.jumpAt = s.jumpAt
  tripped : ps.testBit 84 = false → t.tripped = s.tripped
  trips : ps.testBit 85 = false → t.trips = s.trips
  hbmSlow : ps.testBit 86 = false → t.hbmSlow = s.hbmSlow
  fixed : ps.testBit 87 = false → t.fixed = s.fixed
  firmware : ps.testBit 88 = false → t.firmware = s.firmware
  sheetBase : ps.testBit 89 = false → t.sheetBase = s.sheetBase
  reports : ps.testBit 90 = false → t.reports = s.reports
  startedFor : ps.testBit 91 = false → t.startedFor = s.startedFor
  ckv : ps.testBit 92 = false → t.ckv = s.ckv
  mgmt : ps.testBit 93 = false → t.mgmt = s.mgmt
  inbox : ps.testBit 94 = false → t.inbox = s.inbox
  dynAddr : ps.testBit 95 = false → t.dynAddr = s.dynAddr
  eid : ps.testBit 96 = false → t.eid = s.eid
  tid : ps.testBit 97 = false → t.tid = s.tid
  bscan : ps.testBit 98 = false → t.bscan = s.bscan
  markers : ps.testBit 99 = false → t.markers = s.markers
  draws : ps.testBit 100 = false → t.draws = s.draws
  saPins : ps.testBit 101 = false → t.saPins = s.saPins
  drains : ps.testBit 102 = false → t.drains = s.drains
  portNext : ps.testBit 103 = false → t.portNext = s.portNext
  heldOut : ps.testBit 104 = false → t.heldOut = s.heldOut
  txAn : ps.testBit 105 = false → t.txAn = s.txAn
  ckvBy : ps.testBit 106 = false → t.ckvBy = s.ckvBy
  hostLines : ps.testBit 107 = false → t.hostLines = s.hostLines
  hostResv : ps.testBit 108 = false → t.hostResv = s.hostResv
  imsic : ps.testBit 109 = false → t.imsic = s.imsic

namespace Touches

variable {ps qs : Nat} {s t u : State}

theorem refl (ps : Nat) (s : State) : Touches ps s s :=
  ⟨id, fun _ => rfl, fun _ => rfl, fun _ => rfl, fun _ => rfl, fun _ => rfl, fun _ => rfl, fun _ => rfl, fun _ => rfl,
    fun _ => rfl, fun _ => rfl, fun _ => rfl, fun _ => rfl, fun _ => rfl, fun _ => rfl, fun _ => rfl, fun _ => rfl,
    fun _ => rfl, fun _ => rfl, fun _ => rfl, fun _ => rfl, fun _ => rfl, fun _ => rfl, fun _ => rfl, fun _ => rfl,
    fun _ => rfl, fun _ => rfl, fun _ => rfl, fun _ => rfl, fun _ => rfl, fun _ => rfl, fun _ => rfl, fun _ => rfl,
    fun _ => rfl, fun _ => rfl, fun _ => rfl, fun _ => rfl, fun _ => rfl, fun _ => rfl, fun _ => rfl, fun _ => rfl,
    fun _ => rfl, fun _ => rfl, fun _ => rfl, fun _ => rfl, fun _ => rfl, fun _ => rfl, fun _ => rfl, fun _ => rfl,
    fun _ => rfl, fun _ => rfl, fun _ => rfl, fun _ => rfl, fun _ => rfl, fun _ => rfl, fun _ => rfl, fun _ => rfl,
    fun _ => rfl, fun _ => rfl, fun _ => rfl, fun _ => rfl, fun _ => rfl, fun _ => rfl, fun _ => rfl, fun _ => rfl,
    fun _ => rfl, fun _ => rfl, fun _ => rfl, fun _ => rfl, fun _ => rfl, fun _ => rfl, fun _ => rfl, fun _ => rfl,
    fun _ => rfl, fun _ => rfl, fun _ => rfl, fun _ => rfl, fun _ => rfl, fun _ => rfl, fun _ => rfl, fun _ => rfl,
    fun _ => rfl, fun _ => rfl, fun _ => rfl, fun _ => rfl, fun _ => rfl, fun _ => rfl, fun _ => rfl, fun _ => rfl,
    fun _ => rfl, fun _ => rfl, fun _ => rfl, fun _ => rfl, fun _ => rfl, fun _ => rfl, fun _ => rfl, fun _ => rfl,
    fun _ => rfl, fun _ => rfl, fun _ => rfl, fun _ => rfl, fun _ => rfl, fun _ => rfl, fun _ => rfl, fun _ => rfl, fun _ => rfl, fun _ => rfl, fun _ => rfl, fun _ => rfl, fun _ => rfl, fun _ => rfl⟩

theorem trans (h : Touches ps s t) (k : Touches ps t u) : Touches ps s u :=
  ⟨fun x => k.ok (h.ok x), fun x => (k.vt x).trans (h.vt x), fun x => (k.vtFrac x).trans (h.vtFrac x),
    fun x => (k.rateTemp x).trans (h.rateTemp x), fun x => (k.rateServo x).trans (h.rateServo x),
    fun x => (k.free x).trans (h.free x), fun x => (k.pending x).trans (h.pending x),
    fun x => (k.out x).trans (h.out x), fun x => (k.regs x).trans (h.regs x), fun x => (k.rlatch x).trans (h.rlatch x),
    fun x => (k.wlatch x).trans (h.wlatch x), fun x => (k.ringSel x).trans (h.ringSel x),
    fun x => (k.wearSel x).trans (h.wearSel x), fun x => (k.mem x).trans (h.mem x), fun x => (k.grn x).trans (h.grn x),
    fun x => (k.wear x).trans (h.wear x), fun x => (k.log x).trans (h.log x),
    fun x => (k.logBase x).trans (h.logBase x), fun x => (k.logRead x).trans (h.logRead x),
    fun x => (k.logRing x).trans (h.logRing x), fun x => (k.cores x).trans (h.cores x),
    fun x => (k.bells x).trans (h.bells x), fun x => (k.node x).trans (h.node x),
    fun x => (k.tithes x).trans (h.tithes x), fun x => (k.gws x).trans (h.gws x), fun x => (k.cfg x).trans (h.cfg x),
    fun x => (k.regions x).trans (h.regions x), fun x => (k.tracePos x).trans (h.tracePos x),
    fun x => (k.stackMem x).trans (h.stackMem x), fun x => (k.bridgeMem x).trans (h.bridgeMem x),
    fun x => (k.invPend x).trans (h.invPend x), fun x => (k.invAcks x).trans (h.invAcks x),
    fun x => (k.pageBell x).trans (h.pageBell x), fun x => (k.nextId x).trans (h.nextId x),
    fun x => (k.jobs x).trans (h.jobs x), fun x => (k.xfers x).trans (h.xfers x),
    fun x => (k.redSteps x).trans (h.redSteps x), fun x => (k.runs x).trans (h.runs x),
    fun x => (k.redBytes x).trans (h.redBytes x), fun x => (k.seqs x).trans (h.seqs x),
    fun x => (k.sheetBell x).trans (h.sheetBell x), fun x => (k.sheetGot x).trans (h.sheetGot x),
    fun x => (k.rings x).trans (h.rings x), fun x => (k.outs x).trans (h.outs x),
    fun x => (k.brackets x).trans (h.brackets x), fun x => (k.links x).trans (h.links x),
    fun x => (k.restores x).trans (h.restores x), fun x => (k.hostTake x).trans (h.hostTake x),
    fun x => (k.ingress x).trans (h.ingress x), fun x => (k.egress x).trans (h.egress x),
    fun x => (k.qpErr x).trans (h.qpErr x), fun x => (k.qpRate x).trans (h.qpRate x),
    fun x => (k.cnpAt x).trans (h.cnpAt x), fun x => (k.conf x).trans (h.conf x), fun x => (k.sas x).trans (h.sas x),
    fun x => (k.opkey x).trans (h.opkey x), fun x => (k.led x).trans (h.led x), fun x => (k.xings x).trans (h.xings x),
    fun x => (k.vc x).trans (h.vc x), fun x => (k.vcmp x).trans (h.vcmp x), fun x => (k.retireQ x).trans (h.retireQ x),
    fun x => (k.lit x).trans (h.lit x), fun x => (k.rcal x).trans (h.rcal x),
    fun x => (k.combCal x).trans (h.combCal x), fun x => (k.calRej x).trans (h.calRej x),
    fun x => (k.calLast x).trans (h.calLast x), fun x => (k.sensOut x).trans (h.sensOut x),
    fun x => (k.classes x).trans (h.classes x), fun x => (k.resets x).trans (h.resets x),
    fun x => (k.fieldAt x).trans (h.fieldAt x), fun x => (k.mapLag x).trans (h.mapLag x),
    fun x => (k.rolePend x).trans (h.rolePend x), fun x => (k.bondHalf x).trans (h.bondHalf x),
    fun x => (k.lms x).trans (h.lms x), fun x => (k.attest x).trans (h.attest x), fun x => (k.meas x).trans (h.meas x),
    fun x => (k.opkeySeq x).trans (h.opkeySeq x), fun x => (k.debugUsed x).trans (h.debugUsed x),
    fun x => (k.power x).trans (h.power x), fun x => (k.heat x).trans (h.heat x),
    fun x => (k.pairAt x).trans (h.pairAt x), fun x => (k.pairOff x).trans (h.pairOff x),
    fun x => (k.pairLost x).trans (h.pairLost x), fun x => (k.fast x).trans (h.fast x),
    fun x => (k.jumpAt x).trans (h.jumpAt x), fun x => (k.tripped x).trans (h.tripped x),
    fun x => (k.trips x).trans (h.trips x), fun x => (k.hbmSlow x).trans (h.hbmSlow x),
    fun x => (k.fixed x).trans (h.fixed x), fun x => (k.firmware x).trans (h.firmware x),
    fun x => (k.sheetBase x).trans (h.sheetBase x), fun x => (k.reports x).trans (h.reports x),
    fun x => (k.startedFor x).trans (h.startedFor x), fun x => (k.ckv x).trans (h.ckv x),
    fun x => (k.mgmt x).trans (h.mgmt x), fun x => (k.inbox x).trans (h.inbox x),
    fun x => (k.dynAddr x).trans (h.dynAddr x), fun x => (k.eid x).trans (h.eid x), fun x => (k.tid x).trans (h.tid x),
    fun x => (k.bscan x).trans (h.bscan x),
    fun x => (k.markers x).trans (h.markers x),
    fun x => (k.draws x).trans (h.draws x),
    fun x => (k.saPins x).trans (h.saPins x),
    fun x => (k.drains x).trans (h.drains x),
    fun x => (k.portNext x).trans (h.portNext x),
    fun x => (k.heldOut x).trans (h.heldOut x),
    fun x => (k.txAn x).trans (h.txAn x),
    fun x => (k.ckvBy x).trans (h.ckvBy x),
    fun x => (k.hostLines x).trans (h.hostLines x),
    fun x => (k.hostResv x).trans (h.hostResv x),
    fun x => (k.imsic x).trans (h.imsic x)⟩

theorem testBit_of_sub (h : qs &&& ps = qs) {i : Nat} (hi : ps.testBit i = false) : qs.testBit i = false := by
  rw [← h, Nat.testBit_and, hi, Bool.and_false]

theorem mono (h : Touches qs s t) (hs : qs &&& ps = qs) : Touches ps s t :=
  ⟨h.ok, fun x => h.vt (testBit_of_sub hs x), fun x => h.vtFrac (testBit_of_sub hs x),
    fun x => h.rateTemp (testBit_of_sub hs x), fun x => h.rateServo (testBit_of_sub hs x),
    fun x => h.free (testBit_of_sub hs x), fun x => h.pending (testBit_of_sub hs x),
    fun x => h.out (testBit_of_sub hs x), fun x => h.regs (testBit_of_sub hs x),
    fun x => h.rlatch (testBit_of_sub hs x), fun x => h.wlatch (testBit_of_sub hs x),
    fun x => h.ringSel (testBit_of_sub hs x), fun x => h.wearSel (testBit_of_sub hs x),
    fun x => h.mem (testBit_of_sub hs x), fun x => h.grn (testBit_of_sub hs x), fun x => h.wear (testBit_of_sub hs x),
    fun x => h.log (testBit_of_sub hs x), fun x => h.logBase (testBit_of_sub hs x),
    fun x => h.logRead (testBit_of_sub hs x), fun x => h.logRing (testBit_of_sub hs x),
    fun x => h.cores (testBit_of_sub hs x), fun x => h.bells (testBit_of_sub hs x),
    fun x => h.node (testBit_of_sub hs x), fun x => h.tithes (testBit_of_sub hs x),
    fun x => h.gws (testBit_of_sub hs x), fun x => h.cfg (testBit_of_sub hs x),
    fun x => h.regions (testBit_of_sub hs x), fun x => h.tracePos (testBit_of_sub hs x),
    fun x => h.stackMem (testBit_of_sub hs x), fun x => h.bridgeMem (testBit_of_sub hs x),
    fun x => h.invPend (testBit_of_sub hs x), fun x => h.invAcks (testBit_of_sub hs x),
    fun x => h.pageBell (testBit_of_sub hs x), fun x => h.nextId (testBit_of_sub hs x),
    fun x => h.jobs (testBit_of_sub hs x), fun x => h.xfers (testBit_of_sub hs x),
    fun x => h.redSteps (testBit_of_sub hs x), fun x => h.runs (testBit_of_sub hs x),
    fun x => h.redBytes (testBit_of_sub hs x), fun x => h.seqs (testBit_of_sub hs x),
    fun x => h.sheetBell (testBit_of_sub hs x), fun x => h.sheetGot (testBit_of_sub hs x),
    fun x => h.rings (testBit_of_sub hs x), fun x => h.outs (testBit_of_sub hs x),
    fun x => h.brackets (testBit_of_sub hs x), fun x => h.links (testBit_of_sub hs x),
    fun x => h.restores (testBit_of_sub hs x), fun x => h.hostTake (testBit_of_sub hs x),
    fun x => h.ingress (testBit_of_sub hs x), fun x => h.egress (testBit_of_sub hs x),
    fun x => h.qpErr (testBit_of_sub hs x), fun x => h.qpRate (testBit_of_sub hs x),
    fun x => h.cnpAt (testBit_of_sub hs x), fun x => h.conf (testBit_of_sub hs x),
    fun x => h.sas (testBit_of_sub hs x), fun x => h.opkey (testBit_of_sub hs x), fun x => h.led (testBit_of_sub hs x),
    fun x => h.xings (testBit_of_sub hs x), fun x => h.vc (testBit_of_sub hs x), fun x => h.vcmp (testBit_of_sub hs x),
    fun x => h.retireQ (testBit_of_sub hs x), fun x => h.lit (testBit_of_sub hs x),
    fun x => h.rcal (testBit_of_sub hs x), fun x => h.combCal (testBit_of_sub hs x),
    fun x => h.calRej (testBit_of_sub hs x), fun x => h.calLast (testBit_of_sub hs x),
    fun x => h.sensOut (testBit_of_sub hs x), fun x => h.classes (testBit_of_sub hs x),
    fun x => h.resets (testBit_of_sub hs x), fun x => h.fieldAt (testBit_of_sub hs x),
    fun x => h.mapLag (testBit_of_sub hs x), fun x => h.rolePend (testBit_of_sub hs x),
    fun x => h.bondHalf (testBit_of_sub hs x), fun x => h.lms (testBit_of_sub hs x),
    fun x => h.attest (testBit_of_sub hs x), fun x => h.meas (testBit_of_sub hs x),
    fun x => h.opkeySeq (testBit_of_sub hs x), fun x => h.debugUsed (testBit_of_sub hs x),
    fun x => h.power (testBit_of_sub hs x), fun x => h.heat (testBit_of_sub hs x),
    fun x => h.pairAt (testBit_of_sub hs x), fun x => h.pairOff (testBit_of_sub hs x),
    fun x => h.pairLost (testBit_of_sub hs x), fun x => h.fast (testBit_of_sub hs x),
    fun x => h.jumpAt (testBit_of_sub hs x), fun x => h.tripped (testBit_of_sub hs x),
    fun x => h.trips (testBit_of_sub hs x), fun x => h.hbmSlow (testBit_of_sub hs x),
    fun x => h.fixed (testBit_of_sub hs x), fun x => h.firmware (testBit_of_sub hs x),
    fun x => h.sheetBase (testBit_of_sub hs x), fun x => h.reports (testBit_of_sub hs x),
    fun x => h.startedFor (testBit_of_sub hs x), fun x => h.ckv (testBit_of_sub hs x),
    fun x => h.mgmt (testBit_of_sub hs x), fun x => h.inbox (testBit_of_sub hs x),
    fun x => h.dynAddr (testBit_of_sub hs x), fun x => h.eid (testBit_of_sub hs x),
    fun x => h.tid (testBit_of_sub hs x), fun x => h.bscan (testBit_of_sub hs x),
    fun x => h.markers (testBit_of_sub hs x),
    fun x => h.draws (testBit_of_sub hs x),
    fun x => h.saPins (testBit_of_sub hs x),
    fun x => h.drains (testBit_of_sub hs x),
    fun x => h.portNext (testBit_of_sub hs x),
    fun x => h.heldOut (testBit_of_sub hs x),
    fun x => h.txAn (testBit_of_sub hs x),
    fun x => h.ckvBy (testBit_of_sub hs x),
    fun x => h.hostLines (testBit_of_sub hs x),
    fun x => h.hostResv (testBit_of_sub hs x),
    fun x => h.imsic (testBit_of_sub hs x)⟩

theorem sub_trans {rs : Nat} (h : rs &&& qs = rs) (k : qs &&& ps = qs) : rs &&& ps = rs := by
  rw [← h, Nat.and_assoc, k]

theorem testBit_of_mem (h : qs &&& ps = qs) {i : Nat} (hi : qs.testBit i = true) : ps.testBit i = true := by
  rw [← h, Nat.testBit_and, Bool.and_eq_true] at hi
  exact hi.2

/-- One operation after another. -/
theorem after (k : Touches qs t u) (h : Touches ps s t) (hs : qs &&& ps = qs) : Touches ps s u := h.trans (k.mono hs)

/-- One of two operations. -/
theorem ite {c : Prop} [Decidable c] (h : Touches ps s t) (k : Touches ps s u) : Touches ps s (if c then t else u) := by
  split
  · exact h
  · exact k

/-- By way of a state on the path. -/
theorem cut (h : Touches ps s t) (k : Touches ps s t → Touches ps s u) : Touches ps s u := k h

/-- An operation repeated over a list. -/
theorem foldl {α : Type} {f : State → α → State} {l : List α} (h : Touches ps s t) (hf : ∀ s x, Touches ps s (f s x)) :
    Touches ps s (l.foldl f t) := by
  induction l generalizing t with
  | nil => exact h
  | cons x l ih => exact ih (h.trans (hf t x))

/-- An operation repeated over a list beside another accumulator. -/
theorem foldl_fst {α β : Type} {f : State × β → α → State × β} {l : List α} {b : State × β} (h : Touches ps s b.1)
    (hf : ∀ b x, Touches ps b.1 (f b x).1) : Touches ps s (l.foldl f b).1 := by
  induction l generalizing b with
  | nil => exact h
  | cons x l ih => exact ih (h.trans (hf b x))

/-- The state of a pair that an operation answers. -/
theorem of_fst {β : Type} {e : State × β} {b : β} (he : e = (t, b)) (h : Touches ps s e.1) : Touches ps s t := by
  rw [he] at h; exact h

theorem of_snd {β : Type} {e : β × State} {b : β} (he : e = (b, t)) (h : Touches ps s e.2) : Touches ps s t := by
  rw [he] at h; exact h

/-- A change of memory alone that keeps its canonical form. -/
theorem set_mem (h : Touches ps s t) {v : SMap Byte} (hp : ps.testBit 12 = true) (hv : t.memOk → Memory.wf v = true) :
    Touches ps s { t with mem := v } :=
  ⟨fun x => hv (h.ok x), h.vt, h.vtFrac, h.rateTemp, h.rateServo, h.free, h.pending, h.out, h.regs, h.rlatch,
    h.wlatch, h.ringSel, h.wearSel, fun x => (Bool.noConfusion (hp.symm.trans x)), h.grn, h.wear, h.log, h.logBase,
    h.logRead, h.logRing, h.cores, h.bells, h.node, h.tithes, h.gws, h.cfg, h.regions, h.tracePos, h.stackMem,
    h.bridgeMem, h.invPend, h.invAcks, h.pageBell, h.nextId, h.jobs, h.xfers, h.redSteps, h.runs, h.redBytes, h.seqs,
    h.sheetBell, h.sheetGot, h.rings, h.outs, h.brackets, h.links, h.restores, h.hostTake, h.ingress, h.egress,
    h.qpErr, h.qpRate, h.cnpAt, h.conf, h.sas, h.opkey, h.led, h.xings, h.vc, h.vcmp, h.retireQ, h.lit, h.rcal,
    h.combCal, h.calRej, h.calLast, h.sensOut, h.classes, h.resets, h.fieldAt, h.mapLag, h.rolePend, h.bondHalf, h.lms,
    h.attest, h.meas, h.opkeySeq, h.debugUsed, h.power, h.heat, h.pairAt, h.pairOff, h.pairLost, h.fast, h.jumpAt,
    h.tripped, h.trips, h.hbmSlow, h.fixed, h.firmware, h.sheetBase, h.reports, h.startedFor, h.ckv, h.mgmt, h.inbox,
    h.dynAddr, h.eid, h.tid, h.bscan, h.markers, h.draws, h.saPins, h.drains, h.portNext, h.heldOut, h.txAn, h.ckvBy, h.hostLines, h.hostResv, h.imsic⟩

theorem set_rateServo {vrateServo} (h : Touches ps s t) (hrateServo : ps.testBit 3 = true) :
    Touches ps s { t with rateServo := vrateServo } :=
  ⟨h.ok, h.vt, h.vtFrac, h.rateTemp, fun x => (Bool.noConfusion (hrateServo.symm.trans x)), h.free, h.pending, h.out,
    h.regs, h.rlatch, h.wlatch, h.ringSel, h.wearSel, h.mem, h.grn, h.wear, h.log, h.logBase, h.logRead, h.logRing,
    h.cores, h.bells, h.node, h.tithes, h.gws, h.cfg, h.regions, h.tracePos, h.stackMem, h.bridgeMem, h.invPend,
    h.invAcks, h.pageBell, h.nextId, h.jobs, h.xfers, h.redSteps, h.runs, h.redBytes, h.seqs, h.sheetBell, h.sheetGot,
    h.rings, h.outs, h.brackets, h.links, h.restores, h.hostTake, h.ingress, h.egress, h.qpErr, h.qpRate, h.cnpAt,
    h.conf, h.sas, h.opkey, h.led, h.xings, h.vc, h.vcmp, h.retireQ, h.lit, h.rcal, h.combCal, h.calRej, h.calLast,
    h.sensOut, h.classes, h.resets, h.fieldAt, h.mapLag, h.rolePend, h.bondHalf, h.lms, h.attest, h.meas, h.opkeySeq,
    h.debugUsed, h.power, h.heat, h.pairAt, h.pairOff, h.pairLost, h.fast, h.jumpAt, h.tripped, h.trips, h.hbmSlow,
    h.fixed, h.firmware, h.sheetBase, h.reports, h.startedFor, h.ckv, h.mgmt, h.inbox, h.dynAddr, h.eid, h.tid,
    h.bscan, h.markers, h.draws, h.saPins, h.drains, h.portNext, h.heldOut, h.txAn, h.ckvBy, h.hostLines, h.hostResv, h.imsic⟩

theorem set_free {vfree} (h : Touches ps s t) (hfree : ps.testBit 4 = true) :
    Touches ps s { t with free := vfree } :=
  ⟨h.ok, h.vt, h.vtFrac, h.rateTemp, h.rateServo, fun x => (Bool.noConfusion (hfree.symm.trans x)), h.pending, h.out,
    h.regs, h.rlatch, h.wlatch, h.ringSel, h.wearSel, h.mem, h.grn, h.wear, h.log, h.logBase, h.logRead, h.logRing,
    h.cores, h.bells, h.node, h.tithes, h.gws, h.cfg, h.regions, h.tracePos, h.stackMem, h.bridgeMem, h.invPend,
    h.invAcks, h.pageBell, h.nextId, h.jobs, h.xfers, h.redSteps, h.runs, h.redBytes, h.seqs, h.sheetBell, h.sheetGot,
    h.rings, h.outs, h.brackets, h.links, h.restores, h.hostTake, h.ingress, h.egress, h.qpErr, h.qpRate, h.cnpAt,
    h.conf, h.sas, h.opkey, h.led, h.xings, h.vc, h.vcmp, h.retireQ, h.lit, h.rcal, h.combCal, h.calRej, h.calLast,
    h.sensOut, h.classes, h.resets, h.fieldAt, h.mapLag, h.rolePend, h.bondHalf, h.lms, h.attest, h.meas, h.opkeySeq,
    h.debugUsed, h.power, h.heat, h.pairAt, h.pairOff, h.pairLost, h.fast, h.jumpAt, h.tripped, h.trips, h.hbmSlow,
    h.fixed, h.firmware, h.sheetBase, h.reports, h.startedFor, h.ckv, h.mgmt, h.inbox, h.dynAddr, h.eid, h.tid,
    h.bscan, h.markers, h.draws, h.saPins, h.drains, h.portNext, h.heldOut, h.txAn, h.ckvBy, h.hostLines, h.hostResv, h.imsic⟩

theorem set_out {vout} (h : Touches ps s t) (hout : ps.testBit 6 = true) :
    Touches ps s { t with out := vout } :=
  ⟨h.ok, h.vt, h.vtFrac, h.rateTemp, h.rateServo, h.free, h.pending, fun x => (Bool.noConfusion (hout.symm.trans x)),
    h.regs, h.rlatch, h.wlatch, h.ringSel, h.wearSel, h.mem, h.grn, h.wear, h.log, h.logBase, h.logRead, h.logRing,
    h.cores, h.bells, h.node, h.tithes, h.gws, h.cfg, h.regions, h.tracePos, h.stackMem, h.bridgeMem, h.invPend,
    h.invAcks, h.pageBell, h.nextId, h.jobs, h.xfers, h.redSteps, h.runs, h.redBytes, h.seqs, h.sheetBell, h.sheetGot,
    h.rings, h.outs, h.brackets, h.links, h.restores, h.hostTake, h.ingress, h.egress, h.qpErr, h.qpRate, h.cnpAt,
    h.conf, h.sas, h.opkey, h.led, h.xings, h.vc, h.vcmp, h.retireQ, h.lit, h.rcal, h.combCal, h.calRej, h.calLast,
    h.sensOut, h.classes, h.resets, h.fieldAt, h.mapLag, h.rolePend, h.bondHalf, h.lms, h.attest, h.meas, h.opkeySeq,
    h.debugUsed, h.power, h.heat, h.pairAt, h.pairOff, h.pairLost, h.fast, h.jumpAt, h.tripped, h.trips, h.hbmSlow,
    h.fixed, h.firmware, h.sheetBase, h.reports, h.startedFor, h.ckv, h.mgmt, h.inbox, h.dynAddr, h.eid, h.tid,
    h.bscan, h.markers, h.draws, h.saPins, h.drains, h.portNext, h.heldOut, h.txAn, h.ckvBy, h.hostLines, h.hostResv, h.imsic⟩

theorem set_regs {vregs} (h : Touches ps s t) (hregs : ps.testBit 7 = true) :
    Touches ps s { t with regs := vregs } :=
  ⟨h.ok, h.vt, h.vtFrac, h.rateTemp, h.rateServo, h.free, h.pending, h.out,
    fun x => (Bool.noConfusion (hregs.symm.trans x)), h.rlatch, h.wlatch, h.ringSel, h.wearSel, h.mem, h.grn, h.wear,
    h.log, h.logBase, h.logRead, h.logRing, h.cores, h.bells, h.node, h.tithes, h.gws, h.cfg, h.regions, h.tracePos,
    h.stackMem, h.bridgeMem, h.invPend, h.invAcks, h.pageBell, h.nextId, h.jobs, h.xfers, h.redSteps, h.runs,
    h.redBytes, h.seqs, h.sheetBell, h.sheetGot, h.rings, h.outs, h.brackets, h.links, h.restores, h.hostTake,
    h.ingress, h.egress, h.qpErr, h.qpRate, h.cnpAt, h.conf, h.sas, h.opkey, h.led, h.xings, h.vc, h.vcmp, h.retireQ,
    h.lit, h.rcal, h.combCal, h.calRej, h.calLast, h.sensOut, h.classes, h.resets, h.fieldAt, h.mapLag, h.rolePend,
    h.bondHalf, h.lms, h.attest, h.meas, h.opkeySeq, h.debugUsed, h.power, h.heat, h.pairAt, h.pairOff, h.pairLost,
    h.fast, h.jumpAt, h.tripped, h.trips, h.hbmSlow, h.fixed, h.firmware, h.sheetBase, h.reports, h.startedFor, h.ckv,
    h.mgmt, h.inbox, h.dynAddr, h.eid, h.tid, h.bscan, h.markers, h.draws, h.saPins, h.drains, h.portNext, h.heldOut, h.txAn, h.ckvBy, h.hostLines, h.hostResv, h.imsic⟩

theorem set_rlatch {vrlatch} (h : Touches ps s t) (hrlatch : ps.testBit 8 = true) :
    Touches ps s { t with rlatch := vrlatch } :=
  ⟨h.ok, h.vt, h.vtFrac, h.rateTemp, h.rateServo, h.free, h.pending, h.out, h.regs,
    fun x => (Bool.noConfusion (hrlatch.symm.trans x)), h.wlatch, h.ringSel, h.wearSel, h.mem, h.grn, h.wear, h.log,
    h.logBase, h.logRead, h.logRing, h.cores, h.bells, h.node, h.tithes, h.gws, h.cfg, h.regions, h.tracePos,
    h.stackMem, h.bridgeMem, h.invPend, h.invAcks, h.pageBell, h.nextId, h.jobs, h.xfers, h.redSteps, h.runs,
    h.redBytes, h.seqs, h.sheetBell, h.sheetGot, h.rings, h.outs, h.brackets, h.links, h.restores, h.hostTake,
    h.ingress, h.egress, h.qpErr, h.qpRate, h.cnpAt, h.conf, h.sas, h.opkey, h.led, h.xings, h.vc, h.vcmp, h.retireQ,
    h.lit, h.rcal, h.combCal, h.calRej, h.calLast, h.sensOut, h.classes, h.resets, h.fieldAt, h.mapLag, h.rolePend,
    h.bondHalf, h.lms, h.attest, h.meas, h.opkeySeq, h.debugUsed, h.power, h.heat, h.pairAt, h.pairOff, h.pairLost,
    h.fast, h.jumpAt, h.tripped, h.trips, h.hbmSlow, h.fixed, h.firmware, h.sheetBase, h.reports, h.startedFor, h.ckv,
    h.mgmt, h.inbox, h.dynAddr, h.eid, h.tid, h.bscan, h.markers, h.draws, h.saPins, h.drains, h.portNext, h.heldOut, h.txAn, h.ckvBy, h.hostLines, h.hostResv, h.imsic⟩

theorem set_wlatch {vwlatch} (h : Touches ps s t) (hwlatch : ps.testBit 9 = true) :
    Touches ps s { t with wlatch := vwlatch } :=
  ⟨h.ok, h.vt, h.vtFrac, h.rateTemp, h.rateServo, h.free, h.pending, h.out, h.regs, h.rlatch,
    fun x => (Bool.noConfusion (hwlatch.symm.trans x)), h.ringSel, h.wearSel, h.mem, h.grn, h.wear, h.log, h.logBase,
    h.logRead, h.logRing, h.cores, h.bells, h.node, h.tithes, h.gws, h.cfg, h.regions, h.tracePos, h.stackMem,
    h.bridgeMem, h.invPend, h.invAcks, h.pageBell, h.nextId, h.jobs, h.xfers, h.redSteps, h.runs, h.redBytes, h.seqs,
    h.sheetBell, h.sheetGot, h.rings, h.outs, h.brackets, h.links, h.restores, h.hostTake, h.ingress, h.egress,
    h.qpErr, h.qpRate, h.cnpAt, h.conf, h.sas, h.opkey, h.led, h.xings, h.vc, h.vcmp, h.retireQ, h.lit, h.rcal,
    h.combCal, h.calRej, h.calLast, h.sensOut, h.classes, h.resets, h.fieldAt, h.mapLag, h.rolePend, h.bondHalf, h.lms,
    h.attest, h.meas, h.opkeySeq, h.debugUsed, h.power, h.heat, h.pairAt, h.pairOff, h.pairLost, h.fast, h.jumpAt,
    h.tripped, h.trips, h.hbmSlow, h.fixed, h.firmware, h.sheetBase, h.reports, h.startedFor, h.ckv, h.mgmt, h.inbox,
    h.dynAddr, h.eid, h.tid, h.bscan, h.markers, h.draws, h.saPins, h.drains, h.portNext, h.heldOut, h.txAn, h.ckvBy, h.hostLines, h.hostResv, h.imsic⟩

theorem set_ringSel {vringSel} (h : Touches ps s t) (hringSel : ps.testBit 10 = true) :
    Touches ps s { t with ringSel := vringSel } :=
  ⟨h.ok, h.vt, h.vtFrac, h.rateTemp, h.rateServo, h.free, h.pending, h.out, h.regs, h.rlatch, h.wlatch,
    fun x => (Bool.noConfusion (hringSel.symm.trans x)), h.wearSel, h.mem, h.grn, h.wear, h.log, h.logBase, h.logRead,
    h.logRing, h.cores, h.bells, h.node, h.tithes, h.gws, h.cfg, h.regions, h.tracePos, h.stackMem, h.bridgeMem,
    h.invPend, h.invAcks, h.pageBell, h.nextId, h.jobs, h.xfers, h.redSteps, h.runs, h.redBytes, h.seqs, h.sheetBell,
    h.sheetGot, h.rings, h.outs, h.brackets, h.links, h.restores, h.hostTake, h.ingress, h.egress, h.qpErr, h.qpRate,
    h.cnpAt, h.conf, h.sas, h.opkey, h.led, h.xings, h.vc, h.vcmp, h.retireQ, h.lit, h.rcal, h.combCal, h.calRej,
    h.calLast, h.sensOut, h.classes, h.resets, h.fieldAt, h.mapLag, h.rolePend, h.bondHalf, h.lms, h.attest, h.meas,
    h.opkeySeq, h.debugUsed, h.power, h.heat, h.pairAt, h.pairOff, h.pairLost, h.fast, h.jumpAt, h.tripped, h.trips,
    h.hbmSlow, h.fixed, h.firmware, h.sheetBase, h.reports, h.startedFor, h.ckv, h.mgmt, h.inbox, h.dynAddr, h.eid,
    h.tid, h.bscan, h.markers, h.draws, h.saPins, h.drains, h.portNext, h.heldOut, h.txAn, h.ckvBy, h.hostLines, h.hostResv, h.imsic⟩

theorem set_wearSel {vwearSel} (h : Touches ps s t) (hwearSel : ps.testBit 11 = true) :
    Touches ps s { t with wearSel := vwearSel } :=
  ⟨h.ok, h.vt, h.vtFrac, h.rateTemp, h.rateServo, h.free, h.pending, h.out, h.regs, h.rlatch, h.wlatch, h.ringSel,
    fun x => (Bool.noConfusion (hwearSel.symm.trans x)), h.mem, h.grn, h.wear, h.log, h.logBase, h.logRead, h.logRing,
    h.cores, h.bells, h.node, h.tithes, h.gws, h.cfg, h.regions, h.tracePos, h.stackMem, h.bridgeMem, h.invPend,
    h.invAcks, h.pageBell, h.nextId, h.jobs, h.xfers, h.redSteps, h.runs, h.redBytes, h.seqs, h.sheetBell, h.sheetGot,
    h.rings, h.outs, h.brackets, h.links, h.restores, h.hostTake, h.ingress, h.egress, h.qpErr, h.qpRate, h.cnpAt,
    h.conf, h.sas, h.opkey, h.led, h.xings, h.vc, h.vcmp, h.retireQ, h.lit, h.rcal, h.combCal, h.calRej, h.calLast,
    h.sensOut, h.classes, h.resets, h.fieldAt, h.mapLag, h.rolePend, h.bondHalf, h.lms, h.attest, h.meas, h.opkeySeq,
    h.debugUsed, h.power, h.heat, h.pairAt, h.pairOff, h.pairLost, h.fast, h.jumpAt, h.tripped, h.trips, h.hbmSlow,
    h.fixed, h.firmware, h.sheetBase, h.reports, h.startedFor, h.ckv, h.mgmt, h.inbox, h.dynAddr, h.eid, h.tid,
    h.bscan, h.markers, h.draws, h.saPins, h.drains, h.portNext, h.heldOut, h.txAn, h.ckvBy, h.hostLines, h.hostResv, h.imsic⟩

theorem set_grn {vgrn} (h : Touches ps s t) (hgrn : ps.testBit 13 = true) :
    Touches ps s { t with grn := vgrn } :=
  ⟨h.ok, h.vt, h.vtFrac, h.rateTemp, h.rateServo, h.free, h.pending, h.out, h.regs, h.rlatch, h.wlatch, h.ringSel,
    h.wearSel, h.mem, fun x => (Bool.noConfusion (hgrn.symm.trans x)), h.wear, h.log, h.logBase, h.logRead, h.logRing,
    h.cores, h.bells, h.node, h.tithes, h.gws, h.cfg, h.regions, h.tracePos, h.stackMem, h.bridgeMem, h.invPend,
    h.invAcks, h.pageBell, h.nextId, h.jobs, h.xfers, h.redSteps, h.runs, h.redBytes, h.seqs, h.sheetBell, h.sheetGot,
    h.rings, h.outs, h.brackets, h.links, h.restores, h.hostTake, h.ingress, h.egress, h.qpErr, h.qpRate, h.cnpAt,
    h.conf, h.sas, h.opkey, h.led, h.xings, h.vc, h.vcmp, h.retireQ, h.lit, h.rcal, h.combCal, h.calRej, h.calLast,
    h.sensOut, h.classes, h.resets, h.fieldAt, h.mapLag, h.rolePend, h.bondHalf, h.lms, h.attest, h.meas, h.opkeySeq,
    h.debugUsed, h.power, h.heat, h.pairAt, h.pairOff, h.pairLost, h.fast, h.jumpAt, h.tripped, h.trips, h.hbmSlow,
    h.fixed, h.firmware, h.sheetBase, h.reports, h.startedFor, h.ckv, h.mgmt, h.inbox, h.dynAddr, h.eid, h.tid,
    h.bscan, h.markers, h.draws, h.saPins, h.drains, h.portNext, h.heldOut, h.txAn, h.ckvBy, h.hostLines, h.hostResv, h.imsic⟩

theorem set_wear {vwear} (h : Touches ps s t) (hwear : ps.testBit 14 = true) :
    Touches ps s { t with wear := vwear } :=
  ⟨h.ok, h.vt, h.vtFrac, h.rateTemp, h.rateServo, h.free, h.pending, h.out, h.regs, h.rlatch, h.wlatch, h.ringSel,
    h.wearSel, h.mem, h.grn, fun x => (Bool.noConfusion (hwear.symm.trans x)), h.log, h.logBase, h.logRead, h.logRing,
    h.cores, h.bells, h.node, h.tithes, h.gws, h.cfg, h.regions, h.tracePos, h.stackMem, h.bridgeMem, h.invPend,
    h.invAcks, h.pageBell, h.nextId, h.jobs, h.xfers, h.redSteps, h.runs, h.redBytes, h.seqs, h.sheetBell, h.sheetGot,
    h.rings, h.outs, h.brackets, h.links, h.restores, h.hostTake, h.ingress, h.egress, h.qpErr, h.qpRate, h.cnpAt,
    h.conf, h.sas, h.opkey, h.led, h.xings, h.vc, h.vcmp, h.retireQ, h.lit, h.rcal, h.combCal, h.calRej, h.calLast,
    h.sensOut, h.classes, h.resets, h.fieldAt, h.mapLag, h.rolePend, h.bondHalf, h.lms, h.attest, h.meas, h.opkeySeq,
    h.debugUsed, h.power, h.heat, h.pairAt, h.pairOff, h.pairLost, h.fast, h.jumpAt, h.tripped, h.trips, h.hbmSlow,
    h.fixed, h.firmware, h.sheetBase, h.reports, h.startedFor, h.ckv, h.mgmt, h.inbox, h.dynAddr, h.eid, h.tid,
    h.bscan, h.markers, h.draws, h.saPins, h.drains, h.portNext, h.heldOut, h.txAn, h.ckvBy, h.hostLines, h.hostResv, h.imsic⟩

theorem set_log {vlog} (h : Touches ps s t) (hlog : ps.testBit 15 = true) :
    Touches ps s { t with log := vlog } :=
  ⟨h.ok, h.vt, h.vtFrac, h.rateTemp, h.rateServo, h.free, h.pending, h.out, h.regs, h.rlatch, h.wlatch, h.ringSel,
    h.wearSel, h.mem, h.grn, h.wear, fun x => (Bool.noConfusion (hlog.symm.trans x)), h.logBase, h.logRead, h.logRing,
    h.cores, h.bells, h.node, h.tithes, h.gws, h.cfg, h.regions, h.tracePos, h.stackMem, h.bridgeMem, h.invPend,
    h.invAcks, h.pageBell, h.nextId, h.jobs, h.xfers, h.redSteps, h.runs, h.redBytes, h.seqs, h.sheetBell, h.sheetGot,
    h.rings, h.outs, h.brackets, h.links, h.restores, h.hostTake, h.ingress, h.egress, h.qpErr, h.qpRate, h.cnpAt,
    h.conf, h.sas, h.opkey, h.led, h.xings, h.vc, h.vcmp, h.retireQ, h.lit, h.rcal, h.combCal, h.calRej, h.calLast,
    h.sensOut, h.classes, h.resets, h.fieldAt, h.mapLag, h.rolePend, h.bondHalf, h.lms, h.attest, h.meas, h.opkeySeq,
    h.debugUsed, h.power, h.heat, h.pairAt, h.pairOff, h.pairLost, h.fast, h.jumpAt, h.tripped, h.trips, h.hbmSlow,
    h.fixed, h.firmware, h.sheetBase, h.reports, h.startedFor, h.ckv, h.mgmt, h.inbox, h.dynAddr, h.eid, h.tid,
    h.bscan, h.markers, h.draws, h.saPins, h.drains, h.portNext, h.heldOut, h.txAn, h.ckvBy, h.hostLines, h.hostResv, h.imsic⟩

theorem set_logRead {vlogRead} (h : Touches ps s t) (hlogRead : ps.testBit 17 = true) :
    Touches ps s { t with logRead := vlogRead } :=
  ⟨h.ok, h.vt, h.vtFrac, h.rateTemp, h.rateServo, h.free, h.pending, h.out, h.regs, h.rlatch, h.wlatch, h.ringSel,
    h.wearSel, h.mem, h.grn, h.wear, h.log, h.logBase, fun x => (Bool.noConfusion (hlogRead.symm.trans x)), h.logRing,
    h.cores, h.bells, h.node, h.tithes, h.gws, h.cfg, h.regions, h.tracePos, h.stackMem, h.bridgeMem, h.invPend,
    h.invAcks, h.pageBell, h.nextId, h.jobs, h.xfers, h.redSteps, h.runs, h.redBytes, h.seqs, h.sheetBell, h.sheetGot,
    h.rings, h.outs, h.brackets, h.links, h.restores, h.hostTake, h.ingress, h.egress, h.qpErr, h.qpRate, h.cnpAt,
    h.conf, h.sas, h.opkey, h.led, h.xings, h.vc, h.vcmp, h.retireQ, h.lit, h.rcal, h.combCal, h.calRej, h.calLast,
    h.sensOut, h.classes, h.resets, h.fieldAt, h.mapLag, h.rolePend, h.bondHalf, h.lms, h.attest, h.meas, h.opkeySeq,
    h.debugUsed, h.power, h.heat, h.pairAt, h.pairOff, h.pairLost, h.fast, h.jumpAt, h.tripped, h.trips, h.hbmSlow,
    h.fixed, h.firmware, h.sheetBase, h.reports, h.startedFor, h.ckv, h.mgmt, h.inbox, h.dynAddr, h.eid, h.tid,
    h.bscan, h.markers, h.draws, h.saPins, h.drains, h.portNext, h.heldOut, h.txAn, h.ckvBy, h.hostLines, h.hostResv, h.imsic⟩

theorem set_logRing {vlogRing} (h : Touches ps s t) (hlogRing : ps.testBit 18 = true) :
    Touches ps s { t with logRing := vlogRing } :=
  ⟨h.ok, h.vt, h.vtFrac, h.rateTemp, h.rateServo, h.free, h.pending, h.out, h.regs, h.rlatch, h.wlatch, h.ringSel,
    h.wearSel, h.mem, h.grn, h.wear, h.log, h.logBase, h.logRead, fun x => (Bool.noConfusion (hlogRing.symm.trans x)),
    h.cores, h.bells, h.node, h.tithes, h.gws, h.cfg, h.regions, h.tracePos, h.stackMem, h.bridgeMem, h.invPend,
    h.invAcks, h.pageBell, h.nextId, h.jobs, h.xfers, h.redSteps, h.runs, h.redBytes, h.seqs, h.sheetBell, h.sheetGot,
    h.rings, h.outs, h.brackets, h.links, h.restores, h.hostTake, h.ingress, h.egress, h.qpErr, h.qpRate, h.cnpAt,
    h.conf, h.sas, h.opkey, h.led, h.xings, h.vc, h.vcmp, h.retireQ, h.lit, h.rcal, h.combCal, h.calRej, h.calLast,
    h.sensOut, h.classes, h.resets, h.fieldAt, h.mapLag, h.rolePend, h.bondHalf, h.lms, h.attest, h.meas, h.opkeySeq,
    h.debugUsed, h.power, h.heat, h.pairAt, h.pairOff, h.pairLost, h.fast, h.jumpAt, h.tripped, h.trips, h.hbmSlow,
    h.fixed, h.firmware, h.sheetBase, h.reports, h.startedFor, h.ckv, h.mgmt, h.inbox, h.dynAddr, h.eid, h.tid,
    h.bscan, h.markers, h.draws, h.saPins, h.drains, h.portNext, h.heldOut, h.txAn, h.ckvBy, h.hostLines, h.hostResv, h.imsic⟩

theorem set_cores {vcores} (h : Touches ps s t) (hcores : ps.testBit 19 = true) :
    Touches ps s { t with cores := vcores } :=
  ⟨h.ok, h.vt, h.vtFrac, h.rateTemp, h.rateServo, h.free, h.pending, h.out, h.regs, h.rlatch, h.wlatch, h.ringSel,
    h.wearSel, h.mem, h.grn, h.wear, h.log, h.logBase, h.logRead, h.logRing,
    fun x => (Bool.noConfusion (hcores.symm.trans x)), h.bells, h.node, h.tithes, h.gws, h.cfg, h.regions, h.tracePos,
    h.stackMem, h.bridgeMem, h.invPend, h.invAcks, h.pageBell, h.nextId, h.jobs, h.xfers, h.redSteps, h.runs,
    h.redBytes, h.seqs, h.sheetBell, h.sheetGot, h.rings, h.outs, h.brackets, h.links, h.restores, h.hostTake,
    h.ingress, h.egress, h.qpErr, h.qpRate, h.cnpAt, h.conf, h.sas, h.opkey, h.led, h.xings, h.vc, h.vcmp, h.retireQ,
    h.lit, h.rcal, h.combCal, h.calRej, h.calLast, h.sensOut, h.classes, h.resets, h.fieldAt, h.mapLag, h.rolePend,
    h.bondHalf, h.lms, h.attest, h.meas, h.opkeySeq, h.debugUsed, h.power, h.heat, h.pairAt, h.pairOff, h.pairLost,
    h.fast, h.jumpAt, h.tripped, h.trips, h.hbmSlow, h.fixed, h.firmware, h.sheetBase, h.reports, h.startedFor, h.ckv,
    h.mgmt, h.inbox, h.dynAddr, h.eid, h.tid, h.bscan, h.markers, h.draws, h.saPins, h.drains, h.portNext, h.heldOut, h.txAn, h.ckvBy, h.hostLines, h.hostResv, h.imsic⟩

theorem set_bells {vbells} (h : Touches ps s t) (hbells : ps.testBit 20 = true) :
    Touches ps s { t with bells := vbells } :=
  ⟨h.ok, h.vt, h.vtFrac, h.rateTemp, h.rateServo, h.free, h.pending, h.out, h.regs, h.rlatch, h.wlatch, h.ringSel,
    h.wearSel, h.mem, h.grn, h.wear, h.log, h.logBase, h.logRead, h.logRing, h.cores,
    fun x => (Bool.noConfusion (hbells.symm.trans x)), h.node, h.tithes, h.gws, h.cfg, h.regions, h.tracePos,
    h.stackMem, h.bridgeMem, h.invPend, h.invAcks, h.pageBell, h.nextId, h.jobs, h.xfers, h.redSteps, h.runs,
    h.redBytes, h.seqs, h.sheetBell, h.sheetGot, h.rings, h.outs, h.brackets, h.links, h.restores, h.hostTake,
    h.ingress, h.egress, h.qpErr, h.qpRate, h.cnpAt, h.conf, h.sas, h.opkey, h.led, h.xings, h.vc, h.vcmp, h.retireQ,
    h.lit, h.rcal, h.combCal, h.calRej, h.calLast, h.sensOut, h.classes, h.resets, h.fieldAt, h.mapLag, h.rolePend,
    h.bondHalf, h.lms, h.attest, h.meas, h.opkeySeq, h.debugUsed, h.power, h.heat, h.pairAt, h.pairOff, h.pairLost,
    h.fast, h.jumpAt, h.tripped, h.trips, h.hbmSlow, h.fixed, h.firmware, h.sheetBase, h.reports, h.startedFor, h.ckv,
    h.mgmt, h.inbox, h.dynAddr, h.eid, h.tid, h.bscan, h.markers, h.draws, h.saPins, h.drains, h.portNext, h.heldOut, h.txAn, h.ckvBy, h.hostLines, h.hostResv, h.imsic⟩

theorem set_node {vnode} (h : Touches ps s t) (hnode : ps.testBit 21 = true) :
    Touches ps s { t with node := vnode } :=
  ⟨h.ok, h.vt, h.vtFrac, h.rateTemp, h.rateServo, h.free, h.pending, h.out, h.regs, h.rlatch, h.wlatch, h.ringSel,
    h.wearSel, h.mem, h.grn, h.wear, h.log, h.logBase, h.logRead, h.logRing, h.cores, h.bells,
    fun x => (Bool.noConfusion (hnode.symm.trans x)), h.tithes, h.gws, h.cfg, h.regions, h.tracePos, h.stackMem,
    h.bridgeMem, h.invPend, h.invAcks, h.pageBell, h.nextId, h.jobs, h.xfers, h.redSteps, h.runs, h.redBytes, h.seqs,
    h.sheetBell, h.sheetGot, h.rings, h.outs, h.brackets, h.links, h.restores, h.hostTake, h.ingress, h.egress,
    h.qpErr, h.qpRate, h.cnpAt, h.conf, h.sas, h.opkey, h.led, h.xings, h.vc, h.vcmp, h.retireQ, h.lit, h.rcal,
    h.combCal, h.calRej, h.calLast, h.sensOut, h.classes, h.resets, h.fieldAt, h.mapLag, h.rolePend, h.bondHalf, h.lms,
    h.attest, h.meas, h.opkeySeq, h.debugUsed, h.power, h.heat, h.pairAt, h.pairOff, h.pairLost, h.fast, h.jumpAt,
    h.tripped, h.trips, h.hbmSlow, h.fixed, h.firmware, h.sheetBase, h.reports, h.startedFor, h.ckv, h.mgmt, h.inbox,
    h.dynAddr, h.eid, h.tid, h.bscan, h.markers, h.draws, h.saPins, h.drains, h.portNext, h.heldOut, h.txAn, h.ckvBy, h.hostLines, h.hostResv, h.imsic⟩

theorem set_tithes {vtithes} (h : Touches ps s t) (htithes : ps.testBit 22 = true) :
    Touches ps s { t with tithes := vtithes } :=
  ⟨h.ok, h.vt, h.vtFrac, h.rateTemp, h.rateServo, h.free, h.pending, h.out, h.regs, h.rlatch, h.wlatch, h.ringSel,
    h.wearSel, h.mem, h.grn, h.wear, h.log, h.logBase, h.logRead, h.logRing, h.cores, h.bells, h.node,
    fun x => (Bool.noConfusion (htithes.symm.trans x)), h.gws, h.cfg, h.regions, h.tracePos, h.stackMem, h.bridgeMem,
    h.invPend, h.invAcks, h.pageBell, h.nextId, h.jobs, h.xfers, h.redSteps, h.runs, h.redBytes, h.seqs, h.sheetBell,
    h.sheetGot, h.rings, h.outs, h.brackets, h.links, h.restores, h.hostTake, h.ingress, h.egress, h.qpErr, h.qpRate,
    h.cnpAt, h.conf, h.sas, h.opkey, h.led, h.xings, h.vc, h.vcmp, h.retireQ, h.lit, h.rcal, h.combCal, h.calRej,
    h.calLast, h.sensOut, h.classes, h.resets, h.fieldAt, h.mapLag, h.rolePend, h.bondHalf, h.lms, h.attest, h.meas,
    h.opkeySeq, h.debugUsed, h.power, h.heat, h.pairAt, h.pairOff, h.pairLost, h.fast, h.jumpAt, h.tripped, h.trips,
    h.hbmSlow, h.fixed, h.firmware, h.sheetBase, h.reports, h.startedFor, h.ckv, h.mgmt, h.inbox, h.dynAddr, h.eid,
    h.tid, h.bscan, h.markers, h.draws, h.saPins, h.drains, h.portNext, h.heldOut, h.txAn, h.ckvBy, h.hostLines, h.hostResv, h.imsic⟩

theorem set_gws {vgws} (h : Touches ps s t) (hgws : ps.testBit 23 = true) :
    Touches ps s { t with gws := vgws } :=
  ⟨h.ok, h.vt, h.vtFrac, h.rateTemp, h.rateServo, h.free, h.pending, h.out, h.regs, h.rlatch, h.wlatch, h.ringSel,
    h.wearSel, h.mem, h.grn, h.wear, h.log, h.logBase, h.logRead, h.logRing, h.cores, h.bells, h.node, h.tithes,
    fun x => (Bool.noConfusion (hgws.symm.trans x)), h.cfg, h.regions, h.tracePos, h.stackMem, h.bridgeMem, h.invPend,
    h.invAcks, h.pageBell, h.nextId, h.jobs, h.xfers, h.redSteps, h.runs, h.redBytes, h.seqs, h.sheetBell, h.sheetGot,
    h.rings, h.outs, h.brackets, h.links, h.restores, h.hostTake, h.ingress, h.egress, h.qpErr, h.qpRate, h.cnpAt,
    h.conf, h.sas, h.opkey, h.led, h.xings, h.vc, h.vcmp, h.retireQ, h.lit, h.rcal, h.combCal, h.calRej, h.calLast,
    h.sensOut, h.classes, h.resets, h.fieldAt, h.mapLag, h.rolePend, h.bondHalf, h.lms, h.attest, h.meas, h.opkeySeq,
    h.debugUsed, h.power, h.heat, h.pairAt, h.pairOff, h.pairLost, h.fast, h.jumpAt, h.tripped, h.trips, h.hbmSlow,
    h.fixed, h.firmware, h.sheetBase, h.reports, h.startedFor, h.ckv, h.mgmt, h.inbox, h.dynAddr, h.eid, h.tid,
    h.bscan, h.markers, h.draws, h.saPins, h.drains, h.portNext, h.heldOut, h.txAn, h.ckvBy, h.hostLines, h.hostResv, h.imsic⟩

theorem set_cfg {vcfg} (h : Touches ps s t) (hcfg : ps.testBit 24 = true) :
    Touches ps s { t with cfg := vcfg } :=
  ⟨h.ok, h.vt, h.vtFrac, h.rateTemp, h.rateServo, h.free, h.pending, h.out, h.regs, h.rlatch, h.wlatch, h.ringSel,
    h.wearSel, h.mem, h.grn, h.wear, h.log, h.logBase, h.logRead, h.logRing, h.cores, h.bells, h.node, h.tithes, h.gws,
    fun x => (Bool.noConfusion (hcfg.symm.trans x)), h.regions, h.tracePos, h.stackMem, h.bridgeMem, h.invPend,
    h.invAcks, h.pageBell, h.nextId, h.jobs, h.xfers, h.redSteps, h.runs, h.redBytes, h.seqs, h.sheetBell, h.sheetGot,
    h.rings, h.outs, h.brackets, h.links, h.restores, h.hostTake, h.ingress, h.egress, h.qpErr, h.qpRate, h.cnpAt,
    h.conf, h.sas, h.opkey, h.led, h.xings, h.vc, h.vcmp, h.retireQ, h.lit, h.rcal, h.combCal, h.calRej, h.calLast,
    h.sensOut, h.classes, h.resets, h.fieldAt, h.mapLag, h.rolePend, h.bondHalf, h.lms, h.attest, h.meas, h.opkeySeq,
    h.debugUsed, h.power, h.heat, h.pairAt, h.pairOff, h.pairLost, h.fast, h.jumpAt, h.tripped, h.trips, h.hbmSlow,
    h.fixed, h.firmware, h.sheetBase, h.reports, h.startedFor, h.ckv, h.mgmt, h.inbox, h.dynAddr, h.eid, h.tid,
    h.bscan, h.markers, h.draws, h.saPins, h.drains, h.portNext, h.heldOut, h.txAn, h.ckvBy, h.hostLines, h.hostResv, h.imsic⟩

theorem set_regions {vregions} (h : Touches ps s t) (hregions : ps.testBit 25 = true) :
    Touches ps s { t with regions := vregions } :=
  ⟨h.ok, h.vt, h.vtFrac, h.rateTemp, h.rateServo, h.free, h.pending, h.out, h.regs, h.rlatch, h.wlatch, h.ringSel,
    h.wearSel, h.mem, h.grn, h.wear, h.log, h.logBase, h.logRead, h.logRing, h.cores, h.bells, h.node, h.tithes, h.gws,
    h.cfg, fun x => (Bool.noConfusion (hregions.symm.trans x)), h.tracePos, h.stackMem, h.bridgeMem, h.invPend,
    h.invAcks, h.pageBell, h.nextId, h.jobs, h.xfers, h.redSteps, h.runs, h.redBytes, h.seqs, h.sheetBell, h.sheetGot,
    h.rings, h.outs, h.brackets, h.links, h.restores, h.hostTake, h.ingress, h.egress, h.qpErr, h.qpRate, h.cnpAt,
    h.conf, h.sas, h.opkey, h.led, h.xings, h.vc, h.vcmp, h.retireQ, h.lit, h.rcal, h.combCal, h.calRej, h.calLast,
    h.sensOut, h.classes, h.resets, h.fieldAt, h.mapLag, h.rolePend, h.bondHalf, h.lms, h.attest, h.meas, h.opkeySeq,
    h.debugUsed, h.power, h.heat, h.pairAt, h.pairOff, h.pairLost, h.fast, h.jumpAt, h.tripped, h.trips, h.hbmSlow,
    h.fixed, h.firmware, h.sheetBase, h.reports, h.startedFor, h.ckv, h.mgmt, h.inbox, h.dynAddr, h.eid, h.tid,
    h.bscan, h.markers, h.draws, h.saPins, h.drains, h.portNext, h.heldOut, h.txAn, h.ckvBy, h.hostLines, h.hostResv, h.imsic⟩

theorem set_tracePos {vtracePos} (h : Touches ps s t) (htracePos : ps.testBit 26 = true) :
    Touches ps s { t with tracePos := vtracePos } :=
  ⟨h.ok, h.vt, h.vtFrac, h.rateTemp, h.rateServo, h.free, h.pending, h.out, h.regs, h.rlatch, h.wlatch, h.ringSel,
    h.wearSel, h.mem, h.grn, h.wear, h.log, h.logBase, h.logRead, h.logRing, h.cores, h.bells, h.node, h.tithes, h.gws,
    h.cfg, h.regions, fun x => (Bool.noConfusion (htracePos.symm.trans x)), h.stackMem, h.bridgeMem, h.invPend,
    h.invAcks, h.pageBell, h.nextId, h.jobs, h.xfers, h.redSteps, h.runs, h.redBytes, h.seqs, h.sheetBell, h.sheetGot,
    h.rings, h.outs, h.brackets, h.links, h.restores, h.hostTake, h.ingress, h.egress, h.qpErr, h.qpRate, h.cnpAt,
    h.conf, h.sas, h.opkey, h.led, h.xings, h.vc, h.vcmp, h.retireQ, h.lit, h.rcal, h.combCal, h.calRej, h.calLast,
    h.sensOut, h.classes, h.resets, h.fieldAt, h.mapLag, h.rolePend, h.bondHalf, h.lms, h.attest, h.meas, h.opkeySeq,
    h.debugUsed, h.power, h.heat, h.pairAt, h.pairOff, h.pairLost, h.fast, h.jumpAt, h.tripped, h.trips, h.hbmSlow,
    h.fixed, h.firmware, h.sheetBase, h.reports, h.startedFor, h.ckv, h.mgmt, h.inbox, h.dynAddr, h.eid, h.tid,
    h.bscan, h.markers, h.draws, h.saPins, h.drains, h.portNext, h.heldOut, h.txAn, h.ckvBy, h.hostLines, h.hostResv, h.imsic⟩

theorem set_stackMem {vstackMem} (h : Touches ps s t) (hstackMem : ps.testBit 27 = true) :
    Touches ps s { t with stackMem := vstackMem } :=
  ⟨h.ok, h.vt, h.vtFrac, h.rateTemp, h.rateServo, h.free, h.pending, h.out, h.regs, h.rlatch, h.wlatch, h.ringSel,
    h.wearSel, h.mem, h.grn, h.wear, h.log, h.logBase, h.logRead, h.logRing, h.cores, h.bells, h.node, h.tithes, h.gws,
    h.cfg, h.regions, h.tracePos, fun x => (Bool.noConfusion (hstackMem.symm.trans x)), h.bridgeMem, h.invPend,
    h.invAcks, h.pageBell, h.nextId, h.jobs, h.xfers, h.redSteps, h.runs, h.redBytes, h.seqs, h.sheetBell, h.sheetGot,
    h.rings, h.outs, h.brackets, h.links, h.restores, h.hostTake, h.ingress, h.egress, h.qpErr, h.qpRate, h.cnpAt,
    h.conf, h.sas, h.opkey, h.led, h.xings, h.vc, h.vcmp, h.retireQ, h.lit, h.rcal, h.combCal, h.calRej, h.calLast,
    h.sensOut, h.classes, h.resets, h.fieldAt, h.mapLag, h.rolePend, h.bondHalf, h.lms, h.attest, h.meas, h.opkeySeq,
    h.debugUsed, h.power, h.heat, h.pairAt, h.pairOff, h.pairLost, h.fast, h.jumpAt, h.tripped, h.trips, h.hbmSlow,
    h.fixed, h.firmware, h.sheetBase, h.reports, h.startedFor, h.ckv, h.mgmt, h.inbox, h.dynAddr, h.eid, h.tid,
    h.bscan, h.markers, h.draws, h.saPins, h.drains, h.portNext, h.heldOut, h.txAn, h.ckvBy, h.hostLines, h.hostResv, h.imsic⟩

theorem set_bridgeMem {vbridgeMem} (h : Touches ps s t) (hbridgeMem : ps.testBit 28 = true) :
    Touches ps s { t with bridgeMem := vbridgeMem } :=
  ⟨h.ok, h.vt, h.vtFrac, h.rateTemp, h.rateServo, h.free, h.pending, h.out, h.regs, h.rlatch, h.wlatch, h.ringSel,
    h.wearSel, h.mem, h.grn, h.wear, h.log, h.logBase, h.logRead, h.logRing, h.cores, h.bells, h.node, h.tithes, h.gws,
    h.cfg, h.regions, h.tracePos, h.stackMem, fun x => (Bool.noConfusion (hbridgeMem.symm.trans x)), h.invPend,
    h.invAcks, h.pageBell, h.nextId, h.jobs, h.xfers, h.redSteps, h.runs, h.redBytes, h.seqs, h.sheetBell, h.sheetGot,
    h.rings, h.outs, h.brackets, h.links, h.restores, h.hostTake, h.ingress, h.egress, h.qpErr, h.qpRate, h.cnpAt,
    h.conf, h.sas, h.opkey, h.led, h.xings, h.vc, h.vcmp, h.retireQ, h.lit, h.rcal, h.combCal, h.calRej, h.calLast,
    h.sensOut, h.classes, h.resets, h.fieldAt, h.mapLag, h.rolePend, h.bondHalf, h.lms, h.attest, h.meas, h.opkeySeq,
    h.debugUsed, h.power, h.heat, h.pairAt, h.pairOff, h.pairLost, h.fast, h.jumpAt, h.tripped, h.trips, h.hbmSlow,
    h.fixed, h.firmware, h.sheetBase, h.reports, h.startedFor, h.ckv, h.mgmt, h.inbox, h.dynAddr, h.eid, h.tid,
    h.bscan, h.markers, h.draws, h.saPins, h.drains, h.portNext, h.heldOut, h.txAn, h.ckvBy, h.hostLines, h.hostResv, h.imsic⟩

theorem set_invPend {vinvPend} (h : Touches ps s t) (hinvPend : ps.testBit 29 = true) :
    Touches ps s { t with invPend := vinvPend } :=
  ⟨h.ok, h.vt, h.vtFrac, h.rateTemp, h.rateServo, h.free, h.pending, h.out, h.regs, h.rlatch, h.wlatch, h.ringSel,
    h.wearSel, h.mem, h.grn, h.wear, h.log, h.logBase, h.logRead, h.logRing, h.cores, h.bells, h.node, h.tithes, h.gws,
    h.cfg, h.regions, h.tracePos, h.stackMem, h.bridgeMem, fun x => (Bool.noConfusion (hinvPend.symm.trans x)),
    h.invAcks, h.pageBell, h.nextId, h.jobs, h.xfers, h.redSteps, h.runs, h.redBytes, h.seqs, h.sheetBell, h.sheetGot,
    h.rings, h.outs, h.brackets, h.links, h.restores, h.hostTake, h.ingress, h.egress, h.qpErr, h.qpRate, h.cnpAt,
    h.conf, h.sas, h.opkey, h.led, h.xings, h.vc, h.vcmp, h.retireQ, h.lit, h.rcal, h.combCal, h.calRej, h.calLast,
    h.sensOut, h.classes, h.resets, h.fieldAt, h.mapLag, h.rolePend, h.bondHalf, h.lms, h.attest, h.meas, h.opkeySeq,
    h.debugUsed, h.power, h.heat, h.pairAt, h.pairOff, h.pairLost, h.fast, h.jumpAt, h.tripped, h.trips, h.hbmSlow,
    h.fixed, h.firmware, h.sheetBase, h.reports, h.startedFor, h.ckv, h.mgmt, h.inbox, h.dynAddr, h.eid, h.tid,
    h.bscan, h.markers, h.draws, h.saPins, h.drains, h.portNext, h.heldOut, h.txAn, h.ckvBy, h.hostLines, h.hostResv, h.imsic⟩

theorem set_invAcks {vinvAcks} (h : Touches ps s t) (hinvAcks : ps.testBit 30 = true) :
    Touches ps s { t with invAcks := vinvAcks } :=
  ⟨h.ok, h.vt, h.vtFrac, h.rateTemp, h.rateServo, h.free, h.pending, h.out, h.regs, h.rlatch, h.wlatch, h.ringSel,
    h.wearSel, h.mem, h.grn, h.wear, h.log, h.logBase, h.logRead, h.logRing, h.cores, h.bells, h.node, h.tithes, h.gws,
    h.cfg, h.regions, h.tracePos, h.stackMem, h.bridgeMem, h.invPend,
    fun x => (Bool.noConfusion (hinvAcks.symm.trans x)), h.pageBell, h.nextId, h.jobs, h.xfers, h.redSteps, h.runs,
    h.redBytes, h.seqs, h.sheetBell, h.sheetGot, h.rings, h.outs, h.brackets, h.links, h.restores, h.hostTake,
    h.ingress, h.egress, h.qpErr, h.qpRate, h.cnpAt, h.conf, h.sas, h.opkey, h.led, h.xings, h.vc, h.vcmp, h.retireQ,
    h.lit, h.rcal, h.combCal, h.calRej, h.calLast, h.sensOut, h.classes, h.resets, h.fieldAt, h.mapLag, h.rolePend,
    h.bondHalf, h.lms, h.attest, h.meas, h.opkeySeq, h.debugUsed, h.power, h.heat, h.pairAt, h.pairOff, h.pairLost,
    h.fast, h.jumpAt, h.tripped, h.trips, h.hbmSlow, h.fixed, h.firmware, h.sheetBase, h.reports, h.startedFor, h.ckv,
    h.mgmt, h.inbox, h.dynAddr, h.eid, h.tid, h.bscan, h.markers, h.draws, h.saPins, h.drains, h.portNext, h.heldOut, h.txAn, h.ckvBy, h.hostLines, h.hostResv, h.imsic⟩

theorem set_pageBell {vpageBell} (h : Touches ps s t) (hpageBell : ps.testBit 31 = true) :
    Touches ps s { t with pageBell := vpageBell } :=
  ⟨h.ok, h.vt, h.vtFrac, h.rateTemp, h.rateServo, h.free, h.pending, h.out, h.regs, h.rlatch, h.wlatch, h.ringSel,
    h.wearSel, h.mem, h.grn, h.wear, h.log, h.logBase, h.logRead, h.logRing, h.cores, h.bells, h.node, h.tithes, h.gws,
    h.cfg, h.regions, h.tracePos, h.stackMem, h.bridgeMem, h.invPend, h.invAcks,
    fun x => (Bool.noConfusion (hpageBell.symm.trans x)), h.nextId, h.jobs, h.xfers, h.redSteps, h.runs, h.redBytes,
    h.seqs, h.sheetBell, h.sheetGot, h.rings, h.outs, h.brackets, h.links, h.restores, h.hostTake, h.ingress, h.egress,
    h.qpErr, h.qpRate, h.cnpAt, h.conf, h.sas, h.opkey, h.led, h.xings, h.vc, h.vcmp, h.retireQ, h.lit, h.rcal,
    h.combCal, h.calRej, h.calLast, h.sensOut, h.classes, h.resets, h.fieldAt, h.mapLag, h.rolePend, h.bondHalf, h.lms,
    h.attest, h.meas, h.opkeySeq, h.debugUsed, h.power, h.heat, h.pairAt, h.pairOff, h.pairLost, h.fast, h.jumpAt,
    h.tripped, h.trips, h.hbmSlow, h.fixed, h.firmware, h.sheetBase, h.reports, h.startedFor, h.ckv, h.mgmt, h.inbox,
    h.dynAddr, h.eid, h.tid, h.bscan, h.markers, h.draws, h.saPins, h.drains, h.portNext, h.heldOut, h.txAn, h.ckvBy, h.hostLines, h.hostResv, h.imsic⟩

theorem set_nextId {vnextId} (h : Touches ps s t) (hnextId : ps.testBit 32 = true) :
    Touches ps s { t with nextId := vnextId } :=
  ⟨h.ok, h.vt, h.vtFrac, h.rateTemp, h.rateServo, h.free, h.pending, h.out, h.regs, h.rlatch, h.wlatch, h.ringSel,
    h.wearSel, h.mem, h.grn, h.wear, h.log, h.logBase, h.logRead, h.logRing, h.cores, h.bells, h.node, h.tithes, h.gws,
    h.cfg, h.regions, h.tracePos, h.stackMem, h.bridgeMem, h.invPend, h.invAcks, h.pageBell,
    fun x => (Bool.noConfusion (hnextId.symm.trans x)), h.jobs, h.xfers, h.redSteps, h.runs, h.redBytes, h.seqs,
    h.sheetBell, h.sheetGot, h.rings, h.outs, h.brackets, h.links, h.restores, h.hostTake, h.ingress, h.egress,
    h.qpErr, h.qpRate, h.cnpAt, h.conf, h.sas, h.opkey, h.led, h.xings, h.vc, h.vcmp, h.retireQ, h.lit, h.rcal,
    h.combCal, h.calRej, h.calLast, h.sensOut, h.classes, h.resets, h.fieldAt, h.mapLag, h.rolePend, h.bondHalf, h.lms,
    h.attest, h.meas, h.opkeySeq, h.debugUsed, h.power, h.heat, h.pairAt, h.pairOff, h.pairLost, h.fast, h.jumpAt,
    h.tripped, h.trips, h.hbmSlow, h.fixed, h.firmware, h.sheetBase, h.reports, h.startedFor, h.ckv, h.mgmt, h.inbox,
    h.dynAddr, h.eid, h.tid, h.bscan, h.markers, h.draws, h.saPins, h.drains, h.portNext, h.heldOut, h.txAn, h.ckvBy, h.hostLines, h.hostResv, h.imsic⟩

theorem set_jobs {vjobs} (h : Touches ps s t) (hjobs : ps.testBit 33 = true) :
    Touches ps s { t with jobs := vjobs } :=
  ⟨h.ok, h.vt, h.vtFrac, h.rateTemp, h.rateServo, h.free, h.pending, h.out, h.regs, h.rlatch, h.wlatch, h.ringSel,
    h.wearSel, h.mem, h.grn, h.wear, h.log, h.logBase, h.logRead, h.logRing, h.cores, h.bells, h.node, h.tithes, h.gws,
    h.cfg, h.regions, h.tracePos, h.stackMem, h.bridgeMem, h.invPend, h.invAcks, h.pageBell, h.nextId,
    fun x => (Bool.noConfusion (hjobs.symm.trans x)), h.xfers, h.redSteps, h.runs, h.redBytes, h.seqs, h.sheetBell,
    h.sheetGot, h.rings, h.outs, h.brackets, h.links, h.restores, h.hostTake, h.ingress, h.egress, h.qpErr, h.qpRate,
    h.cnpAt, h.conf, h.sas, h.opkey, h.led, h.xings, h.vc, h.vcmp, h.retireQ, h.lit, h.rcal, h.combCal, h.calRej,
    h.calLast, h.sensOut, h.classes, h.resets, h.fieldAt, h.mapLag, h.rolePend, h.bondHalf, h.lms, h.attest, h.meas,
    h.opkeySeq, h.debugUsed, h.power, h.heat, h.pairAt, h.pairOff, h.pairLost, h.fast, h.jumpAt, h.tripped, h.trips,
    h.hbmSlow, h.fixed, h.firmware, h.sheetBase, h.reports, h.startedFor, h.ckv, h.mgmt, h.inbox, h.dynAddr, h.eid,
    h.tid, h.bscan, h.markers, h.draws, h.saPins, h.drains, h.portNext, h.heldOut, h.txAn, h.ckvBy, h.hostLines, h.hostResv, h.imsic⟩

theorem set_xfers {vxfers} (h : Touches ps s t) (hxfers : ps.testBit 34 = true) :
    Touches ps s { t with xfers := vxfers } :=
  ⟨h.ok, h.vt, h.vtFrac, h.rateTemp, h.rateServo, h.free, h.pending, h.out, h.regs, h.rlatch, h.wlatch, h.ringSel,
    h.wearSel, h.mem, h.grn, h.wear, h.log, h.logBase, h.logRead, h.logRing, h.cores, h.bells, h.node, h.tithes, h.gws,
    h.cfg, h.regions, h.tracePos, h.stackMem, h.bridgeMem, h.invPend, h.invAcks, h.pageBell, h.nextId, h.jobs,
    fun x => (Bool.noConfusion (hxfers.symm.trans x)), h.redSteps, h.runs, h.redBytes, h.seqs, h.sheetBell, h.sheetGot,
    h.rings, h.outs, h.brackets, h.links, h.restores, h.hostTake, h.ingress, h.egress, h.qpErr, h.qpRate, h.cnpAt,
    h.conf, h.sas, h.opkey, h.led, h.xings, h.vc, h.vcmp, h.retireQ, h.lit, h.rcal, h.combCal, h.calRej, h.calLast,
    h.sensOut, h.classes, h.resets, h.fieldAt, h.mapLag, h.rolePend, h.bondHalf, h.lms, h.attest, h.meas, h.opkeySeq,
    h.debugUsed, h.power, h.heat, h.pairAt, h.pairOff, h.pairLost, h.fast, h.jumpAt, h.tripped, h.trips, h.hbmSlow,
    h.fixed, h.firmware, h.sheetBase, h.reports, h.startedFor, h.ckv, h.mgmt, h.inbox, h.dynAddr, h.eid, h.tid,
    h.bscan, h.markers, h.draws, h.saPins, h.drains, h.portNext, h.heldOut, h.txAn, h.ckvBy, h.hostLines, h.hostResv, h.imsic⟩

theorem set_redSteps {vredSteps} (h : Touches ps s t) (hredSteps : ps.testBit 35 = true) :
    Touches ps s { t with redSteps := vredSteps } :=
  ⟨h.ok, h.vt, h.vtFrac, h.rateTemp, h.rateServo, h.free, h.pending, h.out, h.regs, h.rlatch, h.wlatch, h.ringSel,
    h.wearSel, h.mem, h.grn, h.wear, h.log, h.logBase, h.logRead, h.logRing, h.cores, h.bells, h.node, h.tithes, h.gws,
    h.cfg, h.regions, h.tracePos, h.stackMem, h.bridgeMem, h.invPend, h.invAcks, h.pageBell, h.nextId, h.jobs, h.xfers,
    fun x => (Bool.noConfusion (hredSteps.symm.trans x)), h.runs, h.redBytes, h.seqs, h.sheetBell, h.sheetGot, h.rings,
    h.outs, h.brackets, h.links, h.restores, h.hostTake, h.ingress, h.egress, h.qpErr, h.qpRate, h.cnpAt, h.conf,
    h.sas, h.opkey, h.led, h.xings, h.vc, h.vcmp, h.retireQ, h.lit, h.rcal, h.combCal, h.calRej, h.calLast, h.sensOut,
    h.classes, h.resets, h.fieldAt, h.mapLag, h.rolePend, h.bondHalf, h.lms, h.attest, h.meas, h.opkeySeq, h.debugUsed,
    h.power, h.heat, h.pairAt, h.pairOff, h.pairLost, h.fast, h.jumpAt, h.tripped, h.trips, h.hbmSlow, h.fixed,
    h.firmware, h.sheetBase, h.reports, h.startedFor, h.ckv, h.mgmt, h.inbox, h.dynAddr, h.eid, h.tid, h.bscan, h.markers, h.draws, h.saPins, h.drains, h.portNext, h.heldOut, h.txAn, h.ckvBy, h.hostLines, h.hostResv, h.imsic⟩

theorem set_runs {vruns} (h : Touches ps s t) (hruns : ps.testBit 36 = true) :
    Touches ps s { t with runs := vruns } :=
  ⟨h.ok, h.vt, h.vtFrac, h.rateTemp, h.rateServo, h.free, h.pending, h.out, h.regs, h.rlatch, h.wlatch, h.ringSel,
    h.wearSel, h.mem, h.grn, h.wear, h.log, h.logBase, h.logRead, h.logRing, h.cores, h.bells, h.node, h.tithes, h.gws,
    h.cfg, h.regions, h.tracePos, h.stackMem, h.bridgeMem, h.invPend, h.invAcks, h.pageBell, h.nextId, h.jobs, h.xfers,
    h.redSteps, fun x => (Bool.noConfusion (hruns.symm.trans x)), h.redBytes, h.seqs, h.sheetBell, h.sheetGot, h.rings,
    h.outs, h.brackets, h.links, h.restores, h.hostTake, h.ingress, h.egress, h.qpErr, h.qpRate, h.cnpAt, h.conf,
    h.sas, h.opkey, h.led, h.xings, h.vc, h.vcmp, h.retireQ, h.lit, h.rcal, h.combCal, h.calRej, h.calLast, h.sensOut,
    h.classes, h.resets, h.fieldAt, h.mapLag, h.rolePend, h.bondHalf, h.lms, h.attest, h.meas, h.opkeySeq, h.debugUsed,
    h.power, h.heat, h.pairAt, h.pairOff, h.pairLost, h.fast, h.jumpAt, h.tripped, h.trips, h.hbmSlow, h.fixed,
    h.firmware, h.sheetBase, h.reports, h.startedFor, h.ckv, h.mgmt, h.inbox, h.dynAddr, h.eid, h.tid, h.bscan, h.markers, h.draws, h.saPins, h.drains, h.portNext, h.heldOut, h.txAn, h.ckvBy, h.hostLines, h.hostResv, h.imsic⟩

theorem set_redBytes {vredBytes} (h : Touches ps s t) (hredBytes : ps.testBit 37 = true) :
    Touches ps s { t with redBytes := vredBytes } :=
  ⟨h.ok, h.vt, h.vtFrac, h.rateTemp, h.rateServo, h.free, h.pending, h.out, h.regs, h.rlatch, h.wlatch, h.ringSel,
    h.wearSel, h.mem, h.grn, h.wear, h.log, h.logBase, h.logRead, h.logRing, h.cores, h.bells, h.node, h.tithes, h.gws,
    h.cfg, h.regions, h.tracePos, h.stackMem, h.bridgeMem, h.invPend, h.invAcks, h.pageBell, h.nextId, h.jobs, h.xfers,
    h.redSteps, h.runs, fun x => (Bool.noConfusion (hredBytes.symm.trans x)), h.seqs, h.sheetBell, h.sheetGot, h.rings,
    h.outs, h.brackets, h.links, h.restores, h.hostTake, h.ingress, h.egress, h.qpErr, h.qpRate, h.cnpAt, h.conf,
    h.sas, h.opkey, h.led, h.xings, h.vc, h.vcmp, h.retireQ, h.lit, h.rcal, h.combCal, h.calRej, h.calLast, h.sensOut,
    h.classes, h.resets, h.fieldAt, h.mapLag, h.rolePend, h.bondHalf, h.lms, h.attest, h.meas, h.opkeySeq, h.debugUsed,
    h.power, h.heat, h.pairAt, h.pairOff, h.pairLost, h.fast, h.jumpAt, h.tripped, h.trips, h.hbmSlow, h.fixed,
    h.firmware, h.sheetBase, h.reports, h.startedFor, h.ckv, h.mgmt, h.inbox, h.dynAddr, h.eid, h.tid, h.bscan, h.markers, h.draws, h.saPins, h.drains, h.portNext, h.heldOut, h.txAn, h.ckvBy, h.hostLines, h.hostResv, h.imsic⟩

theorem set_seqs {vseqs} (h : Touches ps s t) (hseqs : ps.testBit 38 = true) :
    Touches ps s { t with seqs := vseqs } :=
  ⟨h.ok, h.vt, h.vtFrac, h.rateTemp, h.rateServo, h.free, h.pending, h.out, h.regs, h.rlatch, h.wlatch, h.ringSel,
    h.wearSel, h.mem, h.grn, h.wear, h.log, h.logBase, h.logRead, h.logRing, h.cores, h.bells, h.node, h.tithes, h.gws,
    h.cfg, h.regions, h.tracePos, h.stackMem, h.bridgeMem, h.invPend, h.invAcks, h.pageBell, h.nextId, h.jobs, h.xfers,
    h.redSteps, h.runs, h.redBytes, fun x => (Bool.noConfusion (hseqs.symm.trans x)), h.sheetBell, h.sheetGot, h.rings,
    h.outs, h.brackets, h.links, h.restores, h.hostTake, h.ingress, h.egress, h.qpErr, h.qpRate, h.cnpAt, h.conf,
    h.sas, h.opkey, h.led, h.xings, h.vc, h.vcmp, h.retireQ, h.lit, h.rcal, h.combCal, h.calRej, h.calLast, h.sensOut,
    h.classes, h.resets, h.fieldAt, h.mapLag, h.rolePend, h.bondHalf, h.lms, h.attest, h.meas, h.opkeySeq, h.debugUsed,
    h.power, h.heat, h.pairAt, h.pairOff, h.pairLost, h.fast, h.jumpAt, h.tripped, h.trips, h.hbmSlow, h.fixed,
    h.firmware, h.sheetBase, h.reports, h.startedFor, h.ckv, h.mgmt, h.inbox, h.dynAddr, h.eid, h.tid, h.bscan, h.markers, h.draws, h.saPins, h.drains, h.portNext, h.heldOut, h.txAn, h.ckvBy, h.hostLines, h.hostResv, h.imsic⟩

theorem set_rings {vrings} (h : Touches ps s t) (hrings : ps.testBit 41 = true) :
    Touches ps s { t with rings := vrings } :=
  ⟨h.ok, h.vt, h.vtFrac, h.rateTemp, h.rateServo, h.free, h.pending, h.out, h.regs, h.rlatch, h.wlatch, h.ringSel,
    h.wearSel, h.mem, h.grn, h.wear, h.log, h.logBase, h.logRead, h.logRing, h.cores, h.bells, h.node, h.tithes, h.gws,
    h.cfg, h.regions, h.tracePos, h.stackMem, h.bridgeMem, h.invPend, h.invAcks, h.pageBell, h.nextId, h.jobs, h.xfers,
    h.redSteps, h.runs, h.redBytes, h.seqs, h.sheetBell, h.sheetGot, fun x => (Bool.noConfusion (hrings.symm.trans x)),
    h.outs, h.brackets, h.links, h.restores, h.hostTake, h.ingress, h.egress, h.qpErr, h.qpRate, h.cnpAt, h.conf,
    h.sas, h.opkey, h.led, h.xings, h.vc, h.vcmp, h.retireQ, h.lit, h.rcal, h.combCal, h.calRej, h.calLast, h.sensOut,
    h.classes, h.resets, h.fieldAt, h.mapLag, h.rolePend, h.bondHalf, h.lms, h.attest, h.meas, h.opkeySeq, h.debugUsed,
    h.power, h.heat, h.pairAt, h.pairOff, h.pairLost, h.fast, h.jumpAt, h.tripped, h.trips, h.hbmSlow, h.fixed,
    h.firmware, h.sheetBase, h.reports, h.startedFor, h.ckv, h.mgmt, h.inbox, h.dynAddr, h.eid, h.tid, h.bscan, h.markers, h.draws, h.saPins, h.drains, h.portNext, h.heldOut, h.txAn, h.ckvBy, h.hostLines, h.hostResv, h.imsic⟩

theorem set_outs {vouts} (h : Touches ps s t) (houts : ps.testBit 42 = true) :
    Touches ps s { t with outs := vouts } :=
  ⟨h.ok, h.vt, h.vtFrac, h.rateTemp, h.rateServo, h.free, h.pending, h.out, h.regs, h.rlatch, h.wlatch, h.ringSel,
    h.wearSel, h.mem, h.grn, h.wear, h.log, h.logBase, h.logRead, h.logRing, h.cores, h.bells, h.node, h.tithes, h.gws,
    h.cfg, h.regions, h.tracePos, h.stackMem, h.bridgeMem, h.invPend, h.invAcks, h.pageBell, h.nextId, h.jobs, h.xfers,
    h.redSteps, h.runs, h.redBytes, h.seqs, h.sheetBell, h.sheetGot, h.rings,
    fun x => (Bool.noConfusion (houts.symm.trans x)), h.brackets, h.links, h.restores, h.hostTake, h.ingress, h.egress,
    h.qpErr, h.qpRate, h.cnpAt, h.conf, h.sas, h.opkey, h.led, h.xings, h.vc, h.vcmp, h.retireQ, h.lit, h.rcal,
    h.combCal, h.calRej, h.calLast, h.sensOut, h.classes, h.resets, h.fieldAt, h.mapLag, h.rolePend, h.bondHalf, h.lms,
    h.attest, h.meas, h.opkeySeq, h.debugUsed, h.power, h.heat, h.pairAt, h.pairOff, h.pairLost, h.fast, h.jumpAt,
    h.tripped, h.trips, h.hbmSlow, h.fixed, h.firmware, h.sheetBase, h.reports, h.startedFor, h.ckv, h.mgmt, h.inbox,
    h.dynAddr, h.eid, h.tid, h.bscan, h.markers, h.draws, h.saPins, h.drains, h.portNext, h.heldOut, h.txAn, h.ckvBy, h.hostLines, h.hostResv, h.imsic⟩

theorem set_brackets {vbrackets} (h : Touches ps s t) (hbrackets : ps.testBit 43 = true) :
    Touches ps s { t with brackets := vbrackets } :=
  ⟨h.ok, h.vt, h.vtFrac, h.rateTemp, h.rateServo, h.free, h.pending, h.out, h.regs, h.rlatch, h.wlatch, h.ringSel,
    h.wearSel, h.mem, h.grn, h.wear, h.log, h.logBase, h.logRead, h.logRing, h.cores, h.bells, h.node, h.tithes, h.gws,
    h.cfg, h.regions, h.tracePos, h.stackMem, h.bridgeMem, h.invPend, h.invAcks, h.pageBell, h.nextId, h.jobs, h.xfers,
    h.redSteps, h.runs, h.redBytes, h.seqs, h.sheetBell, h.sheetGot, h.rings, h.outs,
    fun x => (Bool.noConfusion (hbrackets.symm.trans x)), h.links, h.restores, h.hostTake, h.ingress, h.egress,
    h.qpErr, h.qpRate, h.cnpAt, h.conf, h.sas, h.opkey, h.led, h.xings, h.vc, h.vcmp, h.retireQ, h.lit, h.rcal,
    h.combCal, h.calRej, h.calLast, h.sensOut, h.classes, h.resets, h.fieldAt, h.mapLag, h.rolePend, h.bondHalf, h.lms,
    h.attest, h.meas, h.opkeySeq, h.debugUsed, h.power, h.heat, h.pairAt, h.pairOff, h.pairLost, h.fast, h.jumpAt,
    h.tripped, h.trips, h.hbmSlow, h.fixed, h.firmware, h.sheetBase, h.reports, h.startedFor, h.ckv, h.mgmt, h.inbox,
    h.dynAddr, h.eid, h.tid, h.bscan, h.markers, h.draws, h.saPins, h.drains, h.portNext, h.heldOut, h.txAn, h.ckvBy, h.hostLines, h.hostResv, h.imsic⟩

theorem set_links {vlinks} (h : Touches ps s t) (hlinks : ps.testBit 44 = true) :
    Touches ps s { t with links := vlinks } :=
  ⟨h.ok, h.vt, h.vtFrac, h.rateTemp, h.rateServo, h.free, h.pending, h.out, h.regs, h.rlatch, h.wlatch, h.ringSel,
    h.wearSel, h.mem, h.grn, h.wear, h.log, h.logBase, h.logRead, h.logRing, h.cores, h.bells, h.node, h.tithes, h.gws,
    h.cfg, h.regions, h.tracePos, h.stackMem, h.bridgeMem, h.invPend, h.invAcks, h.pageBell, h.nextId, h.jobs, h.xfers,
    h.redSteps, h.runs, h.redBytes, h.seqs, h.sheetBell, h.sheetGot, h.rings, h.outs, h.brackets,
    fun x => (Bool.noConfusion (hlinks.symm.trans x)), h.restores, h.hostTake, h.ingress, h.egress, h.qpErr, h.qpRate,
    h.cnpAt, h.conf, h.sas, h.opkey, h.led, h.xings, h.vc, h.vcmp, h.retireQ, h.lit, h.rcal, h.combCal, h.calRej,
    h.calLast, h.sensOut, h.classes, h.resets, h.fieldAt, h.mapLag, h.rolePend, h.bondHalf, h.lms, h.attest, h.meas,
    h.opkeySeq, h.debugUsed, h.power, h.heat, h.pairAt, h.pairOff, h.pairLost, h.fast, h.jumpAt, h.tripped, h.trips,
    h.hbmSlow, h.fixed, h.firmware, h.sheetBase, h.reports, h.startedFor, h.ckv, h.mgmt, h.inbox, h.dynAddr, h.eid,
    h.tid, h.bscan, h.markers, h.draws, h.saPins, h.drains, h.portNext, h.heldOut, h.txAn, h.ckvBy, h.hostLines, h.hostResv, h.imsic⟩

theorem set_restores {vrestores} (h : Touches ps s t) (hrestores : ps.testBit 45 = true) :
    Touches ps s { t with restores := vrestores } :=
  ⟨h.ok, h.vt, h.vtFrac, h.rateTemp, h.rateServo, h.free, h.pending, h.out, h.regs, h.rlatch, h.wlatch, h.ringSel,
    h.wearSel, h.mem, h.grn, h.wear, h.log, h.logBase, h.logRead, h.logRing, h.cores, h.bells, h.node, h.tithes, h.gws,
    h.cfg, h.regions, h.tracePos, h.stackMem, h.bridgeMem, h.invPend, h.invAcks, h.pageBell, h.nextId, h.jobs, h.xfers,
    h.redSteps, h.runs, h.redBytes, h.seqs, h.sheetBell, h.sheetGot, h.rings, h.outs, h.brackets, h.links,
    fun x => (Bool.noConfusion (hrestores.symm.trans x)), h.hostTake, h.ingress, h.egress, h.qpErr, h.qpRate, h.cnpAt,
    h.conf, h.sas, h.opkey, h.led, h.xings, h.vc, h.vcmp, h.retireQ, h.lit, h.rcal, h.combCal, h.calRej, h.calLast,
    h.sensOut, h.classes, h.resets, h.fieldAt, h.mapLag, h.rolePend, h.bondHalf, h.lms, h.attest, h.meas, h.opkeySeq,
    h.debugUsed, h.power, h.heat, h.pairAt, h.pairOff, h.pairLost, h.fast, h.jumpAt, h.tripped, h.trips, h.hbmSlow,
    h.fixed, h.firmware, h.sheetBase, h.reports, h.startedFor, h.ckv, h.mgmt, h.inbox, h.dynAddr, h.eid, h.tid,
    h.bscan, h.markers, h.draws, h.saPins, h.drains, h.portNext, h.heldOut, h.txAn, h.ckvBy, h.hostLines, h.hostResv, h.imsic⟩

theorem set_hostTake {vhostTake} (h : Touches ps s t) (hhostTake : ps.testBit 46 = true) :
    Touches ps s { t with hostTake := vhostTake } :=
  ⟨h.ok, h.vt, h.vtFrac, h.rateTemp, h.rateServo, h.free, h.pending, h.out, h.regs, h.rlatch, h.wlatch, h.ringSel,
    h.wearSel, h.mem, h.grn, h.wear, h.log, h.logBase, h.logRead, h.logRing, h.cores, h.bells, h.node, h.tithes, h.gws,
    h.cfg, h.regions, h.tracePos, h.stackMem, h.bridgeMem, h.invPend, h.invAcks, h.pageBell, h.nextId, h.jobs, h.xfers,
    h.redSteps, h.runs, h.redBytes, h.seqs, h.sheetBell, h.sheetGot, h.rings, h.outs, h.brackets, h.links, h.restores,
    fun x => (Bool.noConfusion (hhostTake.symm.trans x)), h.ingress, h.egress, h.qpErr, h.qpRate, h.cnpAt, h.conf,
    h.sas, h.opkey, h.led, h.xings, h.vc, h.vcmp, h.retireQ, h.lit, h.rcal, h.combCal, h.calRej, h.calLast, h.sensOut,
    h.classes, h.resets, h.fieldAt, h.mapLag, h.rolePend, h.bondHalf, h.lms, h.attest, h.meas, h.opkeySeq, h.debugUsed,
    h.power, h.heat, h.pairAt, h.pairOff, h.pairLost, h.fast, h.jumpAt, h.tripped, h.trips, h.hbmSlow, h.fixed,
    h.firmware, h.sheetBase, h.reports, h.startedFor, h.ckv, h.mgmt, h.inbox, h.dynAddr, h.eid, h.tid, h.bscan, h.markers, h.draws, h.saPins, h.drains, h.portNext, h.heldOut, h.txAn, h.ckvBy, h.hostLines, h.hostResv, h.imsic⟩

theorem set_ingress {vingress} (h : Touches ps s t) (hingress : ps.testBit 47 = true) :
    Touches ps s { t with ingress := vingress } :=
  ⟨h.ok, h.vt, h.vtFrac, h.rateTemp, h.rateServo, h.free, h.pending, h.out, h.regs, h.rlatch, h.wlatch, h.ringSel,
    h.wearSel, h.mem, h.grn, h.wear, h.log, h.logBase, h.logRead, h.logRing, h.cores, h.bells, h.node, h.tithes, h.gws,
    h.cfg, h.regions, h.tracePos, h.stackMem, h.bridgeMem, h.invPend, h.invAcks, h.pageBell, h.nextId, h.jobs, h.xfers,
    h.redSteps, h.runs, h.redBytes, h.seqs, h.sheetBell, h.sheetGot, h.rings, h.outs, h.brackets, h.links, h.restores,
    h.hostTake, fun x => (Bool.noConfusion (hingress.symm.trans x)), h.egress, h.qpErr, h.qpRate, h.cnpAt, h.conf,
    h.sas, h.opkey, h.led, h.xings, h.vc, h.vcmp, h.retireQ, h.lit, h.rcal, h.combCal, h.calRej, h.calLast, h.sensOut,
    h.classes, h.resets, h.fieldAt, h.mapLag, h.rolePend, h.bondHalf, h.lms, h.attest, h.meas, h.opkeySeq, h.debugUsed,
    h.power, h.heat, h.pairAt, h.pairOff, h.pairLost, h.fast, h.jumpAt, h.tripped, h.trips, h.hbmSlow, h.fixed,
    h.firmware, h.sheetBase, h.reports, h.startedFor, h.ckv, h.mgmt, h.inbox, h.dynAddr, h.eid, h.tid, h.bscan, h.markers, h.draws, h.saPins, h.drains, h.portNext, h.heldOut, h.txAn, h.ckvBy, h.hostLines, h.hostResv, h.imsic⟩

theorem set_egress {vegress} (h : Touches ps s t) (hegress : ps.testBit 48 = true) :
    Touches ps s { t with egress := vegress } :=
  ⟨h.ok, h.vt, h.vtFrac, h.rateTemp, h.rateServo, h.free, h.pending, h.out, h.regs, h.rlatch, h.wlatch, h.ringSel,
    h.wearSel, h.mem, h.grn, h.wear, h.log, h.logBase, h.logRead, h.logRing, h.cores, h.bells, h.node, h.tithes, h.gws,
    h.cfg, h.regions, h.tracePos, h.stackMem, h.bridgeMem, h.invPend, h.invAcks, h.pageBell, h.nextId, h.jobs, h.xfers,
    h.redSteps, h.runs, h.redBytes, h.seqs, h.sheetBell, h.sheetGot, h.rings, h.outs, h.brackets, h.links, h.restores,
    h.hostTake, h.ingress, fun x => (Bool.noConfusion (hegress.symm.trans x)), h.qpErr, h.qpRate, h.cnpAt, h.conf,
    h.sas, h.opkey, h.led, h.xings, h.vc, h.vcmp, h.retireQ, h.lit, h.rcal, h.combCal, h.calRej, h.calLast, h.sensOut,
    h.classes, h.resets, h.fieldAt, h.mapLag, h.rolePend, h.bondHalf, h.lms, h.attest, h.meas, h.opkeySeq, h.debugUsed,
    h.power, h.heat, h.pairAt, h.pairOff, h.pairLost, h.fast, h.jumpAt, h.tripped, h.trips, h.hbmSlow, h.fixed,
    h.firmware, h.sheetBase, h.reports, h.startedFor, h.ckv, h.mgmt, h.inbox, h.dynAddr, h.eid, h.tid, h.bscan, h.markers, h.draws, h.saPins, h.drains, h.portNext, h.heldOut, h.txAn, h.ckvBy, h.hostLines, h.hostResv, h.imsic⟩

theorem set_qpErr {vqpErr} (h : Touches ps s t) (hqpErr : ps.testBit 49 = true) :
    Touches ps s { t with qpErr := vqpErr } :=
  ⟨h.ok, h.vt, h.vtFrac, h.rateTemp, h.rateServo, h.free, h.pending, h.out, h.regs, h.rlatch, h.wlatch, h.ringSel,
    h.wearSel, h.mem, h.grn, h.wear, h.log, h.logBase, h.logRead, h.logRing, h.cores, h.bells, h.node, h.tithes, h.gws,
    h.cfg, h.regions, h.tracePos, h.stackMem, h.bridgeMem, h.invPend, h.invAcks, h.pageBell, h.nextId, h.jobs, h.xfers,
    h.redSteps, h.runs, h.redBytes, h.seqs, h.sheetBell, h.sheetGot, h.rings, h.outs, h.brackets, h.links, h.restores,
    h.hostTake, h.ingress, h.egress, fun x => (Bool.noConfusion (hqpErr.symm.trans x)), h.qpRate, h.cnpAt, h.conf,
    h.sas, h.opkey, h.led, h.xings, h.vc, h.vcmp, h.retireQ, h.lit, h.rcal, h.combCal, h.calRej, h.calLast, h.sensOut,
    h.classes, h.resets, h.fieldAt, h.mapLag, h.rolePend, h.bondHalf, h.lms, h.attest, h.meas, h.opkeySeq, h.debugUsed,
    h.power, h.heat, h.pairAt, h.pairOff, h.pairLost, h.fast, h.jumpAt, h.tripped, h.trips, h.hbmSlow, h.fixed,
    h.firmware, h.sheetBase, h.reports, h.startedFor, h.ckv, h.mgmt, h.inbox, h.dynAddr, h.eid, h.tid, h.bscan, h.markers, h.draws, h.saPins, h.drains, h.portNext, h.heldOut, h.txAn, h.ckvBy, h.hostLines, h.hostResv, h.imsic⟩

theorem set_qpRate {vqpRate} (h : Touches ps s t) (hqpRate : ps.testBit 50 = true) :
    Touches ps s { t with qpRate := vqpRate } :=
  ⟨h.ok, h.vt, h.vtFrac, h.rateTemp, h.rateServo, h.free, h.pending, h.out, h.regs, h.rlatch, h.wlatch, h.ringSel,
    h.wearSel, h.mem, h.grn, h.wear, h.log, h.logBase, h.logRead, h.logRing, h.cores, h.bells, h.node, h.tithes, h.gws,
    h.cfg, h.regions, h.tracePos, h.stackMem, h.bridgeMem, h.invPend, h.invAcks, h.pageBell, h.nextId, h.jobs, h.xfers,
    h.redSteps, h.runs, h.redBytes, h.seqs, h.sheetBell, h.sheetGot, h.rings, h.outs, h.brackets, h.links, h.restores,
    h.hostTake, h.ingress, h.egress, h.qpErr, fun x => (Bool.noConfusion (hqpRate.symm.trans x)), h.cnpAt, h.conf,
    h.sas, h.opkey, h.led, h.xings, h.vc, h.vcmp, h.retireQ, h.lit, h.rcal, h.combCal, h.calRej, h.calLast, h.sensOut,
    h.classes, h.resets, h.fieldAt, h.mapLag, h.rolePend, h.bondHalf, h.lms, h.attest, h.meas, h.opkeySeq, h.debugUsed,
    h.power, h.heat, h.pairAt, h.pairOff, h.pairLost, h.fast, h.jumpAt, h.tripped, h.trips, h.hbmSlow, h.fixed,
    h.firmware, h.sheetBase, h.reports, h.startedFor, h.ckv, h.mgmt, h.inbox, h.dynAddr, h.eid, h.tid, h.bscan, h.markers, h.draws, h.saPins, h.drains, h.portNext, h.heldOut, h.txAn, h.ckvBy, h.hostLines, h.hostResv, h.imsic⟩

theorem set_cnpAt {vcnpAt} (h : Touches ps s t) (hcnpAt : ps.testBit 51 = true) :
    Touches ps s { t with cnpAt := vcnpAt } :=
  ⟨h.ok, h.vt, h.vtFrac, h.rateTemp, h.rateServo, h.free, h.pending, h.out, h.regs, h.rlatch, h.wlatch, h.ringSel,
    h.wearSel, h.mem, h.grn, h.wear, h.log, h.logBase, h.logRead, h.logRing, h.cores, h.bells, h.node, h.tithes, h.gws,
    h.cfg, h.regions, h.tracePos, h.stackMem, h.bridgeMem, h.invPend, h.invAcks, h.pageBell, h.nextId, h.jobs, h.xfers,
    h.redSteps, h.runs, h.redBytes, h.seqs, h.sheetBell, h.sheetGot, h.rings, h.outs, h.brackets, h.links, h.restores,
    h.hostTake, h.ingress, h.egress, h.qpErr, h.qpRate, fun x => (Bool.noConfusion (hcnpAt.symm.trans x)), h.conf,
    h.sas, h.opkey, h.led, h.xings, h.vc, h.vcmp, h.retireQ, h.lit, h.rcal, h.combCal, h.calRej, h.calLast, h.sensOut,
    h.classes, h.resets, h.fieldAt, h.mapLag, h.rolePend, h.bondHalf, h.lms, h.attest, h.meas, h.opkeySeq, h.debugUsed,
    h.power, h.heat, h.pairAt, h.pairOff, h.pairLost, h.fast, h.jumpAt, h.tripped, h.trips, h.hbmSlow, h.fixed,
    h.firmware, h.sheetBase, h.reports, h.startedFor, h.ckv, h.mgmt, h.inbox, h.dynAddr, h.eid, h.tid, h.bscan, h.markers, h.draws, h.saPins, h.drains, h.portNext, h.heldOut, h.txAn, h.ckvBy, h.hostLines, h.hostResv, h.imsic⟩

theorem set_conf {vconf} (h : Touches ps s t) (hconf : ps.testBit 52 = true) :
    Touches ps s { t with conf := vconf } :=
  ⟨h.ok, h.vt, h.vtFrac, h.rateTemp, h.rateServo, h.free, h.pending, h.out, h.regs, h.rlatch, h.wlatch, h.ringSel,
    h.wearSel, h.mem, h.grn, h.wear, h.log, h.logBase, h.logRead, h.logRing, h.cores, h.bells, h.node, h.tithes, h.gws,
    h.cfg, h.regions, h.tracePos, h.stackMem, h.bridgeMem, h.invPend, h.invAcks, h.pageBell, h.nextId, h.jobs, h.xfers,
    h.redSteps, h.runs, h.redBytes, h.seqs, h.sheetBell, h.sheetGot, h.rings, h.outs, h.brackets, h.links, h.restores,
    h.hostTake, h.ingress, h.egress, h.qpErr, h.qpRate, h.cnpAt, fun x => (Bool.noConfusion (hconf.symm.trans x)),
    h.sas, h.opkey, h.led, h.xings, h.vc, h.vcmp, h.retireQ, h.lit, h.rcal, h.combCal, h.calRej, h.calLast, h.sensOut,
    h.classes, h.resets, h.fieldAt, h.mapLag, h.rolePend, h.bondHalf, h.lms, h.attest, h.meas, h.opkeySeq, h.debugUsed,
    h.power, h.heat, h.pairAt, h.pairOff, h.pairLost, h.fast, h.jumpAt, h.tripped, h.trips, h.hbmSlow, h.fixed,
    h.firmware, h.sheetBase, h.reports, h.startedFor, h.ckv, h.mgmt, h.inbox, h.dynAddr, h.eid, h.tid, h.bscan, h.markers, h.draws, h.saPins, h.drains, h.portNext, h.heldOut, h.txAn, h.ckvBy, h.hostLines, h.hostResv, h.imsic⟩

theorem set_sas {vsas} (h : Touches ps s t) (hsas : ps.testBit 53 = true) :
    Touches ps s { t with sas := vsas } :=
  ⟨h.ok, h.vt, h.vtFrac, h.rateTemp, h.rateServo, h.free, h.pending, h.out, h.regs, h.rlatch, h.wlatch, h.ringSel,
    h.wearSel, h.mem, h.grn, h.wear, h.log, h.logBase, h.logRead, h.logRing, h.cores, h.bells, h.node, h.tithes, h.gws,
    h.cfg, h.regions, h.tracePos, h.stackMem, h.bridgeMem, h.invPend, h.invAcks, h.pageBell, h.nextId, h.jobs, h.xfers,
    h.redSteps, h.runs, h.redBytes, h.seqs, h.sheetBell, h.sheetGot, h.rings, h.outs, h.brackets, h.links, h.restores,
    h.hostTake, h.ingress, h.egress, h.qpErr, h.qpRate, h.cnpAt, h.conf,
    fun x => (Bool.noConfusion (hsas.symm.trans x)), h.opkey, h.led, h.xings, h.vc, h.vcmp, h.retireQ, h.lit, h.rcal,
    h.combCal, h.calRej, h.calLast, h.sensOut, h.classes, h.resets, h.fieldAt, h.mapLag, h.rolePend, h.bondHalf, h.lms,
    h.attest, h.meas, h.opkeySeq, h.debugUsed, h.power, h.heat, h.pairAt, h.pairOff, h.pairLost, h.fast, h.jumpAt,
    h.tripped, h.trips, h.hbmSlow, h.fixed, h.firmware, h.sheetBase, h.reports, h.startedFor, h.ckv, h.mgmt, h.inbox,
    h.dynAddr, h.eid, h.tid, h.bscan, h.markers, h.draws, h.saPins, h.drains, h.portNext, h.heldOut, h.txAn, h.ckvBy, h.hostLines, h.hostResv, h.imsic⟩

theorem set_led {vled} (h : Touches ps s t) (hled : ps.testBit 55 = true) :
    Touches ps s { t with led := vled } :=
  ⟨h.ok, h.vt, h.vtFrac, h.rateTemp, h.rateServo, h.free, h.pending, h.out, h.regs, h.rlatch, h.wlatch, h.ringSel,
    h.wearSel, h.mem, h.grn, h.wear, h.log, h.logBase, h.logRead, h.logRing, h.cores, h.bells, h.node, h.tithes, h.gws,
    h.cfg, h.regions, h.tracePos, h.stackMem, h.bridgeMem, h.invPend, h.invAcks, h.pageBell, h.nextId, h.jobs, h.xfers,
    h.redSteps, h.runs, h.redBytes, h.seqs, h.sheetBell, h.sheetGot, h.rings, h.outs, h.brackets, h.links, h.restores,
    h.hostTake, h.ingress, h.egress, h.qpErr, h.qpRate, h.cnpAt, h.conf, h.sas, h.opkey,
    fun x => (Bool.noConfusion (hled.symm.trans x)), h.xings, h.vc, h.vcmp, h.retireQ, h.lit, h.rcal, h.combCal,
    h.calRej, h.calLast, h.sensOut, h.classes, h.resets, h.fieldAt, h.mapLag, h.rolePend, h.bondHalf, h.lms, h.attest,
    h.meas, h.opkeySeq, h.debugUsed, h.power, h.heat, h.pairAt, h.pairOff, h.pairLost, h.fast, h.jumpAt, h.tripped,
    h.trips, h.hbmSlow, h.fixed, h.firmware, h.sheetBase, h.reports, h.startedFor, h.ckv, h.mgmt, h.inbox, h.dynAddr,
    h.eid, h.tid, h.bscan, h.markers, h.draws, h.saPins, h.drains, h.portNext, h.heldOut, h.txAn, h.ckvBy, h.hostLines, h.hostResv, h.imsic⟩

theorem set_xings {vxings} (h : Touches ps s t) (hxings : ps.testBit 56 = true) :
    Touches ps s { t with xings := vxings } :=
  ⟨h.ok, h.vt, h.vtFrac, h.rateTemp, h.rateServo, h.free, h.pending, h.out, h.regs, h.rlatch, h.wlatch, h.ringSel,
    h.wearSel, h.mem, h.grn, h.wear, h.log, h.logBase, h.logRead, h.logRing, h.cores, h.bells, h.node, h.tithes, h.gws,
    h.cfg, h.regions, h.tracePos, h.stackMem, h.bridgeMem, h.invPend, h.invAcks, h.pageBell, h.nextId, h.jobs, h.xfers,
    h.redSteps, h.runs, h.redBytes, h.seqs, h.sheetBell, h.sheetGot, h.rings, h.outs, h.brackets, h.links, h.restores,
    h.hostTake, h.ingress, h.egress, h.qpErr, h.qpRate, h.cnpAt, h.conf, h.sas, h.opkey, h.led,
    fun x => (Bool.noConfusion (hxings.symm.trans x)), h.vc, h.vcmp, h.retireQ, h.lit, h.rcal, h.combCal, h.calRej,
    h.calLast, h.sensOut, h.classes, h.resets, h.fieldAt, h.mapLag, h.rolePend, h.bondHalf, h.lms, h.attest, h.meas,
    h.opkeySeq, h.debugUsed, h.power, h.heat, h.pairAt, h.pairOff, h.pairLost, h.fast, h.jumpAt, h.tripped, h.trips,
    h.hbmSlow, h.fixed, h.firmware, h.sheetBase, h.reports, h.startedFor, h.ckv, h.mgmt, h.inbox, h.dynAddr, h.eid,
    h.tid, h.bscan, h.markers, h.draws, h.saPins, h.drains, h.portNext, h.heldOut, h.txAn, h.ckvBy, h.hostLines, h.hostResv, h.imsic⟩

theorem set_vc {vvc} (h : Touches ps s t) (hvc : ps.testBit 57 = true) :
    Touches ps s { t with vc := vvc } :=
  ⟨h.ok, h.vt, h.vtFrac, h.rateTemp, h.rateServo, h.free, h.pending, h.out, h.regs, h.rlatch, h.wlatch, h.ringSel,
    h.wearSel, h.mem, h.grn, h.wear, h.log, h.logBase, h.logRead, h.logRing, h.cores, h.bells, h.node, h.tithes, h.gws,
    h.cfg, h.regions, h.tracePos, h.stackMem, h.bridgeMem, h.invPend, h.invAcks, h.pageBell, h.nextId, h.jobs, h.xfers,
    h.redSteps, h.runs, h.redBytes, h.seqs, h.sheetBell, h.sheetGot, h.rings, h.outs, h.brackets, h.links, h.restores,
    h.hostTake, h.ingress, h.egress, h.qpErr, h.qpRate, h.cnpAt, h.conf, h.sas, h.opkey, h.led, h.xings,
    fun x => (Bool.noConfusion (hvc.symm.trans x)), h.vcmp, h.retireQ, h.lit, h.rcal, h.combCal, h.calRej, h.calLast,
    h.sensOut, h.classes, h.resets, h.fieldAt, h.mapLag, h.rolePend, h.bondHalf, h.lms, h.attest, h.meas, h.opkeySeq,
    h.debugUsed, h.power, h.heat, h.pairAt, h.pairOff, h.pairLost, h.fast, h.jumpAt, h.tripped, h.trips, h.hbmSlow,
    h.fixed, h.firmware, h.sheetBase, h.reports, h.startedFor, h.ckv, h.mgmt, h.inbox, h.dynAddr, h.eid, h.tid,
    h.bscan, h.markers, h.draws, h.saPins, h.drains, h.portNext, h.heldOut, h.txAn, h.ckvBy, h.hostLines, h.hostResv, h.imsic⟩

theorem set_vcmp {vvcmp} (h : Touches ps s t) (hvcmp : ps.testBit 58 = true) :
    Touches ps s { t with vcmp := vvcmp } :=
  ⟨h.ok, h.vt, h.vtFrac, h.rateTemp, h.rateServo, h.free, h.pending, h.out, h.regs, h.rlatch, h.wlatch, h.ringSel,
    h.wearSel, h.mem, h.grn, h.wear, h.log, h.logBase, h.logRead, h.logRing, h.cores, h.bells, h.node, h.tithes, h.gws,
    h.cfg, h.regions, h.tracePos, h.stackMem, h.bridgeMem, h.invPend, h.invAcks, h.pageBell, h.nextId, h.jobs, h.xfers,
    h.redSteps, h.runs, h.redBytes, h.seqs, h.sheetBell, h.sheetGot, h.rings, h.outs, h.brackets, h.links, h.restores,
    h.hostTake, h.ingress, h.egress, h.qpErr, h.qpRate, h.cnpAt, h.conf, h.sas, h.opkey, h.led, h.xings, h.vc,
    fun x => (Bool.noConfusion (hvcmp.symm.trans x)), h.retireQ, h.lit, h.rcal, h.combCal, h.calRej, h.calLast,
    h.sensOut, h.classes, h.resets, h.fieldAt, h.mapLag, h.rolePend, h.bondHalf, h.lms, h.attest, h.meas, h.opkeySeq,
    h.debugUsed, h.power, h.heat, h.pairAt, h.pairOff, h.pairLost, h.fast, h.jumpAt, h.tripped, h.trips, h.hbmSlow,
    h.fixed, h.firmware, h.sheetBase, h.reports, h.startedFor, h.ckv, h.mgmt, h.inbox, h.dynAddr, h.eid, h.tid,
    h.bscan, h.markers, h.draws, h.saPins, h.drains, h.portNext, h.heldOut, h.txAn, h.ckvBy, h.hostLines, h.hostResv, h.imsic⟩

theorem set_retireQ {vretireQ} (h : Touches ps s t) (hretireQ : ps.testBit 59 = true) :
    Touches ps s { t with retireQ := vretireQ } :=
  ⟨h.ok, h.vt, h.vtFrac, h.rateTemp, h.rateServo, h.free, h.pending, h.out, h.regs, h.rlatch, h.wlatch, h.ringSel,
    h.wearSel, h.mem, h.grn, h.wear, h.log, h.logBase, h.logRead, h.logRing, h.cores, h.bells, h.node, h.tithes, h.gws,
    h.cfg, h.regions, h.tracePos, h.stackMem, h.bridgeMem, h.invPend, h.invAcks, h.pageBell, h.nextId, h.jobs, h.xfers,
    h.redSteps, h.runs, h.redBytes, h.seqs, h.sheetBell, h.sheetGot, h.rings, h.outs, h.brackets, h.links, h.restores,
    h.hostTake, h.ingress, h.egress, h.qpErr, h.qpRate, h.cnpAt, h.conf, h.sas, h.opkey, h.led, h.xings, h.vc, h.vcmp,
    fun x => (Bool.noConfusion (hretireQ.symm.trans x)), h.lit, h.rcal, h.combCal, h.calRej, h.calLast, h.sensOut,
    h.classes, h.resets, h.fieldAt, h.mapLag, h.rolePend, h.bondHalf, h.lms, h.attest, h.meas, h.opkeySeq, h.debugUsed,
    h.power, h.heat, h.pairAt, h.pairOff, h.pairLost, h.fast, h.jumpAt, h.tripped, h.trips, h.hbmSlow, h.fixed,
    h.firmware, h.sheetBase, h.reports, h.startedFor, h.ckv, h.mgmt, h.inbox, h.dynAddr, h.eid, h.tid, h.bscan, h.markers, h.draws, h.saPins, h.drains, h.portNext, h.heldOut, h.txAn, h.ckvBy, h.hostLines, h.hostResv, h.imsic⟩

theorem set_lit {vlit} (h : Touches ps s t) (hlit : ps.testBit 60 = true) :
    Touches ps s { t with lit := vlit } :=
  ⟨h.ok, h.vt, h.vtFrac, h.rateTemp, h.rateServo, h.free, h.pending, h.out, h.regs, h.rlatch, h.wlatch, h.ringSel,
    h.wearSel, h.mem, h.grn, h.wear, h.log, h.logBase, h.logRead, h.logRing, h.cores, h.bells, h.node, h.tithes, h.gws,
    h.cfg, h.regions, h.tracePos, h.stackMem, h.bridgeMem, h.invPend, h.invAcks, h.pageBell, h.nextId, h.jobs, h.xfers,
    h.redSteps, h.runs, h.redBytes, h.seqs, h.sheetBell, h.sheetGot, h.rings, h.outs, h.brackets, h.links, h.restores,
    h.hostTake, h.ingress, h.egress, h.qpErr, h.qpRate, h.cnpAt, h.conf, h.sas, h.opkey, h.led, h.xings, h.vc, h.vcmp,
    h.retireQ, fun x => (Bool.noConfusion (hlit.symm.trans x)), h.rcal, h.combCal, h.calRej, h.calLast, h.sensOut,
    h.classes, h.resets, h.fieldAt, h.mapLag, h.rolePend, h.bondHalf, h.lms, h.attest, h.meas, h.opkeySeq, h.debugUsed,
    h.power, h.heat, h.pairAt, h.pairOff, h.pairLost, h.fast, h.jumpAt, h.tripped, h.trips, h.hbmSlow, h.fixed,
    h.firmware, h.sheetBase, h.reports, h.startedFor, h.ckv, h.mgmt, h.inbox, h.dynAddr, h.eid, h.tid, h.bscan, h.markers, h.draws, h.saPins, h.drains, h.portNext, h.heldOut, h.txAn, h.ckvBy, h.hostLines, h.hostResv, h.imsic⟩

theorem set_rcal {vrcal} (h : Touches ps s t) (hrcal : ps.testBit 61 = true) :
    Touches ps s { t with rcal := vrcal } :=
  ⟨h.ok, h.vt, h.vtFrac, h.rateTemp, h.rateServo, h.free, h.pending, h.out, h.regs, h.rlatch, h.wlatch, h.ringSel,
    h.wearSel, h.mem, h.grn, h.wear, h.log, h.logBase, h.logRead, h.logRing, h.cores, h.bells, h.node, h.tithes, h.gws,
    h.cfg, h.regions, h.tracePos, h.stackMem, h.bridgeMem, h.invPend, h.invAcks, h.pageBell, h.nextId, h.jobs, h.xfers,
    h.redSteps, h.runs, h.redBytes, h.seqs, h.sheetBell, h.sheetGot, h.rings, h.outs, h.brackets, h.links, h.restores,
    h.hostTake, h.ingress, h.egress, h.qpErr, h.qpRate, h.cnpAt, h.conf, h.sas, h.opkey, h.led, h.xings, h.vc, h.vcmp,
    h.retireQ, h.lit, fun x => (Bool.noConfusion (hrcal.symm.trans x)), h.combCal, h.calRej, h.calLast, h.sensOut,
    h.classes, h.resets, h.fieldAt, h.mapLag, h.rolePend, h.bondHalf, h.lms, h.attest, h.meas, h.opkeySeq, h.debugUsed,
    h.power, h.heat, h.pairAt, h.pairOff, h.pairLost, h.fast, h.jumpAt, h.tripped, h.trips, h.hbmSlow, h.fixed,
    h.firmware, h.sheetBase, h.reports, h.startedFor, h.ckv, h.mgmt, h.inbox, h.dynAddr, h.eid, h.tid, h.bscan, h.markers, h.draws, h.saPins, h.drains, h.portNext, h.heldOut, h.txAn, h.ckvBy, h.hostLines, h.hostResv, h.imsic⟩

theorem set_combCal {vcombCal} (h : Touches ps s t) (hcombCal : ps.testBit 62 = true) :
    Touches ps s { t with combCal := vcombCal } :=
  ⟨h.ok, h.vt, h.vtFrac, h.rateTemp, h.rateServo, h.free, h.pending, h.out, h.regs, h.rlatch, h.wlatch, h.ringSel,
    h.wearSel, h.mem, h.grn, h.wear, h.log, h.logBase, h.logRead, h.logRing, h.cores, h.bells, h.node, h.tithes, h.gws,
    h.cfg, h.regions, h.tracePos, h.stackMem, h.bridgeMem, h.invPend, h.invAcks, h.pageBell, h.nextId, h.jobs, h.xfers,
    h.redSteps, h.runs, h.redBytes, h.seqs, h.sheetBell, h.sheetGot, h.rings, h.outs, h.brackets, h.links, h.restores,
    h.hostTake, h.ingress, h.egress, h.qpErr, h.qpRate, h.cnpAt, h.conf, h.sas, h.opkey, h.led, h.xings, h.vc, h.vcmp,
    h.retireQ, h.lit, h.rcal, fun x => (Bool.noConfusion (hcombCal.symm.trans x)), h.calRej, h.calLast, h.sensOut,
    h.classes, h.resets, h.fieldAt, h.mapLag, h.rolePend, h.bondHalf, h.lms, h.attest, h.meas, h.opkeySeq, h.debugUsed,
    h.power, h.heat, h.pairAt, h.pairOff, h.pairLost, h.fast, h.jumpAt, h.tripped, h.trips, h.hbmSlow, h.fixed,
    h.firmware, h.sheetBase, h.reports, h.startedFor, h.ckv, h.mgmt, h.inbox, h.dynAddr, h.eid, h.tid, h.bscan, h.markers, h.draws, h.saPins, h.drains, h.portNext, h.heldOut, h.txAn, h.ckvBy, h.hostLines, h.hostResv, h.imsic⟩

theorem set_calRej {vcalRej} (h : Touches ps s t) (hcalRej : ps.testBit 63 = true) :
    Touches ps s { t with calRej := vcalRej } :=
  ⟨h.ok, h.vt, h.vtFrac, h.rateTemp, h.rateServo, h.free, h.pending, h.out, h.regs, h.rlatch, h.wlatch, h.ringSel,
    h.wearSel, h.mem, h.grn, h.wear, h.log, h.logBase, h.logRead, h.logRing, h.cores, h.bells, h.node, h.tithes, h.gws,
    h.cfg, h.regions, h.tracePos, h.stackMem, h.bridgeMem, h.invPend, h.invAcks, h.pageBell, h.nextId, h.jobs, h.xfers,
    h.redSteps, h.runs, h.redBytes, h.seqs, h.sheetBell, h.sheetGot, h.rings, h.outs, h.brackets, h.links, h.restores,
    h.hostTake, h.ingress, h.egress, h.qpErr, h.qpRate, h.cnpAt, h.conf, h.sas, h.opkey, h.led, h.xings, h.vc, h.vcmp,
    h.retireQ, h.lit, h.rcal, h.combCal, fun x => (Bool.noConfusion (hcalRej.symm.trans x)), h.calLast, h.sensOut,
    h.classes, h.resets, h.fieldAt, h.mapLag, h.rolePend, h.bondHalf, h.lms, h.attest, h.meas, h.opkeySeq, h.debugUsed,
    h.power, h.heat, h.pairAt, h.pairOff, h.pairLost, h.fast, h.jumpAt, h.tripped, h.trips, h.hbmSlow, h.fixed,
    h.firmware, h.sheetBase, h.reports, h.startedFor, h.ckv, h.mgmt, h.inbox, h.dynAddr, h.eid, h.tid, h.bscan, h.markers, h.draws, h.saPins, h.drains, h.portNext, h.heldOut, h.txAn, h.ckvBy, h.hostLines, h.hostResv, h.imsic⟩

theorem set_sensOut {vsensOut} (h : Touches ps s t) (hsensOut : ps.testBit 65 = true) :
    Touches ps s { t with sensOut := vsensOut } :=
  ⟨h.ok, h.vt, h.vtFrac, h.rateTemp, h.rateServo, h.free, h.pending, h.out, h.regs, h.rlatch, h.wlatch, h.ringSel,
    h.wearSel, h.mem, h.grn, h.wear, h.log, h.logBase, h.logRead, h.logRing, h.cores, h.bells, h.node, h.tithes, h.gws,
    h.cfg, h.regions, h.tracePos, h.stackMem, h.bridgeMem, h.invPend, h.invAcks, h.pageBell, h.nextId, h.jobs, h.xfers,
    h.redSteps, h.runs, h.redBytes, h.seqs, h.sheetBell, h.sheetGot, h.rings, h.outs, h.brackets, h.links, h.restores,
    h.hostTake, h.ingress, h.egress, h.qpErr, h.qpRate, h.cnpAt, h.conf, h.sas, h.opkey, h.led, h.xings, h.vc, h.vcmp,
    h.retireQ, h.lit, h.rcal, h.combCal, h.calRej, h.calLast, fun x => (Bool.noConfusion (hsensOut.symm.trans x)),
    h.classes, h.resets, h.fieldAt, h.mapLag, h.rolePend, h.bondHalf, h.lms, h.attest, h.meas, h.opkeySeq, h.debugUsed,
    h.power, h.heat, h.pairAt, h.pairOff, h.pairLost, h.fast, h.jumpAt, h.tripped, h.trips, h.hbmSlow, h.fixed,
    h.firmware, h.sheetBase, h.reports, h.startedFor, h.ckv, h.mgmt, h.inbox, h.dynAddr, h.eid, h.tid, h.bscan, h.markers, h.draws, h.saPins, h.drains, h.portNext, h.heldOut, h.txAn, h.ckvBy, h.hostLines, h.hostResv, h.imsic⟩

theorem set_classes {vclasses} (h : Touches ps s t) (hclasses : ps.testBit 66 = true) :
    Touches ps s { t with classes := vclasses } :=
  ⟨h.ok, h.vt, h.vtFrac, h.rateTemp, h.rateServo, h.free, h.pending, h.out, h.regs, h.rlatch, h.wlatch, h.ringSel,
    h.wearSel, h.mem, h.grn, h.wear, h.log, h.logBase, h.logRead, h.logRing, h.cores, h.bells, h.node, h.tithes, h.gws,
    h.cfg, h.regions, h.tracePos, h.stackMem, h.bridgeMem, h.invPend, h.invAcks, h.pageBell, h.nextId, h.jobs, h.xfers,
    h.redSteps, h.runs, h.redBytes, h.seqs, h.sheetBell, h.sheetGot, h.rings, h.outs, h.brackets, h.links, h.restores,
    h.hostTake, h.ingress, h.egress, h.qpErr, h.qpRate, h.cnpAt, h.conf, h.sas, h.opkey, h.led, h.xings, h.vc, h.vcmp,
    h.retireQ, h.lit, h.rcal, h.combCal, h.calRej, h.calLast, h.sensOut,
    fun x => (Bool.noConfusion (hclasses.symm.trans x)), h.resets, h.fieldAt, h.mapLag, h.rolePend, h.bondHalf, h.lms,
    h.attest, h.meas, h.opkeySeq, h.debugUsed, h.power, h.heat, h.pairAt, h.pairOff, h.pairLost, h.fast, h.jumpAt,
    h.tripped, h.trips, h.hbmSlow, h.fixed, h.firmware, h.sheetBase, h.reports, h.startedFor, h.ckv, h.mgmt, h.inbox,
    h.dynAddr, h.eid, h.tid, h.bscan, h.markers, h.draws, h.saPins, h.drains, h.portNext, h.heldOut, h.txAn, h.ckvBy, h.hostLines, h.hostResv, h.imsic⟩

theorem set_resets {vresets} (h : Touches ps s t) (hresets : ps.testBit 67 = true) :
    Touches ps s { t with resets := vresets } :=
  ⟨h.ok, h.vt, h.vtFrac, h.rateTemp, h.rateServo, h.free, h.pending, h.out, h.regs, h.rlatch, h.wlatch, h.ringSel,
    h.wearSel, h.mem, h.grn, h.wear, h.log, h.logBase, h.logRead, h.logRing, h.cores, h.bells, h.node, h.tithes, h.gws,
    h.cfg, h.regions, h.tracePos, h.stackMem, h.bridgeMem, h.invPend, h.invAcks, h.pageBell, h.nextId, h.jobs, h.xfers,
    h.redSteps, h.runs, h.redBytes, h.seqs, h.sheetBell, h.sheetGot, h.rings, h.outs, h.brackets, h.links, h.restores,
    h.hostTake, h.ingress, h.egress, h.qpErr, h.qpRate, h.cnpAt, h.conf, h.sas, h.opkey, h.led, h.xings, h.vc, h.vcmp,
    h.retireQ, h.lit, h.rcal, h.combCal, h.calRej, h.calLast, h.sensOut, h.classes,
    fun x => (Bool.noConfusion (hresets.symm.trans x)), h.fieldAt, h.mapLag, h.rolePend, h.bondHalf, h.lms, h.attest,
    h.meas, h.opkeySeq, h.debugUsed, h.power, h.heat, h.pairAt, h.pairOff, h.pairLost, h.fast, h.jumpAt, h.tripped,
    h.trips, h.hbmSlow, h.fixed, h.firmware, h.sheetBase, h.reports, h.startedFor, h.ckv, h.mgmt, h.inbox, h.dynAddr,
    h.eid, h.tid, h.bscan, h.markers, h.draws, h.saPins, h.drains, h.portNext, h.heldOut, h.txAn, h.ckvBy, h.hostLines, h.hostResv, h.imsic⟩

theorem set_fieldAt {vfieldAt} (h : Touches ps s t) (hfieldAt : ps.testBit 68 = true) :
    Touches ps s { t with fieldAt := vfieldAt } :=
  ⟨h.ok, h.vt, h.vtFrac, h.rateTemp, h.rateServo, h.free, h.pending, h.out, h.regs, h.rlatch, h.wlatch, h.ringSel,
    h.wearSel, h.mem, h.grn, h.wear, h.log, h.logBase, h.logRead, h.logRing, h.cores, h.bells, h.node, h.tithes, h.gws,
    h.cfg, h.regions, h.tracePos, h.stackMem, h.bridgeMem, h.invPend, h.invAcks, h.pageBell, h.nextId, h.jobs, h.xfers,
    h.redSteps, h.runs, h.redBytes, h.seqs, h.sheetBell, h.sheetGot, h.rings, h.outs, h.brackets, h.links, h.restores,
    h.hostTake, h.ingress, h.egress, h.qpErr, h.qpRate, h.cnpAt, h.conf, h.sas, h.opkey, h.led, h.xings, h.vc, h.vcmp,
    h.retireQ, h.lit, h.rcal, h.combCal, h.calRej, h.calLast, h.sensOut, h.classes, h.resets,
    fun x => (Bool.noConfusion (hfieldAt.symm.trans x)), h.mapLag, h.rolePend, h.bondHalf, h.lms, h.attest, h.meas,
    h.opkeySeq, h.debugUsed, h.power, h.heat, h.pairAt, h.pairOff, h.pairLost, h.fast, h.jumpAt, h.tripped, h.trips,
    h.hbmSlow, h.fixed, h.firmware, h.sheetBase, h.reports, h.startedFor, h.ckv, h.mgmt, h.inbox, h.dynAddr, h.eid,
    h.tid, h.bscan, h.markers, h.draws, h.saPins, h.drains, h.portNext, h.heldOut, h.txAn, h.ckvBy, h.hostLines, h.hostResv, h.imsic⟩

theorem set_mapLag {vmapLag} (h : Touches ps s t) (hmapLag : ps.testBit 69 = true) :
    Touches ps s { t with mapLag := vmapLag } :=
  ⟨h.ok, h.vt, h.vtFrac, h.rateTemp, h.rateServo, h.free, h.pending, h.out, h.regs, h.rlatch, h.wlatch, h.ringSel,
    h.wearSel, h.mem, h.grn, h.wear, h.log, h.logBase, h.logRead, h.logRing, h.cores, h.bells, h.node, h.tithes, h.gws,
    h.cfg, h.regions, h.tracePos, h.stackMem, h.bridgeMem, h.invPend, h.invAcks, h.pageBell, h.nextId, h.jobs, h.xfers,
    h.redSteps, h.runs, h.redBytes, h.seqs, h.sheetBell, h.sheetGot, h.rings, h.outs, h.brackets, h.links, h.restores,
    h.hostTake, h.ingress, h.egress, h.qpErr, h.qpRate, h.cnpAt, h.conf, h.sas, h.opkey, h.led, h.xings, h.vc, h.vcmp,
    h.retireQ, h.lit, h.rcal, h.combCal, h.calRej, h.calLast, h.sensOut, h.classes, h.resets, h.fieldAt,
    fun x => (Bool.noConfusion (hmapLag.symm.trans x)), h.rolePend, h.bondHalf, h.lms, h.attest, h.meas, h.opkeySeq,
    h.debugUsed, h.power, h.heat, h.pairAt, h.pairOff, h.pairLost, h.fast, h.jumpAt, h.tripped, h.trips, h.hbmSlow,
    h.fixed, h.firmware, h.sheetBase, h.reports, h.startedFor, h.ckv, h.mgmt, h.inbox, h.dynAddr, h.eid, h.tid,
    h.bscan, h.markers, h.draws, h.saPins, h.drains, h.portNext, h.heldOut, h.txAn, h.ckvBy, h.hostLines, h.hostResv, h.imsic⟩

theorem set_rolePend {vrolePend} (h : Touches ps s t) (hrolePend : ps.testBit 70 = true) :
    Touches ps s { t with rolePend := vrolePend } :=
  ⟨h.ok, h.vt, h.vtFrac, h.rateTemp, h.rateServo, h.free, h.pending, h.out, h.regs, h.rlatch, h.wlatch, h.ringSel,
    h.wearSel, h.mem, h.grn, h.wear, h.log, h.logBase, h.logRead, h.logRing, h.cores, h.bells, h.node, h.tithes, h.gws,
    h.cfg, h.regions, h.tracePos, h.stackMem, h.bridgeMem, h.invPend, h.invAcks, h.pageBell, h.nextId, h.jobs, h.xfers,
    h.redSteps, h.runs, h.redBytes, h.seqs, h.sheetBell, h.sheetGot, h.rings, h.outs, h.brackets, h.links, h.restores,
    h.hostTake, h.ingress, h.egress, h.qpErr, h.qpRate, h.cnpAt, h.conf, h.sas, h.opkey, h.led, h.xings, h.vc, h.vcmp,
    h.retireQ, h.lit, h.rcal, h.combCal, h.calRej, h.calLast, h.sensOut, h.classes, h.resets, h.fieldAt, h.mapLag,
    fun x => (Bool.noConfusion (hrolePend.symm.trans x)), h.bondHalf, h.lms, h.attest, h.meas, h.opkeySeq, h.debugUsed,
    h.power, h.heat, h.pairAt, h.pairOff, h.pairLost, h.fast, h.jumpAt, h.tripped, h.trips, h.hbmSlow, h.fixed,
    h.firmware, h.sheetBase, h.reports, h.startedFor, h.ckv, h.mgmt, h.inbox, h.dynAddr, h.eid, h.tid, h.bscan, h.markers, h.draws, h.saPins, h.drains, h.portNext, h.heldOut, h.txAn, h.ckvBy, h.hostLines, h.hostResv, h.imsic⟩

theorem set_bondHalf {vbondHalf} (h : Touches ps s t) (hbondHalf : ps.testBit 71 = true) :
    Touches ps s { t with bondHalf := vbondHalf } :=
  ⟨h.ok, h.vt, h.vtFrac, h.rateTemp, h.rateServo, h.free, h.pending, h.out, h.regs, h.rlatch, h.wlatch, h.ringSel,
    h.wearSel, h.mem, h.grn, h.wear, h.log, h.logBase, h.logRead, h.logRing, h.cores, h.bells, h.node, h.tithes, h.gws,
    h.cfg, h.regions, h.tracePos, h.stackMem, h.bridgeMem, h.invPend, h.invAcks, h.pageBell, h.nextId, h.jobs, h.xfers,
    h.redSteps, h.runs, h.redBytes, h.seqs, h.sheetBell, h.sheetGot, h.rings, h.outs, h.brackets, h.links, h.restores,
    h.hostTake, h.ingress, h.egress, h.qpErr, h.qpRate, h.cnpAt, h.conf, h.sas, h.opkey, h.led, h.xings, h.vc, h.vcmp,
    h.retireQ, h.lit, h.rcal, h.combCal, h.calRej, h.calLast, h.sensOut, h.classes, h.resets, h.fieldAt, h.mapLag,
    h.rolePend, fun x => (Bool.noConfusion (hbondHalf.symm.trans x)), h.lms, h.attest, h.meas, h.opkeySeq, h.debugUsed,
    h.power, h.heat, h.pairAt, h.pairOff, h.pairLost, h.fast, h.jumpAt, h.tripped, h.trips, h.hbmSlow, h.fixed,
    h.firmware, h.sheetBase, h.reports, h.startedFor, h.ckv, h.mgmt, h.inbox, h.dynAddr, h.eid, h.tid, h.bscan, h.markers, h.draws, h.saPins, h.drains, h.portNext, h.heldOut, h.txAn, h.ckvBy, h.hostLines, h.hostResv, h.imsic⟩

theorem set_lms {vlms} (h : Touches ps s t) (hlms : ps.testBit 72 = true) :
    Touches ps s { t with lms := vlms } :=
  ⟨h.ok, h.vt, h.vtFrac, h.rateTemp, h.rateServo, h.free, h.pending, h.out, h.regs, h.rlatch, h.wlatch, h.ringSel,
    h.wearSel, h.mem, h.grn, h.wear, h.log, h.logBase, h.logRead, h.logRing, h.cores, h.bells, h.node, h.tithes, h.gws,
    h.cfg, h.regions, h.tracePos, h.stackMem, h.bridgeMem, h.invPend, h.invAcks, h.pageBell, h.nextId, h.jobs, h.xfers,
    h.redSteps, h.runs, h.redBytes, h.seqs, h.sheetBell, h.sheetGot, h.rings, h.outs, h.brackets, h.links, h.restores,
    h.hostTake, h.ingress, h.egress, h.qpErr, h.qpRate, h.cnpAt, h.conf, h.sas, h.opkey, h.led, h.xings, h.vc, h.vcmp,
    h.retireQ, h.lit, h.rcal, h.combCal, h.calRej, h.calLast, h.sensOut, h.classes, h.resets, h.fieldAt, h.mapLag,
    h.rolePend, h.bondHalf, fun x => (Bool.noConfusion (hlms.symm.trans x)), h.attest, h.meas, h.opkeySeq, h.debugUsed,
    h.power, h.heat, h.pairAt, h.pairOff, h.pairLost, h.fast, h.jumpAt, h.tripped, h.trips, h.hbmSlow, h.fixed,
    h.firmware, h.sheetBase, h.reports, h.startedFor, h.ckv, h.mgmt, h.inbox, h.dynAddr, h.eid, h.tid, h.bscan, h.markers, h.draws, h.saPins, h.drains, h.portNext, h.heldOut, h.txAn, h.ckvBy, h.hostLines, h.hostResv, h.imsic⟩

theorem set_attest {vattest} (h : Touches ps s t) (hattest : ps.testBit 73 = true) :
    Touches ps s { t with attest := vattest } :=
  ⟨h.ok, h.vt, h.vtFrac, h.rateTemp, h.rateServo, h.free, h.pending, h.out, h.regs, h.rlatch, h.wlatch, h.ringSel,
    h.wearSel, h.mem, h.grn, h.wear, h.log, h.logBase, h.logRead, h.logRing, h.cores, h.bells, h.node, h.tithes, h.gws,
    h.cfg, h.regions, h.tracePos, h.stackMem, h.bridgeMem, h.invPend, h.invAcks, h.pageBell, h.nextId, h.jobs, h.xfers,
    h.redSteps, h.runs, h.redBytes, h.seqs, h.sheetBell, h.sheetGot, h.rings, h.outs, h.brackets, h.links, h.restores,
    h.hostTake, h.ingress, h.egress, h.qpErr, h.qpRate, h.cnpAt, h.conf, h.sas, h.opkey, h.led, h.xings, h.vc, h.vcmp,
    h.retireQ, h.lit, h.rcal, h.combCal, h.calRej, h.calLast, h.sensOut, h.classes, h.resets, h.fieldAt, h.mapLag,
    h.rolePend, h.bondHalf, h.lms, fun x => (Bool.noConfusion (hattest.symm.trans x)), h.meas, h.opkeySeq, h.debugUsed,
    h.power, h.heat, h.pairAt, h.pairOff, h.pairLost, h.fast, h.jumpAt, h.tripped, h.trips, h.hbmSlow, h.fixed,
    h.firmware, h.sheetBase, h.reports, h.startedFor, h.ckv, h.mgmt, h.inbox, h.dynAddr, h.eid, h.tid, h.bscan, h.markers, h.draws, h.saPins, h.drains, h.portNext, h.heldOut, h.txAn, h.ckvBy, h.hostLines, h.hostResv, h.imsic⟩

theorem set_meas {vmeas} (h : Touches ps s t) (hmeas : ps.testBit 74 = true) :
    Touches ps s { t with meas := vmeas } :=
  ⟨h.ok, h.vt, h.vtFrac, h.rateTemp, h.rateServo, h.free, h.pending, h.out, h.regs, h.rlatch, h.wlatch, h.ringSel,
    h.wearSel, h.mem, h.grn, h.wear, h.log, h.logBase, h.logRead, h.logRing, h.cores, h.bells, h.node, h.tithes, h.gws,
    h.cfg, h.regions, h.tracePos, h.stackMem, h.bridgeMem, h.invPend, h.invAcks, h.pageBell, h.nextId, h.jobs, h.xfers,
    h.redSteps, h.runs, h.redBytes, h.seqs, h.sheetBell, h.sheetGot, h.rings, h.outs, h.brackets, h.links, h.restores,
    h.hostTake, h.ingress, h.egress, h.qpErr, h.qpRate, h.cnpAt, h.conf, h.sas, h.opkey, h.led, h.xings, h.vc, h.vcmp,
    h.retireQ, h.lit, h.rcal, h.combCal, h.calRej, h.calLast, h.sensOut, h.classes, h.resets, h.fieldAt, h.mapLag,
    h.rolePend, h.bondHalf, h.lms, h.attest, fun x => (Bool.noConfusion (hmeas.symm.trans x)), h.opkeySeq, h.debugUsed,
    h.power, h.heat, h.pairAt, h.pairOff, h.pairLost, h.fast, h.jumpAt, h.tripped, h.trips, h.hbmSlow, h.fixed,
    h.firmware, h.sheetBase, h.reports, h.startedFor, h.ckv, h.mgmt, h.inbox, h.dynAddr, h.eid, h.tid, h.bscan, h.markers, h.draws, h.saPins, h.drains, h.portNext, h.heldOut, h.txAn, h.ckvBy, h.hostLines, h.hostResv, h.imsic⟩

theorem set_debugUsed {vdebugUsed} (h : Touches ps s t) (hdebugUsed : ps.testBit 76 = true) :
    Touches ps s { t with debugUsed := vdebugUsed } :=
  ⟨h.ok, h.vt, h.vtFrac, h.rateTemp, h.rateServo, h.free, h.pending, h.out, h.regs, h.rlatch, h.wlatch, h.ringSel,
    h.wearSel, h.mem, h.grn, h.wear, h.log, h.logBase, h.logRead, h.logRing, h.cores, h.bells, h.node, h.tithes, h.gws,
    h.cfg, h.regions, h.tracePos, h.stackMem, h.bridgeMem, h.invPend, h.invAcks, h.pageBell, h.nextId, h.jobs, h.xfers,
    h.redSteps, h.runs, h.redBytes, h.seqs, h.sheetBell, h.sheetGot, h.rings, h.outs, h.brackets, h.links, h.restores,
    h.hostTake, h.ingress, h.egress, h.qpErr, h.qpRate, h.cnpAt, h.conf, h.sas, h.opkey, h.led, h.xings, h.vc, h.vcmp,
    h.retireQ, h.lit, h.rcal, h.combCal, h.calRej, h.calLast, h.sensOut, h.classes, h.resets, h.fieldAt, h.mapLag,
    h.rolePend, h.bondHalf, h.lms, h.attest, h.meas, h.opkeySeq, fun x => (Bool.noConfusion (hdebugUsed.symm.trans x)),
    h.power, h.heat, h.pairAt, h.pairOff, h.pairLost, h.fast, h.jumpAt, h.tripped, h.trips, h.hbmSlow, h.fixed,
    h.firmware, h.sheetBase, h.reports, h.startedFor, h.ckv, h.mgmt, h.inbox, h.dynAddr, h.eid, h.tid, h.bscan, h.markers, h.draws, h.saPins, h.drains, h.portNext, h.heldOut, h.txAn, h.ckvBy, h.hostLines, h.hostResv, h.imsic⟩

theorem set_power {vpower} (h : Touches ps s t) (hpower : ps.testBit 77 = true) :
    Touches ps s { t with power := vpower } :=
  ⟨h.ok, h.vt, h.vtFrac, h.rateTemp, h.rateServo, h.free, h.pending, h.out, h.regs, h.rlatch, h.wlatch, h.ringSel,
    h.wearSel, h.mem, h.grn, h.wear, h.log, h.logBase, h.logRead, h.logRing, h.cores, h.bells, h.node, h.tithes, h.gws,
    h.cfg, h.regions, h.tracePos, h.stackMem, h.bridgeMem, h.invPend, h.invAcks, h.pageBell, h.nextId, h.jobs, h.xfers,
    h.redSteps, h.runs, h.redBytes, h.seqs, h.sheetBell, h.sheetGot, h.rings, h.outs, h.brackets, h.links, h.restores,
    h.hostTake, h.ingress, h.egress, h.qpErr, h.qpRate, h.cnpAt, h.conf, h.sas, h.opkey, h.led, h.xings, h.vc, h.vcmp,
    h.retireQ, h.lit, h.rcal, h.combCal, h.calRej, h.calLast, h.sensOut, h.classes, h.resets, h.fieldAt, h.mapLag,
    h.rolePend, h.bondHalf, h.lms, h.attest, h.meas, h.opkeySeq, h.debugUsed,
    fun x => (Bool.noConfusion (hpower.symm.trans x)), h.heat, h.pairAt, h.pairOff, h.pairLost, h.fast, h.jumpAt,
    h.tripped, h.trips, h.hbmSlow, h.fixed, h.firmware, h.sheetBase, h.reports, h.startedFor, h.ckv, h.mgmt, h.inbox,
    h.dynAddr, h.eid, h.tid, h.bscan, h.markers, h.draws, h.saPins, h.drains, h.portNext, h.heldOut, h.txAn, h.ckvBy, h.hostLines, h.hostResv, h.imsic⟩

theorem set_heat {vheat} (h : Touches ps s t) (hheat : ps.testBit 78 = true) :
    Touches ps s { t with heat := vheat } :=
  ⟨h.ok, h.vt, h.vtFrac, h.rateTemp, h.rateServo, h.free, h.pending, h.out, h.regs, h.rlatch, h.wlatch, h.ringSel,
    h.wearSel, h.mem, h.grn, h.wear, h.log, h.logBase, h.logRead, h.logRing, h.cores, h.bells, h.node, h.tithes, h.gws,
    h.cfg, h.regions, h.tracePos, h.stackMem, h.bridgeMem, h.invPend, h.invAcks, h.pageBell, h.nextId, h.jobs, h.xfers,
    h.redSteps, h.runs, h.redBytes, h.seqs, h.sheetBell, h.sheetGot, h.rings, h.outs, h.brackets, h.links, h.restores,
    h.hostTake, h.ingress, h.egress, h.qpErr, h.qpRate, h.cnpAt, h.conf, h.sas, h.opkey, h.led, h.xings, h.vc, h.vcmp,
    h.retireQ, h.lit, h.rcal, h.combCal, h.calRej, h.calLast, h.sensOut, h.classes, h.resets, h.fieldAt, h.mapLag,
    h.rolePend, h.bondHalf, h.lms, h.attest, h.meas, h.opkeySeq, h.debugUsed, h.power,
    fun x => (Bool.noConfusion (hheat.symm.trans x)), h.pairAt, h.pairOff, h.pairLost, h.fast, h.jumpAt, h.tripped,
    h.trips, h.hbmSlow, h.fixed, h.firmware, h.sheetBase, h.reports, h.startedFor, h.ckv, h.mgmt, h.inbox, h.dynAddr,
    h.eid, h.tid, h.bscan, h.markers, h.draws, h.saPins, h.drains, h.portNext, h.heldOut, h.txAn, h.ckvBy, h.hostLines, h.hostResv, h.imsic⟩

theorem set_pairAt {vpairAt} (h : Touches ps s t) (hpairAt : ps.testBit 79 = true) :
    Touches ps s { t with pairAt := vpairAt } :=
  ⟨h.ok, h.vt, h.vtFrac, h.rateTemp, h.rateServo, h.free, h.pending, h.out, h.regs, h.rlatch, h.wlatch, h.ringSel,
    h.wearSel, h.mem, h.grn, h.wear, h.log, h.logBase, h.logRead, h.logRing, h.cores, h.bells, h.node, h.tithes, h.gws,
    h.cfg, h.regions, h.tracePos, h.stackMem, h.bridgeMem, h.invPend, h.invAcks, h.pageBell, h.nextId, h.jobs, h.xfers,
    h.redSteps, h.runs, h.redBytes, h.seqs, h.sheetBell, h.sheetGot, h.rings, h.outs, h.brackets, h.links, h.restores,
    h.hostTake, h.ingress, h.egress, h.qpErr, h.qpRate, h.cnpAt, h.conf, h.sas, h.opkey, h.led, h.xings, h.vc, h.vcmp,
    h.retireQ, h.lit, h.rcal, h.combCal, h.calRej, h.calLast, h.sensOut, h.classes, h.resets, h.fieldAt, h.mapLag,
    h.rolePend, h.bondHalf, h.lms, h.attest, h.meas, h.opkeySeq, h.debugUsed, h.power, h.heat,
    fun x => (Bool.noConfusion (hpairAt.symm.trans x)), h.pairOff, h.pairLost, h.fast, h.jumpAt, h.tripped, h.trips,
    h.hbmSlow, h.fixed, h.firmware, h.sheetBase, h.reports, h.startedFor, h.ckv, h.mgmt, h.inbox, h.dynAddr, h.eid,
    h.tid, h.bscan, h.markers, h.draws, h.saPins, h.drains, h.portNext, h.heldOut, h.txAn, h.ckvBy, h.hostLines, h.hostResv, h.imsic⟩

theorem set_pairOff {vpairOff} (h : Touches ps s t) (hpairOff : ps.testBit 80 = true) :
    Touches ps s { t with pairOff := vpairOff } :=
  ⟨h.ok, h.vt, h.vtFrac, h.rateTemp, h.rateServo, h.free, h.pending, h.out, h.regs, h.rlatch, h.wlatch, h.ringSel,
    h.wearSel, h.mem, h.grn, h.wear, h.log, h.logBase, h.logRead, h.logRing, h.cores, h.bells, h.node, h.tithes, h.gws,
    h.cfg, h.regions, h.tracePos, h.stackMem, h.bridgeMem, h.invPend, h.invAcks, h.pageBell, h.nextId, h.jobs, h.xfers,
    h.redSteps, h.runs, h.redBytes, h.seqs, h.sheetBell, h.sheetGot, h.rings, h.outs, h.brackets, h.links, h.restores,
    h.hostTake, h.ingress, h.egress, h.qpErr, h.qpRate, h.cnpAt, h.conf, h.sas, h.opkey, h.led, h.xings, h.vc, h.vcmp,
    h.retireQ, h.lit, h.rcal, h.combCal, h.calRej, h.calLast, h.sensOut, h.classes, h.resets, h.fieldAt, h.mapLag,
    h.rolePend, h.bondHalf, h.lms, h.attest, h.meas, h.opkeySeq, h.debugUsed, h.power, h.heat, h.pairAt,
    fun x => (Bool.noConfusion (hpairOff.symm.trans x)), h.pairLost, h.fast, h.jumpAt, h.tripped, h.trips, h.hbmSlow,
    h.fixed, h.firmware, h.sheetBase, h.reports, h.startedFor, h.ckv, h.mgmt, h.inbox, h.dynAddr, h.eid, h.tid,
    h.bscan, h.markers, h.draws, h.saPins, h.drains, h.portNext, h.heldOut, h.txAn, h.ckvBy, h.hostLines, h.hostResv, h.imsic⟩

theorem set_pairLost {vpairLost} (h : Touches ps s t) (hpairLost : ps.testBit 81 = true) :
    Touches ps s { t with pairLost := vpairLost } :=
  ⟨h.ok, h.vt, h.vtFrac, h.rateTemp, h.rateServo, h.free, h.pending, h.out, h.regs, h.rlatch, h.wlatch, h.ringSel,
    h.wearSel, h.mem, h.grn, h.wear, h.log, h.logBase, h.logRead, h.logRing, h.cores, h.bells, h.node, h.tithes, h.gws,
    h.cfg, h.regions, h.tracePos, h.stackMem, h.bridgeMem, h.invPend, h.invAcks, h.pageBell, h.nextId, h.jobs, h.xfers,
    h.redSteps, h.runs, h.redBytes, h.seqs, h.sheetBell, h.sheetGot, h.rings, h.outs, h.brackets, h.links, h.restores,
    h.hostTake, h.ingress, h.egress, h.qpErr, h.qpRate, h.cnpAt, h.conf, h.sas, h.opkey, h.led, h.xings, h.vc, h.vcmp,
    h.retireQ, h.lit, h.rcal, h.combCal, h.calRej, h.calLast, h.sensOut, h.classes, h.resets, h.fieldAt, h.mapLag,
    h.rolePend, h.bondHalf, h.lms, h.attest, h.meas, h.opkeySeq, h.debugUsed, h.power, h.heat, h.pairAt, h.pairOff,
    fun x => (Bool.noConfusion (hpairLost.symm.trans x)), h.fast, h.jumpAt, h.tripped, h.trips, h.hbmSlow, h.fixed,
    h.firmware, h.sheetBase, h.reports, h.startedFor, h.ckv, h.mgmt, h.inbox, h.dynAddr, h.eid, h.tid, h.bscan, h.markers, h.draws, h.saPins, h.drains, h.portNext, h.heldOut, h.txAn, h.ckvBy, h.hostLines, h.hostResv, h.imsic⟩

theorem set_fast {vfast} (h : Touches ps s t) (hfast : ps.testBit 82 = true) :
    Touches ps s { t with fast := vfast } :=
  ⟨h.ok, h.vt, h.vtFrac, h.rateTemp, h.rateServo, h.free, h.pending, h.out, h.regs, h.rlatch, h.wlatch, h.ringSel,
    h.wearSel, h.mem, h.grn, h.wear, h.log, h.logBase, h.logRead, h.logRing, h.cores, h.bells, h.node, h.tithes, h.gws,
    h.cfg, h.regions, h.tracePos, h.stackMem, h.bridgeMem, h.invPend, h.invAcks, h.pageBell, h.nextId, h.jobs, h.xfers,
    h.redSteps, h.runs, h.redBytes, h.seqs, h.sheetBell, h.sheetGot, h.rings, h.outs, h.brackets, h.links, h.restores,
    h.hostTake, h.ingress, h.egress, h.qpErr, h.qpRate, h.cnpAt, h.conf, h.sas, h.opkey, h.led, h.xings, h.vc, h.vcmp,
    h.retireQ, h.lit, h.rcal, h.combCal, h.calRej, h.calLast, h.sensOut, h.classes, h.resets, h.fieldAt, h.mapLag,
    h.rolePend, h.bondHalf, h.lms, h.attest, h.meas, h.opkeySeq, h.debugUsed, h.power, h.heat, h.pairAt, h.pairOff,
    h.pairLost, fun x => (Bool.noConfusion (hfast.symm.trans x)), h.jumpAt, h.tripped, h.trips, h.hbmSlow, h.fixed,
    h.firmware, h.sheetBase, h.reports, h.startedFor, h.ckv, h.mgmt, h.inbox, h.dynAddr, h.eid, h.tid, h.bscan, h.markers, h.draws, h.saPins, h.drains, h.portNext, h.heldOut, h.txAn, h.ckvBy, h.hostLines, h.hostResv, h.imsic⟩

theorem set_jumpAt {vjumpAt} (h : Touches ps s t) (hjumpAt : ps.testBit 83 = true) :
    Touches ps s { t with jumpAt := vjumpAt } :=
  ⟨h.ok, h.vt, h.vtFrac, h.rateTemp, h.rateServo, h.free, h.pending, h.out, h.regs, h.rlatch, h.wlatch, h.ringSel,
    h.wearSel, h.mem, h.grn, h.wear, h.log, h.logBase, h.logRead, h.logRing, h.cores, h.bells, h.node, h.tithes, h.gws,
    h.cfg, h.regions, h.tracePos, h.stackMem, h.bridgeMem, h.invPend, h.invAcks, h.pageBell, h.nextId, h.jobs, h.xfers,
    h.redSteps, h.runs, h.redBytes, h.seqs, h.sheetBell, h.sheetGot, h.rings, h.outs, h.brackets, h.links, h.restores,
    h.hostTake, h.ingress, h.egress, h.qpErr, h.qpRate, h.cnpAt, h.conf, h.sas, h.opkey, h.led, h.xings, h.vc, h.vcmp,
    h.retireQ, h.lit, h.rcal, h.combCal, h.calRej, h.calLast, h.sensOut, h.classes, h.resets, h.fieldAt, h.mapLag,
    h.rolePend, h.bondHalf, h.lms, h.attest, h.meas, h.opkeySeq, h.debugUsed, h.power, h.heat, h.pairAt, h.pairOff,
    h.pairLost, h.fast, fun x => (Bool.noConfusion (hjumpAt.symm.trans x)), h.tripped, h.trips, h.hbmSlow, h.fixed,
    h.firmware, h.sheetBase, h.reports, h.startedFor, h.ckv, h.mgmt, h.inbox, h.dynAddr, h.eid, h.tid, h.bscan, h.markers, h.draws, h.saPins, h.drains, h.portNext, h.heldOut, h.txAn, h.ckvBy, h.hostLines, h.hostResv, h.imsic⟩

theorem set_tripped {vtripped} (h : Touches ps s t) (htripped : ps.testBit 84 = true) :
    Touches ps s { t with tripped := vtripped } :=
  ⟨h.ok, h.vt, h.vtFrac, h.rateTemp, h.rateServo, h.free, h.pending, h.out, h.regs, h.rlatch, h.wlatch, h.ringSel,
    h.wearSel, h.mem, h.grn, h.wear, h.log, h.logBase, h.logRead, h.logRing, h.cores, h.bells, h.node, h.tithes, h.gws,
    h.cfg, h.regions, h.tracePos, h.stackMem, h.bridgeMem, h.invPend, h.invAcks, h.pageBell, h.nextId, h.jobs, h.xfers,
    h.redSteps, h.runs, h.redBytes, h.seqs, h.sheetBell, h.sheetGot, h.rings, h.outs, h.brackets, h.links, h.restores,
    h.hostTake, h.ingress, h.egress, h.qpErr, h.qpRate, h.cnpAt, h.conf, h.sas, h.opkey, h.led, h.xings, h.vc, h.vcmp,
    h.retireQ, h.lit, h.rcal, h.combCal, h.calRej, h.calLast, h.sensOut, h.classes, h.resets, h.fieldAt, h.mapLag,
    h.rolePend, h.bondHalf, h.lms, h.attest, h.meas, h.opkeySeq, h.debugUsed, h.power, h.heat, h.pairAt, h.pairOff,
    h.pairLost, h.fast, h.jumpAt, fun x => (Bool.noConfusion (htripped.symm.trans x)), h.trips, h.hbmSlow, h.fixed,
    h.firmware, h.sheetBase, h.reports, h.startedFor, h.ckv, h.mgmt, h.inbox, h.dynAddr, h.eid, h.tid, h.bscan, h.markers, h.draws, h.saPins, h.drains, h.portNext, h.heldOut, h.txAn, h.ckvBy, h.hostLines, h.hostResv, h.imsic⟩

theorem set_trips {vtrips} (h : Touches ps s t) (htrips : ps.testBit 85 = true) :
    Touches ps s { t with trips := vtrips } :=
  ⟨h.ok, h.vt, h.vtFrac, h.rateTemp, h.rateServo, h.free, h.pending, h.out, h.regs, h.rlatch, h.wlatch, h.ringSel,
    h.wearSel, h.mem, h.grn, h.wear, h.log, h.logBase, h.logRead, h.logRing, h.cores, h.bells, h.node, h.tithes, h.gws,
    h.cfg, h.regions, h.tracePos, h.stackMem, h.bridgeMem, h.invPend, h.invAcks, h.pageBell, h.nextId, h.jobs, h.xfers,
    h.redSteps, h.runs, h.redBytes, h.seqs, h.sheetBell, h.sheetGot, h.rings, h.outs, h.brackets, h.links, h.restores,
    h.hostTake, h.ingress, h.egress, h.qpErr, h.qpRate, h.cnpAt, h.conf, h.sas, h.opkey, h.led, h.xings, h.vc, h.vcmp,
    h.retireQ, h.lit, h.rcal, h.combCal, h.calRej, h.calLast, h.sensOut, h.classes, h.resets, h.fieldAt, h.mapLag,
    h.rolePend, h.bondHalf, h.lms, h.attest, h.meas, h.opkeySeq, h.debugUsed, h.power, h.heat, h.pairAt, h.pairOff,
    h.pairLost, h.fast, h.jumpAt, h.tripped, fun x => (Bool.noConfusion (htrips.symm.trans x)), h.hbmSlow, h.fixed,
    h.firmware, h.sheetBase, h.reports, h.startedFor, h.ckv, h.mgmt, h.inbox, h.dynAddr, h.eid, h.tid, h.bscan, h.markers, h.draws, h.saPins, h.drains, h.portNext, h.heldOut, h.txAn, h.ckvBy, h.hostLines, h.hostResv, h.imsic⟩

theorem set_hbmSlow {vhbmSlow} (h : Touches ps s t) (hhbmSlow : ps.testBit 86 = true) :
    Touches ps s { t with hbmSlow := vhbmSlow } :=
  ⟨h.ok, h.vt, h.vtFrac, h.rateTemp, h.rateServo, h.free, h.pending, h.out, h.regs, h.rlatch, h.wlatch, h.ringSel,
    h.wearSel, h.mem, h.grn, h.wear, h.log, h.logBase, h.logRead, h.logRing, h.cores, h.bells, h.node, h.tithes, h.gws,
    h.cfg, h.regions, h.tracePos, h.stackMem, h.bridgeMem, h.invPend, h.invAcks, h.pageBell, h.nextId, h.jobs, h.xfers,
    h.redSteps, h.runs, h.redBytes, h.seqs, h.sheetBell, h.sheetGot, h.rings, h.outs, h.brackets, h.links, h.restores,
    h.hostTake, h.ingress, h.egress, h.qpErr, h.qpRate, h.cnpAt, h.conf, h.sas, h.opkey, h.led, h.xings, h.vc, h.vcmp,
    h.retireQ, h.lit, h.rcal, h.combCal, h.calRej, h.calLast, h.sensOut, h.classes, h.resets, h.fieldAt, h.mapLag,
    h.rolePend, h.bondHalf, h.lms, h.attest, h.meas, h.opkeySeq, h.debugUsed, h.power, h.heat, h.pairAt, h.pairOff,
    h.pairLost, h.fast, h.jumpAt, h.tripped, h.trips, fun x => (Bool.noConfusion (hhbmSlow.symm.trans x)), h.fixed,
    h.firmware, h.sheetBase, h.reports, h.startedFor, h.ckv, h.mgmt, h.inbox, h.dynAddr, h.eid, h.tid, h.bscan, h.markers, h.draws, h.saPins, h.drains, h.portNext, h.heldOut, h.txAn, h.ckvBy, h.hostLines, h.hostResv, h.imsic⟩

theorem set_fixed {vfixed} (h : Touches ps s t) (hfixed : ps.testBit 87 = true) :
    Touches ps s { t with fixed := vfixed } :=
  ⟨h.ok, h.vt, h.vtFrac, h.rateTemp, h.rateServo, h.free, h.pending, h.out, h.regs, h.rlatch, h.wlatch, h.ringSel,
    h.wearSel, h.mem, h.grn, h.wear, h.log, h.logBase, h.logRead, h.logRing, h.cores, h.bells, h.node, h.tithes, h.gws,
    h.cfg, h.regions, h.tracePos, h.stackMem, h.bridgeMem, h.invPend, h.invAcks, h.pageBell, h.nextId, h.jobs, h.xfers,
    h.redSteps, h.runs, h.redBytes, h.seqs, h.sheetBell, h.sheetGot, h.rings, h.outs, h.brackets, h.links, h.restores,
    h.hostTake, h.ingress, h.egress, h.qpErr, h.qpRate, h.cnpAt, h.conf, h.sas, h.opkey, h.led, h.xings, h.vc, h.vcmp,
    h.retireQ, h.lit, h.rcal, h.combCal, h.calRej, h.calLast, h.sensOut, h.classes, h.resets, h.fieldAt, h.mapLag,
    h.rolePend, h.bondHalf, h.lms, h.attest, h.meas, h.opkeySeq, h.debugUsed, h.power, h.heat, h.pairAt, h.pairOff,
    h.pairLost, h.fast, h.jumpAt, h.tripped, h.trips, h.hbmSlow, fun x => (Bool.noConfusion (hfixed.symm.trans x)),
    h.firmware, h.sheetBase, h.reports, h.startedFor, h.ckv, h.mgmt, h.inbox, h.dynAddr, h.eid, h.tid, h.bscan, h.markers, h.draws, h.saPins, h.drains, h.portNext, h.heldOut, h.txAn, h.ckvBy, h.hostLines, h.hostResv, h.imsic⟩

theorem set_firmware {vfirmware} (h : Touches ps s t) (hfirmware : ps.testBit 88 = true) :
    Touches ps s { t with firmware := vfirmware } :=
  ⟨h.ok, h.vt, h.vtFrac, h.rateTemp, h.rateServo, h.free, h.pending, h.out, h.regs, h.rlatch, h.wlatch, h.ringSel,
    h.wearSel, h.mem, h.grn, h.wear, h.log, h.logBase, h.logRead, h.logRing, h.cores, h.bells, h.node, h.tithes, h.gws,
    h.cfg, h.regions, h.tracePos, h.stackMem, h.bridgeMem, h.invPend, h.invAcks, h.pageBell, h.nextId, h.jobs, h.xfers,
    h.redSteps, h.runs, h.redBytes, h.seqs, h.sheetBell, h.sheetGot, h.rings, h.outs, h.brackets, h.links, h.restores,
    h.hostTake, h.ingress, h.egress, h.qpErr, h.qpRate, h.cnpAt, h.conf, h.sas, h.opkey, h.led, h.xings, h.vc, h.vcmp,
    h.retireQ, h.lit, h.rcal, h.combCal, h.calRej, h.calLast, h.sensOut, h.classes, h.resets, h.fieldAt, h.mapLag,
    h.rolePend, h.bondHalf, h.lms, h.attest, h.meas, h.opkeySeq, h.debugUsed, h.power, h.heat, h.pairAt, h.pairOff,
    h.pairLost, h.fast, h.jumpAt, h.tripped, h.trips, h.hbmSlow, h.fixed,
    fun x => (Bool.noConfusion (hfirmware.symm.trans x)), h.sheetBase, h.reports, h.startedFor, h.ckv, h.mgmt, h.inbox,
    h.dynAddr, h.eid, h.tid, h.bscan, h.markers, h.draws, h.saPins, h.drains, h.portNext, h.heldOut, h.txAn, h.ckvBy, h.hostLines, h.hostResv, h.imsic⟩

theorem set_sheetBase {vsheetBase} (h : Touches ps s t) (hsheetBase : ps.testBit 89 = true) :
    Touches ps s { t with sheetBase := vsheetBase } :=
  ⟨h.ok, h.vt, h.vtFrac, h.rateTemp, h.rateServo, h.free, h.pending, h.out, h.regs, h.rlatch, h.wlatch, h.ringSel,
    h.wearSel, h.mem, h.grn, h.wear, h.log, h.logBase, h.logRead, h.logRing, h.cores, h.bells, h.node, h.tithes, h.gws,
    h.cfg, h.regions, h.tracePos, h.stackMem, h.bridgeMem, h.invPend, h.invAcks, h.pageBell, h.nextId, h.jobs, h.xfers,
    h.redSteps, h.runs, h.redBytes, h.seqs, h.sheetBell, h.sheetGot, h.rings, h.outs, h.brackets, h.links, h.restores,
    h.hostTake, h.ingress, h.egress, h.qpErr, h.qpRate, h.cnpAt, h.conf, h.sas, h.opkey, h.led, h.xings, h.vc, h.vcmp,
    h.retireQ, h.lit, h.rcal, h.combCal, h.calRej, h.calLast, h.sensOut, h.classes, h.resets, h.fieldAt, h.mapLag,
    h.rolePend, h.bondHalf, h.lms, h.attest, h.meas, h.opkeySeq, h.debugUsed, h.power, h.heat, h.pairAt, h.pairOff,
    h.pairLost, h.fast, h.jumpAt, h.tripped, h.trips, h.hbmSlow, h.fixed, h.firmware,
    fun x => (Bool.noConfusion (hsheetBase.symm.trans x)), h.reports, h.startedFor, h.ckv, h.mgmt, h.inbox, h.dynAddr,
    h.eid, h.tid, h.bscan, h.markers, h.draws, h.saPins, h.drains, h.portNext, h.heldOut, h.txAn, h.ckvBy, h.hostLines, h.hostResv, h.imsic⟩

theorem set_reports {vreports} (h : Touches ps s t) (hreports : ps.testBit 90 = true) :
    Touches ps s { t with reports := vreports } :=
  ⟨h.ok, h.vt, h.vtFrac, h.rateTemp, h.rateServo, h.free, h.pending, h.out, h.regs, h.rlatch, h.wlatch, h.ringSel,
    h.wearSel, h.mem, h.grn, h.wear, h.log, h.logBase, h.logRead, h.logRing, h.cores, h.bells, h.node, h.tithes, h.gws,
    h.cfg, h.regions, h.tracePos, h.stackMem, h.bridgeMem, h.invPend, h.invAcks, h.pageBell, h.nextId, h.jobs, h.xfers,
    h.redSteps, h.runs, h.redBytes, h.seqs, h.sheetBell, h.sheetGot, h.rings, h.outs, h.brackets, h.links, h.restores,
    h.hostTake, h.ingress, h.egress, h.qpErr, h.qpRate, h.cnpAt, h.conf, h.sas, h.opkey, h.led, h.xings, h.vc, h.vcmp,
    h.retireQ, h.lit, h.rcal, h.combCal, h.calRej, h.calLast, h.sensOut, h.classes, h.resets, h.fieldAt, h.mapLag,
    h.rolePend, h.bondHalf, h.lms, h.attest, h.meas, h.opkeySeq, h.debugUsed, h.power, h.heat, h.pairAt, h.pairOff,
    h.pairLost, h.fast, h.jumpAt, h.tripped, h.trips, h.hbmSlow, h.fixed, h.firmware, h.sheetBase,
    fun x => (Bool.noConfusion (hreports.symm.trans x)), h.startedFor, h.ckv, h.mgmt, h.inbox, h.dynAddr, h.eid, h.tid,
    h.bscan, h.markers, h.draws, h.saPins, h.drains, h.portNext, h.heldOut, h.txAn, h.ckvBy, h.hostLines, h.hostResv, h.imsic⟩

theorem set_startedFor {vstartedFor} (h : Touches ps s t) (hstartedFor : ps.testBit 91 = true) :
    Touches ps s { t with startedFor := vstartedFor } :=
  ⟨h.ok, h.vt, h.vtFrac, h.rateTemp, h.rateServo, h.free, h.pending, h.out, h.regs, h.rlatch, h.wlatch, h.ringSel,
    h.wearSel, h.mem, h.grn, h.wear, h.log, h.logBase, h.logRead, h.logRing, h.cores, h.bells, h.node, h.tithes, h.gws,
    h.cfg, h.regions, h.tracePos, h.stackMem, h.bridgeMem, h.invPend, h.invAcks, h.pageBell, h.nextId, h.jobs, h.xfers,
    h.redSteps, h.runs, h.redBytes, h.seqs, h.sheetBell, h.sheetGot, h.rings, h.outs, h.brackets, h.links, h.restores,
    h.hostTake, h.ingress, h.egress, h.qpErr, h.qpRate, h.cnpAt, h.conf, h.sas, h.opkey, h.led, h.xings, h.vc, h.vcmp,
    h.retireQ, h.lit, h.rcal, h.combCal, h.calRej, h.calLast, h.sensOut, h.classes, h.resets, h.fieldAt, h.mapLag,
    h.rolePend, h.bondHalf, h.lms, h.attest, h.meas, h.opkeySeq, h.debugUsed, h.power, h.heat, h.pairAt, h.pairOff,
    h.pairLost, h.fast, h.jumpAt, h.tripped, h.trips, h.hbmSlow, h.fixed, h.firmware, h.sheetBase, h.reports,
    fun x => (Bool.noConfusion (hstartedFor.symm.trans x)), h.ckv, h.mgmt, h.inbox, h.dynAddr, h.eid, h.tid, h.bscan, h.markers, h.draws, h.saPins, h.drains, h.portNext, h.heldOut, h.txAn, h.ckvBy, h.hostLines, h.hostResv, h.imsic⟩

theorem set_ckv {vckv} (h : Touches ps s t) (hckv : ps.testBit 92 = true) :
    Touches ps s { t with ckv := vckv } :=
  ⟨h.ok, h.vt, h.vtFrac, h.rateTemp, h.rateServo, h.free, h.pending, h.out, h.regs, h.rlatch, h.wlatch, h.ringSel,
    h.wearSel, h.mem, h.grn, h.wear, h.log, h.logBase, h.logRead, h.logRing, h.cores, h.bells, h.node, h.tithes, h.gws,
    h.cfg, h.regions, h.tracePos, h.stackMem, h.bridgeMem, h.invPend, h.invAcks, h.pageBell, h.nextId, h.jobs, h.xfers,
    h.redSteps, h.runs, h.redBytes, h.seqs, h.sheetBell, h.sheetGot, h.rings, h.outs, h.brackets, h.links, h.restores,
    h.hostTake, h.ingress, h.egress, h.qpErr, h.qpRate, h.cnpAt, h.conf, h.sas, h.opkey, h.led, h.xings, h.vc, h.vcmp,
    h.retireQ, h.lit, h.rcal, h.combCal, h.calRej, h.calLast, h.sensOut, h.classes, h.resets, h.fieldAt, h.mapLag,
    h.rolePend, h.bondHalf, h.lms, h.attest, h.meas, h.opkeySeq, h.debugUsed, h.power, h.heat, h.pairAt, h.pairOff,
    h.pairLost, h.fast, h.jumpAt, h.tripped, h.trips, h.hbmSlow, h.fixed, h.firmware, h.sheetBase, h.reports,
    h.startedFor, fun x => (Bool.noConfusion (hckv.symm.trans x)), h.mgmt, h.inbox, h.dynAddr, h.eid, h.tid, h.bscan, h.markers, h.draws, h.saPins, h.drains, h.portNext, h.heldOut, h.txAn, h.ckvBy, h.hostLines, h.hostResv, h.imsic⟩

theorem set_mgmt {vmgmt} (h : Touches ps s t) (hmgmt : ps.testBit 93 = true) :
    Touches ps s { t with mgmt := vmgmt } :=
  ⟨h.ok, h.vt, h.vtFrac, h.rateTemp, h.rateServo, h.free, h.pending, h.out, h.regs, h.rlatch, h.wlatch, h.ringSel,
    h.wearSel, h.mem, h.grn, h.wear, h.log, h.logBase, h.logRead, h.logRing, h.cores, h.bells, h.node, h.tithes, h.gws,
    h.cfg, h.regions, h.tracePos, h.stackMem, h.bridgeMem, h.invPend, h.invAcks, h.pageBell, h.nextId, h.jobs, h.xfers,
    h.redSteps, h.runs, h.redBytes, h.seqs, h.sheetBell, h.sheetGot, h.rings, h.outs, h.brackets, h.links, h.restores,
    h.hostTake, h.ingress, h.egress, h.qpErr, h.qpRate, h.cnpAt, h.conf, h.sas, h.opkey, h.led, h.xings, h.vc, h.vcmp,
    h.retireQ, h.lit, h.rcal, h.combCal, h.calRej, h.calLast, h.sensOut, h.classes, h.resets, h.fieldAt, h.mapLag,
    h.rolePend, h.bondHalf, h.lms, h.attest, h.meas, h.opkeySeq, h.debugUsed, h.power, h.heat, h.pairAt, h.pairOff,
    h.pairLost, h.fast, h.jumpAt, h.tripped, h.trips, h.hbmSlow, h.fixed, h.firmware, h.sheetBase, h.reports,
    h.startedFor, h.ckv, fun x => (Bool.noConfusion (hmgmt.symm.trans x)), h.inbox, h.dynAddr, h.eid, h.tid, h.bscan, h.markers, h.draws, h.saPins, h.drains, h.portNext, h.heldOut, h.txAn, h.ckvBy, h.hostLines, h.hostResv, h.imsic⟩

theorem set_inbox {vinbox} (h : Touches ps s t) (hinbox : ps.testBit 94 = true) :
    Touches ps s { t with inbox := vinbox } :=
  ⟨h.ok, h.vt, h.vtFrac, h.rateTemp, h.rateServo, h.free, h.pending, h.out, h.regs, h.rlatch, h.wlatch, h.ringSel,
    h.wearSel, h.mem, h.grn, h.wear, h.log, h.logBase, h.logRead, h.logRing, h.cores, h.bells, h.node, h.tithes, h.gws,
    h.cfg, h.regions, h.tracePos, h.stackMem, h.bridgeMem, h.invPend, h.invAcks, h.pageBell, h.nextId, h.jobs, h.xfers,
    h.redSteps, h.runs, h.redBytes, h.seqs, h.sheetBell, h.sheetGot, h.rings, h.outs, h.brackets, h.links, h.restores,
    h.hostTake, h.ingress, h.egress, h.qpErr, h.qpRate, h.cnpAt, h.conf, h.sas, h.opkey, h.led, h.xings, h.vc, h.vcmp,
    h.retireQ, h.lit, h.rcal, h.combCal, h.calRej, h.calLast, h.sensOut, h.classes, h.resets, h.fieldAt, h.mapLag,
    h.rolePend, h.bondHalf, h.lms, h.attest, h.meas, h.opkeySeq, h.debugUsed, h.power, h.heat, h.pairAt, h.pairOff,
    h.pairLost, h.fast, h.jumpAt, h.tripped, h.trips, h.hbmSlow, h.fixed, h.firmware, h.sheetBase, h.reports,
    h.startedFor, h.ckv, h.mgmt, fun x => (Bool.noConfusion (hinbox.symm.trans x)), h.dynAddr, h.eid, h.tid, h.bscan, h.markers, h.draws, h.saPins, h.drains, h.portNext, h.heldOut, h.txAn, h.ckvBy, h.hostLines, h.hostResv, h.imsic⟩

theorem set_dynAddr {vdynAddr} (h : Touches ps s t) (hdynAddr : ps.testBit 95 = true) :
    Touches ps s { t with dynAddr := vdynAddr } :=
  ⟨h.ok, h.vt, h.vtFrac, h.rateTemp, h.rateServo, h.free, h.pending, h.out, h.regs, h.rlatch, h.wlatch, h.ringSel,
    h.wearSel, h.mem, h.grn, h.wear, h.log, h.logBase, h.logRead, h.logRing, h.cores, h.bells, h.node, h.tithes, h.gws,
    h.cfg, h.regions, h.tracePos, h.stackMem, h.bridgeMem, h.invPend, h.invAcks, h.pageBell, h.nextId, h.jobs, h.xfers,
    h.redSteps, h.runs, h.redBytes, h.seqs, h.sheetBell, h.sheetGot, h.rings, h.outs, h.brackets, h.links, h.restores,
    h.hostTake, h.ingress, h.egress, h.qpErr, h.qpRate, h.cnpAt, h.conf, h.sas, h.opkey, h.led, h.xings, h.vc, h.vcmp,
    h.retireQ, h.lit, h.rcal, h.combCal, h.calRej, h.calLast, h.sensOut, h.classes, h.resets, h.fieldAt, h.mapLag,
    h.rolePend, h.bondHalf, h.lms, h.attest, h.meas, h.opkeySeq, h.debugUsed, h.power, h.heat, h.pairAt, h.pairOff,
    h.pairLost, h.fast, h.jumpAt, h.tripped, h.trips, h.hbmSlow, h.fixed, h.firmware, h.sheetBase, h.reports,
    h.startedFor, h.ckv, h.mgmt, h.inbox, fun x => (Bool.noConfusion (hdynAddr.symm.trans x)), h.eid, h.tid, h.bscan, h.markers, h.draws, h.saPins, h.drains, h.portNext, h.heldOut, h.txAn, h.ckvBy, h.hostLines, h.hostResv, h.imsic⟩

theorem set_eid {veid} (h : Touches ps s t) (heid : ps.testBit 96 = true) :
    Touches ps s { t with eid := veid } :=
  ⟨h.ok, h.vt, h.vtFrac, h.rateTemp, h.rateServo, h.free, h.pending, h.out, h.regs, h.rlatch, h.wlatch, h.ringSel,
    h.wearSel, h.mem, h.grn, h.wear, h.log, h.logBase, h.logRead, h.logRing, h.cores, h.bells, h.node, h.tithes, h.gws,
    h.cfg, h.regions, h.tracePos, h.stackMem, h.bridgeMem, h.invPend, h.invAcks, h.pageBell, h.nextId, h.jobs, h.xfers,
    h.redSteps, h.runs, h.redBytes, h.seqs, h.sheetBell, h.sheetGot, h.rings, h.outs, h.brackets, h.links, h.restores,
    h.hostTake, h.ingress, h.egress, h.qpErr, h.qpRate, h.cnpAt, h.conf, h.sas, h.opkey, h.led, h.xings, h.vc, h.vcmp,
    h.retireQ, h.lit, h.rcal, h.combCal, h.calRej, h.calLast, h.sensOut, h.classes, h.resets, h.fieldAt, h.mapLag,
    h.rolePend, h.bondHalf, h.lms, h.attest, h.meas, h.opkeySeq, h.debugUsed, h.power, h.heat, h.pairAt, h.pairOff,
    h.pairLost, h.fast, h.jumpAt, h.tripped, h.trips, h.hbmSlow, h.fixed, h.firmware, h.sheetBase, h.reports,
    h.startedFor, h.ckv, h.mgmt, h.inbox, h.dynAddr, fun x => (Bool.noConfusion (heid.symm.trans x)), h.tid, h.bscan, h.markers, h.draws, h.saPins, h.drains, h.portNext, h.heldOut, h.txAn, h.ckvBy, h.hostLines, h.hostResv, h.imsic⟩

theorem set_tid {vtid} (h : Touches ps s t) (htid : ps.testBit 97 = true) :
    Touches ps s { t with tid := vtid } :=
  ⟨h.ok, h.vt, h.vtFrac, h.rateTemp, h.rateServo, h.free, h.pending, h.out, h.regs, h.rlatch, h.wlatch, h.ringSel,
    h.wearSel, h.mem, h.grn, h.wear, h.log, h.logBase, h.logRead, h.logRing, h.cores, h.bells, h.node, h.tithes, h.gws,
    h.cfg, h.regions, h.tracePos, h.stackMem, h.bridgeMem, h.invPend, h.invAcks, h.pageBell, h.nextId, h.jobs, h.xfers,
    h.redSteps, h.runs, h.redBytes, h.seqs, h.sheetBell, h.sheetGot, h.rings, h.outs, h.brackets, h.links, h.restores,
    h.hostTake, h.ingress, h.egress, h.qpErr, h.qpRate, h.cnpAt, h.conf, h.sas, h.opkey, h.led, h.xings, h.vc, h.vcmp,
    h.retireQ, h.lit, h.rcal, h.combCal, h.calRej, h.calLast, h.sensOut, h.classes, h.resets, h.fieldAt, h.mapLag,
    h.rolePend, h.bondHalf, h.lms, h.attest, h.meas, h.opkeySeq, h.debugUsed, h.power, h.heat, h.pairAt, h.pairOff,
    h.pairLost, h.fast, h.jumpAt, h.tripped, h.trips, h.hbmSlow, h.fixed, h.firmware, h.sheetBase, h.reports,
    h.startedFor, h.ckv, h.mgmt, h.inbox, h.dynAddr, h.eid, fun x => (Bool.noConfusion (htid.symm.trans x)), h.bscan, h.markers, h.draws, h.saPins, h.drains, h.portNext, h.heldOut, h.txAn, h.ckvBy, h.hostLines, h.hostResv, h.imsic⟩

theorem set_bscan {vbscan} (h : Touches ps s t) (hbscan : ps.testBit 98 = true) :
    Touches ps s { t with bscan := vbscan } :=
  ⟨h.ok, h.vt, h.vtFrac, h.rateTemp, h.rateServo, h.free, h.pending, h.out, h.regs, h.rlatch, h.wlatch, h.ringSel,
    h.wearSel, h.mem, h.grn, h.wear, h.log, h.logBase, h.logRead, h.logRing, h.cores, h.bells, h.node, h.tithes, h.gws,
    h.cfg, h.regions, h.tracePos, h.stackMem, h.bridgeMem, h.invPend, h.invAcks, h.pageBell, h.nextId, h.jobs, h.xfers,
    h.redSteps, h.runs, h.redBytes, h.seqs, h.sheetBell, h.sheetGot, h.rings, h.outs, h.brackets, h.links, h.restores,
    h.hostTake, h.ingress, h.egress, h.qpErr, h.qpRate, h.cnpAt, h.conf, h.sas, h.opkey, h.led, h.xings, h.vc, h.vcmp,
    h.retireQ, h.lit, h.rcal, h.combCal, h.calRej, h.calLast, h.sensOut, h.classes, h.resets, h.fieldAt, h.mapLag,
    h.rolePend, h.bondHalf, h.lms, h.attest, h.meas, h.opkeySeq, h.debugUsed, h.power, h.heat, h.pairAt, h.pairOff,
    h.pairLost, h.fast, h.jumpAt, h.tripped, h.trips, h.hbmSlow, h.fixed, h.firmware, h.sheetBase, h.reports,
    h.startedFor, h.ckv, h.mgmt, h.inbox, h.dynAddr, h.eid, h.tid, fun x => (Bool.noConfusion (hbscan.symm.trans x)), h.markers, h.draws, h.saPins, h.drains, h.portNext, h.heldOut, h.txAn, h.ckvBy, h.hostLines, h.hostResv, h.imsic⟩

theorem set_vt_vtFrac {vvt} {vvtFrac} (h : Touches ps s t) (hvt : ps.testBit 0 = true) (hvtFrac : ps.testBit 1 = true) :
    Touches ps s { t with vt := vvt, vtFrac := vvtFrac } :=
  ⟨h.ok, fun x => (Bool.noConfusion (hvt.symm.trans x)), fun x => (Bool.noConfusion (hvtFrac.symm.trans x)),
    h.rateTemp, h.rateServo, h.free, h.pending, h.out, h.regs, h.rlatch, h.wlatch, h.ringSel, h.wearSel, h.mem, h.grn,
    h.wear, h.log, h.logBase, h.logRead, h.logRing, h.cores, h.bells, h.node, h.tithes, h.gws, h.cfg, h.regions,
    h.tracePos, h.stackMem, h.bridgeMem, h.invPend, h.invAcks, h.pageBell, h.nextId, h.jobs, h.xfers, h.redSteps,
    h.runs, h.redBytes, h.seqs, h.sheetBell, h.sheetGot, h.rings, h.outs, h.brackets, h.links, h.restores, h.hostTake,
    h.ingress, h.egress, h.qpErr, h.qpRate, h.cnpAt, h.conf, h.sas, h.opkey, h.led, h.xings, h.vc, h.vcmp, h.retireQ,
    h.lit, h.rcal, h.combCal, h.calRej, h.calLast, h.sensOut, h.classes, h.resets, h.fieldAt, h.mapLag, h.rolePend,
    h.bondHalf, h.lms, h.attest, h.meas, h.opkeySeq, h.debugUsed, h.power, h.heat, h.pairAt, h.pairOff, h.pairLost,
    h.fast, h.jumpAt, h.tripped, h.trips, h.hbmSlow, h.fixed, h.firmware, h.sheetBase, h.reports, h.startedFor, h.ckv,
    h.mgmt, h.inbox, h.dynAddr, h.eid, h.tid, h.bscan, h.markers, h.draws, h.saPins, h.drains, h.portNext, h.heldOut, h.txAn, h.ckvBy, h.hostLines, h.hostResv, h.imsic⟩

theorem set_rateTemp_vc {vrateTemp} {vvc} (h : Touches ps s t) (hrateTemp : ps.testBit 2 = true) (hvc : ps.testBit 57 = true) :
    Touches ps s { t with rateTemp := vrateTemp, vc := vvc } :=
  ⟨h.ok, h.vt, h.vtFrac, fun x => (Bool.noConfusion (hrateTemp.symm.trans x)), h.rateServo, h.free, h.pending, h.out,
    h.regs, h.rlatch, h.wlatch, h.ringSel, h.wearSel, h.mem, h.grn, h.wear, h.log, h.logBase, h.logRead, h.logRing,
    h.cores, h.bells, h.node, h.tithes, h.gws, h.cfg, h.regions, h.tracePos, h.stackMem, h.bridgeMem, h.invPend,
    h.invAcks, h.pageBell, h.nextId, h.jobs, h.xfers, h.redSteps, h.runs, h.redBytes, h.seqs, h.sheetBell, h.sheetGot,
    h.rings, h.outs, h.brackets, h.links, h.restores, h.hostTake, h.ingress, h.egress, h.qpErr, h.qpRate, h.cnpAt,
    h.conf, h.sas, h.opkey, h.led, h.xings, fun x => (Bool.noConfusion (hvc.symm.trans x)), h.vcmp, h.retireQ, h.lit,
    h.rcal, h.combCal, h.calRej, h.calLast, h.sensOut, h.classes, h.resets, h.fieldAt, h.mapLag, h.rolePend,
    h.bondHalf, h.lms, h.attest, h.meas, h.opkeySeq, h.debugUsed, h.power, h.heat, h.pairAt, h.pairOff, h.pairLost,
    h.fast, h.jumpAt, h.tripped, h.trips, h.hbmSlow, h.fixed, h.firmware, h.sheetBase, h.reports, h.startedFor, h.ckv,
    h.mgmt, h.inbox, h.dynAddr, h.eid, h.tid, h.bscan, h.markers, h.draws, h.saPins, h.drains, h.portNext, h.heldOut, h.txAn, h.ckvBy, h.hostLines, h.hostResv, h.imsic⟩

theorem set_rateServo_vc {vrateServo} {vvc} (h : Touches ps s t) (hrateServo : ps.testBit 3 = true) (hvc : ps.testBit 57 = true) :
    Touches ps s { t with rateServo := vrateServo, vc := vvc } :=
  ⟨h.ok, h.vt, h.vtFrac, h.rateTemp, fun x => (Bool.noConfusion (hrateServo.symm.trans x)), h.free, h.pending, h.out,
    h.regs, h.rlatch, h.wlatch, h.ringSel, h.wearSel, h.mem, h.grn, h.wear, h.log, h.logBase, h.logRead, h.logRing,
    h.cores, h.bells, h.node, h.tithes, h.gws, h.cfg, h.regions, h.tracePos, h.stackMem, h.bridgeMem, h.invPend,
    h.invAcks, h.pageBell, h.nextId, h.jobs, h.xfers, h.redSteps, h.runs, h.redBytes, h.seqs, h.sheetBell, h.sheetGot,
    h.rings, h.outs, h.brackets, h.links, h.restores, h.hostTake, h.ingress, h.egress, h.qpErr, h.qpRate, h.cnpAt,
    h.conf, h.sas, h.opkey, h.led, h.xings, fun x => (Bool.noConfusion (hvc.symm.trans x)), h.vcmp, h.retireQ, h.lit,
    h.rcal, h.combCal, h.calRej, h.calLast, h.sensOut, h.classes, h.resets, h.fieldAt, h.mapLag, h.rolePend,
    h.bondHalf, h.lms, h.attest, h.meas, h.opkeySeq, h.debugUsed, h.power, h.heat, h.pairAt, h.pairOff, h.pairLost,
    h.fast, h.jumpAt, h.tripped, h.trips, h.hbmSlow, h.fixed, h.firmware, h.sheetBase, h.reports, h.startedFor, h.ckv,
    h.mgmt, h.inbox, h.dynAddr, h.eid, h.tid, h.bscan, h.markers, h.draws, h.saPins, h.drains, h.portNext, h.heldOut, h.txAn, h.ckvBy, h.hostLines, h.hostResv, h.imsic⟩

theorem set_regs_rcal {vregs} {vrcal} (h : Touches ps s t) (hregs : ps.testBit 7 = true) (hrcal : ps.testBit 61 = true) :
    Touches ps s { t with regs := vregs, rcal := vrcal } :=
  ⟨h.ok, h.vt, h.vtFrac, h.rateTemp, h.rateServo, h.free, h.pending, h.out,
    fun x => (Bool.noConfusion (hregs.symm.trans x)), h.rlatch, h.wlatch, h.ringSel, h.wearSel, h.mem, h.grn, h.wear,
    h.log, h.logBase, h.logRead, h.logRing, h.cores, h.bells, h.node, h.tithes, h.gws, h.cfg, h.regions, h.tracePos,
    h.stackMem, h.bridgeMem, h.invPend, h.invAcks, h.pageBell, h.nextId, h.jobs, h.xfers, h.redSteps, h.runs,
    h.redBytes, h.seqs, h.sheetBell, h.sheetGot, h.rings, h.outs, h.brackets, h.links, h.restores, h.hostTake,
    h.ingress, h.egress, h.qpErr, h.qpRate, h.cnpAt, h.conf, h.sas, h.opkey, h.led, h.xings, h.vc, h.vcmp, h.retireQ,
    h.lit, fun x => (Bool.noConfusion (hrcal.symm.trans x)), h.combCal, h.calRej, h.calLast, h.sensOut, h.classes,
    h.resets, h.fieldAt, h.mapLag, h.rolePend, h.bondHalf, h.lms, h.attest, h.meas, h.opkeySeq, h.debugUsed, h.power,
    h.heat, h.pairAt, h.pairOff, h.pairLost, h.fast, h.jumpAt, h.tripped, h.trips, h.hbmSlow, h.fixed, h.firmware,
    h.sheetBase, h.reports, h.startedFor, h.ckv, h.mgmt, h.inbox, h.dynAddr, h.eid, h.tid, h.bscan, h.markers, h.draws, h.saPins, h.drains, h.portNext, h.heldOut, h.txAn, h.ckvBy, h.hostLines, h.hostResv, h.imsic⟩

theorem set_log_logBase {vlog} {vlogBase} (h : Touches ps s t) (hlog : ps.testBit 15 = true) (hlogBase : ps.testBit 16 = true) :
    Touches ps s { t with log := vlog, logBase := vlogBase } :=
  ⟨h.ok, h.vt, h.vtFrac, h.rateTemp, h.rateServo, h.free, h.pending, h.out, h.regs, h.rlatch, h.wlatch, h.ringSel,
    h.wearSel, h.mem, h.grn, h.wear, fun x => (Bool.noConfusion (hlog.symm.trans x)),
    fun x => (Bool.noConfusion (hlogBase.symm.trans x)), h.logRead, h.logRing, h.cores, h.bells, h.node, h.tithes,
    h.gws, h.cfg, h.regions, h.tracePos, h.stackMem, h.bridgeMem, h.invPend, h.invAcks, h.pageBell, h.nextId, h.jobs,
    h.xfers, h.redSteps, h.runs, h.redBytes, h.seqs, h.sheetBell, h.sheetGot, h.rings, h.outs, h.brackets, h.links,
    h.restores, h.hostTake, h.ingress, h.egress, h.qpErr, h.qpRate, h.cnpAt, h.conf, h.sas, h.opkey, h.led, h.xings,
    h.vc, h.vcmp, h.retireQ, h.lit, h.rcal, h.combCal, h.calRej, h.calLast, h.sensOut, h.classes, h.resets, h.fieldAt,
    h.mapLag, h.rolePend, h.bondHalf, h.lms, h.attest, h.meas, h.opkeySeq, h.debugUsed, h.power, h.heat, h.pairAt,
    h.pairOff, h.pairLost, h.fast, h.jumpAt, h.tripped, h.trips, h.hbmSlow, h.fixed, h.firmware, h.sheetBase,
    h.reports, h.startedFor, h.ckv, h.mgmt, h.inbox, h.dynAddr, h.eid, h.tid, h.bscan, h.markers, h.draws, h.saPins, h.drains, h.portNext, h.heldOut, h.txAn, h.ckvBy, h.hostLines, h.hostResv, h.imsic⟩

theorem set_cfg_rings {vcfg} {vrings} (h : Touches ps s t) (hcfg : ps.testBit 24 = true) (hrings : ps.testBit 41 = true) :
    Touches ps s { t with cfg := vcfg, rings := vrings } :=
  ⟨h.ok, h.vt, h.vtFrac, h.rateTemp, h.rateServo, h.free, h.pending, h.out, h.regs, h.rlatch, h.wlatch, h.ringSel,
    h.wearSel, h.mem, h.grn, h.wear, h.log, h.logBase, h.logRead, h.logRing, h.cores, h.bells, h.node, h.tithes, h.gws,
    fun x => (Bool.noConfusion (hcfg.symm.trans x)), h.regions, h.tracePos, h.stackMem, h.bridgeMem, h.invPend,
    h.invAcks, h.pageBell, h.nextId, h.jobs, h.xfers, h.redSteps, h.runs, h.redBytes, h.seqs, h.sheetBell, h.sheetGot,
    fun x => (Bool.noConfusion (hrings.symm.trans x)), h.outs, h.brackets, h.links, h.restores, h.hostTake, h.ingress,
    h.egress, h.qpErr, h.qpRate, h.cnpAt, h.conf, h.sas, h.opkey, h.led, h.xings, h.vc, h.vcmp, h.retireQ, h.lit,
    h.rcal, h.combCal, h.calRej, h.calLast, h.sensOut, h.classes, h.resets, h.fieldAt, h.mapLag, h.rolePend,
    h.bondHalf, h.lms, h.attest, h.meas, h.opkeySeq, h.debugUsed, h.power, h.heat, h.pairAt, h.pairOff, h.pairLost,
    h.fast, h.jumpAt, h.tripped, h.trips, h.hbmSlow, h.fixed, h.firmware, h.sheetBase, h.reports, h.startedFor, h.ckv,
    h.mgmt, h.inbox, h.dynAddr, h.eid, h.tid, h.bscan, h.markers, h.draws, h.saPins, h.drains, h.portNext, h.heldOut, h.txAn, h.ckvBy, h.hostLines, h.hostResv, h.imsic⟩

theorem set_cfg_hostTake {vcfg} {vhostTake} (h : Touches ps s t) (hcfg : ps.testBit 24 = true) (hhostTake : ps.testBit 46 = true) :
    Touches ps s { t with cfg := vcfg, hostTake := vhostTake } :=
  ⟨h.ok, h.vt, h.vtFrac, h.rateTemp, h.rateServo, h.free, h.pending, h.out, h.regs, h.rlatch, h.wlatch, h.ringSel,
    h.wearSel, h.mem, h.grn, h.wear, h.log, h.logBase, h.logRead, h.logRing, h.cores, h.bells, h.node, h.tithes, h.gws,
    fun x => (Bool.noConfusion (hcfg.symm.trans x)), h.regions, h.tracePos, h.stackMem, h.bridgeMem, h.invPend,
    h.invAcks, h.pageBell, h.nextId, h.jobs, h.xfers, h.redSteps, h.runs, h.redBytes, h.seqs, h.sheetBell, h.sheetGot,
    h.rings, h.outs, h.brackets, h.links, h.restores, fun x => (Bool.noConfusion (hhostTake.symm.trans x)), h.ingress,
    h.egress, h.qpErr, h.qpRate, h.cnpAt, h.conf, h.sas, h.opkey, h.led, h.xings, h.vc, h.vcmp, h.retireQ, h.lit,
    h.rcal, h.combCal, h.calRej, h.calLast, h.sensOut, h.classes, h.resets, h.fieldAt, h.mapLag, h.rolePend,
    h.bondHalf, h.lms, h.attest, h.meas, h.opkeySeq, h.debugUsed, h.power, h.heat, h.pairAt, h.pairOff, h.pairLost,
    h.fast, h.jumpAt, h.tripped, h.trips, h.hbmSlow, h.fixed, h.firmware, h.sheetBase, h.reports, h.startedFor, h.ckv,
    h.mgmt, h.inbox, h.dynAddr, h.eid, h.tid, h.bscan, h.markers, h.draws, h.saPins, h.drains, h.portNext, h.heldOut, h.txAn, h.ckvBy, h.hostLines, h.hostResv, h.imsic⟩

theorem set_nextId_xfers {vnextId} {vxfers} (h : Touches ps s t) (hnextId : ps.testBit 32 = true) (hxfers : ps.testBit 34 = true) :
    Touches ps s { t with nextId := vnextId, xfers := vxfers } :=
  ⟨h.ok, h.vt, h.vtFrac, h.rateTemp, h.rateServo, h.free, h.pending, h.out, h.regs, h.rlatch, h.wlatch, h.ringSel,
    h.wearSel, h.mem, h.grn, h.wear, h.log, h.logBase, h.logRead, h.logRing, h.cores, h.bells, h.node, h.tithes, h.gws,
    h.cfg, h.regions, h.tracePos, h.stackMem, h.bridgeMem, h.invPend, h.invAcks, h.pageBell,
    fun x => (Bool.noConfusion (hnextId.symm.trans x)), h.jobs, fun x => (Bool.noConfusion (hxfers.symm.trans x)),
    h.redSteps, h.runs, h.redBytes, h.seqs, h.sheetBell, h.sheetGot, h.rings, h.outs, h.brackets, h.links, h.restores,
    h.hostTake, h.ingress, h.egress, h.qpErr, h.qpRate, h.cnpAt, h.conf, h.sas, h.opkey, h.led, h.xings, h.vc, h.vcmp,
    h.retireQ, h.lit, h.rcal, h.combCal, h.calRej, h.calLast, h.sensOut, h.classes, h.resets, h.fieldAt, h.mapLag,
    h.rolePend, h.bondHalf, h.lms, h.attest, h.meas, h.opkeySeq, h.debugUsed, h.power, h.heat, h.pairAt, h.pairOff,
    h.pairLost, h.fast, h.jumpAt, h.tripped, h.trips, h.hbmSlow, h.fixed, h.firmware, h.sheetBase, h.reports,
    h.startedFor, h.ckv, h.mgmt, h.inbox, h.dynAddr, h.eid, h.tid, h.bscan, h.markers, h.draws, h.saPins, h.drains, h.portNext, h.heldOut, h.txAn, h.ckvBy, h.hostLines, h.hostResv, h.imsic⟩

theorem set_redSteps_redBytes {vredSteps} {vredBytes} (h : Touches ps s t) (hredSteps : ps.testBit 35 = true) (hredBytes : ps.testBit 37 = true) :
    Touches ps s { t with redSteps := vredSteps, redBytes := vredBytes } :=
  ⟨h.ok, h.vt, h.vtFrac, h.rateTemp, h.rateServo, h.free, h.pending, h.out, h.regs, h.rlatch, h.wlatch, h.ringSel,
    h.wearSel, h.mem, h.grn, h.wear, h.log, h.logBase, h.logRead, h.logRing, h.cores, h.bells, h.node, h.tithes, h.gws,
    h.cfg, h.regions, h.tracePos, h.stackMem, h.bridgeMem, h.invPend, h.invAcks, h.pageBell, h.nextId, h.jobs, h.xfers,
    fun x => (Bool.noConfusion (hredSteps.symm.trans x)), h.runs, fun x => (Bool.noConfusion (hredBytes.symm.trans x)),
    h.seqs, h.sheetBell, h.sheetGot, h.rings, h.outs, h.brackets, h.links, h.restores, h.hostTake, h.ingress, h.egress,
    h.qpErr, h.qpRate, h.cnpAt, h.conf, h.sas, h.opkey, h.led, h.xings, h.vc, h.vcmp, h.retireQ, h.lit, h.rcal,
    h.combCal, h.calRej, h.calLast, h.sensOut, h.classes, h.resets, h.fieldAt, h.mapLag, h.rolePend, h.bondHalf, h.lms,
    h.attest, h.meas, h.opkeySeq, h.debugUsed, h.power, h.heat, h.pairAt, h.pairOff, h.pairLost, h.fast, h.jumpAt,
    h.tripped, h.trips, h.hbmSlow, h.fixed, h.firmware, h.sheetBase, h.reports, h.startedFor, h.ckv, h.mgmt, h.inbox,
    h.dynAddr, h.eid, h.tid, h.bscan, h.markers, h.draws, h.saPins, h.drains, h.portNext, h.heldOut, h.txAn, h.ckvBy, h.hostLines, h.hostResv, h.imsic⟩

theorem set_sheetBell_sheetGot {vsheetBell} {vsheetGot} (h : Touches ps s t) (hsheetBell : ps.testBit 39 = true) (hsheetGot : ps.testBit 40 = true) :
    Touches ps s { t with sheetBell := vsheetBell, sheetGot := vsheetGot } :=
  ⟨h.ok, h.vt, h.vtFrac, h.rateTemp, h.rateServo, h.free, h.pending, h.out, h.regs, h.rlatch, h.wlatch, h.ringSel,
    h.wearSel, h.mem, h.grn, h.wear, h.log, h.logBase, h.logRead, h.logRing, h.cores, h.bells, h.node, h.tithes, h.gws,
    h.cfg, h.regions, h.tracePos, h.stackMem, h.bridgeMem, h.invPend, h.invAcks, h.pageBell, h.nextId, h.jobs, h.xfers,
    h.redSteps, h.runs, h.redBytes, h.seqs, fun x => (Bool.noConfusion (hsheetBell.symm.trans x)),
    fun x => (Bool.noConfusion (hsheetGot.symm.trans x)), h.rings, h.outs, h.brackets, h.links, h.restores, h.hostTake,
    h.ingress, h.egress, h.qpErr, h.qpRate, h.cnpAt, h.conf, h.sas, h.opkey, h.led, h.xings, h.vc, h.vcmp, h.retireQ,
    h.lit, h.rcal, h.combCal, h.calRej, h.calLast, h.sensOut, h.classes, h.resets, h.fieldAt, h.mapLag, h.rolePend,
    h.bondHalf, h.lms, h.attest, h.meas, h.opkeySeq, h.debugUsed, h.power, h.heat, h.pairAt, h.pairOff, h.pairLost,
    h.fast, h.jumpAt, h.tripped, h.trips, h.hbmSlow, h.fixed, h.firmware, h.sheetBase, h.reports, h.startedFor, h.ckv,
    h.mgmt, h.inbox, h.dynAddr, h.eid, h.tid, h.bscan, h.markers, h.draws, h.saPins, h.drains, h.portNext, h.heldOut, h.txAn, h.ckvBy, h.hostLines, h.hostResv, h.imsic⟩

theorem set_brackets_calLast {vbrackets} {vcalLast} (h : Touches ps s t) (hbrackets : ps.testBit 43 = true) (hcalLast : ps.testBit 64 = true) :
    Touches ps s { t with brackets := vbrackets, calLast := vcalLast } :=
  ⟨h.ok, h.vt, h.vtFrac, h.rateTemp, h.rateServo, h.free, h.pending, h.out, h.regs, h.rlatch, h.wlatch, h.ringSel,
    h.wearSel, h.mem, h.grn, h.wear, h.log, h.logBase, h.logRead, h.logRing, h.cores, h.bells, h.node, h.tithes, h.gws,
    h.cfg, h.regions, h.tracePos, h.stackMem, h.bridgeMem, h.invPend, h.invAcks, h.pageBell, h.nextId, h.jobs, h.xfers,
    h.redSteps, h.runs, h.redBytes, h.seqs, h.sheetBell, h.sheetGot, h.rings, h.outs,
    fun x => (Bool.noConfusion (hbrackets.symm.trans x)), h.links, h.restores, h.hostTake, h.ingress, h.egress,
    h.qpErr, h.qpRate, h.cnpAt, h.conf, h.sas, h.opkey, h.led, h.xings, h.vc, h.vcmp, h.retireQ, h.lit, h.rcal,
    h.combCal, h.calRej, fun x => (Bool.noConfusion (hcalLast.symm.trans x)), h.sensOut, h.classes, h.resets,
    h.fieldAt, h.mapLag, h.rolePend, h.bondHalf, h.lms, h.attest, h.meas, h.opkeySeq, h.debugUsed, h.power, h.heat,
    h.pairAt, h.pairOff, h.pairLost, h.fast, h.jumpAt, h.tripped, h.trips, h.hbmSlow, h.fixed, h.firmware, h.sheetBase,
    h.reports, h.startedFor, h.ckv, h.mgmt, h.inbox, h.dynAddr, h.eid, h.tid, h.bscan, h.markers, h.draws, h.saPins, h.drains, h.portNext, h.heldOut, h.txAn, h.ckvBy, h.hostLines, h.hostResv, h.imsic⟩

theorem set_ingress_egress {vingress} {vegress} (h : Touches ps s t) (hingress : ps.testBit 47 = true) (hegress : ps.testBit 48 = true) :
    Touches ps s { t with ingress := vingress, egress := vegress } :=
  ⟨h.ok, h.vt, h.vtFrac, h.rateTemp, h.rateServo, h.free, h.pending, h.out, h.regs, h.rlatch, h.wlatch, h.ringSel,
    h.wearSel, h.mem, h.grn, h.wear, h.log, h.logBase, h.logRead, h.logRing, h.cores, h.bells, h.node, h.tithes, h.gws,
    h.cfg, h.regions, h.tracePos, h.stackMem, h.bridgeMem, h.invPend, h.invAcks, h.pageBell, h.nextId, h.jobs, h.xfers,
    h.redSteps, h.runs, h.redBytes, h.seqs, h.sheetBell, h.sheetGot, h.rings, h.outs, h.brackets, h.links, h.restores,
    h.hostTake, fun x => (Bool.noConfusion (hingress.symm.trans x)),
    fun x => (Bool.noConfusion (hegress.symm.trans x)), h.qpErr, h.qpRate, h.cnpAt, h.conf, h.sas, h.opkey, h.led,
    h.xings, h.vc, h.vcmp, h.retireQ, h.lit, h.rcal, h.combCal, h.calRej, h.calLast, h.sensOut, h.classes, h.resets,
    h.fieldAt, h.mapLag, h.rolePend, h.bondHalf, h.lms, h.attest, h.meas, h.opkeySeq, h.debugUsed, h.power, h.heat,
    h.pairAt, h.pairOff, h.pairLost, h.fast, h.jumpAt, h.tripped, h.trips, h.hbmSlow, h.fixed, h.firmware, h.sheetBase,
    h.reports, h.startedFor, h.ckv, h.mgmt, h.inbox, h.dynAddr, h.eid, h.tid, h.bscan, h.markers, h.draws, h.saPins, h.drains, h.portNext, h.heldOut, h.txAn, h.ckvBy, h.hostLines, h.hostResv, h.imsic⟩

theorem set_opkey_opkeySeq {vopkey} {vopkeySeq} (h : Touches ps s t) (hopkey : ps.testBit 54 = true) (hopkeySeq : ps.testBit 75 = true) :
    Touches ps s { t with opkey := vopkey, opkeySeq := vopkeySeq } :=
  ⟨h.ok, h.vt, h.vtFrac, h.rateTemp, h.rateServo, h.free, h.pending, h.out, h.regs, h.rlatch, h.wlatch, h.ringSel,
    h.wearSel, h.mem, h.grn, h.wear, h.log, h.logBase, h.logRead, h.logRing, h.cores, h.bells, h.node, h.tithes, h.gws,
    h.cfg, h.regions, h.tracePos, h.stackMem, h.bridgeMem, h.invPend, h.invAcks, h.pageBell, h.nextId, h.jobs, h.xfers,
    h.redSteps, h.runs, h.redBytes, h.seqs, h.sheetBell, h.sheetGot, h.rings, h.outs, h.brackets, h.links, h.restores,
    h.hostTake, h.ingress, h.egress, h.qpErr, h.qpRate, h.cnpAt, h.conf, h.sas,
    fun x => (Bool.noConfusion (hopkey.symm.trans x)), h.led, h.xings, h.vc, h.vcmp, h.retireQ, h.lit, h.rcal,
    h.combCal, h.calRej, h.calLast, h.sensOut, h.classes, h.resets, h.fieldAt, h.mapLag, h.rolePend, h.bondHalf, h.lms,
    h.attest, h.meas, fun x => (Bool.noConfusion (hopkeySeq.symm.trans x)), h.debugUsed, h.power, h.heat, h.pairAt,
    h.pairOff, h.pairLost, h.fast, h.jumpAt, h.tripped, h.trips, h.hbmSlow, h.fixed, h.firmware, h.sheetBase,
    h.reports, h.startedFor, h.ckv, h.mgmt, h.inbox, h.dynAddr, h.eid, h.tid, h.bscan, h.markers, h.draws, h.saPins, h.drains, h.portNext, h.heldOut, h.txAn, h.ckvBy, h.hostLines, h.hostResv, h.imsic⟩

theorem set_lit_lms {vlit} {vlms} (h : Touches ps s t) (hlit : ps.testBit 60 = true) (hlms : ps.testBit 72 = true) :
    Touches ps s { t with lit := vlit, lms := vlms } :=
  ⟨h.ok, h.vt, h.vtFrac, h.rateTemp, h.rateServo, h.free, h.pending, h.out, h.regs, h.rlatch, h.wlatch, h.ringSel,
    h.wearSel, h.mem, h.grn, h.wear, h.log, h.logBase, h.logRead, h.logRing, h.cores, h.bells, h.node, h.tithes, h.gws,
    h.cfg, h.regions, h.tracePos, h.stackMem, h.bridgeMem, h.invPend, h.invAcks, h.pageBell, h.nextId, h.jobs, h.xfers,
    h.redSteps, h.runs, h.redBytes, h.seqs, h.sheetBell, h.sheetGot, h.rings, h.outs, h.brackets, h.links, h.restores,
    h.hostTake, h.ingress, h.egress, h.qpErr, h.qpRate, h.cnpAt, h.conf, h.sas, h.opkey, h.led, h.xings, h.vc, h.vcmp,
    h.retireQ, fun x => (Bool.noConfusion (hlit.symm.trans x)), h.rcal, h.combCal, h.calRej, h.calLast, h.sensOut,
    h.classes, h.resets, h.fieldAt, h.mapLag, h.rolePend, h.bondHalf, fun x => (Bool.noConfusion (hlms.symm.trans x)),
    h.attest, h.meas, h.opkeySeq, h.debugUsed, h.power, h.heat, h.pairAt, h.pairOff, h.pairLost, h.fast, h.jumpAt,
    h.tripped, h.trips, h.hbmSlow, h.fixed, h.firmware, h.sheetBase, h.reports, h.startedFor, h.ckv, h.mgmt, h.inbox,
    h.dynAddr, h.eid, h.tid, h.bscan, h.markers, h.draws, h.saPins, h.drains, h.portNext, h.heldOut, h.txAn, h.ckvBy, h.hostLines, h.hostResv, h.imsic⟩

theorem set_lit_power {vlit} {vpower} (h : Touches ps s t) (hlit : ps.testBit 60 = true) (hpower : ps.testBit 77 = true) :
    Touches ps s { t with lit := vlit, power := vpower } :=
  ⟨h.ok, h.vt, h.vtFrac, h.rateTemp, h.rateServo, h.free, h.pending, h.out, h.regs, h.rlatch, h.wlatch, h.ringSel,
    h.wearSel, h.mem, h.grn, h.wear, h.log, h.logBase, h.logRead, h.logRing, h.cores, h.bells, h.node, h.tithes, h.gws,
    h.cfg, h.regions, h.tracePos, h.stackMem, h.bridgeMem, h.invPend, h.invAcks, h.pageBell, h.nextId, h.jobs, h.xfers,
    h.redSteps, h.runs, h.redBytes, h.seqs, h.sheetBell, h.sheetGot, h.rings, h.outs, h.brackets, h.links, h.restores,
    h.hostTake, h.ingress, h.egress, h.qpErr, h.qpRate, h.cnpAt, h.conf, h.sas, h.opkey, h.led, h.xings, h.vc, h.vcmp,
    h.retireQ, fun x => (Bool.noConfusion (hlit.symm.trans x)), h.rcal, h.combCal, h.calRej, h.calLast, h.sensOut,
    h.classes, h.resets, h.fieldAt, h.mapLag, h.rolePend, h.bondHalf, h.lms, h.attest, h.meas, h.opkeySeq, h.debugUsed,
    fun x => (Bool.noConfusion (hpower.symm.trans x)), h.heat, h.pairAt, h.pairOff, h.pairLost, h.fast, h.jumpAt,
    h.tripped, h.trips, h.hbmSlow, h.fixed, h.firmware, h.sheetBase, h.reports, h.startedFor, h.ckv, h.mgmt, h.inbox,
    h.dynAddr, h.eid, h.tid, h.bscan, h.markers, h.draws, h.saPins, h.drains, h.portNext, h.heldOut, h.txAn, h.ckvBy, h.hostLines, h.hostResv, h.imsic⟩

theorem set_calLast_sensOut {vcalLast} {vsensOut} (h : Touches ps s t) (hcalLast : ps.testBit 64 = true) (hsensOut : ps.testBit 65 = true) :
    Touches ps s { t with calLast := vcalLast, sensOut := vsensOut } :=
  ⟨h.ok, h.vt, h.vtFrac, h.rateTemp, h.rateServo, h.free, h.pending, h.out, h.regs, h.rlatch, h.wlatch, h.ringSel,
    h.wearSel, h.mem, h.grn, h.wear, h.log, h.logBase, h.logRead, h.logRing, h.cores, h.bells, h.node, h.tithes, h.gws,
    h.cfg, h.regions, h.tracePos, h.stackMem, h.bridgeMem, h.invPend, h.invAcks, h.pageBell, h.nextId, h.jobs, h.xfers,
    h.redSteps, h.runs, h.redBytes, h.seqs, h.sheetBell, h.sheetGot, h.rings, h.outs, h.brackets, h.links, h.restores,
    h.hostTake, h.ingress, h.egress, h.qpErr, h.qpRate, h.cnpAt, h.conf, h.sas, h.opkey, h.led, h.xings, h.vc, h.vcmp,
    h.retireQ, h.lit, h.rcal, h.combCal, h.calRej, fun x => (Bool.noConfusion (hcalLast.symm.trans x)),
    fun x => (Bool.noConfusion (hsensOut.symm.trans x)), h.classes, h.resets, h.fieldAt, h.mapLag, h.rolePend,
    h.bondHalf, h.lms, h.attest, h.meas, h.opkeySeq, h.debugUsed, h.power, h.heat, h.pairAt, h.pairOff, h.pairLost,
    h.fast, h.jumpAt, h.tripped, h.trips, h.hbmSlow, h.fixed, h.firmware, h.sheetBase, h.reports, h.startedFor, h.ckv,
    h.mgmt, h.inbox, h.dynAddr, h.eid, h.tid, h.bscan, h.markers, h.draws, h.saPins, h.drains, h.portNext, h.heldOut, h.txAn, h.ckvBy, h.hostLines, h.hostResv, h.imsic⟩

theorem set_pairOff_pairLost {vpairOff} {vpairLost} (h : Touches ps s t) (hpairOff : ps.testBit 80 = true) (hpairLost : ps.testBit 81 = true) :
    Touches ps s { t with pairOff := vpairOff, pairLost := vpairLost } :=
  ⟨h.ok, h.vt, h.vtFrac, h.rateTemp, h.rateServo, h.free, h.pending, h.out, h.regs, h.rlatch, h.wlatch, h.ringSel,
    h.wearSel, h.mem, h.grn, h.wear, h.log, h.logBase, h.logRead, h.logRing, h.cores, h.bells, h.node, h.tithes, h.gws,
    h.cfg, h.regions, h.tracePos, h.stackMem, h.bridgeMem, h.invPend, h.invAcks, h.pageBell, h.nextId, h.jobs, h.xfers,
    h.redSteps, h.runs, h.redBytes, h.seqs, h.sheetBell, h.sheetGot, h.rings, h.outs, h.brackets, h.links, h.restores,
    h.hostTake, h.ingress, h.egress, h.qpErr, h.qpRate, h.cnpAt, h.conf, h.sas, h.opkey, h.led, h.xings, h.vc, h.vcmp,
    h.retireQ, h.lit, h.rcal, h.combCal, h.calRej, h.calLast, h.sensOut, h.classes, h.resets, h.fieldAt, h.mapLag,
    h.rolePend, h.bondHalf, h.lms, h.attest, h.meas, h.opkeySeq, h.debugUsed, h.power, h.heat, h.pairAt,
    fun x => (Bool.noConfusion (hpairOff.symm.trans x)), fun x => (Bool.noConfusion (hpairLost.symm.trans x)), h.fast,
    h.jumpAt, h.tripped, h.trips, h.hbmSlow, h.fixed, h.firmware, h.sheetBase, h.reports, h.startedFor, h.ckv, h.mgmt,
    h.inbox, h.dynAddr, h.eid, h.tid, h.bscan, h.markers, h.draws, h.saPins, h.drains, h.portNext, h.heldOut, h.txAn, h.ckvBy, h.hostLines, h.hostResv, h.imsic⟩

theorem set_vt_vtFrac_vc {vvt} {vvtFrac} {vvc} (h : Touches ps s t) (hvt : ps.testBit 0 = true) (hvtFrac : ps.testBit 1 = true) (hvc : ps.testBit 57 = true) :
    Touches ps s { t with vt := vvt, vtFrac := vvtFrac, vc := vvc } :=
  ⟨h.ok, fun x => (Bool.noConfusion (hvt.symm.trans x)), fun x => (Bool.noConfusion (hvtFrac.symm.trans x)),
    h.rateTemp, h.rateServo, h.free, h.pending, h.out, h.regs, h.rlatch, h.wlatch, h.ringSel, h.wearSel, h.mem, h.grn,
    h.wear, h.log, h.logBase, h.logRead, h.logRing, h.cores, h.bells, h.node, h.tithes, h.gws, h.cfg, h.regions,
    h.tracePos, h.stackMem, h.bridgeMem, h.invPend, h.invAcks, h.pageBell, h.nextId, h.jobs, h.xfers, h.redSteps,
    h.runs, h.redBytes, h.seqs, h.sheetBell, h.sheetGot, h.rings, h.outs, h.brackets, h.links, h.restores, h.hostTake,
    h.ingress, h.egress, h.qpErr, h.qpRate, h.cnpAt, h.conf, h.sas, h.opkey, h.led, h.xings,
    fun x => (Bool.noConfusion (hvc.symm.trans x)), h.vcmp, h.retireQ, h.lit, h.rcal, h.combCal, h.calRej, h.calLast,
    h.sensOut, h.classes, h.resets, h.fieldAt, h.mapLag, h.rolePend, h.bondHalf, h.lms, h.attest, h.meas, h.opkeySeq,
    h.debugUsed, h.power, h.heat, h.pairAt, h.pairOff, h.pairLost, h.fast, h.jumpAt, h.tripped, h.trips, h.hbmSlow,
    h.fixed, h.firmware, h.sheetBase, h.reports, h.startedFor, h.ckv, h.mgmt, h.inbox, h.dynAddr, h.eid, h.tid,
    h.bscan, h.markers, h.draws, h.saPins, h.drains, h.portNext, h.heldOut, h.txAn, h.ckvBy, h.hostLines, h.hostResv, h.imsic⟩

theorem set_cores_jobs_xfers {vcores} {vjobs} {vxfers} (h : Touches ps s t) (hcores : ps.testBit 19 = true) (hjobs : ps.testBit 33 = true) (hxfers : ps.testBit 34 = true) :
    Touches ps s { t with cores := vcores, jobs := vjobs, xfers := vxfers } :=
  ⟨h.ok, h.vt, h.vtFrac, h.rateTemp, h.rateServo, h.free, h.pending, h.out, h.regs, h.rlatch, h.wlatch, h.ringSel,
    h.wearSel, h.mem, h.grn, h.wear, h.log, h.logBase, h.logRead, h.logRing,
    fun x => (Bool.noConfusion (hcores.symm.trans x)), h.bells, h.node, h.tithes, h.gws, h.cfg, h.regions, h.tracePos,
    h.stackMem, h.bridgeMem, h.invPend, h.invAcks, h.pageBell, h.nextId,
    fun x => (Bool.noConfusion (hjobs.symm.trans x)), fun x => (Bool.noConfusion (hxfers.symm.trans x)), h.redSteps,
    h.runs, h.redBytes, h.seqs, h.sheetBell, h.sheetGot, h.rings, h.outs, h.brackets, h.links, h.restores, h.hostTake,
    h.ingress, h.egress, h.qpErr, h.qpRate, h.cnpAt, h.conf, h.sas, h.opkey, h.led, h.xings, h.vc, h.vcmp, h.retireQ,
    h.lit, h.rcal, h.combCal, h.calRej, h.calLast, h.sensOut, h.classes, h.resets, h.fieldAt, h.mapLag, h.rolePend,
    h.bondHalf, h.lms, h.attest, h.meas, h.opkeySeq, h.debugUsed, h.power, h.heat, h.pairAt, h.pairOff, h.pairLost,
    h.fast, h.jumpAt, h.tripped, h.trips, h.hbmSlow, h.fixed, h.firmware, h.sheetBase, h.reports, h.startedFor, h.ckv,
    h.mgmt, h.inbox, h.dynAddr, h.eid, h.tid, h.bscan, h.markers, h.draws, h.saPins, h.drains, h.portNext, h.heldOut, h.txAn, h.ckvBy, h.hostLines, h.hostResv, h.imsic⟩

theorem set_redSteps_runs_redBytes {vredSteps} {vruns} {vredBytes} (h : Touches ps s t) (hredSteps : ps.testBit 35 = true) (hruns : ps.testBit 36 = true) (hredBytes : ps.testBit 37 = true) :
    Touches ps s { t with redSteps := vredSteps, runs := vruns, redBytes := vredBytes } :=
  ⟨h.ok, h.vt, h.vtFrac, h.rateTemp, h.rateServo, h.free, h.pending, h.out, h.regs, h.rlatch, h.wlatch, h.ringSel,
    h.wearSel, h.mem, h.grn, h.wear, h.log, h.logBase, h.logRead, h.logRing, h.cores, h.bells, h.node, h.tithes, h.gws,
    h.cfg, h.regions, h.tracePos, h.stackMem, h.bridgeMem, h.invPend, h.invAcks, h.pageBell, h.nextId, h.jobs, h.xfers,
    fun x => (Bool.noConfusion (hredSteps.symm.trans x)), fun x => (Bool.noConfusion (hruns.symm.trans x)),
    fun x => (Bool.noConfusion (hredBytes.symm.trans x)), h.seqs, h.sheetBell, h.sheetGot, h.rings, h.outs, h.brackets,
    h.links, h.restores, h.hostTake, h.ingress, h.egress, h.qpErr, h.qpRate, h.cnpAt, h.conf, h.sas, h.opkey, h.led,
    h.xings, h.vc, h.vcmp, h.retireQ, h.lit, h.rcal, h.combCal, h.calRej, h.calLast, h.sensOut, h.classes, h.resets,
    h.fieldAt, h.mapLag, h.rolePend, h.bondHalf, h.lms, h.attest, h.meas, h.opkeySeq, h.debugUsed, h.power, h.heat,
    h.pairAt, h.pairOff, h.pairLost, h.fast, h.jumpAt, h.tripped, h.trips, h.hbmSlow, h.fixed, h.firmware, h.sheetBase,
    h.reports, h.startedFor, h.ckv, h.mgmt, h.inbox, h.dynAddr, h.eid, h.tid, h.bscan, h.markers, h.draws, h.saPins, h.drains, h.portNext, h.heldOut, h.txAn, h.ckvBy, h.hostLines, h.hostResv, h.imsic⟩

theorem set_brackets_lit_rcal {vbrackets} {vlit} {vrcal} (h : Touches ps s t) (hbrackets : ps.testBit 43 = true) (hlit : ps.testBit 60 = true) (hrcal : ps.testBit 61 = true) :
    Touches ps s { t with brackets := vbrackets, lit := vlit, rcal := vrcal } :=
  ⟨h.ok, h.vt, h.vtFrac, h.rateTemp, h.rateServo, h.free, h.pending, h.out, h.regs, h.rlatch, h.wlatch, h.ringSel,
    h.wearSel, h.mem, h.grn, h.wear, h.log, h.logBase, h.logRead, h.logRing, h.cores, h.bells, h.node, h.tithes, h.gws,
    h.cfg, h.regions, h.tracePos, h.stackMem, h.bridgeMem, h.invPend, h.invAcks, h.pageBell, h.nextId, h.jobs, h.xfers,
    h.redSteps, h.runs, h.redBytes, h.seqs, h.sheetBell, h.sheetGot, h.rings, h.outs,
    fun x => (Bool.noConfusion (hbrackets.symm.trans x)), h.links, h.restores, h.hostTake, h.ingress, h.egress,
    h.qpErr, h.qpRate, h.cnpAt, h.conf, h.sas, h.opkey, h.led, h.xings, h.vc, h.vcmp, h.retireQ,
    fun x => (Bool.noConfusion (hlit.symm.trans x)), fun x => (Bool.noConfusion (hrcal.symm.trans x)), h.combCal,
    h.calRej, h.calLast, h.sensOut, h.classes, h.resets, h.fieldAt, h.mapLag, h.rolePend, h.bondHalf, h.lms, h.attest,
    h.meas, h.opkeySeq, h.debugUsed, h.power, h.heat, h.pairAt, h.pairOff, h.pairLost, h.fast, h.jumpAt, h.tripped,
    h.trips, h.hbmSlow, h.fixed, h.firmware, h.sheetBase, h.reports, h.startedFor, h.ckv, h.mgmt, h.inbox, h.dynAddr,
    h.eid, h.tid, h.bscan, h.markers, h.draws, h.saPins, h.drains, h.portNext, h.heldOut, h.txAn, h.ckvBy, h.hostLines, h.hostResv, h.imsic⟩

theorem set_lms_debugUsed_power {vlms} {vdebugUsed} {vpower} (h : Touches ps s t) (hlms : ps.testBit 72 = true) (hdebugUsed : ps.testBit 76 = true) (hpower : ps.testBit 77 = true) :
    Touches ps s { t with lms := vlms, debugUsed := vdebugUsed, power := vpower } :=
  ⟨h.ok, h.vt, h.vtFrac, h.rateTemp, h.rateServo, h.free, h.pending, h.out, h.regs, h.rlatch, h.wlatch, h.ringSel,
    h.wearSel, h.mem, h.grn, h.wear, h.log, h.logBase, h.logRead, h.logRing, h.cores, h.bells, h.node, h.tithes, h.gws,
    h.cfg, h.regions, h.tracePos, h.stackMem, h.bridgeMem, h.invPend, h.invAcks, h.pageBell, h.nextId, h.jobs, h.xfers,
    h.redSteps, h.runs, h.redBytes, h.seqs, h.sheetBell, h.sheetGot, h.rings, h.outs, h.brackets, h.links, h.restores,
    h.hostTake, h.ingress, h.egress, h.qpErr, h.qpRate, h.cnpAt, h.conf, h.sas, h.opkey, h.led, h.xings, h.vc, h.vcmp,
    h.retireQ, h.lit, h.rcal, h.combCal, h.calRej, h.calLast, h.sensOut, h.classes, h.resets, h.fieldAt, h.mapLag,
    h.rolePend, h.bondHalf, fun x => (Bool.noConfusion (hlms.symm.trans x)), h.attest, h.meas, h.opkeySeq,
    fun x => (Bool.noConfusion (hdebugUsed.symm.trans x)), fun x => (Bool.noConfusion (hpower.symm.trans x)), h.heat,
    h.pairAt, h.pairOff, h.pairLost, h.fast, h.jumpAt, h.tripped, h.trips, h.hbmSlow, h.fixed, h.firmware, h.sheetBase,
    h.reports, h.startedFor, h.ckv, h.mgmt, h.inbox, h.dynAddr, h.eid, h.tid, h.bscan, h.markers, h.draws, h.saPins, h.drains, h.portNext, h.heldOut, h.txAn, h.ckvBy, h.hostLines, h.hostResv, h.imsic⟩

theorem set_cores_redSteps_runs_redBytes {vcores} {vredSteps} {vruns} {vredBytes} (h : Touches ps s t) (hcores : ps.testBit 19 = true) (hredSteps : ps.testBit 35 = true) (hruns : ps.testBit 36 = true) (hredBytes : ps.testBit 37 = true) :
    Touches ps s { t with cores := vcores, redSteps := vredSteps, runs := vruns, redBytes := vredBytes } :=
  ⟨h.ok, h.vt, h.vtFrac, h.rateTemp, h.rateServo, h.free, h.pending, h.out, h.regs, h.rlatch, h.wlatch, h.ringSel,
    h.wearSel, h.mem, h.grn, h.wear, h.log, h.logBase, h.logRead, h.logRing,
    fun x => (Bool.noConfusion (hcores.symm.trans x)), h.bells, h.node, h.tithes, h.gws, h.cfg, h.regions, h.tracePos,
    h.stackMem, h.bridgeMem, h.invPend, h.invAcks, h.pageBell, h.nextId, h.jobs, h.xfers,
    fun x => (Bool.noConfusion (hredSteps.symm.trans x)), fun x => (Bool.noConfusion (hruns.symm.trans x)),
    fun x => (Bool.noConfusion (hredBytes.symm.trans x)), h.seqs, h.sheetBell, h.sheetGot, h.rings, h.outs, h.brackets,
    h.links, h.restores, h.hostTake, h.ingress, h.egress, h.qpErr, h.qpRate, h.cnpAt, h.conf, h.sas, h.opkey, h.led,
    h.xings, h.vc, h.vcmp, h.retireQ, h.lit, h.rcal, h.combCal, h.calRej, h.calLast, h.sensOut, h.classes, h.resets,
    h.fieldAt, h.mapLag, h.rolePend, h.bondHalf, h.lms, h.attest, h.meas, h.opkeySeq, h.debugUsed, h.power, h.heat,
    h.pairAt, h.pairOff, h.pairLost, h.fast, h.jumpAt, h.tripped, h.trips, h.hbmSlow, h.fixed, h.firmware, h.sheetBase,
    h.reports, h.startedFor, h.ckv, h.mgmt, h.inbox, h.dynAddr, h.eid, h.tid, h.bscan, h.markers, h.draws, h.saPins, h.drains, h.portNext, h.heldOut, h.txAn, h.ckvBy, h.hostLines, h.hostResv, h.imsic⟩

theorem set_markers {vmarkers} (h : Touches ps s t) (hmarkers : ps.testBit 99 = true) :
    Touches ps s { t with markers := vmarkers } :=
  ⟨h.ok, h.vt, h.vtFrac, h.rateTemp, h.rateServo, h.free, h.pending, h.out, h.regs, h.rlatch, h.wlatch, h.ringSel,
    h.wearSel, h.mem, h.grn, h.wear, h.log, h.logBase, h.logRead, h.logRing, h.cores, h.bells, h.node, h.tithes,
    h.gws, h.cfg, h.regions, h.tracePos, h.stackMem, h.bridgeMem, h.invPend, h.invAcks, h.pageBell, h.nextId,
    h.jobs, h.xfers, h.redSteps, h.runs, h.redBytes, h.seqs, h.sheetBell, h.sheetGot, h.rings, h.outs, h.brackets,
    h.links, h.restores, h.hostTake, h.ingress, h.egress, h.qpErr, h.qpRate, h.cnpAt, h.conf, h.sas, h.opkey, h.led,
    h.xings, h.vc, h.vcmp, h.retireQ, h.lit, h.rcal, h.combCal, h.calRej, h.calLast, h.sensOut, h.classes, h.resets,
    h.fieldAt, h.mapLag, h.rolePend, h.bondHalf, h.lms, h.attest, h.meas, h.opkeySeq, h.debugUsed, h.power, h.heat,
    h.pairAt, h.pairOff, h.pairLost, h.fast, h.jumpAt, h.tripped, h.trips, h.hbmSlow, h.fixed, h.firmware,
    h.sheetBase, h.reports, h.startedFor, h.ckv, h.mgmt, h.inbox, h.dynAddr, h.eid, h.tid, h.bscan, fun x => (Bool.noConfusion (hmarkers.symm.trans x)), h.draws, h.saPins, h.drains, h.portNext, h.heldOut, h.txAn, h.ckvBy, h.hostLines, h.hostResv, h.imsic⟩

theorem set_draws {vdraws} (h : Touches ps s t) (hdraws : ps.testBit 100 = true) :
    Touches ps s { t with draws := vdraws } :=
  ⟨h.ok, h.vt, h.vtFrac, h.rateTemp, h.rateServo, h.free, h.pending, h.out, h.regs, h.rlatch, h.wlatch, h.ringSel,
    h.wearSel, h.mem, h.grn, h.wear, h.log, h.logBase, h.logRead, h.logRing, h.cores, h.bells, h.node, h.tithes,
    h.gws, h.cfg, h.regions, h.tracePos, h.stackMem, h.bridgeMem, h.invPend, h.invAcks, h.pageBell, h.nextId,
    h.jobs, h.xfers, h.redSteps, h.runs, h.redBytes, h.seqs, h.sheetBell, h.sheetGot, h.rings, h.outs, h.brackets,
    h.links, h.restores, h.hostTake, h.ingress, h.egress, h.qpErr, h.qpRate, h.cnpAt, h.conf, h.sas, h.opkey, h.led,
    h.xings, h.vc, h.vcmp, h.retireQ, h.lit, h.rcal, h.combCal, h.calRej, h.calLast, h.sensOut, h.classes, h.resets,
    h.fieldAt, h.mapLag, h.rolePend, h.bondHalf, h.lms, h.attest, h.meas, h.opkeySeq, h.debugUsed, h.power, h.heat,
    h.pairAt, h.pairOff, h.pairLost, h.fast, h.jumpAt, h.tripped, h.trips, h.hbmSlow, h.fixed, h.firmware,
    h.sheetBase, h.reports, h.startedFor, h.ckv, h.mgmt, h.inbox, h.dynAddr, h.eid, h.tid, h.bscan, h.markers, fun x => (Bool.noConfusion (hdraws.symm.trans x)), h.saPins, h.drains, h.portNext, h.heldOut, h.txAn, h.ckvBy, h.hostLines, h.hostResv, h.imsic⟩

theorem set_saPins {vsaPins} (h : Touches ps s t) (hsaPins : ps.testBit 101 = true) :
    Touches ps s { t with saPins := vsaPins } :=
  ⟨h.ok, h.vt, h.vtFrac, h.rateTemp, h.rateServo, h.free, h.pending, h.out, h.regs, h.rlatch, h.wlatch, h.ringSel,
    h.wearSel, h.mem, h.grn, h.wear, h.log, h.logBase, h.logRead, h.logRing, h.cores, h.bells, h.node, h.tithes,
    h.gws, h.cfg, h.regions, h.tracePos, h.stackMem, h.bridgeMem, h.invPend, h.invAcks, h.pageBell, h.nextId,
    h.jobs, h.xfers, h.redSteps, h.runs, h.redBytes, h.seqs, h.sheetBell, h.sheetGot, h.rings, h.outs, h.brackets,
    h.links, h.restores, h.hostTake, h.ingress, h.egress, h.qpErr, h.qpRate, h.cnpAt, h.conf, h.sas, h.opkey, h.led,
    h.xings, h.vc, h.vcmp, h.retireQ, h.lit, h.rcal, h.combCal, h.calRej, h.calLast, h.sensOut, h.classes, h.resets,
    h.fieldAt, h.mapLag, h.rolePend, h.bondHalf, h.lms, h.attest, h.meas, h.opkeySeq, h.debugUsed, h.power, h.heat,
    h.pairAt, h.pairOff, h.pairLost, h.fast, h.jumpAt, h.tripped, h.trips, h.hbmSlow, h.fixed, h.firmware,
    h.sheetBase, h.reports, h.startedFor, h.ckv, h.mgmt, h.inbox, h.dynAddr, h.eid, h.tid, h.bscan, h.markers,
    h.draws, fun x => (Bool.noConfusion (hsaPins.symm.trans x)), h.drains, h.portNext, h.heldOut, h.txAn, h.ckvBy, h.hostLines, h.hostResv, h.imsic⟩

theorem set_vc_lms_debugUsed_power {vvc} {vlms} {vdebugUsed} {vpower} (h : Touches ps s t) (hvc : ps.testBit 57 = true) (hlms : ps.testBit 72 = true) (hdebugUsed : ps.testBit 76 = true) (hpower : ps.testBit 77 = true) :
    Touches ps s { t with vc := vvc, lms := vlms, debugUsed := vdebugUsed, power := vpower } :=
  ⟨h.ok, h.vt, h.vtFrac, h.rateTemp, h.rateServo, h.free, h.pending, h.out, h.regs, h.rlatch, h.wlatch, h.ringSel,
    h.wearSel, h.mem, h.grn, h.wear, h.log, h.logBase, h.logRead, h.logRing, h.cores, h.bells, h.node, h.tithes,
    h.gws, h.cfg, h.regions, h.tracePos, h.stackMem, h.bridgeMem, h.invPend, h.invAcks, h.pageBell, h.nextId,
    h.jobs, h.xfers, h.redSteps, h.runs, h.redBytes, h.seqs, h.sheetBell, h.sheetGot, h.rings, h.outs, h.brackets,
    h.links, h.restores, h.hostTake, h.ingress, h.egress, h.qpErr, h.qpRate, h.cnpAt, h.conf, h.sas, h.opkey, h.led,
    h.xings, fun x => (Bool.noConfusion (hvc.symm.trans x)), h.vcmp, h.retireQ, h.lit, h.rcal, h.combCal, h.calRej,
    h.calLast, h.sensOut, h.classes, h.resets, h.fieldAt, h.mapLag, h.rolePend, h.bondHalf, fun x => (Bool.noConfusion (hlms.symm.trans x)), h.attest, h.meas, h.opkeySeq, fun x => (Bool.noConfusion
    (hdebugUsed.symm.trans x)), fun x => (Bool.noConfusion (hpower.symm.trans x)), h.heat, h.pairAt, h.pairOff,
    h.pairLost, h.fast, h.jumpAt, h.tripped, h.trips, h.hbmSlow, h.fixed, h.firmware, h.sheetBase, h.reports,
    h.startedFor, h.ckv, h.mgmt, h.inbox, h.dynAddr, h.eid, h.tid, h.bscan, h.markers, h.draws, h.saPins, h.drains, h.portNext, h.heldOut, h.txAn, h.ckvBy, h.hostLines, h.hostResv, h.imsic⟩

theorem set_lit_rcal {vlit} {vrcal} (h : Touches ps s t) (hlit : ps.testBit 60 = true) (hrcal : ps.testBit 61 = true) :
    Touches ps s { t with lit := vlit, rcal := vrcal } :=
  ⟨h.ok, h.vt, h.vtFrac, h.rateTemp, h.rateServo, h.free, h.pending, h.out, h.regs, h.rlatch, h.wlatch, h.ringSel,
    h.wearSel, h.mem, h.grn, h.wear, h.log, h.logBase, h.logRead, h.logRing, h.cores, h.bells, h.node, h.tithes,
    h.gws, h.cfg, h.regions, h.tracePos, h.stackMem, h.bridgeMem, h.invPend, h.invAcks, h.pageBell, h.nextId,
    h.jobs, h.xfers, h.redSteps, h.runs, h.redBytes, h.seqs, h.sheetBell, h.sheetGot, h.rings, h.outs, h.brackets,
    h.links, h.restores, h.hostTake, h.ingress, h.egress, h.qpErr, h.qpRate, h.cnpAt, h.conf, h.sas, h.opkey, h.led,
    h.xings, h.vc, h.vcmp, h.retireQ, fun x => (Bool.noConfusion (hlit.symm.trans x)), fun x => (Bool.noConfusion
    (hrcal.symm.trans x)), h.combCal, h.calRej, h.calLast, h.sensOut, h.classes, h.resets, h.fieldAt, h.mapLag,
    h.rolePend, h.bondHalf, h.lms, h.attest, h.meas, h.opkeySeq, h.debugUsed, h.power, h.heat, h.pairAt, h.pairOff,
    h.pairLost, h.fast, h.jumpAt, h.tripped, h.trips, h.hbmSlow, h.fixed, h.firmware, h.sheetBase, h.reports,
    h.startedFor, h.ckv, h.mgmt, h.inbox, h.dynAddr, h.eid, h.tid, h.bscan, h.markers, h.draws, h.saPins, h.drains, h.portNext, h.heldOut, h.txAn, h.ckvBy, h.hostLines, h.hostResv, h.imsic⟩

theorem set_lit_rcal_power {vlit} {vrcal} {vpower} (h : Touches ps s t) (hlit : ps.testBit 60 = true) (hrcal : ps.testBit 61 = true) (hpower : ps.testBit 77 = true) :
    Touches ps s { t with lit := vlit, rcal := vrcal, power := vpower } :=
  ⟨h.ok, h.vt, h.vtFrac, h.rateTemp, h.rateServo, h.free, h.pending, h.out, h.regs, h.rlatch, h.wlatch, h.ringSel,
    h.wearSel, h.mem, h.grn, h.wear, h.log, h.logBase, h.logRead, h.logRing, h.cores, h.bells, h.node, h.tithes,
    h.gws, h.cfg, h.regions, h.tracePos, h.stackMem, h.bridgeMem, h.invPend, h.invAcks, h.pageBell, h.nextId,
    h.jobs, h.xfers, h.redSteps, h.runs, h.redBytes, h.seqs, h.sheetBell, h.sheetGot, h.rings, h.outs, h.brackets,
    h.links, h.restores, h.hostTake, h.ingress, h.egress, h.qpErr, h.qpRate, h.cnpAt, h.conf, h.sas, h.opkey, h.led,
    h.xings, h.vc, h.vcmp, h.retireQ, fun x => (Bool.noConfusion (hlit.symm.trans x)), fun x => (Bool.noConfusion
    (hrcal.symm.trans x)), h.combCal, h.calRej, h.calLast, h.sensOut, h.classes, h.resets, h.fieldAt, h.mapLag,
    h.rolePend, h.bondHalf, h.lms, h.attest, h.meas, h.opkeySeq, h.debugUsed, fun x => (Bool.noConfusion
    (hpower.symm.trans x)), h.heat, h.pairAt, h.pairOff, h.pairLost, h.fast, h.jumpAt, h.tripped, h.trips,
    h.hbmSlow, h.fixed, h.firmware, h.sheetBase, h.reports, h.startedFor, h.ckv, h.mgmt, h.inbox, h.dynAddr, h.eid,
    h.tid, h.bscan, h.markers, h.draws, h.saPins, h.drains, h.portNext, h.heldOut, h.txAn, h.ckvBy, h.hostLines, h.hostResv, h.imsic⟩

theorem set_drains {vdrains} (h : Touches ps s t) (hdrains : ps.testBit 102 = true) :
    Touches ps s { t with drains := vdrains } :=
  ⟨h.ok, h.vt, h.vtFrac, h.rateTemp, h.rateServo, h.free, h.pending, h.out, h.regs, h.rlatch, h.wlatch, h.ringSel,
    h.wearSel, h.mem, h.grn, h.wear, h.log, h.logBase, h.logRead, h.logRing, h.cores, h.bells, h.node, h.tithes,
    h.gws, h.cfg, h.regions, h.tracePos, h.stackMem, h.bridgeMem, h.invPend, h.invAcks, h.pageBell, h.nextId,
    h.jobs, h.xfers, h.redSteps, h.runs, h.redBytes, h.seqs, h.sheetBell, h.sheetGot, h.rings, h.outs, h.brackets,
    h.links, h.restores, h.hostTake, h.ingress, h.egress, h.qpErr, h.qpRate, h.cnpAt, h.conf, h.sas, h.opkey, h.led,
    h.xings, h.vc, h.vcmp, h.retireQ, h.lit, h.rcal, h.combCal, h.calRej, h.calLast, h.sensOut, h.classes, h.resets,
    h.fieldAt, h.mapLag, h.rolePend, h.bondHalf, h.lms, h.attest, h.meas, h.opkeySeq, h.debugUsed, h.power, h.heat,
    h.pairAt, h.pairOff, h.pairLost, h.fast, h.jumpAt, h.tripped, h.trips, h.hbmSlow, h.fixed, h.firmware,
    h.sheetBase, h.reports, h.startedFor, h.ckv, h.mgmt, h.inbox, h.dynAddr, h.eid, h.tid, h.bscan, h.markers,
    h.draws, h.saPins, fun x => (Bool.noConfusion (hdrains.symm.trans x)), h.portNext, h.heldOut, h.txAn, h.ckvBy, h.hostLines, h.hostResv, h.imsic⟩

theorem set_portNext {vportNext} (h : Touches ps s t) (hportNext : ps.testBit 103 = true) :
    Touches ps s { t with portNext := vportNext } :=
  ⟨h.ok, h.vt, h.vtFrac, h.rateTemp, h.rateServo, h.free, h.pending, h.out, h.regs, h.rlatch, h.wlatch, h.ringSel,
    h.wearSel, h.mem, h.grn, h.wear, h.log, h.logBase, h.logRead, h.logRing, h.cores, h.bells, h.node, h.tithes,
    h.gws, h.cfg, h.regions, h.tracePos, h.stackMem, h.bridgeMem, h.invPend, h.invAcks, h.pageBell, h.nextId,
    h.jobs, h.xfers, h.redSteps, h.runs, h.redBytes, h.seqs, h.sheetBell, h.sheetGot, h.rings, h.outs, h.brackets,
    h.links, h.restores, h.hostTake, h.ingress, h.egress, h.qpErr, h.qpRate, h.cnpAt, h.conf, h.sas, h.opkey, h.led,
    h.xings, h.vc, h.vcmp, h.retireQ, h.lit, h.rcal, h.combCal, h.calRej, h.calLast, h.sensOut, h.classes, h.resets,
    h.fieldAt, h.mapLag, h.rolePend, h.bondHalf, h.lms, h.attest, h.meas, h.opkeySeq, h.debugUsed, h.power, h.heat,
    h.pairAt, h.pairOff, h.pairLost, h.fast, h.jumpAt, h.tripped, h.trips, h.hbmSlow, h.fixed, h.firmware,
    h.sheetBase, h.reports, h.startedFor, h.ckv, h.mgmt, h.inbox, h.dynAddr, h.eid, h.tid, h.bscan, h.markers,
    h.draws, h.saPins, h.drains, fun x => (Bool.noConfusion (hportNext.symm.trans x)), h.heldOut, h.txAn, h.ckvBy, h.hostLines, h.hostResv, h.imsic⟩

theorem set_heldOut {vheldOut} (h : Touches ps s t) (hheldOut : ps.testBit 104 = true) :
    Touches ps s { t with heldOut := vheldOut } :=
  ⟨h.ok, h.vt, h.vtFrac, h.rateTemp, h.rateServo, h.free, h.pending, h.out, h.regs, h.rlatch, h.wlatch, h.ringSel,
    h.wearSel, h.mem, h.grn, h.wear, h.log, h.logBase, h.logRead, h.logRing, h.cores, h.bells, h.node, h.tithes,
    h.gws, h.cfg, h.regions, h.tracePos, h.stackMem, h.bridgeMem, h.invPend, h.invAcks, h.pageBell, h.nextId,
    h.jobs, h.xfers, h.redSteps, h.runs, h.redBytes, h.seqs, h.sheetBell, h.sheetGot, h.rings, h.outs, h.brackets,
    h.links, h.restores, h.hostTake, h.ingress, h.egress, h.qpErr, h.qpRate, h.cnpAt, h.conf, h.sas, h.opkey, h.led,
    h.xings, h.vc, h.vcmp, h.retireQ, h.lit, h.rcal, h.combCal, h.calRej, h.calLast, h.sensOut, h.classes, h.resets,
    h.fieldAt, h.mapLag, h.rolePend, h.bondHalf, h.lms, h.attest, h.meas, h.opkeySeq, h.debugUsed, h.power, h.heat,
    h.pairAt, h.pairOff, h.pairLost, h.fast, h.jumpAt, h.tripped, h.trips, h.hbmSlow, h.fixed, h.firmware,
    h.sheetBase, h.reports, h.startedFor, h.ckv, h.mgmt, h.inbox, h.dynAddr, h.eid, h.tid, h.bscan, h.markers,
    h.draws, h.saPins, h.drains, h.portNext, fun x => (Bool.noConfusion (hheldOut.symm.trans x)), h.txAn, h.ckvBy, h.hostLines, h.hostResv, h.imsic⟩

theorem set_txAn {vtxAn} (h : Touches ps s t) (htxAn : ps.testBit 105 = true) :
    Touches ps s { t with txAn := vtxAn } :=
  ⟨h.ok, h.vt, h.vtFrac, h.rateTemp, h.rateServo, h.free, h.pending, h.out, h.regs, h.rlatch, h.wlatch, h.ringSel,
    h.wearSel, h.mem, h.grn, h.wear, h.log, h.logBase, h.logRead, h.logRing, h.cores, h.bells, h.node, h.tithes,
    h.gws, h.cfg, h.regions, h.tracePos, h.stackMem, h.bridgeMem, h.invPend, h.invAcks, h.pageBell, h.nextId,
    h.jobs, h.xfers, h.redSteps, h.runs, h.redBytes, h.seqs, h.sheetBell, h.sheetGot, h.rings, h.outs, h.brackets,
    h.links, h.restores, h.hostTake, h.ingress, h.egress, h.qpErr, h.qpRate, h.cnpAt, h.conf, h.sas, h.opkey, h.led,
    h.xings, h.vc, h.vcmp, h.retireQ, h.lit, h.rcal, h.combCal, h.calRej, h.calLast, h.sensOut, h.classes, h.resets,
    h.fieldAt, h.mapLag, h.rolePend, h.bondHalf, h.lms, h.attest, h.meas, h.opkeySeq, h.debugUsed, h.power, h.heat,
    h.pairAt, h.pairOff, h.pairLost, h.fast, h.jumpAt, h.tripped, h.trips, h.hbmSlow, h.fixed, h.firmware,
    h.sheetBase, h.reports, h.startedFor, h.ckv, h.mgmt, h.inbox, h.dynAddr, h.eid, h.tid, h.bscan, h.markers,
    h.draws, h.saPins, h.drains, h.portNext, h.heldOut, fun x => (Bool.noConfusion (htxAn.symm.trans x)), h.ckvBy, h.hostLines, h.hostResv, h.imsic⟩

theorem set_sas_txAn {vsas} {vtxAn} (h : Touches ps s t) (hsas : ps.testBit 53 = true) (htxAn : ps.testBit 105 = true) :
    Touches ps s { t with sas := vsas, txAn := vtxAn } :=
  ⟨h.ok, h.vt, h.vtFrac, h.rateTemp, h.rateServo, h.free, h.pending, h.out, h.regs, h.rlatch, h.wlatch, h.ringSel,
    h.wearSel, h.mem, h.grn, h.wear, h.log, h.logBase, h.logRead, h.logRing, h.cores, h.bells, h.node, h.tithes,
    h.gws, h.cfg, h.regions, h.tracePos, h.stackMem, h.bridgeMem, h.invPend, h.invAcks, h.pageBell, h.nextId,
    h.jobs, h.xfers, h.redSteps, h.runs, h.redBytes, h.seqs, h.sheetBell, h.sheetGot, h.rings, h.outs, h.brackets,
    h.links, h.restores, h.hostTake, h.ingress, h.egress, h.qpErr, h.qpRate, h.cnpAt, h.conf, fun x => (Bool.noConfusion (hsas.symm.trans x)), h.opkey, h.led, h.xings, h.vc, h.vcmp, h.retireQ, h.lit, h.rcal,
    h.combCal, h.calRej, h.calLast, h.sensOut, h.classes, h.resets, h.fieldAt, h.mapLag, h.rolePend, h.bondHalf,
    h.lms, h.attest, h.meas, h.opkeySeq, h.debugUsed, h.power, h.heat, h.pairAt, h.pairOff, h.pairLost, h.fast,
    h.jumpAt, h.tripped, h.trips, h.hbmSlow, h.fixed, h.firmware, h.sheetBase, h.reports, h.startedFor, h.ckv,
    h.mgmt, h.inbox, h.dynAddr, h.eid, h.tid, h.bscan, h.markers, h.draws, h.saPins, h.drains, h.portNext,
    h.heldOut, fun x => (Bool.noConfusion (htxAn.symm.trans x)), h.ckvBy, h.hostLines, h.hostResv, h.imsic⟩

theorem set_ingress_egress_heldOut {vingress} {vegress} {vheldOut} (h : Touches ps s t) (hingress : ps.testBit 47 = true) (hegress : ps.testBit 48 = true) (hheldOut : ps.testBit 104 = true) :
    Touches ps s { t with ingress := vingress, egress := vegress, heldOut := vheldOut } :=
  ⟨h.ok, h.vt, h.vtFrac, h.rateTemp, h.rateServo, h.free, h.pending, h.out, h.regs, h.rlatch, h.wlatch, h.ringSel,
    h.wearSel, h.mem, h.grn, h.wear, h.log, h.logBase, h.logRead, h.logRing, h.cores, h.bells, h.node, h.tithes,
    h.gws, h.cfg, h.regions, h.tracePos, h.stackMem, h.bridgeMem, h.invPend, h.invAcks, h.pageBell, h.nextId,
    h.jobs, h.xfers, h.redSteps, h.runs, h.redBytes, h.seqs, h.sheetBell, h.sheetGot, h.rings, h.outs, h.brackets,
    h.links, h.restores, h.hostTake, fun x => (Bool.noConfusion (hingress.symm.trans x)), fun x => (Bool.noConfusion
    (hegress.symm.trans x)), h.qpErr, h.qpRate, h.cnpAt, h.conf, h.sas, h.opkey, h.led, h.xings, h.vc, h.vcmp,
    h.retireQ, h.lit, h.rcal, h.combCal, h.calRej, h.calLast, h.sensOut, h.classes, h.resets, h.fieldAt, h.mapLag,
    h.rolePend, h.bondHalf, h.lms, h.attest, h.meas, h.opkeySeq, h.debugUsed, h.power, h.heat, h.pairAt, h.pairOff,
    h.pairLost, h.fast, h.jumpAt, h.tripped, h.trips, h.hbmSlow, h.fixed, h.firmware, h.sheetBase, h.reports,
    h.startedFor, h.ckv, h.mgmt, h.inbox, h.dynAddr, h.eid, h.tid, h.bscan, h.markers, h.draws, h.saPins, h.drains,
    h.portNext, fun x => (Bool.noConfusion (hheldOut.symm.trans x)), h.txAn, h.ckvBy, h.hostLines, h.hostResv, h.imsic⟩

theorem set_runs_redBytes {vruns} {vredBytes} (h : Touches ps s t) (hruns : ps.testBit 36 = true) (hredBytes : ps.testBit 37 = true) :
    Touches ps s { t with runs := vruns, redBytes := vredBytes } :=
  ⟨h.ok, h.vt, h.vtFrac, h.rateTemp, h.rateServo, h.free, h.pending, h.out, h.regs, h.rlatch, h.wlatch, h.ringSel,
    h.wearSel, h.mem, h.grn, h.wear, h.log, h.logBase, h.logRead, h.logRing, h.cores, h.bells, h.node, h.tithes,
    h.gws, h.cfg, h.regions, h.tracePos, h.stackMem, h.bridgeMem, h.invPend, h.invAcks, h.pageBell, h.nextId,
    h.jobs, h.xfers, h.redSteps, fun x => (Bool.noConfusion (hruns.symm.trans x)), fun x => (Bool.noConfusion
    (hredBytes.symm.trans x)), h.seqs, h.sheetBell, h.sheetGot, h.rings, h.outs, h.brackets, h.links, h.restores,
    h.hostTake, h.ingress, h.egress, h.qpErr, h.qpRate, h.cnpAt, h.conf, h.sas, h.opkey, h.led, h.xings, h.vc,
    h.vcmp, h.retireQ, h.lit, h.rcal, h.combCal, h.calRej, h.calLast, h.sensOut, h.classes, h.resets, h.fieldAt,
    h.mapLag, h.rolePend, h.bondHalf, h.lms, h.attest, h.meas, h.opkeySeq, h.debugUsed, h.power, h.heat, h.pairAt,
    h.pairOff, h.pairLost, h.fast, h.jumpAt, h.tripped, h.trips, h.hbmSlow, h.fixed, h.firmware, h.sheetBase,
    h.reports, h.startedFor, h.ckv, h.mgmt, h.inbox, h.dynAddr, h.eid, h.tid, h.bscan, h.markers, h.draws, h.saPins,
    h.drains, h.portNext, h.heldOut, h.txAn, h.ckvBy, h.hostLines, h.hostResv, h.imsic⟩

theorem set_ckvBy {vckvBy} (h : Touches ps s t) (hckvBy : ps.testBit 106 = true) :
    Touches ps s { t with ckvBy := vckvBy } :=
  ⟨h.ok, h.vt, h.vtFrac, h.rateTemp, h.rateServo, h.free, h.pending, h.out, h.regs, h.rlatch, h.wlatch, h.ringSel,
    h.wearSel, h.mem, h.grn, h.wear, h.log, h.logBase, h.logRead, h.logRing, h.cores, h.bells, h.node, h.tithes,
    h.gws, h.cfg, h.regions, h.tracePos, h.stackMem, h.bridgeMem, h.invPend, h.invAcks, h.pageBell, h.nextId,
    h.jobs, h.xfers, h.redSteps, h.runs, h.redBytes, h.seqs, h.sheetBell, h.sheetGot, h.rings, h.outs, h.brackets,
    h.links, h.restores, h.hostTake, h.ingress, h.egress, h.qpErr, h.qpRate, h.cnpAt, h.conf, h.sas, h.opkey, h.led,
    h.xings, h.vc, h.vcmp, h.retireQ, h.lit, h.rcal, h.combCal, h.calRej, h.calLast, h.sensOut, h.classes, h.resets,
    h.fieldAt, h.mapLag, h.rolePend, h.bondHalf, h.lms, h.attest, h.meas, h.opkeySeq, h.debugUsed, h.power, h.heat,
    h.pairAt, h.pairOff, h.pairLost, h.fast, h.jumpAt, h.tripped, h.trips, h.hbmSlow, h.fixed, h.firmware,
    h.sheetBase, h.reports, h.startedFor, h.ckv, h.mgmt, h.inbox, h.dynAddr, h.eid, h.tid, h.bscan, h.markers,
    h.draws, h.saPins, h.drains, h.portNext, h.heldOut, h.txAn, fun x => (Bool.noConfusion (hckvBy.symm.trans x)), h.hostLines, h.hostResv, h.imsic⟩

theorem set_hostLines {vhostLines} (h : Touches ps s t) (hhostLines : ps.testBit 107 = true) :
    Touches ps s { t with hostLines := vhostLines } :=
  ⟨h.ok, h.vt, h.vtFrac, h.rateTemp, h.rateServo, h.free, h.pending, h.out, h.regs, h.rlatch, h.wlatch, h.ringSel,
    h.wearSel, h.mem, h.grn, h.wear, h.log, h.logBase, h.logRead, h.logRing, h.cores, h.bells, h.node, h.tithes,
    h.gws, h.cfg, h.regions, h.tracePos, h.stackMem, h.bridgeMem, h.invPend, h.invAcks, h.pageBell, h.nextId,
    h.jobs, h.xfers, h.redSteps, h.runs, h.redBytes, h.seqs, h.sheetBell, h.sheetGot, h.rings, h.outs, h.brackets,
    h.links, h.restores, h.hostTake, h.ingress, h.egress, h.qpErr, h.qpRate, h.cnpAt, h.conf, h.sas, h.opkey, h.led,
    h.xings, h.vc, h.vcmp, h.retireQ, h.lit, h.rcal, h.combCal, h.calRej, h.calLast, h.sensOut, h.classes, h.resets,
    h.fieldAt, h.mapLag, h.rolePend, h.bondHalf, h.lms, h.attest, h.meas, h.opkeySeq, h.debugUsed, h.power, h.heat,
    h.pairAt, h.pairOff, h.pairLost, h.fast, h.jumpAt, h.tripped, h.trips, h.hbmSlow, h.fixed, h.firmware,
    h.sheetBase, h.reports, h.startedFor, h.ckv, h.mgmt, h.inbox, h.dynAddr, h.eid, h.tid, h.bscan, h.markers,
    h.draws, h.saPins, h.drains, h.portNext, h.heldOut, h.txAn, h.ckvBy, fun x => (Bool.noConfusion
    (hhostLines.symm.trans x)), h.hostResv, h.imsic⟩

theorem set_hostResv {vhostResv} (h : Touches ps s t) (hhostResv : ps.testBit 108 = true) :
    Touches ps s { t with hostResv := vhostResv } :=
  ⟨h.ok, h.vt, h.vtFrac, h.rateTemp, h.rateServo, h.free, h.pending, h.out, h.regs, h.rlatch, h.wlatch, h.ringSel,
    h.wearSel, h.mem, h.grn, h.wear, h.log, h.logBase, h.logRead, h.logRing, h.cores, h.bells, h.node, h.tithes,
    h.gws, h.cfg, h.regions, h.tracePos, h.stackMem, h.bridgeMem, h.invPend, h.invAcks, h.pageBell, h.nextId,
    h.jobs, h.xfers, h.redSteps, h.runs, h.redBytes, h.seqs, h.sheetBell, h.sheetGot, h.rings, h.outs, h.brackets,
    h.links, h.restores, h.hostTake, h.ingress, h.egress, h.qpErr, h.qpRate, h.cnpAt, h.conf, h.sas, h.opkey, h.led,
    h.xings, h.vc, h.vcmp, h.retireQ, h.lit, h.rcal, h.combCal, h.calRej, h.calLast, h.sensOut, h.classes, h.resets,
    h.fieldAt, h.mapLag, h.rolePend, h.bondHalf, h.lms, h.attest, h.meas, h.opkeySeq, h.debugUsed, h.power, h.heat,
    h.pairAt, h.pairOff, h.pairLost, h.fast, h.jumpAt, h.tripped, h.trips, h.hbmSlow, h.fixed, h.firmware,
    h.sheetBase, h.reports, h.startedFor, h.ckv, h.mgmt, h.inbox, h.dynAddr, h.eid, h.tid, h.bscan, h.markers,
    h.draws, h.saPins, h.drains, h.portNext, h.heldOut, h.txAn, h.ckvBy, h.hostLines, fun x => (Bool.noConfusion
    (hhostResv.symm.trans x)), h.imsic⟩

theorem set_imsic {vimsic} (h : Touches ps s t) (himsic : ps.testBit 109 = true) :
    Touches ps s { t with imsic := vimsic } :=
  ⟨h.ok, h.vt, h.vtFrac, h.rateTemp, h.rateServo, h.free, h.pending, h.out, h.regs, h.rlatch, h.wlatch, h.ringSel,
    h.wearSel, h.mem, h.grn, h.wear, h.log, h.logBase, h.logRead, h.logRing, h.cores, h.bells, h.node, h.tithes,
    h.gws, h.cfg, h.regions, h.tracePos, h.stackMem, h.bridgeMem, h.invPend, h.invAcks, h.pageBell, h.nextId,
    h.jobs, h.xfers, h.redSteps, h.runs, h.redBytes, h.seqs, h.sheetBell, h.sheetGot, h.rings, h.outs, h.brackets,
    h.links, h.restores, h.hostTake, h.ingress, h.egress, h.qpErr, h.qpRate, h.cnpAt, h.conf, h.sas, h.opkey, h.led,
    h.xings, h.vc, h.vcmp, h.retireQ, h.lit, h.rcal, h.combCal, h.calRej, h.calLast, h.sensOut, h.classes, h.resets,
    h.fieldAt, h.mapLag, h.rolePend, h.bondHalf, h.lms, h.attest, h.meas, h.opkeySeq, h.debugUsed, h.power, h.heat,
    h.pairAt, h.pairOff, h.pairLost, h.fast, h.jumpAt, h.tripped, h.trips, h.hbmSlow, h.fixed, h.firmware,
    h.sheetBase, h.reports, h.startedFor, h.ckv, h.mgmt, h.inbox, h.dynAddr, h.eid, h.tid, h.bscan, h.markers,
    h.draws, h.saPins, h.drains, h.portNext, h.heldOut, h.txAn, h.ckvBy, h.hostLines, h.hostResv, fun x => (Bool.noConfusion (himsic.symm.trans x))⟩

theorem set_hostLines_hostResv_imsic {vhostLines} {vhostResv} {vimsic} (h : Touches ps s t) (hhostLines : ps.testBit 107 = true) (hhostResv : ps.testBit 108 = true) (himsic : ps.testBit 109 = true) :
    Touches ps s { t with hostLines := vhostLines, hostResv := vhostResv, imsic := vimsic } :=
  ⟨h.ok, h.vt, h.vtFrac, h.rateTemp, h.rateServo, h.free, h.pending, h.out, h.regs, h.rlatch, h.wlatch, h.ringSel,
    h.wearSel, h.mem, h.grn, h.wear, h.log, h.logBase, h.logRead, h.logRing, h.cores, h.bells, h.node, h.tithes,
    h.gws, h.cfg, h.regions, h.tracePos, h.stackMem, h.bridgeMem, h.invPend, h.invAcks, h.pageBell, h.nextId,
    h.jobs, h.xfers, h.redSteps, h.runs, h.redBytes, h.seqs, h.sheetBell, h.sheetGot, h.rings, h.outs, h.brackets,
    h.links, h.restores, h.hostTake, h.ingress, h.egress, h.qpErr, h.qpRate, h.cnpAt, h.conf, h.sas, h.opkey, h.led,
    h.xings, h.vc, h.vcmp, h.retireQ, h.lit, h.rcal, h.combCal, h.calRej, h.calLast, h.sensOut, h.classes, h.resets,
    h.fieldAt, h.mapLag, h.rolePend, h.bondHalf, h.lms, h.attest, h.meas, h.opkeySeq, h.debugUsed, h.power, h.heat,
    h.pairAt, h.pairOff, h.pairLost, h.fast, h.jumpAt, h.tripped, h.trips, h.hbmSlow, h.fixed, h.firmware,
    h.sheetBase, h.reports, h.startedFor, h.ckv, h.mgmt, h.inbox, h.dynAddr, h.eid, h.tid, h.bscan, h.markers,
    h.draws, h.saPins, h.drains, h.portNext, h.heldOut, h.txAn, h.ckvBy, fun x => (Bool.noConfusion
    (hhostLines.symm.trans x)), fun x => (Bool.noConfusion (hhostResv.symm.trans x)), fun x => (Bool.noConfusion
    (himsic.symm.trans x))⟩

end Touches

/-- An answer is a next state that touches only `ps`. -/
def Answers (ps : Nat) (s : State) (o : Host.Outcome State Fault Refusal) : Prop := ∃ t, o = .next t ∧ Touches ps s t

theorem Answers.next {ps : Nat} {s t : State} (h : Touches ps s t) : Answers ps s (.next t) := ⟨t, rfl, h⟩

theorem Answers.mono {ps qs : Nat} {s : State} {o : Host.Outcome State Fault Refusal} (h : Answers qs s o)
    (hs : qs &&& ps = qs) : Answers ps s o := by
  obtain ⟨t, ht, h⟩ := h; exact ⟨t, ht, h.mono hs⟩

theorem Answers.cut {ps : Nat} {s t : State} {o : Host.Outcome State Fault Refusal} (h : Touches ps s t)
    (k : Touches ps s t → Answers ps s o) : Answers ps s o := k h

end Sys2Proof.Machine
end

