-- ==== Sys2Proof/Laws/Time.lean ====
section
/-!
SUPPORT. What the operations of Machine/Time.lean may touch.
-/

namespace Sys2Proof.Machine

theorem State.tick_touches (s : State) :
    Touches (Touch.vt ||| Touch.vtFrac) s (State.tick s) := by
  unfold State.tick
  repeat'
    first
      | with_reducible exact Touches.refl _ _
      | decide
      | (extract_lets +onlyGivenNames x; clear_value x; revert x; intro _)
      | with_reducible apply Touches.set_vt_vtFrac

end Sys2Proof.Machine
end

