-- ==== Sys2Proof/Laws/Ops.lean ====
section
/-!
SUPPORT. What the operations of Machine/Ops.lean may touch.
-/

namespace Sys2Proof.Machine

theorem State.setReg_touches (s : State) (a : Nat) (v : BitVec 64) :
    Touches (Touch.regs) s (State.setReg s a v) := by
  unfold State.setReg
  repeat'
    first
      | with_reducible exact Touches.refl _ _
      | decide
      | with_reducible apply Touches.set_regs

theorem State.setF_touches (s : State) (a : Nat) (f : Fld) (x : Nat) :
    Touches (Touch.regs) s (State.setF s a f x) := by
  unfold State.setF
  repeat'
    first
      | with_reducible exact Touches.refl _ _
      | decide
      | with_reducible apply Touches.after (State.setReg_touches ..)

theorem State.bump_touches (s : State) (a : Nat) (f : Fld) (n : Nat) :
    Touches (Touch.regs) s (State.bump s a f n) := by
  unfold State.bump
  repeat'
    first
      | with_reducible exact Touches.refl _ _
      | decide
      | with_reducible apply Touches.after (State.setF_touches ..)

theorem State.unmapped_touches (s : State) :
    Touches (Touch.regs) s (State.unmapped s) := by
  unfold State.unmapped
  repeat'
    first
      | with_reducible exact Touches.refl _ _
      | decide
      | with_reducible apply Touches.after (State.bump_touches ..)

theorem State.emit_touches (s : State) (o : Output) :
    Touches (Touch.out) s (State.emit s o) := by
  unfold State.emit
  repeat'
    first
      | with_reducible exact Touches.refl _ _
      | decide
      | with_reducible apply Touches.set_out

theorem State.takeFree_touches (s : State) : Touches Touch.free s (State.takeFree s).2 :=
  Touches.set_free (Touches.refl _ _) (by decide)

theorem State.writeMem_touches (s : State) (site off : Nat) (bs : List Byte) :
    Touches Touch.mem s (State.writeMem s site off bs) :=
  Touches.set_mem (Touches.refl _ _) (by decide) fun h => SMap.wf_setMany bs h

theorem State.writeMasked_touches (s : State) (site off mask : Nat) (bs : List Byte) :
    Touches Touch.mem s (State.writeMasked s site off mask bs) := by
  induction bs generalizing s off mask with
  | nil => exact Touches.refl _ _
  | cons b bs ih =>
    unfold State.writeMasked
    refine Touches.trans ?_ (ih ..)
    split
    · exact State.writeMem_touches ..
    · exact Touches.refl _ _

theorem State.zeroMem_touches (s : State) (site off n : Nat) :
    Touches Touch.mem s (State.zeroMem s site off n) :=
  Touches.set_mem (Touches.refl _ _) (by decide) fun h => SMap.wf_clearRange h

theorem State.mapChanged_touches (s : State) :
    Touches (Touch.regs ||| Touch.mapLag) s (State.mapChanged s) := by
  unfold State.mapChanged
  repeat'
    first
      | with_reducible exact Touches.refl _ _
      | decide
      | with_reducible apply Touches.after (State.setF_touches ..)
      | with_reducible apply Touches.set_mapLag

theorem State.grnPut_touches (s : State) (type : Nat) (site : Nat) (index : Nat) (v : Nat) :
    Touches (Touch.regs ||| Touch.grn ||| Touch.mapLag) s (State.grnPut s type site index v) := by
  unfold State.grnPut
  repeat'
    first
      | with_reducible exact Touches.refl _ _
      | decide
      | with_reducible apply Touches.after (State.mapChanged_touches ..)
      | with_reducible apply Touches.set_grn

theorem State.grnDel_touches (s : State) (type : Nat) (site : Nat) (index : Nat) :
    Touches (Touch.regs ||| Touch.grn ||| Touch.mapLag) s (State.grnDel s type site index) := by
  unfold State.grnDel
  repeat'
    first
      | with_reducible exact Touches.refl _ _
      | decide
      | with_reducible apply Touches.after (State.mapChanged_touches ..)
      | with_reducible apply Touches.set_grn

theorem State.putRole_touches (s : State) (type : Nat) (k : Nat) (i : Nat) (role : Nat) :
    Touches (Touch.rolePend) s (State.putRole s type k i role) := by
  unfold State.putRole
  repeat'
    first
      | with_reducible exact Touches.refl _ _
      | decide
      | with_reducible apply Touches.set_rolePend

theorem State.wearUp_touches (s : State) (kind : Nat) (index : Nat) :
    Touches (Touch.regs ||| Touch.wear ||| Touch.mapLag) s (State.wearUp s kind index) := by
  unfold State.wearUp
  repeat'
    first
      | with_reducible exact Touches.refl _ _
      | decide
      | with_reducible apply Touches.after (State.mapChanged_touches ..)
      | with_reducible apply Touches.set_wear

theorem State.setLive_touches (s : State) (i : Nat) (b : Bool) :
    Touches (Touch.regs) s (State.setLive s i b) := by
  unfold State.setLive
  repeat'
    first
      | with_reducible exact Touches.refl _ _
      | decide
      | with_reducible apply Touches.after (State.setF_touches ..)

theorem State.setCore_touches (s : State) (k : Nat) (c : Nat) (x : CoreSt) :
    Touches (Touch.cores) s (State.setCore s k c x) := by
  unfold State.setCore
  repeat'
    first
      | with_reducible exact Touches.refl _ _
      | decide
      | with_reducible apply Touches.set_cores

theorem State.setBell_touches (s : State) (i : Nat) (x : SiteBell) :
    Touches (Touch.bells) s (State.setBell s i x) := by
  unfold State.setBell
  repeat'
    first
      | with_reducible exact Touches.refl _ _
      | decide
      | with_reducible apply Touches.set_bells

theorem State.setTithe_touches (s : State) (i : Nat) (x : TitheSt) :
    Touches (Touch.tithes) s (State.setTithe s i x) := by
  unfold State.setTithe
  repeat'
    first
      | with_reducible exact Touches.refl _ _
      | decide
      | with_reducible apply Touches.set_tithes

theorem State.setGw_touches (s : State) (i : Nat) (x : GwSt) :
    Touches (Touch.gws) s (State.setGw s i x) := by
  unfold State.setGw
  repeat'
    first
      | with_reducible exact Touches.refl _ _
      | decide
      | with_reducible apply Touches.set_gws

theorem State.logEvent_touches (s : State) (r : EventRec) :
    Touches (Touch.out ||| Touch.regs ||| Touch.log ||| Touch.logBase) s (State.logEvent s r) := by
  unfold State.logEvent
  repeat'
    first
      | with_reducible exact Touches.refl _ _
      | with_reducible assumption
      | decide
      | (extract_lets +onlyGivenNames x; with_reducible refine Touches.cut (t := x) ?_ ?_; subst x; rotate_left; clear_value x; revert x; intro _ _; rotate_right)
      | split
      | with_reducible apply Touches.after (State.emit_touches ..)
      | with_reducible apply Touches.after (State.bump_touches ..)
      | with_reducible apply Touches.set_log_logBase

theorem State.report_touches (s : State) (site : Nat) (code : Nat) (votes : Bool) (args : List Nat) :
    Touches (Touch.out ||| Touch.regs ||| Touch.log ||| Touch.logBase ||| Touch.bells ||| Touch.node |||
    Touch.reports) s (State.report s site code votes args) := by
  unfold State.report
  repeat'
    first
      | with_reducible exact Touches.refl _ _
      | with_reducible assumption
      | decide
      | (extract_lets +onlyGivenNames x; with_reducible refine Touches.cut (t := x) ?_ ?_; subst x; rotate_left; clear_value x; revert x; intro _ _; rotate_right)
      | (extract_lets +onlyGivenNames x; clear_value x; revert x; intro _)
      | split
      | with_reducible apply Touches.after (State.logEvent_touches ..)
      | with_reducible apply Touches.after (State.setBell_touches ..)
      | with_reducible apply Touches.set_reports
      | with_reducible apply Touches.set_node

theorem State.raise_touches (s : State) (site : Nat) (code : Nat) (args : List Nat) :
    Touches (Touch.out ||| Touch.regs ||| Touch.log ||| Touch.logBase ||| Touch.bells ||| Touch.node |||
    Touch.reports) s (State.raise s site code args) := by
  unfold State.raise
  repeat'
    first
      | with_reducible exact Touches.refl _ _
      | decide
      | with_reducible apply Touches.after (State.report_touches ..)

theorem State.raiseStatus_touches (s : State) (site : Nat) (status : Nat) (args : List Nat) :
    Touches (Touch.out ||| Touch.regs ||| Touch.log ||| Touch.logBase ||| Touch.bells ||| Touch.node |||
    Touch.reports) s (State.raiseStatus s site status args) := by
  unfold State.raiseStatus
  repeat'
    first
      | with_reducible exact Touches.refl _ _
      | decide
      | with_reducible apply Touches.after (State.raise_touches ..)

theorem State.coreFault_touches (s : State) (k : Nat) (c : Nat) (args : List Nat) :
    Touches (Touch.out ||| Touch.regs ||| Touch.wear ||| Touch.log ||| Touch.logBase ||| Touch.cores |||
    Touch.bells ||| Touch.node ||| Touch.retireQ ||| Touch.mapLag ||| Touch.reports) s (State.coreFault s k c args) := by
  unfold State.coreFault
  repeat'
    first
      | with_reducible exact Touches.refl _ _
      | with_reducible assumption
      | decide
      | (extract_lets +onlyGivenNames x; with_reducible refine Touches.cut (t := x) ?_ ?_; subst x; rotate_left; clear_value x; revert x; intro _ _; rotate_right)
      | (extract_lets +onlyGivenNames x; clear_value x; revert x; intro _)
      | split
      | with_reducible apply Touches.after (State.raiseStatus_touches ..)
      | with_reducible apply Touches.after (State.wearUp_touches ..)
      | with_reducible apply Touches.after (State.raise_touches ..)
      | with_reducible apply Touches.after (State.setCore_touches ..)
      | with_reducible apply Touches.set_retireQ

theorem State.syncBellRegs_touches (s : State) :
    Touches (Touch.regs) s (State.syncBellRegs s) := by
  unfold State.syncBellRegs
  repeat'
    first
      | with_reducible exact Touches.refl _ _
      | with_reducible assumption
      | decide
      | (extract_lets +onlyGivenNames x; with_reducible refine Touches.cut (t := x) ?_ ?_; subst x; rotate_left; clear_value x; revert x; intro _ _; rotate_right)
      | (extract_lets +onlyGivenNames x; clear_value x; revert x; intro _)
      | split
      | with_reducible apply Touches.after (State.setF_touches ..)

theorem State.raiseToken_touches (s : State) (k : Nat) (c : Nat) (ref : Nat) (n : Nat) :
    Touches (Touch.out ||| Touch.regs ||| Touch.log ||| Touch.logBase ||| Touch.bells ||| Touch.node |||
    Touch.reports) s (State.raiseToken s k c ref n) := by
  unfold State.raiseToken
  repeat'
    first
      | with_reducible exact Touches.refl _ _
      | decide
      | (extract_lets +onlyGivenNames x; clear_value x; revert x; intro _)
      | split
      | with_reducible apply Touches.after (State.setF_touches ..)
      | with_reducible apply Touches.after (State.raise_touches ..)

theorem State.unserved_touches (s : State) (x : Nat) :
    Touches (Touch.regs) s (State.unserved s x) := by
  unfold State.unserved
  repeat'
    first
      | with_reducible exact Touches.refl _ _
      | decide
      | with_reducible apply Touches.after (State.bump_touches ..)

theorem State.setStream_touches (s : State) (site : Nat) (key : Nat) (st : Stream) :
    Touches (Touch.gws) s (State.setStream s site key st) := by
  unfold State.setStream
  repeat'
    first
      | with_reducible exact Touches.refl _ _
      | with_reducible assumption
      | decide
      | (extract_lets +onlyGivenNames x; with_reducible refine Touches.cut (t := x) ?_ ?_; subst x; rotate_left; clear_value x; revert x; intro _ _; rotate_right)
      | (extract_lets +onlyGivenNames x; clear_value x; revert x; intro _)
      | split
      | with_reducible apply Touches.after (State.setGw_touches ..)

theorem State.putOnHop_touches (s : State) (site : Nat) (h : Hop) (p : Packet) (t : Nat) :
    Touches (Touch.out ||| Touch.gws) s (State.putOnHop s site h p t) := by
  unfold State.putOnHop
  repeat'
    first
      | with_reducible exact Touches.refl _ _
      | with_reducible assumption
      | decide
      | (extract_lets +onlyGivenNames x; with_reducible refine Touches.cut (t := x) ?_ ?_; subst x; rotate_left; clear_value x; revert x; intro _ _; rotate_right)
      | (extract_lets +onlyGivenNames x; clear_value x; revert x; intro _)
      | split
      | with_reducible apply Touches.after (State.emit_touches ..)
      | with_reducible apply Touches.after (State.setStream_touches ..)

theorem State.launchHeld_touches (s : State) (site : Nat) (w : Held) :
    Touches (Touch.out ||| Touch.gws) s (State.launchHeld s site w) := by
  unfold State.launchHeld
  repeat'
    first
      | with_reducible exact Touches.refl _ _
      | with_reducible assumption
      | decide
      | (extract_lets +onlyGivenNames x; with_reducible refine Touches.cut (t := x) ?_ ?_; subst x; rotate_left; clear_value x; revert x; intro _ _; rotate_right)
      | (extract_lets +onlyGivenNames x; clear_value x; revert x; intro _)
      | split
      | with_reducible apply Touches.after (State.putOnHop_touches ..)
      | with_reducible apply Touches.after (State.setGw_touches ..)

theorem State.drainHop_touches (s : State) (site : Nat) (h : Hop) (x : Nat) :
    Touches (Touch.out ||| Touch.gws) s (State.drainHop s site h x) := by
  induction x generalizing s site h with
  | zero => exact Touches.refl _ _
  | succ n ih =>
    unfold State.drainHop
    repeat'
      first
        | with_reducible exact Touches.refl _ _
        | with_reducible assumption
        | decide
        | with_reducible refine Touches.trans ?_ (ih ..)
        | split
        | with_reducible apply Touches.after (State.launchHeld_touches ..)

theorem State.flushHop_touches (s : State) (site : Nat) (h : Hop) :
    Touches (Touch.out ||| Touch.gws) s (State.flushHop s site h) := by
  unfold State.flushHop
  repeat'
    first
      | with_reducible exact Touches.refl _ _
      | with_reducible assumption
      | decide
      | split
      | with_reducible apply Touches.after (State.drainHop_touches ..)

theorem State.sendHopSince_touches (s : State) (site : Nat) (h : Hop) (p : Packet) (t : Nat) :
    Touches (Touch.out ||| Touch.gws) s (State.sendHopSince s site h p t) := by
  unfold State.sendHopSince
  repeat'
    first
      | with_reducible exact Touches.refl _ _
      | with_reducible assumption
      | decide
      | (extract_lets +onlyGivenNames x; with_reducible refine Touches.cut (t := x) ?_ ?_; subst x; rotate_left; clear_value x; revert x; intro _ _; rotate_right)
      | (extract_lets +onlyGivenNames x; clear_value x; revert x; intro _)
      | split
      | with_reducible apply Touches.after (State.flushHop_touches ..)
      | with_reducible apply Touches.after (State.setGw_touches ..)

theorem State.sendHop_touches (s : State) (site : Nat) (h : Hop) (p : Packet) :
    Touches (Touch.out ||| Touch.gws) s (State.sendHop s site h p) := by
  unfold State.sendHop
  repeat'
    first
      | with_reducible exact Touches.refl _ _
      | decide
      | with_reducible apply Touches.after (State.sendHopSince_touches ..)

theorem State.send_touches (s : State) (site : Nat) (p : Packet) :
    Touches (Touch.out ||| Touch.regs ||| Touch.gws) s (State.send s site p) := by
  unfold State.send
  repeat'
    first
      | with_reducible exact Touches.refl _ _
      | decide
      | (extract_lets +onlyGivenNames x; clear_value x; revert x; intro _)
      | split
      | with_reducible apply Touches.after (State.unserved_touches ..)
      | with_reducible apply Touches.after (State.sendHop_touches ..)

theorem State.sendCopy_touches (s : State) (site : Nat) (p : Packet) :
    Touches (Touch.out ||| Touch.regs ||| Touch.gws) s (State.sendCopy s site p) := by
  unfold State.sendCopy
  repeat'
    first
      | with_reducible exact Touches.refl _ _
      | with_reducible assumption
      | decide
      | split
      | with_reducible apply Touches.after (State.sendHop_touches ..)
      | with_reducible apply Touches.after (State.unserved_touches ..)

theorem State.sendBranch_touches (s : State) (site : Nat) (b : Nat) (p : Packet) :
    Touches (Touch.out ||| Touch.regs ||| Touch.gws) s (State.sendBranch s site b p) := by
  unfold State.sendBranch
  repeat'
    first
      | with_reducible exact Touches.refl _ _
      | with_reducible assumption
      | decide
      | split
      | with_reducible apply Touches.after (State.sendCopy_touches ..)

theorem State.quarantine_touches (s : State) (site : Nat) (key : Nat) :
    Touches (Touch.gws) s (State.quarantine s site key) := by
  unfold State.quarantine
  repeat'
    first
      | with_reducible exact Touches.refl _ _
      | decide
      | (extract_lets +onlyGivenNames x; clear_value x; revert x; intro _)
      | with_reducible apply Touches.after (State.setGw_touches ..)

theorem State.freeLive_touches (s : State) (site : Nat) (key : Nat) :
    Touches (Touch.gws) s (State.freeLive s site key) := by
  unfold State.freeLive
  repeat'
    first
      | with_reducible exact Touches.refl _ _
      | decide
      | (extract_lets +onlyGivenNames x; clear_value x; revert x; intro _)
      | with_reducible apply Touches.after (State.setGw_touches ..)

theorem State.sendCode_touches (s : State) (site : Nat) (h : Hop) (lane : Nat) (resend : Option Nat) :
    Touches (Touch.out ||| Touch.gws) s (State.sendCode s site h lane resend) := by
  unfold State.sendCode
  repeat'
    first
      | with_reducible exact Touches.refl _ _
      | with_reducible assumption
      | decide
      | split
      | with_reducible apply Touches.after (State.emit_touches ..)
      | with_reducible apply Touches.after (State.resend_touches ..)

theorem State.setLink_touches (s : State) (x : Nat) (l : LinkSt) :
    Touches (Touch.links) s (State.setLink s x l) := by
  unfold State.setLink
  repeat'
    first
      | with_reducible exact Touches.refl _ _
      | with_reducible assumption
      | decide
      | split
      | dsimp only
      | with_reducible apply Touches.set_links

theorem State.allocTag_touches {s : State} {site : Nat} {w : TagWait} {t : State} {q : Packet} (h : s.allocTag site w = some (t, q)) :
    Touches (Touch.gws) s t := by
  unfold State.allocTag at h
  dsimp only at h
  split at h
  · cases h
  · cases h
    exact (State.setGw_touches ..).mono (by decide)

theorem State.keepKey_touches (s : State) (site : Nat) (p : Packet) :
    Touches (Touch.gws) s (State.keepKey s site p) := by
  unfold State.keepKey
  repeat'
    first
      | with_reducible exact Touches.refl _ _
      | with_reducible assumption
      | decide
      | (extract_lets +onlyGivenNames x; with_reducible refine Touches.cut (t := x) ?_ ?_; subst x; rotate_left; clear_value x; revert x; intro _ _; rotate_right)
      | (extract_lets +onlyGivenNames x; clear_value x; revert x; intro _)
      | split
      | with_reducible apply Touches.after (State.setGw_touches ..)

theorem State.sendPart_touches (s : State) (site : Nat) (branch : Option Nat) (p : Packet) :
    Touches (Touch.out ||| Touch.regs ||| Touch.gws) s (State.sendPart s site branch p) := by
  unfold State.sendPart
  repeat'
    first
      | with_reducible exact Touches.refl _ _
      | with_reducible assumption
      | decide
      | split
      | with_reducible apply Touches.after (State.keepKey_touches ..)
      | with_reducible apply Touches.after (State.send_touches ..)
      | with_reducible apply Touches.after (State.sendBranch_touches ..)

theorem State.sendCopies_touches (s : State) (site : Nat) (p : Packet) (copies : List (Option Nat × Site)) :
    Touches (Touch.out ||| Touch.regs ||| Touch.gws) s (State.sendCopies s site p copies) := by
  unfold State.sendCopies
  repeat'
    first
      | with_reducible exact Touches.refl _ _
      | with_reducible assumption
      | decide
      | split
      | with_reducible apply Touches.after (State.send_touches ..)
      | with_reducible apply Touches.after (State.sendPart_touches ..)
      | with_reducible refine Touches.foldl ?_ fun _ _ => ?_

theorem State.sendTagged_touches (s : State) (site : Nat) (w : TagWait) :
    Touches (Touch.out ||| Touch.regs ||| Touch.gws) s (State.sendTagged s site w) := by
  unfold State.sendTagged
  repeat'
    first
      | with_reducible exact Touches.refl _ _
      | with_reducible assumption
      | decide
      | split
      | with_reducible refine Touches.after (State.allocTag_touches ‹State.allocTag _ _ _ = some _›) ?_ ?_
      | with_reducible apply Touches.after (State.sendCopies_touches ..)
      | with_reducible apply Touches.after (State.setGw_touches ..)

end Sys2Proof.Machine
end

