-- ==== Sys2Proof/Laws/Tithe.lean ====
section
/-!
SUPPORT. What the operations of Machine/Tithe.lean may touch.
-/

namespace Sys2Proof.Machine

theorem State.titheCharge_touches (s : State) (site : Nat) (cls : Nat) (cost : Nat) :
    Touches (Touch.tithes) s (State.titheCharge s site cls cost) := by
  unfold State.titheCharge
  repeat'
    first
      | with_reducible exact Touches.refl _ _
      | decide
      | (extract_lets +onlyGivenNames x; clear_value x; revert x; intro _)
      | with_reducible apply Touches.after (State.setTithe_touches ..)

theorem State.titheStall_touches (s : State) (site : Nat) (cls : Nat) :
    Touches (Touch.regs ||| Touch.tithes) s (State.titheStall s site cls) := by
  unfold State.titheStall
  repeat'
    first
      | with_reducible exact Touches.refl _ _
      | decide
      | (extract_lets +onlyGivenNames x; clear_value x; revert x; intro _)
      | split
      | with_reducible apply Touches.after (State.bump_touches ..)
      | with_reducible apply Touches.after (State.setTithe_touches ..)

theorem State.titheRetry_touches (s : State) (site : Nat) (cls : Nat) :
    Touches (Touch.regs ||| Touch.tithes) s (State.titheRetry s site cls) := by
  unfold State.titheRetry
  repeat'
    first
      | with_reducible exact Touches.refl _ _
      | with_reducible assumption
      | decide
      | split
      | with_reducible apply Touches.after (State.titheStall_touches ..)

theorem State.titheTry_touches (s : State) (site : Nat) (cls : Nat) (cost : Nat) :
    Touches (Touch.regs ||| Touch.tithes) s (State.titheTry s site cls cost).1 := by
  unfold State.titheTry
  repeat'
    first
      | with_reducible exact Touches.refl _ _
      | decide
      | split
      | with_reducible apply Touches.after (State.titheStall_touches ..)
      | with_reducible apply Touches.after (State.titheCharge_touches ..)
      | with_reducible apply Touches.after (State.titheRetry_touches ..)
theorem State.titheAsk_touches (s : State) (site : Nat) (cls : Nat) (cost : Nat) (id : Nat) :
    Touches (Touch.regs ||| Touch.tithes) s (State.titheAsk s site cls cost id) := by
  unfold State.titheAsk
  repeat'
    first
      | with_reducible exact Touches.refl _ _
      | with_reducible assumption
      | decide
      | (extract_lets +onlyGivenNames x; with_reducible refine Touches.cut (t := x) ?_ ?_; subst x; rotate_left; clear_value x; revert x; intro _ _; rotate_right)
      | (extract_lets +onlyGivenNames x; clear_value x; revert x; intro _)
      | split
      | with_reducible apply Touches.after (State.setTithe_touches ..)
      | with_reducible apply Touches.after (State.titheCharge_touches ..)
      | with_reducible apply Touches.after (State.titheStall_touches ..)

theorem State.titheReload_touches (s : State) (site : Nat) :
    Touches (Touch.regs ||| Touch.tithes) s (State.titheReload s site) := by
  unfold State.titheReload
  repeat'
    first
      | with_reducible exact Touches.refl _ _
      | with_reducible assumption
      | decide
      | split
      | (extract_lets +onlyGivenNames x; with_reducible refine Touches.cut (t := x) ?_ ?_; subst x; rotate_left; clear_value x; revert x; intro _ _; rotate_right)
      | (extract_lets +onlyGivenNames x; clear_value x; revert x; intro _)
      | with_reducible apply Touches.after (State.setF_touches ..)
      | with_reducible apply Touches.after (State.setTithe_touches ..)
      | with_reducible refine Touches.foldl ?_ fun _ _ => ?_
      | with_reducible apply Touches.after (State.titheStall_touches ..)
theorem execTitheRequest_touches (site : Site) (cls : Fin 9) (cost : BitVec 32) (id : BitVec 32) (s : State) :
    Answers (Touch.regs ||| Touch.tithes) s (execTitheRequest site cls cost id s) := by
  unfold execTitheRequest
  repeat'
    first
      | with_reducible apply Answers.next
      | with_reducible exact Touches.refl _ _
      | decide
      | with_reducible apply Touches.after (State.titheAsk_touches ..)

end Sys2Proof.Machine
end

