-- ==== Sys2Proof/Laws/Memory.lean ====
section
/-!
SUPPORT. What the operations of Machine/Memory.lean may touch.
-/

namespace Sys2Proof.Machine

theorem State.setStack_touches (s : State) (k : Nat) (x : StackMem) :
    Touches (Touch.stackMem) s (State.setStack s k x) := by
  unfold State.setStack
  repeat'
    first
      | with_reducible exact Touches.refl _ _
      | decide
      | with_reducible apply Touches.set_stackMem

theorem State.setBridge_touches (s : State) (b : Nat) (x : BridgeMem) :
    Touches (Touch.bridgeMem) s (State.setBridge s b x) := by
  unfold State.setBridge
  repeat'
    first
      | with_reducible exact Touches.refl _ _
      | decide
      | with_reducible apply Touches.set_bridgeMem

theorem State.granaryEmpty_touches (s : State) (site : Nat) (code : Nat) (scope : Nat) (index : Nat) :
    Touches (Touch.out ||| Touch.regs ||| Touch.log ||| Touch.logBase ||| Touch.bells ||| Touch.node |||
    Touch.reports) s (State.granaryEmpty s site code scope index) := by
  unfold State.granaryEmpty
  repeat'
    first
      | with_reducible exact Touches.refl _ _
      | decide
      | with_reducible apply Touches.after (State.raise_touches ..)

theorem State.groupParity_touches (s : State) (k : Nat) (port : Nat) (group : Nat) :
    Touches (Touch.regs ||| Touch.wear ||| Touch.stackMem ||| Touch.mapLag) s (State.groupParity s k port group) := by
  unfold State.groupParity
  repeat'
    first
      | with_reducible exact Touches.refl _ _
      | with_reducible assumption
      | decide
      | (extract_lets +onlyGivenNames x; with_reducible refine Touches.cut (t := x) ?_ ?_; subst x; rotate_left; clear_value x; revert x; intro _ _; rotate_right)
      | (extract_lets +onlyGivenNames x; clear_value x; revert x; intro _)
      | split
      | with_reducible apply Touches.after (State.bump_touches ..)
      | with_reducible apply Touches.after (State.wearUp_touches ..)
      | with_reducible apply Touches.after (State.setStack_touches ..)

theorem State.bondWear_touches (s : State) (k : Nat) (flaws : Flaws) :
    Touches (Touch.regs ||| Touch.wear ||| Touch.mapLag) s (State.bondWear s k flaws) := by
  unfold State.bondWear
  repeat'
    first
      | with_reducible exact Touches.refl _ _
      | decide
      | split
      | with_reducible apply Touches.after (State.wearUp_touches ..)
      | with_reducible refine Touches.foldl ?_ fun _ _ => ?_

theorem State.cacheTouch_touches (s : State) (k : Nat) (key : Nat) :
    Touches (Touch.stackMem) s (State.cacheTouch s k key) := by
  unfold State.cacheTouch
  repeat'
    first
      | with_reducible exact Touches.refl _ _
      | decide
      | (extract_lets +onlyGivenNames x; clear_value x; revert x; intro _)
      | with_reducible apply Touches.after (State.setStack_touches ..)

theorem State.cacheFill_touches (s : State) (k : Nat) (ctx : Nat) (b : Nat) (a : Nat) (data : List Byte) :
    Touches (Touch.stackMem) s (State.cacheFill s k ctx b a data) := by
  unfold State.cacheFill
  repeat'
    first
      | with_reducible exact Touches.refl _ _
      | decide
      | (extract_lets +onlyGivenNames x; clear_value x; revert x; intro _)
      | split
      | with_reducible apply Touches.after (State.cacheTouch_touches ..)
      | with_reducible apply Touches.after (State.setStack_touches ..)

theorem State.cacheDrop_touches (s : State) (k : Nat) (p : CacheLine → Bool) :
    Touches (Touch.stackMem) s (State.cacheDrop s k p) := by
  unfold State.cacheDrop
  repeat'
    first
      | with_reducible exact Touches.refl _ _
      | decide
      | (extract_lets +onlyGivenNames x; clear_value x; revert x; intro _)
      | with_reducible apply Touches.after (State.setStack_touches ..)

theorem State.unkeep_touches (s : State) (k : Nat) (b : Nat) (a : Nat) (n : Nat) :
    Touches (Touch.gws) s (State.unkeep s k b a n) := by
  unfold State.unkeep
  repeat'
    first
      | with_reducible exact Touches.refl _ _
      | with_reducible assumption
      | decide
      | (extract_lets +onlyGivenNames x; with_reducible refine Touches.cut (t := x) ?_ ?_; subst x; rotate_left; clear_value x; revert x; intro _ _; rotate_right)
      | (extract_lets +onlyGivenNames x; clear_value x; revert x; intro _)
      | split
      | with_reducible apply Touches.after (State.setGw_touches ..)

theorem State.cacheWrite_touches (s : State) (k : Nat) (ctx : Nat) (b : Nat) (a : Nat) (mask : Nat) (bs : List Byte) :
    Touches (Touch.gws ||| Touch.stackMem) s (State.cacheWrite s k ctx b a mask bs) := by
  unfold State.cacheWrite
  repeat'
    first
      | with_reducible exact Touches.refl _ _
      | with_reducible assumption
      | decide
      | (extract_lets +onlyGivenNames x; with_reducible refine Touches.cut (t := x) ?_ ?_; subst x; rotate_left; clear_value x; revert x; intro _ _; rotate_right)
      | (extract_lets +onlyGivenNames x; clear_value x; revert x; intro _)
      | split
      | with_reducible apply Touches.after (State.setStack_touches ..)
      | with_reducible apply Touches.after (State.unkeep_touches ..)
      | with_reducible refine Touches.foldl ?_ fun _ _ => ?_

theorem State.cacheLook_touches (s : State) (k : Nat) (ctx : Nat) (b : Nat) (a : Nat) (n : Nat) (flaws : Flaws) :
    Touches (Touch.out ||| Touch.regs ||| Touch.wear ||| Touch.log ||| Touch.logBase ||| Touch.bells |||
    Touch.node ||| Touch.stackMem ||| Touch.mapLag ||| Touch.reports) s (State.cacheLook s k ctx b a n flaws).1 := by
  unfold State.cacheLook
  repeat'
    first
      | with_reducible exact Touches.refl _ _
      | with_reducible assumption
      | decide
      | (extract_lets +onlyGivenNames x; with_reducible refine Touches.cut (t := x) ?_ ?_; subst x; rotate_left; clear_value x; revert x; intro _ _; rotate_right)
      | (extract_lets +onlyGivenNames x; clear_value x; revert x; intro _)
      | split
      | with_reducible apply Touches.after (State.bump_touches ..)
      | with_reducible apply Touches.after (State.bondWear_touches ..)
      | with_reducible apply Touches.after (State.groupParity_touches ..)
      | with_reducible apply Touches.after (State.raiseStatus_touches ..)
      | with_reducible apply Touches.after (State.setStack_touches ..)
      | with_reducible apply Touches.after (State.cacheTouch_touches ..)

theorem State.invalidate_touches (s : State) (p : InvPend) :
    Touches (Touch.regs ||| Touch.stackMem) s (State.invalidate s p) := by
  unfold State.invalidate
  repeat'
    first
      | with_reducible exact Touches.refl _ _
      | with_reducible assumption
      | decide
      | (extract_lets +onlyGivenNames x; with_reducible refine Touches.cut (t := x) ?_ ?_; subst x; rotate_left; clear_value x; revert x; intro _ _; rotate_right)
      | (extract_lets +onlyGivenNames x; clear_value x; revert x; intro _)
      | with_reducible apply Touches.after (State.cacheDrop_touches ..)
      | with_reducible apply Touches.after (State.bump_touches ..)

theorem State.sendInvAcks_touches (s : State) :
    Touches (Touch.out ||| Touch.regs ||| Touch.gws ||| Touch.invAcks) s (State.sendInvAcks s) := by
  unfold State.sendInvAcks
  repeat'
    first
      | with_reducible exact Touches.refl _ _
      | with_reducible assumption
      | decide
      | (extract_lets +onlyGivenNames x; with_reducible refine Touches.cut (t := x) ?_ ?_; subst x; rotate_left; clear_value x; revert x; intro _ _; rotate_right)
      | (extract_lets +onlyGivenNames x; clear_value x; revert x; intro _)
      | with_reducible apply Touches.after (State.send_touches ..)
      | with_reducible refine Touches.foldl ?_ fun _ _ => ?_
      | with_reducible apply Touches.set_invAcks

theorem execCacheInvalidation_touches (k : Stack) (s : State) :
    Answers (Touch.out ||| Touch.regs ||| Touch.gws ||| Touch.stackMem ||| Touch.invPend ||| Touch.invAcks) s (execCacheInvalidation k s) := by
  unfold execCacheInvalidation
  repeat'
    first
      | with_reducible apply Answers.next
      | with_reducible exact Touches.refl _ _
      | with_reducible assumption
      | decide
      | (extract_lets +onlyGivenNames x; with_reducible refine Answers.cut (t := x) ?_ ?_; subst x; rotate_left; clear_value x; revert x; intro _ _; rotate_right)
      | split
      | with_reducible apply Touches.after (State.sendInvAcks_touches ..)
      | with_reducible apply Touches.after (State.invalidate_touches ..)
      | with_reducible apply Touches.set_invPend

theorem State.startInvs_touches (s : State) (b : Nat) (a : Nat) (n : Nat) (id : Nat) :
    Touches (Touch.invPend) s (State.startInvs s b a n id) := by
  unfold State.startInvs
  repeat'
    first
      | with_reducible exact Touches.refl _ _
      | decide
      | (extract_lets +onlyGivenNames x; clear_value x; revert x; intro _)
      | with_reducible apply Touches.set_invPend

theorem execFrameGroupRetire_touches (k : Stack) (port : Fin 64) (group : Fin 4096) (bad : List Nat) (s : State) :
    Answers (Touch.out ||| Touch.regs ||| Touch.mem ||| Touch.grn ||| Touch.log ||| Touch.logBase ||| Touch.bells
    ||| Touch.node ||| Touch.stackMem ||| Touch.mapLag ||| Touch.reports) s (execFrameGroupRetire k port group bad s) := by
  unfold execFrameGroupRetire
  repeat'
    first
      | with_reducible apply Answers.next
      | with_reducible exact Touches.refl _ _
      | with_reducible assumption
      | decide
      | (extract_lets +onlyGivenNames x; with_reducible refine Answers.cut (t := x) ?_ ?_; subst x; rotate_left; clear_value x; revert x; intro _ _; rotate_right)
      | (extract_lets +onlyGivenNames x; clear_value x; revert x; intro _)
      | split
      | with_reducible apply Touches.after (State.setStack_touches ..)
      | with_reducible apply Touches.after (State.raise_touches ..)
      | with_reducible apply Touches.after (State.grnPut_touches ..)
      | with_reducible apply Touches.after (State.granaryEmpty_touches ..)
      | with_reducible apply Touches.after (State.writeMem_touches ..)
      | with_reducible refine Touches.foldl ?_ fun _ _ => ?_

theorem State.queuePage_touches (s : State) (b : Nat) (page : Nat) (uncorr : Bool) :
    Touches (Touch.out ||| Touch.regs ||| Touch.log ||| Touch.logBase ||| Touch.bells ||| Touch.node |||
    Touch.bridgeMem ||| Touch.reports) s (State.queuePage s b page uncorr) := by
  unfold State.queuePage
  repeat'
    first
      | with_reducible exact Touches.refl _ _
      | with_reducible assumption
      | decide
      | (extract_lets +onlyGivenNames x; with_reducible refine Touches.cut (t := x) ?_ ?_; subst x; rotate_left; clear_value x; revert x; intro _ _; rotate_right)
      | (extract_lets +onlyGivenNames x; clear_value x; revert x; intro _)
      | split
      | with_reducible apply Touches.after (State.setBridge_touches ..)
      | with_reducible apply Touches.after (State.raise_touches ..)

theorem State.correctedRead_touches (s : State) (b : Nat) (page : Nat) :
    Touches (Touch.out ||| Touch.regs ||| Touch.log ||| Touch.logBase ||| Touch.bells ||| Touch.node |||
    Touch.bridgeMem ||| Touch.reports) s (State.correctedRead s b page) := by
  unfold State.correctedRead
  repeat'
    first
      | with_reducible exact Touches.refl _ _
      | with_reducible assumption
      | decide
      | (extract_lets +onlyGivenNames x; with_reducible refine Touches.cut (t := x) ?_ ?_; subst x; rotate_left; clear_value x; revert x; intro _ _; rotate_right)
      | (extract_lets +onlyGivenNames x; clear_value x; revert x; intro _)
      | split
      | with_reducible apply Touches.after (State.bump_touches ..)
      | with_reducible apply Touches.after (State.setBridge_touches ..)
      | with_reducible apply Touches.after (State.queuePage_touches ..)

theorem State.hbmMoved_touches (s : State) (b : Nat) (n : Nat) :
    Touches (Touch.bridgeMem) s (State.hbmMoved s b n) := by
  unfold State.hbmMoved
  repeat'
    first
      | with_reducible exact Touches.refl _ _
      | decide
      | (extract_lets +onlyGivenNames x; clear_value x; revert x; intro _)
      | with_reducible apply Touches.after (State.setBridge_touches ..)

theorem State.severity_touches (s : State) (b : Nat) (here : Flaws) :
    Touches (Touch.out ||| Touch.regs ||| Touch.log ||| Touch.logBase ||| Touch.bells ||| Touch.node |||
      Touch.bridgeMem ||| Touch.reports) s (State.severity s b here) := by
  unfold State.severity
  repeat'
    first
      | with_reducible exact Touches.refl _ _
      | with_reducible assumption
      | decide
      | split
      | with_reducible apply Touches.after (State.bump_touches ..)
      | with_reducible apply Touches.after (State.correctedRead_touches ..)
      | with_reducible apply Touches.after (State.queuePage_touches ..)
      | with_reducible refine Touches.foldl ?_ fun _ _ => ?_

theorem State.hbmRead_touches (s : State) (b : Nat) (a : Nat) (n : Nat) (flaws : Flaws) (args : List Nat) :
    Touches (Touch.out ||| Touch.regs ||| Touch.log ||| Touch.logBase ||| Touch.bells ||| Touch.node |||
      Touch.bridgeMem ||| Touch.reports) s (State.hbmRead s b a n flaws args).1 := by
  unfold State.hbmRead
  repeat'
    first
      | with_reducible exact Touches.refl _ _
      | with_reducible assumption
      | decide
      | (extract_lets +onlyGivenNames x; with_reducible refine Touches.cut (t := x) ?_ ?_; subst x; rotate_left; clear_value x; revert x; intro _ _; rotate_right)
      | (extract_lets +onlyGivenNames x; clear_value x; revert x; intro _)
      | split
      | with_reducible apply Touches.after (State.hbmMoved_touches ..)
      | with_reducible apply Touches.after (State.raiseStatus_touches ..)
      | with_reducible apply Touches.after (State.severity_touches ..)
      | dsimp only

theorem State.coreStoreParity_touches (s : State) (k : Nat) (c : Nat) (n : Nat) :
    Touches (Touch.out ||| Touch.regs ||| Touch.wear ||| Touch.log ||| Touch.logBase ||| Touch.cores |||
    Touch.bells ||| Touch.node ||| Touch.retireQ ||| Touch.mapLag ||| Touch.reports) s (State.coreStoreParity s k c n) := by
  unfold State.coreStoreParity
  repeat'
    first
      | with_reducible exact Touches.refl _ _
      | decide
      | split
      | with_reducible apply Touches.after (State.coreFault_touches ..)
      | with_reducible apply Touches.after (State.bump_touches ..)

theorem State.readCheck_touches (s : State) (site : Nat) (a : Nat) (n : Nat) (flaws : Flaws) (leaves : Bool) (args : List Nat) :
    Touches (Touch.out ||| Touch.regs ||| Touch.wear ||| Touch.log ||| Touch.logBase ||| Touch.cores |||
    Touch.bells ||| Touch.node ||| Touch.stackMem ||| Touch.bridgeMem ||| Touch.retireQ |||
    Touch.mapLag ||| Touch.reports) s (State.readCheck s site a n flaws leaves args).1 := by
  unfold State.readCheck
  repeat'
    first
      | with_reducible exact Touches.refl _ _
      | with_reducible assumption
      | decide
      | (extract_lets +onlyGivenNames x; with_reducible refine Touches.cut (t := x) ?_ ?_; subst x; rotate_left; clear_value x; revert x; intro _ _; rotate_right)
      | (extract_lets +onlyGivenNames x; clear_value x; revert x; intro _)
      | split
      | with_reducible apply Touches.after (State.hbmRead_touches ..)
      | with_reducible apply Touches.after (State.groupParity_touches ..)
      | with_reducible apply Touches.after (State.bondWear_touches ..)
      | with_reducible apply Touches.after (State.raiseStatus_touches ..)
      | with_reducible apply Touches.after (State.coreStoreParity_touches ..)
      | with_reducible refine Touches.foldl ?_ fun _ _ => ?_

theorem State.nextMarked_touches (s : State) (b : Nat) :
    Touches (Touch.out ||| Touch.regs ||| Touch.log ||| Touch.logBase ||| Touch.bells ||| Touch.node |||
    Touch.bridgeMem ||| Touch.reports) s (State.nextMarked s b) := by
  unfold State.nextMarked
  repeat'
    first
      | with_reducible exact Touches.refl _ _
      | with_reducible assumption
      | decide
      | (extract_lets +onlyGivenNames x; with_reducible refine Touches.cut (t := x) ?_ ?_; subst x; rotate_left; clear_value x; revert x; intro _ _; rotate_right)
      | (extract_lets +onlyGivenNames x; clear_value x; revert x; intro _)
      | split
      | with_reducible apply Touches.after (State.setBridge_touches ..)
      | with_reducible apply Touches.after (State.queuePage_touches ..)

theorem State.retirePage_touches (s : State) (b : Nat) (q : PageQueued) (lines : Nat) :
    Touches (Touch.out ||| Touch.regs ||| Touch.mem ||| Touch.grn ||| Touch.log ||| Touch.logBase ||| Touch.bells
    ||| Touch.node ||| Touch.bridgeMem ||| Touch.mapLag ||| Touch.reports) s (State.retirePage s b q lines) := by
  unfold State.retirePage
  repeat'
    first
      | with_reducible exact Touches.refl _ _
      | with_reducible assumption
      | decide
      | (extract_lets +onlyGivenNames x; with_reducible refine Touches.cut (t := x) ?_ ?_; subst x; rotate_left; clear_value x; revert x; intro _ _; rotate_right)
      | (extract_lets +onlyGivenNames x; clear_value x; revert x; intro _)
      | split
      | with_reducible apply Touches.after (State.hbmMoved_touches ..)
      | with_reducible apply Touches.after (State.setBridge_touches ..)
      | with_reducible apply Touches.after (State.grnPut_touches ..)
      | with_reducible apply Touches.after (State.zeroMem_touches ..)
      | with_reducible apply Touches.after (State.raise_touches ..)
      | with_reducible apply Touches.after (State.granaryEmpty_touches ..)
      | with_reducible apply Touches.after (State.nextMarked_touches ..)
      | with_reducible refine Touches.foldl ?_ fun _ _ => ?_

theorem execPageRetire_touches (b : Bridge) (bad : BitVec 32) (s : State) :
    Answers (Touch.out ||| Touch.regs ||| Touch.mem ||| Touch.grn ||| Touch.log ||| Touch.logBase ||| Touch.bells
    ||| Touch.node ||| Touch.bridgeMem ||| Touch.pageBell ||| Touch.mapLag ||| Touch.reports) s (execPageRetire b bad s) := by
  unfold execPageRetire
  repeat'
    first
      | with_reducible apply Answers.next
      | with_reducible exact Touches.refl _ _
      | with_reducible assumption
      | decide
      | (extract_lets +onlyGivenNames x; with_reducible refine Answers.cut (t := x) ?_ ?_; subst x; rotate_left; clear_value x; revert x; intro _ _; rotate_right)
      | (extract_lets +onlyGivenNames x; clear_value x; revert x; intro _)
      | split
      | with_reducible apply Touches.after (State.retirePage_touches ..)
      | with_reducible apply Touches.after (State.hbmMoved_touches ..)
      | with_reducible apply Touches.after (State.setBridge_touches ..)
      | with_reducible apply Touches.set_pageBell

theorem State.ackMemLost_touches (s : State) (b : Nat) :
    Touches (Touch.regs ||| Touch.grn ||| Touch.mapLag) s (State.ackMemLost s b) := by
  unfold State.ackMemLost
  repeat'
    first
      | with_reducible exact Touches.refl _ _
      | with_reducible assumption
      | decide
      | (extract_lets +onlyGivenNames x; with_reducible refine Touches.cut (t := x) ?_ ?_; subst x; rotate_left; clear_value x; revert x; intro _ _; rotate_right)
      | (extract_lets +onlyGivenNames x; clear_value x; revert x; intro _)
      | split
      | with_reducible apply Touches.after (State.mapChanged_touches ..)
      | with_reducible apply Touches.after (State.setF_touches ..)
      | with_reducible apply Touches.set_grn

theorem execMemAckLost_touches (b : Bridge) (s : State) :
    Answers (Touch.regs ||| Touch.grn ||| Touch.mapLag) s (execMemAckLost b s) := by
  unfold execMemAckLost
  repeat'
    first
      | with_reducible apply Answers.next
      | with_reducible exact Touches.refl _ _
      | decide
      | with_reducible apply Touches.after (State.ackMemLost_touches ..)

theorem State.setFix_touches (s : State) (b : Nat) (es : List FixEntry) :
    Touches (Touch.regs ||| Touch.bridgeMem) s (State.setFix s b es) := by
  unfold State.setFix
  repeat'
    first
      | with_reducible exact Touches.refl _ _
      | with_reducible assumption
      | decide
      | (extract_lets +onlyGivenNames x; with_reducible refine Touches.cut (t := x) ?_ ?_; subst x; rotate_left; clear_value x; revert x; intro _ _; rotate_right)
      | (extract_lets +onlyGivenNames x; clear_value x; revert x; intro _)
      | with_reducible apply Touches.after (State.setBridge_touches ..)
      | with_reducible apply Touches.after (State.setF_touches ..)

theorem State.fixTail_touches (s : State) (b : Nat) (n : Nat) :
    Touches (Touch.bridgeMem) s (State.fixTail s b n) := by
  unfold State.fixTail
  repeat'
    first
      | with_reducible exact Touches.refl _ _
      | with_reducible assumption
      | decide
      | split
      | with_reducible apply Touches.after (State.setBridge_touches ..)

theorem State.fixTake_touches (s : State) (b : Nat) (e : FixEntry) :
    Touches (Touch.regs ||| Touch.bridgeMem) s (State.fixTake s b e) := by
  unfold State.fixTake
  repeat'
    first
      | with_reducible exact Touches.refl _ _
      | with_reducible assumption
      | decide
      | split
      | with_reducible apply Touches.after (State.fixTail_touches ..)
      | with_reducible apply Touches.after (State.hbmMoved_touches ..)
      | with_reducible apply Touches.after (State.setFix_touches ..)

theorem State.fixAppend_touches {s : State} {b bell off : Nat} {bytes : List Byte} {t : State} (h : s.fixAppend b bell off bytes = some t) :
    Touches (Touch.regs ||| Touch.bridgeMem) s t := by
  unfold State.fixAppend at h
  dsimp only at h
  split at h
  · cases h
    exact (State.fixTake_touches ..).mono (by decide)
  · cases h

theorem State.fixDiscard_touches (s : State) (b : Nat) (n : Nat) :
    Touches (Touch.regs ||| Touch.bridgeMem) s (State.fixDiscard s b n) := by
  unfold State.fixDiscard
  repeat'
    first
      | with_reducible exact Touches.refl _ _
      | decide
      | (extract_lets +onlyGivenNames x; clear_value x; revert x; intro _)
      | split
      | with_reducible apply Touches.after (State.setFix_touches ..)

theorem State.fixApplyOne_touches (s : State) (b : Nat) (flaws : Flaws) (e : FixEntry) :
    Touches (Touch.out ||| Touch.regs ||| Touch.mem ||| Touch.log ||| Touch.logBase ||| Touch.bells |||
      Touch.node ||| Touch.bridgeMem ||| Touch.reports) s (State.fixApplyOne s b flaws e) := by
  unfold State.fixApplyOne
  repeat'
    first
      | with_reducible exact Touches.refl _ _
      | with_reducible assumption
      | decide
      | (extract_lets +onlyGivenNames x; with_reducible refine Touches.cut (t := x) ?_ ?_; subst x; rotate_left; clear_value x; revert x; intro _ _; rotate_right)
      | (extract_lets +onlyGivenNames x; clear_value x; revert x; intro _)
      | split
      | with_reducible apply Touches.after (State.hbmMoved_touches ..)
      | with_reducible apply Touches.after (State.raise_touches ..)
      | with_reducible apply Touches.after (State.setF_touches ..)
      | with_reducible apply Touches.after (State.severity_touches ..)
      | with_reducible apply Touches.after (State.writeMem_touches ..)

theorem State.fixClash_touches (s : State) (b : Nat) (n : Nat) :
    Touches (Touch.out ||| Touch.regs ||| Touch.log ||| Touch.logBase ||| Touch.bells ||| Touch.node |||
      Touch.reports) s (State.fixClash s b n) := by
  unfold State.fixClash
  repeat'
    first
      | with_reducible exact Touches.refl _ _
      | with_reducible assumption
      | decide
      | split
      | with_reducible apply Touches.after (State.bump_touches ..)
      | with_reducible apply Touches.after (State.raise_touches ..)

theorem State.fixApply_touches (s : State) (b : Nat) (n : Nat) (flaws : Flaws) :
    Touches (Touch.out ||| Touch.regs ||| Touch.mem ||| Touch.log ||| Touch.logBase ||| Touch.bells |||
      Touch.node ||| Touch.bridgeMem ||| Touch.reports) s (State.fixApply s b n flaws) := by
  unfold State.fixApply
  repeat'
    first
      | with_reducible exact Touches.refl _ _
      | with_reducible assumption
      | decide
      | (extract_lets +onlyGivenNames x; with_reducible refine Touches.cut (t := x) ?_ ?_; subst x; rotate_left; clear_value x; revert x; intro _ _; rotate_right)
      | (extract_lets +onlyGivenNames x; clear_value x; revert x; intro _)
      | split
      | with_reducible apply Touches.after (State.fixApplyOne_touches ..)
      | with_reducible apply Touches.after (State.fixClash_touches ..)
      | with_reducible apply Touches.after (State.setFix_touches ..)
      | with_reducible refine Touches.foldl ?_ fun _ _ => ?_

theorem State.writeKept_touches (s : State) (site : Nat) (lost : List Nat) (all : Bool) (a mask : Nat) (bs : List Byte) :
    Touches Touch.mem s (State.writeKept s site lost all a mask bs) := by
  induction bs generalizing s a mask with
  | nil => exact Touches.refl _ _
  | cons b bs ih =>
    unfold State.writeKept
    refine Touches.trans ?_ (ih ..)
    split
    · exact State.writeMem_touches ..
    · exact Touches.refl _ _

theorem State.conflictLost_touches (s : State) (site : Nat) (first : List Nat) (args : List Nat) :
    Touches (Touch.out ||| Touch.regs ||| Touch.log ||| Touch.logBase ||| Touch.bells ||| Touch.node |||
      Touch.reports) s (State.conflictLost s site first args) := by
  unfold State.conflictLost
  repeat'
    first
      | with_reducible exact Touches.refl _ _
      | with_reducible assumption
      | decide
      | split
      | with_reducible apply Touches.after (State.bump_touches ..)
      | with_reducible apply Touches.after (State.raise_touches ..)

theorem State.conflict_touches (s : State) (site : Nat) (o : Nat) (met : Meet) (args : List Nat) :
    Touches (Touch.out ||| Touch.regs ||| Touch.log ||| Touch.logBase ||| Touch.bells ||| Touch.node |||
      Touch.reports) s (State.conflict s site o met args).1 := by
  unfold State.conflict
  repeat'
    first
      | with_reducible exact Touches.refl _ _
      | with_reducible assumption
      | decide
      | (extract_lets +onlyGivenNames x; with_reducible refine Touches.cut (t := x) ?_ ?_; subst x; rotate_left; clear_value x; revert x; intro _ _; rotate_right)
      | (extract_lets +onlyGivenNames x; clear_value x; revert x; intro _)
      | split
      | with_reducible apply Touches.after (State.conflictLost_touches ..)
      | with_reducible apply Touches.after (State.raise_touches ..)
      | dsimp only

theorem State.meetings_touches (s : State) (site : Nat) (a : Nat) (n : Nat) (args : List Nat) (mets : Meets) :
    Touches (Touch.out ||| Touch.regs ||| Touch.log ||| Touch.logBase ||| Touch.bells ||| Touch.node |||
      Touch.reports) s (State.meetings s site a n args mets).1 := by
  unfold State.meetings
  repeat'
    first
      | with_reducible exact Touches.refl _ _
      | with_reducible assumption
      | decide
      | split
      | with_reducible refine Touches.of_fst ‹State.conflict _ _ _ _ _ = _› (Touches.after (State.conflict_touches ..) ?_ ?_)
      | with_reducible apply Touches.after (State.conflict_touches ..)
      | with_reducible refine Touches.foldl ?_ fun _ _ => ?_
      | with_reducible refine Touches.foldl_fst ?_ fun _ _ => ?_
      | dsimp only

theorem State.portWrite_touches (s : State) (site : Nat) (a : Nat) (mask : Nat) (args : List Nat)
    (mets : Meets) (bs : List Byte) :
    Touches (Touch.out ||| Touch.regs ||| Touch.mem ||| Touch.log ||| Touch.logBase ||| Touch.bells |||
      Touch.node ||| Touch.reports) s (State.portWrite s site a mask args mets bs).1 := by
  unfold State.portWrite
  repeat'
    first
      | with_reducible exact Touches.refl _ _
      | with_reducible assumption
      | decide
      | split
      | with_reducible refine Touches.of_fst ‹State.meetings _ _ _ _ _ _ = _› (Touches.after (State.meetings_touches ..) ?_ ?_)
      | with_reducible apply Touches.after (State.meetings_touches ..)
      | with_reducible apply Touches.after (State.writeKept_touches ..)
      | with_reducible apply Touches.after (State.writeMasked_touches ..)
      | with_reducible apply Touches.after (State.writeMem_touches ..)
      | dsimp only

theorem State.invNow_touches (s : State) (b : Nat) (a : Nat) (n : Nat) :
    Touches (Touch.regs ||| Touch.stackMem) s (State.invNow s b a n) := by
  unfold State.invNow
  repeat'
    first
      | with_reducible exact Touches.refl _ _
      | with_reducible assumption
      | decide
      | (extract_lets +onlyGivenNames x; with_reducible refine Touches.cut (t := x) ?_ ?_; subst x; rotate_left; clear_value x; revert x; intro _ _; rotate_right)
      | (extract_lets +onlyGivenNames x; clear_value x; revert x; intro _)
      | split
      | with_reducible apply Touches.after (State.invalidate_touches ..)
      | with_reducible refine Touches.foldl ?_ fun _ _ => ?_

theorem State.fillRefused_touches (s : State) (k : Nat) (c : Nat) (why : Nat) :
    Touches (Touch.out ||| Touch.regs ||| Touch.log ||| Touch.logBase ||| Touch.bells ||| Touch.node |||
      Touch.reports) s (State.fillRefused s k c why) := by
  unfold State.fillRefused
  repeat'
    first
      | with_reducible exact Touches.refl _ _
      | with_reducible assumption
      | decide
      | split
      | with_reducible apply Touches.after (State.bump_touches ..)
      | with_reducible apply Touches.after (State.raise_touches ..)

end Sys2Proof.Machine
end

