-- ==== Sys2Proof/Laws/Sequencer.lean ====
section
/-!
SUPPORT. What the operations of Machine/Sequencer.lean may touch.
-/

namespace Sys2Proof.Machine

theorem State.syncSeq_touches (s : State) (k : Nat) (c : Nat) :
    Touches (Touch.regs) s (State.syncSeq s k c) := by
  unfold State.syncSeq
  repeat'
    first
      | with_reducible exact Touches.refl _ _
      | with_reducible assumption
      | decide
      | (extract_lets +onlyGivenNames x; with_reducible refine Touches.cut (t := x) ?_ ?_; subst x; rotate_left; clear_value x; revert x; intro _ _; rotate_right)
      | (extract_lets +onlyGivenNames x; clear_value x; revert x; intro _)
      | split
      | with_reducible apply Touches.after (State.setF_touches ..)

theorem State.endWait_touches (s : State) (k : Nat) (c : Nat) :
    Touches (Touch.cores) s (State.endWait s k c) := by
  unfold State.endWait
  repeat'
    first
      | with_reducible exact Touches.refl _ _
      | decide
      | (extract_lets +onlyGivenNames x; clear_value x; revert x; intro _)
      | split
      | with_reducible apply Touches.after (State.setCore_touches ..)

theorem State.slotWait_touches (s : State) (k : Nat) (c : Nat) :
    Touches (Touch.cores) s (State.slotWait s k c) := by
  unfold State.slotWait
  repeat'
    first
      | with_reducible exact Touches.refl _ _
      | decide
      | (extract_lets +onlyGivenNames x; clear_value x; revert x; intro _)
      | split
      | with_reducible apply Touches.after (State.setCore_touches ..)

theorem State.dmaWrite_touches (s : State) (site : Nat) (issuer : Nat) (vc : Nat) (ctx : Nat) (g : Nat) (mask : Nat) (bs : List Byte) (why : Purpose) :
    Touches (Touch.out ||| Touch.regs ||| Touch.log ||| Touch.logBase ||| Touch.bells ||| Touch.node |||
    Touch.gws ||| Touch.reports) s (State.dmaWrite s site issuer vc ctx g mask bs why) := by
  unfold State.dmaWrite
  repeat'
    first
      | with_reducible exact Touches.refl _ _
      | decide
      | (extract_lets +onlyGivenNames x; clear_value x; revert x; intro _)
      | split
      | with_reducible apply Touches.after (State.raiseStatus_touches ..)
      | with_reducible apply Touches.after (State.sendTagged_touches ..)

theorem State.dmaRead_touches (s : State) (site : Nat) (issuer : Nat) (vc : Nat) (ctx : Nat) (g : Nat) (len : Nat) (why : Purpose) :
    Touches (Touch.out ||| Touch.regs ||| Touch.log ||| Touch.logBase ||| Touch.bells ||| Touch.node |||
    Touch.gws ||| Touch.reports) s (State.dmaRead s site issuer vc ctx g len why) := by
  unfold State.dmaRead
  repeat'
    first
      | with_reducible exact Touches.refl _ _
      | decide
      | (extract_lets +onlyGivenNames x; clear_value x; revert x; intro _)
      | split
      | with_reducible apply Touches.after (State.raiseStatus_touches ..)
      | with_reducible apply Touches.after (State.sendTagged_touches ..)

theorem State.traceOwn_touches (s : State) (k : Nat) (off : Nat) (bs : List Byte) :
    Touches (Touch.out ||| Touch.regs ||| Touch.mem ||| Touch.log ||| Touch.logBase ||| Touch.bells |||
      Touch.node ||| Touch.reports) s (State.traceOwn s k off bs) := by
  unfold State.traceOwn
  repeat'
    first
      | with_reducible exact Touches.refl _ _
      | with_reducible assumption
      | decide
      | split
      | with_reducible apply Touches.after (State.fillRefused_touches ..)
      | with_reducible apply Touches.after (State.raiseStatus_touches ..)
      | with_reducible apply Touches.after (State.writeMem_touches ..)

theorem State.trace_touches (s : State) (k : Nat) (c : Nat) (event : Nat) (d : BitVec 512) (idx : Nat) :
    Touches (Touch.out ||| Touch.regs ||| Touch.mem ||| Touch.log ||| Touch.logBase ||| Touch.bells |||
    Touch.node ||| Touch.tithes ||| Touch.gws ||| Touch.tracePos ||| Touch.reports) s (State.trace s k c event d idx) := by
  unfold State.trace
  repeat'
    first
      | with_reducible exact Touches.refl _ _
      | with_reducible assumption
      | decide
      | (extract_lets +onlyGivenNames x; with_reducible refine Touches.cut (t := x) ?_ ?_; subst x; rotate_left; clear_value x; revert x; intro _ _; rotate_right)
      | (extract_lets +onlyGivenNames x; clear_value x; revert x; intro _)
      | split
      | with_reducible refine Touches.of_fst ‹State.titheTry _ _ _ _ = _› (Touches.after (State.titheTry_touches ..) ?_ ?_)
      | with_reducible apply Touches.after (State.traceOwn_touches ..)
      | with_reducible apply Touches.after (State.dmaWrite_touches ..)
      | with_reducible apply Touches.after (State.bump_touches ..)
      | with_reducible apply Touches.set_tracePos

end Sys2Proof.Machine
end

