-- ==== Sys2Proof/Laws/Slots.lean ====
section
/-!
SUPPORT. What the operations of Machine/Slots.lean may touch.
-/

namespace Sys2Proof.Machine

theorem State.fillTake_touches (s : State) (k : Nat) (c : Nat) (ctx : Nat) (bytes : List Byte) :
    Touches (Touch.out ||| Touch.regs ||| Touch.log ||| Touch.logBase ||| Touch.cores ||| Touch.bells
      ||| Touch.node ||| Touch.reports) s (State.fillTake s k c ctx bytes) := by
  unfold State.fillTake
  repeat'
    first
      | with_reducible exact Touches.refl _ _
      | with_reducible assumption
      | decide
      | (extract_lets +onlyGivenNames x; with_reducible refine Touches.cut (t := x) ?_ ?_; subst x; rotate_left; clear_value x; revert x; intro _ _; rotate_right)
      | (extract_lets +onlyGivenNames x; clear_value x; revert x; intro _)
      | split
      | with_reducible apply Touches.after (State.endWait_touches ..)
      | with_reducible apply Touches.after (State.fillRefused_touches ..)
      | with_reducible apply Touches.after (State.setCore_touches ..)
      | with_reducible apply Touches.after (State.setF_touches ..)

theorem State.flightHeld_touches (s : State) (k : Nat) (writer : Option (Nat × Nat)) :
    Touches (Touch.cores) s (State.flightHeld s k writer) := by
  unfold State.flightHeld
  repeat'
    first
      | with_reducible exact Touches.refl _ _
      | with_reducible assumption
      | decide
      | split
      | with_reducible apply Touches.after (State.setCore_touches ..)

theorem State.fillArrives_touches (s : State) (k : Nat) (c : Nat) (ctx : Nat) (bytes : List Byte)
    (back : Option (Hop × Packet)) (writer : Option (Nat × Nat)) :
    Touches (Touch.out ||| Touch.regs ||| Touch.log ||| Touch.logBase ||| Touch.cores ||| Touch.bells
      ||| Touch.node ||| Touch.reports) s (State.fillArrives s k c ctx bytes back writer) := by
  unfold State.fillArrives
  repeat'
    first
      | with_reducible exact Touches.refl _ _
      | with_reducible assumption
      | decide
      | split
      | with_reducible apply Touches.after (State.fillTake_touches ..)
      | with_reducible apply Touches.after (State.flightHeld_touches ..)
      | with_reducible apply Touches.after (State.setCore_touches ..)

theorem State.fillWrite_touches (s : State) (k : Nat) (t : Nat) (ctx : Nat) (a : Nat) (mc : Bool)
    (bs : List Byte) (back : Option (Hop × Packet)) (writer : Option (Nat × Nat)) :
    Touches (Touch.out ||| Touch.regs ||| Touch.log ||| Touch.logBase ||| Touch.cores ||| Touch.bells
      ||| Touch.node ||| Touch.reports) s (State.fillWrite s k t ctx a mc bs back writer) := by
  unfold State.fillWrite
  repeat'
    first
      | with_reducible exact Touches.refl _ _
      | with_reducible assumption
      | decide
      | split
      | with_reducible apply Touches.after (State.fillArrives_touches ..)
      | with_reducible apply Touches.after (State.fillRefused_touches ..)

theorem State.ownWrite_touches (s : State) (k c serial a : Nat) (mets : Meets) (bs : List Byte) :
    Touches (Touch.out ||| Touch.regs ||| Touch.mem ||| Touch.log ||| Touch.logBase ||| Touch.cores |||
      Touch.bells ||| Touch.node ||| Touch.reports) s (State.ownWrite s k c serial a mets bs).1 := by
  unfold State.ownWrite
  repeat'
    first
      | with_reducible exact Touches.refl _ _
      | with_reducible assumption
      | decide
      | (extract_lets +onlyGivenNames x; with_reducible refine Touches.cut (t := x) ?_ ?_; subst x; rotate_left; clear_value x; revert x; intro _ _; rotate_right)
      | (extract_lets +onlyGivenNames x; clear_value x; revert x; intro _)
      | split
      | with_reducible apply Touches.after (State.fillWrite_touches ..)
      | with_reducible refine Touches.of_fst ‹State.portWrite _ _ _ _ _ _ _ = _› (Touches.after (State.portWrite_touches ..) ?_ ?_)
      | with_reducible apply Touches.after (State.portWrite_touches ..)
      | dsimp only

end Sys2Proof.Machine
end

