-- ==== Sys2Proof/Laws/Transfers.lean ====
section
/-!
SUPPORT. What the operations of Machine/Transfers.lean may touch.
-/

namespace Sys2Proof.Machine

theorem State.issueFlight_touches (s : State) (k : Nat) (c : Nat) (d : BitVec 512) (left : Nat)
    (todo : List Piece) (failed : List Nat) :
    Touches (Touch.out ||| Touch.regs ||| Touch.mem ||| Touch.log ||| Touch.logBase ||| Touch.cores |||
      Touch.bells ||| Touch.node ||| Touch.tithes ||| Touch.gws ||| Touch.tracePos ||| Touch.reports)
      s (State.issueFlight s k c d left todo failed) := by
  unfold State.issueFlight
  repeat'
    first
      | with_reducible exact Touches.refl _ _
      | with_reducible assumption
      | decide
      | (extract_lets +onlyGivenNames x; with_reducible refine Touches.cut (t := x) ?_ ?_; subst x; rotate_left; clear_value x; revert x; intro _ _; rotate_right)
      | (extract_lets +onlyGivenNames x; clear_value x; revert x; intro _)
      | split
      | with_reducible apply Touches.after (State.setCore_touches ..)
      | with_reducible apply Touches.after (State.trace_touches ..)

theorem State.issue_touches (s : State) (k : Nat) (c : Nat) (d : BitVec 512) (left : Nat) (todo :
    List Piece) (failed : List Nat) :
    Touches (Touch.out ||| Touch.regs ||| Touch.mem ||| Touch.log ||| Touch.logBase ||| Touch.cores |||
      Touch.bells ||| Touch.node ||| Touch.tithes ||| Touch.gws ||| Touch.tracePos ||| Touch.reports)
      s (State.issue s k c d left todo failed) := by
  unfold State.issue
  repeat'
    first
      | with_reducible exact Touches.refl _ _
      | with_reducible assumption
      | decide
      | split
      | with_reducible apply Touches.after (State.issueFlight_touches ..)
      | with_reducible apply Touches.after (State.slotWait_touches ..)
      | with_reducible apply Touches.after (State.syncSeq_touches ..)

theorem State.finish_touches (s : State) (k : Nat) (c : Nat) (serial : Nat) :
    Touches (Touch.out ||| Touch.regs ||| Touch.mem ||| Touch.log ||| Touch.logBase ||| Touch.cores |||
    Touch.bells ||| Touch.node ||| Touch.tithes ||| Touch.gws ||| Touch.tracePos ||| Touch.reports) s (State.finish s k c serial) := by
  unfold State.finish
  repeat'
    first
      | with_reducible exact Touches.refl _ _
      | with_reducible assumption
      | decide
      | (extract_lets +onlyGivenNames x; with_reducible refine Touches.cut (t := x) ?_ ?_; subst x; rotate_left; clear_value x; revert x; intro _ _; rotate_right)
      | (extract_lets +onlyGivenNames x; clear_value x; revert x; intro _)
      | split
      | with_reducible apply Touches.after (State.setCore_touches ..)
      | with_reducible apply Touches.after (State.raiseToken_touches ..)
      | with_reducible apply Touches.after (State.syncSeq_touches ..)
      | with_reducible apply Touches.after (State.trace_touches ..)

theorem State.failFlight_touches (s : State) (k : Nat) (c : Nat) (serial : Nat) (code : Nat) :
    Touches (Touch.out ||| Touch.regs ||| Touch.mem ||| Touch.log ||| Touch.logBase ||| Touch.cores |||
    Touch.bells ||| Touch.node ||| Touch.tithes ||| Touch.gws ||| Touch.tracePos ||| Touch.reports) s (State.failFlight s k c serial code) := by
  unfold State.failFlight
  repeat'
    first
      | with_reducible exact Touches.refl _ _
      | decide
      | split
      | with_reducible apply Touches.after (State.setCore_touches ..)
      | with_reducible apply Touches.after (State.trace_touches ..)
      | with_reducible apply Touches.after (State.raise_touches ..)

theorem State.tryFinish_touches (s : State) (k : Nat) (c : Nat) (serial : Nat) :
    Touches (Touch.out ||| Touch.regs ||| Touch.mem ||| Touch.log ||| Touch.logBase ||| Touch.cores |||
    Touch.bells ||| Touch.node ||| Touch.tithes ||| Touch.gws ||| Touch.tracePos ||| Touch.reports) s (State.tryFinish s k c serial) := by
  unfold State.tryFinish
  repeat'
    first
      | with_reducible exact Touches.refl _ _
      | decide
      | split
      | with_reducible apply Touches.after (State.finish_touches ..)

theorem State.waitOver_touches (s : State) (k : Nat) (c : Nat) (serial : Nat) :
    Touches (Touch.out ||| Touch.regs ||| Touch.mem ||| Touch.log ||| Touch.logBase ||| Touch.cores |||
    Touch.bells ||| Touch.node ||| Touch.tithes ||| Touch.gws ||| Touch.tracePos ||| Touch.reports) s (State.waitOver s k c serial) := by
  unfold State.waitOver
  repeat'
    first
      | with_reducible exact Touches.refl _ _
      | decide
      | split
      | with_reducible apply Touches.after (State.syncSeq_touches ..)
      | with_reducible apply Touches.after (State.setCore_touches ..)
      | with_reducible apply Touches.after (State.finish_touches ..)

theorem State.sendRead_touches {s : State} {k c serial : Nat} {pk : Packet} {len : Nat} {why : Purpose} {t : State} (h : s.sendRead k c serial pk len why = some t) :
    Touches (Touch.out ||| Touch.regs ||| Touch.cores ||| Touch.gws) s t := by
  unfold State.sendRead at h
  split at h
  · cases h
  · next s' pk' he =>
    have h1 := State.allocTag_touches he
    split at h
    · cases h; exact h1.mono (by decide)
    · cases h
      exact (State.send_touches ..).after ((State.setCore_touches ..).after (h1.mono (by decide)) (by decide)) (by decide)

theorem State.setTodo_touches (s : State) (k : Nat) (c : Nat) (serial : Nat) (todo : List Piece) :
    Touches (Touch.cores) s (State.setTodo s k c serial todo) := by
  unfold State.setTodo
  repeat'
    first
      | with_reducible exact Touches.refl _ _
      | decide
      | split
      | with_reducible apply Touches.after (State.setCore_touches ..)

theorem State.writeLocal_touches (s : State) (k : Nat) (c : Nat) (serial : Nat) (g : Nat) (mets :
    Meets) (bs : List Byte) :
    Touches (Touch.out ||| Touch.regs ||| Touch.mem ||| Touch.log ||| Touch.logBase ||| Touch.cores |||
      Touch.bells ||| Touch.node ||| Touch.tithes ||| Touch.gws ||| Touch.tracePos ||| Touch.reports)
      s (State.writeLocal s k c serial g mets bs) := by
  unfold State.writeLocal
  repeat'
    first
      | with_reducible exact Touches.refl _ _
      | with_reducible assumption
      | decide
      | split
      | with_reducible apply Touches.after (State.failFlight_touches ..)
      | with_reducible refine Touches.of_fst ‹State.ownWrite _ _ _ _ _ _ _ = _› (Touches.after (State.ownWrite_touches ..) ?_ ?_)
      | with_reducible apply Touches.after (State.ownWrite_touches ..)

theorem State.deliver_touches (s : State) (k : Nat) (c : Nat) (serial : Nat) (dst : Nat) (spec :
    Bool) (mets : Meets) (bs : List Byte) :
    Touches (Touch.out ||| Touch.regs ||| Touch.mem ||| Touch.log ||| Touch.logBase ||| Touch.cores |||
      Touch.bells ||| Touch.node ||| Touch.tithes ||| Touch.gws ||| Touch.tracePos ||| Touch.reports)
      s (State.deliver s k c serial dst spec mets bs) := by
  unfold State.deliver
  repeat'
    first
      | with_reducible exact Touches.refl _ _
      | with_reducible assumption
      | decide
      | (extract_lets +onlyGivenNames x; with_reducible refine Touches.cut (t := x) ?_ ?_; subst x; rotate_left; clear_value x; revert x; intro _ _; rotate_right)
      | (extract_lets +onlyGivenNames x; clear_value x; revert x; intro _)
      | split
      | with_reducible apply Touches.after (State.setCore_touches ..)
      | with_reducible apply Touches.after (State.writeLocal_touches ..)

theorem State.pumpCached_touches {s : State} {k c serial : Nat} {f : Flight} {p : Piece} {l : List Piece} {t : State} (h : s.pumpCached k c serial f p l = some t) :
    Touches (Touch.out ||| Touch.regs ||| Touch.mem ||| Touch.wear ||| Touch.log ||| Touch.logBase |||
    Touch.cores ||| Touch.bells ||| Touch.node ||| Touch.tithes ||| Touch.gws ||| Touch.tracePos |||
    Touch.stackMem ||| Touch.mapLag ||| Touch.reports) s t := by
  unfold State.pumpCached at h
  dsimp only at h
  revert h
  generalize (if (s.cacheFind k _ _ _).isSome = true then _ else 256) = room
  intro h
  split at h
  · cases h
  · revert h
    generalize (if min p.len (256 - gOff p.src % 256) = p.len then l else _) = l'
    intro h
    have h1 := State.cacheLook_touches s k (s.core k c).ctx (gSite p.src) (gOff p.src) (min p.len (256 - gOff p.src % 256)) f.flaws
    split at h
    · next he =>
      rw [he] at h1
      cases h
      exact (State.deliver_touches ..).after ((State.setTodo_touches ..).after (h1.mono (by decide)) (by decide)) (by decide)
    · next he =>
      rw [he] at h1
      cases h
      split
      · exact (State.setTodo_touches ..).after (h1.mono (by decide)) (by decide)
      · exact (State.failFlight_touches ..).after ((State.setTodo_touches ..).after (h1.mono (by decide)) (by decide)) (by decide)
    · next he =>
      rw [he] at h1
      exact (State.sendRead_touches h).after ((State.setTodo_touches ..).after (h1.mono (by decide)) (by decide)) (by decide)

theorem State.pumpSent_touches {s : State} {k c serial : Nat} {f : Flight} {rd : Bool} {p : Piece} {l : List Piece} {t : State} (h : s.pumpSent k c serial f rd p l = some t) :
    Touches (Touch.out ||| Touch.regs ||| Touch.cores ||| Touch.gws ||| Touch.stackMem) s t := by
  unfold State.pumpSent at h
  dsimp only at h
  split at h
  · cases h
  · have h1 : Touches (Touch.gws ||| Touch.stackMem) s
        (if !rd && decide (dOp f.desc = 3) && decide (gPkg (if rd then p.src else p.dst) = s.pkg) &&
            decide (siteKind (gSite (if rd then p.src else p.dst)) = .bridge) then
          s.cacheWrite k (s.core k c).ctx (gSite (if rd then p.src else p.dst)) (gOff (if rd then p.src else p.dst)) 0
            (s.piecePacket k c f p).payload else s) := by
      exact Touches.ite (State.cacheWrite_touches ..) (Touches.refl _ _)
    revert h h1
    generalize (if !rd && decide (dOp f.desc = 3) && _ && _ then _ else s) = u
    intro h h1
    have h2 := (State.setTodo_touches u k c serial l).after (h1.mono (qs := _) (ps := (Touch.out ||| Touch.regs ||| Touch.cores ||| Touch.gws ||| Touch.stackMem)) (by decide)) (by decide)
    split at h
    · exact (State.sendRead_touches h).after h2 (by decide)
    · cases h; exact (State.send_touches ..).after h2 (by decide)

theorem State.pumpOne_touches {s : State} {k c serial : Nat} {t : State} (h : s.pumpOne k c serial = some t) :
    Touches (Touch.out ||| Touch.regs ||| Touch.mem ||| Touch.wear ||| Touch.log ||| Touch.logBase |||
      Touch.cores ||| Touch.bells ||| Touch.node ||| Touch.tithes ||| Touch.gws ||| Touch.tracePos |||
      Touch.stackMem ||| Touch.mapLag ||| Touch.reports) s t := by
  unfold State.pumpOne at h
  dsimp only at h
  split at h
  · cases h
  · split at h
    · cases h
    · split at h
      · cases h
      · split at h
        · cases h
          exact (State.failFlight_touches ..).after ((State.setTodo_touches ..).mono (by decide)) (by decide)
        · split at h
          · exact State.pumpCached_touches h
          · exact (State.pumpSent_touches h).mono (by decide)

theorem State.pump_touches (s : State) (k : Nat) (c : Nat) (serial : Nat) (x : Nat) :
    Touches (Touch.out ||| Touch.regs ||| Touch.mem ||| Touch.wear ||| Touch.log ||| Touch.logBase |||
      Touch.cores ||| Touch.bells ||| Touch.node ||| Touch.tithes ||| Touch.gws ||| Touch.tracePos |||
      Touch.stackMem ||| Touch.mapLag ||| Touch.reports) s (State.pump s k c serial x) := by
  induction x generalizing s k c serial with
  | zero => exact Touches.refl _ _
  | succ n ih =>
    unfold State.pump
    repeat'
      first
        | with_reducible exact Touches.refl _ _
        | with_reducible assumption
        | decide
        | with_reducible refine Touches.trans ?_ (ih ..)
        | split
        | with_reducible exact State.pumpOne_touches ‹State.pumpOne _ _ _ _ = some _›

theorem State.specPiece_touches (s : State) (k : Nat) (c : Nat) (serial : Nat) (f : Flight) (p : Piece) :
    Touches (Touch.out ||| Touch.regs ||| Touch.wear ||| Touch.log ||| Touch.logBase ||| Touch.cores |||
      Touch.bells ||| Touch.node ||| Touch.stackMem ||| Touch.bridgeMem ||| Touch.retireQ |||
      Touch.mapLag ||| Touch.reports) s (State.specPiece s k c serial f p) := by
  unfold State.specPiece
  repeat'
    first
      | with_reducible exact Touches.refl _ _
      | with_reducible assumption
      | decide
      | (extract_lets +onlyGivenNames x; with_reducible refine Touches.cut (t := x) ?_ ?_; subst x; rotate_left; clear_value x; revert x; intro _ _; rotate_right)
      | (extract_lets +onlyGivenNames x; clear_value x; revert x; intro _)
      | split
      | with_reducible refine Touches.of_fst ‹State.readCheck _ _ _ _ _ _ _ = _› (Touches.after (State.readCheck_touches ..) ?_ ?_)
      | with_reducible apply Touches.after (State.readCheck_touches ..)
      | with_reducible apply Touches.after (State.setCore_touches ..)
      | with_reducible apply Touches.after (State.setTodo_touches ..)

theorem State.specRead_touches (s : State) (k : Nat) (c : Nat) (serial : Nat) (x : List Piece) :
    Touches (Touch.out ||| Touch.regs ||| Touch.mem ||| Touch.wear ||| Touch.log ||| Touch.logBase |||
      Touch.cores ||| Touch.bells ||| Touch.node ||| Touch.tithes ||| Touch.gws ||| Touch.tracePos |||
      Touch.stackMem ||| Touch.bridgeMem ||| Touch.retireQ ||| Touch.mapLag ||| Touch.reports) s
      (State.specRead s k c serial x) := by
  induction x generalizing s k c serial with
  | nil => exact Touches.refl _ _
  | cons y ys ih =>
    unfold State.specRead
    repeat'
      first
        | with_reducible exact Touches.refl _ _
        | with_reducible assumption
        | decide
        | with_reducible refine Touches.trans ?_ (ih ..)
        | (extract_lets +onlyGivenNames x; with_reducible refine Touches.cut (t := x) ?_ ?_; subst x; rotate_left; clear_value x; revert x; intro _ _; rotate_right)
        | (extract_lets +onlyGivenNames x; clear_value x; revert x; intro _)
        | split
        | with_reducible apply Touches.after (State.failFlight_touches ..)
        | with_reducible apply Touches.after (State.setTodo_touches ..)
        | with_reducible apply Touches.after (State.specPiece_touches ..)

theorem State.cancelTags_touches (s : State) (k : Nat) (p : Purpose → Bool) :
    Touches (Touch.gws) s (State.cancelTags s k p).1 := by
  unfold State.cancelTags
  exact (State.setGw_touches ..).after
    (Touches.foldl (Touches.refl _ _) fun _ _ => State.quarantine_touches ..) (by decide)

theorem State.squashFrom_touches (s : State) (k : Nat) (c : Nat) (serial : Nat) :
    Touches (Touch.out ||| Touch.regs ||| Touch.mem ||| Touch.log ||| Touch.logBase ||| Touch.cores |||
    Touch.bells ||| Touch.node ||| Touch.tithes ||| Touch.gws ||| Touch.tracePos ||| Touch.reports) s (State.squashFrom s k c serial) := by
  unfold State.squashFrom
  repeat'
    first
      | with_reducible exact Touches.refl _ _
      | with_reducible assumption
      | decide
      | (extract_lets +onlyGivenNames x; with_reducible refine Touches.cut (t := x) ?_ ?_; subst x; rotate_left; clear_value x; revert x; intro _ _; rotate_right)
      | (extract_lets +onlyGivenNames x; clear_value x; revert x; intro _)
      | split
      | with_reducible refine Touches.of_fst ‹State.cancelTags _ _ _ = _› (Touches.after (State.cancelTags_touches ..) ?_ ?_)
      | with_reducible apply Touches.after (State.setCore_touches ..)
      | with_reducible apply Touches.after (State.trace_touches ..)
      | with_reducible refine Touches.foldl ?_ fun _ _ => ?_

theorem State.fetchParity_touches (s : State) (k : Nat) (c : Nat) :
    Touches (Touch.out ||| Touch.regs ||| Touch.wear ||| Touch.log ||| Touch.logBase ||| Touch.cores |||
    Touch.bells ||| Touch.node ||| Touch.retireQ ||| Touch.mapLag ||| Touch.reports) s (State.fetchParity s k c) := by
  unfold State.fetchParity
  repeat'
    first
      | with_reducible exact Touches.refl _ _
      | with_reducible assumption
      | decide
      | (extract_lets +onlyGivenNames x; with_reducible refine Touches.cut (t := x) ?_ ?_; subst x; rotate_left; clear_value x; revert x; intro _ _; rotate_right)
      | (extract_lets +onlyGivenNames x; clear_value x; revert x; intro _)
      | with_reducible apply Touches.after (State.setCore_touches ..)
      | with_reducible apply Touches.after (State.syncSeq_touches ..)
      | with_reducible apply Touches.after (State.coreFault_touches ..)

theorem State.abandonCore_touches (s : State) (k : Nat) (c : Nat) :
    Touches (Touch.cores ||| Touch.gws) s (State.abandonCore s k c) := by
  unfold State.abandonCore
  repeat'
    first
      | with_reducible exact Touches.refl _ _
      | decide
      | (extract_lets +onlyGivenNames x; clear_value x; revert x; intro _)
      | split
      | with_reducible refine Touches.of_fst ‹State.cancelTags _ _ _ = _› (Touches.after (State.cancelTags_touches ..) ?_ ?_)
      | with_reducible apply Touches.after (State.setCore_touches ..)

theorem State.pumpCore_touches (s : State) (k : Nat) (c : Nat) : Touches (Touch.out ||| Touch.regs
    ||| Touch.mem ||| Touch.wear ||| Touch.log ||| Touch.logBase ||| Touch.cores ||| Touch.bells |||
    Touch.node ||| Touch.tithes ||| Touch.gws ||| Touch.tracePos ||| Touch.stackMem |||
    Touch.bridgeMem ||| Touch.retireQ ||| Touch.mapLag ||| Touch.reports) s (State.pumpCore s k c):= by
  unfold State.pumpCore
  repeat'
    first
      | with_reducible exact Touches.refl _ _
      | with_reducible assumption
      | decide
      | split
      | with_reducible apply Touches.after (State.pump_touches ..)
      | with_reducible apply Touches.after (State.specRead_touches ..)
      | with_reducible apply Touches.after (State.tryFinish_touches ..)
      | with_reducible refine Touches.foldl ?_ fun _ _ => ?_

theorem State.plainReads_touches (s : State) (k : Nat) (c : Nat) (serial : Nat) :
    Touches (Touch.gws) s (State.plainReads s k c serial) := by
  unfold State.plainReads
  repeat'
    first
      | with_reducible exact Touches.refl _ _
      | with_reducible assumption
      | decide
      | (extract_lets +onlyGivenNames x; with_reducible refine Touches.cut (t := x) ?_ ?_; subst x; rotate_left; clear_value x; revert x; intro _ _; rotate_right)
      | (extract_lets +onlyGivenNames x; clear_value x; revert x; intro _)
      | split
      | with_reducible apply Touches.after (State.setGw_touches ..)

theorem State.confirmFlight_touches (s : State) (k : Nat) (c : Nat) (mets : Meets) (f : Flight) :
    Touches (Touch.out ||| Touch.regs ||| Touch.mem ||| Touch.wear ||| Touch.log ||| Touch.logBase |||
      Touch.cores ||| Touch.bells ||| Touch.node ||| Touch.tithes ||| Touch.gws ||| Touch.tracePos |||
      Touch.stackMem ||| Touch.mapLag ||| Touch.reports) s (State.confirmFlight s k c mets f) := by
  unfold State.confirmFlight
  repeat'
    first
      | with_reducible exact Touches.refl _ _
      | with_reducible assumption
      | decide
      | (extract_lets +onlyGivenNames x; with_reducible refine Touches.cut (t := x) ?_ ?_; subst x; rotate_left; clear_value x; revert x; intro _ _; rotate_right)
      | (extract_lets +onlyGivenNames x; clear_value x; revert x; intro _)
      | split
      | with_reducible apply Touches.after (State.failFlight_touches ..)
      | with_reducible apply Touches.after (State.finish_touches ..)
      | with_reducible apply Touches.after (State.plainReads_touches ..)
      | with_reducible apply Touches.after (State.pump_touches ..)
      | with_reducible apply Touches.after (State.setCore_touches ..)
      | with_reducible apply Touches.after (State.tryFinish_touches ..)
      | with_reducible apply Touches.after (State.writeLocal_touches ..)
      | with_reducible refine Touches.foldl ?_ fun _ _ => ?_

theorem State.confirm_touches (s : State) (k : Nat) (c : Nat) (mets : Meets) : Touches (Touch.out
    ||| Touch.regs ||| Touch.mem ||| Touch.wear ||| Touch.log ||| Touch.logBase ||| Touch.cores |||
    Touch.bells ||| Touch.node ||| Touch.tithes ||| Touch.gws ||| Touch.tracePos ||| Touch.stackMem
    ||| Touch.bridgeMem ||| Touch.retireQ ||| Touch.mapLag ||| Touch.reports) s (State.confirm s k c
    mets):= by
  unfold State.confirm
  repeat'
    first
      | with_reducible exact Touches.refl _ _
      | with_reducible assumption
      | decide
      | (extract_lets +onlyGivenNames x; with_reducible refine Touches.cut (t := x) ?_ ?_; subst x; rotate_left; clear_value x; revert x; intro _ _; rotate_right)
      | (extract_lets +onlyGivenNames x; clear_value x; revert x; intro _)
      | split
      | with_reducible apply Touches.after (State.confirmFlight_touches ..)
      | with_reducible apply Touches.after (State.pumpCore_touches ..)
      | with_reducible refine Touches.foldl ?_ fun _ _ => ?_

theorem State.flightMeets_touches (s : State) (k : Nat) (c : Nat) (serial : Nat) (flaws : Flaws) (mets : Meets) :
    Touches (Touch.cores) s (State.flightMeets s k c serial flaws mets) := by
  unfold State.flightMeets
  repeat'
    first
      | with_reducible exact Touches.refl _ _
      | with_reducible assumption
      | decide
      | split
      | with_reducible apply Touches.after (State.setCore_touches ..)

theorem State.useParity_touches (s : State) (k : Nat) (c : Nat) (fetched : Fetch) :
    Touches (Touch.out ||| Touch.regs ||| Touch.wear ||| Touch.log ||| Touch.logBase ||| Touch.cores |||
      Touch.bells ||| Touch.node ||| Touch.retireQ ||| Touch.mapLag ||| Touch.reports) s
      (State.useParity s k c fetched) := by
  unfold State.useParity
  repeat'
    first
      | with_reducible exact Touches.refl _ _
      | with_reducible assumption
      | decide
      | split
      | with_reducible apply Touches.after (State.coreFault_touches ..)

end Sys2Proof.Machine
end

