-- ==== Sys2Proof/Laws/Cores.lean ====
section
/-!
SUPPORT. What the operations of Machine/Cores.lean may touch.
-/

namespace Sys2Proof.Machine

theorem State.clrParity_touches (s : State) (k : Nat) (c : Nat) :
    Touches (Touch.regs) s (State.clrParity s k c) := by
  unfold State.clrParity
  repeat'
    first
      | with_reducible exact Touches.refl _ _
      | decide
      | with_reducible apply Touches.after (State.setF_touches ..)

theorem State.clrMin_touches (s : State) (k : Nat) (c : Nat) :
    Touches (Touch.regs) s (State.clrMin s k c) := by
  unfold State.clrMin
  repeat'
    first
      | with_reducible exact Touches.refl _ _
      | decide
      | with_reducible apply Touches.after (State.setF_touches ..)

theorem execClrParity_touches (k : Stack) (c : Core) (s : State) :
    Answers (Touch.regs) s (execClrParity k c s) := by
  unfold execClrParity
  repeat'
    first
      | with_reducible apply Answers.next
      | with_reducible exact Touches.refl _ _
      | decide
      | with_reducible apply Touches.after (State.clrParity_touches ..)

theorem execClrMin_touches (k : Stack) (c : Core) (s : State) :
    Answers (Touch.regs) s (execClrMin k c s) := by
  unfold execClrMin
  repeat'
    first
      | with_reducible apply Answers.next
      | with_reducible exact Touches.refl _ _
      | decide
      | with_reducible apply Touches.after (State.clrMin_touches ..)

theorem execMma_touches (k : Stack) (c : Core) (fetched : Fetch) (s : State) :
    Answers (Touch.out ||| Touch.regs ||| Touch.mem ||| Touch.wear ||| Touch.log ||| Touch.logBase |||
    Touch.cores ||| Touch.bells ||| Touch.node ||| Touch.tithes ||| Touch.gws ||| Touch.tracePos |||
    Touch.retireQ ||| Touch.mapLag ||| Touch.reports) s (execMma k c fetched s) := by
  unfold execMma
  repeat'
    first
      | with_reducible apply Answers.next
      | with_reducible exact Touches.refl _ _
      | with_reducible assumption
      | decide
      | (extract_lets +onlyGivenNames nx; with_reducible refine Answers.cut (t := nx) ?_ ?_; subst nx; rotate_left; revert nx; intro _ _; rotate_right)
      | (extract_lets +onlyGivenNames nx; subst nx)
      | split
      | with_reducible apply Touches.after (State.fetchParity_touches ..)
      | with_reducible apply Touches.after (State.issue_touches ..)
      | with_reducible apply Touches.after (State.setCore_touches ..)
      | with_reducible apply Touches.after (State.useParity_touches ..)
theorem State.mmaOutRow_touches (s : State) (k : Nat) (c : Nat) (d : BitVec 512) (m : Nat) (row : List (BitVec 32)) :
    Touches (Touch.mem) s (State.mmaOutRow s k c d m row) := by
  unfold State.mmaOutRow
  repeat'
    first
      | with_reducible exact Touches.refl _ _
      | with_reducible assumption
      | decide
      | (extract_lets +onlyGivenNames nx; with_reducible refine Touches.cut (t := nx) ?_ ?_; subst nx; rotate_left; revert nx; intro _ _; rotate_right)
      | (extract_lets +onlyGivenNames nx; subst nx)
      | split
      | with_reducible apply Touches.after (State.writeMem_touches ..)
      | with_reducible refine Touches.foldl ?_ fun _ _ => ?_

theorem State.mmaEffect_touches (s : State) (k : Nat) (c : Nat) (d : BitVec 512) :
    Touches (Touch.mem ||| Touch.cores) s (State.mmaEffect s k c d) := by
  unfold State.mmaEffect
  repeat'
    first
      | with_reducible exact Touches.refl _ _
      | with_reducible assumption
      | decide
      | (extract_lets +onlyGivenNames nx; with_reducible refine Touches.cut (t := nx) ?_ ?_; subst nx; rotate_left; revert nx; intro _ _; rotate_right)
      | (extract_lets +onlyGivenNames nx; subst nx)
      | split
      | with_reducible apply Touches.after (State.setCore_touches ..)
      | with_reducible apply Touches.after (State.mmaOutRow_touches ..)
      | with_reducible refine Touches.foldl ?_ fun _ _ => ?_

theorem execMmaComplete_touches (k : Stack) (c : Core) (storeFlaws : Nat) (arrayBad : Bool) (s : State) :
    Answers (Touch.out ||| Touch.regs ||| Touch.mem ||| Touch.wear ||| Touch.log ||| Touch.logBase |||
    Touch.cores ||| Touch.bells ||| Touch.node ||| Touch.tithes ||| Touch.gws ||| Touch.tracePos |||
    Touch.retireQ ||| Touch.mapLag ||| Touch.reports) s (execMmaComplete k c storeFlaws arrayBad s) := by
  unfold execMmaComplete
  repeat'
    first
      | with_reducible apply Answers.next
      | with_reducible exact Touches.refl _ _
      | with_reducible assumption
      | decide
      | (extract_lets +onlyGivenNames nx; with_reducible refine Answers.cut (t := nx) ?_ ?_; subst nx; rotate_left; revert nx; intro _ _; rotate_right)
      | (extract_lets +onlyGivenNames nx; subst nx)
      | split
      | with_reducible apply Touches.after (State.coreStoreParity_touches ..)
      | with_reducible apply Touches.after (State.coreFault_touches ..)
      | with_reducible apply Touches.after (State.mmaEffect_touches ..)
      | with_reducible apply Touches.after (State.setCore_touches ..)
      | with_reducible apply Touches.after (State.finish_touches ..)

theorem State.sourceCheck_touches (s : State) (k : Nat) (c : Nat) (flaws : Flaws) (leaves : Bool) :
    Touches (Touch.out ||| Touch.regs ||| Touch.wear ||| Touch.log ||| Touch.logBase ||| Touch.cores |||
    Touch.bells ||| Touch.node ||| Touch.stackMem ||| Touch.bridgeMem ||| Touch.retireQ |||
    Touch.mapLag ||| Touch.reports) s (State.sourceCheck s k c flaws leaves).1 := by
  unfold State.sourceCheck
  repeat'
    first
      | with_reducible exact Touches.refl _ _
      | decide
      | split
      | with_reducible refine Touches.of_fst ‹State.readCheck _ _ _ _ _ _ _ = _› (Touches.after (State.readCheck_touches ..) ?_ ?_)
      | with_reducible refine Touches.foldl_fst ?_ fun _ _ => ?_

theorem State.moveCheck_touches (s : State) (k : Nat) (c : Nat) (d : BitVec 512) (cls : MoveClass) (spec : Bool) (flaws : Flaws) :
    Touches (Touch.out ||| Touch.regs ||| Touch.wear ||| Touch.log ||| Touch.logBase ||| Touch.cores |||
      Touch.bells ||| Touch.node ||| Touch.stackMem ||| Touch.bridgeMem ||| Touch.retireQ |||
      Touch.mapLag ||| Touch.reports) s (State.moveCheck s k c d cls spec flaws).1 := by
  unfold State.moveCheck
  repeat'
    first
      | with_reducible exact Touches.refl _ _
      | with_reducible assumption
      | decide
      | split
      | with_reducible refine Touches.of_fst ‹State.sourceCheck _ _ _ _ _ = _› (Touches.after (State.sourceCheck_touches ..) ?_ ?_)
      | with_reducible apply Touches.after (State.sourceCheck_touches ..)
      | dsimp only

theorem State.mcastSend_touches (s : State) (k : Nat) (c : Nat) (serial : Nat) (copies : List
    (Option Nat × Site)) (ps : List Packet) :
    Touches (Touch.out ||| Touch.regs ||| Touch.cores ||| Touch.gws) s (State.mcastSend s k c serial copies ps) := by
  unfold State.mcastSend
  repeat'
    first
      | with_reducible exact Touches.refl _ _
      | with_reducible assumption
      | decide
      | split
      | with_reducible apply Touches.after (State.sendCopies_touches ..)
      | with_reducible apply Touches.after (State.sendTagged_touches ..)
      | with_reducible apply Touches.after (State.setCore_touches ..)
      | with_reducible refine Touches.foldl ?_ fun _ _ => ?_

theorem State.mcastHere_touches (s : State) (k : Nat) (c : Nat) (serial : Nat) (mets : Meets) (pay :
    List Byte) (d : Nat × List Nat) :
    Touches (Touch.out ||| Touch.regs ||| Touch.mem ||| Touch.log ||| Touch.logBase ||| Touch.cores |||
      Touch.bells ||| Touch.node ||| Touch.tithes ||| Touch.gws ||| Touch.tracePos ||| Touch.stackMem
      ||| Touch.reports) s (State.mcastHere s k c serial mets pay d) := by
  unfold State.mcastHere
  repeat'
    first
      | with_reducible exact Touches.refl _ _
      | with_reducible assumption
      | decide
      | split
      | with_reducible apply Touches.after (State.cacheWrite_touches ..)
      | with_reducible apply Touches.after (State.failFlight_touches ..)
      | with_reducible apply Touches.after (State.writeLocal_touches ..)
      | with_reducible refine Touches.foldl ?_ fun _ _ => ?_

theorem State.moveMcast_touches (s : State) (k : Nat) (c : Nat) (serial : Nat) (mets : Meets) (d : BitVec 512) :
    Touches (Touch.out ||| Touch.regs ||| Touch.mem ||| Touch.log ||| Touch.logBase ||| Touch.cores |||
      Touch.bells ||| Touch.node ||| Touch.tithes ||| Touch.gws ||| Touch.tracePos ||| Touch.stackMem
      ||| Touch.reports) s (State.moveMcast s k c serial mets d) := by
  unfold State.moveMcast
  repeat'
    first
      | with_reducible exact Touches.refl _ _
      | with_reducible assumption
      | decide
      | (extract_lets +onlyGivenNames x; with_reducible refine Touches.cut (t := x) ?_ ?_; subst x; rotate_left; clear_value x; revert x; intro _ _; rotate_right)
      | (extract_lets +onlyGivenNames x; clear_value x; revert x; intro _)
      | split
      | with_reducible apply Touches.after (State.failFlight_touches ..)
      | with_reducible apply Touches.after (State.mcastHere_touches ..)
      | with_reducible apply Touches.after (State.mcastSend_touches ..)
      | with_reducible refine Touches.foldl ?_ fun _ _ => ?_

theorem State.moveIssued_touches (s : State) (k : Nat) (c : Nat) (d : BitVec 512) (flaws : Flaws) (mets : Meets) :
    Touches (Touch.out ||| Touch.regs ||| Touch.mem ||| Touch.wear ||| Touch.log ||| Touch.logBase |||
      Touch.cores ||| Touch.bells ||| Touch.node ||| Touch.tithes ||| Touch.gws ||| Touch.tracePos |||
      Touch.stackMem ||| Touch.bridgeMem ||| Touch.retireQ ||| Touch.mapLag ||| Touch.reports) s
      (State.moveIssued s k c d flaws mets) := by
  unfold State.moveIssued
  repeat'
    first
      | with_reducible exact Touches.refl _ _
      | with_reducible assumption
      | decide
      | (extract_lets +onlyGivenNames x; with_reducible refine Touches.cut (t := x) ?_ ?_; subst x; rotate_left; clear_value x; revert x; intro _ _; rotate_right)
      | (extract_lets +onlyGivenNames x; clear_value x; revert x; intro _)
      | split
      | with_reducible apply Touches.after (State.failFlight_touches ..)
      | with_reducible apply Touches.after (State.flightMeets_touches ..)
      | with_reducible apply Touches.after (State.issue_touches ..)
      | with_reducible refine Touches.of_fst ‹State.moveCheck _ _ _ _ _ _ _ = _› (Touches.after (State.moveCheck_touches ..) ?_ ?_)
      | with_reducible apply Touches.after (State.moveCheck_touches ..)
      | with_reducible apply Touches.after (State.moveMcast_touches ..)
      | with_reducible apply Touches.after (State.pump_touches ..)
      | with_reducible apply Touches.after (State.specRead_touches ..)
      | with_reducible apply Touches.after (State.tryFinish_touches ..)

theorem execMoveDesc_touches (k : Stack) (c : Core) (fetched : Fetch) (flaws : Flaws) (mets : Meets) (s : State) :
    Answers (Touch.out ||| Touch.regs ||| Touch.mem ||| Touch.wear ||| Touch.log ||| Touch.logBase |||
      Touch.cores ||| Touch.bells ||| Touch.node ||| Touch.tithes ||| Touch.gws ||| Touch.tracePos |||
      Touch.stackMem ||| Touch.bridgeMem ||| Touch.retireQ ||| Touch.mapLag ||| Touch.reports) s
      (execMoveDesc k c fetched flaws mets s) := by
  unfold execMoveDesc
  repeat'
    first
      | with_reducible apply Answers.next
      | with_reducible exact Touches.refl _ _
      | with_reducible assumption
      | decide
      | split
      | with_reducible apply Touches.after (State.fetchParity_touches ..)
      | with_reducible apply Touches.after (State.moveIssued_touches ..)
      | with_reducible apply Touches.after (State.useParity_touches ..)
theorem State.movePiece_touches (s : State) (k : Nat) (c : Nat) (serial : Nat) (flaws : Flaws) (mets
    : Meets) (p : Piece) :
    Touches (Touch.out ||| Touch.regs ||| Touch.mem ||| Touch.wear ||| Touch.log ||| Touch.logBase |||
      Touch.cores ||| Touch.bells ||| Touch.node ||| Touch.tithes ||| Touch.gws ||| Touch.tracePos |||
      Touch.stackMem ||| Touch.bridgeMem ||| Touch.retireQ ||| Touch.mapLag ||| Touch.reports) s
      (State.movePiece s k c serial flaws mets p) := by
  unfold State.movePiece
  repeat'
    first
      | with_reducible exact Touches.refl _ _
      | with_reducible assumption
      | decide
      | split
      | with_reducible apply Touches.after (State.failFlight_touches ..)
      | with_reducible refine Touches.of_fst ‹State.readCheck _ _ _ _ _ _ _ = _› (Touches.after (State.readCheck_touches ..) ?_ ?_)
      | with_reducible apply Touches.after (State.readCheck_touches ..)
      | with_reducible apply Touches.after (State.writeLocal_touches ..)

theorem execLocalMoveComplete_touches (k : Stack) (c : Core) (serial : Nat) (mets : Meets) (s : State) :
    Answers (Touch.out ||| Touch.regs ||| Touch.mem ||| Touch.wear ||| Touch.log ||| Touch.logBase
    ||| Touch.cores ||| Touch.bells ||| Touch.node ||| Touch.tithes ||| Touch.gws ||| Touch.tracePos
    ||| Touch.stackMem ||| Touch.bridgeMem ||| Touch.retireQ ||| Touch.mapLag ||| Touch.reports)
      s (execLocalMoveComplete k c serial mets s) := by
  unfold execLocalMoveComplete
  repeat'
    first
      | with_reducible apply Answers.next
      | with_reducible exact Touches.refl _ _
      | with_reducible assumption
      | decide
      | (extract_lets +onlyGivenNames x; with_reducible refine Answers.cut (t := x) ?_ ?_; subst x; rotate_left; clear_value x; revert x; intro _ _; rotate_right)
      | (extract_lets +onlyGivenNames x; clear_value x; revert x; intro _)
      | split
      | with_reducible apply Touches.after (State.finish_touches ..)
      | with_reducible apply Touches.after (State.movePiece_touches ..)
      | with_reducible refine Touches.foldl ?_ fun _ _ => ?_
      | with_reducible apply Touches.after (State.setTodo_touches ..)
      | with_reducible apply Touches.after (State.tryFinish_touches ..)

theorem execSignalDesc_touches (k : Stack) (c : Core) (fetched : Fetch) (s : State) :
    Answers (Touch.out ||| Touch.regs ||| Touch.mem ||| Touch.wear ||| Touch.log ||| Touch.logBase |||
    Touch.cores ||| Touch.bells ||| Touch.node ||| Touch.tithes ||| Touch.gws ||| Touch.tracePos |||
    Touch.retireQ ||| Touch.mapLag ||| Touch.reports) s (execSignalDesc k c fetched s) := by
  unfold execSignalDesc
  repeat'
    first
      | with_reducible apply Answers.next
      | with_reducible exact Touches.refl _ _
      | with_reducible assumption
      | decide
      | (extract_lets +onlyGivenNames nx; with_reducible refine Answers.cut (t := nx) ?_ ?_; subst nx; rotate_left; revert nx; intro _ _; rotate_right)
      | (extract_lets +onlyGivenNames nx; subst nx)
      | split
      | with_reducible apply Touches.after (State.fetchParity_touches ..)
      | with_reducible apply Touches.after (State.issue_touches ..)
      | with_reducible apply Touches.after (State.finish_touches ..)
      | with_reducible apply Touches.after (State.raiseToken_touches ..)
      | with_reducible apply Touches.after (State.failFlight_touches ..)
      | with_reducible refine Touches.after (State.allocTag_touches ‹State.allocTag _ _ _ = some _›) ?_ ?_
      | with_reducible apply Touches.after (State.send_touches ..)
      | with_reducible apply Touches.after (State.setCore_touches ..)
      | with_reducible apply Touches.after (State.useParity_touches ..)
theorem execWaitDesc_touches (k : Stack) (c : Core) (fetched : Fetch) (s : State) :
    Answers (Touch.out ||| Touch.regs ||| Touch.mem ||| Touch.wear ||| Touch.log ||| Touch.logBase |||
    Touch.cores ||| Touch.bells ||| Touch.node ||| Touch.tithes ||| Touch.gws ||| Touch.tracePos |||
    Touch.retireQ ||| Touch.mapLag ||| Touch.reports) s (execWaitDesc k c fetched s) := by
  unfold execWaitDesc
  repeat'
    first
      | with_reducible apply Answers.next
      | with_reducible exact Touches.refl _ _
      | with_reducible assumption
      | decide
      | (extract_lets +onlyGivenNames nx; with_reducible refine Answers.cut (t := nx) ?_ ?_; subst nx; rotate_left; revert nx; intro _ _; rotate_right)
      | (extract_lets +onlyGivenNames nx; subst nx)
      | split
      | with_reducible apply Touches.after (State.fetchParity_touches ..)
      | with_reducible apply Touches.after (State.issue_touches ..)
      | with_reducible apply Touches.after (State.endWait_touches ..)
      | with_reducible apply Touches.after (State.syncSeq_touches ..)
      | with_reducible apply Touches.after (State.setCore_touches ..)
      | with_reducible apply Touches.after (State.useParity_touches ..)
theorem execWaitSatisfied_touches (k : Stack) (c : Core) (s : State) :
    Answers (Touch.out ||| Touch.regs ||| Touch.mem ||| Touch.log ||| Touch.logBase ||| Touch.cores |||
      Touch.bells ||| Touch.node ||| Touch.tithes ||| Touch.gws ||| Touch.tracePos ||| Touch.reports)
      s (execWaitSatisfied k c s) := by
  unfold execWaitSatisfied
  repeat'
    first
      | with_reducible apply Answers.next
      | with_reducible exact Touches.refl _ _
      | with_reducible assumption
      | decide
      | (extract_lets +onlyGivenNames x; with_reducible refine Answers.cut (t := x) ?_ ?_; subst x; rotate_left; clear_value x; revert x; intro _ _; rotate_right)
      | (extract_lets +onlyGivenNames x; clear_value x; revert x; intro _)
      | split
      | with_reducible apply Touches.after (State.endWait_touches ..)
      | with_reducible apply Touches.after (State.setF_touches ..)
      | with_reducible apply Touches.after (State.slotWait_touches ..)
      | with_reducible apply Touches.after (State.waitOver_touches ..)

theorem execBranchDesc_touches (k : Stack) (c : Core) (fetched : Fetch) (s : State) :
    Answers (Touch.out ||| Touch.regs ||| Touch.mem ||| Touch.wear ||| Touch.log ||| Touch.logBase |||
    Touch.cores ||| Touch.bells ||| Touch.node ||| Touch.tithes ||| Touch.gws ||| Touch.tracePos |||
    Touch.retireQ ||| Touch.mapLag ||| Touch.reports) s (execBranchDesc k c fetched s) := by
  unfold execBranchDesc
  repeat'
    first
      | with_reducible apply Answers.next
      | with_reducible exact Touches.refl _ _
      | with_reducible assumption
      | decide
      | (extract_lets +onlyGivenNames nx; with_reducible refine Answers.cut (t := nx) ?_ ?_; subst nx; rotate_left; revert nx; intro _ _; rotate_right)
      | (extract_lets +onlyGivenNames nx; subst nx)
      | split
      | with_reducible apply Touches.after (State.fetchParity_touches ..)
      | with_reducible apply Touches.after (State.issue_touches ..)
      | with_reducible apply Touches.after (State.syncSeq_touches ..)
      | with_reducible apply Touches.after (State.slotWait_touches ..)
      | with_reducible apply Touches.after (State.setCore_touches ..)
      | with_reducible apply Touches.after (State.issueFlight_touches ..)
      | with_reducible apply Touches.after (State.useParity_touches ..)
theorem State.branchHinted_touches (s : State) (k : Nat) (c : Nat) (mets : Meets) (b : Nat) (rest :
    List Nat) (f : Flight) : Touches (Touch.out ||| Touch.regs ||| Touch.mem ||| Touch.wear |||
    Touch.log ||| Touch.logBase ||| Touch.cores ||| Touch.bells ||| Touch.node ||| Touch.tithes |||
    Touch.gws ||| Touch.tracePos ||| Touch.stackMem ||| Touch.bridgeMem ||| Touch.retireQ |||
    Touch.mapLag ||| Touch.reports) s (State.branchHinted s k c mets b rest f):=
      by
  unfold State.branchHinted
  repeat'
    first
      | with_reducible exact Touches.refl _ _
      | with_reducible assumption
      | decide
      | (extract_lets +onlyGivenNames x; with_reducible refine Touches.cut (t := x) ?_ ?_; subst x; rotate_left; clear_value x; revert x; intro _ _; rotate_right)
      | (extract_lets +onlyGivenNames x; clear_value x; revert x; intro _)
      | split
      | with_reducible apply Touches.after (State.confirm_touches ..)
      | with_reducible apply Touches.after (State.finish_touches ..)
      | with_reducible apply Touches.after (State.setCore_touches ..)
      | with_reducible apply Touches.after (State.syncSeq_touches ..)

theorem State.branchMissed_touches (s : State) (k : Nat) (c : Nat) (b : Nat) (pc : Nat) (f : Flight) :
    Touches (Touch.out ||| Touch.regs ||| Touch.mem ||| Touch.log ||| Touch.logBase ||| Touch.cores |||
      Touch.bells ||| Touch.node ||| Touch.tithes ||| Touch.gws ||| Touch.tracePos ||| Touch.reports)
      s (State.branchMissed s k c b pc f) := by
  unfold State.branchMissed
  repeat'
    first
      | with_reducible exact Touches.refl _ _
      | with_reducible assumption
      | decide
      | (extract_lets +onlyGivenNames x; with_reducible refine Touches.cut (t := x) ?_ ?_; subst x; rotate_left; clear_value x; revert x; intro _ _; rotate_right)
      | (extract_lets +onlyGivenNames x; clear_value x; revert x; intro _)
      | split
      | with_reducible apply Touches.after (State.endWait_touches ..)
      | with_reducible apply Touches.after (State.finish_touches ..)
      | with_reducible apply Touches.after (State.setCore_touches ..)
      | with_reducible apply Touches.after (State.slotWait_touches ..)
      | with_reducible apply Touches.after (State.squashFrom_touches ..)
      | with_reducible apply Touches.after (State.syncSeq_touches ..)

theorem execBranchResolve_touches (k : Stack) (c : Core) (flaws : Flaws) (mets : Meets) (s : State) :
    Answers (Touch.out ||| Touch.regs ||| Touch.mem ||| Touch.wear ||| Touch.log ||| Touch.logBase |||
      Touch.cores ||| Touch.bells ||| Touch.node ||| Touch.tithes ||| Touch.gws ||| Touch.tracePos |||
      Touch.stackMem ||| Touch.bridgeMem ||| Touch.retireQ ||| Touch.mapLag ||| Touch.reports) s
      (execBranchResolve k c flaws mets s) := by
  unfold execBranchResolve
  repeat'
    first
      | with_reducible apply Answers.next
      | with_reducible exact Touches.refl _ _
      | with_reducible assumption
      | decide
      | (extract_lets +onlyGivenNames x; with_reducible refine Answers.cut (t := x) ?_ ?_; subst x; rotate_left; clear_value x; revert x; intro _ _; rotate_right)
      | (extract_lets +onlyGivenNames x; clear_value x; revert x; intro _)
      | split
      | with_reducible apply Touches.after (State.branchHinted_touches ..)
      | with_reducible apply Touches.after (State.branchMissed_touches ..)
      | with_reducible refine Touches.of_fst ‹State.sourceCheck _ _ _ _ _ = _› (Touches.after (State.sourceCheck_touches ..) ?_ ?_)
      | with_reducible apply Touches.after (State.sourceCheck_touches ..)

theorem execFenceDesc_touches (k : Stack) (c : Core) (fetched : Fetch) (s : State) :
    Answers (Touch.out ||| Touch.regs ||| Touch.mem ||| Touch.wear ||| Touch.log ||| Touch.logBase |||
    Touch.cores ||| Touch.bells ||| Touch.node ||| Touch.tithes ||| Touch.gws ||| Touch.tracePos |||
    Touch.retireQ ||| Touch.mapLag ||| Touch.reports) s (execFenceDesc k c fetched s) := by
  unfold execFenceDesc
  repeat'
    first
      | with_reducible apply Answers.next
      | with_reducible exact Touches.refl _ _
      | decide
      | split
      | with_reducible apply Touches.after (State.issue_touches ..)
      | with_reducible apply Touches.after (State.fetchParity_touches ..)
      | with_reducible apply Touches.after (State.useParity_touches ..)
theorem execFenceComplete_touches (k : Stack) (c : Core) (s : State) :
    Answers (Touch.out ||| Touch.regs ||| Touch.mem ||| Touch.log ||| Touch.logBase ||| Touch.cores |||
    Touch.bells ||| Touch.node ||| Touch.tithes ||| Touch.gws ||| Touch.tracePos ||| Touch.reports) s (execFenceComplete k c s) := by
  unfold execFenceComplete
  repeat'
    first
      | with_reducible apply Answers.next
      | with_reducible exact Touches.refl _ _
      | decide
      | (extract_lets +onlyGivenNames nx; subst nx)
      | split
      | with_reducible apply Touches.after (State.waitOver_touches ..)

theorem execCommitWrite_touches (k : Stack) (c : Core) (fetched : Fetch) (flaws : Flaws) (s : State) :
    Answers (Touch.out ||| Touch.regs ||| Touch.mem ||| Touch.wear ||| Touch.log ||| Touch.logBase |||
      Touch.cores ||| Touch.bells ||| Touch.node ||| Touch.tithes ||| Touch.gws ||| Touch.tracePos |||
      Touch.stackMem ||| Touch.bridgeMem ||| Touch.retireQ ||| Touch.mapLag ||| Touch.reports) s
      (execCommitWrite k c fetched flaws s) := by
  unfold execCommitWrite
  repeat'
    first
      | with_reducible apply Answers.next
      | with_reducible exact Touches.refl _ _
      | with_reducible assumption
      | decide
      | (extract_lets +onlyGivenNames x; with_reducible refine Answers.cut (t := x) ?_ ?_; subst x; rotate_left; clear_value x; revert x; intro _ _; rotate_right)
      | (extract_lets +onlyGivenNames x; clear_value x; revert x; intro _)
      | split
      | with_reducible apply Touches.after (State.failFlight_touches ..)
      | with_reducible apply Touches.after (State.fetchParity_touches ..)
      | with_reducible apply Touches.after (State.issue_touches ..)
      | with_reducible apply Touches.after (State.pump_touches ..)
      | with_reducible refine Touches.of_fst ‹State.sourceCheck _ _ _ _ _ = _› (Touches.after (State.sourceCheck_touches ..) ?_ ?_)
      | with_reducible apply Touches.after (State.sourceCheck_touches ..)
      | with_reducible apply Touches.after (State.tryFinish_touches ..)
      | with_reducible apply Touches.after (State.useParity_touches ..)
theorem execBellEnd_touches (k : Stack) (c : Core) (fetched : Fetch) (s : State) :
    Answers (Touch.out ||| Touch.regs ||| Touch.wear ||| Touch.log ||| Touch.logBase ||| Touch.cores |||
    Touch.bells ||| Touch.node ||| Touch.retireQ ||| Touch.mapLag ||| Touch.reports) s (execBellEnd k c fetched s) := by
  unfold execBellEnd
  repeat'
    first
      | with_reducible apply Answers.next
      | with_reducible exact Touches.refl _ _
      | decide
      | (extract_lets +onlyGivenNames nx; subst nx)
      | split
      | with_reducible apply Touches.after (State.fetchParity_touches ..)
      | with_reducible apply Touches.after (State.syncSeq_touches ..)
      | with_reducible apply Touches.after (State.setCore_touches ..)
      | with_reducible apply Touches.after (State.useParity_touches ..)
theorem State.putSlack_touches (s : State) (k : Nat) (c : Nat) (slack : Int) :
    Touches (Touch.regs) s (State.putSlack s k c slack) := by
  unfold State.putSlack
  repeat'
    first
      | with_reducible exact Touches.refl _ _
      | with_reducible assumption
      | decide
      | (extract_lets +onlyGivenNames nx; with_reducible refine Touches.cut (t := nx) ?_ ?_; subst nx; rotate_left; revert nx; intro _ _; rotate_right)
      | (extract_lets +onlyGivenNames nx; subst nx)
      | split
      | with_reducible apply Touches.after (State.setF_touches ..)

theorem execBellEndRetire_touches (k : Stack) (c : Core) (s : State) :
    Answers (Touch.regs ||| Touch.cores) s (execBellEndRetire k c s) := by
  unfold execBellEndRetire
  repeat'
    first
      | with_reducible apply Answers.next
      | with_reducible exact Touches.refl _ _
      | with_reducible assumption
      | decide
      | (extract_lets +onlyGivenNames nx; with_reducible refine Answers.cut (t := nx) ?_ ?_; subst nx; rotate_left; revert nx; intro _ _; rotate_right)
      | (extract_lets +onlyGivenNames nx; subst nx)
      | split
      | with_reducible apply Touches.after (State.setCore_touches ..)
      | with_reducible apply Touches.after (State.syncSeq_touches ..)
      | with_reducible apply Touches.after (State.putSlack_touches ..)

theorem execFillRecord_touches (k : Stack) (c : Core) (ctx : Ctx) (at_ : Fin 32) (bytes : List Byte) (s : State) :
    Answers (Touch.out ||| Touch.regs ||| Touch.log ||| Touch.logBase ||| Touch.cores ||| Touch.bells
      ||| Touch.node ||| Touch.reports) s (execFillRecord k c ctx at_ bytes s) := by
  unfold execFillRecord
  repeat'
    first
      | with_reducible apply Answers.next
      | with_reducible exact Touches.refl _ _
      | with_reducible assumption
      | decide
      | (extract_lets +onlyGivenNames x; with_reducible refine Answers.cut (t := x) ?_ ?_; subst x; rotate_left; clear_value x; revert x; intro _ _; rotate_right)
      | (extract_lets +onlyGivenNames x; clear_value x; revert x; intro _)
      | split
      | with_reducible apply Touches.after (State.fillWrite_touches ..)

end Sys2Proof.Machine
end

