-- ==== Sys2Proof/Laws/Gateway.lean ====
section
/-!
SUPPORT. What the operations of Machine/Gateway.lean may touch.
-/

namespace Sys2Proof.Machine

theorem State.sendCredit_touches (s : State) (site : Nat) (h : Hop) :
    Touches (Touch.out ||| Touch.gws) s (State.sendCredit s site h) := by
  unfold State.sendCredit
  repeat'
    first
      | with_reducible exact Touches.refl _ _
      | decide
      | (extract_lets +onlyGivenNames x; clear_value x; revert x; intro _)
      | split
      | with_reducible apply Touches.after (State.sendHop_touches ..)
      | with_reducible apply Touches.after (State.setGw_touches ..)

theorem State.freeUnits_touches (s : State) (site : Nat) (h : Hop) (vc : Nat) (units : Nat) :
    Touches (Touch.out ||| Touch.gws) s (State.freeUnits s site h vc units) := by
  unfold State.freeUnits
  repeat'
    first
      | with_reducible exact Touches.refl _ _
      | with_reducible assumption
      | decide
      | (extract_lets +onlyGivenNames x; with_reducible refine Touches.cut (t := x) ?_ ?_; subst x; rotate_left; clear_value x; revert x; intro _ _; rotate_right)
      | (extract_lets +onlyGivenNames x; clear_value x; revert x; intro _)
      | split
      | with_reducible apply Touches.after (State.setGw_touches ..)
      | with_reducible apply Touches.after (State.sendCredit_touches ..)

theorem State.countCodes_touches (s : State) (site : Nat) (h : Hop) (codes : List Codeword) :
    Touches (Touch.regs) s (State.countCodes s site h codes) := by
  unfold State.countCodes
  repeat'
    first
      | with_reducible exact Touches.refl _ _
      | with_reducible assumption
      | decide
      | (extract_lets +onlyGivenNames x; with_reducible refine Touches.cut (t := x) ?_ ?_; subst x; rotate_left; clear_value x; revert x; intro _ _; rotate_right)
      | (extract_lets +onlyGivenNames x; clear_value x; revert x; intro _)
      | split
      | with_reducible apply Touches.after (State.bump_touches ..)

theorem State.takeStream_touches (s : State) (site : Nat) (a : Arrival) :
    Touches (Touch.out ||| Touch.regs ||| Touch.gws) s (State.takeStream s site a).1 := by
  unfold State.takeStream
  repeat'
    first
      | with_reducible exact Touches.refl _ _
      | with_reducible assumption
      | decide
      | (extract_lets +onlyGivenNames x; with_reducible refine Touches.cut (t := x) ?_ ?_; subst x; rotate_left; clear_value x; revert x; intro _ _; rotate_right)
      | (extract_lets +onlyGivenNames x; clear_value x; revert x; intro _)
      | split
      | with_reducible apply Touches.after (State.countCodes_touches ..)
      | with_reducible apply Touches.after (State.sendCode_touches ..)
      | with_reducible apply Touches.after (State.setStream_touches ..)
      | dsimp only

theorem State.reply_touches (s : State) (site : Nat) (h : Hop) (p : Packet) (r : Packet) :
    Touches (Touch.out ||| Touch.regs ||| Touch.gws) s (State.reply s site h p r) := by
  unfold State.reply
  repeat'
    first
      | with_reducible exact Touches.refl _ _
      | decide
      | split
      | with_reducible apply Touches.after (State.sendHop_touches ..)
      | with_reducible apply Touches.after (State.send_touches ..)

theorem State.setSticky_touches (s : State) (site : Nat) (p : Packet) (status : Nat) :
    Touches (Touch.gws) s (State.setSticky s site p status) := by
  unfold State.setSticky
  repeat'
    first
      | with_reducible exact Touches.refl _ _
      | decide
      | (extract_lets +onlyGivenNames x; clear_value x; revert x; intro _)
      | split
      | with_reducible apply Touches.after (State.setGw_touches ..)

theorem State.takeSticky_touches (s : State) (site : Nat) (p : Packet) :
    Touches (Touch.gws) s (State.takeSticky s site p).1 := by
  unfold State.takeSticky
  repeat'
    first
      | with_reducible exact Touches.refl _ _
      | decide
      | (extract_lets +onlyGivenNames x; clear_value x; revert x; intro _)
      | split
      | with_reducible apply Touches.after (State.setGw_touches ..)

theorem State.refuse_touches (s : State) (site : Nat) (h : Hop) (p : Packet) (status : Nat) :
    Touches (Touch.out ||| Touch.regs ||| Touch.log ||| Touch.logBase ||| Touch.bells ||| Touch.node |||
    Touch.gws ||| Touch.reports) s (State.refuse s site h p status) := by
  unfold State.refuse
  repeat'
    first
      | with_reducible exact Touches.refl _ _
      | with_reducible assumption
      | decide
      | (extract_lets +onlyGivenNames x; with_reducible refine Touches.cut (t := x) ?_ ?_; subst x; rotate_left; clear_value x; revert x; intro _ _; rotate_right)
      | split
      | with_reducible apply Touches.after (State.raiseStatus_touches ..)
      | with_reducible apply Touches.after (State.bump_touches ..)
      | with_reducible apply Touches.after (State.setSticky_touches ..)
      | with_reducible refine Touches.of_fst ‹State.takeSticky _ _ _ = _› (Touches.after (State.takeSticky_touches ..) ?_ ?_)
      | with_reducible apply Touches.after (State.reply_touches ..)

theorem State.accept_touches (s : State) (site : Nat) (h : Hop) (p : Packet) (payload : List Byte) :
    Touches (Touch.out ||| Touch.regs ||| Touch.gws) s (State.accept s site h p payload).1 := by
  unfold State.accept
  repeat'
    first
      | with_reducible exact Touches.refl _ _
      | decide
      | split
      | with_reducible refine Touches.of_fst ‹State.takeSticky _ _ _ = _› (Touches.after (State.takeSticky_touches ..) ?_ ?_)
      | with_reducible apply Touches.after (State.reply_touches ..)

theorem State.badCopies_touches (s : State) (site : Nat) (p : Packet) :
    Touches (Touch.out ||| Touch.regs ||| Touch.gws) s (State.badCopies s site p) := by
  unfold State.badCopies
  repeat'
    first
      | with_reducible exact Touches.refl _ _
      | with_reducible assumption
      | decide
      | (extract_lets +onlyGivenNames x; with_reducible refine Touches.cut (t := x) ?_ ?_; subst x; rotate_left; clear_value x; revert x; intro _ _; rotate_right)
      | (extract_lets +onlyGivenNames x; clear_value x; revert x; intro _)
      | split
      | with_reducible apply Touches.after (State.sendCopy_touches ..)
      | with_reducible apply Touches.after (State.sendHop_touches ..)
      | with_reducible refine Touches.foldl ?_ fun _ _ => ?_

theorem State.forwardBad_touches (s : State) (site : Nat) (a : Arrival) :
    Touches (Touch.out ||| Touch.regs ||| Touch.gws) s (State.forwardBad s site a) := by
  unfold State.forwardBad
  repeat'
    first
      | with_reducible exact Touches.refl _ _
      | with_reducible assumption
      | decide
      | (extract_lets +onlyGivenNames x; with_reducible refine Touches.cut (t := x) ?_ ?_; subst x; rotate_left; clear_value x; revert x; intro _ _; rotate_right)
      | (extract_lets +onlyGivenNames x; clear_value x; revert x; intro _)
      | split
      | with_reducible apply Touches.after (State.badCopies_touches ..)
      | with_reducible apply Touches.after (State.sendHop_touches ..)

theorem State.dedupe_touches (s : State) (site : Nat) (p : Packet) :
    Touches (Touch.out ||| Touch.regs ||| Touch.log ||| Touch.logBase ||| Touch.bells ||| Touch.node |||
    Touch.gws ||| Touch.reports) s (State.dedupe s site p).1 := by
  unfold State.dedupe
  repeat'
    first
      | with_reducible exact Touches.refl _ _
      | decide
      | (extract_lets +onlyGivenNames x; clear_value x; revert x; intro _)
      | split
      | with_reducible apply Touches.after (State.bump_touches ..)
      | with_reducible apply Touches.after (State.raise_touches ..)
      | with_reducible apply Touches.after (State.setGw_touches ..)

theorem State.refuseForm_touches (s : State) (site : Nat) (h : Hop) (p : Packet) :
    Touches (Touch.out ||| Touch.regs ||| Touch.log ||| Touch.logBase ||| Touch.bells ||| Touch.node |||
      Touch.gws ||| Touch.reports) s (State.refuseForm s site h p) := by
  unfold State.refuseForm
  repeat'
    first
      | with_reducible exact Touches.refl _ _
      | with_reducible assumption
      | decide
      | split
      | with_reducible apply Touches.after (State.bump_touches ..)
      | with_reducible apply Touches.after (State.refuse_touches ..)

theorem State.forward_touches (s : State) (site : Nat) (h : Hop) (p : Packet) (since : Nat) :
    Touches (Touch.out ||| Touch.regs ||| Touch.log ||| Touch.logBase ||| Touch.bells ||| Touch.node |||
      Touch.gws ||| Touch.reports) s (State.forward s site h p since) := by
  unfold State.forward
  repeat'
    first
      | with_reducible exact Touches.refl _ _
      | with_reducible assumption
      | decide
      | split
      | with_reducible apply Touches.after (State.refuse_touches ..)
      | with_reducible apply Touches.after (State.sendHopSince_touches ..)
      | with_reducible apply Touches.after (State.unserved_touches ..)
      | with_reducible apply Touches.after (State.refuseForm_touches ..)
theorem State.holdCopy_touches (s : State) (site : Nat) (h : Hop) (p : Packet) (mets : Meets) (bad :
    Bool) (flaws : Flaws) :
    Touches (Touch.gws) s (State.holdCopy s site h p mets bad flaws) := by
  unfold State.holdCopy
  repeat'
    first
      | with_reducible exact Touches.refl _ _
      | with_reducible assumption
      | decide
      | split
      | with_reducible apply Touches.after (State.setGw_touches ..)

theorem State.received_touches (s : State) (site : Nat) (h : Hop) (p : Packet) :
    Touches (Touch.out ||| Touch.regs ||| Touch.log ||| Touch.logBase ||| Touch.bells ||| Touch.node |||
      Touch.gws ||| Touch.reports) s (State.received s site h p).1 := by
  unfold State.received
  repeat'
    first
      | with_reducible exact Touches.refl _ _
      | with_reducible assumption
      | decide
      | split
      | with_reducible apply Touches.after (State.bump_touches ..)
      | with_reducible apply Touches.after (State.forward_touches ..)
      | with_reducible apply Touches.after (State.holdCopy_touches ..)
      | with_reducible apply Touches.after (State.refuse_touches ..)
      | with_reducible apply Touches.after (State.sendHop_touches ..)
      | with_reducible apply Touches.after (State.refuseForm_touches ..)
      | dsimp only
theorem State.receive_touches (s : State) (site : Nat) (a : Arrival) :
    Touches (Touch.out ||| Touch.regs ||| Touch.log ||| Touch.logBase ||| Touch.bells ||| Touch.node |||
      Touch.gws ||| Touch.reports) s (State.receive s site a).1 := by
  unfold State.receive
  repeat'
    first
      | with_reducible exact Touches.refl _ _
      | with_reducible assumption
      | decide
      | (extract_lets +onlyGivenNames x; with_reducible refine Touches.cut (t := x) ?_ ?_; subst x; rotate_left; clear_value x; revert x; intro _ _; rotate_right)
      | (extract_lets +onlyGivenNames x; clear_value x; revert x; intro _)
      | split
      | with_reducible apply Touches.after (State.forwardBad_touches ..)
      | with_reducible apply Touches.after (State.freeUnits_touches ..)
      | with_reducible refine Touches.of_fst ‹State.received _ _ _ _ = _› (Touches.after (State.received_touches ..) ?_ ?_)
      | with_reducible apply Touches.after (State.received_touches ..)
      | with_reducible refine Touches.of_fst ‹State.takeStream _ _ _ = _› (Touches.after (State.takeStream_touches ..) ?_ ?_)
      | with_reducible apply Touches.after (State.takeStream_touches ..)
      | dsimp only

theorem State.arrives_touches (s : State) (ops : List Nat) (site : Nat) (a : Arrival) :
    Touches (Touch.out ||| Touch.regs ||| Touch.log ||| Touch.logBase ||| Touch.bells ||| Touch.node |||
    Touch.gws ||| Touch.reports) s (State.arrives s ops site a).1 := by
  unfold State.arrives
  repeat'
    first
      | with_reducible exact Touches.refl _ _
      | decide
      | (extract_lets +onlyGivenNames x; clear_value x; revert x; intro _)
      | split
      | with_reducible apply Touches.after (State.receive_touches ..)

theorem State.dedupeLast_touches (s : State) (site : Nat) (p : Packet) :
    Touches (Touch.out ||| Touch.regs ||| Touch.log ||| Touch.logBase ||| Touch.bells ||| Touch.node |||
      Touch.gws ||| Touch.reports) s (State.dedupeLast s site p).1 := by
  unfold State.dedupeLast
  repeat'
    first
      | with_reducible exact Touches.refl _ _
      | with_reducible assumption
      | decide
      | split
      | with_reducible refine Touches.of_fst ‹State.dedupe _ _ _ = _› (Touches.after (State.dedupe_touches ..) ?_ ?_)
      | with_reducible apply Touches.after (State.dedupe_touches ..)
      | dsimp only

end Sys2Proof.Machine
end

