-- ==== Sys2Proof/Laws/Collect.lean ====
section
/-!
SUPPORT. What the operations of Machine/Collect.lean may touch.
-/

namespace Sys2Proof.Machine

theorem State.sendFrame_touches (s : State) (site : Nat) (dir : FrameDir) (type : FrameType) (bell : Nat) (arg : Nat) :
    Touches (Touch.out ||| Touch.seqs) s (State.sendFrame s site dir type bell arg) := by
  unfold State.sendFrame
  repeat'
    first
      | with_reducible exact Touches.refl _ _
      | decide
      | (extract_lets +onlyGivenNames x; clear_value x; revert x; intro _)
      | with_reducible apply Touches.after (State.emit_touches ..)
      | with_reducible apply Touches.set_seqs

theorem execReduceDesc_touches (k : Stack) (c : Core) (fetched : Fetch) (flaws : Flaws) (s : State) :
    Answers (Touch.out ||| Touch.regs ||| Touch.mem ||| Touch.wear ||| Touch.log ||| Touch.logBase |||
    Touch.cores ||| Touch.bells ||| Touch.node ||| Touch.tithes ||| Touch.gws ||| Touch.tracePos |||
    Touch.stackMem ||| Touch.bridgeMem ||| Touch.retireQ ||| Touch.mapLag ||| Touch.reports) s (execReduceDesc k c fetched flaws s) := by
  unfold execReduceDesc
  repeat'
    first
      | with_reducible apply Answers.next
      | with_reducible exact Touches.refl _ _
      | with_reducible assumption
      | decide
      | (extract_lets +onlyGivenNames x; with_reducible refine Answers.cut (t := x) ?_ ?_; subst x; rotate_left; clear_value x; revert x; intro _ _; rotate_right)
      | (extract_lets +onlyGivenNames x; clear_value x; revert x; intro _)
      | split
      | with_reducible apply Touches.after (State.fetchParity_touches ..)
      | with_reducible refine Touches.of_fst ‹State.sourceCheck _ _ _ _ _ = _› (Touches.after (State.sourceCheck_touches ..) ?_ ?_)
      | with_reducible apply Touches.after (State.issue_touches ..)
      | with_reducible apply Touches.after (State.tryFinish_touches ..)
      | with_reducible apply Touches.after (State.failFlight_touches ..)
      | with_reducible apply Touches.after (State.pump_touches ..)
      | with_reducible apply Touches.after (State.useParity_touches ..)
theorem State.setAccum_touches (s : State) (site : Nat) (i : Nat) (a : Accum) :
    Touches (Touch.mem) s (State.setAccum s site i a) := by
  unfold State.setAccum
  repeat'
    first
      | with_reducible exact Touches.refl _ _
      | decide
      | with_reducible apply Touches.after (State.writeMem_touches ..)

theorem State.clearLine_touches (s : State) (site : Nat) (line : Nat) :
    Touches (Touch.mem ||| Touch.redSteps) s (State.clearLine s site line) := by
  unfold State.clearLine
  repeat'
    first
      | with_reducible exact Touches.refl _ _
      | with_reducible assumption
      | decide
      | (extract_lets +onlyGivenNames x; with_reducible refine Touches.cut (t := x) ?_ ?_; subst x; rotate_left; clear_value x; revert x; intro _ _; rotate_right)
      | with_reducible apply Touches.after (State.zeroMem_touches ..)
      | with_reducible apply Touches.set_redSteps

theorem State.syncRed_touches (s : State) (site : Nat) :
    Touches (Touch.regs) s (State.syncRed s site) := by
  unfold State.syncRed
  repeat'
    first
      | with_reducible exact Touches.refl _ _
      | with_reducible assumption
      | decide
      | (extract_lets +onlyGivenNames x; with_reducible refine Touches.cut (t := x) ?_ ?_; subst x; rotate_left; clear_value x; revert x; intro _ _; rotate_right)
      | (extract_lets +onlyGivenNames x; clear_value x; revert x; intro _)
      | split
      | with_reducible apply Touches.after (State.setF_touches ..)

theorem State.setRun_touches (s : State) (r : SliceRun) :
    Touches (Touch.regs ||| Touch.runs) s (State.setRun s r) := by
  unfold State.setRun
  repeat'
    first
      | with_reducible exact Touches.refl _ _
      | with_reducible assumption
      | decide
      | (extract_lets +onlyGivenNames x; with_reducible refine Touches.cut (t := x) ?_ ?_; subst x; rotate_left; clear_value x; revert x; intro _ _; rotate_right)
      | (extract_lets +onlyGivenNames x; clear_value x; revert x; intro _)
      | with_reducible apply Touches.after (State.setF_touches ..)
      | with_reducible apply Touches.set_runs

theorem State.sliceDone_touches (s : State) (r : SliceRun) :
    Touches (Touch.out ||| Touch.regs ||| Touch.runs ||| Touch.seqs) s (State.sliceDone s r) := by
  unfold State.sliceDone
  repeat'
    first
      | with_reducible exact Touches.refl _ _
      | with_reducible assumption
      | decide
      | (extract_lets +onlyGivenNames x; with_reducible refine Touches.cut (t := x) ?_ ?_; subst x; rotate_left; clear_value x; revert x; intro _ _; rotate_right)
      | split
      | with_reducible apply Touches.after (State.setRun_touches ..)
      | with_reducible apply Touches.after (State.sendFrame_touches ..)

theorem State.completeLines_touches (s : State) (r : Rec) (first : Nat) (q : Slice) (site : Nat)
    (bell : Nat) (lines : List Nat) :
    Touches (Touch.regs ||| Touch.mem ||| Touch.redSteps ||| Touch.runs) s (State.completeLines s r
      first q site bell lines) := by
  unfold State.completeLines
  repeat'
    first
      | with_reducible exact Touches.refl _ _
      | with_reducible assumption
      | decide
      | (extract_lets +onlyGivenNames x; with_reducible refine Touches.cut (t := x) ?_ ?_; subst x; rotate_left; clear_value x; revert x; intro _ _; rotate_right)
      | (extract_lets +onlyGivenNames x; clear_value x; revert x; intro _)
      | split
      | with_reducible apply Touches.after (State.clearLine_touches ..)
      | with_reducible apply Touches.after (State.setRun_touches ..)
      | with_reducible refine Touches.foldl ?_ fun _ _ => ?_

theorem State.contribute_touches (s : State) (site : Nat) (p : Packet) :
    Touches (Touch.regs ||| Touch.mem ||| Touch.redSteps ||| Touch.runs ||| Touch.redBytes) s (State.contribute s site p) := by
  unfold State.contribute
  repeat'
    first
      | with_reducible exact Touches.refl _ _
      | with_reducible assumption
      | decide
      | (extract_lets +onlyGivenNames x; with_reducible refine Touches.cut (t := x) ?_ ?_; subst x; rotate_left; clear_value x; revert x; intro _ _; rotate_right)
      | (extract_lets +onlyGivenNames x; clear_value x; revert x; intro _)
      | split
      | with_reducible apply Touches.after (State.setAccum_touches ..)
      | with_reducible apply Touches.after (State.bump_touches ..)
      | with_reducible apply Touches.after (State.setF_touches ..)
      | with_reducible apply Touches.after (State.completeLines_touches ..)
      | with_reducible apply Touches.after (State.syncRed_touches ..)
      | with_reducible refine Touches.foldl ?_ fun _ _ => ?_
      | with_reducible apply Touches.set_redSteps_redBytes

theorem State.engineTakes_touches (s : State) (site : Nat) (h : Hop) (p : Packet) (flaws : Flaws) :
    Touches (Touch.out ||| Touch.regs ||| Touch.mem ||| Touch.log ||| Touch.logBase ||| Touch.bells |||
      Touch.node ||| Touch.gws ||| Touch.redSteps ||| Touch.runs ||| Touch.redBytes ||| Touch.reports)
      s (State.engineTakes s site h p flaws) := by
  unfold State.engineTakes
  repeat'
    first
      | with_reducible exact Touches.refl _ _
      | with_reducible assumption
      | decide
      | (extract_lets +onlyGivenNames x; with_reducible refine Touches.cut (t := x) ?_ ?_; subst x; rotate_left; clear_value x; revert x; intro _ _; rotate_right)
      | (extract_lets +onlyGivenNames x; clear_value x; revert x; intro _)
      | split
      | with_reducible refine Touches.of_fst ‹State.accept _ _ _ _ _ = _› (Touches.after (State.accept_touches ..) ?_ ?_)
      | with_reducible apply Touches.after (State.accept_touches ..)
      | with_reducible apply Touches.after (State.bump_touches ..)
      | with_reducible apply Touches.after (State.clearLine_touches ..)
      | with_reducible apply Touches.after (State.contribute_touches ..)
      | with_reducible apply Touches.after (State.raise_touches ..)
      | with_reducible apply Touches.after (State.refuse_touches ..)
      | with_reducible apply Touches.after (State.syncRed_touches ..)
      | with_reducible refine Touches.foldl ?_ fun _ _ => ?_

theorem State.reduceArrives_touches (s : State) (op : Nat) (site : Nat) (a : Arrival) (flaws : Flaws) :
    Touches (Touch.out ||| Touch.regs ||| Touch.mem ||| Touch.log ||| Touch.logBase ||| Touch.bells |||
      Touch.node ||| Touch.gws ||| Touch.redSteps ||| Touch.runs ||| Touch.redBytes ||| Touch.reports)
      s (State.reduceArrives s op site a flaws) := by
  unfold State.reduceArrives
  repeat'
    first
      | with_reducible exact Touches.refl _ _
      | with_reducible assumption
      | decide
      | split
      | with_reducible refine Touches.of_fst ‹State.arrives _ _ _ _ = _› (Touches.after (State.arrives_touches ..) ?_ ?_)
      | with_reducible apply Touches.after (State.arrives_touches ..)
      | with_reducible refine Touches.of_fst ‹State.dedupe _ _ _ = _› (Touches.after (State.dedupe_touches ..) ?_ ?_)
      | with_reducible apply Touches.after (State.dedupe_touches ..)
      | with_reducible apply Touches.after (State.engineTakes_touches ..)
      | with_reducible apply Touches.after (State.refuse_touches ..)

theorem execReduceAdd_touches (site : Site) (a : Arrival) (flaws : Flaws) (s : State) :
    Answers (Touch.out ||| Touch.regs ||| Touch.mem ||| Touch.log ||| Touch.logBase ||| Touch.bells |||
    Touch.node ||| Touch.gws ||| Touch.redSteps ||| Touch.runs ||| Touch.redBytes ||| Touch.reports) s (execReduceAdd site a flaws s) := by
  unfold execReduceAdd
  repeat'
    first
      | with_reducible apply Answers.next
      | with_reducible exact Touches.refl _ _
      | decide
      | with_reducible apply Touches.after (State.reduceArrives_touches ..)

theorem execReduceMax_touches (site : Site) (a : Arrival) (flaws : Flaws) (s : State) :
    Answers (Touch.out ||| Touch.regs ||| Touch.mem ||| Touch.log ||| Touch.logBase ||| Touch.bells |||
    Touch.node ||| Touch.gws ||| Touch.redSteps ||| Touch.runs ||| Touch.redBytes ||| Touch.reports) s (execReduceMax site a flaws s) := by
  unfold execReduceMax
  repeat'
    first
      | with_reducible apply Answers.next
      | with_reducible exact Touches.refl _ _
      | decide
      | with_reducible apply Touches.after (State.reduceArrives_touches ..)

theorem execReduceMin_touches (site : Site) (a : Arrival) (flaws : Flaws) (s : State) :
    Answers (Touch.out ||| Touch.regs ||| Touch.mem ||| Touch.log ||| Touch.logBase ||| Touch.bells |||
    Touch.node ||| Touch.gws ||| Touch.redSteps ||| Touch.runs ||| Touch.redBytes ||| Touch.reports) s (execReduceMin site a flaws s) := by
  unfold execReduceMin
  repeat'
    first
      | with_reducible apply Answers.next
      | with_reducible exact Touches.refl _ _
      | decide
      | with_reducible apply Touches.after (State.reduceArrives_touches ..)

theorem State.outputFails_touches (s : State) (run : Nat × Nat × Nat) (last : Bool) (status : Nat) :
    Touches (Touch.out ||| Touch.regs ||| Touch.log ||| Touch.logBase ||| Touch.bells ||| Touch.node |||
      Touch.runs ||| Touch.reports) s (State.outputFails s run last status) := by
  unfold State.outputFails
  repeat'
    first
      | with_reducible exact Touches.refl _ _
      | with_reducible assumption
      | decide
      | (extract_lets +onlyGivenNames x; with_reducible refine Touches.cut (t := x) ?_ ?_; subst x; rotate_left; clear_value x; revert x; intro _ _; rotate_right)
      | (extract_lets +onlyGivenNames x; clear_value x; revert x; intro _)
      | split
      | with_reducible apply Touches.after (State.raiseStatus_touches ..)
      | with_reducible apply Touches.after (State.setRun_touches ..)

theorem State.outputTo_touches (s : State) (run : Nat × Nat × Nat) (ctx : Nat) (pkg : Nat) (site :
    Nat) (off : Nat) (last : Bool) (mets : Meets) (bs : List Byte) :
    Touches (Touch.out ||| Touch.regs ||| Touch.mem ||| Touch.log ||| Touch.logBase ||| Touch.bells |||
      Touch.node ||| Touch.gws ||| Touch.runs ||| Touch.reports) s (State.outputTo s run ctx pkg site
      off last mets bs) := by
  unfold State.outputTo
  repeat'
    first
      | with_reducible exact Touches.refl _ _
      | with_reducible assumption
      | decide
      | (extract_lets +onlyGivenNames x; with_reducible refine Touches.cut (t := x) ?_ ?_; subst x; rotate_left; clear_value x; revert x; intro _ _; rotate_right)
      | (extract_lets +onlyGivenNames x; clear_value x; revert x; intro _)
      | split
      | with_reducible apply Touches.after (State.outputFails_touches ..)
      | with_reducible refine Touches.of_fst ‹State.portWrite _ _ _ _ _ _ _ = _› (Touches.after (State.portWrite_touches ..) ?_ ?_)
      | with_reducible apply Touches.after (State.portWrite_touches ..)
      | with_reducible apply Touches.after (State.send_touches ..)
      | with_reducible apply Touches.after (State.sendTagged_touches ..)
      | with_reducible apply Touches.after (State.setRun_touches ..)

theorem State.ownOutput_touches (s : State) (run : Nat × Nat × Nat) (p : Packet) (mets : Meets) :
    Touches (Touch.out ||| Touch.regs ||| Touch.mem ||| Touch.log ||| Touch.logBase ||| Touch.bells
    ||| Touch.node ||| Touch.bridgeMem ||| Touch.runs ||| Touch.reports) s (State.ownOutput s run p
    mets):= by
  unfold State.ownOutput
  repeat'
    first
      | with_reducible exact Touches.refl _ _
      | with_reducible assumption
      | decide
      | (extract_lets +onlyGivenNames nx; with_reducible refine Touches.cut (t := nx) ?_ ?_; subst nx; rotate_left; revert nx; intro _ _; rotate_right)
      | split
      | with_reducible apply Touches.after (State.hbmMoved_touches ..)
      | with_reducible apply Touches.after (State.outputFails_touches ..)
      | with_reducible refine Touches.of_fst ‹State.portWrite _ _ _ _ _ _ _ = _› (Touches.after (State.portWrite_touches ..) ?_ ?_)
      | with_reducible apply Touches.after (State.portWrite_touches ..)
      | with_reducible refine Touches.foldl ?_ fun _ _ => ?_

theorem State.putCopies_touches (s : State) (run : Nat × Nat × Nat) (copies : List (Option Nat × Site)) (p : Packet) :
    Touches (Touch.out ||| Touch.regs ||| Touch.gws ||| Touch.runs) s (State.putCopies s run copies p) := by
  unfold State.putCopies
  repeat'
    first
      | with_reducible exact Touches.refl _ _
      | with_reducible assumption
      | decide
      | (extract_lets +onlyGivenNames x; with_reducible refine Touches.cut (t := x) ?_ ?_; subst x; rotate_left; clear_value x; revert x; intro _ _; rotate_right)
      | (extract_lets +onlyGivenNames x; clear_value x; revert x; intro _)
      | split
      | with_reducible apply Touches.after (State.sendCopies_touches ..)
      | with_reducible apply Touches.after (State.sendTagged_touches ..)
      | with_reducible apply Touches.after (State.setRun_touches ..)

theorem State.outputHere_touches (s : State) (run : Nat × Nat × Nat) (p : Packet) (mets : Meets) (site : Nat) :
    Touches (Touch.out ||| Touch.regs ||| Touch.mem ||| Touch.log ||| Touch.logBase ||| Touch.bells |||
      Touch.node ||| Touch.bridgeMem ||| Touch.runs ||| Touch.reports) s (State.outputHere s run p
      mets site) := by
  unfold State.outputHere
  repeat'
    first
      | with_reducible exact Touches.refl _ _
      | with_reducible assumption
      | decide
      | split
      | with_reducible apply Touches.after (State.outputFails_touches ..)
      | with_reducible apply Touches.after (State.ownOutput_touches ..)

theorem State.outputMcast_touches (s : State) (run : Nat × Nat × Nat) (ctx : Nat) (mgroup : Nat)
    (off : Nat) (last : Bool) (mets : Meets) (bs : List Byte) : Touches (Touch.out ||| Touch.regs
    ||| Touch.mem ||| Touch.log ||| Touch.logBase ||| Touch.bells ||| Touch.node ||| Touch.gws |||
    Touch.bridgeMem ||| Touch.runs ||| Touch.reports) s (State.outputMcast s run ctx mgroup
      off last mets bs) := by
  unfold State.outputMcast
  repeat'
    first
      | with_reducible exact Touches.refl _ _
      | with_reducible assumption
      | decide
      | (extract_lets +onlyGivenNames x; with_reducible refine Touches.cut (t := x) ?_ ?_; subst x; rotate_left; clear_value x; revert x; intro _ _; rotate_right)
      | (extract_lets +onlyGivenNames x; clear_value x; revert x; intro _)
      | split
      | with_reducible apply Touches.after (State.outputCopy_touches ..)
      | with_reducible apply Touches.after (State.putCopy_touches ..)
      | with_reducible refine Touches.foldl ?_ fun _ _ => ?_
      | with_reducible apply Touches.after (State.outputHere_touches ..)
      | with_reducible apply Touches.after (State.putCopies_touches ..)
theorem State.output_touches (s : State) (r : Rec) (q : Slice) (bell : Nat) (scale : Bool) (off :
    Nat) (last : Bool) (mets : Meets) (bs : List Byte) : Touches (Touch.out ||| Touch.regs |||
    Touch.mem ||| Touch.log ||| Touch.logBase ||| Touch.bells ||| Touch.node ||| Touch.gws |||
    Touch.bridgeMem ||| Touch.runs ||| Touch.reports) s (State.output s r q bell scale off
      last mets bs) := by
  unfold State.output
  repeat'
    first
      | with_reducible exact Touches.refl _ _
      | with_reducible assumption
      | decide
      | (extract_lets +onlyGivenNames x; with_reducible refine Touches.cut (t := x) ?_ ?_; subst x; rotate_left; clear_value x; revert x; intro _ _; rotate_right)
      | (extract_lets +onlyGivenNames x; clear_value x; revert x; intro _)
      | split
      | with_reducible apply Touches.after (State.outputMcast_touches ..)
      | with_reducible apply Touches.after (State.outputTo_touches ..)

theorem State.lineOutput_touches (s : State) (r : Rec) (q : Slice) (run : SliceRun) (count : Nat)
    (mets : Meets) : Touches (Touch.out ||| Touch.regs ||| Touch.mem ||| Touch.log ||| Touch.logBase
    ||| Touch.bells ||| Touch.node ||| Touch.gws ||| Touch.bridgeMem ||| Touch.runs ||| Touch.seqs
    ||| Touch.reports) s (State.lineOutput s
      r q run count mets) := by
  unfold State.lineOutput
  repeat'
    first
      | with_reducible exact Touches.refl _ _
      | with_reducible assumption
      | decide
      | (extract_lets +onlyGivenNames x; with_reducible refine Touches.cut (t := x) ?_ ?_; subst x; rotate_left; clear_value x; revert x; intro _ _; rotate_right)
      | (extract_lets +onlyGivenNames x; clear_value x; revert x; intro _)
      | split
      | with_reducible apply Touches.after (State.bump_touches ..)
      | with_reducible apply Touches.after (State.output_touches ..)
      | with_reducible apply Touches.after (State.setRun_touches ..)
      | with_reducible apply Touches.after (State.sliceDone_touches ..)
      | with_reducible refine Touches.foldl ?_ fun _ _ => ?_

theorem execLineOutput_touches (site : Site) (group : Fin 4096) (count : Fin 33) (mets : Meets) (s : State) :
    Answers (Touch.out ||| Touch.regs ||| Touch.mem ||| Touch.log ||| Touch.logBase ||| Touch.bells
    ||| Touch.node ||| Touch.gws ||| Touch.bridgeMem ||| Touch.runs ||| Touch.seqs |||
    Touch.reports) s (execLineOutput site
      group count mets s) := by
  unfold execLineOutput
  repeat'
    first
      | with_reducible apply Answers.next
      | with_reducible exact Touches.refl _ _
      | with_reducible assumption
      | decide
      | split
      | with_reducible apply Touches.after (State.lineOutput_touches ..)

theorem State.clearSlice_touches (s : State) (site : Nat) (q : Slice) :
    Touches (Touch.mem ||| Touch.redSteps) s (State.clearSlice s site q) := by
  unfold State.clearSlice
  repeat'
    first
      | with_reducible exact Touches.refl _ _
      | decide
      | with_reducible apply Touches.after (State.clearLine_touches ..)
      | with_reducible refine Touches.foldl ?_ fun _ _ => ?_

theorem State.checkSlices_touches (s : State) (site : Nat) (bell : Nat) :
    Touches (Touch.out ||| Touch.regs ||| Touch.mem ||| Touch.log ||| Touch.logBase ||| Touch.bells |||
    Touch.node ||| Touch.redSteps ||| Touch.runs ||| Touch.reports) s (State.checkSlices s site bell) := by
  unfold State.checkSlices
  repeat'
    first
      | with_reducible exact Touches.refl _ _
      | with_reducible assumption
      | decide
      | (extract_lets +onlyGivenNames x; with_reducible refine Touches.cut (t := x) ?_ ?_; subst x; rotate_left; clear_value x; revert x; intro _ _; rotate_right)
      | (extract_lets +onlyGivenNames x; clear_value x; revert x; intro _)
      | split
      | with_reducible apply Touches.after (State.bump_touches ..)
      | with_reducible apply Touches.after (State.raise_touches ..)
      | with_reducible apply Touches.after (State.setRun_touches ..)
      | with_reducible apply Touches.after (State.clearSlice_touches ..)
      | with_reducible apply Touches.after (State.syncRed_touches ..)
      | with_reducible refine Touches.foldl ?_ fun _ _ => ?_

theorem State.abandonEngine_touches (s : State) (site : Nat) : Touches (Touch.regs ||| Touch.mem |||
    Touch.gws ||| Touch.redSteps ||| Touch.runs ||| Touch.redBytes) s (State.abandonEngine s site):= by
  unfold State.abandonEngine
  repeat'
    first
      | with_reducible exact Touches.refl _ _
      | with_reducible assumption
      | decide
      | (extract_lets +onlyGivenNames x; with_reducible refine Touches.cut (t := x) ?_ ?_; subst x; rotate_left; clear_value x; revert x; intro _ _; rotate_right)
      | split
      | with_reducible apply Touches.after (State.clearLine_touches ..)
      | with_reducible refine Touches.of_fst ‹State.cancelTags _ _ _ = _› (Touches.after (State.cancelTags_touches ..) ?_ ?_)
      | with_reducible apply Touches.after (State.syncRed_touches ..)
      | with_reducible apply Touches.after (State.setF_touches ..)
      | with_reducible refine Touches.foldl ?_ fun _ _ => ?_
      | with_reducible apply Touches.set_runs
      | dsimp only
      | with_reducible apply Touches.set_runs_redBytes
theorem State.forceEngine_touches (s : State) (site : Nat) :
    Touches (Touch.regs ||| Touch.mem ||| Touch.redSteps ||| Touch.runs) s (State.forceEngine s site) := by
  unfold State.forceEngine
  repeat'
    first
      | with_reducible exact Touches.refl _ _
      | with_reducible assumption
      | decide
      | (extract_lets +onlyGivenNames x; with_reducible refine Touches.cut (t := x) ?_ ?_; subst x; rotate_left; clear_value x; revert x; intro _ _; rotate_right)
      | (extract_lets +onlyGivenNames x; clear_value x; revert x; intro _)
      | split
      | with_reducible apply Touches.after (State.clearLine_touches ..)
      | with_reducible apply Touches.after (State.syncRed_touches ..)
      | with_reducible refine Touches.foldl ?_ fun _ _ => ?_
      | with_reducible apply Touches.set_runs

end Sys2Proof.Machine
end

