-- ==== Sys2Proof/Laws/HostCache.lean ====
section
/-!
SUPPORT. What the operations on the lines of host cores can touch.
-/

namespace Sys2Proof.Machine

open Sys2Proof

theorem State.putLine_touches (s : State) (k : Nat) (b : Nat) (l : HostLine) :
    Touches (Touch.hostLines) s (State.putLine s k b l) := by
  unfold State.putLine
  repeat'
    first
      | with_reducible exact Touches.refl _ _
      | with_reducible assumption
      | decide
      | split
      | dsimp only
      | with_reducible apply Touches.set_hostLines

theorem State.dropLine_touches (s : State) (k : Nat) (b : Nat) :
    Touches (Touch.hostLines) s (State.dropLine s k b) := by
  unfold State.dropLine
  repeat'
    first
      | with_reducible exact Touches.refl _ _
      | with_reducible assumption
      | decide
      | split
      | dsimp only
      | with_reducible apply Touches.set_hostLines

theorem State.fillLine_touches (s : State) (k : Nat) (b : Nat) (bs : List Byte) :
    Touches (Touch.hostLines) s (State.fillLine s k b bs) := by
  unfold State.fillLine
  repeat'
    first
      | with_reducible exact Touches.refl _ _
      | with_reducible assumption
      | decide
      | split
      | with_reducible apply Touches.after (State.putLine_touches ..)

theorem State.breakResv_touches (s : State) (h : Nat) (lines : List Nat) :
    Touches (Touch.hostResv) s (State.breakResv s h lines) := by
  unfold State.breakResv
  repeat'
    first
      | with_reducible exact Touches.refl _ _
      | with_reducible assumption
      | decide
      | split
      | dsimp only
      | with_reducible apply Touches.set_hostResv

theorem State.storeLines_touches (s : State) (h : Nat) (g : Nat) (bs : List Byte) :
    Touches (Touch.hostLines ||| Touch.hostResv) s (State.storeLines s h g bs) := by
  unfold State.storeLines
  repeat'
    first
      | with_reducible exact Touches.refl _ _
      | with_reducible assumption
      | decide
      | (extract_lets +onlyGivenNames x; with_reducible refine Touches.cut (t := x) ?_ ?_; subst x; rotate_left; clear_value x; revert x; intro _ _; rotate_right)
      | (extract_lets +onlyGivenNames x; clear_value x; revert x; intro _)
      | split
      | with_reducible apply Touches.after (State.breakResv_touches ..)
      | with_reducible apply Touches.after (State.putLine_touches ..)
      | with_reducible refine Touches.foldl ?_ fun _ _ => ?_

theorem State.refetchLines_touches (s : State) (k : Nat) (g : Nat) (n : Nat) :
    Touches (Touch.hostLines) s (State.refetchLines s k g n) := by
  unfold State.refetchLines
  repeat'
    first
      | with_reducible exact Touches.refl _ _
      | with_reducible assumption
      | decide
      | split
      | with_reducible apply Touches.after (State.dropLine_touches ..)
      | with_reducible refine Touches.foldl ?_ fun _ _ => ?_

theorem State.amoInLine_touches (s : State) (h : Nat) (g : Nat) (amo : HostAmo) :
    Touches (Touch.out ||| Touch.hostLines ||| Touch.hostResv) s (State.amoInLine s h g amo) := by
  unfold State.amoInLine
  repeat'
    first
      | with_reducible exact Touches.refl _ _
      | with_reducible assumption
      | decide
      | (extract_lets +onlyGivenNames x; with_reducible refine Touches.cut (t := x) ?_ ?_; subst x; rotate_left; clear_value x; revert x; intro _ _; rotate_right)
      | (extract_lets +onlyGivenNames x; clear_value x; revert x; intro _)
      | split
      | with_reducible apply Touches.after (State.emit_touches ..)
      | with_reducible apply Touches.after (State.storeLines_touches ..)
      | dsimp only
      | with_reducible apply Touches.set_hostResv

theorem State.hostDo_touches (s : State) (h : Nat) (g : Nat) (n : Nat) (todo : HostDo) :
    Touches (Touch.out ||| Touch.regs ||| Touch.hostLines ||| Touch.hostResv) s (State.hostDo s h g n todo) := by
  unfold State.hostDo
  repeat'
    first
      | with_reducible exact Touches.refl _ _
      | with_reducible assumption
      | decide
      | split
      | with_reducible apply Touches.after (State.amoInLine_touches ..)
      | with_reducible apply Touches.after (State.emit_touches ..)
      | with_reducible apply Touches.after (State.store_touches ..)
      | with_reducible apply Touches.after (State.storeLines_touches ..)

theorem State.linesCome_touches (s : State) (h : Nat) (g : Nat) (n : Nat) (todo : HostDo) (bs : List Byte) :
    Touches (Touch.out ||| Touch.regs ||| Touch.hostLines ||| Touch.hostResv) s (State.linesCome s h g n todo bs) := by
  unfold State.linesCome
  repeat'
    first
      | with_reducible exact Touches.refl _ _
      | with_reducible assumption
      | decide
      | split
      | with_reducible apply Touches.after (State.fillLine_touches ..)
      | with_reducible apply Touches.after (State.hostDo_touches ..)
      | with_reducible refine Touches.foldl ?_ fun _ _ => ?_

theorem State.loseHosts_touches (s : State) (k : Nat) :
    Touches (Touch.hostLines ||| Touch.hostResv ||| Touch.imsic) s (State.loseHosts s k) := by
  unfold State.loseHosts
  repeat'
    first
      | with_reducible exact Touches.refl _ _
      | with_reducible assumption
      | decide
      | split
      | dsimp only
      | with_reducible apply Touches.set_hostLines_hostResv_imsic

end Sys2Proof.Machine
end

