-- ==== Sys2Proof/Laws/Transactions.lean ====
section
/-!
SUPPORT. What the operations of Machine/Transactions.lean may touch.
-/

namespace Sys2Proof.Machine

theorem State.beginXfer_touches (s : State) (left : Nat) (kind : XferKind) :
    Touches (Touch.nextId ||| Touch.xfers) s (State.beginXfer s left kind).1 := by
  unfold State.beginXfer
  repeat'
    first
      | with_reducible exact Touches.refl _ _
      | decide
      | dsimp only
      | with_reducible apply Touches.set_nextId_xfers

theorem State.frameOut_touches (s : State) (what : Output) :
    Touches (Touch.out ||| Touch.sas) s (State.frameOut s what) := by
  unfold State.frameOut
  repeat'
    first
      | with_reducible exact Touches.refl _ _
      | with_reducible assumption
      | decide
      | split
      | with_reducible apply Touches.after (State.emit_touches ..)
      | dsimp only
      | with_reducible apply Touches.set_sas

theorem State.operatorOut_touches (s : State) (q : Requester) (rep : Nat) (bytes : List Byte) :
    Touches (Touch.out ||| Touch.regs ||| Touch.tithes ||| Touch.nextId ||| Touch.egress |||
    Touch.sas ||| Touch.heldOut) s (State.operatorOut s q rep bytes):= by
  unfold State.operatorOut
  repeat'
    first
      | with_reducible exact Touches.refl _ _
      | decide
      | (extract_lets +onlyGivenNames x; with_reducible refine Touches.cut (t := x) ?_ ?_; subst x; rotate_left; clear_value x; revert x; intro _ _; rotate_right)
      | (extract_lets +onlyGivenNames x; clear_value x; revert x; intro _)
      | with_reducible assumption
      | split
      | with_reducible apply Touches.after (State.emit_touches ..)
      | with_reducible apply Touches.after (State.titheAsk_touches ..)
      | with_reducible apply Touches.after (State.setTithe_touches ..)
      | with_reducible apply Touches.after (State.frameOut_touches ..)
      | dsimp only
      | with_reducible apply Touches.set_nextId
      | with_reducible apply Touches.set_egress
      | with_reducible apply Touches.set_heldOut
theorem State.setRing_touches (s : State) (r : Nat) (x : RingSt) :
    Touches (Touch.rings) s (State.setRing s r x) := by
  unfold State.setRing
  repeat'
    first
      | with_reducible exact Touches.refl _ _
      | decide
      | with_reducible apply Touches.set_rings

theorem State.endXfer_touches (s : State) (x : Xfer) :
    Touches (Touch.out ||| Touch.regs ||| Touch.mem ||| Touch.wear ||| Touch.log ||| Touch.logBase |||
      Touch.cores ||| Touch.bells ||| Touch.node ||| Touch.tithes ||| Touch.gws ||| Touch.tracePos |||
      Touch.stackMem ||| Touch.bridgeMem ||| Touch.invPend ||| Touch.nextId ||| Touch.jobs |||
      Touch.xfers ||| Touch.runs ||| Touch.seqs ||| Touch.rings ||| Touch.egress ||| Touch.sas |||
      Touch.led ||| Touch.retireQ ||| Touch.mapLag ||| Touch.reports ||| Touch.heldOut |||
      Touch.hostLines ||| Touch.hostResv) s (State.endXfer s x) := by
  unfold State.endXfer
  repeat'
    first
      | with_reducible exact Touches.refl _ _
      | with_reducible assumption
      | decide
      | (extract_lets +onlyGivenNames x; with_reducible refine Touches.cut (t := x) ?_ ?_; subst x; rotate_left; clear_value x; revert x; intro _ _; rotate_right)
      | (extract_lets +onlyGivenNames x; clear_value x; revert x; intro _)
      | split
      | with_reducible apply Touches.after (State.emit_touches ..)
      | with_reducible apply Touches.after (State.linesCome_touches ..)
      | with_reducible apply Touches.after (State.memRead_touches ..)
      | with_reducible apply Touches.after (State.memWrite_touches ..)
      | with_reducible apply Touches.after (State.operatorOut_touches ..)
      | with_reducible apply Touches.after (State.setBell_touches ..)
      | with_reducible apply Touches.after (State.setRing_touches ..)

theorem State.xferPart_touches (s : State) (id : Nat) (off : Nat) (status : Nat) (bytes : List Byte)
    : Touches (Touch.out ||| Touch.regs ||| Touch.mem ||| Touch.wear ||| Touch.log ||| Touch.logBase
    ||| Touch.cores ||| Touch.bells ||| Touch.node ||| Touch.tithes ||| Touch.gws ||| Touch.tracePos
    ||| Touch.stackMem ||| Touch.bridgeMem ||| Touch.invPend ||| Touch.nextId ||| Touch.jobs |||
    Touch.xfers ||| Touch.runs ||| Touch.seqs ||| Touch.rings ||| Touch.egress ||| Touch.sas |||
    Touch.led ||| Touch.retireQ ||| Touch.mapLag ||| Touch.reports ||| Touch.heldOut |||
    Touch.hostLines ||| Touch.hostResv) s (State.xferPart s id off status
    bytes):= by
  unfold State.xferPart
  repeat'
    first
      | with_reducible exact Touches.refl _ _
      | decide
      | split
      | with_reducible apply Touches.after (State.endXfer_touches ..)
      | dsimp only
      | with_reducible apply Touches.set_xfers

theorem State.flightHears_touches (s : State) (k : Nat) (c : Nat) (serial : Nat) :
    Touches (Touch.cores) s (State.flightHears s k c serial) := by
  unfold State.flightHears
  repeat'
    first
      | with_reducible exact Touches.refl _ _
      | decide
      | split
      | with_reducible apply Touches.after (State.setCore_touches ..)

theorem State.endTag_touches (s : State) (site : Nat) (issuer : Nat) (why : Purpose) (ctx : Nat)
    (status : Nat) (mets : Meets) (bs : List Byte) : Touches (Touch.out ||| Touch.regs ||| Touch.mem
    ||| Touch.wear ||| Touch.log ||| Touch.logBase ||| Touch.cores ||| Touch.bells ||| Touch.node
    ||| Touch.tithes ||| Touch.gws ||| Touch.tracePos ||| Touch.stackMem ||| Touch.bridgeMem |||
    Touch.invPend ||| Touch.nextId ||| Touch.jobs ||| Touch.xfers ||| Touch.runs ||| Touch.seqs |||
    Touch.rings ||| Touch.egress ||| Touch.sas ||| Touch.led ||| Touch.retireQ ||| Touch.mapLag |||
    Touch.reports ||| Touch.heldOut ||| Touch.hostLines ||| Touch.hostResv) s (State.endTag s site
    issuer why ctx status mets bs):= by
  unfold State.endTag
  repeat'
    first
      | with_reducible exact Touches.refl _ _
      | with_reducible assumption
      | decide
      | (extract_lets +onlyGivenNames x; with_reducible refine Touches.cut (t := x) ?_ ?_; subst x; rotate_left; clear_value x; revert x; intro _ _; rotate_right)
      | (extract_lets +onlyGivenNames x; clear_value x; revert x; intro _)
      | split
      | with_reducible apply Touches.after (State.cacheFill_touches ..)
      | with_reducible apply Touches.after (State.deliver_touches ..)
      | with_reducible apply Touches.after (State.failFlight_touches ..)
      | with_reducible apply Touches.after (State.flightHears_touches ..)
      | with_reducible apply Touches.after (State.raiseStatus_touches ..)
      | with_reducible apply Touches.after (State.sliceDone_touches ..)
      | with_reducible apply Touches.after (State.tryFinish_touches ..)
      | with_reducible apply Touches.after (State.xferPart_touches ..)

theorem State.tagDrain_touches (s : State) (site : Nat) (issuer : Nat) : Touches (Touch.out |||
    Touch.regs ||| Touch.mem ||| Touch.wear ||| Touch.log ||| Touch.logBase ||| Touch.cores |||
    Touch.bells ||| Touch.node ||| Touch.tithes ||| Touch.gws ||| Touch.tracePos ||| Touch.stackMem
    ||| Touch.bridgeMem ||| Touch.invPend ||| Touch.nextId ||| Touch.jobs ||| Touch.xfers |||
    Touch.runs ||| Touch.seqs ||| Touch.rings ||| Touch.egress ||| Touch.sas ||| Touch.led |||
    Touch.retireQ ||| Touch.mapLag ||| Touch.reports ||| Touch.heldOut ||| Touch.hostLines |||
    Touch.hostResv) s (State.tagDrain s site issuer):= by
  unfold State.tagDrain
  repeat'
    first
      | with_reducible exact Touches.refl _ _
      | decide
      | (extract_lets +onlyGivenNames x; clear_value x; revert x; intro _)
      | split
      | with_reducible refine Touches.foldl ?_ fun _ _ => ?_
      | with_reducible apply Touches.after (State.endTag_touches ..)
      | with_reducible apply Touches.after (State.sendTagged_touches ..)
      | with_reducible apply Touches.after (State.setGw_touches ..)
theorem State.pumpIssuer_touches (s : State) (site : Nat) (issuer : Nat) : Touches (Touch.out |||
    Touch.regs ||| Touch.mem ||| Touch.wear ||| Touch.log ||| Touch.logBase ||| Touch.cores |||
    Touch.bells ||| Touch.node ||| Touch.tithes ||| Touch.gws ||| Touch.tracePos ||| Touch.stackMem
    ||| Touch.bridgeMem ||| Touch.invPend ||| Touch.nextId ||| Touch.jobs ||| Touch.xfers |||
    Touch.runs ||| Touch.seqs ||| Touch.rings ||| Touch.egress ||| Touch.sas ||| Touch.led |||
    Touch.retireQ ||| Touch.mapLag ||| Touch.reports ||| Touch.heldOut ||| Touch.hostLines |||
    Touch.hostResv) s
    (State.pumpIssuer s site issuer):= by
  unfold State.pumpIssuer
  repeat'
    first
      | with_reducible exact Touches.refl _ _
      | decide
      | (extract_lets +onlyGivenNames x; subst x)
      | split
      | with_reducible apply Touches.after (State.pumpCore_touches ..)
      | with_reducible apply Touches.after (State.tagDrain_touches ..)

theorem State.respTag_touches (s : State) (site : Nat) (key : Nat) (status : Nat) (mets : Meets) (bs
    : List Byte) : Touches (Touch.out ||| Touch.regs ||| Touch.mem ||| Touch.wear ||| Touch.log |||
    Touch.logBase ||| Touch.cores ||| Touch.bells ||| Touch.node ||| Touch.tithes ||| Touch.gws |||
    Touch.tracePos ||| Touch.stackMem ||| Touch.bridgeMem ||| Touch.invPend ||| Touch.nextId |||
    Touch.jobs ||| Touch.xfers ||| Touch.runs ||| Touch.seqs ||| Touch.rings ||| Touch.egress |||
    Touch.sas ||| Touch.led ||| Touch.retireQ ||| Touch.mapLag ||| Touch.reports ||| Touch.heldOut
    ||| Touch.hostLines ||| Touch.hostResv) s (State.respTag s site key status mets bs)
      := by
  unfold State.respTag
  repeat'
    first
      | with_reducible exact Touches.refl _ _
      | with_reducible assumption
      | decide
      | split
      | with_reducible apply Touches.after (State.endTag_touches ..)
      | with_reducible apply Touches.after (State.freeLive_touches ..)
      | with_reducible apply Touches.after (State.pumpIssuer_touches ..)

theorem State.failTag_touches (s : State) (site : Nat) (key : Nat) (status : Nat) : Touches
    (Touch.out ||| Touch.regs ||| Touch.mem ||| Touch.wear ||| Touch.log ||| Touch.logBase |||
    Touch.cores ||| Touch.bells ||| Touch.node ||| Touch.tithes ||| Touch.gws ||| Touch.tracePos |||
    Touch.stackMem ||| Touch.bridgeMem ||| Touch.invPend ||| Touch.nextId ||| Touch.jobs |||
    Touch.xfers ||| Touch.runs ||| Touch.seqs ||| Touch.rings ||| Touch.egress ||| Touch.sas |||
    Touch.led ||| Touch.retireQ ||| Touch.mapLag ||| Touch.reports ||| Touch.heldOut |||
    Touch.hostLines ||| Touch.hostResv) s (State.failTag s site key status):= by
  unfold State.failTag
  repeat'
    first
      | with_reducible exact Touches.refl _ _
      | with_reducible assumption
      | decide
      | split
      | with_reducible apply Touches.after (State.endTag_touches ..)
      | with_reducible apply Touches.after (State.pumpIssuer_touches ..)
      | with_reducible apply Touches.after (State.quarantine_touches ..)

theorem State.failTags_touches (s : State) (site : Nat) (status : Nat) (p : Nat × TagEntry → Bool) :
    Touches (Touch.out ||| Touch.regs ||| Touch.mem ||| Touch.wear ||| Touch.log ||| Touch.logBase
    ||| Touch.cores ||| Touch.bells ||| Touch.node ||| Touch.tithes ||| Touch.gws ||| Touch.tracePos
    ||| Touch.stackMem ||| Touch.bridgeMem ||| Touch.invPend ||| Touch.nextId ||| Touch.jobs |||
    Touch.xfers ||| Touch.runs ||| Touch.seqs ||| Touch.rings ||| Touch.egress ||| Touch.sas |||
    Touch.led ||| Touch.retireQ ||| Touch.mapLag ||| Touch.reports ||| Touch.heldOut |||
    Touch.hostLines ||| Touch.hostResv) s (State.failTags s site status p):= by
  unfold State.failTags
  repeat'
    first
      | with_reducible exact Touches.refl _ _
      | decide
      | with_reducible apply Touches.after (State.failTag_touches ..)
      | with_reducible refine Touches.foldl ?_ fun _ _ => ?_

theorem execTagTimeout_touches (site : Site) (issuer : Fin 128) (tag : Fin 4096) (s : State) :
    Answers (Touch.out ||| Touch.regs ||| Touch.mem ||| Touch.wear ||| Touch.log ||| Touch.logBase
    ||| Touch.cores ||| Touch.bells ||| Touch.node ||| Touch.tithes ||| Touch.gws ||| Touch.tracePos
    ||| Touch.stackMem ||| Touch.bridgeMem ||| Touch.invPend ||| Touch.nextId ||| Touch.jobs |||
    Touch.xfers ||| Touch.runs ||| Touch.seqs ||| Touch.rings ||| Touch.egress ||| Touch.sas |||
    Touch.led ||| Touch.retireQ ||| Touch.mapLag ||| Touch.reports ||| Touch.heldOut |||
    Touch.hostLines ||| Touch.hostResv) s (execTagTimeout site issuer tag s):= by
  unfold execTagTimeout
  repeat'
    first
      | with_reducible apply Answers.next
      | with_reducible exact Touches.refl _ _
      | decide
      | (extract_lets +onlyGivenNames x; clear_value x; revert x; intro _)
      | split
      | with_reducible apply Touches.after (State.failTag_touches ..)

theorem execQuarantineEnd_touches (site : Site) (issuer : Fin 128) (tag : Fin 4096) (s : State) :
    Answers (Touch.out ||| Touch.regs ||| Touch.mem ||| Touch.wear ||| Touch.log ||| Touch.logBase
    ||| Touch.cores ||| Touch.bells ||| Touch.node ||| Touch.tithes ||| Touch.gws ||| Touch.tracePos
    ||| Touch.stackMem ||| Touch.bridgeMem ||| Touch.invPend ||| Touch.nextId ||| Touch.jobs |||
    Touch.xfers ||| Touch.runs ||| Touch.seqs ||| Touch.rings ||| Touch.egress ||| Touch.sas |||
    Touch.led ||| Touch.retireQ ||| Touch.mapLag ||| Touch.reports ||| Touch.heldOut |||
    Touch.hostLines ||| Touch.hostResv) s (execQuarantineEnd site issuer tag s):= by
  unfold execQuarantineEnd
  repeat'
    first
      | with_reducible apply Answers.next
      | with_reducible exact Touches.refl _ _
      | decide
      | (extract_lets +onlyGivenNames x; clear_value x; revert x; intro _)
      | split
      | with_reducible apply Touches.after (State.pumpIssuer_touches ..)
      | with_reducible apply Touches.after (State.setGw_touches ..)

theorem State.launch_touches (s : State) (j : Job) : Touches (Touch.out ||| Touch.regs ||| Touch.mem
    ||| Touch.wear ||| Touch.log ||| Touch.logBase ||| Touch.cores ||| Touch.bells ||| Touch.node
    ||| Touch.tithes ||| Touch.gws ||| Touch.tracePos ||| Touch.stackMem ||| Touch.bridgeMem |||
    Touch.invPend ||| Touch.nextId ||| Touch.jobs ||| Touch.xfers ||| Touch.runs ||| Touch.seqs |||
    Touch.rings ||| Touch.egress ||| Touch.sas ||| Touch.led ||| Touch.retireQ ||| Touch.mapLag |||
    Touch.reports ||| Touch.heldOut ||| Touch.hostLines ||| Touch.hostResv) s (State.launch s j):= by
  unfold State.launch
  repeat'
    first
      | with_reducible exact Touches.refl _ _
      | decide
      | split
      | with_reducible apply Touches.after (State.endTag_touches ..)
      | with_reducible apply Touches.after (State.sendTagged_touches ..)

theorem State.titheSend_touches (s : State) (site : Nat) (cls : Nat) (cost : Nat) (issuer : Nat)
    (pkt : Packet) (len : Nat) (why : Purpose) : Touches (Touch.out ||| Touch.regs ||| Touch.mem |||
    Touch.wear ||| Touch.log ||| Touch.logBase ||| Touch.cores ||| Touch.bells ||| Touch.node |||
    Touch.tithes ||| Touch.gws ||| Touch.tracePos ||| Touch.stackMem ||| Touch.bridgeMem |||
    Touch.invPend ||| Touch.nextId ||| Touch.jobs ||| Touch.xfers ||| Touch.runs ||| Touch.seqs |||
    Touch.rings ||| Touch.egress ||| Touch.sas ||| Touch.led ||| Touch.retireQ ||| Touch.mapLag |||
    Touch.reports ||| Touch.heldOut ||| Touch.hostLines ||| Touch.hostResv) s (State.titheSend s
    site cls cost issuer pkt len why):= by
  unfold State.titheSend
  repeat'
    first
      | with_reducible exact Touches.refl _ _
      | decide
      | split
      | with_reducible apply Touches.after (State.titheAsk_touches ..)
      | with_reducible apply Touches.after (State.launch_touches ..)
      | with_reducible apply Touches.after (State.setTithe_touches ..)
      | dsimp only
      | with_reducible apply Touches.set_nextId
      | with_reducible apply Touches.set_jobs

theorem State.pumpSite_touches (s : State) (site : Nat) : Touches (Touch.out ||| Touch.regs |||
    Touch.mem ||| Touch.wear ||| Touch.log ||| Touch.logBase ||| Touch.cores ||| Touch.bells |||
    Touch.node ||| Touch.tithes ||| Touch.gws ||| Touch.tracePos ||| Touch.stackMem |||
    Touch.bridgeMem ||| Touch.invPend ||| Touch.nextId ||| Touch.jobs ||| Touch.xfers ||| Touch.runs
    ||| Touch.seqs ||| Touch.rings ||| Touch.egress ||| Touch.sas ||| Touch.led ||| Touch.retireQ
    ||| Touch.mapLag ||| Touch.reports ||| Touch.heldOut ||| Touch.hostLines ||| Touch.hostResv) s
    (State.pumpSite s site):= by
  unfold State.pumpSite
  repeat'
    first
      | with_reducible exact Touches.refl _ _
      | with_reducible assumption
      | decide
      | (extract_lets +onlyGivenNames x; with_reducible refine Touches.cut (t := x) ?_ ?_; subst x; rotate_left; clear_value x; revert x; intro _ _; rotate_right)
      | (extract_lets +onlyGivenNames x; clear_value x; revert x; intro _)
      | split
      | with_reducible apply Touches.after (State.pumpIssuer_touches ..)
      | with_reducible refine Touches.foldl ?_ fun _ _ => ?_

theorem State.failWaiting_touches (s : State) (site : Nat) (status : Nat) (p : Nat → Bool) : Touches
    (Touch.out ||| Touch.regs ||| Touch.mem ||| Touch.wear ||| Touch.log ||| Touch.logBase |||
    Touch.cores ||| Touch.bells ||| Touch.node ||| Touch.tithes ||| Touch.gws ||| Touch.tracePos |||
    Touch.stackMem ||| Touch.bridgeMem ||| Touch.invPend ||| Touch.nextId ||| Touch.jobs |||
    Touch.xfers ||| Touch.runs ||| Touch.seqs ||| Touch.rings ||| Touch.egress ||| Touch.sas |||
    Touch.led ||| Touch.retireQ ||| Touch.mapLag ||| Touch.reports ||| Touch.heldOut |||
    Touch.hostLines ||| Touch.hostResv) s (State.failWaiting s site
    status p):= by
  unfold State.failWaiting
  repeat'
    first
      | with_reducible exact Touches.refl _ _
      | with_reducible assumption
      | decide
      | (extract_lets +onlyGivenNames x; with_reducible refine Touches.cut (t := x) ?_ ?_; subst x; rotate_left; clear_value x; revert x; intro _ _; rotate_right)
      | (extract_lets +onlyGivenNames x; clear_value x; revert x; intro _)
      | split
      | with_reducible apply Touches.after (State.endTag_touches ..)
      | with_reducible apply Touches.after (State.setGw_touches ..)
      | with_reducible apply Touches.after (State.setTithe_touches ..)
      | with_reducible refine Touches.foldl ?_ fun _ _ => ?_
      | dsimp only
      | with_reducible apply Touches.set_jobs

end Sys2Proof.Machine
end

