-- ==== Sys2Proof/Laws/Packets.lean ====
section
/-!
SUPPORT. What the operations of Machine/Packets.lean may touch.
-/

namespace Sys2Proof.Machine

theorem State.landed_touches (s : State) (site : Nat) (p : Packet) (a : Nat) (n : Nat) :
    Touches (Touch.out ||| Touch.regs ||| Touch.log ||| Touch.logBase ||| Touch.bells ||| Touch.node |||
    Touch.reports) s (State.landed s site p a n) := by
  unfold State.landed
  repeat'
    first
      | with_reducible exact Touches.refl _ _
      | decide
      | split
      | with_reducible apply Touches.after (State.raiseToken_touches ..)
      | with_reducible apply Touches.after (State.bump_touches ..)
      | with_reducible refine Touches.foldl ?_ fun _ _ => ?_

theorem State.invsFor_touches (s : State) (site : Nat) (p : Packet) (n : Nat) :
    Touches (Touch.invPend ||| Touch.nextId) s (State.invsFor s site p n).1 := by
  unfold State.invsFor
  repeat'
    first
      | with_reducible exact Touches.refl _ _
      | with_reducible assumption
      | decide
      | (extract_lets +onlyGivenNames x; with_reducible refine Touches.cut (t := x) ?_ ?_; subst x; rotate_left; clear_value x; revert x; intro _ _; rotate_right)
      | (extract_lets +onlyGivenNames x; clear_value x; revert x; intro _)
      | split
      | with_reducible apply Touches.after (State.startInvs_touches ..)
      | with_reducible apply Touches.set_invPend
      | with_reducible apply Touches.set_nextId

theorem State.acceptWrite_touches (s : State) (site : Nat) (h : Hop) (p : Packet) (n : Nat) (payload : List Byte) :
    Touches (Touch.out ||| Touch.regs ||| Touch.gws ||| Touch.invPend ||| Touch.invAcks ||| Touch.nextId) s (State.acceptWrite s site h p n payload).1 := by
  unfold State.acceptWrite
  repeat'
    first
      | with_reducible exact Touches.refl _ _
      | decide
      | split
      | with_reducible refine Touches.of_fst ‹State.invsFor _ _ _ _ = _› (Touches.after (State.invsFor_touches ..) ?_ ?_)
      | with_reducible apply Touches.after (State.accept_touches ..)
      | dsimp only
      | with_reducible apply Touches.set_invAcks

theorem State.storeSheet_touches (s : State) (a : Nat) (bs : List Byte) :
    Touches (Touch.regs ||| Touch.sheetBell ||| Touch.sheetGot) s (State.storeSheet s a bs) := by
  unfold State.storeSheet
  repeat'
    first
      | with_reducible exact Touches.refl _ _
      | with_reducible assumption
      | decide
      | (extract_lets +onlyGivenNames x; with_reducible refine Touches.cut (t := x) ?_ ?_; subst x; rotate_left; clear_value x; revert x; intro _ _; rotate_right)
      | (extract_lets +onlyGivenNames x; clear_value x; revert x; intro _)
      | split
      | with_reducible apply Touches.after (State.setReg_touches ..)
      | with_reducible apply Touches.after (State.setF_touches ..)
      | with_reducible refine Touches.foldl ?_ fun _ _ => ?_
      | with_reducible apply Touches.set_sheetBell_sheetGot

theorem State.putBytes_touches (s : State) (site : Nat) (p : Packet) (a : Nat) (mets : Meets) :
    Touches (Touch.out ||| Touch.regs ||| Touch.mem ||| Touch.log ||| Touch.logBase ||| Touch.bells |||
      Touch.node ||| Touch.gws ||| Touch.bridgeMem ||| Touch.reports) s (State.putBytes s site p a
      mets).1 := by
  unfold State.putBytes
  repeat'
    first
      | with_reducible exact Touches.refl _ _
      | with_reducible assumption
      | decide
      | (extract_lets +onlyGivenNames x; with_reducible refine Touches.cut (t := x) ?_ ?_; subst x; rotate_left; clear_value x; revert x; intro _ _; rotate_right)
      | (extract_lets +onlyGivenNames x; clear_value x; revert x; intro _)
      | split
      | with_reducible apply Touches.after (State.hbmMoved_touches ..)
      | with_reducible refine Touches.of_fst ‹State.portWrite _ _ _ _ _ _ _ = _› (Touches.after (State.portWrite_touches ..) ?_ ?_)
      | with_reducible apply Touches.after (State.portWrite_touches ..)
      | with_reducible apply Touches.after (State.setGw_touches ..)
      | dsimp only

theorem State.writeFlawed_touches (s : State) (site : Nat) (h : Hop) (p : Packet) :
    Touches (Touch.out ||| Touch.regs ||| Touch.log ||| Touch.logBase ||| Touch.bells ||| Touch.node |||
      Touch.gws ||| Touch.reports) s (State.writeFlawed s site h p) := by
  unfold State.writeFlawed
  repeat'
    first
      | with_reducible exact Touches.refl _ _
      | with_reducible assumption
      | decide
      | split
      | with_reducible apply Touches.after (State.refuse_touches ..)

theorem State.landMove_touches (s : State) (site : Nat) (p : Packet) (whole : Bool) (places : List Nat) :
    Touches (Touch.out ||| Touch.regs ||| Touch.log ||| Touch.logBase ||| Touch.bells ||| Touch.node |||
      Touch.gws ||| Touch.reports) s (State.landMove s site p whole places) := by
  unfold State.landMove
  repeat'
    first
      | with_reducible exact Touches.refl _ _
      | with_reducible assumption
      | decide
      | (extract_lets +onlyGivenNames x; with_reducible refine Touches.cut (t := x) ?_ ?_; subst x; rotate_left; clear_value x; revert x; intro _ _; rotate_right)
      | (extract_lets +onlyGivenNames x; clear_value x; revert x; intro _)
      | split
      | with_reducible apply Touches.after (State.landed_touches ..)
      | with_reducible apply Touches.after (State.setGw_touches ..)
      | with_reducible refine Touches.foldl ?_ fun _ _ => ?_

theorem State.writeApplied_touches (s : State) (site : Nat) (h : Hop) (p : Packet) (mets : Meets) :
    Touches (Touch.out ||| Touch.regs ||| Touch.mem ||| Touch.log ||| Touch.logBase ||| Touch.cores |||
      Touch.bells ||| Touch.node ||| Touch.gws ||| Touch.bridgeMem ||| Touch.invPend ||| Touch.invAcks
      ||| Touch.nextId ||| Touch.sheetBell ||| Touch.sheetGot ||| Touch.reports) s (State.writeApplied
      s site h p mets) := by
  unfold State.writeApplied
  repeat'
    first
      | with_reducible exact Touches.refl _ _
      | with_reducible assumption
      | decide
      | (extract_lets +onlyGivenNames x; with_reducible refine Touches.cut (t := x) ?_ ?_; subst x; rotate_left; clear_value x; revert x; intro _ _; rotate_right)
      | (extract_lets +onlyGivenNames x; clear_value x; revert x; intro _)
      | split
      | with_reducible refine Touches.of_fst ‹State.accept _ _ _ _ _ = _› (Touches.after (State.accept_touches ..) ?_ ?_)
      | with_reducible apply Touches.after (State.accept_touches ..)
      | with_reducible refine Touches.of_fst ‹State.acceptWrite _ _ _ _ _ _ = _› (Touches.after (State.acceptWrite_touches ..) ?_ ?_)
      | with_reducible apply Touches.after (State.acceptWrite_touches ..)
      | with_reducible apply Touches.after (State.fillWrite_touches ..)
      | with_reducible apply Touches.after (State.landMove_touches ..)
      | with_reducible refine Touches.of_fst ‹State.putBytes _ _ _ _ _ = _› (Touches.after (State.putBytes_touches ..) ?_ ?_)
      | with_reducible apply Touches.after (State.putBytes_touches ..)
      | with_reducible apply Touches.after (State.storeSheet_touches ..)

theorem State.writeArrived_touches (s : State) (site : Nat) (h : Hop) (p : Packet) (mets : Meets) (bad : Bool) :
    Touches (Touch.out ||| Touch.regs ||| Touch.mem ||| Touch.log ||| Touch.logBase ||| Touch.cores |||
      Touch.bells ||| Touch.node ||| Touch.gws ||| Touch.bridgeMem ||| Touch.invPend ||| Touch.invAcks
      ||| Touch.nextId ||| Touch.sheetBell ||| Touch.sheetGot ||| Touch.reports) s (State.writeArrived
      s site h p mets bad) := by
  unfold State.writeArrived
  repeat'
    first
      | with_reducible exact Touches.refl _ _
      | with_reducible assumption
      | decide
      | split
      | with_reducible refine Touches.of_fst ‹State.dedupeLast _ _ _ = _› (Touches.after (State.dedupeLast_touches ..) ?_ ?_)
      | with_reducible apply Touches.after (State.dedupeLast_touches ..)
      | with_reducible apply Touches.after (State.refuse_touches ..)
      | with_reducible apply Touches.after (State.writeApplied_touches ..)
      | with_reducible apply Touches.after (State.writeFlawed_touches ..)

theorem execWritePacket_touches (site : Site) (a : Arrival) (mets : Meets) (bad : Bool) (s : State) :
    Answers (Touch.out ||| Touch.regs ||| Touch.mem ||| Touch.log ||| Touch.logBase ||| Touch.cores |||
      Touch.bells ||| Touch.node ||| Touch.gws ||| Touch.bridgeMem ||| Touch.invPend ||| Touch.invAcks
      ||| Touch.nextId ||| Touch.sheetBell ||| Touch.sheetGot ||| Touch.reports) s (execWritePacket
      site a mets bad s) := by
  unfold execWritePacket
  repeat'
    first
      | with_reducible apply Answers.next
      | with_reducible exact Touches.refl _ _
      | with_reducible assumption
      | decide
      | split
      | with_reducible refine Touches.of_fst ‹State.arrives _ _ _ _ = _› (Touches.after (State.arrives_touches ..) ?_ ?_)
      | with_reducible apply Touches.after (State.arrives_touches ..)
      | with_reducible apply Touches.after (State.holdCopy_touches ..)
      | with_reducible apply Touches.after (State.writeArrived_touches ..)

theorem execWriteCommit_touches (site : Site) (a : Arrival) (bad : Bool) (s : State) :
    Answers (Touch.out ||| Touch.regs ||| Touch.log ||| Touch.logBase ||| Touch.bells ||| Touch.node |||
      Touch.gws ||| Touch.bridgeMem ||| Touch.reports) s (execWriteCommit site a bad s) := by
  unfold execWriteCommit
  repeat'
    first
      | with_reducible apply Answers.next
      | with_reducible exact Touches.refl _ _
      | with_reducible assumption
      | decide
      | split
      | with_reducible refine Touches.of_fst ‹State.accept _ _ _ _ _ = _› (Touches.after (State.accept_touches ..) ?_ ?_)
      | with_reducible apply Touches.after (State.accept_touches ..)
      | with_reducible refine Touches.of_fst ‹State.arrives _ _ _ _ = _› (Touches.after (State.arrives_touches ..) ?_ ?_)
      | with_reducible apply Touches.after (State.arrives_touches ..)
      | with_reducible refine Touches.of_fst ‹State.dedupe _ _ _ = _› (Touches.after (State.dedupe_touches ..) ?_ ?_)
      | with_reducible apply Touches.after (State.dedupe_touches ..)
      | with_reducible refine Touches.after (State.fixAppend_touches ‹State.fixAppend _ _ _ _ _ = some _›) ?_ ?_
      | with_reducible apply Touches.after (State.refuse_touches ..)
      | with_reducible apply Touches.after (State.writeFlawed_touches ..)

theorem State.mcastPut_touches (s : State) (site : Nat) (p : Packet) (places : List Nat) (mets : Meets) :
    Touches (Touch.out ||| Touch.regs ||| Touch.mem ||| Touch.log ||| Touch.logBase ||| Touch.bells |||
      Touch.node ||| Touch.gws ||| Touch.bridgeMem ||| Touch.reports) s (State.mcastPut s site p
      places mets).1 := by
  unfold State.mcastPut
  repeat'
    first
      | with_reducible exact Touches.refl _ _
      | with_reducible assumption
      | decide
      | (extract_lets +onlyGivenNames x; with_reducible refine Touches.cut (t := x) ?_ ?_; subst x; rotate_left; clear_value x; revert x; intro _ _; rotate_right)
      | (extract_lets +onlyGivenNames x; clear_value x; revert x; intro _)
      | split
      | with_reducible apply Touches.after (State.fillRefused_touches ..)
      | with_reducible refine Touches.of_fst ‹State.putBytes _ _ _ _ _ = _› (Touches.after (State.putBytes_touches ..) ?_ ?_)
      | with_reducible apply Touches.after (State.putBytes_touches ..)
      | with_reducible refine Touches.foldl ?_ fun _ _ => ?_
      | with_reducible refine Touches.foldl_fst ?_ fun _ _ => ?_
      | dsimp only

theorem State.syncRepl_touches (s : State) (site : Nat) :
    Touches (Touch.regs) s (State.syncRepl s site) := by
  unfold State.syncRepl
  repeat'
    first
      | with_reducible exact Touches.refl _ _
      | decide
      | with_reducible apply Touches.after (State.setF_touches ..)

theorem State.replAnswered_touches (s : State) (site : Nat) (key : Nat) (status : Nat) :
    Touches (Touch.out ||| Touch.regs ||| Touch.gws) s (State.replAnswered s site key status) := by
  unfold State.replAnswered
  repeat'
    first
      | with_reducible exact Touches.refl _ _
      | with_reducible assumption
      | decide
      | (extract_lets +onlyGivenNames x; with_reducible refine Touches.cut (t := x) ?_ ?_; subst x; rotate_left; clear_value x; revert x; intro _ _; rotate_right)
      | (extract_lets +onlyGivenNames x; clear_value x; revert x; intro _)
      | split
      | with_reducible apply Touches.after (State.sendHop_touches ..)
      | with_reducible apply Touches.after (State.setGw_touches ..)
      | with_reducible apply Touches.after (State.syncRepl_touches ..)

theorem State.childEnds_touches (s : State) (site : Nat) (p : Packet) (status : Nat) :
    Touches (Touch.out ||| Touch.regs ||| Touch.gws) s (State.childEnds s site p status) := by
  unfold State.childEnds
  repeat'
    first
      | with_reducible exact Touches.refl _ _
      | with_reducible assumption
      | decide
      | split
      | with_reducible apply Touches.after (State.replAnswered_touches ..)
      | with_reducible apply Touches.after (State.setSticky_touches ..)
      | with_reducible refine Touches.of_fst ‹State.takeSticky _ _ _ = _› (Touches.after (State.takeSticky_touches ..) ?_ ?_)
      | with_reducible apply Touches.after (State.takeSticky_touches ..)

theorem State.ownCopy_touches (s : State) (site : Nat) (p : Packet) (mets : Meets) (bad : Bool) :
    Touches (Touch.out ||| Touch.regs ||| Touch.mem ||| Touch.log ||| Touch.logBase ||| Touch.bells |||
      Touch.node ||| Touch.gws ||| Touch.bridgeMem ||| Touch.reports) s (State.ownCopy s site p mets
      bad) := by
  unfold State.ownCopy
  repeat'
    first
      | with_reducible exact Touches.refl _ _
      | with_reducible assumption
      | decide
      | split
      | with_reducible apply Touches.after (State.childEnds_touches ..)
      | with_reducible refine Touches.of_fst ‹State.mcastPut _ _ _ _ _ = _› (Touches.after (State.mcastPut_touches ..) ?_ ?_)
      | with_reducible apply Touches.after (State.mcastPut_touches ..)
      | with_reducible apply Touches.after (State.raiseStatus_touches ..)

theorem State.siteCopy_touches (s : State) (site : Nat) (p : Packet) (mets : Meets) (bad : Bool) (d : Nat) :
    Touches (Touch.out ||| Touch.regs ||| Touch.mem ||| Touch.log ||| Touch.logBase ||| Touch.bells |||
      Touch.node ||| Touch.gws ||| Touch.bridgeMem ||| Touch.reports) s (State.siteCopy s site p mets
      bad d) := by
  unfold State.siteCopy
  repeat'
    first
      | with_reducible exact Touches.refl _ _
      | with_reducible assumption
      | decide
      | split
      | with_reducible apply Touches.after (State.childEnds_touches ..)
      | with_reducible apply Touches.after (State.ownCopy_touches ..)
      | with_reducible apply Touches.after (State.raiseStatus_touches ..)
      | with_reducible apply Touches.after (State.sendHop_touches ..)

theorem State.openRecord_touches (s : State) (site : Nat) (h : Hop) (p : Packet) (kids : Nat) :
    Touches (Touch.regs ||| Touch.gws) s (State.openRecord s site h p kids) := by
  unfold State.openRecord
  repeat'
    first
      | with_reducible exact Touches.refl _ _
      | with_reducible assumption
      | decide
      | split
      | with_reducible apply Touches.after (State.setGw_touches ..)
      | with_reducible apply Touches.after (State.syncRepl_touches ..)

theorem State.spreadCopies_touches (s : State) (site : Nat) (h : Hop) (p : Packet) (r : Rec) (mets :
    Meets) (bad : Bool) :
    Touches (Touch.out ||| Touch.regs ||| Touch.mem ||| Touch.log ||| Touch.logBase ||| Touch.bells |||
      Touch.node ||| Touch.gws ||| Touch.bridgeMem ||| Touch.reports) s (State.spreadCopies s site h p
      r mets bad) := by
  unfold State.spreadCopies
  repeat'
    first
      | with_reducible exact Touches.refl _ _
      | with_reducible assumption
      | decide
      | (extract_lets +onlyGivenNames x; with_reducible refine Touches.cut (t := x) ?_ ?_; subst x; rotate_left; clear_value x; revert x; intro _ _; rotate_right)
      | (extract_lets +onlyGivenNames x; clear_value x; revert x; intro _)
      | split
      | with_reducible apply Touches.after (State.keepKey_touches ..)
      | with_reducible apply Touches.after (State.openRecord_touches ..)
      | with_reducible apply Touches.after (State.sendBranch_touches ..)
      | with_reducible apply Touches.after (State.siteCopy_touches ..)
      | with_reducible refine Touches.foldl ?_ fun _ _ => ?_

theorem State.replicateNow_touches (s : State) (site : Nat) (h : Hop) (p : Packet) (mets : Meets) (bad : Bool) :
    Touches (Touch.out ||| Touch.regs ||| Touch.mem ||| Touch.log ||| Touch.logBase ||| Touch.bells |||
      Touch.node ||| Touch.gws ||| Touch.bridgeMem ||| Touch.reports) s (State.replicateNow s site h p
      mets bad) := by
  unfold State.replicateNow
  repeat'
    first
      | with_reducible exact Touches.refl _ _
      | with_reducible assumption
      | decide
      | split
      | with_reducible apply Touches.after (State.bump_touches ..)
      | with_reducible refine Touches.of_fst ‹State.dedupe _ _ _ = _› (Touches.after (State.dedupe_touches ..) ?_ ?_)
      | with_reducible apply Touches.after (State.dedupe_touches ..)
      | with_reducible refine Touches.of_fst ‹State.dedupeLast _ _ _ = _› (Touches.after (State.dedupeLast_touches ..) ?_ ?_)
      | with_reducible apply Touches.after (State.dedupeLast_touches ..)
      | with_reducible apply Touches.after (State.raise_touches ..)
      | with_reducible apply Touches.after (State.refuse_touches ..)
      | with_reducible apply Touches.after (State.spreadCopies_touches ..)

theorem State.replicate_touches (s : State) (site : Nat) (h : Hop) (p : Packet) (mets : Meets) (bad : Bool) :
    Touches (Touch.out ||| Touch.regs ||| Touch.mem ||| Touch.log ||| Touch.logBase ||| Touch.bells |||
      Touch.node ||| Touch.gws ||| Touch.bridgeMem ||| Touch.reports) s (State.replicate s site h p
      mets bad) := by
  unfold State.replicate
  repeat'
    first
      | with_reducible exact Touches.refl _ _
      | with_reducible assumption
      | decide
      | split
      | with_reducible apply Touches.after (State.bump_touches ..)
      | with_reducible apply Touches.after (State.holdCopy_touches ..)
      | with_reducible apply Touches.after (State.replicateNow_touches ..)

theorem State.mcastArrived_touches (s : State) (site : Nat) (h : Hop) (p : Packet) (mets : Meets) (bad : Bool) :
    Touches (Touch.out ||| Touch.regs ||| Touch.mem ||| Touch.log ||| Touch.logBase ||| Touch.bells |||
      Touch.node ||| Touch.gws ||| Touch.bridgeMem ||| Touch.reports) s (State.mcastArrived s site h p
      mets bad) := by
  unfold State.mcastArrived
  repeat'
    first
      | with_reducible exact Touches.refl _ _
      | with_reducible assumption
      | decide
      | (extract_lets +onlyGivenNames x; with_reducible refine Touches.cut (t := x) ?_ ?_; subst x; rotate_left; clear_value x; revert x; intro _ _; rotate_right)
      | (extract_lets +onlyGivenNames x; clear_value x; revert x; intro _)
      | split
      | with_reducible refine Touches.of_fst ‹State.accept _ _ _ _ _ = _› (Touches.after (State.accept_touches ..) ?_ ?_)
      | with_reducible apply Touches.after (State.accept_touches ..)
      | with_reducible refine Touches.of_fst ‹State.dedupeLast _ _ _ = _› (Touches.after (State.dedupeLast_touches ..) ?_ ?_)
      | with_reducible apply Touches.after (State.dedupeLast_touches ..)
      | with_reducible apply Touches.after (State.landMove_touches ..)
      | with_reducible refine Touches.of_fst ‹State.mcastPut _ _ _ _ _ = _› (Touches.after (State.mcastPut_touches ..) ?_ ?_)
      | with_reducible apply Touches.after (State.mcastPut_touches ..)
      | with_reducible apply Touches.after (State.refuse_touches ..)
      | with_reducible apply Touches.after (State.writeFlawed_touches ..)

theorem State.readArrived_touches (s : State) (site : Nat) (h : Hop) (p : Packet) (flaws : Flaws) :
    Touches (Touch.out ||| Touch.regs ||| Touch.wear ||| Touch.log ||| Touch.logBase ||| Touch.cores |||
      Touch.bells ||| Touch.node ||| Touch.gws ||| Touch.stackMem ||| Touch.bridgeMem |||
      Touch.retireQ ||| Touch.mapLag ||| Touch.reports) s (State.readArrived s site h p flaws) := by
  unfold State.readArrived
  repeat'
    first
      | with_reducible exact Touches.refl _ _
      | with_reducible assumption
      | decide
      | (extract_lets +onlyGivenNames x; with_reducible refine Touches.cut (t := x) ?_ ?_; subst x; rotate_left; clear_value x; revert x; intro _ _; rotate_right)
      | (extract_lets +onlyGivenNames x; clear_value x; revert x; intro _)
      | split
      | with_reducible refine Touches.of_fst ‹State.accept _ _ _ _ _ = _› (Touches.after (State.accept_touches ..) ?_ ?_)
      | with_reducible apply Touches.after (State.accept_touches ..)
      | with_reducible apply Touches.after (State.bump_touches ..)
      | with_reducible refine Touches.of_fst ‹State.readCheck _ _ _ _ _ _ _ = _› (Touches.after (State.readCheck_touches ..) ?_ ?_)
      | with_reducible apply Touches.after (State.readCheck_touches ..)
      | with_reducible apply Touches.after (State.refuse_touches ..)
      | with_reducible apply Touches.after (State.reply_touches ..)

theorem State.amoLine_touches (s : State) (b : Nat) (p : Packet) (bs : List Byte) :
    Touches (Touch.gws ||| Touch.stackMem) s (State.amoLine s b p bs) := by
  unfold State.amoLine
  repeat'
    first
      | with_reducible exact Touches.refl _ _
      | with_reducible assumption
      | decide
      | split
      | with_reducible apply Touches.after (State.cacheWrite_touches ..)

theorem State.atomicArrived_touches (s : State) (site : Nat) (h : Hop) (p : Packet) (flaws : Flaws) :
    Touches (Touch.out ||| Touch.regs ||| Touch.mem ||| Touch.wear ||| Touch.log ||| Touch.logBase |||
      Touch.cores ||| Touch.bells ||| Touch.node ||| Touch.gws ||| Touch.stackMem ||| Touch.bridgeMem
      ||| Touch.invPend ||| Touch.invAcks ||| Touch.nextId ||| Touch.retireQ ||| Touch.mapLag |||
      Touch.reports) s (State.atomicArrived s site h p flaws) := by
  unfold State.atomicArrived
  repeat'
    first
      | with_reducible exact Touches.refl _ _
      | with_reducible assumption
      | decide
      | (extract_lets +onlyGivenNames x; with_reducible refine Touches.cut (t := x) ?_ ?_; subst x; rotate_left; clear_value x; revert x; intro _ _; rotate_right)
      | (extract_lets +onlyGivenNames x; clear_value x; revert x; intro _)
      | split
      | with_reducible refine Touches.of_fst ‹State.acceptWrite _ _ _ _ _ _ = _› (Touches.after (State.acceptWrite_touches ..) ?_ ?_)
      | with_reducible apply Touches.after (State.acceptWrite_touches ..)
      | with_reducible apply Touches.after (State.amoLine_touches ..)
      | with_reducible refine Touches.of_fst ‹State.dedupe _ _ _ = _› (Touches.after (State.dedupe_touches ..) ?_ ?_)
      | with_reducible apply Touches.after (State.dedupe_touches ..)
      | with_reducible apply Touches.after (State.hbmMoved_touches ..)
      | with_reducible refine Touches.of_fst ‹State.readCheck _ _ _ _ _ _ _ = _› (Touches.after (State.readCheck_touches ..) ?_ ?_)
      | with_reducible apply Touches.after (State.readCheck_touches ..)
      | with_reducible apply Touches.after (State.refuse_touches ..)
      | with_reducible apply Touches.after (State.reply_touches ..)
      | with_reducible apply Touches.after (State.writeMem_touches ..)

theorem State.heldRuns_touches (s : State) (site : Nat) (w : HeldCopy) :
    Touches (Touch.out ||| Touch.regs ||| Touch.mem ||| Touch.wear ||| Touch.log ||| Touch.logBase |||
      Touch.cores ||| Touch.bells ||| Touch.node ||| Touch.gws ||| Touch.stackMem ||| Touch.bridgeMem
      ||| Touch.invPend ||| Touch.invAcks ||| Touch.nextId ||| Touch.sheetBell ||| Touch.sheetGot |||
      Touch.retireQ ||| Touch.mapLag ||| Touch.reports) s (State.heldRuns s site w) := by
  unfold State.heldRuns
  repeat'
    first
      | with_reducible exact Touches.refl _ _
      | with_reducible assumption
      | decide
      | split
      | with_reducible apply Touches.after (State.atomicArrived_touches ..)
      | with_reducible apply Touches.after (State.forward_touches ..)
      | with_reducible apply Touches.after (State.mcastArrived_touches ..)
      | with_reducible apply Touches.after (State.readArrived_touches ..)
      | with_reducible apply Touches.after (State.replicateNow_touches ..)
      | with_reducible apply Touches.after (State.writeArrived_touches ..)

theorem State.lostPart_touches (s : State) (p : Packet) :
    Touches (Touch.gws) s (State.lostPart s p) := by
  unfold State.lostPart
  repeat'
    first
      | with_reducible exact Touches.refl _ _
      | with_reducible assumption
      | decide
      | (extract_lets +onlyGivenNames x; with_reducible refine Touches.cut (t := x) ?_ ?_; subst x; rotate_left; clear_value x; revert x; intro _ _; rotate_right)
      | (extract_lets +onlyGivenNames x; clear_value x; revert x; intro _)
      | split
      | with_reducible apply Touches.after (State.setGw_touches ..)

theorem State.heldGoes_touches (s : State) (site : Nat) (w : HeldCopy) :
    Touches (Touch.out ||| Touch.regs ||| Touch.mem ||| Touch.wear ||| Touch.log ||| Touch.logBase |||
      Touch.cores ||| Touch.bells ||| Touch.node ||| Touch.gws ||| Touch.stackMem ||| Touch.bridgeMem
      ||| Touch.invPend ||| Touch.invAcks ||| Touch.nextId ||| Touch.sheetBell ||| Touch.sheetGot |||
      Touch.retireQ ||| Touch.mapLag ||| Touch.reports) s (State.heldGoes s site w) := by
  unfold State.heldGoes
  repeat'
    first
      | with_reducible exact Touches.refl _ _
      | with_reducible assumption
      | decide
      | (extract_lets +onlyGivenNames x; with_reducible refine Touches.cut (t := x) ?_ ?_; subst x; rotate_left; clear_value x; revert x; intro _ _; rotate_right)
      | (extract_lets +onlyGivenNames x; clear_value x; revert x; intro _)
      | split
      | with_reducible apply Touches.after (State.bump_touches ..)
      | with_reducible apply Touches.after (State.freeUnits_touches ..)
      | with_reducible apply Touches.after (State.heldRuns_touches ..)
      | with_reducible apply Touches.after (State.lostPart_touches ..)

theorem State.replDrain_touches (s : State) (site : Nat) (stay x : List HeldCopy) :
    Touches (Touch.out ||| Touch.regs ||| Touch.mem ||| Touch.wear ||| Touch.log ||| Touch.logBase |||
      Touch.cores ||| Touch.bells ||| Touch.node ||| Touch.gws ||| Touch.stackMem ||| Touch.bridgeMem
      ||| Touch.invPend ||| Touch.invAcks ||| Touch.nextId ||| Touch.sheetBell ||| Touch.sheetGot |||
      Touch.retireQ ||| Touch.mapLag ||| Touch.reports) s (State.replDrain s site stay x) := by
  induction x generalizing s stay with
  | nil => exact Touches.refl _ _
  | cons y ys ih =>
    unfold State.replDrain
    repeat'
      first
        | with_reducible exact Touches.refl _ _
        | with_reducible assumption
        | decide
        | with_reducible refine Touches.trans ?_ (ih ..)
        | (extract_lets +onlyGivenNames x; with_reducible refine Touches.cut (t := x) ?_ ?_; subst x; rotate_left; clear_value x; revert x; intro _ _; rotate_right)
        | (extract_lets +onlyGivenNames x; clear_value x; revert x; intro _)
        | split
        | with_reducible apply Touches.after (State.heldGoes_touches ..)
        | with_reducible apply Touches.after (State.setGw_touches ..)

theorem State.replNext_touches (s : State) (site : Nat) : Touches (Touch.out ||| Touch.regs |||
    Touch.mem ||| Touch.wear ||| Touch.log ||| Touch.logBase ||| Touch.cores ||| Touch.bells |||
    Touch.node ||| Touch.gws ||| Touch.stackMem ||| Touch.bridgeMem ||| Touch.invPend |||
    Touch.invAcks ||| Touch.nextId ||| Touch.sheetBell ||| Touch.sheetGot ||| Touch.retireQ |||
    Touch.mapLag ||| Touch.reports) s (State.replNext s
      site) := by
  unfold State.replNext
  repeat'
    first
      | with_reducible exact Touches.refl _ _
      | with_reducible assumption
      | decide
      | split
      | with_reducible apply Touches.after (State.replDrain_touches ..)

theorem State.answered_touches (s : State) (site : Nat) (key : Nat) (e : TagEntry) (kid : Nat)
    (status : Nat) (mets : Meets) (bs : List Byte) : Touches (Touch.out ||| Touch.regs ||| Touch.mem
    ||| Touch.wear ||| Touch.log ||| Touch.logBase ||| Touch.cores ||| Touch.bells ||| Touch.node
    ||| Touch.tithes ||| Touch.gws ||| Touch.tracePos ||| Touch.stackMem ||| Touch.bridgeMem |||
    Touch.invPend ||| Touch.nextId ||| Touch.jobs ||| Touch.xfers ||| Touch.runs ||| Touch.seqs |||
    Touch.rings ||| Touch.egress ||| Touch.sas ||| Touch.led ||| Touch.retireQ ||| Touch.mapLag |||
    Touch.reports ||| Touch.heldOut ||| Touch.hostLines ||| Touch.hostResv) s (State.answered s site
    key e kid status mets bs):= by
  unfold State.answered
  repeat'
    first
      | with_reducible exact Touches.refl _ _
      | with_reducible assumption
      | decide
      | (extract_lets +onlyGivenNames x; with_reducible refine Touches.cut (t := x) ?_ ?_; subst x; rotate_left; clear_value x; revert x; intro _ _; rotate_right)
      | (extract_lets +onlyGivenNames x; clear_value x; revert x; intro _)
      | split
      | with_reducible apply Touches.after (State.bump_touches ..)
      | with_reducible apply Touches.after (State.respTag_touches ..)
      | with_reducible apply Touches.after (State.setGw_touches ..)

theorem State.response_touches (s : State) (op : Nat) (site : Nat) (a : Arrival) (mets : Meets) :
    Touches (Touch.out ||| Touch.regs ||| Touch.mem ||| Touch.wear ||| Touch.log ||| Touch.logBase
    ||| Touch.cores ||| Touch.bells ||| Touch.node ||| Touch.tithes ||| Touch.gws ||| Touch.tracePos
    ||| Touch.stackMem ||| Touch.bridgeMem ||| Touch.invPend ||| Touch.invAcks ||| Touch.nextId |||
    Touch.jobs ||| Touch.xfers ||| Touch.runs ||| Touch.seqs ||| Touch.sheetBell ||| Touch.sheetGot
    ||| Touch.rings ||| Touch.egress ||| Touch.sas ||| Touch.led ||| Touch.retireQ ||| Touch.mapLag
    ||| Touch.reports ||| Touch.heldOut ||| Touch.hostLines ||| Touch.hostResv) s (State.response s
    op site a mets):= by
  unfold State.response
  repeat'
    first
      | with_reducible exact Touches.refl _ _
      | with_reducible assumption
      | decide
      | (extract_lets +onlyGivenNames x; with_reducible refine Touches.cut (t := x) ?_ ?_; subst x; rotate_left; clear_value x; revert x; intro _ _; rotate_right)
      | (extract_lets +onlyGivenNames x; clear_value x; revert x; intro _)
      | split
      | with_reducible apply Touches.after (State.answered_touches ..)
      | with_reducible refine Touches.of_fst ‹State.arrives _ _ _ _ = _› (Touches.after (State.arrives_touches ..) ?_ ?_)
      | with_reducible apply Touches.after (State.arrives_touches ..)
      | with_reducible apply Touches.after (State.bump_touches ..)
      | with_reducible apply Touches.after (State.replAnswered_touches ..)
      | with_reducible apply Touches.after (State.replNext_touches ..)

theorem execReadResp_touches (site : Site) (a : Arrival) (mets : Meets) (s : State) :
    Answers (Touch.out ||| Touch.regs ||| Touch.mem ||| Touch.wear ||| Touch.log ||| Touch.logBase
    ||| Touch.cores ||| Touch.bells ||| Touch.node ||| Touch.tithes ||| Touch.gws ||| Touch.tracePos
    ||| Touch.stackMem ||| Touch.bridgeMem ||| Touch.invPend ||| Touch.invAcks ||| Touch.nextId |||
    Touch.jobs ||| Touch.xfers ||| Touch.runs ||| Touch.seqs ||| Touch.sheetBell ||| Touch.sheetGot
    ||| Touch.rings ||| Touch.egress ||| Touch.sas ||| Touch.led ||| Touch.retireQ ||| Touch.mapLag
    ||| Touch.reports ||| Touch.heldOut ||| Touch.hostLines ||| Touch.hostResv) s (execReadResp
      site a mets s) := by
  unfold execReadResp
  repeat'
    first
      | with_reducible apply Answers.next
      | with_reducible exact Touches.refl _ _
      | with_reducible assumption
      | decide
      | split
      | with_reducible apply Touches.after (State.response_touches ..)

theorem execErrorResp_touches (site : Site) (a : Arrival) (s : State) :
    Answers (Touch.out ||| Touch.regs ||| Touch.mem ||| Touch.wear ||| Touch.log ||| Touch.logBase
    ||| Touch.cores ||| Touch.bells ||| Touch.node ||| Touch.tithes ||| Touch.gws ||| Touch.tracePos
    ||| Touch.stackMem ||| Touch.bridgeMem ||| Touch.invPend ||| Touch.invAcks ||| Touch.nextId |||
    Touch.jobs ||| Touch.xfers ||| Touch.runs ||| Touch.seqs ||| Touch.sheetBell ||| Touch.sheetGot
    ||| Touch.rings ||| Touch.egress ||| Touch.sas ||| Touch.led ||| Touch.retireQ ||| Touch.mapLag
    ||| Touch.reports ||| Touch.heldOut ||| Touch.hostLines ||| Touch.hostResv) s (execErrorResp
    site a
    s):= by
  unfold execErrorResp
  repeat'
    first
      | with_reducible apply Answers.next
      | with_reducible exact Touches.refl _ _
      | decide
      | split
      | with_reducible apply Touches.after (State.response_touches ..)

theorem State.atomicArrives_touches (s : State) (op : Nat) (site : Nat) (a : Arrival) (flaws : Flaws) :
    Touches (Touch.out ||| Touch.regs ||| Touch.mem ||| Touch.wear ||| Touch.log ||| Touch.logBase |||
      Touch.cores ||| Touch.bells ||| Touch.node ||| Touch.gws ||| Touch.stackMem ||| Touch.bridgeMem
      ||| Touch.invPend ||| Touch.invAcks ||| Touch.nextId ||| Touch.retireQ ||| Touch.mapLag |||
      Touch.reports) s (State.atomicArrives s op site a flaws) := by
  unfold State.atomicArrives
  repeat'
    first
      | with_reducible exact Touches.refl _ _
      | with_reducible assumption
      | decide
      | split
      | with_reducible refine Touches.of_fst ‹State.arrives _ _ _ _ = _› (Touches.after (State.arrives_touches ..) ?_ ?_)
      | with_reducible apply Touches.after (State.arrives_touches ..)
      | with_reducible apply Touches.after (State.atomicArrived_touches ..)
      | with_reducible apply Touches.after (State.holdCopy_touches ..)

theorem execAtomicAdd_touches (site : Site) (a : Arrival) (flaws : Flaws) (s : State) :
    Answers (Touch.out ||| Touch.regs ||| Touch.mem ||| Touch.wear ||| Touch.log ||| Touch.logBase |||
    Touch.cores ||| Touch.bells ||| Touch.node ||| Touch.gws ||| Touch.stackMem ||| Touch.bridgeMem
    ||| Touch.invPend ||| Touch.invAcks ||| Touch.nextId ||| Touch.retireQ ||| Touch.mapLag |||
    Touch.reports) s (execAtomicAdd site a flaws s) := by
  unfold execAtomicAdd
  repeat'
    first
      | with_reducible apply Answers.next
      | with_reducible exact Touches.refl _ _
      | decide
      | with_reducible apply Touches.after (State.atomicArrives_touches ..)

theorem execAtomicCas_touches (site : Site) (a : Arrival) (flaws : Flaws) (s : State) :
    Answers (Touch.out ||| Touch.regs ||| Touch.mem ||| Touch.wear ||| Touch.log ||| Touch.logBase |||
    Touch.cores ||| Touch.bells ||| Touch.node ||| Touch.gws ||| Touch.stackMem ||| Touch.bridgeMem
    ||| Touch.invPend ||| Touch.invAcks ||| Touch.nextId ||| Touch.retireQ ||| Touch.mapLag |||
    Touch.reports) s (execAtomicCas site a flaws s) := by
  unfold execAtomicCas
  repeat'
    first
      | with_reducible apply Answers.next
      | with_reducible exact Touches.refl _ _
      | decide
      | with_reducible apply Touches.after (State.atomicArrives_touches ..)

theorem execSignalPacket_touches (site : Site) (a : Arrival) (s : State) :
    Answers (Touch.out ||| Touch.regs ||| Touch.log ||| Touch.logBase ||| Touch.bells ||| Touch.node |||
    Touch.gws ||| Touch.reports) s (execSignalPacket site a s) := by
  unfold execSignalPacket
  repeat'
    first
      | with_reducible apply Answers.next
      | with_reducible exact Touches.refl _ _
      | decide
      | (extract_lets +onlyGivenNames x; clear_value x; revert x; intro _)
      | split
      | with_reducible refine Touches.of_fst ‹State.arrives _ _ _ _ = _› (Touches.after (State.arrives_touches ..) ?_ ?_)
      | with_reducible apply Touches.after (State.refuse_touches ..)
      | with_reducible refine Touches.of_fst ‹State.dedupe _ _ _ = _› (Touches.after (State.dedupe_touches ..) ?_ ?_)
      | with_reducible apply Touches.after (State.raiseToken_touches ..)
      | with_reducible apply Touches.after (State.bump_touches ..)
      | with_reducible apply Touches.after (State.accept_touches ..)

theorem execCredit_touches (site : Site) (a : Arrival) (s : State) :
    Answers (Touch.out ||| Touch.regs ||| Touch.log ||| Touch.logBase ||| Touch.bells ||| Touch.node |||
    Touch.gws ||| Touch.reports) s (execCredit site a s) := by
  unfold execCredit
  repeat'
    first
      | with_reducible apply Answers.next
      | with_reducible exact Touches.refl _ _
      | decide
      | split
      | with_reducible refine Touches.of_fst ‹State.arrives _ _ _ _ = _› (Touches.after (State.arrives_touches ..) ?_ ?_)
      | with_reducible apply Touches.after (State.flushHop_touches ..)
      | with_reducible apply Touches.after (State.setGw_touches ..)

theorem execCreditReturnTimer_touches (site : Site) (hop : Hop) (s : State) :
    Answers (Touch.out ||| Touch.gws) s (execCreditReturnTimer site hop s) := by
  unfold execCreditReturnTimer
  repeat'
    first
      | with_reducible apply Answers.next
      | with_reducible exact Touches.refl _ _
      | decide
      | split
      | with_reducible apply Touches.after (State.sendCredit_touches ..)

theorem execCreditStall_touches (site : Site) (hop : Hop) (vc : Fin 3) (s : State) :
    Answers (Touch.out ||| Touch.regs ||| Touch.log ||| Touch.logBase ||| Touch.bells ||| Touch.node |||
    Touch.gws ||| Touch.reports) s (execCreditStall site hop vc s) := by
  unfold execCreditStall
  repeat'
    first
      | with_reducible apply Answers.next
      | with_reducible exact Touches.refl _ _
      | with_reducible assumption
      | decide
      | (extract_lets +onlyGivenNames x; with_reducible refine Answers.cut (t := x) ?_ ?_; subst x; rotate_left; clear_value x; revert x; intro _ _; rotate_right)
      | (extract_lets +onlyGivenNames x; clear_value x; revert x; intro _)
      | split
      | with_reducible apply Touches.after (State.setGw_touches ..)
      | with_reducible apply Touches.after (State.report_touches ..)
      | with_reducible apply Touches.after (State.bump_touches ..)

theorem State.ackStream_touches (s : State) (site : Nat) (key : Nat) (ack : Nat) :
    Touches (Touch.gws) s (State.ackStream s site key ack) := by
  unfold State.ackStream
  repeat'
    first
      | with_reducible exact Touches.refl _ _
      | decide
      | (extract_lets +onlyGivenNames x; clear_value x; revert x; intro _)
      | split
      | with_reducible apply Touches.after (State.setStream_touches ..)

theorem State.resendOne_touches (s : State) (site : Nat) (h : Hop) (key : Nat) (o : Nat) (f : Flown) :
    Touches (Touch.out ||| Touch.gws) s (State.resendOne s site h key o f) := by
  unfold State.resendOne
  repeat'
    first
      | with_reducible exact Touches.refl _ _
      | with_reducible assumption
      | decide
      | (extract_lets +onlyGivenNames x; with_reducible refine Touches.cut (t := x) ?_ ?_; subst x; rotate_left; clear_value x; revert x; intro _ _; rotate_right)
      | (extract_lets +onlyGivenNames x; clear_value x; revert x; intro _)
      | split
      | with_reducible apply Touches.after (State.emit_touches ..)
      | with_reducible apply Touches.after (State.setStream_touches ..)

theorem State.resendAll_touches (s : State) (site : Nat) (h : Hop) (key : Nat) (o : Nat) (x : List Flown) :
    Touches (Touch.out ||| Touch.gws) s (State.resendAll s site h key o x) := by
  induction x generalizing s site h key o with
  | nil => exact Touches.refl _ _
  | cons y ys ih =>
    unfold State.resendAll
    repeat'
      first
        | with_reducible exact Touches.refl _ _
        | with_reducible assumption
        | decide
        | with_reducible refine Touches.trans ?_ (ih ..)
        | split
        | with_reducible apply Touches.after (State.resendOne_touches ..)

theorem State.resend_touches (s : State) (site : Nat) (h : Hop) (key : Nat) :
    Touches (Touch.out ||| Touch.gws) s (State.resend s site h key) := by
  unfold State.resend
  repeat'
    first
      | with_reducible exact Touches.refl _ _
      | with_reducible assumption
      | decide
      | (extract_lets +onlyGivenNames x; with_reducible refine Touches.cut (t := x) ?_ ?_; subst x; rotate_left; clear_value x; revert x; intro _ _; rotate_right)
      | (extract_lets +onlyGivenNames x; clear_value x; revert x; intro _)
      | split
      | with_reducible apply Touches.after (State.resendAll_touches ..)
      | with_reducible apply Touches.after (State.sendCode_touches ..)
      | with_reducible apply Touches.after (State.setStream_touches ..)

theorem State.resumeAt_touches (s : State) (site : Nat) (key : Nat) (pos : Nat) :
    Touches (Touch.gws) s (State.resumeAt s site key pos) := by
  unfold State.resumeAt
  repeat'
    first
      | with_reducible exact Touches.refl _ _
      | decide
      | (extract_lets +onlyGivenNames x; clear_value x; revert x; intro _)
      | split
      | with_reducible apply Touches.after (State.setStream_touches ..)

theorem State.countRetry_touches (s : State) (site : Nat) (h : Hop) :
    Touches (Touch.regs) s (State.countRetry s site h) := by
  unfold State.countRetry
  repeat'
    first
      | with_reducible exact Touches.refl _ _
      | decide
      | split
      | with_reducible apply Touches.after (State.bump_touches ..)

theorem State.retryHop_touches (s : State) (site : Nat) (h : Hop) (key : Nat) :
    Touches (Touch.out ||| Touch.regs ||| Touch.gws) s (State.retryHop s site h key) := by
  unfold State.retryHop
  repeat'
    first
      | with_reducible exact Touches.refl _ _
      | with_reducible assumption
      | decide
      | split
      | with_reducible apply Touches.after (State.countRetry_touches ..)
      | with_reducible apply Touches.after (State.resend_touches ..)

theorem State.hearResend_touches (s : State) (site : Nat) (key : Nat) (resend : Option Nat) :
    Touches (Touch.out ||| Touch.gws) s (State.hearResend s site key resend) := by
  unfold State.hearResend
  repeat'
    first
      | with_reducible exact Touches.refl _ _
      | with_reducible assumption
      | decide
      | split
      | with_reducible apply Touches.after (State.resend_touches ..)
      | with_reducible apply Touches.after (State.resumeAt_touches ..)

theorem State.hearCode_touches (s : State) (site : Nat) (h : Hop) (key : Nat) (ack : Nat) (nak :
    Bool) (resend : Option Nat) :
    Touches (Touch.out ||| Touch.regs ||| Touch.gws) s (State.hearCode s site h key ack nak resend) := by
  unfold State.hearCode
  repeat'
    first
      | with_reducible exact Touches.refl _ _
      | with_reducible assumption
      | decide
      | (extract_lets +onlyGivenNames x; with_reducible refine Touches.cut (t := x) ?_ ?_; subst x; rotate_left; clear_value x; revert x; intro _ _; rotate_right)
      | (extract_lets +onlyGivenNames x; clear_value x; revert x; intro _)
      | split
      | with_reducible apply Touches.after (State.ackStream_touches ..)
      | with_reducible apply Touches.after (State.flushHop_touches ..)
      | with_reducible apply Touches.after (State.hearResend_touches ..)
      | with_reducible apply Touches.after (State.resend_touches ..)
      | with_reducible apply Touches.after (State.retryHop_touches ..)

theorem execControlCodeword_touches (site : Site) (peer : Site) (lane : Fin 36) (word : BitVec 2570)
    (codes : List Codeword) (s : State) :
    Answers (Touch.out ||| Touch.regs ||| Touch.gws) s (execControlCodeword site peer lane word codes s) := by
  unfold execControlCodeword
  repeat'
    first
      | with_reducible apply Answers.next
      | with_reducible exact Touches.refl _ _
      | with_reducible assumption
      | decide
      | (extract_lets +onlyGivenNames x; with_reducible refine Answers.cut (t := x) ?_ ?_; subst x; rotate_left; clear_value x; revert x; intro _ _; rotate_right)
      | (extract_lets +onlyGivenNames x; clear_value x; revert x; intro _)
      | split
      | with_reducible apply Touches.after (State.countCodes_touches ..)
      | with_reducible apply Touches.after (State.hearCode_touches ..)
      | with_reducible apply Touches.after (State.resend_touches ..)
      | with_reducible apply Touches.after (State.sendCode_touches ..)
      | with_reducible apply Touches.after (State.setF_touches ..)

theorem execHopRetryTimeout_touches (site : Site) (hop : Hop) (ctrl : Bool) (s : State) :
    Answers (Touch.out ||| Touch.regs ||| Touch.gws) s (execHopRetryTimeout site hop ctrl s) := by
  unfold execHopRetryTimeout
  repeat'
    first
      | with_reducible apply Answers.next
      | with_reducible exact Touches.refl _ _
      | with_reducible assumption
      | decide
      | (extract_lets +onlyGivenNames x; with_reducible refine Answers.cut (t := x) ?_ ?_; subst x; rotate_left; clear_value x; revert x; intro _ _; rotate_right)
      | (extract_lets +onlyGivenNames x; clear_value x; revert x; intro _)
      | split
      | with_reducible apply Touches.after (State.retryHop_touches ..)

theorem State.discardPacket_touches (s : State) (p : Packet) (status : Nat) : Touches (Touch.out |||
    Touch.regs ||| Touch.mem ||| Touch.wear ||| Touch.log ||| Touch.logBase ||| Touch.cores |||
    Touch.bells ||| Touch.node ||| Touch.tithes ||| Touch.gws ||| Touch.tracePos ||| Touch.stackMem
    ||| Touch.bridgeMem ||| Touch.invPend ||| Touch.nextId ||| Touch.jobs ||| Touch.xfers |||
    Touch.runs ||| Touch.seqs ||| Touch.rings ||| Touch.egress ||| Touch.sas ||| Touch.led |||
    Touch.retireQ ||| Touch.mapLag ||| Touch.reports ||| Touch.heldOut ||| Touch.hostLines |||
    Touch.hostResv) s
    (State.discardPacket s p status):= by
  unfold State.discardPacket
  repeat'
    first
      | with_reducible exact Touches.refl _ _
      | decide
      | (extract_lets +onlyGivenNames x; have : True := (fun (_ : _ → _ → _ → State) => trivial) x; subst x; clear this)
      | split
      | with_reducible apply Touches.after (State.failTags_touches ..)
      | dsimp only

theorem State.resetStream_touches (s : State) (site : Nat) (peer : Nat) (ctrl : Bool) : Touches
    (Touch.out ||| Touch.regs ||| Touch.mem ||| Touch.wear ||| Touch.log ||| Touch.logBase |||
    Touch.cores ||| Touch.bells ||| Touch.node ||| Touch.tithes ||| Touch.gws ||| Touch.tracePos |||
    Touch.stackMem ||| Touch.bridgeMem ||| Touch.invPend ||| Touch.nextId ||| Touch.jobs |||
    Touch.xfers ||| Touch.runs ||| Touch.seqs ||| Touch.rings ||| Touch.egress ||| Touch.sas |||
    Touch.led ||| Touch.retireQ ||| Touch.mapLag ||| Touch.reports ||| Touch.heldOut |||
    Touch.hostLines ||| Touch.hostResv) s (State.resetStream s site peer ctrl):= by
  unfold State.resetStream
  repeat'
    first
      | with_reducible exact Touches.refl _ _
      | with_reducible assumption
      | decide
      | (extract_lets +onlyGivenNames x; with_reducible refine Touches.cut (t := x) ?_ ?_; subst x; rotate_left; clear_value x; revert x; intro _ _; rotate_right)
      | (extract_lets +onlyGivenNames x; have : True := (fun (_ : _ → _ → State) => trivial) x; subst x; clear this)
      | (extract_lets +onlyGivenNames x; clear_value x; revert x; intro _)
      | split
      | with_reducible apply Touches.after (State.setStream_touches ..)
      | with_reducible apply Touches.after (State.setGw_touches ..)
      | with_reducible apply Touches.after (State.discardPacket_touches ..)
      | with_reducible refine Touches.foldl ?_ fun _ _ => ?_
      | with_reducible apply Touches.after (State.lostPart_touches ..)
      | dsimp only

theorem execPairReset_touches (site : Site) (peer : Site) (ctrl : Bool) (s : State) :
    Answers (Touch.out ||| Touch.regs ||| Touch.mem ||| Touch.wear ||| Touch.log ||| Touch.logBase
    ||| Touch.cores ||| Touch.bells ||| Touch.node ||| Touch.tithes ||| Touch.gws ||| Touch.tracePos
    ||| Touch.stackMem ||| Touch.bridgeMem ||| Touch.invPend ||| Touch.nextId ||| Touch.jobs |||
    Touch.xfers ||| Touch.runs ||| Touch.seqs ||| Touch.rings ||| Touch.egress ||| Touch.sas |||
    Touch.led ||| Touch.retireQ ||| Touch.mapLag ||| Touch.reports ||| Touch.heldOut |||
    Touch.hostLines ||| Touch.hostResv) s (execPairReset site peer ctrl s):= by
  unfold execPairReset
  repeat'
    first
      | with_reducible apply Answers.next
      | with_reducible exact Touches.refl _ _
      | with_reducible assumption
      | decide
      | (extract_lets +onlyGivenNames x; with_reducible refine Answers.cut (t := x) ?_ ?_; subst x; rotate_left; clear_value x; revert x; intro _ _; rotate_right)
      | (extract_lets +onlyGivenNames x; clear_value x; revert x; intro _)
      | split
      | with_reducible apply Touches.after (State.resetStream_touches ..)
      | with_reducible apply Touches.after (State.setF_touches ..)
      | with_reducible apply Touches.after (State.bump_touches ..)
      | with_reducible apply Touches.after (State.flushHop_touches ..)
      | with_reducible apply Touches.after (State.raise_touches ..)

theorem execDedupeExpiry_touches (site : Site) (s : State) :
    Answers (Touch.gws) s (execDedupeExpiry site s) := by
  unfold execDedupeExpiry
  repeat'
    first
      | with_reducible apply Answers.next
      | with_reducible exact Touches.refl _ _
      | decide
      | with_reducible apply Touches.after (State.setGw_touches ..)

theorem execReplicationTimeout_touches (site : Site) (s : State) :
    Answers (Touch.out ||| Touch.regs ||| Touch.mem ||| Touch.wear ||| Touch.log ||| Touch.logBase
    ||| Touch.cores ||| Touch.bells ||| Touch.node ||| Touch.gws ||| Touch.stackMem |||
    Touch.bridgeMem ||| Touch.invPend ||| Touch.invAcks ||| Touch.nextId ||| Touch.sheetBell |||
    Touch.sheetGot ||| Touch.retireQ ||| Touch.mapLag ||| Touch.reports) s
    (execReplicationTimeout site s):= by
  unfold execReplicationTimeout
  repeat'
    first
      | with_reducible apply Touches.after (State.replNext_touches ..)
      | with_reducible apply Answers.next
      | with_reducible exact Touches.refl _ _
      | decide
      | (extract_lets +onlyGivenNames x; clear_value x; revert x; intro _)
      | split
      | with_reducible apply Touches.after (State.syncRepl_touches ..)
      | with_reducible apply Touches.after (State.setGw_touches ..)
      | with_reducible apply Touches.after (State.raiseStatus_touches ..)

theorem State.fillDrain_touches (s : State) (k : Nat) (c : Nat) (x : Nat) : Touches (Touch.out |||
    Touch.regs ||| Touch.mem ||| Touch.log ||| Touch.logBase ||| Touch.cores ||| Touch.bells |||
    Touch.node ||| Touch.tithes ||| Touch.gws ||| Touch.tracePos ||| Touch.reports) s
    (State.fillDrain s k c x):= by
  induction x generalizing s k c with
  | zero => exact Touches.refl _ _
  | succ n ih =>
    unfold State.fillDrain
    repeat'
      first
        | with_reducible exact Touches.refl _ _
        | with_reducible assumption
        | decide
        | with_reducible refine Touches.trans ?_ (ih ..)
        | (extract_lets +onlyGivenNames x; with_reducible refine Touches.cut (t := x) ?_ ?_; subst x; rotate_left; clear_value x; revert x; intro _ _; rotate_right)
        | (extract_lets +onlyGivenNames x; clear_value x; revert x; intro _)
        | split
        | with_reducible refine Touches.of_fst ‹State.accept _ _ _ _ _ = _› (Touches.after (State.accept_touches ..) ?_ ?_)
        | with_reducible apply Touches.after (State.accept_touches ..)
        | with_reducible apply Touches.after (State.fillTake_touches ..)
        | with_reducible apply Touches.after (State.freeUnits_touches ..)
        | with_reducible apply Touches.after (State.setCore_touches ..)
        | with_reducible apply Touches.after (State.flightHears_touches ..)
        | with_reducible apply Touches.after (State.tryFinish_touches ..)

theorem execMcastWrite_touches (site : Site) (a : Arrival) (mets : Meets) (bad : Bool) (s : State) :
    Answers (Touch.out ||| Touch.regs ||| Touch.mem ||| Touch.log ||| Touch.logBase ||| Touch.bells |||
      Touch.node ||| Touch.gws ||| Touch.bridgeMem ||| Touch.reports) s (execMcastWrite site a mets
      bad s) := by
  unfold execMcastWrite
  repeat'
    first
      | with_reducible apply Answers.next
      | with_reducible exact Touches.refl _ _
      | with_reducible assumption
      | decide
      | split
      | with_reducible refine Touches.of_fst ‹State.arrives _ _ _ _ = _› (Touches.after (State.arrives_touches ..) ?_ ?_)
      | with_reducible apply Touches.after (State.arrives_touches ..)
      | with_reducible apply Touches.after (State.holdCopy_touches ..)
      | with_reducible apply Touches.after (State.mcastArrived_touches ..)
      | with_reducible apply Touches.after (State.replicate_touches ..)

theorem execReadReq_touches (site : Site) (a : Arrival) (flaws : Flaws) (s : State) :
    Answers (Touch.out ||| Touch.regs ||| Touch.wear ||| Touch.log ||| Touch.logBase ||| Touch.cores |||
      Touch.bells ||| Touch.node ||| Touch.gws ||| Touch.stackMem ||| Touch.bridgeMem |||
      Touch.retireQ ||| Touch.mapLag ||| Touch.reports) s (execReadReq site a flaws s) := by
  unfold execReadReq
  repeat'
    first
      | with_reducible apply Answers.next
      | with_reducible exact Touches.refl _ _
      | with_reducible assumption
      | decide
      | split
      | with_reducible refine Touches.of_fst ‹State.arrives _ _ _ _ = _› (Touches.after (State.arrives_touches ..) ?_ ?_)
      | with_reducible apply Touches.after (State.arrives_touches ..)
      | with_reducible apply Touches.after (State.holdCopy_touches ..)
      | with_reducible apply Touches.after (State.readArrived_touches ..)

theorem State.dropFills_touches (s : State) (site : Nat) (hop : Hop) (old : Nat → Bool) :
    Touches (Touch.cores) s (State.dropFills s site hop old).1 := by
  unfold State.dropFills
  repeat'
    first
      | with_reducible exact Touches.refl _ _
      | with_reducible assumption
      | decide
      | (extract_lets +onlyGivenNames x; with_reducible refine Touches.cut (t := x) ?_ ?_; subst x; rotate_left; clear_value x; revert x; intro _ _; rotate_right)
      | (extract_lets +onlyGivenNames x; clear_value x; revert x; intro _)
      | split
      | with_reducible apply Touches.after (State.setCore_touches ..)
      | with_reducible refine Touches.foldl ?_ fun _ _ => ?_
      | with_reducible refine Touches.foldl_fst ?_ fun _ _ => ?_
      | dsimp only

theorem execPacketAged_touches (site : Site) (hop : Hop) (s : State) :
    Answers (Touch.out ||| Touch.regs ||| Touch.mem ||| Touch.wear ||| Touch.log ||| Touch.logBase |||
      Touch.cores ||| Touch.bells ||| Touch.node ||| Touch.gws ||| Touch.stackMem ||| Touch.bridgeMem
      ||| Touch.invPend ||| Touch.invAcks ||| Touch.nextId ||| Touch.sheetBell ||| Touch.sheetGot |||
      Touch.retireQ ||| Touch.mapLag ||| Touch.reports) s (execPacketAged site hop s) := by
  unfold execPacketAged
  repeat'
    first
      | with_reducible apply Answers.next
      | with_reducible exact Touches.refl _ _
      | with_reducible assumption
      | decide
      | (extract_lets +onlyGivenNames x; with_reducible refine Answers.cut (t := x) ?_ ?_; subst x; rotate_left; clear_value x; revert x; intro _ _; rotate_right)
      | (extract_lets +onlyGivenNames x; clear_value x; revert x; intro _)
      | split
      | with_reducible apply Touches.after (State.bump_touches ..)
      | with_reducible refine Touches.of_fst ‹State.dropFills _ _ _ _ = _› (Touches.after (State.dropFills_touches ..) ?_ ?_)
      | with_reducible apply Touches.after (State.dropFills_touches ..)
      | with_reducible apply Touches.after (State.flushHop_touches ..)
      | with_reducible apply Touches.after (State.freeUnits_touches ..)
      | with_reducible apply Touches.after (State.lostPart_touches ..)
      | with_reducible apply Touches.after (State.replNext_touches ..)
      | with_reducible apply Touches.after (State.setGw_touches ..)
      | with_reducible refine Touches.foldl ?_ fun _ _ => ?_

theorem State.fillsMove_touches (s : State) (k : Nat) (c : Nat) :
    Touches (Touch.out ||| Touch.regs ||| Touch.mem ||| Touch.wear ||| Touch.log ||| Touch.logBase |||
      Touch.cores ||| Touch.bells ||| Touch.node ||| Touch.tithes ||| Touch.gws ||| Touch.tracePos |||
      Touch.stackMem ||| Touch.bridgeMem ||| Touch.invPend ||| Touch.invAcks ||| Touch.nextId |||
      Touch.sheetBell ||| Touch.sheetGot ||| Touch.retireQ ||| Touch.mapLag ||| Touch.reports) s
      (State.fillsMove s k c) := by
  unfold State.fillsMove
  repeat'
    first
      | with_reducible exact Touches.refl _ _
      | with_reducible assumption
      | decide
      | split
      | with_reducible apply Touches.after (State.fillDrain_touches ..)
      | with_reducible apply Touches.after (State.replNext_touches ..)

end Sys2Proof.Machine
end

