-- ==== Sys2Proof/Laws/Fence.lean ====
section
/-!
SUPPORT. What the operations of Machine/Fence.lean may touch.
-/

namespace Sys2Proof.Machine

theorem State.setCfgState_touches (s : State) (state : Nat) :
    Touches (Touch.regs) s (State.setCfgState s state) := by
  unfold State.setCfgState
  repeat'
    first
      | with_reducible exact Touches.refl _ _
      | with_reducible assumption
      | decide
      | (extract_lets +onlyGivenNames x; with_reducible refine Touches.cut (t := x) ?_ ?_; subst x; rotate_left; clear_value x; revert x; intro _ _; rotate_right)
      | (extract_lets +onlyGivenNames x; clear_value x; revert x; intro _)
      | split
      | with_reducible apply Touches.after (State.setF_touches ..)

theorem State.syncPartial_touches (s : State) (ctx : Nat) :
    Touches (Touch.regs) s (State.syncPartial s ctx) := by
  unfold State.syncPartial
  repeat'
    first
      | with_reducible exact Touches.refl _ _
      | with_reducible assumption
      | decide
      | (extract_lets +onlyGivenNames x; with_reducible refine Touches.cut (t := x) ?_ ?_; subst x; rotate_left; clear_value x; revert x; intro _ _; rotate_right)
      | (extract_lets +onlyGivenNames x; clear_value x; revert x; intro _)
      | with_reducible apply Touches.after (State.setF_touches ..)

theorem State.withdrawPart_touches (s : State) (i : Image) :
    Touches (Touch.regs ||| Touch.cfg) s (State.withdrawPart s i) := by
  unfold State.withdrawPart
  repeat'
    first
      | with_reducible exact Touches.refl _ _
      | decide
      | (extract_lets +onlyGivenNames x; clear_value x; revert x; intro _)
      | with_reducible apply Touches.after (State.syncPartial_touches ..)
      | with_reducible apply Touches.set_cfg

theorem State.withdrawLost_touches (s : State) :
    Touches (Touch.regs ||| Touch.cfg) s (State.withdrawLost s) := by
  unfold State.withdrawLost
  repeat'
    first
      | with_reducible exact Touches.refl _ _
      | with_reducible assumption
      | decide
      | (extract_lets +onlyGivenNames x; with_reducible refine Touches.cut (t := x) ?_ ?_; subst x; rotate_left; clear_value x; revert x; intro _ _; rotate_right)
      | (extract_lets +onlyGivenNames x; clear_value x; revert x; intro _)
      | split
      | with_reducible apply Touches.after (State.setCfgState_touches ..)
      | with_reducible apply Touches.after (State.withdrawPart_touches ..)
      | with_reducible refine Touches.foldl ?_ fun _ _ => ?_
      | with_reducible apply Touches.set_cfg

theorem State.storeLost_touches (s : State) (b : Nat) :
    Touches (Touch.regs ||| Touch.cfg) s (State.storeLost s b) := by
  unfold State.storeLost
  repeat'
    first
      | with_reducible exact Touches.refl _ _
      | decide
      | (extract_lets +onlyGivenNames x; clear_value x; revert x; intro _)
      | with_reducible apply Touches.after (State.withdrawLost_touches ..)
      | with_reducible apply Touches.after (State.setF_touches ..)

theorem State.fencePeer_touches (s : State) (i : Nat) (j : Nat) : Touches (Touch.out ||| Touch.regs
    ||| Touch.mem ||| Touch.wear ||| Touch.log ||| Touch.logBase ||| Touch.cores ||| Touch.bells |||
    Touch.node ||| Touch.tithes ||| Touch.gws ||| Touch.cfg ||| Touch.tracePos ||| Touch.stackMem
    ||| Touch.bridgeMem ||| Touch.invPend ||| Touch.nextId ||| Touch.jobs ||| Touch.xfers |||
    Touch.runs ||| Touch.seqs ||| Touch.rings ||| Touch.egress ||| Touch.sas ||| Touch.led |||
    Touch.retireQ ||| Touch.mapLag ||| Touch.reports ||| Touch.heldOut ||| Touch.hostLines |||
    Touch.hostResv) s
    (State.fencePeer s i j):= by
  unfold State.fencePeer
  repeat'
    first
      | with_reducible exact Touches.refl _ _
      | with_reducible assumption
      | decide
      | (extract_lets +onlyGivenNames x; with_reducible refine Touches.cut (t := x) ?_ ?_; subst x; rotate_left; clear_value x; revert x; intro _ _; rotate_right)
      | (extract_lets +onlyGivenNames x; clear_value x; revert x; intro _)
      | split
      | with_reducible apply Touches.after (State.setF_touches ..)
      | with_reducible apply Touches.after (State.bump_touches ..)
      | with_reducible apply Touches.after (State.raiseStatus_touches ..)
      | with_reducible apply Touches.after (State.setBell_touches ..)
      | with_reducible apply Touches.after (State.failTags_touches ..)
      | with_reducible apply Touches.after (State.setGw_touches ..)
      | with_reducible apply Touches.after (State.storeLost_touches ..)

theorem State.fenceAll_touches (s : State) (j : Nat) : Touches (Touch.out ||| Touch.regs |||
    Touch.mem ||| Touch.wear ||| Touch.log ||| Touch.logBase ||| Touch.cores ||| Touch.bells |||
    Touch.node ||| Touch.tithes ||| Touch.gws ||| Touch.cfg ||| Touch.tracePos ||| Touch.stackMem
    ||| Touch.bridgeMem ||| Touch.invPend ||| Touch.nextId ||| Touch.jobs ||| Touch.xfers |||
    Touch.runs ||| Touch.seqs ||| Touch.rings ||| Touch.egress ||| Touch.sas ||| Touch.led |||
    Touch.retireQ ||| Touch.mapLag ||| Touch.reports ||| Touch.heldOut ||| Touch.hostLines |||
    Touch.hostResv) s
    (State.fenceAll s j):= by
  unfold State.fenceAll
  repeat'
    first
      | with_reducible exact Touches.refl _ _
      | decide
      | split
      | with_reducible apply Touches.after (State.fencePeer_touches ..)
      | with_reducible refine Touches.foldl ?_ fun _ _ => ?_
theorem State.retireSite_touches (s : State) (i : Nat) : Touches (Touch.out ||| Touch.regs |||
    Touch.mem ||| Touch.grn ||| Touch.wear ||| Touch.log ||| Touch.logBase ||| Touch.cores |||
    Touch.bells ||| Touch.node ||| Touch.tithes ||| Touch.gws ||| Touch.cfg ||| Touch.tracePos |||
    Touch.stackMem ||| Touch.bridgeMem ||| Touch.invPend ||| Touch.nextId ||| Touch.jobs |||
    Touch.xfers ||| Touch.runs ||| Touch.seqs ||| Touch.rings ||| Touch.egress ||| Touch.sas |||
    Touch.led ||| Touch.retireQ ||| Touch.mapLag ||| Touch.reports ||| Touch.heldOut |||
    Touch.hostLines ||| Touch.hostResv) s (State.retireSite s i):= by
  unfold State.retireSite
  repeat'
    first
      | with_reducible exact Touches.refl _ _
      | decide
      | split
      | with_reducible apply Touches.after (State.fenceAll_touches ..)
      | with_reducible apply Touches.after (State.raise_touches ..)
      | with_reducible apply Touches.after (State.grnPut_touches ..)

theorem execHeartbeatLoss_touches (site : Site) (peer : Site) (s : State) :
    Answers (Touch.out ||| Touch.regs ||| Touch.mem ||| Touch.wear ||| Touch.log ||| Touch.logBase
    ||| Touch.cores ||| Touch.bells ||| Touch.node ||| Touch.tithes ||| Touch.gws ||| Touch.cfg |||
    Touch.tracePos ||| Touch.stackMem ||| Touch.bridgeMem ||| Touch.invPend ||| Touch.nextId |||
    Touch.jobs ||| Touch.xfers ||| Touch.runs ||| Touch.seqs ||| Touch.rings ||| Touch.egress |||
    Touch.sas ||| Touch.led ||| Touch.retireQ ||| Touch.mapLag ||| Touch.reports ||| Touch.heldOut
    ||| Touch.hostLines ||| Touch.hostResv) s (execHeartbeatLoss site peer s):= by
  unfold execHeartbeatLoss
  repeat'
    first
      | with_reducible apply Answers.next
      | with_reducible exact Touches.refl _ _
      | with_reducible assumption
      | decide
      | split
      | with_reducible apply Touches.after (State.fencePeer_touches ..)

theorem execMcFenceOrder_touches (peer : Site) (s : State) :
    Answers (Touch.out ||| Touch.regs ||| Touch.mem ||| Touch.wear ||| Touch.log ||| Touch.logBase
    ||| Touch.cores ||| Touch.bells ||| Touch.node ||| Touch.tithes ||| Touch.gws ||| Touch.cfg |||
    Touch.tracePos ||| Touch.stackMem ||| Touch.bridgeMem ||| Touch.invPend ||| Touch.nextId |||
    Touch.jobs ||| Touch.xfers ||| Touch.runs ||| Touch.seqs ||| Touch.rings ||| Touch.egress |||
    Touch.sas ||| Touch.led ||| Touch.retireQ ||| Touch.mapLag ||| Touch.reports ||| Touch.heldOut
    ||| Touch.hostLines ||| Touch.hostResv) s (execMcFenceOrder peer s):= by
  unfold execMcFenceOrder
  repeat'
    first
      | with_reducible apply Answers.next
      | with_reducible exact Touches.refl _ _
      | decide
      | split
      | with_reducible apply Touches.after (State.fenceAll_touches ..)

theorem State.nextEpoch_touches (s : State) (i : Nat) :
    Touches (Touch.regs) s (State.nextEpoch s i) := by
  unfold State.nextEpoch
  repeat'
    first
      | with_reducible exact Touches.refl _ _
      | decide
      | (extract_lets +onlyGivenNames x; clear_value x; revert x; intro _)
      | with_reducible apply Touches.after (State.setF_touches ..)

theorem State.silence_touches (s : State) (i : Nat) :
    Touches (Touch.gws) s (State.silence s i) := by
  unfold State.silence
  repeat'
    first
      | with_reducible exact Touches.refl _ _
      | decide
      | (extract_lets +onlyGivenNames x; clear_value x; revert x; intro _)
      | with_reducible apply Touches.after (State.setGw_touches ..)

theorem State.selfFence_touches (s : State) (i : Nat) : Touches (Touch.out ||| Touch.regs |||
    Touch.mem ||| Touch.wear ||| Touch.log ||| Touch.logBase ||| Touch.cores ||| Touch.bells |||
    Touch.node ||| Touch.tithes ||| Touch.gws ||| Touch.tracePos ||| Touch.stackMem |||
    Touch.bridgeMem ||| Touch.invPend ||| Touch.nextId ||| Touch.jobs ||| Touch.xfers ||| Touch.runs
    ||| Touch.seqs ||| Touch.rings ||| Touch.egress ||| Touch.sas ||| Touch.led ||| Touch.retireQ
    ||| Touch.mapLag ||| Touch.reports ||| Touch.heldOut ||| Touch.hostLines ||| Touch.hostResv) s
    (State.selfFence s i):= by
  unfold State.selfFence
  repeat'
    first
      | with_reducible exact Touches.refl _ _
      | with_reducible assumption
      | decide
      | (extract_lets +onlyGivenNames x; with_reducible refine Touches.cut (t := x) ?_ ?_; subst x; rotate_left; clear_value x; revert x; intro _ _; rotate_right)
      | split
      | with_reducible apply Touches.after (State.silence_touches ..)
      | with_reducible apply Touches.after (State.failTags_touches ..)
      | with_reducible apply Touches.after (State.setF_touches ..)
      | with_reducible apply Touches.after (State.nextEpoch_touches ..)

theorem execGatewaySelfFence_touches (site : Site) (s : State) :
    Answers (Touch.out ||| Touch.regs ||| Touch.mem ||| Touch.wear ||| Touch.log ||| Touch.logBase
    ||| Touch.cores ||| Touch.bells ||| Touch.node ||| Touch.tithes ||| Touch.gws ||| Touch.tracePos
    ||| Touch.stackMem ||| Touch.bridgeMem ||| Touch.invPend ||| Touch.nextId ||| Touch.jobs |||
    Touch.xfers ||| Touch.runs ||| Touch.seqs ||| Touch.rings ||| Touch.egress ||| Touch.sas |||
    Touch.led ||| Touch.retireQ ||| Touch.mapLag ||| Touch.reports ||| Touch.heldOut |||
    Touch.hostLines ||| Touch.hostResv) s (execGatewaySelfFence site s):= by
  unfold execGatewaySelfFence
  repeat'
    first
      | with_reducible apply Answers.next
      | with_reducible exact Touches.refl _ _
      | decide
      | split
      | with_reducible apply Touches.after (State.selfFence_touches ..)

theorem execComputeClockLoss_touches (k : Stack) (s : State) :
    Answers (Touch.regs ||| Touch.gws) s (execComputeClockLoss k s) := by
  unfold execComputeClockLoss
  repeat'
    first
      | with_reducible apply Answers.next
      | with_reducible exact Touches.refl _ _
      | decide
      | split
      | with_reducible apply Touches.after (State.setF_touches ..)
      | with_reducible apply Touches.after (State.silence_touches ..)

theorem execStopChannelTimeout_touches (k : Stack) (stop : Fin 16) (s : State) :
    Answers (Touch.out ||| Touch.regs ||| Touch.mem ||| Touch.wear ||| Touch.log ||| Touch.logBase
    ||| Touch.cores ||| Touch.bells ||| Touch.node ||| Touch.tithes ||| Touch.gws ||| Touch.tracePos
    ||| Touch.stackMem ||| Touch.bridgeMem ||| Touch.invPend ||| Touch.nextId ||| Touch.jobs |||
    Touch.xfers ||| Touch.runs ||| Touch.seqs ||| Touch.rings ||| Touch.egress ||| Touch.sas |||
    Touch.led ||| Touch.retireQ ||| Touch.mapLag ||| Touch.reports ||| Touch.heldOut |||
    Touch.hostLines ||| Touch.hostResv) s (execStopChannelTimeout k
    stop s):= by
  unfold execStopChannelTimeout
  repeat'
    first
      | with_reducible apply Answers.next
      | with_reducible exact Touches.refl _ _
      | with_reducible assumption
      | decide
      | (extract_lets +onlyGivenNames x; with_reducible refine Answers.cut (t := x) ?_ ?_; subst x; rotate_left; clear_value x; revert x; intro _ _; rotate_right)
      | (extract_lets +onlyGivenNames x; clear_value x; revert x; intro _)
      | split
      | with_reducible apply Touches.after (State.setGw_touches ..)
      | with_reducible apply Touches.after (State.failTags_touches ..)
      | with_reducible apply Touches.after (State.failWaiting_touches ..)

end Sys2Proof.Machine
end

