-- ==== Sys2Proof/Laws/Fabric.lean ====
section
/-!
SUPPORT. What the operations of Machine/Fabric.lean may touch.
-/

namespace Sys2Proof.Machine

theorem State.syncPair_touches (s : State) (i : Nat) (j : Nat) :
    Touches (Touch.regs) s (State.syncPair s i j) := by
  unfold State.syncPair
  repeat'
    first
      | with_reducible exact Touches.refl _ _
      | with_reducible assumption
      | decide
      | split
      | (extract_lets +onlyGivenNames x; with_reducible refine Touches.cut (t := x) ?_ ?_; subst x; rotate_left; clear_value x; revert x; intro _ _; rotate_right)
      | (extract_lets +onlyGivenNames x; have : True := (fun (_ : _ → _ → _ → _ → _ → _ → _ → State) => trivial) x; subst x; clear this)
      | (extract_lets +onlyGivenNames x; clear_value x; revert x; intro _)
      | with_reducible apply Touches.after (State.setF_touches ..)

theorem State.restripe_touches (s : State) (i : Nat) (j : Nat) : Touches (Touch.out ||| Touch.regs
    ||| Touch.mem ||| Touch.wear ||| Touch.log ||| Touch.logBase ||| Touch.cores ||| Touch.bells |||
    Touch.node ||| Touch.tithes ||| Touch.gws ||| Touch.cfg ||| Touch.tracePos ||| Touch.stackMem
    ||| Touch.bridgeMem ||| Touch.invPend ||| Touch.nextId ||| Touch.jobs ||| Touch.xfers |||
    Touch.runs ||| Touch.seqs ||| Touch.rings ||| Touch.egress ||| Touch.sas ||| Touch.led |||
    Touch.retireQ ||| Touch.mapLag ||| Touch.reports ||| Touch.markers ||| Touch.heldOut |||
    Touch.hostLines ||| Touch.hostResv) s
      (State.restripe s i j) := by
  unfold State.restripe
  repeat'
    first
      | with_reducible exact Touches.refl _ _
      | with_reducible assumption
      | decide
      | (extract_lets +onlyGivenNames x; with_reducible refine Touches.cut (t := x) ?_ ?_; subst x; rotate_left; clear_value x; revert x; intro _ _; rotate_right)
      | (extract_lets +onlyGivenNames x; clear_value x; revert x; intro _)
      | split
      | with_reducible apply Touches.after (State.bump_touches ..)
      | with_reducible apply Touches.after (State.emit_touches ..)
      | with_reducible apply Touches.after (State.fencePeer_touches ..)
      | with_reducible apply Touches.after (State.setF_touches ..)
      | with_reducible apply Touches.after (State.setReg_touches ..)
      | with_reducible apply Touches.after (State.setStream_touches ..)
      | with_reducible apply Touches.after (State.syncPair_touches ..)
      | dsimp only
      | with_reducible apply Touches.set_markers

theorem State.goInBand_touches (s : State) (i : Nat) (j : Nat) :
    Touches (Touch.out ||| Touch.gws) s (State.goInBand s i j) := by
  unfold State.goInBand
  repeat'
    first
      | with_reducible exact Touches.refl _ _
      | with_reducible assumption
      | decide
      | (extract_lets +onlyGivenNames x; with_reducible refine Touches.cut (t := x) ?_ ?_; subst x; rotate_left; clear_value x; revert x; intro _ _; rotate_right)
      | (extract_lets +onlyGivenNames x; clear_value x; revert x; intro _)
      | split
      | with_reducible apply Touches.after (State.putOnHop_touches ..)
      | with_reducible apply Touches.after (State.setStream_touches ..)
      | with_reducible refine Touches.foldl ?_ fun _ _ => ?_

theorem State.controlFailover_touches (s : State) (i : Nat) (j : Nat) :
    Touches (Touch.out ||| Touch.regs ||| Touch.log ||| Touch.logBase ||| Touch.bells ||| Touch.node |||
      Touch.gws ||| Touch.reports) s (State.controlFailover s i j) := by
  unfold State.controlFailover
  repeat'
    first
      | with_reducible exact Touches.refl _ _
      | with_reducible assumption
      | decide
      | (extract_lets +onlyGivenNames x; with_reducible refine Touches.cut (t := x) ?_ ?_; subst x; rotate_left; clear_value x; revert x; intro _ _; rotate_right)
      | (extract_lets +onlyGivenNames x; clear_value x; revert x; intro _)
      | split
      | with_reducible apply Touches.after (State.goInBand_touches ..)
      | with_reducible apply Touches.after (State.raise_touches ..)
      | with_reducible apply Touches.after (State.setF_touches ..)
      | with_reducible apply Touches.after (State.syncPair_touches ..)

theorem State.setOut_touches (s : State) (i : Nat) (j : Nat) (es : List (Nat × Nat)) :
    Touches (Touch.outs) s (State.setOut s i j es) := by
  unfold State.setOut
  repeat'
    first
      | with_reducible exact Touches.refl _ _
      | decide
      | with_reducible apply Touches.set_outs

theorem State.follow_touches (s : State) (i : Nat) (j : Nat) (q : Nat) : Touches (Touch.out |||
    Touch.regs ||| Touch.mem ||| Touch.wear ||| Touch.log ||| Touch.logBase ||| Touch.cores |||
    Touch.bells ||| Touch.node ||| Touch.tithes ||| Touch.gws ||| Touch.cfg ||| Touch.tracePos |||
    Touch.stackMem ||| Touch.bridgeMem ||| Touch.invPend ||| Touch.nextId ||| Touch.jobs |||
    Touch.xfers ||| Touch.runs ||| Touch.seqs ||| Touch.rings ||| Touch.egress ||| Touch.sas |||
    Touch.led ||| Touch.retireQ ||| Touch.mapLag ||| Touch.reports ||| Touch.markers |||
    Touch.heldOut ||| Touch.hostLines ||| Touch.hostResv) s (State.follow s i j q):= by
  unfold State.follow
  repeat'
    first
      | with_reducible exact Touches.refl _ _
      | decide
      | split
      | with_reducible apply Touches.after (State.restripe_touches ..)
      | with_reducible apply Touches.after (State.controlFailover_touches ..)

theorem State.carrierOut_touches (s : State) (i : Nat) (j : Nat) (q : Nat) : Touches (Touch.out |||
    Touch.regs ||| Touch.mem ||| Touch.wear ||| Touch.log ||| Touch.logBase ||| Touch.cores |||
    Touch.bells ||| Touch.node ||| Touch.tithes ||| Touch.gws ||| Touch.cfg ||| Touch.tracePos |||
    Touch.stackMem ||| Touch.bridgeMem ||| Touch.invPend ||| Touch.nextId ||| Touch.jobs |||
    Touch.xfers ||| Touch.runs ||| Touch.seqs ||| Touch.rings ||| Touch.outs ||| Touch.egress |||
    Touch.sas ||| Touch.led ||| Touch.retireQ ||| Touch.mapLag ||| Touch.reports ||| Touch.markers
    ||| Touch.heldOut ||| Touch.hostLines ||| Touch.hostResv) s
    (State.carrierOut s i j q):= by
  unfold State.carrierOut
  repeat'
    first
      | with_reducible exact Touches.refl _ _
      | decide
      | split
      | with_reducible apply Touches.after (State.follow_touches ..)
      | with_reducible apply Touches.after (State.setOut_touches ..)

theorem execCarrierLoss_touches (tx : Site) (rx : Site) (plane : Fin 36) (s : State) :
    Answers (Touch.out ||| Touch.regs ||| Touch.mem ||| Touch.wear ||| Touch.log ||| Touch.logBase
    ||| Touch.cores ||| Touch.bells ||| Touch.node ||| Touch.tithes ||| Touch.gws ||| Touch.cfg |||
    Touch.tracePos ||| Touch.stackMem ||| Touch.bridgeMem ||| Touch.invPend ||| Touch.nextId |||
    Touch.jobs ||| Touch.xfers ||| Touch.runs ||| Touch.seqs ||| Touch.rings ||| Touch.outs |||
    Touch.egress ||| Touch.sas ||| Touch.led ||| Touch.retireQ ||| Touch.mapLag ||| Touch.reports
    ||| Touch.markers ||| Touch.heldOut ||| Touch.hostLines ||| Touch.hostResv) s
    (execCarrierLoss tx rx plane s):= by
  unfold execCarrierLoss
  repeat'
    first
      | with_reducible apply Answers.next
      | with_reducible exact Touches.refl _ _
      | decide
      | split
      | with_reducible apply Touches.after (State.carrierOut_touches ..)

theorem State.setSpare_touches (s : State) (site : Nat) (q : Nat) (dir : Nat) (sb : Bool) (code : Nat) :
    Touches (Touch.regs ||| Touch.grn ||| Touch.mapLag) s (State.setSpare s site q dir sb code) := by
  unfold State.setSpare
  repeat'
    first
      | with_reducible exact Touches.refl _ _
      | decide
      | with_reducible apply Touches.after (State.grnPut_touches ..)
      | with_reducible apply Touches.after (State.setF_touches ..)

theorem State.takeSpare_touches (s : State) (site : Nat) (q : Nat) (dir : Nat) (sb : Bool) (slot : Nat) :
    Touches (Touch.out ||| Touch.regs ||| Touch.grn ||| Touch.log ||| Touch.logBase ||| Touch.bells |||
    Touch.node ||| Touch.mapLag ||| Touch.reports) s (State.takeSpare s site q dir sb slot) := by
  unfold State.takeSpare
  repeat'
    first
      | with_reducible exact Touches.refl _ _
      | with_reducible assumption
      | decide
      | (extract_lets +onlyGivenNames x; with_reducible refine Touches.cut (t := x) ?_ ?_; subst x; rotate_left; clear_value x; revert x; intro _ _; rotate_right)
      | split
      | with_reducible apply Touches.after (State.setSpare_touches ..)
      | with_reducible apply Touches.after (State.granaryEmpty_touches ..)

theorem State.steer_touches (s : State) (site : Nat) (q : Nat) (dir : Nat) (slot : Nat) (bad : Nat) :
    Touches (Touch.out ||| Touch.regs ||| Touch.grn ||| Touch.wear ||| Touch.log ||| Touch.logBase |||
    Touch.bells ||| Touch.node ||| Touch.mapLag ||| Touch.reports) s (State.steer s site q dir slot bad).1 := by
  unfold State.steer
  repeat'
    first
      | with_reducible exact Touches.refl _ _
      | with_reducible assumption
      | decide
      | (extract_lets +onlyGivenNames x; with_reducible refine Touches.cut (t := x) ?_ ?_; subst x; rotate_left; clear_value x; revert x; intro _ _; rotate_right)
      | (extract_lets +onlyGivenNames x; clear_value x; revert x; intro _)
      | split
      | with_reducible apply Touches.after (State.wearUp_touches ..)
      | with_reducible apply Touches.after (State.setSpare_touches ..)
      | with_reducible apply Touches.after (State.raise_touches ..)
      | with_reducible apply Touches.after (State.takeSpare_touches ..)

theorem State.cutBracket_touches (s : State) (i : Nat) (j : Nat) :
    Touches (Touch.brackets) s (State.cutBracket s i j) := by
  unfold State.cutBracket
  repeat'
    first
      | with_reducible exact Touches.refl _ _
      | with_reducible assumption
      | decide
      | split
      | dsimp only
      | with_reducible apply Touches.set_brackets

theorem State.dropBracket_touches (s : State) (i : Nat) (j : Nat) : Touches (Touch.out |||
    Touch.regs ||| Touch.mem ||| Touch.wear ||| Touch.log ||| Touch.logBase ||| Touch.cores |||
    Touch.bells ||| Touch.node ||| Touch.tithes ||| Touch.gws ||| Touch.cfg ||| Touch.tracePos |||
    Touch.stackMem ||| Touch.bridgeMem ||| Touch.invPend ||| Touch.nextId ||| Touch.jobs |||
    Touch.xfers ||| Touch.runs ||| Touch.seqs ||| Touch.rings ||| Touch.brackets ||| Touch.egress
    ||| Touch.sas ||| Touch.led ||| Touch.retireQ ||| Touch.mapLag ||| Touch.reports |||
    Touch.markers ||| Touch.heldOut ||| Touch.hostLines ||| Touch.hostResv) s (State.dropBracket s i
    j):= by
  unfold State.dropBracket
  repeat'
    first
      | with_reducible exact Touches.refl _ _
      | with_reducible assumption
      | decide
      | split
      | with_reducible apply Touches.after (State.cutBracket_touches ..)
      | with_reducible apply Touches.after (State.restripe_touches ..)

theorem State.setDrawn_touches (s : State) (i : Nat) (j : Nat) (qs : List Nat) :
    Touches (Touch.draws) s (State.setDrawn s i j qs) := by
  unfold State.setDrawn
  repeat'
    first
      | with_reducible exact Touches.refl _ _
      | with_reducible assumption
      | decide
      | split
      | dsimp only
      | with_reducible apply Touches.set_draws

theorem State.drawGranary_touches (s : State) (i : Nat) (j : Nat) (q : Nat) : Touches (Touch.out |||
    Touch.regs ||| Touch.mem ||| Touch.wear ||| Touch.log ||| Touch.logBase ||| Touch.cores |||
    Touch.bells ||| Touch.node ||| Touch.tithes ||| Touch.gws ||| Touch.cfg ||| Touch.tracePos |||
    Touch.stackMem ||| Touch.bridgeMem ||| Touch.invPend ||| Touch.nextId ||| Touch.jobs |||
    Touch.xfers ||| Touch.runs ||| Touch.seqs ||| Touch.rings ||| Touch.egress ||| Touch.sas |||
    Touch.led ||| Touch.retireQ ||| Touch.mapLag ||| Touch.reports ||| Touch.markers ||| Touch.draws
    ||| Touch.heldOut ||| Touch.hostLines ||| Touch.hostResv) s (State.drawGranary s i j q):= by
  unfold State.drawGranary
  repeat'
    first
      | with_reducible exact Touches.refl _ _
      | with_reducible assumption
      | decide
      | (extract_lets +onlyGivenNames x; with_reducible refine Touches.cut (t := x) ?_ ?_; subst x; rotate_left; clear_value x; revert x; intro _ _; rotate_right)
      | (extract_lets +onlyGivenNames x; clear_value x; revert x; intro _)
      | split
      | with_reducible apply Touches.after (State.granaryEmpty_touches ..)
      | with_reducible apply Touches.after (State.raise_touches ..)
      | with_reducible apply Touches.after (State.restripe_touches ..)
      | with_reducible apply Touches.after (State.setDrawn_touches ..)

theorem State.carrierDown_touches (s : State) (i : Nat) (j : Nat) (q : Nat) : Touches (Touch.out |||
    Touch.regs ||| Touch.mem ||| Touch.grn ||| Touch.wear ||| Touch.log ||| Touch.logBase |||
    Touch.cores ||| Touch.bells ||| Touch.node ||| Touch.tithes ||| Touch.gws ||| Touch.cfg |||
    Touch.tracePos ||| Touch.stackMem ||| Touch.bridgeMem ||| Touch.invPend ||| Touch.nextId |||
    Touch.jobs ||| Touch.xfers ||| Touch.runs ||| Touch.seqs ||| Touch.rings ||| Touch.outs |||
    Touch.brackets ||| Touch.egress ||| Touch.sas ||| Touch.led ||| Touch.retireQ ||| Touch.mapLag
    ||| Touch.reports ||| Touch.markers ||| Touch.draws ||| Touch.heldOut ||| Touch.hostLines |||
    Touch.hostResv) s
    (State.carrierDown s i j q)
      := by
  unfold State.carrierDown
  repeat'
    first
      | with_reducible exact Touches.refl _ _
      | with_reducible assumption
      | decide
      | (extract_lets +onlyGivenNames x; with_reducible refine Touches.cut (t := x) ?_ ?_; subst x; rotate_left; clear_value x; revert x; intro _ _; rotate_right)
      | (extract_lets +onlyGivenNames x; clear_value x; revert x; intro _)
      | split
      | with_reducible apply Touches.after (State.carrierOut_touches ..)
      | with_reducible apply Touches.after (State.controlFailover_touches ..)
      | with_reducible apply Touches.after (State.drawGranary_touches ..)
      | with_reducible apply Touches.after (State.dropBracket_touches ..)
      | with_reducible apply Touches.after (State.granaryEmpty_touches ..)
      | with_reducible apply Touches.after (State.grnPut_touches ..)
      | with_reducible apply Touches.after (State.setDrawn_touches ..)
      | with_reducible apply Touches.after (State.setOut_touches ..)
      | with_reducible apply Touches.after (State.syncPair_touches ..)

theorem State.planeLimit_touches (s : State) (q : Nat) : Touches (Touch.out ||| Touch.regs |||
    Touch.mem ||| Touch.grn ||| Touch.wear ||| Touch.log ||| Touch.logBase ||| Touch.cores |||
    Touch.bells ||| Touch.node ||| Touch.tithes ||| Touch.gws ||| Touch.cfg ||| Touch.tracePos |||
    Touch.stackMem ||| Touch.bridgeMem ||| Touch.invPend ||| Touch.nextId ||| Touch.jobs |||
    Touch.xfers ||| Touch.runs ||| Touch.seqs ||| Touch.rings ||| Touch.outs ||| Touch.brackets |||
    Touch.egress ||| Touch.sas ||| Touch.led ||| Touch.retireQ ||| Touch.mapLag ||| Touch.reports
    ||| Touch.markers ||| Touch.draws ||| Touch.heldOut ||| Touch.hostLines ||| Touch.hostResv) s
    (State.planeLimit s q):= by
  unfold State.planeLimit
  repeat'
    first
      | with_reducible exact Touches.refl _ _
      | with_reducible assumption
      | decide
      | (extract_lets +onlyGivenNames x; with_reducible refine Touches.cut (t := x) ?_ ?_; subst x; rotate_left; clear_value x; revert x; intro _ _; rotate_right)
      | split
      | with_reducible apply Touches.after (State.raise_touches ..)
      | with_reducible apply Touches.after (State.grnPut_touches ..)
      | with_reducible apply Touches.after (State.carrierDown_touches ..)
      | with_reducible refine Touches.foldl ?_ fun _ _ => ?_

theorem State.syncDown_touches (s : State) (i : Nat) (q : Nat) : Touches (Touch.out ||| Touch.regs
    ||| Touch.mem ||| Touch.grn ||| Touch.wear ||| Touch.log ||| Touch.logBase ||| Touch.cores |||
    Touch.bells ||| Touch.node ||| Touch.tithes ||| Touch.gws ||| Touch.cfg ||| Touch.tracePos |||
    Touch.stackMem ||| Touch.bridgeMem ||| Touch.invPend ||| Touch.nextId ||| Touch.jobs |||
    Touch.xfers ||| Touch.runs ||| Touch.seqs ||| Touch.rings ||| Touch.egress ||| Touch.sas |||
    Touch.led ||| Touch.retireQ ||| Touch.mapLag ||| Touch.reports ||| Touch.heldOut |||
    Touch.hostLines ||| Touch.hostResv) s (State.syncDown s i q):= by
  unfold State.syncDown
  repeat'
    first
      | with_reducible exact Touches.refl _ _
      | with_reducible assumption
      | decide
      | (extract_lets +onlyGivenNames x; with_reducible refine Touches.cut (t := x) ?_ ?_; subst x; rotate_left; clear_value x; revert x; intro _ _; rotate_right)
      | split
      | with_reducible apply Touches.after (State.grnPut_touches ..)
      | with_reducible apply Touches.after (State.retireSite_touches ..)
      | with_reducible apply Touches.after (State.raise_touches ..)

theorem State.failCarrier_touches (s : State) (i : Nat) (j : Nat) (q : Nat) : Touches (Touch.out |||
    Touch.regs ||| Touch.mem ||| Touch.grn ||| Touch.wear ||| Touch.log ||| Touch.logBase |||
    Touch.cores ||| Touch.bells ||| Touch.node ||| Touch.tithes ||| Touch.gws ||| Touch.cfg |||
    Touch.tracePos ||| Touch.stackMem ||| Touch.bridgeMem ||| Touch.invPend ||| Touch.nextId |||
    Touch.jobs ||| Touch.xfers ||| Touch.runs ||| Touch.seqs ||| Touch.rings ||| Touch.outs |||
    Touch.brackets ||| Touch.egress ||| Touch.sas ||| Touch.led ||| Touch.retireQ ||| Touch.mapLag
    ||| Touch.reports ||| Touch.markers ||| Touch.draws ||| Touch.heldOut ||| Touch.hostLines |||
    Touch.hostResv) s
    (State.failCarrier s i j q):= by
  unfold State.failCarrier
  repeat'
    first
      | with_reducible exact Touches.refl _ _
      | decide
      | split
      | with_reducible apply Touches.after (State.syncDown_touches ..)
      | with_reducible apply Touches.after (State.planeLimit_touches ..)
      | with_reducible apply Touches.after (State.carrierDown_touches ..)

theorem State.failStepOne_touches (s : State) (tx : Nat) (rx : Nat) (q : Nat) : Touches (Touch.out
    ||| Touch.regs ||| Touch.mem ||| Touch.wear ||| Touch.log ||| Touch.logBase ||| Touch.cores |||
    Touch.bells ||| Touch.node ||| Touch.tithes ||| Touch.gws ||| Touch.cfg ||| Touch.tracePos |||
    Touch.stackMem ||| Touch.bridgeMem ||| Touch.invPend ||| Touch.nextId ||| Touch.jobs |||
    Touch.xfers ||| Touch.runs ||| Touch.seqs ||| Touch.rings ||| Touch.outs ||| Touch.brackets |||
    Touch.egress ||| Touch.sas ||| Touch.led ||| Touch.retireQ ||| Touch.mapLag ||| Touch.reports
    ||| Touch.markers ||| Touch.heldOut ||| Touch.hostLines ||| Touch.hostResv) s
    (State.failStepOne s tx rx q):= by
  unfold State.failStepOne
  repeat'
    first
      | with_reducible exact Touches.refl _ _
      | with_reducible assumption
      | decide
      | split
      | with_reducible apply Touches.after (State.carrierOut_touches ..)
      | with_reducible apply Touches.after (State.dropBracket_touches ..)

theorem State.laneFault_touches (s : State) (tx : Nat) (rx : Nat) (q : Nat) (atRx : Bool) (bad :
    Nat) : Touches (Touch.out ||| Touch.regs ||| Touch.mem ||| Touch.grn ||| Touch.wear |||
    Touch.log ||| Touch.logBase ||| Touch.cores ||| Touch.bells ||| Touch.node ||| Touch.tithes |||
    Touch.gws ||| Touch.cfg ||| Touch.tracePos ||| Touch.stackMem ||| Touch.bridgeMem |||
    Touch.invPend ||| Touch.nextId ||| Touch.jobs ||| Touch.xfers ||| Touch.runs ||| Touch.seqs |||
    Touch.rings ||| Touch.outs ||| Touch.brackets ||| Touch.egress ||| Touch.sas ||| Touch.led |||
    Touch.retireQ ||| Touch.mapLag ||| Touch.reports ||| Touch.markers ||| Touch.draws |||
    Touch.heldOut ||| Touch.hostLines ||| Touch.hostResv) s (State.laneFault s tx rx q
      atRx bad) := by
  unfold State.laneFault
  repeat'
    first
      | with_reducible exact Touches.refl _ _
      | with_reducible assumption
      | decide
      | (extract_lets +onlyGivenNames x; with_reducible refine Touches.cut (t := x) ?_ ?_; subst x; rotate_left; clear_value x; revert x; intro _ _; rotate_right)
      | (extract_lets +onlyGivenNames x; clear_value x; revert x; intro _)
      | split
      | with_reducible apply Touches.after (State.failCarrier_touches ..)
      | with_reducible apply Touches.after (State.follow_touches ..)
      | with_reducible apply Touches.after (State.setOut_touches ..)
      | with_reducible refine Touches.of_fst ‹State.steer _ _ _ _ _ _ = _› (Touches.after (State.steer_touches ..) ?_ ?_)
      | with_reducible apply Touches.after (State.steer_touches ..)

theorem execCarrierFailed_touches (tx : Site) (rx : Site) (plane : Fin 38) (late : Bool) (lane :
    Option Bool) (bad : Fin 3) (s : State) :
    Answers (Touch.out ||| Touch.regs ||| Touch.mem ||| Touch.grn ||| Touch.wear ||| Touch.log |||
    Touch.logBase ||| Touch.cores ||| Touch.bells ||| Touch.node ||| Touch.tithes ||| Touch.gws |||
    Touch.cfg ||| Touch.tracePos ||| Touch.stackMem ||| Touch.bridgeMem ||| Touch.invPend |||
    Touch.nextId ||| Touch.jobs ||| Touch.xfers ||| Touch.runs ||| Touch.seqs ||| Touch.rings |||
    Touch.outs ||| Touch.brackets ||| Touch.egress ||| Touch.sas ||| Touch.led ||| Touch.retireQ |||
    Touch.mapLag ||| Touch.reports ||| Touch.markers ||| Touch.draws ||| Touch.heldOut |||
    Touch.hostLines ||| Touch.hostResv) s (execCarrierFailed tx rx
      plane late lane bad s) := by
  unfold execCarrierFailed
  repeat'
    first
      | with_reducible apply Answers.next
      | with_reducible exact Touches.refl _ _
      | with_reducible assumption
      | decide
      | (extract_lets +onlyGivenNames x; with_reducible refine Answers.cut (t := x) ?_ ?_; subst x; rotate_left; clear_value x; revert x; intro _ _; rotate_right)
      | (extract_lets +onlyGivenNames x; clear_value x; revert x; intro _)
      | split
      | with_reducible apply Touches.after (State.failCarrier_touches ..)
      | with_reducible apply Touches.after (State.failStepOne_touches ..)
      | with_reducible apply Touches.after (State.laneFault_touches ..)

theorem State.setComb_touches (s : State) (i : Nat) (c : Nat) (code : Nat) :
    Touches (Touch.regs ||| Touch.grn ||| Touch.mapLag) s (State.setComb s i c code) := by
  unfold State.setComb
  repeat'
    first
      | with_reducible exact Touches.refl _ _
      | with_reducible assumption
      | decide
      | (extract_lets +onlyGivenNames x; with_reducible refine Touches.cut (t := x) ?_ ?_; subst x; rotate_left; clear_value x; revert x; intro _ _; rotate_right)
      | (extract_lets +onlyGivenNames x; clear_value x; revert x; intro _)
      | split
      | with_reducible apply Touches.after (State.setF_touches ..)
      | with_reducible apply Touches.after (State.grnDel_touches ..)
      | with_reducible apply Touches.after (State.grnPut_touches ..)

theorem State.combSwap_touches (s : State) (i : Nat) (c : Nat) :
    Touches (Touch.out ||| Touch.regs ||| Touch.grn ||| Touch.log ||| Touch.logBase ||| Touch.bells |||
      Touch.node ||| Touch.mapLag ||| Touch.reports) s (State.combSwap s i c) := by
  unfold State.combSwap
  repeat'
    first
      | with_reducible exact Touches.refl _ _
      | with_reducible assumption
      | decide
      | (extract_lets +onlyGivenNames x; with_reducible refine Touches.cut (t := x) ?_ ?_; subst x; rotate_left; clear_value x; revert x; intro _ _; rotate_right)
      | (extract_lets +onlyGivenNames x; clear_value x; revert x; intro _)
      | split
      | with_reducible apply Touches.after (State.granaryEmpty_touches ..)
      | with_reducible apply Touches.after (State.raise_touches ..)
      | with_reducible apply Touches.after (State.setComb_touches ..)
      | with_reducible apply Touches.after (State.setF_touches ..)

theorem State.setRingCal_touches (s : State) (i : Nat) (n : Nat) (x : RingCal) :
    Touches (Touch.rcal) s (State.setRingCal s i n x) := by
  unfold State.setRingCal
  repeat'
    first
      | with_reducible exact Touches.refl _ _
      | decide
      | with_reducible apply Touches.set_rcal

theorem State.combCarrierOut_touches (s : State) (i : Nat) (j : Nat) (q : Nat) : Touches (Touch.out
    ||| Touch.regs ||| Touch.mem ||| Touch.wear ||| Touch.log ||| Touch.logBase ||| Touch.cores |||
    Touch.bells ||| Touch.node ||| Touch.tithes ||| Touch.gws ||| Touch.cfg ||| Touch.tracePos |||
    Touch.stackMem ||| Touch.bridgeMem ||| Touch.invPend ||| Touch.nextId ||| Touch.jobs |||
    Touch.xfers ||| Touch.runs ||| Touch.seqs ||| Touch.rings ||| Touch.outs ||| Touch.egress |||
    Touch.sas ||| Touch.led ||| Touch.retireQ ||| Touch.rcal ||| Touch.mapLag ||| Touch.reports |||
    Touch.markers ||| Touch.heldOut ||| Touch.hostLines ||| Touch.hostResv) s
    (State.combCarrierOut s i j
      q) := by
  unfold State.combCarrierOut
  repeat'
    first
      | with_reducible exact Touches.refl _ _
      | with_reducible assumption
      | decide
      | (extract_lets +onlyGivenNames x; with_reducible refine Touches.cut (t := x) ?_ ?_; subst x; rotate_left; clear_value x; revert x; intro _ _; rotate_right)
      | (extract_lets +onlyGivenNames x; clear_value x; revert x; intro _)
      | split
      | with_reducible apply Touches.after (State.carrierOut_touches ..)
      | with_reducible apply Touches.after (State.setRingCal_touches ..)

theorem State.switchComb_touches (s : State) (i : Nat) (c : Nat) : Touches (Touch.out ||| Touch.regs
    ||| Touch.mem ||| Touch.grn ||| Touch.wear ||| Touch.log ||| Touch.logBase ||| Touch.cores |||
    Touch.bells ||| Touch.node ||| Touch.tithes ||| Touch.gws ||| Touch.cfg ||| Touch.tracePos |||
    Touch.stackMem ||| Touch.bridgeMem ||| Touch.invPend ||| Touch.nextId ||| Touch.jobs |||
    Touch.xfers ||| Touch.runs ||| Touch.seqs ||| Touch.rings ||| Touch.outs ||| Touch.egress |||
    Touch.sas ||| Touch.led ||| Touch.retireQ ||| Touch.rcal ||| Touch.mapLag ||| Touch.reports |||
    Touch.markers ||| Touch.heldOut ||| Touch.hostLines ||| Touch.hostResv) s
    (State.switchComb s i c):= by
  unfold State.switchComb
  repeat'
    first
      | with_reducible exact Touches.refl _ _
      | with_reducible assumption
      | decide
      | split
      | (extract_lets +onlyGivenNames x; with_reducible refine Touches.cut (t := x) ?_ ?_; subst x; rotate_left; clear_value x; revert x; intro _ _; rotate_right)
      | with_reducible apply Touches.after (State.setF_touches ..)
      | with_reducible apply Touches.after (State.setComb_touches ..)
      | with_reducible apply Touches.after (State.granaryEmpty_touches ..)
      | with_reducible apply Touches.after (State.raise_touches ..)
      | with_reducible apply Touches.after (State.carrierOut_touches ..)
      | with_reducible refine Touches.foldl ?_ fun _ _ => ?_
      | with_reducible apply Touches.after (State.combCarrierOut_touches ..)
      | with_reducible apply Touches.after (State.combSwap_touches ..)
theorem State.combPlanesDown_touches (s : State) (i : Nat) (c : Nat) : Touches (Touch.out |||
    Touch.regs ||| Touch.mem ||| Touch.grn ||| Touch.wear ||| Touch.log ||| Touch.logBase |||
    Touch.cores ||| Touch.bells ||| Touch.node ||| Touch.tithes ||| Touch.gws ||| Touch.cfg |||
    Touch.tracePos ||| Touch.stackMem ||| Touch.bridgeMem ||| Touch.invPend ||| Touch.nextId |||
    Touch.jobs ||| Touch.xfers ||| Touch.runs ||| Touch.seqs ||| Touch.rings ||| Touch.outs |||
    Touch.brackets ||| Touch.egress ||| Touch.sas ||| Touch.led ||| Touch.retireQ ||| Touch.mapLag
    ||| Touch.reports ||| Touch.markers ||| Touch.draws ||| Touch.heldOut ||| Touch.hostLines |||
    Touch.hostResv) s
    (State.combPlanesDown s i c):= by
  unfold State.combPlanesDown
  repeat'
    first
      | with_reducible exact Touches.refl _ _
      | decide
      | split
      | with_reducible apply Touches.after (State.syncDown_touches ..)
      | with_reducible apply Touches.after (State.failCarrier_touches ..)
      | with_reducible refine Touches.foldl ?_ fun _ _ => ?_
      | with_reducible apply Touches.after (State.carrierDown_touches ..)

theorem State.combFails_touches (s : State) (i : Nat) (c : Nat) : Touches (Touch.out ||| Touch.regs
    ||| Touch.mem ||| Touch.grn ||| Touch.wear ||| Touch.log ||| Touch.logBase ||| Touch.cores |||
    Touch.bells ||| Touch.node ||| Touch.tithes ||| Touch.gws ||| Touch.cfg ||| Touch.tracePos |||
    Touch.stackMem ||| Touch.bridgeMem ||| Touch.invPend ||| Touch.nextId ||| Touch.jobs |||
    Touch.xfers ||| Touch.runs ||| Touch.seqs ||| Touch.rings ||| Touch.outs ||| Touch.brackets |||
    Touch.egress ||| Touch.sas ||| Touch.led ||| Touch.retireQ ||| Touch.rcal ||| Touch.mapLag |||
    Touch.reports ||| Touch.markers ||| Touch.draws ||| Touch.heldOut ||| Touch.hostLines |||
    Touch.hostResv) s
    (State.combFails s i c):= by
  unfold State.combFails
  repeat'
    first
      | with_reducible exact Touches.refl _ _
      | decide
      | (extract_lets +onlyGivenNames x; clear_value x; revert x; intro _)
      | split
      | with_reducible apply Touches.after (State.switchComb_touches ..)
      | with_reducible apply Touches.after (State.combPlanesDown_touches ..)
      | with_reducible apply Touches.after (State.setComb_touches ..)

theorem State.replaceCombs_touches (s : State) : Touches (Touch.out ||| Touch.regs ||| Touch.mem |||
    Touch.grn ||| Touch.wear ||| Touch.log ||| Touch.logBase ||| Touch.cores ||| Touch.bells |||
    Touch.node ||| Touch.tithes ||| Touch.gws ||| Touch.cfg ||| Touch.tracePos ||| Touch.stackMem
    ||| Touch.bridgeMem ||| Touch.invPend ||| Touch.nextId ||| Touch.jobs ||| Touch.xfers |||
    Touch.runs ||| Touch.seqs ||| Touch.rings ||| Touch.outs ||| Touch.egress ||| Touch.sas |||
    Touch.led ||| Touch.retireQ ||| Touch.rcal ||| Touch.mapLag ||| Touch.reports ||| Touch.markers
    ||| Touch.heldOut ||| Touch.hostLines ||| Touch.hostResv) s (State.replaceCombs s):= by
  unfold State.replaceCombs
  repeat'
    first
      | with_reducible exact Touches.refl _ _
      | decide
      | split
      | with_reducible apply Touches.after (State.switchComb_touches ..)
      | with_reducible refine Touches.foldl ?_ fun _ _ => ?_

theorem State.pairUp_touches (s : State) (i : Nat) (j : Nat) :
    Touches (Touch.out ||| Touch.regs ||| Touch.grn ||| Touch.log ||| Touch.logBase ||| Touch.bells |||
      Touch.node ||| Touch.gws ||| Touch.outs ||| Touch.mapLag ||| Touch.reports ||| Touch.markers |||
      Touch.draws) s (State.pairUp s i j) := by
  unfold State.pairUp
  repeat'
    first
      | with_reducible exact Touches.refl _ _
      | with_reducible assumption
      | decide
      | (extract_lets +onlyGivenNames x; with_reducible refine Touches.cut (t := x) ?_ ?_; subst x; rotate_left; clear_value x; revert x; intro _ _; rotate_right)
      | (extract_lets +onlyGivenNames x; clear_value x; revert x; intro _)
      | split
      | with_reducible apply Touches.after (State.controlFailover_touches ..)
      | with_reducible apply Touches.after (State.grnPut_touches ..)
      | with_reducible apply Touches.after (State.setDrawn_touches ..)
      | with_reducible apply Touches.after (State.setF_touches ..)
      | with_reducible apply Touches.after (State.setOut_touches ..)
      | with_reducible apply Touches.after (State.setReg_touches ..)
      | with_reducible refine Touches.foldl ?_ fun _ _ => ?_
      | dsimp only
      | with_reducible apply Touches.set_markers

theorem State.siteLanesUp_touches (s : State) (i : Nat) :
    Touches (Touch.regs) s (State.siteLanesUp s i) := by
  unfold State.siteLanesUp
  repeat'
    first
      | with_reducible exact Touches.refl _ _
      | with_reducible assumption
      | decide
      | (extract_lets +onlyGivenNames x; with_reducible refine Touches.cut (t := x) ?_ ?_; subst x; rotate_left; clear_value x; revert x; intro _ _; rotate_right)
      | split
      | with_reducible apply Touches.after (State.setF_touches ..)
      | with_reducible refine Touches.foldl ?_ fun _ _ => ?_

theorem State.frameRx_touches (s : State) (i : Nat) (rx : Rx) :
    Touches (Touch.regs) s (State.frameRx s i rx).1 := by
  unfold State.frameRx
  repeat'
    first
      | with_reducible exact Touches.refl _ _
      | decide
      | split
      | with_reducible apply Touches.after (State.bump_touches ..)

theorem State.markerSeen_touches (s : State) (site : Nat) (peer : Nat) (v : Nat) :
    Touches (Touch.regs ||| Touch.markers) s (State.markerSeen s site peer v) := by
  unfold State.markerSeen
  repeat'
    first
      | with_reducible exact Touches.refl _ _
      | with_reducible assumption
      | decide
      | (extract_lets +onlyGivenNames x; with_reducible refine Touches.cut (t := x) ?_ ?_; subst x; rotate_left; clear_value x; revert x; intro _ _; rotate_right)
      | (extract_lets +onlyGivenNames x; clear_value x; revert x; intro _)
      | split
      | with_reducible apply Touches.after (State.bump_touches ..)
      | with_reducible apply Touches.after (State.setF_touches ..)
      | with_reducible apply Touches.after (State.setReg_touches ..)
      | dsimp only
      | with_reducible apply Touches.set_markers

theorem State.swapCombs_touches (s : State) :
    Touches (Touch.out ||| Touch.regs ||| Touch.grn ||| Touch.log ||| Touch.logBase ||| Touch.bells |||
      Touch.node ||| Touch.mapLag ||| Touch.reports) s (State.swapCombs s) := by
  unfold State.swapCombs
  repeat'
    first
      | with_reducible exact Touches.refl _ _
      | with_reducible assumption
      | decide
      | split
      | with_reducible apply Touches.after (State.combSwap_touches ..)
      | with_reducible refine Touches.foldl ?_ fun _ _ => ?_

theorem State.pairsUp_touches (s : State) (up : List Nat) :
    Touches (Touch.out ||| Touch.regs ||| Touch.grn ||| Touch.log ||| Touch.logBase ||| Touch.bells |||
      Touch.node ||| Touch.gws ||| Touch.outs ||| Touch.mapLag ||| Touch.reports ||| Touch.markers |||
      Touch.draws) s (State.pairsUp s up) := by
  unfold State.pairsUp
  repeat'
    first
      | with_reducible exact Touches.refl _ _
      | with_reducible assumption
      | decide
      | split
      | with_reducible apply Touches.after (State.pairUp_touches ..)
      | with_reducible refine Touches.foldl ?_ fun _ _ => ?_

end Sys2Proof.Machine
end

