-- ==== Sys2Proof/Laws/Links.lean ====
section
/-!
SUPPORT. What the operations of Machine/Links.lean may touch.
-/

namespace Sys2Proof.Machine

theorem State.setLinkState_touches (s : State) (x : Nat) (st : Nat) :
    Touches (Touch.regs ||| Touch.wear ||| Touch.mapLag) s (State.setLinkState s x st) := by
  unfold State.setLinkState
  repeat'
    first
      | with_reducible exact Touches.refl _ _
      | with_reducible assumption
      | decide
      | (extract_lets +onlyGivenNames nx; with_reducible refine Touches.cut (t := nx) ?_ ?_; subst nx; rotate_left; clear_value nx; revert nx; intro _ _; rotate_right)
      | split
      | with_reducible apply Touches.after (State.wearUp_touches ..)
      | with_reducible apply Touches.after (State.setF_touches ..)

theorem State.dualOn_touches (s : State) (from_ : Nat) (y : Nat) (ps : List Packet) :
    Touches (Touch.out ||| Touch.gws ||| Touch.links) s (State.dualOn s from_ y ps) := by
  unfold State.dualOn
  repeat'
    first
      | with_reducible exact Touches.refl _ _
      | with_reducible assumption
      | decide
      | (extract_lets +onlyGivenNames nx; with_reducible refine Touches.cut (t := nx) ?_ ?_; subst nx; rotate_left; clear_value nx; revert nx; intro _ _; rotate_right)
      | (extract_lets +onlyGivenNames nx; subst nx)
      | split
      | with_reducible apply Touches.after (State.setLink_touches ..)
      | with_reducible apply Touches.after (State.sendHop_touches ..)
      | with_reducible refine Touches.foldl ?_ fun _ _ => ?_

theorem State.redispatch_touches (s : State) (x : Nat) :
    Touches (Touch.out ||| Touch.regs ||| Touch.gws) s (State.redispatch s x) := by
  unfold State.redispatch
  repeat'
    first
      | with_reducible exact Touches.refl _ _
      | with_reducible assumption
      | decide
      | (extract_lets +onlyGivenNames nx; with_reducible refine Touches.cut (t := nx) ?_ ?_; subst nx; rotate_left; clear_value nx; revert nx; intro _ _; rotate_right)
      | (extract_lets +onlyGivenNames nx; subst nx)
      | split
      | with_reducible apply Touches.after (State.setGw_touches ..)
      | with_reducible apply Touches.after (State.unserved_touches ..)
      | with_reducible apply Touches.after (State.sendHop_touches ..)
      | with_reducible refine Touches.foldl ?_ fun _ _ => ?_

theorem State.freshHop_touches (s : State) (site : Nat) (h : Hop) :
    Touches (Touch.gws) s (State.freshHop s site h) := by
  unfold State.freshHop
  repeat'
    first
      | with_reducible exact Touches.refl _ _
      | decide
      | (extract_lets +onlyGivenNames nx; subst nx)
      | with_reducible apply Touches.after (State.setGw_touches ..)

theorem State.returnSlots_touches (s : State) (x : Nat) :
    Touches (Touch.out ||| Touch.regs ||| Touch.gws ||| Touch.links) s (State.returnSlots s x) := by
  unfold State.returnSlots
  repeat'
    first
      | with_reducible exact Touches.refl _ _
      | with_reducible assumption
      | decide
      | split
      | (extract_lets +onlyGivenNames nx; with_reducible refine Touches.cut (t := nx) ?_ ?_; subst nx; rotate_left; clear_value nx; revert nx; intro _ _; rotate_right)
      | (extract_lets +onlyGivenNames nx; subst nx)
      | with_reducible apply Touches.after (State.setF_touches ..)
      | with_reducible apply Touches.after (State.setLink_touches ..)
      | with_reducible apply Touches.after (State.dualOn_touches ..)
      | with_reducible refine Touches.foldl ?_ fun _ _ => ?_
theorem State.leaveSlots_touches (s : State) (x : Nat) (lately : List Packet) :
    Touches (Touch.out ||| Touch.regs ||| Touch.log ||| Touch.logBase ||| Touch.bells ||| Touch.node |||
      Touch.gws ||| Touch.links ||| Touch.reports) s (State.leaveSlots s x lately) := by
  unfold State.leaveSlots
  repeat'
    first
      | with_reducible exact Touches.refl _ _
      | with_reducible assumption
      | decide
      | (extract_lets +onlyGivenNames x; with_reducible refine Touches.cut (t := x) ?_ ?_; subst x; rotate_left; clear_value x; revert x; intro _ _; rotate_right)
      | (extract_lets +onlyGivenNames x; clear_value x; revert x; intro _)
      | split
      | with_reducible apply Touches.after (State.bump_touches ..)
      | with_reducible apply Touches.after (State.dualOn_touches ..)
      | with_reducible apply Touches.after (State.raise_touches ..)
      | with_reducible apply Touches.after (State.setF_touches ..)
      | with_reducible refine Touches.foldl ?_ fun _ _ => ?_

theorem State.redirect_touches (s : State) (x : Nat) :
    Touches (Touch.out ||| Touch.regs ||| Touch.wear ||| Touch.log ||| Touch.logBase ||| Touch.bells |||
      Touch.node ||| Touch.gws ||| Touch.links ||| Touch.mapLag ||| Touch.reports) s (State.redirect s
      x) := by
  unfold State.redirect
  repeat'
    first
      | with_reducible exact Touches.refl _ _
      | with_reducible assumption
      | decide
      | (extract_lets +onlyGivenNames x; with_reducible refine Touches.cut (t := x) ?_ ?_; subst x; rotate_left; clear_value x; revert x; intro _ _; rotate_right)
      | (extract_lets +onlyGivenNames x; clear_value x; revert x; intro _)
      | split
      | with_reducible apply Touches.after (State.leaveSlots_touches ..)
      | with_reducible apply Touches.after (State.raise_touches ..)
      | with_reducible apply Touches.after (State.redispatch_touches ..)
      | with_reducible apply Touches.after (State.returnSlots_touches ..)
      | with_reducible apply Touches.after (State.sendCode_touches ..)
      | with_reducible apply Touches.after (State.setLink_touches ..)
      | with_reducible apply Touches.after (State.setLinkState_touches ..)
      | with_reducible refine Touches.foldl ?_ fun _ _ => ?_

theorem State.swapLink_touches (s : State) (x : Nat) (y : Nat) :
    Touches (Touch.regs) s (State.swapLink s x y) := by
  unfold State.swapLink
  repeat'
    first
      | with_reducible exact Touches.refl _ _
      | decide
      | (extract_lets +onlyGivenNames nx; subst nx)
      | split
      | with_reducible apply Touches.after (State.setF_touches ..)
      | with_reducible refine Touches.foldl ?_ fun _ _ => ?_

theorem State.showRevertive_touches (s : State) (x : Nat) :
    Touches (Touch.regs) s (State.showRevertive s x) := by
  unfold State.showRevertive
  repeat'
    first
      | with_reducible exact Touches.refl _ _
      | with_reducible assumption
      | decide
      | split
      | with_reducible apply Touches.after (State.setF_touches ..)

theorem State.degraded_touches (s : State) :
    Touches (Touch.regs) s (State.degraded s) := by
  unfold State.degraded
  repeat'
    first
      | with_reducible exact Touches.refl _ _
      | with_reducible assumption
      | decide
      | split
      | with_reducible apply Touches.after (State.setF_touches ..)

theorem State.linkFails_touches (s : State) (x : Nat) :
    Touches (Touch.out ||| Touch.regs ||| Touch.grn ||| Touch.wear ||| Touch.log ||| Touch.logBase |||
      Touch.bells ||| Touch.node ||| Touch.gws ||| Touch.links ||| Touch.mapLag ||| Touch.reports) s
      (State.linkFails s x) := by
  unfold State.linkFails
  repeat'
    first
      | with_reducible exact Touches.refl _ _
      | with_reducible assumption
      | decide
      | (extract_lets +onlyGivenNames x; with_reducible refine Touches.cut (t := x) ?_ ?_; subst x; rotate_left; clear_value x; revert x; intro _ _; rotate_right)
      | (extract_lets +onlyGivenNames x; clear_value x; revert x; intro _)
      | split
      | with_reducible apply Touches.after (State.dualOn_touches ..)
      | with_reducible apply Touches.after (State.granaryEmpty_touches ..)
      | with_reducible apply Touches.after (State.grnPut_touches ..)
      | with_reducible apply Touches.after (State.leaveSlots_touches ..)
      | with_reducible apply Touches.after (State.raise_touches ..)
      | with_reducible apply Touches.after (State.redirect_touches ..)
      | with_reducible apply Touches.after (State.setF_touches ..)
      | with_reducible apply Touches.after (State.setLink_touches ..)
      | with_reducible apply Touches.after (State.setLinkState_touches ..)
      | with_reducible apply Touches.after (State.showRevertive_touches ..)
      | with_reducible apply Touches.after (State.swapLink_touches ..)
      | with_reducible refine Touches.foldl ?_ fun _ _ => ?_
      | with_reducible apply Touches.after (State.degraded_touches ..)
theorem execLinkFailed_touches (link : Fin 68) (s : State) :
    Answers (Touch.out ||| Touch.regs ||| Touch.grn ||| Touch.wear ||| Touch.log ||| Touch.logBase |||
    Touch.bells ||| Touch.node ||| Touch.gws ||| Touch.links ||| Touch.mapLag ||| Touch.reports) s (execLinkFailed link s) := by
  unfold execLinkFailed
  repeat'
    first
      | with_reducible apply Answers.next
      | with_reducible exact Touches.refl _ _
      | decide
      | (extract_lets +onlyGivenNames nx; subst nx)
      | split
      | with_reducible apply Touches.after (State.linkFails_touches ..)

theorem State.showWaves_touches (s : State) (x : Nat) :
    Touches (Touch.out ||| Touch.regs ||| Touch.gws ||| Touch.links) s (State.showWaves s x) := by
  unfold State.showWaves
  repeat'
    first
      | with_reducible exact Touches.refl _ _
      | with_reducible assumption
      | decide
      | (extract_lets +onlyGivenNames x; with_reducible refine Touches.cut (t := x) ?_ ?_; subst x; rotate_left; clear_value x; revert x; intro _ _; rotate_right)
      | (extract_lets +onlyGivenNames x; clear_value x; revert x; intro _)
      | split
      | with_reducible apply Touches.after (State.emit_touches ..)
      | with_reducible apply Touches.after (State.setF_touches ..)
      | with_reducible apply Touches.after (State.setLink_touches ..)
      | with_reducible apply Touches.after (State.setStream_touches ..)
      | with_reducible apply Touches.after (State.sendCode_touches ..)
theorem State.dropWaveBracket_touches (s : State) (x : Nat) :
    Touches (Touch.regs ||| Touch.brackets) s (State.dropWaveBracket s x) := by
  unfold State.dropWaveBracket
  repeat'
    first
      | with_reducible exact Touches.refl _ _
      | with_reducible assumption
      | decide
      | (extract_lets +onlyGivenNames x; with_reducible refine Touches.cut (t := x) ?_ ?_; subst x; rotate_left; clear_value x; revert x; intro _ _; rotate_right)
      | (extract_lets +onlyGivenNames x; clear_value x; revert x; intro _)
      | split
      | with_reducible apply Touches.after (State.setF_touches ..)
      | dsimp only
      | with_reducible apply Touches.set_brackets

theorem State.waveLost_touches (s : State) (x : Nat) (w : Nat) :
    Touches (Touch.out ||| Touch.regs ||| Touch.grn ||| Touch.wear ||| Touch.log ||| Touch.logBase |||
      Touch.bells ||| Touch.node ||| Touch.gws ||| Touch.links ||| Touch.mapLag ||| Touch.reports) s
      (State.waveLost s x w) := by
  unfold State.waveLost
  repeat'
    first
      | with_reducible exact Touches.refl _ _
      | with_reducible assumption
      | decide
      | (extract_lets +onlyGivenNames x; with_reducible refine Touches.cut (t := x) ?_ ?_; subst x; rotate_left; clear_value x; revert x; intro _ _; rotate_right)
      | (extract_lets +onlyGivenNames x; clear_value x; revert x; intro _)
      | split
      | with_reducible apply Touches.after (State.grnPut_touches ..)
      | with_reducible apply Touches.after (State.linkFails_touches ..)
      | with_reducible apply Touches.after (State.raise_touches ..)
      | with_reducible apply Touches.after (State.showWaves_touches ..)

theorem State.waveFails_touches (s : State) (x : Nat) (w : Nat) :
    Touches (Touch.out ||| Touch.regs ||| Touch.grn ||| Touch.wear ||| Touch.log ||| Touch.logBase |||
      Touch.bells ||| Touch.node ||| Touch.gws ||| Touch.brackets ||| Touch.links ||| Touch.mapLag |||
      Touch.reports) s (State.waveFails s x w) := by
  unfold State.waveFails
  repeat'
    first
      | with_reducible exact Touches.refl _ _
      | with_reducible assumption
      | decide
      | (extract_lets +onlyGivenNames x; with_reducible refine Touches.cut (t := x) ?_ ?_; subst x; rotate_left; clear_value x; revert x; intro _ _; rotate_right)
      | (extract_lets +onlyGivenNames x; clear_value x; revert x; intro _)
      | split
      | with_reducible apply Touches.after (State.dropWaveBracket_touches ..)
      | with_reducible apply Touches.after (State.granaryEmpty_touches ..)
      | with_reducible apply Touches.after (State.grnPut_touches ..)
      | with_reducible apply Touches.after (State.raise_touches ..)
      | with_reducible apply Touches.after (State.setLink_touches ..)
      | with_reducible apply Touches.after (State.showWaves_touches ..)
      | with_reducible apply Touches.after (State.waveLost_touches ..)

theorem execWavelengthFailed_touches (link : Fin 68) (wave : Fin 17) (s : State) :
    Answers (Touch.out ||| Touch.regs ||| Touch.grn ||| Touch.wear ||| Touch.log ||| Touch.logBase |||
      Touch.bells ||| Touch.node ||| Touch.gws ||| Touch.brackets ||| Touch.links ||| Touch.mapLag |||
      Touch.reports) s (execWavelengthFailed link wave s) := by
  unfold execWavelengthFailed
  repeat'
    first
      | with_reducible apply Answers.next
      | with_reducible exact Touches.refl _ _
      | with_reducible assumption
      | decide
      | (extract_lets +onlyGivenNames x; with_reducible refine Answers.cut (t := x) ?_ ?_; subst x; rotate_left; clear_value x; revert x; intro _ _; rotate_right)
      | (extract_lets +onlyGivenNames x; clear_value x; revert x; intro _)
      | split
      | with_reducible apply Touches.after (State.waveFails_touches ..)

theorem execLinkRedirect_touches (link : Fin 68) (lost : Bool) (s : State) :
    Answers (Touch.out ||| Touch.regs ||| Touch.wear ||| Touch.log ||| Touch.logBase ||| Touch.bells |||
    Touch.node ||| Touch.gws ||| Touch.links ||| Touch.mapLag ||| Touch.reports) s (execLinkRedirect link lost s) := by
  unfold execLinkRedirect
  repeat'
    first
      | with_reducible apply Answers.next
      | with_reducible exact Touches.refl _ _
      | decide
      | (extract_lets +onlyGivenNames nx; subst nx)
      | split
      | with_reducible apply Touches.after (State.redirect_touches ..)

theorem State.clearRedirects_touches (s : State) (e : Nat) :
    Touches (Touch.regs ||| Touch.links) s (State.clearRedirects s e) := by
  unfold State.clearRedirects
  repeat'
    first
      | with_reducible exact Touches.refl _ _
      | decide
      | (extract_lets +onlyGivenNames nx; subst nx)
      | split
      | with_reducible apply Touches.after (State.setLink_touches ..)
      | with_reducible apply Touches.after (State.setF_touches ..)
      | with_reducible refine Touches.foldl ?_ fun _ _ => ?_

theorem State.linkTrained_touches (s : State) (x : Nat) (h : Handshake) :
    Touches (Touch.out ||| Touch.regs ||| Touch.wear ||| Touch.log ||| Touch.logBase ||| Touch.bells |||
      Touch.node ||| Touch.gws ||| Touch.links ||| Touch.mapLag ||| Touch.reports) s
      (State.linkTrained s x h) := by
  unfold State.linkTrained
  repeat'
    first
      | with_reducible exact Touches.refl _ _
      | with_reducible assumption
      | decide
      | (extract_lets +onlyGivenNames x; with_reducible refine Touches.cut (t := x) ?_ ?_; subst x; rotate_left; clear_value x; revert x; intro _ _; rotate_right)
      | (extract_lets +onlyGivenNames x; clear_value x; revert x; intro _)
      | split
      | with_reducible apply Touches.after (State.clearRedirects_touches ..)
      | with_reducible apply Touches.after (State.freshHop_touches ..)
      | with_reducible apply Touches.after (State.leaveSlots_touches ..)
      | with_reducible apply Touches.after (State.raise_touches ..)
      | with_reducible apply Touches.after (State.redirect_touches ..)
      | with_reducible apply Touches.after (State.returnSlots_touches ..)
      | with_reducible apply Touches.after (State.setF_touches ..)
      | with_reducible apply Touches.after (State.setLink_touches ..)
      | with_reducible apply Touches.after (State.setLinkState_touches ..)
      | with_reducible apply Touches.after (State.showWaves_touches ..)
      | with_reducible apply Touches.after (State.degraded_touches ..)
theorem execLinkTraining_touches (link : Fin 68) (peer : Option Handshake) (s : State) :
    Answers (Touch.out ||| Touch.regs ||| Touch.grn ||| Touch.wear ||| Touch.log ||| Touch.logBase |||
    Touch.bells ||| Touch.node ||| Touch.gws ||| Touch.links ||| Touch.mapLag ||| Touch.reports) s (execLinkTraining link peer s) := by
  unfold execLinkTraining
  repeat'
    first
      | with_reducible apply Answers.next
      | with_reducible exact Touches.refl _ _
      | with_reducible assumption
      | decide
      | (extract_lets +onlyGivenNames nx; with_reducible refine Answers.cut (t := nx) ?_ ?_; subst nx; rotate_left; clear_value nx; revert nx; intro _ _; rotate_right)
      | (extract_lets +onlyGivenNames nx; subst nx)
      | split
      | with_reducible apply Touches.after (State.linkTrained_touches ..)
      | with_reducible apply Touches.after (State.setLink_touches ..)
      | with_reducible apply Touches.after (State.linkFails_touches ..)

theorem State.loadTime_touches (s : State) (x : Nat) (t : Nat) :
    Touches (Touch.vt ||| Touch.vtFrac ||| Touch.links ||| Touch.vc) s (State.loadTime s x t) := by
  unfold State.loadTime
  repeat'
    first
      | with_reducible exact Touches.refl _ _
      | with_reducible assumption
      | decide
      | (extract_lets +onlyGivenNames x; with_reducible refine Touches.cut (t := x) ?_ ?_; subst x; rotate_left; clear_value x; revert x; intro _ _; rotate_right)
      | (extract_lets +onlyGivenNames x; clear_value x; revert x; intro _)
      | split
      | with_reducible apply Touches.after (State.setLink_touches ..)
      | with_reducible refine Touches.foldl ?_ fun _ _ => ?_
      | dsimp only
      | with_reducible apply Touches.set_vt_vtFrac_vc

theorem execLinkControlCodeword_touches (link : Fin 68) (slot : Fin 18) (level : Int) (word : BitVec
    5140) (codes : List Codeword) (s : State) :
    Answers (Touch.vt ||| Touch.vtFrac ||| Touch.out ||| Touch.regs ||| Touch.gws ||| Touch.links |||
      Touch.vc) s (execLinkControlCodeword link slot level word codes s) := by
  unfold execLinkControlCodeword
  repeat'
    first
      | with_reducible apply Answers.next
      | with_reducible exact Touches.refl _ _
      | with_reducible assumption
      | decide
      | (extract_lets +onlyGivenNames x; with_reducible refine Answers.cut (t := x) ?_ ?_; subst x; rotate_left; clear_value x; revert x; intro _ _; rotate_right)
      | (extract_lets +onlyGivenNames x; clear_value x; revert x; intro _)
      | split
      | with_reducible apply Touches.after (State.countCodes_touches ..)
      | with_reducible apply Touches.after (State.hearCode_touches ..)
      | with_reducible refine Touches.of_fst ‹State.hears _ _ _ = _› (Touches.after (State.hears_touches ..) ?_ ?_)
      | with_reducible apply Touches.after (State.hears_touches ..)
      | with_reducible apply Touches.after (State.resend_touches ..)
      | with_reducible apply Touches.after (State.sendCode_touches ..)
      | with_reducible apply Touches.after (State.setLink_touches ..)
      | with_reducible apply Touches.after (State.loadTime_touches ..)
      | dsimp only
      | with_reducible apply Touches.set_vt_vtFrac_vc
theorem State.restore_touches (s : State) (e : Nat) :
    Touches (Touch.regs ||| Touch.links ||| Touch.restores) s (State.restore s e) := by
  unfold State.restore
  repeat'
    first
      | with_reducible exact Touches.refl _ _
      | decide
      | split
      | with_reducible apply Touches.after (State.clearRedirects_touches ..)
      | with_reducible apply Touches.set_restores

theorem execRestoreLinks_touches (engine : Engine) (s : State) :
    Answers (Touch.regs ||| Touch.links ||| Touch.restores) s (execRestoreLinks engine s) := by
  unfold execRestoreLinks
  repeat'
    first
      | with_reducible apply Answers.next
      | with_reducible exact Touches.refl _ _
      | decide
      | with_reducible apply Touches.after (State.restore_touches ..)

theorem State.restoreDue_touches (s : State) (e : Nat) :
    Touches (Touch.regs ||| Touch.links ||| Touch.restores) s (State.restoreDue s e) := by
  unfold State.restoreDue
  repeat'
    first
      | with_reducible exact Touches.refl _ _
      | with_reducible assumption
      | decide
      | (extract_lets +onlyGivenNames nx; with_reducible refine Touches.cut (t := nx) ?_ ?_; subst nx; rotate_left; clear_value nx; revert nx; intro _ _; rotate_right)
      | split
      | with_reducible apply Touches.after (State.clearRedirects_touches ..)
      | with_reducible apply Touches.set_restores

theorem execRevertiveReturn_touches (link : Fin 68) (s : State) :
    Answers (Touch.out ||| Touch.regs ||| Touch.gws ||| Touch.links) s (execRevertiveReturn link s) := by
  unfold execRevertiveReturn
  repeat'
    first
      | with_reducible apply Answers.next
      | with_reducible exact Touches.refl _ _
      | decide
      | split
      | with_reducible apply Touches.after (State.returnSlots_touches ..)

theorem State.resetLink_touches (s : State) (x : Nat) :
    Touches (Touch.out ||| Touch.regs ||| Touch.wear ||| Touch.log ||| Touch.logBase ||| Touch.bells |||
    Touch.node ||| Touch.gws ||| Touch.links ||| Touch.mapLag ||| Touch.reports) s (State.resetLink s x) := by
  unfold State.resetLink
  repeat'
    first
      | with_reducible exact Touches.refl _ _
      | with_reducible assumption
      | decide
      | (extract_lets +onlyGivenNames nx; with_reducible refine Touches.cut (t := nx) ?_ ?_; subst nx; rotate_left; clear_value nx; revert nx; intro _ _; rotate_right)
      | (extract_lets +onlyGivenNames nx; subst nx)
      | split
      | with_reducible apply Touches.after (State.redirect_touches ..)
      | with_reducible apply Touches.after (State.setLink_touches ..)
      | with_reducible apply Touches.after (State.setLinkState_touches ..)

theorem State.resetLinks_touches (s : State) (e : Nat) (mask : Nat) :
    Touches (Touch.out ||| Touch.regs ||| Touch.wear ||| Touch.log ||| Touch.logBase ||| Touch.bells |||
    Touch.node ||| Touch.gws ||| Touch.links ||| Touch.mapLag ||| Touch.reports) s (State.resetLinks s e mask) := by
  unfold State.resetLinks
  repeat'
    first
      | with_reducible exact Touches.refl _ _
      | decide
      | split
      | with_reducible apply Touches.after (State.resetLink_touches ..)
      | with_reducible refine Touches.foldl ?_ fun _ _ => ?_

theorem execLnkReset_touches (r : Requester) (engine : Engine) (mask : BitVec 10) (s : State) :
    Answers (Touch.out ||| Touch.regs ||| Touch.wear ||| Touch.log ||| Touch.logBase ||| Touch.bells |||
    Touch.node ||| Touch.gws ||| Touch.links ||| Touch.mapLag ||| Touch.reports) s (execLnkReset r engine mask s) := by
  unfold execLnkReset
  repeat'
    first
      | with_reducible apply Answers.next
      | with_reducible exact Touches.refl _ _
      | decide
      | split
      | with_reducible apply Touches.after (State.resetLinks_touches ..)

theorem State.linksUp_touches (s : State) :
    Touches (Touch.out ||| Touch.regs ||| Touch.wear ||| Touch.log ||| Touch.logBase ||| Touch.bells |||
      Touch.node ||| Touch.gws ||| Touch.links ||| Touch.mapLag ||| Touch.reports) s (State.linksUp s)
      := by
  unfold State.linksUp
  repeat'
    first
      | with_reducible exact Touches.refl _ _
      | with_reducible assumption
      | decide
      | (extract_lets +onlyGivenNames x; with_reducible refine Touches.cut (t := x) ?_ ?_; subst x; rotate_left; clear_value x; revert x; intro _ _; rotate_right)
      | (extract_lets +onlyGivenNames x; clear_value x; revert x; intro _)
      | split
      | with_reducible apply Touches.after (State.leaveSlots_touches ..)
      | with_reducible apply Touches.after (State.setF_touches ..)
      | with_reducible apply Touches.after (State.setLink_touches ..)
      | with_reducible apply Touches.after (State.setLinkState_touches ..)
      | with_reducible apply Touches.after (State.setReg_touches ..)
      | with_reducible apply Touches.after (State.showRevertive_touches ..)
      | with_reducible refine Touches.foldl ?_ fun _ _ => ?_

theorem execStripeMarker_touches (site : Site) (hop : Hop) (version : BitVec 4) (s : State) :
    Answers (Touch.regs ||| Touch.links ||| Touch.markers) s (execStripeMarker site hop version s) := by
  unfold execStripeMarker
  repeat'
    first
      | with_reducible apply Answers.next
      | with_reducible exact Touches.refl _ _
      | with_reducible assumption
      | decide
      | (extract_lets +onlyGivenNames x; with_reducible refine Answers.cut (t := x) ?_ ?_; subst x; rotate_left; clear_value x; revert x; intro _ _; rotate_right)
      | (extract_lets +onlyGivenNames x; clear_value x; revert x; intro _)
      | split
      | with_reducible apply Touches.after (State.markerSeen_touches ..)
      | with_reducible apply Touches.after (State.setLink_touches ..)

theorem State.extCombFails_touches (s : State) (i : Nat) (c : Nat) :
    Touches (Touch.out ||| Touch.regs ||| Touch.grn ||| Touch.wear ||| Touch.log ||| Touch.logBase |||
      Touch.bells ||| Touch.node ||| Touch.gws ||| Touch.links ||| Touch.mapLag ||| Touch.reports) s
      (State.extCombFails s i c) := by
  unfold State.extCombFails
  repeat'
    first
      | with_reducible exact Touches.refl _ _
      | with_reducible assumption
      | decide
      | split
      | with_reducible apply Touches.after (State.grnPut_touches ..)
      | with_reducible apply Touches.after (State.redirect_touches ..)
      | with_reducible refine Touches.foldl ?_ fun _ _ => ?_

theorem execCombFailure_touches (site : Site) (comb : Fin 7) (s : State) :
    Answers (Touch.out ||| Touch.regs ||| Touch.mem ||| Touch.grn ||| Touch.wear ||| Touch.log |||
    Touch.logBase ||| Touch.cores ||| Touch.bells ||| Touch.node ||| Touch.tithes ||| Touch.gws |||
    Touch.cfg ||| Touch.tracePos ||| Touch.stackMem ||| Touch.bridgeMem ||| Touch.invPend |||
    Touch.nextId ||| Touch.jobs ||| Touch.xfers ||| Touch.runs ||| Touch.seqs ||| Touch.rings |||
    Touch.outs ||| Touch.brackets ||| Touch.links ||| Touch.egress ||| Touch.sas ||| Touch.led |||
    Touch.retireQ ||| Touch.rcal ||| Touch.mapLag ||| Touch.reports ||| Touch.markers |||
    Touch.draws ||| Touch.heldOut ||| Touch.hostLines ||| Touch.hostResv) s
      (execCombFailure site comb s) := by
  unfold execCombFailure
  repeat'
    first
      | with_reducible apply Answers.next
      | with_reducible exact Touches.refl _ _
      | with_reducible assumption
      | decide
      | split
      | with_reducible apply Touches.after (State.combFails_touches ..)
      | with_reducible apply Touches.after (State.extCombFails_touches ..)

end Sys2Proof.Machine
end

