-- ==== Sys2Proof/Laws/Ledger.lean ====
section
/-!
SUPPORT. What the operations of Machine/Ledger.lean may touch.
-/

namespace Sys2Proof.Machine

theorem State.ledgerStore_touches (s : State) (b : Nat) (a : Nat) (e : List Byte) :
    Touches (Touch.regs ||| Touch.mem ||| Touch.stackMem ||| Touch.bridgeMem) s (State.ledgerStore s b a e) := by
  unfold State.ledgerStore
  repeat'
    first
      | with_reducible exact Touches.refl _ _
      | with_reducible assumption
      | decide
      | split
      | with_reducible apply Touches.after (State.hbmMoved_touches ..)
      | with_reducible apply Touches.after (State.invNow_touches ..)
      | with_reducible apply Touches.after (State.writeMem_touches ..)

theorem State.ledgerChain_touches (s : State) (ctx : Nat) (e : List Byte) :
    Touches (Touch.led) s (State.ledgerChain s ctx e) := by
  unfold State.ledgerChain
  repeat'
    first
      | with_reducible exact Touches.refl _ _
      | with_reducible assumption
      | decide
      | (extract_lets +onlyGivenNames x; with_reducible refine Touches.cut (t := x) ?_ ?_; subst x; rotate_left; clear_value x; revert x; intro _ _; rotate_right)
      | (extract_lets +onlyGivenNames x; clear_value x; revert x; intro _)
      | split
      | dsimp only
      | with_reducible apply Touches.set_led

theorem State.ledgerAdd_touches (s : State) (ctx : Nat) (kind : Nat) (req : Nat) (host : Nat) (site
    : Nat) (len : Nat) (detail : List Byte) : Touches (Touch.regs ||| Touch.mem ||| Touch.stackMem
    ||| Touch.bridgeMem ||| Touch.led) s (State.ledgerAdd s ctx kind req host site len detail):= by
  unfold State.ledgerAdd
  repeat'
    first
      | with_reducible exact Touches.refl _ _
      | with_reducible assumption
      | decide
      | (extract_lets +onlyGivenNames nx; with_reducible refine Touches.cut (t := nx) ?_ ?_; subst nx; rotate_left; clear_value nx; revert nx; intro _ _; rotate_right)
      | (extract_lets +onlyGivenNames nx; clear_value nx; revert nx; intro _)
      | split
      | with_reducible apply Touches.after (State.ledgerChain_touches ..)
      | with_reducible apply Touches.after (State.ledgerStore_touches ..)

theorem State.ledgerTouch_touches (s : State) (kind : Nat) (req : Nat) (host : Nat) (g : Nat) (n :
    Nat) : Touches (Touch.regs ||| Touch.mem ||| Touch.stackMem ||| Touch.bridgeMem ||| Touch.led) s
    (State.ledgerTouch s kind req host g n):= by
  unfold State.ledgerTouch
  repeat'
    first
      | with_reducible exact Touches.refl _ _
      | decide
      | split
      | with_reducible apply Touches.after (State.ledgerAdd_touches ..)
      | with_reducible refine Touches.foldl ?_ fun _ _ => ?_

end Sys2Proof.Machine
end

