-- ==== Sys2Proof/Laws/Host.lean ====
section
/-!
SUPPORT. What the operations of Machine/Host.lean may touch.
-/

namespace Sys2Proof.Machine

theorem State.hostRefuse_touches (s : State) (h : Nat) (status : Nat) (cause : Nat) :
    Touches (Touch.out ||| Touch.regs ||| Touch.log ||| Touch.logBase ||| Touch.bells ||| Touch.node |||
    Touch.reports) s (State.hostRefuse s h status cause) := by
  unfold State.hostRefuse
  repeat'
    first
      | with_reducible exact Touches.refl _ _
      | decide
      | with_reducible apply Touches.after (State.emit_touches ..)
      | with_reducible apply Touches.after (State.raiseStatus_touches ..)

theorem State.hostLedger_touches (s : State) (h : Nat) (g : Nat) (n : Nat) (kind : Nat) : Touches
    (Touch.regs ||| Touch.mem ||| Touch.stackMem ||| Touch.bridgeMem ||| Touch.led) s
    (State.hostLedger s h g n kind):= by
  unfold State.hostLedger
  repeat'
    first
      | with_reducible exact Touches.refl _ _
      | decide
      | split
      | with_reducible apply Touches.after (State.ledgerTouch_touches ..)

theorem State.hostFetch_touches (s : State) (h : Nat) (g : Nat) (id : Nat) (o : Nat) (u : Nat)
    (flaws : Flaws) : Touches (Touch.out ||| Touch.regs ||| Touch.mem ||| Touch.wear ||| Touch.log
    ||| Touch.logBase ||| Touch.cores ||| Touch.bells ||| Touch.node ||| Touch.tithes ||| Touch.gws
    ||| Touch.tracePos ||| Touch.stackMem ||| Touch.bridgeMem ||| Touch.invPend ||| Touch.nextId |||
    Touch.jobs ||| Touch.xfers ||| Touch.runs ||| Touch.seqs ||| Touch.rings ||| Touch.egress |||
    Touch.sas ||| Touch.led ||| Touch.retireQ ||| Touch.mapLag ||| Touch.reports ||| Touch.heldOut
    ||| Touch.hostLines ||| Touch.hostResv) s (State.hostFetch s h g id o u flaws):= by
  unfold State.hostFetch
  repeat'
    first
      | with_reducible exact Touches.refl _ _
      | decide
      | (extract_lets +onlyGivenNames nx; subst nx)
      | split
      | with_reducible apply Touches.after (State.titheSend_touches ..)
      | with_reducible refine Touches.of_fst ‹State.cacheLook _ _ _ _ _ _ _ = _› (Touches.after (State.cacheLook_touches ..) ?_ ?_)
      | with_reducible apply Touches.after (State.xferPart_touches ..)

theorem State.hostParity_touches (s : State) (h : Nat) :
    Touches (Touch.out ||| Touch.regs ||| Touch.wear ||| Touch.log ||| Touch.logBase ||| Touch.bells |||
    Touch.node ||| Touch.mapLag ||| Touch.reports) s (State.hostParity s h) := by
  unfold State.hostParity
  repeat'
    first
      | with_reducible exact Touches.refl _ _
      | decide
      | with_reducible apply Touches.after (State.emit_touches ..)
      | with_reducible apply Touches.after (State.raise_touches ..)
      | with_reducible apply Touches.after (State.wearUp_touches ..)

theorem State.hostWrite_touches (s : State) (h : Nat) (g : Nat) (mask : Nat) (bs : List Byte) (id :
    Nat) (o : Nat) : Touches (Touch.out ||| Touch.regs ||| Touch.mem ||| Touch.wear ||| Touch.log
    ||| Touch.logBase ||| Touch.cores ||| Touch.bells ||| Touch.node ||| Touch.tithes ||| Touch.gws
    ||| Touch.tracePos ||| Touch.stackMem ||| Touch.bridgeMem ||| Touch.invPend ||| Touch.nextId |||
    Touch.jobs ||| Touch.xfers ||| Touch.runs ||| Touch.seqs ||| Touch.rings ||| Touch.egress |||
    Touch.sas ||| Touch.led ||| Touch.retireQ ||| Touch.mapLag ||| Touch.reports ||| Touch.heldOut
    ||| Touch.hostLines ||| Touch.hostResv) s
    (State.hostWrite s h g mask bs id o):= by
  unfold State.hostWrite
  repeat'
    first
      | with_reducible exact Touches.refl _ _
      | with_reducible assumption
      | decide
      | (extract_lets +onlyGivenNames nx; with_reducible refine Touches.cut (t := nx) ?_ ?_; subst nx; rotate_left; clear_value nx; revert nx; intro _ _; rotate_right)
      | (extract_lets +onlyGivenNames nx; subst nx)
      | split
      | with_reducible apply Touches.after (State.cacheWrite_touches ..)
      | with_reducible apply Touches.after (State.titheSend_touches ..)

theorem State.hostClean_touches (s : State) (h : Nat) (parity : HostParity) :
    Touches (Touch.regs ||| Touch.wear ||| Touch.mapLag) s (State.hostClean s h parity) := by
  unfold State.hostClean
  repeat'
    first
      | with_reducible exact Touches.refl _ _
      | with_reducible assumption
      | decide
      | split
      | with_reducible apply Touches.after (State.wearUp_touches ..)

theorem State.drawHost_touches (s : State) (lost : Nat) :
    Touches (Touch.out ||| Touch.regs ||| Touch.log ||| Touch.logBase ||| Touch.bells ||| Touch.node |||
    Touch.hostTake ||| Touch.rolePend ||| Touch.reports) s (State.drawHost s lost) := by
  unfold State.drawHost
  repeat'
    first
      | with_reducible exact Touches.refl _ _
      | with_reducible assumption
      | decide
      | (extract_lets +onlyGivenNames nx; with_reducible refine Touches.cut (t := nx) ?_ ?_; subst nx; rotate_left; clear_value nx; revert nx; intro _ _; rotate_right)
      | (extract_lets +onlyGivenNames nx; subst nx)
      | split
      | with_reducible apply Touches.after (State.raise_touches ..)
      | with_reducible apply Touches.after (State.granaryEmpty_touches ..)
      | with_reducible apply Touches.after (State.putRole_touches ..)
      | with_reducible apply Touches.set_hostTake

theorem execHostCoreLost_touches (h : Host64) (s : State) :
    Answers (Touch.out ||| Touch.regs ||| Touch.wear ||| Touch.log ||| Touch.logBase ||| Touch.bells |||
    Touch.node ||| Touch.hostTake ||| Touch.mapLag ||| Touch.rolePend ||| Touch.reports) s (execHostCoreLost h s) := by
  unfold execHostCoreLost
  repeat'
    first
      | with_reducible apply Answers.next
      | with_reducible exact Touches.refl _ _
      | with_reducible assumption
      | decide
      | (extract_lets +onlyGivenNames nx; with_reducible refine Answers.cut (t := nx) ?_ ?_; subst nx; rotate_left; clear_value nx; revert nx; intro _ _; rotate_right)
      | (extract_lets +onlyGivenNames nx; subst nx)
      | split
      | with_reducible apply Touches.after (State.setF_touches ..)
      | with_reducible apply Touches.after (State.putRole_touches ..)
      | with_reducible apply Touches.after (State.raise_touches ..)
      | with_reducible apply Touches.after (State.wearUp_touches ..)
      | with_reducible apply Touches.after (State.drawHost_touches ..)

theorem State.hostRefetch_touches (s : State) (h : Nat) (g : Nat) (n : Nat) (parity : HostParity) :
    Touches (Touch.hostLines) s (State.hostRefetch s h g n parity) := by
  unfold State.hostRefetch
  repeat'
    first
      | with_reducible exact Touches.refl _ _
      | with_reducible assumption
      | decide
      | split
      | with_reducible apply Touches.after (State.refetchLines_touches ..)

theorem State.hostLineAccess_touches (s : State) (h : Nat) (g : Nat) (n : Nat) (todo : HostDo) (flaws : Flaws) :
    Touches (Touch.out ||| Touch.regs ||| Touch.mem ||| Touch.wear ||| Touch.log ||| Touch.logBase |||
      Touch.cores ||| Touch.bells ||| Touch.node ||| Touch.tithes ||| Touch.gws ||| Touch.tracePos |||
      Touch.stackMem ||| Touch.bridgeMem ||| Touch.invPend ||| Touch.nextId ||| Touch.jobs |||
      Touch.xfers ||| Touch.runs ||| Touch.seqs ||| Touch.rings ||| Touch.egress ||| Touch.sas |||
      Touch.led ||| Touch.retireQ ||| Touch.mapLag ||| Touch.reports ||| Touch.heldOut |||
      Touch.hostLines ||| Touch.hostResv) s (State.hostLineAccess s h g n todo flaws) := by
  unfold State.hostLineAccess
  repeat'
    first
      | with_reducible exact Touches.refl _ _
      | with_reducible assumption
      | decide
      | (extract_lets +onlyGivenNames x; with_reducible refine Touches.cut (t := x) ?_ ?_; subst x; rotate_left; clear_value x; revert x; intro _ _; rotate_right)
      | (extract_lets +onlyGivenNames x; clear_value x; revert x; intro _)
      | split
      | with_reducible refine Touches.of_fst ‹State.beginXfer _ _ _ = _› (Touches.after (State.beginXfer_touches ..) ?_ ?_)
      | with_reducible apply Touches.after (State.beginXfer_touches ..)
      | with_reducible apply Touches.after (State.emit_touches ..)
      | with_reducible apply Touches.after (State.hostDo_touches ..)
      | with_reducible apply Touches.after (State.hostFetch_touches ..)
      | with_reducible apply Touches.after (State.hostRefuse_touches ..)
      | with_reducible apply Touches.after (State.linesCome_touches ..)
      | with_reducible refine Touches.of_fst ‹State.readCheck _ _ _ _ _ _ _ = _› (Touches.after (State.readCheck_touches ..) ?_ ?_)
      | with_reducible apply Touches.after (State.readCheck_touches ..)
      | with_reducible refine Touches.foldl ?_ fun _ _ => ?_

theorem State.hostAmoLine_touches (s : State) (h : Nat) (g : Nat) (amo : HostAmo) (flaws : Flaws) :
    Touches (Touch.out ||| Touch.regs ||| Touch.mem ||| Touch.wear ||| Touch.log ||| Touch.logBase |||
      Touch.cores ||| Touch.bells ||| Touch.node ||| Touch.tithes ||| Touch.gws ||| Touch.tracePos |||
      Touch.stackMem ||| Touch.bridgeMem ||| Touch.invPend ||| Touch.nextId ||| Touch.jobs |||
      Touch.xfers ||| Touch.runs ||| Touch.seqs ||| Touch.rings ||| Touch.egress ||| Touch.sas |||
      Touch.led ||| Touch.retireQ ||| Touch.mapLag ||| Touch.reports ||| Touch.heldOut |||
      Touch.hostLines ||| Touch.hostResv) s (State.hostAmoLine s h g amo flaws) := by
  unfold State.hostAmoLine
  repeat'
    first
      | with_reducible exact Touches.refl _ _
      | with_reducible assumption
      | decide
      | (extract_lets +onlyGivenNames x; with_reducible refine Touches.cut (t := x) ?_ ?_; subst x; rotate_left; clear_value x; revert x; intro _ _; rotate_right)
      | (extract_lets +onlyGivenNames x; clear_value x; revert x; intro _)
      | split
      | with_reducible apply Touches.after (State.emit_touches ..)
      | with_reducible apply Touches.after (State.hostLedger_touches ..)
      | with_reducible apply Touches.after (State.hostLineAccess_touches ..)

theorem execHostAmo_touches (h : Host64) (pa : BitVec 56) (amo : HostAmo) (how : HostStoreHow)
    (flaws : Flaws) (s : State) :
    Answers (Touch.out ||| Touch.regs ||| Touch.mem ||| Touch.wear ||| Touch.log ||| Touch.logBase |||
      Touch.cores ||| Touch.bells ||| Touch.node ||| Touch.tithes ||| Touch.gws ||| Touch.tracePos |||
      Touch.stackMem ||| Touch.bridgeMem ||| Touch.invPend ||| Touch.nextId ||| Touch.jobs |||
      Touch.xfers ||| Touch.runs ||| Touch.seqs ||| Touch.rings ||| Touch.egress ||| Touch.sas |||
      Touch.led ||| Touch.retireQ ||| Touch.mapLag ||| Touch.reports ||| Touch.heldOut |||
      Touch.hostLines ||| Touch.hostResv) s (execHostAmo h pa amo how flaws s) := by
  unfold execHostAmo
  repeat'
    first
      | with_reducible apply Answers.next
      | with_reducible exact Touches.refl _ _
      | with_reducible assumption
      | decide
      | (extract_lets +onlyGivenNames x; with_reducible refine Answers.cut (t := x) ?_ ?_; subst x; rotate_left; clear_value x; revert x; intro _ _; rotate_right)
      | (extract_lets +onlyGivenNames x; clear_value x; revert x; intro _)
      | split
      | with_reducible refine Touches.of_fst ‹State.beginXfer _ _ _ = _› (Touches.after (State.beginXfer_touches ..) ?_ ?_)
      | with_reducible apply Touches.after (State.beginXfer_touches ..)
      | with_reducible apply Touches.after (State.emit_touches ..)
      | with_reducible apply Touches.after (State.hostAmoLine_touches ..)
      | with_reducible apply Touches.after (State.hostClean_touches ..)
      | with_reducible apply Touches.after (State.hostLedger_touches ..)
      | with_reducible apply Touches.after (State.hostParity_touches ..)
      | with_reducible apply Touches.after (State.hostRefetch_touches ..)
      | with_reducible apply Touches.after (State.hostRefuse_touches ..)
      | with_reducible refine Touches.of_fst ‹State.portWrite _ _ _ _ _ _ _ = _› (Touches.after (State.portWrite_touches ..) ?_ ?_)
      | with_reducible apply Touches.after (State.portWrite_touches ..)
      | with_reducible refine Touches.of_fst ‹State.readCheck _ _ _ _ _ _ _ = _› (Touches.after (State.readCheck_touches ..) ?_ ?_)
      | with_reducible apply Touches.after (State.readCheck_touches ..)
      | with_reducible apply Touches.after (State.titheSend_touches ..)

end Sys2Proof.Machine
end

