-- ==== Sys2Proof/Laws/Rings.lean ====
section
/-!
SUPPORT. What the operations of Machine/Rings.lean may touch.
-/

namespace Sys2Proof.Machine

theorem State.storeRun_touches (s : State) (ctx : Nat) (site : Nat) (a : Nat) (bs : List Byte) :
    Touches (Touch.out ||| Touch.regs ||| Touch.mem ||| Touch.log ||| Touch.logBase ||| Touch.cores |||
      Touch.bells ||| Touch.node ||| Touch.stackMem ||| Touch.bridgeMem ||| Touch.reports) s
      (State.storeRun s ctx site a bs) := by
  unfold State.storeRun
  repeat'
    first
      | with_reducible exact Touches.refl _ _
      | with_reducible assumption
      | decide
      | (extract_lets +onlyGivenNames x; with_reducible refine Touches.cut (t := x) ?_ ?_; subst x; rotate_left; clear_value x; revert x; intro _ _; rotate_right)
      | (extract_lets +onlyGivenNames x; clear_value x; revert x; intro _)
      | split
      | with_reducible apply Touches.after (State.fillWrite_touches ..)
      | with_reducible apply Touches.after (State.hbmMoved_touches ..)
      | with_reducible apply Touches.after (State.invNow_touches ..)
      | with_reducible apply Touches.after (State.writeMem_touches ..)
      | with_reducible refine Touches.foldl ?_ fun _ _ => ?_

theorem State.engineStore_touches (s : State) (who : Nat) (ctx : Nat) (g : Nat) (bs : List Byte) :
    Touches (Touch.out ||| Touch.regs ||| Touch.mem ||| Touch.log ||| Touch.logBase ||| Touch.cores |||
      Touch.bells ||| Touch.node ||| Touch.stackMem ||| Touch.bridgeMem ||| Touch.reports) s
      (State.engineStore s who ctx g bs).1 := by
  unfold State.engineStore
  repeat'
    first
      | with_reducible exact Touches.refl _ _
      | with_reducible assumption
      | decide
      | split
      | with_reducible apply Touches.after (State.raiseStatus_touches ..)
      | with_reducible apply Touches.after (State.storeRun_touches ..)
      | dsimp only

theorem State.engineWrite_touches (s : State) (who : Nat) (ctx : Nat) (g : Nat) (bs : List Byte) :
    Touches (Touch.out ||| Touch.regs ||| Touch.mem ||| Touch.log ||| Touch.logBase ||| Touch.cores |||
      Touch.bells ||| Touch.node ||| Touch.stackMem ||| Touch.bridgeMem ||| Touch.reports) s
      (State.engineWrite s who ctx g bs) := State.engineStore_touches ..

theorem State.engineRead_touches (s : State) (who : Nat) (ctx : Nat) (g : Nat) (n : Nat) (flaws : Flaws) :
    Touches (Touch.out ||| Touch.regs ||| Touch.wear ||| Touch.log ||| Touch.logBase ||| Touch.cores |||
    Touch.bells ||| Touch.node ||| Touch.stackMem ||| Touch.bridgeMem ||| Touch.retireQ |||
    Touch.mapLag ||| Touch.reports) s (State.engineRead s who ctx g n flaws).1 := by
  unfold State.engineRead
  repeat'
    first
      | with_reducible exact Touches.refl _ _
      | decide
      | (extract_lets +onlyGivenNames nx; subst nx)
      | split
      | with_reducible apply Touches.after (State.raiseStatus_touches ..)
      | with_reducible refine Touches.of_fst ‹State.readCheck _ _ _ _ _ _ _ = _› (Touches.after (State.readCheck_touches ..) ?_ ?_)

theorem State.sendIrq_touches (s : State) (h : Nat) (id : Nat) :
    Touches (Touch.out ||| Touch.imsic) s (State.sendIrq s h id) := by
  unfold State.sendIrq
  repeat'
    first
      | with_reducible exact Touches.refl _ _
      | with_reducible assumption
      | decide
      | split
      | with_reducible apply Touches.after (State.emit_touches ..)
      | dsimp only
      | with_reducible apply Touches.set_imsic

theorem State.refuseBell_touches (s : State) (ring : Nat) :
    Touches (Touch.out ||| Touch.regs ||| Touch.log ||| Touch.logBase ||| Touch.bells ||| Touch.node |||
    Touch.reports) s (State.refuseBell s ring) := by
  unfold State.refuseBell
  repeat'
    first
      | with_reducible exact Touches.refl _ _
      | decide
      | with_reducible apply Touches.after (State.raise_touches ..)
      | with_reducible apply Touches.after (State.bump_touches ..)

theorem State.publish_touches (s : State) (r : Rec) (pi : Nat) (ci : Nat) :
    Touches (Touch.out ||| Touch.regs ||| Touch.mem ||| Touch.log ||| Touch.logBase ||| Touch.cores |||
      Touch.bells ||| Touch.node ||| Touch.stackMem ||| Touch.bridgeMem ||| Touch.rings |||
      Touch.reports ||| Touch.imsic) s (State.publish s r pi ci) := by
  unfold State.publish
  repeat'
    first
      | with_reducible exact Touches.refl _ _
      | with_reducible assumption
      | decide
      | (extract_lets +onlyGivenNames x; with_reducible refine Touches.cut (t := x) ?_ ?_; subst x; rotate_left; clear_value x; revert x; intro _ _; rotate_right)
      | (extract_lets +onlyGivenNames x; clear_value x; revert x; intro _)
      | split
      | with_reducible apply Touches.after (State.engineWrite_touches ..)
      | with_reducible apply Touches.after (State.sendIrq_touches ..)
      | with_reducible apply Touches.after (State.setRing_touches ..)

theorem State.doorbell_touches (s : State) (req : Requester) (ring : Nat) (prod : Bool) (index :
    Nat) : Touches (Touch.out ||| Touch.regs ||| Touch.mem ||| Touch.log ||| Touch.logBase |||
    Touch.cores ||| Touch.bells ||| Touch.node ||| Touch.stackMem ||| Touch.bridgeMem |||
    Touch.invPend ||| Touch.nextId ||| Touch.rings ||| Touch.reports ||| Touch.imsic) s
    (State.doorbell s req ring
    prod index):= by
  unfold State.doorbell
  repeat'
    first
      | with_reducible exact Touches.refl _ _
      | decide
      | (extract_lets +onlyGivenNames nx; subst nx)
      | split
      | with_reducible apply Touches.after (State.refuseBell_touches ..)
      | with_reducible apply Touches.after (State.publish_touches ..)

theorem execProducerDoorbell_touches (r : Requester) (ring : Fin 32768) (index : BitVec 16) (s : State) :
    Answers (Touch.out ||| Touch.regs ||| Touch.mem ||| Touch.log ||| Touch.logBase ||| Touch.cores
    ||| Touch.bells ||| Touch.node ||| Touch.stackMem ||| Touch.bridgeMem ||| Touch.invPend |||
    Touch.nextId ||| Touch.rings ||| Touch.reports ||| Touch.imsic) s (execProducerDoorbell r ring
    index s):= by
  unfold execProducerDoorbell
  repeat'
    first
      | with_reducible apply Answers.next
      | with_reducible exact Touches.refl _ _
      | decide
      | with_reducible apply Touches.after (State.doorbell_touches ..)

theorem execConsumerDoorbell_touches (r : Requester) (ring : Fin 32768) (index : BitVec 16) (s : State) :
    Answers (Touch.out ||| Touch.regs ||| Touch.mem ||| Touch.log ||| Touch.logBase ||| Touch.cores
    ||| Touch.bells ||| Touch.node ||| Touch.stackMem ||| Touch.bridgeMem ||| Touch.invPend |||
    Touch.nextId ||| Touch.rings ||| Touch.reports ||| Touch.imsic) s (execConsumerDoorbell r ring
    index s):= by
  unfold execConsumerDoorbell
  repeat'
    first
      | with_reducible apply Answers.next
      | with_reducible exact Touches.refl _ _
      | decide
      | with_reducible apply Touches.after (State.doorbell_touches ..)

theorem State.produce_touches {s : State} {r : Rec} {bs : List Byte} {t : State} (h : s.produce r bs = some t) :
    Touches (Touch.out ||| Touch.regs ||| Touch.mem ||| Touch.log ||| Touch.logBase ||| Touch.cores ||| Touch.bells |||
    Touch.node ||| Touch.stackMem ||| Touch.bridgeMem ||| Touch.invPend ||| Touch.nextId ||| Touch.rings |||
    Touch.reports ||| Touch.imsic) s t := by
  unfold State.produce at h
  dsimp only at h
  split at h
  · cases h
  · cases h
    exact (State.publish_touches ..).after ((State.engineWrite_touches ..).mono (by decide)) (by decide)

theorem State.produceOr_touches {ps : Nat} {s t d : State} {r : Rec} {bs : List Byte} (h : Touches ps s t)
    (hd : Touches ps s d) (hs : (Touch.out ||| Touch.regs ||| Touch.mem ||| Touch.log ||| Touch.logBase ||| Touch.cores ||| Touch.bells |||
    Touch.node ||| Touch.stackMem ||| Touch.bridgeMem ||| Touch.invPend ||| Touch.nextId ||| Touch.rings |||
    Touch.reports ||| Touch.imsic) &&& ps = (Touch.out ||| Touch.regs ||| Touch.mem ||| Touch.log ||| Touch.logBase ||| Touch.cores ||| Touch.bells |||
    Touch.node ||| Touch.stackMem ||| Touch.bridgeMem ||| Touch.invPend ||| Touch.nextId ||| Touch.rings |||
    Touch.reports ||| Touch.imsic)) : Touches ps s ((t.produce r bs).getD d) := by
  cases hp : t.produce r bs with
  | none => exact hd
  | some u => exact (State.produce_touches hp).after h hs

theorem State.complete_touches {s : State} {r : Rec} {o : RingOp} {fin : Nat × Nat × Nat × Nat} {t : State} (h : s.complete r o fin = some t) :
    Touches (Touch.out ||| Touch.regs ||| Touch.mem ||| Touch.log ||| Touch.logBase ||| Touch.cores ||| Touch.bells |||
    Touch.node ||| Touch.stackMem ||| Touch.bridgeMem ||| Touch.invPend ||| Touch.nextId ||| Touch.rings |||
    Touch.reports ||| Touch.imsic) s t := by
  unfold State.complete at h
  split at h
  · cases h; exact Touches.refl _ _
  · split at h
    · cases h; exact Touches.refl _ _
    · split at h
      · cases h; exact Touches.refl _ _
      · exact State.produce_touches h

theorem State.flushRing_touches (s : State) (r : Rec) (x2 : Nat) : Touches (Touch.out ||| Touch.regs
    ||| Touch.mem ||| Touch.log ||| Touch.logBase ||| Touch.cores ||| Touch.bells ||| Touch.node |||
    Touch.stackMem ||| Touch.bridgeMem ||| Touch.invPend ||| Touch.nextId ||| Touch.rings |||
    Touch.reports ||| Touch.imsic) s
    (State.flushRing s r x2):= by
  induction x2 generalizing s with
  | zero => exact Touches.refl _ _
  | succ n ih =>
    unfold State.flushRing
    repeat'
      first
        | with_reducible exact Touches.refl _ _
        | decide
        | with_reducible refine Touches.trans ?_ (ih ..)
        | (extract_lets +onlyGivenNames nx; subst nx)
        | split
        | with_reducible apply Touches.after (State.publish_touches ..)
        | with_reducible apply Touches.after (State.setRing_touches ..)
        | with_reducible refine Touches.after (State.complete_touches ‹State.complete _ _ _ _ = some _›) ?_ ?_

theorem State.flush_touches (s : State) (r : Rec) : Touches (Touch.out ||| Touch.regs ||| Touch.mem
    ||| Touch.log ||| Touch.logBase ||| Touch.cores ||| Touch.bells ||| Touch.node |||
    Touch.stackMem ||| Touch.bridgeMem ||| Touch.invPend ||| Touch.nextId ||| Touch.rings |||
    Touch.reports ||| Touch.imsic) s
    (State.flush s r):= by
  unfold State.flush
  repeat'
    first
      | with_reducible exact Touches.refl _ _
      | decide
      | with_reducible apply Touches.after (State.flushRing_touches ..)

theorem State.finishOp_touches (s : State) (r : Rec) (idx : Nat) (fin : Nat × Nat × Nat × Nat) :
    Touches (Touch.out ||| Touch.regs ||| Touch.mem ||| Touch.log ||| Touch.logBase ||| Touch.cores
    ||| Touch.bells ||| Touch.node ||| Touch.stackMem ||| Touch.bridgeMem ||| Touch.invPend |||
    Touch.nextId ||| Touch.rings ||| Touch.reports ||| Touch.imsic) s (State.finishOp s r idx fin):= by
  unfold State.finishOp
  repeat'
    first
      | with_reducible exact Touches.refl _ _
      | with_reducible assumption
      | decide
      | (extract_lets +onlyGivenNames nx; with_reducible refine Touches.cut (t := nx) ?_ ?_; subst nx; rotate_left; revert nx; intro _ _; rotate_right)
      | (extract_lets +onlyGivenNames nx; subst nx)
      | split
      | with_reducible apply Touches.after (State.setRing_touches ..)
      | with_reducible apply Touches.after (State.raise_touches ..)
      | with_reducible apply Touches.after (State.flush_touches ..)

theorem State.completeControl_touches {s : State} {r : Rec} {o : RingOp} {fin : Nat × Nat × Nat × Nat} {t : State}
    (h : s.completeControl r o fin = some t) :
    Touches (Touch.out ||| Touch.regs ||| Touch.mem ||| Touch.log ||| Touch.logBase ||| Touch.cores ||| Touch.bells |||
    Touch.node ||| Touch.stackMem ||| Touch.bridgeMem ||| Touch.invPend ||| Touch.nextId ||| Touch.rings |||
    Touch.reports ||| Touch.imsic) s t := by
  unfold State.completeControl at h
  dsimp only at h
  split at h
  · cases h; exact Touches.refl _ _
  · split at h
    · cases h; exact Touches.refl _ _
    · exact State.produce_touches h

theorem State.flushControl_touches (s : State) (r : Rec) (x : Nat) : Touches (Touch.out |||
    Touch.regs ||| Touch.mem ||| Touch.log ||| Touch.logBase ||| Touch.cores ||| Touch.bells |||
    Touch.node ||| Touch.stackMem ||| Touch.bridgeMem ||| Touch.invPend ||| Touch.nextId |||
    Touch.rings ||| Touch.reports ||| Touch.imsic) s (State.flushControl s r x):= by
  induction x generalizing s r with
  | zero => exact Touches.refl _ _
  | succ n ih =>
    unfold State.flushControl
    repeat'
      first
        | with_reducible exact Touches.refl _ _
        | with_reducible assumption
        | decide
        | with_reducible refine Touches.trans ?_ (ih ..)
        | split
        | with_reducible refine Touches.after (State.completeControl_touches ‹State.completeControl _ _ _ _ = some _›) ?_ ?_
        | with_reducible apply Touches.after (State.setRing_touches ..)

theorem execCompletionRoom_touches (ring : Fin 32768) (s : State) :
    Answers (Touch.out ||| Touch.regs ||| Touch.mem ||| Touch.log ||| Touch.logBase ||| Touch.cores
    ||| Touch.bells ||| Touch.node ||| Touch.stackMem ||| Touch.bridgeMem ||| Touch.invPend |||
    Touch.nextId ||| Touch.rings ||| Touch.reports ||| Touch.imsic) s (execCompletionRoom ring s):= by
  unfold execCompletionRoom
  repeat'
    first
      | with_reducible apply Answers.next
      | with_reducible exact Touches.refl _ _
      | decide
      | split
      | with_reducible apply Touches.after (State.flush_touches ..)
      | with_reducible apply Touches.after (State.flushControl_touches ..)

theorem State.pushOp_touches (s : State) (r : Rec) (o : RingOp) :
    Touches (Touch.rings) s (State.pushOp s r o) := by
  unfold State.pushOp
  repeat'
    first
      | with_reducible exact Touches.refl _ _
      | decide
      | (extract_lets +onlyGivenNames nx; subst nx)
      | with_reducible apply Touches.after (State.setRing_touches ..)

theorem State.fetchEntry_touches (s : State) (r : Rec) (idx : Nat) (flaws : Flaws) :
    Touches (Touch.out ||| Touch.regs ||| Touch.wear ||| Touch.log ||| Touch.logBase ||| Touch.cores |||
      Touch.bells ||| Touch.node ||| Touch.stackMem ||| Touch.bridgeMem ||| Touch.retireQ |||
      Touch.mapLag ||| Touch.reports) s (State.fetchEntry s r idx flaws).1 := State.engineRead_touches ..

theorem State.failPending_touches (s : State) (r : Rec) : Touches (Touch.out ||| Touch.regs |||
    Touch.mem ||| Touch.wear ||| Touch.log ||| Touch.logBase ||| Touch.cores ||| Touch.bells |||
    Touch.node ||| Touch.stackMem ||| Touch.bridgeMem ||| Touch.invPend ||| Touch.nextId |||
    Touch.rings ||| Touch.retireQ ||| Touch.mapLag ||| Touch.reports ||| Touch.imsic) s
    (State.failPending s r):= by
  unfold State.failPending
  repeat'
    first
      | with_reducible exact Touches.refl _ _
      | with_reducible assumption
      | decide
      | split
      | (extract_lets +onlyGivenNames nx; with_reducible refine Touches.cut (t := nx) ?_ ?_; subst nx; rotate_left; revert nx; intro _ _; rotate_right)
      | (extract_lets +onlyGivenNames nx; subst nx)
      | with_reducible apply Touches.after (State.setRing_touches ..)
      | with_reducible apply Touches.after (State.flush_touches ..)
      | with_reducible apply Touches.after (State.raise_touches ..)
      | with_reducible refine Touches.foldl ?_ fun _ _ => ?_
      | with_reducible refine Touches.of_fst ‹State.fetchEntry _ _ _ _ = _› (Touches.after (State.fetchEntry_touches ..) ?_ ?_)
      | with_reducible apply Touches.after (State.fetchEntry_touches ..)

theorem State.qpFails_touches (s : State) (qpn : Nat) : Touches (Touch.out ||| Touch.regs |||
    Touch.mem ||| Touch.wear ||| Touch.log ||| Touch.logBase ||| Touch.cores ||| Touch.bells |||
    Touch.node ||| Touch.stackMem ||| Touch.bridgeMem ||| Touch.invPend ||| Touch.nextId |||
    Touch.rings ||| Touch.qpErr ||| Touch.retireQ ||| Touch.mapLag ||| Touch.reports |||
    Touch.imsic) s
    (State.qpFails s qpn):= by
  unfold State.qpFails
  repeat'
    first
      | with_reducible exact Touches.refl _ _
      | with_reducible assumption
      | decide
      | (extract_lets +onlyGivenNames nx; with_reducible refine Touches.cut (t := nx) ?_ ?_; subst nx; rotate_left; revert nx; intro _ _; rotate_right)
      | split
      | with_reducible apply Touches.after (State.raise_touches ..)
      | with_reducible apply Touches.after (State.failPending_touches ..)
      | with_reducible apply Touches.set_qpErr

theorem State.ringReserve_touches (s : State) (n : Nat) :
    Touches (Touch.rings) s (State.ringReserve s n) := by
  unfold State.ringReserve
  repeat'
    first
      | with_reducible exact Touches.refl _ _
      | decide
      | (extract_lets +onlyGivenNames nx; subst nx)
      | split
      | with_reducible apply Touches.after (State.setRing_touches ..)
      | with_reducible refine Touches.foldl ?_ fun _ _ => ?_

theorem execRingSlotReserve_touches (ring : Fin 32768) (s : State) :
    Answers (Touch.rings) s (execRingSlotReserve ring s) := by
  unfold execRingSlotReserve
  repeat'
    first
      | with_reducible apply Answers.next
      | with_reducible exact Touches.refl _ _
      | decide
      | (extract_lets +onlyGivenNames nx; subst nx)
      | split
      | with_reducible apply Touches.after (State.setRing_touches ..)

theorem State.sendForBell_touches (s : State) (n : Nat) (p : Packet) (len : Nat) (why : Purpose) :
    Touches (Touch.out ||| Touch.regs ||| Touch.mem ||| Touch.wear ||| Touch.log ||| Touch.logBase
    ||| Touch.cores ||| Touch.bells ||| Touch.node ||| Touch.tithes ||| Touch.gws ||| Touch.tracePos
    ||| Touch.stackMem ||| Touch.bridgeMem ||| Touch.invPend ||| Touch.nextId ||| Touch.jobs |||
    Touch.xfers ||| Touch.runs ||| Touch.seqs ||| Touch.rings ||| Touch.egress ||| Touch.sas |||
    Touch.led ||| Touch.retireQ ||| Touch.mapLag ||| Touch.reports ||| Touch.heldOut |||
    Touch.hostLines ||| Touch.hostResv) s (State.sendForBell s n p
    len why):= by
  unfold State.sendForBell
  repeat'
    first
      | with_reducible exact Touches.refl _ _
      | decide
      | (extract_lets +onlyGivenNames nx; subst nx)
      | split
      | with_reducible apply Touches.after (State.endTag_touches ..)
      | with_reducible apply Touches.after (State.sendTagged_touches ..)

theorem execRingCopy_touches (ring : Fin 32768) (flaws : Flaws) (s : State) :
    Answers (Touch.out ||| Touch.regs ||| Touch.mem ||| Touch.wear ||| Touch.log ||| Touch.logBase
    ||| Touch.cores ||| Touch.bells ||| Touch.node ||| Touch.tithes ||| Touch.gws ||| Touch.tracePos
    ||| Touch.stackMem ||| Touch.bridgeMem ||| Touch.invPend ||| Touch.nextId ||| Touch.jobs |||
    Touch.xfers ||| Touch.runs ||| Touch.seqs ||| Touch.rings ||| Touch.egress ||| Touch.sas |||
    Touch.led ||| Touch.retireQ ||| Touch.mapLag ||| Touch.reports ||| Touch.heldOut |||
    Touch.hostLines ||| Touch.hostResv) s (execRingCopy ring flaws s):= by
  unfold execRingCopy
  repeat'
    first
      | with_reducible apply Answers.next
      | with_reducible exact Touches.refl _ _
      | decide
      | (extract_lets +onlyGivenNames nx; subst nx)
      | split
      | with_reducible apply Touches.after (State.engineRead_touches ..)
      | with_reducible refine Touches.of_fst ‹State.engineRead _ _ _ _ _ _ = _› (Touches.after (State.engineRead_touches ..) ?_ ?_)
      | with_reducible apply Touches.after (State.beginXfer_touches ..)
      | with_reducible apply Touches.after (State.setRing_touches ..)
      | with_reducible apply Touches.after (State.sendForBell_touches ..)
      | with_reducible refine Touches.foldl ?_ fun _ _ => ?_
      | with_reducible refine Touches.of_fst (by assumption) ?_

theorem execRingReadySignal_touches (ring : Fin 32768) (s : State) :
    Answers (Touch.out ||| Touch.regs ||| Touch.mem ||| Touch.wear ||| Touch.log ||| Touch.logBase
    ||| Touch.cores ||| Touch.bells ||| Touch.node ||| Touch.tithes ||| Touch.gws ||| Touch.tracePos
    ||| Touch.stackMem ||| Touch.bridgeMem ||| Touch.invPend ||| Touch.nextId ||| Touch.jobs |||
    Touch.xfers ||| Touch.runs ||| Touch.seqs ||| Touch.rings ||| Touch.egress ||| Touch.sas |||
    Touch.led ||| Touch.retireQ ||| Touch.mapLag ||| Touch.reports ||| Touch.heldOut |||
    Touch.hostLines ||| Touch.hostResv) s (execRingReadySignal ring
    s):= by
  unfold execRingReadySignal
  repeat'
    first
      | with_reducible apply Answers.next
      | with_reducible exact Touches.refl _ _
      | with_reducible assumption
      | decide
      | (extract_lets +onlyGivenNames nx; with_reducible refine Answers.cut (t := nx) ?_ ?_; subst nx; rotate_left; revert nx; intro _ _; rotate_right)
      | (extract_lets +onlyGivenNames nx; subst nx)
      | split
      | with_reducible apply Touches.after (State.setRing_touches ..)
      | with_reducible apply Touches.after (State.sendForBell_touches ..)

theorem State.ringAbandon_touches (s : State) :
    Touches (Touch.gws ||| Touch.xfers ||| Touch.rings) s (State.ringAbandon s) := by
  unfold State.ringAbandon
  repeat'
    first
      | with_reducible exact Touches.refl _ _
      | with_reducible assumption
      | decide
      | (extract_lets +onlyGivenNames nx; with_reducible refine Touches.cut (t := nx) ?_ ?_; subst nx; rotate_left; revert nx; intro _ _; rotate_right)
      | (extract_lets +onlyGivenNames nx; subst nx)
      | with_reducible apply Touches.after (State.cancelTags_touches ..)
      | dsimp only
      | with_reducible apply Touches.set_xfers
      | with_reducible apply Touches.set_rings

theorem State.stagedEntries_touches (s : State) (r : Rec) (held : Bool) :
    Touches (Touch.out ||| Touch.regs ||| Touch.wear ||| Touch.log ||| Touch.logBase ||| Touch.cores |||
      Touch.bells ||| Touch.node ||| Touch.stackMem ||| Touch.bridgeMem ||| Touch.retireQ |||
      Touch.mapLag ||| Touch.reports) s (State.stagedEntries s r held).1 := by
  unfold State.stagedEntries
  repeat'
    first
      | with_reducible exact Touches.refl _ _
      | with_reducible assumption
      | decide
      | split
      | with_reducible refine Touches.of_fst ‹State.engineRead _ _ _ _ _ _ = _› (Touches.after (State.engineRead_touches ..) ?_ ?_)
      | with_reducible apply Touches.after (State.engineRead_touches ..)
      | dsimp only

theorem State.ringCommit_touches (s : State) (n : Nat) : Touches (Touch.out ||| Touch.regs |||
    Touch.mem ||| Touch.wear ||| Touch.log ||| Touch.logBase ||| Touch.cores ||| Touch.bells |||
    Touch.node ||| Touch.stackMem ||| Touch.bridgeMem ||| Touch.invPend ||| Touch.nextId |||
    Touch.rings ||| Touch.retireQ ||| Touch.mapLag ||| Touch.reports ||| Touch.imsic) s
    (State.ringCommit s n):= by
  unfold State.ringCommit
  repeat'
    first
      | with_reducible exact Touches.refl _ _
      | with_reducible assumption
      | decide
      | (extract_lets +onlyGivenNames nx; with_reducible refine Touches.cut (t := nx) ?_ ?_; subst nx; rotate_left; revert nx; intro _ _; rotate_right)
      | (extract_lets +onlyGivenNames nx; subst nx)
      | split
      | with_reducible apply Touches.after (State.setRing_touches ..)
      | with_reducible apply Touches.after (State.engineWrite_touches ..)
      | with_reducible apply Touches.after (State.publish_touches ..)
      | with_reducible refine Touches.foldl ?_ fun _ _ => ?_
      | with_reducible refine Touches.of_fst ‹State.stagedEntries _ _ _ = _› (Touches.after (State.stagedEntries_touches ..) ?_ ?_)
      | with_reducible apply Touches.after (State.stagedEntries_touches ..)

theorem State.trainPort_touches (s : State) (ok800 : Bool) : Touches (Touch.regs ||| Touch.portNext)
    s (State.trainPort s ok800):= by
  unfold State.trainPort
  repeat'
    first
      | with_reducible exact Touches.refl _ _
      | decide
      | (extract_lets +onlyGivenNames nx; subst nx)
      | split
      | with_reducible apply Touches.after (State.setF_touches ..)
      | dsimp only
      | with_reducible apply Touches.set_portNext

theorem execRetrain_touches (ok800 : Bool) (s : State) :
    Answers (Touch.regs ||| Touch.portNext) s (execRetrain ok800 s) := by
  unfold execRetrain
  repeat'
    first
      | with_reducible apply Answers.next
      | with_reducible exact Touches.refl _ _
      | decide
      | split
      | with_reducible apply Touches.after (State.trainPort_touches ..)

theorem execForce400_touches (on : Bool) (ok800 : Bool) (s : State) :
    Answers (Touch.regs ||| Touch.portNext) s (execForce400 on ok800 s) := by
  unfold execForce400
  repeat'
    first
      | with_reducible apply Answers.next
      | with_reducible exact Touches.refl _ _
      | decide
      | split
      | with_reducible apply Touches.after (State.setF_touches ..)
      | with_reducible apply Touches.after (State.trainPort_touches ..)

theorem State.portTick_touches (s : State) :
    Touches (Touch.regs ||| Touch.portNext) s (State.portTick s) := by
  unfold State.portTick
  repeat'
    first
      | with_reducible exact Touches.refl _ _
      | with_reducible assumption
      | decide
      | split
      | with_reducible apply Touches.after (State.setF_touches ..)
      | dsimp only
      | with_reducible apply Touches.set_portNext

theorem State.dmaLedger_touches (s : State) (ctx : Nat) (who : Nat) (host : Nat) (g : Nat) (n : Nat) (wr : Bool) :
    Touches (Touch.regs ||| Touch.mem ||| Touch.stackMem ||| Touch.bridgeMem ||| Touch.led) s
      (State.dmaLedger s ctx who host g n wr) := by
  unfold State.dmaLedger
  repeat'
    first
      | with_reducible exact Touches.refl _ _
      | with_reducible assumption
      | decide
      | split
      | with_reducible apply Touches.after (State.ledgerTouch_touches ..)

end Sys2Proof.Machine
end

