-- ==== Sys2Proof/Laws/PlanCheck.lean ====
section
/-!
SUPPORT. What the operations of Machine/PlanCheck.lean may touch.
-/

namespace Sys2Proof.Machine

theorem State.underPlan_touches (s : State) (rs : List Rec) :
    Touches (Touch.regs ||| Touch.cfg ||| Touch.hostTake) s (State.underPlan s rs) := by
  unfold State.underPlan
  repeat'
    first
      | with_reducible exact Touches.refl _ _
      | decide
      | with_reducible apply Touches.after (State.setF_touches ..)
      | with_reducible refine Touches.foldl ?_ fun _ _ => ?_
      | (extract_lets +onlyGivenNames x; clear_value x; revert x; intro _)
      | with_reducible apply Touches.set_cfg_hostTake

end Sys2Proof.Machine
end

