-- ==== Sys2Proof/Laws/Clocks.lean ====
section
/-!
SUPPORT. What the operations of Machine/Clocks.lean may touch.
-/

namespace Sys2Proof.Machine

theorem State.setRegion_touches (s : State) (r : Nat) (x : RegionSt) :
    Touches (Touch.regions) s (State.setRegion s r x) := by
  unfold State.setRegion
  repeat'
    first
      | with_reducible exact Touches.refl _ _
      | decide
      | with_reducible apply Touches.set_regions

theorem State.showRegion_touches (s : State) (r : Nat) :
    Touches (Touch.regs) s (State.showRegion s r) := by
  unfold State.showRegion
  repeat'
    first
      | with_reducible exact Touches.refl _ _
      | decide
      | (extract_lets +onlyGivenNames nx; subst nx)
      | split
      | with_reducible apply Touches.after (State.setF_touches ..)

theorem State.showXing_touches (s : State) (key : Nat) (x : XingSt) :
    Touches (Touch.regs) s (State.showXing s key x) := by
  unfold State.showXing
  repeat'
    first
      | with_reducible exact Touches.refl _ _
      | with_reducible assumption
      | decide
      | (extract_lets +onlyGivenNames nx; with_reducible refine Touches.cut (t := nx) ?_ ?_; subst nx; rotate_left; revert nx; intro _ _; rotate_right)
      | (extract_lets +onlyGivenNames nx; subst nx)
      | with_reducible apply Touches.after (State.setF_touches ..)

theorem State.runAt_touches (s : State) (r : Nat) (freq : Nat) (ns : Nat) :
    Touches (Touch.regs ||| Touch.regions) s (State.runAt s r freq ns) := by
  unfold State.runAt
  repeat'
    first
      | with_reducible exact Touches.refl _ _
      | with_reducible assumption
      | decide
      | split
      | with_reducible refine Touches.foldl ?_ fun _ _ => ?_
      | (extract_lets +onlyGivenNames nx; with_reducible refine Touches.cut (t := nx) ?_ ?_; subst nx; rotate_left; revert nx; intro _ _; rotate_right)
      | (extract_lets +onlyGivenNames nx; subst nx)
      | with_reducible apply Touches.after (State.setRegion_touches ..)
      | with_reducible apply Touches.after (State.setF_touches ..)
      | with_reducible apply Touches.after (State.showXing_touches ..)

theorem State.runDemand_touches (s : State) (r : Nat) (ns : Nat) :
    Touches (Touch.regs ||| Touch.regions) s (State.runDemand s r ns) := by
  unfold State.runDemand
  repeat'
    first
      | with_reducible exact Touches.refl _ _
      | with_reducible assumption
      | decide
      | (extract_lets +onlyGivenNames nx; with_reducible refine Touches.cut (t := nx) ?_ ?_; subst nx; rotate_left; revert nx; intro _ _; rotate_right)
      | (extract_lets +onlyGivenNames nx; subst nx)
      | split
      | with_reducible apply Touches.after (State.runAt_touches ..)
      | with_reducible apply Touches.after (State.showRegion_touches ..)
      | with_reducible apply Touches.after (State.setF_touches ..)

theorem State.stopRegion_touches (s : State) (r : Nat) :
    Touches (Touch.regs ||| Touch.regions) s (State.stopRegion s r) := by
  unfold State.stopRegion
  repeat'
    first
      | with_reducible exact Touches.refl _ _
      | with_reducible assumption
      | decide
      | (extract_lets +onlyGivenNames nx; with_reducible refine Touches.cut (t := nx) ?_ ?_; subst nx; rotate_left; revert nx; intro _ _; rotate_right)
      | (extract_lets +onlyGivenNames nx; subst nx)
      | split
      | with_reducible apply Touches.after (State.runAt_touches ..)
      | with_reducible apply Touches.after (State.showRegion_touches ..)
      | with_reducible apply Touches.after (State.setRegion_touches ..)

theorem State.startRegion_touches (s : State) (r : Nat) :
    Touches (Touch.regs ||| Touch.regions) s (State.startRegion s r) := by
  unfold State.startRegion
  repeat'
    first
      | with_reducible exact Touches.refl _ _
      | with_reducible assumption
      | decide
      | (extract_lets +onlyGivenNames nx; with_reducible refine Touches.cut (t := nx) ?_ ?_; subst nx; rotate_left; revert nx; intro _ _; rotate_right)
      | (extract_lets +onlyGivenNames nx; subst nx)
      | with_reducible apply Touches.after (State.setRegion_touches ..)
      | with_reducible apply Touches.after (State.runDemand_touches ..)

theorem State.setRail_touches (s : State) (r : Nat) :
    Touches (Touch.vcmp) s (State.setRail s r) := by
  unfold State.setRail
  repeat'
    first
      | with_reducible exact Touches.refl _ _
      | decide
      | split
      | with_reducible apply Touches.set_vcmp

theorem State.clockPlanUp_touches (s : State) (old : List Rec) :
    Touches (Touch.regs ||| Touch.regions ||| Touch.vcmp) s (State.clockPlanUp s old) := by
  unfold State.clockPlanUp
  repeat'
    first
      | with_reducible exact Touches.refl _ _
      | with_reducible assumption
      | decide
      | (extract_lets +onlyGivenNames nx; with_reducible refine Touches.cut (t := nx) ?_ ?_; subst nx; rotate_left; revert nx; intro _ _; rotate_right)
      | (extract_lets +onlyGivenNames nx; subst nx)
      | split
      | with_reducible apply Touches.after (State.setF_touches ..)
      | with_reducible apply Touches.after (State.setRegion_touches ..)
      | with_reducible apply Touches.after (State.setRail_touches ..)
      | with_reducible apply Touches.after (State.runDemand_touches ..)
      | with_reducible refine Touches.foldl ?_ fun _ _ => ?_

theorem State.regionsBegin_touches (s : State) (i : Nat) :
    Touches (Touch.regions) s (State.regionsBegin s i) := by
  unfold State.regionsBegin
  repeat'
    first
      | with_reducible exact Touches.refl _ _
      | decide
      | split
      | (extract_lets +onlyGivenNames nx; subst nx)
      | with_reducible apply Touches.after (State.setRegion_touches ..)
      | with_reducible refine Touches.foldl ?_ fun _ _ => ?_

theorem State.beginChange_touches (s : State) (r : Nat) (e : Nat) :
    Touches (Touch.regions ||| Touch.vcmp) s (State.beginChange s r e) := by
  unfold State.beginChange
  repeat'
    first
      | with_reducible exact Touches.refl _ _
      | decide
      | (extract_lets +onlyGivenNames nx; subst nx)
      | split
      | with_reducible apply Touches.after (State.setRail_touches ..)
      | with_reducible apply Touches.after (State.setRegion_touches ..)

theorem State.writeTarget_touches (s : State) (req : Requester) (r : Nat) (e : Nat) :
    Touches (Touch.regs ||| Touch.regions ||| Touch.vcmp) s (State.writeTarget s req r e) := by
  unfold State.writeTarget
  repeat'
    first
      | with_reducible exact Touches.refl _ _
      | with_reducible assumption
      | decide
      | (extract_lets +onlyGivenNames nx; with_reducible refine Touches.cut (t := nx) ?_ ?_; subst nx; rotate_left; revert nx; intro _ _; rotate_right)
      | (extract_lets +onlyGivenNames nx; subst nx)
      | split
      | with_reducible apply Touches.after (State.setF_touches ..)
      | with_reducible apply Touches.after (State.beginChange_touches ..)

theorem execRegionTarget_touches (r : Requester) (region : Fin 368) (target : Fin 16) (s : State) :
    Answers (Touch.regs ||| Touch.regions ||| Touch.vcmp) s (execRegionTarget r region target s) := by
  unfold execRegionTarget
  repeat'
    first
      | with_reducible apply Answers.next
      | with_reducible exact Touches.refl _ _
      | decide
      | with_reducible apply Touches.after (State.writeTarget_touches ..)

theorem State.putXing_touches (s : State) (key : Nat) (x : XingSt) :
    Touches (Touch.regs ||| Touch.xings) s (State.putXing s key x) := by
  unfold State.putXing
  repeat'
    first
      | with_reducible exact Touches.refl _ _
      | decide
      | with_reducible apply Touches.after (State.showXing_touches ..)
      | with_reducible apply Touches.set_xings

theorem State.stopCentres_touches (s : State) (r : Nat) :
    Touches (Touch.regs ||| Touch.xings) s (State.stopCentres s r) := by
  unfold State.stopCentres
  repeat'
    first
      | with_reducible exact Touches.refl _ _
      | with_reducible assumption
      | decide
      | split
      | with_reducible apply Touches.after (State.putXing_touches ..)
      | with_reducible refine Touches.foldl ?_ fun _ _ => ?_

theorem State.stopFor_touches (s : State) (r : Nat) (ns : Nat) :
    Touches (Touch.regs ||| Touch.regions ||| Touch.xings) s (State.stopFor s r ns) := by
  unfold State.stopFor
  repeat'
    first
      | with_reducible exact Touches.refl _ _
      | with_reducible assumption
      | decide
      | split
      | with_reducible apply Touches.after (State.runDemand_touches ..)
      | with_reducible apply Touches.after (State.setRegion_touches ..)
      | with_reducible apply Touches.after (State.stopCentres_touches ..)

theorem execRegionStop_touches (region : Fin 368) (ns : Fin 201) (s : State) :
    Answers (Touch.regs ||| Touch.regions ||| Touch.xings ||| Touch.vcmp) s (execRegionStop region ns s) := by
  unfold execRegionStop
  repeat'
    first
      | with_reducible apply Answers.next
      | with_reducible exact Touches.refl _ _
      | with_reducible assumption
      | decide
      | (extract_lets +onlyGivenNames nx; with_reducible refine Answers.cut (t := nx) ?_ ?_; subst nx; rotate_left; revert nx; intro _ _; rotate_right)
      | (extract_lets +onlyGivenNames nx; subst nx)
      | split
      | with_reducible apply Touches.after (State.setRegion_touches ..)
      | with_reducible apply Touches.after (State.setRail_touches ..)
      | with_reducible apply Touches.after (State.runDemand_touches ..)
      | with_reducible apply Touches.after (State.beginChange_touches ..)
      | with_reducible apply Touches.after (State.stopFor_touches ..)

theorem State.throttle_touches (s : State) (r : Nat) (ns : Nat) : Touches (Touch.regs |||
    Touch.regions ||| Touch.xings) s (State.throttle s r ns):= by
  unfold State.throttle
  repeat'
    first
      | with_reducible exact Touches.refl _ _
      | decide
      | (extract_lets +onlyGivenNames nx; subst nx)
      | split
      | with_reducible apply Touches.after (State.showRegion_touches ..)
      | with_reducible apply Touches.after (State.runDemand_touches ..)
      | with_reducible apply Touches.after (State.setRegion_touches ..)
      | with_reducible apply Touches.after (State.stopFor_touches ..)

theorem State.slip_touches (s : State) (key : Nat) (x : XingSt) : Touches (Touch.out ||| Touch.regs
    ||| Touch.mem ||| Touch.grn ||| Touch.wear ||| Touch.log ||| Touch.logBase ||| Touch.cores |||
    Touch.bells ||| Touch.node ||| Touch.tithes ||| Touch.gws ||| Touch.cfg ||| Touch.tracePos |||
    Touch.stackMem ||| Touch.bridgeMem ||| Touch.invPend ||| Touch.nextId ||| Touch.jobs |||
    Touch.xfers ||| Touch.runs ||| Touch.seqs ||| Touch.rings ||| Touch.egress ||| Touch.sas |||
    Touch.led ||| Touch.xings ||| Touch.retireQ ||| Touch.mapLag ||| Touch.reports ||| Touch.heldOut
    ||| Touch.hostLines ||| Touch.hostResv) s (State.slip s key x):= by
  unfold State.slip
  repeat'
    first
      | with_reducible exact Touches.refl _ _
      | with_reducible assumption
      | decide
      | (extract_lets +onlyGivenNames nx; with_reducible refine Touches.cut (t := nx) ?_ ?_; subst nx; rotate_left; revert nx; intro _ _; rotate_right)
      | (extract_lets +onlyGivenNames nx; subst nx)
      | split
      | with_reducible apply Touches.after (State.bump_touches ..)
      | with_reducible apply Touches.after (State.wearUp_touches ..)
      | with_reducible apply Touches.after (State.raise_touches ..)
      | with_reducible apply Touches.after (State.putXing_touches ..)
      | with_reducible apply Touches.after (State.retireSite_touches ..)
      | with_reducible apply Touches.set_retireQ

theorem State.addDebt_touches (s : State) (key : Nat) (d : Int) : Touches (Touch.out ||| Touch.regs
    ||| Touch.mem ||| Touch.grn ||| Touch.wear ||| Touch.log ||| Touch.logBase ||| Touch.cores |||
    Touch.bells ||| Touch.node ||| Touch.tithes ||| Touch.gws ||| Touch.cfg ||| Touch.tracePos |||
    Touch.stackMem ||| Touch.bridgeMem ||| Touch.invPend ||| Touch.nextId ||| Touch.jobs |||
    Touch.xfers ||| Touch.runs ||| Touch.seqs ||| Touch.rings ||| Touch.egress ||| Touch.sas |||
    Touch.led ||| Touch.xings ||| Touch.retireQ ||| Touch.mapLag ||| Touch.reports ||| Touch.heldOut
    ||| Touch.hostLines ||| Touch.hostResv) s (State.addDebt s key d):= by
  unfold State.addDebt
  repeat'
    first
      | with_reducible exact Touches.refl _ _
      | decide
      | (extract_lets +onlyGivenNames nx; subst nx)
      | split
      | with_reducible apply Touches.after (State.slip_touches ..)
      | with_reducible apply Touches.after (State.putXing_touches ..)

theorem State.stretch_touches (s : State) (r : Nat) (k : Nat) (ad : Bool) (sy : Bool) : Touches
    (Touch.out ||| Touch.regs ||| Touch.mem ||| Touch.grn ||| Touch.wear ||| Touch.log |||
    Touch.logBase ||| Touch.cores ||| Touch.bells ||| Touch.node ||| Touch.tithes ||| Touch.gws |||
    Touch.cfg ||| Touch.regions ||| Touch.tracePos ||| Touch.stackMem ||| Touch.bridgeMem |||
    Touch.invPend ||| Touch.nextId ||| Touch.jobs ||| Touch.xfers ||| Touch.runs ||| Touch.seqs |||
    Touch.rings ||| Touch.egress ||| Touch.sas ||| Touch.led ||| Touch.xings ||| Touch.retireQ |||
    Touch.mapLag ||| Touch.reports ||| Touch.heldOut ||| Touch.hostLines ||| Touch.hostResv) s
    (State.stretch s r k ad sy):= by
  unfold State.stretch
  repeat'
    first
      | with_reducible exact Touches.refl _ _
      | with_reducible assumption
      | decide
      | (extract_lets +onlyGivenNames nx; with_reducible refine Touches.cut (t := nx) ?_ ?_; subst nx; rotate_left; revert nx; intro _ _; rotate_right)
      | (extract_lets +onlyGivenNames nx; subst nx)
      | split
      | with_reducible apply Touches.after (State.setRegion_touches ..)
      | with_reducible apply Touches.after (State.bump_touches ..)
      | with_reducible apply Touches.after (State.addDebt_touches ..)
      | with_reducible refine Touches.foldl ?_ fun _ _ => ?_

theorem execAdaptiveStretch_touches (region : Fin 368) (eighths : Fin 4) (s : State) :
    Answers (Touch.out ||| Touch.regs ||| Touch.mem ||| Touch.grn ||| Touch.wear ||| Touch.log |||
    Touch.logBase ||| Touch.cores ||| Touch.bells ||| Touch.node ||| Touch.tithes ||| Touch.gws |||
    Touch.cfg ||| Touch.regions ||| Touch.tracePos ||| Touch.stackMem ||| Touch.bridgeMem |||
    Touch.invPend ||| Touch.nextId ||| Touch.jobs ||| Touch.xfers ||| Touch.runs ||| Touch.seqs |||
    Touch.rings ||| Touch.egress ||| Touch.sas ||| Touch.led ||| Touch.xings ||| Touch.retireQ |||
    Touch.mapLag ||| Touch.reports ||| Touch.heldOut ||| Touch.hostLines ||| Touch.hostResv) s
    (execAdaptiveStretch region
    eighths s):= by
  unfold execAdaptiveStretch
  repeat'
    first
      | with_reducible apply Answers.next
      | with_reducible exact Touches.refl _ _
      | decide
      | (extract_lets +onlyGivenNames nx; subst nx)
      | split
      | with_reducible apply Touches.after (State.stretch_touches ..)
      | with_reducible apply Touches.after (State.setRegion_touches ..)

theorem State.periodsPass_touches (s : State) (r : Nat) (x2 : Nat) : Touches (Touch.out |||
    Touch.regs ||| Touch.mem ||| Touch.grn ||| Touch.wear ||| Touch.log ||| Touch.logBase |||
    Touch.cores ||| Touch.bells ||| Touch.node ||| Touch.tithes ||| Touch.gws ||| Touch.cfg |||
    Touch.regions ||| Touch.tracePos ||| Touch.stackMem ||| Touch.bridgeMem ||| Touch.invPend |||
    Touch.nextId ||| Touch.jobs ||| Touch.xfers ||| Touch.runs ||| Touch.seqs ||| Touch.rings |||
    Touch.egress ||| Touch.sas ||| Touch.led ||| Touch.xings ||| Touch.retireQ ||| Touch.mapLag |||
    Touch.reports ||| Touch.heldOut ||| Touch.hostLines ||| Touch.hostResv) s
    (State.periodsPass s r x2):= by
  induction x2 generalizing s with
  | zero => exact Touches.refl _ _
  | succ n ih =>
    unfold State.periodsPass
    repeat'
      first
        | with_reducible exact Touches.refl _ _
        | with_reducible assumption
        | decide
        | with_reducible refine Touches.trans ?_ (ih ..)
        | (extract_lets +onlyGivenNames nx; with_reducible refine Touches.cut (t := nx) ?_ ?_; subst nx; rotate_left; revert nx; intro _ _; rotate_right)
        | (extract_lets +onlyGivenNames nx; subst nx)
        | split
        | with_reducible apply Touches.after (State.stretch_touches ..)
        | with_reducible apply Touches.after (State.setRegion_touches ..)

theorem State.stretchTick_touches (s : State) : Touches (Touch.out ||| Touch.regs ||| Touch.mem |||
    Touch.grn ||| Touch.wear ||| Touch.log ||| Touch.logBase ||| Touch.cores ||| Touch.bells |||
    Touch.node ||| Touch.tithes ||| Touch.gws ||| Touch.cfg ||| Touch.regions ||| Touch.tracePos |||
    Touch.stackMem ||| Touch.bridgeMem ||| Touch.invPend ||| Touch.nextId ||| Touch.jobs |||
    Touch.xfers ||| Touch.runs ||| Touch.seqs ||| Touch.rings ||| Touch.egress ||| Touch.sas |||
    Touch.led ||| Touch.xings ||| Touch.retireQ ||| Touch.mapLag ||| Touch.reports ||| Touch.heldOut
    ||| Touch.hostLines ||| Touch.hostResv) s (State.stretchTick s):= by
  unfold State.stretchTick
  repeat'
    first
      | with_reducible exact Touches.refl _ _
      | with_reducible assumption
      | decide
      | (extract_lets +onlyGivenNames nx; with_reducible refine Touches.cut (t := nx) ?_ ?_; subst nx; rotate_left; revert nx; intro _ _; rotate_right)
      | (extract_lets +onlyGivenNames nx; subst nx)
      | split
      | with_reducible apply Touches.after (State.setRegion_touches ..)
      | with_reducible apply Touches.after (State.periodsPass_touches ..)
      | with_reducible refine Touches.foldl ?_ fun _ _ => ?_

theorem State.recentre_touches (s : State) (i : Nat) :
    Touches (Touch.regs ||| Touch.xings) s (State.recentre s i) := by
  unfold State.recentre
  repeat'
    first
      | with_reducible exact Touches.refl _ _
      | decide
      | (extract_lets +onlyGivenNames nx; subst nx)
      | split
      | with_reducible apply Touches.after (State.putXing_touches ..)
      | with_reducible refine Touches.foldl ?_ fun _ _ => ?_

theorem State.calibrateXings_touches (s : State) (p : Nat → Bool) :
    Touches (Touch.free ||| Touch.regs ||| Touch.xings) s (State.calibrateXings s p) := by
  unfold State.calibrateXings
  repeat'
    first
      | with_reducible exact Touches.refl _ _
      | decide
      | (extract_lets +onlyGivenNames nx; subst nx)
      | split
      | with_reducible refine Touches.of_snd ‹State.takeFree _ = _› (Touches.after (State.takeFree_touches ..) ?_ ?_)
      | with_reducible apply Touches.after (State.putXing_touches ..)
      | with_reducible refine Touches.foldl ?_ fun _ _ => ?_

theorem State.repairXings_touches (s : State) :
    Touches (Touch.free ||| Touch.regs ||| Touch.xings) s (State.repairXings s) := by
  unfold State.repairXings
  repeat'
    first
      | with_reducible exact Touches.refl _ _
      | decide
      | (extract_lets +onlyGivenNames nx; subst nx)
      | split
      | with_reducible apply Touches.after (State.calibrateXings_touches ..)

theorem execRefclkLoss_touches (s : State) :
    Answers (Touch.out ||| Touch.regs ||| Touch.log ||| Touch.logBase ||| Touch.bells ||| Touch.node ||| Touch.vc
    ||| Touch.reports) s (execRefclkLoss s) := by
  unfold execRefclkLoss
  repeat'
    first
      | with_reducible apply Answers.next
      | with_reducible exact Touches.refl _ _
      | decide
      | (extract_lets +onlyGivenNames nx; subst nx)
      | split
      | with_reducible apply Touches.after (State.raise_touches ..)
      | with_reducible apply Touches.set_vc

theorem execRefclkTimeout_touches (s : State) :
    Answers (Touch.regs ||| Touch.gws ||| Touch.regions) s (execRefclkTimeout s) := by
  unfold execRefclkTimeout
  repeat'
    first
      | with_reducible apply Answers.next
      | with_reducible exact Touches.refl _ _
      | with_reducible assumption
      | decide
      | (extract_lets +onlyGivenNames nx; with_reducible refine Answers.cut (t := nx) ?_ ?_; subst nx; rotate_left; revert nx; intro _ _; rotate_right)
      | split
      | with_reducible apply Touches.after (State.stopRegion_touches ..)
      | with_reducible apply Touches.after (State.silence_touches ..)
      | with_reducible refine Touches.foldl ?_ fun _ _ => ?_

theorem execRefclkReturn_touches (s : State) :
    Answers (Touch.vc) s (execRefclkReturn s) := by
  unfold execRefclkReturn
  repeat'
    first
      | with_reducible apply Answers.next
      | with_reducible exact Touches.refl _ _
      | decide
      | (extract_lets +onlyGivenNames nx; subst nx)
      | with_reducible apply Touches.set_vc

theorem State.showRate_touches (s : State) :
    Touches (Touch.regs) s (State.showRate s) := by
  unfold State.showRate
  repeat'
    first
      | with_reducible exact Touches.refl _ _
      | decide
      | with_reducible apply Touches.after (State.setF_touches ..)

theorem execTemperatureCorrection_touches (s : State) :
    Answers (Touch.rateTemp ||| Touch.regs ||| Touch.vc) s (execTemperatureCorrection s) := by
  unfold execTemperatureCorrection
  repeat'
    first
      | with_reducible apply Answers.next
      | with_reducible exact Touches.refl _ _
      | with_reducible assumption
      | decide
      | (extract_lets +onlyGivenNames nx; with_reducible refine Answers.cut (t := nx) ?_ ?_; subst nx; rotate_left; revert nx; intro _ _; rotate_right)
      | (extract_lets +onlyGivenNames nx; subst nx)
      | split
      | with_reducible apply Touches.after (State.showRate_touches ..)
      | dsimp only
      | with_reducible apply Touches.set_rateTemp_vc

theorem State.judgeLink_touches (s : State) (x : Nat) :
    Touches (Touch.out ||| Touch.regs ||| Touch.log ||| Touch.logBase ||| Touch.bells ||| Touch.node |||
    Touch.links ||| Touch.reports) s (State.judgeLink s x).1 := by
  unfold State.judgeLink
  repeat'
    first
      | with_reducible exact Touches.refl _ _
      | with_reducible assumption
      | decide
      | (extract_lets +onlyGivenNames nx; with_reducible refine Touches.cut (t := nx) ?_ ?_; subst nx; rotate_left; revert nx; intro _ _; rotate_right)
      | (extract_lets +onlyGivenNames nx; subst nx)
      | split
      | with_reducible apply Touches.after (State.setLink_touches ..)
      | with_reducible apply Touches.after (State.setF_touches ..)
      | with_reducible apply Touches.after (State.raise_touches ..)

theorem State.servoStep_touches (s : State) (e : Int) :
    Touches (Touch.rateServo ||| Touch.vc) s (State.servoStep s e) := by
  unfold State.servoStep
  repeat'
    first
      | with_reducible exact Touches.refl _ _
      | with_reducible assumption
      | decide
      | (extract_lets +onlyGivenNames x; with_reducible refine Touches.cut (t := x) ?_ ?_; subst x; rotate_left; clear_value x; revert x; intro _ _; rotate_right)
      | (extract_lets +onlyGivenNames x; clear_value x; revert x; intro _)
      | split
      | dsimp only
      | with_reducible apply Touches.set_rateServo_vc

theorem State.servoHolds_touches (s : State) (e : Int) :
    Touches (Touch.vc) s (State.servoHolds s e) := by
  unfold State.servoHolds
  repeat'
    first
      | with_reducible exact Touches.refl _ _
      | with_reducible assumption
      | decide
      | (extract_lets +onlyGivenNames x; with_reducible refine Touches.cut (t := x) ?_ ?_; subst x; rotate_left; clear_value x; revert x; intro _ _; rotate_right)
      | (extract_lets +onlyGivenNames x; clear_value x; revert x; intro _)
      | split
      | dsimp only
      | with_reducible apply Touches.set_vc

theorem State.judgeLinks_touches (s : State) :
    Touches (Touch.out ||| Touch.regs ||| Touch.log ||| Touch.logBase ||| Touch.bells ||| Touch.node |||
    Touch.links ||| Touch.reports) s (State.judgeLinks s).1 := by
  unfold State.judgeLinks
  repeat'
    first
      | with_reducible exact Touches.refl _ _
      | with_reducible assumption
      | decide
      | split
      | with_reducible refine Touches.of_fst ‹State.judgeLink _ _ = _› (Touches.after (State.judgeLink_touches ..) ?_ ?_)
      | with_reducible refine Touches.foldl_fst ?_ fun _ _ => ?_

theorem execClockHoldover_touches (s : State) :
    Answers (Touch.rateServo ||| Touch.out ||| Touch.regs ||| Touch.log ||| Touch.logBase ||| Touch.bells |||
    Touch.node ||| Touch.vc ||| Touch.reports) s (execClockHoldover s) := by
  unfold execClockHoldover
  repeat'
    first
      | with_reducible apply Answers.next
      | with_reducible exact Touches.refl _ _
      | with_reducible assumption
      | decide
      | (extract_lets +onlyGivenNames nx; with_reducible refine Answers.cut (t := nx) ?_ ?_; subst nx; rotate_left; revert nx; intro _ _; rotate_right)
      | (extract_lets +onlyGivenNames nx; subst nx)
      | split
      | with_reducible apply Touches.after (State.setF_touches ..)
      | with_reducible apply Touches.after (State.raise_touches ..)
      | with_reducible apply Touches.after (State.showRate_touches ..)
      | with_reducible apply Touches.set_rateServo_vc

theorem State.servoLocks_touches (s : State) :
    Touches (Touch.regs) s (State.servoLocks s) := by
  unfold State.servoLocks
  extract_lets held
  exact Touches.ite (State.setF_touches ..) (Touches.refl _ _)

theorem State.servoRuns_touches (s : State) (es : List Int) :
    Touches (Touch.rateServo ||| Touch.regs ||| Touch.vc) s (State.servoRuns s es) := by
  unfold State.servoRuns
  repeat'
    first
      | with_reducible exact Touches.refl _ _
      | with_reducible assumption
      | decide
      | (extract_lets +onlyGivenNames x; with_reducible refine Touches.cut (t := x) ?_ ?_; subst x; rotate_left; clear_value x; revert x; intro _ _; rotate_right)
      | (extract_lets +onlyGivenNames x; clear_value x; revert x; intro _)
      | split
      | with_reducible apply Touches.after (State.servoHolds_touches ..)
      | with_reducible apply Touches.after (State.servoLocks_touches ..)
      | with_reducible apply Touches.after (State.servoStep_touches ..)
      | with_reducible apply Touches.after (State.setF_touches ..)
      | with_reducible apply Touches.after (State.showRate_touches ..)

theorem execServoUpdate_touches (s : State) :
    Answers (Touch.rateServo ||| Touch.out ||| Touch.regs ||| Touch.log ||| Touch.logBase |||
      Touch.bells ||| Touch.node ||| Touch.links ||| Touch.vc ||| Touch.reports) s (execServoUpdate s)
      := by
  unfold execServoUpdate
  repeat'
    first
      | with_reducible apply Answers.next
      | with_reducible exact Touches.refl _ _
      | with_reducible assumption
      | decide
      | (extract_lets +onlyGivenNames x; with_reducible refine Answers.cut (t := x) ?_ ?_; subst x; rotate_left; clear_value x; revert x; intro _ _; rotate_right)
      | (extract_lets +onlyGivenNames x; clear_value x; revert x; intro _)
      | split
      | with_reducible refine Touches.of_fst ‹State.judgeLinks _ = _› (Touches.after (State.judgeLinks_touches ..) ?_ ?_)
      | with_reducible apply Touches.after (State.judgeLinks_touches ..)
      | with_reducible apply Touches.after (State.servoRuns_touches ..)
      | with_reducible apply Touches.after (State.setF_touches ..)
      | dsimp only
      | with_reducible apply Touches.set_vc

end Sys2Proof.Machine
end

