-- ==== Sys2Proof/Laws/Activate.lean ====
section
/-!
SUPPORT. What the operations of Machine/Activate.lean may touch.
-/

namespace Sys2Proof.Machine

theorem State.sendFrameTo_touches (s : State) (site : Nat) (dir : FrameDir) (t : FrameType) (bell : Nat) (arg : Nat) :
    Touches (Touch.out ||| Touch.seqs) s (State.sendFrameTo s site dir t bell arg) := by
  unfold State.sendFrameTo
  repeat'
    first
      | with_reducible exact Touches.refl _ _
      | decide
      | (extract_lets +onlyGivenNames nx; subst nx)
      | with_reducible apply Touches.after (State.emit_touches ..)
      | with_reducible apply Touches.set_seqs

theorem State.cry_touches (s : State) (t : FrameType) (bell : Nat) (arg : Nat) :
    Touches (Touch.out ||| Touch.seqs) s (State.cry s t bell arg) := by
  unfold State.cry
  repeat'
    first
      | with_reducible exact Touches.refl _ _
      | decide
      | with_reducible apply Touches.after (State.sendFrameTo_touches ..)

theorem State.trySettle_touches (s : State) :
    Touches (Touch.out ||| Touch.node ||| Touch.seqs) s (State.trySettle s) := by
  unfold State.trySettle
  repeat'
    first
      | with_reducible exact Touches.refl _ _
      | decide
      | (extract_lets +onlyGivenNames nx; subst nx)
      | split
      | with_reducible apply Touches.after (State.cry_touches ..)
      | with_reducible apply Touches.set_node

theorem State.bellPlanUp_touches (s : State) :
    Touches (Touch.regs) s (State.bellPlanUp s) := by
  unfold State.bellPlanUp
  repeat'
    first
      | with_reducible exact Touches.refl _ _
      | with_reducible assumption
      | decide
      | (extract_lets +onlyGivenNames nx; with_reducible refine Touches.cut (t := nx) ?_ ?_; subst nx; rotate_left; revert nx; intro _ _; rotate_right)
      | (extract_lets +onlyGivenNames nx; subst nx)
      | with_reducible apply Touches.after (State.setF_touches ..)

theorem State.cacheInv_touches (s : State) (k : Nat) (p : CacheLine → Bool) :
    Touches (Touch.regs ||| Touch.stackMem) s (State.cacheInv s k p) := by
  unfold State.cacheInv
  repeat'
    first
      | with_reducible exact Touches.refl _ _
      | with_reducible assumption
      | decide
      | (extract_lets +onlyGivenNames x; with_reducible refine Touches.cut (t := x) ?_ ?_; subst x; rotate_left; clear_value x; revert x; intro _ _; rotate_right)
      | (extract_lets +onlyGivenNames x; clear_value x; revert x; intro _)
      | split
      | with_reducible apply Touches.after (State.bump_touches ..)
      | with_reducible apply Touches.after (State.cacheDrop_touches ..)

theorem State.scratchUp_touches (s : State) (was : List Rec) (k : Nat) :
    Touches (Touch.regs ||| Touch.mem ||| Touch.stackMem) s (State.scratchUp s was k) := by
  unfold State.scratchUp
  repeat'
    first
      | with_reducible exact Touches.refl _ _
      | with_reducible assumption
      | decide
      | (extract_lets +onlyGivenNames x; with_reducible refine Touches.cut (t := x) ?_ ?_; subst x; rotate_left; clear_value x; revert x; intro _ _; rotate_right)
      | (extract_lets +onlyGivenNames x; clear_value x; revert x; intro _)
      | split
      | with_reducible apply Touches.after (State.cacheInv_touches ..)
      | with_reducible apply Touches.after (State.setF_touches ..)
      | with_reducible apply Touches.after (State.zeroMem_touches ..)

theorem State.fixUp_touches (s : State) (b : Nat) :
    Touches (Touch.regs) s (State.fixUp s b) := by
  unfold State.fixUp
  repeat'
    first
      | with_reducible exact Touches.refl _ _
      | with_reducible assumption
      | decide
      | (extract_lets +onlyGivenNames nx; with_reducible refine Touches.cut (t := nx) ?_ ?_; subst nx; rotate_left; revert nx; intro _ _; rotate_right)
      | (extract_lets +onlyGivenNames nx; subst nx)
      | split
      | with_reducible apply Touches.after (State.setF_touches ..)

theorem State.planUp_touches (s : State) (old : List Rec) : Touches (Touch.out ||| Touch.regs |||
    Touch.mem ||| Touch.wear ||| Touch.log ||| Touch.logBase ||| Touch.bells ||| Touch.node |||
    Touch.gws ||| Touch.regions ||| Touch.stackMem ||| Touch.links ||| Touch.vcmp ||| Touch.mapLag
    ||| Touch.reports) s (State.planUp s old):= by
  unfold State.planUp
  repeat'
    first
      | with_reducible exact Touches.refl _ _
      | with_reducible assumption
      | decide
      | split
      | (extract_lets +onlyGivenNames nx; with_reducible refine Touches.cut (t := nx) ?_ ?_; subst nx; rotate_left; revert nx; intro _ _; rotate_right)
      | with_reducible apply Touches.after (State.bellPlanUp_touches ..)
      | with_reducible apply Touches.after (State.setF_touches ..)
      | with_reducible apply Touches.after (State.scratchUp_touches ..)
      | with_reducible apply Touches.after (State.fixUp_touches ..)
      | with_reducible apply Touches.after (State.clockPlanUp_touches ..)
      | with_reducible apply Touches.after (State.linksUp_touches ..)
      | with_reducible refine Touches.foldl ?_ fun _ _ => ?_

theorem State.clearStores_touches (s : State) (k : Nat) :
    Touches (Touch.mem) s (State.clearStores s k) := by
  unfold State.clearStores
  repeat'
    first
      | with_reducible exact Touches.refl _ _
      | decide
      | with_reducible apply Touches.after (State.zeroMem_touches ..)

theorem State.contextUp_touches (s : State) (ctx : Nat) (digest : List Byte) : Touches (Touch.regs
    ||| Touch.mem ||| Touch.bells ||| Touch.stackMem ||| Touch.bridgeMem ||| Touch.rings |||
    Touch.led) s (State.contextUp s ctx digest):= by
  unfold State.contextUp
  repeat'
    first
      | with_reducible exact Touches.refl _ _
      | with_reducible assumption
      | decide
      | (extract_lets +onlyGivenNames nx; with_reducible refine Touches.cut (t := nx) ?_ ?_; subst nx; rotate_left; revert nx; intro _ _; rotate_right)
      | (extract_lets +onlyGivenNames nx; subst nx)
      | split
      | with_reducible apply Touches.after (State.setBell_touches ..)
      | with_reducible apply Touches.after (State.clearStores_touches ..)
      | with_reducible apply Touches.after (State.ledgerAdd_touches ..)
      | with_reducible refine Touches.foldl ?_ fun _ _ => ?_
      | with_reducible apply Touches.set_rings

theorem State.putConfig_touches (s : State) (cfg : CfgSt) (fresh : List Nat) (digest : List Byte) :
    Touches (Touch.out ||| Touch.regs ||| Touch.mem ||| Touch.wear ||| Touch.log ||| Touch.logBase
    ||| Touch.bells ||| Touch.node ||| Touch.gws ||| Touch.cfg ||| Touch.regions ||| Touch.stackMem
    ||| Touch.bridgeMem ||| Touch.rings ||| Touch.links ||| Touch.led ||| Touch.vcmp |||
    Touch.mapLag ||| Touch.reports) s (State.putConfig s cfg fresh digest):= by
  unfold State.putConfig
  repeat'
    first
      | with_reducible exact Touches.refl _ _
      | with_reducible assumption
      | decide
      | (extract_lets +onlyGivenNames nx; with_reducible refine Touches.cut (t := nx) ?_ ?_; subst nx; rotate_left; revert nx; intro _ _; rotate_right)
      | (extract_lets +onlyGivenNames nx; subst nx)
      | with_reducible apply Touches.after (State.planUp_touches ..)
      | with_reducible apply Touches.after (State.setF_touches ..)
      | with_reducible apply Touches.after (State.contextUp_touches ..)
      | with_reducible refine Touches.foldl ?_ fun _ _ => ?_
      | with_reducible apply Touches.set_cfg_rings

theorem State.showDigest_touches (s : State) (d : List Byte) :
    Touches (Touch.regs) s (State.showDigest s d) := by
  unfold State.showDigest
  repeat'
    first
      | with_reducible exact Touches.refl _ _
      | decide
      | with_reducible apply Touches.after (State.setF_touches ..)
      | with_reducible refine Touches.foldl ?_ fun _ _ => ?_

theorem State.syncPartials_touches (s : State) :
    Touches (Touch.regs) s (State.syncPartials s) := by
  unfold State.syncPartials
  repeat'
    first
      | with_reducible exact Touches.refl _ _
      | decide
      | with_reducible apply Touches.after (State.syncPartial_touches ..)
      | with_reducible refine Touches.foldl ?_ fun _ _ => ?_

theorem State.refuseCfg_touches (s : State) (f : Flt) :
    Touches (Touch.regs) s (State.refuseCfg s f) := by
  unfold State.refuseCfg
  repeat'
    first
      | with_reducible exact Touches.refl _ _
      | with_reducible assumption
      | decide
      | (extract_lets +onlyGivenNames x; with_reducible refine Touches.cut (t := x) ?_ ?_; subst x; rotate_left; clear_value x; revert x; intro _ _; rotate_right)
      | (extract_lets +onlyGivenNames x; clear_value x; revert x; intro _)
      | split
      | with_reducible apply Touches.after (State.setCfgState_touches ..)
      | with_reducible apply Touches.after (State.setF_touches ..)

theorem State.installed_touches (s : State) (atOnce : Bool) :
    Touches (Touch.regs ||| Touch.cfg) s (State.installed s atOnce) := by
  unfold State.installed
  repeat'
    first
      | with_reducible exact Touches.refl _ _
      | with_reducible assumption
      | decide
      | (extract_lets +onlyGivenNames x; with_reducible refine Touches.cut (t := x) ?_ ?_; subst x; rotate_left; clear_value x; revert x; intro _ _; rotate_right)
      | (extract_lets +onlyGivenNames x; clear_value x; revert x; intro _)
      | split
      | with_reducible apply Touches.after (State.setCfgState_touches ..)
      | dsimp only
      | with_reducible apply Touches.set_cfg

theorem State.activateFull_touches (s : State) (i : Image) (atOnce : Bool) : Touches (Touch.out |||
    Touch.regs ||| Touch.mem ||| Touch.wear ||| Touch.log ||| Touch.logBase ||| Touch.bells |||
    Touch.node ||| Touch.gws ||| Touch.cfg ||| Touch.regions ||| Touch.stackMem ||| Touch.bridgeMem
    ||| Touch.rings ||| Touch.links ||| Touch.hostTake ||| Touch.led ||| Touch.vcmp ||| Touch.mapLag
    ||| Touch.reports) s (State.activateFull s i atOnce):= by
  unfold State.activateFull
  repeat'
    first
      | with_reducible exact Touches.refl _ _
      | with_reducible assumption
      | decide
      | (extract_lets +onlyGivenNames nx; with_reducible refine Touches.cut (t := nx) ?_ ?_; subst nx; rotate_left; revert nx; intro _ _; rotate_right)
      | (extract_lets +onlyGivenNames nx; subst nx)
      | split
      | with_reducible apply Touches.after (State.refuseCfg_touches ..)
      | with_reducible apply Touches.after (State.showDigest_touches ..)
      | with_reducible apply Touches.after (State.putConfig_touches ..)
      | with_reducible apply Touches.after (State.installed_touches ..)
      | with_reducible apply Touches.after (State.syncPartials_touches ..)
      | with_reducible apply Touches.set_hostTake
      | with_reducible apply Touches.set_cfg

theorem State.activatePart_touches (s : State) (i : Image) : Touches (Touch.out ||| Touch.regs |||
    Touch.mem ||| Touch.wear ||| Touch.log ||| Touch.logBase ||| Touch.bells ||| Touch.node |||
    Touch.gws ||| Touch.cfg ||| Touch.regions ||| Touch.stackMem ||| Touch.bridgeMem ||| Touch.rings
    ||| Touch.links ||| Touch.led ||| Touch.vcmp ||| Touch.mapLag ||| Touch.reports) s
    (State.activatePart s i):= by
  unfold State.activatePart
  repeat'
    first
      | with_reducible exact Touches.refl _ _
      | with_reducible assumption
      | decide
      | (extract_lets +onlyGivenNames nx; with_reducible refine Touches.cut (t := nx) ?_ ?_; subst nx; rotate_left; revert nx; intro _ _; rotate_right)
      | (extract_lets +onlyGivenNames nx; subst nx)
      | split
      | with_reducible apply Touches.after (State.refuseCfg_touches ..)
      | with_reducible apply Touches.after (State.syncPartial_touches ..)
      | with_reducible apply Touches.after (State.putConfig_touches ..)
      | with_reducible apply Touches.after (State.installed_touches ..)
      | with_reducible apply Touches.set_cfg

theorem State.activateAlt_touches (s : State) (v : Nat) : Touches (Touch.out ||| Touch.regs |||
    Touch.mem ||| Touch.wear ||| Touch.log ||| Touch.logBase ||| Touch.bells ||| Touch.node |||
    Touch.gws ||| Touch.cfg ||| Touch.regions ||| Touch.stackMem ||| Touch.bridgeMem ||| Touch.rings
    ||| Touch.links ||| Touch.led ||| Touch.vcmp ||| Touch.mapLag ||| Touch.reports) s
    (State.activateAlt s v):= by
  unfold State.activateAlt
  repeat'
    first
      | with_reducible exact Touches.refl _ _
      | decide
      | (extract_lets +onlyGivenNames nx; subst nx)
      | split
      | with_reducible apply Touches.after (State.refuseCfg_touches ..)
      | with_reducible apply Touches.after (State.installed_touches ..)
      | with_reducible apply Touches.after (State.putConfig_touches ..)
      | with_reducible apply Touches.set_cfg

theorem State.clearActivate_touches (s : State) :
    Touches (Touch.regs) s (State.clearActivate s) := by
  unfold State.clearActivate
  repeat'
    first
      | with_reducible exact Touches.refl _ _
      | with_reducible assumption
      | decide
      | split
      | with_reducible apply Touches.after (State.setF_touches ..)

theorem State.activateSettled_touches (s : State) (bell : Nat) (cold : Bool) : Touches (Touch.out
    ||| Touch.regs ||| Touch.mem ||| Touch.wear ||| Touch.log ||| Touch.logBase ||| Touch.bells |||
    Touch.node ||| Touch.gws ||| Touch.cfg ||| Touch.regions ||| Touch.stackMem ||| Touch.bridgeMem
    ||| Touch.rings ||| Touch.links ||| Touch.hostTake ||| Touch.led ||| Touch.vcmp ||| Touch.mapLag
    ||| Touch.reports) s (State.activateSettled s bell cold):= by
  unfold State.activateSettled
  repeat'
    first
      | with_reducible exact Touches.refl _ _
      | with_reducible assumption
      | decide
      | (extract_lets +onlyGivenNames x; with_reducible refine Touches.cut (t := x) ?_ ?_; subst x; rotate_left; clear_value x; revert x; intro _ _; rotate_right)
      | (extract_lets +onlyGivenNames x; clear_value x; revert x; intro _)
      | split
      | with_reducible apply Touches.after (State.activateAlt_touches ..)
      | with_reducible apply Touches.after (State.activateFull_touches ..)
      | with_reducible apply Touches.after (State.activatePart_touches ..)
      | with_reducible apply Touches.after (State.clearActivate_touches ..)
      | with_reducible refine Touches.foldl ?_ fun _ _ => ?_
      | dsimp only
      | with_reducible apply Touches.set_node

theorem State.activateNext_touches (s : State) : Touches (Touch.out ||| Touch.regs ||| Touch.mem |||
    Touch.wear ||| Touch.log ||| Touch.logBase ||| Touch.bells ||| Touch.node ||| Touch.gws |||
    Touch.cfg ||| Touch.regions ||| Touch.stackMem ||| Touch.bridgeMem ||| Touch.rings |||
    Touch.links ||| Touch.hostTake ||| Touch.led ||| Touch.vcmp ||| Touch.mapLag ||| Touch.reports)
    s (State.activateNext s):= by
  unfold State.activateNext
  repeat'
    first
      | with_reducible exact Touches.refl _ _
      | with_reducible assumption
      | decide
      | split
      | with_reducible apply Touches.after (State.activateFull_touches ..)
      | with_reducible apply Touches.after (State.clearActivate_touches ..)

theorem State.setStep_touches (s : State) (n : Nat) :
    Touches (Touch.regs) s (State.setStep s n) := by
  unfold State.setStep
  repeat'
    first
      | with_reducible exact Touches.refl _ _
      | decide
      | with_reducible apply Touches.after (State.setF_touches ..)

theorem State.coldActivate_touches (s : State) : Touches (Touch.out ||| Touch.regs ||| Touch.mem |||
    Touch.wear ||| Touch.log ||| Touch.logBase ||| Touch.bells ||| Touch.node ||| Touch.gws |||
    Touch.cfg ||| Touch.regions ||| Touch.stackMem ||| Touch.bridgeMem ||| Touch.rings |||
    Touch.links ||| Touch.hostTake ||| Touch.led ||| Touch.vcmp ||| Touch.mapLag ||| Touch.reports)
    s
    (State.coldActivate s):= by
  unfold State.coldActivate
  repeat'
    first
      | with_reducible exact Touches.refl _ _
      | with_reducible assumption
      | decide
      | (extract_lets +onlyGivenNames nx; with_reducible refine Touches.cut (t := nx) ?_ ?_; subst nx; rotate_left; revert nx; intro _ _; rotate_right)
      | split
      | with_reducible apply Touches.after (State.activateSettled_touches ..)
      | with_reducible apply Touches.after (State.setStep_touches ..)

theorem State.enable_touches (s : State) (part : Bool) (slot : Nat) :
    Touches (Touch.regs ||| Touch.cfg) s (State.enable s part slot) := by
  unfold State.enable
  repeat'
    first
      | with_reducible exact Touches.refl _ _
      | with_reducible assumption
      | decide
      | (extract_lets +onlyGivenNames x; with_reducible refine Touches.cut (t := x) ?_ ?_; subst x; rotate_left; clear_value x; revert x; intro _ _; rotate_right)
      | (extract_lets +onlyGivenNames x; clear_value x; revert x; intro _)
      | split
      | with_reducible apply Touches.after (State.setCfgState_touches ..)
      | with_reducible apply Touches.after (State.setF_touches ..)
      | with_reducible apply Touches.after (State.setStep_touches ..)
      | dsimp only
      | with_reducible apply Touches.set_cfg

theorem State.ctrlSlot_touches (s : State) (part : Bool) (slot : Nat) :
    Touches (Touch.regs) s (State.ctrlSlot s part slot) := by
  unfold State.ctrlSlot
  repeat'
    first
      | with_reducible exact Touches.refl _ _
      | decide
      | with_reducible apply Touches.after (State.setF_touches ..)

theorem execCfgEnable_touches (part : Bool) (slot : Fin 64) (s : State) :
    Answers (Touch.regs ||| Touch.cfg) s (execCfgEnable part slot s) := by
  unfold execCfgEnable
  repeat'
    first
      | with_reducible apply Answers.next
      | with_reducible exact Touches.refl _ _
      | decide
      | with_reducible apply Touches.after (State.enable_touches ..)
      | with_reducible apply Touches.after (State.ctrlSlot_touches ..)

theorem State.passImage_touches (s : State) (i : Image) : Touches (Touch.out ||| Touch.regs |||
    Touch.mem ||| Touch.wear ||| Touch.log ||| Touch.logBase ||| Touch.bells ||| Touch.node |||
    Touch.gws ||| Touch.cfg ||| Touch.regions ||| Touch.stackMem ||| Touch.bridgeMem ||| Touch.seqs
    ||| Touch.rings ||| Touch.links ||| Touch.hostTake ||| Touch.led ||| Touch.vcmp ||| Touch.mapLag
    ||| Touch.reports) s (State.passImage s i):= by
  unfold State.passImage
  repeat'
    first
      | with_reducible exact Touches.refl _ _
      | with_reducible assumption
      | decide
      | (extract_lets +onlyGivenNames nx; with_reducible refine Touches.cut (t := nx) ?_ ?_; subst nx; rotate_left; revert nx; intro _ _; rotate_right)
      | (extract_lets +onlyGivenNames nx; subst nx)
      | split
      | with_reducible apply Touches.after (State.setCfgState_touches ..)
      | with_reducible apply Touches.after (State.coldActivate_touches ..)
      | with_reducible apply Touches.after (State.trySettle_touches ..)
      | with_reducible apply Touches.after (State.syncPartial_touches ..)
      | with_reducible apply Touches.after (State.withdrawPart_touches ..)
      | with_reducible refine Touches.foldl ?_ fun _ _ => ?_
      | with_reducible apply Touches.set_cfg

theorem execEnableCheckDone_touches (s : State) :
    Answers (Touch.out ||| Touch.regs ||| Touch.mem ||| Touch.wear ||| Touch.log ||| Touch.logBase
    ||| Touch.bells ||| Touch.node ||| Touch.gws ||| Touch.cfg ||| Touch.regions ||| Touch.stackMem
    ||| Touch.bridgeMem ||| Touch.seqs ||| Touch.rings ||| Touch.links ||| Touch.hostTake |||
    Touch.led ||| Touch.vcmp ||| Touch.mapLag ||| Touch.reports) s (execEnableCheckDone s):= by
  unfold execEnableCheckDone
  repeat'
    first
      | with_reducible apply Answers.next
      | with_reducible exact Touches.refl _ _
      | decide
      | (extract_lets +onlyGivenNames nx; subst nx)
      | split
      | with_reducible apply Touches.after (State.passImage_touches ..)
      | with_reducible apply Touches.after (State.refuseCfg_touches ..)
      | with_reducible apply Touches.set_cfg

theorem State.cancel_touches (s : State) (part : Bool) (slot : Nat) :
    Touches (Touch.regs ||| Touch.cfg) s (State.cancel s part slot) := by
  unfold State.cancel
  repeat'
    first
      | with_reducible exact Touches.refl _ _
      | decide
      | (extract_lets +onlyGivenNames nx; subst nx)
      | split
      | with_reducible apply Touches.after (State.setCfgState_touches ..)
      | with_reducible apply Touches.after (State.withdrawPart_touches ..)
      | with_reducible apply Touches.set_cfg

theorem execCfgCancel_touches (part : Bool) (slot : Fin 64) (s : State) :
    Answers (Touch.regs ||| Touch.cfg) s (execCfgCancel part slot s) := by
  unfold execCfgCancel
  repeat'
    first
      | with_reducible apply Answers.next
      | with_reducible exact Touches.refl _ _
      | decide
      | with_reducible apply Touches.after (State.cancel_touches ..)
      | with_reducible apply Touches.after (State.ctrlSlot_touches ..)

theorem State.writeActivate_touches (s : State) (valid : Bool) (bell : Nat) :
    Touches (Touch.out ||| Touch.regs ||| Touch.node ||| Touch.seqs) s (State.writeActivate s valid bell) := by
  unfold State.writeActivate
  repeat'
    first
      | with_reducible exact Touches.refl _ _
      | with_reducible assumption
      | decide
      | (extract_lets +onlyGivenNames nx; with_reducible refine Touches.cut (t := nx) ?_ ?_; subst nx; rotate_left; revert nx; intro _ _; rotate_right)
      | with_reducible apply Touches.after (State.setF_touches ..)
      | with_reducible apply Touches.after (State.trySettle_touches ..)

theorem execCfgActivate_touches (valid : Bool) (bell : BitVec 48) (s : State) :
    Answers (Touch.out ||| Touch.regs ||| Touch.node ||| Touch.seqs) s (execCfgActivate valid bell s) := by
  unfold execCfgActivate
  repeat'
    first
      | with_reducible apply Answers.next
      | with_reducible exact Touches.refl _ _
      | decide
      | with_reducible apply Touches.after (State.writeActivate_touches ..)

theorem State.selectAlt_touches (s : State) (v : Nat) : Touches (Touch.out ||| Touch.regs |||
    Touch.mem ||| Touch.wear ||| Touch.log ||| Touch.logBase ||| Touch.bells ||| Touch.node |||
    Touch.gws ||| Touch.cfg ||| Touch.regions ||| Touch.stackMem ||| Touch.bridgeMem ||| Touch.seqs
    ||| Touch.rings ||| Touch.links ||| Touch.hostTake ||| Touch.led ||| Touch.vcmp ||| Touch.mapLag
    ||| Touch.reports) s (State.selectAlt s v):= by
  unfold State.selectAlt
  repeat'
    first
      | with_reducible exact Touches.refl _ _
      | with_reducible assumption
      | decide
      | (extract_lets +onlyGivenNames x; with_reducible refine Touches.cut (t := x) ?_ ?_; subst x; rotate_left; clear_value x; revert x; intro _ _; rotate_right)
      | (extract_lets +onlyGivenNames x; clear_value x; revert x; intro _)
      | split
      | with_reducible apply Touches.after (State.coldActivate_touches ..)
      | with_reducible apply Touches.after (State.refuseCfg_touches ..)
      | with_reducible apply Touches.after (State.setF_touches ..)
      | with_reducible apply Touches.after (State.trySettle_touches ..)
      | dsimp only
      | with_reducible apply Touches.set_cfg

theorem execAltSelect_touches (v : Fin 16) (s : State) :
    Answers (Touch.out ||| Touch.regs ||| Touch.mem ||| Touch.wear ||| Touch.log ||| Touch.logBase
    ||| Touch.bells ||| Touch.node ||| Touch.gws ||| Touch.cfg ||| Touch.regions ||| Touch.stackMem
    ||| Touch.bridgeMem ||| Touch.seqs ||| Touch.rings ||| Touch.links ||| Touch.hostTake |||
    Touch.led ||| Touch.vcmp ||| Touch.mapLag ||| Touch.reports) s (execAltSelect v s):= by
  unfold execAltSelect
  repeat'
    first
      | with_reducible apply Answers.next
      | with_reducible exact Touches.refl _ _
      | decide
      | with_reducible apply Touches.after (State.selectAlt_touches ..)

theorem execInstallationDone_touches (s : State) :
    Answers (Touch.regs ||| Touch.cfg) s (execInstallationDone s) := by
  unfold execInstallationDone
  repeat'
    first
      | with_reducible apply Answers.next
      | with_reducible exact Touches.refl _ _
      | decide
      | (extract_lets +onlyGivenNames nx; subst nx)
      | split
      | with_reducible apply Touches.after (State.setF_touches ..)
      | with_reducible apply Touches.set_cfg

end Sys2Proof.Machine
end

