-- ==== Sys2Proof/Laws/Optical.lean ====
section
/-!
SUPPORT. What the operations of Machine/Optical.lean may touch.
-/

namespace Sys2Proof.Machine

theorem State.setRingCode_touches (s : State) (i : Nat) (n : Nat) (c : Int) :
    Touches (Touch.regs) s (State.setRingCode s i n c) := by
  unfold State.setRingCode
  repeat'
    first
      | with_reducible exact Touches.refl _ _
      | decide
      | split
      | with_reducible apply Touches.after (State.setF_touches ..)

theorem State.takeBracket_touches (s : State) (b : Bracket) :
    Touches (Touch.brackets) s (State.takeBracket s b) := by
  unfold State.takeBracket
  repeat'
    first
      | with_reducible exact Touches.refl _ _
      | with_reducible assumption
      | decide
      | split
      | dsimp only
      | with_reducible apply Touches.set_brackets

theorem State.bracketShown_touches (s : State) (b : Bracket) (on : Nat) : Touches (Touch.out |||
    Touch.regs ||| Touch.mem ||| Touch.wear ||| Touch.log ||| Touch.logBase ||| Touch.cores |||
    Touch.bells ||| Touch.node ||| Touch.tithes ||| Touch.gws ||| Touch.cfg ||| Touch.tracePos |||
    Touch.stackMem ||| Touch.bridgeMem ||| Touch.invPend ||| Touch.nextId ||| Touch.jobs |||
    Touch.xfers ||| Touch.runs ||| Touch.seqs ||| Touch.rings ||| Touch.links ||| Touch.egress |||
    Touch.sas ||| Touch.led ||| Touch.retireQ ||| Touch.mapLag ||| Touch.reports ||| Touch.markers
    ||| Touch.heldOut ||| Touch.hostLines ||| Touch.hostResv) s (State.bracketShown s b
    on):= by
  unfold State.bracketShown
  repeat'
    first
      | with_reducible exact Touches.refl _ _
      | with_reducible assumption
      | decide
      | split
      | with_reducible apply Touches.after (State.restripe_touches ..)
      | with_reducible apply Touches.after (State.setF_touches ..)
      | with_reducible apply Touches.after (State.showWaves_touches ..)

theorem State.dropRingBracket_touches (s : State) (i : Nat) (n : Nat) : Touches (Touch.out |||
    Touch.regs ||| Touch.mem ||| Touch.wear ||| Touch.log ||| Touch.logBase ||| Touch.cores |||
    Touch.bells ||| Touch.node ||| Touch.tithes ||| Touch.gws ||| Touch.cfg ||| Touch.tracePos |||
    Touch.stackMem ||| Touch.bridgeMem ||| Touch.invPend ||| Touch.nextId ||| Touch.jobs |||
    Touch.xfers ||| Touch.runs ||| Touch.seqs ||| Touch.rings ||| Touch.brackets ||| Touch.links |||
    Touch.egress ||| Touch.sas ||| Touch.led ||| Touch.retireQ ||| Touch.mapLag ||| Touch.reports
    ||| Touch.markers ||| Touch.heldOut ||| Touch.hostLines ||| Touch.hostResv) s
    (State.dropRingBracket s i n):= by
  unfold State.dropRingBracket
  repeat'
    first
      | with_reducible exact Touches.refl _ _
      | with_reducible assumption
      | decide
      | split
      | with_reducible apply Touches.after (State.bracketShown_touches ..)
      | with_reducible apply Touches.after (State.takeBracket_touches ..)

theorem State.ringOut_touches (s : State) (i : Nat) (n : Nat) : Touches (Touch.out ||| Touch.regs
    ||| Touch.mem ||| Touch.wear ||| Touch.log ||| Touch.logBase ||| Touch.cores ||| Touch.bells |||
    Touch.node ||| Touch.tithes ||| Touch.gws ||| Touch.cfg ||| Touch.tracePos ||| Touch.stackMem
    ||| Touch.bridgeMem ||| Touch.invPend ||| Touch.nextId ||| Touch.jobs ||| Touch.xfers |||
    Touch.runs ||| Touch.seqs ||| Touch.rings ||| Touch.outs ||| Touch.brackets ||| Touch.links |||
    Touch.egress ||| Touch.sas ||| Touch.led ||| Touch.retireQ ||| Touch.mapLag ||| Touch.reports
    ||| Touch.markers ||| Touch.heldOut ||| Touch.hostLines ||| Touch.hostResv) s
    (State.ringOut s i n):= by
  unfold State.ringOut
  repeat'
    first
      | with_reducible exact Touches.refl _ _
      | with_reducible assumption
      | decide
      | (extract_lets +onlyGivenNames nx; with_reducible refine Touches.cut (t := nx) ?_ ?_; subst nx; rotate_left; revert nx; intro _ _; rotate_right)
      | (extract_lets +onlyGivenNames nx; subst nx)
      | split
      | with_reducible apply Touches.after (State.dropRingBracket_touches ..)
      | with_reducible apply Touches.after (State.carrierOut_touches ..)
      | with_reducible apply Touches.after (State.showWaves_touches ..)
      | with_reducible apply Touches.after (State.setLink_touches ..)
      | with_reducible apply Touches.after (State.redirect_touches ..)

theorem State.ringBack_touches (s : State) (i : Nat) (n : Nat) : Touches (Touch.out ||| Touch.regs
    ||| Touch.gws ||| Touch.links) s (State.ringBack s i n):= by
  unfold State.ringBack
  repeat'
    first
      | with_reducible exact Touches.refl _ _
      | decide
      | (extract_lets +onlyGivenNames nx; subst nx)
      | split
      | with_reducible apply Touches.after (State.showWaves_touches ..)
      | with_reducible apply Touches.after (State.setLink_touches ..)

theorem State.retireRing_touches (s : State) (i : Nat) (n : Nat) : Touches (Touch.out ||| Touch.regs
    ||| Touch.mem ||| Touch.grn ||| Touch.wear ||| Touch.log ||| Touch.logBase ||| Touch.cores |||
    Touch.bells ||| Touch.node ||| Touch.tithes ||| Touch.gws ||| Touch.cfg ||| Touch.tracePos |||
    Touch.stackMem ||| Touch.bridgeMem ||| Touch.invPend ||| Touch.nextId ||| Touch.jobs |||
    Touch.xfers ||| Touch.runs ||| Touch.seqs ||| Touch.rings ||| Touch.outs ||| Touch.brackets |||
    Touch.links ||| Touch.egress ||| Touch.sas ||| Touch.led ||| Touch.retireQ ||| Touch.mapLag |||
    Touch.reports ||| Touch.markers ||| Touch.draws ||| Touch.heldOut ||| Touch.hostLines |||
    Touch.hostResv) s
    (State.retireRing s i n):= by
  unfold State.retireRing
  repeat'
    first
      | with_reducible exact Touches.refl _ _
      | with_reducible assumption
      | decide
      | (extract_lets +onlyGivenNames nx; with_reducible refine Touches.cut (t := nx) ?_ ?_; subst nx; rotate_left; revert nx; intro _ _; rotate_right)
      | split
      | with_reducible apply Touches.after (State.dropRingBracket_touches ..)
      | with_reducible apply Touches.after (State.grnPut_touches ..)
      | with_reducible apply Touches.after (State.failCarrier_touches ..)
      | with_reducible apply Touches.after (State.waveFails_touches ..)
      | with_reducible apply Touches.after (State.redirect_touches ..)

theorem State.classesTo_touches (s : State) (f : Nat → Nat) :
    Touches (Touch.classes) s (State.classesTo s f) := by
  unfold State.classesTo
  repeat'
    first
      | with_reducible exact Touches.refl _ _
      | decide
      | (extract_lets +onlyGivenNames nx; subst nx)
      | split
      | with_reducible refine Touches.foldl ?_ fun _ _ => ?_
      | with_reducible apply Touches.set_classes

theorem State.newRamp_touches (s : State) (i : Nat) (n : Nat) :
    Touches (Touch.rcal) s (State.newRamp s i n) := by
  unfold State.newRamp
  repeat'
    first
      | with_reducible exact Touches.refl _ _
      | decide
      | (extract_lets +onlyGivenNames nx; subst nx)
      | split
      | with_reducible apply Touches.after (State.setRingCal_touches ..)

theorem State.loseLock_touches (s : State) (i : Nat) (n : Nat) : Touches (Touch.out ||| Touch.regs
    ||| Touch.mem ||| Touch.wear ||| Touch.log ||| Touch.logBase ||| Touch.cores ||| Touch.bells |||
    Touch.node ||| Touch.tithes ||| Touch.gws ||| Touch.cfg ||| Touch.tracePos ||| Touch.stackMem
    ||| Touch.bridgeMem ||| Touch.invPend ||| Touch.nextId ||| Touch.jobs ||| Touch.xfers |||
    Touch.runs ||| Touch.seqs ||| Touch.rings ||| Touch.outs ||| Touch.brackets ||| Touch.links |||
    Touch.egress ||| Touch.sas ||| Touch.led ||| Touch.retireQ ||| Touch.rcal ||| Touch.mapLag |||
    Touch.reports ||| Touch.markers ||| Touch.heldOut ||| Touch.hostLines ||| Touch.hostResv) s
    (State.loseLock s i n):= by
  unfold State.loseLock
  repeat'
    first
      | with_reducible exact Touches.refl _ _
      | with_reducible assumption
      | decide
      | (extract_lets +onlyGivenNames nx; with_reducible refine Touches.cut (t := nx) ?_ ?_; subst nx; rotate_left; revert nx; intro _ _; rotate_right)
      | (extract_lets +onlyGivenNames nx; subst nx)
      | split
      | with_reducible apply Touches.after (State.setRingCal_touches ..)
      | with_reducible apply Touches.after (State.ringOut_touches ..)
      | with_reducible apply Touches.after (State.wearUp_touches ..)

theorem execLockLoopUpdate_touches (site : Site) (ring : Fin 2792) (loop : Fin 11) (detune : Int) (s : State) :
    Answers (Touch.out ||| Touch.regs ||| Touch.mem ||| Touch.wear ||| Touch.log ||| Touch.logBase
    ||| Touch.cores ||| Touch.bells ||| Touch.node ||| Touch.tithes ||| Touch.gws ||| Touch.cfg |||
    Touch.tracePos ||| Touch.stackMem ||| Touch.bridgeMem ||| Touch.invPend ||| Touch.nextId |||
    Touch.jobs ||| Touch.xfers ||| Touch.runs ||| Touch.seqs ||| Touch.rings ||| Touch.outs |||
    Touch.brackets ||| Touch.links ||| Touch.egress ||| Touch.sas ||| Touch.led ||| Touch.retireQ
    ||| Touch.rcal ||| Touch.mapLag ||| Touch.reports ||| Touch.markers ||| Touch.heldOut |||
    Touch.hostLines ||| Touch.hostResv) s (execLockLoopUpdate site ring loop detune s):= by
  unfold execLockLoopUpdate
  repeat'
    first
      | with_reducible apply Answers.next
      | with_reducible exact Touches.refl _ _
      | with_reducible assumption
      | decide
      | (extract_lets +onlyGivenNames x; with_reducible refine Answers.cut (t := x) ?_ ?_; subst x; rotate_left; clear_value x; revert x; intro _ _; rotate_right)
      | (extract_lets +onlyGivenNames x; clear_value x; revert x; intro _)
      | split
      | with_reducible apply Touches.after (State.loseLock_touches ..)
      | with_reducible apply Touches.after (State.newRamp_touches ..)
      | with_reducible apply Touches.after (State.setRingCal_touches ..)
      | with_reducible apply Touches.after (State.setRingCode_touches ..)

theorem execFfGainAdapt_touches (site : Site) (ring : Fin 2792) (s : State) :
    Answers (Touch.regs ||| Touch.rcal) s (execFfGainAdapt site ring s) := by
  unfold execFfGainAdapt
  repeat'
    first
      | with_reducible apply Answers.next
      | with_reducible exact Touches.refl _ _
      | with_reducible assumption
      | decide
      | (extract_lets +onlyGivenNames x; with_reducible refine Answers.cut (t := x) ?_ ?_; subst x; rotate_left; clear_value x; revert x; intro _ _; rotate_right)
      | (extract_lets +onlyGivenNames x; clear_value x; revert x; intro _)
      | split
      | with_reducible apply Touches.after (State.setF_touches ..)
      | with_reducible apply Touches.after (State.setRingCal_touches ..)

theorem wrongLock_touches (s : State) (i : Nat) (n : Nat) (tone : Nat) (action : Nat) :
    Touches (Touch.out ||| Touch.regs ||| Touch.log ||| Touch.logBase ||| Touch.bells ||| Touch.node |||
    Touch.reports) s (wrongLock s i n tone action) := by
  unfold wrongLock
  repeat'
    first
      | with_reducible exact Touches.refl _ _
      | decide
      | with_reducible apply Touches.after (State.raise_touches ..)

theorem State.identityFails_touches (s : State) (i : Nat) (n : Nat) (tone : Nat) : Touches
    (Touch.out ||| Touch.regs ||| Touch.mem ||| Touch.grn ||| Touch.wear ||| Touch.log |||
    Touch.logBase ||| Touch.cores ||| Touch.bells ||| Touch.node ||| Touch.tithes ||| Touch.gws |||
    Touch.cfg ||| Touch.tracePos ||| Touch.stackMem ||| Touch.bridgeMem ||| Touch.invPend |||
    Touch.nextId ||| Touch.jobs ||| Touch.xfers ||| Touch.runs ||| Touch.seqs ||| Touch.rings |||
    Touch.outs ||| Touch.brackets ||| Touch.links ||| Touch.egress ||| Touch.sas ||| Touch.led |||
    Touch.retireQ ||| Touch.rcal ||| Touch.mapLag ||| Touch.reports ||| Touch.markers |||
    Touch.draws ||| Touch.heldOut ||| Touch.hostLines ||| Touch.hostResv) s (State.identityFails s i
    n
    tone):= by
  unfold State.identityFails
  repeat'
    first
      | with_reducible exact Touches.refl _ _
      | with_reducible assumption
      | decide
      | (extract_lets +onlyGivenNames x; with_reducible refine Touches.cut (t := x) ?_ ?_; subst x; rotate_left; clear_value x; revert x; intro _ _; rotate_right)
      | (extract_lets +onlyGivenNames x; clear_value x; revert x; intro _)
      | split
      | with_reducible apply Touches.after (State.retireRing_touches ..)
      | with_reducible apply Touches.after (State.setRingCal_touches ..)
      | with_reducible apply Touches.after (State.wearUp_touches ..)
      | with_reducible apply Touches.after (wrongLock_touches ..)

theorem State.ringVerified_touches (s : State) (i : Nat) (n : Nat) (code : Nat) (temp : Int) :
    Touches (Touch.out ||| Touch.regs ||| Touch.log ||| Touch.logBase ||| Touch.bells ||| Touch.node |||
      Touch.gws ||| Touch.links ||| Touch.rcal ||| Touch.reports) s (State.ringVerified s i n code
      temp) := by
  unfold State.ringVerified
  repeat'
    first
      | with_reducible exact Touches.refl _ _
      | with_reducible assumption
      | decide
      | (extract_lets +onlyGivenNames x; with_reducible refine Touches.cut (t := x) ?_ ?_; subst x; rotate_left; clear_value x; revert x; intro _ _; rotate_right)
      | (extract_lets +onlyGivenNames x; clear_value x; revert x; intro _)
      | split
      | with_reducible apply Touches.after (State.ringBack_touches ..)
      | with_reducible apply Touches.after (State.setF_touches ..)
      | with_reducible apply Touches.after (State.setRingCal_touches ..)
      | with_reducible apply Touches.after (wrongLock_touches ..)

theorem State.relockSaid_touches (s : State) (i : Nat) (n : Nat) (tone : Nat) (action : Nat) :
    Touches (Touch.out ||| Touch.regs ||| Touch.log ||| Touch.logBase ||| Touch.bells ||| Touch.node |||
      Touch.rcal ||| Touch.reports) s (State.relockSaid s i n tone action) := by
  unfold State.relockSaid
  repeat'
    first
      | with_reducible exact Touches.refl _ _
      | with_reducible assumption
      | decide
      | (extract_lets +onlyGivenNames x; with_reducible refine Touches.cut (t := x) ?_ ?_; subst x; rotate_left; clear_value x; revert x; intro _ _; rotate_right)
      | (extract_lets +onlyGivenNames x; clear_value x; revert x; intro _)
      | split
      | with_reducible apply Touches.after (State.setRingCal_touches ..)
      | with_reducible apply Touches.after (wrongLock_touches ..)

theorem State.ringRelocks_touches (s : State) (i : Nat) (n : Nat) (tone : Nat) (act : Nat) (code :
    Int) : Touches (Touch.out ||| Touch.regs ||| Touch.mem ||| Touch.grn ||| Touch.wear |||
    Touch.log ||| Touch.logBase ||| Touch.cores ||| Touch.bells ||| Touch.node ||| Touch.tithes |||
    Touch.gws ||| Touch.cfg ||| Touch.tracePos ||| Touch.stackMem ||| Touch.bridgeMem |||
    Touch.invPend ||| Touch.nextId ||| Touch.jobs ||| Touch.xfers ||| Touch.runs ||| Touch.seqs |||
    Touch.rings ||| Touch.outs ||| Touch.brackets ||| Touch.links ||| Touch.egress ||| Touch.sas |||
    Touch.led ||| Touch.retireQ ||| Touch.rcal ||| Touch.mapLag ||| Touch.reports ||| Touch.markers
    ||| Touch.draws ||| Touch.heldOut ||| Touch.hostLines ||| Touch.hostResv) s
    (State.ringRelocks s i n tone act code):= by
  unfold State.ringRelocks
  repeat'
    first
      | with_reducible exact Touches.refl _ _
      | with_reducible assumption
      | decide
      | (extract_lets +onlyGivenNames x; with_reducible refine Touches.cut (t := x) ?_ ?_; subst x; rotate_left; clear_value x; revert x; intro _ _; rotate_right)
      | (extract_lets +onlyGivenNames x; clear_value x; revert x; intro _)
      | split
      | with_reducible apply Touches.after (State.identityFails_touches ..)
      | with_reducible apply Touches.after (State.relockSaid_touches ..)
      | with_reducible apply Touches.after (State.setRingCal_touches ..)
      | with_reducible apply Touches.after (State.setRingCode_touches ..)

theorem execIdentityRead_touches (site : Site) (ring : Fin 2792) (code : BitVec 16) (tone : List
    (Fin 36 × Int)) (temp : Int) (s : State) :
    Answers (Touch.out ||| Touch.regs ||| Touch.mem ||| Touch.grn ||| Touch.wear ||| Touch.log |||
    Touch.logBase ||| Touch.cores ||| Touch.bells ||| Touch.node ||| Touch.tithes ||| Touch.gws |||
    Touch.cfg ||| Touch.tracePos ||| Touch.stackMem ||| Touch.bridgeMem ||| Touch.invPend |||
    Touch.nextId ||| Touch.jobs ||| Touch.xfers ||| Touch.runs ||| Touch.seqs ||| Touch.rings |||
    Touch.outs ||| Touch.brackets ||| Touch.links ||| Touch.egress ||| Touch.sas ||| Touch.led |||
    Touch.retireQ ||| Touch.rcal ||| Touch.mapLag ||| Touch.reports ||| Touch.markers |||
    Touch.draws ||| Touch.heldOut ||| Touch.hostLines ||| Touch.hostResv) s (execIdentityRead site
    ring
    code tone temp s):= by
  unfold execIdentityRead
  repeat'
    first
      | with_reducible apply Answers.next
      | with_reducible exact Touches.refl _ _
      | with_reducible assumption
      | decide
      | (extract_lets +onlyGivenNames x; with_reducible refine Answers.cut (t := x) ?_ ?_; subst x; rotate_left; clear_value x; revert x; intro _ _; rotate_right)
      | (extract_lets +onlyGivenNames x; clear_value x; revert x; intro _)
      | split
      | with_reducible apply Touches.after (State.ringRelocks_touches ..)
      | with_reducible apply Touches.after (State.ringVerified_touches ..)
      | with_reducible apply Touches.after (State.setRingCode_touches ..)

theorem execHeaterFault_touches (site : Site) (ring : Fin 2792) (s : State) :
    Answers (Touch.out ||| Touch.regs ||| Touch.mem ||| Touch.grn ||| Touch.wear ||| Touch.log |||
    Touch.logBase ||| Touch.cores ||| Touch.bells ||| Touch.node ||| Touch.tithes ||| Touch.gws |||
    Touch.cfg ||| Touch.tracePos ||| Touch.stackMem ||| Touch.bridgeMem ||| Touch.invPend |||
    Touch.nextId ||| Touch.jobs ||| Touch.xfers ||| Touch.runs ||| Touch.seqs ||| Touch.rings |||
    Touch.outs ||| Touch.brackets ||| Touch.links ||| Touch.egress ||| Touch.sas ||| Touch.led |||
    Touch.retireQ ||| Touch.rcal ||| Touch.mapLag ||| Touch.reports ||| Touch.markers |||
    Touch.draws ||| Touch.heldOut ||| Touch.hostLines ||| Touch.hostResv) s (execHeaterFault site
    ring
    s):= by
  unfold execHeaterFault
  repeat'
    first
      | with_reducible apply Answers.next
      | with_reducible exact Touches.refl _ _
      | with_reducible assumption
      | decide
      | (extract_lets +onlyGivenNames nx; with_reducible refine Answers.cut (t := nx) ?_ ?_; subst nx; rotate_left; revert nx; intro _ _; rotate_right)
      | (extract_lets +onlyGivenNames nx; subst nx)
      | split
      | with_reducible apply Touches.after (State.retireRing_touches ..)
      | with_reducible apply Touches.after (State.dropRingBracket_touches ..)
      | with_reducible apply Touches.after (State.setRingCode_touches ..)
      | with_reducible apply Touches.after (State.setRingCal_touches ..)
      | with_reducible apply Touches.after (State.grnPut_touches ..)
      | with_reducible apply Touches.after (State.granaryEmpty_touches ..)
      | with_reducible apply Touches.after (State.raise_touches ..)

theorem State.setCombCal_touches (s : State) (i : Nat) (c : Nat) (x : CombCal) :
    Touches (Touch.combCal) s (State.setCombCal s i c x) := by
  unfold State.setCombCal
  repeat'
    first
      | with_reducible exact Touches.refl _ _
      | decide
      | with_reducible apply Touches.set_combCal

theorem State.combEol_touches (s : State) (i : Nat) (c : Nat) :
    Touches (Touch.out ||| Touch.regs ||| Touch.grn ||| Touch.log ||| Touch.logBase ||| Touch.bells |||
    Touch.node ||| Touch.mapLag ||| Touch.reports) s (State.combEol s i c) := by
  unfold State.combEol
  repeat'
    first
      | with_reducible exact Touches.refl _ _
      | with_reducible assumption
      | decide
      | (extract_lets +onlyGivenNames nx; with_reducible refine Touches.cut (t := nx) ?_ ?_; subst nx; rotate_left; revert nx; intro _ _; rotate_right)
      | split
      | with_reducible apply Touches.after (State.raise_touches ..)
      | with_reducible apply Touches.after (State.setComb_touches ..)
      | with_reducible apply Touches.after (State.grnPut_touches ..)

theorem State.judgeBias_touches (s : State) (i : Nat) (c : Nat) (low : Int) (capped : Bool) (hot :
    Bool) (high : Option Nat) :
    Touches (Touch.out ||| Touch.regs ||| Touch.grn ||| Touch.wear ||| Touch.log ||| Touch.logBase |||
      Touch.bells ||| Touch.node ||| Touch.combCal ||| Touch.mapLag ||| Touch.reports) s
      (State.judgeBias s i c low capped hot high) := by
  unfold State.judgeBias
  repeat'
    first
      | with_reducible exact Touches.refl _ _
      | with_reducible assumption
      | decide
      | (extract_lets +onlyGivenNames x; with_reducible refine Touches.cut (t := x) ?_ ?_; subst x; rotate_left; clear_value x; revert x; intro _ _; rotate_right)
      | (extract_lets +onlyGivenNames x; clear_value x; revert x; intro _)
      | split
      | with_reducible apply Touches.after (State.combEol_touches ..)
      | with_reducible apply Touches.after (State.setCombCal_touches ..)
      | with_reducible apply Touches.after (State.setF_touches ..)
      | with_reducible apply Touches.after (State.wearUp_touches ..)

theorem execBiasUpdate_touches (site : Site) (comb : Fin 7) (away : Bool) (capped : Bool) (hot : Bool) (s : State) :
    Answers (Touch.out ||| Touch.regs ||| Touch.grn ||| Touch.wear ||| Touch.log ||| Touch.logBase |||
      Touch.bells ||| Touch.node ||| Touch.combCal ||| Touch.mapLag ||| Touch.reports) s
      (execBiasUpdate site comb away capped hot s) := by
  unfold execBiasUpdate
  repeat'
    first
      | with_reducible apply Answers.next
      | with_reducible exact Touches.refl _ _
      | with_reducible assumption
      | decide
      | (extract_lets +onlyGivenNames x; with_reducible refine Answers.cut (t := x) ?_ ?_; subst x; rotate_left; clear_value x; revert x; intro _ _; rotate_right)
      | (extract_lets +onlyGivenNames x; clear_value x; revert x; intro _)
      | split
      | with_reducible apply Touches.after (State.judgeBias_touches ..)
      | with_reducible apply Touches.after (State.setCombCal_touches ..)
      | with_reducible apply Touches.after (State.setF_touches ..)

theorem State.startBracket_touches (s : State) (id : Nat) (bell : Nat) (b : Bracket) : Touches
    (Touch.out ||| Touch.regs ||| Touch.mem ||| Touch.wear ||| Touch.log ||| Touch.logBase |||
    Touch.cores ||| Touch.bells ||| Touch.node ||| Touch.tithes ||| Touch.gws ||| Touch.cfg |||
    Touch.tracePos ||| Touch.stackMem ||| Touch.bridgeMem ||| Touch.invPend ||| Touch.nextId |||
    Touch.jobs ||| Touch.xfers ||| Touch.runs ||| Touch.seqs ||| Touch.rings ||| Touch.brackets |||
    Touch.links ||| Touch.egress ||| Touch.sas ||| Touch.led ||| Touch.retireQ ||| Touch.calLast |||
    Touch.mapLag ||| Touch.reports ||| Touch.markers ||| Touch.heldOut ||| Touch.hostLines |||
    Touch.hostResv) s
    (State.startBracket s id bell b):= by
  unfold State.startBracket
  repeat'
    first
      | with_reducible exact Touches.refl _ _
      | with_reducible assumption
      | decide
      | (extract_lets +onlyGivenNames x; with_reducible refine Touches.cut (t := x) ?_ ?_; subst x; rotate_left; clear_value x; revert x; intro _ _; rotate_right)
      | (extract_lets +onlyGivenNames x; clear_value x; revert x; intro _)
      | split
      | with_reducible apply Touches.after (State.bracketShown_touches ..)
      | dsimp only
      | with_reducible apply Touches.set_brackets_calLast

theorem State.startDue_touches (s : State) (i : Nat) (bell : Nat) (hold : Bool) (x4 : List (Nat ×
    Nat × Bracket)) : Touches (Touch.out ||| Touch.regs ||| Touch.mem ||| Touch.wear ||| Touch.log
    ||| Touch.logBase ||| Touch.cores ||| Touch.bells ||| Touch.node ||| Touch.tithes ||| Touch.gws
    ||| Touch.cfg ||| Touch.tracePos ||| Touch.stackMem ||| Touch.bridgeMem ||| Touch.invPend |||
    Touch.nextId ||| Touch.jobs ||| Touch.xfers ||| Touch.runs ||| Touch.seqs ||| Touch.rings |||
    Touch.brackets ||| Touch.links ||| Touch.egress ||| Touch.sas ||| Touch.led ||| Touch.retireQ
    ||| Touch.calLast ||| Touch.mapLag ||| Touch.reports ||| Touch.markers ||| Touch.heldOut |||
    Touch.hostLines ||| Touch.hostResv) s (State.startDue s i
    bell hold x4):= by
  induction x4 generalizing s i bell hold with
  | nil => exact Touches.refl _ _
  | cons p l ih =>
    unfold State.startDue
    repeat'
      first
        | with_reducible exact Touches.refl _ _
        | decide
        | with_reducible refine Touches.trans ?_ (ih ..)
        | split
        | with_reducible apply Touches.after (State.titheCharge_touches ..)
        | with_reducible apply Touches.after (State.startBracket_touches ..)
        | with_reducible apply Touches.after (State.titheStall_touches ..)

theorem State.bracketBoundary_touches (s : State) (i : Nat) (bell : Nat) (hold : Bool) : Touches
    (Touch.out ||| Touch.regs ||| Touch.mem ||| Touch.wear ||| Touch.log ||| Touch.logBase |||
    Touch.cores ||| Touch.bells ||| Touch.node ||| Touch.tithes ||| Touch.gws ||| Touch.cfg |||
    Touch.tracePos ||| Touch.stackMem ||| Touch.bridgeMem ||| Touch.invPend ||| Touch.nextId |||
    Touch.jobs ||| Touch.xfers ||| Touch.runs ||| Touch.seqs ||| Touch.rings ||| Touch.brackets |||
    Touch.links ||| Touch.egress ||| Touch.sas ||| Touch.led ||| Touch.retireQ ||| Touch.calLast |||
    Touch.mapLag ||| Touch.reports ||| Touch.markers ||| Touch.heldOut ||| Touch.hostLines |||
    Touch.hostResv) s
    (State.bracketBoundary s i bell hold):= by
  unfold State.bracketBoundary
  repeat'
    first
      | with_reducible exact Touches.refl _ _
      | with_reducible assumption
      | decide
      | with_reducible refine Touches.foldl ?_ fun _ _ => ?_
      | (extract_lets +onlyGivenNames nx; with_reducible refine Touches.cut (t := nx) ?_ ?_; subst nx; rotate_left; revert nx; intro _ _; rotate_right)
      | (extract_lets +onlyGivenNames nx; subst nx)
      | split
      | with_reducible apply Touches.after (State.titheCharge_touches ..)
      | with_reducible apply Touches.after (State.setF_touches ..)
      | with_reducible apply Touches.after (State.startDue_touches ..)

theorem State.noteReject_touches (s : State) (home : Nat) (id : Nat) (bad : Bool) :
    Touches (Touch.out ||| Touch.regs ||| Touch.log ||| Touch.logBase ||| Touch.bells ||| Touch.node |||
    Touch.calRej ||| Touch.reports) s (State.noteReject s home id bad) := by
  unfold State.noteReject
  repeat'
    first
      | with_reducible exact Touches.refl _ _
      | with_reducible assumption
      | decide
      | (extract_lets +onlyGivenNames nx; with_reducible refine Touches.cut (t := nx) ?_ ?_; subst nx; rotate_left; revert nx; intro _ _; rotate_right)
      | (extract_lets +onlyGivenNames nx; subst nx)
      | split
      | with_reducible apply Touches.after (State.setF_touches ..)
      | with_reducible apply Touches.after (State.bump_touches ..)
      | with_reducible apply Touches.after (State.raise_touches ..)
      | with_reducible apply Touches.set_calRej

theorem State.setModOffset_touches (s : State) (i : Nat) (n : Nat) (x : Int) :
    Touches (Touch.regs) s (State.setModOffset s i n x) := by
  unfold State.setModOffset
  repeat'
    first
      | with_reducible exact Touches.refl _ _
      | with_reducible assumption
      | decide
      | split
      | with_reducible apply Touches.after (State.setF_touches ..)

theorem State.judgeBracket_touches (s : State) (home : Nat) (rx : Nat) (tx : Option (Nat × Nat)) (id : Nat) (r : CalResult) :
    Touches (Touch.out ||| Touch.regs ||| Touch.log ||| Touch.logBase ||| Touch.bells ||| Touch.node |||
    Touch.calRej ||| Touch.reports) s (State.judgeBracket s home rx tx id r) := by
  unfold State.judgeBracket
  repeat'
    first
      | with_reducible exact Touches.refl _ _
      | with_reducible assumption
      | decide
      | (extract_lets +onlyGivenNames nx; with_reducible refine Touches.cut (t := nx) ?_ ?_; subst nx; rotate_left; revert nx; intro _ _; rotate_right)
      | (extract_lets +onlyGivenNames nx; subst nx)
      | split
      | with_reducible apply Touches.after (State.setF_touches ..)
      | with_reducible apply Touches.after (State.noteReject_touches ..)
      | with_reducible apply Touches.after (State.bump_touches ..)
      | with_reducible refine Touches.foldl ?_ fun _ _ => ?_
      | with_reducible apply Touches.after (State.setModOffset_touches ..)

theorem execBracketComplete_touches (ch : CalChannel) (r : CalResult) (s : State) :
    Answers (Touch.out ||| Touch.regs ||| Touch.mem ||| Touch.wear ||| Touch.log ||| Touch.logBase
    ||| Touch.cores ||| Touch.bells ||| Touch.node ||| Touch.tithes ||| Touch.gws ||| Touch.cfg |||
    Touch.tracePos ||| Touch.stackMem ||| Touch.bridgeMem ||| Touch.invPend ||| Touch.nextId |||
    Touch.jobs ||| Touch.xfers ||| Touch.runs ||| Touch.seqs ||| Touch.rings ||| Touch.brackets |||
    Touch.links ||| Touch.egress ||| Touch.sas ||| Touch.led ||| Touch.retireQ ||| Touch.calRej |||
    Touch.mapLag ||| Touch.reports ||| Touch.markers ||| Touch.heldOut ||| Touch.hostLines |||
    Touch.hostResv) s
      (execBracketComplete ch r s) := by
  unfold execBracketComplete
  repeat'
    first
      | with_reducible apply Answers.next
      | with_reducible exact Touches.refl _ _
      | with_reducible assumption
      | decide
      | (extract_lets +onlyGivenNames x; with_reducible refine Answers.cut (t := x) ?_ ?_; subst x; rotate_left; clear_value x; revert x; intro _ _; rotate_right)
      | (extract_lets +onlyGivenNames x; clear_value x; revert x; intro _)
      | split
      | with_reducible apply Touches.after (State.bracketShown_touches ..)
      | with_reducible apply Touches.after (State.judgeBracket_touches ..)
      | with_reducible apply Touches.after (State.setModOffset_touches ..)
      | with_reducible apply Touches.after (State.takeBracket_touches ..)

theorem State.sensorStale_touches (s : State) (loc : Nat) (i : Nat) (b : Bool) :
    Touches (Touch.regs) s (State.sensorStale s loc i b) := by
  unfold State.sensorStale
  repeat'
    first
      | with_reducible exact Touches.refl _ _
      | decide
      | with_reducible apply Touches.after (State.setF_touches ..)

theorem State.sensorBoundary_touches (s : State) (loc : Nat) (bell : Nat) :
    Touches (Touch.regs ||| Touch.calLast ||| Touch.sensOut) s (State.sensorBoundary s loc bell) := by
  unfold State.sensorBoundary
  repeat'
    first
      | with_reducible exact Touches.refl _ _
      | with_reducible assumption
      | decide
      | (extract_lets +onlyGivenNames nx; with_reducible refine Touches.cut (t := nx) ?_ ?_; subst nx; rotate_left; revert nx; intro _ _; rotate_right)
      | split
      | with_reducible apply Touches.after (State.sensorStale_touches ..)
      | with_reducible refine Touches.foldl ?_ fun _ _ => ?_
      | with_reducible apply Touches.set_calLast_sensOut

theorem execSensorBracket_touches (loc : Fin 44) (i : Fin 176) (offset : Int) (s : State) :
    Answers (Touch.out ||| Touch.regs ||| Touch.log ||| Touch.logBase ||| Touch.bells ||| Touch.node |||
    Touch.calRej ||| Touch.sensOut ||| Touch.reports) s (execSensorBracket loc i offset s) := by
  unfold execSensorBracket
  repeat'
    first
      | with_reducible apply Answers.next
      | with_reducible exact Touches.refl _ _
      | with_reducible assumption
      | decide
      | (extract_lets +onlyGivenNames nx; with_reducible refine Answers.cut (t := nx) ?_ ?_; subst nx; rotate_left; revert nx; intro _ _; rotate_right)
      | (extract_lets +onlyGivenNames nx; subst nx)
      | split
      | with_reducible apply Touches.after (State.sensorStale_touches ..)
      | with_reducible apply Touches.after (State.setF_touches ..)
      | with_reducible apply Touches.after (State.bump_touches ..)
      | with_reducible apply Touches.after (State.noteReject_touches ..)
      | with_reducible apply Touches.set_sensOut

theorem execCarrierReturn_touches (tx : Site) (rx : Site) (plane : Fin 36) (s : State) :
    Answers (Touch.out ||| Touch.regs ||| Touch.mem ||| Touch.wear ||| Touch.log ||| Touch.logBase
    ||| Touch.cores ||| Touch.bells ||| Touch.node ||| Touch.tithes ||| Touch.gws ||| Touch.cfg |||
    Touch.tracePos ||| Touch.stackMem ||| Touch.bridgeMem ||| Touch.invPend ||| Touch.nextId |||
    Touch.jobs ||| Touch.xfers ||| Touch.runs ||| Touch.seqs ||| Touch.rings ||| Touch.outs |||
    Touch.egress ||| Touch.sas ||| Touch.led ||| Touch.retireQ ||| Touch.mapLag ||| Touch.reports
    ||| Touch.markers ||| Touch.heldOut ||| Touch.hostLines ||| Touch.hostResv) s
    (execCarrierReturn tx rx plane s):= by
  unfold execCarrierReturn
  repeat'
    first
      | with_reducible apply Answers.next
      | with_reducible exact Touches.refl _ _
      | with_reducible assumption
      | decide
      | (extract_lets +onlyGivenNames x; with_reducible refine Answers.cut (t := x) ?_ ?_; subst x; rotate_left; clear_value x; revert x; intro _ _; rotate_right)
      | (extract_lets +onlyGivenNames x; clear_value x; revert x; intro _)
      | split
      | with_reducible apply Touches.after (State.follow_touches ..)
      | with_reducible apply Touches.after (State.setOut_touches ..)

theorem State.endHoldBrackets_touches (s : State) (i : Nat) : Touches (Touch.out ||| Touch.regs |||
    Touch.mem ||| Touch.wear ||| Touch.log ||| Touch.logBase ||| Touch.cores ||| Touch.bells |||
    Touch.node ||| Touch.tithes ||| Touch.gws ||| Touch.cfg ||| Touch.tracePos ||| Touch.stackMem
    ||| Touch.bridgeMem ||| Touch.invPend ||| Touch.nextId ||| Touch.jobs ||| Touch.xfers |||
    Touch.runs ||| Touch.seqs ||| Touch.rings ||| Touch.brackets ||| Touch.links ||| Touch.egress
    ||| Touch.sas ||| Touch.led ||| Touch.retireQ ||| Touch.mapLag ||| Touch.reports |||
    Touch.markers ||| Touch.heldOut ||| Touch.hostLines ||| Touch.hostResv) s (State.endHoldBrackets
      s i) := by
  unfold State.endHoldBrackets
  repeat'
    first
      | with_reducible exact Touches.refl _ _
      | with_reducible assumption
      | decide
      | split
      | with_reducible apply Touches.after (State.bracketShown_touches ..)
      | with_reducible apply Touches.after (State.takeBracket_touches ..)
      | with_reducible refine Touches.foldl ?_ fun _ _ => ?_

theorem State.ringsLate_touches (s : State) (i : Nat) : Touches (Touch.out ||| Touch.regs |||
    Touch.mem ||| Touch.wear ||| Touch.log ||| Touch.logBase ||| Touch.cores ||| Touch.bells |||
    Touch.node ||| Touch.tithes ||| Touch.gws ||| Touch.cfg ||| Touch.tracePos ||| Touch.stackMem
    ||| Touch.bridgeMem ||| Touch.invPend ||| Touch.nextId ||| Touch.jobs ||| Touch.xfers |||
    Touch.runs ||| Touch.seqs ||| Touch.rings ||| Touch.outs ||| Touch.brackets ||| Touch.links |||
    Touch.egress ||| Touch.sas ||| Touch.led ||| Touch.retireQ ||| Touch.mapLag ||| Touch.reports
    ||| Touch.markers ||| Touch.heldOut ||| Touch.hostLines ||| Touch.hostResv) s
      (State.ringsLate s i) := by
  unfold State.ringsLate
  repeat'
    first
      | with_reducible exact Touches.refl _ _
      | with_reducible assumption
      | decide
      | split
      | with_reducible apply Touches.after (State.ringOut_touches ..)
      | with_reducible refine Touches.foldl ?_ fun _ _ => ?_

end Sys2Proof.Machine
end

