-- ==== Sys2Proof/Laws/Resets.lean ====
section
/-!
SUPPORT. What the operations of Machine/Resets.lean may touch.
-/

namespace Sys2Proof.Machine

theorem State.clearRegs_touches (s : State) (i : Nat) (lo : Nat) (hi : Nat) :
    Touches (Touch.regs) s (State.clearRegs s i lo hi) := by
  unfold State.clearRegs
  repeat'
    first
      | with_reducible exact Touches.refl _ _
      | decide
      | with_reducible apply Touches.set_regs

theorem State.loseCompute_touches (s : State) (k : Nat) : Touches (Touch.regs ||| Touch.mem |||
    Touch.cores ||| Touch.gws ||| Touch.jobs ||| Touch.xfers ||| Touch.hostLines ||| Touch.hostResv
    ||| Touch.imsic) s (State.loseCompute s k):= by
  unfold State.loseCompute
  repeat'
    first
      | with_reducible exact Touches.refl _ _
      | with_reducible assumption
      | decide
      | split
      | (extract_lets +onlyGivenNames nx; with_reducible refine Touches.cut (t := nx) ?_ ?_; subst nx; rotate_left; revert nx; intro _ _; rotate_right)
      | (extract_lets +onlyGivenNames nx; subst nx)
      | with_reducible apply Touches.after (State.cancelTags_touches ..)
      | with_reducible apply Touches.after (State.clearRegs_touches ..)
      | with_reducible apply Touches.after (State.clearStores_touches ..)
      | with_reducible apply Touches.after (State.loseHosts_touches ..)
      | dsimp only
      | with_reducible apply Touches.set_cores_jobs_xfers
theorem State.loseGateway_touches (s : State) (i : Nat) :
    Touches (Touch.regs ||| Touch.gws ||| Touch.stackMem) s (State.loseGateway s i) := by
  unfold State.loseGateway
  repeat'
    first
      | with_reducible exact Touches.refl _ _
      | with_reducible assumption
      | decide
      | (extract_lets +onlyGivenNames nx; with_reducible refine Touches.cut (t := nx) ?_ ?_; subst nx; rotate_left; revert nx; intro _ _; rotate_right)
      | (extract_lets +onlyGivenNames nx; subst nx)
      | split
      | with_reducible apply Touches.after (State.setGw_touches ..)
      | with_reducible apply Touches.after (State.setReg_touches ..)
      | with_reducible apply Touches.after (State.clearRegs_touches ..)
      | with_reducible apply Touches.after (State.setF_touches ..)
      | with_reducible apply Touches.after (State.cacheDrop_touches ..)

theorem State.loseEngine_touches (s : State) (i : Nat) :
    Touches (Touch.redSteps ||| Touch.runs ||| Touch.redBytes) s (State.loseEngine s i) := by
  unfold State.loseEngine
  repeat'
    first
      | with_reducible exact Touches.refl _ _
      | decide
      | with_reducible apply Touches.set_redSteps_runs_redBytes

theorem State.failPairs_touches (s : State) : Touches (Touch.out ||| Touch.regs ||| Touch.mem |||
    Touch.wear ||| Touch.log ||| Touch.logBase ||| Touch.cores ||| Touch.bells ||| Touch.node |||
    Touch.stackMem ||| Touch.bridgeMem ||| Touch.invPend ||| Touch.nextId ||| Touch.rings |||
    Touch.qpErr ||| Touch.retireQ ||| Touch.mapLag ||| Touch.reports ||| Touch.imsic) s
    (State.failPairs s):= by
  unfold State.failPairs
  repeat'
    first
      | with_reducible exact Touches.refl _ _
      | with_reducible assumption
      | decide
      | split
      | with_reducible apply Touches.after (State.qpFails_touches ..)
      | with_reducible refine Touches.foldl ?_ fun _ _ => ?_

theorem State.reloadRings_touches (s : State) :
    Touches (Touch.rings) s (State.reloadRings s) := by
  unfold State.reloadRings
  repeat'
    first
      | with_reducible exact Touches.refl _ _
      | with_reducible assumption
      | decide
      | (extract_lets +onlyGivenNames x; with_reducible refine Touches.cut (t := x) ?_ ?_; subst x; rotate_left; clear_value x; revert x; intro _ _; rotate_right)
      | (extract_lets +onlyGivenNames x; clear_value x; revert x; intro _)
      | split
      | with_reducible apply Touches.after (State.setRing_touches ..)
      | with_reducible refine Touches.foldl ?_ fun _ _ => ?_

theorem State.portReset_touches (s : State) : Touches (Touch.out ||| Touch.regs ||| Touch.mem |||
    Touch.wear ||| Touch.log ||| Touch.logBase ||| Touch.cores ||| Touch.bells ||| Touch.node |||
    Touch.gws ||| Touch.stackMem ||| Touch.bridgeMem ||| Touch.invPend ||| Touch.nextId |||
    Touch.xfers ||| Touch.rings ||| Touch.ingress ||| Touch.egress ||| Touch.qpErr ||| Touch.retireQ
    ||| Touch.mapLag ||| Touch.reports ||| Touch.heldOut ||| Touch.imsic) s (State.portReset s):= by
  unfold State.portReset
  repeat'
    first
      | with_reducible exact Touches.refl _ _
      | with_reducible assumption
      | decide
      | (extract_lets +onlyGivenNames x; with_reducible refine Touches.cut (t := x) ?_ ?_; subst x; rotate_left; clear_value x; revert x; intro _ _; rotate_right)
      | (extract_lets +onlyGivenNames x; clear_value x; revert x; intro _)
      | split
      | with_reducible apply Touches.after (State.failPairs_touches ..)
      | with_reducible apply Touches.after (State.reloadRings_touches ..)
      | with_reducible apply Touches.after (State.ringAbandon_touches ..)
      | dsimp only
      | with_reducible apply Touches.set_ingress_egress
      | with_reducible apply Touches.set_ingress_egress_heldOut
theorem State.loseDomain_touches (s : State) (i : Nat) (domain : Nat) : Touches (Touch.out |||
    Touch.regs ||| Touch.mem ||| Touch.wear ||| Touch.log ||| Touch.logBase ||| Touch.cores |||
    Touch.bells ||| Touch.node ||| Touch.gws ||| Touch.stackMem ||| Touch.bridgeMem |||
    Touch.invPend ||| Touch.nextId ||| Touch.jobs ||| Touch.xfers ||| Touch.redSteps ||| Touch.runs
    ||| Touch.redBytes ||| Touch.rings ||| Touch.links ||| Touch.ingress ||| Touch.egress |||
    Touch.qpErr ||| Touch.retireQ ||| Touch.mapLag ||| Touch.reports ||| Touch.heldOut |||
    Touch.hostLines ||| Touch.hostResv ||| Touch.imsic) s
    (State.loseDomain s i
    domain):= by
  unfold State.loseDomain
  repeat'
    first
      | with_reducible exact Touches.refl _ _
      | with_reducible assumption
      | decide
      | (extract_lets +onlyGivenNames nx; with_reducible refine Touches.cut (t := nx) ?_ ?_; subst nx; rotate_left; revert nx; intro _ _; rotate_right)
      | (extract_lets +onlyGivenNames nx; subst nx)
      | split
      | with_reducible apply Touches.after (State.loseCompute_touches ..)
      | with_reducible apply Touches.after (State.loseGateway_touches ..)
      | with_reducible apply Touches.after (State.loseEngine_touches ..)
      | with_reducible apply Touches.after (State.clearRegs_touches ..)
      | with_reducible apply Touches.after (State.zeroMem_touches ..)
      | with_reducible apply Touches.after (State.setBridge_touches ..)
      | with_reducible apply Touches.after (State.resetLink_touches ..)
      | with_reducible apply Touches.after (State.portReset_touches ..)
      | with_reducible refine Touches.foldl ?_ fun _ _ => ?_

theorem State.regionsReset_touches (s : State) (i : Nat) (domain : Nat) :
    Touches (Touch.regs ||| Touch.regions) s (State.regionsReset s i domain) := by
  unfold State.regionsReset
  repeat'
    first
      | with_reducible exact Touches.refl _ _
      | decide
      | (extract_lets +onlyGivenNames nx; subst nx)
      | split
      | with_reducible apply Touches.after (State.setF_touches ..)
      | with_reducible apply Touches.after (State.stopRegion_touches ..)
      | with_reducible refine Touches.foldl ?_ fun _ _ => ?_

theorem State.drainGateway_touches (s : State) (i : Nat) : Touches (Touch.out ||| Touch.regs |||
    Touch.mem ||| Touch.wear ||| Touch.log ||| Touch.logBase ||| Touch.cores ||| Touch.bells |||
    Touch.node ||| Touch.tithes ||| Touch.gws ||| Touch.tracePos ||| Touch.stackMem |||
    Touch.bridgeMem ||| Touch.invPend ||| Touch.nextId ||| Touch.jobs ||| Touch.xfers ||| Touch.runs
    ||| Touch.seqs ||| Touch.rings ||| Touch.egress ||| Touch.sas ||| Touch.led ||| Touch.retireQ
    ||| Touch.mapLag ||| Touch.reports ||| Touch.heldOut ||| Touch.hostLines ||| Touch.hostResv) s
    (State.drainGateway s i):=
      by
  unfold State.drainGateway
  repeat'
    first
      | with_reducible exact Touches.refl _ _
      | with_reducible assumption
      | decide
      | (extract_lets +onlyGivenNames x; with_reducible refine Touches.cut (t := x) ?_ ?_; subst x; rotate_left; clear_value x; revert x; intro _ _; rotate_right)
      | (extract_lets +onlyGivenNames x; clear_value x; revert x; intro _)
      | split
      | with_reducible apply Touches.after (State.failTags_touches ..)
      | with_reducible apply Touches.after (State.failWaiting_touches ..)
      | with_reducible apply Touches.after (State.setGw_touches ..)

theorem State.resetSite_touches (s : State) (i : Nat) (domain : Nat) : Touches (Touch.out |||
    Touch.regs ||| Touch.mem ||| Touch.grn ||| Touch.wear ||| Touch.log ||| Touch.logBase |||
    Touch.cores ||| Touch.bells ||| Touch.node ||| Touch.tithes ||| Touch.gws ||| Touch.cfg |||
    Touch.regions ||| Touch.tracePos ||| Touch.stackMem ||| Touch.bridgeMem ||| Touch.invPend |||
    Touch.nextId ||| Touch.jobs ||| Touch.xfers ||| Touch.redSteps ||| Touch.runs ||| Touch.redBytes
    ||| Touch.seqs ||| Touch.rings ||| Touch.links ||| Touch.ingress ||| Touch.egress |||
    Touch.qpErr ||| Touch.sas ||| Touch.led ||| Touch.retireQ ||| Touch.resets ||| Touch.mapLag |||
    Touch.reports ||| Touch.drains ||| Touch.heldOut ||| Touch.hostLines ||| Touch.hostResv |||
    Touch.imsic) s
    (State.resetSite s i domain):= by
  unfold State.resetSite
  repeat'
    first
      | with_reducible exact Touches.refl _ _
      | with_reducible assumption
      | decide
      | (extract_lets +onlyGivenNames nx; with_reducible refine Touches.cut (t := nx) ?_ ?_; subst nx; rotate_left; revert nx; intro _ _; rotate_right)
      | (extract_lets +onlyGivenNames nx; subst nx)
      | split
      | with_reducible apply Touches.after (State.drainGateway_touches ..)
      | with_reducible apply Touches.after (State.nextEpoch_touches ..)
      | with_reducible apply Touches.after (State.silence_touches ..)
      | with_reducible apply Touches.after (State.setF_touches ..)
      | with_reducible apply Touches.after (State.fenceAll_touches ..)
      | with_reducible apply Touches.after (State.regionsReset_touches ..)
      | with_reducible apply Touches.after (State.loseDomain_touches ..)
      | with_reducible apply Touches.after (State.raise_touches ..)
      | with_reducible apply Touches.after (State.retireSite_touches ..)
      | with_reducible apply Touches.set_resets
      | dsimp only
      | with_reducible apply Touches.set_drains
theorem State.startDrain_touches (s : State) (i : Nat) :
    Touches (Touch.regs ||| Touch.drains) s (State.startDrain s i) := by
  unfold State.startDrain
  repeat'
    first
      | with_reducible exact Touches.refl _ _
      | with_reducible assumption
      | decide
      | split
      | with_reducible apply Touches.after (State.setF_touches ..)
      | dsimp only
      | with_reducible apply Touches.set_drains

theorem State.requestReset_touches (s : State) (r : Requester) (i : Nat) (domain : Nat) : Touches
    (Touch.out ||| Touch.regs ||| Touch.mem ||| Touch.grn ||| Touch.wear ||| Touch.log |||
    Touch.logBase ||| Touch.cores ||| Touch.bells ||| Touch.node ||| Touch.tithes ||| Touch.gws |||
    Touch.cfg ||| Touch.regions ||| Touch.tracePos ||| Touch.stackMem ||| Touch.bridgeMem |||
    Touch.invPend ||| Touch.nextId ||| Touch.jobs ||| Touch.xfers ||| Touch.redSteps ||| Touch.runs
    ||| Touch.redBytes ||| Touch.seqs ||| Touch.rings ||| Touch.links ||| Touch.ingress |||
    Touch.egress ||| Touch.qpErr ||| Touch.sas ||| Touch.led ||| Touch.retireQ ||| Touch.resets |||
    Touch.mapLag ||| Touch.reports ||| Touch.drains ||| Touch.heldOut ||| Touch.hostLines |||
    Touch.hostResv ||| Touch.imsic) s (State.requestReset s r i domain):= by
  unfold State.requestReset
  repeat'
    first
      | with_reducible exact Touches.refl _ _
      | decide
      | split
      | with_reducible apply Touches.after (State.resetSite_touches ..)
      | with_reducible apply Touches.after (State.startDrain_touches ..)
theorem execSiteReset_touches (r : Requester) (site : Site) (s : State) :
    Answers (Touch.out ||| Touch.regs ||| Touch.mem ||| Touch.grn ||| Touch.wear ||| Touch.log |||
    Touch.logBase ||| Touch.cores ||| Touch.bells ||| Touch.node ||| Touch.tithes ||| Touch.gws |||
    Touch.cfg ||| Touch.regions ||| Touch.tracePos ||| Touch.stackMem ||| Touch.bridgeMem |||
    Touch.invPend ||| Touch.nextId ||| Touch.jobs ||| Touch.xfers ||| Touch.redSteps ||| Touch.runs
    ||| Touch.redBytes ||| Touch.seqs ||| Touch.rings ||| Touch.links ||| Touch.ingress |||
    Touch.egress ||| Touch.qpErr ||| Touch.sas ||| Touch.led ||| Touch.retireQ ||| Touch.resets |||
    Touch.mapLag ||| Touch.reports ||| Touch.drains ||| Touch.heldOut ||| Touch.hostLines |||
    Touch.hostResv ||| Touch.imsic) s (execSiteReset r site s):= by
  unfold execSiteReset
  repeat'
    first
      | with_reducible apply Answers.next
      | with_reducible exact Touches.refl _ _
      | decide
      | split
      | with_reducible apply Touches.after (State.requestReset_touches ..)
      | with_reducible apply Touches.after (State.unmapped_touches ..)

theorem execGatewayReset_touches (r : Requester) (site : Site) (s : State) :
    Answers (Touch.out ||| Touch.regs ||| Touch.mem ||| Touch.grn ||| Touch.wear ||| Touch.log |||
    Touch.logBase ||| Touch.cores ||| Touch.bells ||| Touch.node ||| Touch.tithes ||| Touch.gws |||
    Touch.cfg ||| Touch.regions ||| Touch.tracePos ||| Touch.stackMem ||| Touch.bridgeMem |||
    Touch.invPend ||| Touch.nextId ||| Touch.jobs ||| Touch.xfers ||| Touch.redSteps ||| Touch.runs
    ||| Touch.redBytes ||| Touch.seqs ||| Touch.rings ||| Touch.links ||| Touch.ingress |||
    Touch.egress ||| Touch.qpErr ||| Touch.sas ||| Touch.led ||| Touch.retireQ ||| Touch.resets |||
    Touch.mapLag ||| Touch.reports ||| Touch.drains ||| Touch.heldOut ||| Touch.hostLines |||
    Touch.hostResv ||| Touch.imsic) s (execGatewayReset r site s):= by
  unfold execGatewayReset
  repeat'
    first
      | with_reducible apply Answers.next
      | with_reducible exact Touches.refl _ _
      | decide
      | split
      | with_reducible apply Touches.after (State.requestReset_touches ..)
      | with_reducible apply Touches.after (State.unmapped_touches ..)

theorem execComputeDieReset_touches (r : Requester) (k : Stack) (s : State) :
    Answers (Touch.out ||| Touch.regs ||| Touch.mem ||| Touch.grn ||| Touch.wear ||| Touch.log |||
    Touch.logBase ||| Touch.cores ||| Touch.bells ||| Touch.node ||| Touch.tithes ||| Touch.gws |||
    Touch.cfg ||| Touch.regions ||| Touch.tracePos ||| Touch.stackMem ||| Touch.bridgeMem |||
    Touch.invPend ||| Touch.nextId ||| Touch.jobs ||| Touch.xfers ||| Touch.redSteps ||| Touch.runs
    ||| Touch.redBytes ||| Touch.seqs ||| Touch.rings ||| Touch.links ||| Touch.ingress |||
    Touch.egress ||| Touch.qpErr ||| Touch.sas ||| Touch.led ||| Touch.retireQ ||| Touch.resets |||
    Touch.mapLag ||| Touch.reports ||| Touch.drains ||| Touch.heldOut ||| Touch.hostLines |||
    Touch.hostResv ||| Touch.imsic) s (execComputeDieReset r k s):= by
  unfold execComputeDieReset
  repeat'
    first
      | with_reducible apply Answers.next
      | with_reducible exact Touches.refl _ _
      | decide
      | with_reducible apply Touches.after (State.requestReset_touches ..)

theorem State.ackLost_touches (s : State) (i : Nat) :
    Touches (Touch.regs) s (State.ackLost s i) := by
  unfold State.ackLost
  repeat'
    first
      | with_reducible exact Touches.refl _ _
      | decide
      | (extract_lets +onlyGivenNames nx; subst nx)
      | with_reducible apply Touches.after (State.setF_touches ..)

theorem execGwAckLost_touches (r : Requester) (site : Site) (s : State) :
    Answers (Touch.regs) s (execGwAckLost r site s) := by
  unfold execGwAckLost
  repeat'
    first
      | with_reducible apply Answers.next
      | with_reducible exact Touches.refl _ _
      | decide
      | split
      | with_reducible apply Touches.after (State.ackLost_touches ..)
      | with_reducible apply Touches.after (State.unmapped_touches ..)

theorem execMcSilenceReset_touches (site : Site) (s : State) :
    Answers (Touch.out ||| Touch.regs ||| Touch.mem ||| Touch.grn ||| Touch.wear ||| Touch.log |||
    Touch.logBase ||| Touch.cores ||| Touch.bells ||| Touch.node ||| Touch.tithes ||| Touch.gws |||
    Touch.cfg ||| Touch.regions ||| Touch.tracePos ||| Touch.stackMem ||| Touch.bridgeMem |||
    Touch.invPend ||| Touch.nextId ||| Touch.jobs ||| Touch.xfers ||| Touch.redSteps ||| Touch.runs
    ||| Touch.redBytes ||| Touch.seqs ||| Touch.rings ||| Touch.links ||| Touch.ingress |||
    Touch.egress ||| Touch.qpErr ||| Touch.sas ||| Touch.led ||| Touch.retireQ ||| Touch.resets |||
    Touch.mapLag ||| Touch.reports ||| Touch.drains ||| Touch.heldOut ||| Touch.hostLines |||
    Touch.hostResv ||| Touch.imsic) s (execMcSilenceReset site s):= by
  unfold execMcSilenceReset
  repeat'
    first
      | with_reducible apply Answers.next
      | with_reducible exact Touches.refl _ _
      | decide
      | (extract_lets +onlyGivenNames nx; subst nx)
      | split
      | with_reducible apply Touches.after (State.resetSite_touches ..)

theorem State.dropStripes_touches (s : State) (i : Nat) : Touches (Touch.out ||| Touch.regs |||
    Touch.mem ||| Touch.wear ||| Touch.log ||| Touch.logBase ||| Touch.cores ||| Touch.bells |||
    Touch.node ||| Touch.tithes ||| Touch.gws ||| Touch.cfg ||| Touch.tracePos ||| Touch.stackMem
    ||| Touch.bridgeMem ||| Touch.invPend ||| Touch.nextId ||| Touch.jobs ||| Touch.xfers |||
    Touch.runs ||| Touch.seqs ||| Touch.rings ||| Touch.outs ||| Touch.brackets ||| Touch.egress |||
    Touch.sas ||| Touch.led ||| Touch.retireQ ||| Touch.mapLag ||| Touch.reports ||| Touch.markers
    ||| Touch.heldOut ||| Touch.hostLines ||| Touch.hostResv) s
    (State.dropStripes s i):= by
  unfold State.dropStripes
  repeat'
    first
      | with_reducible exact Touches.refl _ _
      | decide
      | (extract_lets +onlyGivenNames nx; have : True := (fun (_ : _ → _ → _ → State) => trivial) nx; subst nx; clear this)
      | split
      | with_reducible apply Touches.after (State.setOut_touches ..)
      | with_reducible apply Touches.after (State.dropBracket_touches ..)
      | with_reducible apply Touches.after (State.setReg_touches ..)
      | with_reducible apply Touches.after (State.setF_touches ..)
      | with_reducible refine Touches.foldl ?_ fun _ _ => ?_
      | with_reducible apply Touches.after (State.cutBracket_touches ..)
      | dsimp only
      | with_reducible apply Touches.set_markers

theorem State.fieldDark_touches (s : State) (n : Nat) : Touches (Touch.out ||| Touch.regs |||
    Touch.mem ||| Touch.wear ||| Touch.log ||| Touch.logBase ||| Touch.cores ||| Touch.bells |||
    Touch.node ||| Touch.tithes ||| Touch.gws ||| Touch.cfg ||| Touch.tracePos ||| Touch.stackMem
    ||| Touch.bridgeMem ||| Touch.invPend ||| Touch.nextId ||| Touch.jobs ||| Touch.xfers |||
    Touch.runs ||| Touch.seqs ||| Touch.rings ||| Touch.outs ||| Touch.brackets ||| Touch.egress |||
    Touch.sas ||| Touch.led ||| Touch.retireQ ||| Touch.lit ||| Touch.rcal ||| Touch.mapLag |||
    Touch.reports ||| Touch.markers ||| Touch.heldOut ||| Touch.hostLines ||| Touch.hostResv) s
    (State.fieldDark s n):= by
  unfold State.fieldDark
  repeat'
    first
      | with_reducible exact Touches.refl _ _
      | with_reducible assumption
      | decide
      | split
      | (extract_lets +onlyGivenNames nx; with_reducible refine Touches.cut (t := nx) ?_ ?_; subst nx; rotate_left; revert nx; intro _ _; rotate_right)
      | with_reducible apply Touches.after (State.dropStripes_touches ..)
      | with_reducible refine Touches.foldl ?_ fun _ _ => ?_
      | dsimp only
      | with_reducible apply Touches.set_brackets_lit_rcal
theorem State.resetField_touches (s : State) (n : Nat) : Touches (Touch.out ||| Touch.regs |||
    Touch.mem ||| Touch.wear ||| Touch.log ||| Touch.logBase ||| Touch.cores ||| Touch.bells |||
    Touch.node ||| Touch.tithes ||| Touch.gws ||| Touch.cfg ||| Touch.tracePos ||| Touch.stackMem
    ||| Touch.bridgeMem ||| Touch.invPend ||| Touch.nextId ||| Touch.jobs ||| Touch.xfers |||
    Touch.runs ||| Touch.seqs ||| Touch.rings ||| Touch.outs ||| Touch.brackets ||| Touch.egress |||
    Touch.sas ||| Touch.led ||| Touch.retireQ ||| Touch.lit ||| Touch.rcal ||| Touch.fieldAt |||
    Touch.mapLag ||| Touch.reports ||| Touch.markers ||| Touch.heldOut ||| Touch.hostLines |||
    Touch.hostResv) s
    (State.resetField s n):= by
  unfold State.resetField
  repeat'
    first
      | with_reducible exact Touches.refl _ _
      | with_reducible assumption
      | decide
      | (extract_lets +onlyGivenNames nx; with_reducible refine Touches.cut (t := nx) ?_ ?_; subst nx; rotate_left; revert nx; intro _ _; rotate_right)
      | split
      | with_reducible apply Touches.after (State.setF_touches ..)
      | with_reducible apply Touches.after (State.fieldDark_touches ..)
      | with_reducible apply Touches.after (State.selfFence_touches ..)
      | with_reducible apply Touches.after (State.raise_touches ..)
      | with_reducible apply Touches.after (State.fenceAll_touches ..)
      | with_reducible refine Touches.foldl ?_ fun _ _ => ?_
      | with_reducible apply Touches.set_fieldAt

theorem State.releaseField_touches (s : State) (n : Nat) : Touches (Touch.regs ||| Touch.resets |||
    Touch.fieldAt) s (State.releaseField s n):= by
  unfold State.releaseField
  repeat'
    first
      | with_reducible exact Touches.refl _ _
      | with_reducible assumption
      | decide
      | (extract_lets +onlyGivenNames nx; with_reducible refine Touches.cut (t := nx) ?_ ?_; subst nx; rotate_left; revert nx; intro _ _; rotate_right)
      | split
      | with_reducible apply Touches.after (State.setF_touches ..)
      | with_reducible apply Touches.set_resets
      | dsimp only
      | with_reducible apply Touches.set_fieldAt
theorem execFieldReset_touches (r : Requester) (field : Field) (s : State) :
    Answers (Touch.out ||| Touch.regs ||| Touch.mem ||| Touch.wear ||| Touch.log ||| Touch.logBase
    ||| Touch.cores ||| Touch.bells ||| Touch.node ||| Touch.tithes ||| Touch.gws ||| Touch.cfg |||
    Touch.tracePos ||| Touch.stackMem ||| Touch.bridgeMem ||| Touch.invPend ||| Touch.nextId |||
    Touch.jobs ||| Touch.xfers ||| Touch.runs ||| Touch.seqs ||| Touch.rings ||| Touch.outs |||
    Touch.brackets ||| Touch.egress ||| Touch.sas ||| Touch.led ||| Touch.retireQ ||| Touch.lit |||
    Touch.rcal ||| Touch.fieldAt ||| Touch.mapLag ||| Touch.reports ||| Touch.markers |||
    Touch.heldOut ||| Touch.hostLines ||| Touch.hostResv) s (execFieldReset r
    field s):= by
  unfold execFieldReset
  repeat'
    first
      | with_reducible apply Answers.next
      | with_reducible exact Touches.refl _ _
      | decide
      | split
      | with_reducible apply Touches.after (State.resetField_touches ..)

theorem execHeaterHoldExpiry_touches (field : Field) (s : State) :
    Answers (Touch.regs) s (execHeaterHoldExpiry field s) := by
  unfold execHeaterHoldExpiry
  repeat'
    first
      | with_reducible apply Answers.next
      | with_reducible exact Touches.refl _ _
      | decide
      | split
      | with_reducible apply Touches.after (State.setF_touches ..)

theorem execFieldRelease_touches (r : Requester) (field : Field) (s : State) :
    Answers (Touch.regs ||| Touch.resets ||| Touch.fieldAt) s (execFieldRelease r field s) := by
  unfold execFieldRelease
  repeat'
    first
      | with_reducible apply Answers.next
      | with_reducible exact Touches.refl _ _
      | decide
      | split
      | with_reducible apply Touches.after (State.releaseField_touches ..)

theorem State.gatewayBack_touches (s : State) (i : Nat) :
    Touches (Touch.out ||| Touch.regs ||| Touch.grn ||| Touch.log ||| Touch.logBase ||| Touch.bells |||
      Touch.node ||| Touch.gws ||| Touch.outs ||| Touch.mapLag ||| Touch.reports ||| Touch.markers |||
      Touch.draws) s (State.gatewayBack s i) := by
  unfold State.gatewayBack
  repeat'
    first
      | with_reducible exact Touches.refl _ _
      | with_reducible assumption
      | decide
      | (extract_lets +onlyGivenNames x; with_reducible refine Touches.cut (t := x) ?_ ?_; subst x; rotate_left; clear_value x; revert x; intro _ _; rotate_right)
      | (extract_lets +onlyGivenNames x; clear_value x; revert x; intro _)
      | split
      | with_reducible apply Touches.after (State.freshHop_touches ..)
      | with_reducible apply Touches.after (State.pairUp_touches ..)
      | with_reducible apply Touches.after (State.setF_touches ..)
      | with_reducible apply Touches.after (State.setGw_touches ..)
      | with_reducible refine Touches.foldl ?_ fun _ _ => ?_

theorem State.fieldBack_touches (s : State) (n : Nat) :
    Touches (Touch.regs) s (State.fieldBack s n) := by
  unfold State.fieldBack
  repeat'
    first
      | with_reducible exact Touches.refl _ _
      | with_reducible assumption
      | decide
      | split
      | with_reducible apply Touches.after (State.setF_touches ..)

theorem State.readmit_touches (s : State) (i : Nat) :
    Touches (Touch.free ||| Touch.out ||| Touch.regs ||| Touch.grn ||| Touch.log ||| Touch.logBase |||
      Touch.bells ||| Touch.node ||| Touch.gws ||| Touch.regions ||| Touch.outs ||| Touch.xings |||
      Touch.lit ||| Touch.mapLag ||| Touch.reports ||| Touch.markers ||| Touch.draws) s (State.readmit
      s i) := by
  unfold State.readmit
  repeat'
    first
      | with_reducible exact Touches.refl _ _
      | with_reducible assumption
      | decide
      | (extract_lets +onlyGivenNames x; with_reducible refine Touches.cut (t := x) ?_ ?_; subst x; rotate_left; clear_value x; revert x; intro _ _; rotate_right)
      | (extract_lets +onlyGivenNames x; clear_value x; revert x; intro _)
      | split
      | with_reducible apply Touches.after (State.calibrateXings_touches ..)
      | with_reducible apply Touches.after (State.fieldBack_touches ..)
      | with_reducible apply Touches.after (State.gatewayBack_touches ..)
      | with_reducible apply Touches.after (State.setF_touches ..)
      | with_reducible apply Touches.after (State.siteLanesUp_touches ..)
      | with_reducible apply Touches.after (State.startRegion_touches ..)
      | with_reducible refine Touches.foldl ?_ fun _ _ => ?_
      | dsimp only
      | with_reducible apply Touches.set_lit

theorem State.guestOut_touches (s : State) (i : Nat) : Touches (Touch.out ||| Touch.regs |||
    Touch.mem ||| Touch.wear ||| Touch.log ||| Touch.logBase ||| Touch.cores ||| Touch.bells |||
    Touch.node ||| Touch.tithes ||| Touch.gws ||| Touch.cfg ||| Touch.tracePos ||| Touch.stackMem
    ||| Touch.bridgeMem ||| Touch.invPend ||| Touch.nextId ||| Touch.jobs ||| Touch.xfers |||
    Touch.runs ||| Touch.seqs ||| Touch.rings ||| Touch.outs ||| Touch.brackets ||| Touch.egress |||
    Touch.sas ||| Touch.led ||| Touch.retireQ ||| Touch.lit ||| Touch.rcal ||| Touch.mapLag |||
    Touch.reports ||| Touch.markers ||| Touch.heldOut ||| Touch.hostLines ||| Touch.hostResv)
      s (State.guestOut s i) := by
  unfold State.guestOut
  repeat'
    first
      | with_reducible exact Touches.refl _ _
      | with_reducible assumption
      | decide
      | (extract_lets +onlyGivenNames x; with_reducible refine Touches.cut (t := x) ?_ ?_; subst x; rotate_left; clear_value x; revert x; intro _ _; rotate_right)
      | (extract_lets +onlyGivenNames x; clear_value x; revert x; intro _)
      | split
      | with_reducible apply Touches.after (State.dropStripes_touches ..)
      | with_reducible apply Touches.after (State.setF_touches ..)
      | dsimp only
      | with_reducible apply Touches.set_lit_rcal

theorem execReadmission_touches (site : Site) (fail : Fin 6) (s : State) :
    Answers (Touch.free ||| Touch.out ||| Touch.regs ||| Touch.mem ||| Touch.grn ||| Touch.wear |||
    Touch.log ||| Touch.logBase ||| Touch.cores ||| Touch.bells ||| Touch.node ||| Touch.tithes |||
    Touch.gws ||| Touch.cfg ||| Touch.regions ||| Touch.tracePos ||| Touch.stackMem |||
    Touch.bridgeMem ||| Touch.invPend ||| Touch.nextId ||| Touch.jobs ||| Touch.xfers ||| Touch.runs
    ||| Touch.seqs ||| Touch.rings ||| Touch.outs ||| Touch.brackets ||| Touch.egress ||| Touch.sas
    ||| Touch.led ||| Touch.xings ||| Touch.retireQ ||| Touch.lit ||| Touch.rcal ||| Touch.mapLag
    ||| Touch.reports ||| Touch.markers ||| Touch.draws ||| Touch.heldOut ||| Touch.hostLines |||
    Touch.hostResv) s
      (execReadmission site fail s) := by
  unfold execReadmission
  repeat'
    first
      | with_reducible apply Answers.next
      | with_reducible exact Touches.refl _ _
      | with_reducible assumption
      | decide
      | (extract_lets +onlyGivenNames x; with_reducible refine Answers.cut (t := x) ?_ ?_; subst x; rotate_left; clear_value x; revert x; intro _ _; rotate_right)
      | (extract_lets +onlyGivenNames x; clear_value x; revert x; intro _)
      | split
      | with_reducible apply Touches.after (State.fieldBack_touches ..)
      | with_reducible apply Touches.after (State.guestOut_touches ..)
      | with_reducible apply Touches.after (State.readmit_touches ..)
      | with_reducible apply Touches.after (State.setF_touches ..)

theorem execReadmissionTimeout_touches (site : Site) (s : State) :
    Answers (Touch.out ||| Touch.regs ||| Touch.mem ||| Touch.grn ||| Touch.wear ||| Touch.log |||
    Touch.logBase ||| Touch.cores ||| Touch.bells ||| Touch.node ||| Touch.tithes ||| Touch.gws |||
    Touch.cfg ||| Touch.tracePos ||| Touch.stackMem ||| Touch.bridgeMem ||| Touch.invPend |||
    Touch.nextId ||| Touch.jobs ||| Touch.xfers ||| Touch.runs ||| Touch.seqs ||| Touch.rings |||
    Touch.egress ||| Touch.sas ||| Touch.led ||| Touch.retireQ ||| Touch.mapLag ||| Touch.reports
    ||| Touch.heldOut ||| Touch.hostLines ||| Touch.hostResv) s (execReadmissionTimeout
    site s):= by
  unfold execReadmissionTimeout
  repeat'
    first
      | with_reducible apply Answers.next
      | with_reducible exact Touches.refl _ _
      | with_reducible assumption
      | decide
      | (extract_lets +onlyGivenNames x; with_reducible refine Answers.cut (t := x) ?_ ?_; subst x; rotate_left; clear_value x; revert x; intro _ _; rotate_right)
      | (extract_lets +onlyGivenNames x; clear_value x; revert x; intro _)
      | split
      | with_reducible apply Touches.after (State.fieldBack_touches ..)
      | with_reducible apply Touches.after (State.retireSite_touches ..)
      | with_reducible apply Touches.after (State.setF_touches ..)

theorem State.drainStep_touches (s : State) (d : Nat × Nat × Bool) : Touches (Touch.out |||
    Touch.regs ||| Touch.mem ||| Touch.grn ||| Touch.wear ||| Touch.log ||| Touch.logBase |||
    Touch.cores ||| Touch.bells ||| Touch.node ||| Touch.tithes ||| Touch.gws ||| Touch.cfg |||
    Touch.regions ||| Touch.tracePos ||| Touch.stackMem ||| Touch.bridgeMem ||| Touch.invPend |||
    Touch.nextId ||| Touch.jobs ||| Touch.xfers ||| Touch.redSteps ||| Touch.runs ||| Touch.redBytes
    ||| Touch.seqs ||| Touch.rings ||| Touch.links ||| Touch.ingress ||| Touch.egress |||
    Touch.qpErr ||| Touch.sas ||| Touch.led ||| Touch.retireQ ||| Touch.resets ||| Touch.mapLag |||
    Touch.reports ||| Touch.drains ||| Touch.heldOut ||| Touch.hostLines ||| Touch.hostResv |||
    Touch.imsic) s (State.drainStep s d):= by
  unfold State.drainStep
  repeat'
    first
      | with_reducible exact Touches.refl _ _
      | with_reducible assumption
      | decide
      | split
      | with_reducible apply Touches.after (State.failTags_touches ..)
      | with_reducible apply Touches.after (State.resetSite_touches ..)
      | dsimp only
      | with_reducible apply Touches.set_drains

theorem State.resetTick_touches (s : State) : Touches (Touch.out ||| Touch.regs ||| Touch.mem |||
    Touch.grn ||| Touch.wear ||| Touch.log ||| Touch.logBase ||| Touch.cores ||| Touch.bells |||
    Touch.node ||| Touch.tithes ||| Touch.gws ||| Touch.cfg ||| Touch.regions ||| Touch.tracePos |||
    Touch.stackMem ||| Touch.bridgeMem ||| Touch.invPend ||| Touch.nextId ||| Touch.jobs |||
    Touch.xfers ||| Touch.redSteps ||| Touch.runs ||| Touch.redBytes ||| Touch.seqs ||| Touch.rings
    ||| Touch.links ||| Touch.ingress ||| Touch.egress ||| Touch.qpErr ||| Touch.sas ||| Touch.led
    ||| Touch.retireQ ||| Touch.resets ||| Touch.mapLag ||| Touch.reports ||| Touch.drains |||
    Touch.heldOut ||| Touch.hostLines ||| Touch.hostResv ||| Touch.imsic) s (State.resetTick s):= by
  unfold State.resetTick
  repeat'
    first
      | with_reducible exact Touches.refl _ _
      | with_reducible assumption
      | decide
      | (extract_lets +onlyGivenNames x; with_reducible refine Touches.cut (t := x) ?_ ?_; subst x; rotate_left; clear_value x; revert x; intro _ _; rotate_right)
      | (extract_lets +onlyGivenNames x; clear_value x; revert x; intro _)
      | split
      | with_reducible apply Touches.after (State.drainStep_touches ..)
      | with_reducible apply Touches.after (State.setF_touches ..)
      | with_reducible refine Touches.foldl ?_ fun _ _ => ?_

end Sys2Proof.Machine
end

