-- ==== Sys2Proof/Laws/Granary.lean ====
section
/-!
SUPPORT. What the operations of Machine/Granary.lean may touch.
-/

namespace Sys2Proof.Machine

theorem State.retireCore_touches (s : State) (k : Nat) (c : Nat) :
    Touches (Touch.out ||| Touch.regs ||| Touch.log ||| Touch.logBase ||| Touch.bells ||| Touch.node |||
    Touch.rolePend ||| Touch.reports) s (State.retireCore s k c) := by
  unfold State.retireCore
  repeat'
    first
      | with_reducible exact Touches.refl _ _
      | with_reducible assumption
      | decide
      | (extract_lets +onlyGivenNames nx; with_reducible refine Touches.cut (t := nx) ?_ ?_; subst nx; rotate_left; revert nx; intro _ _; rotate_right)
      | (extract_lets +onlyGivenNames nx; subst nx)
      | split
      | with_reducible apply Touches.after (State.raise_touches ..)
      | with_reducible apply Touches.after (State.putRole_touches ..)
      | with_reducible apply Touches.after (State.granaryEmpty_touches ..)

theorem State.retireWaiting_touches (s : State) :
    Touches (Touch.out ||| Touch.regs ||| Touch.log ||| Touch.logBase ||| Touch.bells ||| Touch.node |||
    Touch.retireQ ||| Touch.rolePend ||| Touch.reports) s (State.retireWaiting s) := by
  unfold State.retireWaiting
  repeat'
    first
      | with_reducible exact Touches.refl _ _
      | decide
      | with_reducible apply Touches.after (State.retireCore_touches ..)
      | with_reducible refine Touches.foldl ?_ fun _ _ => ?_
      | with_reducible apply Touches.set_retireQ

theorem State.retireFaulty_touches (s : State) (bell : Nat) :
    Touches (Touch.retireQ) s (State.retireFaulty s bell) := by
  unfold State.retireFaulty
  repeat'
    first
      | with_reducible exact Touches.refl _ _
      | decide
      | (extract_lets +onlyGivenNames nx; subst nx)
      | dsimp only
      | with_reducible apply Touches.set_retireQ

theorem State.countRoles_touches (s : State) :
    Touches (Touch.regs) s (State.countRoles s) := by
  unfold State.countRoles
  repeat'
    first
      | with_reducible exact Touches.refl _ _
      | with_reducible assumption
      | decide
      | (extract_lets +onlyGivenNames nx; with_reducible refine Touches.cut (t := nx) ?_ ?_; subst nx; rotate_left; revert nx; intro _ _; rotate_right)
      | (extract_lets +onlyGivenNames nx; subst nx)
      | with_reducible apply Touches.after (State.setF_touches ..)

theorem State.applyRoles_touches (s : State) :
    Touches (Touch.regs ||| Touch.mem ||| Touch.grn ||| Touch.cores ||| Touch.mapLag ||| Touch.rolePend) s (State.applyRoles s) := by
  unfold State.applyRoles
  repeat'
    first
      | with_reducible exact Touches.refl _ _
      | with_reducible assumption
      | decide
      | (extract_lets +onlyGivenNames nx; with_reducible refine Touches.cut (t := nx) ?_ ?_; subst nx; rotate_left; revert nx; intro _ _; rotate_right)
      | (extract_lets +onlyGivenNames nx; subst nx)
      | split
      | with_reducible apply Touches.after (State.grnPut_touches ..)
      | with_reducible apply Touches.after (State.zeroMem_touches ..)
      | with_reducible apply Touches.after (State.setCore_touches ..)
      | with_reducible apply Touches.after (State.setF_touches ..)
      | with_reducible apply Touches.after (State.countRoles_touches ..)
      | with_reducible refine Touches.foldl ?_ fun _ _ => ?_
      | with_reducible apply Touches.set_rolePend

theorem execRetireCore_touches (r : Requester) (s : State) :
    Answers (Touch.out ||| Touch.regs ||| Touch.log ||| Touch.logBase ||| Touch.bells ||| Touch.node |||
    Touch.retireQ ||| Touch.rolePend ||| Touch.reports) s (execRetireCore r s) := by
  unfold execRetireCore
  repeat'
    first
      | with_reducible apply Answers.next
      | with_reducible exact Touches.refl _ _
      | decide
      | (extract_lets +onlyGivenNames nx; subst nx)
      | split
      | with_reducible apply Touches.after (State.retireCore_touches ..)
      | with_reducible apply Touches.set_retireQ

theorem execDrawHost_touches (r : Requester) (s : State) :
    Answers (Touch.out ||| Touch.regs ||| Touch.log ||| Touch.logBase ||| Touch.bells ||| Touch.node |||
    Touch.hostTake ||| Touch.rolePend ||| Touch.reports) s (execDrawHost r s) := by
  unfold execDrawHost
  repeat'
    first
      | with_reducible apply Answers.next
      | with_reducible exact Touches.refl _ _
      | decide
      | (extract_lets +onlyGivenNames nx; subst nx)
      | split
      | with_reducible apply Touches.after (State.drawHost_touches ..)

theorem State.bondFails_touches (s : State) (k : Nat) (u : Nat) (col : Nat) (sig : Nat) : Touches
    (Touch.out ||| Touch.regs ||| Touch.mem ||| Touch.grn ||| Touch.wear ||| Touch.log |||
    Touch.logBase ||| Touch.cores ||| Touch.bells ||| Touch.node ||| Touch.tithes ||| Touch.gws |||
    Touch.cfg ||| Touch.tracePos ||| Touch.stackMem ||| Touch.bridgeMem ||| Touch.invPend |||
    Touch.nextId ||| Touch.jobs ||| Touch.xfers ||| Touch.runs ||| Touch.seqs ||| Touch.rings |||
    Touch.egress ||| Touch.sas ||| Touch.led ||| Touch.retireQ ||| Touch.mapLag ||| Touch.bondHalf
    ||| Touch.reports ||| Touch.heldOut ||| Touch.hostLines ||| Touch.hostResv) s
    (State.bondFails s k u col sig):= by
  unfold State.bondFails
  repeat'
    first
      | with_reducible exact Touches.refl _ _
      | with_reducible assumption
      | decide
      | (extract_lets +onlyGivenNames nx; with_reducible refine Touches.cut (t := nx) ?_ ?_; subst nx; rotate_left; revert nx; intro _ _; rotate_right)
      | (extract_lets +onlyGivenNames nx; subst nx)
      | split
      | with_reducible apply Touches.after (State.retireSite_touches ..)
      | with_reducible apply Touches.after (State.granaryEmpty_touches ..)
      | with_reducible apply Touches.after (State.raise_touches ..)
      | with_reducible apply Touches.after (State.grnPut_touches ..)
      | with_reducible apply Touches.set_bondHalf

theorem execBondPatternTest_touches (k : Stack) (u : Fin 80) (col : Fin 36) (bad : Option (Fin 64)) (s : State) :
    Answers (Touch.out ||| Touch.regs ||| Touch.mem ||| Touch.grn ||| Touch.wear ||| Touch.log |||
    Touch.logBase ||| Touch.cores ||| Touch.bells ||| Touch.node ||| Touch.tithes ||| Touch.gws |||
    Touch.cfg ||| Touch.tracePos ||| Touch.stackMem ||| Touch.bridgeMem ||| Touch.invPend |||
    Touch.nextId ||| Touch.jobs ||| Touch.xfers ||| Touch.runs ||| Touch.seqs ||| Touch.rings |||
    Touch.egress ||| Touch.sas ||| Touch.led ||| Touch.retireQ ||| Touch.mapLag ||| Touch.bondHalf
    ||| Touch.reports ||| Touch.heldOut ||| Touch.hostLines ||| Touch.hostResv) s
    (execBondPatternTest k u col bad s):= by
  unfold execBondPatternTest
  repeat'
    first
      | with_reducible apply Answers.next
      | with_reducible exact Touches.refl _ _
      | decide
      | (extract_lets +onlyGivenNames nx; subst nx)
      | split
      | with_reducible apply Touches.after (State.bondFails_touches ..)

theorem execTripleDisagree_touches (site : Site) (signal : BitVec 16) (copy : Fin 3) (base : Bool) (s : State) :
    Answers (Touch.out ||| Touch.regs ||| Touch.mem ||| Touch.grn ||| Touch.wear ||| Touch.log |||
    Touch.logBase ||| Touch.cores ||| Touch.bells ||| Touch.node ||| Touch.tithes ||| Touch.gws |||
    Touch.cfg ||| Touch.tracePos ||| Touch.stackMem ||| Touch.bridgeMem ||| Touch.invPend |||
    Touch.nextId ||| Touch.jobs ||| Touch.xfers ||| Touch.runs ||| Touch.seqs ||| Touch.rings |||
    Touch.egress ||| Touch.sas ||| Touch.led ||| Touch.retireQ ||| Touch.mapLag ||| Touch.reports
    ||| Touch.heldOut ||| Touch.hostLines ||| Touch.hostResv) s (execTripleDisagree site
    signal copy base s):= by
  unfold execTripleDisagree
  repeat'
    first
      | with_reducible apply Answers.next
      | with_reducible exact Touches.refl _ _
      | with_reducible assumption
      | decide
      | (extract_lets +onlyGivenNames nx; with_reducible refine Answers.cut (t := nx) ?_ ?_; subst nx; rotate_left; revert nx; intro _ _; rotate_right)
      | (extract_lets +onlyGivenNames nx; subst nx)
      | split
      | with_reducible apply Touches.after (State.fenceAll_touches ..)
      | with_reducible apply Touches.after (State.raise_touches ..)
      | with_reducible apply Touches.after (State.retireSite_touches ..)
      | with_reducible apply Touches.after (State.granaryEmpty_touches ..)
      | with_reducible apply Touches.after (State.grnPut_touches ..)

theorem execMapWrite_touches (s : State) :
    Answers (Touch.regs ||| Touch.mapLag) s (execMapWrite s) := by
  unfold execMapWrite
  repeat'
    first
      | with_reducible apply Answers.next
      | with_reducible exact Touches.refl _ _
      | decide
      | split
      | with_reducible apply Touches.after (State.setF_touches ..)
      | with_reducible apply Touches.after (State.setReg_touches ..)
      | with_reducible apply Touches.set_mapLag

end Sys2Proof.Machine
end

