-- ==== Sys2Proof/Laws/Security.lean ====
section
/-!
SUPPORT. What the operations of Machine/Security.lean may touch.
-/

namespace Sys2Proof.Machine

theorem State.sign_touches {s : State} {bs : List Byte} {q : List Byte} {t : State} (h : s.sign bs = some (q, t)) :
    Touches (Touch.lms) s t := by
  unfold State.sign at h
  split at h
  · cases h
  · cases h
    exact Touches.set_lms (Touches.refl _ _) (by decide)

theorem execLowerTreeGenerated_touches (s : State) :
    Answers (Touch.lms) s (execLowerTreeGenerated s) := by
  unfold execLowerTreeGenerated
  repeat'
    first
      | with_reducible apply Answers.next
      | with_reducible exact Touches.refl _ _
      | decide
      | (extract_lets +onlyGivenNames nx; subst nx)
      | split
      | with_reducible apply Touches.set_lms

theorem State.changeKey_touches (s : State) (addr : BitVec 48) :
    Touches (Touch.regs ||| Touch.opkey ||| Touch.opkeySeq) s (State.changeKey s addr) := by
  unfold State.changeKey
  repeat'
    first
      | with_reducible exact Touches.refl _ _
      | with_reducible assumption
      | decide
      | (extract_lets +onlyGivenNames nx; with_reducible refine Touches.cut (t := nx) ?_ ?_; subst nx; rotate_left; revert nx; intro _ _; rotate_right)
      | split
      | with_reducible apply Touches.after (State.setF_touches ..)
      | with_reducible apply Touches.set_opkey_opkeySeq

theorem execOpkeyChange_touches (r : Requester) (addr : BitVec 48) (s : State) :
    Answers (Touch.regs ||| Touch.opkey ||| Touch.opkeySeq) s (execOpkeyChange r addr s) := by
  unfold execOpkeyChange
  repeat'
    first
      | with_reducible apply Answers.next
      | with_reducible exact Touches.refl _ _
      | decide
      | split
      | with_reducible apply Touches.after (State.changeKey_touches ..)

theorem State.attestRefused_touches (s : State) (reason : Nat) :
    Touches (Touch.regs) s (State.attestRefused s reason) := by
  unfold State.attestRefused
  repeat'
    first
      | with_reducible exact Touches.refl _ _
      | with_reducible assumption
      | decide
      | split
      | with_reducible apply Touches.after (State.setF_touches ..)

theorem State.attestFenced_touches (s : State) :
    Touches (Touch.out ||| Touch.regs ||| Touch.log ||| Touch.logBase ||| Touch.bells ||| Touch.node |||
      Touch.reports) s (State.attestFenced s) := by
  unfold State.attestFenced
  repeat'
    first
      | with_reducible exact Touches.refl _ _
      | with_reducible assumption
      | decide
      | split
      | with_reducible apply Touches.after (State.attestRefused_touches ..)
      | with_reducible apply Touches.after (State.raiseStatus_touches ..)

theorem State.attestWrite_touches (s : State) (q : AttestReq) (sig : List Byte) :
    Touches (Touch.out ||| Touch.regs ||| Touch.mem ||| Touch.log ||| Touch.logBase ||| Touch.cores |||
      Touch.bells ||| Touch.node ||| Touch.stackMem ||| Touch.bridgeMem ||| Touch.reports) s
      (State.attestWrite s q sig) := by
  unfold State.attestWrite
  repeat'
    first
      | with_reducible exact Touches.refl _ _
      | with_reducible assumption
      | decide
      | (extract_lets +onlyGivenNames x; with_reducible refine Touches.cut (t := x) ?_ ?_; subst x; rotate_left; clear_value x; revert x; intro _ _; rotate_right)
      | (extract_lets +onlyGivenNames x; clear_value x; revert x; intro _)
      | split
      | with_reducible apply Touches.after (State.attestFenced_touches ..)
      | with_reducible apply Touches.after (State.setF_touches ..)
      | with_reducible apply Touches.after (State.storeRun_touches ..)

theorem execSecAttest_touches (h : Host64) (ctx : BitVec 8) (addr : BitVec 48) (s : State) :
    Answers (Touch.out ||| Touch.regs ||| Touch.log ||| Touch.logBase ||| Touch.bells ||| Touch.node |||
      Touch.attest ||| Touch.reports) s (execSecAttest h ctx addr s) := by
  unfold execSecAttest
  repeat'
    first
      | with_reducible apply Answers.next
      | with_reducible exact Touches.refl _ _
      | with_reducible assumption
      | decide
      | (extract_lets +onlyGivenNames x; with_reducible refine Answers.cut (t := x) ?_ ?_; subst x; rotate_left; clear_value x; revert x; intro _ _; rotate_right)
      | (extract_lets +onlyGivenNames x; clear_value x; revert x; intro _)
      | split
      | with_reducible apply Touches.after (State.attestFenced_touches ..)
      | with_reducible apply Touches.after (State.attestRefused_touches ..)
      | with_reducible apply Touches.after (State.setF_touches ..)
      | dsimp only
      | with_reducible apply Touches.set_attest

theorem execAttestDone_touches (s : State) :
    Answers (Touch.out ||| Touch.regs ||| Touch.mem ||| Touch.log ||| Touch.logBase ||| Touch.cores |||
      Touch.bells ||| Touch.node ||| Touch.stackMem ||| Touch.bridgeMem ||| Touch.lms ||| Touch.attest
      ||| Touch.reports) s (execAttestDone s) := by
  unfold execAttestDone
  repeat'
    first
      | with_reducible apply Answers.next
      | with_reducible exact Touches.refl _ _
      | with_reducible assumption
      | decide
      | split
      | with_reducible apply Touches.after (State.attestRefused_touches ..)
      | with_reducible apply Touches.after (State.attestWrite_touches ..)
      | with_reducible refine Touches.after (State.sign_touches ‹State.sign _ _ = some _›) ?_ ?_
      | dsimp only
      | with_reducible apply Touches.set_attest

end Sys2Proof.Machine
end

