-- ==== Sys2Proof/Laws/Power.lean ====
section
/-!
SUPPORT. What the operations of Machine/Power.lean may touch.
-/

namespace Sys2Proof.Machine

theorem State.setPwrState_touches (s : State) (n : Nat) :
    Touches (Touch.regs) s (State.setPwrState s n) := by
  unfold State.setPwrState
  repeat'
    first
      | with_reducible exact Touches.refl _ _
      | decide
      | with_reducible apply Touches.after (State.setF_touches ..)

theorem State.forecastBell_touches (s : State) (now : Nat → Nat) (next : Nat → Nat) :
    Touches (Touch.out ||| Touch.regs ||| Touch.log ||| Touch.logBase ||| Touch.bells ||| Touch.node |||
    Touch.reports) s (State.forecastBell s now next) := by
  unfold State.forecastBell
  repeat'
    first
      | with_reducible exact Touches.refl _ _
      | with_reducible assumption
      | decide
      | (extract_lets +onlyGivenNames nx; with_reducible refine Touches.cut (t := nx) ?_ ?_; subst nx; rotate_left; revert nx; intro _ _; rotate_right)
      | (extract_lets +onlyGivenNames nx; subst nx)
      | split
      | with_reducible apply Touches.after (State.setF_touches ..)
      | with_reducible apply Touches.after (State.raise_touches ..)

theorem State.showFast_touches (s : State) (loc : Nat) :
    Touches (Touch.regs) s (State.showFast s loc) := by
  unfold State.showFast
  repeat'
    first
      | with_reducible exact Touches.refl _ _
      | with_reducible assumption
      | decide
      | (extract_lets +onlyGivenNames nx; with_reducible refine Touches.cut (t := nx) ?_ ?_; subst nx; rotate_left; revert nx; intro _ _; rotate_right)
      | (extract_lets +onlyGivenNames nx; subst nx)
      | with_reducible apply Touches.after (State.setF_touches ..)
      | with_reducible refine Touches.foldl ?_ fun _ _ => ?_

theorem State.classRises_touches (s : State) (now : Nat → Nat) (k : Nat) :
    Touches (Touch.regs ||| Touch.jumpAt) s (State.classRises s now k) := by
  unfold State.classRises
  repeat'
    first
      | with_reducible exact Touches.refl _ _
      | with_reducible assumption
      | decide
      | split
      | with_reducible apply Touches.after (State.showFast_touches ..)
      | dsimp only
      | with_reducible apply Touches.set_jumpAt

theorem State.classesBegin_touches (s : State) (now : Nat → Nat) (next : Nat → Nat) :
    Touches (Touch.out ||| Touch.regs ||| Touch.log ||| Touch.logBase ||| Touch.bells ||| Touch.node |||
    Touch.classes ||| Touch.jumpAt ||| Touch.reports) s (State.classesBegin s now next) := by
  unfold State.classesBegin
  repeat'
    first
      | with_reducible exact Touches.refl _ _
      | decide
      | split
      | with_reducible refine Touches.foldl ?_ fun _ _ => ?_
      | (extract_lets +onlyGivenNames nx; subst nx)
      | with_reducible apply Touches.after (State.forecastBell_touches ..)
      | with_reducible apply Touches.after (State.classesTo_touches ..)
      | with_reducible apply Touches.after (State.classRises_touches ..)

theorem execSupplyLow_touches (s : State) :
    Answers (Touch.out ||| Touch.regs ||| Touch.log ||| Touch.logBase ||| Touch.bells ||| Touch.node |||
    Touch.reports) s (execSupplyLow s) := by
  unfold execSupplyLow
  repeat'
    first
      | with_reducible apply Answers.next
      | with_reducible exact Touches.refl _ _
      | decide
      | split
      | with_reducible apply Touches.after (State.raise_touches ..)
      | with_reducible apply Touches.after (State.setF_touches ..)

theorem execHoldupFault_touches (s : State) :
    Answers (Touch.out ||| Touch.regs ||| Touch.log ||| Touch.logBase ||| Touch.bells ||| Touch.node |||
    Touch.reports) s (execHoldupFault s) := by
  unfold execHoldupFault
  repeat'
    first
      | with_reducible apply Answers.next
      | with_reducible exact Touches.refl _ _
      | decide
      | split
      | with_reducible apply Touches.after (State.raise_touches ..)
      | with_reducible apply Touches.after (State.setF_touches ..)

theorem State.powerDown_touches (s : State) (n : Nat) (ns : Nat) : Touches (Touch.regs |||
    Touch.regions ||| Touch.xings ||| Touch.power) s (State.powerDown s n ns):= by
  unfold State.powerDown
  repeat'
    first
      | with_reducible exact Touches.refl _ _
      | with_reducible assumption
      | decide
      | (extract_lets +onlyGivenNames nx; with_reducible refine Touches.cut (t := nx) ?_ ?_; subst nx; rotate_left; revert nx; intro _ _; rotate_right)
      | (extract_lets +onlyGivenNames nx; subst nx)
      | split
      | with_reducible apply Touches.after (State.setF_touches ..)
      | with_reducible apply Touches.after (State.throttle_touches ..)
      | with_reducible apply Touches.after (State.setRegion_touches ..)
      | with_reducible refine Touches.foldl ?_ fun _ _ => ?_
      | with_reducible apply Touches.set_power

theorem State.powerStep_touches (s : State) (ns : Nat) : Touches (Touch.out ||| Touch.regs |||
    Touch.log ||| Touch.logBase ||| Touch.bells ||| Touch.node ||| Touch.regions ||| Touch.xings |||
    Touch.power ||| Touch.reports) s (State.powerStep s ns):= by
  unfold State.powerStep
  repeat'
    first
      | with_reducible exact Touches.refl _ _
      | with_reducible assumption
      | decide
      | (extract_lets +onlyGivenNames nx; with_reducible refine Touches.cut (t := nx) ?_ ?_; subst nx; rotate_left; revert nx; intro _ _; rotate_right)
      | split
      | with_reducible apply Touches.after (State.powerDown_touches ..)
      | with_reducible apply Touches.after (State.raise_touches ..)

theorem State.limiter_touches (s : State) (ns : Nat) : Touches (Touch.out ||| Touch.regs |||
    Touch.log ||| Touch.logBase ||| Touch.bells ||| Touch.node ||| Touch.regions ||| Touch.xings |||
    Touch.power ||| Touch.reports) s (State.limiter s ns):= by
  unfold State.limiter
  repeat'
    first
      | with_reducible exact Touches.refl _ _
      | with_reducible assumption
      | decide
      | (extract_lets +onlyGivenNames nx; with_reducible refine Touches.cut (t := nx) ?_ ?_; subst nx; rotate_left; revert nx; intro _ _; rotate_right)
      | (extract_lets +onlyGivenNames nx; subst nx)
      | split
      | with_reducible apply Touches.after (State.powerStep_touches ..)
      | with_reducible apply Touches.after (State.powerDown_touches ..)
      | with_reducible apply Touches.set_power

theorem execPowerSample_touches (volts : BitVec 16) (amps : BitVec 16) (stop : Fin 251) (s : State) :
    Answers (Touch.out ||| Touch.regs ||| Touch.log ||| Touch.logBase ||| Touch.bells ||| Touch.node
    ||| Touch.regions ||| Touch.xings ||| Touch.power ||| Touch.reports) s (execPowerSample volts
    amps stop s):= by
  unfold execPowerSample
  repeat'
    first
      | with_reducible apply Answers.next
      | with_reducible exact Touches.refl _ _
      | with_reducible assumption
      | decide
      | (extract_lets +onlyGivenNames nx; with_reducible refine Answers.cut (t := nx) ?_ ?_; subst nx; rotate_left; revert nx; intro _ _; rotate_right)
      | (extract_lets +onlyGivenNames nx; subst nx)
      | split
      | with_reducible apply Touches.after (State.setF_touches ..)
      | with_reducible apply Touches.after (State.limiter_touches ..)
      | with_reducible apply Touches.set_power

theorem State.rate_touches (s : State) (loc : Nat) :
    Touches (Touch.regs ||| Touch.fast) s (State.rate s loc) := by
  unfold State.rate
  repeat'
    first
      | with_reducible exact Touches.refl _ _
      | decide
      | (extract_lets +onlyGivenNames nx; subst nx)
      | split
      | with_reducible apply Touches.after (State.showFast_touches ..)
      | with_reducible apply Touches.set_fast

theorem State.showHottest_touches (s : State) :
    Touches (Touch.regs) s (State.showHottest s) := by
  unfold State.showHottest
  repeat'
    first
      | with_reducible exact Touches.refl _ _
      | decide
      | (extract_lets +onlyGivenNames nx; subst nx)
      | split
      | with_reducible apply Touches.after (State.setF_touches ..)

theorem State.setHeat_touches (s : State) (loc : Nat) (x : HeatSt) :
    Touches (Touch.heat) s (State.setHeat s loc x) := by
  unfold State.setHeat
  repeat'
    first
      | with_reducible exact Touches.refl _ _
      | decide
      | with_reducible apply Touches.set_heat

theorem State.heatApply_touches (s : State) (loc : Nat) (ns : Nat) : Touches (Touch.regs |||
    Touch.regions ||| Touch.xings) s (State.heatApply s loc ns):= by
  unfold State.heatApply
  repeat'
    first
      | with_reducible exact Touches.refl _ _
      | decide
      | (extract_lets +onlyGivenNames nx; subst nx)
      | split
      | with_reducible apply Touches.after (State.throttle_touches ..)
      | with_reducible apply Touches.after (State.setRegion_touches ..)
      | with_reducible refine Touches.foldl ?_ fun _ _ => ?_

theorem State.saidThrottle_touches (s : State) (site : Nat) (args : List Nat) :
    Touches (Touch.out ||| Touch.regs ||| Touch.log ||| Touch.logBase ||| Touch.bells ||| Touch.node |||
    Touch.reports) s (State.saidThrottle s site args) := by
  unfold State.saidThrottle
  repeat'
    first
      | with_reducible exact Touches.refl _ _
      | decide
      | with_reducible apply Touches.after (State.raise_touches ..)
      | with_reducible apply Touches.after (State.bump_touches ..)

theorem State.judgeHeat_touches (s : State) (loc : Nat) (ns : Nat) : Touches (Touch.out |||
    Touch.regs ||| Touch.log ||| Touch.logBase ||| Touch.bells ||| Touch.node ||| Touch.regions |||
    Touch.xings ||| Touch.heat ||| Touch.reports) s (State.judgeHeat s loc ns):= by
  unfold State.judgeHeat
  repeat'
    first
      | with_reducible exact Touches.refl _ _
      | with_reducible assumption
      | decide
      | (extract_lets +onlyGivenNames nx; with_reducible refine Touches.cut (t := nx) ?_ ?_; subst nx; rotate_left; revert nx; intro _ _; rotate_right)
      | (extract_lets +onlyGivenNames nx; subst nx)
      | split
      | with_reducible apply Touches.after (State.saidThrottle_touches ..)
      | with_reducible apply Touches.after (State.heatApply_touches ..)
      | with_reducible apply Touches.after (State.setHeat_touches ..)

theorem State.siteStops_touches (s : State) (i : Nat) :
    Touches (Touch.regs ||| Touch.gws ||| Touch.regions) s (State.siteStops s i) := by
  unfold State.siteStops
  repeat'
    first
      | with_reducible exact Touches.refl _ _
      | decide
      | with_reducible apply Touches.after (State.silence_touches ..)
      | with_reducible apply Touches.after (State.stopRegion_touches ..)
      | with_reducible refine Touches.foldl ?_ fun _ _ => ?_

theorem State.tripActs_touches (s : State) (loc : Nat) : Touches (Touch.out ||| Touch.regs |||
    Touch.mem ||| Touch.wear ||| Touch.log ||| Touch.logBase ||| Touch.cores ||| Touch.bells |||
    Touch.node ||| Touch.tithes ||| Touch.gws ||| Touch.cfg ||| Touch.regions ||| Touch.tracePos |||
    Touch.stackMem ||| Touch.bridgeMem ||| Touch.invPend ||| Touch.nextId ||| Touch.jobs |||
    Touch.xfers ||| Touch.runs ||| Touch.seqs ||| Touch.rings ||| Touch.outs ||| Touch.brackets |||
    Touch.egress ||| Touch.sas ||| Touch.led ||| Touch.retireQ ||| Touch.lit ||| Touch.rcal |||
    Touch.fieldAt ||| Touch.mapLag ||| Touch.reports ||| Touch.markers ||| Touch.heldOut |||
    Touch.hostLines ||| Touch.hostResv) s (State.tripActs s loc):= by
  unfold State.tripActs
  repeat'
    first
      | with_reducible exact Touches.refl _ _
      | with_reducible assumption
      | decide
      | (extract_lets +onlyGivenNames nx; with_reducible refine Touches.cut (t := nx) ?_ ?_; subst nx; rotate_left; revert nx; intro _ _; rotate_right)
      | split
      | with_reducible apply Touches.after (State.siteStops_touches ..)
      | with_reducible apply Touches.after (State.fenceAll_touches ..)
      | with_reducible apply Touches.after (State.setF_touches ..)
      | with_reducible apply Touches.after (State.resetField_touches ..)
      | with_reducible refine Touches.foldl ?_ fun _ _ => ?_

theorem State.countTrip_touches (s : State) (part : Nat) (site : Nat) (args : List Nat) :
    Touches (Touch.out ||| Touch.regs ||| Touch.log ||| Touch.logBase ||| Touch.bells ||| Touch.node |||
    Touch.trips ||| Touch.reports) s (State.countTrip s part site args).1 := by
  unfold State.countTrip
  repeat'
    first
      | with_reducible exact Touches.refl _ _
      | with_reducible assumption
      | decide
      | (extract_lets +onlyGivenNames nx; with_reducible refine Touches.cut (t := nx) ?_ ?_; subst nx; rotate_left; revert nx; intro _ _; rotate_right)
      | (extract_lets +onlyGivenNames nx; subst nx)
      | with_reducible apply Touches.after (State.raise_touches ..)
      | with_reducible apply Touches.after (State.bump_touches ..)
      | dsimp only
      | with_reducible apply Touches.set_trips

theorem State.trip_touches (s : State) (loc : Nat) (hbm : Bool) : Touches (Touch.out ||| Touch.regs
    ||| Touch.mem ||| Touch.grn ||| Touch.wear ||| Touch.log ||| Touch.logBase ||| Touch.cores |||
    Touch.bells ||| Touch.node ||| Touch.tithes ||| Touch.gws ||| Touch.cfg ||| Touch.regions |||
    Touch.tracePos ||| Touch.stackMem ||| Touch.bridgeMem ||| Touch.invPend ||| Touch.nextId |||
    Touch.jobs ||| Touch.xfers ||| Touch.runs ||| Touch.seqs ||| Touch.rings ||| Touch.outs |||
    Touch.brackets ||| Touch.egress ||| Touch.sas ||| Touch.led ||| Touch.retireQ ||| Touch.lit |||
    Touch.rcal ||| Touch.fieldAt ||| Touch.mapLag ||| Touch.tripped ||| Touch.trips |||
    Touch.reports ||| Touch.markers ||| Touch.heldOut ||| Touch.hostLines ||| Touch.hostResv) s
    (State.trip s loc hbm):= by
  unfold State.trip
  repeat'
    first
      | with_reducible exact Touches.refl _ _
      | with_reducible assumption
      | decide
      | (extract_lets +onlyGivenNames nx; with_reducible refine Touches.cut (t := nx) ?_ ?_; subst nx; rotate_left; revert nx; intro _ _; rotate_right)
      | split
      | with_reducible refine Touches.of_fst ‹State.countTrip _ _ _ _ = _› (Touches.after (State.countTrip_touches ..) ?_ ?_)
      | with_reducible apply Touches.after (State.tripActs_touches ..)
      | with_reducible apply Touches.after (State.retireSite_touches ..)
      | with_reducible refine Touches.foldl ?_ fun _ _ => ?_
      | with_reducible apply Touches.set_tripped

theorem State.tripComb_touches (s : State) (i : Nat) (c : Nat) : Touches (Touch.out ||| Touch.regs
    ||| Touch.mem ||| Touch.grn ||| Touch.wear ||| Touch.log ||| Touch.logBase ||| Touch.cores |||
    Touch.bells ||| Touch.node ||| Touch.tithes ||| Touch.gws ||| Touch.cfg ||| Touch.tracePos |||
    Touch.stackMem ||| Touch.bridgeMem ||| Touch.invPend ||| Touch.nextId ||| Touch.jobs |||
    Touch.xfers ||| Touch.runs ||| Touch.seqs ||| Touch.rings ||| Touch.outs ||| Touch.brackets |||
    Touch.links ||| Touch.egress ||| Touch.sas ||| Touch.led ||| Touch.retireQ ||| Touch.rcal |||
    Touch.mapLag ||| Touch.trips ||| Touch.reports ||| Touch.markers ||| Touch.draws |||
    Touch.heldOut ||| Touch.hostLines ||| Touch.hostResv) s (State.tripComb s i c):= by
  unfold State.tripComb
  repeat'
    first
      | with_reducible exact Touches.refl _ _
      | with_reducible assumption
      | decide
      | (extract_lets +onlyGivenNames nx; with_reducible refine Touches.cut (t := nx) ?_ ?_; subst nx; rotate_left; revert nx; intro _ _; rotate_right)
      | split
      | with_reducible refine Touches.of_fst ‹State.countTrip _ _ _ _ = _› (Touches.after (State.countTrip_touches ..) ?_ ?_)
      | with_reducible apply Touches.after (State.combFails_touches ..)
      | with_reducible apply Touches.after (State.grnPut_touches ..)
      | with_reducible apply Touches.after (State.redirect_touches ..)
      | with_reducible refine Touches.foldl ?_ fun _ _ => ?_
      | with_reducible apply Touches.after (State.extCombFails_touches ..)

theorem State.judgeTrip_touches (s : State) (loc : Nat) (hbm : Bool) : Touches (Touch.out |||
    Touch.regs ||| Touch.mem ||| Touch.grn ||| Touch.wear ||| Touch.log ||| Touch.logBase |||
    Touch.cores ||| Touch.bells ||| Touch.node ||| Touch.tithes ||| Touch.gws ||| Touch.cfg |||
    Touch.regions ||| Touch.tracePos ||| Touch.stackMem ||| Touch.bridgeMem ||| Touch.invPend |||
    Touch.nextId ||| Touch.jobs ||| Touch.xfers ||| Touch.runs ||| Touch.seqs ||| Touch.rings |||
    Touch.outs ||| Touch.brackets ||| Touch.egress ||| Touch.sas ||| Touch.led ||| Touch.retireQ |||
    Touch.lit ||| Touch.rcal ||| Touch.fieldAt ||| Touch.mapLag ||| Touch.tripped ||| Touch.trips
    ||| Touch.reports ||| Touch.markers ||| Touch.heldOut ||| Touch.hostLines ||| Touch.hostResv) s
    (State.judgeTrip s loc
    hbm):= by
  unfold State.judgeTrip
  repeat'
    first
      | with_reducible exact Touches.refl _ _
      | decide
      | split
      | with_reducible apply Touches.after (State.trip_touches ..)
      | with_reducible apply Touches.set_tripped

theorem State.storeReading_touches (s : State) (loc : Nat) (i : Nat) (r : Option Int) :
    Touches (Touch.regs) s (State.storeReading s loc i r) := by
  unfold State.storeReading
  repeat'
    first
      | with_reducible exact Touches.refl _ _
      | decide
      | (extract_lets +onlyGivenNames nx; subst nx)
      | split
      | with_reducible apply Touches.after (State.setF_touches ..)

theorem State.judgePair_touches (s : State) (loc : Nat) (k : Nat) :
    Touches (Touch.out ||| Touch.regs ||| Touch.log ||| Touch.logBase ||| Touch.bells ||| Touch.node |||
    Touch.pairOff ||| Touch.pairLost ||| Touch.reports) s (State.judgePair s loc k) := by
  unfold State.judgePair
  repeat'
    first
      | with_reducible exact Touches.refl _ _
      | with_reducible assumption
      | decide
      | (extract_lets +onlyGivenNames nx; with_reducible refine Touches.cut (t := nx) ?_ ?_; subst nx; rotate_left; revert nx; intro _ _; rotate_right)
      | (extract_lets +onlyGivenNames nx; subst nx)
      | split
      | with_reducible apply Touches.after (State.raise_touches ..)
      | with_reducible apply Touches.set_pairOff_pairLost

theorem State.hbmHeat_touches (s : State) (b : Nat) (t : Int) : Touches (Touch.out ||| Touch.regs
    ||| Touch.mem ||| Touch.grn ||| Touch.wear ||| Touch.log ||| Touch.logBase ||| Touch.cores |||
    Touch.bells ||| Touch.node ||| Touch.tithes ||| Touch.gws ||| Touch.cfg ||| Touch.regions |||
    Touch.tracePos ||| Touch.stackMem ||| Touch.bridgeMem ||| Touch.invPend ||| Touch.nextId |||
    Touch.jobs ||| Touch.xfers ||| Touch.runs ||| Touch.seqs ||| Touch.rings ||| Touch.outs |||
    Touch.brackets ||| Touch.egress ||| Touch.sas ||| Touch.led ||| Touch.retireQ ||| Touch.lit |||
    Touch.rcal ||| Touch.fieldAt ||| Touch.mapLag ||| Touch.tripped ||| Touch.trips |||
    Touch.hbmSlow ||| Touch.reports ||| Touch.markers ||| Touch.heldOut ||| Touch.hostLines |||
    Touch.hostResv) s (State.hbmHeat s b t):= by
  unfold State.hbmHeat
  repeat'
    first
      | with_reducible exact Touches.refl _ _
      | with_reducible assumption
      | decide
      | (extract_lets +onlyGivenNames nx; with_reducible refine Touches.cut (t := nx) ?_ ?_; subst nx; rotate_left; revert nx; intro _ _; rotate_right)
      | (extract_lets +onlyGivenNames nx; subst nx)
      | split
      | with_reducible apply Touches.after (State.setF_touches ..)
      | with_reducible apply Touches.after (State.saidThrottle_touches ..)
      | with_reducible apply Touches.after (State.judgeTrip_touches ..)
      | with_reducible apply Touches.set_hbmSlow

theorem State.sensorSpared_touches (s : State) (before : State) (loc : Nat) (k : Nat) :
    Touches (Touch.out ||| Touch.regs ||| Touch.log ||| Touch.logBase ||| Touch.bells ||| Touch.node |||
      Touch.reports) s (State.sensorSpared s before loc k) := by
  unfold State.sensorSpared
  repeat'
    first
      | with_reducible exact Touches.refl _ _
      | with_reducible assumption
      | decide
      | split
      | with_reducible apply Touches.after (State.granaryEmpty_touches ..)

theorem State.samplePair_touches (s : State) (loc : Nat) (k : Nat) (a : Option Int) (b : Option Int) :
    Touches (Touch.out ||| Touch.regs ||| Touch.log ||| Touch.logBase ||| Touch.bells ||| Touch.node |||
      Touch.pairAt ||| Touch.pairOff ||| Touch.pairLost ||| Touch.reports) s (State.samplePair s loc k
      a b) := by
  unfold State.samplePair
  repeat'
    first
      | with_reducible exact Touches.refl _ _
      | with_reducible assumption
      | decide
      | split
      | with_reducible apply Touches.after (State.judgePair_touches ..)
      | with_reducible apply Touches.after (State.sensorSpared_touches ..)
      | with_reducible apply Touches.after (State.storeReading_touches ..)
      | dsimp only
      | with_reducible apply Touches.set_pairAt

theorem execThermalSample_touches (read : ThermalRead) (stop : Fin 251) (s : State) :
    Answers (Touch.out ||| Touch.regs ||| Touch.mem ||| Touch.grn ||| Touch.wear ||| Touch.log |||
    Touch.logBase ||| Touch.cores ||| Touch.bells ||| Touch.node ||| Touch.tithes ||| Touch.gws |||
    Touch.cfg ||| Touch.regions ||| Touch.tracePos ||| Touch.stackMem ||| Touch.bridgeMem |||
    Touch.invPend ||| Touch.nextId ||| Touch.jobs ||| Touch.xfers ||| Touch.runs ||| Touch.seqs |||
    Touch.rings ||| Touch.outs ||| Touch.brackets ||| Touch.links ||| Touch.egress ||| Touch.sas |||
    Touch.led ||| Touch.xings ||| Touch.retireQ ||| Touch.lit ||| Touch.rcal ||| Touch.fieldAt |||
    Touch.mapLag ||| Touch.heat ||| Touch.pairAt ||| Touch.pairOff ||| Touch.pairLost ||| Touch.fast
    ||| Touch.tripped ||| Touch.trips ||| Touch.hbmSlow ||| Touch.reports ||| Touch.markers |||
    Touch.draws ||| Touch.heldOut ||| Touch.hostLines ||| Touch.hostResv) s
    (execThermalSample read
    stop s):= by
  unfold execThermalSample
  repeat'
    first
      | with_reducible apply Answers.next
      | with_reducible exact Touches.refl _ _
      | with_reducible assumption
      | decide
      | (extract_lets +onlyGivenNames nx; with_reducible refine Answers.cut (t := nx) ?_ ?_; subst nx; rotate_left; revert nx; intro _ _; rotate_right)
      | (extract_lets +onlyGivenNames nx; subst nx)
      | split
      | with_reducible apply Touches.after (State.rate_touches ..)
      | with_reducible apply Touches.after (State.judgeTrip_touches ..)
      | with_reducible apply Touches.after (State.showHottest_touches ..)
      | with_reducible apply Touches.after (State.judgeHeat_touches ..)
      | with_reducible apply Touches.after (State.hbmHeat_touches ..)
      | with_reducible apply Touches.after (State.tripComb_touches ..)
      | with_reducible apply Touches.after (State.samplePair_touches ..)

theorem execTripRelease_touches (part : Fin 44) (s : State) :
    Answers (Touch.out ||| Touch.regs ||| Touch.mem ||| Touch.grn ||| Touch.wear ||| Touch.log |||
    Touch.logBase ||| Touch.cores ||| Touch.bells ||| Touch.node ||| Touch.tithes ||| Touch.gws |||
    Touch.cfg ||| Touch.regions ||| Touch.tracePos ||| Touch.stackMem ||| Touch.bridgeMem |||
    Touch.invPend ||| Touch.nextId ||| Touch.jobs ||| Touch.xfers ||| Touch.redSteps ||| Touch.runs
    ||| Touch.redBytes ||| Touch.seqs ||| Touch.rings ||| Touch.links ||| Touch.ingress |||
    Touch.egress ||| Touch.qpErr ||| Touch.sas ||| Touch.led ||| Touch.retireQ ||| Touch.resets |||
    Touch.fieldAt ||| Touch.mapLag ||| Touch.tripped ||| Touch.reports ||| Touch.drains |||
    Touch.heldOut ||| Touch.hostLines ||| Touch.hostResv ||| Touch.imsic) s
    (execTripRelease part s):= by
  unfold execTripRelease
  repeat'
    first
      | with_reducible apply Answers.next
      | with_reducible exact Touches.refl _ _
      | with_reducible assumption
      | decide
      | (extract_lets +onlyGivenNames nx; with_reducible refine Answers.cut (t := nx) ?_ ?_; subst nx; rotate_left; revert nx; intro _ _; rotate_right)
      | (extract_lets +onlyGivenNames nx; subst nx)
      | split
      | with_reducible apply Touches.after (State.resetSite_touches ..)
      | with_reducible apply Touches.after (State.releaseField_touches ..)
      | with_reducible apply Touches.set_tripped

theorem execSafelight_touches (r : Requester) (s : State) :
    Answers (Touch.power) s (execSafelight r s) := by
  unfold execSafelight
  repeat'
    first
      | with_reducible apply Answers.next
      | with_reducible exact Touches.refl _ _
      | decide
      | (extract_lets +onlyGivenNames nx; subst nx)
      | split
      | with_reducible apply Touches.set_power

theorem State.dropBrackets_touches (s : State) : Touches (Touch.out ||| Touch.regs ||| Touch.mem |||
    Touch.wear ||| Touch.log ||| Touch.logBase ||| Touch.cores ||| Touch.bells ||| Touch.node |||
    Touch.tithes ||| Touch.gws ||| Touch.cfg ||| Touch.tracePos ||| Touch.stackMem |||
    Touch.bridgeMem ||| Touch.invPend ||| Touch.nextId ||| Touch.jobs ||| Touch.xfers ||| Touch.runs
    ||| Touch.seqs ||| Touch.rings ||| Touch.brackets ||| Touch.links ||| Touch.egress ||| Touch.sas
    ||| Touch.led ||| Touch.retireQ ||| Touch.sensOut ||| Touch.mapLag ||| Touch.reports |||
    Touch.markers ||| Touch.heldOut ||| Touch.hostLines ||| Touch.hostResv) s
    (State.dropBrackets s):= by
  unfold State.dropBrackets
  repeat'
    first
      | with_reducible exact Touches.refl _ _
      | with_reducible assumption
      | decide
      | (extract_lets +onlyGivenNames x; with_reducible refine Touches.cut (t := x) ?_ ?_; subst x; rotate_left; clear_value x; revert x; intro _ _; rotate_right)
      | (extract_lets +onlyGivenNames x; clear_value x; revert x; intro _)
      | split
      | with_reducible apply Touches.after (State.bracketShown_touches ..)
      | with_reducible apply Touches.after (State.sensorStale_touches ..)
      | with_reducible refine Touches.foldl ?_ fun _ _ => ?_
      | dsimp only
      | with_reducible apply Touches.set_brackets
      | with_reducible apply Touches.set_sensOut

theorem State.sleepLoses_touches (s : State) :
    Touches (Touch.mem ||| Touch.cores ||| Touch.gws ||| Touch.stackMem ||| Touch.redSteps ||| Touch.runs |||
    Touch.redBytes) s (State.sleepLoses s) := by
  unfold State.sleepLoses
  repeat'
    first
      | with_reducible exact Touches.refl _ _
      | with_reducible assumption
      | decide
      | (extract_lets +onlyGivenNames nx; with_reducible refine Touches.cut (t := nx) ?_ ?_; subst nx; rotate_left; revert nx; intro _ _; rotate_right)
      | (extract_lets +onlyGivenNames nx; subst nx)
      | with_reducible apply Touches.after (State.cacheDrop_touches ..)
      | with_reducible apply Touches.after (State.clearStores_touches ..)
      | with_reducible apply Touches.after (State.zeroMem_touches ..)
      | with_reducible apply Touches.after (State.setGw_touches ..)
      | with_reducible refine Touches.foldl ?_ fun _ _ => ?_
      | with_reducible apply Touches.set_cores_redSteps_runs_redBytes

theorem State.parkLink_touches (s : State) (x : Nat) :
    Touches (Touch.out ||| Touch.gws ||| Touch.links) s (State.parkLink s x) := by
  unfold State.parkLink
  repeat'
    first
      | with_reducible exact Touches.refl _ _
      | with_reducible assumption
      | decide
      | split
      | with_reducible apply Touches.after (State.sendCode_touches ..)
      | with_reducible apply Touches.after (State.setLink_touches ..)

theorem State.lightsOut_touches (s : State) : Touches (Touch.lit ||| Touch.rcal ||| Touch.power) s
    (State.lightsOut s):= by
  unfold State.lightsOut
  repeat'
    first
      | with_reducible exact Touches.refl _ _
      | with_reducible assumption
      | decide
      | split
      | dsimp only
      | with_reducible apply Touches.set_lit_power
      | with_reducible apply Touches.set_lit_rcal_power
      | with_reducible apply Touches.set_lit_rcal
theorem State.sleepBegins_touches (s : State) :
    Touches (Touch.power) s (State.sleepBegins s) := by
  unfold State.sleepBegins
  repeat'
    first
      | with_reducible exact Touches.refl _ _
      | with_reducible assumption
      | decide
      | split
      | dsimp only
      | with_reducible apply Touches.set_power

theorem execSafelightEntry_touches (s : State) :
    Answers (Touch.out ||| Touch.regs ||| Touch.mem ||| Touch.wear ||| Touch.log ||| Touch.logBase
    ||| Touch.cores ||| Touch.bells ||| Touch.node ||| Touch.tithes ||| Touch.gws ||| Touch.cfg |||
    Touch.regions ||| Touch.tracePos ||| Touch.stackMem ||| Touch.bridgeMem ||| Touch.invPend |||
    Touch.nextId ||| Touch.jobs ||| Touch.xfers ||| Touch.redSteps ||| Touch.runs ||| Touch.redBytes
    ||| Touch.seqs ||| Touch.rings ||| Touch.brackets ||| Touch.links ||| Touch.egress ||| Touch.sas
    ||| Touch.led ||| Touch.retireQ ||| Touch.lit ||| Touch.rcal ||| Touch.sensOut ||| Touch.mapLag
    ||| Touch.power ||| Touch.reports ||| Touch.markers ||| Touch.portNext ||| Touch.heldOut |||
    Touch.hostLines ||| Touch.hostResv) s
    (execSafelightEntry s):= by
  unfold execSafelightEntry
  repeat'
    first
      | with_reducible apply Answers.next
      | with_reducible exact Touches.refl _ _
      | with_reducible assumption
      | decide
      | (extract_lets +onlyGivenNames x; with_reducible refine Answers.cut (t := x) ?_ ?_; subst x; rotate_left; clear_value x; revert x; intro _ _; rotate_right)
      | (extract_lets +onlyGivenNames x; clear_value x; revert x; intro _)
      | split
      | with_reducible apply Touches.after (State.dropBrackets_touches ..)
      | with_reducible apply Touches.after (State.lightsOut_touches ..)
      | with_reducible apply Touches.after (State.parkLink_touches ..)
      | with_reducible apply Touches.after (State.runAt_touches ..)
      | with_reducible apply Touches.after (State.setF_touches ..)
      | with_reducible apply Touches.after (State.setPwrState_touches ..)
      | with_reducible apply Touches.after (State.sleepLoses_touches ..)
      | with_reducible apply Touches.after (State.trainPort_touches ..)
      | with_reducible refine Touches.foldl ?_ fun _ _ => ?_
      | with_reducible apply Touches.after (State.portTick_touches ..)
      | with_reducible apply Touches.after (State.sleepBegins_touches ..)
      | dsimp only
      | with_reducible apply Touches.set_power
theorem State.wake_touches (s : State) :
    Touches (Touch.regs ||| Touch.power) s (State.wake s) := by
  unfold State.wake
  repeat'
    first
      | with_reducible exact Touches.refl _ _
      | with_reducible assumption
      | decide
      | (extract_lets +onlyGivenNames nx; with_reducible refine Touches.cut (t := nx) ?_ ?_; subst nx; rotate_left; revert nx; intro _ _; rotate_right)
      | (extract_lets +onlyGivenNames nx; subst nx)
      | split
      | with_reducible apply Touches.after (State.setPwrState_touches ..)
      | with_reducible apply Touches.set_power

theorem execWakeN_touches (s : State) :
    Answers (Touch.regs ||| Touch.power) s (execWakeN s) := by
  unfold execWakeN
  repeat'
    first
      | with_reducible apply Answers.next
      | with_reducible exact Touches.refl _ _
      | decide
      | with_reducible apply Touches.after (State.wake_touches ..)

theorem execPwrWake_touches (r : Requester) (s : State) :
    Answers (Touch.regs ||| Touch.power) s (execPwrWake r s) := by
  unfold execPwrWake
  repeat'
    first
      | with_reducible apply Answers.next
      | with_reducible exact Touches.refl _ _
      | decide
      | split
      | with_reducible apply Touches.after (State.wake_touches ..)

theorem execWakeFrame_touches (code : BitVec 64) (macsec : Bool) (s : State) :
    Answers (Touch.regs ||| Touch.power) s (execWakeFrame code macsec s) := by
  unfold execWakeFrame
  repeat'
    first
      | with_reducible apply Answers.next
      | with_reducible exact Touches.refl _ _
      | decide
      | split
      | with_reducible apply Touches.after (State.wake_touches ..)

theorem State.leaveOut_touches (s : State) (i : Nat) : Touches (Touch.out ||| Touch.regs |||
    Touch.mem ||| Touch.wear ||| Touch.log ||| Touch.logBase ||| Touch.cores ||| Touch.bells |||
    Touch.node ||| Touch.tithes ||| Touch.gws ||| Touch.cfg ||| Touch.tracePos ||| Touch.stackMem
    ||| Touch.bridgeMem ||| Touch.invPend ||| Touch.nextId ||| Touch.jobs ||| Touch.xfers |||
    Touch.runs ||| Touch.seqs ||| Touch.rings ||| Touch.egress ||| Touch.sas ||| Touch.led |||
    Touch.retireQ ||| Touch.mapLag ||| Touch.reports ||| Touch.heldOut ||| Touch.hostLines |||
    Touch.hostResv) s
    (State.leaveOut s i):= by
  unfold State.leaveOut
  repeat'
    first
      | with_reducible exact Touches.refl _ _
      | decide
      | with_reducible apply Touches.after (State.setF_touches ..)
      | with_reducible apply Touches.after (State.fenceAll_touches ..)

theorem State.siteWakes_touches (s : State) (i : Nat) :
    Touches (Touch.regs ||| Touch.gws ||| Touch.regions) s (State.siteWakes s i) := by
  unfold State.siteWakes
  repeat'
    first
      | with_reducible exact Touches.refl _ _
      | with_reducible assumption
      | decide
      | (extract_lets +onlyGivenNames x; with_reducible refine Touches.cut (t := x) ?_ ?_; subst x; rotate_left; clear_value x; revert x; intro _ _; rotate_right)
      | (extract_lets +onlyGivenNames x; clear_value x; revert x; intro _)
      | split
      | with_reducible apply Touches.after (State.runDemand_touches ..)
      | with_reducible apply Touches.after (State.setF_touches ..)
      | with_reducible apply Touches.after (State.setGw_touches ..)
      | with_reducible refine Touches.foldl ?_ fun _ _ => ?_

theorem State.pairsWake_touches (s : State) (up : List Nat) : Touches (Touch.out ||| Touch.regs |||
    Touch.mem ||| Touch.grn ||| Touch.wear ||| Touch.log ||| Touch.logBase ||| Touch.cores |||
    Touch.bells ||| Touch.node ||| Touch.tithes ||| Touch.gws ||| Touch.cfg ||| Touch.tracePos |||
    Touch.stackMem ||| Touch.bridgeMem ||| Touch.invPend ||| Touch.nextId ||| Touch.jobs |||
    Touch.xfers ||| Touch.runs ||| Touch.seqs ||| Touch.rings ||| Touch.outs ||| Touch.brackets |||
    Touch.links ||| Touch.egress ||| Touch.sas ||| Touch.led ||| Touch.retireQ ||| Touch.mapLag |||
    Touch.reports ||| Touch.markers ||| Touch.draws ||| Touch.heldOut ||| Touch.hostLines |||
    Touch.hostResv) s (State.pairsWake s up):= by
  unfold State.pairsWake
  repeat'
    first
      | with_reducible exact Touches.refl _ _
      | with_reducible assumption
      | decide
      | split
      | with_reducible apply Touches.after (State.pairsUp_touches ..)
      | with_reducible apply Touches.after (State.ringsLate_touches ..)
      | with_reducible refine Touches.foldl ?_ fun _ _ => ?_

theorem State.linkWakes_touches (s : State) (x : Nat) (awake : Bool) :
    Touches (Touch.regs ||| Touch.wear ||| Touch.gws ||| Touch.links ||| Touch.mapLag) s (State.linkWakes s x awake) := by
  unfold State.linkWakes
  repeat'
    first
      | with_reducible exact Touches.refl _ _
      | with_reducible assumption
      | decide
      | (extract_lets +onlyGivenNames x; with_reducible refine Touches.cut (t := x) ?_ ?_; subst x; rotate_left; clear_value x; revert x; intro _ _; rotate_right)
      | (extract_lets +onlyGivenNames x; clear_value x; revert x; intro _)
      | split
      | with_reducible apply Touches.after (State.freshHop_touches ..)
      | with_reducible apply Touches.after (State.setLink_touches ..)
      | with_reducible apply Touches.after (State.setLinkState_touches ..)

theorem State.portWakes_touches (s : State) (ok800 : Bool) : Touches (Touch.regs ||| Touch.portNext)
    s (State.portWakes s ok800):= by
  unfold State.portWakes
  repeat'
    first
      | with_reducible exact Touches.refl _ _
      | with_reducible assumption
      | decide
      | split
      | with_reducible apply Touches.after (State.trainPort_touches ..)
      | with_reducible apply Touches.after (State.portTick_touches ..)
theorem execWakeComplete_touches (lost : List Site) (awake : List (Fin 68)) (ok800 : Bool) (s : State) :
    Answers (Touch.out ||| Touch.regs ||| Touch.mem ||| Touch.grn ||| Touch.wear ||| Touch.log |||
    Touch.logBase ||| Touch.cores ||| Touch.bells ||| Touch.node ||| Touch.tithes ||| Touch.gws |||
    Touch.cfg ||| Touch.regions ||| Touch.tracePos ||| Touch.stackMem ||| Touch.bridgeMem |||
    Touch.invPend ||| Touch.nextId ||| Touch.jobs ||| Touch.xfers ||| Touch.runs ||| Touch.seqs |||
    Touch.rings ||| Touch.outs ||| Touch.brackets ||| Touch.links ||| Touch.egress ||| Touch.sas |||
    Touch.led ||| Touch.retireQ ||| Touch.lit ||| Touch.mapLag ||| Touch.lms ||| Touch.reports |||
    Touch.markers ||| Touch.draws ||| Touch.portNext ||| Touch.heldOut ||| Touch.hostLines |||
    Touch.hostResv) s (execWakeComplete lost
      awake ok800 s) := by
  unfold execWakeComplete
  repeat'
    first
      | with_reducible apply Answers.next
      | with_reducible exact Touches.refl _ _
      | with_reducible assumption
      | decide
      | (extract_lets +onlyGivenNames x; with_reducible refine Answers.cut (t := x) ?_ ?_; subst x; rotate_left; clear_value x; revert x; intro _ _; rotate_right)
      | (extract_lets +onlyGivenNames x; clear_value x; revert x; intro _)
      | split
      | with_reducible apply Touches.after (State.leaveOut_touches ..)
      | with_reducible apply Touches.after (State.linkWakes_touches ..)
      | with_reducible apply Touches.after (State.pairsWake_touches ..)
      | with_reducible apply Touches.after (State.portWakes_touches ..)
      | with_reducible apply Touches.after (State.runDemand_touches ..)
      | with_reducible apply Touches.after (State.setF_touches ..)
      | with_reducible apply Touches.after (State.setPwrState_touches ..)
      | with_reducible apply Touches.after (State.siteWakes_touches ..)
      | with_reducible apply Touches.after (State.swapCombs_touches ..)
      | with_reducible refine Touches.foldl ?_ fun _ _ => ?_
      | dsimp only
      | with_reducible apply Touches.set_lit_lms

theorem State.powerOff_touches (s : State) :
    Touches (Touch.all - (Touch.free + Touch.pending + Touch.out + Touch.grn + Touch.wear + Touch.bondHalf + Touch.led + Touch.opkey + Touch.opkeySeq + Touch.lms + Touch.fixed + Touch.firmware)) s (State.powerOff s) := by
  unfold State.powerOff
  have h1 : Touches Touch.regs s (s.sensOut.foldl (fun (s : State) e => s.sensorStale e.1 e.2.1 false) s) :=
    Touches.foldl (Touches.refl _ _) fun s e => (State.sensorStale_touches ..).mono (by decide)
  revert h1
  generalize s.sensOut.foldl (fun (s : State) e => s.sensorStale e.1 e.2.1 false) s = u
  intro h1
  refine h1.mono (by decide) |>.trans ?_
  dsimp only
  split
  · constructor
    · exact fun _ => rfl
    all_goals first | exact fun _ => rfl | (intro h; exact absurd h (by decide))
  · refine Touches.after (State.setF_touches ..) ?_ (by decide)
    constructor
    · exact fun _ => rfl
    all_goals first | exact fun _ => rfl | (intro h; exact absurd h (by decide))

theorem State.fixing_touches (s : State) (reason : Nat) :
    Touches (Touch.all - (Touch.free + Touch.pending + Touch.out + Touch.grn + Touch.wear + Touch.opkey +
    Touch.led + Touch.bondHalf + Touch.lms + Touch.opkeySeq + Touch.firmware)) s (State.fixing s reason) := by
  unfold State.fixing
  repeat'
    first
      | with_reducible exact Touches.refl _ _
      | decide
      | (extract_lets +onlyGivenNames nx; subst nx)
      | split
      | with_reducible apply Touches.after (State.powerOff_touches ..)
      | with_reducible apply Touches.set_fixed

theorem execFixing_touches (high : Bool) (s : State) :
    Answers (Touch.all - (Touch.free + Touch.pending + Touch.out + Touch.grn + Touch.wear + Touch.opkey +
    Touch.led + Touch.bondHalf + Touch.lms + Touch.opkeySeq + Touch.firmware)) s (execFixing high s) := by
  unfold execFixing
  repeat'
    first
      | with_reducible apply Answers.next
      | with_reducible exact Touches.refl _ _
      | decide
      | split
      | with_reducible apply Touches.after (State.fixing_touches ..)

theorem execPwrFailN_touches (s : State) :
    Answers (Touch.all - (Touch.free + Touch.pending + Touch.out + Touch.grn + Touch.wear + Touch.opkey +
    Touch.led + Touch.bondHalf + Touch.lms + Touch.opkeySeq + Touch.firmware)) s (execPwrFailN s) := by
  unfold execPwrFailN
  repeat'
    first
      | with_reducible apply Answers.next
      | with_reducible exact Touches.refl _ _
      | decide
      | with_reducible apply Touches.after (State.fixing_touches ..)

theorem State.railsDrop_touches (s : State) :
    Touches (Touch.regs ||| Touch.mem ||| Touch.cores ||| Touch.gws ||| Touch.regions ||| Touch.stackMem
      ||| Touch.redSteps ||| Touch.runs ||| Touch.redBytes ||| Touch.lit ||| Touch.rcal |||
      Touch.power) s (State.railsDrop s) := by
  unfold State.railsDrop
  repeat'
    first
      | with_reducible exact Touches.refl _ _
      | with_reducible assumption
      | decide
      | (extract_lets +onlyGivenNames x; with_reducible refine Touches.cut (t := x) ?_ ?_; subst x; rotate_left; clear_value x; revert x; intro _ _; rotate_right)
      | (extract_lets +onlyGivenNames x; clear_value x; revert x; intro _)
      | split
      | with_reducible apply Touches.after (State.lightsOut_touches ..)
      | with_reducible apply Touches.after (State.runAt_touches ..)
      | with_reducible apply Touches.after (State.setF_touches ..)
      | with_reducible apply Touches.after (State.setPwrState_touches ..)
      | with_reducible apply Touches.after (State.sleepLoses_touches ..)
      | with_reducible refine Touches.foldl ?_ fun _ _ => ?_

theorem State.sleepTick_touches (s : State) :
    Touches (Touch.regs ||| Touch.mem ||| Touch.cores ||| Touch.gws ||| Touch.regions ||| Touch.stackMem
      ||| Touch.redSteps ||| Touch.runs ||| Touch.redBytes ||| Touch.lit ||| Touch.rcal |||
      Touch.power) s (State.sleepTick s) := by
  unfold State.sleepTick
  repeat'
    first
      | with_reducible exact Touches.refl _ _
      | with_reducible assumption
      | decide
      | (extract_lets +onlyGivenNames x; with_reducible refine Touches.cut (t := x) ?_ ?_; subst x; rotate_left; clear_value x; revert x; intro _ _; rotate_right)
      | (extract_lets +onlyGivenNames x; clear_value x; revert x; intro _)
      | split
      | with_reducible apply Touches.after (State.railsDrop_touches ..)
      | with_reducible apply Touches.after (State.wake_touches ..)
      | dsimp only
      | with_reducible apply Touches.set_power

end Sys2Proof.Machine
end

