-- ==== Sys2Proof/Laws/Roce.lean ====
section
/-!
SUPPORT. What the operations of Machine/Roce.lean may touch.
-/

namespace Sys2Proof.Machine

theorem State.sentOut_touches (s : State) (e : Egress) : Touches (Touch.out ||| Touch.regs |||
    Touch.mem ||| Touch.log ||| Touch.logBase ||| Touch.cores ||| Touch.bells ||| Touch.node |||
    Touch.stackMem ||| Touch.bridgeMem ||| Touch.invPend ||| Touch.nextId ||| Touch.rings |||
    Touch.sas ||| Touch.reports ||| Touch.heldOut ||| Touch.imsic) s (State.sentOut
      s e) := by
  unfold State.sentOut
  repeat'
    first
      | with_reducible exact Touches.refl _ _
      | with_reducible assumption
      | decide
      | (extract_lets +onlyGivenNames x; with_reducible refine Touches.cut (t := x) ?_ ?_; subst x; rotate_left; clear_value x; revert x; intro _ _; rotate_right)
      | (extract_lets +onlyGivenNames x; clear_value x; revert x; intro _)
      | split
      | with_reducible apply Touches.after (State.finishOp_touches ..)
      | with_reducible apply Touches.after (State.frameOut_touches ..)
      | dsimp only
      | with_reducible apply Touches.set_heldOut

theorem State.sendOut_touches (s : State) (cost : Nat) (e : Egress) : Touches (Touch.out |||
    Touch.regs ||| Touch.mem ||| Touch.log ||| Touch.logBase ||| Touch.cores ||| Touch.bells |||
    Touch.node ||| Touch.tithes ||| Touch.stackMem ||| Touch.bridgeMem ||| Touch.invPend |||
    Touch.nextId ||| Touch.rings ||| Touch.egress ||| Touch.sas ||| Touch.reports ||| Touch.heldOut
    ||| Touch.imsic) s (State.sendOut s cost e):= by
  unfold State.sendOut
  repeat'
    first
      | with_reducible exact Touches.refl _ _
      | with_reducible assumption
      | decide
      | (extract_lets +onlyGivenNames nx; with_reducible refine Touches.cut (t := nx) ?_ ?_; subst nx; rotate_left; revert nx; intro _ _; rotate_right)
      | (extract_lets +onlyGivenNames nx; subst nx)
      | split
      | with_reducible apply Touches.after (State.titheAsk_touches ..)
      | with_reducible apply Touches.after (State.sentOut_touches ..)
      | with_reducible apply Touches.after (State.setTithe_touches ..)
      | with_reducible apply Touches.set_nextId
      | with_reducible apply Touches.set_egress

theorem State.answerOut_touches (s : State) (f : InFrame) (m : Roce) : Touches (Touch.out |||
    Touch.regs ||| Touch.mem ||| Touch.log ||| Touch.logBase ||| Touch.cores ||| Touch.bells |||
    Touch.node ||| Touch.tithes ||| Touch.stackMem ||| Touch.bridgeMem ||| Touch.invPend |||
    Touch.nextId ||| Touch.rings ||| Touch.egress ||| Touch.sas ||| Touch.reports ||| Touch.heldOut
    ||| Touch.imsic) s (State.answerOut s f m):= by
  unfold State.answerOut
  repeat'
    first
      | with_reducible exact Touches.refl _ _
      | decide
      | split
      | with_reducible apply Touches.after (State.sendOut_touches ..)

theorem State.setConf_touches (s : State) (ctx : Nat) (c : ConfSt) :
    Touches (Touch.conf) s (State.setConf s ctx c) := by
  unfold State.setConf
  repeat'
    first
      | with_reducible exact Touches.refl _ _
      | decide
      | with_reducible apply Touches.set_conf

theorem State.sealOut_touches (s : State) (ctx : Nat) (aad : List Byte) (pay : List Byte) :
    Touches (Touch.conf) s (State.sealOut s ctx aad pay).1 := by
  unfold State.sealOut
  repeat'
    first
      | with_reducible exact Touches.refl _ _
      | decide
      | (extract_lets +onlyGivenNames nx; subst nx)
      | split
      | with_reducible apply Touches.after (State.setConf_touches ..)

theorem State.sealAll_touches (s : State) (ctx : Nat) (mtu : Nat) (x3 : List (List Byte)) (x4 : List Byte) (x5 : Nat) :
    Touches (Touch.conf) s (State.sealAll s ctx mtu x3 x4 x5).1 := by
  induction x5 generalizing s x3 x4 with
  | zero => exact Touches.refl _ _
  | succ n ih =>
    unfold State.sealAll
    repeat'
      first
        | with_reducible exact Touches.refl _ _
        | decide
        | with_reducible refine Touches.trans ?_ (ih ..)
        | with_reducible apply Touches.after (State.sealOut_touches ..)

theorem State.openIn_touches (s : State) (qpn : Nat) (aad : List Byte) (pay : List Byte) :
    Touches (Touch.out ||| Touch.regs ||| Touch.log ||| Touch.logBase ||| Touch.bells ||| Touch.node |||
    Touch.conf ||| Touch.reports) s (State.openIn s qpn aad pay).1 := by
  unfold State.openIn
  repeat'
    first
      | with_reducible exact Touches.refl _ _
      | decide
      | (extract_lets +onlyGivenNames nx; subst nx)
      | split
      | with_reducible apply Touches.after (State.setConf_touches ..)
      | with_reducible apply Touches.after (State.raise_touches ..)

theorem State.sendDone_touches (s : State) (ctx : Nat) :
    Touches (Touch.conf) s (State.sendDone s ctx) := by
  unfold State.sendDone
  repeat'
    first
      | with_reducible exact Touches.refl _ _
      | decide
      | (extract_lets +onlyGivenNames nx; subst nx)
      | split
      | with_reducible apply Touches.after (State.setConf_touches ..)

theorem State.entryLost_touches (s : State) (r : Rec) (o : RingOp) (st : Nat) : Touches (Touch.out
    ||| Touch.regs ||| Touch.mem ||| Touch.log ||| Touch.logBase ||| Touch.cores ||| Touch.bells |||
    Touch.node ||| Touch.stackMem ||| Touch.bridgeMem ||| Touch.invPend ||| Touch.nextId |||
    Touch.rings ||| Touch.reports ||| Touch.imsic) s (State.entryLost s r o st):= by
  unfold State.entryLost
  repeat'
    first
      | with_reducible exact Touches.refl _ _
      | with_reducible assumption
      | decide
      | split
      | with_reducible apply Touches.after (State.finishOp_touches ..)
      | with_reducible apply Touches.after (State.pushOp_touches ..)

theorem State.takeEntry_touches {ps : Nat} {s : State} {ring op : Nat} {flaws : Flaws}
    {run : State → Rec → RingOp → List Byte → State}
    (hp : (Touch.out ||| Touch.regs ||| Touch.mem ||| Touch.wear ||| Touch.log ||| Touch.logBase |||
    Touch.cores ||| Touch.bells ||| Touch.node ||| Touch.stackMem ||| Touch.bridgeMem |||
    Touch.invPend ||| Touch.nextId ||| Touch.rings ||| Touch.retireQ ||| Touch.mapLag ||| Touch.reports ||| Touch.imsic) &&& ps = (Touch.out ||| Touch.regs ||| Touch.mem ||| Touch.wear ||| Touch.log ||| Touch.logBase |||
    Touch.cores ||| Touch.bells ||| Touch.node ||| Touch.stackMem ||| Touch.bridgeMem |||
    Touch.invPend ||| Touch.nextId ||| Touch.rings ||| Touch.retireQ ||| Touch.mapLag ||| Touch.reports ||| Touch.imsic))
    (hf : ∀ t r o bs, Touches ps t (run t r o bs)) : Touches ps s (s.takeEntry ring op flaws run) := by
  unfold State.takeEntry
  split
  · exact Touches.refl _ _
  · next r o bs _ =>
    have h0 : Touches ps s (s.fetchEntry r o.idx flaws).1 :=
      (State.fetchEntry_touches ..).mono (Touches.sub_trans (by decide) hp)
    split
    · next he => rw [he] at h0; exact (State.entryLost_touches ..).after h0 (Touches.sub_trans (by decide) hp)
    · next t he =>
      rw [he] at h0
      split
      · exact Touches.refl _ _
      · have h1 : Touches ps s (t.pushOp r o) := (State.pushOp_touches ..).after h0 (Touches.sub_trans (by decide) hp)
        dsimp only
        repeat' first
          | exact (State.finishOp_touches ..).after h1 (Touches.sub_trans (by decide) hp)
          | exact h1.trans (hf ..)
          | split

theorem State.setOp_touches (s : State) (r : Rec) (o : RingOp) :
    Touches (Touch.rings) s (State.setOp s r o) := by
  unfold State.setOp
  repeat'
    first
      | with_reducible exact Touches.refl _ _
      | with_reducible assumption
      | decide
      | (extract_lets +onlyGivenNames x; with_reducible refine Touches.cut (t := x) ?_ ?_; subst x; rotate_left; clear_value x; revert x; intro _ _; rotate_right)
      | (extract_lets +onlyGivenNames x; clear_value x; revert x; intro _)
      | split
      | with_reducible apply Touches.after (State.setRing_touches ..)

theorem State.sealMessage_touches (s : State) (ctx : Nat) (mtu : Nat) (hdrs : List (List Byte)) (pay : List Byte) :
    Touches (Touch.conf) s (State.sealMessage s ctx mtu hdrs pay).1 := by
  unfold State.sealMessage
  repeat'
    first
      | with_reducible exact Touches.refl _ _
      | with_reducible assumption
      | decide
      | split
      | with_reducible apply Touches.after (State.sealAll_touches ..)
      | dsimp only

theorem State.message_touches (s : State) (r : Rec) (o : RingOp) (w : Wire) (plain : List Byte) :
    Touches (Touch.out ||| Touch.regs ||| Touch.mem ||| Touch.log ||| Touch.logBase ||| Touch.cores
    ||| Touch.bells ||| Touch.node ||| Touch.tithes ||| Touch.stackMem ||| Touch.bridgeMem |||
    Touch.invPend ||| Touch.nextId ||| Touch.rings ||| Touch.egress ||| Touch.conf ||| Touch.sas |||
    Touch.reports ||| Touch.heldOut ||| Touch.imsic) s (State.message s r o w plain):= by
  unfold State.message
  repeat'
    first
      | with_reducible exact Touches.refl _ _
      | with_reducible assumption
      | decide
      | (extract_lets +onlyGivenNames x; with_reducible refine Touches.cut (t := x) ?_ ?_; subst x; rotate_left; clear_value x; revert x; intro _ _; rotate_right)
      | (extract_lets +onlyGivenNames x; clear_value x; revert x; intro _)
      | split
      | with_reducible refine Touches.of_fst ‹State.sealMessage _ _ _ _ _ = _› (Touches.after (State.sealMessage_touches ..) ?_ ?_)
      | with_reducible apply Touches.after (State.sealMessage_touches ..)
      | with_reducible apply Touches.after (State.sendDone_touches ..)
      | with_reducible apply Touches.after (State.sendOut_touches ..)
      | with_reducible apply Touches.after (State.setOp_touches ..)

theorem execSendInline_touches (ring : Fin 32768) (w : Wire) (s : State) :
    Answers (Touch.out ||| Touch.regs ||| Touch.mem ||| Touch.wear ||| Touch.log ||| Touch.logBase
    ||| Touch.cores ||| Touch.bells ||| Touch.node ||| Touch.tithes ||| Touch.stackMem |||
    Touch.bridgeMem ||| Touch.invPend ||| Touch.nextId ||| Touch.rings ||| Touch.egress |||
    Touch.conf ||| Touch.sas ||| Touch.retireQ ||| Touch.mapLag ||| Touch.reports ||| Touch.heldOut
    ||| Touch.imsic)
    s
    (execSendInline ring w s):= by
  unfold execSendInline
  repeat'
    first
      | with_reducible apply Answers.next
      | with_reducible exact Touches.refl _ _
      | decide
      | (extract_lets +onlyGivenNames nx; subst nx)
      | split
      | with_reducible refine Touches.trans ?_ (State.takeEntry_touches ?_ fun _ _ _ _ => ?_)
      | with_reducible refine Touches.of_fst ‹State.sealMessage _ _ _ _ = _› (Touches.after (State.sealMessage_touches ..) ?_ ?_)
      | with_reducible apply Touches.after (State.sendDone_touches ..)
      | with_reducible apply Touches.after (State.message_touches ..)

theorem State.entryLedger_touches (s : State) (r : Rec) (o : RingOp) (wr : Bool) :
    Touches (Touch.regs ||| Touch.mem ||| Touch.stackMem ||| Touch.bridgeMem ||| Touch.led) s
      (State.entryLedger s r o wr) := by
  unfold State.entryLedger
  repeat'
    first
      | with_reducible exact Touches.refl _ _
      | with_reducible assumption
      | decide
      | split
      | with_reducible apply Touches.after (State.dmaLedger_touches ..)

theorem State.entryRead_touches {ps : Nat} {s : State} {r : Rec} {o : RingOp} {flaws : Flaws}
    {run : State → List Byte → State} (hp : (Touch.out ||| Touch.regs ||| Touch.mem ||| Touch.wear ||| Touch.log ||| Touch.logBase |||
    Touch.cores ||| Touch.bells ||| Touch.node ||| Touch.stackMem ||| Touch.bridgeMem |||
    Touch.invPend ||| Touch.nextId ||| Touch.rings ||| Touch.retireQ ||| Touch.mapLag |||
    Touch.reports ||| Touch.led ||| Touch.imsic) &&& ps = (Touch.out ||| Touch.regs ||| Touch.mem ||| Touch.wear ||| Touch.log ||| Touch.logBase |||
    Touch.cores ||| Touch.bells ||| Touch.node ||| Touch.stackMem ||| Touch.bridgeMem |||
    Touch.invPend ||| Touch.nextId ||| Touch.rings ||| Touch.retireQ ||| Touch.mapLag |||
    Touch.reports ||| Touch.led ||| Touch.imsic))
    (hf : ∀ t bs, Touches ps t (run t bs)) : Touches ps s (s.entryRead r o flaws run) := by
  have h1 := ((State.entryLedger_touches s r o false).mono (Touches.sub_trans (by decide) hp)).trans
    ((State.engineRead_touches (s.entryLedger r o false) portIssuer (ringCtx r) o.addr o.len flaws).mono
      (Touches.sub_trans (by decide) hp))
  unfold State.entryRead
  split
  · next he => rw [he] at h1; exact (State.finishOp_touches ..).after h1 (Touches.sub_trans (by decide) hp)
  · next he => rw [he] at h1; exact h1.trans (hf ..)

theorem execRingSend_touches (ring : Fin 32768) (w : Wire) (flaws : Flaws) (s : State) :
    Answers (Touch.out ||| Touch.regs ||| Touch.mem ||| Touch.wear ||| Touch.log ||| Touch.logBase
    ||| Touch.cores ||| Touch.bells ||| Touch.node ||| Touch.tithes ||| Touch.stackMem |||
    Touch.bridgeMem ||| Touch.invPend ||| Touch.nextId ||| Touch.rings ||| Touch.egress |||
    Touch.conf ||| Touch.sas ||| Touch.led ||| Touch.retireQ ||| Touch.mapLag ||| Touch.reports |||
    Touch.heldOut ||| Touch.imsic) s (execRingSend ring w flaws s):= by
  unfold execRingSend
  repeat'
    first
      | with_reducible apply Answers.next
      | with_reducible exact Touches.refl _ _
      | decide
      | (extract_lets +onlyGivenNames nx; subst nx)
      | split
      | with_reducible refine Touches.trans ?_ (State.takeEntry_touches ?_ fun _ _ _ _ => ?_)
      | with_reducible refine Touches.trans ?_ (State.entryRead_touches ?_ fun _ _ => ?_)
      | with_reducible refine Touches.of_fst ‹State.sealMessage _ _ _ _ = _› (Touches.after (State.sealMessage_touches ..) ?_ ?_)
      | with_reducible apply Touches.after (State.sendDone_touches ..)
      | with_reducible apply Touches.after (State.message_touches ..)

theorem execRdmaWrite_touches (ring : Fin 32768) (w : Wire) (flaws : Flaws) (s : State) :
    Answers (Touch.out ||| Touch.regs ||| Touch.mem ||| Touch.wear ||| Touch.log ||| Touch.logBase
    ||| Touch.cores ||| Touch.bells ||| Touch.node ||| Touch.tithes ||| Touch.stackMem |||
    Touch.bridgeMem ||| Touch.invPend ||| Touch.nextId ||| Touch.rings ||| Touch.egress |||
    Touch.conf ||| Touch.sas ||| Touch.led ||| Touch.retireQ ||| Touch.mapLag ||| Touch.reports |||
    Touch.heldOut ||| Touch.imsic) s (execRdmaWrite ring w flaws s):= by
  unfold execRdmaWrite
  repeat'
    first
      | with_reducible apply Answers.next
      | with_reducible exact Touches.refl _ _
      | decide
      | split
      | with_reducible refine Touches.trans ?_ (State.takeEntry_touches ?_ fun _ _ _ _ => ?_)
      | with_reducible apply Touches.after (State.finishOp_touches ..)
      | with_reducible refine Touches.trans ?_ (State.entryRead_touches ?_ fun _ _ => ?_)
      | with_reducible refine Touches.of_fst ‹State.sealMessage _ _ _ _ = _› (Touches.after (State.sealMessage_touches ..) ?_ ?_)
      | with_reducible apply Touches.after (State.message_touches ..)

theorem execRawTx_touches (ring : Fin 32768) (w : Wire) (flaws : Flaws) (s : State) :
    Answers (Touch.out ||| Touch.regs ||| Touch.mem ||| Touch.wear ||| Touch.log ||| Touch.logBase
    ||| Touch.cores ||| Touch.bells ||| Touch.node ||| Touch.tithes ||| Touch.stackMem |||
    Touch.bridgeMem ||| Touch.invPend ||| Touch.nextId ||| Touch.rings ||| Touch.egress |||
    Touch.sas ||| Touch.led ||| Touch.retireQ ||| Touch.mapLag ||| Touch.reports ||| Touch.heldOut
    ||| Touch.imsic) s (execRawTx
    ring w flaws s):= by
  unfold execRawTx
  repeat'
    first
      | with_reducible apply Answers.next
      | with_reducible exact Touches.refl _ _
      | decide
      | split
      | with_reducible refine Touches.trans ?_ (State.takeEntry_touches ?_ fun _ _ _ _ => ?_)
      | with_reducible refine Touches.trans ?_ (State.entryRead_touches ?_ fun _ _ => ?_)
      | with_reducible apply Touches.after (State.sendOut_touches ..)

theorem State.takeControl_touches {s : State} {ring op step : Nat} {t : State} {q : Rec × RingOp} (h : s.takeControl ring op step = some (t, q)) :
    Touches (Touch.rings) s t := by
  unfold State.takeControl at h
  split at h
  · cases h
  · dsimp only at h
    split at h
    · cases h
    · split at h
      · cases h
      · cases h
        exact (State.setRing_touches ..).mono (by decide)

theorem State.endControl_touches (s : State) (r : Rec) (o : RingOp) (fin : Nat × Nat × Nat × Nat)
    (made : Option (Nat × Nat)) : Touches (Touch.out ||| Touch.regs ||| Touch.mem ||| Touch.log |||
    Touch.logBase ||| Touch.cores ||| Touch.bells ||| Touch.node ||| Touch.stackMem |||
    Touch.bridgeMem ||| Touch.invPend ||| Touch.nextId ||| Touch.rings ||| Touch.reports |||
    Touch.imsic) s
    (State.endControl s r o fin made):= by
  unfold State.endControl
  repeat'
    first
      | with_reducible exact Touches.refl _ _
      | with_reducible assumption
      | decide
      | (extract_lets +onlyGivenNames x; with_reducible refine Touches.cut (t := x) ?_ ?_; subst x; rotate_left; clear_value x; revert x; intro _ _; rotate_right)
      | (extract_lets +onlyGivenNames x; clear_value x; revert x; intro _)
      | split
      | with_reducible apply Touches.after (State.flushControl_touches ..)
      | with_reducible apply Touches.after (State.raise_touches ..)
      | with_reducible apply Touches.after (State.setRing_touches ..)

theorem State.failControl_touches (s : State) (r : Rec) (o : RingOp) (status : Nat) : Touches
    (Touch.out ||| Touch.regs ||| Touch.mem ||| Touch.log ||| Touch.logBase ||| Touch.cores |||
    Touch.bells ||| Touch.node ||| Touch.stackMem ||| Touch.bridgeMem ||| Touch.invPend |||
    Touch.nextId ||| Touch.rings ||| Touch.reports ||| Touch.imsic) s (State.failControl s r o
    status):= by
  unfold State.failControl
  repeat'
    first
      | with_reducible exact Touches.refl _ _
      | with_reducible assumption
      | decide
      | split
      | with_reducible apply Touches.after (State.endControl_touches ..)

theorem execKeyxRequest_touches (ring : Fin 32768) (s : State) :
    Answers (Touch.free ||| Touch.out ||| Touch.regs ||| Touch.mem ||| Touch.log ||| Touch.logBase
    ||| Touch.cores ||| Touch.bells ||| Touch.node ||| Touch.stackMem ||| Touch.bridgeMem |||
    Touch.invPend ||| Touch.nextId ||| Touch.rings ||| Touch.conf ||| Touch.lms ||| Touch.reports
    ||| Touch.imsic) s
    (execKeyxRequest
    ring s):= by
  unfold execKeyxRequest
  repeat'
    first
      | with_reducible apply Answers.next
      | with_reducible exact Touches.refl _ _
      | decide
      | (extract_lets +onlyGivenNames nx; subst nx)
      | split
      | with_reducible refine Touches.after (State.takeControl_touches ‹State.takeControl _ _ _ _ = some _›) ?_ ?_
      | with_reducible apply Touches.after (State.endControl_touches ..)
      | with_reducible refine Touches.of_snd ‹State.takeFree _ = _› (Touches.after (State.takeFree_touches ..) ?_ ?_)
      | with_reducible refine Touches.after (State.sign_touches ‹State.sign _ _ = some _›) ?_ ?_
      | with_reducible apply Touches.after (State.setConf_touches ..)
      | with_reducible apply Touches.after (State.engineWrite_touches ..)
      | with_reducible apply Touches.after (State.failControl_touches ..)
      | with_reducible refine Touches.of_fst ‹State.engineStore _ _ _ _ _ = _› (Touches.after (State.engineStore_touches ..) ?_ ?_)
      | with_reducible apply Touches.after (State.engineStore_touches ..)

theorem execKeyxCiphertext_touches (ring : Fin 32768) (flaws : Flaws) (s : State) :
    Answers (Touch.out ||| Touch.regs ||| Touch.mem ||| Touch.wear ||| Touch.log ||| Touch.logBase
    ||| Touch.cores ||| Touch.bells ||| Touch.node ||| Touch.stackMem ||| Touch.bridgeMem |||
    Touch.invPend ||| Touch.nextId ||| Touch.rings ||| Touch.conf ||| Touch.retireQ ||| Touch.mapLag
    ||| Touch.reports ||| Touch.imsic) s (execKeyxCiphertext ring flaws s):= by
  unfold execKeyxCiphertext
  repeat'
    first
      | with_reducible apply Answers.next
      | with_reducible exact Touches.refl _ _
      | decide
      | (extract_lets +onlyGivenNames nx; subst nx)
      | split
      | with_reducible refine Touches.after (State.takeControl_touches ‹State.takeControl _ _ _ _ = some _›) ?_ ?_
      | with_reducible apply Touches.after (State.endControl_touches ..)
      | with_reducible refine Touches.of_fst ‹State.engineRead _ _ _ _ _ _ = _› (Touches.after (State.engineRead_touches ..) ?_ ?_)
      | with_reducible apply Touches.after (State.setConf_touches ..)
      | with_reducible apply Touches.after (State.failControl_touches ..)

theorem execBounce_touches (ring : Fin 32768) (s : State) :
    Answers (Touch.out ||| Touch.regs ||| Touch.mem ||| Touch.log ||| Touch.logBase ||| Touch.cores
    ||| Touch.bells ||| Touch.node ||| Touch.stackMem ||| Touch.bridgeMem ||| Touch.invPend |||
    Touch.nextId ||| Touch.rings ||| Touch.conf ||| Touch.reports ||| Touch.imsic) s (execBounce
    ring s):= by
  unfold execBounce
  repeat'
    first
      | with_reducible apply Answers.next
      | with_reducible exact Touches.refl _ _
      | decide
      | (extract_lets +onlyGivenNames nx; subst nx)
      | split
      | with_reducible refine Touches.after (State.takeControl_touches ‹State.takeControl _ _ _ _ = some _›) ?_ ?_
      | with_reducible apply Touches.after (State.endControl_touches ..)
      | with_reducible apply Touches.after (State.setConf_touches ..)
      | with_reducible apply Touches.after (State.failControl_touches ..)

theorem State.nakFatal_touches (s : State) (f : InFrame) (qpn : Nat) (m : Roce) : Touches (Touch.out
    ||| Touch.regs ||| Touch.mem ||| Touch.wear ||| Touch.log ||| Touch.logBase ||| Touch.cores |||
    Touch.bells ||| Touch.node ||| Touch.tithes ||| Touch.stackMem ||| Touch.bridgeMem |||
    Touch.invPend ||| Touch.nextId ||| Touch.rings ||| Touch.egress ||| Touch.qpErr ||| Touch.sas
    ||| Touch.retireQ ||| Touch.mapLag ||| Touch.reports ||| Touch.heldOut ||| Touch.imsic) s
    (State.nakFatal s f
    qpn m):= by
  unfold State.nakFatal
  repeat'
    first
      | with_reducible exact Touches.refl _ _
      | decide
      | with_reducible apply Touches.after (State.qpFails_touches ..)
      | with_reducible apply Touches.after (State.answerOut_touches ..)

theorem State.ackOut_touches (s : State) (f : InFrame) (qpn : Nat) : Touches (Touch.out |||
    Touch.regs ||| Touch.mem ||| Touch.log ||| Touch.logBase ||| Touch.cores ||| Touch.bells |||
    Touch.node ||| Touch.tithes ||| Touch.stackMem ||| Touch.bridgeMem ||| Touch.invPend |||
    Touch.nextId ||| Touch.rings ||| Touch.egress ||| Touch.sas ||| Touch.reports ||| Touch.heldOut
    ||| Touch.imsic) s (State.ackOut s f qpn):= by
  unfold State.ackOut
  repeat'
    first
      | with_reducible exact Touches.refl _ _
      | decide
      | split
      | with_reducible apply Touches.after (State.answerOut_touches ..)

theorem State.noteControl_touches (s : State) (r : Rec) (idx : Nat) (bs : List Byte) : Touches
    (Touch.out ||| Touch.regs ||| Touch.mem ||| Touch.log ||| Touch.logBase ||| Touch.cores |||
    Touch.bells ||| Touch.node ||| Touch.stackMem ||| Touch.bridgeMem ||| Touch.invPend |||
    Touch.nextId ||| Touch.rings ||| Touch.reports ||| Touch.imsic) s (State.noteControl s r idx bs):= by
  unfold State.noteControl
  repeat'
    first
      | with_reducible exact Touches.refl _ _
      | decide
      | (extract_lets +onlyGivenNames nx; subst nx)
      | split
      | with_reducible apply Touches.after (State.pushOp_touches ..)
      | with_reducible apply Touches.after (State.flushControl_touches ..)
      | with_reducible apply Touches.after (State.raise_touches ..)

theorem State.recvSend_touches (s : State) (f : InFrame) (qpn : Nat) (hdr : List Byte) (pay : List
    Byte) : Touches (Touch.out ||| Touch.regs ||| Touch.mem ||| Touch.wear ||| Touch.log |||
    Touch.logBase ||| Touch.cores ||| Touch.bells ||| Touch.node ||| Touch.tithes ||| Touch.stackMem
    ||| Touch.bridgeMem ||| Touch.invPend ||| Touch.nextId ||| Touch.rings ||| Touch.egress |||
    Touch.qpErr ||| Touch.conf ||| Touch.sas ||| Touch.retireQ ||| Touch.mapLag ||| Touch.reports
    ||| Touch.heldOut ||| Touch.imsic) s (State.recvSend s f qpn hdr pay):= by
  unfold State.recvSend
  repeat'
    first
      | with_reducible exact Touches.refl _ _
      | with_reducible assumption
      | decide
      | (extract_lets +onlyGivenNames nx; with_reducible refine Touches.cut (t := nx) ?_ ?_; subst nx; rotate_left; revert nx; intro _ _; rotate_right)
      | (extract_lets +onlyGivenNames nx; subst nx)
      | split
      | with_reducible apply Touches.after (State.nakFatal_touches ..)
      | with_reducible refine Touches.of_fst ‹State.openIn _ _ _ _ = _› (Touches.after (State.openIn_touches ..) ?_ ?_)
      | with_reducible apply Touches.after (State.answerOut_touches ..)
      | with_reducible apply Touches.after (State.noteControl_touches ..)
      | with_reducible apply Touches.after (State.engineWrite_touches ..)
      | with_reducible apply Touches.after (State.ackOut_touches ..)
      | with_reducible apply Touches.after (State.sendDone_touches ..)
      | with_reducible apply Touches.after (State.publish_touches ..)
      | with_reducible refine Touches.foldl ?_ fun _ _ => ?_

theorem State.recvWrite_touches (s : State) (f : InFrame) (qpn : Nat) (hdr : List Byte) (va : Nat)
    (rkey : Nat) (pay : List Byte) : Touches (Touch.out ||| Touch.regs ||| Touch.mem ||| Touch.wear
    ||| Touch.log ||| Touch.logBase ||| Touch.cores ||| Touch.bells ||| Touch.node ||| Touch.tithes
    ||| Touch.stackMem ||| Touch.bridgeMem ||| Touch.invPend ||| Touch.nextId ||| Touch.rings |||
    Touch.egress ||| Touch.qpErr ||| Touch.conf ||| Touch.sas ||| Touch.led ||| Touch.retireQ |||
    Touch.mapLag ||| Touch.reports ||| Touch.heldOut ||| Touch.imsic) s (State.recvWrite s f qpn hdr
    va rkey pay):= by
  unfold State.recvWrite
  repeat'
    first
      | with_reducible exact Touches.refl _ _
      | decide
      | (extract_lets +onlyGivenNames x; with_reducible refine Touches.cut (t := x) ?_ ?_; subst x; rotate_left; clear_value x; revert x; intro _ _; rotate_right)
      | (extract_lets +onlyGivenNames x; clear_value x; revert x; intro _)
      | with_reducible assumption
      | split
      | with_reducible refine Touches.of_fst ‹State.openIn _ _ _ _ = _› (Touches.after (State.openIn_touches ..) ?_ ?_)
      | with_reducible apply Touches.after (State.nakFatal_touches ..)
      | with_reducible apply Touches.after (State.raiseStatus_touches ..)
      | with_reducible apply Touches.after (State.ackOut_touches ..)
      | with_reducible apply Touches.after (State.engineWrite_touches ..)
      | with_reducible refine Touches.of_fst ‹State.engineStore _ _ _ _ _ = _› (Touches.after (State.engineStore_touches ..) ?_ ?_)
      | with_reducible apply Touches.after (State.engineStore_touches ..)
      | with_reducible apply Touches.after (State.dmaLedger_touches ..)

theorem State.slowDown_touches (s : State) (qpn : Nat) :
    Touches (Touch.qpRate) s (State.slowDown s qpn) := by
  unfold State.slowDown
  repeat'
    first
      | with_reducible exact Touches.refl _ _
      | decide
      | (extract_lets +onlyGivenNames nx; subst nx)
      | split
      | with_reducible apply Touches.set_qpRate

theorem State.recvRaw_touches (s : State) (t : Nat) (bytes : List Byte) : Touches (Touch.out |||
    Touch.regs ||| Touch.mem ||| Touch.log ||| Touch.logBase ||| Touch.cores ||| Touch.bells |||
    Touch.node ||| Touch.stackMem ||| Touch.bridgeMem ||| Touch.invPend ||| Touch.nextId |||
    Touch.rings ||| Touch.reports ||| Touch.imsic) s (State.recvRaw s t bytes):= by
  unfold State.recvRaw
  repeat'
    first
      | with_reducible exact Touches.refl _ _
      | with_reducible assumption
      | decide
      | (extract_lets +onlyGivenNames nx; with_reducible refine Touches.cut (t := nx) ?_ ?_; subst nx; rotate_left; revert nx; intro _ _; rotate_right)
      | (extract_lets +onlyGivenNames nx; subst nx)
      | split
      | with_reducible apply Touches.after (State.engineWrite_touches ..)
      | with_reducible refine State.produceOr_touches ?_ ?_ ?_
      | with_reducible apply Touches.after (State.bump_touches ..)

theorem State.recvRead_touches (s : State) (f : InFrame) (qpn : Nat) (va : Nat) (rkey : Nat) (len :
    Nat) (flaws : Flaws) : Touches (Touch.out ||| Touch.regs ||| Touch.mem ||| Touch.wear |||
    Touch.log ||| Touch.logBase ||| Touch.cores ||| Touch.bells ||| Touch.node ||| Touch.tithes |||
    Touch.stackMem ||| Touch.bridgeMem ||| Touch.invPend ||| Touch.nextId ||| Touch.rings |||
    Touch.egress ||| Touch.qpErr ||| Touch.conf ||| Touch.sas ||| Touch.led ||| Touch.retireQ |||
    Touch.mapLag ||| Touch.reports ||| Touch.heldOut ||| Touch.imsic) s (State.recvRead s f qpn va
    rkey len flaws):= by
  unfold State.recvRead
  repeat'
    first
      | with_reducible exact Touches.refl _ _
      | with_reducible assumption
      | decide
      | (extract_lets +onlyGivenNames x; with_reducible refine Touches.cut (t := x) ?_ ?_; subst x; rotate_left; clear_value x; revert x; intro _ _; rotate_right)
      | (extract_lets +onlyGivenNames x; clear_value x; revert x; intro _)
      | split
      | with_reducible apply Touches.after (State.answerOut_touches ..)
      | with_reducible refine Touches.of_fst ‹State.engineRead _ _ _ _ _ _ = _› (Touches.after (State.engineRead_touches ..) ?_ ?_)
      | with_reducible apply Touches.after (State.engineRead_touches ..)
      | with_reducible apply Touches.after (State.nakFatal_touches ..)
      | with_reducible refine Touches.of_fst ‹State.sealMessage _ _ _ _ _ = _› (Touches.after (State.sealMessage_touches ..) ?_ ?_)
      | with_reducible apply Touches.after (State.sealMessage_touches ..)
      | with_reducible apply Touches.after (State.dmaLedger_touches ..)

theorem State.sealAgain_touches (s : State) (f : InFrame) (r : Rec) (o : RingOp) :
    Touches (Touch.conf) s (State.sealAgain s f r o).1 := by
  unfold State.sealAgain
  repeat'
    first
      | with_reducible exact Touches.refl _ _
      | with_reducible assumption
      | decide
      | split
      | with_reducible refine Touches.of_fst ‹State.sealMessage _ _ _ _ _ = _› (Touches.after (State.sealMessage_touches ..) ?_ ?_)
      | with_reducible apply Touches.after (State.sealMessage_touches ..)
      | dsimp only

theorem State.resendOp_touches (s : State) (f : InFrame) (r : Rec) (o : RingOp) : Touches (Touch.out
    ||| Touch.regs ||| Touch.mem ||| Touch.log ||| Touch.logBase ||| Touch.cores ||| Touch.bells |||
    Touch.node ||| Touch.tithes ||| Touch.stackMem ||| Touch.bridgeMem ||| Touch.invPend |||
    Touch.nextId ||| Touch.rings ||| Touch.egress ||| Touch.conf ||| Touch.sas ||| Touch.reports |||
    Touch.heldOut ||| Touch.imsic) s (State.resendOp s f r o):= by
  unfold State.resendOp
  repeat'
    first
      | with_reducible exact Touches.refl _ _
      | with_reducible assumption
      | decide
      | (extract_lets +onlyGivenNames x; with_reducible refine Touches.cut (t := x) ?_ ?_; subst x; rotate_left; clear_value x; revert x; intro _ _; rotate_right)
      | (extract_lets +onlyGivenNames x; clear_value x; revert x; intro _)
      | split
      | with_reducible apply Touches.after (State.answerOut_touches ..)
      | with_reducible refine Touches.of_fst ‹State.sealAgain _ _ _ _ = _› (Touches.after (State.sealAgain_touches ..) ?_ ?_)
      | with_reducible apply Touches.after (State.sealAgain_touches ..)

theorem State.recvAnswer_touches (s : State) (f : InFrame) (qpn : Nat) (nak : Option Nat) : Touches
    (Touch.out ||| Touch.regs ||| Touch.mem ||| Touch.wear ||| Touch.log ||| Touch.logBase |||
    Touch.cores ||| Touch.bells ||| Touch.node ||| Touch.tithes ||| Touch.stackMem |||
    Touch.bridgeMem ||| Touch.invPend ||| Touch.nextId ||| Touch.rings ||| Touch.egress |||
    Touch.qpErr ||| Touch.conf ||| Touch.sas ||| Touch.retireQ ||| Touch.mapLag ||| Touch.reports
    ||| Touch.heldOut ||| Touch.imsic) s (State.recvAnswer s f qpn nak):= by
  unfold State.recvAnswer
  repeat'
    first
      | with_reducible exact Touches.refl _ _
      | with_reducible assumption
      | decide
      | (extract_lets +onlyGivenNames x; with_reducible refine Touches.cut (t := x) ?_ ?_; subst x; rotate_left; clear_value x; revert x; intro _ _; rotate_right)
      | (extract_lets +onlyGivenNames x; clear_value x; revert x; intro _)
      | split
      | with_reducible apply Touches.after (State.finishOp_touches ..)
      | with_reducible apply Touches.after (State.qpFails_touches ..)
      | with_reducible apply Touches.after (State.resendOp_touches ..)
      | with_reducible apply Touches.after (State.sendDone_touches ..)

theorem State.recvData_touches (s : State) (qpn : Nat) (hdr : List Byte) (off : Nat) (pay : List
    Byte) (last : Bool) : Touches (Touch.out ||| Touch.regs ||| Touch.mem ||| Touch.log |||
    Touch.logBase ||| Touch.cores ||| Touch.bells ||| Touch.node ||| Touch.stackMem |||
    Touch.bridgeMem ||| Touch.invPend ||| Touch.nextId ||| Touch.rings ||| Touch.conf |||
    Touch.reports ||| Touch.imsic) s (State.recvData s qpn hdr off
      pay last) := by
  unfold State.recvData
  repeat'
    first
      | with_reducible exact Touches.refl _ _
      | with_reducible assumption
      | decide
      | (extract_lets +onlyGivenNames x; with_reducible refine Touches.cut (t := x) ?_ ?_; subst x; rotate_left; clear_value x; revert x; intro _ _; rotate_right)
      | (extract_lets +onlyGivenNames x; clear_value x; revert x; intro _)
      | split
      | with_reducible refine Touches.of_fst ‹State.engineStore _ _ _ _ _ = _› (Touches.after (State.engineStore_touches ..) ?_ ?_)
      | with_reducible apply Touches.after (State.engineStore_touches ..)
      | with_reducible apply Touches.after (State.finishOp_touches ..)
      | with_reducible refine Touches.of_fst ‹State.openIn _ _ _ _ = _› (Touches.after (State.openIn_touches ..) ?_ ?_)
      | with_reducible apply Touches.after (State.openIn_touches ..)
      | with_reducible apply Touches.after (State.setOp_touches ..)

theorem State.pfc_touches (s : State) :
    Touches (Touch.out ||| Touch.regs) s (State.pfc s) := by
  unfold State.pfc
  repeat'
    first
      | with_reducible exact Touches.refl _ _
      | decide
      | (extract_lets +onlyGivenNames nx; have : True := (fun (_ : _ → State) => trivial) nx; subst nx; clear this)
      | (extract_lets +onlyGivenNames nx; subst nx)
      | split
      | with_reducible apply Touches.after (State.emit_touches ..)
      | with_reducible apply Touches.after (State.setF_touches ..)
      | with_reducible refine Touches.foldl ?_ fun _ _ => ?_

theorem State.congested_touches (s : State) (f : InFrame) (q : Nat) : Touches (Touch.out |||
    Touch.regs ||| Touch.mem ||| Touch.log ||| Touch.logBase ||| Touch.cores ||| Touch.bells |||
    Touch.node ||| Touch.tithes ||| Touch.stackMem ||| Touch.bridgeMem ||| Touch.invPend |||
    Touch.nextId ||| Touch.rings ||| Touch.egress ||| Touch.cnpAt ||| Touch.sas ||| Touch.reports
    ||| Touch.heldOut ||| Touch.imsic) s (State.congested s f q):= by
  unfold State.congested
  repeat'
    first
      | with_reducible exact Touches.refl _ _
      | with_reducible assumption
      | decide
      | (extract_lets +onlyGivenNames x; with_reducible refine Touches.cut (t := x) ?_ ?_; subst x; rotate_left; clear_value x; revert x; intro _ _; rotate_right)
      | (extract_lets +onlyGivenNames x; clear_value x; revert x; intro _)
      | split
      | with_reducible apply Touches.after (State.answerOut_touches ..)
      | dsimp only
      | with_reducible apply Touches.set_cnpAt

theorem State.runFrame_touches (s : State) (t : Nat) (f : InFrame) : Touches (Touch.out |||
    Touch.regs ||| Touch.mem ||| Touch.wear ||| Touch.log ||| Touch.logBase ||| Touch.cores |||
    Touch.bells ||| Touch.node ||| Touch.tithes ||| Touch.gws ||| Touch.stackMem ||| Touch.bridgeMem
    ||| Touch.invPend ||| Touch.nextId ||| Touch.rings ||| Touch.egress ||| Touch.qpErr |||
    Touch.qpRate ||| Touch.conf ||| Touch.sas ||| Touch.led ||| Touch.retireQ ||| Touch.mapLag |||
    Touch.reports ||| Touch.inbox ||| Touch.heldOut ||| Touch.imsic) s (State.runFrame s t f):= by
  unfold State.runFrame
  repeat'
    first
      | with_reducible exact Touches.refl _ _
      | with_reducible assumption
      | decide
      | split
      | with_reducible apply Touches.after (State.nakFatal_touches ..)
      | with_reducible apply Touches.after (State.recvAnswer_touches ..)
      | with_reducible apply Touches.after (State.recvData_touches ..)
      | with_reducible apply Touches.after (State.recvRaw_touches ..)
      | with_reducible apply Touches.after (State.recvRead_touches ..)
      | with_reducible apply Touches.after (State.recvSend_touches ..)
      | with_reducible apply Touches.after (State.recvWrite_touches ..)
      | with_reducible apply Touches.after (State.reply_touches ..)
      | with_reducible apply Touches.after (State.send_touches ..)
      | with_reducible apply Touches.after (State.slowDown_touches ..)
      | dsimp only
      | with_reducible apply Touches.set_inbox

theorem State.takeFrame_touches (s : State) (t : Nat) (f : InFrame) : Touches (Touch.out |||
    Touch.regs ||| Touch.mem ||| Touch.wear ||| Touch.log ||| Touch.logBase ||| Touch.cores |||
    Touch.bells ||| Touch.node ||| Touch.tithes ||| Touch.gws ||| Touch.stackMem ||| Touch.bridgeMem
    ||| Touch.invPend ||| Touch.nextId ||| Touch.rings ||| Touch.egress ||| Touch.qpErr |||
    Touch.qpRate ||| Touch.cnpAt ||| Touch.conf ||| Touch.sas ||| Touch.led ||| Touch.retireQ |||
    Touch.mapLag ||| Touch.reports ||| Touch.inbox ||| Touch.heldOut ||| Touch.imsic) s
    (State.takeFrame s t f):=
      by
  unfold State.takeFrame
  repeat'
    first
      | with_reducible exact Touches.refl _ _
      | with_reducible assumption
      | decide
      | split
      | with_reducible apply Touches.after (State.congested_touches ..)
      | with_reducible apply Touches.after (State.runFrame_touches ..)

theorem State.admitted_touches (s : State) (site : Nat) (id : Nat) : Touches (Touch.out |||
    Touch.regs ||| Touch.mem ||| Touch.wear ||| Touch.log ||| Touch.logBase ||| Touch.cores |||
    Touch.bells ||| Touch.node ||| Touch.tithes ||| Touch.gws ||| Touch.tracePos ||| Touch.stackMem
    ||| Touch.bridgeMem ||| Touch.invPend ||| Touch.nextId ||| Touch.jobs ||| Touch.xfers |||
    Touch.runs ||| Touch.seqs ||| Touch.rings ||| Touch.ingress ||| Touch.egress ||| Touch.qpErr |||
    Touch.qpRate ||| Touch.cnpAt ||| Touch.conf ||| Touch.sas ||| Touch.led ||| Touch.retireQ |||
    Touch.mapLag ||| Touch.reports ||| Touch.inbox ||| Touch.heldOut ||| Touch.hostLines |||
    Touch.hostResv ||| Touch.imsic) s (State.admitted s site id):= by
  unfold State.admitted
  repeat'
    first
      | with_reducible exact Touches.refl _ _
      | decide
      | (extract_lets +onlyGivenNames nx; subst nx)
      | split
      | with_reducible apply Touches.after (State.launch_touches ..)
      | with_reducible apply Touches.after (State.takeFrame_touches ..)
      | with_reducible apply Touches.after (State.pfc_touches ..)
      | with_reducible apply Touches.after (State.sentOut_touches ..)
      | with_reducible apply Touches.after (State.setTithe_touches ..)
      | with_reducible apply Touches.set_ingress
      | with_reducible apply Touches.set_egress
      | with_reducible apply Touches.set_jobs

theorem State.queueFrame_touches (s : State) (f : InFrame) : Touches (Touch.out ||| Touch.regs |||
    Touch.mem ||| Touch.wear ||| Touch.log ||| Touch.logBase ||| Touch.cores ||| Touch.bells |||
    Touch.node ||| Touch.tithes ||| Touch.gws ||| Touch.tracePos ||| Touch.stackMem |||
    Touch.bridgeMem ||| Touch.invPend ||| Touch.nextId ||| Touch.jobs ||| Touch.xfers ||| Touch.runs
    ||| Touch.seqs ||| Touch.rings ||| Touch.ingress ||| Touch.egress ||| Touch.qpErr |||
    Touch.qpRate ||| Touch.cnpAt ||| Touch.conf ||| Touch.sas ||| Touch.led ||| Touch.retireQ |||
    Touch.mapLag ||| Touch.reports ||| Touch.inbox ||| Touch.heldOut ||| Touch.hostLines |||
    Touch.hostResv ||| Touch.imsic) s (State.queueFrame s f):= by
  unfold State.queueFrame
  repeat'
    first
      | with_reducible exact Touches.refl _ _
      | with_reducible assumption
      | decide
      | (extract_lets +onlyGivenNames x; with_reducible refine Touches.cut (t := x) ?_ ?_; subst x; rotate_left; clear_value x; revert x; intro _ _; rotate_right)
      | (extract_lets +onlyGivenNames x; clear_value x; revert x; intro _)
      | split
      | with_reducible apply Touches.after (State.admitted_touches ..)
      | with_reducible apply Touches.after (State.bump_touches ..)
      | with_reducible apply Touches.after (State.pfc_touches ..)
      | with_reducible apply Touches.after (State.setTithe_touches ..)
      | with_reducible apply Touches.after (State.takeFrame_touches ..)
      | with_reducible apply Touches.after (State.titheAsk_touches ..)
      | dsimp only
      | with_reducible apply Touches.set_ingress
      | with_reducible apply Touches.set_nextId

theorem State.secTake_touches (s : State) (tag : Option SecTag) :
    Touches (Touch.sas) s (State.secTake s tag).1 := by
  unfold State.secTake
  repeat'
    first
      | with_reducible exact Touches.refl _ _
      | with_reducible assumption
      | decide
      | split
      | dsimp only
      | with_reducible apply Touches.set_sas

theorem State.arrive_touches (s : State) (tag : Option SecTag) (f : InFrame) : Touches (Touch.out
    ||| Touch.regs ||| Touch.mem ||| Touch.wear ||| Touch.log ||| Touch.logBase ||| Touch.cores |||
    Touch.bells ||| Touch.node ||| Touch.tithes ||| Touch.gws ||| Touch.tracePos ||| Touch.stackMem
    ||| Touch.bridgeMem ||| Touch.invPend ||| Touch.nextId ||| Touch.jobs ||| Touch.xfers |||
    Touch.runs ||| Touch.seqs ||| Touch.rings ||| Touch.ingress ||| Touch.egress ||| Touch.qpErr |||
    Touch.qpRate ||| Touch.cnpAt ||| Touch.conf ||| Touch.sas ||| Touch.led ||| Touch.retireQ |||
    Touch.mapLag ||| Touch.reports ||| Touch.inbox ||| Touch.heldOut ||| Touch.hostLines |||
    Touch.hostResv ||| Touch.imsic) s (State.arrive s tag f):= by
  unfold State.arrive
  repeat'
    first
      | with_reducible exact Touches.refl _ _
      | with_reducible assumption
      | decide
      | split
      | with_reducible apply Touches.after (State.queueFrame_touches ..)
      | with_reducible refine Touches.of_fst ‹State.secTake _ _ = _› (Touches.after (State.secTake_touches ..) ?_ ?_)
      | with_reducible apply Touches.after (State.secTake_touches ..)

theorem execRawFrameRx_touches (f : FrameIn) (bytes : List Byte) (s : State) :
    Answers (Touch.out ||| Touch.regs ||| Touch.mem ||| Touch.wear ||| Touch.log ||| Touch.logBase
    ||| Touch.cores ||| Touch.bells ||| Touch.node ||| Touch.tithes ||| Touch.gws ||| Touch.tracePos
    ||| Touch.stackMem ||| Touch.bridgeMem ||| Touch.invPend ||| Touch.nextId ||| Touch.jobs |||
    Touch.xfers ||| Touch.runs ||| Touch.seqs ||| Touch.rings ||| Touch.ingress ||| Touch.egress |||
    Touch.qpErr ||| Touch.qpRate ||| Touch.cnpAt ||| Touch.conf ||| Touch.sas ||| Touch.led |||
    Touch.retireQ ||| Touch.mapLag ||| Touch.reports ||| Touch.inbox ||| Touch.heldOut |||
    Touch.hostLines ||| Touch.hostResv ||| Touch.imsic) s
    (execRawFrameRx f bytes s):= by
  unfold execRawFrameRx
  repeat'
    first
      | with_reducible apply Answers.next
      | with_reducible exact Touches.refl _ _
      | decide
      | split
      | with_reducible apply Touches.after (State.arrive_touches ..)

theorem execInboundSend_touches (f : FrameIn) (qpn : BitVec 24) (hdr : List Byte) (pay : List Byte) (s : State) :
    Answers (Touch.out ||| Touch.regs ||| Touch.mem ||| Touch.wear ||| Touch.log ||| Touch.logBase
    ||| Touch.cores ||| Touch.bells ||| Touch.node ||| Touch.tithes ||| Touch.gws ||| Touch.tracePos
    ||| Touch.stackMem ||| Touch.bridgeMem ||| Touch.invPend ||| Touch.nextId ||| Touch.jobs |||
    Touch.xfers ||| Touch.runs ||| Touch.seqs ||| Touch.rings ||| Touch.ingress ||| Touch.egress |||
    Touch.qpErr ||| Touch.qpRate ||| Touch.cnpAt ||| Touch.conf ||| Touch.sas ||| Touch.led |||
    Touch.retireQ ||| Touch.mapLag ||| Touch.reports ||| Touch.inbox ||| Touch.heldOut |||
    Touch.hostLines ||| Touch.hostResv ||| Touch.imsic) s
    (execInboundSend f qpn hdr pay s):= by
  unfold execInboundSend
  repeat'
    first
      | with_reducible apply Answers.next
      | with_reducible exact Touches.refl _ _
      | decide
      | split
      | with_reducible apply Touches.after (State.arrive_touches ..)

theorem execInboundRdmaWrite_touches (f : FrameIn) (qpn : BitVec 24) (hdr : List Byte) (va : BitVec
    64) (rkey : BitVec 32) (pay : List Byte) (s : State) :
    Answers (Touch.out ||| Touch.regs ||| Touch.mem ||| Touch.wear ||| Touch.log ||| Touch.logBase
    ||| Touch.cores ||| Touch.bells ||| Touch.node ||| Touch.tithes ||| Touch.gws ||| Touch.tracePos
    ||| Touch.stackMem ||| Touch.bridgeMem ||| Touch.invPend ||| Touch.nextId ||| Touch.jobs |||
    Touch.xfers ||| Touch.runs ||| Touch.seqs ||| Touch.rings ||| Touch.ingress ||| Touch.egress |||
    Touch.qpErr ||| Touch.qpRate ||| Touch.cnpAt ||| Touch.conf ||| Touch.sas ||| Touch.led |||
    Touch.retireQ ||| Touch.mapLag ||| Touch.reports ||| Touch.inbox ||| Touch.heldOut |||
    Touch.hostLines ||| Touch.hostResv ||| Touch.imsic) s
    (execInboundRdmaWrite f qpn hdr va rkey pay s):= by
  unfold execInboundRdmaWrite
  repeat'
    first
      | with_reducible apply Answers.next
      | with_reducible exact Touches.refl _ _
      | decide
      | split
      | with_reducible apply Touches.after (State.arrive_touches ..)

theorem execInboundRdmaRead_touches (f : FrameIn) (qpn : BitVec 24) (hdr : List Byte) (va : BitVec
    64) (rkey : BitVec 32) (len : BitVec 24) (flaws : Flaws) (s : State) :
    Answers (Touch.out ||| Touch.regs ||| Touch.mem ||| Touch.wear ||| Touch.log ||| Touch.logBase
    ||| Touch.cores ||| Touch.bells ||| Touch.node ||| Touch.tithes ||| Touch.gws ||| Touch.tracePos
    ||| Touch.stackMem ||| Touch.bridgeMem ||| Touch.invPend ||| Touch.nextId ||| Touch.jobs |||
    Touch.xfers ||| Touch.runs ||| Touch.seqs ||| Touch.rings ||| Touch.ingress ||| Touch.egress |||
    Touch.qpErr ||| Touch.qpRate ||| Touch.cnpAt ||| Touch.conf ||| Touch.sas ||| Touch.led |||
    Touch.retireQ ||| Touch.mapLag ||| Touch.reports ||| Touch.inbox ||| Touch.heldOut |||
    Touch.hostLines ||| Touch.hostResv ||| Touch.imsic) s
    (execInboundRdmaRead f qpn hdr va rkey len flaws s):= by
  unfold execInboundRdmaRead
  repeat'
    first
      | with_reducible apply Answers.next
      | with_reducible exact Touches.refl _ _
      | decide
      | split
      | with_reducible apply Touches.after (State.arrive_touches ..)

theorem execUnsupportedRequest_touches (f : FrameIn) (qpn : BitVec 24) (s : State) :
    Answers (Touch.out ||| Touch.regs ||| Touch.mem ||| Touch.wear ||| Touch.log ||| Touch.logBase
    ||| Touch.cores ||| Touch.bells ||| Touch.node ||| Touch.tithes ||| Touch.gws ||| Touch.tracePos
    ||| Touch.stackMem ||| Touch.bridgeMem ||| Touch.invPend ||| Touch.nextId ||| Touch.jobs |||
    Touch.xfers ||| Touch.runs ||| Touch.seqs ||| Touch.rings ||| Touch.ingress ||| Touch.egress |||
    Touch.qpErr ||| Touch.qpRate ||| Touch.cnpAt ||| Touch.conf ||| Touch.sas ||| Touch.led |||
    Touch.retireQ ||| Touch.mapLag ||| Touch.reports ||| Touch.inbox ||| Touch.heldOut |||
    Touch.hostLines ||| Touch.hostResv ||| Touch.imsic) s
    (execUnsupportedRequest f qpn s):= by
  unfold execUnsupportedRequest
  repeat'
    first
      | with_reducible apply Answers.next
      | with_reducible exact Touches.refl _ _
      | decide
      | split
      | with_reducible apply Touches.after (State.arrive_touches ..)

theorem execCnp_touches (f : FrameIn) (qpn : BitVec 24) (s : State) :
    Answers (Touch.out ||| Touch.regs ||| Touch.mem ||| Touch.wear ||| Touch.log ||| Touch.logBase
    ||| Touch.cores ||| Touch.bells ||| Touch.node ||| Touch.tithes ||| Touch.gws ||| Touch.tracePos
    ||| Touch.stackMem ||| Touch.bridgeMem ||| Touch.invPend ||| Touch.nextId ||| Touch.jobs |||
    Touch.xfers ||| Touch.runs ||| Touch.seqs ||| Touch.rings ||| Touch.ingress ||| Touch.egress |||
    Touch.qpErr ||| Touch.qpRate ||| Touch.cnpAt ||| Touch.conf ||| Touch.sas ||| Touch.led |||
    Touch.retireQ ||| Touch.mapLag ||| Touch.reports ||| Touch.inbox ||| Touch.heldOut |||
    Touch.hostLines ||| Touch.hostResv ||| Touch.imsic) s (execCnp f
    qpn s):= by
  unfold execCnp
  repeat'
    first
      | with_reducible apply Answers.next
      | with_reducible exact Touches.refl _ _
      | decide
      | split
      | with_reducible apply Touches.after (State.arrive_touches ..)

theorem execRoceResponse_touches (f : FrameIn) (qpn : BitVec 24) (answer : RoceAnswer) (s : State) :
    Answers (Touch.out ||| Touch.regs ||| Touch.mem ||| Touch.wear ||| Touch.log ||| Touch.logBase
    ||| Touch.cores ||| Touch.bells ||| Touch.node ||| Touch.tithes ||| Touch.gws ||| Touch.tracePos
    ||| Touch.stackMem ||| Touch.bridgeMem ||| Touch.invPend ||| Touch.nextId ||| Touch.jobs |||
    Touch.xfers ||| Touch.runs ||| Touch.seqs ||| Touch.rings ||| Touch.ingress ||| Touch.egress |||
    Touch.qpErr ||| Touch.qpRate ||| Touch.cnpAt ||| Touch.conf ||| Touch.sas ||| Touch.led |||
    Touch.retireQ ||| Touch.mapLag ||| Touch.reports ||| Touch.inbox ||| Touch.heldOut |||
    Touch.hostLines ||| Touch.hostResv ||| Touch.imsic) s
    (execRoceResponse f qpn answer s):= by
  unfold execRoceResponse
  repeat'
    first
      | with_reducible apply Answers.next
      | with_reducible exact Touches.refl _ _
      | decide
      | split
      | with_reducible apply Touches.after (State.arrive_touches ..)

theorem State.titheAdmit_touches (s : State) (site : Nat) (cls : Nat) : Touches (Touch.out |||
    Touch.regs ||| Touch.mem ||| Touch.wear ||| Touch.log ||| Touch.logBase ||| Touch.cores |||
    Touch.bells ||| Touch.node ||| Touch.tithes ||| Touch.gws ||| Touch.tracePos ||| Touch.stackMem
    ||| Touch.bridgeMem ||| Touch.invPend ||| Touch.nextId ||| Touch.jobs ||| Touch.xfers |||
    Touch.runs ||| Touch.seqs ||| Touch.rings ||| Touch.ingress ||| Touch.egress ||| Touch.qpErr |||
    Touch.qpRate ||| Touch.cnpAt ||| Touch.conf ||| Touch.sas ||| Touch.led ||| Touch.retireQ |||
    Touch.mapLag ||| Touch.reports ||| Touch.inbox ||| Touch.heldOut ||| Touch.hostLines |||
    Touch.hostResv ||| Touch.imsic) s (State.titheAdmit s site
    cls):= by
  unfold State.titheAdmit
  repeat'
    first
      | with_reducible exact Touches.refl _ _
      | with_reducible assumption
      | decide
      | (extract_lets +onlyGivenNames nx; with_reducible refine Touches.cut (t := nx) ?_ ?_; subst nx; rotate_left; revert nx; intro _ _; rotate_right)
      | (extract_lets +onlyGivenNames nx; subst nx)
      | split
      | with_reducible apply Touches.after (State.titheCharge_touches ..)
      | with_reducible apply Touches.after (State.admitted_touches ..)
      | with_reducible apply Touches.after (State.setTithe_touches ..)
      | with_reducible apply Touches.after (State.titheRetry_touches ..)

theorem execPfcFrame_touches (prio : Fin 8) (pause : Bool) (s : State) :
    Answers (Touch.out ||| Touch.regs ||| Touch.mem ||| Touch.log ||| Touch.logBase ||| Touch.cores
    ||| Touch.bells ||| Touch.node ||| Touch.stackMem ||| Touch.bridgeMem ||| Touch.invPend |||
    Touch.nextId ||| Touch.rings ||| Touch.sas ||| Touch.reports ||| Touch.heldOut ||| Touch.imsic)
    s (execPfcFrame
      prio pause s) := by
  unfold execPfcFrame
  repeat'
    first
      | with_reducible apply Answers.next
      | with_reducible exact Touches.refl _ _
      | with_reducible assumption
      | decide
      | (extract_lets +onlyGivenNames x; with_reducible refine Answers.cut (t := x) ?_ ?_; subst x; rotate_left; clear_value x; revert x; intro _ _; rotate_right)
      | (extract_lets +onlyGivenNames x; clear_value x; revert x; intro _)
      | split
      | with_reducible apply Touches.after (State.sentOut_touches ..)
      | with_reducible apply Touches.after (State.setF_touches ..)
      | with_reducible refine Touches.foldl ?_ fun _ _ => ?_
      | dsimp only
      | with_reducible apply Touches.set_heldOut

theorem execRingNop_touches (entry : EntryAt) (s : State) :
    Answers (Touch.out ||| Touch.regs ||| Touch.mem ||| Touch.wear ||| Touch.log ||| Touch.logBase
    ||| Touch.cores ||| Touch.bells ||| Touch.node ||| Touch.stackMem ||| Touch.bridgeMem |||
    Touch.invPend ||| Touch.nextId ||| Touch.rings ||| Touch.retireQ ||| Touch.mapLag |||
    Touch.reports ||| Touch.imsic) s (execRingNop entry s):= by
  unfold execRingNop
  repeat'
    first
      | with_reducible apply Answers.next
      | with_reducible exact Touches.refl _ _
      | with_reducible assumption
      | decide
      | split
      | with_reducible apply Touches.after (State.entryLost_touches ..)
      | with_reducible refine Touches.of_fst ‹State.fetchEntry _ _ _ _ = _› (Touches.after (State.fetchEntry_touches ..) ?_ ?_)
      | with_reducible apply Touches.after (State.fetchEntry_touches ..)
      | with_reducible apply Touches.after (State.finishOp_touches ..)
      | with_reducible apply Touches.after (State.pushOp_touches ..)

theorem execSaInstall_touches (entry : EntryAt) (s : State) :
    Answers (Touch.out ||| Touch.regs ||| Touch.mem ||| Touch.wear ||| Touch.log ||| Touch.logBase
    ||| Touch.cores ||| Touch.bells ||| Touch.node ||| Touch.stackMem ||| Touch.bridgeMem |||
    Touch.invPend ||| Touch.nextId ||| Touch.rings ||| Touch.sas ||| Touch.retireQ ||| Touch.mapLag
    ||| Touch.reports ||| Touch.txAn ||| Touch.imsic) s (execSaInstall entry s):= by
  unfold execSaInstall
  repeat'
    first
      | with_reducible apply Answers.next
      | with_reducible exact Touches.refl _ _
      | with_reducible assumption
      | decide
      | (extract_lets +onlyGivenNames x; with_reducible refine Answers.cut (t := x) ?_ ?_; subst x; rotate_left; clear_value x; revert x; intro _ _; rotate_right)
      | (extract_lets +onlyGivenNames x; clear_value x; revert x; intro _)
      | split
      | with_reducible apply Touches.after (State.finishOp_touches ..)
      | with_reducible apply Touches.after (State.setF_touches ..)
      | with_reducible refine Touches.trans ?_ (State.takeEntry_touches ?_ fun _ _ _ _ => ?_)
      | dsimp only
      | with_reducible apply Touches.set_sas_txAn

theorem execRdmaRead_touches (ring : Fin 32768) (w : Wire) (s : State) :
    Answers (Touch.out ||| Touch.regs ||| Touch.mem ||| Touch.wear ||| Touch.log ||| Touch.logBase
    ||| Touch.cores ||| Touch.bells ||| Touch.node ||| Touch.tithes ||| Touch.stackMem |||
    Touch.bridgeMem ||| Touch.invPend ||| Touch.nextId ||| Touch.rings ||| Touch.egress |||
    Touch.sas ||| Touch.led ||| Touch.retireQ ||| Touch.mapLag ||| Touch.reports ||| Touch.heldOut
    ||| Touch.imsic)
    s
      (execRdmaRead ring w s) := by
  unfold execRdmaRead
  repeat'
    first
      | with_reducible apply Answers.next
      | with_reducible exact Touches.refl _ _
      | with_reducible assumption
      | decide
      | split
      | with_reducible apply Touches.after (State.finishOp_touches ..)
      | with_reducible apply Touches.after (State.sendOut_touches ..)
      | with_reducible refine Touches.trans ?_ (State.takeEntry_touches ?_ fun _ _ _ _ => ?_)
      | with_reducible apply Touches.after (State.entryLedger_touches ..)

end Sys2Proof.Machine
end

