-- ==== Sys2Proof/Laws/Root.lean ====
section
/-!
SUPPORT. What the operations of Machine/Root.lean may touch.
-/

namespace Sys2Proof.Machine

theorem State.decideBell_touches (s : State) (n : Nat) (fault : Bool) (lost : Bool) :
    Touches (Touch.out ||| Touch.node ||| Touch.seqs) s (State.decideBell s n fault lost) := by
  unfold State.decideBell
  repeat'
    first
      | with_reducible exact Touches.refl _ _
      | decide
      | (extract_lets +onlyGivenNames nx; subst nx)
      | split
      | with_reducible apply Touches.after (State.cry_touches ..)
      | dsimp only
      | with_reducible apply Touches.set_node

theorem State.tryPass_touches (s : State) (x1 : Nat) :
    Touches (Touch.out ||| Touch.node ||| Touch.seqs) s (State.tryPass s x1) := by
  induction x1 generalizing s with
  | zero => exact Touches.refl _ _
  | succ n ih =>
    unfold State.tryPass
    repeat'
      first
        | with_reducible exact Touches.refl _ _
        | with_reducible assumption
        | decide
        | with_reducible refine Touches.trans ?_ (ih ..)
        | (extract_lets +onlyGivenNames nx; with_reducible refine Touches.cut (t := nx) ?_ ?_; subst nx; rotate_left; revert nx; intro _ _; rotate_right)
        | (extract_lets +onlyGivenNames nx; subst nx)
        | split
        | with_reducible apply Touches.after (State.decideBell_touches ..)
        | with_reducible apply Touches.after (State.sendFrameTo_touches ..)
        | with_reducible apply Touches.set_node

theorem State.passVotes_touches (s : State) :
    Touches (Touch.out ||| Touch.node ||| Touch.seqs) s (State.passVotes s) := by
  unfold State.passVotes
  repeat'
    first
      | with_reducible exact Touches.refl _ _
      | decide
      | with_reducible apply Touches.after (State.tryPass_touches ..)

theorem State.putVote_touches (s : State) (c : Child) (bell : Nat) (fault : Bool) (lost : Bool) :
    Touches (Touch.out ||| Touch.node ||| Touch.seqs) s (State.putVote s c bell fault lost) := by
  unfold State.putVote
  repeat'
    first
      | with_reducible exact Touches.refl _ _
      | decide
      | (extract_lets +onlyGivenNames nx; subst nx)
      | with_reducible apply Touches.after (State.passVotes_touches ..)
      | with_reducible apply Touches.set_node

theorem execVoteFrame_touches (child : Child) (bell : BitVec 48) (fault : Bool) (lost : Bool) (rx : Rx) (s : State) :
    Answers (Touch.out ||| Touch.regs ||| Touch.node ||| Touch.seqs) s (execVoteFrame child bell fault lost rx s) := by
  unfold execVoteFrame
  repeat'
    first
      | with_reducible apply Answers.next
      | with_reducible exact Touches.refl _ _
      | decide
      | split
      | with_reducible refine Touches.of_fst ‹State.frameRx _ _ _ = _› (Touches.after (State.frameRx_touches ..) ?_ ?_)
      | with_reducible apply Touches.after (State.putVote_touches ..)

theorem execVoteMissing_touches (child : Child) (s : State) :
    Answers (Touch.out ||| Touch.regs ||| Touch.node ||| Touch.seqs) s (execVoteMissing child s) := by
  unfold execVoteMissing
  repeat'
    first
      | with_reducible apply Answers.next
      | with_reducible exact Touches.refl _ _
      | decide
      | (extract_lets +onlyGivenNames nx; subst nx)
      | split
      | with_reducible apply Touches.after (State.putVote_touches ..)
      | with_reducible apply Touches.after (State.bump_touches ..)

theorem execLateFrame_touches (child : Child) (bell : BitVec 48) (m : Fin 9) (rx : Rx) (s : State) :
    Answers (Touch.out ||| Touch.regs ||| Touch.node ||| Touch.seqs) s (execLateFrame child bell m rx s) := by
  unfold execLateFrame
  repeat'
    first
      | with_reducible apply Answers.next
      | with_reducible exact Touches.refl _ _
      | with_reducible assumption
      | decide
      | (extract_lets +onlyGivenNames nx; with_reducible refine Answers.cut (t := nx) ?_ ?_; subst nx; rotate_left; revert nx; intro _ _; rotate_right)
      | (extract_lets +onlyGivenNames nx; subst nx)
      | split
      | with_reducible refine Touches.of_fst ‹State.frameRx _ _ _ = _› (Touches.after (State.frameRx_touches ..) ?_ ?_)
      | with_reducible apply Touches.after (State.sendFrameTo_touches ..)
      | with_reducible apply Touches.set_node

theorem execLatenessDecision_touches (s : State) :
    Answers (Touch.out ||| Touch.node ||| Touch.seqs) s (execLatenessDecision s) := by
  unfold execLatenessDecision
  repeat'
    first
      | with_reducible apply Answers.next
      | with_reducible exact Touches.refl _ _
      | decide
      | (extract_lets +onlyGivenNames nx; subst nx)
      | split
      | with_reducible apply Touches.after (State.cry_touches ..)
      | with_reducible apply Touches.set_node

theorem execBellCtrlHoldReq_touches (s : State) :
    Answers (Touch.out ||| Touch.node ||| Touch.seqs) s (execBellCtrlHoldReq s) := by
  unfold execBellCtrlHoldReq
  repeat'
    first
      | with_reducible apply Answers.next
      | with_reducible exact Touches.refl _ _
      | decide
      | (extract_lets +onlyGivenNames nx; subst nx)
      | split
      | with_reducible apply Touches.after (State.cry_touches ..)
      | with_reducible apply Touches.set_node

theorem execBellCtrlResume_touches (s : State) :
    Answers (Touch.out ||| Touch.node ||| Touch.seqs) s (execBellCtrlResume s) := by
  unfold execBellCtrlResume
  repeat'
    first
      | with_reducible apply Answers.next
      | with_reducible exact Touches.refl _ _
      | decide
      | (extract_lets +onlyGivenNames nx; subst nx)
      | split
      | with_reducible apply Touches.after (State.cry_touches ..)
      | with_reducible apply Touches.set_node

end Sys2Proof.Machine
end

