-- ==== Sys2Proof/Laws/Sheets.lean ====
section
/-!
SUPPORT. What the operations of Machine/Sheets.lean may touch.
-/

namespace Sys2Proof.Machine

theorem State.buildSheet_touches (s : State) (i : Nat) (fault : Bool) (lost : Bool) :
    Touches (Touch.free ||| Touch.sheetBase) s (State.buildSheet s i fault lost).1 := by
  unfold State.buildSheet
  repeat'
    first
      | with_reducible exact Touches.refl _ _
      | decide
      | (extract_lets +onlyGivenNames nx; subst nx)
      | split
      | with_reducible refine Touches.of_snd ‹State.takeFree _ = _› (Touches.after (State.takeFree_touches ..) ?_ ?_)
      | dsimp only
      | with_reducible apply Touches.set_sheetBase

theorem State.sendSheet_touches (s : State) (i : Nat) (bs : List Byte) :
    Touches (Touch.out ||| Touch.regs ||| Touch.log ||| Touch.logBase ||| Touch.bells ||| Touch.node |||
    Touch.tithes ||| Touch.gws ||| Touch.sheetBell ||| Touch.sheetGot ||| Touch.reports) s (State.sendSheet s i bs) := by
  unfold State.sendSheet
  repeat'
    first
      | with_reducible exact Touches.refl _ _
      | with_reducible assumption
      | decide
      | (extract_lets +onlyGivenNames nx; with_reducible refine Touches.cut (t := nx) ?_ ?_; subst nx; rotate_left; revert nx; intro _ _; rotate_right)
      | (extract_lets +onlyGivenNames nx; have : True := (fun (_ : _ → State) => trivial) nx; subst nx; clear this)
      | (extract_lets +onlyGivenNames nx; subst nx)
      | split
      | with_reducible apply Touches.after (State.setGw_touches ..)
      | with_reducible refine Touches.of_fst ‹State.titheTry _ _ _ _ = _› (Touches.after (State.titheTry_touches ..) ?_ ?_)
      | with_reducible apply Touches.after (State.storeSheet_touches ..)
      | with_reducible apply Touches.after (State.dmaWrite_touches ..)

theorem State.closeSheets_touches (s : State) (i : Nat) :
    Touches (Touch.regs) s (State.closeSheets s i) := by
  unfold State.closeSheets
  repeat'
    first
      | with_reducible exact Touches.refl _ _
      | decide
      | split
      | with_reducible apply Touches.after (State.setF_touches ..)

end Sys2Proof.Machine
end

