-- ==== Sys2Proof/Laws/Bells.lean ====
section
/-!
SUPPORT. What the operations of Machine/Bells.lean may touch.
-/

namespace Sys2Proof.Machine

theorem State.showBell_touches (s : State) (i : Nat) :
    Touches (Touch.regs) s (State.showBell s i) := by
  unfold State.showBell
  repeat'
    first
      | with_reducible exact Touches.refl _ _
      | decide
      | split
      | with_reducible apply Touches.after (State.syncBellRegs_touches ..)

theorem State.holdReason_touches (s : State) (i : Nat) (reason : Nat) :
    Touches (Touch.regs) s (State.holdReason s i reason) := by
  unfold State.holdReason
  repeat'
    first
      | with_reducible exact Touches.refl _ _
      | decide
      | split
      | with_reducible apply Touches.after (State.setF_touches ..)

theorem State.abandonAll_touches (s : State) (i : Nat) (cs : List Nat) :
    Touches (Touch.regs ||| Touch.cores ||| Touch.gws) s (State.abandonAll s i cs) := by
  unfold State.abandonAll
  repeat'
    first
      | with_reducible exact Touches.refl _ _
      | decide
      | with_reducible apply Touches.after (State.syncSeq_touches ..)
      | with_reducible apply Touches.after (State.abandonCore_touches ..)
      | with_reducible refine Touches.foldl ?_ fun _ _ => ?_

theorem State.clearTokens_touches (s : State) (i : Nat) :
    Touches (Touch.regs ||| Touch.cores) s (State.clearTokens s i) := by
  unfold State.clearTokens
  repeat'
    first
      | with_reducible exact Touches.refl _ _
      | with_reducible assumption
      | decide
      | (extract_lets +onlyGivenNames nx; with_reducible refine Touches.cut (t := nx) ?_ ?_; subst nx; rotate_left; revert nx; intro _ _; rotate_right)
      | (extract_lets +onlyGivenNames nx; subst nx)
      | split
      | with_reducible apply Touches.after (State.clearRegs_touches ..)
      | with_reducible apply Touches.after (State.setCore_touches ..)
      | with_reducible refine Touches.foldl ?_ fun _ _ => ?_

theorem State.switchTo_touches (s : State) (i : Nat) (bell : Nat) :
    Touches (Touch.mem ||| Touch.cores ||| Touch.bells) s (State.switchTo s i bell) := by
  unfold State.switchTo
  repeat'
    first
      | with_reducible exact Touches.refl _ _
      | with_reducible assumption
      | decide
      | (extract_lets +onlyGivenNames nx; with_reducible refine Touches.cut (t := nx) ?_ ?_; subst nx; rotate_left; revert nx; intro _ _; rotate_right)
      | (extract_lets +onlyGivenNames nx; subst nx)
      | split
      | with_reducible apply Touches.after (State.setCore_touches ..)
      | with_reducible apply Touches.after (State.setBell_touches ..)
      | with_reducible apply Touches.after (State.clearStores_touches ..)
      | with_reducible refine Touches.foldl ?_ fun _ _ => ?_

theorem State.liveUpdate_touches (s : State) (i : Nat) :
    Touches (Touch.regs) s (State.liveUpdate s i) := by
  unfold State.liveUpdate
  repeat'
    first
      | with_reducible exact Touches.refl _ _
      | decide
      | split
      | with_reducible apply Touches.after (State.setLive_touches ..)
      | with_reducible refine Touches.foldl ?_ fun _ _ => ?_

theorem State.endTurn_touches (s : State) (i : Nat) :
    Touches (Touch.regs ||| Touch.bells) s (State.endTurn s i) := by
  unfold State.endTurn
  repeat'
    first
      | with_reducible exact Touches.refl _ _
      | with_reducible assumption
      | decide
      | (extract_lets +onlyGivenNames nx; with_reducible refine Touches.cut (t := nx) ?_ ?_; subst nx; rotate_left; revert nx; intro _ _; rotate_right)
      | (extract_lets +onlyGivenNames nx; subst nx)
      | split
      | with_reducible apply Touches.after (State.setBell_touches ..)
      | with_reducible apply Touches.after (State.setF_touches ..)

theorem State.restoreTo_touches (s : State) (i : Nat) (bell : Nat) :
    Touches (Touch.regs ||| Touch.bells) s (State.restoreTo s i bell) := by
  unfold State.restoreTo
  repeat'
    first
      | with_reducible exact Touches.refl _ _
      | with_reducible assumption
      | decide
      | (extract_lets +onlyGivenNames nx; with_reducible refine Touches.cut (t := nx) ?_ ?_; subst nx; rotate_left; revert nx; intro _ _; rotate_right)
      | (extract_lets +onlyGivenNames nx; subst nx)
      | split
      | with_reducible apply Touches.after (State.setBell_touches ..)
      | with_reducible apply Touches.after (State.setF_touches ..)
      | with_reducible refine Touches.foldl ?_ fun _ _ => ?_

theorem State.startCores_touches (s : State) (i : Nat) (n : Nat) (miss : Bool) :
    Touches (Touch.regs ||| Touch.cores) s (State.startCores s i n miss) := by
  unfold State.startCores
  repeat'
    first
      | with_reducible exact Touches.refl _ _
      | with_reducible assumption
      | decide
      | (extract_lets +onlyGivenNames nx; with_reducible refine Touches.cut (t := nx) ?_ ?_; subst nx; rotate_left; revert nx; intro _ _; rotate_right)
      | (extract_lets +onlyGivenNames nx; subst nx)
      | split
      | with_reducible apply Touches.after (State.setCore_touches ..)
      | with_reducible apply Touches.after (State.setF_touches ..)
      | with_reducible apply Touches.after (State.syncSeq_touches ..)
      | with_reducible apply Touches.after (State.slotWait_touches ..)
      | with_reducible refine Touches.foldl ?_ fun _ _ => ?_
      | with_reducible apply Touches.after (State.putSlack_touches ..)

theorem State.calBoundary_touches (s : State) (i : Nat) (bell : Nat) (hold : Bool) : Touches
    (Touch.out ||| Touch.regs ||| Touch.mem ||| Touch.wear ||| Touch.log ||| Touch.logBase |||
    Touch.cores ||| Touch.bells ||| Touch.node ||| Touch.tithes ||| Touch.gws ||| Touch.cfg |||
    Touch.tracePos ||| Touch.stackMem ||| Touch.bridgeMem ||| Touch.invPend ||| Touch.nextId |||
    Touch.jobs ||| Touch.xfers ||| Touch.runs ||| Touch.seqs ||| Touch.rings ||| Touch.brackets |||
    Touch.links ||| Touch.egress ||| Touch.sas ||| Touch.led ||| Touch.retireQ ||| Touch.calLast |||
    Touch.sensOut ||| Touch.mapLag ||| Touch.reports ||| Touch.markers ||| Touch.heldOut |||
    Touch.hostLines ||| Touch.hostResv) s (State.calBoundary s i
    bell hold):= by
  unfold State.calBoundary
  repeat'
    first
      | with_reducible exact Touches.refl _ _
      | with_reducible assumption
      | decide
      | (extract_lets +onlyGivenNames nx; with_reducible refine Touches.cut (t := nx) ?_ ?_; subst nx; rotate_left; revert nx; intro _ _; rotate_right)
      | split
      | with_reducible apply Touches.after (State.sensorBoundary_touches ..)
      | with_reducible apply Touches.after (State.bracketBoundary_touches ..)
      | with_reducible refine Touches.foldl ?_ fun _ _ => ?_

theorem State.openBell_touches (s : State) (i : Nat) (n : Nat) (t0 : Nat) (again : Bool) (miss :
    Bool) : Touches (Touch.out ||| Touch.regs ||| Touch.mem ||| Touch.wear ||| Touch.log |||
    Touch.logBase ||| Touch.cores ||| Touch.bells ||| Touch.node ||| Touch.tithes ||| Touch.gws |||
    Touch.regions ||| Touch.tracePos ||| Touch.stackMem ||| Touch.bridgeMem ||| Touch.invPend |||
    Touch.nextId ||| Touch.jobs ||| Touch.xfers ||| Touch.runs ||| Touch.seqs ||| Touch.rings |||
    Touch.egress ||| Touch.sas ||| Touch.led ||| Touch.retireQ ||| Touch.mapLag ||| Touch.reports
    ||| Touch.heldOut ||| Touch.hostLines ||| Touch.hostResv) s (State.openBell s i n t0
      again miss) := by
  unfold State.openBell
  repeat'
    first
      | with_reducible exact Touches.refl _ _
      | with_reducible assumption
      | decide
      | (extract_lets +onlyGivenNames x; with_reducible refine Touches.cut (t := x) ?_ ?_; subst x; rotate_left; clear_value x; revert x; intro _ _; rotate_right)
      | (extract_lets +onlyGivenNames x; clear_value x; revert x; intro _)
      | split
      | with_reducible apply Touches.after (State.pumpSite_touches ..)
      | with_reducible apply Touches.after (State.regionsBegin_touches ..)
      | with_reducible apply Touches.after (State.setBell_touches ..)
      | with_reducible apply Touches.after (State.setGw_touches ..)
      | with_reducible apply Touches.after (State.startCores_touches ..)

theorem State.beginBell_touches (s : State) (i : Nat) (n : Nat) (t0 : Nat) (start : Bool) (again :
    Bool) (miss : Bool) : Touches (Touch.out ||| Touch.regs ||| Touch.mem ||| Touch.wear |||
    Touch.log ||| Touch.logBase ||| Touch.cores ||| Touch.bells ||| Touch.node ||| Touch.tithes |||
    Touch.gws ||| Touch.cfg ||| Touch.regions ||| Touch.tracePos ||| Touch.stackMem |||
    Touch.bridgeMem ||| Touch.invPend ||| Touch.nextId ||| Touch.jobs ||| Touch.xfers ||| Touch.runs
    ||| Touch.seqs ||| Touch.rings ||| Touch.brackets ||| Touch.links ||| Touch.egress ||| Touch.sas
    ||| Touch.led ||| Touch.retireQ ||| Touch.calLast ||| Touch.sensOut ||| Touch.classes |||
    Touch.mapLag ||| Touch.jumpAt ||| Touch.reports ||| Touch.markers ||| Touch.heldOut |||
    Touch.hostLines ||| Touch.hostResv) s
      (State.beginBell s i n t0 start again miss) := by
  unfold State.beginBell
  repeat'
    first
      | with_reducible exact Touches.refl _ _
      | with_reducible assumption
      | decide
      | (extract_lets +onlyGivenNames x; with_reducible refine Touches.cut (t := x) ?_ ?_; subst x; rotate_left; clear_value x; revert x; intro _ _; rotate_right)
      | (extract_lets +onlyGivenNames x; clear_value x; revert x; intro _)
      | split
      | with_reducible apply Touches.after (State.calBoundary_touches ..)
      | with_reducible apply Touches.after (State.classesBegin_touches ..)
      | with_reducible apply Touches.after (State.holdReason_touches ..)
      | with_reducible apply Touches.after (State.openBell_touches ..)
      | with_reducible apply Touches.after (State.raise_touches ..)
      | with_reducible apply Touches.after (State.sendFrameTo_touches ..)
      | with_reducible apply Touches.after (State.syncBellRegs_touches ..)
      | dsimp only
      | with_reducible apply Touches.set_node

theorem State.stopBefore_touches (s : State) (i : Nat) (life : Life) (bell : Nat) :
    Touches (Touch.out ||| Touch.regs ||| Touch.log ||| Touch.logBase ||| Touch.bells ||| Touch.node |||
    Touch.classes ||| Touch.jumpAt ||| Touch.reports) s (State.stopBefore s i life bell) := by
  unfold State.stopBefore
  repeat'
    first
      | with_reducible exact Touches.refl _ _
      | with_reducible assumption
      | decide
      | (extract_lets +onlyGivenNames nx; with_reducible refine Touches.cut (t := nx) ?_ ?_; subst nx; rotate_left; revert nx; intro _ _; rotate_right)
      | (extract_lets +onlyGivenNames nx; subst nx)
      | split
      | with_reducible apply Touches.after (State.setBell_touches ..)
      | with_reducible apply Touches.after (State.classesBegin_touches ..)
      | with_reducible apply Touches.after (State.showBell_touches ..)

theorem State.liveReturn_touches (s : State) :
    Touches (Touch.regs ||| Touch.bells) s (State.liveReturn s) := by
  unfold State.liveReturn
  repeat'
    first
      | with_reducible exact Touches.refl _ _
      | decide
      | (extract_lets +onlyGivenNames nx; subst nx)
      | split
      | with_reducible apply Touches.after (State.setF_touches ..)
      | with_reducible apply Touches.after (State.setBell_touches ..)
      | with_reducible apply Touches.after (State.setLive_touches ..)
      | with_reducible refine Touches.foldl ?_ fun _ _ => ?_

theorem State.settledBoundary_touches (s : State) (bell : Nat) : Touches (Touch.out ||| Touch.regs
    ||| Touch.mem ||| Touch.grn ||| Touch.wear ||| Touch.log ||| Touch.logBase ||| Touch.cores |||
    Touch.bells ||| Touch.node ||| Touch.gws ||| Touch.cfg ||| Touch.regions ||| Touch.stackMem |||
    Touch.bridgeMem ||| Touch.rings ||| Touch.links ||| Touch.restores ||| Touch.hostTake |||
    Touch.led ||| Touch.vcmp ||| Touch.retireQ ||| Touch.mapLag ||| Touch.rolePend |||
    Touch.reports) s
    (State.settledBoundary s bell):= by
  unfold State.settledBoundary
  repeat'
    first
      | with_reducible exact Touches.refl _ _
      | with_reducible assumption
      | decide
      | split
      | (extract_lets +onlyGivenNames nx; with_reducible refine Touches.cut (t := nx) ?_ ?_; subst nx; rotate_left; revert nx; intro _ _; rotate_right)
      | with_reducible apply Touches.after (State.activateSettled_touches ..)
      | with_reducible apply Touches.after (State.applyRoles_touches ..)
      | with_reducible apply Touches.after (State.retireWaiting_touches ..)
      | with_reducible apply Touches.after (State.liveReturn_touches ..)
      | with_reducible apply Touches.after (State.restoreDue_touches ..)
      | with_reducible refine Touches.foldl ?_ fun _ _ => ?_
      | with_reducible apply Touches.after (State.raise_touches ..)
      | with_reducible apply Touches.after (State.setBell_touches ..)

theorem State.packageHolds_touches (s : State) (reason : Nat) (bell : Nat) : Touches (Touch.free |||
    Touch.out ||| Touch.regs ||| Touch.mem ||| Touch.grn ||| Touch.wear ||| Touch.log |||
    Touch.logBase ||| Touch.cores ||| Touch.bells ||| Touch.node ||| Touch.tithes ||| Touch.gws |||
    Touch.cfg ||| Touch.tracePos ||| Touch.stackMem ||| Touch.bridgeMem ||| Touch.invPend |||
    Touch.nextId ||| Touch.jobs ||| Touch.xfers ||| Touch.runs ||| Touch.seqs ||| Touch.rings |||
    Touch.outs ||| Touch.links ||| Touch.restores ||| Touch.egress ||| Touch.sas ||| Touch.led |||
    Touch.xings ||| Touch.retireQ ||| Touch.rcal ||| Touch.mapLag ||| Touch.rolePend |||
    Touch.reports ||| Touch.markers ||| Touch.heldOut ||| Touch.hostLines ||| Touch.hostResv) s
    (State.packageHolds s
    reason bell):= by
  unfold State.packageHolds
  repeat'
    first
      | with_reducible exact Touches.refl _ _
      | with_reducible assumption
      | decide
      | (extract_lets +onlyGivenNames nx; with_reducible refine Touches.cut (t := nx) ?_ ?_; subst nx; rotate_left; revert nx; intro _ _; rotate_right)
      | split
      | with_reducible apply Touches.after (State.retireFaulty_touches ..)
      | with_reducible apply Touches.after (State.raise_touches ..)
      | with_reducible apply Touches.after (State.repairXings_touches ..)
      | with_reducible apply Touches.after (State.replaceCombs_touches ..)
      | with_reducible apply Touches.after (State.retireWaiting_touches ..)
      | with_reducible apply Touches.after (State.restoreDue_touches ..)
      | with_reducible refine Touches.foldl ?_ fun _ _ => ?_

theorem execCheckPoint_touches (site : Site) (s : State) :
    Answers (Touch.out ||| Touch.regs ||| Touch.log ||| Touch.logBase ||| Touch.bells ||| Touch.node |||
    Touch.seqs ||| Touch.reports) s (execCheckPoint site s) := by
  unfold execCheckPoint
  repeat'
    first
      | with_reducible apply Answers.next
      | with_reducible exact Touches.refl _ _
      | with_reducible assumption
      | decide
      | (extract_lets +onlyGivenNames nx; with_reducible refine Answers.cut (t := nx) ?_ ?_; subst nx; rotate_left; revert nx; intro _ _; rotate_right)
      | (extract_lets +onlyGivenNames nx; subst nx)
      | split
      | with_reducible apply Touches.after (State.setBell_touches ..)
      | with_reducible apply Touches.after (State.sendFrameTo_touches ..)
      | with_reducible apply Touches.after (State.raise_touches ..)

theorem State.countClose_touches (s : State) (i : Nat) (m : Nat) (forced : Bool) :
    Touches (Touch.regs) s (State.countClose s i m forced) := by
  unfold State.countClose
  repeat'
    first
      | with_reducible exact Touches.refl _ _
      | with_reducible assumption
      | decide
      | (extract_lets +onlyGivenNames x; with_reducible refine Touches.cut (t := x) ?_ ?_; subst x; rotate_left; clear_value x; revert x; intro _ _; rotate_right)
      | (extract_lets +onlyGivenNames x; clear_value x; revert x; intro _)
      | split
      | with_reducible apply Touches.after (State.bump_touches ..)

theorem State.guardBegins_touches (s : State) (i : Nat) :
    Touches (Touch.out ||| Touch.regs ||| Touch.mem ||| Touch.log ||| Touch.logBase ||| Touch.cores |||
    Touch.bells ||| Touch.node ||| Touch.gws ||| Touch.redSteps ||| Touch.runs ||| Touch.rings |||
    Touch.xings ||| Touch.reports) s (State.guardBegins s i) := by
  unfold State.guardBegins
  repeat'
    first
      | with_reducible exact Touches.refl _ _
      | with_reducible assumption
      | decide
      | (extract_lets +onlyGivenNames nx; with_reducible refine Touches.cut (t := nx) ?_ ?_; subst nx; rotate_left; revert nx; intro _ _; rotate_right)
      | (extract_lets +onlyGivenNames nx; subst nx)
      | split
      | with_reducible apply Touches.after (State.raise_touches ..)
      | with_reducible apply Touches.after (State.setBell_touches ..)
      | with_reducible apply Touches.after (State.forceEngine_touches ..)
      | with_reducible apply Touches.after (State.abandonAll_touches ..)
      | with_reducible apply Touches.after (State.switchTo_touches ..)
      | with_reducible apply Touches.after (State.clearTokens_touches ..)
      | with_reducible apply Touches.after (State.ringReserve_touches ..)
      | with_reducible apply Touches.after (State.recentre_touches ..)
      | with_reducible apply Touches.after (State.countClose_touches ..)

theorem execGuardStart_touches (site : Site) (s : State) :
    Answers (Touch.out ||| Touch.regs ||| Touch.mem ||| Touch.log ||| Touch.logBase ||| Touch.cores |||
    Touch.bells ||| Touch.node ||| Touch.gws ||| Touch.redSteps ||| Touch.runs ||| Touch.rings |||
    Touch.xings ||| Touch.reports) s (execGuardStart site s) := by
  unfold execGuardStart
  repeat'
    first
      | with_reducible apply Answers.next
      | with_reducible exact Touches.refl _ _
      | decide
      | (extract_lets +onlyGivenNames nx; subst nx)
      | split
      | with_reducible apply Touches.after (State.showBell_touches ..)
      | with_reducible apply Touches.after (State.guardBegins_touches ..)

theorem State.sealBell_touches (s : State) (i : Nat) :
    Touches (Touch.free ||| Touch.out ||| Touch.regs ||| Touch.mem ||| Touch.grn ||| Touch.wear ||| Touch.log |||
    Touch.logBase ||| Touch.cores ||| Touch.bells ||| Touch.node ||| Touch.tithes ||| Touch.gws |||
    Touch.cfg ||| Touch.regions ||| Touch.stackMem ||| Touch.bridgeMem ||| Touch.redSteps |||
    Touch.runs ||| Touch.redBytes ||| Touch.seqs ||| Touch.rings ||| Touch.links ||| Touch.hostTake
    ||| Touch.led ||| Touch.vcmp ||| Touch.mapLag ||| Touch.rolePend ||| Touch.sheetBase |||
    Touch.reports) s (State.sealBell s i) := by
  unfold State.sealBell
  repeat'
    first
      | with_reducible exact Touches.refl _ _
      | with_reducible assumption
      | decide
      | (extract_lets +onlyGivenNames nx; with_reducible refine Touches.cut (t := nx) ?_ ?_; subst nx; rotate_left; revert nx; intro _ _; rotate_right)
      | (extract_lets +onlyGivenNames nx; subst nx)
      | split
      | with_reducible apply Touches.after (State.abandonAll_touches ..)
      | with_reducible apply Touches.after (State.checkSlices_touches ..)
      | with_reducible apply Touches.after (State.sendFrameTo_touches ..)
      | with_reducible refine Touches.of_fst ‹State.buildSheet _ _ _ _ = _› (Touches.after (State.buildSheet_touches ..) ?_ ?_)
      | with_reducible apply Touches.after (State.setBell_touches ..)
      | with_reducible apply Touches.after (State.closeSheets_touches ..)
      | with_reducible apply Touches.after (State.setF_touches ..)
      | with_reducible apply Touches.after (State.setBridge_touches ..)
      | with_reducible apply Touches.after (State.liveUpdate_touches ..)
      | with_reducible apply Touches.after (State.applyRoles_touches ..)
      | with_reducible apply Touches.after (State.activateNext_touches ..)
      | with_reducible apply Touches.after (State.titheReload_touches ..)
      | with_reducible apply Touches.set_redBytes
      | with_reducible apply Touches.set_node

theorem State.nextBell_touches (s : State) (i : Nat) : Touches (Touch.free ||| Touch.out |||
    Touch.regs ||| Touch.mem ||| Touch.grn ||| Touch.wear ||| Touch.log ||| Touch.logBase |||
    Touch.cores ||| Touch.bells ||| Touch.node ||| Touch.tithes ||| Touch.gws ||| Touch.cfg |||
    Touch.regions ||| Touch.tracePos ||| Touch.stackMem ||| Touch.bridgeMem ||| Touch.invPend |||
    Touch.nextId ||| Touch.jobs ||| Touch.xfers ||| Touch.runs ||| Touch.seqs ||| Touch.rings |||
    Touch.outs ||| Touch.brackets ||| Touch.links ||| Touch.restores ||| Touch.hostTake |||
    Touch.egress ||| Touch.sas ||| Touch.led ||| Touch.xings ||| Touch.vcmp ||| Touch.retireQ |||
    Touch.rcal ||| Touch.calLast ||| Touch.sensOut ||| Touch.classes ||| Touch.mapLag |||
    Touch.rolePend ||| Touch.jumpAt ||| Touch.reports ||| Touch.markers ||| Touch.heldOut |||
    Touch.hostLines ||| Touch.hostResv) s
    (State.nextBell s i):= by
  unfold State.nextBell
  repeat'
    first
      | with_reducible exact Touches.refl _ _
      | with_reducible assumption
      | decide
      | (extract_lets +onlyGivenNames nx; with_reducible refine Touches.cut (t := nx) ?_ ?_; subst nx; rotate_left; revert nx; intro _ _; rotate_right)
      | (extract_lets +onlyGivenNames nx; subst nx)
      | split
      | with_reducible apply Touches.after (State.holdReason_touches ..)
      | with_reducible apply Touches.after (State.stopBefore_touches ..)
      | with_reducible apply Touches.after (State.endTurn_touches ..)
      | with_reducible apply Touches.after (State.packageHolds_touches ..)
      | with_reducible apply Touches.after (State.showBell_touches ..)
      | with_reducible apply Touches.after (State.setBell_touches ..)
      | with_reducible apply Touches.after (State.beginBell_touches ..)

theorem State.sealSites_touches (s : State) :
    Touches (Touch.free ||| Touch.out ||| Touch.regs ||| Touch.mem ||| Touch.grn ||| Touch.wear |||
      Touch.log ||| Touch.logBase ||| Touch.cores ||| Touch.bells ||| Touch.node ||| Touch.tithes |||
      Touch.gws ||| Touch.cfg ||| Touch.regions ||| Touch.stackMem ||| Touch.bridgeMem |||
      Touch.redSteps ||| Touch.runs ||| Touch.redBytes ||| Touch.seqs ||| Touch.rings ||| Touch.links
      ||| Touch.hostTake ||| Touch.led ||| Touch.vcmp ||| Touch.mapLag ||| Touch.rolePend |||
      Touch.sheetBase ||| Touch.reports) s (State.sealSites s) := by
  unfold State.sealSites
  repeat'
    first
      | with_reducible exact Touches.refl _ _
      | with_reducible assumption
      | decide
      | (extract_lets +onlyGivenNames x; with_reducible refine Touches.cut (t := x) ?_ ?_; subst x; rotate_left; clear_value x; revert x; intro _ _; rotate_right)
      | (extract_lets +onlyGivenNames x; clear_value x; revert x; intro _)
      | split
      | with_reducible apply Touches.after (State.activateNext_touches ..)
      | with_reducible apply Touches.after (State.applyRoles_touches ..)
      | with_reducible apply Touches.after (State.liveUpdate_touches ..)
      | with_reducible apply Touches.after (State.sealBell_touches ..)
      | with_reducible refine Touches.foldl ?_ fun _ _ => ?_

theorem State.boundary_touches (s : State) (i : Nat) : Touches (Touch.free ||| Touch.out |||
    Touch.regs ||| Touch.mem ||| Touch.grn ||| Touch.wear ||| Touch.log ||| Touch.logBase |||
    Touch.cores ||| Touch.bells ||| Touch.node ||| Touch.tithes ||| Touch.gws ||| Touch.cfg |||
    Touch.regions ||| Touch.tracePos ||| Touch.stackMem ||| Touch.bridgeMem ||| Touch.invPend |||
    Touch.nextId ||| Touch.jobs ||| Touch.xfers ||| Touch.redSteps ||| Touch.runs ||| Touch.redBytes
    ||| Touch.seqs ||| Touch.sheetBell ||| Touch.sheetGot ||| Touch.rings ||| Touch.outs |||
    Touch.brackets ||| Touch.links ||| Touch.restores ||| Touch.hostTake ||| Touch.egress |||
    Touch.sas ||| Touch.led ||| Touch.xings ||| Touch.vcmp ||| Touch.retireQ ||| Touch.rcal |||
    Touch.calLast ||| Touch.sensOut ||| Touch.classes ||| Touch.mapLag ||| Touch.rolePend |||
    Touch.jumpAt ||| Touch.sheetBase ||| Touch.reports ||| Touch.markers ||| Touch.heldOut |||
    Touch.hostLines ||| Touch.hostResv) s (State.boundary s i):= by
  unfold State.boundary
  repeat'
    first
      | with_reducible exact Touches.refl _ _
      | with_reducible assumption
      | decide
      | (extract_lets +onlyGivenNames nx; with_reducible refine Touches.cut (t := nx) ?_ ?_; subst nx; rotate_left; revert nx; intro _ _; rotate_right)
      | (extract_lets +onlyGivenNames nx; subst nx)
      | split
      | with_reducible apply Touches.after (State.sealSites_touches ..)
      | with_reducible apply Touches.after (State.setBell_touches ..)
      | with_reducible apply Touches.after (State.nextBell_touches ..)
      | with_reducible apply Touches.after (State.sendSheet_touches ..)
      | with_reducible apply Touches.after (State.passVotes_touches ..)
      | with_reducible apply Touches.after (State.titheReload_touches ..)

theorem execBellBoundary_touches (site : Site) (s : State) :
    Answers (Touch.free ||| Touch.out ||| Touch.regs ||| Touch.mem ||| Touch.grn ||| Touch.wear |||
    Touch.log ||| Touch.logBase ||| Touch.cores ||| Touch.bells ||| Touch.node ||| Touch.tithes |||
    Touch.gws ||| Touch.cfg ||| Touch.regions ||| Touch.tracePos ||| Touch.stackMem |||
    Touch.bridgeMem ||| Touch.invPend ||| Touch.nextId ||| Touch.jobs ||| Touch.xfers |||
    Touch.redSteps ||| Touch.runs ||| Touch.redBytes ||| Touch.seqs ||| Touch.sheetBell |||
    Touch.sheetGot ||| Touch.rings ||| Touch.outs ||| Touch.brackets ||| Touch.links |||
    Touch.restores ||| Touch.hostTake ||| Touch.egress ||| Touch.sas ||| Touch.led ||| Touch.xings
    ||| Touch.vcmp ||| Touch.retireQ ||| Touch.rcal ||| Touch.calLast ||| Touch.sensOut |||
    Touch.classes ||| Touch.mapLag ||| Touch.rolePend ||| Touch.jumpAt ||| Touch.sheetBase |||
    Touch.reports ||| Touch.markers ||| Touch.heldOut ||| Touch.hostLines ||| Touch.hostResv) s
    (execBellBoundary site
    s):= by
  unfold execBellBoundary
  repeat'
    first
      | with_reducible apply Answers.next
      | with_reducible exact Touches.refl _ _
      | decide
      | split
      | with_reducible apply Touches.after (State.boundary_touches ..)

theorem execCommitDeadline_touches (site : Site) (s : State) :
    Answers (Touch.free ||| Touch.out ||| Touch.regs ||| Touch.mem ||| Touch.grn ||| Touch.wear |||
    Touch.log ||| Touch.logBase ||| Touch.cores ||| Touch.bells ||| Touch.node ||| Touch.tithes |||
    Touch.gws ||| Touch.cfg ||| Touch.regions ||| Touch.tracePos ||| Touch.stackMem |||
    Touch.bridgeMem ||| Touch.invPend ||| Touch.nextId ||| Touch.jobs ||| Touch.xfers |||
    Touch.redSteps ||| Touch.runs ||| Touch.redBytes ||| Touch.seqs ||| Touch.sheetBell |||
    Touch.sheetGot ||| Touch.rings ||| Touch.outs ||| Touch.brackets ||| Touch.links |||
    Touch.restores ||| Touch.hostTake ||| Touch.egress ||| Touch.sas ||| Touch.led ||| Touch.xings
    ||| Touch.vcmp ||| Touch.retireQ ||| Touch.rcal ||| Touch.calLast ||| Touch.sensOut |||
    Touch.classes ||| Touch.mapLag ||| Touch.rolePend ||| Touch.jumpAt ||| Touch.sheetBase |||
    Touch.reports ||| Touch.markers ||| Touch.heldOut ||| Touch.hostLines ||| Touch.hostResv) s
    (execCommitDeadline site
    s):= by
  unfold execCommitDeadline
  repeat'
    first
      | with_reducible apply Answers.next
      | with_reducible exact Touches.refl _ _
      | decide
      | split
      | with_reducible apply Touches.after (State.boundary_touches ..)

theorem execHoldUntil_touches (site : Site) (s : State) :
    Answers (Touch.out ||| Touch.regs ||| Touch.mem ||| Touch.wear ||| Touch.log ||| Touch.logBase
    ||| Touch.cores ||| Touch.bells ||| Touch.node ||| Touch.tithes ||| Touch.gws ||| Touch.cfg |||
    Touch.regions ||| Touch.tracePos ||| Touch.stackMem ||| Touch.bridgeMem ||| Touch.invPend |||
    Touch.nextId ||| Touch.jobs ||| Touch.xfers ||| Touch.runs ||| Touch.seqs ||| Touch.rings |||
    Touch.brackets ||| Touch.links ||| Touch.egress ||| Touch.sas ||| Touch.led ||| Touch.retireQ
    ||| Touch.calLast ||| Touch.sensOut ||| Touch.classes ||| Touch.mapLag ||| Touch.jumpAt |||
    Touch.reports ||| Touch.markers ||| Touch.heldOut ||| Touch.hostLines ||| Touch.hostResv) s
    (execHoldUntil site s):= by
  unfold execHoldUntil
  repeat'
    first
      | with_reducible apply Answers.next
      | with_reducible exact Touches.refl _ _
      | with_reducible assumption
      | decide
      | (extract_lets +onlyGivenNames nx; with_reducible refine Answers.cut (t := nx) ?_ ?_; subst nx; rotate_left; revert nx; intro _ _; rotate_right)
      | (extract_lets +onlyGivenNames nx; subst nx)
      | split
      | with_reducible apply Touches.after (State.endTurn_touches ..)
      | with_reducible apply Touches.after (State.beginBell_touches ..)

theorem State.hears_touches (s : State) (i : Nat) (rx : Rx) :
    Touches (Touch.regs) s (State.hears s i rx).1 := by
  unfold State.hears
  repeat'
    first
      | with_reducible exact Touches.refl _ _
      | decide
      | split
      | with_reducible refine Touches.of_fst ‹State.frameRx _ _ _ = _› (Touches.after (State.frameRx_touches ..) ?_ ?_)

theorem State.relay_touches (s : State) (i : Nat) (t : FrameType) (bell : Nat) (arg : Nat) :
    Touches (Touch.out ||| Touch.seqs) s (State.relay s i t bell arg) := by
  unfold State.relay
  repeat'
    first
      | with_reducible exact Touches.refl _ _
      | decide
      | split
      | with_reducible apply Touches.after (State.sendFrameTo_touches ..)

theorem State.commitAt_touches (s : State) (i : Nat) (n : Nat) (until_ : Nat) (flaws : Flaws) :
    Touches (Touch.out ||| Touch.regs ||| Touch.mem ||| Touch.wear ||| Touch.log ||| Touch.logBase
    ||| Touch.cores ||| Touch.bells ||| Touch.node ||| Touch.tithes ||| Touch.gws ||| Touch.tracePos
    ||| Touch.stackMem ||| Touch.bridgeMem ||| Touch.invPend ||| Touch.invAcks ||| Touch.nextId |||
    Touch.sheetBell ||| Touch.sheetGot ||| Touch.rings ||| Touch.retireQ ||| Touch.mapLag |||
    Touch.reports ||| Touch.imsic) s (State.commitAt s i n until_
      flaws) := by
  unfold State.commitAt
  repeat'
    first
      | with_reducible exact Touches.refl _ _
      | with_reducible assumption
      | decide
      | (extract_lets +onlyGivenNames x; with_reducible refine Touches.cut (t := x) ?_ ?_; subst x; rotate_left; clear_value x; revert x; intro _ _; rotate_right)
      | (extract_lets +onlyGivenNames x; clear_value x; revert x; intro _)
      | split
      | with_reducible apply Touches.after (State.bump_touches ..)
      | with_reducible apply Touches.after (State.fillDrain_touches ..)
      | with_reducible apply Touches.after (State.fixApply_touches ..)
      | with_reducible apply Touches.after (State.raise_touches ..)
      | with_reducible apply Touches.after (State.ringCommit_touches ..)
      | with_reducible apply Touches.after (State.setBell_touches ..)
      | with_reducible apply Touches.after (State.setCore_touches ..)
      | with_reducible apply Touches.after (State.setF_touches ..)
      | with_reducible apply Touches.after (State.syncBellRegs_touches ..)
      | with_reducible refine Touches.foldl ?_ fun _ _ => ?_
      | with_reducible apply Touches.after (State.fillsMove_touches ..)
theorem execClearFrame_touches (site : Site) (bell : BitVec 48) (until_ : BitVec 64) (flaws : Flaws)
    (rx : Rx) (s : State) :
    Answers (Touch.out ||| Touch.regs ||| Touch.mem ||| Touch.wear ||| Touch.log ||| Touch.logBase
    ||| Touch.cores ||| Touch.bells ||| Touch.node ||| Touch.tithes ||| Touch.gws ||| Touch.tracePos
    ||| Touch.stackMem ||| Touch.bridgeMem ||| Touch.invPend ||| Touch.invAcks ||| Touch.nextId |||
    Touch.seqs ||| Touch.sheetBell ||| Touch.sheetGot ||| Touch.rings ||| Touch.retireQ |||
    Touch.mapLag ||| Touch.reports ||| Touch.imsic) s
      (execClearFrame site bell until_ flaws rx s) := by
  unfold execClearFrame
  repeat'
    first
      | with_reducible apply Answers.next
      | with_reducible exact Touches.refl _ _
      | with_reducible assumption
      | decide
      | (extract_lets +onlyGivenNames x; with_reducible refine Answers.cut (t := x) ?_ ?_; subst x; rotate_left; clear_value x; revert x; intro _ _; rotate_right)
      | (extract_lets +onlyGivenNames x; clear_value x; revert x; intro _)
      | split
      | with_reducible apply Touches.after (State.commitAt_touches ..)
      | with_reducible refine Touches.of_fst ‹State.hears _ _ _ = _› (Touches.after (State.hears_touches ..) ?_ ?_)
      | with_reducible apply Touches.after (State.hears_touches ..)
      | with_reducible apply Touches.after (State.relay_touches ..)

theorem State.abandonAt_touches (s : State) (i : Nat) (n : Nat) : Touches (Touch.regs ||| Touch.mem
    ||| Touch.cores ||| Touch.bells ||| Touch.gws ||| Touch.bridgeMem ||| Touch.xfers |||
    Touch.redSteps ||| Touch.runs ||| Touch.redBytes ||| Touch.rings) s (State.abandonAt s i n):= by
  unfold State.abandonAt
  repeat'
    first
      | with_reducible exact Touches.refl _ _
      | with_reducible assumption
      | decide
      | (extract_lets +onlyGivenNames nx; with_reducible refine Touches.cut (t := nx) ?_ ?_; subst nx; rotate_left; revert nx; intro _ _; rotate_right)
      | (extract_lets +onlyGivenNames nx; subst nx)
      | split
      | with_reducible apply Touches.after (State.abandonAll_touches ..)
      | with_reducible apply Touches.after (State.abandonEngine_touches ..)
      | with_reducible apply Touches.after (State.fixDiscard_touches ..)
      | with_reducible apply Touches.after (State.ringAbandon_touches ..)
      | with_reducible apply Touches.after (State.setBell_touches ..)

theorem State.nodeAbandons_touches (s : State) (n : Nat) :
    Touches (Touch.node) s (State.nodeAbandons s n) := by
  unfold State.nodeAbandons
  repeat'
    first
      | with_reducible exact Touches.refl _ _
      | decide
      | (extract_lets +onlyGivenNames nx; subst nx)
      | split
      | with_reducible apply Touches.set_node

theorem execReplayFrame_touches (site : Site) (bell : BitVec 48) (start : BitVec 64) (rx : Rx) (s : State) :
    Answers (Touch.out ||| Touch.regs ||| Touch.mem ||| Touch.cores ||| Touch.bells ||| Touch.node
    ||| Touch.gws ||| Touch.bridgeMem ||| Touch.xfers ||| Touch.redSteps ||| Touch.runs |||
    Touch.redBytes ||| Touch.seqs ||| Touch.rings) s (execReplayFrame site bell start rx s):= by
  unfold execReplayFrame
  repeat'
    first
      | with_reducible apply Answers.next
      | with_reducible exact Touches.refl _ _
      | with_reducible assumption
      | decide
      | (extract_lets +onlyGivenNames nx; with_reducible refine Answers.cut (t := nx) ?_ ?_; subst nx; rotate_left; revert nx; intro _ _; rotate_right)
      | (extract_lets +onlyGivenNames nx; subst nx)
      | split
      | with_reducible refine Touches.of_fst ‹State.hears _ _ _ = _› (Touches.after (State.hears_touches ..) ?_ ?_)
      | with_reducible apply Touches.after (State.relay_touches ..)
      | with_reducible apply Touches.after (State.abandonAt_touches ..)
      | with_reducible apply Touches.after (State.setBell_touches ..)
      | with_reducible apply Touches.after (State.nodeAbandons_touches ..)
      | with_reducible apply Touches.after (State.bump_touches ..)
      | with_reducible apply Touches.after (State.setF_touches ..)
      | with_reducible apply Touches.after (State.syncBellRegs_touches ..)

theorem State.holdAtOnce_touches (s : State) (i : Nat) (n : Nat) (reason : Nat) : Touches
    (Touch.free ||| Touch.out ||| Touch.regs ||| Touch.mem ||| Touch.grn ||| Touch.wear |||
    Touch.log ||| Touch.logBase ||| Touch.cores ||| Touch.bells ||| Touch.node ||| Touch.tithes |||
    Touch.gws ||| Touch.cfg ||| Touch.tracePos ||| Touch.stackMem ||| Touch.bridgeMem |||
    Touch.invPend ||| Touch.nextId ||| Touch.jobs ||| Touch.xfers ||| Touch.redSteps ||| Touch.runs
    ||| Touch.redBytes ||| Touch.seqs ||| Touch.rings ||| Touch.outs ||| Touch.links |||
    Touch.restores ||| Touch.egress ||| Touch.sas ||| Touch.led ||| Touch.xings ||| Touch.retireQ
    ||| Touch.rcal ||| Touch.classes ||| Touch.mapLag ||| Touch.rolePend ||| Touch.jumpAt |||
    Touch.reports ||| Touch.markers ||| Touch.heldOut ||| Touch.hostLines ||| Touch.hostResv) s
    (State.holdAtOnce s i n
    reason):= by
  unfold State.holdAtOnce
  repeat'
    first
      | with_reducible exact Touches.refl _ _
      | with_reducible assumption
      | decide
      | (extract_lets +onlyGivenNames nx; with_reducible refine Touches.cut (t := nx) ?_ ?_; subst nx; rotate_left; revert nx; intro _ _; rotate_right)
      | (extract_lets +onlyGivenNames nx; subst nx)
      | split
      | with_reducible apply Touches.after (State.restoreTo_touches ..)
      | with_reducible apply Touches.after (State.abandonAt_touches ..)
      | with_reducible apply Touches.after (State.setBell_touches ..)
      | with_reducible apply Touches.after (State.holdReason_touches ..)
      | with_reducible apply Touches.after (State.stopBefore_touches ..)
      | with_reducible apply Touches.after (State.packageHolds_touches ..)
      | with_reducible apply Touches.after (State.nodeAbandons_touches ..)

theorem execHoldFrame_touches (site : Site) (bell : BitVec 48) (reason : Fin 8) (rx : Rx) (s : State) :
    Answers (Touch.free ||| Touch.out ||| Touch.regs ||| Touch.mem ||| Touch.grn ||| Touch.wear |||
    Touch.log ||| Touch.logBase ||| Touch.cores ||| Touch.bells ||| Touch.node ||| Touch.tithes |||
    Touch.gws ||| Touch.cfg ||| Touch.tracePos ||| Touch.stackMem ||| Touch.bridgeMem |||
    Touch.invPend ||| Touch.nextId ||| Touch.jobs ||| Touch.xfers ||| Touch.redSteps ||| Touch.runs
    ||| Touch.redBytes ||| Touch.seqs ||| Touch.rings ||| Touch.outs ||| Touch.links |||
    Touch.restores ||| Touch.egress ||| Touch.sas ||| Touch.led ||| Touch.xings ||| Touch.retireQ
    ||| Touch.rcal ||| Touch.classes ||| Touch.mapLag ||| Touch.rolePend ||| Touch.jumpAt |||
    Touch.reports ||| Touch.markers ||| Touch.heldOut ||| Touch.hostLines ||| Touch.hostResv) s
    (execHoldFrame site bell
    reason rx s):= by
  unfold execHoldFrame
  repeat'
    first
      | with_reducible apply Answers.next
      | with_reducible exact Touches.refl _ _
      | with_reducible assumption
      | decide
      | (extract_lets +onlyGivenNames nx; with_reducible refine Answers.cut (t := nx) ?_ ?_; subst nx; rotate_left; revert nx; intro _ _; rotate_right)
      | (extract_lets +onlyGivenNames nx; subst nx)
      | split
      | with_reducible refine Touches.of_fst ‹State.hears _ _ _ = _› (Touches.after (State.hears_touches ..) ?_ ?_)
      | with_reducible apply Touches.after (State.relay_touches ..)
      | with_reducible apply Touches.after (State.setBell_touches ..)
      | with_reducible apply Touches.after (State.holdAtOnce_touches ..)

theorem State.startSteps_touches (s : State) (resume : Bool) (n : Nat) (t : Nat) : Touches
    (Touch.out ||| Touch.regs ||| Touch.mem ||| Touch.grn ||| Touch.wear ||| Touch.log |||
    Touch.logBase ||| Touch.cores ||| Touch.bells ||| Touch.node ||| Touch.gws ||| Touch.cfg |||
    Touch.regions ||| Touch.stackMem ||| Touch.bridgeMem ||| Touch.rings ||| Touch.links |||
    Touch.restores ||| Touch.hostTake ||| Touch.led ||| Touch.vcmp ||| Touch.retireQ |||
    Touch.mapLag ||| Touch.rolePend ||| Touch.reports) s (State.startSteps s resume n t):= by
  unfold State.startSteps
  repeat'
    first
      | with_reducible exact Touches.refl _ _
      | with_reducible assumption
      | decide
      | (extract_lets +onlyGivenNames x; with_reducible refine Touches.cut (t := x) ?_ ?_; subst x; rotate_left; clear_value x; revert x; intro _ _; rotate_right)
      | (extract_lets +onlyGivenNames x; clear_value x; revert x; intro _)
      | split
      | with_reducible apply Touches.after (State.activateNext_touches ..)
      | with_reducible apply Touches.after (State.settledBoundary_touches ..)
      | dsimp only
      | with_reducible apply Touches.set_node

theorem State.startAt_touches (s : State) (i : Nat) (resume : Bool) (t : Nat) : Touches (Touch.out
    ||| Touch.regs ||| Touch.mem ||| Touch.grn ||| Touch.wear ||| Touch.log ||| Touch.logBase |||
    Touch.cores ||| Touch.bells ||| Touch.node ||| Touch.tithes ||| Touch.gws ||| Touch.cfg |||
    Touch.regions ||| Touch.tracePos ||| Touch.stackMem ||| Touch.bridgeMem ||| Touch.invPend |||
    Touch.nextId ||| Touch.jobs ||| Touch.xfers ||| Touch.runs ||| Touch.seqs ||| Touch.rings |||
    Touch.brackets ||| Touch.links ||| Touch.restores ||| Touch.hostTake ||| Touch.egress |||
    Touch.sas ||| Touch.led ||| Touch.vcmp ||| Touch.retireQ ||| Touch.calLast ||| Touch.sensOut |||
    Touch.classes ||| Touch.mapLag ||| Touch.rolePend ||| Touch.jumpAt ||| Touch.reports |||
    Touch.markers ||| Touch.heldOut ||| Touch.hostLines ||| Touch.hostResv) s
      (State.startAt s i resume t) := by
  unfold State.startAt
  repeat'
    first
      | with_reducible exact Touches.refl _ _
      | with_reducible assumption
      | decide
      | (extract_lets +onlyGivenNames x; with_reducible refine Touches.cut (t := x) ?_ ?_; subst x; rotate_left; clear_value x; revert x; intro _ _; rotate_right)
      | (extract_lets +onlyGivenNames x; clear_value x; revert x; intro _)
      | split
      | with_reducible apply Touches.after (State.beginBell_touches ..)
      | with_reducible apply Touches.after (State.clearTokens_touches ..)
      | with_reducible apply Touches.after (State.raise_touches ..)
      | with_reducible apply Touches.after (State.restoreTo_touches ..)
      | with_reducible apply Touches.after (State.ringReserve_touches ..)
      | with_reducible apply Touches.after (State.setBell_touches ..)
      | with_reducible apply Touches.after (State.startSteps_touches ..)
      | with_reducible apply Touches.after (State.switchTo_touches ..)
      | with_reducible apply Touches.after (State.syncRed_touches ..)
      | with_reducible apply Touches.after (State.titheReload_touches ..)
      | with_reducible apply Touches.after (State.trySettle_touches ..)
      | with_reducible apply Touches.after (State.endHoldBrackets_touches ..)
theorem execReplayStart_touches (site : Site) (s : State) :
    Answers (Touch.out ||| Touch.regs ||| Touch.mem ||| Touch.grn ||| Touch.wear ||| Touch.log |||
    Touch.logBase ||| Touch.cores ||| Touch.bells ||| Touch.node ||| Touch.tithes ||| Touch.gws |||
    Touch.cfg ||| Touch.regions ||| Touch.tracePos ||| Touch.stackMem ||| Touch.bridgeMem |||
    Touch.invPend ||| Touch.nextId ||| Touch.jobs ||| Touch.xfers ||| Touch.runs ||| Touch.seqs |||
    Touch.rings ||| Touch.brackets ||| Touch.links ||| Touch.restores ||| Touch.hostTake |||
    Touch.egress ||| Touch.sas ||| Touch.led ||| Touch.vcmp ||| Touch.retireQ ||| Touch.calLast |||
    Touch.sensOut ||| Touch.classes ||| Touch.mapLag ||| Touch.rolePend ||| Touch.jumpAt |||
    Touch.reports ||| Touch.markers ||| Touch.heldOut ||| Touch.hostLines ||| Touch.hostResv) s
    (execReplayStart site s):= by
  unfold execReplayStart
  repeat'
    first
      | with_reducible apply Answers.next
      | with_reducible exact Touches.refl _ _
      | decide
      | (extract_lets +onlyGivenNames nx; subst nx)
      | split
      | with_reducible apply Touches.after (State.startAt_touches ..)

theorem execResumeFrame_touches (site : Site) (bell : BitVec 48) (start : BitVec 64) (rx : Rx) (s : State) :
    Answers (Touch.out ||| Touch.regs ||| Touch.bells ||| Touch.node ||| Touch.seqs) s (execResumeFrame site bell start rx s) := by
  unfold execResumeFrame
  repeat'
    first
      | with_reducible apply Answers.next
      | with_reducible exact Touches.refl _ _
      | with_reducible assumption
      | decide
      | (extract_lets +onlyGivenNames nx; with_reducible refine Answers.cut (t := nx) ?_ ?_; subst nx; rotate_left; revert nx; intro _ _; rotate_right)
      | (extract_lets +onlyGivenNames nx; subst nx)
      | split
      | with_reducible refine Touches.of_fst ‹State.hears _ _ _ = _› (Touches.after (State.hears_touches ..) ?_ ?_)
      | with_reducible apply Touches.after (State.relay_touches ..)
      | with_reducible apply Touches.after (State.setBell_touches ..)
      | with_reducible apply Touches.after (State.setF_touches ..)
      | with_reducible apply Touches.set_node

theorem execResumeStart_touches (site : Site) (s : State) :
    Answers (Touch.out ||| Touch.regs ||| Touch.mem ||| Touch.grn ||| Touch.wear ||| Touch.log |||
    Touch.logBase ||| Touch.cores ||| Touch.bells ||| Touch.node ||| Touch.tithes ||| Touch.gws |||
    Touch.cfg ||| Touch.regions ||| Touch.tracePos ||| Touch.stackMem ||| Touch.bridgeMem |||
    Touch.invPend ||| Touch.nextId ||| Touch.jobs ||| Touch.xfers ||| Touch.runs ||| Touch.seqs |||
    Touch.rings ||| Touch.brackets ||| Touch.links ||| Touch.restores ||| Touch.hostTake |||
    Touch.egress ||| Touch.sas ||| Touch.led ||| Touch.vcmp ||| Touch.retireQ ||| Touch.calLast |||
    Touch.sensOut ||| Touch.classes ||| Touch.mapLag ||| Touch.rolePend ||| Touch.jumpAt |||
    Touch.reports ||| Touch.markers ||| Touch.heldOut ||| Touch.hostLines ||| Touch.hostResv) s
    (execResumeStart site s):= by
  unfold execResumeStart
  repeat'
    first
      | with_reducible apply Answers.next
      | with_reducible exact Touches.refl _ _
      | decide
      | (extract_lets +onlyGivenNames nx; subst nx)
      | split
      | with_reducible apply Touches.after (State.startAt_touches ..)

theorem execSettleFrame_touches (site : Site) (bell : BitVec 48) (rx : Rx) (s : State) :
    Answers (Touch.out ||| Touch.regs ||| Touch.bells ||| Touch.node ||| Touch.seqs) s (execSettleFrame site bell rx s) := by
  unfold execSettleFrame
  repeat'
    first
      | with_reducible apply Answers.next
      | with_reducible exact Touches.refl _ _
      | with_reducible assumption
      | decide
      | (extract_lets +onlyGivenNames nx; with_reducible refine Answers.cut (t := nx) ?_ ?_; subst nx; rotate_left; revert nx; intro _ _; rotate_right)
      | (extract_lets +onlyGivenNames nx; subst nx)
      | split
      | with_reducible refine Touches.of_fst ‹State.hears _ _ _ = _› (Touches.after (State.hears_touches ..) ?_ ?_)
      | with_reducible apply Touches.after (State.relay_touches ..)
      | with_reducible apply Touches.after (State.setBell_touches ..)
      | with_reducible apply Touches.set_node

theorem execHoldPeriodBoundary_touches (site : Site) (s : State) :
    Answers (Touch.free ||| Touch.out ||| Touch.regs ||| Touch.mem ||| Touch.grn ||| Touch.wear |||
    Touch.log ||| Touch.logBase ||| Touch.cores ||| Touch.bells ||| Touch.node ||| Touch.tithes |||
    Touch.gws ||| Touch.cfg ||| Touch.regions ||| Touch.tracePos ||| Touch.stackMem |||
    Touch.bridgeMem ||| Touch.invPend ||| Touch.nextId ||| Touch.jobs ||| Touch.xfers ||| Touch.runs
    ||| Touch.seqs ||| Touch.sheetBell ||| Touch.sheetGot ||| Touch.rings ||| Touch.brackets |||
    Touch.links ||| Touch.restores ||| Touch.hostTake ||| Touch.egress ||| Touch.sas ||| Touch.led
    ||| Touch.vcmp ||| Touch.retireQ ||| Touch.calLast ||| Touch.sensOut ||| Touch.mapLag |||
    Touch.rolePend ||| Touch.sheetBase ||| Touch.reports ||| Touch.markers ||| Touch.heldOut |||
    Touch.hostLines ||| Touch.hostResv) s
    (execHoldPeriodBoundary site s):= by
  unfold execHoldPeriodBoundary
  repeat'
    first
      | with_reducible apply Answers.next
      | with_reducible exact Touches.refl _ _
      | with_reducible assumption
      | decide
      | (extract_lets +onlyGivenNames nx; with_reducible refine Answers.cut (t := nx) ?_ ?_; subst nx; rotate_left; revert nx; intro _ _; rotate_right)
      | (extract_lets +onlyGivenNames nx; subst nx)
      | split
      | with_reducible apply Touches.after (State.setBell_touches ..)
      | with_reducible apply Touches.after (State.buildSheet_touches ..)
      | with_reducible apply Touches.after (State.liveUpdate_touches ..)
      | with_reducible apply Touches.after (State.closeSheets_touches ..)
      | with_reducible apply Touches.after (State.settledBoundary_touches ..)
      | with_reducible apply Touches.after (State.calBoundary_touches ..)
      | with_reducible apply Touches.after (State.titheReload_touches ..)
      | with_reducible apply Touches.after (State.sendSheet_touches ..)

theorem execExtendFrame_touches (site : Site) (bell : BitVec 48) (m : Fin 9) (rx : Rx) (s : State) :
    Answers (Touch.out ||| Touch.regs ||| Touch.bells ||| Touch.seqs) s (execExtendFrame site bell m rx s) := by
  unfold execExtendFrame
  repeat'
    first
      | with_reducible apply Answers.next
      | with_reducible exact Touches.refl _ _
      | with_reducible assumption
      | decide
      | (extract_lets +onlyGivenNames nx; with_reducible refine Answers.cut (t := nx) ?_ ?_; subst nx; rotate_left; revert nx; intro _ _; rotate_right)
      | (extract_lets +onlyGivenNames nx; subst nx)
      | split
      | with_reducible refine Touches.of_fst ‹State.hears _ _ _ = _› (Touches.after (State.hears_touches ..) ?_ ?_)
      | with_reducible apply Touches.after (State.relay_touches ..)
      | with_reducible apply Touches.after (State.showBell_touches ..)
      | with_reducible apply Touches.after (State.setBell_touches ..)

theorem execCloseFrame_touches (site : Site) (bell : BitVec 48) (m : Fin 9) (forced : Bool) (rx : Rx) (s : State) :
    Answers (Touch.out ||| Touch.regs ||| Touch.bells ||| Touch.seqs) s (execCloseFrame site bell m forced rx s) := by
  unfold execCloseFrame
  repeat'
    first
      | with_reducible apply Answers.next
      | with_reducible exact Touches.refl _ _
      | with_reducible assumption
      | decide
      | (extract_lets +onlyGivenNames nx; with_reducible refine Answers.cut (t := nx) ?_ ?_; subst nx; rotate_left; revert nx; intro _ _; rotate_right)
      | (extract_lets +onlyGivenNames nx; subst nx)
      | split
      | with_reducible refine Touches.of_fst ‹State.hears _ _ _ = _› (Touches.after (State.hears_touches ..) ?_ ?_)
      | with_reducible apply Touches.after (State.relay_touches ..)
      | with_reducible apply Touches.after (State.setBell_touches ..)
      | with_reducible apply Touches.after (State.bump_touches ..)
      | with_reducible apply Touches.after (State.countClose_touches ..)

theorem execBellFrame_touches (site : Site) (bell : BitVec 48) (time : BitVec 64) (rx : Rx) (s : State) :
    Answers (Touch.out ||| Touch.regs ||| Touch.log ||| Touch.logBase ||| Touch.bells ||| Touch.node |||
    Touch.reports) s (execBellFrame site bell time rx s) := by
  unfold execBellFrame
  repeat'
    first
      | with_reducible apply Answers.next
      | with_reducible exact Touches.refl _ _
      | decide
      | (extract_lets +onlyGivenNames nx; subst nx)
      | split
      | with_reducible refine Touches.of_fst ‹State.hears _ _ _ = _› (Touches.after (State.hears_touches ..) ?_ ?_)
      | with_reducible apply Touches.after (State.raise_touches ..)

theorem execAnnounce_touches (site : Site) (bell : BitVec 48) (arg : BitVec 64) (rx : Rx) (s : State) :
    Answers (Touch.out ||| Touch.regs ||| Touch.log ||| Touch.logBase ||| Touch.bells ||| Touch.node |||
    Touch.reports) s (execAnnounce site bell arg rx s) := by
  unfold execAnnounce
  repeat'
    first
      | with_reducible apply Answers.next
      | with_reducible exact Touches.refl _ _
      | decide
      | (extract_lets +onlyGivenNames nx; subst nx)
      | split
      | with_reducible refine Touches.of_fst ‹State.hears _ _ _ = _› (Touches.after (State.hears_touches ..) ?_ ?_)
      | with_reducible apply Touches.after (State.raiseToken_touches ..)
      | with_reducible apply Touches.after (State.bump_touches ..)
      | with_reducible refine Touches.foldl ?_ fun _ _ => ?_

end Sys2Proof.Machine
end

