-- ==== Sys2Proof/Laws/Ckv.lean ====
section
/-!
SUPPORT. What the operations of Machine/Ckv.lean may touch.
-/

namespace Sys2Proof.Machine

theorem State.setCkv_touches (s : State) (u : Nat) (st : Nat) :
    Touches (Touch.regs) s (State.setCkv s u st) := by
  unfold State.setCkv
  repeat'
    first
      | with_reducible exact Touches.refl _ _
      | decide
      | with_reducible apply Touches.after (State.setF_touches ..)

theorem State.ckvBegin_touches (s : State) (u : Nat) :
    Touches (Touch.ckv) s (State.ckvBegin s u) := by
  unfold State.ckvBegin
  repeat'
    first
      | with_reducible exact Touches.refl _ _
      | decide
      | with_reducible apply Touches.set_ckv

theorem State.ckvStart_touches (s : State) (r : Requester) (u : Nat) :
    Touches (Touch.regs ||| Touch.ckv ||| Touch.ckvBy) s (State.ckvStart s r u) := by
  unfold State.ckvStart
  repeat'
    first
      | with_reducible exact Touches.refl _ _
      | with_reducible assumption
      | decide
      | (extract_lets +onlyGivenNames x; with_reducible refine Touches.cut (t := x) ?_ ?_; subst x; rotate_left; clear_value x; revert x; intro _ _; rotate_right)
      | (extract_lets +onlyGivenNames x; clear_value x; revert x; intro _)
      | split
      | with_reducible apply Touches.after (State.ckvBegin_touches ..)
      | with_reducible apply Touches.after (State.setCkv_touches ..)
      | with_reducible apply Touches.after (State.setF_touches ..)
      | dsimp only
      | with_reducible apply Touches.set_ckvBy

theorem execCkvStart_touches (r : Requester) (unit : Fin 24) (s : State) :
    Answers (Touch.regs ||| Touch.ckv ||| Touch.ckvBy) s (execCkvStart r unit s) := by
  unfold execCkvStart
  repeat'
    first
      | with_reducible apply Answers.next
      | with_reducible exact Touches.refl _ _
      | decide
      | split
      | with_reducible apply Touches.after (State.ckvStart_touches ..)

theorem State.ckvLedger_touches (s : State) (u : Nat) (kind : Nat) :
    Touches (Touch.regs ||| Touch.mem ||| Touch.stackMem ||| Touch.bridgeMem ||| Touch.led) s
      (State.ckvLedger s u kind) := by
  unfold State.ckvLedger
  repeat'
    first
      | with_reducible exact Touches.refl _ _
      | with_reducible assumption
      | decide
      | (extract_lets +onlyGivenNames x; with_reducible refine Touches.cut (t := x) ?_ ?_; subst x; rotate_left; clear_value x; revert x; intro _ _; rotate_right)
      | (extract_lets +onlyGivenNames x; clear_value x; revert x; intro _)
      | split
      | with_reducible apply Touches.after (State.ledgerTouch_touches ..)

theorem State.ckvRead_touches (s : State) (u : Nat) (g : Nat) (n : Nat) (far : List Byte) (flaws :
    Flaws) : Touches (Touch.out ||| Touch.regs ||| Touch.mem ||| Touch.wear ||| Touch.log |||
    Touch.logBase ||| Touch.cores ||| Touch.bells ||| Touch.node ||| Touch.stackMem |||
    Touch.bridgeMem ||| Touch.led ||| Touch.retireQ ||| Touch.mapLag ||| Touch.reports) s
    (State.ckvRead s u g n far flaws).1:= by
  unfold State.ckvRead
  repeat'
    first
      | with_reducible exact Touches.refl _ _
      | decide
      | split
      | with_reducible apply Touches.after (State.raiseStatus_touches ..)
      | with_reducible refine Touches.of_fst ‹State.readCheck _ _ _ _ _ _ _ = _› (Touches.after (State.readCheck_touches ..) ?_ ?_)
      | with_reducible apply Touches.after (State.ckvLedger_touches ..)
theorem State.ckvPass_touches (s : State) (u : Nat) :
    Touches (Touch.regs) s (State.ckvPass s u) := by
  unfold State.ckvPass
  repeat'
    first
      | with_reducible exact Touches.refl _ _
      | decide
      | with_reducible apply Touches.after (State.bump_touches ..)

theorem State.ckvMismatch_touches (s : State) (u : Nat) :
    Touches (Touch.out ||| Touch.regs ||| Touch.log ||| Touch.logBase ||| Touch.bells ||| Touch.node |||
    Touch.reports) s (State.ckvMismatch s u) := by
  unfold State.ckvMismatch
  repeat'
    first
      | with_reducible exact Touches.refl _ _
      | decide
      | split
      | (extract_lets +onlyGivenNames nx; subst nx)
      | with_reducible apply Touches.after (State.raise_touches ..)
      | with_reducible apply Touches.after (State.setCkv_touches ..)
theorem execCkvJobDone_touches (unit : Fin 24) (far : List Byte) (flaws : Flaws) (s : State) :
    Answers (Touch.out ||| Touch.regs ||| Touch.mem ||| Touch.wear ||| Touch.log ||| Touch.logBase
    ||| Touch.cores ||| Touch.bells ||| Touch.node ||| Touch.tithes ||| Touch.stackMem |||
    Touch.bridgeMem ||| Touch.led ||| Touch.retireQ ||| Touch.mapLag ||| Touch.reports |||
    Touch.ckv) s (execCkvJobDone unit far flaws s):= by
  unfold execCkvJobDone
  repeat'
    first
      | with_reducible apply Answers.next
      | with_reducible exact Touches.refl _ _
      | with_reducible assumption
      | decide
      | (extract_lets +onlyGivenNames nx; with_reducible refine Answers.cut (t := nx) ?_ ?_; subst nx; rotate_left; revert nx; intro _ _; rotate_right)
      | (extract_lets +onlyGivenNames nx; subst nx)
      | split
      | with_reducible refine Touches.of_fst ‹State.titheTry _ _ _ _ = _› (Touches.after (State.titheTry_touches ..) ?_ ?_)
      | with_reducible apply Touches.after (State.ckvRead_touches ..)
      | with_reducible apply Touches.after (State.setCkv_touches ..)
      | with_reducible apply Touches.after (State.titheStall_touches ..)
      | with_reducible apply Touches.after (State.setF_touches ..)
      | with_reducible apply Touches.after (State.ckvMismatch_touches ..)
      | with_reducible apply Touches.after (State.ckvBegin_touches ..)
      | with_reducible apply Touches.after (State.ckvPass_touches ..)
      | with_reducible refine Touches.of_fst (by assumption) ?_
      | with_reducible apply Touches.set_ckv

theorem execCkvStreamChunk_touches (unit : Fin 24) (data : Option (List Byte)) (far : List Byte)
    (flaws : Flaws) (s : State) :
    Answers (Touch.out ||| Touch.regs ||| Touch.mem ||| Touch.wear ||| Touch.log ||| Touch.logBase
    ||| Touch.cores ||| Touch.bells ||| Touch.node ||| Touch.stackMem ||| Touch.bridgeMem |||
    Touch.invPend ||| Touch.nextId ||| Touch.led ||| Touch.retireQ ||| Touch.mapLag |||
    Touch.reports ||| Touch.ckv) s (execCkvStreamChunk unit data far flaws s):= by
  unfold execCkvStreamChunk
  repeat'
    first
      | with_reducible apply Answers.next
      | with_reducible exact Touches.refl _ _
      | decide
      | (extract_lets +onlyGivenNames nx; have : True := (fun (_ : _ → _ → State) => trivial) nx; subst nx; clear this)
      | (extract_lets +onlyGivenNames nx; subst nx)
      | split
      | with_reducible apply Touches.after (State.ckvPass_touches ..)
      | with_reducible apply Touches.after (State.setF_touches ..)
      | with_reducible apply Touches.after (State.setCkv_touches ..)
      | with_reducible refine Touches.of_fst ‹State.ckvRead _ _ _ _ _ _ = _› (Touches.after (State.ckvRead_touches ..) ?_ ?_)
      | with_reducible apply Touches.after (State.emit_touches ..)
      | with_reducible apply Touches.after (State.ckvMismatch_touches ..)
      | with_reducible apply Touches.after (State.raiseStatus_touches ..)
      | with_reducible apply Touches.after (State.storeRun_touches ..)
      | with_reducible apply Touches.after (State.ckvLedger_touches ..)
      | dsimp only
      | with_reducible apply Touches.set_ckv

end Sys2Proof.Machine
end

