-- ==== Sys2Proof/Laws/Start.lean ====
section
/-!
SUPPORT. What the operations of Machine/Start.lean may touch.
-/

namespace Sys2Proof.Machine

theorem State.extend_touches (s : State) (m : Nat) (stage : List Byte) :
    Touches (Touch.meas) s (State.extend s m stage) := by
  unfold State.extend
  repeat'
    first
      | with_reducible exact Touches.refl _ _
      | decide
      | with_reducible apply Touches.set_meas

theorem State.bootStage_touches {ps : Nat} {s : State} {bad : List (Fin 4 × Bool)} {n : Nat}
    {measure : State → List Byte → State} (hp : (Touch.regs ||| Touch.firmware) &&& ps = (Touch.regs ||| Touch.firmware))
    (hf : ∀ t bs, Touches ps t (measure t bs)) : Touches ps s (s.bootStage bad n measure).1 := by
  have hreg : ∀ t a f x, Touches ps t (State.setF t a f x) := fun t a f x =>
    (State.setF_touches t a f x).mono (Touches.sub_trans (by decide) hp)
  have hfw : ps.testBit 88 = true := Touches.testBit_of_mem hp (by decide)
  unfold State.bootStage
  dsimp only
  split
  · exact Touches.trans (Touches.trans (Touches.set_firmware (Touches.refl _ _) hfw) (hf ..)) (hreg ..)
  · exact hreg ..

theorem State.bootDone_touches (s : State) :
    Touches (Touch.regs ||| Touch.firmware) s (State.bootDone s) := by
  unfold State.bootDone
  repeat'
    first
      | with_reducible exact Touches.refl _ _
      | decide
      | (extract_lets +onlyGivenNames nx; subst nx)
      | with_reducible apply Touches.after (State.setF_touches ..)
      | with_reducible apply Touches.set_firmware

theorem State.partOut_touches (s : State) (i : Nat) :
    Touches (Touch.out ||| Touch.regs ||| Touch.log ||| Touch.logBase ||| Touch.bells ||| Touch.node |||
    Touch.reports) s (State.partOut s i) := by
  unfold State.partOut
  repeat'
    first
      | with_reducible exact Touches.refl _ _
      | decide
      | split
      | with_reducible apply Touches.after (State.setF_touches ..)
      | with_reducible apply Touches.after (State.raise_touches ..)
      | with_reducible apply Touches.after (State.degraded_touches ..)

theorem State.guestIn_touches (s : State) (n : Nat) (stage : List Byte) :
    Touches (Touch.regs ||| Touch.meas) s (State.guestIn s n stage) := by
  unfold State.guestIn
  repeat'
    first
      | with_reducible exact Touches.refl _ _
      | with_reducible assumption
      | decide
      | (extract_lets +onlyGivenNames x; with_reducible refine Touches.cut (t := x) ?_ ?_; subst x; rotate_left; clear_value x; revert x; intro _ _; rotate_right)
      | (extract_lets +onlyGivenNames x; clear_value x; revert x; intro _)
      | split
      | with_reducible apply Touches.after (State.setF_touches ..)
      | with_reducible apply Touches.after (State.extend_touches ..)

theorem State.admitGuests_touches (s : State) (gs : List (Fin 4 × Fin 6)) (stage : List Byte) :
    Touches (Touch.out ||| Touch.regs ||| Touch.log ||| Touch.logBase ||| Touch.bells ||| Touch.node |||
      Touch.reports ||| Touch.meas) s (State.admitGuests s gs stage) := by
  unfold State.admitGuests
  repeat'
    first
      | with_reducible exact Touches.refl _ _
      | with_reducible assumption
      | decide
      | (extract_lets +onlyGivenNames x; with_reducible refine Touches.cut (t := x) ?_ ?_; subst x; rotate_left; clear_value x; revert x; intro _ _; rotate_right)
      | (extract_lets +onlyGivenNames x; clear_value x; revert x; intro _)
      | split
      | with_reducible apply Touches.after (State.guestIn_touches ..)
      | with_reducible apply Touches.after (State.partOut_touches ..)
      | with_reducible apply Touches.after (State.setF_touches ..)
      | with_reducible refine Touches.foldl ?_ fun _ _ => ?_

theorem State.hbmUp_touches (s : State) (run : StartRun) (b : Nat) :
    Touches (Touch.regs ||| Touch.grn ||| Touch.mapLag) s (State.hbmUp s run b) := by
  unfold State.hbmUp
  repeat'
    first
      | with_reducible exact Touches.refl _ _
      | with_reducible assumption
      | decide
      | (extract_lets +onlyGivenNames x; with_reducible refine Touches.cut (t := x) ?_ ?_; subst x; rotate_left; clear_value x; revert x; intro _ _; rotate_right)
      | (extract_lets +onlyGivenNames x; clear_value x; revert x; intro _)
      | split
      | with_reducible apply Touches.after (State.grnDel_touches ..)
      | with_reducible apply Touches.after (State.setF_touches ..)
      | with_reducible refine Touches.foldl ?_ fun _ _ => ?_

theorem State.placeStore_touches (s : State) :
    Touches (Touch.regs) s (State.placeStore s) := by
  unfold State.placeStore
  repeat'
    first
      | with_reducible exact Touches.refl _ _
      | with_reducible assumption
      | decide
      | (extract_lets +onlyGivenNames nx; with_reducible refine Touches.cut (t := nx) ?_ ?_; subst nx; rotate_left; revert nx; intro _ _; rotate_right)
      | (extract_lets +onlyGivenNames nx; subst nx)
      | split
      | with_reducible apply Touches.after (State.setF_touches ..)
      | dsimp only

theorem State.gatewaysUp_touches (s : State) :
    Touches (Touch.regs ||| Touch.gws) s (State.gatewaysUp s) := by
  unfold State.gatewaysUp
  repeat'
    first
      | with_reducible exact Touches.refl _ _
      | with_reducible assumption
      | decide
      | (extract_lets +onlyGivenNames nx; with_reducible refine Touches.cut (t := nx) ?_ ?_; subst nx; rotate_left; revert nx; intro _ _; rotate_right)
      | (extract_lets +onlyGivenNames nx; subst nx)
      | split
      | with_reducible apply Touches.after (State.setF_touches ..)
      | with_reducible apply Touches.after (State.setGw_touches ..)
      | with_reducible refine Touches.foldl ?_ fun _ _ => ?_

theorem State.lanesUp_touches (s : State) (up : List Nat) :
    Touches (Touch.out ||| Touch.regs ||| Touch.log ||| Touch.logBase ||| Touch.bells ||| Touch.node |||
      Touch.reports) s (State.lanesUp s up) := by
  unfold State.lanesUp
  repeat'
    first
      | with_reducible exact Touches.refl _ _
      | with_reducible assumption
      | decide
      | split
      | with_reducible apply Touches.after (State.partOut_touches ..)
      | with_reducible apply Touches.after (State.setLive_touches ..)
      | with_reducible apply Touches.after (State.siteLanesUp_touches ..)
      | with_reducible refine Touches.foldl ?_ fun _ _ => ?_

theorem State.sitesUp_touches (s : State) (run : StartRun) :
    Touches (Touch.free ||| Touch.out ||| Touch.regs ||| Touch.grn ||| Touch.log ||| Touch.logBase |||
      Touch.bells ||| Touch.node ||| Touch.gws ||| Touch.outs ||| Touch.xings ||| Touch.lit |||
      Touch.mapLag ||| Touch.reports ||| Touch.markers ||| Touch.draws) s (State.sitesUp s run) := by
  unfold State.sitesUp
  repeat'
    first
      | with_reducible exact Touches.refl _ _
      | with_reducible assumption
      | decide
      | (extract_lets +onlyGivenNames x; with_reducible refine Touches.cut (t := x) ?_ ?_; subst x; rotate_left; clear_value x; revert x; intro _ _; rotate_right)
      | (extract_lets +onlyGivenNames x; clear_value x; revert x; intro _)
      | split
      | with_reducible apply Touches.after (State.calibrateXings_touches ..)
      | with_reducible apply Touches.after (State.gatewaysUp_touches ..)
      | with_reducible apply Touches.after (State.hbmUp_touches ..)
      | with_reducible apply Touches.after (State.lanesUp_touches ..)
      | with_reducible apply Touches.after (State.pairsUp_touches ..)
      | with_reducible apply Touches.after (State.placeStore_touches ..)
      | with_reducible apply Touches.after (State.swapCombs_touches ..)
      | with_reducible refine Touches.foldl ?_ fun _ _ => ?_
      | dsimp only
      | with_reducible apply Touches.set_lit

theorem State.hostsUp_touches (s : State) (run : StartRun) : Touches (Touch.out ||| Touch.regs |||
    Touch.log ||| Touch.logBase ||| Touch.bells ||| Touch.node ||| Touch.reports ||| Touch.portNext)
    s (State.hostsUp s
    run):= by
  unfold State.hostsUp
  repeat'
    first
      | with_reducible exact Touches.refl _ _
      | with_reducible assumption
      | decide
      | (extract_lets +onlyGivenNames nx; with_reducible refine Touches.cut (t := nx) ?_ ?_; subst nx; rotate_left; revert nx; intro _ _; rotate_right)
      | split
      | with_reducible apply Touches.after (State.setF_touches ..)
      | with_reducible apply Touches.after (State.trainPort_touches ..)
      | with_reducible refine Touches.foldl ?_ fun _ _ => ?_
      | with_reducible apply Touches.after (State.degraded_touches ..)
      | with_reducible apply Touches.after (State.partOut_touches ..)
      | with_reducible apply Touches.after (State.portTick_touches ..)

theorem State.coldStart_touches (s : State) (run : StartRun) : Touches (Touch.free ||| Touch.out |||
    Touch.regs ||| Touch.grn ||| Touch.log ||| Touch.logBase ||| Touch.bells ||| Touch.node |||
    Touch.gws ||| Touch.outs ||| Touch.xings ||| Touch.vc ||| Touch.lit ||| Touch.mapLag |||
    Touch.lms ||| Touch.meas ||| Touch.debugUsed ||| Touch.power ||| Touch.firmware |||
    Touch.reports ||| Touch.markers ||| Touch.draws ||| Touch.portNext) s (State.coldStart s run):= by
  unfold State.coldStart
  repeat'
    first
      | with_reducible exact Touches.refl _ _
      | with_reducible assumption
      | decide
      | (extract_lets +onlyGivenNames nx; with_reducible refine Touches.cut (t := nx) ?_ ?_; subst nx; rotate_left; revert nx; intro _ _; rotate_right)
      | (extract_lets +onlyGivenNames nx; subst nx)
      | split
      | with_reducible apply Touches.after (State.setF_touches ..)
      | with_reducible refine Touches.of_fst ‹State.bootStage _ _ _ _ = _› (Touches.trans ?_ (State.bootStage_touches ?_ fun _ _ => ?_))
      | with_reducible apply Touches.after (State.extend_touches ..)
      | with_reducible apply Touches.after (State.countRoles_touches ..)
      | with_reducible apply Touches.after (State.raise_touches ..)
      | with_reducible apply Touches.after (State.admitGuests_touches ..)
      | with_reducible apply Touches.after (State.setStep_touches ..)
      | with_reducible apply Touches.after (State.sitesUp_touches ..)
      | with_reducible apply Touches.after (State.setPwrState_touches ..)
      | with_reducible apply Touches.after (State.hostsUp_touches ..)
      | with_reducible apply Touches.after (State.bootDone_touches ..)
      | with_reducible refine Touches.foldl ?_ fun _ _ => ?_
      | with_reducible apply Touches.set_lms_debugUsed_power
      | dsimp only
      | with_reducible apply Touches.set_vc_lms_debugUsed_power

theorem execColdStart_touches (run : StartRun) (s : State) :
    Answers (Touch.free ||| Touch.out ||| Touch.regs ||| Touch.grn ||| Touch.log ||| Touch.logBase
    ||| Touch.bells ||| Touch.node ||| Touch.gws ||| Touch.outs ||| Touch.xings ||| Touch.vc |||
    Touch.lit ||| Touch.mapLag ||| Touch.lms ||| Touch.meas ||| Touch.debugUsed ||| Touch.power |||
    Touch.firmware ||| Touch.reports ||| Touch.markers ||| Touch.draws ||| Touch.portNext) s
    (execColdStart run s):= by
  unfold execColdStart
  repeat'
    first
      | with_reducible apply Answers.next
      | with_reducible exact Touches.refl _ _
      | decide
      | split
      | with_reducible apply Touches.after (State.coldStart_touches ..)

theorem State.clockStarts_touches (s : State) :
    Touches (Touch.vt ||| Touch.vtFrac ||| Touch.regs ||| Touch.vc) s (State.clockStarts s) := by
  unfold State.clockStarts
  repeat'
    first
      | with_reducible exact Touches.refl _ _
      | decide
      | (extract_lets +onlyGivenNames nx; subst nx)
      | split
      | with_reducible apply Touches.after (State.setF_touches ..)
      | with_reducible apply Touches.set_vt_vtFrac_vc

theorem State.startTick_touches (s : State) :
    Touches (Touch.vt ||| Touch.vtFrac ||| Touch.regs ||| Touch.vc ||| Touch.startedFor) s (State.startTick s) := by
  unfold State.startTick
  repeat'
    first
      | with_reducible exact Touches.refl _ _
      | with_reducible assumption
      | decide
      | (extract_lets +onlyGivenNames nx; with_reducible refine Touches.cut (t := nx) ?_ ?_; subst nx; rotate_left; revert nx; intro _ _; rotate_right)
      | split
      | with_reducible apply Touches.after (State.clockStarts_touches ..)
      | with_reducible apply Touches.after (State.setStep_touches ..)
      | with_reducible apply Touches.after (State.setF_touches ..)
      | with_reducible apply Touches.set_startedFor

theorem State.heldReset_touches (s : State) :
    Touches (Touch.power) s (State.heldReset s) := by
  unfold State.heldReset
  repeat'
    first
      | with_reducible exact Touches.refl _ _
      | with_reducible assumption
      | decide
      | split
      | dsimp only
      | with_reducible apply Touches.set_power

theorem State.intoReset_touches (s : State) :
    Touches (Touch.all - (Touch.free + Touch.pending + Touch.out + Touch.grn + Touch.wear + Touch.opkey
      + Touch.led + Touch.bondHalf + Touch.lms + Touch.opkeySeq + Touch.fixed + Touch.firmware)) s
      (State.intoReset s) := by
  unfold State.intoReset
  repeat'
    first
      | with_reducible exact Touches.refl _ _
      | with_reducible assumption
      | decide
      | split
      | with_reducible apply Touches.after (State.heldReset_touches ..)
      | with_reducible apply Touches.after (State.powerOff_touches ..)

theorem execResetN_touches (pin : ResetPin) (s : State) :
    Answers (Touch.all - (Touch.pending + Touch.wear + Touch.opkey + Touch.led + Touch.bondHalf +
      Touch.opkeySeq + Touch.fixed)) s (execResetN pin s) := by
  unfold execResetN
  repeat'
    first
      | with_reducible apply Answers.next
      | with_reducible exact Touches.refl _ _
      | with_reducible assumption
      | decide
      | split
      | with_reducible apply Touches.after (State.coldStart_touches ..)
      | with_reducible apply Touches.after (State.intoReset_touches ..)

end Sys2Proof.Machine
end

