-- ==== Sys2Proof/Laws/View.lean ====
section
/-!
SUPPORT. What the operations of Machine/View.lean may touch.
-/

namespace Sys2Proof.Machine

theorem State.read32_touches (s : State) (q : Requester) (a : Nat) :
    Touches (Touch.regs ||| Touch.rlatch) s (State.read32 s q a).1 := by
  unfold State.read32
  repeat'
    first
      | with_reducible exact Touches.refl _ _
      | decide
      | (extract_lets +onlyGivenNames nx; subst nx)
      | split
      | with_reducible apply Touches.after (State.unmapped_touches ..)
      | dsimp only
      | with_reducible apply Touches.set_rlatch

theorem State.readHalf_touches (s : State) (q : Requester) (a : Nat) :
    Touches (Touch.regs) s (State.readHalf s q a).1 := by
  unfold State.readHalf
  repeat'
    first
      | with_reducible exact Touches.refl _ _
      | decide
      | split
      | with_reducible apply Touches.after (State.unmapped_touches ..)

theorem State.ctrlRead_touches (s : State) (q : Requester) (a : Nat) (wide : Bool) :
    Touches (Touch.regs ||| Touch.rlatch) s (State.ctrlRead s q a wide).1 := by
  unfold State.ctrlRead
  repeat'
    first
      | with_reducible exact Touches.refl _ _
      | decide
      | split
      | with_reducible refine Touches.of_fst ‹State.read32 _ _ _ = _› (Touches.after (State.read32_touches ..) ?_ ?_)
      | with_reducible refine Touches.of_fst ‹State.readHalf _ _ _ = _› (Touches.after (State.readHalf_touches ..) ?_ ?_)

end Sys2Proof.Machine
end

