-- ==== Sys2Proof/Laws/Control.lean ====
section
/-!
SUPPORT. What the operations of Machine/Control.lean may touch.
-/

namespace Sys2Proof.Machine

theorem State.store_touches (s : State) (h : RegHit) (v : BitVec 64) (mask : BitVec 64) :
    Touches (Touch.regs) s (State.store s h v mask) := by
  unfold State.store
  repeat'
    first
      | with_reducible exact Touches.refl _ _
      | decide
      | with_reducible apply Touches.after (State.setReg_touches ..)

/-- The state of an answer touches what the answer does. -/
theorem outState_touches {ps : Nat} {s : State} {o : Out} (h : Answers ps s o) : Touches ps s (outState s o) := by
  obtain ⟨t, ht, h⟩ := h; rw [ht]; exact h

theorem State.also_touches {ps : Nat} {s : State} {b : Bool} {f : State → State} (hf : ∀ t, Touches ps t (f t)) :
    Touches ps s (s.also b f) := by
  unfold State.also
  split
  · exact hf s
  · exact Touches.refl _ _

theorem State.portCtrl_touches (s : State) (force : Bool) (retrain : Bool) : Touches (Touch.free |||
    Touch.regs ||| Touch.portNext) s (State.portCtrl s force retrain):= by
  unfold State.portCtrl
  repeat'
    first
      | with_reducible exact Touches.refl _ _
      | with_reducible assumption
      | decide
      | (extract_lets +onlyGivenNames nx; with_reducible refine Touches.cut (t := nx) ?_ ?_; subst nx; rotate_left; revert nx; intro _ _; rotate_right)
      | (extract_lets +onlyGivenNames nx; subst nx)
      | split
      | with_reducible apply Touches.after (State.setF_touches ..)
      | with_reducible refine Touches.of_snd ‹State.takeFree _ = _› (Touches.after (State.takeFree_touches ..) ?_ ?_)
      | with_reducible apply Touches.after (State.trainPort_touches ..)

theorem State.regPut_touches (s : State) (q : Requester) (h : RegHit) (v : BitVec 64) (mask : BitVec
    64) : Touches (Touch.all - (Touch.vt + Touch.vtFrac + Touch.rateTemp + Touch.rateServo +
    Touch.pending + Touch.rlatch + Touch.wlatch + Touch.logRead + Touch.logRing + Touch.invAcks +
    Touch.pageBell + Touch.sheetBell + Touch.sheetGot + Touch.qpRate + Touch.cnpAt + Touch.conf +
    Touch.xings + Touch.vc + Touch.combCal + Touch.calRej + Touch.calLast + Touch.sensOut +
    Touch.classes + Touch.bondHalf + Touch.lms + Touch.meas + Touch.debugUsed + Touch.heat +
    Touch.pairAt + Touch.pairOff + Touch.pairLost + Touch.fast + Touch.jumpAt + Touch.tripped +
    Touch.trips + Touch.hbmSlow + Touch.fixed + Touch.firmware + Touch.sheetBase + Touch.startedFor
    + Touch.mgmt + Touch.inbox + Touch.dynAddr + Touch.eid + Touch.tid + Touch.bscan)) s
    (State.regPut s q h v
    mask):= by
  unfold State.regPut
  repeat'
    first
      | with_reducible exact Touches.refl _ _
      | with_reducible assumption
      | decide
      | (extract_lets +onlyGivenNames nx; with_reducible refine Touches.cut (t := nx) ?_ ?_; subst nx; rotate_left; revert nx; intro _ _; rotate_right)
      | (extract_lets +onlyGivenNames nx; subst nx)
      | split
      | with_reducible refine Touches.trans ?_ (State.also_touches fun _ => ?_)
      | with_reducible apply Touches.after (State.clrParity_touches ..)
      | with_reducible apply Touches.after (State.clrMin_touches ..)
      | with_reducible apply Touches.after (outState_touches (execBellCtrlHoldReq_touches ..))
      | with_reducible apply Touches.after (outState_touches (execBellCtrlResume_touches ..))
      | with_reducible apply Touches.after (State.ackMemLost_touches ..)
      | with_reducible apply Touches.after (State.restore_touches ..)
      | with_reducible apply Touches.after (State.portCtrl_touches ..)
      | with_reducible apply Touches.after (State.doorbell_touches ..)
      | with_reducible apply Touches.after (State.ctrlSlot_touches ..)
      | with_reducible apply Touches.after (State.cancel_touches ..)
      | with_reducible apply Touches.after (State.enable_touches ..)
      | with_reducible apply Touches.after (State.writeActivate_touches ..)
      | with_reducible apply Touches.after (State.selectAlt_touches ..)
      | with_reducible apply Touches.after (State.requestReset_touches ..)
      | with_reducible apply Touches.after (State.ackLost_touches ..)
      | with_reducible apply Touches.after (State.releaseField_touches ..)
      | with_reducible apply Touches.after (State.resetField_touches ..)
      | with_reducible apply Touches.after (State.resetLinks_touches ..)
      | with_reducible apply Touches.after (State.writeTarget_touches ..)
      | with_reducible apply Touches.after (outState_touches (execSafelight_touches ..))
      | with_reducible apply Touches.after (State.wake_touches ..)
      | with_reducible apply Touches.after (outState_touches (execRetireCore_touches ..))
      | with_reducible apply Touches.after (outState_touches (execDrawHost_touches ..))
      | with_reducible apply Touches.after (State.changeKey_touches ..)
      | with_reducible apply Touches.after (outState_touches (execSecAttest_touches ..))
      | with_reducible apply Touches.after (State.store_touches ..)
      | with_reducible apply Touches.after (State.ckvStart_touches ..)
      | with_reducible apply Touches.set_ringSel
      | with_reducible apply Touches.set_wearSel

theorem State.ctrlPut_touches (s : State) (q : Requester) (h : RegHit) (v : BitVec 64) (mask :
    BitVec 64) : Touches (Touch.all - (Touch.vt + Touch.vtFrac + Touch.rateTemp + Touch.rateServo +
    Touch.pending + Touch.rlatch + Touch.wlatch + Touch.logRead + Touch.logRing + Touch.invAcks +
    Touch.pageBell + Touch.sheetBell + Touch.sheetGot + Touch.qpRate + Touch.cnpAt + Touch.conf +
    Touch.xings + Touch.vc + Touch.combCal + Touch.calRej + Touch.calLast + Touch.sensOut +
    Touch.classes + Touch.bondHalf + Touch.lms + Touch.meas + Touch.debugUsed + Touch.heat +
    Touch.pairAt + Touch.pairOff + Touch.pairLost + Touch.fast + Touch.jumpAt + Touch.tripped +
    Touch.trips + Touch.hbmSlow + Touch.fixed + Touch.firmware + Touch.sheetBase + Touch.startedFor
    + Touch.mgmt + Touch.inbox + Touch.dynAddr + Touch.eid + Touch.tid + Touch.bscan)) s
    (State.ctrlPut s q h v mask):= by
  unfold State.ctrlPut
  repeat'
    first
      | with_reducible exact Touches.refl _ _
      | decide
      | split
      | with_reducible apply Touches.after (State.regPut_touches ..)

theorem State.write32_touches (s : State) (q : Requester) (a : Nat) (v : BitVec 32) : Touches
    (Touch.all - (Touch.vt + Touch.vtFrac + Touch.rateTemp + Touch.rateServo + Touch.pending +
    Touch.rlatch + Touch.logRead + Touch.logRing + Touch.invAcks + Touch.pageBell + Touch.sheetBell
    + Touch.sheetGot + Touch.qpRate + Touch.cnpAt + Touch.conf + Touch.xings + Touch.vc +
    Touch.combCal + Touch.calRej + Touch.calLast + Touch.sensOut + Touch.classes + Touch.bondHalf +
    Touch.lms + Touch.meas + Touch.debugUsed + Touch.heat + Touch.pairAt + Touch.pairOff +
    Touch.pairLost + Touch.fast + Touch.jumpAt + Touch.tripped + Touch.trips + Touch.hbmSlow +
    Touch.fixed + Touch.firmware + Touch.sheetBase + Touch.startedFor + Touch.mgmt + Touch.inbox +
    Touch.dynAddr + Touch.eid + Touch.tid + Touch.bscan)) s (State.write32 s q a v):= by
  unfold State.write32
  repeat'
    first
      | with_reducible exact Touches.refl _ _
      | decide
      | (extract_lets +onlyGivenNames nx; subst nx)
      | split
      | with_reducible apply Touches.after (State.unmapped_touches ..)
      | with_reducible apply Touches.after (State.ctrlPut_touches ..)
      | with_reducible apply Touches.set_wlatch

theorem State.writeHalf_touches (s : State) (q : Requester) (a : Nat) (v : BitVec 32) : Touches
    (Touch.all - (Touch.vt + Touch.vtFrac + Touch.rateTemp + Touch.rateServo + Touch.pending +
    Touch.rlatch + Touch.wlatch + Touch.logRead + Touch.logRing + Touch.invAcks + Touch.pageBell +
    Touch.sheetBell + Touch.sheetGot + Touch.qpRate + Touch.cnpAt + Touch.conf + Touch.xings +
    Touch.vc + Touch.combCal + Touch.calRej + Touch.calLast + Touch.sensOut + Touch.classes +
    Touch.bondHalf + Touch.lms + Touch.meas + Touch.debugUsed + Touch.heat + Touch.pairAt +
    Touch.pairOff + Touch.pairLost + Touch.fast + Touch.jumpAt + Touch.tripped + Touch.trips +
    Touch.hbmSlow + Touch.fixed + Touch.firmware + Touch.sheetBase + Touch.startedFor + Touch.mgmt +
    Touch.inbox + Touch.dynAddr + Touch.eid + Touch.tid + Touch.bscan)) s (State.writeHalf s q a v):= by
  unfold State.writeHalf
  repeat'
    first
      | with_reducible exact Touches.refl _ _
      | decide
      | split
      | with_reducible apply Touches.after (State.unmapped_touches ..)
      | with_reducible apply Touches.after (State.ctrlPut_touches ..)

theorem State.ctrlWrite_touches (s : State) (q : Requester) (a : Nat) (wide : Bool) (v : BitVec 64)
    : Touches (Touch.all - (Touch.vt + Touch.vtFrac + Touch.rateTemp + Touch.rateServo +
    Touch.pending + Touch.rlatch + Touch.logRead + Touch.logRing + Touch.invAcks + Touch.pageBell +
    Touch.sheetBell + Touch.sheetGot + Touch.qpRate + Touch.cnpAt + Touch.conf + Touch.xings +
    Touch.vc + Touch.combCal + Touch.calRej + Touch.calLast + Touch.sensOut + Touch.classes +
    Touch.bondHalf + Touch.lms + Touch.meas + Touch.debugUsed + Touch.heat + Touch.pairAt +
    Touch.pairOff + Touch.pairLost + Touch.fast + Touch.jumpAt + Touch.tripped + Touch.trips +
    Touch.hbmSlow + Touch.fixed + Touch.firmware + Touch.sheetBase + Touch.startedFor + Touch.mgmt +
    Touch.inbox + Touch.dynAddr + Touch.eid + Touch.tid + Touch.bscan)) s (State.ctrlWrite s q a
    wide v):= by
  unfold State.ctrlWrite
  repeat'
    first
      | with_reducible exact Touches.refl _ _
      | with_reducible assumption
      | decide
      | (extract_lets +onlyGivenNames nx; with_reducible refine Touches.cut (t := nx) ?_ ?_; subst nx; rotate_left; revert nx; intro _ _; rotate_right)
      | split
      | with_reducible apply Touches.after (State.writeHalf_touches ..)
      | with_reducible apply Touches.after (State.write32_touches ..)
      | with_reducible apply Touches.after (State.ctrlPut_touches ..)

theorem execRegisterWrite_touches (r : Requester) (addr : BitVec 40) (wide : Bool) (v : BitVec 64) (s : State) :
    Answers (Touch.all - (Touch.vt + Touch.vtFrac + Touch.rateTemp + Touch.rateServo + Touch.pending
    + Touch.rlatch + Touch.logRead + Touch.logRing + Touch.invAcks + Touch.pageBell +
    Touch.sheetBell + Touch.sheetGot + Touch.qpRate + Touch.cnpAt + Touch.conf + Touch.xings +
    Touch.vc + Touch.combCal + Touch.calRej + Touch.calLast + Touch.sensOut + Touch.classes +
    Touch.bondHalf + Touch.lms + Touch.meas + Touch.debugUsed + Touch.heat + Touch.pairAt +
    Touch.pairOff + Touch.pairLost + Touch.fast + Touch.jumpAt + Touch.tripped + Touch.trips +
    Touch.hbmSlow + Touch.fixed + Touch.firmware + Touch.sheetBase + Touch.startedFor + Touch.mgmt +
    Touch.inbox + Touch.dynAddr + Touch.eid + Touch.tid + Touch.bscan)) s (execRegisterWrite r addr
    wide v s):= by
  unfold execRegisterWrite
  repeat'
    first
      | with_reducible apply Answers.next
      | with_reducible exact Touches.refl _ _
      | decide
      | split
      | with_reducible apply Touches.after (State.emit_touches ..)
      | with_reducible apply Touches.after (State.ctrlWrite_touches ..)

theorem State.answerRead_touches (s : State) (q : Requester) (a : Nat) :
    Touches (Touch.out ||| Touch.regs ||| Touch.rlatch) s (State.answerRead s q a) := by
  unfold State.answerRead
  repeat'
    first
      | with_reducible exact Touches.refl _ _
      | decide
      | split
      | with_reducible refine Touches.of_fst ‹State.ctrlRead _ _ _ _ = _› (Touches.after (State.ctrlRead_touches ..) ?_ ?_)
      | with_reducible apply Touches.after (State.emit_touches ..)

theorem execLatchedLowRead_touches (r : Requester) (addr : BitVec 40) (s : State) :
    Answers (Touch.out ||| Touch.regs ||| Touch.rlatch) s (execLatchedLowRead r addr s) := by
  unfold execLatchedLowRead
  repeat'
    first
      | with_reducible apply Answers.next
      | with_reducible exact Touches.refl _ _
      | decide
      | split
      | with_reducible apply Touches.after (State.answerRead_touches ..)

theorem execLatchedHighRead_touches (r : Requester) (addr : BitVec 40) (s : State) :
    Answers (Touch.out ||| Touch.regs ||| Touch.rlatch) s (execLatchedHighRead r addr s) := by
  unfold execLatchedHighRead
  repeat'
    first
      | with_reducible apply Answers.next
      | with_reducible exact Touches.refl _ _
      | decide
      | split
      | with_reducible apply Touches.after (State.answerRead_touches ..)

theorem execLatchedHighWrite_touches (r : Requester) (addr : BitVec 40) (v : BitVec 32) (s : State) :
    Answers (Touch.all - (Touch.vt + Touch.vtFrac + Touch.rateTemp + Touch.rateServo + Touch.pending
    + Touch.rlatch + Touch.logRead + Touch.logRing + Touch.invAcks + Touch.pageBell +
    Touch.sheetBell + Touch.sheetGot + Touch.qpRate + Touch.cnpAt + Touch.conf + Touch.xings +
    Touch.vc + Touch.combCal + Touch.calRej + Touch.calLast + Touch.sensOut + Touch.classes +
    Touch.bondHalf + Touch.lms + Touch.meas + Touch.debugUsed + Touch.heat + Touch.pairAt +
    Touch.pairOff + Touch.pairLost + Touch.fast + Touch.jumpAt + Touch.tripped + Touch.trips +
    Touch.hbmSlow + Touch.fixed + Touch.firmware + Touch.sheetBase + Touch.startedFor + Touch.mgmt +
    Touch.inbox + Touch.dynAddr + Touch.eid + Touch.tid + Touch.bscan)) s (execLatchedHighWrite r
    addr v s):= by
  unfold execLatchedHighWrite
  repeat'
    first
      | with_reducible apply Answers.next
      | with_reducible exact Touches.refl _ _
      | decide
      | split
      | with_reducible apply Touches.after (State.emit_touches ..)
      | with_reducible apply Touches.after (State.write32_touches ..)

theorem execLatchedLowWrite_touches (r : Requester) (addr : BitVec 40) (v : BitVec 32) (s : State) :
    Answers (Touch.all - (Touch.vt + Touch.vtFrac + Touch.rateTemp + Touch.rateServo + Touch.pending
    + Touch.rlatch + Touch.logRead + Touch.logRing + Touch.invAcks + Touch.pageBell +
    Touch.sheetBell + Touch.sheetGot + Touch.qpRate + Touch.cnpAt + Touch.conf + Touch.xings +
    Touch.vc + Touch.combCal + Touch.calRej + Touch.calLast + Touch.sensOut + Touch.classes +
    Touch.bondHalf + Touch.lms + Touch.meas + Touch.debugUsed + Touch.heat + Touch.pairAt +
    Touch.pairOff + Touch.pairLost + Touch.fast + Touch.jumpAt + Touch.tripped + Touch.trips +
    Touch.hbmSlow + Touch.fixed + Touch.firmware + Touch.sheetBase + Touch.startedFor + Touch.mgmt +
    Touch.inbox + Touch.dynAddr + Touch.eid + Touch.tid + Touch.bscan)) s (execLatchedLowWrite r
    addr v s):= by
  unfold execLatchedLowWrite
  repeat'
    first
      | with_reducible apply Answers.next
      | with_reducible exact Touches.refl _ _
      | decide
      | split
      | with_reducible apply Touches.after (State.emit_touches ..)
      | with_reducible apply Touches.after (State.write32_touches ..)

theorem execUnmappedAccess_touches (r : Requester) (addr : BitVec 40) (write : Bool) (s : State) :
    Answers (Touch.out ||| Touch.regs) s (execUnmappedAccess r addr write s) := by
  unfold execUnmappedAccess
  repeat'
    first
      | with_reducible apply Answers.next
      | with_reducible exact Touches.refl _ _
      | decide
      | split
      | with_reducible apply Touches.after (State.emit_touches ..)
      | with_reducible apply Touches.after (State.unmapped_touches ..)

end Sys2Proof.Machine
end

