-- ==== Sys2Proof/Laws/HostIo.lean ====
section
/-!
SUPPORT. What the operations of Machine/HostIo.lean may touch.
-/

namespace Sys2Proof.Machine

theorem State.hostOwnWrite_touches (s : State) (h : Nat) (g : Nat) (mets : Meets) (bytes : List Byte) :
    Touches (Touch.out ||| Touch.regs ||| Touch.mem ||| Touch.log ||| Touch.logBase ||| Touch.bells |||
      Touch.node ||| Touch.reports) s (State.hostOwnWrite s h g mets bytes) := by
  unfold State.hostOwnWrite
  repeat'
    first
      | with_reducible exact Touches.refl _ _
      | with_reducible assumption
      | decide
      | split
      | with_reducible apply Touches.after (State.fillRefused_touches ..)
      | with_reducible refine Touches.of_fst ‹State.portWrite _ _ _ _ _ _ _ = _› (Touches.after (State.portWrite_touches ..) ?_ ?_)
      | with_reducible apply Touches.after (State.portWrite_touches ..)

theorem State.hostBack_touches (s : State) (h : Nat) (b : Nat) (mets : Meets) (bytes : List Byte) :
    Touches (Touch.out ||| Touch.regs ||| Touch.mem ||| Touch.wear ||| Touch.log ||| Touch.logBase |||
      Touch.cores ||| Touch.bells ||| Touch.node ||| Touch.tithes ||| Touch.gws ||| Touch.tracePos |||
      Touch.stackMem ||| Touch.bridgeMem ||| Touch.invPend ||| Touch.nextId ||| Touch.jobs |||
      Touch.xfers ||| Touch.runs ||| Touch.seqs ||| Touch.rings ||| Touch.egress ||| Touch.sas |||
      Touch.led ||| Touch.retireQ ||| Touch.mapLag ||| Touch.reports ||| Touch.heldOut |||
      Touch.hostLines ||| Touch.hostResv) s (State.hostBack s h b mets bytes) := by
  unfold State.hostBack
  repeat'
    first
      | with_reducible exact Touches.refl _ _
      | with_reducible assumption
      | decide
      | (extract_lets +onlyGivenNames x; with_reducible refine Touches.cut (t := x) ?_ ?_; subst x; rotate_left; clear_value x; revert x; intro _ _; rotate_right)
      | (extract_lets +onlyGivenNames x; clear_value x; revert x; intro _)
      | split
      | with_reducible refine Touches.of_fst ‹State.beginXfer _ _ _ = _› (Touches.after (State.beginXfer_touches ..) ?_ ?_)
      | with_reducible apply Touches.after (State.beginXfer_touches ..)
      | with_reducible apply Touches.after (State.hostOwnWrite_touches ..)
      | with_reducible apply Touches.after (State.hostRefuse_touches ..)
      | with_reducible apply Touches.after (State.hostWrite_touches ..)

theorem State.hostLineOp_touches (s : State) (h : Nat) (b : Nat) (what : HostWrite) (mets : Meets) :
    Touches (Touch.out ||| Touch.regs ||| Touch.mem ||| Touch.wear ||| Touch.log ||| Touch.logBase |||
      Touch.cores ||| Touch.bells ||| Touch.node ||| Touch.tithes ||| Touch.gws ||| Touch.tracePos |||
      Touch.stackMem ||| Touch.bridgeMem ||| Touch.invPend ||| Touch.nextId ||| Touch.jobs |||
      Touch.xfers ||| Touch.runs ||| Touch.seqs ||| Touch.rings ||| Touch.egress ||| Touch.sas |||
      Touch.led ||| Touch.retireQ ||| Touch.mapLag ||| Touch.reports ||| Touch.heldOut |||
      Touch.hostLines ||| Touch.hostResv ||| Touch.imsic) s (State.hostLineOp s h b what mets) := by
  unfold State.hostLineOp
  repeat'
    first
      | with_reducible exact Touches.refl _ _
      | with_reducible assumption
      | decide
      | (extract_lets +onlyGivenNames x; with_reducible refine Touches.cut (t := x) ?_ ?_; subst x; rotate_left; clear_value x; revert x; intro _ _; rotate_right)
      | (extract_lets +onlyGivenNames x; clear_value x; revert x; intro _)
      | split
      | with_reducible apply Touches.after (State.dropLine_touches ..)
      | with_reducible apply Touches.after (State.flush_touches ..)
      | with_reducible apply Touches.after (State.hostBack_touches ..)
      | with_reducible apply Touches.after (State.putLine_touches ..)
      | with_reducible apply Touches.after (State.storeLines_touches ..)

theorem execHostLoad_touches (h : Host64) (pa : BitVec 56) (size : Fin 4) (parity : HostParity)
    (flaws : Flaws) (s : State) :
    Answers (Touch.out ||| Touch.regs ||| Touch.rlatch ||| Touch.mem ||| Touch.wear ||| Touch.log |||
      Touch.logBase ||| Touch.cores ||| Touch.bells ||| Touch.node ||| Touch.tithes ||| Touch.gws |||
      Touch.tracePos ||| Touch.stackMem ||| Touch.bridgeMem ||| Touch.invPend ||| Touch.nextId |||
      Touch.jobs ||| Touch.xfers ||| Touch.runs ||| Touch.seqs ||| Touch.rings ||| Touch.egress |||
      Touch.sas ||| Touch.led ||| Touch.retireQ ||| Touch.mapLag ||| Touch.reports ||| Touch.heldOut
      ||| Touch.hostLines ||| Touch.hostResv) s (execHostLoad h pa size parity flaws s) := by
  unfold execHostLoad
  repeat'
    first
      | with_reducible apply Answers.next
      | with_reducible exact Touches.refl _ _
      | with_reducible assumption
      | decide
      | (extract_lets +onlyGivenNames x; with_reducible refine Answers.cut (t := x) ?_ ?_; subst x; rotate_left; clear_value x; revert x; intro _ _; rotate_right)
      | (extract_lets +onlyGivenNames x; clear_value x; revert x; intro _)
      | split
      | with_reducible refine Touches.of_fst ‹State.beginXfer _ _ _ = _› (Touches.after (State.beginXfer_touches ..) ?_ ?_)
      | with_reducible apply Touches.after (State.beginXfer_touches ..)
      | with_reducible refine Touches.of_fst ‹State.ctrlRead _ _ _ _ = _› (Touches.after (State.ctrlRead_touches ..) ?_ ?_)
      | with_reducible apply Touches.after (State.ctrlRead_touches ..)
      | with_reducible apply Touches.after (State.emit_touches ..)
      | with_reducible apply Touches.after (State.hostClean_touches ..)
      | with_reducible apply Touches.after (State.hostFetch_touches ..)
      | with_reducible apply Touches.after (State.hostLedger_touches ..)
      | with_reducible apply Touches.after (State.hostLineAccess_touches ..)
      | with_reducible apply Touches.after (State.hostParity_touches ..)
      | with_reducible apply Touches.after (State.hostRefetch_touches ..)
      | with_reducible apply Touches.after (State.hostRefuse_touches ..)
      | with_reducible refine Touches.of_fst ‹State.readCheck _ _ _ _ _ _ _ = _› (Touches.after (State.readCheck_touches ..) ?_ ?_)
      | with_reducible apply Touches.after (State.readCheck_touches ..)
      | with_reducible refine Touches.foldl ?_ fun _ _ => ?_

theorem execHostStore_touches (h : Host64) (pa : BitVec 56) (bytes : List Byte) (what : HostWrite)
    (how : HostStoreHow) (s : State) :
    Answers (Touch.all - (Touch.vt + Touch.vtFrac + Touch.rateTemp + Touch.rateServo + Touch.pending +
      Touch.rlatch + Touch.logRead + Touch.logRing + Touch.invAcks + Touch.pageBell + Touch.sheetBell
      + Touch.sheetGot + Touch.qpRate + Touch.cnpAt + Touch.conf + Touch.xings + Touch.vc +
      Touch.combCal + Touch.calRej + Touch.calLast + Touch.sensOut + Touch.classes + Touch.bondHalf +
      Touch.lms + Touch.meas + Touch.debugUsed + Touch.heat + Touch.pairAt + Touch.pairOff +
      Touch.pairLost + Touch.fast + Touch.jumpAt + Touch.tripped + Touch.trips + Touch.hbmSlow +
      Touch.fixed + Touch.firmware + Touch.sheetBase + Touch.startedFor + Touch.mgmt + Touch.inbox +
      Touch.dynAddr + Touch.eid + Touch.tid + Touch.bscan)) s (execHostStore h pa bytes what how s) :=
      by
  unfold execHostStore
  repeat'
    first
      | with_reducible apply Answers.next
      | with_reducible exact Touches.refl _ _
      | with_reducible assumption
      | decide
      | (extract_lets +onlyGivenNames x; with_reducible refine Answers.cut (t := x) ?_ ?_; subst x; rotate_left; clear_value x; revert x; intro _ _; rotate_right)
      | (extract_lets +onlyGivenNames x; clear_value x; revert x; intro _)
      | split
      | with_reducible refine Touches.of_fst ‹State.beginXfer _ _ _ = _› (Touches.after (State.beginXfer_touches ..) ?_ ?_)
      | with_reducible apply Touches.after (State.beginXfer_touches ..)
      | with_reducible apply Touches.after (State.ctrlWrite_touches ..)
      | with_reducible apply Touches.after (State.emit_touches ..)
      | with_reducible apply Touches.after (State.hostClean_touches ..)
      | with_reducible apply Touches.after (State.hostLedger_touches ..)
      | with_reducible apply Touches.after (State.hostLineAccess_touches ..)
      | with_reducible apply Touches.after (State.hostLineOp_touches ..)
      | with_reducible apply Touches.after (State.hostOwnWrite_touches ..)
      | with_reducible apply Touches.after (State.hostParity_touches ..)
      | with_reducible apply Touches.after (State.hostRefetch_touches ..)
      | with_reducible apply Touches.after (State.hostRefuse_touches ..)
      | with_reducible apply Touches.after (State.hostWrite_touches ..)
      | with_reducible apply Touches.after (State.store_touches ..)
      | with_reducible refine Touches.foldl ?_ fun _ _ => ?_

end Sys2Proof.Machine
end

