-- ==== Sys2Proof/Laws/KernelRun.lean ====
section
/-! SUPPORT. What the rows of the vector unit can change. -/

namespace Sys2Proof.Machine

open Sys2Proof

theorem State.kernelStores_touches (s : State) (k : Nat) (c : Nat) (mets : Meets) (st : List (Nat × List Byte)) :
    Touches (Touch.out ||| Touch.regs ||| Touch.mem ||| Touch.log ||| Touch.logBase ||| Touch.bells |||
      Touch.node ||| Touch.reports) s (State.kernelStores s k c mets st) := by
  unfold State.kernelStores
  repeat'
    first
      | with_reducible exact Touches.refl _ _
      | with_reducible assumption
      | decide
      | split
      | with_reducible refine Touches.of_fst ‹State.portWrite _ _ _ _ _ _ _ = _› (Touches.after (State.portWrite_touches ..) ?_ ?_)
      | with_reducible apply Touches.after (State.portWrite_touches ..)
      | with_reducible refine Touches.foldl ?_ fun _ _ => ?_

theorem State.orFlags_touches (s : State) (k : Nat) (c : Nat) (fl : BitVec 5) :
    Touches (Touch.regs) s (State.orFlags s k c fl) := by
  unfold State.orFlags
  repeat'
    first
      | with_reducible exact Touches.refl _ _
      | with_reducible assumption
      | decide
      | split
      | with_reducible apply Touches.after (State.setReg_touches ..)

theorem State.kernelEnd_touches (s : State) (k : Nat) (c : Nat) (f : Flight) (m : Vm) (flaws : Flaws) (mets : Meets) :
    Touches (Touch.out ||| Touch.regs ||| Touch.mem ||| Touch.wear ||| Touch.log ||| Touch.logBase |||
      Touch.cores ||| Touch.bells ||| Touch.node ||| Touch.tithes ||| Touch.gws ||| Touch.tracePos |||
      Touch.stackMem ||| Touch.bridgeMem ||| Touch.retireQ ||| Touch.mapLag ||| Touch.reports) s
      (State.kernelEnd s k c f m flaws mets) := by
  unfold State.kernelEnd
  repeat'
    first
      | with_reducible exact Touches.refl _ _
      | with_reducible assumption
      | decide
      | (extract_lets +onlyGivenNames x; with_reducible refine Touches.cut (t := x) ?_ ?_; subst x; rotate_left; clear_value x; revert x; intro _ _; rotate_right)
      | (extract_lets +onlyGivenNames x; clear_value x; revert x; intro _)
      | split
      | with_reducible apply Touches.after (State.finish_touches ..)
      | with_reducible apply Touches.after (State.kernelStores_touches ..)
      | with_reducible apply Touches.after (State.orFlags_touches ..)
      | with_reducible apply Touches.after (State.setCore_touches ..)
      | with_reducible refine Touches.of_fst ‹State.sourceCheck _ _ _ _ _ = _› (Touches.after (State.sourceCheck_touches ..) ?_ ?_)
      | with_reducible apply Touches.after (State.sourceCheck_touches ..)

theorem State.kernelFault_touches (s : State) (k : Nat) (c : Nat) (pc : Nat) :
    Touches (Touch.out ||| Touch.regs ||| Touch.log ||| Touch.logBase ||| Touch.bells ||| Touch.node |||
      Touch.reports) s (State.kernelFault s k c pc) := by
  unfold State.kernelFault
  repeat'
    first
      | with_reducible exact Touches.refl _ _
      | with_reducible assumption
      | decide
      | split
      | with_reducible apply Touches.after (State.raise_touches ..)

theorem execVec_touches (k : Stack) (c : Core) (fetched : Fetch) (s : State) :
    Answers (Touch.out ||| Touch.regs ||| Touch.mem ||| Touch.wear ||| Touch.log ||| Touch.logBase |||
      Touch.cores ||| Touch.bells ||| Touch.node ||| Touch.tithes ||| Touch.gws ||| Touch.tracePos |||
      Touch.retireQ ||| Touch.mapLag ||| Touch.reports) s (execVec k c fetched s) := by
  unfold execVec
  repeat'
    first
      | with_reducible apply Answers.next
      | with_reducible exact Touches.refl _ _
      | with_reducible assumption
      | decide
      | (extract_lets +onlyGivenNames x; with_reducible refine Answers.cut (t := x) ?_ ?_; subst x; rotate_left; clear_value x; revert x; intro _ _; rotate_right)
      | (extract_lets +onlyGivenNames x; clear_value x; revert x; intro _)
      | split
      | with_reducible apply Touches.after (State.fetchParity_touches ..)
      | with_reducible apply Touches.after (State.issue_touches ..)
      | with_reducible apply Touches.after (State.setCore_touches ..)
      | with_reducible apply Touches.after (State.useParity_touches ..)
theorem execVecKernelReturn_touches (k : Stack) (c : Core) (flaws : Flaws) (mets : Meets) (s : State) :
    Answers (Touch.out ||| Touch.regs ||| Touch.mem ||| Touch.wear ||| Touch.log ||| Touch.logBase |||
      Touch.cores ||| Touch.bells ||| Touch.node ||| Touch.tithes ||| Touch.gws ||| Touch.tracePos |||
      Touch.stackMem ||| Touch.bridgeMem ||| Touch.retireQ ||| Touch.mapLag ||| Touch.reports) s
      (execVecKernelReturn k c flaws mets s) := by
  unfold execVecKernelReturn
  repeat'
    first
      | with_reducible apply Answers.next
      | with_reducible exact Touches.refl _ _
      | with_reducible assumption
      | decide
      | split
      | with_reducible apply Touches.after (State.kernelEnd_touches ..)

theorem execVecKernelFault_touches (k : Stack) (c : Core) (parity : Option Nat) (flaws : Flaws)
    (mets : Meets) (s : State) :
    Answers (Touch.out ||| Touch.regs ||| Touch.mem ||| Touch.wear ||| Touch.log ||| Touch.logBase |||
      Touch.cores ||| Touch.bells ||| Touch.node ||| Touch.tithes ||| Touch.gws ||| Touch.tracePos |||
      Touch.stackMem ||| Touch.bridgeMem ||| Touch.retireQ ||| Touch.mapLag ||| Touch.reports) s
      (execVecKernelFault k c parity flaws mets s) := by
  unfold execVecKernelFault
  repeat'
    first
      | with_reducible apply Answers.next
      | with_reducible exact Touches.refl _ _
      | with_reducible assumption
      | decide
      | split
      | with_reducible apply Touches.after (State.coreFault_touches ..)
      | with_reducible apply Touches.after (State.kernelEnd_touches ..)
      | with_reducible apply Touches.after (State.kernelFault_touches ..)

theorem execInstructionLimit_touches (k : Stack) (c : Core) (flaws : Flaws) (mets : Meets) (s : State) :
    Answers (Touch.out ||| Touch.regs ||| Touch.mem ||| Touch.wear ||| Touch.log ||| Touch.logBase |||
      Touch.cores ||| Touch.bells ||| Touch.node ||| Touch.tithes ||| Touch.gws ||| Touch.tracePos |||
      Touch.stackMem ||| Touch.bridgeMem ||| Touch.retireQ ||| Touch.mapLag ||| Touch.reports) s
      (execInstructionLimit k c flaws mets s) := by
  unfold execInstructionLimit
  repeat'
    first
      | with_reducible apply Answers.next
      | with_reducible exact Touches.refl _ _
      | with_reducible assumption
      | decide
      | split
      | with_reducible apply Touches.after (State.kernelEnd_touches ..)
      | with_reducible apply Touches.after (State.kernelFault_touches ..)

end Sys2Proof.Machine
end

