-- ==== Sys2Proof/Laws/Management.lean ====
section
/-!
SUPPORT. What the operations of Machine/Management.lean may touch.
-/

namespace Sys2Proof.Machine

theorem execEventRingWrite_touches (s : State) :
    Answers (Touch.out ||| Touch.regs ||| Touch.mem ||| Touch.log ||| Touch.logBase |||
    Touch.logRing ||| Touch.cores ||| Touch.bells ||| Touch.node ||| Touch.stackMem |||
    Touch.bridgeMem ||| Touch.invPend ||| Touch.nextId ||| Touch.rings ||| Touch.reports |||
    Touch.imsic) s
    (execEventRingWrite s):= by
  unfold execEventRingWrite
  repeat'
    first
      | with_reducible apply Answers.next
      | with_reducible exact Touches.refl _ _
      | with_reducible assumption
      | decide
      | (extract_lets +onlyGivenNames nx; with_reducible refine Answers.cut (t := nx) ?_ ?_; subst nx; rotate_left; revert nx; intro _ _; rotate_right)
      | (extract_lets +onlyGivenNames nx; subst nx)
      | split
      | with_reducible refine State.produceOr_touches ?_ ?_ ?_
      | with_reducible apply Touches.after (State.bump_touches ..)
      | with_reducible apply Touches.set_logRing

theorem State.setSession_touches (s : State) (q : Requester) (x : MgmtSt) :
    Touches (Touch.mgmt) s (State.setSession s q x) := by
  unfold State.setSession
  repeat'
    first
      | with_reducible exact Touches.refl _ _
      | decide
      | with_reducible apply Touches.set_mgmt

theorem State.openSession_touches (s : State) (q : Requester) :
    Touches (Touch.free ||| Touch.mgmt) s (State.openSession s q).1 := by
  unfold State.openSession
  repeat'
    first
      | with_reducible exact Touches.refl _ _
      | decide
      | (extract_lets +onlyGivenNames nx; subst nx)
      | split
      | with_reducible refine Touches.of_snd ‹State.takeFree _ = _› (Touches.after (State.takeFree_touches ..) ?_ ?_)
      | with_reducible apply Touches.after (State.setSession_touches ..)

theorem State.proveSession_touches (s : State) (q : Requester) (sig : List Byte) :
    Touches (Touch.mgmt) s (State.proveSession s q sig).1 := by
  unfold State.proveSession
  repeat'
    first
      | with_reducible exact Touches.refl _ _
      | with_reducible assumption
      | decide
      | (extract_lets +onlyGivenNames nx; with_reducible refine Touches.cut (t := nx) ?_ ?_; subst nx; rotate_left; revert nx; intro _ _; rotate_right)
      | (extract_lets +onlyGivenNames nx; subst nx)
      | split
      | with_reducible apply Touches.after (State.setSession_touches ..)

theorem State.signNow_touches {s : State} {bs : List Byte} {q : List Byte} {t : State} (h : s.signNow bs = some (q, t)) :
    Touches (Touch.lms) s t := by
  unfold State.signNow at h
  split at h
  · next r hr => cases h; exact (State.sign_touches hr).mono (by decide)
  · exact (State.sign_touches h).after (outState_touches (execLowerTreeGenerated_touches _)) (by decide)

theorem State.attestReport_touches (s : State) (q : Requester) (ctx : Nat) (nonce : Nat) (chunk : Nat) :
    Touches (Touch.lms ||| Touch.mgmt) s (State.attestReport s q ctx nonce chunk).1 := by
  unfold State.attestReport
  repeat'
    first
      | with_reducible exact Touches.refl _ _
      | decide
      | (extract_lets +onlyGivenNames nx; subst nx)
      | split
      | with_reducible refine Touches.after (State.signNow_touches ‹State.signNow _ _ = some _›) ?_ ?_
      | with_reducible apply Touches.after (State.setSession_touches ..)

theorem State.coreLedger_touches (s : State) (q : Requester) (kind : Nat) (len : Nat) (t : CoreRef)
    : Touches (Touch.regs ||| Touch.mem ||| Touch.stackMem ||| Touch.bridgeMem ||| Touch.led) s
    (State.coreLedger s q kind len t):= by
  unfold State.coreLedger
  repeat'
    first
      | with_reducible exact Touches.refl _ _
      | decide
      | (extract_lets +onlyGivenNames nx; subst nx)
      | split
      | with_reducible apply Touches.after (State.ledgerAdd_touches ..)

theorem State.setHalt_touches (s : State) (t : CoreRef) (b : Bool) :
    Touches (Touch.regs ||| Touch.cores) s (State.setHalt s t b) := by
  unfold State.setHalt
  repeat'
    first
      | with_reducible exact Touches.refl _ _
      | decide
      | (extract_lets +onlyGivenNames nx; subst nx)
      | split
      | with_reducible apply Touches.after (State.syncSeq_touches ..)
      | with_reducible apply Touches.after (State.setCore_touches ..)
      | with_reducible apply Touches.after (State.setF_touches ..)

theorem State.halt_touches (s : State) (q : Requester) (t : CoreRef) : Touches (Touch.regs |||
    Touch.mem ||| Touch.cores ||| Touch.stackMem ||| Touch.bridgeMem ||| Touch.led) s (State.halt s
    q t).1:= by
  unfold State.halt
  repeat'
    first
      | with_reducible exact Touches.refl _ _
      | decide
      | split
      | with_reducible apply Touches.after (State.setHalt_touches ..)
      | with_reducible apply Touches.after (State.coreLedger_touches ..)

theorem State.resumeCore_touches (s : State) (q : Requester) (t : CoreRef) : Touches (Touch.regs |||
    Touch.mem ||| Touch.cores ||| Touch.stackMem ||| Touch.bridgeMem ||| Touch.led) s
    (State.resumeCore s q t).1:= by
  unfold State.resumeCore
  repeat'
    first
      | with_reducible exact Touches.refl _ _
      | decide
      | split
      | with_reducible apply Touches.after (State.setHalt_touches ..)
      | with_reducible apply Touches.after (State.coreLedger_touches ..)

theorem State.regLedger_touches (s : State) (q : Requester) (kind : Nat) (a : Nat) (n : Nat) :
    Touches (Touch.regs ||| Touch.mem ||| Touch.stackMem ||| Touch.bridgeMem ||| Touch.led) s
    (State.regLedger s q kind a n):= by
  unfold State.regLedger
  repeat'
    first
      | with_reducible exact Touches.refl _ _
      | decide
      | split
      | with_reducible apply Touches.after (State.coreLedger_touches ..)
      | with_reducible refine Touches.foldl ?_ fun _ _ => ?_

theorem State.readWords_touches (s : State) (q : Requester) (a : Nat) (n : Nat) :
    Touches (Touch.regs ||| Touch.rlatch) s (State.readWords s q a n).1 := by
  unfold State.readWords
  repeat'
    first
      | with_reducible exact Touches.refl _ _
      | decide
      | split
      | with_reducible refine Touches.of_fst ‹State.ctrlRead _ _ _ _ = _› (Touches.after (State.ctrlRead_touches ..) ?_ ?_)
      | with_reducible refine Touches.foldl_fst ?_ fun _ _ => ?_

theorem State.writeWords_touches (s : State) (q : Requester) (a : Nat) (ws : List (BitVec 32)) :
    Touches (Touch.all - (Touch.vt + Touch.vtFrac + Touch.rateTemp + Touch.rateServo + Touch.pending
    + Touch.rlatch + Touch.logRead + Touch.logRing + Touch.invAcks + Touch.pageBell +
    Touch.sheetBell + Touch.sheetGot + Touch.qpRate + Touch.cnpAt + Touch.conf + Touch.xings +
    Touch.vc + Touch.combCal + Touch.calRej + Touch.calLast + Touch.sensOut + Touch.classes +
    Touch.bondHalf + Touch.lms + Touch.meas + Touch.debugUsed + Touch.heat + Touch.pairAt +
    Touch.pairOff + Touch.pairLost + Touch.fast + Touch.jumpAt + Touch.tripped + Touch.trips +
    Touch.hbmSlow + Touch.fixed + Touch.firmware + Touch.sheetBase + Touch.startedFor + Touch.mgmt +
    Touch.inbox + Touch.dynAddr + Touch.eid + Touch.tid + Touch.bscan)) s (State.writeWords s q a
    ws):= by
  unfold State.writeWords
  repeat'
    first
      | with_reducible exact Touches.refl _ _
      | decide
      | with_reducible apply Touches.after (State.ctrlWrite_touches ..)
      | with_reducible refine Touches.foldl ?_ fun _ _ => ?_

theorem State.mcFails_touches (s : State) (id : Nat) (o : Nat) (status : Nat) : Touches (Touch.out
    ||| Touch.regs ||| Touch.mem ||| Touch.wear ||| Touch.log ||| Touch.logBase ||| Touch.cores |||
    Touch.bells ||| Touch.node ||| Touch.tithes ||| Touch.gws ||| Touch.tracePos ||| Touch.stackMem
    ||| Touch.bridgeMem ||| Touch.invPend ||| Touch.nextId ||| Touch.jobs ||| Touch.xfers |||
    Touch.runs ||| Touch.seqs ||| Touch.rings ||| Touch.egress ||| Touch.sas ||| Touch.led |||
    Touch.retireQ ||| Touch.mapLag ||| Touch.reports ||| Touch.heldOut ||| Touch.hostLines |||
    Touch.hostResv) s (State.mcFails s id o status):= by
  unfold State.mcFails
  repeat'
    first
      | with_reducible exact Touches.refl _ _
      | decide
      | with_reducible apply Touches.after (State.xferPart_touches ..)
      | with_reducible apply Touches.after (State.raiseStatus_touches ..)

theorem State.mcRead_touches (s : State) (b : Nat) (id : Nat) (o : Nat) (flaws : Flaws) : Touches
    (Touch.out ||| Touch.regs ||| Touch.mem ||| Touch.wear ||| Touch.log ||| Touch.logBase |||
    Touch.cores ||| Touch.bells ||| Touch.node ||| Touch.tithes ||| Touch.gws ||| Touch.tracePos |||
    Touch.stackMem ||| Touch.bridgeMem ||| Touch.invPend ||| Touch.nextId ||| Touch.jobs |||
    Touch.xfers ||| Touch.runs ||| Touch.seqs ||| Touch.rings ||| Touch.egress ||| Touch.sas |||
    Touch.led ||| Touch.retireQ ||| Touch.mapLag ||| Touch.reports ||| Touch.heldOut |||
    Touch.hostLines ||| Touch.hostResv) s (State.mcRead s b id o flaws):= by
  unfold State.mcRead
  repeat'
    first
      | with_reducible exact Touches.refl _ _
      | decide
      | split
      | with_reducible apply Touches.after (State.mcFails_touches ..)
      | with_reducible refine Touches.of_fst ‹State.readCheck _ _ _ _ _ _ _ = _› (Touches.after (State.readCheck_touches ..) ?_ ?_)
      | with_reducible apply Touches.after (State.xferPart_touches ..)
      | with_reducible apply Touches.after (State.titheSend_touches ..)

theorem State.mcWrite_touches (s : State) (b : Nat) (id : Nat) (o : Nat) (g : Nat) (bytes : List
    Byte) : Touches (Touch.out ||| Touch.regs ||| Touch.mem ||| Touch.wear ||| Touch.log |||
    Touch.logBase ||| Touch.cores ||| Touch.bells ||| Touch.node ||| Touch.tithes ||| Touch.gws |||
    Touch.tracePos ||| Touch.stackMem ||| Touch.bridgeMem ||| Touch.invPend ||| Touch.nextId |||
    Touch.jobs ||| Touch.xfers ||| Touch.runs ||| Touch.seqs ||| Touch.rings ||| Touch.egress |||
    Touch.sas ||| Touch.led ||| Touch.retireQ ||| Touch.mapLag ||| Touch.reports ||| Touch.heldOut
    ||| Touch.hostLines ||| Touch.hostResv) s (State.mcWrite s b id o g bytes):= by
  unfold State.mcWrite
  repeat'
    first
      | with_reducible exact Touches.refl _ _
      | decide
      | (extract_lets +onlyGivenNames nx; subst nx)
      | split
      | with_reducible apply Touches.after (State.mcFails_touches ..)
      | with_reducible apply Touches.after (State.xferPart_touches ..)
      | with_reducible apply Touches.after (State.titheSend_touches ..)
      | with_reducible apply Touches.after (State.storeRun_touches ..)
theorem State.memRead_touches (s : State) (q : Requester) (rep : Nat) (seq : Nat) (g : Nat) (n :
    Nat) (flaws : Flaws) : Touches (Touch.out ||| Touch.regs ||| Touch.mem ||| Touch.wear |||
    Touch.log ||| Touch.logBase ||| Touch.cores ||| Touch.bells ||| Touch.node ||| Touch.tithes |||
    Touch.gws ||| Touch.tracePos ||| Touch.stackMem ||| Touch.bridgeMem ||| Touch.invPend |||
    Touch.nextId ||| Touch.jobs ||| Touch.xfers ||| Touch.runs ||| Touch.seqs ||| Touch.rings |||
    Touch.egress ||| Touch.sas ||| Touch.led ||| Touch.retireQ ||| Touch.mapLag ||| Touch.reports
    ||| Touch.heldOut ||| Touch.hostLines ||| Touch.hostResv) s (State.memRead s q rep seq g n
    flaws):= by
  unfold State.memRead
  repeat'
    first
      | with_reducible exact Touches.refl _ _
      | with_reducible assumption
      | decide
      | (extract_lets +onlyGivenNames nx; with_reducible refine Touches.cut (t := nx) ?_ ?_; subst nx; rotate_left; revert nx; intro _ _; rotate_right)
      | (extract_lets +onlyGivenNames nx; subst nx)
      | split
      | with_reducible apply Touches.after (State.ledgerTouch_touches ..)
      | with_reducible refine Touches.of_fst ‹State.beginXfer _ _ _ = _› (Touches.after (State.beginXfer_touches ..) ?_ ?_)
      | with_reducible apply Touches.after (State.mcRead_touches ..)
      | with_reducible refine Touches.foldl ?_ fun _ _ => ?_

theorem State.memWrite_touches (s : State) (q : Requester) (rep : Nat) (seq : Nat) (g : Nat) (bytes
    : List Byte) : Touches (Touch.out ||| Touch.regs ||| Touch.mem ||| Touch.wear ||| Touch.log |||
    Touch.logBase ||| Touch.cores ||| Touch.bells ||| Touch.node ||| Touch.tithes ||| Touch.gws |||
    Touch.tracePos ||| Touch.stackMem ||| Touch.bridgeMem ||| Touch.invPend ||| Touch.nextId |||
    Touch.jobs ||| Touch.xfers ||| Touch.runs ||| Touch.seqs ||| Touch.rings ||| Touch.egress |||
    Touch.sas ||| Touch.led ||| Touch.retireQ ||| Touch.mapLag ||| Touch.reports ||| Touch.heldOut
    ||| Touch.hostLines ||| Touch.hostResv) s (State.memWrite s q rep seq g bytes):= by
  unfold State.memWrite
  repeat'
    first
      | with_reducible exact Touches.refl _ _
      | with_reducible assumption
      | decide
      | (extract_lets +onlyGivenNames nx; with_reducible refine Touches.cut (t := nx) ?_ ?_; subst nx; rotate_left; revert nx; intro _ _; rotate_right)
      | (extract_lets +onlyGivenNames nx; subst nx)
      | split
      | with_reducible apply Touches.after (State.ledgerTouch_touches ..)
      | with_reducible refine Touches.of_fst ‹State.beginXfer _ _ _ = _› (Touches.after (State.beginXfer_touches ..) ?_ ?_)
      | with_reducible apply Touches.after (State.mcWrite_touches ..)
      | with_reducible refine Touches.foldl ?_ fun _ _ => ?_

theorem State.nextEvent_touches (s : State) :
    Touches (Touch.logRead) s (State.nextEvent s).1 := by
  unfold State.nextEvent
  repeat'
    first
      | with_reducible exact Touches.refl _ _
      | decide
      | (extract_lets +onlyGivenNames nx; subst nx)
      | split
      | dsimp only
      | with_reducible apply Touches.set_logRead

theorem State.serve_touches (s : State) (q : Requester) (rep : Nat) (seq : Nat) (cmd : Ohmune) :
    Touches (Touch.all - (Touch.pending + Touch.bondHalf + Touch.fixed)) s (State.serve s q rep seq cmd) := by
  unfold State.serve
  repeat'
    first
      | with_reducible exact Touches.refl _ _
      | decide
      | (extract_lets +onlyGivenNames nx; have : True := (fun (_ : _ → _ → _ → State) => trivial) nx; subst nx; clear this)
      | (extract_lets +onlyGivenNames nx; subst nx)
      | split
      | with_reducible apply Touches.after (State.operatorOut_touches ..)
      | with_reducible refine Touches.of_fst ‹State.attestReport _ _ _ _ _ = _› (Touches.after (State.attestReport_touches ..) ?_ ?_)
      | with_reducible apply Touches.after (State.wake_touches ..)
      | with_reducible refine Touches.of_fst ‹State.openSession _ _ = _› (Touches.after (State.openSession_touches ..) ?_ ?_)
      | with_reducible refine Touches.of_fst ‹State.proveSession _ _ _ = _› (Touches.after (State.proveSession_touches ..) ?_ ?_)
      | with_reducible refine Touches.of_fst ‹State.readWords _ _ _ _ = _› (Touches.after (State.readWords_touches ..) ?_ ?_)
      | with_reducible apply Touches.after (State.regLedger_touches ..)
      | with_reducible apply Touches.after (State.writeWords_touches ..)
      | with_reducible refine Touches.of_fst ‹State.nextEvent _ = _› (Touches.after (State.nextEvent_touches ..) ?_ ?_)
      | with_reducible refine Touches.of_fst ‹State.halt _ _ _ = _› (Touches.after (State.halt_touches ..) ?_ ?_)
      | with_reducible refine Touches.of_fst ‹State.resumeCore _ _ _ = _› (Touches.after (State.resumeCore_touches ..) ?_ ?_)
      | with_reducible apply Touches.after (State.memRead_touches ..)
      | with_reducible apply Touches.after (State.memWrite_touches ..)
      | with_reducible apply Touches.after (State.coldStart_touches ..)
      | with_reducible apply Touches.after (State.powerOff_touches ..)

theorem State.serveInbox_touches (s : State) :
    Touches (Touch.all - (Touch.pending + Touch.bondHalf + Touch.fixed)) s (State.serveInbox s) := by
  unfold State.serveInbox
  repeat'
    first
      | with_reducible exact Touches.refl _ _
      | decide
      | with_reducible apply Touches.after (State.serve_touches ..)
      | with_reducible refine Touches.foldl ?_ fun _ _ => ?_
      | with_reducible apply Touches.set_inbox

theorem State.ask_touches (s : State) (via : Via) (seq : BitVec 8) (cmd : Ohmune) :
    Touches (Touch.all - (Touch.pending + Touch.bondHalf + Touch.fixed)) s (State.ask s via seq cmd) := by
  unfold State.ask
  repeat'
    first
      | with_reducible exact Touches.refl _ _
      | decide
      | split
      | with_reducible apply Touches.after (State.serve_touches ..)
      | with_reducible apply Touches.after (State.serveInbox_touches ..)
      | with_reducible apply Touches.after (State.arrive_touches ..)

theorem execTitheAdmit_touches (site : Site) (cls : Fin 9) (s : State) :
    Answers (Touch.all - (Touch.pending + Touch.bondHalf + Touch.fixed)) s (execTitheAdmit site cls s) := by
  unfold execTitheAdmit
  repeat'
    first
      | with_reducible apply Answers.next
      | with_reducible exact Touches.refl _ _
      | decide
      | with_reducible apply Touches.after (State.serveInbox_touches ..)
      | with_reducible apply Touches.after (State.titheAdmit_touches ..)

theorem execGetIdentity_touches (via : Via) (seq : BitVec 8) (chunk : BitVec 8) (s : State) :
    Answers (Touch.all - (Touch.pending + Touch.bondHalf + Touch.fixed)) s (execGetIdentity via seq chunk s) := by
  unfold execGetIdentity
  repeat'
    first
      | with_reducible apply Answers.next
      | with_reducible exact Touches.refl _ _
      | decide
      | with_reducible apply Touches.after (State.ask_touches ..)

theorem execAttest_touches (via : Via) (seq : BitVec 8) (ctx : BitVec 8) (nonce : BitVec 256) (chunk : BitVec 8) (s : State) :
    Answers (Touch.all - (Touch.pending + Touch.bondHalf + Touch.fixed)) s (execAttest via seq ctx nonce chunk s) := by
  unfold execAttest
  repeat'
    first
      | with_reducible apply Answers.next
      | with_reducible exact Touches.refl _ _
      | decide
      | with_reducible apply Touches.after (State.ask_touches ..)

theorem execWake_touches (via : Via) (seq : BitVec 8) (s : State) :
    Answers (Touch.all - (Touch.pending + Touch.bondHalf + Touch.fixed)) s (execWake via seq s) := by
  unfold execWake
  repeat'
    first
      | with_reducible apply Answers.next
      | with_reducible exact Touches.refl _ _
      | decide
      | with_reducible apply Touches.after (State.ask_touches ..)

theorem execSessionOpen_touches (via : Via) (seq : BitVec 8) (s : State) :
    Answers (Touch.all - (Touch.pending + Touch.bondHalf + Touch.fixed)) s (execSessionOpen via seq s) := by
  unfold execSessionOpen
  repeat'
    first
      | with_reducible apply Answers.next
      | with_reducible exact Touches.refl _ _
      | decide
      | with_reducible apply Touches.after (State.ask_touches ..)

theorem execSessionProve_touches (via : Via) (seq : BitVec 8) (sig : List Byte) (s : State) :
    Answers (Touch.all - (Touch.pending + Touch.bondHalf + Touch.fixed)) s (execSessionProve via seq sig s) := by
  unfold execSessionProve
  repeat'
    first
      | with_reducible apply Answers.next
      | with_reducible exact Touches.refl _ _
      | decide
      | with_reducible apply Touches.after (State.ask_touches ..)

theorem execSessionExpiry_touches (r : Requester) (s : State) :
    Answers (Touch.mgmt) s (execSessionExpiry r s) := by
  unfold execSessionExpiry
  repeat'
    first
      | with_reducible apply Answers.next
      | with_reducible exact Touches.refl _ _
      | decide
      | (extract_lets +onlyGivenNames nx; subst nx)
      | split
      | with_reducible apply Touches.after (State.setSession_touches ..)

theorem execCtrlRead_touches (via : Via) (seq : BitVec 8) (addr : BitVec 40) (words : BitVec 8) (s : State) :
    Answers (Touch.all - (Touch.pending + Touch.bondHalf + Touch.fixed)) s (execCtrlRead via seq addr words s) := by
  unfold execCtrlRead
  repeat'
    first
      | with_reducible apply Answers.next
      | with_reducible exact Touches.refl _ _
      | decide
      | with_reducible apply Touches.after (State.ask_touches ..)

theorem execCtrlWrite_touches (via : Via) (seq : BitVec 8) (addr : BitVec 40) (words : List (BitVec 32)) (s : State) :
    Answers (Touch.all - (Touch.pending + Touch.bondHalf + Touch.fixed)) s (execCtrlWrite via seq addr words s) := by
  unfold execCtrlWrite
  repeat'
    first
      | with_reducible apply Answers.next
      | with_reducible exact Touches.refl _ _
      | decide
      | with_reducible apply Touches.after (State.ask_touches ..)

theorem execEventRead_touches (via : Via) (seq : BitVec 8) (count : BitVec 8) (s : State) :
    Answers (Touch.all - (Touch.pending + Touch.bondHalf + Touch.fixed)) s (execEventRead via seq count s) := by
  unfold execEventRead
  repeat'
    first
      | with_reducible apply Answers.next
      | with_reducible exact Touches.refl _ _
      | decide
      | with_reducible apply Touches.after (State.ask_touches ..)

theorem execHalt_touches (via : Via) (seq : BitVec 8) (target : CoreRef) (s : State) :
    Answers (Touch.all - (Touch.pending + Touch.bondHalf + Touch.fixed)) s (execHalt via seq target s) := by
  unfold execHalt
  repeat'
    first
      | with_reducible apply Answers.next
      | with_reducible exact Touches.refl _ _
      | decide
      | with_reducible apply Touches.after (State.ask_touches ..)

theorem execCoreResume_touches (via : Via) (seq : BitVec 8) (target : CoreRef) (s : State) :
    Answers (Touch.all - (Touch.pending + Touch.bondHalf + Touch.fixed)) s (execCoreResume via seq target s) := by
  unfold execCoreResume
  repeat'
    first
      | with_reducible apply Answers.next
      | with_reducible exact Touches.refl _ _
      | decide
      | with_reducible apply Touches.after (State.ask_touches ..)

theorem execMemRead_touches (via : Via) (seq : BitVec 8) (addr : BitVec 64) (len : BitVec 8) (flaws : Flaws) (s : State) :
    Answers (Touch.all - (Touch.pending + Touch.bondHalf + Touch.fixed)) s (execMemRead via seq addr len flaws s) := by
  unfold execMemRead
  repeat'
    first
      | with_reducible apply Answers.next
      | with_reducible exact Touches.refl _ _
      | decide
      | with_reducible apply Touches.after (State.ask_touches ..)

theorem execMemWrite_touches (via : Via) (seq : BitVec 8) (addr : BitVec 64) (bytes : List Byte) (s : State) :
    Answers (Touch.all - (Touch.pending + Touch.bondHalf + Touch.fixed)) s (execMemWrite via seq addr bytes s) := by
  unfold execMemWrite
  repeat'
    first
      | with_reducible apply Answers.next
      | with_reducible exact Touches.refl _ _
      | decide
      | with_reducible apply Touches.after (State.ask_touches ..)

theorem execModuleReset_touches (via : Via) (seq : BitVec 8) (run : StartRun) (s : State) :
    Answers (Touch.all - (Touch.pending + Touch.bondHalf + Touch.fixed)) s (execModuleReset via seq run s) := by
  unfold execModuleReset
  repeat'
    first
      | with_reducible apply Answers.next
      | with_reducible exact Touches.refl _ _
      | decide
      | with_reducible apply Touches.after (State.ask_touches ..)

theorem execDebugAccess_touches (seq : BitVec 8) (cmd : Ohmune) (s : State) :
    Answers (Touch.all - (Touch.pending + Touch.bondHalf + Touch.fixed)) s (execDebugAccess seq cmd s) := by
  unfold execDebugAccess
  repeat'
    first
      | with_reducible apply Answers.next
      | with_reducible exact Touches.refl _ _
      | decide
      | with_reducible apply Touches.after (State.ask_touches ..)
      | with_reducible apply Touches.set_debugUsed

theorem execBypass_touches (tdi : List Bool) (s : State) :
    Answers (Touch.out) s (execBypass tdi s) := by
  unfold execBypass
  repeat'
    first
      | with_reducible apply Answers.next
      | with_reducible exact Touches.refl _ _
      | decide
      | with_reducible apply Touches.after (State.emit_touches ..)

theorem execIdcode_touches (s : State) :
    Answers (Touch.out) s (execIdcode s) := by
  unfold execIdcode
  repeat'
    first
      | with_reducible apply Answers.next
      | with_reducible exact Touches.refl _ _
      | decide
      | with_reducible apply Touches.after (State.emit_touches ..)

theorem execSamplePreload_touches (pins : List Bool) (load : List Bool) (s : State) :
    Answers (Touch.out ||| Touch.bscan) s (execSamplePreload pins load s) := by
  unfold execSamplePreload
  repeat'
    first
      | with_reducible apply Answers.next
      | with_reducible exact Touches.refl _ _
      | decide
      | (extract_lets +onlyGivenNames nx; subst nx)
      | with_reducible apply Touches.after (State.emit_touches ..)
      | with_reducible apply Touches.set_bscan

theorem execExtest_touches (pins : List Bool) (load : List Bool) (s : State) :
    Answers (Touch.out ||| Touch.debugUsed ||| Touch.bscan) s (execExtest pins load s) := by
  unfold execExtest
  repeat'
    first
      | with_reducible apply Answers.next
      | with_reducible exact Touches.refl _ _
      | with_reducible assumption
      | decide
      | (extract_lets +onlyGivenNames nx; with_reducible refine Answers.cut (t := nx) ?_ ?_; subst nx; rotate_left; revert nx; intro _ _; rotate_right)
      | split
      | with_reducible apply Touches.after (State.emit_touches ..)
      | with_reducible apply Touches.set_debugUsed
      | with_reducible apply Touches.set_bscan

theorem execFirmwareUpdate_touches (comp : Fin 5) (stage : List Byte) (version : BitVec 32) (good : Bool) (s : State) :
    Answers (Touch.out ||| Touch.firmware) s (execFirmwareUpdate comp stage version good s) := by
  unfold execFirmwareUpdate
  repeat'
    first
      | with_reducible apply Answers.next
      | with_reducible exact Touches.refl _ _
      | decide
      | split
      | with_reducible apply Touches.after (State.emit_touches ..)
      | with_reducible apply Touches.set_firmware

theorem execActivateFirmware_touches (run : StartRun) (s : State) :
    Answers (Touch.all - (Touch.pending + Touch.wear + Touch.opkey + Touch.led + Touch.bondHalf + Touch.opkeySeq
    + Touch.fixed)) s (execActivateFirmware run s) := by
  unfold execActivateFirmware
  repeat'
    first
      | with_reducible apply Answers.next
      | with_reducible exact Touches.refl _ _
      | decide
      | split
      | with_reducible apply Touches.after (State.coldStart_touches ..)
      | with_reducible apply Touches.after (State.powerOff_touches ..)
      | with_reducible apply Touches.after (State.emit_touches ..)

theorem State.idle_touches (s : State) : Touches (Touch.vt ||| Touch.vtFrac ||| Touch.out |||
    Touch.regs ||| Touch.mem ||| Touch.grn ||| Touch.wear ||| Touch.log ||| Touch.logBase |||
    Touch.cores ||| Touch.bells ||| Touch.node ||| Touch.tithes ||| Touch.gws ||| Touch.cfg |||
    Touch.regions ||| Touch.tracePos ||| Touch.stackMem ||| Touch.bridgeMem ||| Touch.invPend |||
    Touch.nextId ||| Touch.jobs ||| Touch.xfers ||| Touch.redSteps ||| Touch.runs ||| Touch.redBytes
    ||| Touch.seqs ||| Touch.rings ||| Touch.links ||| Touch.ingress ||| Touch.egress |||
    Touch.qpErr ||| Touch.sas ||| Touch.led ||| Touch.xings ||| Touch.vc ||| Touch.retireQ |||
    Touch.lit ||| Touch.rcal ||| Touch.resets ||| Touch.mapLag ||| Touch.power ||| Touch.reports |||
    Touch.startedFor ||| Touch.drains ||| Touch.portNext ||| Touch.heldOut ||| Touch.hostLines |||
    Touch.hostResv ||| Touch.imsic) s
    (State.idle s):= by
  unfold State.idle
  repeat'
    first
      | with_reducible exact Touches.refl _ _
      | decide
      | split
      | with_reducible apply Touches.after (State.startTick_touches ..)
      | with_reducible apply Touches.after (State.stretchTick_touches ..)
      | with_reducible apply Touches.after (State.tick_touches ..)
      | with_reducible apply Touches.after (State.resetTick_touches ..)
      | with_reducible apply Touches.after (State.portTick_touches ..)
      | with_reducible apply Touches.after (State.sleepTick_touches ..)
theorem State.busOut_touches (s : State) (bs : List Byte) :
    Touches (Touch.out) s (State.busOut s bs) := by
  unfold State.busOut
  repeat'
    first
      | with_reducible exact Touches.refl _ _
      | decide
      | with_reducible apply Touches.after (State.emit_touches ..)

theorem execPldmDiscovery_touches (ask : PldmAsk) (s : State) :
    Answers (Touch.free ||| Touch.out ||| Touch.tid) s (execPldmDiscovery ask s) := by
  unfold execPldmDiscovery
  repeat'
    first
      | with_reducible apply Answers.next
      | with_reducible exact Touches.refl _ _
      | decide
      | (extract_lets +onlyGivenNames nx; subst nx)
      | split
      | with_reducible apply Touches.after (State.busOut_touches ..)
      | with_reducible apply Touches.after (State.takeFree_touches ..)
      | with_reducible apply Touches.set_tid

theorem execPldmMonitoring_touches (sensor : PldmSensor) (s : State) :
    Answers (Touch.free ||| Touch.out) s (execPldmMonitoring sensor s) := by
  unfold execPldmMonitoring
  repeat'
    first
      | with_reducible apply Answers.next
      | with_reducible exact Touches.refl _ _
      | decide
      | split
      | with_reducible apply Touches.after (State.busOut_touches ..)
      | with_reducible apply Touches.after (State.takeFree_touches ..)

theorem execMctpControl_touches (ask : MctpAsk) (s : State) :
    Answers (Touch.free ||| Touch.out ||| Touch.eid) s (execMctpControl ask s) := by
  unfold execMctpControl
  repeat'
    first
      | with_reducible apply Answers.next
      | with_reducible exact Touches.refl _ _
      | decide
      | split
      | with_reducible apply Touches.after (State.busOut_touches ..)
      | with_reducible apply Touches.after (State.takeFree_touches ..)
      | with_reducible apply Touches.set_eid

theorem execDynamicAddress_touches (sa : BitVec 2) (static : Option (BitVec 7)) (addr : BitVec 7) (s : State) :
    Answers (Touch.dynAddr ||| Touch.saPins) s (execDynamicAddress sa static addr s) := by
  unfold execDynamicAddress
  repeat'
    first
      | with_reducible apply Answers.next
      | with_reducible exact Touches.refl _ _
      | with_reducible assumption
      | decide
      | (extract_lets +onlyGivenNames x; with_reducible refine Answers.cut (t := x) ?_ ?_; subst x; rotate_left; clear_value x; revert x; intro _ _; rotate_right)
      | (extract_lets +onlyGivenNames x; clear_value x; revert x; intro _)
      | split
      | dsimp only
      | with_reducible apply Touches.set_dynAddr
      | with_reducible apply Touches.set_saPins

end Sys2Proof.Machine
end

