-- ==== Sys2Proof/Laws/State.lean ====
section
/-!
SUPPORT. Reads after updates: bit fields, registers, memory, the granary map and unit records; and, for each named
update, that every other field of the state is as before.
-/

namespace Sys2Proof

/-! ### Bit fields -/

/-- Each bit of a register after a field has been put. -/
theorem Fld.put_getLsbD (f : Fld) (v : BitVec 64) (x i : Nat) (hf : f.lo ≤ f.hi) (hi : i < 64) :
    (f.put v x).getLsbD i = if f.lo ≤ i ∧ i ≤ f.hi then x.testBit (i - f.lo) else v.getLsbD i := by
  have hq : v.toNat % 2 ^ f.lo + x % 2 ^ (f.hi + 1 - f.lo) * 2 ^ f.lo + v.toNat / 2 ^ (f.hi + 1) * 2 ^ (f.hi + 1) =
      2 ^ (f.hi + 1) * (v.toNat / 2 ^ (f.hi + 1)) + (2 ^ f.lo * (x % 2 ^ (f.hi + 1 - f.lo)) + v.toNat % 2 ^ f.lo) := by
    rw [Nat.mul_comm (_ / _), Nat.mul_comm (x % _)]; omega
  have h1 : v.toNat % 2 ^ f.lo < 2 ^ f.lo := Nat.mod_lt _ (Nat.two_pow_pos _)
  have h2 : 2 ^ f.lo * (x % 2 ^ (f.hi + 1 - f.lo)) + v.toNat % 2 ^ f.lo < 2 ^ (f.hi + 1) := by
    have hw : x % 2 ^ (f.hi + 1 - f.lo) < 2 ^ (f.hi + 1 - f.lo) := Nat.mod_lt _ (Nat.two_pow_pos _)
    have hp : 2 ^ (f.hi + 1) = 2 ^ f.lo * 2 ^ (f.hi + 1 - f.lo) := by rw [← Nat.pow_add]; congr 1; omega
    rw [hp]
    calc _ < 2 ^ f.lo * (x % 2 ^ (f.hi + 1 - f.lo)) + 2 ^ f.lo := by omega
      _ = 2 ^ f.lo * (x % 2 ^ (f.hi + 1 - f.lo) + 1) := by rw [Nat.mul_add, Nat.mul_one]
      _ ≤ _ := Nat.mul_le_mul_left _ hw
  unfold Fld.put
  rw [hq, BitVec.getLsbD, BitVec.toNat_ofNat, Nat.testBit_mod_two_pow, decide_eq_true hi, Bool.true_and,
    Nat.testBit_two_pow_mul_add _ h2]
  by_cases ha : i < f.hi + 1
  · rw [if_pos ha, Nat.testBit_two_pow_mul_add _ h1]
    by_cases hb : i < f.lo
    · have : ¬(f.lo ≤ i ∧ i ≤ f.hi) := by omega
      rw [if_pos hb, if_neg this, Nat.testBit_mod_two_pow, decide_eq_true hb, Bool.true_and]; rfl
    · have : f.lo ≤ i ∧ i ≤ f.hi := by omega
      have hd : i - f.lo < f.hi + 1 - f.lo := by omega
      rw [if_neg hb, if_pos this, Nat.testBit_mod_two_pow, decide_eq_true hd, Bool.true_and]
  · have : ¬(f.lo ≤ i ∧ i ≤ f.hi) := by omega
    rw [if_neg ha, if_neg this, Nat.testBit_div_two_pow, Nat.sub_add_cancel (by omega)]; rfl

/-- Each bit of a field. -/
theorem Fld.get_testBit (f : Fld) (v : BitVec 64) (i : Nat) :
    (f.get v).testBit i = (decide (i < f.hi + 1 - f.lo) && v.getLsbD (i + f.lo)) := by
  unfold Fld.get
  rw [Nat.testBit_mod_two_pow, Nat.testBit_div_two_pow]; rfl

/-- A field reads what was put into it, modulo its width. -/
theorem Fld.get_put_same (f : Fld) (v : BitVec 64) (x : Nat) (hf : f.lo ≤ f.hi) (h64 : f.hi < 64) :
    f.get (f.put v x) = x % 2 ^ (f.hi + 1 - f.lo) := by
  refine Nat.eq_of_testBit_eq fun i => ?_
  rw [Fld.get_testBit, Nat.testBit_mod_two_pow]
  by_cases h : i < f.hi + 1 - f.lo
  · have h1 : f.lo ≤ i + f.lo ∧ i + f.lo ≤ f.hi := by omega
    rw [Fld.put_getLsbD f v x _ hf (by omega), if_pos h1, Nat.add_sub_cancel]
  · simp [h]

/-- A field reads as before after another, disjoint field has been put. -/
theorem Fld.get_put_other (f g : Fld) (v : BitVec 64) (x : Nat) (hf : f.lo ≤ f.hi) (h64 : f.hi < 64) (g64 : g.hi < 64)
    (hd : g.hi < f.lo ∨ f.hi < g.lo) : g.get (f.put v x) = g.get v := by
  refine Nat.eq_of_testBit_eq fun i => ?_
  rw [Fld.get_testBit, Fld.get_testBit]
  by_cases h : i < g.hi + 1 - g.lo
  · have h1 : ¬(f.lo ≤ i + g.lo ∧ i + g.lo ≤ f.hi) := by omega
    rw [Fld.put_getLsbD f v x _ hf (by omega), if_neg h1]
  · simp [h]


namespace Machine

/-! ### Registers -/

@[simp] theorem State.reg_setReg_same (s : State) (a : Nat) (v : BitVec 64) : (s.setReg a v).reg a = v :=
  SMap.get_set_same ..

theorem State.reg_setReg_other (s : State) {a b : Nat} (v : BitVec 64) (h : b ≠ a) : (s.setReg a v).reg b = s.reg b :=
  SMap.get_set_default _ _ _ _ h

theorem State.reg_setF_other (s : State) {a b : Nat} (f : Fld) (x : Nat) (h : b ≠ a) : (s.setF a f x).reg b = s.reg b :=
  State.reg_setReg_other s _ h

@[simp] theorem State.reg_setF_same (s : State) (a : Nat) (f : Fld) (x : Nat) : (s.setF a f x).reg a = f.put (s.reg a) x :=
  State.reg_setReg_same ..

/-- A field reads what was put into it, modulo its width. -/
theorem State.getF_setF_same (s : State) (a : Nat) (f : Fld) (x : Nat) (hf : f.lo ≤ f.hi) (h64 : f.hi < 64) :
    (s.setF a f x).getF a f = x % 2 ^ (f.hi + 1 - f.lo) := by
  unfold State.getF
  rw [State.reg_setF_same, Fld.get_put_same f _ x hf h64]

theorem State.getF_setF_field (s : State) (a : Nat) (f g : Fld) (x : Nat) (hf : f.lo ≤ f.hi) (h64 : f.hi < 64)
    (g64 : g.hi < 64) (hd : g.hi < f.lo ∨ f.hi < g.lo) : (s.setF a f x).getF a g = s.getF a g := by
  unfold State.getF
  rw [State.reg_setF_same, Fld.get_put_other f g _ x hf h64 g64 hd]

theorem State.getF_setF_other (s : State) {a b : Nat} (f g : Fld) (x : Nat) (h : b ≠ a) :
    (s.setF a f x).getF b g = s.getF b g := by
  unfold State.getF
  rw [State.reg_setF_other s f x h]

theorem Fld.max_lt (f : Fld) : f.max < 2 ^ (f.hi + 1 - f.lo) := by
  have := Nat.two_pow_pos (f.hi + 1 - f.lo)
  unfold Fld.max
  omega

/-- A counter after it has been counted up: it holds at its largest value. -/
theorem State.getF_bump_same (s : State) (a : Nat) (f : Fld) (n : Nat) (hf : f.lo ≤ f.hi) (h64 : f.hi < 64) :
    (s.bump a f n).getF a f = min f.max (s.getF a f + n) := by
  unfold State.bump
  rw [State.getF_setF_same s a f _ hf h64, Nat.mod_eq_of_lt]
  exact Nat.lt_of_le_of_lt (Nat.min_le_left ..) (Fld.max_lt f)

theorem State.reg_bump_other (s : State) {a b : Nat} (f : Fld) (n : Nat) (h : b ≠ a) : (s.bump a f n).reg b = s.reg b :=
  State.reg_setF_other s f _ h

/-! ### Memory -/

/-- Keys of two bytes of memory agree only for one site and offset. -/
theorem memKey_inj {i j a b : Nat} (ha : a < 2 ^ 43) (hb : b < 2 ^ 43) (h : memKey i a = memKey j b) : i = j ∧ a = b := by
  unfold memKey at h
  omega

/-- A byte of memory after bytes have been written at a site. -/
theorem State.byteAt_writeMem (s : State) (site off : Nat) (bs : List Byte) (i o : Nat) (ho : o < 2 ^ 43)
    (hb : off + bs.length ≤ 2 ^ 43) :
    (s.writeMem site off bs).byteAt i o =
      if i = site ∧ off ≤ o ∧ o < off + bs.length then bs.getD (o - off) 0 else s.byteAt i o := by
  unfold State.byteAt State.writeMem
  simp only [SMap.get_setMany]
  unfold memKey
  by_cases h : i = site ∧ off ≤ o ∧ o < off + bs.length
  · obtain ⟨rfl, h1, h2⟩ := h
    have h3 : 2 ^ 43 * i + off ≤ 2 ^ 43 * i + o ∧ 2 ^ 43 * i + o < 2 ^ 43 * i + off + bs.length := by omega
    rw [if_pos h3, if_pos ⟨rfl, h1, h2⟩]
    congr 1; omega
  · have h3 : ¬(2 ^ 43 * site + off ≤ 2 ^ 43 * i + o ∧ 2 ^ 43 * i + o < 2 ^ 43 * site + off + bs.length) := by omega
    rw [if_neg h3, if_neg h]

/-- A byte of memory after a range of a site has been made to read 0. -/
theorem State.byteAt_zeroMem (s : State) (site off n i o : Nat) (ho : o < 2 ^ 43) (hb : off + n ≤ 2 ^ 43) :
    (s.zeroMem site off n).byteAt i o = if i = site ∧ off ≤ o ∧ o < off + n then 0 else s.byteAt i o := by
  unfold State.byteAt State.zeroMem
  simp only [SMap.get_clearRange]
  unfold memKey
  by_cases h : i = site ∧ off ≤ o ∧ o < off + n
  · obtain ⟨rfl, h1, h2⟩ := h
    have h3 : 2 ^ 43 * i + off ≤ 2 ^ 43 * i + o ∧ 2 ^ 43 * i + o < 2 ^ 43 * i + off + n := by omega
    rw [if_pos h3, if_pos ⟨rfl, h1, h2⟩]
  · have h3 : ¬(2 ^ 43 * site + off ≤ 2 ^ 43 * i + o ∧ 2 ^ 43 * i + o < 2 ^ 43 * site + off + n) := by omega
    rw [if_neg h3, if_neg h]

@[simp] theorem State.readMem_length (s : State) (site off n : Nat) : (s.readMem site off n).length = n :=
  SMap.getMany_length ..

theorem State.readMem_getD (s : State) (site off n k : Nat) (h : k < n) :
    (s.readMem site off n).getD k 0 = s.byteAt site (off + k) := by
  unfold State.readMem State.byteAt memKey
  rw [SMap.getMany_getD _ _ _ _ _ _ h, Nat.add_assoc]

/-- Every operation on memory keeps its canonical form. -/
theorem State.writeMem_memOk {s : State} (site off : Nat) (bs : List Byte) (h : s.memOk) : (s.writeMem site off bs).memOk :=
  SMap.wf_setMany bs h

theorem State.zeroMem_memOk {s : State} (site off n : Nat) (h : s.memOk) : (s.zeroMem site off n).memOk :=
  SMap.wf_clearRange h

theorem State.writeMasked_memOk {s : State} (site off mask : Nat) (bs : List Byte) (h : s.memOk) :
    (s.writeMasked site off mask bs).memOk := by
  induction bs generalizing s off mask with
  | nil => exact h
  | cons b bs ih =>
    unfold State.writeMasked
    apply ih
    split
    · exact State.writeMem_memOk _ _ _ h
    · exact h

/-- Memory after reset lists nothing. -/
theorem State.reset_memOk : State.reset.memOk := rfl

/-! ### Unit records -/

@[simp] theorem State.core_setCore_same (s : State) (k c : Nat) (x : CoreSt) : (s.setCore k c x).core k c = x :=
  SMap.get_set_same ..

theorem State.core_setCore_other (s : State) {k c k' c' : Nat} (x : CoreSt) (hc : c < 96) (hc' : c' < 96)
    (h : ¬(k' = k ∧ c' = c)) : (s.setCore k c x).core k' c' = s.core k' c' :=
  SMap.get_set_other _ _ _ (by omega)

@[simp] theorem State.bellAt_setBell_same (s : State) (i : Nat) (x : SiteBell) : (s.setBell i x).bellAt i = x :=
  SMap.get_set_same ..

theorem State.bellAt_setBell_other (s : State) {i j : Nat} (x : SiteBell) (h : j ≠ i) : (s.setBell i x).bellAt j = s.bellAt j :=
  SMap.get_set_other _ _ _ h

@[simp] theorem State.tithe_setTithe_same (s : State) (i : Nat) (x : TitheSt) : (s.setTithe i x).tithe i = x :=
  SMap.get_set_same ..

theorem State.tithe_setTithe_other (s : State) {i j : Nat} (x : TitheSt) (h : j ≠ i) : (s.setTithe i x).tithe j = s.tithe j :=
  SMap.get_set_other _ _ _ h

@[simp] theorem State.gw_setGw_same (s : State) (i : Nat) (x : GwSt) : (s.setGw i x).gw i = x :=
  SMap.get_set_same ..

theorem State.gw_setGw_other (s : State) {i j : Nat} (x : GwSt) (h : j ≠ i) : (s.setGw i x).gw j = s.gw j :=
  SMap.get_set_other _ _ _ h

/-! ### The granary map -/

theorem State.grnGet_grnPut_same (s : State) (type site index v d : Nat) :
    (s.grnPut type site index v).grnGet type site index d = v := SMap.get_put_same ..

theorem State.grnGet_grnPut_other (s : State) {type site index type' site' index' : Nat} (v d : Nat)
    (h : grnKey type' site' index' ≠ grnKey type site index) :
    (s.grnPut type site index v).grnGet type' site' index' d = s.grnGet type' site' index' d := SMap.get_put_other _ _ _ h

/-! ### Every other field is as before -/

@[simp] theorem State.setReg_vt (s : State) (a : Nat) (v : BitVec 64) : (s.setReg a v).vt = s.vt := rfl
@[simp] theorem State.setReg_vtFrac (s : State) (a : Nat) (v : BitVec 64) : (s.setReg a v).vtFrac = s.vtFrac := rfl
@[simp] theorem State.setReg_rateTemp (s : State) (a : Nat) (v : BitVec 64) : (s.setReg a v).rateTemp = s.rateTemp := rfl
@[simp] theorem State.setReg_rateServo (s : State) (a : Nat) (v : BitVec 64) : (s.setReg a v).rateServo = s.rateServo := rfl
@[simp] theorem State.setReg_free (s : State) (a : Nat) (v : BitVec 64) : (s.setReg a v).free = s.free := rfl
@[simp] theorem State.setReg_pending (s : State) (a : Nat) (v : BitVec 64) : (s.setReg a v).pending = s.pending := rfl
@[simp] theorem State.setReg_out (s : State) (a : Nat) (v : BitVec 64) : (s.setReg a v).out = s.out := rfl
@[simp] theorem State.setReg_rlatch (s : State) (a : Nat) (v : BitVec 64) : (s.setReg a v).rlatch = s.rlatch := rfl
@[simp] theorem State.setReg_wlatch (s : State) (a : Nat) (v : BitVec 64) : (s.setReg a v).wlatch = s.wlatch := rfl
@[simp] theorem State.setReg_ringSel (s : State) (a : Nat) (v : BitVec 64) : (s.setReg a v).ringSel = s.ringSel := rfl
@[simp] theorem State.setReg_wearSel (s : State) (a : Nat) (v : BitVec 64) : (s.setReg a v).wearSel = s.wearSel := rfl
@[simp] theorem State.setReg_mem (s : State) (a : Nat) (v : BitVec 64) : (s.setReg a v).mem = s.mem := rfl
@[simp] theorem State.setReg_grn (s : State) (a : Nat) (v : BitVec 64) : (s.setReg a v).grn = s.grn := rfl
@[simp] theorem State.setReg_wear (s : State) (a : Nat) (v : BitVec 64) : (s.setReg a v).wear = s.wear := rfl
@[simp] theorem State.setReg_log (s : State) (a : Nat) (v : BitVec 64) : (s.setReg a v).log = s.log := rfl
@[simp] theorem State.setReg_logBase (s : State) (a : Nat) (v : BitVec 64) : (s.setReg a v).logBase = s.logBase := rfl
@[simp] theorem State.setReg_logRead (s : State) (a : Nat) (v : BitVec 64) : (s.setReg a v).logRead = s.logRead := rfl
@[simp] theorem State.setReg_logRing (s : State) (a : Nat) (v : BitVec 64) : (s.setReg a v).logRing = s.logRing := rfl
@[simp] theorem State.setReg_cores (s : State) (a : Nat) (v : BitVec 64) : (s.setReg a v).cores = s.cores := rfl
@[simp] theorem State.setReg_bells (s : State) (a : Nat) (v : BitVec 64) : (s.setReg a v).bells = s.bells := rfl
@[simp] theorem State.setReg_node (s : State) (a : Nat) (v : BitVec 64) : (s.setReg a v).node = s.node := rfl
@[simp] theorem State.setReg_tithes (s : State) (a : Nat) (v : BitVec 64) : (s.setReg a v).tithes = s.tithes := rfl
@[simp] theorem State.setReg_gws (s : State) (a : Nat) (v : BitVec 64) : (s.setReg a v).gws = s.gws := rfl
@[simp] theorem State.setReg_cfg (s : State) (a : Nat) (v : BitVec 64) : (s.setReg a v).cfg = s.cfg := rfl
@[simp] theorem State.setReg_regions (s : State) (a : Nat) (v : BitVec 64) : (s.setReg a v).regions = s.regions := rfl
@[simp] theorem State.setReg_tracePos (s : State) (a : Nat) (v : BitVec 64) : (s.setReg a v).tracePos = s.tracePos := rfl
@[simp] theorem State.setReg_stackMem (s : State) (a : Nat) (v : BitVec 64) : (s.setReg a v).stackMem = s.stackMem := rfl
@[simp] theorem State.setReg_bridgeMem (s : State) (a : Nat) (v : BitVec 64) : (s.setReg a v).bridgeMem = s.bridgeMem := rfl
@[simp] theorem State.setReg_invPend (s : State) (a : Nat) (v : BitVec 64) : (s.setReg a v).invPend = s.invPend := rfl
@[simp] theorem State.setReg_invAcks (s : State) (a : Nat) (v : BitVec 64) : (s.setReg a v).invAcks = s.invAcks := rfl
@[simp] theorem State.setReg_pageBell (s : State) (a : Nat) (v : BitVec 64) : (s.setReg a v).pageBell = s.pageBell := rfl
@[simp] theorem State.setReg_nextId (s : State) (a : Nat) (v : BitVec 64) : (s.setReg a v).nextId = s.nextId := rfl
@[simp] theorem State.setReg_jobs (s : State) (a : Nat) (v : BitVec 64) : (s.setReg a v).jobs = s.jobs := rfl
@[simp] theorem State.setReg_xfers (s : State) (a : Nat) (v : BitVec 64) : (s.setReg a v).xfers = s.xfers := rfl
@[simp] theorem State.setReg_redSteps (s : State) (a : Nat) (v : BitVec 64) : (s.setReg a v).redSteps = s.redSteps := rfl
@[simp] theorem State.setReg_runs (s : State) (a : Nat) (v : BitVec 64) : (s.setReg a v).runs = s.runs := rfl
@[simp] theorem State.setReg_redBytes (s : State) (a : Nat) (v : BitVec 64) : (s.setReg a v).redBytes = s.redBytes := rfl
@[simp] theorem State.setReg_seqs (s : State) (a : Nat) (v : BitVec 64) : (s.setReg a v).seqs = s.seqs := rfl
@[simp] theorem State.setReg_sheetBell (s : State) (a : Nat) (v : BitVec 64) : (s.setReg a v).sheetBell = s.sheetBell := rfl
@[simp] theorem State.setReg_sheetGot (s : State) (a : Nat) (v : BitVec 64) : (s.setReg a v).sheetGot = s.sheetGot := rfl
@[simp] theorem State.setReg_rings (s : State) (a : Nat) (v : BitVec 64) : (s.setReg a v).rings = s.rings := rfl
@[simp] theorem State.setReg_outs (s : State) (a : Nat) (v : BitVec 64) : (s.setReg a v).outs = s.outs := rfl
@[simp] theorem State.setReg_brackets (s : State) (a : Nat) (v : BitVec 64) : (s.setReg a v).brackets = s.brackets := rfl
@[simp] theorem State.setReg_links (s : State) (a : Nat) (v : BitVec 64) : (s.setReg a v).links = s.links := rfl
@[simp] theorem State.setReg_restores (s : State) (a : Nat) (v : BitVec 64) : (s.setReg a v).restores = s.restores := rfl
@[simp] theorem State.setReg_hostTake (s : State) (a : Nat) (v : BitVec 64) : (s.setReg a v).hostTake = s.hostTake := rfl
@[simp] theorem State.setReg_ingress (s : State) (a : Nat) (v : BitVec 64) : (s.setReg a v).ingress = s.ingress := rfl
@[simp] theorem State.setReg_egress (s : State) (a : Nat) (v : BitVec 64) : (s.setReg a v).egress = s.egress := rfl
@[simp] theorem State.setReg_qpErr (s : State) (a : Nat) (v : BitVec 64) : (s.setReg a v).qpErr = s.qpErr := rfl
@[simp] theorem State.setReg_qpRate (s : State) (a : Nat) (v : BitVec 64) : (s.setReg a v).qpRate = s.qpRate := rfl
@[simp] theorem State.setReg_cnpAt (s : State) (a : Nat) (v : BitVec 64) : (s.setReg a v).cnpAt = s.cnpAt := rfl
@[simp] theorem State.setReg_conf (s : State) (a : Nat) (v : BitVec 64) : (s.setReg a v).conf = s.conf := rfl
@[simp] theorem State.setReg_sas (s : State) (a : Nat) (v : BitVec 64) : (s.setReg a v).sas = s.sas := rfl
@[simp] theorem State.setReg_opkey (s : State) (a : Nat) (v : BitVec 64) : (s.setReg a v).opkey = s.opkey := rfl
@[simp] theorem State.setReg_led (s : State) (a : Nat) (v : BitVec 64) : (s.setReg a v).led = s.led := rfl
@[simp] theorem State.setReg_xings (s : State) (a : Nat) (v : BitVec 64) : (s.setReg a v).xings = s.xings := rfl
@[simp] theorem State.setReg_vc (s : State) (a : Nat) (v : BitVec 64) : (s.setReg a v).vc = s.vc := rfl
@[simp] theorem State.setReg_vcmp (s : State) (a : Nat) (v : BitVec 64) : (s.setReg a v).vcmp = s.vcmp := rfl
@[simp] theorem State.setReg_retireQ (s : State) (a : Nat) (v : BitVec 64) : (s.setReg a v).retireQ = s.retireQ := rfl
@[simp] theorem State.setReg_lit (s : State) (a : Nat) (v : BitVec 64) : (s.setReg a v).lit = s.lit := rfl
@[simp] theorem State.setReg_rcal (s : State) (a : Nat) (v : BitVec 64) : (s.setReg a v).rcal = s.rcal := rfl
@[simp] theorem State.setReg_combCal (s : State) (a : Nat) (v : BitVec 64) : (s.setReg a v).combCal = s.combCal := rfl
@[simp] theorem State.setReg_calRej (s : State) (a : Nat) (v : BitVec 64) : (s.setReg a v).calRej = s.calRej := rfl
@[simp] theorem State.setReg_calLast (s : State) (a : Nat) (v : BitVec 64) : (s.setReg a v).calLast = s.calLast := rfl
@[simp] theorem State.setReg_sensOut (s : State) (a : Nat) (v : BitVec 64) : (s.setReg a v).sensOut = s.sensOut := rfl
@[simp] theorem State.setReg_classes (s : State) (a : Nat) (v : BitVec 64) : (s.setReg a v).classes = s.classes := rfl
@[simp] theorem State.setReg_resets (s : State) (a : Nat) (v : BitVec 64) : (s.setReg a v).resets = s.resets := rfl
@[simp] theorem State.setReg_fieldAt (s : State) (a : Nat) (v : BitVec 64) : (s.setReg a v).fieldAt = s.fieldAt := rfl
@[simp] theorem State.setReg_mapLag (s : State) (a : Nat) (v : BitVec 64) : (s.setReg a v).mapLag = s.mapLag := rfl
@[simp] theorem State.setReg_rolePend (s : State) (a : Nat) (v : BitVec 64) : (s.setReg a v).rolePend = s.rolePend := rfl
@[simp] theorem State.setReg_bondHalf (s : State) (a : Nat) (v : BitVec 64) : (s.setReg a v).bondHalf = s.bondHalf := rfl
@[simp] theorem State.setReg_lms (s : State) (a : Nat) (v : BitVec 64) : (s.setReg a v).lms = s.lms := rfl
@[simp] theorem State.setReg_attest (s : State) (a : Nat) (v : BitVec 64) : (s.setReg a v).attest = s.attest := rfl
@[simp] theorem State.setReg_meas (s : State) (a : Nat) (v : BitVec 64) : (s.setReg a v).meas = s.meas := rfl
@[simp] theorem State.setReg_opkeySeq (s : State) (a : Nat) (v : BitVec 64) : (s.setReg a v).opkeySeq = s.opkeySeq := rfl
@[simp] theorem State.setReg_debugUsed (s : State) (a : Nat) (v : BitVec 64) : (s.setReg a v).debugUsed = s.debugUsed := rfl
@[simp] theorem State.setReg_power (s : State) (a : Nat) (v : BitVec 64) : (s.setReg a v).power = s.power := rfl
@[simp] theorem State.setReg_heat (s : State) (a : Nat) (v : BitVec 64) : (s.setReg a v).heat = s.heat := rfl
@[simp] theorem State.setReg_pairAt (s : State) (a : Nat) (v : BitVec 64) : (s.setReg a v).pairAt = s.pairAt := rfl
@[simp] theorem State.setReg_pairOff (s : State) (a : Nat) (v : BitVec 64) : (s.setReg a v).pairOff = s.pairOff := rfl
@[simp] theorem State.setReg_pairLost (s : State) (a : Nat) (v : BitVec 64) : (s.setReg a v).pairLost = s.pairLost := rfl
@[simp] theorem State.setReg_fast (s : State) (a : Nat) (v : BitVec 64) : (s.setReg a v).fast = s.fast := rfl
@[simp] theorem State.setReg_jumpAt (s : State) (a : Nat) (v : BitVec 64) : (s.setReg a v).jumpAt = s.jumpAt := rfl
@[simp] theorem State.setReg_tripped (s : State) (a : Nat) (v : BitVec 64) : (s.setReg a v).tripped = s.tripped := rfl
@[simp] theorem State.setReg_trips (s : State) (a : Nat) (v : BitVec 64) : (s.setReg a v).trips = s.trips := rfl
@[simp] theorem State.setReg_hbmSlow (s : State) (a : Nat) (v : BitVec 64) : (s.setReg a v).hbmSlow = s.hbmSlow := rfl
@[simp] theorem State.setReg_fixed (s : State) (a : Nat) (v : BitVec 64) : (s.setReg a v).fixed = s.fixed := rfl
@[simp] theorem State.setReg_firmware (s : State) (a : Nat) (v : BitVec 64) : (s.setReg a v).firmware = s.firmware := rfl
@[simp] theorem State.setReg_sheetBase (s : State) (a : Nat) (v : BitVec 64) : (s.setReg a v).sheetBase = s.sheetBase := rfl
@[simp] theorem State.setReg_reports (s : State) (a : Nat) (v : BitVec 64) : (s.setReg a v).reports = s.reports := rfl
@[simp] theorem State.setReg_startedFor (s : State) (a : Nat) (v : BitVec 64) : (s.setReg a v).startedFor = s.startedFor := rfl
@[simp] theorem State.setReg_ckv (s : State) (a : Nat) (v : BitVec 64) : (s.setReg a v).ckv = s.ckv := rfl
@[simp] theorem State.setReg_mgmt (s : State) (a : Nat) (v : BitVec 64) : (s.setReg a v).mgmt = s.mgmt := rfl
@[simp] theorem State.setReg_inbox (s : State) (a : Nat) (v : BitVec 64) : (s.setReg a v).inbox = s.inbox := rfl
@[simp] theorem State.setReg_dynAddr (s : State) (a : Nat) (v : BitVec 64) : (s.setReg a v).dynAddr = s.dynAddr := rfl
@[simp] theorem State.setReg_eid (s : State) (a : Nat) (v : BitVec 64) : (s.setReg a v).eid = s.eid := rfl
@[simp] theorem State.setReg_tid (s : State) (a : Nat) (v : BitVec 64) : (s.setReg a v).tid = s.tid := rfl
@[simp] theorem State.setReg_bscan (s : State) (a : Nat) (v : BitVec 64) : (s.setReg a v).bscan = s.bscan := rfl
@[simp] theorem State.setReg_markers (s : State) (a : Nat) (v : BitVec 64) : (s.setReg a v).markers = s.markers := rfl
@[simp] theorem State.setReg_draws (s : State) (a : Nat) (v : BitVec 64) : (s.setReg a v).draws = s.draws := rfl
@[simp] theorem State.setReg_saPins (s : State) (a : Nat) (v : BitVec 64) : (s.setReg a v).saPins = s.saPins := rfl
@[simp] theorem State.setReg_drains (s : State) (a : Nat) (v : BitVec 64) : (s.setReg a v).drains = s.drains := rfl
@[simp] theorem State.setReg_portNext (s : State) (a : Nat) (v : BitVec 64) : (s.setReg a v).portNext = s.portNext := rfl
@[simp] theorem State.setReg_heldOut (s : State) (a : Nat) (v : BitVec 64) : (s.setReg a v).heldOut = s.heldOut := rfl
@[simp] theorem State.setReg_txAn (s : State) (a : Nat) (v : BitVec 64) : (s.setReg a v).txAn = s.txAn := rfl
@[simp] theorem State.setReg_ckvBy (s : State) (a : Nat) (v : BitVec 64) : (s.setReg a v).ckvBy = s.ckvBy := rfl
@[simp] theorem State.setReg_hostLines (s : State) (a : Nat) (v : BitVec 64) : (s.setReg a v).hostLines = s.hostLines := rfl
@[simp] theorem State.setReg_hostResv (s : State) (a : Nat) (v : BitVec 64) : (s.setReg a v).hostResv = s.hostResv := rfl
@[simp] theorem State.setReg_imsic (s : State) (a : Nat) (v : BitVec 64) : (s.setReg a v).imsic = s.imsic := rfl

@[simp] theorem State.setF_vt (s : State) (a : Nat) (f : Fld) (x : Nat) : (s.setF a f x).vt = s.vt := rfl
@[simp] theorem State.setF_vtFrac (s : State) (a : Nat) (f : Fld) (x : Nat) : (s.setF a f x).vtFrac = s.vtFrac := rfl
@[simp] theorem State.setF_rateTemp (s : State) (a : Nat) (f : Fld) (x : Nat) : (s.setF a f x).rateTemp = s.rateTemp := rfl
@[simp] theorem State.setF_rateServo (s : State) (a : Nat) (f : Fld) (x : Nat) : (s.setF a f x).rateServo = s.rateServo := rfl
@[simp] theorem State.setF_free (s : State) (a : Nat) (f : Fld) (x : Nat) : (s.setF a f x).free = s.free := rfl
@[simp] theorem State.setF_pending (s : State) (a : Nat) (f : Fld) (x : Nat) : (s.setF a f x).pending = s.pending := rfl
@[simp] theorem State.setF_out (s : State) (a : Nat) (f : Fld) (x : Nat) : (s.setF a f x).out = s.out := rfl
@[simp] theorem State.setF_rlatch (s : State) (a : Nat) (f : Fld) (x : Nat) : (s.setF a f x).rlatch = s.rlatch := rfl
@[simp] theorem State.setF_wlatch (s : State) (a : Nat) (f : Fld) (x : Nat) : (s.setF a f x).wlatch = s.wlatch := rfl
@[simp] theorem State.setF_ringSel (s : State) (a : Nat) (f : Fld) (x : Nat) : (s.setF a f x).ringSel = s.ringSel := rfl
@[simp] theorem State.setF_wearSel (s : State) (a : Nat) (f : Fld) (x : Nat) : (s.setF a f x).wearSel = s.wearSel := rfl
@[simp] theorem State.setF_mem (s : State) (a : Nat) (f : Fld) (x : Nat) : (s.setF a f x).mem = s.mem := rfl
@[simp] theorem State.setF_grn (s : State) (a : Nat) (f : Fld) (x : Nat) : (s.setF a f x).grn = s.grn := rfl
@[simp] theorem State.setF_wear (s : State) (a : Nat) (f : Fld) (x : Nat) : (s.setF a f x).wear = s.wear := rfl
@[simp] theorem State.setF_log (s : State) (a : Nat) (f : Fld) (x : Nat) : (s.setF a f x).log = s.log := rfl
@[simp] theorem State.setF_logBase (s : State) (a : Nat) (f : Fld) (x : Nat) : (s.setF a f x).logBase = s.logBase := rfl
@[simp] theorem State.setF_logRead (s : State) (a : Nat) (f : Fld) (x : Nat) : (s.setF a f x).logRead = s.logRead := rfl
@[simp] theorem State.setF_logRing (s : State) (a : Nat) (f : Fld) (x : Nat) : (s.setF a f x).logRing = s.logRing := rfl
@[simp] theorem State.setF_cores (s : State) (a : Nat) (f : Fld) (x : Nat) : (s.setF a f x).cores = s.cores := rfl
@[simp] theorem State.setF_bells (s : State) (a : Nat) (f : Fld) (x : Nat) : (s.setF a f x).bells = s.bells := rfl
@[simp] theorem State.setF_node (s : State) (a : Nat) (f : Fld) (x : Nat) : (s.setF a f x).node = s.node := rfl
@[simp] theorem State.setF_tithes (s : State) (a : Nat) (f : Fld) (x : Nat) : (s.setF a f x).tithes = s.tithes := rfl
@[simp] theorem State.setF_gws (s : State) (a : Nat) (f : Fld) (x : Nat) : (s.setF a f x).gws = s.gws := rfl
@[simp] theorem State.setF_cfg (s : State) (a : Nat) (f : Fld) (x : Nat) : (s.setF a f x).cfg = s.cfg := rfl
@[simp] theorem State.setF_regions (s : State) (a : Nat) (f : Fld) (x : Nat) : (s.setF a f x).regions = s.regions := rfl
@[simp] theorem State.setF_tracePos (s : State) (a : Nat) (f : Fld) (x : Nat) : (s.setF a f x).tracePos = s.tracePos := rfl
@[simp] theorem State.setF_stackMem (s : State) (a : Nat) (f : Fld) (x : Nat) : (s.setF a f x).stackMem = s.stackMem := rfl
@[simp] theorem State.setF_bridgeMem (s : State) (a : Nat) (f : Fld) (x : Nat) : (s.setF a f x).bridgeMem = s.bridgeMem := rfl
@[simp] theorem State.setF_invPend (s : State) (a : Nat) (f : Fld) (x : Nat) : (s.setF a f x).invPend = s.invPend := rfl
@[simp] theorem State.setF_invAcks (s : State) (a : Nat) (f : Fld) (x : Nat) : (s.setF a f x).invAcks = s.invAcks := rfl
@[simp] theorem State.setF_pageBell (s : State) (a : Nat) (f : Fld) (x : Nat) : (s.setF a f x).pageBell = s.pageBell := rfl
@[simp] theorem State.setF_nextId (s : State) (a : Nat) (f : Fld) (x : Nat) : (s.setF a f x).nextId = s.nextId := rfl
@[simp] theorem State.setF_jobs (s : State) (a : Nat) (f : Fld) (x : Nat) : (s.setF a f x).jobs = s.jobs := rfl
@[simp] theorem State.setF_xfers (s : State) (a : Nat) (f : Fld) (x : Nat) : (s.setF a f x).xfers = s.xfers := rfl
@[simp] theorem State.setF_redSteps (s : State) (a : Nat) (f : Fld) (x : Nat) : (s.setF a f x).redSteps = s.redSteps := rfl
@[simp] theorem State.setF_runs (s : State) (a : Nat) (f : Fld) (x : Nat) : (s.setF a f x).runs = s.runs := rfl
@[simp] theorem State.setF_redBytes (s : State) (a : Nat) (f : Fld) (x : Nat) : (s.setF a f x).redBytes = s.redBytes := rfl
@[simp] theorem State.setF_seqs (s : State) (a : Nat) (f : Fld) (x : Nat) : (s.setF a f x).seqs = s.seqs := rfl
@[simp] theorem State.setF_sheetBell (s : State) (a : Nat) (f : Fld) (x : Nat) : (s.setF a f x).sheetBell = s.sheetBell := rfl
@[simp] theorem State.setF_sheetGot (s : State) (a : Nat) (f : Fld) (x : Nat) : (s.setF a f x).sheetGot = s.sheetGot := rfl
@[simp] theorem State.setF_rings (s : State) (a : Nat) (f : Fld) (x : Nat) : (s.setF a f x).rings = s.rings := rfl
@[simp] theorem State.setF_outs (s : State) (a : Nat) (f : Fld) (x : Nat) : (s.setF a f x).outs = s.outs := rfl
@[simp] theorem State.setF_brackets (s : State) (a : Nat) (f : Fld) (x : Nat) : (s.setF a f x).brackets = s.brackets := rfl
@[simp] theorem State.setF_links (s : State) (a : Nat) (f : Fld) (x : Nat) : (s.setF a f x).links = s.links := rfl
@[simp] theorem State.setF_restores (s : State) (a : Nat) (f : Fld) (x : Nat) : (s.setF a f x).restores = s.restores := rfl
@[simp] theorem State.setF_hostTake (s : State) (a : Nat) (f : Fld) (x : Nat) : (s.setF a f x).hostTake = s.hostTake := rfl
@[simp] theorem State.setF_ingress (s : State) (a : Nat) (f : Fld) (x : Nat) : (s.setF a f x).ingress = s.ingress := rfl
@[simp] theorem State.setF_egress (s : State) (a : Nat) (f : Fld) (x : Nat) : (s.setF a f x).egress = s.egress := rfl
@[simp] theorem State.setF_qpErr (s : State) (a : Nat) (f : Fld) (x : Nat) : (s.setF a f x).qpErr = s.qpErr := rfl
@[simp] theorem State.setF_qpRate (s : State) (a : Nat) (f : Fld) (x : Nat) : (s.setF a f x).qpRate = s.qpRate := rfl
@[simp] theorem State.setF_cnpAt (s : State) (a : Nat) (f : Fld) (x : Nat) : (s.setF a f x).cnpAt = s.cnpAt := rfl
@[simp] theorem State.setF_conf (s : State) (a : Nat) (f : Fld) (x : Nat) : (s.setF a f x).conf = s.conf := rfl
@[simp] theorem State.setF_sas (s : State) (a : Nat) (f : Fld) (x : Nat) : (s.setF a f x).sas = s.sas := rfl
@[simp] theorem State.setF_opkey (s : State) (a : Nat) (f : Fld) (x : Nat) : (s.setF a f x).opkey = s.opkey := rfl
@[simp] theorem State.setF_led (s : State) (a : Nat) (f : Fld) (x : Nat) : (s.setF a f x).led = s.led := rfl
@[simp] theorem State.setF_xings (s : State) (a : Nat) (f : Fld) (x : Nat) : (s.setF a f x).xings = s.xings := rfl
@[simp] theorem State.setF_vc (s : State) (a : Nat) (f : Fld) (x : Nat) : (s.setF a f x).vc = s.vc := rfl
@[simp] theorem State.setF_vcmp (s : State) (a : Nat) (f : Fld) (x : Nat) : (s.setF a f x).vcmp = s.vcmp := rfl
@[simp] theorem State.setF_retireQ (s : State) (a : Nat) (f : Fld) (x : Nat) : (s.setF a f x).retireQ = s.retireQ := rfl
@[simp] theorem State.setF_lit (s : State) (a : Nat) (f : Fld) (x : Nat) : (s.setF a f x).lit = s.lit := rfl
@[simp] theorem State.setF_rcal (s : State) (a : Nat) (f : Fld) (x : Nat) : (s.setF a f x).rcal = s.rcal := rfl
@[simp] theorem State.setF_combCal (s : State) (a : Nat) (f : Fld) (x : Nat) : (s.setF a f x).combCal = s.combCal := rfl
@[simp] theorem State.setF_calRej (s : State) (a : Nat) (f : Fld) (x : Nat) : (s.setF a f x).calRej = s.calRej := rfl
@[simp] theorem State.setF_calLast (s : State) (a : Nat) (f : Fld) (x : Nat) : (s.setF a f x).calLast = s.calLast := rfl
@[simp] theorem State.setF_sensOut (s : State) (a : Nat) (f : Fld) (x : Nat) : (s.setF a f x).sensOut = s.sensOut := rfl
@[simp] theorem State.setF_classes (s : State) (a : Nat) (f : Fld) (x : Nat) : (s.setF a f x).classes = s.classes := rfl
@[simp] theorem State.setF_resets (s : State) (a : Nat) (f : Fld) (x : Nat) : (s.setF a f x).resets = s.resets := rfl
@[simp] theorem State.setF_fieldAt (s : State) (a : Nat) (f : Fld) (x : Nat) : (s.setF a f x).fieldAt = s.fieldAt := rfl
@[simp] theorem State.setF_mapLag (s : State) (a : Nat) (f : Fld) (x : Nat) : (s.setF a f x).mapLag = s.mapLag := rfl
@[simp] theorem State.setF_rolePend (s : State) (a : Nat) (f : Fld) (x : Nat) : (s.setF a f x).rolePend = s.rolePend := rfl
@[simp] theorem State.setF_bondHalf (s : State) (a : Nat) (f : Fld) (x : Nat) : (s.setF a f x).bondHalf = s.bondHalf := rfl
@[simp] theorem State.setF_lms (s : State) (a : Nat) (f : Fld) (x : Nat) : (s.setF a f x).lms = s.lms := rfl
@[simp] theorem State.setF_attest (s : State) (a : Nat) (f : Fld) (x : Nat) : (s.setF a f x).attest = s.attest := rfl
@[simp] theorem State.setF_meas (s : State) (a : Nat) (f : Fld) (x : Nat) : (s.setF a f x).meas = s.meas := rfl
@[simp] theorem State.setF_opkeySeq (s : State) (a : Nat) (f : Fld) (x : Nat) : (s.setF a f x).opkeySeq = s.opkeySeq := rfl
@[simp] theorem State.setF_debugUsed (s : State) (a : Nat) (f : Fld) (x : Nat) : (s.setF a f x).debugUsed = s.debugUsed := rfl
@[simp] theorem State.setF_power (s : State) (a : Nat) (f : Fld) (x : Nat) : (s.setF a f x).power = s.power := rfl
@[simp] theorem State.setF_heat (s : State) (a : Nat) (f : Fld) (x : Nat) : (s.setF a f x).heat = s.heat := rfl
@[simp] theorem State.setF_pairAt (s : State) (a : Nat) (f : Fld) (x : Nat) : (s.setF a f x).pairAt = s.pairAt := rfl
@[simp] theorem State.setF_pairOff (s : State) (a : Nat) (f : Fld) (x : Nat) : (s.setF a f x).pairOff = s.pairOff := rfl
@[simp] theorem State.setF_pairLost (s : State) (a : Nat) (f : Fld) (x : Nat) : (s.setF a f x).pairLost = s.pairLost := rfl
@[simp] theorem State.setF_fast (s : State) (a : Nat) (f : Fld) (x : Nat) : (s.setF a f x).fast = s.fast := rfl
@[simp] theorem State.setF_jumpAt (s : State) (a : Nat) (f : Fld) (x : Nat) : (s.setF a f x).jumpAt = s.jumpAt := rfl
@[simp] theorem State.setF_tripped (s : State) (a : Nat) (f : Fld) (x : Nat) : (s.setF a f x).tripped = s.tripped := rfl
@[simp] theorem State.setF_trips (s : State) (a : Nat) (f : Fld) (x : Nat) : (s.setF a f x).trips = s.trips := rfl
@[simp] theorem State.setF_hbmSlow (s : State) (a : Nat) (f : Fld) (x : Nat) : (s.setF a f x).hbmSlow = s.hbmSlow := rfl
@[simp] theorem State.setF_fixed (s : State) (a : Nat) (f : Fld) (x : Nat) : (s.setF a f x).fixed = s.fixed := rfl
@[simp] theorem State.setF_firmware (s : State) (a : Nat) (f : Fld) (x : Nat) : (s.setF a f x).firmware = s.firmware := rfl
@[simp] theorem State.setF_sheetBase (s : State) (a : Nat) (f : Fld) (x : Nat) : (s.setF a f x).sheetBase = s.sheetBase := rfl
@[simp] theorem State.setF_reports (s : State) (a : Nat) (f : Fld) (x : Nat) : (s.setF a f x).reports = s.reports := rfl
@[simp] theorem State.setF_startedFor (s : State) (a : Nat) (f : Fld) (x : Nat) : (s.setF a f x).startedFor = s.startedFor := rfl
@[simp] theorem State.setF_ckv (s : State) (a : Nat) (f : Fld) (x : Nat) : (s.setF a f x).ckv = s.ckv := rfl
@[simp] theorem State.setF_mgmt (s : State) (a : Nat) (f : Fld) (x : Nat) : (s.setF a f x).mgmt = s.mgmt := rfl
@[simp] theorem State.setF_inbox (s : State) (a : Nat) (f : Fld) (x : Nat) : (s.setF a f x).inbox = s.inbox := rfl
@[simp] theorem State.setF_dynAddr (s : State) (a : Nat) (f : Fld) (x : Nat) : (s.setF a f x).dynAddr = s.dynAddr := rfl
@[simp] theorem State.setF_eid (s : State) (a : Nat) (f : Fld) (x : Nat) : (s.setF a f x).eid = s.eid := rfl
@[simp] theorem State.setF_tid (s : State) (a : Nat) (f : Fld) (x : Nat) : (s.setF a f x).tid = s.tid := rfl
@[simp] theorem State.setF_bscan (s : State) (a : Nat) (f : Fld) (x : Nat) : (s.setF a f x).bscan = s.bscan := rfl
@[simp] theorem State.setF_markers (s : State) (a : Nat) (f : Fld) (x : Nat) : (s.setF a f x).markers = s.markers := rfl
@[simp] theorem State.setF_draws (s : State) (a : Nat) (f : Fld) (x : Nat) : (s.setF a f x).draws = s.draws := rfl
@[simp] theorem State.setF_saPins (s : State) (a : Nat) (f : Fld) (x : Nat) : (s.setF a f x).saPins = s.saPins := rfl
@[simp] theorem State.setF_drains (s : State) (a : Nat) (f : Fld) (x : Nat) : (s.setF a f x).drains = s.drains := rfl
@[simp] theorem State.setF_portNext (s : State) (a : Nat) (f : Fld) (x : Nat) : (s.setF a f x).portNext = s.portNext := rfl
@[simp] theorem State.setF_heldOut (s : State) (a : Nat) (f : Fld) (x : Nat) : (s.setF a f x).heldOut = s.heldOut := rfl
@[simp] theorem State.setF_txAn (s : State) (a : Nat) (f : Fld) (x : Nat) : (s.setF a f x).txAn = s.txAn := rfl
@[simp] theorem State.setF_ckvBy (s : State) (a : Nat) (f : Fld) (x : Nat) : (s.setF a f x).ckvBy = s.ckvBy := rfl
@[simp] theorem State.setF_hostLines (s : State) (a : Nat) (f : Fld) (x : Nat) : (s.setF a f x).hostLines = s.hostLines := rfl
@[simp] theorem State.setF_hostResv (s : State) (a : Nat) (f : Fld) (x : Nat) : (s.setF a f x).hostResv = s.hostResv := rfl
@[simp] theorem State.setF_imsic (s : State) (a : Nat) (f : Fld) (x : Nat) : (s.setF a f x).imsic = s.imsic := rfl

@[simp] theorem State.bump_vt (s : State) (a : Nat) (f : Fld) (n : Nat) : (s.bump a f n).vt = s.vt := rfl
@[simp] theorem State.bump_vtFrac (s : State) (a : Nat) (f : Fld) (n : Nat) : (s.bump a f n).vtFrac = s.vtFrac := rfl
@[simp] theorem State.bump_rateTemp (s : State) (a : Nat) (f : Fld) (n : Nat) : (s.bump a f n).rateTemp = s.rateTemp := rfl
@[simp] theorem State.bump_rateServo (s : State) (a : Nat) (f : Fld) (n : Nat) : (s.bump a f n).rateServo = s.rateServo := rfl
@[simp] theorem State.bump_free (s : State) (a : Nat) (f : Fld) (n : Nat) : (s.bump a f n).free = s.free := rfl
@[simp] theorem State.bump_pending (s : State) (a : Nat) (f : Fld) (n : Nat) : (s.bump a f n).pending = s.pending := rfl
@[simp] theorem State.bump_out (s : State) (a : Nat) (f : Fld) (n : Nat) : (s.bump a f n).out = s.out := rfl
@[simp] theorem State.bump_rlatch (s : State) (a : Nat) (f : Fld) (n : Nat) : (s.bump a f n).rlatch = s.rlatch := rfl
@[simp] theorem State.bump_wlatch (s : State) (a : Nat) (f : Fld) (n : Nat) : (s.bump a f n).wlatch = s.wlatch := rfl
@[simp] theorem State.bump_ringSel (s : State) (a : Nat) (f : Fld) (n : Nat) : (s.bump a f n).ringSel = s.ringSel := rfl
@[simp] theorem State.bump_wearSel (s : State) (a : Nat) (f : Fld) (n : Nat) : (s.bump a f n).wearSel = s.wearSel := rfl
@[simp] theorem State.bump_mem (s : State) (a : Nat) (f : Fld) (n : Nat) : (s.bump a f n).mem = s.mem := rfl
@[simp] theorem State.bump_grn (s : State) (a : Nat) (f : Fld) (n : Nat) : (s.bump a f n).grn = s.grn := rfl
@[simp] theorem State.bump_wear (s : State) (a : Nat) (f : Fld) (n : Nat) : (s.bump a f n).wear = s.wear := rfl
@[simp] theorem State.bump_log (s : State) (a : Nat) (f : Fld) (n : Nat) : (s.bump a f n).log = s.log := rfl
@[simp] theorem State.bump_logBase (s : State) (a : Nat) (f : Fld) (n : Nat) : (s.bump a f n).logBase = s.logBase := rfl
@[simp] theorem State.bump_logRead (s : State) (a : Nat) (f : Fld) (n : Nat) : (s.bump a f n).logRead = s.logRead := rfl
@[simp] theorem State.bump_logRing (s : State) (a : Nat) (f : Fld) (n : Nat) : (s.bump a f n).logRing = s.logRing := rfl
@[simp] theorem State.bump_cores (s : State) (a : Nat) (f : Fld) (n : Nat) : (s.bump a f n).cores = s.cores := rfl
@[simp] theorem State.bump_bells (s : State) (a : Nat) (f : Fld) (n : Nat) : (s.bump a f n).bells = s.bells := rfl
@[simp] theorem State.bump_node (s : State) (a : Nat) (f : Fld) (n : Nat) : (s.bump a f n).node = s.node := rfl
@[simp] theorem State.bump_tithes (s : State) (a : Nat) (f : Fld) (n : Nat) : (s.bump a f n).tithes = s.tithes := rfl
@[simp] theorem State.bump_gws (s : State) (a : Nat) (f : Fld) (n : Nat) : (s.bump a f n).gws = s.gws := rfl
@[simp] theorem State.bump_cfg (s : State) (a : Nat) (f : Fld) (n : Nat) : (s.bump a f n).cfg = s.cfg := rfl
@[simp] theorem State.bump_regions (s : State) (a : Nat) (f : Fld) (n : Nat) : (s.bump a f n).regions = s.regions := rfl
@[simp] theorem State.bump_tracePos (s : State) (a : Nat) (f : Fld) (n : Nat) : (s.bump a f n).tracePos = s.tracePos := rfl
@[simp] theorem State.bump_stackMem (s : State) (a : Nat) (f : Fld) (n : Nat) : (s.bump a f n).stackMem = s.stackMem := rfl
@[simp] theorem State.bump_bridgeMem (s : State) (a : Nat) (f : Fld) (n : Nat) : (s.bump a f n).bridgeMem = s.bridgeMem := rfl
@[simp] theorem State.bump_invPend (s : State) (a : Nat) (f : Fld) (n : Nat) : (s.bump a f n).invPend = s.invPend := rfl
@[simp] theorem State.bump_invAcks (s : State) (a : Nat) (f : Fld) (n : Nat) : (s.bump a f n).invAcks = s.invAcks := rfl
@[simp] theorem State.bump_pageBell (s : State) (a : Nat) (f : Fld) (n : Nat) : (s.bump a f n).pageBell = s.pageBell := rfl
@[simp] theorem State.bump_nextId (s : State) (a : Nat) (f : Fld) (n : Nat) : (s.bump a f n).nextId = s.nextId := rfl
@[simp] theorem State.bump_jobs (s : State) (a : Nat) (f : Fld) (n : Nat) : (s.bump a f n).jobs = s.jobs := rfl
@[simp] theorem State.bump_xfers (s : State) (a : Nat) (f : Fld) (n : Nat) : (s.bump a f n).xfers = s.xfers := rfl
@[simp] theorem State.bump_redSteps (s : State) (a : Nat) (f : Fld) (n : Nat) : (s.bump a f n).redSteps = s.redSteps := rfl
@[simp] theorem State.bump_runs (s : State) (a : Nat) (f : Fld) (n : Nat) : (s.bump a f n).runs = s.runs := rfl
@[simp] theorem State.bump_redBytes (s : State) (a : Nat) (f : Fld) (n : Nat) : (s.bump a f n).redBytes = s.redBytes := rfl
@[simp] theorem State.bump_seqs (s : State) (a : Nat) (f : Fld) (n : Nat) : (s.bump a f n).seqs = s.seqs := rfl
@[simp] theorem State.bump_sheetBell (s : State) (a : Nat) (f : Fld) (n : Nat) : (s.bump a f n).sheetBell = s.sheetBell := rfl
@[simp] theorem State.bump_sheetGot (s : State) (a : Nat) (f : Fld) (n : Nat) : (s.bump a f n).sheetGot = s.sheetGot := rfl
@[simp] theorem State.bump_rings (s : State) (a : Nat) (f : Fld) (n : Nat) : (s.bump a f n).rings = s.rings := rfl
@[simp] theorem State.bump_outs (s : State) (a : Nat) (f : Fld) (n : Nat) : (s.bump a f n).outs = s.outs := rfl
@[simp] theorem State.bump_brackets (s : State) (a : Nat) (f : Fld) (n : Nat) : (s.bump a f n).brackets = s.brackets := rfl
@[simp] theorem State.bump_links (s : State) (a : Nat) (f : Fld) (n : Nat) : (s.bump a f n).links = s.links := rfl
@[simp] theorem State.bump_restores (s : State) (a : Nat) (f : Fld) (n : Nat) : (s.bump a f n).restores = s.restores := rfl
@[simp] theorem State.bump_hostTake (s : State) (a : Nat) (f : Fld) (n : Nat) : (s.bump a f n).hostTake = s.hostTake := rfl
@[simp] theorem State.bump_ingress (s : State) (a : Nat) (f : Fld) (n : Nat) : (s.bump a f n).ingress = s.ingress := rfl
@[simp] theorem State.bump_egress (s : State) (a : Nat) (f : Fld) (n : Nat) : (s.bump a f n).egress = s.egress := rfl
@[simp] theorem State.bump_qpErr (s : State) (a : Nat) (f : Fld) (n : Nat) : (s.bump a f n).qpErr = s.qpErr := rfl
@[simp] theorem State.bump_qpRate (s : State) (a : Nat) (f : Fld) (n : Nat) : (s.bump a f n).qpRate = s.qpRate := rfl
@[simp] theorem State.bump_cnpAt (s : State) (a : Nat) (f : Fld) (n : Nat) : (s.bump a f n).cnpAt = s.cnpAt := rfl
@[simp] theorem State.bump_conf (s : State) (a : Nat) (f : Fld) (n : Nat) : (s.bump a f n).conf = s.conf := rfl
@[simp] theorem State.bump_sas (s : State) (a : Nat) (f : Fld) (n : Nat) : (s.bump a f n).sas = s.sas := rfl
@[simp] theorem State.bump_opkey (s : State) (a : Nat) (f : Fld) (n : Nat) : (s.bump a f n).opkey = s.opkey := rfl
@[simp] theorem State.bump_led (s : State) (a : Nat) (f : Fld) (n : Nat) : (s.bump a f n).led = s.led := rfl
@[simp] theorem State.bump_xings (s : State) (a : Nat) (f : Fld) (n : Nat) : (s.bump a f n).xings = s.xings := rfl
@[simp] theorem State.bump_vc (s : State) (a : Nat) (f : Fld) (n : Nat) : (s.bump a f n).vc = s.vc := rfl
@[simp] theorem State.bump_vcmp (s : State) (a : Nat) (f : Fld) (n : Nat) : (s.bump a f n).vcmp = s.vcmp := rfl
@[simp] theorem State.bump_retireQ (s : State) (a : Nat) (f : Fld) (n : Nat) : (s.bump a f n).retireQ = s.retireQ := rfl
@[simp] theorem State.bump_lit (s : State) (a : Nat) (f : Fld) (n : Nat) : (s.bump a f n).lit = s.lit := rfl
@[simp] theorem State.bump_rcal (s : State) (a : Nat) (f : Fld) (n : Nat) : (s.bump a f n).rcal = s.rcal := rfl
@[simp] theorem State.bump_combCal (s : State) (a : Nat) (f : Fld) (n : Nat) : (s.bump a f n).combCal = s.combCal := rfl
@[simp] theorem State.bump_calRej (s : State) (a : Nat) (f : Fld) (n : Nat) : (s.bump a f n).calRej = s.calRej := rfl
@[simp] theorem State.bump_calLast (s : State) (a : Nat) (f : Fld) (n : Nat) : (s.bump a f n).calLast = s.calLast := rfl
@[simp] theorem State.bump_sensOut (s : State) (a : Nat) (f : Fld) (n : Nat) : (s.bump a f n).sensOut = s.sensOut := rfl
@[simp] theorem State.bump_classes (s : State) (a : Nat) (f : Fld) (n : Nat) : (s.bump a f n).classes = s.classes := rfl
@[simp] theorem State.bump_resets (s : State) (a : Nat) (f : Fld) (n : Nat) : (s.bump a f n).resets = s.resets := rfl
@[simp] theorem State.bump_fieldAt (s : State) (a : Nat) (f : Fld) (n : Nat) : (s.bump a f n).fieldAt = s.fieldAt := rfl
@[simp] theorem State.bump_mapLag (s : State) (a : Nat) (f : Fld) (n : Nat) : (s.bump a f n).mapLag = s.mapLag := rfl
@[simp] theorem State.bump_rolePend (s : State) (a : Nat) (f : Fld) (n : Nat) : (s.bump a f n).rolePend = s.rolePend := rfl
@[simp] theorem State.bump_bondHalf (s : State) (a : Nat) (f : Fld) (n : Nat) : (s.bump a f n).bondHalf = s.bondHalf := rfl
@[simp] theorem State.bump_lms (s : State) (a : Nat) (f : Fld) (n : Nat) : (s.bump a f n).lms = s.lms := rfl
@[simp] theorem State.bump_attest (s : State) (a : Nat) (f : Fld) (n : Nat) : (s.bump a f n).attest = s.attest := rfl
@[simp] theorem State.bump_meas (s : State) (a : Nat) (f : Fld) (n : Nat) : (s.bump a f n).meas = s.meas := rfl
@[simp] theorem State.bump_opkeySeq (s : State) (a : Nat) (f : Fld) (n : Nat) : (s.bump a f n).opkeySeq = s.opkeySeq := rfl
@[simp] theorem State.bump_debugUsed (s : State) (a : Nat) (f : Fld) (n : Nat) : (s.bump a f n).debugUsed = s.debugUsed := rfl
@[simp] theorem State.bump_power (s : State) (a : Nat) (f : Fld) (n : Nat) : (s.bump a f n).power = s.power := rfl
@[simp] theorem State.bump_heat (s : State) (a : Nat) (f : Fld) (n : Nat) : (s.bump a f n).heat = s.heat := rfl
@[simp] theorem State.bump_pairAt (s : State) (a : Nat) (f : Fld) (n : Nat) : (s.bump a f n).pairAt = s.pairAt := rfl
@[simp] theorem State.bump_pairOff (s : State) (a : Nat) (f : Fld) (n : Nat) : (s.bump a f n).pairOff = s.pairOff := rfl
@[simp] theorem State.bump_pairLost (s : State) (a : Nat) (f : Fld) (n : Nat) : (s.bump a f n).pairLost = s.pairLost := rfl
@[simp] theorem State.bump_fast (s : State) (a : Nat) (f : Fld) (n : Nat) : (s.bump a f n).fast = s.fast := rfl
@[simp] theorem State.bump_jumpAt (s : State) (a : Nat) (f : Fld) (n : Nat) : (s.bump a f n).jumpAt = s.jumpAt := rfl
@[simp] theorem State.bump_tripped (s : State) (a : Nat) (f : Fld) (n : Nat) : (s.bump a f n).tripped = s.tripped := rfl
@[simp] theorem State.bump_trips (s : State) (a : Nat) (f : Fld) (n : Nat) : (s.bump a f n).trips = s.trips := rfl
@[simp] theorem State.bump_hbmSlow (s : State) (a : Nat) (f : Fld) (n : Nat) : (s.bump a f n).hbmSlow = s.hbmSlow := rfl
@[simp] theorem State.bump_fixed (s : State) (a : Nat) (f : Fld) (n : Nat) : (s.bump a f n).fixed = s.fixed := rfl
@[simp] theorem State.bump_firmware (s : State) (a : Nat) (f : Fld) (n : Nat) : (s.bump a f n).firmware = s.firmware := rfl
@[simp] theorem State.bump_sheetBase (s : State) (a : Nat) (f : Fld) (n : Nat) : (s.bump a f n).sheetBase = s.sheetBase := rfl
@[simp] theorem State.bump_reports (s : State) (a : Nat) (f : Fld) (n : Nat) : (s.bump a f n).reports = s.reports := rfl
@[simp] theorem State.bump_startedFor (s : State) (a : Nat) (f : Fld) (n : Nat) : (s.bump a f n).startedFor = s.startedFor := rfl
@[simp] theorem State.bump_ckv (s : State) (a : Nat) (f : Fld) (n : Nat) : (s.bump a f n).ckv = s.ckv := rfl
@[simp] theorem State.bump_mgmt (s : State) (a : Nat) (f : Fld) (n : Nat) : (s.bump a f n).mgmt = s.mgmt := rfl
@[simp] theorem State.bump_inbox (s : State) (a : Nat) (f : Fld) (n : Nat) : (s.bump a f n).inbox = s.inbox := rfl
@[simp] theorem State.bump_dynAddr (s : State) (a : Nat) (f : Fld) (n : Nat) : (s.bump a f n).dynAddr = s.dynAddr := rfl
@[simp] theorem State.bump_eid (s : State) (a : Nat) (f : Fld) (n : Nat) : (s.bump a f n).eid = s.eid := rfl
@[simp] theorem State.bump_tid (s : State) (a : Nat) (f : Fld) (n : Nat) : (s.bump a f n).tid = s.tid := rfl
@[simp] theorem State.bump_bscan (s : State) (a : Nat) (f : Fld) (n : Nat) : (s.bump a f n).bscan = s.bscan := rfl
@[simp] theorem State.bump_markers (s : State) (a : Nat) (f : Fld) (n : Nat) : (s.bump a f n).markers = s.markers := rfl
@[simp] theorem State.bump_draws (s : State) (a : Nat) (f : Fld) (n : Nat) : (s.bump a f n).draws = s.draws := rfl
@[simp] theorem State.bump_saPins (s : State) (a : Nat) (f : Fld) (n : Nat) : (s.bump a f n).saPins = s.saPins := rfl
@[simp] theorem State.bump_drains (s : State) (a : Nat) (f : Fld) (n : Nat) : (s.bump a f n).drains = s.drains := rfl
@[simp] theorem State.bump_portNext (s : State) (a : Nat) (f : Fld) (n : Nat) : (s.bump a f n).portNext = s.portNext := rfl
@[simp] theorem State.bump_heldOut (s : State) (a : Nat) (f : Fld) (n : Nat) : (s.bump a f n).heldOut = s.heldOut := rfl
@[simp] theorem State.bump_txAn (s : State) (a : Nat) (f : Fld) (n : Nat) : (s.bump a f n).txAn = s.txAn := rfl
@[simp] theorem State.bump_ckvBy (s : State) (a : Nat) (f : Fld) (n : Nat) : (s.bump a f n).ckvBy = s.ckvBy := rfl
@[simp] theorem State.bump_hostLines (s : State) (a : Nat) (f : Fld) (n : Nat) : (s.bump a f n).hostLines = s.hostLines := rfl
@[simp] theorem State.bump_hostResv (s : State) (a : Nat) (f : Fld) (n : Nat) : (s.bump a f n).hostResv = s.hostResv := rfl
@[simp] theorem State.bump_imsic (s : State) (a : Nat) (f : Fld) (n : Nat) : (s.bump a f n).imsic = s.imsic := rfl

@[simp] theorem State.emit_vt (s : State) (o : Output) : (s.emit o).vt = s.vt := rfl
@[simp] theorem State.emit_vtFrac (s : State) (o : Output) : (s.emit o).vtFrac = s.vtFrac := rfl
@[simp] theorem State.emit_rateTemp (s : State) (o : Output) : (s.emit o).rateTemp = s.rateTemp := rfl
@[simp] theorem State.emit_rateServo (s : State) (o : Output) : (s.emit o).rateServo = s.rateServo := rfl
@[simp] theorem State.emit_free (s : State) (o : Output) : (s.emit o).free = s.free := rfl
@[simp] theorem State.emit_pending (s : State) (o : Output) : (s.emit o).pending = s.pending := rfl
@[simp] theorem State.emit_regs (s : State) (o : Output) : (s.emit o).regs = s.regs := rfl
@[simp] theorem State.emit_rlatch (s : State) (o : Output) : (s.emit o).rlatch = s.rlatch := rfl
@[simp] theorem State.emit_wlatch (s : State) (o : Output) : (s.emit o).wlatch = s.wlatch := rfl
@[simp] theorem State.emit_ringSel (s : State) (o : Output) : (s.emit o).ringSel = s.ringSel := rfl
@[simp] theorem State.emit_wearSel (s : State) (o : Output) : (s.emit o).wearSel = s.wearSel := rfl
@[simp] theorem State.emit_mem (s : State) (o : Output) : (s.emit o).mem = s.mem := rfl
@[simp] theorem State.emit_grn (s : State) (o : Output) : (s.emit o).grn = s.grn := rfl
@[simp] theorem State.emit_wear (s : State) (o : Output) : (s.emit o).wear = s.wear := rfl
@[simp] theorem State.emit_log (s : State) (o : Output) : (s.emit o).log = s.log := rfl
@[simp] theorem State.emit_logBase (s : State) (o : Output) : (s.emit o).logBase = s.logBase := rfl
@[simp] theorem State.emit_logRead (s : State) (o : Output) : (s.emit o).logRead = s.logRead := rfl
@[simp] theorem State.emit_logRing (s : State) (o : Output) : (s.emit o).logRing = s.logRing := rfl
@[simp] theorem State.emit_cores (s : State) (o : Output) : (s.emit o).cores = s.cores := rfl
@[simp] theorem State.emit_bells (s : State) (o : Output) : (s.emit o).bells = s.bells := rfl
@[simp] theorem State.emit_node (s : State) (o : Output) : (s.emit o).node = s.node := rfl
@[simp] theorem State.emit_tithes (s : State) (o : Output) : (s.emit o).tithes = s.tithes := rfl
@[simp] theorem State.emit_gws (s : State) (o : Output) : (s.emit o).gws = s.gws := rfl
@[simp] theorem State.emit_cfg (s : State) (o : Output) : (s.emit o).cfg = s.cfg := rfl
@[simp] theorem State.emit_regions (s : State) (o : Output) : (s.emit o).regions = s.regions := rfl
@[simp] theorem State.emit_tracePos (s : State) (o : Output) : (s.emit o).tracePos = s.tracePos := rfl
@[simp] theorem State.emit_stackMem (s : State) (o : Output) : (s.emit o).stackMem = s.stackMem := rfl
@[simp] theorem State.emit_bridgeMem (s : State) (o : Output) : (s.emit o).bridgeMem = s.bridgeMem := rfl
@[simp] theorem State.emit_invPend (s : State) (o : Output) : (s.emit o).invPend = s.invPend := rfl
@[simp] theorem State.emit_invAcks (s : State) (o : Output) : (s.emit o).invAcks = s.invAcks := rfl
@[simp] theorem State.emit_pageBell (s : State) (o : Output) : (s.emit o).pageBell = s.pageBell := rfl
@[simp] theorem State.emit_nextId (s : State) (o : Output) : (s.emit o).nextId = s.nextId := rfl
@[simp] theorem State.emit_jobs (s : State) (o : Output) : (s.emit o).jobs = s.jobs := rfl
@[simp] theorem State.emit_xfers (s : State) (o : Output) : (s.emit o).xfers = s.xfers := rfl
@[simp] theorem State.emit_redSteps (s : State) (o : Output) : (s.emit o).redSteps = s.redSteps := rfl
@[simp] theorem State.emit_runs (s : State) (o : Output) : (s.emit o).runs = s.runs := rfl
@[simp] theorem State.emit_redBytes (s : State) (o : Output) : (s.emit o).redBytes = s.redBytes := rfl
@[simp] theorem State.emit_seqs (s : State) (o : Output) : (s.emit o).seqs = s.seqs := rfl
@[simp] theorem State.emit_sheetBell (s : State) (o : Output) : (s.emit o).sheetBell = s.sheetBell := rfl
@[simp] theorem State.emit_sheetGot (s : State) (o : Output) : (s.emit o).sheetGot = s.sheetGot := rfl
@[simp] theorem State.emit_rings (s : State) (o : Output) : (s.emit o).rings = s.rings := rfl
@[simp] theorem State.emit_outs (s : State) (o : Output) : (s.emit o).outs = s.outs := rfl
@[simp] theorem State.emit_brackets (s : State) (o : Output) : (s.emit o).brackets = s.brackets := rfl
@[simp] theorem State.emit_links (s : State) (o : Output) : (s.emit o).links = s.links := rfl
@[simp] theorem State.emit_restores (s : State) (o : Output) : (s.emit o).restores = s.restores := rfl
@[simp] theorem State.emit_hostTake (s : State) (o : Output) : (s.emit o).hostTake = s.hostTake := rfl
@[simp] theorem State.emit_ingress (s : State) (o : Output) : (s.emit o).ingress = s.ingress := rfl
@[simp] theorem State.emit_egress (s : State) (o : Output) : (s.emit o).egress = s.egress := rfl
@[simp] theorem State.emit_qpErr (s : State) (o : Output) : (s.emit o).qpErr = s.qpErr := rfl
@[simp] theorem State.emit_qpRate (s : State) (o : Output) : (s.emit o).qpRate = s.qpRate := rfl
@[simp] theorem State.emit_cnpAt (s : State) (o : Output) : (s.emit o).cnpAt = s.cnpAt := rfl
@[simp] theorem State.emit_conf (s : State) (o : Output) : (s.emit o).conf = s.conf := rfl
@[simp] theorem State.emit_sas (s : State) (o : Output) : (s.emit o).sas = s.sas := rfl
@[simp] theorem State.emit_opkey (s : State) (o : Output) : (s.emit o).opkey = s.opkey := rfl
@[simp] theorem State.emit_led (s : State) (o : Output) : (s.emit o).led = s.led := rfl
@[simp] theorem State.emit_xings (s : State) (o : Output) : (s.emit o).xings = s.xings := rfl
@[simp] theorem State.emit_vc (s : State) (o : Output) : (s.emit o).vc = s.vc := rfl
@[simp] theorem State.emit_vcmp (s : State) (o : Output) : (s.emit o).vcmp = s.vcmp := rfl
@[simp] theorem State.emit_retireQ (s : State) (o : Output) : (s.emit o).retireQ = s.retireQ := rfl
@[simp] theorem State.emit_lit (s : State) (o : Output) : (s.emit o).lit = s.lit := rfl
@[simp] theorem State.emit_rcal (s : State) (o : Output) : (s.emit o).rcal = s.rcal := rfl
@[simp] theorem State.emit_combCal (s : State) (o : Output) : (s.emit o).combCal = s.combCal := rfl
@[simp] theorem State.emit_calRej (s : State) (o : Output) : (s.emit o).calRej = s.calRej := rfl
@[simp] theorem State.emit_calLast (s : State) (o : Output) : (s.emit o).calLast = s.calLast := rfl
@[simp] theorem State.emit_sensOut (s : State) (o : Output) : (s.emit o).sensOut = s.sensOut := rfl
@[simp] theorem State.emit_classes (s : State) (o : Output) : (s.emit o).classes = s.classes := rfl
@[simp] theorem State.emit_resets (s : State) (o : Output) : (s.emit o).resets = s.resets := rfl
@[simp] theorem State.emit_fieldAt (s : State) (o : Output) : (s.emit o).fieldAt = s.fieldAt := rfl
@[simp] theorem State.emit_mapLag (s : State) (o : Output) : (s.emit o).mapLag = s.mapLag := rfl
@[simp] theorem State.emit_rolePend (s : State) (o : Output) : (s.emit o).rolePend = s.rolePend := rfl
@[simp] theorem State.emit_bondHalf (s : State) (o : Output) : (s.emit o).bondHalf = s.bondHalf := rfl
@[simp] theorem State.emit_lms (s : State) (o : Output) : (s.emit o).lms = s.lms := rfl
@[simp] theorem State.emit_attest (s : State) (o : Output) : (s.emit o).attest = s.attest := rfl
@[simp] theorem State.emit_meas (s : State) (o : Output) : (s.emit o).meas = s.meas := rfl
@[simp] theorem State.emit_opkeySeq (s : State) (o : Output) : (s.emit o).opkeySeq = s.opkeySeq := rfl
@[simp] theorem State.emit_debugUsed (s : State) (o : Output) : (s.emit o).debugUsed = s.debugUsed := rfl
@[simp] theorem State.emit_power (s : State) (o : Output) : (s.emit o).power = s.power := rfl
@[simp] theorem State.emit_heat (s : State) (o : Output) : (s.emit o).heat = s.heat := rfl
@[simp] theorem State.emit_pairAt (s : State) (o : Output) : (s.emit o).pairAt = s.pairAt := rfl
@[simp] theorem State.emit_pairOff (s : State) (o : Output) : (s.emit o).pairOff = s.pairOff := rfl
@[simp] theorem State.emit_pairLost (s : State) (o : Output) : (s.emit o).pairLost = s.pairLost := rfl
@[simp] theorem State.emit_fast (s : State) (o : Output) : (s.emit o).fast = s.fast := rfl
@[simp] theorem State.emit_jumpAt (s : State) (o : Output) : (s.emit o).jumpAt = s.jumpAt := rfl
@[simp] theorem State.emit_tripped (s : State) (o : Output) : (s.emit o).tripped = s.tripped := rfl
@[simp] theorem State.emit_trips (s : State) (o : Output) : (s.emit o).trips = s.trips := rfl
@[simp] theorem State.emit_hbmSlow (s : State) (o : Output) : (s.emit o).hbmSlow = s.hbmSlow := rfl
@[simp] theorem State.emit_fixed (s : State) (o : Output) : (s.emit o).fixed = s.fixed := rfl
@[simp] theorem State.emit_firmware (s : State) (o : Output) : (s.emit o).firmware = s.firmware := rfl
@[simp] theorem State.emit_sheetBase (s : State) (o : Output) : (s.emit o).sheetBase = s.sheetBase := rfl
@[simp] theorem State.emit_reports (s : State) (o : Output) : (s.emit o).reports = s.reports := rfl
@[simp] theorem State.emit_startedFor (s : State) (o : Output) : (s.emit o).startedFor = s.startedFor := rfl
@[simp] theorem State.emit_ckv (s : State) (o : Output) : (s.emit o).ckv = s.ckv := rfl
@[simp] theorem State.emit_mgmt (s : State) (o : Output) : (s.emit o).mgmt = s.mgmt := rfl
@[simp] theorem State.emit_inbox (s : State) (o : Output) : (s.emit o).inbox = s.inbox := rfl
@[simp] theorem State.emit_dynAddr (s : State) (o : Output) : (s.emit o).dynAddr = s.dynAddr := rfl
@[simp] theorem State.emit_eid (s : State) (o : Output) : (s.emit o).eid = s.eid := rfl
@[simp] theorem State.emit_tid (s : State) (o : Output) : (s.emit o).tid = s.tid := rfl
@[simp] theorem State.emit_bscan (s : State) (o : Output) : (s.emit o).bscan = s.bscan := rfl
@[simp] theorem State.emit_markers (s : State) (o : Output) : (s.emit o).markers = s.markers := rfl
@[simp] theorem State.emit_draws (s : State) (o : Output) : (s.emit o).draws = s.draws := rfl
@[simp] theorem State.emit_saPins (s : State) (o : Output) : (s.emit o).saPins = s.saPins := rfl
@[simp] theorem State.emit_drains (s : State) (o : Output) : (s.emit o).drains = s.drains := rfl
@[simp] theorem State.emit_portNext (s : State) (o : Output) : (s.emit o).portNext = s.portNext := rfl
@[simp] theorem State.emit_heldOut (s : State) (o : Output) : (s.emit o).heldOut = s.heldOut := rfl
@[simp] theorem State.emit_txAn (s : State) (o : Output) : (s.emit o).txAn = s.txAn := rfl
@[simp] theorem State.emit_ckvBy (s : State) (o : Output) : (s.emit o).ckvBy = s.ckvBy := rfl
@[simp] theorem State.emit_hostLines (s : State) (o : Output) : (s.emit o).hostLines = s.hostLines := rfl
@[simp] theorem State.emit_hostResv (s : State) (o : Output) : (s.emit o).hostResv = s.hostResv := rfl
@[simp] theorem State.emit_imsic (s : State) (o : Output) : (s.emit o).imsic = s.imsic := rfl

@[simp] theorem State.writeMem_vt (s : State) (i off : Nat) (bs : List Byte) : (s.writeMem i off bs).vt = s.vt := rfl
@[simp] theorem State.writeMem_vtFrac (s : State) (i off : Nat) (bs : List Byte) : (s.writeMem i off bs).vtFrac = s.vtFrac := rfl
@[simp] theorem State.writeMem_rateTemp (s : State) (i off : Nat) (bs : List Byte) : (s.writeMem i off bs).rateTemp = s.rateTemp := rfl
@[simp] theorem State.writeMem_rateServo (s : State) (i off : Nat) (bs : List Byte) : (s.writeMem i off bs).rateServo = s.rateServo := rfl
@[simp] theorem State.writeMem_free (s : State) (i off : Nat) (bs : List Byte) : (s.writeMem i off bs).free = s.free := rfl
@[simp] theorem State.writeMem_pending (s : State) (i off : Nat) (bs : List Byte) : (s.writeMem i off bs).pending = s.pending := rfl
@[simp] theorem State.writeMem_out (s : State) (i off : Nat) (bs : List Byte) : (s.writeMem i off bs).out = s.out := rfl
@[simp] theorem State.writeMem_regs (s : State) (i off : Nat) (bs : List Byte) : (s.writeMem i off bs).regs = s.regs := rfl
@[simp] theorem State.writeMem_rlatch (s : State) (i off : Nat) (bs : List Byte) : (s.writeMem i off bs).rlatch = s.rlatch := rfl
@[simp] theorem State.writeMem_wlatch (s : State) (i off : Nat) (bs : List Byte) : (s.writeMem i off bs).wlatch = s.wlatch := rfl
@[simp] theorem State.writeMem_ringSel (s : State) (i off : Nat) (bs : List Byte) : (s.writeMem i off bs).ringSel = s.ringSel := rfl
@[simp] theorem State.writeMem_wearSel (s : State) (i off : Nat) (bs : List Byte) : (s.writeMem i off bs).wearSel = s.wearSel := rfl
@[simp] theorem State.writeMem_grn (s : State) (i off : Nat) (bs : List Byte) : (s.writeMem i off bs).grn = s.grn := rfl
@[simp] theorem State.writeMem_wear (s : State) (i off : Nat) (bs : List Byte) : (s.writeMem i off bs).wear = s.wear := rfl
@[simp] theorem State.writeMem_log (s : State) (i off : Nat) (bs : List Byte) : (s.writeMem i off bs).log = s.log := rfl
@[simp] theorem State.writeMem_logBase (s : State) (i off : Nat) (bs : List Byte) : (s.writeMem i off bs).logBase = s.logBase := rfl
@[simp] theorem State.writeMem_logRead (s : State) (i off : Nat) (bs : List Byte) : (s.writeMem i off bs).logRead = s.logRead := rfl
@[simp] theorem State.writeMem_logRing (s : State) (i off : Nat) (bs : List Byte) : (s.writeMem i off bs).logRing = s.logRing := rfl
@[simp] theorem State.writeMem_cores (s : State) (i off : Nat) (bs : List Byte) : (s.writeMem i off bs).cores = s.cores := rfl
@[simp] theorem State.writeMem_bells (s : State) (i off : Nat) (bs : List Byte) : (s.writeMem i off bs).bells = s.bells := rfl
@[simp] theorem State.writeMem_node (s : State) (i off : Nat) (bs : List Byte) : (s.writeMem i off bs).node = s.node := rfl
@[simp] theorem State.writeMem_tithes (s : State) (i off : Nat) (bs : List Byte) : (s.writeMem i off bs).tithes = s.tithes := rfl
@[simp] theorem State.writeMem_gws (s : State) (i off : Nat) (bs : List Byte) : (s.writeMem i off bs).gws = s.gws := rfl
@[simp] theorem State.writeMem_cfg (s : State) (i off : Nat) (bs : List Byte) : (s.writeMem i off bs).cfg = s.cfg := rfl
@[simp] theorem State.writeMem_regions (s : State) (i off : Nat) (bs : List Byte) : (s.writeMem i off bs).regions = s.regions := rfl
@[simp] theorem State.writeMem_tracePos (s : State) (i off : Nat) (bs : List Byte) : (s.writeMem i off bs).tracePos = s.tracePos := rfl
@[simp] theorem State.writeMem_stackMem (s : State) (i off : Nat) (bs : List Byte) : (s.writeMem i off bs).stackMem = s.stackMem := rfl
@[simp] theorem State.writeMem_bridgeMem (s : State) (i off : Nat) (bs : List Byte) : (s.writeMem i off bs).bridgeMem = s.bridgeMem := rfl
@[simp] theorem State.writeMem_invPend (s : State) (i off : Nat) (bs : List Byte) : (s.writeMem i off bs).invPend = s.invPend := rfl
@[simp] theorem State.writeMem_invAcks (s : State) (i off : Nat) (bs : List Byte) : (s.writeMem i off bs).invAcks = s.invAcks := rfl
@[simp] theorem State.writeMem_pageBell (s : State) (i off : Nat) (bs : List Byte) : (s.writeMem i off bs).pageBell = s.pageBell := rfl
@[simp] theorem State.writeMem_nextId (s : State) (i off : Nat) (bs : List Byte) : (s.writeMem i off bs).nextId = s.nextId := rfl
@[simp] theorem State.writeMem_jobs (s : State) (i off : Nat) (bs : List Byte) : (s.writeMem i off bs).jobs = s.jobs := rfl
@[simp] theorem State.writeMem_xfers (s : State) (i off : Nat) (bs : List Byte) : (s.writeMem i off bs).xfers = s.xfers := rfl
@[simp] theorem State.writeMem_redSteps (s : State) (i off : Nat) (bs : List Byte) : (s.writeMem i off bs).redSteps = s.redSteps := rfl
@[simp] theorem State.writeMem_runs (s : State) (i off : Nat) (bs : List Byte) : (s.writeMem i off bs).runs = s.runs := rfl
@[simp] theorem State.writeMem_redBytes (s : State) (i off : Nat) (bs : List Byte) : (s.writeMem i off bs).redBytes = s.redBytes := rfl
@[simp] theorem State.writeMem_seqs (s : State) (i off : Nat) (bs : List Byte) : (s.writeMem i off bs).seqs = s.seqs := rfl
@[simp] theorem State.writeMem_sheetBell (s : State) (i off : Nat) (bs : List Byte) : (s.writeMem i off bs).sheetBell = s.sheetBell := rfl
@[simp] theorem State.writeMem_sheetGot (s : State) (i off : Nat) (bs : List Byte) : (s.writeMem i off bs).sheetGot = s.sheetGot := rfl
@[simp] theorem State.writeMem_rings (s : State) (i off : Nat) (bs : List Byte) : (s.writeMem i off bs).rings = s.rings := rfl
@[simp] theorem State.writeMem_outs (s : State) (i off : Nat) (bs : List Byte) : (s.writeMem i off bs).outs = s.outs := rfl
@[simp] theorem State.writeMem_brackets (s : State) (i off : Nat) (bs : List Byte) : (s.writeMem i off bs).brackets = s.brackets := rfl
@[simp] theorem State.writeMem_links (s : State) (i off : Nat) (bs : List Byte) : (s.writeMem i off bs).links = s.links := rfl
@[simp] theorem State.writeMem_restores (s : State) (i off : Nat) (bs : List Byte) : (s.writeMem i off bs).restores = s.restores := rfl
@[simp] theorem State.writeMem_hostTake (s : State) (i off : Nat) (bs : List Byte) : (s.writeMem i off bs).hostTake = s.hostTake := rfl
@[simp] theorem State.writeMem_ingress (s : State) (i off : Nat) (bs : List Byte) : (s.writeMem i off bs).ingress = s.ingress := rfl
@[simp] theorem State.writeMem_egress (s : State) (i off : Nat) (bs : List Byte) : (s.writeMem i off bs).egress = s.egress := rfl
@[simp] theorem State.writeMem_qpErr (s : State) (i off : Nat) (bs : List Byte) : (s.writeMem i off bs).qpErr = s.qpErr := rfl
@[simp] theorem State.writeMem_qpRate (s : State) (i off : Nat) (bs : List Byte) : (s.writeMem i off bs).qpRate = s.qpRate := rfl
@[simp] theorem State.writeMem_cnpAt (s : State) (i off : Nat) (bs : List Byte) : (s.writeMem i off bs).cnpAt = s.cnpAt := rfl
@[simp] theorem State.writeMem_conf (s : State) (i off : Nat) (bs : List Byte) : (s.writeMem i off bs).conf = s.conf := rfl
@[simp] theorem State.writeMem_sas (s : State) (i off : Nat) (bs : List Byte) : (s.writeMem i off bs).sas = s.sas := rfl
@[simp] theorem State.writeMem_opkey (s : State) (i off : Nat) (bs : List Byte) : (s.writeMem i off bs).opkey = s.opkey := rfl
@[simp] theorem State.writeMem_led (s : State) (i off : Nat) (bs : List Byte) : (s.writeMem i off bs).led = s.led := rfl
@[simp] theorem State.writeMem_xings (s : State) (i off : Nat) (bs : List Byte) : (s.writeMem i off bs).xings = s.xings := rfl
@[simp] theorem State.writeMem_vc (s : State) (i off : Nat) (bs : List Byte) : (s.writeMem i off bs).vc = s.vc := rfl
@[simp] theorem State.writeMem_vcmp (s : State) (i off : Nat) (bs : List Byte) : (s.writeMem i off bs).vcmp = s.vcmp := rfl
@[simp] theorem State.writeMem_retireQ (s : State) (i off : Nat) (bs : List Byte) : (s.writeMem i off bs).retireQ = s.retireQ := rfl
@[simp] theorem State.writeMem_lit (s : State) (i off : Nat) (bs : List Byte) : (s.writeMem i off bs).lit = s.lit := rfl
@[simp] theorem State.writeMem_rcal (s : State) (i off : Nat) (bs : List Byte) : (s.writeMem i off bs).rcal = s.rcal := rfl
@[simp] theorem State.writeMem_combCal (s : State) (i off : Nat) (bs : List Byte) : (s.writeMem i off bs).combCal = s.combCal := rfl
@[simp] theorem State.writeMem_calRej (s : State) (i off : Nat) (bs : List Byte) : (s.writeMem i off bs).calRej = s.calRej := rfl
@[simp] theorem State.writeMem_calLast (s : State) (i off : Nat) (bs : List Byte) : (s.writeMem i off bs).calLast = s.calLast := rfl
@[simp] theorem State.writeMem_sensOut (s : State) (i off : Nat) (bs : List Byte) : (s.writeMem i off bs).sensOut = s.sensOut := rfl
@[simp] theorem State.writeMem_classes (s : State) (i off : Nat) (bs : List Byte) : (s.writeMem i off bs).classes = s.classes := rfl
@[simp] theorem State.writeMem_resets (s : State) (i off : Nat) (bs : List Byte) : (s.writeMem i off bs).resets = s.resets := rfl
@[simp] theorem State.writeMem_fieldAt (s : State) (i off : Nat) (bs : List Byte) : (s.writeMem i off bs).fieldAt = s.fieldAt := rfl
@[simp] theorem State.writeMem_mapLag (s : State) (i off : Nat) (bs : List Byte) : (s.writeMem i off bs).mapLag = s.mapLag := rfl
@[simp] theorem State.writeMem_rolePend (s : State) (i off : Nat) (bs : List Byte) : (s.writeMem i off bs).rolePend = s.rolePend := rfl
@[simp] theorem State.writeMem_bondHalf (s : State) (i off : Nat) (bs : List Byte) : (s.writeMem i off bs).bondHalf = s.bondHalf := rfl
@[simp] theorem State.writeMem_lms (s : State) (i off : Nat) (bs : List Byte) : (s.writeMem i off bs).lms = s.lms := rfl
@[simp] theorem State.writeMem_attest (s : State) (i off : Nat) (bs : List Byte) : (s.writeMem i off bs).attest = s.attest := rfl
@[simp] theorem State.writeMem_meas (s : State) (i off : Nat) (bs : List Byte) : (s.writeMem i off bs).meas = s.meas := rfl
@[simp] theorem State.writeMem_opkeySeq (s : State) (i off : Nat) (bs : List Byte) : (s.writeMem i off bs).opkeySeq = s.opkeySeq := rfl
@[simp] theorem State.writeMem_debugUsed (s : State) (i off : Nat) (bs : List Byte) : (s.writeMem i off bs).debugUsed = s.debugUsed := rfl
@[simp] theorem State.writeMem_power (s : State) (i off : Nat) (bs : List Byte) : (s.writeMem i off bs).power = s.power := rfl
@[simp] theorem State.writeMem_heat (s : State) (i off : Nat) (bs : List Byte) : (s.writeMem i off bs).heat = s.heat := rfl
@[simp] theorem State.writeMem_pairAt (s : State) (i off : Nat) (bs : List Byte) : (s.writeMem i off bs).pairAt = s.pairAt := rfl
@[simp] theorem State.writeMem_pairOff (s : State) (i off : Nat) (bs : List Byte) : (s.writeMem i off bs).pairOff = s.pairOff := rfl
@[simp] theorem State.writeMem_pairLost (s : State) (i off : Nat) (bs : List Byte) : (s.writeMem i off bs).pairLost = s.pairLost := rfl
@[simp] theorem State.writeMem_fast (s : State) (i off : Nat) (bs : List Byte) : (s.writeMem i off bs).fast = s.fast := rfl
@[simp] theorem State.writeMem_jumpAt (s : State) (i off : Nat) (bs : List Byte) : (s.writeMem i off bs).jumpAt = s.jumpAt := rfl
@[simp] theorem State.writeMem_tripped (s : State) (i off : Nat) (bs : List Byte) : (s.writeMem i off bs).tripped = s.tripped := rfl
@[simp] theorem State.writeMem_trips (s : State) (i off : Nat) (bs : List Byte) : (s.writeMem i off bs).trips = s.trips := rfl
@[simp] theorem State.writeMem_hbmSlow (s : State) (i off : Nat) (bs : List Byte) : (s.writeMem i off bs).hbmSlow = s.hbmSlow := rfl
@[simp] theorem State.writeMem_fixed (s : State) (i off : Nat) (bs : List Byte) : (s.writeMem i off bs).fixed = s.fixed := rfl
@[simp] theorem State.writeMem_firmware (s : State) (i off : Nat) (bs : List Byte) : (s.writeMem i off bs).firmware = s.firmware := rfl
@[simp] theorem State.writeMem_sheetBase (s : State) (i off : Nat) (bs : List Byte) : (s.writeMem i off bs).sheetBase = s.sheetBase := rfl
@[simp] theorem State.writeMem_reports (s : State) (i off : Nat) (bs : List Byte) : (s.writeMem i off bs).reports = s.reports := rfl
@[simp] theorem State.writeMem_startedFor (s : State) (i off : Nat) (bs : List Byte) : (s.writeMem i off bs).startedFor = s.startedFor := rfl
@[simp] theorem State.writeMem_ckv (s : State) (i off : Nat) (bs : List Byte) : (s.writeMem i off bs).ckv = s.ckv := rfl
@[simp] theorem State.writeMem_mgmt (s : State) (i off : Nat) (bs : List Byte) : (s.writeMem i off bs).mgmt = s.mgmt := rfl
@[simp] theorem State.writeMem_inbox (s : State) (i off : Nat) (bs : List Byte) : (s.writeMem i off bs).inbox = s.inbox := rfl
@[simp] theorem State.writeMem_dynAddr (s : State) (i off : Nat) (bs : List Byte) : (s.writeMem i off bs).dynAddr = s.dynAddr := rfl
@[simp] theorem State.writeMem_eid (s : State) (i off : Nat) (bs : List Byte) : (s.writeMem i off bs).eid = s.eid := rfl
@[simp] theorem State.writeMem_tid (s : State) (i off : Nat) (bs : List Byte) : (s.writeMem i off bs).tid = s.tid := rfl
@[simp] theorem State.writeMem_bscan (s : State) (i off : Nat) (bs : List Byte) : (s.writeMem i off bs).bscan = s.bscan := rfl
@[simp] theorem State.writeMem_markers (s : State) (i off : Nat) (bs : List Byte) : (s.writeMem i off bs).markers = s.markers := rfl
@[simp] theorem State.writeMem_draws (s : State) (i off : Nat) (bs : List Byte) : (s.writeMem i off bs).draws = s.draws := rfl
@[simp] theorem State.writeMem_saPins (s : State) (i off : Nat) (bs : List Byte) : (s.writeMem i off bs).saPins = s.saPins := rfl
@[simp] theorem State.writeMem_drains (s : State) (i off : Nat) (bs : List Byte) : (s.writeMem i off bs).drains = s.drains := rfl
@[simp] theorem State.writeMem_portNext (s : State) (i off : Nat) (bs : List Byte) : (s.writeMem i off bs).portNext = s.portNext := rfl
@[simp] theorem State.writeMem_heldOut (s : State) (i off : Nat) (bs : List Byte) : (s.writeMem i off bs).heldOut = s.heldOut := rfl
@[simp] theorem State.writeMem_txAn (s : State) (i off : Nat) (bs : List Byte) : (s.writeMem i off bs).txAn = s.txAn := rfl
@[simp] theorem State.writeMem_ckvBy (s : State) (i off : Nat) (bs : List Byte) : (s.writeMem i off bs).ckvBy = s.ckvBy := rfl
@[simp] theorem State.writeMem_hostLines (s : State) (i off : Nat) (bs : List Byte) : (s.writeMem i off bs).hostLines = s.hostLines := rfl
@[simp] theorem State.writeMem_hostResv (s : State) (i off : Nat) (bs : List Byte) : (s.writeMem i off bs).hostResv = s.hostResv := rfl
@[simp] theorem State.writeMem_imsic (s : State) (i off : Nat) (bs : List Byte) : (s.writeMem i off bs).imsic = s.imsic := rfl

@[simp] theorem State.zeroMem_vt (s : State) (i off n : Nat) : (s.zeroMem i off n).vt = s.vt := rfl
@[simp] theorem State.zeroMem_vtFrac (s : State) (i off n : Nat) : (s.zeroMem i off n).vtFrac = s.vtFrac := rfl
@[simp] theorem State.zeroMem_rateTemp (s : State) (i off n : Nat) : (s.zeroMem i off n).rateTemp = s.rateTemp := rfl
@[simp] theorem State.zeroMem_rateServo (s : State) (i off n : Nat) : (s.zeroMem i off n).rateServo = s.rateServo := rfl
@[simp] theorem State.zeroMem_free (s : State) (i off n : Nat) : (s.zeroMem i off n).free = s.free := rfl
@[simp] theorem State.zeroMem_pending (s : State) (i off n : Nat) : (s.zeroMem i off n).pending = s.pending := rfl
@[simp] theorem State.zeroMem_out (s : State) (i off n : Nat) : (s.zeroMem i off n).out = s.out := rfl
@[simp] theorem State.zeroMem_regs (s : State) (i off n : Nat) : (s.zeroMem i off n).regs = s.regs := rfl
@[simp] theorem State.zeroMem_rlatch (s : State) (i off n : Nat) : (s.zeroMem i off n).rlatch = s.rlatch := rfl
@[simp] theorem State.zeroMem_wlatch (s : State) (i off n : Nat) : (s.zeroMem i off n).wlatch = s.wlatch := rfl
@[simp] theorem State.zeroMem_ringSel (s : State) (i off n : Nat) : (s.zeroMem i off n).ringSel = s.ringSel := rfl
@[simp] theorem State.zeroMem_wearSel (s : State) (i off n : Nat) : (s.zeroMem i off n).wearSel = s.wearSel := rfl
@[simp] theorem State.zeroMem_grn (s : State) (i off n : Nat) : (s.zeroMem i off n).grn = s.grn := rfl
@[simp] theorem State.zeroMem_wear (s : State) (i off n : Nat) : (s.zeroMem i off n).wear = s.wear := rfl
@[simp] theorem State.zeroMem_log (s : State) (i off n : Nat) : (s.zeroMem i off n).log = s.log := rfl
@[simp] theorem State.zeroMem_logBase (s : State) (i off n : Nat) : (s.zeroMem i off n).logBase = s.logBase := rfl
@[simp] theorem State.zeroMem_logRead (s : State) (i off n : Nat) : (s.zeroMem i off n).logRead = s.logRead := rfl
@[simp] theorem State.zeroMem_logRing (s : State) (i off n : Nat) : (s.zeroMem i off n).logRing = s.logRing := rfl
@[simp] theorem State.zeroMem_cores (s : State) (i off n : Nat) : (s.zeroMem i off n).cores = s.cores := rfl
@[simp] theorem State.zeroMem_bells (s : State) (i off n : Nat) : (s.zeroMem i off n).bells = s.bells := rfl
@[simp] theorem State.zeroMem_node (s : State) (i off n : Nat) : (s.zeroMem i off n).node = s.node := rfl
@[simp] theorem State.zeroMem_tithes (s : State) (i off n : Nat) : (s.zeroMem i off n).tithes = s.tithes := rfl
@[simp] theorem State.zeroMem_gws (s : State) (i off n : Nat) : (s.zeroMem i off n).gws = s.gws := rfl
@[simp] theorem State.zeroMem_cfg (s : State) (i off n : Nat) : (s.zeroMem i off n).cfg = s.cfg := rfl
@[simp] theorem State.zeroMem_regions (s : State) (i off n : Nat) : (s.zeroMem i off n).regions = s.regions := rfl
@[simp] theorem State.zeroMem_tracePos (s : State) (i off n : Nat) : (s.zeroMem i off n).tracePos = s.tracePos := rfl
@[simp] theorem State.zeroMem_stackMem (s : State) (i off n : Nat) : (s.zeroMem i off n).stackMem = s.stackMem := rfl
@[simp] theorem State.zeroMem_bridgeMem (s : State) (i off n : Nat) : (s.zeroMem i off n).bridgeMem = s.bridgeMem := rfl
@[simp] theorem State.zeroMem_invPend (s : State) (i off n : Nat) : (s.zeroMem i off n).invPend = s.invPend := rfl
@[simp] theorem State.zeroMem_invAcks (s : State) (i off n : Nat) : (s.zeroMem i off n).invAcks = s.invAcks := rfl
@[simp] theorem State.zeroMem_pageBell (s : State) (i off n : Nat) : (s.zeroMem i off n).pageBell = s.pageBell := rfl
@[simp] theorem State.zeroMem_nextId (s : State) (i off n : Nat) : (s.zeroMem i off n).nextId = s.nextId := rfl
@[simp] theorem State.zeroMem_jobs (s : State) (i off n : Nat) : (s.zeroMem i off n).jobs = s.jobs := rfl
@[simp] theorem State.zeroMem_xfers (s : State) (i off n : Nat) : (s.zeroMem i off n).xfers = s.xfers := rfl
@[simp] theorem State.zeroMem_redSteps (s : State) (i off n : Nat) : (s.zeroMem i off n).redSteps = s.redSteps := rfl
@[simp] theorem State.zeroMem_runs (s : State) (i off n : Nat) : (s.zeroMem i off n).runs = s.runs := rfl
@[simp] theorem State.zeroMem_redBytes (s : State) (i off n : Nat) : (s.zeroMem i off n).redBytes = s.redBytes := rfl
@[simp] theorem State.zeroMem_seqs (s : State) (i off n : Nat) : (s.zeroMem i off n).seqs = s.seqs := rfl
@[simp] theorem State.zeroMem_sheetBell (s : State) (i off n : Nat) : (s.zeroMem i off n).sheetBell = s.sheetBell := rfl
@[simp] theorem State.zeroMem_sheetGot (s : State) (i off n : Nat) : (s.zeroMem i off n).sheetGot = s.sheetGot := rfl
@[simp] theorem State.zeroMem_rings (s : State) (i off n : Nat) : (s.zeroMem i off n).rings = s.rings := rfl
@[simp] theorem State.zeroMem_outs (s : State) (i off n : Nat) : (s.zeroMem i off n).outs = s.outs := rfl
@[simp] theorem State.zeroMem_brackets (s : State) (i off n : Nat) : (s.zeroMem i off n).brackets = s.brackets := rfl
@[simp] theorem State.zeroMem_links (s : State) (i off n : Nat) : (s.zeroMem i off n).links = s.links := rfl
@[simp] theorem State.zeroMem_restores (s : State) (i off n : Nat) : (s.zeroMem i off n).restores = s.restores := rfl
@[simp] theorem State.zeroMem_hostTake (s : State) (i off n : Nat) : (s.zeroMem i off n).hostTake = s.hostTake := rfl
@[simp] theorem State.zeroMem_ingress (s : State) (i off n : Nat) : (s.zeroMem i off n).ingress = s.ingress := rfl
@[simp] theorem State.zeroMem_egress (s : State) (i off n : Nat) : (s.zeroMem i off n).egress = s.egress := rfl
@[simp] theorem State.zeroMem_qpErr (s : State) (i off n : Nat) : (s.zeroMem i off n).qpErr = s.qpErr := rfl
@[simp] theorem State.zeroMem_qpRate (s : State) (i off n : Nat) : (s.zeroMem i off n).qpRate = s.qpRate := rfl
@[simp] theorem State.zeroMem_cnpAt (s : State) (i off n : Nat) : (s.zeroMem i off n).cnpAt = s.cnpAt := rfl
@[simp] theorem State.zeroMem_conf (s : State) (i off n : Nat) : (s.zeroMem i off n).conf = s.conf := rfl
@[simp] theorem State.zeroMem_sas (s : State) (i off n : Nat) : (s.zeroMem i off n).sas = s.sas := rfl
@[simp] theorem State.zeroMem_opkey (s : State) (i off n : Nat) : (s.zeroMem i off n).opkey = s.opkey := rfl
@[simp] theorem State.zeroMem_led (s : State) (i off n : Nat) : (s.zeroMem i off n).led = s.led := rfl
@[simp] theorem State.zeroMem_xings (s : State) (i off n : Nat) : (s.zeroMem i off n).xings = s.xings := rfl
@[simp] theorem State.zeroMem_vc (s : State) (i off n : Nat) : (s.zeroMem i off n).vc = s.vc := rfl
@[simp] theorem State.zeroMem_vcmp (s : State) (i off n : Nat) : (s.zeroMem i off n).vcmp = s.vcmp := rfl
@[simp] theorem State.zeroMem_retireQ (s : State) (i off n : Nat) : (s.zeroMem i off n).retireQ = s.retireQ := rfl
@[simp] theorem State.zeroMem_lit (s : State) (i off n : Nat) : (s.zeroMem i off n).lit = s.lit := rfl
@[simp] theorem State.zeroMem_rcal (s : State) (i off n : Nat) : (s.zeroMem i off n).rcal = s.rcal := rfl
@[simp] theorem State.zeroMem_combCal (s : State) (i off n : Nat) : (s.zeroMem i off n).combCal = s.combCal := rfl
@[simp] theorem State.zeroMem_calRej (s : State) (i off n : Nat) : (s.zeroMem i off n).calRej = s.calRej := rfl
@[simp] theorem State.zeroMem_calLast (s : State) (i off n : Nat) : (s.zeroMem i off n).calLast = s.calLast := rfl
@[simp] theorem State.zeroMem_sensOut (s : State) (i off n : Nat) : (s.zeroMem i off n).sensOut = s.sensOut := rfl
@[simp] theorem State.zeroMem_classes (s : State) (i off n : Nat) : (s.zeroMem i off n).classes = s.classes := rfl
@[simp] theorem State.zeroMem_resets (s : State) (i off n : Nat) : (s.zeroMem i off n).resets = s.resets := rfl
@[simp] theorem State.zeroMem_fieldAt (s : State) (i off n : Nat) : (s.zeroMem i off n).fieldAt = s.fieldAt := rfl
@[simp] theorem State.zeroMem_mapLag (s : State) (i off n : Nat) : (s.zeroMem i off n).mapLag = s.mapLag := rfl
@[simp] theorem State.zeroMem_rolePend (s : State) (i off n : Nat) : (s.zeroMem i off n).rolePend = s.rolePend := rfl
@[simp] theorem State.zeroMem_bondHalf (s : State) (i off n : Nat) : (s.zeroMem i off n).bondHalf = s.bondHalf := rfl
@[simp] theorem State.zeroMem_lms (s : State) (i off n : Nat) : (s.zeroMem i off n).lms = s.lms := rfl
@[simp] theorem State.zeroMem_attest (s : State) (i off n : Nat) : (s.zeroMem i off n).attest = s.attest := rfl
@[simp] theorem State.zeroMem_meas (s : State) (i off n : Nat) : (s.zeroMem i off n).meas = s.meas := rfl
@[simp] theorem State.zeroMem_opkeySeq (s : State) (i off n : Nat) : (s.zeroMem i off n).opkeySeq = s.opkeySeq := rfl
@[simp] theorem State.zeroMem_debugUsed (s : State) (i off n : Nat) : (s.zeroMem i off n).debugUsed = s.debugUsed := rfl
@[simp] theorem State.zeroMem_power (s : State) (i off n : Nat) : (s.zeroMem i off n).power = s.power := rfl
@[simp] theorem State.zeroMem_heat (s : State) (i off n : Nat) : (s.zeroMem i off n).heat = s.heat := rfl
@[simp] theorem State.zeroMem_pairAt (s : State) (i off n : Nat) : (s.zeroMem i off n).pairAt = s.pairAt := rfl
@[simp] theorem State.zeroMem_pairOff (s : State) (i off n : Nat) : (s.zeroMem i off n).pairOff = s.pairOff := rfl
@[simp] theorem State.zeroMem_pairLost (s : State) (i off n : Nat) : (s.zeroMem i off n).pairLost = s.pairLost := rfl
@[simp] theorem State.zeroMem_fast (s : State) (i off n : Nat) : (s.zeroMem i off n).fast = s.fast := rfl
@[simp] theorem State.zeroMem_jumpAt (s : State) (i off n : Nat) : (s.zeroMem i off n).jumpAt = s.jumpAt := rfl
@[simp] theorem State.zeroMem_tripped (s : State) (i off n : Nat) : (s.zeroMem i off n).tripped = s.tripped := rfl
@[simp] theorem State.zeroMem_trips (s : State) (i off n : Nat) : (s.zeroMem i off n).trips = s.trips := rfl
@[simp] theorem State.zeroMem_hbmSlow (s : State) (i off n : Nat) : (s.zeroMem i off n).hbmSlow = s.hbmSlow := rfl
@[simp] theorem State.zeroMem_fixed (s : State) (i off n : Nat) : (s.zeroMem i off n).fixed = s.fixed := rfl
@[simp] theorem State.zeroMem_firmware (s : State) (i off n : Nat) : (s.zeroMem i off n).firmware = s.firmware := rfl
@[simp] theorem State.zeroMem_sheetBase (s : State) (i off n : Nat) : (s.zeroMem i off n).sheetBase = s.sheetBase := rfl
@[simp] theorem State.zeroMem_reports (s : State) (i off n : Nat) : (s.zeroMem i off n).reports = s.reports := rfl
@[simp] theorem State.zeroMem_startedFor (s : State) (i off n : Nat) : (s.zeroMem i off n).startedFor = s.startedFor := rfl
@[simp] theorem State.zeroMem_ckv (s : State) (i off n : Nat) : (s.zeroMem i off n).ckv = s.ckv := rfl
@[simp] theorem State.zeroMem_mgmt (s : State) (i off n : Nat) : (s.zeroMem i off n).mgmt = s.mgmt := rfl
@[simp] theorem State.zeroMem_inbox (s : State) (i off n : Nat) : (s.zeroMem i off n).inbox = s.inbox := rfl
@[simp] theorem State.zeroMem_dynAddr (s : State) (i off n : Nat) : (s.zeroMem i off n).dynAddr = s.dynAddr := rfl
@[simp] theorem State.zeroMem_eid (s : State) (i off n : Nat) : (s.zeroMem i off n).eid = s.eid := rfl
@[simp] theorem State.zeroMem_tid (s : State) (i off n : Nat) : (s.zeroMem i off n).tid = s.tid := rfl
@[simp] theorem State.zeroMem_bscan (s : State) (i off n : Nat) : (s.zeroMem i off n).bscan = s.bscan := rfl
@[simp] theorem State.zeroMem_markers (s : State) (i off n : Nat) : (s.zeroMem i off n).markers = s.markers := rfl
@[simp] theorem State.zeroMem_draws (s : State) (i off n : Nat) : (s.zeroMem i off n).draws = s.draws := rfl
@[simp] theorem State.zeroMem_saPins (s : State) (i off n : Nat) : (s.zeroMem i off n).saPins = s.saPins := rfl
@[simp] theorem State.zeroMem_drains (s : State) (i off n : Nat) : (s.zeroMem i off n).drains = s.drains := rfl
@[simp] theorem State.zeroMem_portNext (s : State) (i off n : Nat) : (s.zeroMem i off n).portNext = s.portNext := rfl
@[simp] theorem State.zeroMem_heldOut (s : State) (i off n : Nat) : (s.zeroMem i off n).heldOut = s.heldOut := rfl
@[simp] theorem State.zeroMem_txAn (s : State) (i off n : Nat) : (s.zeroMem i off n).txAn = s.txAn := rfl
@[simp] theorem State.zeroMem_ckvBy (s : State) (i off n : Nat) : (s.zeroMem i off n).ckvBy = s.ckvBy := rfl
@[simp] theorem State.zeroMem_hostLines (s : State) (i off n : Nat) : (s.zeroMem i off n).hostLines = s.hostLines := rfl
@[simp] theorem State.zeroMem_hostResv (s : State) (i off n : Nat) : (s.zeroMem i off n).hostResv = s.hostResv := rfl
@[simp] theorem State.zeroMem_imsic (s : State) (i off n : Nat) : (s.zeroMem i off n).imsic = s.imsic := rfl

@[simp] theorem State.mapChanged_vt (s : State) : (s.mapChanged).vt = s.vt := State.setF_vt ..
@[simp] theorem State.mapChanged_vtFrac (s : State) : (s.mapChanged).vtFrac = s.vtFrac := State.setF_vtFrac ..
@[simp] theorem State.mapChanged_rateTemp (s : State) : (s.mapChanged).rateTemp = s.rateTemp := State.setF_rateTemp ..
@[simp] theorem State.mapChanged_rateServo (s : State) : (s.mapChanged).rateServo = s.rateServo := State.setF_rateServo ..
@[simp] theorem State.mapChanged_free (s : State) : (s.mapChanged).free = s.free := State.setF_free ..
@[simp] theorem State.mapChanged_pending (s : State) : (s.mapChanged).pending = s.pending := State.setF_pending ..
@[simp] theorem State.mapChanged_out (s : State) : (s.mapChanged).out = s.out := State.setF_out ..
@[simp] theorem State.mapChanged_rlatch (s : State) : (s.mapChanged).rlatch = s.rlatch := State.setF_rlatch ..
@[simp] theorem State.mapChanged_wlatch (s : State) : (s.mapChanged).wlatch = s.wlatch := State.setF_wlatch ..
@[simp] theorem State.mapChanged_ringSel (s : State) : (s.mapChanged).ringSel = s.ringSel := State.setF_ringSel ..
@[simp] theorem State.mapChanged_wearSel (s : State) : (s.mapChanged).wearSel = s.wearSel := State.setF_wearSel ..
@[simp] theorem State.mapChanged_mem (s : State) : (s.mapChanged).mem = s.mem := State.setF_mem ..
@[simp] theorem State.mapChanged_grn (s : State) : (s.mapChanged).grn = s.grn := State.setF_grn ..
@[simp] theorem State.mapChanged_wear (s : State) : (s.mapChanged).wear = s.wear := State.setF_wear ..
@[simp] theorem State.mapChanged_log (s : State) : (s.mapChanged).log = s.log := State.setF_log ..
@[simp] theorem State.mapChanged_logBase (s : State) : (s.mapChanged).logBase = s.logBase := State.setF_logBase ..
@[simp] theorem State.mapChanged_logRead (s : State) : (s.mapChanged).logRead = s.logRead := State.setF_logRead ..
@[simp] theorem State.mapChanged_logRing (s : State) : (s.mapChanged).logRing = s.logRing := State.setF_logRing ..
@[simp] theorem State.mapChanged_cores (s : State) : (s.mapChanged).cores = s.cores := State.setF_cores ..
@[simp] theorem State.mapChanged_bells (s : State) : (s.mapChanged).bells = s.bells := State.setF_bells ..
@[simp] theorem State.mapChanged_node (s : State) : (s.mapChanged).node = s.node := State.setF_node ..
@[simp] theorem State.mapChanged_tithes (s : State) : (s.mapChanged).tithes = s.tithes := State.setF_tithes ..
@[simp] theorem State.mapChanged_gws (s : State) : (s.mapChanged).gws = s.gws := State.setF_gws ..
@[simp] theorem State.mapChanged_cfg (s : State) : (s.mapChanged).cfg = s.cfg := State.setF_cfg ..
@[simp] theorem State.mapChanged_regions (s : State) : (s.mapChanged).regions = s.regions := State.setF_regions ..
@[simp] theorem State.mapChanged_tracePos (s : State) : (s.mapChanged).tracePos = s.tracePos := State.setF_tracePos ..
@[simp] theorem State.mapChanged_stackMem (s : State) : (s.mapChanged).stackMem = s.stackMem := State.setF_stackMem ..
@[simp] theorem State.mapChanged_bridgeMem (s : State) : (s.mapChanged).bridgeMem = s.bridgeMem := State.setF_bridgeMem ..
@[simp] theorem State.mapChanged_invPend (s : State) : (s.mapChanged).invPend = s.invPend := State.setF_invPend ..
@[simp] theorem State.mapChanged_invAcks (s : State) : (s.mapChanged).invAcks = s.invAcks := State.setF_invAcks ..
@[simp] theorem State.mapChanged_pageBell (s : State) : (s.mapChanged).pageBell = s.pageBell := State.setF_pageBell ..
@[simp] theorem State.mapChanged_nextId (s : State) : (s.mapChanged).nextId = s.nextId := State.setF_nextId ..
@[simp] theorem State.mapChanged_jobs (s : State) : (s.mapChanged).jobs = s.jobs := State.setF_jobs ..
@[simp] theorem State.mapChanged_xfers (s : State) : (s.mapChanged).xfers = s.xfers := State.setF_xfers ..
@[simp] theorem State.mapChanged_redSteps (s : State) : (s.mapChanged).redSteps = s.redSteps := State.setF_redSteps ..
@[simp] theorem State.mapChanged_runs (s : State) : (s.mapChanged).runs = s.runs := State.setF_runs ..
@[simp] theorem State.mapChanged_redBytes (s : State) : (s.mapChanged).redBytes = s.redBytes := State.setF_redBytes ..
@[simp] theorem State.mapChanged_seqs (s : State) : (s.mapChanged).seqs = s.seqs := State.setF_seqs ..
@[simp] theorem State.mapChanged_sheetBell (s : State) : (s.mapChanged).sheetBell = s.sheetBell := State.setF_sheetBell ..
@[simp] theorem State.mapChanged_sheetGot (s : State) : (s.mapChanged).sheetGot = s.sheetGot := State.setF_sheetGot ..
@[simp] theorem State.mapChanged_rings (s : State) : (s.mapChanged).rings = s.rings := State.setF_rings ..
@[simp] theorem State.mapChanged_outs (s : State) : (s.mapChanged).outs = s.outs := State.setF_outs ..
@[simp] theorem State.mapChanged_brackets (s : State) : (s.mapChanged).brackets = s.brackets := State.setF_brackets ..
@[simp] theorem State.mapChanged_links (s : State) : (s.mapChanged).links = s.links := State.setF_links ..
@[simp] theorem State.mapChanged_restores (s : State) : (s.mapChanged).restores = s.restores := State.setF_restores ..
@[simp] theorem State.mapChanged_hostTake (s : State) : (s.mapChanged).hostTake = s.hostTake := State.setF_hostTake ..
@[simp] theorem State.mapChanged_ingress (s : State) : (s.mapChanged).ingress = s.ingress := State.setF_ingress ..
@[simp] theorem State.mapChanged_egress (s : State) : (s.mapChanged).egress = s.egress := State.setF_egress ..
@[simp] theorem State.mapChanged_qpErr (s : State) : (s.mapChanged).qpErr = s.qpErr := State.setF_qpErr ..
@[simp] theorem State.mapChanged_qpRate (s : State) : (s.mapChanged).qpRate = s.qpRate := State.setF_qpRate ..
@[simp] theorem State.mapChanged_cnpAt (s : State) : (s.mapChanged).cnpAt = s.cnpAt := State.setF_cnpAt ..
@[simp] theorem State.mapChanged_conf (s : State) : (s.mapChanged).conf = s.conf := State.setF_conf ..
@[simp] theorem State.mapChanged_sas (s : State) : (s.mapChanged).sas = s.sas := State.setF_sas ..
@[simp] theorem State.mapChanged_opkey (s : State) : (s.mapChanged).opkey = s.opkey := State.setF_opkey ..
@[simp] theorem State.mapChanged_led (s : State) : (s.mapChanged).led = s.led := State.setF_led ..
@[simp] theorem State.mapChanged_xings (s : State) : (s.mapChanged).xings = s.xings := State.setF_xings ..
@[simp] theorem State.mapChanged_vc (s : State) : (s.mapChanged).vc = s.vc := State.setF_vc ..
@[simp] theorem State.mapChanged_vcmp (s : State) : (s.mapChanged).vcmp = s.vcmp := State.setF_vcmp ..
@[simp] theorem State.mapChanged_retireQ (s : State) : (s.mapChanged).retireQ = s.retireQ := State.setF_retireQ ..
@[simp] theorem State.mapChanged_lit (s : State) : (s.mapChanged).lit = s.lit := State.setF_lit ..
@[simp] theorem State.mapChanged_rcal (s : State) : (s.mapChanged).rcal = s.rcal := State.setF_rcal ..
@[simp] theorem State.mapChanged_combCal (s : State) : (s.mapChanged).combCal = s.combCal := State.setF_combCal ..
@[simp] theorem State.mapChanged_calRej (s : State) : (s.mapChanged).calRej = s.calRej := State.setF_calRej ..
@[simp] theorem State.mapChanged_calLast (s : State) : (s.mapChanged).calLast = s.calLast := State.setF_calLast ..
@[simp] theorem State.mapChanged_sensOut (s : State) : (s.mapChanged).sensOut = s.sensOut := State.setF_sensOut ..
@[simp] theorem State.mapChanged_classes (s : State) : (s.mapChanged).classes = s.classes := State.setF_classes ..
@[simp] theorem State.mapChanged_resets (s : State) : (s.mapChanged).resets = s.resets := State.setF_resets ..
@[simp] theorem State.mapChanged_fieldAt (s : State) : (s.mapChanged).fieldAt = s.fieldAt := State.setF_fieldAt ..
@[simp] theorem State.mapChanged_rolePend (s : State) : (s.mapChanged).rolePend = s.rolePend := State.setF_rolePend ..
@[simp] theorem State.mapChanged_bondHalf (s : State) : (s.mapChanged).bondHalf = s.bondHalf := State.setF_bondHalf ..
@[simp] theorem State.mapChanged_lms (s : State) : (s.mapChanged).lms = s.lms := State.setF_lms ..
@[simp] theorem State.mapChanged_attest (s : State) : (s.mapChanged).attest = s.attest := State.setF_attest ..
@[simp] theorem State.mapChanged_meas (s : State) : (s.mapChanged).meas = s.meas := State.setF_meas ..
@[simp] theorem State.mapChanged_opkeySeq (s : State) : (s.mapChanged).opkeySeq = s.opkeySeq := State.setF_opkeySeq ..
@[simp] theorem State.mapChanged_debugUsed (s : State) : (s.mapChanged).debugUsed = s.debugUsed := State.setF_debugUsed ..
@[simp] theorem State.mapChanged_power (s : State) : (s.mapChanged).power = s.power := State.setF_power ..
@[simp] theorem State.mapChanged_heat (s : State) : (s.mapChanged).heat = s.heat := State.setF_heat ..
@[simp] theorem State.mapChanged_pairAt (s : State) : (s.mapChanged).pairAt = s.pairAt := State.setF_pairAt ..
@[simp] theorem State.mapChanged_pairOff (s : State) : (s.mapChanged).pairOff = s.pairOff := State.setF_pairOff ..
@[simp] theorem State.mapChanged_pairLost (s : State) : (s.mapChanged).pairLost = s.pairLost := State.setF_pairLost ..
@[simp] theorem State.mapChanged_fast (s : State) : (s.mapChanged).fast = s.fast := State.setF_fast ..
@[simp] theorem State.mapChanged_jumpAt (s : State) : (s.mapChanged).jumpAt = s.jumpAt := State.setF_jumpAt ..
@[simp] theorem State.mapChanged_tripped (s : State) : (s.mapChanged).tripped = s.tripped := State.setF_tripped ..
@[simp] theorem State.mapChanged_trips (s : State) : (s.mapChanged).trips = s.trips := State.setF_trips ..
@[simp] theorem State.mapChanged_hbmSlow (s : State) : (s.mapChanged).hbmSlow = s.hbmSlow := State.setF_hbmSlow ..
@[simp] theorem State.mapChanged_fixed (s : State) : (s.mapChanged).fixed = s.fixed := State.setF_fixed ..
@[simp] theorem State.mapChanged_firmware (s : State) : (s.mapChanged).firmware = s.firmware := State.setF_firmware ..
@[simp] theorem State.mapChanged_sheetBase (s : State) : (s.mapChanged).sheetBase = s.sheetBase := State.setF_sheetBase ..
@[simp] theorem State.mapChanged_reports (s : State) : (s.mapChanged).reports = s.reports := State.setF_reports ..
@[simp] theorem State.mapChanged_startedFor (s : State) : (s.mapChanged).startedFor = s.startedFor := State.setF_startedFor ..
@[simp] theorem State.mapChanged_ckv (s : State) : (s.mapChanged).ckv = s.ckv := State.setF_ckv ..
@[simp] theorem State.mapChanged_mgmt (s : State) : (s.mapChanged).mgmt = s.mgmt := State.setF_mgmt ..
@[simp] theorem State.mapChanged_inbox (s : State) : (s.mapChanged).inbox = s.inbox := State.setF_inbox ..
@[simp] theorem State.mapChanged_dynAddr (s : State) : (s.mapChanged).dynAddr = s.dynAddr := State.setF_dynAddr ..
@[simp] theorem State.mapChanged_eid (s : State) : (s.mapChanged).eid = s.eid := State.setF_eid ..
@[simp] theorem State.mapChanged_tid (s : State) : (s.mapChanged).tid = s.tid := State.setF_tid ..
@[simp] theorem State.mapChanged_bscan (s : State) : (s.mapChanged).bscan = s.bscan := State.setF_bscan ..

@[simp] theorem State.grnPut_vt (s : State) (a b c v : Nat) : (s.grnPut a b c v).vt = s.vt := State.mapChanged_vt _
@[simp] theorem State.grnPut_vtFrac (s : State) (a b c v : Nat) : (s.grnPut a b c v).vtFrac = s.vtFrac := State.mapChanged_vtFrac _
@[simp] theorem State.grnPut_rateTemp (s : State) (a b c v : Nat) : (s.grnPut a b c v).rateTemp = s.rateTemp := State.mapChanged_rateTemp _
@[simp] theorem State.grnPut_rateServo (s : State) (a b c v : Nat) : (s.grnPut a b c v).rateServo = s.rateServo := State.mapChanged_rateServo _
@[simp] theorem State.grnPut_free (s : State) (a b c v : Nat) : (s.grnPut a b c v).free = s.free := State.mapChanged_free _
@[simp] theorem State.grnPut_pending (s : State) (a b c v : Nat) : (s.grnPut a b c v).pending = s.pending := State.mapChanged_pending _
@[simp] theorem State.grnPut_out (s : State) (a b c v : Nat) : (s.grnPut a b c v).out = s.out := State.mapChanged_out _
@[simp] theorem State.grnPut_rlatch (s : State) (a b c v : Nat) : (s.grnPut a b c v).rlatch = s.rlatch := State.mapChanged_rlatch _
@[simp] theorem State.grnPut_wlatch (s : State) (a b c v : Nat) : (s.grnPut a b c v).wlatch = s.wlatch := State.mapChanged_wlatch _
@[simp] theorem State.grnPut_ringSel (s : State) (a b c v : Nat) : (s.grnPut a b c v).ringSel = s.ringSel := State.mapChanged_ringSel _
@[simp] theorem State.grnPut_wearSel (s : State) (a b c v : Nat) : (s.grnPut a b c v).wearSel = s.wearSel := State.mapChanged_wearSel _
@[simp] theorem State.grnPut_mem (s : State) (a b c v : Nat) : (s.grnPut a b c v).mem = s.mem := State.mapChanged_mem _
@[simp] theorem State.grnPut_wear (s : State) (a b c v : Nat) : (s.grnPut a b c v).wear = s.wear := State.mapChanged_wear _
@[simp] theorem State.grnPut_log (s : State) (a b c v : Nat) : (s.grnPut a b c v).log = s.log := State.mapChanged_log _
@[simp] theorem State.grnPut_logBase (s : State) (a b c v : Nat) : (s.grnPut a b c v).logBase = s.logBase := State.mapChanged_logBase _
@[simp] theorem State.grnPut_logRead (s : State) (a b c v : Nat) : (s.grnPut a b c v).logRead = s.logRead := State.mapChanged_logRead _
@[simp] theorem State.grnPut_logRing (s : State) (a b c v : Nat) : (s.grnPut a b c v).logRing = s.logRing := State.mapChanged_logRing _
@[simp] theorem State.grnPut_cores (s : State) (a b c v : Nat) : (s.grnPut a b c v).cores = s.cores := State.mapChanged_cores _
@[simp] theorem State.grnPut_bells (s : State) (a b c v : Nat) : (s.grnPut a b c v).bells = s.bells := State.mapChanged_bells _
@[simp] theorem State.grnPut_node (s : State) (a b c v : Nat) : (s.grnPut a b c v).node = s.node := State.mapChanged_node _
@[simp] theorem State.grnPut_tithes (s : State) (a b c v : Nat) : (s.grnPut a b c v).tithes = s.tithes := State.mapChanged_tithes _
@[simp] theorem State.grnPut_gws (s : State) (a b c v : Nat) : (s.grnPut a b c v).gws = s.gws := State.mapChanged_gws _
@[simp] theorem State.grnPut_cfg (s : State) (a b c v : Nat) : (s.grnPut a b c v).cfg = s.cfg := State.mapChanged_cfg _
@[simp] theorem State.grnPut_regions (s : State) (a b c v : Nat) : (s.grnPut a b c v).regions = s.regions := State.mapChanged_regions _
@[simp] theorem State.grnPut_tracePos (s : State) (a b c v : Nat) : (s.grnPut a b c v).tracePos = s.tracePos := State.mapChanged_tracePos _
@[simp] theorem State.grnPut_stackMem (s : State) (a b c v : Nat) : (s.grnPut a b c v).stackMem = s.stackMem := State.mapChanged_stackMem _
@[simp] theorem State.grnPut_bridgeMem (s : State) (a b c v : Nat) : (s.grnPut a b c v).bridgeMem = s.bridgeMem := State.mapChanged_bridgeMem _
@[simp] theorem State.grnPut_invPend (s : State) (a b c v : Nat) : (s.grnPut a b c v).invPend = s.invPend := State.mapChanged_invPend _
@[simp] theorem State.grnPut_invAcks (s : State) (a b c v : Nat) : (s.grnPut a b c v).invAcks = s.invAcks := State.mapChanged_invAcks _
@[simp] theorem State.grnPut_pageBell (s : State) (a b c v : Nat) : (s.grnPut a b c v).pageBell = s.pageBell := State.mapChanged_pageBell _
@[simp] theorem State.grnPut_nextId (s : State) (a b c v : Nat) : (s.grnPut a b c v).nextId = s.nextId := State.mapChanged_nextId _
@[simp] theorem State.grnPut_jobs (s : State) (a b c v : Nat) : (s.grnPut a b c v).jobs = s.jobs := State.mapChanged_jobs _
@[simp] theorem State.grnPut_xfers (s : State) (a b c v : Nat) : (s.grnPut a b c v).xfers = s.xfers := State.mapChanged_xfers _
@[simp] theorem State.grnPut_redSteps (s : State) (a b c v : Nat) : (s.grnPut a b c v).redSteps = s.redSteps := State.mapChanged_redSteps _
@[simp] theorem State.grnPut_runs (s : State) (a b c v : Nat) : (s.grnPut a b c v).runs = s.runs := State.mapChanged_runs _
@[simp] theorem State.grnPut_redBytes (s : State) (a b c v : Nat) : (s.grnPut a b c v).redBytes = s.redBytes := State.mapChanged_redBytes _
@[simp] theorem State.grnPut_seqs (s : State) (a b c v : Nat) : (s.grnPut a b c v).seqs = s.seqs := State.mapChanged_seqs _
@[simp] theorem State.grnPut_sheetBell (s : State) (a b c v : Nat) : (s.grnPut a b c v).sheetBell = s.sheetBell := State.mapChanged_sheetBell _
@[simp] theorem State.grnPut_sheetGot (s : State) (a b c v : Nat) : (s.grnPut a b c v).sheetGot = s.sheetGot := State.mapChanged_sheetGot _
@[simp] theorem State.grnPut_rings (s : State) (a b c v : Nat) : (s.grnPut a b c v).rings = s.rings := State.mapChanged_rings _
@[simp] theorem State.grnPut_outs (s : State) (a b c v : Nat) : (s.grnPut a b c v).outs = s.outs := State.mapChanged_outs _
@[simp] theorem State.grnPut_brackets (s : State) (a b c v : Nat) : (s.grnPut a b c v).brackets = s.brackets := State.mapChanged_brackets _
@[simp] theorem State.grnPut_links (s : State) (a b c v : Nat) : (s.grnPut a b c v).links = s.links := State.mapChanged_links _
@[simp] theorem State.grnPut_restores (s : State) (a b c v : Nat) : (s.grnPut a b c v).restores = s.restores := State.mapChanged_restores _
@[simp] theorem State.grnPut_hostTake (s : State) (a b c v : Nat) : (s.grnPut a b c v).hostTake = s.hostTake := State.mapChanged_hostTake _
@[simp] theorem State.grnPut_ingress (s : State) (a b c v : Nat) : (s.grnPut a b c v).ingress = s.ingress := State.mapChanged_ingress _
@[simp] theorem State.grnPut_egress (s : State) (a b c v : Nat) : (s.grnPut a b c v).egress = s.egress := State.mapChanged_egress _
@[simp] theorem State.grnPut_qpErr (s : State) (a b c v : Nat) : (s.grnPut a b c v).qpErr = s.qpErr := State.mapChanged_qpErr _
@[simp] theorem State.grnPut_qpRate (s : State) (a b c v : Nat) : (s.grnPut a b c v).qpRate = s.qpRate := State.mapChanged_qpRate _
@[simp] theorem State.grnPut_cnpAt (s : State) (a b c v : Nat) : (s.grnPut a b c v).cnpAt = s.cnpAt := State.mapChanged_cnpAt _
@[simp] theorem State.grnPut_conf (s : State) (a b c v : Nat) : (s.grnPut a b c v).conf = s.conf := State.mapChanged_conf _
@[simp] theorem State.grnPut_sas (s : State) (a b c v : Nat) : (s.grnPut a b c v).sas = s.sas := State.mapChanged_sas _
@[simp] theorem State.grnPut_opkey (s : State) (a b c v : Nat) : (s.grnPut a b c v).opkey = s.opkey := State.mapChanged_opkey _
@[simp] theorem State.grnPut_led (s : State) (a b c v : Nat) : (s.grnPut a b c v).led = s.led := State.mapChanged_led _
@[simp] theorem State.grnPut_xings (s : State) (a b c v : Nat) : (s.grnPut a b c v).xings = s.xings := State.mapChanged_xings _
@[simp] theorem State.grnPut_vc (s : State) (a b c v : Nat) : (s.grnPut a b c v).vc = s.vc := State.mapChanged_vc _
@[simp] theorem State.grnPut_vcmp (s : State) (a b c v : Nat) : (s.grnPut a b c v).vcmp = s.vcmp := State.mapChanged_vcmp _
@[simp] theorem State.grnPut_retireQ (s : State) (a b c v : Nat) : (s.grnPut a b c v).retireQ = s.retireQ := State.mapChanged_retireQ _
@[simp] theorem State.grnPut_lit (s : State) (a b c v : Nat) : (s.grnPut a b c v).lit = s.lit := State.mapChanged_lit _
@[simp] theorem State.grnPut_rcal (s : State) (a b c v : Nat) : (s.grnPut a b c v).rcal = s.rcal := State.mapChanged_rcal _
@[simp] theorem State.grnPut_combCal (s : State) (a b c v : Nat) : (s.grnPut a b c v).combCal = s.combCal := State.mapChanged_combCal _
@[simp] theorem State.grnPut_calRej (s : State) (a b c v : Nat) : (s.grnPut a b c v).calRej = s.calRej := State.mapChanged_calRej _
@[simp] theorem State.grnPut_calLast (s : State) (a b c v : Nat) : (s.grnPut a b c v).calLast = s.calLast := State.mapChanged_calLast _
@[simp] theorem State.grnPut_sensOut (s : State) (a b c v : Nat) : (s.grnPut a b c v).sensOut = s.sensOut := State.mapChanged_sensOut _
@[simp] theorem State.grnPut_classes (s : State) (a b c v : Nat) : (s.grnPut a b c v).classes = s.classes := State.mapChanged_classes _
@[simp] theorem State.grnPut_resets (s : State) (a b c v : Nat) : (s.grnPut a b c v).resets = s.resets := State.mapChanged_resets _
@[simp] theorem State.grnPut_fieldAt (s : State) (a b c v : Nat) : (s.grnPut a b c v).fieldAt = s.fieldAt := State.mapChanged_fieldAt _
@[simp] theorem State.grnPut_rolePend (s : State) (a b c v : Nat) : (s.grnPut a b c v).rolePend = s.rolePend := State.mapChanged_rolePend _
@[simp] theorem State.grnPut_bondHalf (s : State) (a b c v : Nat) : (s.grnPut a b c v).bondHalf = s.bondHalf := State.mapChanged_bondHalf _
@[simp] theorem State.grnPut_lms (s : State) (a b c v : Nat) : (s.grnPut a b c v).lms = s.lms := State.mapChanged_lms _
@[simp] theorem State.grnPut_attest (s : State) (a b c v : Nat) : (s.grnPut a b c v).attest = s.attest := State.mapChanged_attest _
@[simp] theorem State.grnPut_meas (s : State) (a b c v : Nat) : (s.grnPut a b c v).meas = s.meas := State.mapChanged_meas _
@[simp] theorem State.grnPut_opkeySeq (s : State) (a b c v : Nat) : (s.grnPut a b c v).opkeySeq = s.opkeySeq := State.mapChanged_opkeySeq _
@[simp] theorem State.grnPut_debugUsed (s : State) (a b c v : Nat) : (s.grnPut a b c v).debugUsed = s.debugUsed := State.mapChanged_debugUsed _
@[simp] theorem State.grnPut_power (s : State) (a b c v : Nat) : (s.grnPut a b c v).power = s.power := State.mapChanged_power _
@[simp] theorem State.grnPut_heat (s : State) (a b c v : Nat) : (s.grnPut a b c v).heat = s.heat := State.mapChanged_heat _
@[simp] theorem State.grnPut_pairAt (s : State) (a b c v : Nat) : (s.grnPut a b c v).pairAt = s.pairAt := State.mapChanged_pairAt _
@[simp] theorem State.grnPut_pairOff (s : State) (a b c v : Nat) : (s.grnPut a b c v).pairOff = s.pairOff := State.mapChanged_pairOff _
@[simp] theorem State.grnPut_pairLost (s : State) (a b c v : Nat) : (s.grnPut a b c v).pairLost = s.pairLost := State.mapChanged_pairLost _
@[simp] theorem State.grnPut_fast (s : State) (a b c v : Nat) : (s.grnPut a b c v).fast = s.fast := State.mapChanged_fast _
@[simp] theorem State.grnPut_jumpAt (s : State) (a b c v : Nat) : (s.grnPut a b c v).jumpAt = s.jumpAt := State.mapChanged_jumpAt _
@[simp] theorem State.grnPut_tripped (s : State) (a b c v : Nat) : (s.grnPut a b c v).tripped = s.tripped := State.mapChanged_tripped _
@[simp] theorem State.grnPut_trips (s : State) (a b c v : Nat) : (s.grnPut a b c v).trips = s.trips := State.mapChanged_trips _
@[simp] theorem State.grnPut_hbmSlow (s : State) (a b c v : Nat) : (s.grnPut a b c v).hbmSlow = s.hbmSlow := State.mapChanged_hbmSlow _
@[simp] theorem State.grnPut_fixed (s : State) (a b c v : Nat) : (s.grnPut a b c v).fixed = s.fixed := State.mapChanged_fixed _
@[simp] theorem State.grnPut_firmware (s : State) (a b c v : Nat) : (s.grnPut a b c v).firmware = s.firmware := State.mapChanged_firmware _
@[simp] theorem State.grnPut_sheetBase (s : State) (a b c v : Nat) : (s.grnPut a b c v).sheetBase = s.sheetBase := State.mapChanged_sheetBase _
@[simp] theorem State.grnPut_reports (s : State) (a b c v : Nat) : (s.grnPut a b c v).reports = s.reports := State.mapChanged_reports _
@[simp] theorem State.grnPut_startedFor (s : State) (a b c v : Nat) : (s.grnPut a b c v).startedFor = s.startedFor := State.mapChanged_startedFor _
@[simp] theorem State.grnPut_ckv (s : State) (a b c v : Nat) : (s.grnPut a b c v).ckv = s.ckv := State.mapChanged_ckv _
@[simp] theorem State.grnPut_mgmt (s : State) (a b c v : Nat) : (s.grnPut a b c v).mgmt = s.mgmt := State.mapChanged_mgmt _
@[simp] theorem State.grnPut_inbox (s : State) (a b c v : Nat) : (s.grnPut a b c v).inbox = s.inbox := State.mapChanged_inbox _
@[simp] theorem State.grnPut_dynAddr (s : State) (a b c v : Nat) : (s.grnPut a b c v).dynAddr = s.dynAddr := State.mapChanged_dynAddr _
@[simp] theorem State.grnPut_eid (s : State) (a b c v : Nat) : (s.grnPut a b c v).eid = s.eid := State.mapChanged_eid _
@[simp] theorem State.grnPut_tid (s : State) (a b c v : Nat) : (s.grnPut a b c v).tid = s.tid := State.mapChanged_tid _
@[simp] theorem State.grnPut_bscan (s : State) (a b c v : Nat) : (s.grnPut a b c v).bscan = s.bscan := State.mapChanged_bscan _

@[simp] theorem State.grnDel_vt (s : State) (a b c : Nat) : (s.grnDel a b c).vt = s.vt := State.mapChanged_vt _
@[simp] theorem State.grnDel_vtFrac (s : State) (a b c : Nat) : (s.grnDel a b c).vtFrac = s.vtFrac := State.mapChanged_vtFrac _
@[simp] theorem State.grnDel_rateTemp (s : State) (a b c : Nat) : (s.grnDel a b c).rateTemp = s.rateTemp := State.mapChanged_rateTemp _
@[simp] theorem State.grnDel_rateServo (s : State) (a b c : Nat) : (s.grnDel a b c).rateServo = s.rateServo := State.mapChanged_rateServo _
@[simp] theorem State.grnDel_free (s : State) (a b c : Nat) : (s.grnDel a b c).free = s.free := State.mapChanged_free _
@[simp] theorem State.grnDel_pending (s : State) (a b c : Nat) : (s.grnDel a b c).pending = s.pending := State.mapChanged_pending _
@[simp] theorem State.grnDel_out (s : State) (a b c : Nat) : (s.grnDel a b c).out = s.out := State.mapChanged_out _
@[simp] theorem State.grnDel_rlatch (s : State) (a b c : Nat) : (s.grnDel a b c).rlatch = s.rlatch := State.mapChanged_rlatch _
@[simp] theorem State.grnDel_wlatch (s : State) (a b c : Nat) : (s.grnDel a b c).wlatch = s.wlatch := State.mapChanged_wlatch _
@[simp] theorem State.grnDel_ringSel (s : State) (a b c : Nat) : (s.grnDel a b c).ringSel = s.ringSel := State.mapChanged_ringSel _
@[simp] theorem State.grnDel_wearSel (s : State) (a b c : Nat) : (s.grnDel a b c).wearSel = s.wearSel := State.mapChanged_wearSel _
@[simp] theorem State.grnDel_mem (s : State) (a b c : Nat) : (s.grnDel a b c).mem = s.mem := State.mapChanged_mem _
@[simp] theorem State.grnDel_wear (s : State) (a b c : Nat) : (s.grnDel a b c).wear = s.wear := State.mapChanged_wear _
@[simp] theorem State.grnDel_log (s : State) (a b c : Nat) : (s.grnDel a b c).log = s.log := State.mapChanged_log _
@[simp] theorem State.grnDel_logBase (s : State) (a b c : Nat) : (s.grnDel a b c).logBase = s.logBase := State.mapChanged_logBase _
@[simp] theorem State.grnDel_logRead (s : State) (a b c : Nat) : (s.grnDel a b c).logRead = s.logRead := State.mapChanged_logRead _
@[simp] theorem State.grnDel_logRing (s : State) (a b c : Nat) : (s.grnDel a b c).logRing = s.logRing := State.mapChanged_logRing _
@[simp] theorem State.grnDel_cores (s : State) (a b c : Nat) : (s.grnDel a b c).cores = s.cores := State.mapChanged_cores _
@[simp] theorem State.grnDel_bells (s : State) (a b c : Nat) : (s.grnDel a b c).bells = s.bells := State.mapChanged_bells _
@[simp] theorem State.grnDel_node (s : State) (a b c : Nat) : (s.grnDel a b c).node = s.node := State.mapChanged_node _
@[simp] theorem State.grnDel_tithes (s : State) (a b c : Nat) : (s.grnDel a b c).tithes = s.tithes := State.mapChanged_tithes _
@[simp] theorem State.grnDel_gws (s : State) (a b c : Nat) : (s.grnDel a b c).gws = s.gws := State.mapChanged_gws _
@[simp] theorem State.grnDel_cfg (s : State) (a b c : Nat) : (s.grnDel a b c).cfg = s.cfg := State.mapChanged_cfg _
@[simp] theorem State.grnDel_regions (s : State) (a b c : Nat) : (s.grnDel a b c).regions = s.regions := State.mapChanged_regions _
@[simp] theorem State.grnDel_tracePos (s : State) (a b c : Nat) : (s.grnDel a b c).tracePos = s.tracePos := State.mapChanged_tracePos _
@[simp] theorem State.grnDel_stackMem (s : State) (a b c : Nat) : (s.grnDel a b c).stackMem = s.stackMem := State.mapChanged_stackMem _
@[simp] theorem State.grnDel_bridgeMem (s : State) (a b c : Nat) : (s.grnDel a b c).bridgeMem = s.bridgeMem := State.mapChanged_bridgeMem _
@[simp] theorem State.grnDel_invPend (s : State) (a b c : Nat) : (s.grnDel a b c).invPend = s.invPend := State.mapChanged_invPend _
@[simp] theorem State.grnDel_invAcks (s : State) (a b c : Nat) : (s.grnDel a b c).invAcks = s.invAcks := State.mapChanged_invAcks _
@[simp] theorem State.grnDel_pageBell (s : State) (a b c : Nat) : (s.grnDel a b c).pageBell = s.pageBell := State.mapChanged_pageBell _
@[simp] theorem State.grnDel_nextId (s : State) (a b c : Nat) : (s.grnDel a b c).nextId = s.nextId := State.mapChanged_nextId _
@[simp] theorem State.grnDel_jobs (s : State) (a b c : Nat) : (s.grnDel a b c).jobs = s.jobs := State.mapChanged_jobs _
@[simp] theorem State.grnDel_xfers (s : State) (a b c : Nat) : (s.grnDel a b c).xfers = s.xfers := State.mapChanged_xfers _
@[simp] theorem State.grnDel_redSteps (s : State) (a b c : Nat) : (s.grnDel a b c).redSteps = s.redSteps := State.mapChanged_redSteps _
@[simp] theorem State.grnDel_runs (s : State) (a b c : Nat) : (s.grnDel a b c).runs = s.runs := State.mapChanged_runs _
@[simp] theorem State.grnDel_redBytes (s : State) (a b c : Nat) : (s.grnDel a b c).redBytes = s.redBytes := State.mapChanged_redBytes _
@[simp] theorem State.grnDel_seqs (s : State) (a b c : Nat) : (s.grnDel a b c).seqs = s.seqs := State.mapChanged_seqs _
@[simp] theorem State.grnDel_sheetBell (s : State) (a b c : Nat) : (s.grnDel a b c).sheetBell = s.sheetBell := State.mapChanged_sheetBell _
@[simp] theorem State.grnDel_sheetGot (s : State) (a b c : Nat) : (s.grnDel a b c).sheetGot = s.sheetGot := State.mapChanged_sheetGot _
@[simp] theorem State.grnDel_rings (s : State) (a b c : Nat) : (s.grnDel a b c).rings = s.rings := State.mapChanged_rings _
@[simp] theorem State.grnDel_outs (s : State) (a b c : Nat) : (s.grnDel a b c).outs = s.outs := State.mapChanged_outs _
@[simp] theorem State.grnDel_brackets (s : State) (a b c : Nat) : (s.grnDel a b c).brackets = s.brackets := State.mapChanged_brackets _
@[simp] theorem State.grnDel_links (s : State) (a b c : Nat) : (s.grnDel a b c).links = s.links := State.mapChanged_links _
@[simp] theorem State.grnDel_restores (s : State) (a b c : Nat) : (s.grnDel a b c).restores = s.restores := State.mapChanged_restores _
@[simp] theorem State.grnDel_hostTake (s : State) (a b c : Nat) : (s.grnDel a b c).hostTake = s.hostTake := State.mapChanged_hostTake _
@[simp] theorem State.grnDel_ingress (s : State) (a b c : Nat) : (s.grnDel a b c).ingress = s.ingress := State.mapChanged_ingress _
@[simp] theorem State.grnDel_egress (s : State) (a b c : Nat) : (s.grnDel a b c).egress = s.egress := State.mapChanged_egress _
@[simp] theorem State.grnDel_qpErr (s : State) (a b c : Nat) : (s.grnDel a b c).qpErr = s.qpErr := State.mapChanged_qpErr _
@[simp] theorem State.grnDel_qpRate (s : State) (a b c : Nat) : (s.grnDel a b c).qpRate = s.qpRate := State.mapChanged_qpRate _
@[simp] theorem State.grnDel_cnpAt (s : State) (a b c : Nat) : (s.grnDel a b c).cnpAt = s.cnpAt := State.mapChanged_cnpAt _
@[simp] theorem State.grnDel_conf (s : State) (a b c : Nat) : (s.grnDel a b c).conf = s.conf := State.mapChanged_conf _
@[simp] theorem State.grnDel_sas (s : State) (a b c : Nat) : (s.grnDel a b c).sas = s.sas := State.mapChanged_sas _
@[simp] theorem State.grnDel_opkey (s : State) (a b c : Nat) : (s.grnDel a b c).opkey = s.opkey := State.mapChanged_opkey _
@[simp] theorem State.grnDel_led (s : State) (a b c : Nat) : (s.grnDel a b c).led = s.led := State.mapChanged_led _
@[simp] theorem State.grnDel_xings (s : State) (a b c : Nat) : (s.grnDel a b c).xings = s.xings := State.mapChanged_xings _
@[simp] theorem State.grnDel_vc (s : State) (a b c : Nat) : (s.grnDel a b c).vc = s.vc := State.mapChanged_vc _
@[simp] theorem State.grnDel_vcmp (s : State) (a b c : Nat) : (s.grnDel a b c).vcmp = s.vcmp := State.mapChanged_vcmp _
@[simp] theorem State.grnDel_retireQ (s : State) (a b c : Nat) : (s.grnDel a b c).retireQ = s.retireQ := State.mapChanged_retireQ _
@[simp] theorem State.grnDel_lit (s : State) (a b c : Nat) : (s.grnDel a b c).lit = s.lit := State.mapChanged_lit _
@[simp] theorem State.grnDel_rcal (s : State) (a b c : Nat) : (s.grnDel a b c).rcal = s.rcal := State.mapChanged_rcal _
@[simp] theorem State.grnDel_combCal (s : State) (a b c : Nat) : (s.grnDel a b c).combCal = s.combCal := State.mapChanged_combCal _
@[simp] theorem State.grnDel_calRej (s : State) (a b c : Nat) : (s.grnDel a b c).calRej = s.calRej := State.mapChanged_calRej _
@[simp] theorem State.grnDel_calLast (s : State) (a b c : Nat) : (s.grnDel a b c).calLast = s.calLast := State.mapChanged_calLast _
@[simp] theorem State.grnDel_sensOut (s : State) (a b c : Nat) : (s.grnDel a b c).sensOut = s.sensOut := State.mapChanged_sensOut _
@[simp] theorem State.grnDel_classes (s : State) (a b c : Nat) : (s.grnDel a b c).classes = s.classes := State.mapChanged_classes _
@[simp] theorem State.grnDel_resets (s : State) (a b c : Nat) : (s.grnDel a b c).resets = s.resets := State.mapChanged_resets _
@[simp] theorem State.grnDel_fieldAt (s : State) (a b c : Nat) : (s.grnDel a b c).fieldAt = s.fieldAt := State.mapChanged_fieldAt _
@[simp] theorem State.grnDel_rolePend (s : State) (a b c : Nat) : (s.grnDel a b c).rolePend = s.rolePend := State.mapChanged_rolePend _
@[simp] theorem State.grnDel_bondHalf (s : State) (a b c : Nat) : (s.grnDel a b c).bondHalf = s.bondHalf := State.mapChanged_bondHalf _
@[simp] theorem State.grnDel_lms (s : State) (a b c : Nat) : (s.grnDel a b c).lms = s.lms := State.mapChanged_lms _
@[simp] theorem State.grnDel_attest (s : State) (a b c : Nat) : (s.grnDel a b c).attest = s.attest := State.mapChanged_attest _
@[simp] theorem State.grnDel_meas (s : State) (a b c : Nat) : (s.grnDel a b c).meas = s.meas := State.mapChanged_meas _
@[simp] theorem State.grnDel_opkeySeq (s : State) (a b c : Nat) : (s.grnDel a b c).opkeySeq = s.opkeySeq := State.mapChanged_opkeySeq _
@[simp] theorem State.grnDel_debugUsed (s : State) (a b c : Nat) : (s.grnDel a b c).debugUsed = s.debugUsed := State.mapChanged_debugUsed _
@[simp] theorem State.grnDel_power (s : State) (a b c : Nat) : (s.grnDel a b c).power = s.power := State.mapChanged_power _
@[simp] theorem State.grnDel_heat (s : State) (a b c : Nat) : (s.grnDel a b c).heat = s.heat := State.mapChanged_heat _
@[simp] theorem State.grnDel_pairAt (s : State) (a b c : Nat) : (s.grnDel a b c).pairAt = s.pairAt := State.mapChanged_pairAt _
@[simp] theorem State.grnDel_pairOff (s : State) (a b c : Nat) : (s.grnDel a b c).pairOff = s.pairOff := State.mapChanged_pairOff _
@[simp] theorem State.grnDel_pairLost (s : State) (a b c : Nat) : (s.grnDel a b c).pairLost = s.pairLost := State.mapChanged_pairLost _
@[simp] theorem State.grnDel_fast (s : State) (a b c : Nat) : (s.grnDel a b c).fast = s.fast := State.mapChanged_fast _
@[simp] theorem State.grnDel_jumpAt (s : State) (a b c : Nat) : (s.grnDel a b c).jumpAt = s.jumpAt := State.mapChanged_jumpAt _
@[simp] theorem State.grnDel_tripped (s : State) (a b c : Nat) : (s.grnDel a b c).tripped = s.tripped := State.mapChanged_tripped _
@[simp] theorem State.grnDel_trips (s : State) (a b c : Nat) : (s.grnDel a b c).trips = s.trips := State.mapChanged_trips _
@[simp] theorem State.grnDel_hbmSlow (s : State) (a b c : Nat) : (s.grnDel a b c).hbmSlow = s.hbmSlow := State.mapChanged_hbmSlow _
@[simp] theorem State.grnDel_fixed (s : State) (a b c : Nat) : (s.grnDel a b c).fixed = s.fixed := State.mapChanged_fixed _
@[simp] theorem State.grnDel_firmware (s : State) (a b c : Nat) : (s.grnDel a b c).firmware = s.firmware := State.mapChanged_firmware _
@[simp] theorem State.grnDel_sheetBase (s : State) (a b c : Nat) : (s.grnDel a b c).sheetBase = s.sheetBase := State.mapChanged_sheetBase _
@[simp] theorem State.grnDel_reports (s : State) (a b c : Nat) : (s.grnDel a b c).reports = s.reports := State.mapChanged_reports _
@[simp] theorem State.grnDel_startedFor (s : State) (a b c : Nat) : (s.grnDel a b c).startedFor = s.startedFor := State.mapChanged_startedFor _
@[simp] theorem State.grnDel_ckv (s : State) (a b c : Nat) : (s.grnDel a b c).ckv = s.ckv := State.mapChanged_ckv _
@[simp] theorem State.grnDel_mgmt (s : State) (a b c : Nat) : (s.grnDel a b c).mgmt = s.mgmt := State.mapChanged_mgmt _
@[simp] theorem State.grnDel_inbox (s : State) (a b c : Nat) : (s.grnDel a b c).inbox = s.inbox := State.mapChanged_inbox _
@[simp] theorem State.grnDel_dynAddr (s : State) (a b c : Nat) : (s.grnDel a b c).dynAddr = s.dynAddr := State.mapChanged_dynAddr _
@[simp] theorem State.grnDel_eid (s : State) (a b c : Nat) : (s.grnDel a b c).eid = s.eid := State.mapChanged_eid _
@[simp] theorem State.grnDel_tid (s : State) (a b c : Nat) : (s.grnDel a b c).tid = s.tid := State.mapChanged_tid _
@[simp] theorem State.grnDel_bscan (s : State) (a b c : Nat) : (s.grnDel a b c).bscan = s.bscan := State.mapChanged_bscan _

@[simp] theorem State.wearUp_vt (s : State) (k i : Nat) : (s.wearUp k i).vt = s.vt := State.mapChanged_vt _
@[simp] theorem State.wearUp_vtFrac (s : State) (k i : Nat) : (s.wearUp k i).vtFrac = s.vtFrac := State.mapChanged_vtFrac _
@[simp] theorem State.wearUp_rateTemp (s : State) (k i : Nat) : (s.wearUp k i).rateTemp = s.rateTemp := State.mapChanged_rateTemp _
@[simp] theorem State.wearUp_rateServo (s : State) (k i : Nat) : (s.wearUp k i).rateServo = s.rateServo := State.mapChanged_rateServo _
@[simp] theorem State.wearUp_free (s : State) (k i : Nat) : (s.wearUp k i).free = s.free := State.mapChanged_free _
@[simp] theorem State.wearUp_pending (s : State) (k i : Nat) : (s.wearUp k i).pending = s.pending := State.mapChanged_pending _
@[simp] theorem State.wearUp_out (s : State) (k i : Nat) : (s.wearUp k i).out = s.out := State.mapChanged_out _
@[simp] theorem State.wearUp_rlatch (s : State) (k i : Nat) : (s.wearUp k i).rlatch = s.rlatch := State.mapChanged_rlatch _
@[simp] theorem State.wearUp_wlatch (s : State) (k i : Nat) : (s.wearUp k i).wlatch = s.wlatch := State.mapChanged_wlatch _
@[simp] theorem State.wearUp_ringSel (s : State) (k i : Nat) : (s.wearUp k i).ringSel = s.ringSel := State.mapChanged_ringSel _
@[simp] theorem State.wearUp_wearSel (s : State) (k i : Nat) : (s.wearUp k i).wearSel = s.wearSel := State.mapChanged_wearSel _
@[simp] theorem State.wearUp_mem (s : State) (k i : Nat) : (s.wearUp k i).mem = s.mem := State.mapChanged_mem _
@[simp] theorem State.wearUp_grn (s : State) (k i : Nat) : (s.wearUp k i).grn = s.grn := State.mapChanged_grn _
@[simp] theorem State.wearUp_log (s : State) (k i : Nat) : (s.wearUp k i).log = s.log := State.mapChanged_log _
@[simp] theorem State.wearUp_logBase (s : State) (k i : Nat) : (s.wearUp k i).logBase = s.logBase := State.mapChanged_logBase _
@[simp] theorem State.wearUp_logRead (s : State) (k i : Nat) : (s.wearUp k i).logRead = s.logRead := State.mapChanged_logRead _
@[simp] theorem State.wearUp_logRing (s : State) (k i : Nat) : (s.wearUp k i).logRing = s.logRing := State.mapChanged_logRing _
@[simp] theorem State.wearUp_cores (s : State) (k i : Nat) : (s.wearUp k i).cores = s.cores := State.mapChanged_cores _
@[simp] theorem State.wearUp_bells (s : State) (k i : Nat) : (s.wearUp k i).bells = s.bells := State.mapChanged_bells _
@[simp] theorem State.wearUp_node (s : State) (k i : Nat) : (s.wearUp k i).node = s.node := State.mapChanged_node _
@[simp] theorem State.wearUp_tithes (s : State) (k i : Nat) : (s.wearUp k i).tithes = s.tithes := State.mapChanged_tithes _
@[simp] theorem State.wearUp_gws (s : State) (k i : Nat) : (s.wearUp k i).gws = s.gws := State.mapChanged_gws _
@[simp] theorem State.wearUp_cfg (s : State) (k i : Nat) : (s.wearUp k i).cfg = s.cfg := State.mapChanged_cfg _
@[simp] theorem State.wearUp_regions (s : State) (k i : Nat) : (s.wearUp k i).regions = s.regions := State.mapChanged_regions _
@[simp] theorem State.wearUp_tracePos (s : State) (k i : Nat) : (s.wearUp k i).tracePos = s.tracePos := State.mapChanged_tracePos _
@[simp] theorem State.wearUp_stackMem (s : State) (k i : Nat) : (s.wearUp k i).stackMem = s.stackMem := State.mapChanged_stackMem _
@[simp] theorem State.wearUp_bridgeMem (s : State) (k i : Nat) : (s.wearUp k i).bridgeMem = s.bridgeMem := State.mapChanged_bridgeMem _
@[simp] theorem State.wearUp_invPend (s : State) (k i : Nat) : (s.wearUp k i).invPend = s.invPend := State.mapChanged_invPend _
@[simp] theorem State.wearUp_invAcks (s : State) (k i : Nat) : (s.wearUp k i).invAcks = s.invAcks := State.mapChanged_invAcks _
@[simp] theorem State.wearUp_pageBell (s : State) (k i : Nat) : (s.wearUp k i).pageBell = s.pageBell := State.mapChanged_pageBell _
@[simp] theorem State.wearUp_nextId (s : State) (k i : Nat) : (s.wearUp k i).nextId = s.nextId := State.mapChanged_nextId _
@[simp] theorem State.wearUp_jobs (s : State) (k i : Nat) : (s.wearUp k i).jobs = s.jobs := State.mapChanged_jobs _
@[simp] theorem State.wearUp_xfers (s : State) (k i : Nat) : (s.wearUp k i).xfers = s.xfers := State.mapChanged_xfers _
@[simp] theorem State.wearUp_redSteps (s : State) (k i : Nat) : (s.wearUp k i).redSteps = s.redSteps := State.mapChanged_redSteps _
@[simp] theorem State.wearUp_runs (s : State) (k i : Nat) : (s.wearUp k i).runs = s.runs := State.mapChanged_runs _
@[simp] theorem State.wearUp_redBytes (s : State) (k i : Nat) : (s.wearUp k i).redBytes = s.redBytes := State.mapChanged_redBytes _
@[simp] theorem State.wearUp_seqs (s : State) (k i : Nat) : (s.wearUp k i).seqs = s.seqs := State.mapChanged_seqs _
@[simp] theorem State.wearUp_sheetBell (s : State) (k i : Nat) : (s.wearUp k i).sheetBell = s.sheetBell := State.mapChanged_sheetBell _
@[simp] theorem State.wearUp_sheetGot (s : State) (k i : Nat) : (s.wearUp k i).sheetGot = s.sheetGot := State.mapChanged_sheetGot _
@[simp] theorem State.wearUp_rings (s : State) (k i : Nat) : (s.wearUp k i).rings = s.rings := State.mapChanged_rings _
@[simp] theorem State.wearUp_outs (s : State) (k i : Nat) : (s.wearUp k i).outs = s.outs := State.mapChanged_outs _
@[simp] theorem State.wearUp_brackets (s : State) (k i : Nat) : (s.wearUp k i).brackets = s.brackets := State.mapChanged_brackets _
@[simp] theorem State.wearUp_links (s : State) (k i : Nat) : (s.wearUp k i).links = s.links := State.mapChanged_links _
@[simp] theorem State.wearUp_restores (s : State) (k i : Nat) : (s.wearUp k i).restores = s.restores := State.mapChanged_restores _
@[simp] theorem State.wearUp_hostTake (s : State) (k i : Nat) : (s.wearUp k i).hostTake = s.hostTake := State.mapChanged_hostTake _
@[simp] theorem State.wearUp_ingress (s : State) (k i : Nat) : (s.wearUp k i).ingress = s.ingress := State.mapChanged_ingress _
@[simp] theorem State.wearUp_egress (s : State) (k i : Nat) : (s.wearUp k i).egress = s.egress := State.mapChanged_egress _
@[simp] theorem State.wearUp_qpErr (s : State) (k i : Nat) : (s.wearUp k i).qpErr = s.qpErr := State.mapChanged_qpErr _
@[simp] theorem State.wearUp_qpRate (s : State) (k i : Nat) : (s.wearUp k i).qpRate = s.qpRate := State.mapChanged_qpRate _
@[simp] theorem State.wearUp_cnpAt (s : State) (k i : Nat) : (s.wearUp k i).cnpAt = s.cnpAt := State.mapChanged_cnpAt _
@[simp] theorem State.wearUp_conf (s : State) (k i : Nat) : (s.wearUp k i).conf = s.conf := State.mapChanged_conf _
@[simp] theorem State.wearUp_sas (s : State) (k i : Nat) : (s.wearUp k i).sas = s.sas := State.mapChanged_sas _
@[simp] theorem State.wearUp_opkey (s : State) (k i : Nat) : (s.wearUp k i).opkey = s.opkey := State.mapChanged_opkey _
@[simp] theorem State.wearUp_led (s : State) (k i : Nat) : (s.wearUp k i).led = s.led := State.mapChanged_led _
@[simp] theorem State.wearUp_xings (s : State) (k i : Nat) : (s.wearUp k i).xings = s.xings := State.mapChanged_xings _
@[simp] theorem State.wearUp_vc (s : State) (k i : Nat) : (s.wearUp k i).vc = s.vc := State.mapChanged_vc _
@[simp] theorem State.wearUp_vcmp (s : State) (k i : Nat) : (s.wearUp k i).vcmp = s.vcmp := State.mapChanged_vcmp _
@[simp] theorem State.wearUp_retireQ (s : State) (k i : Nat) : (s.wearUp k i).retireQ = s.retireQ := State.mapChanged_retireQ _
@[simp] theorem State.wearUp_lit (s : State) (k i : Nat) : (s.wearUp k i).lit = s.lit := State.mapChanged_lit _
@[simp] theorem State.wearUp_rcal (s : State) (k i : Nat) : (s.wearUp k i).rcal = s.rcal := State.mapChanged_rcal _
@[simp] theorem State.wearUp_combCal (s : State) (k i : Nat) : (s.wearUp k i).combCal = s.combCal := State.mapChanged_combCal _
@[simp] theorem State.wearUp_calRej (s : State) (k i : Nat) : (s.wearUp k i).calRej = s.calRej := State.mapChanged_calRej _
@[simp] theorem State.wearUp_calLast (s : State) (k i : Nat) : (s.wearUp k i).calLast = s.calLast := State.mapChanged_calLast _
@[simp] theorem State.wearUp_sensOut (s : State) (k i : Nat) : (s.wearUp k i).sensOut = s.sensOut := State.mapChanged_sensOut _
@[simp] theorem State.wearUp_classes (s : State) (k i : Nat) : (s.wearUp k i).classes = s.classes := State.mapChanged_classes _
@[simp] theorem State.wearUp_resets (s : State) (k i : Nat) : (s.wearUp k i).resets = s.resets := State.mapChanged_resets _
@[simp] theorem State.wearUp_fieldAt (s : State) (k i : Nat) : (s.wearUp k i).fieldAt = s.fieldAt := State.mapChanged_fieldAt _
@[simp] theorem State.wearUp_rolePend (s : State) (k i : Nat) : (s.wearUp k i).rolePend = s.rolePend := State.mapChanged_rolePend _
@[simp] theorem State.wearUp_bondHalf (s : State) (k i : Nat) : (s.wearUp k i).bondHalf = s.bondHalf := State.mapChanged_bondHalf _
@[simp] theorem State.wearUp_lms (s : State) (k i : Nat) : (s.wearUp k i).lms = s.lms := State.mapChanged_lms _
@[simp] theorem State.wearUp_attest (s : State) (k i : Nat) : (s.wearUp k i).attest = s.attest := State.mapChanged_attest _
@[simp] theorem State.wearUp_meas (s : State) (k i : Nat) : (s.wearUp k i).meas = s.meas := State.mapChanged_meas _
@[simp] theorem State.wearUp_opkeySeq (s : State) (k i : Nat) : (s.wearUp k i).opkeySeq = s.opkeySeq := State.mapChanged_opkeySeq _
@[simp] theorem State.wearUp_debugUsed (s : State) (k i : Nat) : (s.wearUp k i).debugUsed = s.debugUsed := State.mapChanged_debugUsed _
@[simp] theorem State.wearUp_power (s : State) (k i : Nat) : (s.wearUp k i).power = s.power := State.mapChanged_power _
@[simp] theorem State.wearUp_heat (s : State) (k i : Nat) : (s.wearUp k i).heat = s.heat := State.mapChanged_heat _
@[simp] theorem State.wearUp_pairAt (s : State) (k i : Nat) : (s.wearUp k i).pairAt = s.pairAt := State.mapChanged_pairAt _
@[simp] theorem State.wearUp_pairOff (s : State) (k i : Nat) : (s.wearUp k i).pairOff = s.pairOff := State.mapChanged_pairOff _
@[simp] theorem State.wearUp_pairLost (s : State) (k i : Nat) : (s.wearUp k i).pairLost = s.pairLost := State.mapChanged_pairLost _
@[simp] theorem State.wearUp_fast (s : State) (k i : Nat) : (s.wearUp k i).fast = s.fast := State.mapChanged_fast _
@[simp] theorem State.wearUp_jumpAt (s : State) (k i : Nat) : (s.wearUp k i).jumpAt = s.jumpAt := State.mapChanged_jumpAt _
@[simp] theorem State.wearUp_tripped (s : State) (k i : Nat) : (s.wearUp k i).tripped = s.tripped := State.mapChanged_tripped _
@[simp] theorem State.wearUp_trips (s : State) (k i : Nat) : (s.wearUp k i).trips = s.trips := State.mapChanged_trips _
@[simp] theorem State.wearUp_hbmSlow (s : State) (k i : Nat) : (s.wearUp k i).hbmSlow = s.hbmSlow := State.mapChanged_hbmSlow _
@[simp] theorem State.wearUp_fixed (s : State) (k i : Nat) : (s.wearUp k i).fixed = s.fixed := State.mapChanged_fixed _
@[simp] theorem State.wearUp_firmware (s : State) (k i : Nat) : (s.wearUp k i).firmware = s.firmware := State.mapChanged_firmware _
@[simp] theorem State.wearUp_sheetBase (s : State) (k i : Nat) : (s.wearUp k i).sheetBase = s.sheetBase := State.mapChanged_sheetBase _
@[simp] theorem State.wearUp_reports (s : State) (k i : Nat) : (s.wearUp k i).reports = s.reports := State.mapChanged_reports _
@[simp] theorem State.wearUp_startedFor (s : State) (k i : Nat) : (s.wearUp k i).startedFor = s.startedFor := State.mapChanged_startedFor _
@[simp] theorem State.wearUp_ckv (s : State) (k i : Nat) : (s.wearUp k i).ckv = s.ckv := State.mapChanged_ckv _
@[simp] theorem State.wearUp_mgmt (s : State) (k i : Nat) : (s.wearUp k i).mgmt = s.mgmt := State.mapChanged_mgmt _
@[simp] theorem State.wearUp_inbox (s : State) (k i : Nat) : (s.wearUp k i).inbox = s.inbox := State.mapChanged_inbox _
@[simp] theorem State.wearUp_dynAddr (s : State) (k i : Nat) : (s.wearUp k i).dynAddr = s.dynAddr := State.mapChanged_dynAddr _
@[simp] theorem State.wearUp_eid (s : State) (k i : Nat) : (s.wearUp k i).eid = s.eid := State.mapChanged_eid _
@[simp] theorem State.wearUp_tid (s : State) (k i : Nat) : (s.wearUp k i).tid = s.tid := State.mapChanged_tid _
@[simp] theorem State.wearUp_bscan (s : State) (k i : Nat) : (s.wearUp k i).bscan = s.bscan := State.mapChanged_bscan _

@[simp] theorem State.putRole_vt (s : State) (a b c r : Nat) : (s.putRole a b c r).vt = s.vt := rfl
@[simp] theorem State.putRole_vtFrac (s : State) (a b c r : Nat) : (s.putRole a b c r).vtFrac = s.vtFrac := rfl
@[simp] theorem State.putRole_rateTemp (s : State) (a b c r : Nat) : (s.putRole a b c r).rateTemp = s.rateTemp := rfl
@[simp] theorem State.putRole_rateServo (s : State) (a b c r : Nat) : (s.putRole a b c r).rateServo = s.rateServo := rfl
@[simp] theorem State.putRole_free (s : State) (a b c r : Nat) : (s.putRole a b c r).free = s.free := rfl
@[simp] theorem State.putRole_pending (s : State) (a b c r : Nat) : (s.putRole a b c r).pending = s.pending := rfl
@[simp] theorem State.putRole_out (s : State) (a b c r : Nat) : (s.putRole a b c r).out = s.out := rfl
@[simp] theorem State.putRole_regs (s : State) (a b c r : Nat) : (s.putRole a b c r).regs = s.regs := rfl
@[simp] theorem State.putRole_rlatch (s : State) (a b c r : Nat) : (s.putRole a b c r).rlatch = s.rlatch := rfl
@[simp] theorem State.putRole_wlatch (s : State) (a b c r : Nat) : (s.putRole a b c r).wlatch = s.wlatch := rfl
@[simp] theorem State.putRole_ringSel (s : State) (a b c r : Nat) : (s.putRole a b c r).ringSel = s.ringSel := rfl
@[simp] theorem State.putRole_wearSel (s : State) (a b c r : Nat) : (s.putRole a b c r).wearSel = s.wearSel := rfl
@[simp] theorem State.putRole_mem (s : State) (a b c r : Nat) : (s.putRole a b c r).mem = s.mem := rfl
@[simp] theorem State.putRole_grn (s : State) (a b c r : Nat) : (s.putRole a b c r).grn = s.grn := rfl
@[simp] theorem State.putRole_wear (s : State) (a b c r : Nat) : (s.putRole a b c r).wear = s.wear := rfl
@[simp] theorem State.putRole_log (s : State) (a b c r : Nat) : (s.putRole a b c r).log = s.log := rfl
@[simp] theorem State.putRole_logBase (s : State) (a b c r : Nat) : (s.putRole a b c r).logBase = s.logBase := rfl
@[simp] theorem State.putRole_logRead (s : State) (a b c r : Nat) : (s.putRole a b c r).logRead = s.logRead := rfl
@[simp] theorem State.putRole_logRing (s : State) (a b c r : Nat) : (s.putRole a b c r).logRing = s.logRing := rfl
@[simp] theorem State.putRole_cores (s : State) (a b c r : Nat) : (s.putRole a b c r).cores = s.cores := rfl
@[simp] theorem State.putRole_bells (s : State) (a b c r : Nat) : (s.putRole a b c r).bells = s.bells := rfl
@[simp] theorem State.putRole_node (s : State) (a b c r : Nat) : (s.putRole a b c r).node = s.node := rfl
@[simp] theorem State.putRole_tithes (s : State) (a b c r : Nat) : (s.putRole a b c r).tithes = s.tithes := rfl
@[simp] theorem State.putRole_gws (s : State) (a b c r : Nat) : (s.putRole a b c r).gws = s.gws := rfl
@[simp] theorem State.putRole_cfg (s : State) (a b c r : Nat) : (s.putRole a b c r).cfg = s.cfg := rfl
@[simp] theorem State.putRole_regions (s : State) (a b c r : Nat) : (s.putRole a b c r).regions = s.regions := rfl
@[simp] theorem State.putRole_tracePos (s : State) (a b c r : Nat) : (s.putRole a b c r).tracePos = s.tracePos := rfl
@[simp] theorem State.putRole_stackMem (s : State) (a b c r : Nat) : (s.putRole a b c r).stackMem = s.stackMem := rfl
@[simp] theorem State.putRole_bridgeMem (s : State) (a b c r : Nat) : (s.putRole a b c r).bridgeMem = s.bridgeMem := rfl
@[simp] theorem State.putRole_invPend (s : State) (a b c r : Nat) : (s.putRole a b c r).invPend = s.invPend := rfl
@[simp] theorem State.putRole_invAcks (s : State) (a b c r : Nat) : (s.putRole a b c r).invAcks = s.invAcks := rfl
@[simp] theorem State.putRole_pageBell (s : State) (a b c r : Nat) : (s.putRole a b c r).pageBell = s.pageBell := rfl
@[simp] theorem State.putRole_nextId (s : State) (a b c r : Nat) : (s.putRole a b c r).nextId = s.nextId := rfl
@[simp] theorem State.putRole_jobs (s : State) (a b c r : Nat) : (s.putRole a b c r).jobs = s.jobs := rfl
@[simp] theorem State.putRole_xfers (s : State) (a b c r : Nat) : (s.putRole a b c r).xfers = s.xfers := rfl
@[simp] theorem State.putRole_redSteps (s : State) (a b c r : Nat) : (s.putRole a b c r).redSteps = s.redSteps := rfl
@[simp] theorem State.putRole_runs (s : State) (a b c r : Nat) : (s.putRole a b c r).runs = s.runs := rfl
@[simp] theorem State.putRole_redBytes (s : State) (a b c r : Nat) : (s.putRole a b c r).redBytes = s.redBytes := rfl
@[simp] theorem State.putRole_seqs (s : State) (a b c r : Nat) : (s.putRole a b c r).seqs = s.seqs := rfl
@[simp] theorem State.putRole_sheetBell (s : State) (a b c r : Nat) : (s.putRole a b c r).sheetBell = s.sheetBell := rfl
@[simp] theorem State.putRole_sheetGot (s : State) (a b c r : Nat) : (s.putRole a b c r).sheetGot = s.sheetGot := rfl
@[simp] theorem State.putRole_rings (s : State) (a b c r : Nat) : (s.putRole a b c r).rings = s.rings := rfl
@[simp] theorem State.putRole_outs (s : State) (a b c r : Nat) : (s.putRole a b c r).outs = s.outs := rfl
@[simp] theorem State.putRole_brackets (s : State) (a b c r : Nat) : (s.putRole a b c r).brackets = s.brackets := rfl
@[simp] theorem State.putRole_links (s : State) (a b c r : Nat) : (s.putRole a b c r).links = s.links := rfl
@[simp] theorem State.putRole_restores (s : State) (a b c r : Nat) : (s.putRole a b c r).restores = s.restores := rfl
@[simp] theorem State.putRole_hostTake (s : State) (a b c r : Nat) : (s.putRole a b c r).hostTake = s.hostTake := rfl
@[simp] theorem State.putRole_ingress (s : State) (a b c r : Nat) : (s.putRole a b c r).ingress = s.ingress := rfl
@[simp] theorem State.putRole_egress (s : State) (a b c r : Nat) : (s.putRole a b c r).egress = s.egress := rfl
@[simp] theorem State.putRole_qpErr (s : State) (a b c r : Nat) : (s.putRole a b c r).qpErr = s.qpErr := rfl
@[simp] theorem State.putRole_qpRate (s : State) (a b c r : Nat) : (s.putRole a b c r).qpRate = s.qpRate := rfl
@[simp] theorem State.putRole_cnpAt (s : State) (a b c r : Nat) : (s.putRole a b c r).cnpAt = s.cnpAt := rfl
@[simp] theorem State.putRole_conf (s : State) (a b c r : Nat) : (s.putRole a b c r).conf = s.conf := rfl
@[simp] theorem State.putRole_sas (s : State) (a b c r : Nat) : (s.putRole a b c r).sas = s.sas := rfl
@[simp] theorem State.putRole_opkey (s : State) (a b c r : Nat) : (s.putRole a b c r).opkey = s.opkey := rfl
@[simp] theorem State.putRole_led (s : State) (a b c r : Nat) : (s.putRole a b c r).led = s.led := rfl
@[simp] theorem State.putRole_xings (s : State) (a b c r : Nat) : (s.putRole a b c r).xings = s.xings := rfl
@[simp] theorem State.putRole_vc (s : State) (a b c r : Nat) : (s.putRole a b c r).vc = s.vc := rfl
@[simp] theorem State.putRole_vcmp (s : State) (a b c r : Nat) : (s.putRole a b c r).vcmp = s.vcmp := rfl
@[simp] theorem State.putRole_retireQ (s : State) (a b c r : Nat) : (s.putRole a b c r).retireQ = s.retireQ := rfl
@[simp] theorem State.putRole_lit (s : State) (a b c r : Nat) : (s.putRole a b c r).lit = s.lit := rfl
@[simp] theorem State.putRole_rcal (s : State) (a b c r : Nat) : (s.putRole a b c r).rcal = s.rcal := rfl
@[simp] theorem State.putRole_combCal (s : State) (a b c r : Nat) : (s.putRole a b c r).combCal = s.combCal := rfl
@[simp] theorem State.putRole_calRej (s : State) (a b c r : Nat) : (s.putRole a b c r).calRej = s.calRej := rfl
@[simp] theorem State.putRole_calLast (s : State) (a b c r : Nat) : (s.putRole a b c r).calLast = s.calLast := rfl
@[simp] theorem State.putRole_sensOut (s : State) (a b c r : Nat) : (s.putRole a b c r).sensOut = s.sensOut := rfl
@[simp] theorem State.putRole_classes (s : State) (a b c r : Nat) : (s.putRole a b c r).classes = s.classes := rfl
@[simp] theorem State.putRole_resets (s : State) (a b c r : Nat) : (s.putRole a b c r).resets = s.resets := rfl
@[simp] theorem State.putRole_fieldAt (s : State) (a b c r : Nat) : (s.putRole a b c r).fieldAt = s.fieldAt := rfl
@[simp] theorem State.putRole_mapLag (s : State) (a b c r : Nat) : (s.putRole a b c r).mapLag = s.mapLag := rfl
@[simp] theorem State.putRole_bondHalf (s : State) (a b c r : Nat) : (s.putRole a b c r).bondHalf = s.bondHalf := rfl
@[simp] theorem State.putRole_lms (s : State) (a b c r : Nat) : (s.putRole a b c r).lms = s.lms := rfl
@[simp] theorem State.putRole_attest (s : State) (a b c r : Nat) : (s.putRole a b c r).attest = s.attest := rfl
@[simp] theorem State.putRole_meas (s : State) (a b c r : Nat) : (s.putRole a b c r).meas = s.meas := rfl
@[simp] theorem State.putRole_opkeySeq (s : State) (a b c r : Nat) : (s.putRole a b c r).opkeySeq = s.opkeySeq := rfl
@[simp] theorem State.putRole_debugUsed (s : State) (a b c r : Nat) : (s.putRole a b c r).debugUsed = s.debugUsed := rfl
@[simp] theorem State.putRole_power (s : State) (a b c r : Nat) : (s.putRole a b c r).power = s.power := rfl
@[simp] theorem State.putRole_heat (s : State) (a b c r : Nat) : (s.putRole a b c r).heat = s.heat := rfl
@[simp] theorem State.putRole_pairAt (s : State) (a b c r : Nat) : (s.putRole a b c r).pairAt = s.pairAt := rfl
@[simp] theorem State.putRole_pairOff (s : State) (a b c r : Nat) : (s.putRole a b c r).pairOff = s.pairOff := rfl
@[simp] theorem State.putRole_pairLost (s : State) (a b c r : Nat) : (s.putRole a b c r).pairLost = s.pairLost := rfl
@[simp] theorem State.putRole_fast (s : State) (a b c r : Nat) : (s.putRole a b c r).fast = s.fast := rfl
@[simp] theorem State.putRole_jumpAt (s : State) (a b c r : Nat) : (s.putRole a b c r).jumpAt = s.jumpAt := rfl
@[simp] theorem State.putRole_tripped (s : State) (a b c r : Nat) : (s.putRole a b c r).tripped = s.tripped := rfl
@[simp] theorem State.putRole_trips (s : State) (a b c r : Nat) : (s.putRole a b c r).trips = s.trips := rfl
@[simp] theorem State.putRole_hbmSlow (s : State) (a b c r : Nat) : (s.putRole a b c r).hbmSlow = s.hbmSlow := rfl
@[simp] theorem State.putRole_fixed (s : State) (a b c r : Nat) : (s.putRole a b c r).fixed = s.fixed := rfl
@[simp] theorem State.putRole_firmware (s : State) (a b c r : Nat) : (s.putRole a b c r).firmware = s.firmware := rfl
@[simp] theorem State.putRole_sheetBase (s : State) (a b c r : Nat) : (s.putRole a b c r).sheetBase = s.sheetBase := rfl
@[simp] theorem State.putRole_reports (s : State) (a b c r : Nat) : (s.putRole a b c r).reports = s.reports := rfl
@[simp] theorem State.putRole_startedFor (s : State) (a b c r : Nat) : (s.putRole a b c r).startedFor = s.startedFor := rfl
@[simp] theorem State.putRole_ckv (s : State) (a b c r : Nat) : (s.putRole a b c r).ckv = s.ckv := rfl
@[simp] theorem State.putRole_mgmt (s : State) (a b c r : Nat) : (s.putRole a b c r).mgmt = s.mgmt := rfl
@[simp] theorem State.putRole_inbox (s : State) (a b c r : Nat) : (s.putRole a b c r).inbox = s.inbox := rfl
@[simp] theorem State.putRole_dynAddr (s : State) (a b c r : Nat) : (s.putRole a b c r).dynAddr = s.dynAddr := rfl
@[simp] theorem State.putRole_eid (s : State) (a b c r : Nat) : (s.putRole a b c r).eid = s.eid := rfl
@[simp] theorem State.putRole_tid (s : State) (a b c r : Nat) : (s.putRole a b c r).tid = s.tid := rfl
@[simp] theorem State.putRole_bscan (s : State) (a b c r : Nat) : (s.putRole a b c r).bscan = s.bscan := rfl
@[simp] theorem State.putRole_markers (s : State) (a b c r : Nat) : (s.putRole a b c r).markers = s.markers := rfl
@[simp] theorem State.putRole_draws (s : State) (a b c r : Nat) : (s.putRole a b c r).draws = s.draws := rfl
@[simp] theorem State.putRole_saPins (s : State) (a b c r : Nat) : (s.putRole a b c r).saPins = s.saPins := rfl
@[simp] theorem State.putRole_drains (s : State) (a b c r : Nat) : (s.putRole a b c r).drains = s.drains := rfl
@[simp] theorem State.putRole_portNext (s : State) (a b c r : Nat) : (s.putRole a b c r).portNext = s.portNext := rfl
@[simp] theorem State.putRole_heldOut (s : State) (a b c r : Nat) : (s.putRole a b c r).heldOut = s.heldOut := rfl
@[simp] theorem State.putRole_txAn (s : State) (a b c r : Nat) : (s.putRole a b c r).txAn = s.txAn := rfl
@[simp] theorem State.putRole_ckvBy (s : State) (a b c r : Nat) : (s.putRole a b c r).ckvBy = s.ckvBy := rfl
@[simp] theorem State.putRole_hostLines (s : State) (a b c r : Nat) : (s.putRole a b c r).hostLines = s.hostLines := rfl
@[simp] theorem State.putRole_hostResv (s : State) (a b c r : Nat) : (s.putRole a b c r).hostResv = s.hostResv := rfl
@[simp] theorem State.putRole_imsic (s : State) (a b c r : Nat) : (s.putRole a b c r).imsic = s.imsic := rfl

@[simp] theorem State.setCore_vt (s : State) (k c : Nat) (x : CoreSt) : (s.setCore k c x).vt = s.vt := rfl
@[simp] theorem State.setCore_vtFrac (s : State) (k c : Nat) (x : CoreSt) : (s.setCore k c x).vtFrac = s.vtFrac := rfl
@[simp] theorem State.setCore_rateTemp (s : State) (k c : Nat) (x : CoreSt) : (s.setCore k c x).rateTemp = s.rateTemp := rfl
@[simp] theorem State.setCore_rateServo (s : State) (k c : Nat) (x : CoreSt) : (s.setCore k c x).rateServo = s.rateServo := rfl
@[simp] theorem State.setCore_free (s : State) (k c : Nat) (x : CoreSt) : (s.setCore k c x).free = s.free := rfl
@[simp] theorem State.setCore_pending (s : State) (k c : Nat) (x : CoreSt) : (s.setCore k c x).pending = s.pending := rfl
@[simp] theorem State.setCore_out (s : State) (k c : Nat) (x : CoreSt) : (s.setCore k c x).out = s.out := rfl
@[simp] theorem State.setCore_regs (s : State) (k c : Nat) (x : CoreSt) : (s.setCore k c x).regs = s.regs := rfl
@[simp] theorem State.setCore_rlatch (s : State) (k c : Nat) (x : CoreSt) : (s.setCore k c x).rlatch = s.rlatch := rfl
@[simp] theorem State.setCore_wlatch (s : State) (k c : Nat) (x : CoreSt) : (s.setCore k c x).wlatch = s.wlatch := rfl
@[simp] theorem State.setCore_ringSel (s : State) (k c : Nat) (x : CoreSt) : (s.setCore k c x).ringSel = s.ringSel := rfl
@[simp] theorem State.setCore_wearSel (s : State) (k c : Nat) (x : CoreSt) : (s.setCore k c x).wearSel = s.wearSel := rfl
@[simp] theorem State.setCore_mem (s : State) (k c : Nat) (x : CoreSt) : (s.setCore k c x).mem = s.mem := rfl
@[simp] theorem State.setCore_grn (s : State) (k c : Nat) (x : CoreSt) : (s.setCore k c x).grn = s.grn := rfl
@[simp] theorem State.setCore_wear (s : State) (k c : Nat) (x : CoreSt) : (s.setCore k c x).wear = s.wear := rfl
@[simp] theorem State.setCore_log (s : State) (k c : Nat) (x : CoreSt) : (s.setCore k c x).log = s.log := rfl
@[simp] theorem State.setCore_logBase (s : State) (k c : Nat) (x : CoreSt) : (s.setCore k c x).logBase = s.logBase := rfl
@[simp] theorem State.setCore_logRead (s : State) (k c : Nat) (x : CoreSt) : (s.setCore k c x).logRead = s.logRead := rfl
@[simp] theorem State.setCore_logRing (s : State) (k c : Nat) (x : CoreSt) : (s.setCore k c x).logRing = s.logRing := rfl
@[simp] theorem State.setCore_bells (s : State) (k c : Nat) (x : CoreSt) : (s.setCore k c x).bells = s.bells := rfl
@[simp] theorem State.setCore_node (s : State) (k c : Nat) (x : CoreSt) : (s.setCore k c x).node = s.node := rfl
@[simp] theorem State.setCore_tithes (s : State) (k c : Nat) (x : CoreSt) : (s.setCore k c x).tithes = s.tithes := rfl
@[simp] theorem State.setCore_gws (s : State) (k c : Nat) (x : CoreSt) : (s.setCore k c x).gws = s.gws := rfl
@[simp] theorem State.setCore_cfg (s : State) (k c : Nat) (x : CoreSt) : (s.setCore k c x).cfg = s.cfg := rfl
@[simp] theorem State.setCore_regions (s : State) (k c : Nat) (x : CoreSt) : (s.setCore k c x).regions = s.regions := rfl
@[simp] theorem State.setCore_tracePos (s : State) (k c : Nat) (x : CoreSt) : (s.setCore k c x).tracePos = s.tracePos := rfl
@[simp] theorem State.setCore_stackMem (s : State) (k c : Nat) (x : CoreSt) : (s.setCore k c x).stackMem = s.stackMem := rfl
@[simp] theorem State.setCore_bridgeMem (s : State) (k c : Nat) (x : CoreSt) : (s.setCore k c x).bridgeMem = s.bridgeMem := rfl
@[simp] theorem State.setCore_invPend (s : State) (k c : Nat) (x : CoreSt) : (s.setCore k c x).invPend = s.invPend := rfl
@[simp] theorem State.setCore_invAcks (s : State) (k c : Nat) (x : CoreSt) : (s.setCore k c x).invAcks = s.invAcks := rfl
@[simp] theorem State.setCore_pageBell (s : State) (k c : Nat) (x : CoreSt) : (s.setCore k c x).pageBell = s.pageBell := rfl
@[simp] theorem State.setCore_nextId (s : State) (k c : Nat) (x : CoreSt) : (s.setCore k c x).nextId = s.nextId := rfl
@[simp] theorem State.setCore_jobs (s : State) (k c : Nat) (x : CoreSt) : (s.setCore k c x).jobs = s.jobs := rfl
@[simp] theorem State.setCore_xfers (s : State) (k c : Nat) (x : CoreSt) : (s.setCore k c x).xfers = s.xfers := rfl
@[simp] theorem State.setCore_redSteps (s : State) (k c : Nat) (x : CoreSt) : (s.setCore k c x).redSteps = s.redSteps := rfl
@[simp] theorem State.setCore_runs (s : State) (k c : Nat) (x : CoreSt) : (s.setCore k c x).runs = s.runs := rfl
@[simp] theorem State.setCore_redBytes (s : State) (k c : Nat) (x : CoreSt) : (s.setCore k c x).redBytes = s.redBytes := rfl
@[simp] theorem State.setCore_seqs (s : State) (k c : Nat) (x : CoreSt) : (s.setCore k c x).seqs = s.seqs := rfl
@[simp] theorem State.setCore_sheetBell (s : State) (k c : Nat) (x : CoreSt) : (s.setCore k c x).sheetBell = s.sheetBell := rfl
@[simp] theorem State.setCore_sheetGot (s : State) (k c : Nat) (x : CoreSt) : (s.setCore k c x).sheetGot = s.sheetGot := rfl
@[simp] theorem State.setCore_rings (s : State) (k c : Nat) (x : CoreSt) : (s.setCore k c x).rings = s.rings := rfl
@[simp] theorem State.setCore_outs (s : State) (k c : Nat) (x : CoreSt) : (s.setCore k c x).outs = s.outs := rfl
@[simp] theorem State.setCore_brackets (s : State) (k c : Nat) (x : CoreSt) : (s.setCore k c x).brackets = s.brackets := rfl
@[simp] theorem State.setCore_links (s : State) (k c : Nat) (x : CoreSt) : (s.setCore k c x).links = s.links := rfl
@[simp] theorem State.setCore_restores (s : State) (k c : Nat) (x : CoreSt) : (s.setCore k c x).restores = s.restores := rfl
@[simp] theorem State.setCore_hostTake (s : State) (k c : Nat) (x : CoreSt) : (s.setCore k c x).hostTake = s.hostTake := rfl
@[simp] theorem State.setCore_ingress (s : State) (k c : Nat) (x : CoreSt) : (s.setCore k c x).ingress = s.ingress := rfl
@[simp] theorem State.setCore_egress (s : State) (k c : Nat) (x : CoreSt) : (s.setCore k c x).egress = s.egress := rfl
@[simp] theorem State.setCore_qpErr (s : State) (k c : Nat) (x : CoreSt) : (s.setCore k c x).qpErr = s.qpErr := rfl
@[simp] theorem State.setCore_qpRate (s : State) (k c : Nat) (x : CoreSt) : (s.setCore k c x).qpRate = s.qpRate := rfl
@[simp] theorem State.setCore_cnpAt (s : State) (k c : Nat) (x : CoreSt) : (s.setCore k c x).cnpAt = s.cnpAt := rfl
@[simp] theorem State.setCore_conf (s : State) (k c : Nat) (x : CoreSt) : (s.setCore k c x).conf = s.conf := rfl
@[simp] theorem State.setCore_sas (s : State) (k c : Nat) (x : CoreSt) : (s.setCore k c x).sas = s.sas := rfl
@[simp] theorem State.setCore_opkey (s : State) (k c : Nat) (x : CoreSt) : (s.setCore k c x).opkey = s.opkey := rfl
@[simp] theorem State.setCore_led (s : State) (k c : Nat) (x : CoreSt) : (s.setCore k c x).led = s.led := rfl
@[simp] theorem State.setCore_xings (s : State) (k c : Nat) (x : CoreSt) : (s.setCore k c x).xings = s.xings := rfl
@[simp] theorem State.setCore_vc (s : State) (k c : Nat) (x : CoreSt) : (s.setCore k c x).vc = s.vc := rfl
@[simp] theorem State.setCore_vcmp (s : State) (k c : Nat) (x : CoreSt) : (s.setCore k c x).vcmp = s.vcmp := rfl
@[simp] theorem State.setCore_retireQ (s : State) (k c : Nat) (x : CoreSt) : (s.setCore k c x).retireQ = s.retireQ := rfl
@[simp] theorem State.setCore_lit (s : State) (k c : Nat) (x : CoreSt) : (s.setCore k c x).lit = s.lit := rfl
@[simp] theorem State.setCore_rcal (s : State) (k c : Nat) (x : CoreSt) : (s.setCore k c x).rcal = s.rcal := rfl
@[simp] theorem State.setCore_combCal (s : State) (k c : Nat) (x : CoreSt) : (s.setCore k c x).combCal = s.combCal := rfl
@[simp] theorem State.setCore_calRej (s : State) (k c : Nat) (x : CoreSt) : (s.setCore k c x).calRej = s.calRej := rfl
@[simp] theorem State.setCore_calLast (s : State) (k c : Nat) (x : CoreSt) : (s.setCore k c x).calLast = s.calLast := rfl
@[simp] theorem State.setCore_sensOut (s : State) (k c : Nat) (x : CoreSt) : (s.setCore k c x).sensOut = s.sensOut := rfl
@[simp] theorem State.setCore_classes (s : State) (k c : Nat) (x : CoreSt) : (s.setCore k c x).classes = s.classes := rfl
@[simp] theorem State.setCore_resets (s : State) (k c : Nat) (x : CoreSt) : (s.setCore k c x).resets = s.resets := rfl
@[simp] theorem State.setCore_fieldAt (s : State) (k c : Nat) (x : CoreSt) : (s.setCore k c x).fieldAt = s.fieldAt := rfl
@[simp] theorem State.setCore_mapLag (s : State) (k c : Nat) (x : CoreSt) : (s.setCore k c x).mapLag = s.mapLag := rfl
@[simp] theorem State.setCore_rolePend (s : State) (k c : Nat) (x : CoreSt) : (s.setCore k c x).rolePend = s.rolePend := rfl
@[simp] theorem State.setCore_bondHalf (s : State) (k c : Nat) (x : CoreSt) : (s.setCore k c x).bondHalf = s.bondHalf := rfl
@[simp] theorem State.setCore_lms (s : State) (k c : Nat) (x : CoreSt) : (s.setCore k c x).lms = s.lms := rfl
@[simp] theorem State.setCore_attest (s : State) (k c : Nat) (x : CoreSt) : (s.setCore k c x).attest = s.attest := rfl
@[simp] theorem State.setCore_meas (s : State) (k c : Nat) (x : CoreSt) : (s.setCore k c x).meas = s.meas := rfl
@[simp] theorem State.setCore_opkeySeq (s : State) (k c : Nat) (x : CoreSt) : (s.setCore k c x).opkeySeq = s.opkeySeq := rfl
@[simp] theorem State.setCore_debugUsed (s : State) (k c : Nat) (x : CoreSt) : (s.setCore k c x).debugUsed = s.debugUsed := rfl
@[simp] theorem State.setCore_power (s : State) (k c : Nat) (x : CoreSt) : (s.setCore k c x).power = s.power := rfl
@[simp] theorem State.setCore_heat (s : State) (k c : Nat) (x : CoreSt) : (s.setCore k c x).heat = s.heat := rfl
@[simp] theorem State.setCore_pairAt (s : State) (k c : Nat) (x : CoreSt) : (s.setCore k c x).pairAt = s.pairAt := rfl
@[simp] theorem State.setCore_pairOff (s : State) (k c : Nat) (x : CoreSt) : (s.setCore k c x).pairOff = s.pairOff := rfl
@[simp] theorem State.setCore_pairLost (s : State) (k c : Nat) (x : CoreSt) : (s.setCore k c x).pairLost = s.pairLost := rfl
@[simp] theorem State.setCore_fast (s : State) (k c : Nat) (x : CoreSt) : (s.setCore k c x).fast = s.fast := rfl
@[simp] theorem State.setCore_jumpAt (s : State) (k c : Nat) (x : CoreSt) : (s.setCore k c x).jumpAt = s.jumpAt := rfl
@[simp] theorem State.setCore_tripped (s : State) (k c : Nat) (x : CoreSt) : (s.setCore k c x).tripped = s.tripped := rfl
@[simp] theorem State.setCore_trips (s : State) (k c : Nat) (x : CoreSt) : (s.setCore k c x).trips = s.trips := rfl
@[simp] theorem State.setCore_hbmSlow (s : State) (k c : Nat) (x : CoreSt) : (s.setCore k c x).hbmSlow = s.hbmSlow := rfl
@[simp] theorem State.setCore_fixed (s : State) (k c : Nat) (x : CoreSt) : (s.setCore k c x).fixed = s.fixed := rfl
@[simp] theorem State.setCore_firmware (s : State) (k c : Nat) (x : CoreSt) : (s.setCore k c x).firmware = s.firmware := rfl
@[simp] theorem State.setCore_sheetBase (s : State) (k c : Nat) (x : CoreSt) : (s.setCore k c x).sheetBase = s.sheetBase := rfl
@[simp] theorem State.setCore_reports (s : State) (k c : Nat) (x : CoreSt) : (s.setCore k c x).reports = s.reports := rfl
@[simp] theorem State.setCore_startedFor (s : State) (k c : Nat) (x : CoreSt) : (s.setCore k c x).startedFor = s.startedFor := rfl
@[simp] theorem State.setCore_ckv (s : State) (k c : Nat) (x : CoreSt) : (s.setCore k c x).ckv = s.ckv := rfl
@[simp] theorem State.setCore_mgmt (s : State) (k c : Nat) (x : CoreSt) : (s.setCore k c x).mgmt = s.mgmt := rfl
@[simp] theorem State.setCore_inbox (s : State) (k c : Nat) (x : CoreSt) : (s.setCore k c x).inbox = s.inbox := rfl
@[simp] theorem State.setCore_dynAddr (s : State) (k c : Nat) (x : CoreSt) : (s.setCore k c x).dynAddr = s.dynAddr := rfl
@[simp] theorem State.setCore_eid (s : State) (k c : Nat) (x : CoreSt) : (s.setCore k c x).eid = s.eid := rfl
@[simp] theorem State.setCore_tid (s : State) (k c : Nat) (x : CoreSt) : (s.setCore k c x).tid = s.tid := rfl
@[simp] theorem State.setCore_bscan (s : State) (k c : Nat) (x : CoreSt) : (s.setCore k c x).bscan = s.bscan := rfl
@[simp] theorem State.setCore_markers (s : State) (k c : Nat) (x : CoreSt) : (s.setCore k c x).markers = s.markers := rfl
@[simp] theorem State.setCore_draws (s : State) (k c : Nat) (x : CoreSt) : (s.setCore k c x).draws = s.draws := rfl
@[simp] theorem State.setCore_saPins (s : State) (k c : Nat) (x : CoreSt) : (s.setCore k c x).saPins = s.saPins := rfl
@[simp] theorem State.setCore_drains (s : State) (k c : Nat) (x : CoreSt) : (s.setCore k c x).drains = s.drains := rfl
@[simp] theorem State.setCore_portNext (s : State) (k c : Nat) (x : CoreSt) : (s.setCore k c x).portNext = s.portNext := rfl
@[simp] theorem State.setCore_heldOut (s : State) (k c : Nat) (x : CoreSt) : (s.setCore k c x).heldOut = s.heldOut := rfl
@[simp] theorem State.setCore_txAn (s : State) (k c : Nat) (x : CoreSt) : (s.setCore k c x).txAn = s.txAn := rfl
@[simp] theorem State.setCore_ckvBy (s : State) (k c : Nat) (x : CoreSt) : (s.setCore k c x).ckvBy = s.ckvBy := rfl
@[simp] theorem State.setCore_hostLines (s : State) (k c : Nat) (x : CoreSt) : (s.setCore k c x).hostLines = s.hostLines := rfl
@[simp] theorem State.setCore_hostResv (s : State) (k c : Nat) (x : CoreSt) : (s.setCore k c x).hostResv = s.hostResv := rfl
@[simp] theorem State.setCore_imsic (s : State) (k c : Nat) (x : CoreSt) : (s.setCore k c x).imsic = s.imsic := rfl

@[simp] theorem State.setBell_vt (s : State) (i : Nat) (x : SiteBell) : (s.setBell i x).vt = s.vt := rfl
@[simp] theorem State.setBell_vtFrac (s : State) (i : Nat) (x : SiteBell) : (s.setBell i x).vtFrac = s.vtFrac := rfl
@[simp] theorem State.setBell_rateTemp (s : State) (i : Nat) (x : SiteBell) : (s.setBell i x).rateTemp = s.rateTemp := rfl
@[simp] theorem State.setBell_rateServo (s : State) (i : Nat) (x : SiteBell) : (s.setBell i x).rateServo = s.rateServo := rfl
@[simp] theorem State.setBell_free (s : State) (i : Nat) (x : SiteBell) : (s.setBell i x).free = s.free := rfl
@[simp] theorem State.setBell_pending (s : State) (i : Nat) (x : SiteBell) : (s.setBell i x).pending = s.pending := rfl
@[simp] theorem State.setBell_out (s : State) (i : Nat) (x : SiteBell) : (s.setBell i x).out = s.out := rfl
@[simp] theorem State.setBell_regs (s : State) (i : Nat) (x : SiteBell) : (s.setBell i x).regs = s.regs := rfl
@[simp] theorem State.setBell_rlatch (s : State) (i : Nat) (x : SiteBell) : (s.setBell i x).rlatch = s.rlatch := rfl
@[simp] theorem State.setBell_wlatch (s : State) (i : Nat) (x : SiteBell) : (s.setBell i x).wlatch = s.wlatch := rfl
@[simp] theorem State.setBell_ringSel (s : State) (i : Nat) (x : SiteBell) : (s.setBell i x).ringSel = s.ringSel := rfl
@[simp] theorem State.setBell_wearSel (s : State) (i : Nat) (x : SiteBell) : (s.setBell i x).wearSel = s.wearSel := rfl
@[simp] theorem State.setBell_mem (s : State) (i : Nat) (x : SiteBell) : (s.setBell i x).mem = s.mem := rfl
@[simp] theorem State.setBell_grn (s : State) (i : Nat) (x : SiteBell) : (s.setBell i x).grn = s.grn := rfl
@[simp] theorem State.setBell_wear (s : State) (i : Nat) (x : SiteBell) : (s.setBell i x).wear = s.wear := rfl
@[simp] theorem State.setBell_log (s : State) (i : Nat) (x : SiteBell) : (s.setBell i x).log = s.log := rfl
@[simp] theorem State.setBell_logBase (s : State) (i : Nat) (x : SiteBell) : (s.setBell i x).logBase = s.logBase := rfl
@[simp] theorem State.setBell_logRead (s : State) (i : Nat) (x : SiteBell) : (s.setBell i x).logRead = s.logRead := rfl
@[simp] theorem State.setBell_logRing (s : State) (i : Nat) (x : SiteBell) : (s.setBell i x).logRing = s.logRing := rfl
@[simp] theorem State.setBell_cores (s : State) (i : Nat) (x : SiteBell) : (s.setBell i x).cores = s.cores := rfl
@[simp] theorem State.setBell_node (s : State) (i : Nat) (x : SiteBell) : (s.setBell i x).node = s.node := rfl
@[simp] theorem State.setBell_tithes (s : State) (i : Nat) (x : SiteBell) : (s.setBell i x).tithes = s.tithes := rfl
@[simp] theorem State.setBell_gws (s : State) (i : Nat) (x : SiteBell) : (s.setBell i x).gws = s.gws := rfl
@[simp] theorem State.setBell_cfg (s : State) (i : Nat) (x : SiteBell) : (s.setBell i x).cfg = s.cfg := rfl
@[simp] theorem State.setBell_regions (s : State) (i : Nat) (x : SiteBell) : (s.setBell i x).regions = s.regions := rfl
@[simp] theorem State.setBell_tracePos (s : State) (i : Nat) (x : SiteBell) : (s.setBell i x).tracePos = s.tracePos := rfl
@[simp] theorem State.setBell_stackMem (s : State) (i : Nat) (x : SiteBell) : (s.setBell i x).stackMem = s.stackMem := rfl
@[simp] theorem State.setBell_bridgeMem (s : State) (i : Nat) (x : SiteBell) : (s.setBell i x).bridgeMem = s.bridgeMem := rfl
@[simp] theorem State.setBell_invPend (s : State) (i : Nat) (x : SiteBell) : (s.setBell i x).invPend = s.invPend := rfl
@[simp] theorem State.setBell_invAcks (s : State) (i : Nat) (x : SiteBell) : (s.setBell i x).invAcks = s.invAcks := rfl
@[simp] theorem State.setBell_pageBell (s : State) (i : Nat) (x : SiteBell) : (s.setBell i x).pageBell = s.pageBell := rfl
@[simp] theorem State.setBell_nextId (s : State) (i : Nat) (x : SiteBell) : (s.setBell i x).nextId = s.nextId := rfl
@[simp] theorem State.setBell_jobs (s : State) (i : Nat) (x : SiteBell) : (s.setBell i x).jobs = s.jobs := rfl
@[simp] theorem State.setBell_xfers (s : State) (i : Nat) (x : SiteBell) : (s.setBell i x).xfers = s.xfers := rfl
@[simp] theorem State.setBell_redSteps (s : State) (i : Nat) (x : SiteBell) : (s.setBell i x).redSteps = s.redSteps := rfl
@[simp] theorem State.setBell_runs (s : State) (i : Nat) (x : SiteBell) : (s.setBell i x).runs = s.runs := rfl
@[simp] theorem State.setBell_redBytes (s : State) (i : Nat) (x : SiteBell) : (s.setBell i x).redBytes = s.redBytes := rfl
@[simp] theorem State.setBell_seqs (s : State) (i : Nat) (x : SiteBell) : (s.setBell i x).seqs = s.seqs := rfl
@[simp] theorem State.setBell_sheetBell (s : State) (i : Nat) (x : SiteBell) : (s.setBell i x).sheetBell = s.sheetBell := rfl
@[simp] theorem State.setBell_sheetGot (s : State) (i : Nat) (x : SiteBell) : (s.setBell i x).sheetGot = s.sheetGot := rfl
@[simp] theorem State.setBell_rings (s : State) (i : Nat) (x : SiteBell) : (s.setBell i x).rings = s.rings := rfl
@[simp] theorem State.setBell_outs (s : State) (i : Nat) (x : SiteBell) : (s.setBell i x).outs = s.outs := rfl
@[simp] theorem State.setBell_brackets (s : State) (i : Nat) (x : SiteBell) : (s.setBell i x).brackets = s.brackets := rfl
@[simp] theorem State.setBell_links (s : State) (i : Nat) (x : SiteBell) : (s.setBell i x).links = s.links := rfl
@[simp] theorem State.setBell_restores (s : State) (i : Nat) (x : SiteBell) : (s.setBell i x).restores = s.restores := rfl
@[simp] theorem State.setBell_hostTake (s : State) (i : Nat) (x : SiteBell) : (s.setBell i x).hostTake = s.hostTake := rfl
@[simp] theorem State.setBell_ingress (s : State) (i : Nat) (x : SiteBell) : (s.setBell i x).ingress = s.ingress := rfl
@[simp] theorem State.setBell_egress (s : State) (i : Nat) (x : SiteBell) : (s.setBell i x).egress = s.egress := rfl
@[simp] theorem State.setBell_qpErr (s : State) (i : Nat) (x : SiteBell) : (s.setBell i x).qpErr = s.qpErr := rfl
@[simp] theorem State.setBell_qpRate (s : State) (i : Nat) (x : SiteBell) : (s.setBell i x).qpRate = s.qpRate := rfl
@[simp] theorem State.setBell_cnpAt (s : State) (i : Nat) (x : SiteBell) : (s.setBell i x).cnpAt = s.cnpAt := rfl
@[simp] theorem State.setBell_conf (s : State) (i : Nat) (x : SiteBell) : (s.setBell i x).conf = s.conf := rfl
@[simp] theorem State.setBell_sas (s : State) (i : Nat) (x : SiteBell) : (s.setBell i x).sas = s.sas := rfl
@[simp] theorem State.setBell_opkey (s : State) (i : Nat) (x : SiteBell) : (s.setBell i x).opkey = s.opkey := rfl
@[simp] theorem State.setBell_led (s : State) (i : Nat) (x : SiteBell) : (s.setBell i x).led = s.led := rfl
@[simp] theorem State.setBell_xings (s : State) (i : Nat) (x : SiteBell) : (s.setBell i x).xings = s.xings := rfl
@[simp] theorem State.setBell_vc (s : State) (i : Nat) (x : SiteBell) : (s.setBell i x).vc = s.vc := rfl
@[simp] theorem State.setBell_vcmp (s : State) (i : Nat) (x : SiteBell) : (s.setBell i x).vcmp = s.vcmp := rfl
@[simp] theorem State.setBell_retireQ (s : State) (i : Nat) (x : SiteBell) : (s.setBell i x).retireQ = s.retireQ := rfl
@[simp] theorem State.setBell_lit (s : State) (i : Nat) (x : SiteBell) : (s.setBell i x).lit = s.lit := rfl
@[simp] theorem State.setBell_rcal (s : State) (i : Nat) (x : SiteBell) : (s.setBell i x).rcal = s.rcal := rfl
@[simp] theorem State.setBell_combCal (s : State) (i : Nat) (x : SiteBell) : (s.setBell i x).combCal = s.combCal := rfl
@[simp] theorem State.setBell_calRej (s : State) (i : Nat) (x : SiteBell) : (s.setBell i x).calRej = s.calRej := rfl
@[simp] theorem State.setBell_calLast (s : State) (i : Nat) (x : SiteBell) : (s.setBell i x).calLast = s.calLast := rfl
@[simp] theorem State.setBell_sensOut (s : State) (i : Nat) (x : SiteBell) : (s.setBell i x).sensOut = s.sensOut := rfl
@[simp] theorem State.setBell_classes (s : State) (i : Nat) (x : SiteBell) : (s.setBell i x).classes = s.classes := rfl
@[simp] theorem State.setBell_resets (s : State) (i : Nat) (x : SiteBell) : (s.setBell i x).resets = s.resets := rfl
@[simp] theorem State.setBell_fieldAt (s : State) (i : Nat) (x : SiteBell) : (s.setBell i x).fieldAt = s.fieldAt := rfl
@[simp] theorem State.setBell_mapLag (s : State) (i : Nat) (x : SiteBell) : (s.setBell i x).mapLag = s.mapLag := rfl
@[simp] theorem State.setBell_rolePend (s : State) (i : Nat) (x : SiteBell) : (s.setBell i x).rolePend = s.rolePend := rfl
@[simp] theorem State.setBell_bondHalf (s : State) (i : Nat) (x : SiteBell) : (s.setBell i x).bondHalf = s.bondHalf := rfl
@[simp] theorem State.setBell_lms (s : State) (i : Nat) (x : SiteBell) : (s.setBell i x).lms = s.lms := rfl
@[simp] theorem State.setBell_attest (s : State) (i : Nat) (x : SiteBell) : (s.setBell i x).attest = s.attest := rfl
@[simp] theorem State.setBell_meas (s : State) (i : Nat) (x : SiteBell) : (s.setBell i x).meas = s.meas := rfl
@[simp] theorem State.setBell_opkeySeq (s : State) (i : Nat) (x : SiteBell) : (s.setBell i x).opkeySeq = s.opkeySeq := rfl
@[simp] theorem State.setBell_debugUsed (s : State) (i : Nat) (x : SiteBell) : (s.setBell i x).debugUsed = s.debugUsed := rfl
@[simp] theorem State.setBell_power (s : State) (i : Nat) (x : SiteBell) : (s.setBell i x).power = s.power := rfl
@[simp] theorem State.setBell_heat (s : State) (i : Nat) (x : SiteBell) : (s.setBell i x).heat = s.heat := rfl
@[simp] theorem State.setBell_pairAt (s : State) (i : Nat) (x : SiteBell) : (s.setBell i x).pairAt = s.pairAt := rfl
@[simp] theorem State.setBell_pairOff (s : State) (i : Nat) (x : SiteBell) : (s.setBell i x).pairOff = s.pairOff := rfl
@[simp] theorem State.setBell_pairLost (s : State) (i : Nat) (x : SiteBell) : (s.setBell i x).pairLost = s.pairLost := rfl
@[simp] theorem State.setBell_fast (s : State) (i : Nat) (x : SiteBell) : (s.setBell i x).fast = s.fast := rfl
@[simp] theorem State.setBell_jumpAt (s : State) (i : Nat) (x : SiteBell) : (s.setBell i x).jumpAt = s.jumpAt := rfl
@[simp] theorem State.setBell_tripped (s : State) (i : Nat) (x : SiteBell) : (s.setBell i x).tripped = s.tripped := rfl
@[simp] theorem State.setBell_trips (s : State) (i : Nat) (x : SiteBell) : (s.setBell i x).trips = s.trips := rfl
@[simp] theorem State.setBell_hbmSlow (s : State) (i : Nat) (x : SiteBell) : (s.setBell i x).hbmSlow = s.hbmSlow := rfl
@[simp] theorem State.setBell_fixed (s : State) (i : Nat) (x : SiteBell) : (s.setBell i x).fixed = s.fixed := rfl
@[simp] theorem State.setBell_firmware (s : State) (i : Nat) (x : SiteBell) : (s.setBell i x).firmware = s.firmware := rfl
@[simp] theorem State.setBell_sheetBase (s : State) (i : Nat) (x : SiteBell) : (s.setBell i x).sheetBase = s.sheetBase := rfl
@[simp] theorem State.setBell_reports (s : State) (i : Nat) (x : SiteBell) : (s.setBell i x).reports = s.reports := rfl
@[simp] theorem State.setBell_startedFor (s : State) (i : Nat) (x : SiteBell) : (s.setBell i x).startedFor = s.startedFor := rfl
@[simp] theorem State.setBell_ckv (s : State) (i : Nat) (x : SiteBell) : (s.setBell i x).ckv = s.ckv := rfl
@[simp] theorem State.setBell_mgmt (s : State) (i : Nat) (x : SiteBell) : (s.setBell i x).mgmt = s.mgmt := rfl
@[simp] theorem State.setBell_inbox (s : State) (i : Nat) (x : SiteBell) : (s.setBell i x).inbox = s.inbox := rfl
@[simp] theorem State.setBell_dynAddr (s : State) (i : Nat) (x : SiteBell) : (s.setBell i x).dynAddr = s.dynAddr := rfl
@[simp] theorem State.setBell_eid (s : State) (i : Nat) (x : SiteBell) : (s.setBell i x).eid = s.eid := rfl
@[simp] theorem State.setBell_tid (s : State) (i : Nat) (x : SiteBell) : (s.setBell i x).tid = s.tid := rfl
@[simp] theorem State.setBell_bscan (s : State) (i : Nat) (x : SiteBell) : (s.setBell i x).bscan = s.bscan := rfl
@[simp] theorem State.setBell_markers (s : State) (i : Nat) (x : SiteBell) : (s.setBell i x).markers = s.markers := rfl
@[simp] theorem State.setBell_draws (s : State) (i : Nat) (x : SiteBell) : (s.setBell i x).draws = s.draws := rfl
@[simp] theorem State.setBell_saPins (s : State) (i : Nat) (x : SiteBell) : (s.setBell i x).saPins = s.saPins := rfl
@[simp] theorem State.setBell_drains (s : State) (i : Nat) (x : SiteBell) : (s.setBell i x).drains = s.drains := rfl
@[simp] theorem State.setBell_portNext (s : State) (i : Nat) (x : SiteBell) : (s.setBell i x).portNext = s.portNext := rfl
@[simp] theorem State.setBell_heldOut (s : State) (i : Nat) (x : SiteBell) : (s.setBell i x).heldOut = s.heldOut := rfl
@[simp] theorem State.setBell_txAn (s : State) (i : Nat) (x : SiteBell) : (s.setBell i x).txAn = s.txAn := rfl
@[simp] theorem State.setBell_ckvBy (s : State) (i : Nat) (x : SiteBell) : (s.setBell i x).ckvBy = s.ckvBy := rfl
@[simp] theorem State.setBell_hostLines (s : State) (i : Nat) (x : SiteBell) : (s.setBell i x).hostLines = s.hostLines := rfl
@[simp] theorem State.setBell_hostResv (s : State) (i : Nat) (x : SiteBell) : (s.setBell i x).hostResv = s.hostResv := rfl
@[simp] theorem State.setBell_imsic (s : State) (i : Nat) (x : SiteBell) : (s.setBell i x).imsic = s.imsic := rfl

@[simp] theorem State.setTithe_vt (s : State) (i : Nat) (x : TitheSt) : (s.setTithe i x).vt = s.vt := rfl
@[simp] theorem State.setTithe_vtFrac (s : State) (i : Nat) (x : TitheSt) : (s.setTithe i x).vtFrac = s.vtFrac := rfl
@[simp] theorem State.setTithe_rateTemp (s : State) (i : Nat) (x : TitheSt) : (s.setTithe i x).rateTemp = s.rateTemp := rfl
@[simp] theorem State.setTithe_rateServo (s : State) (i : Nat) (x : TitheSt) : (s.setTithe i x).rateServo = s.rateServo := rfl
@[simp] theorem State.setTithe_free (s : State) (i : Nat) (x : TitheSt) : (s.setTithe i x).free = s.free := rfl
@[simp] theorem State.setTithe_pending (s : State) (i : Nat) (x : TitheSt) : (s.setTithe i x).pending = s.pending := rfl
@[simp] theorem State.setTithe_out (s : State) (i : Nat) (x : TitheSt) : (s.setTithe i x).out = s.out := rfl
@[simp] theorem State.setTithe_regs (s : State) (i : Nat) (x : TitheSt) : (s.setTithe i x).regs = s.regs := rfl
@[simp] theorem State.setTithe_rlatch (s : State) (i : Nat) (x : TitheSt) : (s.setTithe i x).rlatch = s.rlatch := rfl
@[simp] theorem State.setTithe_wlatch (s : State) (i : Nat) (x : TitheSt) : (s.setTithe i x).wlatch = s.wlatch := rfl
@[simp] theorem State.setTithe_ringSel (s : State) (i : Nat) (x : TitheSt) : (s.setTithe i x).ringSel = s.ringSel := rfl
@[simp] theorem State.setTithe_wearSel (s : State) (i : Nat) (x : TitheSt) : (s.setTithe i x).wearSel = s.wearSel := rfl
@[simp] theorem State.setTithe_mem (s : State) (i : Nat) (x : TitheSt) : (s.setTithe i x).mem = s.mem := rfl
@[simp] theorem State.setTithe_grn (s : State) (i : Nat) (x : TitheSt) : (s.setTithe i x).grn = s.grn := rfl
@[simp] theorem State.setTithe_wear (s : State) (i : Nat) (x : TitheSt) : (s.setTithe i x).wear = s.wear := rfl
@[simp] theorem State.setTithe_log (s : State) (i : Nat) (x : TitheSt) : (s.setTithe i x).log = s.log := rfl
@[simp] theorem State.setTithe_logBase (s : State) (i : Nat) (x : TitheSt) : (s.setTithe i x).logBase = s.logBase := rfl
@[simp] theorem State.setTithe_logRead (s : State) (i : Nat) (x : TitheSt) : (s.setTithe i x).logRead = s.logRead := rfl
@[simp] theorem State.setTithe_logRing (s : State) (i : Nat) (x : TitheSt) : (s.setTithe i x).logRing = s.logRing := rfl
@[simp] theorem State.setTithe_cores (s : State) (i : Nat) (x : TitheSt) : (s.setTithe i x).cores = s.cores := rfl
@[simp] theorem State.setTithe_bells (s : State) (i : Nat) (x : TitheSt) : (s.setTithe i x).bells = s.bells := rfl
@[simp] theorem State.setTithe_node (s : State) (i : Nat) (x : TitheSt) : (s.setTithe i x).node = s.node := rfl
@[simp] theorem State.setTithe_gws (s : State) (i : Nat) (x : TitheSt) : (s.setTithe i x).gws = s.gws := rfl
@[simp] theorem State.setTithe_cfg (s : State) (i : Nat) (x : TitheSt) : (s.setTithe i x).cfg = s.cfg := rfl
@[simp] theorem State.setTithe_regions (s : State) (i : Nat) (x : TitheSt) : (s.setTithe i x).regions = s.regions := rfl
@[simp] theorem State.setTithe_tracePos (s : State) (i : Nat) (x : TitheSt) : (s.setTithe i x).tracePos = s.tracePos := rfl
@[simp] theorem State.setTithe_stackMem (s : State) (i : Nat) (x : TitheSt) : (s.setTithe i x).stackMem = s.stackMem := rfl
@[simp] theorem State.setTithe_bridgeMem (s : State) (i : Nat) (x : TitheSt) : (s.setTithe i x).bridgeMem = s.bridgeMem := rfl
@[simp] theorem State.setTithe_invPend (s : State) (i : Nat) (x : TitheSt) : (s.setTithe i x).invPend = s.invPend := rfl
@[simp] theorem State.setTithe_invAcks (s : State) (i : Nat) (x : TitheSt) : (s.setTithe i x).invAcks = s.invAcks := rfl
@[simp] theorem State.setTithe_pageBell (s : State) (i : Nat) (x : TitheSt) : (s.setTithe i x).pageBell = s.pageBell := rfl
@[simp] theorem State.setTithe_nextId (s : State) (i : Nat) (x : TitheSt) : (s.setTithe i x).nextId = s.nextId := rfl
@[simp] theorem State.setTithe_jobs (s : State) (i : Nat) (x : TitheSt) : (s.setTithe i x).jobs = s.jobs := rfl
@[simp] theorem State.setTithe_xfers (s : State) (i : Nat) (x : TitheSt) : (s.setTithe i x).xfers = s.xfers := rfl
@[simp] theorem State.setTithe_redSteps (s : State) (i : Nat) (x : TitheSt) : (s.setTithe i x).redSteps = s.redSteps := rfl
@[simp] theorem State.setTithe_runs (s : State) (i : Nat) (x : TitheSt) : (s.setTithe i x).runs = s.runs := rfl
@[simp] theorem State.setTithe_redBytes (s : State) (i : Nat) (x : TitheSt) : (s.setTithe i x).redBytes = s.redBytes := rfl
@[simp] theorem State.setTithe_seqs (s : State) (i : Nat) (x : TitheSt) : (s.setTithe i x).seqs = s.seqs := rfl
@[simp] theorem State.setTithe_sheetBell (s : State) (i : Nat) (x : TitheSt) : (s.setTithe i x).sheetBell = s.sheetBell := rfl
@[simp] theorem State.setTithe_sheetGot (s : State) (i : Nat) (x : TitheSt) : (s.setTithe i x).sheetGot = s.sheetGot := rfl
@[simp] theorem State.setTithe_rings (s : State) (i : Nat) (x : TitheSt) : (s.setTithe i x).rings = s.rings := rfl
@[simp] theorem State.setTithe_outs (s : State) (i : Nat) (x : TitheSt) : (s.setTithe i x).outs = s.outs := rfl
@[simp] theorem State.setTithe_brackets (s : State) (i : Nat) (x : TitheSt) : (s.setTithe i x).brackets = s.brackets := rfl
@[simp] theorem State.setTithe_links (s : State) (i : Nat) (x : TitheSt) : (s.setTithe i x).links = s.links := rfl
@[simp] theorem State.setTithe_restores (s : State) (i : Nat) (x : TitheSt) : (s.setTithe i x).restores = s.restores := rfl
@[simp] theorem State.setTithe_hostTake (s : State) (i : Nat) (x : TitheSt) : (s.setTithe i x).hostTake = s.hostTake := rfl
@[simp] theorem State.setTithe_ingress (s : State) (i : Nat) (x : TitheSt) : (s.setTithe i x).ingress = s.ingress := rfl
@[simp] theorem State.setTithe_egress (s : State) (i : Nat) (x : TitheSt) : (s.setTithe i x).egress = s.egress := rfl
@[simp] theorem State.setTithe_qpErr (s : State) (i : Nat) (x : TitheSt) : (s.setTithe i x).qpErr = s.qpErr := rfl
@[simp] theorem State.setTithe_qpRate (s : State) (i : Nat) (x : TitheSt) : (s.setTithe i x).qpRate = s.qpRate := rfl
@[simp] theorem State.setTithe_cnpAt (s : State) (i : Nat) (x : TitheSt) : (s.setTithe i x).cnpAt = s.cnpAt := rfl
@[simp] theorem State.setTithe_conf (s : State) (i : Nat) (x : TitheSt) : (s.setTithe i x).conf = s.conf := rfl
@[simp] theorem State.setTithe_sas (s : State) (i : Nat) (x : TitheSt) : (s.setTithe i x).sas = s.sas := rfl
@[simp] theorem State.setTithe_opkey (s : State) (i : Nat) (x : TitheSt) : (s.setTithe i x).opkey = s.opkey := rfl
@[simp] theorem State.setTithe_led (s : State) (i : Nat) (x : TitheSt) : (s.setTithe i x).led = s.led := rfl
@[simp] theorem State.setTithe_xings (s : State) (i : Nat) (x : TitheSt) : (s.setTithe i x).xings = s.xings := rfl
@[simp] theorem State.setTithe_vc (s : State) (i : Nat) (x : TitheSt) : (s.setTithe i x).vc = s.vc := rfl
@[simp] theorem State.setTithe_vcmp (s : State) (i : Nat) (x : TitheSt) : (s.setTithe i x).vcmp = s.vcmp := rfl
@[simp] theorem State.setTithe_retireQ (s : State) (i : Nat) (x : TitheSt) : (s.setTithe i x).retireQ = s.retireQ := rfl
@[simp] theorem State.setTithe_lit (s : State) (i : Nat) (x : TitheSt) : (s.setTithe i x).lit = s.lit := rfl
@[simp] theorem State.setTithe_rcal (s : State) (i : Nat) (x : TitheSt) : (s.setTithe i x).rcal = s.rcal := rfl
@[simp] theorem State.setTithe_combCal (s : State) (i : Nat) (x : TitheSt) : (s.setTithe i x).combCal = s.combCal := rfl
@[simp] theorem State.setTithe_calRej (s : State) (i : Nat) (x : TitheSt) : (s.setTithe i x).calRej = s.calRej := rfl
@[simp] theorem State.setTithe_calLast (s : State) (i : Nat) (x : TitheSt) : (s.setTithe i x).calLast = s.calLast := rfl
@[simp] theorem State.setTithe_sensOut (s : State) (i : Nat) (x : TitheSt) : (s.setTithe i x).sensOut = s.sensOut := rfl
@[simp] theorem State.setTithe_classes (s : State) (i : Nat) (x : TitheSt) : (s.setTithe i x).classes = s.classes := rfl
@[simp] theorem State.setTithe_resets (s : State) (i : Nat) (x : TitheSt) : (s.setTithe i x).resets = s.resets := rfl
@[simp] theorem State.setTithe_fieldAt (s : State) (i : Nat) (x : TitheSt) : (s.setTithe i x).fieldAt = s.fieldAt := rfl
@[simp] theorem State.setTithe_mapLag (s : State) (i : Nat) (x : TitheSt) : (s.setTithe i x).mapLag = s.mapLag := rfl
@[simp] theorem State.setTithe_rolePend (s : State) (i : Nat) (x : TitheSt) : (s.setTithe i x).rolePend = s.rolePend := rfl
@[simp] theorem State.setTithe_bondHalf (s : State) (i : Nat) (x : TitheSt) : (s.setTithe i x).bondHalf = s.bondHalf := rfl
@[simp] theorem State.setTithe_lms (s : State) (i : Nat) (x : TitheSt) : (s.setTithe i x).lms = s.lms := rfl
@[simp] theorem State.setTithe_attest (s : State) (i : Nat) (x : TitheSt) : (s.setTithe i x).attest = s.attest := rfl
@[simp] theorem State.setTithe_meas (s : State) (i : Nat) (x : TitheSt) : (s.setTithe i x).meas = s.meas := rfl
@[simp] theorem State.setTithe_opkeySeq (s : State) (i : Nat) (x : TitheSt) : (s.setTithe i x).opkeySeq = s.opkeySeq := rfl
@[simp] theorem State.setTithe_debugUsed (s : State) (i : Nat) (x : TitheSt) : (s.setTithe i x).debugUsed = s.debugUsed := rfl
@[simp] theorem State.setTithe_power (s : State) (i : Nat) (x : TitheSt) : (s.setTithe i x).power = s.power := rfl
@[simp] theorem State.setTithe_heat (s : State) (i : Nat) (x : TitheSt) : (s.setTithe i x).heat = s.heat := rfl
@[simp] theorem State.setTithe_pairAt (s : State) (i : Nat) (x : TitheSt) : (s.setTithe i x).pairAt = s.pairAt := rfl
@[simp] theorem State.setTithe_pairOff (s : State) (i : Nat) (x : TitheSt) : (s.setTithe i x).pairOff = s.pairOff := rfl
@[simp] theorem State.setTithe_pairLost (s : State) (i : Nat) (x : TitheSt) : (s.setTithe i x).pairLost = s.pairLost := rfl
@[simp] theorem State.setTithe_fast (s : State) (i : Nat) (x : TitheSt) : (s.setTithe i x).fast = s.fast := rfl
@[simp] theorem State.setTithe_jumpAt (s : State) (i : Nat) (x : TitheSt) : (s.setTithe i x).jumpAt = s.jumpAt := rfl
@[simp] theorem State.setTithe_tripped (s : State) (i : Nat) (x : TitheSt) : (s.setTithe i x).tripped = s.tripped := rfl
@[simp] theorem State.setTithe_trips (s : State) (i : Nat) (x : TitheSt) : (s.setTithe i x).trips = s.trips := rfl
@[simp] theorem State.setTithe_hbmSlow (s : State) (i : Nat) (x : TitheSt) : (s.setTithe i x).hbmSlow = s.hbmSlow := rfl
@[simp] theorem State.setTithe_fixed (s : State) (i : Nat) (x : TitheSt) : (s.setTithe i x).fixed = s.fixed := rfl
@[simp] theorem State.setTithe_firmware (s : State) (i : Nat) (x : TitheSt) : (s.setTithe i x).firmware = s.firmware := rfl
@[simp] theorem State.setTithe_sheetBase (s : State) (i : Nat) (x : TitheSt) : (s.setTithe i x).sheetBase = s.sheetBase := rfl
@[simp] theorem State.setTithe_reports (s : State) (i : Nat) (x : TitheSt) : (s.setTithe i x).reports = s.reports := rfl
@[simp] theorem State.setTithe_startedFor (s : State) (i : Nat) (x : TitheSt) : (s.setTithe i x).startedFor = s.startedFor := rfl
@[simp] theorem State.setTithe_ckv (s : State) (i : Nat) (x : TitheSt) : (s.setTithe i x).ckv = s.ckv := rfl
@[simp] theorem State.setTithe_mgmt (s : State) (i : Nat) (x : TitheSt) : (s.setTithe i x).mgmt = s.mgmt := rfl
@[simp] theorem State.setTithe_inbox (s : State) (i : Nat) (x : TitheSt) : (s.setTithe i x).inbox = s.inbox := rfl
@[simp] theorem State.setTithe_dynAddr (s : State) (i : Nat) (x : TitheSt) : (s.setTithe i x).dynAddr = s.dynAddr := rfl
@[simp] theorem State.setTithe_eid (s : State) (i : Nat) (x : TitheSt) : (s.setTithe i x).eid = s.eid := rfl
@[simp] theorem State.setTithe_tid (s : State) (i : Nat) (x : TitheSt) : (s.setTithe i x).tid = s.tid := rfl
@[simp] theorem State.setTithe_bscan (s : State) (i : Nat) (x : TitheSt) : (s.setTithe i x).bscan = s.bscan := rfl
@[simp] theorem State.setTithe_markers (s : State) (i : Nat) (x : TitheSt) : (s.setTithe i x).markers = s.markers := rfl
@[simp] theorem State.setTithe_draws (s : State) (i : Nat) (x : TitheSt) : (s.setTithe i x).draws = s.draws := rfl
@[simp] theorem State.setTithe_saPins (s : State) (i : Nat) (x : TitheSt) : (s.setTithe i x).saPins = s.saPins := rfl
@[simp] theorem State.setTithe_drains (s : State) (i : Nat) (x : TitheSt) : (s.setTithe i x).drains = s.drains := rfl
@[simp] theorem State.setTithe_portNext (s : State) (i : Nat) (x : TitheSt) : (s.setTithe i x).portNext = s.portNext := rfl
@[simp] theorem State.setTithe_heldOut (s : State) (i : Nat) (x : TitheSt) : (s.setTithe i x).heldOut = s.heldOut := rfl
@[simp] theorem State.setTithe_txAn (s : State) (i : Nat) (x : TitheSt) : (s.setTithe i x).txAn = s.txAn := rfl
@[simp] theorem State.setTithe_ckvBy (s : State) (i : Nat) (x : TitheSt) : (s.setTithe i x).ckvBy = s.ckvBy := rfl
@[simp] theorem State.setTithe_hostLines (s : State) (i : Nat) (x : TitheSt) : (s.setTithe i x).hostLines = s.hostLines := rfl
@[simp] theorem State.setTithe_hostResv (s : State) (i : Nat) (x : TitheSt) : (s.setTithe i x).hostResv = s.hostResv := rfl
@[simp] theorem State.setTithe_imsic (s : State) (i : Nat) (x : TitheSt) : (s.setTithe i x).imsic = s.imsic := rfl

@[simp] theorem State.setGw_vt (s : State) (i : Nat) (x : GwSt) : (s.setGw i x).vt = s.vt := rfl
@[simp] theorem State.setGw_vtFrac (s : State) (i : Nat) (x : GwSt) : (s.setGw i x).vtFrac = s.vtFrac := rfl
@[simp] theorem State.setGw_rateTemp (s : State) (i : Nat) (x : GwSt) : (s.setGw i x).rateTemp = s.rateTemp := rfl
@[simp] theorem State.setGw_rateServo (s : State) (i : Nat) (x : GwSt) : (s.setGw i x).rateServo = s.rateServo := rfl
@[simp] theorem State.setGw_free (s : State) (i : Nat) (x : GwSt) : (s.setGw i x).free = s.free := rfl
@[simp] theorem State.setGw_pending (s : State) (i : Nat) (x : GwSt) : (s.setGw i x).pending = s.pending := rfl
@[simp] theorem State.setGw_out (s : State) (i : Nat) (x : GwSt) : (s.setGw i x).out = s.out := rfl
@[simp] theorem State.setGw_regs (s : State) (i : Nat) (x : GwSt) : (s.setGw i x).regs = s.regs := rfl
@[simp] theorem State.setGw_rlatch (s : State) (i : Nat) (x : GwSt) : (s.setGw i x).rlatch = s.rlatch := rfl
@[simp] theorem State.setGw_wlatch (s : State) (i : Nat) (x : GwSt) : (s.setGw i x).wlatch = s.wlatch := rfl
@[simp] theorem State.setGw_ringSel (s : State) (i : Nat) (x : GwSt) : (s.setGw i x).ringSel = s.ringSel := rfl
@[simp] theorem State.setGw_wearSel (s : State) (i : Nat) (x : GwSt) : (s.setGw i x).wearSel = s.wearSel := rfl
@[simp] theorem State.setGw_mem (s : State) (i : Nat) (x : GwSt) : (s.setGw i x).mem = s.mem := rfl
@[simp] theorem State.setGw_grn (s : State) (i : Nat) (x : GwSt) : (s.setGw i x).grn = s.grn := rfl
@[simp] theorem State.setGw_wear (s : State) (i : Nat) (x : GwSt) : (s.setGw i x).wear = s.wear := rfl
@[simp] theorem State.setGw_log (s : State) (i : Nat) (x : GwSt) : (s.setGw i x).log = s.log := rfl
@[simp] theorem State.setGw_logBase (s : State) (i : Nat) (x : GwSt) : (s.setGw i x).logBase = s.logBase := rfl
@[simp] theorem State.setGw_logRead (s : State) (i : Nat) (x : GwSt) : (s.setGw i x).logRead = s.logRead := rfl
@[simp] theorem State.setGw_logRing (s : State) (i : Nat) (x : GwSt) : (s.setGw i x).logRing = s.logRing := rfl
@[simp] theorem State.setGw_cores (s : State) (i : Nat) (x : GwSt) : (s.setGw i x).cores = s.cores := rfl
@[simp] theorem State.setGw_bells (s : State) (i : Nat) (x : GwSt) : (s.setGw i x).bells = s.bells := rfl
@[simp] theorem State.setGw_node (s : State) (i : Nat) (x : GwSt) : (s.setGw i x).node = s.node := rfl
@[simp] theorem State.setGw_tithes (s : State) (i : Nat) (x : GwSt) : (s.setGw i x).tithes = s.tithes := rfl
@[simp] theorem State.setGw_cfg (s : State) (i : Nat) (x : GwSt) : (s.setGw i x).cfg = s.cfg := rfl
@[simp] theorem State.setGw_regions (s : State) (i : Nat) (x : GwSt) : (s.setGw i x).regions = s.regions := rfl
@[simp] theorem State.setGw_tracePos (s : State) (i : Nat) (x : GwSt) : (s.setGw i x).tracePos = s.tracePos := rfl
@[simp] theorem State.setGw_stackMem (s : State) (i : Nat) (x : GwSt) : (s.setGw i x).stackMem = s.stackMem := rfl
@[simp] theorem State.setGw_bridgeMem (s : State) (i : Nat) (x : GwSt) : (s.setGw i x).bridgeMem = s.bridgeMem := rfl
@[simp] theorem State.setGw_invPend (s : State) (i : Nat) (x : GwSt) : (s.setGw i x).invPend = s.invPend := rfl
@[simp] theorem State.setGw_invAcks (s : State) (i : Nat) (x : GwSt) : (s.setGw i x).invAcks = s.invAcks := rfl
@[simp] theorem State.setGw_pageBell (s : State) (i : Nat) (x : GwSt) : (s.setGw i x).pageBell = s.pageBell := rfl
@[simp] theorem State.setGw_nextId (s : State) (i : Nat) (x : GwSt) : (s.setGw i x).nextId = s.nextId := rfl
@[simp] theorem State.setGw_jobs (s : State) (i : Nat) (x : GwSt) : (s.setGw i x).jobs = s.jobs := rfl
@[simp] theorem State.setGw_xfers (s : State) (i : Nat) (x : GwSt) : (s.setGw i x).xfers = s.xfers := rfl
@[simp] theorem State.setGw_redSteps (s : State) (i : Nat) (x : GwSt) : (s.setGw i x).redSteps = s.redSteps := rfl
@[simp] theorem State.setGw_runs (s : State) (i : Nat) (x : GwSt) : (s.setGw i x).runs = s.runs := rfl
@[simp] theorem State.setGw_redBytes (s : State) (i : Nat) (x : GwSt) : (s.setGw i x).redBytes = s.redBytes := rfl
@[simp] theorem State.setGw_seqs (s : State) (i : Nat) (x : GwSt) : (s.setGw i x).seqs = s.seqs := rfl
@[simp] theorem State.setGw_sheetBell (s : State) (i : Nat) (x : GwSt) : (s.setGw i x).sheetBell = s.sheetBell := rfl
@[simp] theorem State.setGw_sheetGot (s : State) (i : Nat) (x : GwSt) : (s.setGw i x).sheetGot = s.sheetGot := rfl
@[simp] theorem State.setGw_rings (s : State) (i : Nat) (x : GwSt) : (s.setGw i x).rings = s.rings := rfl
@[simp] theorem State.setGw_outs (s : State) (i : Nat) (x : GwSt) : (s.setGw i x).outs = s.outs := rfl
@[simp] theorem State.setGw_brackets (s : State) (i : Nat) (x : GwSt) : (s.setGw i x).brackets = s.brackets := rfl
@[simp] theorem State.setGw_links (s : State) (i : Nat) (x : GwSt) : (s.setGw i x).links = s.links := rfl
@[simp] theorem State.setGw_restores (s : State) (i : Nat) (x : GwSt) : (s.setGw i x).restores = s.restores := rfl
@[simp] theorem State.setGw_hostTake (s : State) (i : Nat) (x : GwSt) : (s.setGw i x).hostTake = s.hostTake := rfl
@[simp] theorem State.setGw_ingress (s : State) (i : Nat) (x : GwSt) : (s.setGw i x).ingress = s.ingress := rfl
@[simp] theorem State.setGw_egress (s : State) (i : Nat) (x : GwSt) : (s.setGw i x).egress = s.egress := rfl
@[simp] theorem State.setGw_qpErr (s : State) (i : Nat) (x : GwSt) : (s.setGw i x).qpErr = s.qpErr := rfl
@[simp] theorem State.setGw_qpRate (s : State) (i : Nat) (x : GwSt) : (s.setGw i x).qpRate = s.qpRate := rfl
@[simp] theorem State.setGw_cnpAt (s : State) (i : Nat) (x : GwSt) : (s.setGw i x).cnpAt = s.cnpAt := rfl
@[simp] theorem State.setGw_conf (s : State) (i : Nat) (x : GwSt) : (s.setGw i x).conf = s.conf := rfl
@[simp] theorem State.setGw_sas (s : State) (i : Nat) (x : GwSt) : (s.setGw i x).sas = s.sas := rfl
@[simp] theorem State.setGw_opkey (s : State) (i : Nat) (x : GwSt) : (s.setGw i x).opkey = s.opkey := rfl
@[simp] theorem State.setGw_led (s : State) (i : Nat) (x : GwSt) : (s.setGw i x).led = s.led := rfl
@[simp] theorem State.setGw_xings (s : State) (i : Nat) (x : GwSt) : (s.setGw i x).xings = s.xings := rfl
@[simp] theorem State.setGw_vc (s : State) (i : Nat) (x : GwSt) : (s.setGw i x).vc = s.vc := rfl
@[simp] theorem State.setGw_vcmp (s : State) (i : Nat) (x : GwSt) : (s.setGw i x).vcmp = s.vcmp := rfl
@[simp] theorem State.setGw_retireQ (s : State) (i : Nat) (x : GwSt) : (s.setGw i x).retireQ = s.retireQ := rfl
@[simp] theorem State.setGw_lit (s : State) (i : Nat) (x : GwSt) : (s.setGw i x).lit = s.lit := rfl
@[simp] theorem State.setGw_rcal (s : State) (i : Nat) (x : GwSt) : (s.setGw i x).rcal = s.rcal := rfl
@[simp] theorem State.setGw_combCal (s : State) (i : Nat) (x : GwSt) : (s.setGw i x).combCal = s.combCal := rfl
@[simp] theorem State.setGw_calRej (s : State) (i : Nat) (x : GwSt) : (s.setGw i x).calRej = s.calRej := rfl
@[simp] theorem State.setGw_calLast (s : State) (i : Nat) (x : GwSt) : (s.setGw i x).calLast = s.calLast := rfl
@[simp] theorem State.setGw_sensOut (s : State) (i : Nat) (x : GwSt) : (s.setGw i x).sensOut = s.sensOut := rfl
@[simp] theorem State.setGw_classes (s : State) (i : Nat) (x : GwSt) : (s.setGw i x).classes = s.classes := rfl
@[simp] theorem State.setGw_resets (s : State) (i : Nat) (x : GwSt) : (s.setGw i x).resets = s.resets := rfl
@[simp] theorem State.setGw_fieldAt (s : State) (i : Nat) (x : GwSt) : (s.setGw i x).fieldAt = s.fieldAt := rfl
@[simp] theorem State.setGw_mapLag (s : State) (i : Nat) (x : GwSt) : (s.setGw i x).mapLag = s.mapLag := rfl
@[simp] theorem State.setGw_rolePend (s : State) (i : Nat) (x : GwSt) : (s.setGw i x).rolePend = s.rolePend := rfl
@[simp] theorem State.setGw_bondHalf (s : State) (i : Nat) (x : GwSt) : (s.setGw i x).bondHalf = s.bondHalf := rfl
@[simp] theorem State.setGw_lms (s : State) (i : Nat) (x : GwSt) : (s.setGw i x).lms = s.lms := rfl
@[simp] theorem State.setGw_attest (s : State) (i : Nat) (x : GwSt) : (s.setGw i x).attest = s.attest := rfl
@[simp] theorem State.setGw_meas (s : State) (i : Nat) (x : GwSt) : (s.setGw i x).meas = s.meas := rfl
@[simp] theorem State.setGw_opkeySeq (s : State) (i : Nat) (x : GwSt) : (s.setGw i x).opkeySeq = s.opkeySeq := rfl
@[simp] theorem State.setGw_debugUsed (s : State) (i : Nat) (x : GwSt) : (s.setGw i x).debugUsed = s.debugUsed := rfl
@[simp] theorem State.setGw_power (s : State) (i : Nat) (x : GwSt) : (s.setGw i x).power = s.power := rfl
@[simp] theorem State.setGw_heat (s : State) (i : Nat) (x : GwSt) : (s.setGw i x).heat = s.heat := rfl
@[simp] theorem State.setGw_pairAt (s : State) (i : Nat) (x : GwSt) : (s.setGw i x).pairAt = s.pairAt := rfl
@[simp] theorem State.setGw_pairOff (s : State) (i : Nat) (x : GwSt) : (s.setGw i x).pairOff = s.pairOff := rfl
@[simp] theorem State.setGw_pairLost (s : State) (i : Nat) (x : GwSt) : (s.setGw i x).pairLost = s.pairLost := rfl
@[simp] theorem State.setGw_fast (s : State) (i : Nat) (x : GwSt) : (s.setGw i x).fast = s.fast := rfl
@[simp] theorem State.setGw_jumpAt (s : State) (i : Nat) (x : GwSt) : (s.setGw i x).jumpAt = s.jumpAt := rfl
@[simp] theorem State.setGw_tripped (s : State) (i : Nat) (x : GwSt) : (s.setGw i x).tripped = s.tripped := rfl
@[simp] theorem State.setGw_trips (s : State) (i : Nat) (x : GwSt) : (s.setGw i x).trips = s.trips := rfl
@[simp] theorem State.setGw_hbmSlow (s : State) (i : Nat) (x : GwSt) : (s.setGw i x).hbmSlow = s.hbmSlow := rfl
@[simp] theorem State.setGw_fixed (s : State) (i : Nat) (x : GwSt) : (s.setGw i x).fixed = s.fixed := rfl
@[simp] theorem State.setGw_firmware (s : State) (i : Nat) (x : GwSt) : (s.setGw i x).firmware = s.firmware := rfl
@[simp] theorem State.setGw_sheetBase (s : State) (i : Nat) (x : GwSt) : (s.setGw i x).sheetBase = s.sheetBase := rfl
@[simp] theorem State.setGw_reports (s : State) (i : Nat) (x : GwSt) : (s.setGw i x).reports = s.reports := rfl
@[simp] theorem State.setGw_startedFor (s : State) (i : Nat) (x : GwSt) : (s.setGw i x).startedFor = s.startedFor := rfl
@[simp] theorem State.setGw_ckv (s : State) (i : Nat) (x : GwSt) : (s.setGw i x).ckv = s.ckv := rfl
@[simp] theorem State.setGw_mgmt (s : State) (i : Nat) (x : GwSt) : (s.setGw i x).mgmt = s.mgmt := rfl
@[simp] theorem State.setGw_inbox (s : State) (i : Nat) (x : GwSt) : (s.setGw i x).inbox = s.inbox := rfl
@[simp] theorem State.setGw_dynAddr (s : State) (i : Nat) (x : GwSt) : (s.setGw i x).dynAddr = s.dynAddr := rfl
@[simp] theorem State.setGw_eid (s : State) (i : Nat) (x : GwSt) : (s.setGw i x).eid = s.eid := rfl
@[simp] theorem State.setGw_tid (s : State) (i : Nat) (x : GwSt) : (s.setGw i x).tid = s.tid := rfl
@[simp] theorem State.setGw_bscan (s : State) (i : Nat) (x : GwSt) : (s.setGw i x).bscan = s.bscan := rfl
@[simp] theorem State.setGw_markers (s : State) (i : Nat) (x : GwSt) : (s.setGw i x).markers = s.markers := rfl
@[simp] theorem State.setGw_draws (s : State) (i : Nat) (x : GwSt) : (s.setGw i x).draws = s.draws := rfl
@[simp] theorem State.setGw_saPins (s : State) (i : Nat) (x : GwSt) : (s.setGw i x).saPins = s.saPins := rfl
@[simp] theorem State.setGw_drains (s : State) (i : Nat) (x : GwSt) : (s.setGw i x).drains = s.drains := rfl
@[simp] theorem State.setGw_portNext (s : State) (i : Nat) (x : GwSt) : (s.setGw i x).portNext = s.portNext := rfl
@[simp] theorem State.setGw_heldOut (s : State) (i : Nat) (x : GwSt) : (s.setGw i x).heldOut = s.heldOut := rfl
@[simp] theorem State.setGw_txAn (s : State) (i : Nat) (x : GwSt) : (s.setGw i x).txAn = s.txAn := rfl
@[simp] theorem State.setGw_ckvBy (s : State) (i : Nat) (x : GwSt) : (s.setGw i x).ckvBy = s.ckvBy := rfl
@[simp] theorem State.setGw_hostLines (s : State) (i : Nat) (x : GwSt) : (s.setGw i x).hostLines = s.hostLines := rfl
@[simp] theorem State.setGw_hostResv (s : State) (i : Nat) (x : GwSt) : (s.setGw i x).hostResv = s.hostResv := rfl
@[simp] theorem State.setGw_imsic (s : State) (i : Nat) (x : GwSt) : (s.setGw i x).imsic = s.imsic := rfl

end Machine

end Sys2Proof
end

