-- ==== Sys2Proof/WellFormed.lean ====
section
/-!
DEFINITION. Which commands are well formed: those whose operands the spec admits. A command that is not is answered by
its meaning, as malformed or with nothing done.
-/

namespace Sys2Proof

/-- A control-space access is of whole words (R8). -/
def wordAddr (a : BitVec 40) : Bool := decide (a.toNat % 4 = 0)

/-- The checks on a command's operands: word addresses (R8), lengths of host-core stores (R282) and of the operator's
commands (R460), and pairs of two sites. -/
def Instr.wellFormed : Instr → Bool
  | .registerWrite _ addr _ _ => wordAddr addr
  | .latchedLowRead _ addr => wordAddr addr
  | .latchedHighRead _ addr => wordAddr addr
  | .latchedHighWrite _ addr _ => wordAddr addr
  | .latchedLowWrite _ addr _ => wordAddr addr
  | .unmappedAccess _ _ _ => true
  | .clrParity _ _ => true
  | .clrMin _ _ => true
  | .mma _ _ _ => true
  | .mmaComplete _ _ _ _ => true
  | .vec _ _ _ => true
  | .vecKernelReturn _ _ _ _ => true
  | .vecKernelFault _ _ _ _ _ => true
  | .instructionLimit _ _ _ _ => true
  | .moveDesc _ _ _ _ _ => true
  | .reduceDesc _ _ _ _ => true
  | .signalDesc _ _ _ => true
  | .waitDesc _ _ _ => true
  | .waitSatisfied _ _ => true
  | .branchDesc _ _ _ => true
  | .branchResolve _ _ _ _ => true
  | .fenceDesc _ _ _ => true
  | .fenceComplete _ _ => true
  | .commitWrite _ _ _ _ => true
  | .bellEnd _ _ _ => true
  | .bellEndRetire _ _ => true
  | .fillRecord _ _ _ _ _ => true
  | .bellBoundary _ => true
  | .guardStart _ => true
  | .checkPoint _ => true
  | .voteFrame _ _ _ _ _ => true
  | .voteMissing _ => true
  | .lateFrame _ _ _ _ => true
  | .latenessDecision => true
  | .clearFrame _ _ _ _ _ => true
  | .replayFrame _ _ _ _ => true
  | .replayStart _ => true
  | .extendFrame _ _ _ _ => true
  | .closeFrame _ _ _ _ _ => true
  | .holdFrame _ _ _ _ => true
  | .resumeFrame _ _ _ _ => true
  | .resumeStart _ => true
  | .settleFrame _ _ _ => true
  | .bellFrame _ _ _ _ => true
  | .announce _ _ _ _ => true
  | .commitDeadline _ => true
  | .holdUntil _ => true
  | .bellCtrlHoldReq => true
  | .bellCtrlResume => true
  | .holdPeriodBoundary _ => true
  | .titheRequest _ _ _ _ => true
  | .titheAdmit _ _ => true
  | .cacheInvalidation _ => true
  | .frameGroupRetire _ _ _ _ => true
  | .pageRetire _ _ => true
  | .memAckLost _ => true
  | .carrierLoss tx rx _ => decide (tx ≠ rx)
  | .carrierReturn tx rx _ => decide (tx ≠ rx)
  | .carrierFailed tx rx _ _ _ _ => decide (tx ≠ rx)
  | .stripeMarker site hop _ => decide (hop ≠ .base site)
  | .combFailure _ _ => true
  | .bracketComplete _ _ => true
  | .sensorBracket _ _ _ => true
  | .writePacket _ _ _ _ => true
  | .writeCommit _ _ _ => true
  | .mcastWrite _ _ _ _ => true
  | .readReq _ _ _ => true
  | .readResp _ _ _ => true
  | .errorResp _ _ => true
  | .reduceAdd _ _ _ => true
  | .reduceMax _ _ _ => true
  | .reduceMin _ _ _ => true
  | .lineOutput _ _ _ _ => true
  | .atomicAdd _ _ _ => true
  | .atomicCas _ _ _ => true
  | .signalPacket _ _ => true
  | .credit _ _ => true
  | .creditReturnTimer _ _ => true
  | .creditStall _ _ _ => true
  | .controlCodeword site peer _ _ _ => decide (site ≠ peer)
  | .hopRetryTimeout _ _ _ => true
  | .pairReset site peer _ => decide (site ≠ peer)
  | .packetAged _ _ => true
  | .tagTimeout _ _ _ => true
  | .quarantineEnd _ _ _ => true
  | .linkTraining _ _ => true
  | .linkControlCodeword _ _ _ _ _ => true
  | .linkRedirect _ _ => true
  | .dedupeExpiry _ => true
  | .restoreLinks _ => true
  | .revertiveReturn _ => true
  | .wavelengthFailed _ _ => true
  | .linkFailed _ => true
  | .lnkReset _ _ _ => true
  | .replicationTimeout _ => true
  | .hostLoad _ _ _ _ _ => true
  | .hostStore _ _ bytes what _ => match what with
    | .store _ => decide (bytes.length ∈ [1, 2, 4, 8])
    | _ => decide (bytes = [])
  | .hostAmo _ _ _ _ _ => true
  | .hostCoreLost _ => true
  | .producerDoorbell _ _ _ => true
  | .consumerDoorbell _ _ _ => true
  | .ringNop _ => true
  | .sendInline _ _ => true
  | .ringSend _ _ _ => true
  | .rdmaWrite _ _ _ => true
  | .rdmaRead _ _ => true
  | .rawTx _ _ _ => true
  | .saInstall _ => true
  | .completionRoom _ => true
  | .keyxRequest _ => true
  | .keyxCiphertext _ _ => true
  | .bounce _ => true
  | .rawFrameRx _ _ => true
  | .inboundSend _ _ _ _ => true
  | .inboundRdmaWrite _ _ _ _ _ _ => true
  | .inboundRdmaRead _ _ _ _ _ _ _ => true
  | .unsupportedRequest _ _ => true
  | .cnp _ _ => true
  | .pfcFrame _ _ => true
  | .ringCopy _ _ => true
  | .ringReadySignal _ => true
  | .ringSlotReserve _ => true
  | .retrain _ => true
  | .force400 _ _ => true
  | .cfgEnable _ _ => true
  | .enableCheckDone => true
  | .cfgCancel _ _ => true
  | .cfgActivate _ _ => true
  | .altSelect _ => true
  | .installationDone => true
  | .coldStart _ => true
  | .resetN _ => true
  | .siteReset _ _ => true
  | .gatewayReset _ _ => true
  | .computeDieReset _ _ => true
  | .gwAckLost _ _ => true
  | .readmission _ _ => true
  | .fieldReset _ _ => true
  | .heaterHoldExpiry _ => true
  | .fieldRelease _ _ => true
  | .heartbeatLoss site peer => decide (site ≠ peer)
  | .mcFenceOrder _ => true
  | .gatewaySelfFence _ => true
  | .computeClockLoss _ => true
  | .mcSilenceReset _ => true
  | .stopChannelTimeout _ _ => true
  | .refclkLoss => true
  | .refclkTimeout => true
  | .regionTarget _ _ _ => true
  | .regionStop _ _ => true
  | .adaptiveStretch _ _ => true
  | .servoUpdate => true
  | .clockHoldover => true
  | .temperatureCorrection => true
  | .lockLoopUpdate _ _ _ _ => true
  | .heaterFault _ _ => true
  | .identityRead _ _ _ _ _ => true
  | .ffGainAdapt _ _ => true
  | .biasUpdate _ _ _ _ _ => true
  | .supplyLow => true
  | .fixing _ => true
  | .pwrFailN => true
  | .holdupFault => true
  | .powerSample _ _ _ => true
  | .thermalSample _ _ => true
  | .tripRelease _ => true
  | .safelight _ => true
  | .safelightEntry => true
  | .wakeN => true
  | .pwrWake _ => true
  | .wakeFrame _ _ => true
  | .wakeComplete _ _ _ => true
  | .retireCore _ => true
  | .drawHost _ => true
  | .bondPatternTest _ _ _ _ => true
  | .tripleDisagree _ _ _ _ => true
  | .mapWrite => true
  | .eventRingWrite => true
  | .opkeyChange _ _ => true
  | .secAttest _ _ _ => true
  | .attestDone => true
  | .getIdentity _ _ _ => true
  | .attest _ _ _ _ _ => true
  | .wake _ _ => true
  | .sessionOpen _ _ => true
  | .sessionProve _ _ _ => true
  | .sessionExpiry _ => true
  | .ctrlRead _ _ addr words => wordAddr addr && decide (0 < words.toNat) && decide (words.toNat ≤ 14)
  | .ctrlWrite _ _ addr words => wordAddr addr && decide (0 < words.length) && decide (words.length ≤ 14)
  | .eventRead _ _ count => decide (count = 1)
  | .halt _ _ _ => true
  | .coreResume _ _ _ => true
  | .memRead _ _ _ len _ => decide (0 < len.toNat) && decide (len.toNat ≤ 48)
  | .memWrite _ _ _ bytes => decide (0 < bytes.length) && decide (bytes.length ≤ 48)
  | .moduleReset _ _ _ => true
  | .firmwareUpdate _ _ _ _ => true
  | .activateFirmware _ => true
  | .pldmDiscovery _ => true
  | .pldmMonitoring _ => true
  | .mctpControl _ => true
  | .dynamicAddress _ _ _ => true
  | .bypass _ => true
  | .idcode => true
  | .samplePreload _ _ => true
  | .extest _ _ => true
  | .debugAccess _ _ => true
  | .ckvStart _ _ => true
  | .ckvJobDone _ _ _ => true
  | .ckvStreamChunk _ _ _ _ => true
  | .refclkReturn => true
  | .localMoveComplete _ _ _ _ => true
  | .roceResponse _ _ _ => true
  | .readmissionTimeout _ => true
  | .lowerTreeGenerated => true

end Sys2Proof
end

