-- ==== Sys2Proof/Tests/Slice0.lean ====
section
/-!
SUPPORT. The model's own tests: an ill-formed command for each check of `Instr.wellFormed`, the worked examples and
test vectors of the spec, single steps, and for every statement with hypotheses a witness that meets them.
-/

namespace Sys2Proof.Tests

-- One theorem after another: a kernel evaluation waits for those before it, and a waiting thread takes memory.
set_option Elab.async false

open Sys2Proof Sys2Proof.Machine

/-! ### Ill-formed commands -/

theorem test_wf_word_address : (Instr.registerWrite .mc 2 false 0).wellFormed = false ∧
    (Instr.latchedLowRead .mc 1).wellFormed = false ∧ (Instr.latchedHighRead .mc 3).wellFormed = false ∧
    (Instr.latchedHighWrite .mc 5 0).wellFormed = false ∧ (Instr.latchedLowWrite .mc 6 0).wellFormed = false ∧
    (Instr.ctrlRead .bus 0 2 1).wellFormed = false ∧ (Instr.ctrlWrite .bus 0 2 [0]).wellFormed = false := by decide
theorem test_wf_two_sites : (Instr.carrierLoss 3 3 0).wellFormed = false ∧ (Instr.carrierReturn 3 3 0).wellFormed = false ∧
    (Instr.carrierFailed 3 3 0 false none 0).wellFormed = false ∧ (Instr.stripeMarker 3 (.base 3) 0).wellFormed = false ∧
    (Instr.controlCodeword 3 3 0 0 []).wellFormed = false ∧ (Instr.pairReset 3 3 false).wellFormed = false ∧
    (Instr.heartbeatLoss 3 3).wellFormed = false := by decide
theorem test_wf_store_length : (Instr.hostStore 0 0 [1, 2, 3] (.store []) ⟨.good, []⟩).wellFormed = false ∧
    (Instr.hostStore 0 0 [1, 2, 3, 4] .flush ⟨.good, []⟩).wellFormed = false := by decide
theorem test_wf_word_count : (Instr.ctrlRead .bus 0 0 0).wellFormed = false ∧ (Instr.ctrlRead .bus 0 0 15).wellFormed = false ∧
    (Instr.ctrlWrite .bus 0 0 []).wellFormed = false ∧
    (Instr.ctrlWrite .bus 0 0 (List.replicate 15 0)).wellFormed = false ∧ (Instr.eventRead .bus 0 2).wellFormed = false := by
  decide
theorem test_wf_byte_count : (Instr.memRead .bus 0 0 0 []).wellFormed = false ∧
    (Instr.memRead .bus 0 0 49 []).wellFormed = false ∧ (Instr.memWrite .bus 0 0 []).wellFormed = false ∧
    (Instr.memWrite .bus 0 0 (List.replicate 49 0)).wellFormed = false := by decide
theorem test_wf_good : (Instr.registerWrite .mc 4 false 0).wellFormed = true ∧
    (Instr.hostStore 0 0 [1, 2] (.store []) ⟨.good, []⟩).wellFormed = true ∧ (Instr.memRead .bus 0 0 48 []).wellFormed = true := by decide

/-! ### Worked examples and vectors of the spec -/

/-- R23's example: 0x0FA3_A000_0040_0000 names package 4,003, site 20, offset 4 MiB. -/
theorem test_address : gPkg 0x0FA3A00000400000 = 4003 ∧ gSite 0x0FA3A00000400000 = 20 ∧
    gOff 0x0FA3A00000400000 = 0x400000 := by decide +kernel
/-- R49, vectors 1 and 2: the final r. -/
theorem test_sr_word : srWord 0 0 0 0 = 0x5CAB17BA ∧
    srWord 0x13579BDF02468ACE 0x60 0x000100000010 0x2710 = 0x0E23232C := by decide +kernel
/-- R46's example: 0x3F80_8000 goes to BF16 0x3F81 by SR with r of vector 1, and to 0x3F80 by RNE. -/
theorem test_bf16_rounds : fmtBF16.encodeIeee .sr 0x5CAB17BA (fmtFP32.decode 0x3F808000) = 0x3F81 ∧
    fmtBF16.encodeIeee .rne 0 (fmtFP32.decode 0x3F808000) = 0x3F80 := by decide +kernel
/-- R30's example: E4M3 0x7E is 448 and 0x01 is 2^-9; ZS4 element 0x7 is 6. -/
theorem test_element_values : fmtFP32.encodeIeee .rne 0 (fmtE4M3.decode 0x7E) = 0x43E00000 ∧
    fmtFP32.encodeIeee .rne 0 (fmtE4M3.decode 0x01) = 0x3B000000 ∧
    fmtFP32.encodeIeee .rne 0 (fmtE2M1.decode 0x7) = 0x40C00000 := by decide +kernel
/-- R465: the four check values over "123456789". -/
theorem test_check_values : (crcSel 0).calc (leBytes 9 0x393837363534333231) = 0xE3069283 ∧
    (crcSel 1).calc (leBytes 9 0x393837363534333231) = 0xCBF43926 ∧
    (crcSel 2).calc (leBytes 9 0x393837363534333231) = 0x6C40DF5F0B497347 ∧
    (crcSel 3).calc (leBytes 9 0x393837363534333231) = 0x29B1 := by decide +kernel
/-- Hand calculation from the definition of the digest: SHA-256 of "abc" begins BA7816BF. -/
theorem test_sha256 : (sha256 [0x61, 0x62, 0x63]).take 4 = [0xBA, 0x78, 0x16, 0xBF] := by decide +kernel
/-- R378's example: register value 0xFF4C is -180. -/
theorem test_gain : sint16 0xFF4C = -180 ∧ twos16 (-180) = 0xFF4C := by decide +kernel
/-- R342's example: V + 30 ms + 1.70 µs + 7.25 µs rounds up to V + 30.009 ms, a multiple of 250 ns. -/
theorem test_round_up : up250 (30000000 + 1700 + 7250) = 30009000 := by decide
/-- The spec's group example: 2,688 + 2^-13 - 2,688 enters the accumulator as 0x3900_0000, by the 18 bytes of its ZS4
block and the elements 0x7E, 0x01, 0x7E of its MXFP8 block (R36, R43, R44). -/
theorem test_group_exact :
    let b := zs4Elems [0x7F, 0x0C, 7, 0, 0, 0, 1, 0, 0, 0, 0x0F, 0, 0, 0, 0, 0, 0, 0]
    accumGroup 0 ⟨mxElems 3 (leBytes 32 (0x7E + 2 ^ 64 + 0x7E * 2 ^ 128)), 0x7F⟩ ⟨b.2, b.1⟩ = 0x39000000 := by
  decide +kernel

/-! ### Small states -/

/-- Bytes from numbers at offsets: a record's payload of `n` bytes. -/
def bytesAt (n : Nat) (fs : List (Nat × Nat × Nat)) : List Byte :=
  leBytes n ((fs.map fun f => f.2.2 % 256 ^ f.2.1 * 256 ^ f.1).sum)
/-- A configuration record: segment, kind, length, and its fields as offset, bytes, value. -/
def recOf (seg kind n : Nat) (fs : List (Nat × Nat × Nat)) : Rec := ⟨seg, 0, kind, 0, bytesAt n fs⟩
/-- LINKMAP DOMAIN: package 0 is the root of domain 0, depth 1. -/
def rootRec : Rec := recOf segLinkmap 8 32 [(12, 1, 1)]
/-- TURNS: every bell is context 1's. -/
def turns1 : Rec := recOf segBell 2 24 [(8, 2, 1), (16, 1, 1)]
/-- CONTEXTS window of a context at a site with read, write and atomic rights and an rkey. -/
def winRec (ctx site base size rkey : Nat) : Rec :=
  recOf segContexts 2 40 [(8, 1, ctx), (9, 1, site), (10, 1, 7), (12, 4, rkey), (16, 8, base), (24, 8, size)]
/-- Powered, sites S0-S27 live and populated, a root package. -/
def up : State :=
  ({ State.reset with grn := [], power := { PowerSt.off with on := true }
                      cfg := { CfgSt.empty with eff := [rootRec] } }.setF Reg.CFG_SITE_MAP Fld.CFG_SITE_MAP_LIVE
    0x0FFFFFFF).setF Reg.CFG_SITE_MAP Fld.CFG_SITE_MAP_POPULATED 0x0FFFFFFF
/-- A site that runs bell 5 from T0 = 0: it began at 100,000 ns. -/
def running : SiteBell := { SiteBell.idle with life := .running, bell := 5, committed := some 4 }
/-- As `up`, in bell 5 at every site. -/
def live : State := { up with vt := 101000, bells := (List.range 32).map fun i => (i, running) }
/-- As `live`, every site holding before bell 5. -/
def holds : State := { live with bells := (List.range 32).map fun i => (i, { running with life := .held, startBell := 5 }) }
/-- A descriptor from its fields: lowest bit, value. -/
def descOf (fs : List (Nat × Nat)) : BitVec 512 := BitVec.ofNat 512 ((fs.map fun f => f.2 * 2 ^ f.1).sum)
/-- The program of context 1, stack 2, core 9, phase 0: descriptors and dynamic slots (index, operations). -/
def progOf (ds : List (BitVec 512)) (slots : List (Nat × Nat)) : Rec :=
  ⟨segPrograms, 0, 2, 0, bytesAt 32 [(8, 1, 1), (9, 1, 2), (10, 1, 9), (11, 1, slots.length), (16, 4, ds.length)] ++
    ds.flatMap (fun d => leBytes 64 d.toNat) ++ slots.flatMap fun s => leBytes 2 s.1 ++ leBytes 2 s.2 ++ leBytes 4 0⟩
/-- Core 9 of stack 2 is enabled and runs a program of these descriptors for context 1. -/
def coreWith (ds : List (BitVec 512)) (slots : List (Nat × Nat)) (x : CoreSt) : State :=
  ({ live with cfg := { live.cfg with eff := [rootRec, progOf ds slots, turns1] }
               grn := [(2 ^ 48 + 2 ^ 32 * 2 + 9, 0)] }.setF (Reg.CLK_REGION_STATUS (coreRegion 2 9))
      Fld.CLK_REGION_STATUS_FREQ 50).setCore 2 9 { x with running := true, ctx := 1 }
/-- As `coreWith`, without dynamic slots. -/
def coreRuns (ds : List (BitVec 512)) (x : CoreSt) : State := coreWith ds [] x
/-- A flight of a core. -/
def fl (n : Nat) (d : BitVec 512) (spec : Bool) (todo : List Piece) : Flight := ⟨n, n, d, spec, false, [], 1, todo, [], []⟩
/-- A core with these flights at descriptor 3. -/
def xs (fs : List Flight) : CoreSt := { CoreSt.idle with pc := 3, serial := 3, flights := fs }
/-- The next state of a command. -/
def after (i : Instr) (s : State) : State := match exec i s with | .next t => t | _ => s

/-! ### Single steps -/

/-- R71, R74, R75, the spec's example: two MMA of 320 groups of 32 cycles. The first enters at 12, its groups end at 10,252 and its output
is written at 10,526; the second follows at once, ends at 20,492 and is written at 20,766. -/
theorem test_mma_schedule :
    let d := fun bank => descOf [(0, 1), (32, 3), (36, 9), (46, bank), (48, 1), (208, 320)]
    let r := mmaSchedule [] 0 0 (d 0)
    let q := mmaSchedule [r] 1 100 (d 1)
    (r.groupsStart, r.groupsEnd, r.done) = (12, 10252, 10526) ∧ (q.groupsStart, q.groupsEnd, q.done) = (10252, 20492, 20766) := by
  decide +kernel
/-- R83: BELL_END 9,595.5 ns before the guard start, at 119,750 ns, leaves a slack of 9,595. -/
theorem test_slack_rounds_down : (after (.bellEndRetire 2 9)
    { coreRuns [] { xs [] with atEnd := true } with vt := 110154, vtFrac := 2 ^ 31 }).getF
    (Reg.CORE_SLACK 2 9) Fld.CORE_SLACK_SLACK = 9595 := by decide +kernel
/-- R6, R10: an access to nothing reads 0 and is counted. -/
theorem test_unmapped : (after (.unmappedAccess .mc 0xD0000 false) up).out = [.readData .mc false 0] ∧
    (after (.unmappedAccess .mc 0xD0000 false) up).getF Reg.EVT_UNMAPPED_CNT Fld.EVT_UNMAPPED_CNT_COUNT = 1 := by
  decide +kernel
/-- R150, R149: a hold request names reason 3; a lost site names reason 2. -/
theorem test_hold_reasons : (after .bellCtrlHoldReq live).out = [.frame 20 .down ⟨.hold, 0, 6, 3⟩] ∧
    (live.decideBell 3 true true).out = [.frame 20 .down ⟨.hold, 0, 3, 2⟩] := by decide +kernel
/-- R102: a token holds at 2^32 - 1. -/
theorem test_token_saturates : (after (.signalDesc 2 9 .good) ((coreRuns [descOf [(0, 5), (8, 0), (32, 1029), (64, 2 * 2 ^ 43 + 17),
    (128, 5)], descOf [(0, 10)]] { CoreSt.idle with pc := 0 }).setF (Reg.CORE_TOKEN 2 17 5) Fld.CORE_TOKEN_VALUE 0xFFFFFFFE)).getF
    (Reg.CORE_TOKEN 2 17 5) Fld.CORE_TOKEN_VALUE = 0xFFFFFFFF := by decide +kernel
/-- R184's example: S2 sends to S20 on slot 18. -/
theorem test_spare_lane_slot : (after (.carrierFailed 2 20 7 false (some false) 0)
    (live.setF (Reg.FAB_STEER 2 7) Fld.FAB_STEER_TX_SB 63)).getF (Reg.FAB_STEER 2 7) Fld.FAB_STEER_TX_SB = 18 := by
  decide +kernel
/-- R364: one tick at the nominal rate is 1 ns. -/
theorem test_tick : up.tick.vt = 1 ∧ up.tick.vtFrac = 0 := by decide +kernel
/-- R482: IDCODE's lowest bit is 1 and it shifts 32 bits. -/
theorem test_idcode : ((after .idcode up).out.map fun o => match o with
    | .tap bits => (bits.length, bits.head?)
    | _ => (0, none)) = [(32, some true)] := by decide +kernel

/-! ### Witnesses: step, reset, control space -/

theorem wit_IdleAdvancesVillageTime : State.reset.power.on = false ∧ State.reset.pending = [] := by decide +kernel
theorem wit_StepRunsFront : State.reset.pending = [] ∧ State.reset.power.on = false := by decide
theorem wit_ResetState : (regAt Reg.CFG_IDENT).any (fun h => !h.high) = true := by decide +kernel
theorem wit_AccessCodes : (regAt Reg.CFG_IDENT).any (fun h => decide (h.row ∈ regTable) &&
    h.row.flds.any fun r => decide (r.fld.lo ≤ r.fld.hi)) = true ∧
    (regAt Reg.CFG_CTRL).any (fun h => decide (h.row ∈ regTable) && h.row.flds.any fun r => decide (r.acc = .wo)) = true := by
  decide +kernel
theorem wit_RegisterWrite : live.power.on = true ∧
    (live.hit (Reg.CKV_EXPECT 0)).any (fun h => !h.high && h.row.wide && live.mayWrite .mc h && !actsOnWrite h.row.name) = true ∧
    (live.hit Reg.DBG_TRACE).any (fun h => !h.high && !h.row.wide && !({ live with hostTake := [(3, 1)] }.mayWrite (.host 3) h)) = true := by decide +kernel
theorem wit_Latches : live.power.on = true ∧
    (live.hit (Reg.CKV_EXPECT 0)).any (fun h => !h.high && h.row.wide && live.mayWrite .mc h && !actsOnWrite h.row.name) = true ∧
    (live.hit (Reg.CKV_EXPECT 0 + 4)).any (fun h => h.high && h.row.wide) = true ∧
    latchOf [(Requester.mc.num, (Reg.CKV_EXPECT 0, 0x77777777))] .mc = some (Reg.CKV_EXPECT 0, 0x77777777) ∧
    latchOf [] .mc = none := by decide +kernel
theorem wit_UnmappedAccess : regAt 0xD0000 = none ∧ live.hit 0xD0000 = none ∧ live.live 31 = false ∧
    live.hit (0x1000000000 + 31 * 0x10000000 + 0x0FFFFFFF) = none ∧ live.power.on = true ∧
    live.hit 0xFFFFFFFFFF = none := by decide +kernel

/-! ### Witnesses: matrix cores -/

/-- A WAIT for token 5 of the core, with and without a DONE token. -/
def dWait : BitVec 512 := descOf [(0, 6), (8, 1026), (32, 1029), (64, 5)]
def dEnd : BitVec 512 := descOf [(0, 10)]

theorem wit_ClearsAndFills : (leBytes 128 0).length = 128 ∧
    (let s := coreWith [dWait, dEnd] [(0, 0xFFFF)] CoreSt.idle
     (s.core 2 9).fills.length < 256 ∧ s.fillRefusal 2 9 1 ⟨5, 0, dWait, false⟩ 0 = none ∧
       s.fillRefusal 2 9 1 ⟨4, 0, dWait, false⟩ 0 = some 2) ∧
    256 ≤ ((coreRuns [] { CoreSt.idle with fills := List.replicate 256 ⟨5, 0, 0, false⟩ }).core 2 9).fills.length := by
  decide +kernel
/-- Core 9 of S2 has one open slot at index 0 and its slot-fill window is in a window of context 1. -/
def fillS (x : CoreSt) : State :=
  { coreWith [dWait, dEnd] [(0, 0xFFFF)] x with cfg.eff := [rootRec, progOf [dWait, dEnd] [(0, 0xFFFF)], turns1, winRec 1 2 (slotFillBase 9) 4096 0] }
def fillBytes : List Byte := leBytes 64 dWait.toNat ++ leBytes 6 5 ++ List.replicate 58 0
theorem wit_ClearsAndFills_window : fillBytes.length = 128 ∧
    (∀ n ∈ [0, 256], let s := fillS { CoreSt.idle with fills := List.replicate n ⟨5, 1, 0, false⟩ }
      s.coreRole 2 9 = 0 ∧ inWindows s.rs 1 2 1 (slotFillBase 9 + 128 * 31) 128 = true ∧ s.fillFull 2 9 = decide (n = 256) ∧
      s.fillRefusal 2 9 1 ⟨leNat ((fillBytes.drop 64).take 6), leNat ((fillBytes.drop 70).take 2), BitVec.ofNat 512 (leNat (fillBytes.take 64)), false⟩
        (leNat ((fillBytes.drop 72).take 56)) = none) ∧
    inWindows (coreWith [] [] CoreSt.idle).rs 1 2 1 (slotFillBase 9) 128 = false ∧ live.coreRole 2 8 ≠ 0 := by decide +kernel
theorem wit_DescriptorsIssue :
    ([1, 2, 3, 4, 5, 6, 7, 8, 9, 10].all fun op => ((coreRuns [descOf [(0, op)], dEnd] CoreSt.idle).ready 2 9 op).isSome) = true ∧
    (((coreRuns [descOf [(0, 3)], dEnd] CoreSt.idle).gw 2).freeTag 9).isSome = true := by
  decide +kernel
/-- Tiles of the largest size, and of one that converts. -/
def dTile : BitVec 512 := descOf [(0, 1), (192, 16), (200, 8), (208, 1)]
def dConv : BitVec 512 := descOf [(0, 1), (46, 1), (48, 1), (192, 1), (200, 4), (208, 1)]
def run0 : MmaRun := ⟨0, 12, 20, 19, 20, 30, 0⟩
/-- The oldest MMA is at its last cycle. -/
def mmaEnds (d : BitVec 512) : State := coreRuns [d] { CoreSt.idle with mma := [run0], flights := [fl 0 d false []] }
theorem wit_MmaRuns :
    (let r := mmaSchedule [] 0 0 (descOf [(0, 1), (208, 320)])
     10251 - 32 < r.lastEntry ∧ r.bankFree ≤ r.groupsEnd) ∧
    ((mmaEnds dTile).core 2 9).mma = [run0] ∧ ((mmaEnds dTile).core 2 9).flight 0 = some (fl 0 dTile false []) ∧
    run0.done ≤ (mmaEnds dTile).cycle 2 9 ∧ df dTile 196 192 ≤ 16 ∧ df dTile 203 200 ≤ 8 ∧ tracedAt (mmaEnds dTile) 2 = false ∧
    ((mmaEnds dConv).core 2 9).mma = [run0] ∧ ((mmaEnds dConv).core 2 9).flight 0 = some (fl 0 dConv false []) ∧
    run0.done ≤ (mmaEnds dConv).cycle 2 9 ∧ df dConv 196 192 ≤ 16 ∧ df dConv 203 200 ≤ 8 ∧ df dConv 48 48 = 1 ∧
    tracedAt (mmaEnds dConv) 2 = false := by decide +kernel
theorem wit_KernelsEnd :
    let d := descOf [(0, 2), (8, 1029)]
    let s := coreRuns [d] (xs [fl 0 d false []])
    (s.core 2 9).kernel = some (fl 0 d false []) ∧ (s.core 2 9).flight 0 = some (fl 0 d false []) ∧ tracedAt s 2 = false ∧
    kernelAddr 9 0xBFFFF = some (coreStoreBase 9 + 0xBFFFF) ∧ kernelAddr 9 0xC0000 = none ∧
    kernelAddr 95 0x1BFFFFF = some (0x1000000000 + 11 * 0x1000000 + 0xBFFFFF) ∧ kernelAddr 9 0x1C00000 = none := by
  decide +kernel
/-- Core 9 runs a VEC whose kernel is these words, with a bound on its instructions. -/
def kernS (ws : List Nat) (bound : Nat) : State × Flight :=
  let f := fl 0 (descOf [(0, 2), (8, 1029), (64, bound)]) false []
  ({ coreRuns [f.desc] (xs [f]) with cfg.eff := [rootRec, progOf [f.desc] [], turns1,
      ⟨segPrograms, 0, 4, 0, bytesAt 32 [(8, 1, 1), (9, 1, 2), (10, 1, 9), (20, 4, 4 * ws.length)] ++ ws.flatMap (leBytes 4 ·)⟩] }, f)
/-- `addi x5, x0, 7; sb x5, 16(x0); ret`, with a halfword of zeros, or with its store outside the data map, or with
one instruction too few. -/
theorem wit_KernelsEnd_runs :
    (∀ x ∈ [([0x00700293, 0x00500823, 0x8067], 64, KernelEnd.returned), ([0x00700293, 0], 64, .faulted),
        ([0x00C00293, 0x01029293, 0x00028823], 64, .faulted), ([0x00700293, 0x00500823, 0x8067], 2, .limit)],
      let s := kernS x.1 x.2.1
      (s.1.core 2 9).kernel = some s.2 ∧ (s.1.core 2 9).flight s.2.serial = some s.2 ∧ (s.1.kernelRun 2 9 s.2).2 = x.2.2) ∧
    (let s := kernS [0x00700293, 0x00500823, 0x8067] 64
     (Vm.runFor (kernelByte s.1.rs 2 9) 2 (s.1.kernelVm 2 9 s.2)).isSome = true ∧ 2 < df s.2.desc 95 64) := by decide +kernel
/-- R78, R81: the kernel's store is made when it returns, and token 5 of the core rises. -/
theorem test_kernel_stores : let t := after (.vecKernelReturn 2 9 [] []) (kernS [0x00700293, 0x00500823, 0x8067] 64).1
    t.byteAt 2 (coreStoreBase 9 + 16) = 7 ∧ t.getF (Reg.CORE_TOKEN 2 9 5) Fld.CORE_TOKEN_VALUE = 1 ∧ (t.core 2 9).flights = [] := by
  decide +kernel
theorem wit_WaitsFencesBranches :
    (let s := (coreRuns [] { xs [fl 2 dWait false []] with waitFrom := some 3 }).setF (Reg.CORE_TOKEN 2 9 5) Fld.CORE_TOKEN_VALUE 5
     (s.core 2 9).flight 2 = some (fl 2 dWait false []) ∧ (s.core 2 9).waiting = some (fl 2 dWait false []) ∧
       tokenReg 2 9 (df dWait 43 32) = some (Reg.CORE_TOKEN 2 9 5) ∧ df dWait 95 64 ≤ s.getF (Reg.CORE_TOKEN 2 9 5) Fld.CORE_TOKEN_VALUE ∧
       tracedAt s 2 = false) ∧
    (let f := fl 2 (descOf [(0, 8), (32, 1)]) true []
     let s := coreRuns [] (xs [fl 0 (descOf [(0, 2)]) false [], f])
     (s.core 2 9).flights.find? (fun h => decide (dOp h.desc = 8) && !h.complete) = some f ∧
       (s.core 2 9).flight f.serial = some f ∧
       ∀ h ∈ (s.core 2 9).flights, h.serial < f.serial → df f.desc 36 32 / 2 ^ s.fenceClass 2 h.desc % 2 = 0) ∧
    ∀ hint ∈ [0, 1],
      let f := fl 2 (descOf [(0, 7), (37, hint), (64, 64)]) false []
      let s := coreRuns [] { xs [f] with branches := [2] }
      (s.core 2 9).branches = [2] ∧ (s.core 2 9).flight 2 = some f ∧ (∀ g ∈ (s.core 2 9).flights, 2 ≤ g.serial) := by
  decide +kernel
/-- A consuming WAIT on a cluster token, and a speculative one; no other core of the cluster waits. -/
theorem wit_WaitsFencesBranches_consume : ∀ spec ∈ [false, true],
    let d := descOf [(0, 6), (8, 1026), (32, 2048 + 1023), (44, 1), (64, 5)]
    let f := fl 2 d spec []
    let s := (coreRuns [] { xs [f] with waitFrom := some 3 }).setF (Reg.CORE_CTOKEN 2 1 1023) Fld.CORE_TOKEN_VALUE 5
    (s.core 2 9).flight 2 = some f ∧ (s.core 2 9).waiting = some f ∧ tracedAt s 2 = false ∧
      tokenReg 2 9 (df d 43 32) = some (Reg.CORE_CTOKEN 2 1 1023) ∧ df d 95 64 ≤ s.getF (Reg.CORE_CTOKEN 2 1 1023) Fld.CORE_TOKEN_VALUE ∧
      s.waitFirst 2 9 (df d 43 32) 5 = false ∧ ((s.coreProg 2 9).bind fun r => slotAt r (s.core 2 9).pc) = none := by decide +kernel
/-- A branch whose value is 0 goes against one hint and along the other. -/
theorem wit_WaitsFencesBranches_both : branchTaken (descOf [(0, 7), (64, 64)]) 0 = true := by decide +kernel
/-- As `coreRuns`, in context 1's turn, which may reach core 9's store. -/
def ownS (ds : List (BitVec 512)) (x : CoreSt) : State :=
  let s := coreRuns ds x
  { s.setBell 2 { running with resident := 1 } with cfg.eff := s.cfg.eff ++ [winRec 1 2 (coreStoreBase 9) 0xC0000 0] }
theorem wit_TransfersIssue :
    (let d := descOf [(0, 3), (64, 20 * 2 ^ 43 + 256), (128, 2 * 2 ^ 43 + coreStoreBase 9), (192, 100), (224, 1)]
     let s := coreRuns [d, d, d, d] (xs [])
     s.ready 2 9 3 = some d ∧ tracedAt s 2 = false ∧ (s.core 2 9).branches = [] ∧ (s.core 2 9).flight 3 = none ∧
       hasTag s 2 9 ∧ df d 34 34 = 0 ∧ s.moveClass 2 d = .read ∧ s.moveBadIndex 2 9 d = false ∧
       (s.movePieces 2 9 d).map (fun p => (gSite p.src, gPkg p.src, p.len)) = [(20, s.pkg, 100)] ∧
       s.localFail 2 9 s.pkg 20 = none ∧ s.cachedAt 2 1 (20 * 2 ^ 43 + 256) = false) ∧
    (let d := descOf [(0, 9), (64, 2 * 2 ^ 43 + coreStoreBase 9), (128, 13 * 2 ^ 43 + 4096), (192, 4096)]
     let s := ownS [d, d, d, d] (xs [])
     s.ready 2 9 9 = some d ∧ s.localFail 2 9 s.pkg 13 = none ∧ tracedAt s 2 = false ∧ (s.core 2 9).branches = [] ∧
       (s.core 2 9).flight 3 = none ∧ hasTag s 2 9 ∧
       s.ownFails 2 (s.core 2 9).ctx (coreStoreBase 9) 4096 true false = none ∧
       (cutPieces (df d 127 64) (df d 191 128) (gOff (df d 191 128)) (df d 223 192) (df d 223 192 / 32 + 1)).map
         (fun p => (gSite p.dst, p.len)) = [(13, 4096)]) := by decide +kernel
theorem wit_LocalMoveCompletes :
    let d := descOf [(0, 3), (8, 1026), (64, 2 * 2 ^ 43 + coreStoreBase 9), (128, 2 * 2 ^ 43 + coreStoreBase 9 + 10), (192, 100), (224, 1)]
    let f := { fl 1 d false [⟨2 * 2 ^ 43 + coreStoreBase 9, 2 * 2 ^ 43 + coreStoreBase 9 + 10, 100, true⟩] with left := 0 }
    let s := ownS [] (xs [f])
    (s.core 2 9).flight 1 = some f ∧ f.left = 0 ∧ f.flaws = [] ∧ dOp d = 3 ∧ s.moveClass 2 d = .local_ ∧ df d 34 34 = 0 ∧ tracedAt s 2 = false ∧
      ∀ p ∈ f.todo, gOff p.dst + p.len ≤ 2 ^ 43 ∧ fillWindowOf (gOff p.dst) p.len = none ∧
        s.ownFails 2 (s.core 2 9).ctx (gOff p.src) p.len true false = none ∧
        s.ownFails 2 (s.core 2 9).ctx (gOff p.dst) p.len false true = none := by decide +kernel
theorem wit_SignalIssuesAndBellEndRetires :
    (∀ site ∈ [2, 3],
      let d := descOf [(0, 5), (32, 1029), (64, site * 2 ^ 43 + 95), (128, 7)]
      let s := coreRuns [d, d, d, d] (xs [])
      s.ready 2 9 5 = some d ∧ tracedAt s 2 = false ∧ (s.core 2 9).flight 3 = none ∧
        s.onSite 2 (df d 127 64) = decide (site = 2) ∧ (tokenReg 2 (df d 127 64 % 128) (df d 43 32)).isSome = true ∧
        gPkg (df d 127 64) = s.pkg ∧ s.localFail 2 9 s.pkg site = none ∧ hasTag s 2 9) ∧
    (let s := coreRuns [] { xs [] with atEnd := true }
     (s.core 2 9).running = true ∧ (s.core 2 9).atEnd = true ∧ (s.core 2 9).retired = false ∧ (s.core 2 9).halted = false ∧
       (s.core 2 9).flights = [] ∧ s.readsOut 2 9 = false) := by decide +kernel

/-! ### Witnesses: votes, the root, bells -/

/-- Without a TREE record a package has no child packages. -/
theorem childPkgs_none (rs : List Rec) (h : recFind rs segLinkmap 10 anyRec = none) : childPkgs rs = [] := by
  simp only [childPkgs, h]
/-- The children of such a package are its live sites. -/
theorem children_all (s : State) (f : Child → Bool) (h : recFind s.rs segLinkmap 10 anyRec = none)
    (hf : (s.liveSites.all fun i => f (.site (siteOf i))) = true) : s.children.all f = true := by
  simp only [State.children, childPkgs_none _ h, List.map_nil, List.append_nil, List.all_map]
  exact hf
/-- Bells up to 2 are passed on and the package's own flags of bell 3 are in. -/
def voting : State := { live with vt := 120000, node := { NodeSt.idle with passed := some 2, own := [(3, false)] } }
theorem wit_VotesAreGathered : voting.drops (.site 3) 3 = false ∧ voting.node.holds 3 (.site 3) = false ∧
    (let v : Vote := ⟨4, .site 3, true, false⟩
     voting.drops (.site 3) 4 = false ∧ voting.node.holds 4 (.site 3) = false ∧
       nodeWaits { voting with node := { voting.node with votes := voting.node.votes ++ [v], mute := true } }) ∧
    voting.drops (.site 30) 3 = true ∧ voting.node.next = 3 ∧ voting.port.life ≠ .notStarted ∧ 3 ≤ voting.port.bell ∧
    voting.endOf (3 + depthD voting.rs) ≤ voting.vt ∧
    nodeWaits { voting with node := { voting.node with own := [], votes := voting.node.votes ++ [⟨3, .site 3, true, false⟩] } } := by
  refine ⟨by decide +kernel, by decide +kernel, ⟨by decide +kernel, by decide +kernel, .inr (.inl rfl)⟩, by decide +kernel,
    by decide +kernel, by decide +kernel, by decide +kernel, by decide +kernel, .inl rfl⟩
/-- The own flags are still missing: a vote is taken and the node waits. -/
theorem wit_VotesAreGathered_waits :
    let s : State := { voting with node := { voting.node with own := [] } }
    s.drops (.site 3) 3 = false ∧ s.node.holds 3 (.site 3) = false ∧ s.node.next = 3 ∧
    s.endOf (s.node.next + depthD s.rs) ≤ s.vt ∧ s.port.life ≠ .notStarted ∧ s.node.next ≤ s.port.bell ∧
    nodeWaits { s with node := { s.node with votes := s.node.votes ++ [⟨3, .site 3, true, false⟩] } } := by
  refine ⟨by decide +kernel, by decide +kernel, by decide +kernel, by decide +kernel, by decide +kernel, by decide +kernel,
    .inl rfl⟩
/-- Every vote of bell 3 but that of S9. -/
def votes3 (fault lost : Bool) : List Vote :=
  ((List.range 28).filter (fun i => i ≠ 9)).map fun i => ⟨3, .site (siteOf i), fault && i == 5, lost && i == 7⟩
def deciding (fault lost : Bool) (replays : Nat) : State :=
  { voting with node := { voting.node with replays := replays, votes := votes3 fault lost } }
theorem wit_RootDecides (a b : Bool) (r : Fin 4) :
    let s := deciding a b r
    isRoot s.rs = true ∧ s.drops (.site 9) 3 = false ∧ s.node.holds 3 (.site 9) = false ∧ s.node.next = 3 ∧
    s.node.own.find? (fun o => decide (o.1 = 3)) = some (3, false) ∧ s.node.mute = false ∧
    (s.children.all fun c => ({ s.node with votes := s.node.votes ++ [⟨3, .site 9, false, false⟩] } : NodeSt).holds 3 c) = true := by
  refine ⟨?_, ?_, ?_, ?_, ?_, ?_, children_all _ _ ?_ ?_⟩ <;> revert a b r <;> decide +kernel
theorem wit_LostHolds : let s := deciding true true 3
    isRoot s.rs = true ∧ s.drops (.site 9) 3 = false ∧ s.node.holds 3 (.site 9) = false ∧ s.node.next = 3 ∧ s.node.mute = false ∧
    s.node.own.find? (fun o => decide (o.1 = 3)) = some (3, false) ∧
    (∃ v ∈ s.node.votes ++ [⟨3, .site 9, true, true⟩], v.bell = 3 ∧ v.fault = true ∧ v.lost = true) ∧
    (s.children.all fun c => ({ s.node with votes := s.node.votes ++ [⟨3, .site 9, true, true⟩] } : NodeSt).holds 3 c) = true := by
  refine ⟨?_, ?_, ?_, ?_, ?_, ?_, ⟨_, List.mem_append_right _ (List.mem_singleton.mpr rfl), rfl, rfl, rfl⟩, children_all _ _ ?_ ?_⟩ <;>
    decide +kernel
theorem wit_LatenessDecided :
    let s : State := { live with vt := 119400 }
    s.live 4 = true ∧ (s.bellAt 4).executing = true ∧ (s.bellAt 4).guard = false ∧ (s.bellAt 4).closed = none ∧
    (s.bellAt 4).checks ≤ extMax s.rs ∧ 5 * periodNs s.rs + periodNs s.rs - guardNs s.rs - leadNs s.rs ≤ s.vt ∧
    s.unretired 4 = [] ∧ s.sliceOpen 4 5 = false ∧
    ({ coreRuns [] CoreSt.idle with vt := 119400 } : State).unretired 2 ≠ [] ∧
    isRoot s.rs = true ∧ s.drops (.site 3) 5 = false ∧ (5, 8) ∉ s.node.lates ∧ s.port.executing = true ∧ s.port.guard = false ∧
    s.node.closed = false ∧ s.node.mute = false ∧ guardAt s.port s.rs s.node.nextM - leadNs s.rs + cryTime s.rs ≤ s.vt ∧
    s.node.nextM < extMax s.rs := by decide +kernel
theorem wit_BellsClose :
    let s : State := { live with vt := 119750 }
    isRoot s.rs = true ∧ s.live 20 = true ∧ (s.bellAt 20).executing = true ∧ (s.bellAt 20).bell = 5 ∧
    (s.bellAt 20).guard = false ∧ (s.bellAt 20).closed = none ∧ (s.bellAt 20).ext < 8 ∧ treePort s.rs = 20 ∧
    s.live 2 = true ∧ (s.bellAt 2).executing = true ∧ (s.bellAt 2).guard = false ∧
    guardAt (s.bellAt 2) s.rs (s.bellAt 2).extNow ≤ s.vt ∧ (s.bellAt 2).resident = turnOf s.rs 6 := by decide +kernel
/-- The end of bell 5 at a site, the bell closed. -/
def ends (i : Site) (committed : Option Nat) : State :=
  { live with vt := 120000 }.setBell i { running with guard := true, closed := some (0, false), committed := committed }
theorem wit_BellBoundary : ∀ x ∈ [(some 4, true), (some 2, false)], ∀ i ∈ ([3, 13, 20] : List Site),
    (ends i x.1).bellOver i = true ∧ (ends i x.1).cfg.pendFull = none ∧ ((ends i x.1).bellAt i).pendHold = none ∧
    ((ends i x.1).bellAt i).settleB = none ∧ (ends i x.1).resetState i ≠ 4 ∧ ((ends i x.1).bellAt i).holdFor = none ∧ (ends i x.1).deadlineMet i 5 = x.2 := by
  decide +kernel
theorem wit_BellsBeginAgain : live.live 3 = true ∧
    (let s := live.setBell 3 { running with life := .lateHold, holdFor := some (5, 100500) }
     (s.bellAt 3).life = .lateHold ∧ s.deadlineMet 3 5 = true ∧ (s.bellAt 3).holdFor = some (5, 100500) ∧ 100500 ≤ s.vt) ∧
    (∀ l ∈ [Life.abandoning, .held, .settling, .notStarted],
      (live.setBell 3 { running with life := l, start := some 101000, startBell := 5 }).bellAt 3 =
        { running with life := l, start := some 101000, startBell := 5 }) ∧
    ((live.setBell 3 { running with start := some 101001 }).bellAt 3).start = some 101001 ∧ live.vt < 101001 := by
  decide +kernel
theorem wit_CriesAtSites_clear : ∀ i ∈ ([3, 13, 20, 22] : List Site), live.live i = true ∧ isRoot live.rs = true ∧
    (live.bellAt i).life ≠ .notStarted ∧ (live.bellAt i).life ≠ .abandoning ∧ (live.bellAt i).life ≠ .settling ∧
    (live.bellAt i).nextCommit = 5 ∧ (∀ c : Core, (live.core i c).heldFills = []) := by decide +kernel
theorem wit_CriesAtSites : live.live 2 = true ∧ isRoot live.rs = true ∧ (live.bellAt 2).abandonable 5 = true ∧
    (live.bellAt 2).executing = true ∧ treePort live.rs ≠ 2 ∧
    (let s := live.setBell 2 { running with life := .held, startBell := 5 }
     (s.bellAt 2).settled = true ∧ (s.bellAt 2).nextCommit = 5) ∧
    (let s := live.setBell 2 SiteBell.idle
     (s.bellAt 2).life = .notStarted ∧ (s.bellAt 2).nextCommit = 0) ∧
    (({ live with cfg.eff := [rootRec, recOf segLinkmap 1 32 [(12, 1, 2)]] } : State).bellAt 2).abandonable 5 = true ∧
    treePort [rootRec, recOf segLinkmap 1 32 [(12, 1, 2)]] = 2 := by decide +kernel
theorem wit_RootRequests : isRoot live.rs = true ∧ live.node.holdAt = none ∧ live.port.executing = true ∧
    holds.power.on = true ∧ holds.asleep = false ∧ holds.port.settled = true ∧ isRoot holds.rs = true ∧
    isRoot ({ live with cfg.eff := [] } : State).rs = false := by decide +kernel
/-- A budget of 100 in class 2 at S3, 40 of it used; a request waits in class 4. -/
def tithed : State := { live with tithes := [(3, { TitheSt.idle with used := [(2, 40)], queue := [⟨4, 5, 99⟩] })] }
  |>.setF (Reg.TITHE_BUDGET 3 2) Fld.TITHE_BUDGET_BUDGET 100 |>.setF (Reg.TITHE_BUDGET 3 4) Fld.TITHE_BUDGET_BUDGET 5
theorem wit_Tithes :
    (let s := { holds with vt := 150000 }
     s.live 3 = true ∧ s.asleep = false ∧ s.fencedAt 3 3 = false ∧ (s.bellAt 3).life = .held ∧
       (s.bellAt 3).perIdx < s.periodIdx (s.bellAt 3)) ∧
    (tithed.tithe 3).queue.all (fun r => decide (r.cls ≠ 2)) = true ∧ tithed.titheFits 3 2 60 = true ∧
    tithed.titheFits 3 2 61 = false ∧ (tithed.bellAt 3).guard = false ∧
    (tithed.tithe 3).queue.find? (fun x => decide (x.cls = 4)) = some ⟨4, 5, 99⟩ ∧ tithed.titheFits 3 4 5 = true ∧
    tithed.jobs = [] ∧ tithed.ingress = [] ∧ tithed.egress = [] ∧ tithed.inbox = [] := by decide +kernel
theorem wit_BellAndAnnounce : live.live 2 = true ∧ (live.bellAt 2).life ≠ .notStarted ∧ (live.bellAt 2).bell = 5 ∧
    votesNow live 2 = true ∧ (live.bellAt 2).executing = true ∧ (live.bellAt 2).bell ≠ (4 : BitVec 48).toNat ∧
    ∀ x ∈ [0, 1023], let arg := BitVec.ofNat 64 (2 ^ 58 + 0x801 * 2 ^ 44 + (2048 + x) * 2 ^ 20)
      arg.getLsbD 58 = true ∧ arg.getLsbD 44 = true ∧ arg.getLsbD 45 = false ∧ arg.toNat / 2 ^ 20 % 2 ^ 12 = 2048 + x := by
  decide +kernel

/-! ### Witnesses: memory, the base fabric, optical control -/

theorem wit_CacheInvalidates :
    let s := { live with invPend := [⟨7, 3, 13, 5⟩, ⟨7, 2, 13, 5⟩], stackMem := [(2, { StackMem.idle with lines := [(3, ⟨13, 5, 1, [1]⟩)] })] }
    s.invPend.find? (fun q => decide (q.stack = 2)) = some ⟨7, 2, 13, 5⟩ := by decide +kernel
/-- Group 5 of port 3 waits for retirement at S2 in a guard interval, `n` spares of the port used. -/
def groupWaits (scratch n : Nat) : State :=
  { live.setBell 2 { running with guard := true } with stackMem := [(2, { StackMem.idle with groups := [4096 * 3 + 5] })],
                                                       grn := (List.range n).map fun i => (grnKey 13 2 (4096 * 3 + i + 6), i) }
    |>.setF (Reg.MEM_CACHE_CFG 2) Fld.MEM_CACHE_CFG_SCRATCH scratch
theorem wit_MemoryRetires :
    (∀ x ∈ [(16, 0), (16, 32), (0, 31), (0, 32)],
      4096 * 3 + 5 ∈ ((groupWaits x.1 x.2).stackAt 2).groups ∧ ((groupWaits x.1 x.2).bellAt 2).guard = true ∧
      (groupWaits x.1 x.2).sparesUsed 2 3 = x.2 ∧
      decide (16 * 5 < (groupWaits x.1 x.2).scratchFrames 2) = decide (x.1 = 16)) ∧
    (let s := { holds with bridgeMem := [(13, { BridgeMem.idle with queue := [⟨2 ^ 30 - 1, 3, true⟩] })] }
     s.holding 13 = true ∧ (s.bridgeAt 13).queue = [⟨2 ^ 30 - 1, 3, true⟩] ∧ (2 ^ 30 - 1) * 8192 + 8192 ≤ 2 ^ 43) := by
  decide +kernel
/-- A scratch group whose copy meets bad bytes, in a hold and in a guard interval; a corrected page in a guard interval. -/
theorem wit_MemoryRetires_bad :
    (let s := { groupWaits 16 31 with bells := holds.bells }
     4096 * 3 + 5 ∈ (s.stackAt 2).groups ∧ s.holding 2 = true ∧ s.sparesUsed 2 3 = 31 ∧ 16 * 5 < s.scratchFrames 2) ∧
    (let s := groupWaits 16 0
     s.holding 2 = false ∧ (s.bellAt 2).guard = true ∧ 4096 * 3 + 5 ∉ (s.stackAt 2).held) ∧
    (let s := { live.setBell 13 { running with guard := true } with bridgeMem := [(13, { BridgeMem.idle with queue := [⟨2 ^ 30 - 1, 3, false⟩] })] }
     s.holding 13 = false ∧ (s.bellAt 13).guard = true ∧ SMap.get 0 s.pageBell 13 ≠ (s.bellAt 13).bell + 1 ∧
       (s.bridgeAt 13).queue.find? (fun p => !p.uncorr) = some ⟨2 ^ 30 - 1, 3, false⟩) := by decide +kernel
theorem wit_CarriersMove : live.live 3 = true ∧ live.live 20 = true ∧ (∃ q ∈ live.planesOf 3 20, q ≠ 7) ∧
    live.carrierFailed 3 20 7 = false ∧ live.isOut 3 20 7 = false ∧
    (let s := after (.carrierLoss 3 20 7) live
     s.isOut 3 20 7 = true ∧ (∃ q ∈ s.planesOf 3 20, q ≠ 7) ∧ s.reg (Reg.FAB_RX_STRIPE 20 3) ≠ s.reg (Reg.FAB_TX_STRIPE 3 20)) := by
  decide +kernel
/-- A carrier that has been out for 10 µs with both rings locked; a marker behind one that has been missed; a link in service. -/
theorem wit_CarriersMove_back : (∀ q ∈ [0, 33, 35],
      let s : State := { live with vt := 101000, lit := [3, 20], outs := [(pairKey 3 20, [(q, 91000)])] }
      s.ringState 3 (64 * q + 17) = 3 ∧ s.ringState 20 (64 * q + 32 + 17) = 3 ∧
        (s.ringCal 3 (64 * q + 17)).lockAt + 10000 ≤ s.vt ∧ (s.ringCal 20 (64 * q + 32 + 17)).lockAt + 10000 ≤ s.vt ∧ (∃ e ∈ s.outOf 3 20, e.1 = q ∧ e.2 + 10000 ≤ s.vt) ∧
        s.planesOf 3 20 ≠ []) ∧
    (let s : State := { live with markers := [(pairKey 20 3, [(4, 1), (5, 3), (6, 7)])] }
     SMap.get [] s.markers (pairKey 20 3) = [(4, 1)] ++ ((5 : BitVec 4).toNat, 3) :: [(6, 7)] ∧
       ∀ e ∈ [((4 : Nat), (1 : BitVec 64))], e.1 ≠ (5 : BitVec 4).toNat) ∧
    (live.setF (linkStat (linkNum 0 9)) Fld.LNK_STATUS_STATE 2).linkState (linkNum 0 9) ≠ 0 ∧ siteKind 20 = .engine := by decide +kernel
theorem wit_CarriersFail :
    (let s := live.setF (Reg.FAB_STEER 3 33) Fld.FAB_STEER_TX_SB 63
     s.live 3 = true ∧ s.live 20 = true ∧ s.carrierFailed 3 20 33 = false ∧
       s.getF (Reg.FAB_STEER 3 33) Fld.FAB_STEER_TX_SB = 63 ∧ s.planesOf 3 20 ≠ []) ∧
    (let s := (live.setF (Reg.FAB_COMB 3) Fld.FAB_COMB_C4 1).setF (Reg.FAB_COMB 3) (combFld 3) 0
     s.getF (Reg.FAB_COMB 3) (combFld 3) = 0 ∧ s.getF (Reg.FAB_COMB 3) Fld.FAB_COMB_C4 = 1) := by decide +kernel
theorem wit_CarriersFail_lanes : (∀ q ∈ [0, 33, 34, 35, 36, 37], 
      let s : State := State.setF (live.setF (Reg.FAB_STEER 3 q) Fld.FAB_STEER_TX_SB 63) (Reg.FAB_STEER 20 q) Fld.FAB_STEER_RX_SB 63
      s.carrierFailed 3 20 q = false ∧ s.getF (Reg.FAB_STEER 3 q) (spareFld (bit false) true) = 63 ∧
        s.getF (Reg.FAB_STEER 20 q) (spareFld (bit true) true) = 63 ∧ s.pairBracket 3 20 = none ∧ ∃ p ∈ s.planesOf 3 20, p ≠ q) ∧
    (let s : State := { live with vt := 200005, outs := [(pairKey 3 20, [(33, 5)])] }
     ∃ e ∈ s.outOf 3 20, e.1 = 33 ∧ e.2 + 200000 ≤ s.vt) ∧
    (let s := (live.setF (Reg.FAB_COMB 3) Fld.FAB_COMB_C4 0).setF (Reg.FAB_COMB 3) (combFld 0) 2
     s.getF (Reg.FAB_COMB 3) (combFld 0) = 2 ∧ s.getF (Reg.FAB_COMB 3) Fld.FAB_COMB_C4 ≠ 1 ∧ 34 ∈ combPlanes 0 ∧ s.live 4 = true) := by
  decide +kernel
/-- A ring of S2 with lit combs and these loop fields. -/
def ringS (r : Nat) (c : RingCal) : State :=
  ({ live with lit := [2, 3], rcal := [(4096 * 2 + r, c)] }.setF (Reg.CAL_RING_FF 2 r) Fld.CAL_RING_FF_RAMP 3).setF
    (Reg.CAL_RING_FF 2 r) Fld.CAL_RING_FF_SRC 3
/-- The comb CE0 of S20 with this bias, in use; link 0 reports −10.00 dBm and −8.00 dBm for two of its lines. -/
def combS (bias : Nat) : State :=
  ({ live with vt := 20000000000, links := [(0, { LinkSt.idle with stripe := [2], power := [(0, 0xFC18), (2, 0xFCE0)] })] }.setF
    (Reg.CAL_COMB_BIAS 20 5) Fld.CAL_COMB_BIAS_BIAS bias).setLinkState 0 2
theorem wit_RingLoopsAndCombs :
    (∀ c ∈ [{ RingCal.idle with st := some 3 }, { RingCal.idle with st := some 3, bad := 1 }],
      (ringS 5 c).ringState 2 5 = 3 ∧ ((ringS 5 c).ringCal 2 5).updAt + 5000 ≤ (ringS 5 c).vt ∧
      (((ringS 5 c).newRamp 2 5).ringCal 2 5).bad = c.bad ∧ (ringS 5 c).lockErr 2 5 4000 = 400000 ∧
      (ringS 5 c).lockErr 2 5 4001 = 400100) ∧
    (let s := ringS 5 { RingCal.idle with marks := [(3, 4, 0)] }
     (s.ringCal 2 5).marks = [(3, 4, 0)] ∧ refPower (s.getF (Reg.CAL_RING_FF 2 5) Fld.CAL_RING_FF_SRC) ≠ 0 ∧
       0 + 2000 * s.getF (Reg.CAL_RING_FF 2 5) Fld.CAL_RING_FF_RAMP ≤ s.vt) ∧
    (let s := ringS 5 { RingCal.idle with st := some 1 }
     s.ringState 2 5 = 1 ∧ (s.ringCal 2 5).updAt + 5000 ≤ s.vt ∧ toneRead [(5, -3000), (6, -3600)] = some 5 ∧ ringSlot 5 = 5 ∧ (29491 : Int) - s.ringExpect 2 5 100 ≤ 29491 ∧ -29491 ≤ (29491 : Int) - s.ringExpect 2 5 100) ∧
    (ringThere 2 5 = true ∧ live.ringRetired 2 5 = false ∧ live.grnGet 8 2 5 0 % 2 = 0 ∧ live.ringBracket 2 5 = none) ∧
    ∀ b ∈ [1200, 1795, 1796, 1800], (combS b).combLow 20 5 = some (-1000) ∧ (combS b).combState 20 5 = 0 ∧
      ((combS b).combAt 20 5).judged + 1000000000 ≤ (combS b).vt ∧
      (combS b).combBracketed 20 5 = false ∧ ((combS b).combAt 20 5).raised = none ∧
      (combS b).getF (Reg.CAL_COMB_BIAS 20 5) Fld.CAL_COMB_BIAS_BIAS = b := by decide +kernel
/-- CALPOLICY's limits allow a raise by default, and refuse it under a LIMIT record of 600 to 1,500. -/
theorem wit_RingLoopsAndCombs_limit : calOk (combS 1795).rs 0x40 1795 1800 = true ∧
    (let rs := [recOf segCal 2 24 [(8, 2, 0x40), (12, 4, 5), (16, 4, 600), (20, 4, 1500)]]
     calOk rs 0x40 1500 1505 = false ∧ calOk rs 0x40 1495 1500 = true) := by decide +kernel
/-- A ring on another slot's tone that has not been moved yet, one with a heater fault before, a comb that is at its limit. -/
theorem wit_RingLoopsAndCombs_faults :
    (let s := ringS 5 { RingCal.idle with st := some 2 }
     s.ringState 2 5 = 2 ∧ toneRead [(4, -3000), (5, -3600)] = some 4 ∧ toneRead [(4, -3000), (5, -3599)] = none ∧
       ringSlot 5 ≠ 4 ∧ (s.ringCal 2 5).relocked = false ∧ (s.ringCal 2 5).fails < 2) ∧
    (let s := ringS 5 { RingCal.idle with st := some 2, fails := 2 }
     s.ringState 2 5 = 2 ∧ (s.ringCal 2 5).relocked = false ∧ 2 ≤ (s.ringCal 2 5).fails) ∧
    (let s : State := { live with grn := [(grnKey 8 2 5, 1)] }
     ringThere 2 5 = true ∧ s.ringRetired 2 5 = false ∧ s.grnGet 8 2 5 0 % 2 = 1) ∧
    (let s := (combS 1800).grnPut 7 20 5 2
     s.combState 20 5 = 2 ∧ (s.combAt 20 5).judged + 1000000000 ≤ s.vt ∧ s.combBracketed 20 5 = false ∧
       s.combLow 20 5 = some (-1000)) := by decide +kernel
/-- A bracket's results with this fraction above THRESH and this merit before: CTLE one step up, PRE one down. -/
def calR (old : BitVec 16) (above : Fin 65537) : CalResult :=
  ⟨7, 1, true, ⟨1, 2, 3⟩, ⟨3, 2, 2⟩, ⟨2, 2, 2⟩, ⟨0, 1, 5⟩, ⟨2, 2, 2⟩, 4, old, 5, above⟩
/-- A bracket of wavelength 15 of link 63 and one of a sensor that has been out of use for 1 ms. -/
def bracketS : State := { live with vt := 1000007, brackets := [⟨true, linkSite 63, (linkHome 63).2, 15, 0, 5⟩], sensOut := [(3, 5, 7)] }
theorem wit_BracketsJudge :
    bracketS.brackets.find? (fun b => b.wave && decide (b.tx = linkSite 63) && decide (b.rx = (linkHome 63).2) && decide (b.ch = 15)) =
      some ⟨true, linkSite 63, (linkHome 63).2, 15, 0, 5⟩ ∧
    ([(⟨29492, by omega⟩, true), (⟨29491, by omega⟩, false), (⟨36044, by omega⟩, true), (⟨36045, by omega⟩, false)].all
      fun (x : Fin 65537 × Bool) => bracketS.bracketGood (linkSite 63) (waveRing (linkNum (linkSite 63 - 20) (linkHome 63).2) 1 16) none
        (calR 5 x.1) == x.2) = true ∧
    bracketS.sensOut.find? (fun e => decide (e.1 = 3) && decide (e.2.1 = 5)) = some (3, 5, 7) ∧ 7 + 1000000 ≤ bracketS.vt ∧
    calOk bracketS.rs 0x50 (sint16 (bracketS.getF (sensorOfs 3 5) Fld.CAL_SENSOR_OFS_OFFSET)) 30000 = false := by decide +kernel
theorem wit_BracketsJudge_carrier : let s : State := { live with brackets := [⟨false, 3, 20, 31, 33, 5⟩] }
    s.pairBracket 3 20 = some ⟨false, 3, 20, 31, 33, 5⟩ ∧ s.planesOf 3 20 ≠ [] ∧
    s.bracketGood 20 ((2 * 31 + 1) * 32 + 17) (some (3, 2 * 31 * 32 + 17)) (calR 5 ⟨32768, by omega⟩) = true ∧
    s.bracketGood 20 ((2 * 31 + 1) * 32 + 17) (some (3, 2 * 31 * 32 + 17)) (calR 6 ⟨32768, by omega⟩) = false := by
  decide +kernel

/-! ### Witnesses: packets -/

/-- A sealed packet of bell 5 and context 1, of `len` payload bytes. -/
def pk (op dst src off len : Nat) (f : Packet → Packet) : Packet :=
  (f { Packet.zero with op := BitVec.ofNat 8 op, dstSite := siteOf dst, srcSite := siteOf src, addr := BitVec.ofNat 43 off
                        len := BitVec.ofNat 13 len, bell := 5, ctx := 1, tag := 77, gen := 3
                        payload := if op = 8 then [] else List.replicate len 7 }).sealed
/-- A packet arrives whole over the hop from its source. -/
def ar (p : Packet) : Arrival := ⟨p, .base p.srcSite, []⟩
/-- Context 1 may reach 1 MiB at S3, S13 and S20. -/
def windows : List Rec := [rootRec, winRec 1 13 0 0x100000 0, winRec 1 3 0 0x100000 0, winRec 1 20 0 0x100000 0]
def sW : State := { live with cfg.eff := windows }
def last (p : Packet) : Packet := { p with last := true }
/-- Each clause of the WRITE statement: stored, at the window's end, past it, and a copy of one already answered. -/
theorem wit_PacketWrites_write :
    arrived sW 0x01 13 (ar (pk 1 13 5 (0x100000 - 32) 32 last)) ∧ isNew sW 13 (pk 1 13 5 (0x100000 - 32) 32 last) ∧
    unstuck sW 13 (pk 1 13 5 (0x100000 - 32) 32 last) := by
  refine ⟨?_, ?_, ?_⟩
  · unfold arrived; decide +kernel
  · unfold isNew; decide +kernel
  · unfold unstuck; decide +kernel
theorem wit_PacketWrites_stored : sW.placeFails 13 (pk 1 13 5 (0x100000 - 32) 32 last) = none ∧
    sheetWrite 13 0x01 1 (0x100000 - 32) 32 = false ∧ siteKind 13 ≠ .stack := by decide +kernel
theorem wit_PacketWrites_refused : arrived sW 0x01 13 (ar (pk 1 13 5 0x100000 32 last)) ∧
    (sW.placeFails 13 (pk 1 13 5 0x100000 32 last)).isSome = true := by
  unfold arrived; decide +kernel
/-- A write from package 9, already applied at this time. -/
def pF : Packet := pk 1 13 5 64 32 fun p => { p with last := true, srcPkg := 9 }
def sCopy : State := { sW with gws := [(13, { GwSt.idle with dedupe := [⟨pF.key, sW.vt, false⟩] })] }
theorem wit_PacketWrites_copy : arrived sCopy 0x01 13 (ar pF) ∧ sCopy.placeFails 13 pF = none ∧ pF.last = true ∧
    (sCopy.dedupe 13 pF).2 = false := by
  unfold arrived; decide +kernel
/-- A commit log with room, and one without. -/
theorem wit_PacketWrites_commit : ∀ n ∈ [0x10000, 64],
    let p := pk 2 13 3 4096 64 fun p => { p with commit := true }
    let s := { sW with cfg.eff := recOf segMem 2 40 [(8, 1, 13), (16, 8, 0x100000), (24, 8, n)] :: windows }
    arrived s 0x02 13 (ar p) ∧ s.placeFails 13 p = none ∧ s.bellNamed 13 5 = some 5 ∧ isNew s 13 p ∧
      decide (fixUsed (s.bridgeAt 13).fix + (⟨0, 5, 4096, p.payload, false⟩ : FixEntry).size ≤ (fixArea s.rs 13).2) = decide (n = 0x10000) := by
  unfold arrived isNew; decide +kernel
/-- Group 7: places at S13, S3 and S20. -/
def mcRec : Rec :=
  ⟨segFabric, 0, 2, 0, bytesAt 24 [(8, 2, 7), (10, 1, 3), (12, 8, 0xFFFFFFFFFFFFFFFF)] ++
    [(13, 4096), (3, 4096), (20, 0)].flatMap fun d => leBytes 8 d.1 ++ leBytes 8 d.2⟩
def sM : State := { sW with cfg.eff := mcRec :: windows }
def pM : Packet := pk 3 13 3 7 64 fun p => { p with mcast := true, last := true }
def pE : Packet := pk 3 20 3 7 64 fun p => { p with mcast := true, last := true, srcPkg := 5 }
theorem wit_PacketWrites_mcast : arrived sM 0x03 13 (ar pM) ∧ hopNum (ar pM).hop < 32 ∧
    sM.mcastFit 13 pM = ([4096], none) ∧ isNew sM 13 pM := by
  unfold arrived isNew; decide +kernel
theorem wit_PacketWrites_mcast_engine : arrived sM 0x03 20 ⟨pE, .link 3, []⟩ ∧ 32 ≤ hopNum (.link 3) ∧
    mcastRec sM.rs (pE.addr.toNat % 4096) = some mcRec ∧ (sM.gw 20).replKeys = [] ∧ (sM.gw 20).replicas.length < 512 ∧ (sM.dedupe 20 pE).2 = true ∧
    sM.live 13 = true ∧ sM.fencedAt 20 13 = false ∧ (mcastDests mcRec).map (·.1) = [13, 3, 20] := by
  unfold arrived; decide +kernel
/-- R202, R273: a packet to S13 and along a branch goes under one tag, and the package keeps its key. -/
theorem test_one_tag : let s := sM.sendTagged 3 ⟨104, [(none, 13), (none, 20), (some 2, 0)], false, { pM with srcSite := 3 }, 64, .dma⟩
    (s.gw 3).tags.map (fun e => e.2.kids) = [sM.kidsOf pM [(none, 13), (none, 20), (some 2, 0)]] ∧
      s.out.filterMap (fun | .packet _ _ p _ => some p.tag | _ => none) = [0, 0] := by decide +kernel
/-- Every replication record of S20 is in use, the oldest since the start. -/
def sMfull : State :=
  { sM with gws := [(20, { GwSt.idle with replicas := List.replicate 512 ⟨pk 3 20 3 7 64 id, .link 3, 2, 0, 0, 0⟩ })] }
theorem wit_PacketWrites_mcast_held : arrived sMfull 0x03 20 ⟨pE, .link 3, []⟩ ∧ 32 ≤ hopNum (.link 3) ∧ pE.last = true ∧
    (mcastRec sMfull.rs (pE.addr.toNat % 4096)).isSome = true ∧ (sMfull.gw 20).replKeys = [] ∧ 512 ≤ (sMfull.gw 20).replicas.length := by
  unfold arrived; decide +kernel
/-- R274: a packet that finds no record waits; it goes on once a record times out. -/
theorem test_no_record : let s := after (.mcastWrite 20 ⟨pE, .link 3, []⟩ [] false) sMfull
    (s.gw 20).replHeld.length = 1 ∧ (s.gw 20).freed = [] ∧
    ((after (.replicationTimeout 20) { s with vt := 101000 + 2 * periodNs s.rs }).gw 20).replHeld = [] := by
  decide +kernel
/-- A copy that waits for a record, and a WRITE of the same link behind it; a contact sheet; a write that meets a parity failure. -/
def sBehind : State := { sMfull with gws := [(20, { sMfull.gw 20 with replHeld := [⟨pE, .link 3, [], false, [], 101000⟩] })] }
def pB : Packet := pk 1 20 3 4096 64 fun p => { p with last := true, srcPkg := 5 }
def pSheet : Packet := pk 1 12 3 (sheetBoxBase + 0x1F00) 256 fun p => { p with ctx := 0 }
theorem wit_PacketWrites_behind : arrived sBehind 0x01 20 ⟨pB, .link 3, []⟩ ∧ sBehind.behindHeld 20 (.link 3) pB = true ∧
    sW.behindHeld 13 (.base 5) (pk 1 13 5 (0x100000 - 32) 32 last) = false ∧
    sW.placeFails 12 pSheet = none ∧ isNew sW 12 pSheet ∧
    sheetWrite 12 0x01 pSheet.ctx.toNat pSheet.addr.toNat pSheet.len.toNat = true := by
  unfold arrived isNew; decide +kernel
theorem sealed_crc (p : Packet) : p.sealed.crc = p.sealed.calcCrc := rfl
theorem wit_PacketWrites_sheet : arrived sW 0x01 12 (ar pSheet) := by
  refine ⟨?_, ?_, ?_, ?_, ?_, ?_, sealed_crc _, ?_, ?_, ?_, ?_, ?_⟩ <;> decide +kernel
theorem wit_PacketReads : arrived sW 0x08 13 (ar (pk 8 13 3 4128 64 id)) ∧ sW.placeFails 13 (pk 8 13 3 4128 64 id) = none ∧
    clean [(4127, .uncorrectable), (4192, .uncorrectable)] 4128 64 ∧ siteKind 13 = .bridge ∧
    (pk 8 13 3 4128 64 id).addr.toNat < hbmSize ∧
    (∃ f ∈ ([(4191, .uncorrectable)] : Flaws), 4128 ≤ f.1 ∧ f.1 < 4128 + 64 ∧ f.2 = .uncorrectable) ∧
    sW.behindHeld 13 (ar (pk 8 13 3 4128 64 id)).hop (pk 8 13 3 4128 64 id) = false := by
  refine ⟨?_, by decide +kernel, ?_, by decide +kernel, by decide +kernel, ⟨_, List.mem_singleton.2 rfl, by decide⟩, by decide +kernel⟩
  · unfold arrived; decide +kernel
  · unfold clean; decide
theorem wit_PacketReads_plain : sW.replHolder (pk 0x30 3 13 0 0 fun p => { p with vc := 2, step := 104 + 256 * 6 }) = none := by
  decide +kernel
/-- R215: a READ_REQ behind a copy that waits at a link engine, and a write behind a fill record of its source that waits. -/
theorem wit_PacketReads_behind : arrived sBehind 0x08 20 ⟨pk 8 20 3 4096 64 fun p => { p with srcPkg := 5 }, .link 3, []⟩ ∧
    sBehind.behindHeld 20 (.link 3) (pk 8 20 3 4096 64 fun p => { p with srcPkg := 5 }) = true ∧
    (let s := sW.setCore 3 9 { sW.core 3 9 with heldFills := [⟨1, [], some (.base 5, pk 1 3 5 0x100 128 id), none, 0⟩] }
     s.behindHeld 3 (.base 5) (pk 1 3 5 4096 64 id) = true ∧ s.behindHeld 3 (.base 6) (pk 1 3 6 4096 64 id) = false) := by
  unfold arrived; decide +kernel
/-- An atomic of 4 or 8 bytes. -/
def pA (add wide : Bool) : Packet :=
  pk (if add then 0x18 else 0x19) 13 5 4104 32 fun p =>
    { p with vc := 4, fmt := if wide then 0xB else 0xA
             payload := if wide then List.replicate 16 7 ++ leBytes 16 0 else List.replicate 8 7 ++ leBytes 24 0 }
theorem wit_PacketReads_atomics : ∀ add wide : Bool, arrived sW (if add then 0x18 else 0x19) 13 (ar (pA add wide)) ∧
    sW.placeFails 13 (pA add wide) = none ∧ isNew sW 13 (pA add wide) ∧
    sW.behindHeld 13 (ar (pA add wide)).hop (pA add wide) = false := by
  unfold arrived isNew; decide +kernel
/-- A response to the live tag 77 of issuer 104 at S3, and one to no live tag. -/
def tagged3 (issuer tag : Nat) (why : Purpose) : State :=
  { sW with gws := [(3, { GwSt.idle with tags := [(tagKey issuer tag, ⟨3, 5, 0, 1, 0, 13, 32, 100, why, [], 0⟩)], gens := [(tagKey issuer 77, 3)] })] }
theorem wit_PacketReads_responses : ∀ good ∈ [true, false], ∀ n ∈ [77, 78],
    let p := pk (if good then 9 else 0x30) 3 13 0 (if good then 32 else 0) fun p => { p with vc := 2, step := 104 + 256 * 6 }
    let s := tagged3 104 n .dma
    arrived s (if good then 0x09 else 0x30) 3 (ar p) ∧ (s.gw 3).replicas = [] ∧ (s.gw 3).tagWait = [] ∧
      ((s.gw 3).tags.find? (fun kv => decide (kv.1 = tagKey p.issuer p.tag.toNat))).isSome = decide (n = 77) ∧
      SMap.get 0 (s.gw 3).gens (tagKey p.issuer p.tag.toNat) = 3 ∧ p.gen.toNat = 3 ∧ p.bell.toNat = 5 ∧ p.epoch.toNat = 0 ∧ p.ctx.toNat = 1 ∧
      (n = 78 → tagFree s 3 p.issuer p.tag.toNat) := by
  unfold arrived tagFree; decide +kernel
/-- A multicast request whose copies at S13 and at package 6 have not answered: an acknowledgement from S13, and a failure. -/
def kidS (kids : List Nat) : State := { tagged3 104 77 .dma with gws := [(3, { GwSt.idle with
  tags := [(tagKey 104 77, ⟨3, 5, 0, 1, 0, 13, 32, 100, .dma, kids, 0⟩)], gens := [(tagKey 104 77, 3)] })] }
theorem wit_PacketReads_kids : ∀ good ∈ [true, false], ∀ kids ∈ [[13], [38, 13]],
    let p := pk (if good then 9 else 0x30) 3 13 0 (if good then 32 else 0) fun p => { p with vc := 2, step := 104 + 256 * 6 }
    arrived (kidS kids) (if good then 0x09 else 0x30) 3 (ar p) ∧ (kidS kids).kidOf p.srcPkg.toNat p.srcSite.val = 13 ∧
      (kidS kids).kidOf 6 5 = 38 ∧ tagKey p.issuer p.tag.toNat = tagKey 104 77 := by
  unfold arrived; decide +kernel
/-- Reduction group 7 at S13 of these contributors, output to S3. -/
def grp (op contrib : Nat) : Rec := recOf segReduce 1 88 [(8, 2, 7), (10, 1, 1), (11, 1, op), (16, 4, contrib), (20, 4, 128),
  (36, 4, 1), (42, 1, 13), (44, 2, 3), (46, 2, 4), (48, 8, 3 * 2 ^ 43 + 0x1000)]
def sR (op contrib : Nat) : State := { live with cfg.eff := [rootRec, turns1, grp op contrib] }
/-- A contribution of `n` FP32 elements at element `idx`. -/
def contribution3 (op idx n : Nat) : Packet :=
  pk (0x10 + op) 13 5 (7 + idx * 2 ^ 12) (4 * n) fun p => { p with vc := 1, red := BitVec.ofNat 4 (op + 1), fmt := 0, step := 9 }
def redRun (op : Fin 3) (p : Packet) : Instr :=
  match op with
  | 0 => .reduceAdd 13 (ar p) []
  | 1 => .reduceMax 13 (ar p) []
  | 2 => .reduceMin 13 (ar p) []
theorem wit_Reductions :
    (∀ op : Fin 3, let p := contribution3 op 40 32
      arrived (sR (op + 1) 2) (BitVec.ofNat 8 (0x10 + op)) 13 (ar p) ∧ (sR (op + 1) 2).sliceHere 7 13 ≠ none ∧
        (sR (op + 1) 2).contribFails 13 p = none ∧ isNew (sR (op + 1) 2) 13 p ∧
        clean [] (accOffset 13 96) (1280 * (linesOf 136 32).length) ∧ ((sR (op + 1) 2).accum 13 136).count + 1 < 2) ∧
    (let p := contribution3 0 120 32
     arrived (sR 1 2) 0x10 13 (ar p) ∧ ((sR 1 2).contribFails 13 p).isSome = true) := by
  unfold arrived isNew clean; decide +kernel
/-- Two completed lines wait to leave S13. -/
def sLines : State := { sR 1 1 with runs := [(0, ⟨13, 7, 5, [⟨0, List.replicate 128 7, 0⟩, ⟨1, List.replicate 128 7, 0⟩], [], [], false, 0, false⟩)] }
theorem wit_Reductions_lines : ((sLines.runs.find? (fun kv => decide (kv.2.site = 13) && decide (kv.2.group = 7) &&
      !kv.2.queue.isEmpty)).any fun kv => kv.2.queue.head?.isSome) = true ∧ (sLines.sliceHere 7 13).isSome = true ∧
    hasTag sLines 13 0 ∧ sLines.localFail 13 0 sLines.pkg 3 = none := by decide +kernel
/-- A flaw in the last byte of a line that a contribution touches, and one just past it. -/
theorem wit_Reductions_bad : let p := contribution3 1 40 32
    ((sR 2 2).badLines 13 p [(accOffset 13 96, .uncorrectable)]).length = 0 ∧
    (sR 2 2).badLines 13 p [(accOffset 13 128 + 1279, .uncorrectable)] ≠ [] ∧ (sR 2 2).badLines 13 p [(accOffset 13 192, .uncorrectable)] = [] := by
  decide +kernel

/-! ### Witnesses: signals, tags, credits, hop retry -/

/-- A SIGNAL of 7 to token 255 of core 95 or token 1,023 of its cluster, which core 88 stands for. -/
def pS (ref bell : Nat) : Packet := pk 0x20 2 5 (if ref < 2048 then 95 else 88) 32 fun p =>
  { p with vc := 5, payload := leBytes 4 ref ++ leBytes 4 7 ++ leBytes 24 0, bell := BitVec.ofNat 8 bell }
def sS : State := live.setBell 2 { running with resident := 1 }
theorem wit_SignalsTagsCredits : ∀ ref ∈ [1024 + 255, 2048 + 1023], ∀ bell ∈ [5, 4],
    arrived sS 0x20 2 (ar (pS ref bell)) ∧ siteKind 2 = .stack ∧ (pS ref bell).ctx ≠ 0 ∧
    (pS ref bell).ctx.toNat = (sS.bellAt 2).resident ∧ isNew sS 2 (pS ref bell) ∧
    (tokenReg 2 ((pS ref bell).addr.toNat % 128) ((pS ref bell).payNum 0 2)).isSome = true := by
  unfold arrived isNew; decide +kernel
theorem wit_SignalsTagsCredits_tags :
    (let s := { tagged3 104 77 .dma with vt := 100 + 2 * periodNs live.rs }
     (s.gw 3).tags.find? (fun kv => decide (kv.1 = tagKey 104 77)) = some (tagKey 104 77, ⟨3, 5, 0, 1, 0, 13, 32, 100, .dma, [], 0⟩) ∧
       (s.gw 3).tagWait = [] ∧ 100 + 2 * periodNs s.rs ≤ s.vt) ∧
    ({ tagged3 104 77 .dma with vt := 99 + 2 * periodNs live.rs } : State).vt < 100 + 2 * periodNs live.rs ∧
    (let s := { live with gws := [(3, { GwSt.idle with quar := [(tagKey 104 77, 101000)] })] }
     (s.gw 3).quar.find? (fun kv => decide (kv.1 = tagKey 104 77)) = some (tagKey 104 77, 101000) ∧ 101000 ≤ s.vt) := by
  decide +kernel
/-- Tags of S3 in quarantine, and a packet of issuer 104 that waits for one. -/
def waitsFor (q : SMap Nat) : State := { live with gws := [(3, { GwSt.idle with
  quar := q, tagWait := [⟨104, [], false, live.stamp 3 104 (pk 1 13 3 4096 32 id), 32, .dma⟩] })] }
theorem waitsFor_gw (q : SMap Nat) : ((waitsFor q).gw 3).quar = q := rfl
/-- Every tag of issuer 104, in quarantine. -/
def allQuar : SMap Nat := (List.range 4096).map fun t => (tagKey 104 t, 101000)
def sNoTag : State := waitsFor allQuar
theorem wit_SignalsTagsCredits_waits : (sNoTag.gw 3).freeTag 104 = none := by
  unfold GwSt.freeTag
  rw [List.find?_eq_none]
  intro t ht
  have hq : ((sNoTag.gw 3).quar.any fun kv => decide (kv.1 = tagKey 104 t)) = true := by
    rw [sNoTag, waitsFor_gw, List.any_eq_true]
    exact ⟨(tagKey 104 t, 101000), List.mem_map.2 ⟨t, ht, rfl⟩, decide_eq_true rfl⟩
  rw [hq]; simp
theorem wit_SignalsTagsCredits_waiter :
    ((sNoTag.gw 3).quar.find? (fun kv => decide (kv.1 = tagKey 104 0))) = some (tagKey 104 0, 101000) ∧ 101000 ≤ sNoTag.vt ∧
    (sNoTag.gw 3).tagWait.length = 1 ∧ (∀ w ∈ (sNoTag.gw 3).tagWait, w.issuer = 104 ∧
      sNoTag.waitFails 3 w = none) ∧ (sNoTag.gw 3).tags = [] ∧ sNoTag.drains = [] := by
  decide +kernel
theorem wit_SignalsTagsCredits_go : (∀ w ∈ (sNoTag.gw 3).tagWait, sNoTag.guardKeeps 3 104 w.pkt = false) ∧
    (let p : Packet := pk 0x20 2 12 9 32 fun p => { p with vc := 5, ctx := 0, step := 127, payload := leBytes 4 1279 ++ leBytes 4 7 ++ leBytes 24 0 }
     arrived sS 0x20 2 (ar p) ∧ sS.fromMc p = true ∧ isNew sS 2 p) := by
  unfold arrived isNew; decide +kernel
/-- R225: the tag that is free again serves the packet that waited. -/
theorem test_tag_serves_waiter : let t := after (.quarantineEnd 3 104 0) sNoTag
    (t.gw 3).tagWait = [] ∧ (t.gw 3).tags.map (fun e => (e.1, e.2.purpose)) = [(tagKey 104 0, .dma)] := by
  decide +kernel
/-- A program with an arrival window of 1 KiB at offset 2^16 of its core store, token 255 of its core. -/
def sLand : State :=
  { coreRuns [] CoreSt.idle with cfg.eff := [rootRec, turns1, ⟨segPrograms, 0, 2, 0, bytesAt 32 [(8, 1, 1), (9, 1, 2), (10, 1, 9), (14, 1, 1)] ++
      leBytes 8 (coreStoreBase 9 + 65536) ++ leBytes 4 1024 ++ leBytes 2 (1024 + 255) ++ leBytes 2 0⟩] }
theorem wit_StaleIncrements :
    (arrived sS 0x20 2 (ar (pS 1279 4)) ∧ isNew sS 2 (pS 1279 4) ∧ (pS 1279 4).bell.toNat ≠ (sS.bellAt 2).bell % 256) ∧
    (live.live 2 = true ∧ (BitVec.ofNat 64 (2 ^ 58)).getLsbD 58 = true ∧ (live.bellAt 2).bell ≠ 4) ∧
    ((last (pS 1279 4)).bell.toNat ≠ (sLand.bellAt 2).bell % 256 ∧ 9 ∈ sLand.enabledCores 2 ∧
      (sLand.coreProg 2 9).isSome = true) := by
  unfold arrived isNew; decide +kernel
theorem x_landed_counts : let t := sLand.landed 2 (last (pS 1279 4)) (coreStoreBase 9 + 65536 + 1024 - 32) 32
    t.getF (Reg.CORE_STALE_INC 2 9) Fld.CORE_STALE_INC_COUNT = 1 ∧ t.log = [] := by decide +kernel
/-- A CREDIT of 4 units of VC 0, with one packet waiting for it. -/
def pC : Packet := pk 0x38 3 5 0 32 fun p => { p with vc := 5, payload := leBytes 2 4 ++ leBytes 30 0 }
def sC : State := { live with gws := [(3, { GwSt.idle with creditUsed := [(vcKey (.base 5) 0, 1024)]
                                                           waiting := [⟨pk 1 5 3 0 64 id, .base 5, 1000⟩] })] }
theorem wit_SignalsTagsCredits_credits : arrived sC 0x38 3 (ar pC) ∧ arrived live 0x38 3 (ar pC) ∧ (live.gw 3).waiting = [] ∧
    (sC.gw 3).waiting.filter (fun w => decide (w.hop = .base 5)) = [⟨pk 1 5 3 0 64 id, .base 5, 1000⟩] ∧
    SMap.get 0 (sC.gw 3).creditUsed (vcKey (.base 5) 0) - pC.payNum 0 2 + (pk 1 5 3 0 64 id).units ≤ vcCredits (.base 5) 0 ∧
    (hopNum (.base 5), 0) ∉ (sC.gw 3).stallSaid ∧ ((sC.hopHead 3 (.base 5) 0 false).any fun w => decide (w.since + 1000 < sC.vt) &&
      decide (vcCredits (.base 5) 0 < SMap.get 0 (sC.gw 3).creditUsed (vcKey (.base 5) 0) + w.pkt.units)) = true := by
  unfold arrived; decide +kernel
theorem wit_SignalsTagsCredits_timer :
    let s := { live with gws := [(3, { GwSt.idle with freedAt := [(hopNum (.base 5), 100800)], freed := [(vcKey (.base 5) 6, 1)] })] }
    (s.gw 3).freedAt.find? (fun kv => decide (kv.1 = hopNum (.base 5))) = some (hopNum (.base 5), 100800) ∧
      100800 + 200 ≤ s.vt ∧ s.deaf 3 = false := by decide +kernel
/-- A stream of S3 toward S5 with one packet of 104 bytes in flight, advanced at 100,500. -/
def streamS (resends : Nat) : State := { live with gws := [(3, { GwSt.idle with
  streams := [(streamKey (.base 5) 0, { Stream.idle with pos := 104, flight := [⟨104, 100000, 100000, pk 1 5 3 0 64 last⟩], advanced := 100500,
                                                          resends := resends, expect := 192, discard := true })]
  tags := [(tagKey 0 77, ⟨3, 5, 0, 1, 0, 13, 32, 100, .dma, [], 0⟩)] })] }
/-- A control codeword that acknowledges up to granule 3, or 4, with NAK, and resends from granule 6. -/
def wordS (ack : Nat) : BitVec 2570 := BitVec.ofNat 2570 (PairWord.bits ⟨9, some 6, true, ack⟩)
theorem wit_HopRetry :
    (streamS 0).deaf 3 = false ∧ (streamS 0).fencedAt 3 5 = false ∧
    (∀ ack ∈ [3, 4], pairWordOf (wordS ack).toNat = some ⟨9, some 6, true, ack⟩ ∧
      decide (ackFlight ack ((streamS 0).stream 3 (streamKey (.base 5) 0)).flight ≠ []) = decide (ack = 3)) ∧
    (∀ x ∈ ((streamS 0).gw 3).waiting, x.hop ≠ .base 5) ∧
    (((streamS 0).stream 3 (streamKey (.base 5) 0)).expect + streamSpan - 32 * 6) % streamSpan < streamSpan / 2 ∧
    ((streamS 7).stream 3 (streamKey (.base 5) 0)).flight ≠ [] ∧
    max ((streamS 7).stream 3 (streamKey (.base 5) 0)).advanced ((streamS 7).stream 3 (streamKey (.base 5) 0)).tried + 500 ≤ (streamS 7).vt ∧
    ((streamS 7).stream 3 (streamKey (.base 5) 0)).resends < 8 ∧ 8 ≤ ((streamS 8).stream 3 (streamKey (.base 5) 0)).resends ∧
    (∀ f ∈ ((streamS 8).stream 3 (streamKey (.base 5) 0)).flight, isResponse f.pkt.op.toNat = false ∧ tagged f.pkt = true ∧
      f.pkt.srcPkg.toNat = live.pkg ∧ f.pkt.srcSite = 3 ∧
      (∃ kv ∈ ((streamS 8).gw 3).tags, kv.1 = tagKey f.pkt.issuer f.pkt.tag.toNat ∧ kv.2.gen = f.pkt.gen.toNat)) ∧
    (let s := { live with gws := [(20, { GwSt.idle with replicas := [⟨pk 3 20 3 7 64 last, .link 3, 2, 0, 0, 101000 - 2 * periodNs live.rs⟩] })] }
     ((s.gw 20).replicas.find? (fun r => decide (r.since + 2 * periodNs s.rs ≤ s.vt))).isSome = true ∧ (s.gw 20).replHeld = []) ∧
    (let s := { sBehind with vt := 101000 + 2 * periodNs sBehind.rs }
     ((s.gw 20).replicas.find? (fun r => decide (r.since + 2 * periodNs s.rs ≤ s.vt))).isSome = true ∧ (s.gw 20).replHeld ≠ [] ∧
       (s.gw 20).replicas.length = 512) := by
  decide +kernel

/-! ### Witnesses: external links -/

/-- LINKMAP LINK of a link to package 5, link 127, and a route over bundle 3. -/
def linkRecs (x flags : Nat) : List Rec := [rootRec, recOf segLinkmap 5 16 [(8, 4, 2 ^ 30 + 3 + 32 * 4 + 2 ^ 16)],
  recOf segLinkmap 2 32 [(8, 1, x), (9, 1, flags), (10, 2, 5), (12, 1, 127), (14, 2, 0xFFFF), (16, 1, flags)]]
/-- Link `x` in a state, slot of bundle 3. -/
def linkS (x st : Nat) : State :=
  ({ live with cfg.eff := linkRecs x 1, links := [(x, { LinkSt.idle with outAt := some 5, servedFrom := 5, tries := 3 })] }.setF
      (linkStat x) Fld.LNK_STATUS_STATE st).setF (Reg.LNK_BUNDLE 20 3) Fld.LNK_BUNDLE_VALID 1
    |>.setF (Reg.LNK_BUNDLE 20 3) Fld.LNK_BUNDLE_SLOTS_M1 1 |>.setF (Reg.LNK_BUNDLE 20 3) Fld.LNK_BUNDLE_SLOT (x + 2 ^ 7 * 5)
    |>.setF (Reg.LNK_BUNDLE 20 3) Fld.LNK_BUNDLE_REVERTIVE 1
def shake (x pkg : Nat) : Handshake := ⟨BitVec.ofNat 16 pkg, 127, false, systemDigest (linkRecs x 1), 0xFFFF, 1000, 0⟩
theorem wit_LinksTrain : ∀ x ∈ [0, 63, 67],
    (linkS x 1).linkState x = 1 ∧ (linkS x 1).miswired x (shake x 6) ≠ 0 ∧ 3 ≤ ((linkS x 1).linkAt x).tries ∧
    (live.linkAt x).tries < 3 ∧ (linkS x 2).linkState x = 2 ∧ (linkS x 2).deaf (linkSite x) = false ∧
    ({ linkS x 2 with vc := { live.vc with waits := true } } : State).vc.waits = true ∧
    (holds.holding (engineSite 3) = true ∧ live.holding (engineSite 3) = false) := by decide +kernel
/-- A handshake that fits: the digest is the image's own. -/
theorem wit_LinksTrain_fits : (linkS 63 1).miswired 63 (shake 63 5) = 0 := by decide +kernel
/-- A codeword of link 63 that carries time, with nothing outstanding; links out of service and failed. -/
theorem wit_LinksTrain_word :
    (let w : LinkWord := ⟨true, 0xFB50, 0, 2 ^ 63, 5, none, true, 3⟩
     linkWordOf (BitVec.ofNat 5140 w.bits).toNat = some w ∧ (linkS 63 2).linkState 63 ≠ 0 ∧ (linkS 63 2).vc.waits = false ∧
       ∀ x ∈ ((linkS 63 2).gw (linkSite 63)).waiting, x.hop ≠ linkHop 63) ∧
    ({ linkS 63 2 with vc := { live.vc with loaded := some (64, live.vt) } } : State).vc.loaded = some (64, live.vt) ∧
    ∀ st ∈ [3, 4], (linkS 63 st).linkState 63 = st := by decide +kernel
/-- An engine in no reset with a link in service that LNK_RESET names, and one in reset. -/
theorem wit_LinksRedirect_reset : live.trusted .mc = true ∧ live.engineInReset (engineSite 0) = false ∧
    (2 ^ 9 : BitVec 10).getLsbD 9 = true ∧
    (live.setF (linkStat (linkNum 0 9)) Fld.LNK_STATUS_STATE 2).linkState (linkNum 0 9) ≠ 0 ∧
    (live.setF (Reg.GW_RESET 20) Fld.GW_RESET_STATE 2).engineInReset (engineSite 0) = true := by decide +kernel
theorem wit_LinksRedirect : ∀ x ∈ [0, 63],
    (linkS x 2).linkState x = 2 ∧ (linkS x 2).slotsOf x ≠ [] ∧ (linkS x 2).redirected x = false ∧ (linkS x 2).log.length ≤ 7000 ∧
    (linkS x 3).linkState x = 3 ∧ ((linkS x 3).linkAt x).outAt = some 5 ∧ ((linkS x 3).linkAt x).parked = false ∧
    5 + 200000 ≤ ({ linkS x 3 with vt := 200005 } : State).vt ∧ (linkS x 3).vt < 5 + 200000 ∧
    (let s := { (linkS x 2).setF (linkStat x) Fld.LNK_STATUS_REDIRECT 1 with vt := 100000005 }
     s.revertive x = true ∧ s.redirected x = true ∧ s.linkState x = 2 ∧ (s.linkAt x).servedFrom + 100000000 ≤ s.vt) := by
  decide +kernel
/-- What redirects a link of itself: its peer's OUT, 1 µs and the way there and back without ACK, eight resends. -/
theorem wit_LinksRedirect_causes :
    (let s := linkS 63 2
     ({ s with links := [(63, { LinkSt.idle with peerOut := true })] }.linkAt 63).peerOut = true) ∧
    ∀ x ∈ [(0, 0), (656350, 8)],
      let s := { linkS 63 2 with vt := 656350, gws := [(linkSite 63, { GwSt.idle with streams := [(2 * hopNum (linkHop 63) + 1,
        { Stream.idle with flight := [⟨104, 100000, 100000, pk 1 5 3 0 64 last⟩], advanced := x.1, resends := x.2 })] })] }
      let st := s.stream (linkSite 63) (2 * hopNum (linkHop 63) + 1)
      st.flight ≠ [] ∧ (st.advanced + 1000 + 10 * linkFibre s.rs 63 ≤ s.vt ∨ 8 ≤ st.resends) := by decide +kernel
/-- λ17 is free; then it serves and one, or four, wavelengths are lost. -/
theorem wit_LinksRedirect_waves :
    (let s := linkS 63 2
     s.linkState 63 ≠ 0 ∧ s.grnHas 10 (linkSite 63) (32 * 63 + 15) = false ∧ s.spareWave 63 = false ∧ s.spareGone 63 = false) ∧
    (let s := { linkS 63 2 with grn := (List.range 5).map fun i => (grnKey 10 (linkSite 63) (32 * 63 + i), if i = 0 then 3 else 1) }
     s.grnHas 10 (linkSite 63) (32 * 63 + 15) = false ∧ s.spareWave 63 = true ∧ s.wavesLost 63 = 4) ∧
    live.trusted .mc = true ∧ ({ live with hostTake := [(3, 1)] } : State).trusted (.host 3) = false := by decide +kernel
/-- A wavelength that is dark for 200 µs, one below -12.0 dBm for 1 ms, one whose ring is retired; λ17 that serves. -/
theorem wit_LinksRedirect_lost :
    (let s := { linkS 63 2 with vt := 200005, links := [(63, { LinkSt.idle with dark := [(15, 5)] })] }
     (∃ d ∈ (s.linkAt 63).dark, d.1 = 15 ∧ d.2 + 200000 ≤ s.vt) ∧ (s.linkAt 63).dark.all (fun d => decide (d.1 ≠ 16)) = true) ∧
    (let s := { linkS 63 2 with vt := 1000005, links := [(63, { LinkSt.idle with low := [(17, 5)] })], grn := [(grnKey 10 (linkSite 63) (32 * 63), 3)] }
     (∃ e ∈ (s.linkAt 63).low, e.1 = 16 + 1 ∧ e.2 + 1000000 ≤ s.vt) ∧
       (List.range 16).find? (fun v => decide (s.grnGet 10 (linkSite 63) (32 * 63 + v) 0 = 3)) = some 0) ∧
    (let s := { linkS 63 2 with grn := [(grnKey 8 (linkSite 63) (waveRing 63 1 1), 2)] }
     s.grnGet 8 (linkSite 63) (waveRing 63 1 (0 + 1)) 0 / 2 = 1 ∧ s.wavesLost 63 < 4) := by decide +kernel

/-! ### Witnesses: host cores, rings, the host port -/

/-- Host core 19 (core 3 of S2) runs for context 1, which may reach S2, S5 and S13. -/
def sH : State :=
  ({ live with cfg.eff := [rootRec, turns1, recOf segContexts 1 40 [(8, 1, 1), (24, 8, 2 ^ 19)], winRec 1 2 0 0x100000 0,
                           winRec 1 2 (clusterBase 3) 0x1000 0, winRec 1 5 0 0x10000 0, winRec 1 13 0 0x1000000 0]
               bells := (List.range 32).map fun i => (i, { running with resident := 1 })
               grn := [(grnKey 2 2 3, 0)] }).setF (Reg.HOST_CORE_STATUS 19) Fld.HOST_CORE_STATUS_STATE 1
    |>.setF (Reg.MEM_CACHE_CFG 2) Fld.MEM_CACHE_CFG_SCRATCH 16 |>.setF (Reg.TITHE_BUDGET 2 2) Fld.TITHE_BUDGET_BUDGET 112
/-- A physical address of this package. -/
def pa (site off : Nat) : BitVec 56 := BitVec.ofNat 56 (site * 2 ^ 43 + off)
theorem wit_HostAccesses : sH.hostRuns 19 = true ∧ sH.hostTarget 19 (BitVec.ofNat 56 (5 * 2 ^ 52)) = .none ∧
    sH.hostTarget 19 (pa 2 0xFFFC0) = .mem (2 * 2 ^ 43 + 0xFFFC0) ∧ sH.hostOwn 19 (2 * 2 ^ 43 + 0xFFFC0) = true ∧ sH.hostCtx 19 ≠ 0 ∧
    sH.hostOwnFails 19 (2 * 2 ^ 43 + 0xFFFC0) 64 false true = none ∧ (pa 2 0xFFFC0).toNat % 64 = 0 ∧
    sH.hostTarget 19 (pa 2 (clusterBase 3 + 0xFF8)) = .mem (2 * 2 ^ 43 + clusterBase 3 + 0xFF8) ∧
    sH.hostOwnFails 19 (2 * 2 ^ 43 + clusterBase 3 + 0xFF8) 8 true false = none ∧
    sH.hostCached 19 (2 * 2 ^ 43 + clusterBase 3 + 0xFF8) = false ∧
    sH.hostOwnFails 19 (2 * 2 ^ 43 + clusterBase 3 + 0xFF8) 8 true true = none ∧
    opPermitted 0x18 2 (clusterBase 3 + 0xFF8) 8 = true := by decide +kernel
theorem wit_HostAccesses_clean : clean [(0xFFFBF, .uncorrectable), (0x100000, .corrected)] 0xFFFC0 8 := by
  unfold clean; decide
theorem wit_HostAccesses_far : sH.hostTarget 19 (pa 5 0x1018) = .mem (5 * 2 ^ 43 + 0x1018) ∧
    sH.hostOwn 19 (5 * 2 ^ 43 + 0x1018) = false ∧ sH.hostCached 19 (5 * 2 ^ 43 + 0x1018) = false ∧
    gPkg (5 * 2 ^ 43 + 0x1018) = sH.pkg ∧ sH.localFail 2 (hostIssuer 19) sH.pkg 5 = none ∧
    hasTag sH 2 (hostIssuer 19) ∧ admitsNow sH 2 2 112 ∧ admitsNow sH 2 2 72 ∧
    gOff (5 * 2 ^ 43 + 0x1018) % 32 + 8 ≤ 32 := by unfold admitsNow; decide +kernel
/-- Lines in the caches of die 2: two of its scratch, one of S13. -/
def sHL : State :=
  { sH with hostLines := [(hostKey 2 (2 * 2 ^ 43 + 0xFFF80), ⟨List.replicate 64 9, false⟩),
                          (hostKey 2 (2 * 2 ^ 43 + 0xFFFC0), ⟨List.replicate 64 7, true⟩),
                          (hostKey 2 (13 * 2 ^ 43 + 0xFFFFC0), ⟨List.replicate 64 5, true⟩)]
            hostResv := [(18, 2 * 2 ^ 43 + 0xFFFC0, 8), (19, 2 * 2 ^ 43 + 0xFFFC0, 4)] }
theorem wit_HostAccesses_lines : let g := 2 * 2 ^ 43 + 0xFFFBC
    sHL.hostRuns 19 = true ∧ sHL.hostCtx 19 ≠ 0 ∧ sHL.hostTarget 19 (pa 2 0xFFFBC) = .mem g ∧ sHL.hostCached 19 g = true ∧
    sHL.linesHeld 2 g 8 = true ∧ sHL.lineBytes 2 g 8 = [9, 9, 9, 9, 7, 7, 7, 7] ∧
    (sHL.storeLines 19 g [1, 2, 3, 4, 5, 6, 7, 8]).lineBytes 2 g 8 = [1, 2, 3, 4, 5, 6, 7, 8] ∧
    (sHL.storeLines 19 g [1, 2, 3, 4, 5, 6, 7, 8]).hostResv = [(19, 2 * 2 ^ 43 + 0xFFFC0, 4)] := by decide +kernel
theorem wit_HostAccesses_amo : let g := 2 * 2 ^ 43 + 0xFFFC0
    sHL.hostTarget 19 (pa 2 0xFFFC0) = .mem g ∧ g % 16 = 0 ∧ sHL.linesHeld 2 g 16 = true ∧
    amoStores (.fn .max true 0xFFFFFFFF) (leNat (sHL.lineBytes 2 g 4)) = some 0x07070707 ∧
    SMap.get (0, 0) sHL.hostResv 19 ≠ (g, 8) ∧ sHL.hostOwn 19 g = true ∧ sHL.hostOwnFails 19 g 64 false true = none := by
  decide +kernel
theorem wit_HostAccesses_fetch : let g := 2 * 2 ^ 43 + 0xFFF40
    sHL.hostTarget 19 (pa 2 0xFFF78) = .mem (g + 0x38) ∧ sHL.hostOwn 19 (g + 0x38) = true ∧ sHL.linesHeld 2 (g + 0x38) 8 = false ∧
    (g + 0x38) % 64 + 8 ≤ 64 ∧ sHL.hostLine 2 g = none ∧ sHL.hostOwnFails 19 g 64 true false = none := by decide +kernel
theorem wit_HostAccesses_back : let g := 13 * 2 ^ 43 + 0xFFFFFF
    sHL.hostLine 2 (g - g % 64) = some ⟨List.replicate 64 5, true⟩ ∧ gSite (g - g % 64) = gSite g ∧ sHL.hostCached 19 g = true ∧
    gPkg (g - g % 64) = gPkg g ∧ sHL.hostOwn 19 (g - g % 64) = false ∧ admitsNow sHL 2 2 104 := by
  unfold admitsNow; decide +kernel
theorem wit_HostAccesses_lost : sH.nextRole 2 2 3 = 0 ∧ sH.log.length ≤ 8000 := by decide +kernel
/-- A line of a bridge's memory, the class's budget just enough for it. -/
theorem wit_HostAccesses_line : let s := sH.setF (Reg.TITHE_BUDGET 2 2) Fld.TITHE_BUDGET_BUDGET 144
    let g := 13 * 2 ^ 43 + 0xFFFFFF
    s.hostRuns 19 = true ∧ s.hostTarget 19 (pa 13 0xFFFFFF) = .mem g ∧ s.hostOwn 19 g = false ∧ s.hostCached 19 g = true ∧ gPkg g = s.pkg ∧
    s.hostCtx 19 ≠ 0 ∧ s.localFail 2 (hostIssuer 19) s.pkg (gSite g) = none ∧ hasTag s 2 (hostIssuer 19) ∧ g % 64 + 1 ≤ 64 ∧
    s.cachedFor 2 (s.hostCtx 19) (gSite g) (gOff (g - g % 64)) = false ∧ admitsNow s 2 2 (64 + 80) ∧
    fillWindowOf 0xFFFC0 64 = none := by unfold admitsNow; decide +kernel
/-- RINGS RING: number, context, kinds of the two sides, their words, base, shadow and further fields; 16 slots. -/
def ringR (n ctx pk ck pw cw base shadow : Nat) (more : List (Nat × Nat × Nat)) : Rec :=
  recOf segRings 1 72 ([(8, 2, n), (10, 1, ctx), (11, 1, 4), (12, 1, pk), (13, 1, ck), (16, 8, 13 * 2 ^ 43 + base),
    (24, 8, 13 * 2 ^ 43 + shadow), (32, 8, pw), (40, 8, cw)] ++ more)
/-- The port is up and its tithes are free. -/
def portS (rs : List Rec) (rings : List (Nat × RingSt)) : State :=
  ((List.range 8).foldl (fun (s : State) c => s.setF (Reg.TITHE_BUDGET 22 c) Fld.TITHE_BUDGET_BUDGET 100000)
    { live with cfg.eff := rootRec :: rs, rings := rings }).setF Reg.HOST_PORT_STATUS Fld.HOST_PORT_STATUS_STATE 2
def at_ (pi ci : Nat) : RingSt := { RingSt.idle with pi := pi, ci := ci }
/-- `mayGet` and `mayPut`, to be evaluated. -/
def gets (s : State) (who ctx g n : Nat) : Bool := decide (gPkg g = s.pkg) && (s.engineFails who ctx g n false).isNone
def puts (s : State) (who ctx g n : Nat) : Bool :=
  decide (gPkg g = s.pkg) && (s.engineFails who ctx g n true).isNone && (fillAt (gSite g) (gOff g) n).isNone
theorem gets_mayGet {s : State} {who ctx g n : Nat} (h : gets s who ctx g n = true) : mayGet s who ctx g n := by
  simpa [gets, mayGet] using h
theorem puts_mayPut {s : State} {who ctx g n : Nat} (h : puts s who ctx g n = true) : mayPut s who ctx g n := by
  simpa [puts, mayPut, and_assoc] using h
/-- Ring 7: produced by host core 3, consumed by host core 4. -/
def doorS (pi ci : Nat) : State := portS [ringR 7 0 1 1 (2 ^ 3) (2 ^ 4) 4096 8192 [(48, 1, 2), (14, 2, 9), (50, 2, 3)]] [(7, at_ pi ci)]
theorem wit_Doorbells : ringRec (doorS 5 5).rs 8 = none ∧
    ((ringRec (doorS 5 5).rs 7).any fun r => decide (r.u16 8 = 7) && mayRing (.host 3) r true && !mayRing (.host 4) r true &&
      decide (ringIndex r ((doorS 5 5).ring 7) true 20 = some 20) &&
      decide (ringIndex r ((doorS 5 5).ring 7) true 5 = some 5) && decide (ringIndex r ((doorS 5 5).ring 7) true 21 = none) &&
      mayRing (.host 4) r false && decide (ringIndex r ((doorS (2 ^ 32 + 3) (2 ^ 32 - 1)).ring 7) false 3 = some (2 ^ 32 + 3)) &&
      puts (doorS 5 5) portIssuer 0 (r.u64 24) 16 && decide (gOff (r.u64 24) + 16 ≤ 2 ^ 43)) = true := by decide +kernel
/-- A 64-byte ring entry. -/
def entry (op fl cring len addr va rkey imm : Nat) : List Byte := leBytes 1 op ++ leBytes 1 fl ++ leBytes 2 cring ++ leBytes 4 len ++
  leBytes 8 addr ++ leBytes 8 va ++ leBytes 4 rkey ++ leBytes 4 imm ++ List.replicate 32 7
/-- Ring 9 of context 1 to queue pair 0x112233, or raw, with an entry at its front. -/
def entryS (raw : Bool) (e : List Byte) : State :=
  (portS [ringR 9 1 1 (if raw then 1 else 0) (2 ^ 3) (if raw then 2 ^ 3 else 0x112233) 4096 8192 (if raw then [(56, 8, 13 * 2 ^ 43 + 0x20000)] else []),
    winRec 1 13 0x10000 0x10000 3] [(9, at_ (2 ^ 32 + 3) (2 ^ 32 - 1))]).writeMem 13 (4096 + 64 * 15) e
/-- What `soloEntry` and the statement ask of an entry, with whether it is bad. -/
def entryFits (s : State) (op : Nat) (bad : Bool) : Bool :=
  match s.nextEntry 9 with
  | some (r, o, bs) => decide (o.op = op) && decide (r.u16 8 = 9) && (s.ring 9).ops.isEmpty && !o.compl &&
      gets s portIssuer (ringCtx r) (ringEntry r o.idx) 64 && puts s portIssuer (ringCtx r) (r.u64 24) 16 && (s.entryBad r o bs == bad) &&
      !(s.confAt (ringCtx r)).on && (bad || decide (o.op ∉ [0x11, 0x18, 0x29]) || gets s portIssuer (ringCtx r) o.addr o.len)
  | none => false
theorem wit_RingEntries :
    entryFits (entryS false (entry 0 0 0 0 0 0 0 0)) 0 false = true ∧ entryFits (entryS false (entry 0x10 0 0 32 0 0 0 0)) 0x10 false = true ∧
    entryFits (entryS false (entry 0x10 0 0 33 0 0 0 0)) 0x10 true = true ∧
    entryFits (entryS false (entry 0x11 0 0 64 (13 * 2 ^ 43 + 0x10000) 0 0 0)) 0x11 false = true ∧
    entryFits (entryS false (entry 0x18 0 0 4096 (13 * 2 ^ 43 + 0x11000) 0x1234 5 6)) 0x18 false = true ∧
    entryFits (entryS false (entry 0x1A 0 0 4096 (13 * 2 ^ 43 + 0x11000) 0x1234 5 6)) 0x1A false = true ∧
    entryFits (entryS true (entry 0x29 0 0 100 (13 * 2 ^ 43 + 0x10001) 0 0 0)) 0x29 false = true ∧
    entryFits (entryS true (entry 0x40 0 0 0 5 (2 ^ 32 * 77) 0x1234 (2 ^ 31 + 1))) 0x40 false = true ∧
    ((ringRec (entryS false []).rs 9).any fun r => decide (ringQpn r = some 0x112233)) = true := by decide +kernel
/-- RAW_RX on a raw ring, and an entry of a queue pair in error. -/
theorem wit_RingEntries_others : entryFits (entryS true (entry 0x28 0 0 0 (13 * 2 ^ 43 + 0x10000) 0 0 0)) 0x28 false = true ∧
    (let s := { entryS false (entry 0x11 0 0 64 (13 * 2 ^ 43 + 0x10000) 0 0 0) with qpErr := [0x112233] }
     entryFits s 0x11 false = true ∧ 0x112233 ∈ s.qpErr) := by decide +kernel
/-- Ring 9's oldest entry is done and asks for a record in ring 10, which holds `n`. -/
def recordS (n : Nat) : State := portS [ringR 9 1 1 0 8 5 4096 8192 [], ringR 10 1 0 1 5 8 0x9000 0xA000 []]
  [(9, { at_ 7 4 with ops := [{ ringOpOf 4 (entry 0x11 1 10 64 0 0 0 0) with fin := some (0, 0, 64, 0) }] }), (10, at_ (n + 3) 3)]
def recordFits (n : Nat) : Bool :=
  ((ringRec (recordS n).rs 9).any fun r => decide (r.u16 8 = 9)) &&
  (((recordS n).ring 9).ops.all fun o => o.compl && decide (o.cring = 10) && o.fin.isSome) &&
  ((ringRec (recordS n).rs 10).any fun c => decide (c.u16 8 = 10) && decide (ringCtx c = 1) &&
    (decide (((recordS n).ring 10).fill < ringDepth c - 1) == decide (n = 14)))
theorem wit_RingEntries_record : recordFits 14 = true ∧ recordFits 15 = true ∧ ((recordS 14).ring 9).ops.length = 1 := by
  decide +kernel

/-- Context 1 is confidential; its control ring 9 names this entry. -/
def controlS (e : List Byte) (c : ConfSt) : State :=
  (portS [recOf segContexts 1 64 [(8, 1, 1), (9, 1, 1)], ringR 9 1 0 1 0x55 8 4096 8192 [], ringR 10 1 0 1 0x56 8 0xB000 0xC000 [],
    winRec 1 13 0x10000 0x10000 3] [(9, { at_ 9 4 with ops := [ringOpOf 4 e] })]).writeMem 13 (4096 + 64 * 4) e
    |> fun s => { s with conf := [(1, c)] }
/-- KEYX of a step, and BOUNCE. -/
def keyx (step : Nat) : List Byte := (entry 0x48 1 10 0 (13 * 2 ^ 43 + 0x10000) 0 0 0).take 32 ++ leBytes 32 step
theorem wit_KeyAgreement :
    (let s := controlS (keyx 1) ConfSt.idle
     ((s.takeControl 9 0x48 1).any fun x => s.controlRing x.2.1 && decide (ringCtx x.2.1 = 1) &&
       s.hostSees 1 x.2.2.addr (kemLen + reportLen) && puts s portIssuer 1 x.2.2.addr (kemLen + reportLen)) = true ∧ s.lms.exhausted = false ∧ s.lms.ready = true) ∧
    (let s := controlS (keyx 2) { ConfSt.idle with seed := some 7 }
     ((s.takeControl 9 0x48 2).any fun x => s.controlRing x.2.1 && decide (keyRef s.rs 1 = leBytes 32 0) &&
       s.opRange 1 x.2.2.addr kemLen true false && gets s portIssuer 1 x.2.2.addr kemLen) = true ∧ (s.confAt 1).seed = some 7) ∧
    (let s := controlS (keyx 3) ConfSt.idle
     ((s.takeControl 9 0x48 0).any fun x => s.controlRing x.2.1) = true ∧ s.takeControl 9 0x48 1 = none ∧
       s.takeControl 9 0x48 2 = none) ∧
    (let s := controlS (entry 0x49 0 10 0 0 0 0 0) { ConfSt.idle with keyed := true }
     ((s.takeControl 9 0x49 0).any fun x => s.controlRing x.2.1) = true) := by decide +kernel
/-- Entries with a reserved flag, a key pair outside the windows, an exhausted tree, and the sixty-fifth window. -/
theorem wit_KeyAgreement_refused :
    (∀ step ∈ [1, 2], let s := controlS ((entry 0x48 4 10 0 (13 * 2 ^ 43 + 0x10000) 0 0 0).take 32 ++ leBytes 32 step) { ConfSt.idle with seed := some 7 }
      ((s.takeControl 9 0x48 step).any fun x => s.controlBad x.2.1 x.2.2) = true) ∧
    (let s := controlS ((entry 0x48 1 10 0 (13 * 2 ^ 43 + 0x20000) 0 0 0).take 32 ++ leBytes 32 1) ConfSt.idle
     ((s.takeControl 9 0x48 1).any fun x => !(s.hostSees 1 x.2.2.addr (kemLen + reportLen))) = true) ∧
    (let s := { controlS (keyx 1) ConfSt.idle with lms := { live.lms with top := 1024, lower := 32768, spare := false } }
     s.lms.exhausted = true ∧ ((s.takeControl 9 0x48 1).any fun x => !(s.controlBad x.2.1 x.2.2)) = true) ∧
    (∀ n ∈ [63, 64], let s := controlS (entry 0x49 0 10 0 0 0 0 0) { ConfSt.idle with keyed := true, bounce := List.replicate n (0, 0, 0) }
      ((s.takeControl 9 0x49 0).any fun x => !(s.controlBad x.2.1 x.2.2)) = true ∧ (s.confAt 1).keyed = true ∧
        decide ((s.confAt 1).bounce.length < 64) = decide (n = 63)) ∧
    ((controlS (entry 0x49 0 10 0 0 0 0 0) ConfSt.idle).confAt 1).keyed = false := by decide +kernel

/-- A frame of the largest size, reliable. -/
def frameR : FrameIn := ⟨9216, false, true, 80, 0, 0, [], none⟩
/-- Ring 9 takes what queue pair 0x55 receives, ring 11 sends on it, ring 10 is raw. -/
def inboundS (x y : RingSt) (ops : List RingOp) : State :=
  portS [ringR 9 1 0 1 0x55 8 4096 8192 [], ringR 11 1 1 0 8 0x55 0x3000 0x3800 [],
    ringR 10 1 1 1 8 8 0xB000 0xC000 [(56, 8, 13 * 2 ^ 43 + 0x80000)], winRec 1 13 0x10000 0x10000 3]
    [(9, x), (10, y), (11, { at_ 5 4 with ops := ops })]
theorem takesNow_none {s : State} {f : FrameIn} (h : s.portUp = true ∧ s.asleep = false ∧ (s.secTake f.sec).2 = true ∧
    admitsNow s portSite 0 f.size.val ∧ f.ecn = false) : takesNow s f none := ⟨h.1, h.2.1, h.2.2.1, h.2.2.2.1, h.2.2.2.2, fun _ e => nomatch e⟩
theorem takesNow_some {s : State} {f : FrameIn} {q : Nat}
    (h : s.portUp = true ∧ s.asleep = false ∧ (s.secTake f.sec).2 = true ∧ admitsNow s portSite 0 f.size.val ∧ f.ecn = false ∧ q ∉ s.qpErr) :
    takesNow s f (some q) := ⟨h.1, h.2.1, h.2.2.1, h.2.2.2.1, h.2.2.2.2.1, fun _ e => Option.some.inj e ▸ h.2.2.2.2.2⟩
theorem wit_InboundFrames_takes : takesNow (inboundS (at_ 5 3) (at_ 5 3) []) frameR none ∧
    takesNow (inboundS (at_ 5 3) (at_ 5 3) []) frameR (some 0x55) := by
  refine ⟨takesNow_none ?_, takesNow_some ?_⟩ <;> unfold admitsNow <;> decide +kernel
/-- A raw ring with room for one and full; the same for a SEND of one entry. -/
theorem wit_InboundFrames_rings : ∀ n ∈ [14, 15],
    let s := inboundS (at_ n 0) (at_ n 0) []
    ((s.ringRecs.find? ringRaw).any fun r => decide (r.u16 8 = 10) && (decide (ringDepth r - 1 ≤ (s.ring 10).fill) == decide (n = 15))) = true ∧
    ((s.qpRing 0x55 true).any fun r => decide (r.u16 8 = 9) && (decide (ringDepth r - 1 < (s.ring 9).fill + 1) == decide (n = 15))) = true ∧
    (s.confAt (s.qpCtx 0x55)).keyed = false ∧ (entry 0 0 0 0 0 0 0 0).length % 64 = 0 := by decide +kernel
theorem wit_InboundFrames_rdma : let s := inboundS (at_ 5 3) (at_ 5 3) []
    s.rkeyOpens 0x55 (13 * 2 ^ 43 + 0x1FFF0) 3 16 true = true ∧ s.qpCtx 0x55 = 1 ∧ gAddr s.pkg 13 0x1FFF0 = 13 * 2 ^ 43 + 0x1FFF0 ∧
    puts s portIssuer 1 (13 * 2 ^ 43 + 0x1FFF0) 16 = true ∧ gets s portIssuer 1 (13 * 2 ^ 43 + 0x1FFF0) 16 = true ∧ s.rkeyOpens 0x55 (13 * 2 ^ 43 + 0x1FFF1) 3 16 true = false ∧
    (s.confAt (s.qpCtx 0x55)).on = false ∧ s.rkeyOpens 0x55 (13 * 2 ^ 43 + 0x1FFF0) 3 16 false = true ∧ s.qpRate = [] ∧
    (s.readCheck 13 0x1FFF0 16 [(0x1FFF0, .uncorrectable)] true (issuerArgs s.pkg portSite portIssuer)).2 ≠ none := by
  decide +kernel
/-- A site is not live. -/
def dead (i : Nat) (s : State) : State :=
  s.setF Reg.CFG_SITE_MAP Fld.CFG_SITE_MAP_LIVE (setBit (s.getF Reg.CFG_SITE_MAP Fld.CFG_SITE_MAP_LIVE) i false)
/-- A window on a bridge that is not live. -/
theorem wit_InboundFrames_refused : let s := dead 13 (inboundS (at_ 5 3) (at_ 5 3) [])
    s.rkeyOpens 0x55 (13 * 2 ^ 43 + 0x1FFF0) 3 16 true = true ∧ s.engineFails portIssuer 1 (13 * 2 ^ 43 + 0x1FFF0) 16 true ≠ none := by
  decide +kernel
theorem wit_InboundFrames_response :
    let o := ringOpOf 4 (entry 0x18 0 10 64 0 0 0 0)
    let s := inboundS (at_ 5 3) (at_ 5 3) [o]
    ((s.oldestOp 0x55).any fun x => decide (x.1.u16 8 = 11) && decide (x.2 = o)) = true ∧ (s.ring 11).ops = [o] ∧
      o.compl = false ∧ o.op ≠ 0x1A := by decide +kernel
/-- A READ's last bytes come back; a CNP comes again within 55 µs. -/
theorem wit_InboundFrames_read :
    (let o := ringOpOf 4 (entry 0x1A 0 10 64 (13 * 2 ^ 43 + 0x10000) 0 0 0)
     let s := inboundS (at_ 5 3) (at_ 5 3) [o]
     ((s.oldestOp 0x55).any fun x => decide (x.1.u16 8 = 11) && decide (x.2 = o)) = true ∧ o.op = 0x1A ∧ 32 + 32 ≤ o.len ∧
       puts s portIssuer 1 (o.addr + 32) 32 = true ∧
       gOff (o.addr + 32) + 32 ≤ 2 ^ 43 ∧ (s.ring 11).ops = [o] ∧ o.compl = false) ∧
    (let s := { inboundS (at_ 5 3) (at_ 5 3) [] with qpRate := [(0x55, 1500, 46001)] }
     s.qpRate.find? (fun kv => decide (kv.1 = 0x55)) = some (0x55, 1500, 46001) ∧ s.vt < 46001 + 55000) := by decide +kernel

/-- Ring 9 belongs to bells: it produces for host ring copies, to S2. -/
def bellRingS (x : RingSt) (port : SiteBell) : State :=
  (portS [ringR 9 1 0 2 8 0x55 4096 8192 [(52, 2, 3), (54, 2, 0x123), (56, 8, 2 * 2 ^ 43 + 0x100), (64, 1, 2)], winRec 1 13 0x10000 0x10000 3]
    [(9, x)]).setBell 22 port
theorem wit_BellRingsAndPort_copy :
    let s := bellRingS { at_ 9 3 with bells := [⟨5, false, false, 1, true⟩, ⟨6, false, false, 0, false⟩] } { running with guard := true }
    (s.ring 9).bells.find? (fun b => !b.prod && decide (b.copy = 0)) = some ⟨6, false, false, 0, false⟩ ∧ s.ringWorks 6 = true ∧
      ((ringRec s.rs 9).any fun r => decide (r.u16 8 = 9) && decide ((1 + 1) * ringE r ≤ (s.ring 9).fill) &&
        gets s ringIssuer (ringCtx r) (ringEntry r (3 + 3)) (64 * 3) && gets s ringIssuer (ringCtx r) (r.u64 16) 0) = true := by decide +kernel
theorem wit_BellRingsAndPort_slots :
    let s := bellRingS { at_ 6 3 with bells := [⟨5, false, false, 2, false⟩, ⟨6, true, false, 0, false⟩] } running
    (s.ring 9).bells.find? (fun b => b.prod && !b.held) = some ⟨6, true, false, 0, false⟩ ∧
      ((ringRec s.rs 9).any fun r => roomFor r (s.ring 9) 6) = true ∧
      (s.ring 9).bells.find? (fun b => decide (b.bell = (s.bellAt portSite).bell) && !b.told && (if b.prod then b.held else decide (b.copy = 2))) =
        some ⟨5, false, false, 2, false⟩ ∧ (s.bellAt portSite).executing = true ∧ s.localFail portSite ringIssuer s.pkg 2 = none ∧
      hasTag s portSite ringIssuer ∧ s.pkg < 2 ^ 16 := by decide +kernel
theorem wit_BellRingsAndPort_port : (portS [] []).getF Reg.HOST_PORT_STATUS Fld.HOST_PORT_STATUS_STATE ≠ 0 ∧
    (portS [] []).getF Reg.HOST_PORT_CTRL Fld.HOST_PORT_CTRL_FORCE_400 ≠ bit true ∧
    ((portS [] []).setF Reg.HOST_PORT_CTRL Fld.HOST_PORT_CTRL_FORCE_400 1).getF Reg.HOST_PORT_CTRL Fld.HOST_PORT_CTRL_FORCE_400 ≠ bit false ∧
    ({ portS [] [] with portNext := some 3 } : State).portNext = some 3 ∧ (portS [] []).pending = [] ∧ (portS [] []).power.on = true ∧
    (let s := { (portS [] []).setF Reg.HOST_PORT_STATUS Fld.HOST_PORT_STATUS_PAUSED 0x88 with heldOut := [⟨.pfc 0 true, none, 7⟩] }
     s.heldOut.all (fun e => s.prioPaused e.prio && decide (e.prio = 7)) = true ∧ s.heldOut ≠ []) := by decide +kernel

/-! ### Witnesses: configuration, starts, resets, fences -/

/-- A full image of slot 3 with variant 2, and a partial one of slot 5. -/
def imageF : Image := ⟨false, 3, 0, [], [(0, 1), (2, 1)], []⟩
def imageP : Image := ⟨true, 5, 1, [], [], []⟩
def checkS (part : Bool) (slot : Nat) (found : Option Image) (fault : Option (Nat × Nat × Nat × Nat)) : State :=
  { live with cfg := { live.cfg with check := some (part, slot), found := found, fault := fault } }
theorem wit_ConfigImages :
    (checkS true 5 none none).cfg.check ≠ none ∧ live.cfg.check = none ∧ live.power.on = true ∧
    live.getF Reg.SEC_STATUS Fld.SEC_STATUS_FAIL = 0 ∧ live.slotPlace false 0 = none ∧
    ((checkS false 3 none (some (0x0102, 0, 0, 0))).cfg.check = some (false, 3) ∧
      (checkS false 3 none (some (0x0102, 0, 0, 0))).cfg.fault = some (0x0102, 0, 0, 0)) ∧
    ((checkS false 3 (some imageF) none).cfg.found = some imageF ∧ imageF.part = false ∧
      (checkS true 5 (some imageP) none).cfg.found = some imageP ∧ imageP.part = true ∧
      ((checkS true 5 (some imageP) none).bellAt 20).life ≠ .notStarted ∧ treePort (checkS true 5 (some imageP) none).rs = 20) ∧
    (let s : State := { live with cfg := { live.cfg with pendFull := some imageF } }
     s.cfg.check ≠ some (false, 3) ∧ s.cfg.pendFull = some imageF ∧ imageF.slot = 3 ∧ isRoot s.rs = true ∧ s.changePending = true ∧
       s.node.settleAt = none ∧ (s.bellAt 20).executing = true) ∧
    (let s : State := { live with cfg := { live.cfg with full := some imageF } }
     s.cfg.full = some imageF ∧ (s.bellAt (treePort s.rs)).life ≠ .notStarted ∧ 2 ∈ variantsOf imageF.segs ∧ 15 ∉ variantsOf imageF.segs) ∧
    ({ live with cfg := { live.cfg with install := true } } : State).cfg.install = true := by decide +kernel
theorem wit_ConfigImages_partial : (let s : State := { live with cfg := { live.cfg with pendPart := [imageP], check := some (false, 3) } }
     s.cfg.check ≠ some (true, 5) ∧ s.cfg.pendPart.find? (fun i => decide (i.slot = 5)) = some imageP ∧ ∀ i ∈ s.cfg.pendPart, i.slot ≠ 4) ∧
    live.cfg.full = none := by decide +kernel
/-- A start in which every part starts. -/
def runS : StartRun := { joins := false, mapBad := false, holdup := true, badFirmware := [], fields := [], lanes := [], hbmBad := [], repaired := [], guests := [], port := true, ok800 := true }
theorem wit_ColdStarts : State.reset.power.on = false ∧ live.power.on = true ∧ bootsWhole State.reset runS ∧
    State.reset.siteRetired 27 = false ∧ runS.holdup = true ∧ bootsWhole State.reset { runS with holdup := false } ∧
    (bootBank [(0, false), (0, true)] (State.reset.firmware.getD 0 ⟨none, none, false, false, 0⟩) 0).1 ≠ 0 ∧ runS.repaired = [] := by
  unfold bootsWhole; decide +kernel
/-- RESET_N is low. -/
def lowS : State := { State.reset with power := { PowerSt.off with inReset := true } }
theorem wit_ColdStarts_reset : lowS.power.on = false ∧ lowS.power.inReset = true ∧ bootsWhole lowS runS ∧
    State.reset.power.inReset = false := by
  unfold bootsWhole; decide +kernel
/-- Site `i` is being reset over `domain` since 100,000, and its own part of the reset is done. -/
def inReset (i domain : Nat) : State :=
  (({ live with resets := [(i, [100000])] }).setF (Reg.GW_RESET i) Fld.GW_RESET_STATE 2).setF (Reg.GW_RESET i) Fld.GW_RESET_DOMAIN domain
/-- Earlier resets of every site, all within 1 s. -/
def resetS (n st : Nat) : State := { live with resets := (List.range 32).map fun i => (i, List.replicate n 50000) }
  |>.setF (Reg.GW_RESET 2) Fld.GW_RESET_STATE st
theorem wit_Resets : live.trusted .mc = true ∧
    (∀ x ∈ [(2, 1), (2, 2), (2, 3), (13, 1), (22, 2)], live.populated x.1 = true ∧ live.siteRetired x.1 = false ∧
      live.resetRank x.1 < domainRank x.2) ∧
    domainRank 1 ≤ (inReset 2 1).resetRank 2 ∧
    lateResets (resetS 1 0) 2 < 2 ∧ 2 ≤ lateResets (resetS 2 0) 2 ∧ siteKind 13 = .bridge ∧
    (live.fieldState 2 ≠ 1 ∧ live.fieldState 2 ≠ 2) ∧
    (let s := { live with vt := 50000005, fieldAt := [(2, 5)] }.setF (Reg.FAB_FIELD_RESET 2) Fld.FAB_FIELD_RESET_STATE 1
     s.fieldState 2 = 1 ∧ SMap.get 0 s.fieldAt 2 + 50000000 ≤ s.vt) ∧
    (resetS 0 5).siteRetired 2 = false ∧ (resetS 0 5).fieldState (homeField 2) = 0 ∧ (resetS 0 5).tripped = [] ∧
    (resetS 0 5).resetState 2 = 5 ∧ (resetS 0 6).resetState 2 = 6 := by decide +kernel
theorem wit_Resets_may : (∀ x ∈ [(2, 1), (2, 2), (2, 3), (13, 1), (22, 2)], mayReset live .mc x.1 x.2) ∧ live.guestShut 2 = false ∧
    live.guestShut 28 = true ∧ domainRank 1 ≤ (inReset 2 1).resetRank 2 ∧ (inReset 2 1).guestShut 2 = false ∧
    domainRank 2 ≤ (inReset 2 2).resetRank 2 ∧ domainRank 3 ≤ (inReset 2 3).resetRank 2 := by unfold mayReset; decide +kernel
/-- S2 has a live transaction to S5. -/
def fenceS : State := { live with gws := [(2, { GwSt.idle with tags := [(tagKey 9 0, ⟨1, 5, 0, 1, 0, 5, 64, 100, .desc 9 0, [], 0⟩)] })] }
theorem wit_FencesAndReadmission : fenceS.working 2 = true ∧ fenceS.working 5 = true ∧ fenceS.deaf 2 = false ∧ fenceS.fencedAt 2 5 = false ∧
    (∃ kv ∈ (fenceS.gw 2).tags, kv.2.kids = [] ∧ kv.2.dstPkg = fenceS.pkg ∧ kv.2.dstSite = 5) ∧ 5 ∈ [5, 38] ∧ (fenceS.bellAt 2).life.abandons = false ∧
    (after (.heartbeatLoss 2 5) live).fencedAny 5 = true ∧ (fenceS.gw 2).silent = false ∧ 1 ∉ (fenceS.gw 2).stops := by
  decide +kernel
theorem wit_FencesAndReadmission_returns : ∀ x ∈ [(2, 3), (13, 1)],
    let s := inReset x.1 x.2
    s.returning x.1 = true ∧ s.vt < s.backSince x.1 + 1000000 ∧ s.backSince x.1 + 1000000 ≤ 2000000 ∧
      s.backSince x.1 + readmitBound x.1 (s.resetDomain x.1) < 3000000000 ∧
      s.fieldState (homeField x.1) ≠ 3 := by decide +kernel
theorem wit_FencesAndReadmission_guest :
    (((inReset 28 1).setF Reg.CFG_SITE_MAP Fld.CFG_SITE_MAP_LIVE 0x1FFFFFFF).setF Reg.CFG_SITE_MAP Fld.CFG_SITE_MAP_POPULATED 0x1FFFFFFF
      ).returning 28 = true := by decide +kernel

/-! ### Witnesses: clocks, power, safelight, granary -/

/-- CLOCKPLAN: region 53 has entries of 1,200 and 2,500 MHz; BELLPLAN: a guard interval of 240 ns. -/
def regionS (x : RegionSt) : State :=
  { holds with cfg.eff := [rootRec, recOf segBell 1 32 [(13, 1, 24)], recOf segClock 1 80 [(8, 2, 53), (10, 1, 2), (16, 1, 24), (18, 2, 700), (20, 1, 50), (22, 2, 800)]], regions := [(53, x)] }
theorem wit_Clocks :
    (regionS RegionSt.idle).regionHere 53 = true ∧ ((regionS RegionSt.idle).region 53).target = none ∧
    (let s := regionS { RegionSt.idle with target := some 1, readyAt := 101000 }
     (s.region 53).target = some 1 ∧ (s.region 53).stopped = false ∧ (s.region 53).powerDown = 0 ∧ (s.region 53).heatDown = 0 ∧
       s.mayStop 53 (s.region 53).readyAt 200 = true ∧ regionFreq s.rs 53 1 < 64) ∧
    (let s := (regionS RegionSt.idle).setF (Reg.CLK_REGION_STATUS 53) Fld.CLK_REGION_STATUS_FREQ 50
     s.paused 53 = false ∧ s.freqOf 53 ≠ 0 ∧ (s.region 53).lockout = 0 ∧ s.called 53 = false) ∧
    (160 ≤ ((regionS { RegionSt.idle with phase := 165 }).region 53).phase ∧
      (regionS { RegionSt.idle with since := 101001 }).paused 53 = true) ∧
    (∀ st ∈ [1, 3], let s := { live with vt := 2000000 }.setF Reg.CLK_VC_STATUS Fld.CLK_VC_STATUS_STATE st
     s.vcState ≠ 0 ∧ s.vc.waits = false ∧ s.vc.servoAt + 10000 ≤ s.vt ∧ -servoLimit ≤ s.rateServo ∧ s.rateServo ≤ servoLimit ∧
       s.vcLocked = true ∧ s.vc.linkAt + 1000000 ≤ s.vt ∧ s.vc.tempAt + 1000000 ≤ s.vt) ∧
    live.vc.refLost = none ∧
    (let s : State := { live with vt := 1000005, vc := { live.vc with refLost := some 5 } }
     s.vc.refLost = some 5 ∧ 5 + 1000000 ≤ s.vt) := by decide +kernel
/-- With a guard interval of 250 ns a stop of 200 ns is made 10 ns into it, and not later. -/
theorem wit_Clocks_guard : ∀ t ∈ [19760, 19761],
    let s : State := { live with
      cfg.eff := [rootRec, recOf segBell 1 32 [(10, 2, 80), (13, 1, 25)]], vt := t
      bells := (List.range 32).map fun i => (i, { running with t0 := 0, bell := 0, guard := true }) }
    s.mayStop 53 0 200 = decide (t = 19760) := by decide +kernel
/-- A rail that must rise for entry 1, and one that need not. -/
theorem wit_Clocks_rail : ∀ mv ∈ [0, 900], let s := { regionS RegionSt.idle with vcmp := [(2, mv)] }
    (s.region 53).target = none ∧
      decide (SMap.get 0 s.vcmp 2 < (s.beginChange 53 1).railNeed 2) = decide (mv = 0) := by decide +kernel
theorem wit_Clocks_entries : 1 < regionEntries (regionS RegionSt.idle).rs 53 := by decide +kernel
/-- A host core of context 0 may set a target; a throttle has let go of a region. -/
theorem wit_Clocks_free : live.hostCtx 19 = 0 ∧ sH.hostCtx 19 ≠ 0 ∧
    (let s := regionS { RegionSt.idle with entry := 1 }
     (s.region 53).stopped = false ∧ (s.region 53).target = none ∧ s.entryOf 53 ≠ (s.region 53).demand ∧ s.mayStop 53 0 200 = true ∧
       (s.region 53).demand < 16) := by decide +kernel
/-- A site and a field that tripped and have been cool since 5. -/
def coolS (loc : Nat) : State := { live with vt := 1000000005, tripped := [⟨loc, true, some 5⟩] }
theorem wit_PowerAndHeat : live.power.on = true ∧ live.power.sampleAt + 100000 ≤ live.vt ∧
    2 * 87 + 1 < sensorCount 2 ∧ SMap.get 0 live.pairAt (heatPair 2 87) = 0 ∧ live.sensorOut 2 (2 * 87) = false ∧
    (live.setF (Reg.FAB_COMB 3) (combFld 0) 0).combState 3 0 = 0 ∧
    ((coolS 13).tripped.find? (fun t => decide (t.loc = 13)) = some ⟨13, true, some 5⟩ ∧ 5 + 1000000000 ≤ (coolS 13).vt ∧
      (coolS 13).siteRetired 13 = false) ∧
    ((coolS 34).tripped.find? (fun t => decide (t.loc = 34)) = some ⟨34, true, some 5⟩ ∧
      (∀ i ∈ homeSites 2, (coolS 34).siteRetired i = false) ∧
      ((coolS 34).setF (Reg.FAB_FIELD_RESET 2) Fld.FAB_FIELD_RESET_STATE 2).fieldState 2 = 2) := by decide +kernel
/-- Pairs that are due again after 1 s and a comb of a site that is in use. -/
theorem wit_PowerAndHeat_due : let s : State := { live with vt := 1000004, pairAt := [(heatPair 2 87, 5)] }
    SMap.get 0 s.pairAt (heatPair 2 87) + (if s.samplesFast 2 then 50000 else 1000000) ≤ s.vt + 1 ∧ 2 * 87 + 1 < sensorCount 2 ∧
    s.sensorOut 2 (2 * 87 + 1) = false ∧ ((live.setF (Reg.FAB_COMB 3) (combFld 0) 2).combState 3 0 = 2) := by decide +kernel
/-- Safelight is wanted and the domain holds at a period boundary; then the module sleeps; then it wakes. -/
def sleepyS : State := ({ holds with vt := 100000000, power := { live.power with want := true } }).setPwrState 1
theorem wit_Safelight : live.trusted .mc = true ∧ live.asleep = false ∧ sleepyS.power.want = true ∧ sleepyS.pwrState = 1 ∧
    sleepyS.domainHolds = true ∧ sleepyS.atPeriod = true ∧ sleepyS.quiet = true ∧ (live.setPwrState 3).pwrState = 3 ∧
    (live.setReg Reg.PWR_WAKE_CODE 7).reg Reg.PWR_WAKE_CODE = 7 ∧ (live.setReg Reg.PWR_WAKE_CODE 7).txSecured = false ∧
    (let s := { live.setPwrState 4 with vt := 40000005, power := { live.power with wakeAt := 5 } }
     s.pwrState = 4 ∧ s.power.wakeAt + 40000000 ≤ s.vt ∧ s.live 2 = true ∧ s.isTripped 2 = false ∧
       s.isTripped (32 + homeField 2) = false) := by decide +kernel
/-- GRN_TARGET names core 5 of S2, enabled; core 9 is of the granary, host core 3 retired and 7 of the granary. -/
def granaryS (s : State) : State :=
  ({ s with cfg.eff := [rootRec, recOf segGranary 1 24 [(12, 1, 1)]]
            grn := [(grnKey 1 2 5, 0), (grnKey 1 2 9, 1), (grnKey 2 2 3, 2), (grnKey 2 2 7, 1)] }.setF Reg.GRN_TARGET
    Fld.GRN_TARGET_SITE 2).setF Reg.GRN_TARGET Fld.GRN_TARGET_CORE 5
theorem wit_GranaryDraws :
    (granaryS live).domainHolds = false ∧ (granaryS live).getF Reg.GRN_TARGET Fld.GRN_TARGET_CORE < 96 ∧
    96 * 2 + 5 ∉ (granaryS live).retireQ ∧ (granaryS holds).domainHolds = true ∧ (granaryS holds).nextRole 1 2 5 = 0 ∧
    (granaryS holds).nextRole 1 2 9 = 1 ∧ (granaryS holds).coreOrder = 1 ∧
    ((granaryS live).setF Reg.GRN_TARGET Fld.GRN_TARGET_CORE 11).getF Reg.GRN_TARGET Fld.GRN_TARGET_CORE = 11 ∧
    (granaryS live).nextRole 2 2 (11 % 8) = 2 ∧ (granaryS live).nextRole 2 2 7 = 1 ∧
    (let s := { holds with wear := [(wearKey 2 (4096 * 2 + 36 * 79 + 35), 4)] }
     4 ≤ s.wearGet 2 (4096 * 2 + 36 * 79 + 35) ∧ s.holding 2 = true ∧ s.halfWidth 2 79 = false ∧ s.grnHas 11 2 (36 * 79 + 35) = false ∧
       s.log.length ≤ 8000) ∧
    live.siteRetired 13 = false ∧ live.grnHas 12 13 5 = false ∧
    (let s := { live with grn := [(grnKey 12 13 5, 1)] }
     s.siteRetired 13 = false ∧ s.grnHas 12 13 5 = true ∧ s.grnGet 12 13 5 3 = 1) ∧
    live.mapLag = 0 ∧ (∀ n ∈ [1, 2], ({ live with mapLag := n } : State).mapLag = n) := by decide +kernel
/-- Columns of both halves of a unit that runs at half width, in a guard interval. -/
theorem wit_GranaryDraws_half : ∀ col ∈ [0, 17, 18, 35],
    let s := { live.setBell 2 { running with guard := true } with wear := [(wearKey 2 (4096 * 2 + 36 * 79 + col), 4)],
                                                                  grn := [(grnKey 11 2 (65536 + 79), 1)], bondHalf := [(80 * 2 + 79, 1)] }
    4 ≤ s.wearGet 2 (4096 * 2 + 36 * 79 + col) ∧ (s.bellAt 2).guard = true ∧ 250 ≤ guardNs s.rs ∧ s.halfWidth 2 79 = true ∧
      decide (SMap.get 0 s.bondHalf (80 * 2 + 79) = col / 18) = decide (18 ≤ col) := by decide +kernel
/-- An event waits for the event ring 7, which holds `n`. -/
def eventS (n valid : Nat) : State :=
  (after (.supplyLow) { portS [ringR 7 0 1 1 0 8 4096 8192 []] [(7, at_ n 0)] with log := [] }).setF Reg.EVT_CTRL Fld.EVT_CTRL_VALID valid
    |>.setF Reg.EVT_CTRL Fld.EVT_CTRL_RING 7
theorem wit_GranaryDraws_events :
    ((eventS 5 0).log[max (eventS 5 0).logRing (eventS 5 0).logBase - (eventS 5 0).logBase]?).isSome = true ∧
    (eventS 5 0).eventRing = none ∧
    (∀ n ∈ [14, 15], ((eventS n 1).eventRing.any fun q => decide (q.u16 8 = 7) &&
      (decide (ringDepth q - 1 ≤ ((eventS n 1).ring 7).fill) == decide (n = 15))) = true) := by decide +kernel

/-! ### Witnesses: security, management, check values -/

/-- A record at S13 that installs a key of 60 bytes as sequence number 0. -/
def keyS (key : Option (List Byte)) : State :=
  { live.writeMem 13 4096 (leBytes 1 1 ++ leBytes 15 0 ++ leBytes 4 60 ++ leBytes 4 8 ++ leBytes 40 0 ++ List.replicate 68 7) with opkey := key, cfg.eff := [rootRec, winRec 0 13 0 0x100000 0] }
theorem wit_KeysAndReports : isOperator (.host 3) = false ∧ isOperator .port = true ∧
    (∀ k ∈ [none, some [5]], (keyS k).keyRecord (BitVec.ofNat 48 (13 * 2 ^ 43 + 4096)) = some (some (List.replicate 60 7), List.replicate 8 7) ∧
      (keyS k).opkey = k) ∧
    live.keyRecord 0 = none ∧ sH.hostRuns 19 = true ∧ sH.attest = none ∧
    localOff (BitVec.ofNat 48 (13 * 2 ^ 43 + 4097)) % 64 ≠ 0 ∧ localOff (BitVec.ofNat 48 (13 * 2 ^ 43 + 4096)) % 64 = 0 ∧
    sH.ctxReads (sH.hostCtx 19) 13 4096 reportLen = true ∧ sH.ctxWrites (sH.hostCtx 19) 13 4096 reportLen = true ∧
    sH.lms.exhausted = false ∧ sH.lms.ready = true ∧
    ({ live with attest := some ⟨13 * 2 ^ 43 + 4096, []⟩ } : State).attest = some ⟨13 * 2 ^ 43 + 4096, []⟩ ∧
    (let l : LmsSt := { live.lms with spare := false, lower := 16384 }
     l.spare = false ∧ 16384 ≤ l.lower ∧ l.top < 1024) := by decide +kernel
/-- A site that is live and not fenced, and one that is not live, while a report is being signed. -/
theorem wit_KeysAndReports_sites : sH.live 13 = true ∧ live.live 13 = true ∧ live.fencedAt mcPort 13 = false ∧ siteKind 13 = .bridge ∧
    fillAt 13 4096 (0 + sigLen) = none ∧ 4096 + (0 + sigLen) ≤ 2 ^ 43 ∧ siteKind 2 ≠ .bridge ∧ fillAt 2 4096 sigLen = none ∧
    (dead 13 sH).live 13 = false ∧ (dead 13 sH).hostRuns 19 = true ∧ (dead 13 sH).attest = none ∧
    (dead 13 sH).ctxReads ((dead 13 sH).hostCtx 19) 13 4096 reportLen = true ∧
    (dead 13 sH).ctxWrites ((dead 13 sH).hostCtx 19) 13 4096 reportLen = true ∧
    (dead 13 live).live 13 = false ∧ (dead 13 live).lms.exhausted = false ∧ (dead 13 live).lms.ready = true := by decide +kernel
/-- A record that removes the key, and a report asked for when the tree is spent. -/
theorem wit_KeysAndReports_ends : (let s := { live.writeMem 13 4096 (leBytes 1 2 ++ leBytes 19 0 ++ leBytes 4 8 ++ leBytes 40 0 ++ List.replicate 8 7) with
        opkey := some [5], cfg.eff := [rootRec, winRec 0 13 0 0x100000 0] }
     s.keyRecord (BitVec.ofNat 48 (13 * 2 ^ 43 + 4096)) = some (none, List.replicate 8 7)) ∧
    ({ live with lms := { live.lms with top := 1024, lower := 32768, spare := false } } : State).lms.exhausted = true := by decide +kernel
/-- A command over the bus is heard where the MC is up. -/
theorem hears_bus {s : State} (h : s.mcUp = true) : hears s .bus := ⟨h, fun _ e => nomatch e⟩
/-- A command at the host port is heard where its frame is taken at once. -/
theorem hears_port {s : State} {f : FrameIn} (h : s.mcUp = true) (ht : takesNow s f none) (hi : s.inbox = []) : hears s (.port f) :=
  ⟨h, fun _ e => by cases e; exact ⟨ht, hi⟩⟩
theorem wit_OhmuneCommands : hears live .bus ∧ hears (portS [] []) (.port frameR) ∧
    ({ live with opkey := some [5] } : State).proved .sideband = false ∧ live.opkey = none ∧ live.lms.exhausted = false ∧
    live.lms.ready = true := by
  refine ⟨hears_bus (by decide +kernel), hears_port (by decide +kernel) (takesNow_none ?_) (by decide +kernel), by decide +kernel,
    by decide +kernel, by decide +kernel, by decide +kernel⟩
  unfold admitsNow; decide +kernel
/-- The sideband has a session with a nonce, and one proved until 101,000. -/
def sessionS : State := { live with opkey := some [5], mgmt := [(Requester.sideband.num, { MgmtSt.idle with nonce := some 7, proved := some ([5], 101000) })] }
theorem wit_OhmuneCommands_session : sessionS.opkey = some [5] ∧ (sessionS.session .sideband).nonce = some 7 ∧
    (sessionS.session .sideband).proved = some ([5], 101000) ∧ 101000 ≤ sessionS.vt ∧
    ({ sessionS with vt := 100999 } : State).proved .sideband = true ∧ (live.setPwrState 3).pwrState = 3 := by decide +kernel
theorem wit_OhmuneCommands_registers :
    ((live.hit Reg.DBG_TRACE).any fun h => !h.row.wide && live.mayWrite .sideband h && !actsOnWrite h.row.name) = true ∧
    live.archReg Reg.DBG_TRACE = none ∧
    ((eventS 5 0).log[max (eventS 5 0).logRead (eventS 5 0).logBase - (eventS 5 0).logBase]?).isSome = true ∧
    live.coreThere (.core 2 9) = false ∧ (coreRuns [] CoreSt.idle).coreThere (.core 2 9) = true ∧
    (coreRuns [] CoreSt.idle).coreHalted (.core 2 9) = false ∧
    (coreRuns [] { CoreSt.idle with halted := true }).coreHalted (.core 2 9) = true := by decide +kernel
theorem wit_OhmuneCommands_memory : mcPort < 32 ∧ live.live mcPort = true ∧
    gPkg (mcPort * 2 ^ 43 + 64) = live.pkg ∧ gSite (mcPort * 2 ^ 43 + 64) = mcPort ∧ gOff (mcPort * 2 ^ 43 + 64) % 32 + 32 ≤ 32 ∧
    live.ctxsOf mcPort 64 32 = [] ∧ live.xfers = [] ∧ live.rangeFits mcPort 0 (64 / 32 * 32) 32 true true false = true ∧
    live.rangeFits mcPort 0 (64 / 32 * 32) 32 true false true = true := by decide +kernel
theorem wit_OhmuneCommands_reaches : mcReaches live (mcPort * 2 ^ 43 + 64) 32 true false ∧ mcReaches live (mcPort * 2 ^ 43 + 95) 1 false true := by
  unfold mcReaches; decide +kernel
/-- With rails up, and down; firmware of a version too low and of the counter's own. -/
theorem wit_BusAndBoundaryScan : live.railsUp = true ∧ State.reset.railsUp = false ∧ live.mcUp = true ∧ live.power.on = true ∧
    (∀ n ∈ [0, 1, 2, 3, 4], (live.firmware[n]?).isSome = true) ∧
    (live.firmware[0]?.any fun c => decide (c.counter ≤ 0xFFFFFFFF)) = true ∧
    (({ live with firmware := [⟨none, none, false, false, 5⟩] } : State).firmware[0]?.any fun c => decide (4 < c.counter)) = true := by
  decide +kernel
theorem wit_BusAndBoundaryScan_static : (0x33 : BitVec 7).toNat = 0x30 + (3 : BitVec 2).toNat ∧ (0x33 : BitVec 7).toNat ≠ 0x30 + (2 : BitVec 2).toNat := by
  decide
/-- Unit 5, at S13, runs a job of 64 bytes in a mode. -/
def ckvS (mode : Nat) : State :=
  ({ up with ckv := [(5, (0, (crcSel 0).init))], cfg.eff := [rootRec, winRec 0 13 0 0x100000 0] }.setF (Reg.CKV_STATUS 5) Fld.CKV_STATUS_STATE 1).setF (Reg.CKV_CTRL 5) Fld.CKV_CTRL_MODE mode
    |>.setReg (Reg.CKV_ADDR 5) (BitVec.ofNat 64 (13 * 2 ^ 43 + 4096)) |>.setReg (Reg.CKV_LEN 5) 64
    |>.setF (Reg.CKV_CTRL 5) Fld.CKV_CTRL_CHUNK 1
theorem wit_CheckValues : live.trusted .mc = true ∧ ({ live with hostTake := [(3, 1)] } : State).trusted (.host 3) = false ∧
    (ckvS 0).ckvState 5 = 1 ∧ (ckvS 0).getF (Reg.CKV_CTRL 5) Fld.CKV_CTRL_MODE ≠ 1 ∧
    gPkg ((ckvS 0).reg (Reg.CKV_ADDR 5)).toNat = live.pkg ∧ (ckvS 0).ckvAt 5 = (0, ((ckvS 0).ckvPoly 5).init) ∧
    0 < ((ckvS 0).reg (Reg.CKV_LEN 5)).toNat ∧ (ckvS 0).ckvFails 5 (13 * 2 ^ 43 + 4096) 64 true false = none ∧
    (ckvS 0).titheOn (ckvSite 5) = false ∧ ((ckvS 0).tithe (ckvSite 5)).queue = [] ∧
    (ckvS 0).getF (Reg.CKV_CTRL 5) Fld.CKV_CTRL_REPEAT ≠ 1 ∧ (ckvS 1).ckvState 5 = 1 ∧
    fillAt 13 4096 64 = none ∧ (ckvS 1).getF (Reg.CKV_CTRL 5) Fld.CKV_CTRL_MODE ≠ 0 ∧ ((ckvS 1).ckvAt 5).1 = 0 ∧
    (ckvS 1).ckvFails 5 (13 * 2 ^ 43 + 4096) (min 64 (1024 * (ckvS 1).getF (Reg.CKV_CTRL 5) Fld.CKV_CTRL_CHUNK)) true false = none := by
  decide +kernel
/-- A job that repeats, one on another package's memory, and a chunk that comes in whole. -/
theorem wit_CheckValues_more : ((ckvS 0).setF (Reg.CKV_CTRL 5) Fld.CKV_CTRL_REPEAT 1).getF (Reg.CKV_CTRL 5) Fld.CKV_CTRL_REPEAT = 1 ∧
    (let s := (ckvS 0).setReg (Reg.CKV_ADDR 5) (BitVec.ofNat 64 (5 * 2 ^ 52 + 13 * 2 ^ 43))
     gPkg (s.reg (Reg.CKV_ADDR 5)).toNat ≠ s.pkg ∧ s.ckvState 5 = 1) ∧
    (ckvS 1).ckvFails 5 (13 * 2 ^ 43 + 4096) (min 64 (1024 * (ckvS 1).getF (Reg.CKV_CTRL 5) Fld.CKV_CTRL_CHUNK)) false true = none ∧
    (let body := fitBytes 64 (List.replicate 64 7)
     let v := ((ckvS 1).ckvPoly 5).calc body
     ∃ bs : List Byte, bs = body ++ ckvBytes ((ckvS 1).getF (Reg.CKV_CTRL 5) Fld.CKV_CTRL_SEL) v ∧ bs ≠ body) := by
  refine ⟨by decide +kernel, by decide +kernel, by decide +kernel, _, rfl, by decide +kernel⟩

/-- Unit 5's region lies in a window of context 1 too; so does what a SEND of a CTX0 ring reads. -/
def ctxRec (c : Nat) : Rec := recOf segContexts 1 64 [(8, 1, c)]
theorem wit_CheckValues_ledger :
    let s := { ckvS 0 with cfg.eff := [rootRec, winRec 0 13 0 0x100000 0, ctxRec 1, winRec 1 13 0x1000 0x1000 0] }
    s.ctxsOf 13 4096 64 = [1] ∧ s.ckvFails 5 (13 * 2 ^ 43 + 4096) 64 true false = none ∧ (s.ckvAt 5).1 = 0 ∧
      s.getF (Reg.CKV_CTRL 5) Fld.CKV_CTRL_CTX = 0 ∧ s.getF (Reg.CKV_STATUS 5) Fld.CKV_STATUS_PASSES = 0 := by decide +kernel
theorem wit_RingEntries_ledger :
    let s := (portS [ringR 9 0 1 0 (2 ^ 3) 0x112233 4096 8192 [], winRec 0 13 0x10000 0x10000 3, ctxRec 1, winRec 1 13 0x10000 0x1000 0]
      [(9, at_ (2 ^ 32 + 3) (2 ^ 32 - 1))]).writeMem 13 (4096 + 64 * 15) (entry 0x11 0 0 64 (13 * 2 ^ 43 + 0x10000) 0 0 0)
    entryFits s 0x11 false = true ∧ s.ctxsOf 13 0x10000 64 = [1] ∧
      ((s.nextEntry 9).any fun x => decide (ringCtx x.1 = 0)) = true := by decide +kernel

/-! ### Witnesses: every step -/

theorem wit_MemoryStaysCanonical : State.reset.memOk ∧ (keyS none).memOk := by unfold State.memOk; decide +kernel

end Sys2Proof.Tests
end

section
/-!
CONTROL SPACE. Access codes, writes, the two latches of a requester and unmapped accesses (R6, R8, R10).
-/

namespace Sys2Proof

/-! ### Masks, requesters and what a map is found to hold -/

/-- A bit of a field's mask. -/
theorem Fld.mask_getLsbD (f : Fld) {i : Nat} (hi : i < 64) : f.mask.getLsbD i = decide (f.lo ≤ i ∧ i ≤ f.hi) := by
  unfold Fld.mask
  rw [BitVec.getLsbD_ofNat, Nat.testBit_mul_two_pow, Nat.testBit_two_pow_sub_one, Bool.eq_iff_iff]
  simp only [Bool.and_eq_true, decide_eq_true_eq]
  omega

theorem Requester.num_injective : Function.Injective Requester.num := by
  intro q r h
  cases q <;> cases r <;> simp only [num] at h ⊢ <;> grind

namespace SMap

theorem find?_put_same {α : Type} (m : SMap α) (i : Nat) (v : α) :
    (put i v m).find? (fun kv => decide (kv.1 = i)) = some (i, v) := by
  induction m with
  | nil => simp [put]
  | cons kv m ih =>
    obtain ⟨k, w⟩ := kv
    unfold put
    split
    · simp
    · split
      · simp
      · next h => rw [List.find?_cons_of_neg (by simpa using Ne.symm h), ih]

theorem find?_put_other {α : Type} (m : SMap α) {i j : Nat} (v : α) (h : j ≠ i) :
    (put i v m).find? (fun kv => decide (kv.1 = j)) = m.find? fun kv => decide (kv.1 = j) := by
  induction m with
  | nil => simp [put, h.symm]
  | cons kv m ih =>
    obtain ⟨k, w⟩ := kv
    unfold put
    split
    · rw [List.find?_cons_of_neg (by simpa using h.symm)]
    · split
      · next hk => subst hk; simp [h.symm]
      · rw [List.find?_cons, List.find?_cons, ih]

theorem find?_del_same {α : Type} (m : SMap α) (i : Nat) : (del i m).find? (fun kv => decide (kv.1 = i)) = none := by
  induction m with
  | nil => rfl
  | cons kv m ih =>
    obtain ⟨k, w⟩ := kv
    unfold del
    split
    · exact ih
    · next h => rw [List.find?_cons_of_neg (by simpa using Ne.symm h), ih]

theorem find?_del_other {α : Type} (m : SMap α) {i j : Nat} (h : j ≠ i) :
    (del i m).find? (fun kv => decide (kv.1 = j)) = m.find? fun kv => decide (kv.1 = j) := by
  induction m with
  | nil => rfl
  | cons kv m ih =>
    obtain ⟨k, w⟩ := kv
    unfold del
    split
    · next hk => subst hk; rw [ih, List.find?_cons_of_neg (by simpa using h.symm)]
    · rw [List.find?_cons, List.find?_cons, ih]

end SMap

namespace Machine

/-! ### Access codes, bit by bit (R6) -/

theorem foldl_mask_getLsbD (p : Access → Bool) (rs : List FldRow) (m : BitVec 64) (i : Nat) :
    (rs.foldl (fun m r => if p r.acc then m ||| r.fld.mask else m) m).getLsbD i =
      (m.getLsbD i || rs.any fun r => p r.acc && r.fld.mask.getLsbD i) := by
  induction rs generalizing m with
  | nil => simp
  | cons r rs ih => cases h : p r.acc <;> simp [ih, h, Bool.or_assoc]

/-- Every field of a row lies in the register, and no two fields share a bit. -/
def fieldsApart (row : RegRow) : Prop :=
  ∀ r ∈ row.flds, r.fld.hi < 64 ∧ ∀ q ∈ row.flds, q = r ∨ r.fld.hi < q.fld.lo ∨ q.fld.hi < r.fld.lo

theorem regTable_fieldsApart : ∀ row ∈ regTable, fieldsApart row := by
  unfold fieldsApart
  decide +kernel

/-- The access code of a field decides for its bits alone. -/
theorem rowBits_getLsbD {row : RegRow} (hrow : fieldsApart row) {r : FldRow} (hr : r ∈ row.flds) {i : Nat}
    (hlo : r.fld.lo ≤ i) (hhi : i ≤ r.fld.hi) (p : Access → Bool) : (rowBits row p).getLsbD i = p r.acc := by
  obtain ⟨h64, hapart⟩ := hrow r hr
  have hi : i < 64 := by omega
  unfold rowBits
  rw [foldl_mask_getLsbD, show (0 : BitVec 64).getLsbD i = false from BitVec.getLsbD_zero, Bool.false_or, Bool.eq_iff_iff,
    List.any_eq_true]
  constructor
  · rintro ⟨q, hq, h⟩
    rw [Fld.mask_getLsbD _ hi, Bool.and_eq_true, decide_eq_true_eq] at h
    obtain rfl | h' | h' := hapart q hq
    · exact h.1
    · omega
    · omega
  · intro h
    exact ⟨r, hr, by rw [Fld.mask_getLsbD _ hi, h]; simp [hlo, hhi]⟩

/-- Settles O4: the access code of the field that a bit lies in selects what a write does to the bit, and whether a
read returns it. -/
theorem accessCodes : Obligations.AccessCodes := by
  intro row hrow r hr old v mask i hlo hhi
  have hbits := rowBits_getLsbD (regTable_fieldsApart row hrow) hr hlo hhi
  have hi : i < 64 := Nat.lt_of_le_of_lt hhi (regTable_fieldsApart row hrow r hr).1
  refine ⟨?_, fun s q h hh hacc => ?_⟩
  · simp only [storeBits, BitVec.getLsbD_or, BitVec.getLsbD_and, BitVec.getLsbD_not, hbits, hi, decide_true, Bool.true_and]
    cases r.acc <;> cases mask.getLsbD i <;> simp
  · subst hh
    have hreads : Access.reads r.acc = false := by
      obtain h | h := hacc <;> rw [h] <;> rfl
    rw [State.view, BitVec.getLsbD_and, hbits, hreads, Bool.and_false]

/-! ### A register write or a latch and an answer: what else changes -/

@[simp] theorem State.emit_reg (s : State) (o : Output) (a : Nat) : (s.emit o).reg a = s.reg a := rfl

@[simp] theorem State.emit_getF (s : State) (o : Output) (a : Nat) (f : Fld) : (s.emit o).getF a f = s.getF a f := rfl

theorem State.emit_frame (s : State) (o : Output) : { s.emit o with regs := s.regs, out := s.out } = s := by
  dsimp only [State.emit]

theorem State.setReg_emit_frame (s : State) (a : Nat) (v : BitVec 64) (o : Output) :
    { (s.setReg a v).emit o with regs := s.regs, out := s.out } = s := by
  dsimp only [State.emit, State.setReg]

theorem State.wlatch_setReg_emit_frame (s : State) (l : SMap (Nat × BitVec 32)) (a : Nat) (v : BitVec 64) (o : Output) :
    { (({ s with wlatch := l } : State).setReg a v).emit o with regs := s.regs, wlatch := s.wlatch, out := s.out } = s := by
  dsimp only [State.emit, State.setReg]

theorem State.rlatch_emit_frame (s : State) (l : SMap (Nat × BitVec 32)) (o : Output) :
    { ({ s with rlatch := l } : State).emit o with rlatch := s.rlatch, out := s.out } = s := by
  dsimp only [State.emit]

theorem State.wlatch_emit_frame (s : State) (l : SMap (Nat × BitVec 32)) (o : Output) :
    { ({ s with wlatch := l } : State).emit o with wlatch := s.wlatch, out := s.out } = s := by
  dsimp only [State.emit]

/-! ### Writes (R6, R8) -/

/-- A write of a register whose write has no action of its own stores by its access codes. -/
theorem State.regPut_eq_store (s : State) (q : Requester) (h : RegHit) (v mask : BitVec 64)
    (ha : actsOnWrite h.row.name = false) : s.regPut q h v mask = s.store h v mask := by
  unfold State.regPut
  dsimp only
  split
  case h_21 => rfl
  all_goals rw [‹h.row.name = _›] at ha; cases ha

theorem State.ctrlPut_eq_store {s : State} {q : Requester} {h : RegHit} (v mask : BitVec 64) (hmay : s.mayWrite q h = true)
    (ha : actsOnWrite h.row.name = false) : s.ctrlPut q h v mask = s.store h v mask :=
  (if_pos hmay).trans (State.regPut_eq_store s q h v mask ha)

theorem State.ctrlPut_refused {s : State} {q : Requester} {h : RegHit} (v mask : BitVec 64)
    (hmay : s.mayWrite q h = false) : s.ctrlPut q h v mask = s :=
  if_neg (by simp [hmay])

@[simp] theorem State.store_reg (s : State) (h : RegHit) (v mask : BitVec 64) :
    (s.store h v mask).reg h.addr = storeBits h.row (s.reg h.addr) v mask :=
  State.reg_setReg_same ..

theorem State.setReg_regsBut (s : State) (a : Nat) (v : BitVec 64) : regsBut [a] s (s.setReg a v) :=
  fun _ hne => State.reg_setReg_other s v (by simpa using hne)

theorem truncate_zeroExtend_eq_and_lowMask (v : BitVec 64) : (v.truncate 32).zeroExtend 64 = v &&& lowMask := by
  refine BitVec.eq_of_toNat_eq ?_
  rw [BitVec.toNat_and, show lowMask.toNat = 2 ^ 32 - 1 from rfl, Nat.and_two_pow_sub_one_eq_mod]
  simp
  omega

theorem State.write32_narrow {s : State} {a : Nat} {h : RegHit} (hh : s.hit a = some h) (hw : h.row.wide = false)
    (q : Requester) (v : BitVec 32) : s.write32 q a v = s.ctrlPut q h (v.zeroExtend 64) lowMask := by
  simp [State.write32, hh, hw]

/-- A write whose width is its register's own is one write of the register. -/
theorem State.ctrlWrite_whole {s : State} {a : Nat} {h : RegHit} (hh : s.hit a = some h) (hlow : h.high = false)
    (q : Requester) (v : BitVec 64) : s.ctrlWrite q a h.row.wide v =
      s.ctrlPut q h (if h.row.wide then v else v &&& lowMask) (if h.row.wide then allMask else lowMask) := by
  unfold State.ctrlWrite
  cases hw : h.row.wide with
  | false =>
    rw [← truncate_zeroExtend_eq_and_lowMask]
    exact State.write32_narrow hh hw q _
  | true => simp [hh, hw, hlow]

/-- Settles O5: such a write is one `ctrlPut`, and its answer is put out. -/
theorem registerWrite : Obligations.RegisterWrite := by
  intro r addr wide v s h hon hh hlow hw ha
  subst hw
  refine ⟨_, if_pos hon, ?_⟩
  rw [State.ctrlWrite_whole hh hlow]
  cases hmay : s.mayWrite r h with
  | false =>
    rw [State.ctrlPut_refused _ _ hmay]
    exact ⟨rfl, rfl, fun _ _ => rfl, s.emit_frame _⟩
  | true =>
    rw [State.ctrlPut_eq_store _ _ hmay (ha hmay)]
    exact ⟨State.store_reg .., rfl, State.setReg_regsBut _ _ _, s.setReg_emit_frame ..⟩

/-! ### The latches of a requester (R8) -/

section
variable (m : SMap (Nat × BitVec 32)) (q : Requester) {r : Requester}

/-- A latch holds what was last put into it; the latches of the other requesters hold what they held. -/
@[simp] theorem latchOf_put_same (x : Nat × BitVec 32) : latchOf (SMap.put q.num x m) q = some x := by
  rw [latchOf, SMap.find?_put_same]; rfl

theorem latchOf_put_other (x : Nat × BitVec 32) (h : r ≠ q) : latchOf (SMap.put q.num x m) r = latchOf m r := by
  rw [latchOf, SMap.find?_put_other m x (Requester.num_injective.ne h)]; rfl

@[simp] theorem latchOf_del_same : latchOf (SMap.del q.num m) q = none := by
  rw [latchOf, SMap.find?_del_same]; rfl

theorem latchOf_del_other (h : r ≠ q) : latchOf (SMap.del q.num m) r = latchOf m r := by
  rw [latchOf, SMap.find?_del_other m (Requester.num_injective.ne h)]; rfl

end

/-- What is found for a requester that a latch is held for, or for none at an address. -/
theorem find?_of_latchOf_eq_some {m : SMap (Nat × BitVec 32)} {q : Requester} {x : Nat × BitVec 32}
    (hl : latchOf m q = some x) : ∃ k, m.find? (fun kv => decide (kv.1 = q.num)) = some (k, x) := by
  obtain ⟨⟨k, y⟩, hk, rfl⟩ := Option.map_eq_some_iff.mp hl
  exact ⟨k, hk⟩

theorem ne_of_find?_of_latchOf_ne {m : SMap (Nat × BitVec 32)} {q : Requester} {b k c : Nat} {w : BitVec 32}
    (hl : ∀ w, latchOf m q ≠ some (b, w)) (hf : m.find? (fun kv => decide (kv.1 = q.num)) = some (k, c, w)) : c ≠ b := by
  rintro rfl
  exact hl w (by rw [latchOf, hf]; rfl)

/-! ### One-word reads and writes (R8) -/

theorem ofNat_half_low (v : BitVec 64) : BitVec.ofNat 64 (half v false) = v &&& lowMask := by
  rw [← truncate_zeroExtend_eq_and_lowMask]
  refine BitVec.eq_of_toNat_eq ?_
  simp [half]

theorem ofNat_half_high (v : BitVec 64) : BitVec.ofNat 64 (half v true) = v >>> 32 := by
  refine BitVec.eq_of_toNat_eq ?_
  simp [half, Nat.shiftRight_eq_div_pow]
  omega

theorem ofNat32_half_high (v : BitVec 64) : BitVec.ofNat 32 (half v true) = v.extractLsb' 32 32 := by
  rw [BitVec.extractLsb', Nat.shiftRight_eq_div_pow]; rfl

section
variable {s : State} {a : Nat} {h : RegHit} (hh : s.hit a = some h)
include hh

theorem State.wideWord_eq (high : Bool) : s.wideWord a high = (h.row.wide && decide (h.high = high)) := by
  simp [State.wideWord, hh]

theorem State.read32_low (hlow : h.high = false) (q : Requester) : s.read32 q a =
    (if h.row.wide then { s with rlatch := SMap.put q.num (h.addr, (s.view q h).extractLsb' 32 32) s.rlatch } else s,
      half (s.view q h) false) := by
  cases hw : h.row.wide <;> simp [State.read32, hh, hw, hlow, ofNat32_half_high]

theorem State.read32_high_latched (hw : h.row.wide = true) (hhigh : h.high = true) {q : Requester} {w : BitVec 32}
    (hl : latchOf s.rlatch q = some (h.addr, w)) :
    s.read32 q a = ({ s with rlatch := SMap.del q.num s.rlatch }, w.toNat) := by
  obtain ⟨k, hk⟩ := find?_of_latchOf_eq_some hl
  simp [State.read32, hh, hw, hhigh, hk]

theorem State.read32_high_unlatched (hw : h.row.wide = true) (hhigh : h.high = true) {q : Requester}
    (hl : ∀ w, latchOf s.rlatch q ≠ some (h.addr, w)) : s.read32 q a = (s, half (s.view q h) true) := by
  simp only [State.read32, hh, hw, hhigh, Bool.true_eq_false, if_false, if_true]
  split
  next hk => rw [if_neg (ne_of_find?_of_latchOf_ne hl hk)]
  next => rfl

theorem State.write32_high (hw : h.row.wide = true) (hhigh : h.high = true) (q : Requester) (v : BitVec 32) :
    s.write32 q a v = { s with wlatch := SMap.put q.num (h.addr, v) s.wlatch } := by
  simp [State.write32, hh, hw, hhigh]

theorem State.write32_low_latched (hw : h.row.wide = true) (hlow : h.high = false) {q : Requester} {w : BitVec 32}
    (hl : latchOf s.wlatch q = some (h.addr, w)) (v : BitVec 32) :
    s.write32 q a v = ({ s with wlatch := SMap.del q.num s.wlatch } : State).ctrlPut q h
      (v.zeroExtend 64 ||| (w.zeroExtend 64 <<< 32)) allMask := by
  obtain ⟨k, hk⟩ := find?_of_latchOf_eq_some hl
  simp [State.write32, hh, hw, hlow, hk]

theorem State.write32_low_unlatched (hw : h.row.wide = true) (hlow : h.high = false) {q : Requester}
    (hl : ∀ w, latchOf s.wlatch q ≠ some (h.addr, w)) (v : BitVec 32) :
    s.write32 q a v = s.ctrlPut q h (v.zeroExtend 64) lowMask := by
  simp only [State.write32, hh, hw, hlow, Bool.true_eq_false, Bool.false_eq_true, if_false]
  split
  next hk => rw [if_neg (ne_of_find?_of_latchOf_ne hl hk)]
  next => rfl

end

theorem State.answerRead_eq (s : State) (q : Requester) (a : Nat) :
    s.answerRead q a = (s.read32 q a).1.emit (.readData q false (BitVec.ofNat 64 (s.read32 q a).2)) := rfl

/-! The four one-word accesses run when the word is of the kind that each names. -/

section
variable {s : State} {addr : BitVec 40} {h : RegHit} (r : Requester) (hon : s.power.on = true)
  (hh : s.hit addr.toNat = some h)
include hon hh

theorem exec_latchedLowRead (hlow : h.high = false) :
    exec (.latchedLowRead r addr) s = .next (s.answerRead r addr.toNat) :=
  congrArg _ (if_neg (by simp [hon, State.wideWord_eq hh, hlow]))

theorem exec_latchedHighRead (hw : h.row.wide = true) (hhigh : h.high = true) :
    exec (.latchedHighRead r addr) s = .next (s.answerRead r addr.toNat) :=
  congrArg _ (if_pos (by simp [hon, State.wideWord_eq hh, hw, hhigh]))

theorem exec_latchedHighWrite (v : BitVec 32) (hw : h.row.wide = true) (hhigh : h.high = true) :
    exec (.latchedHighWrite r addr v) s = .next ((s.write32 r addr.toNat v).emit (.writeDone r)) :=
  congrArg _ (if_pos (by simp [hon, State.wideWord_eq hh, hw, hhigh]))

theorem exec_latchedLowWrite (v : BitVec 32) (hw : h.row.wide = true) (hlow : h.high = false) :
    exec (.latchedLowWrite r addr v) s = .next ((s.write32 r addr.toNat v).emit (.writeDone r)) :=
  congrArg _ (if_pos (by simp [hon, State.wideWord_eq hh, hw, hlow]))

end

/-- Settles O6: each access runs, and whether the requester's latch is held for the register decides what a read of
the high word answers and what a write of the low word stores. -/
theorem latches : Obligations.Latches := by
  refine ⟨fun r addr s h hon hh => ⟨fun hlow => ?lowRead, fun hw hhigh => ?highRead⟩,
    fun r addr v s h hon hh hw => ⟨fun hhigh => ?highWrite, fun hlow hmay ha => ?lowWrite⟩⟩
  case lowRead =>
    refine ⟨_, exec_latchedLowRead r hon hh hlow, ?_⟩
    rw [State.answerRead_eq, State.read32_low hh hlow, ofNat_half_low]
    cases h.row.wide with
    | false => exact ⟨rfl, s.rlatch_emit_frame s.rlatch _, rfl, fun _ _ => rfl⟩
    | true => exact ⟨rfl, s.rlatch_emit_frame .., latchOf_put_same .., fun q hq => latchOf_put_other _ _ _ hq⟩
  case highRead =>
    refine ⟨_, exec_latchedHighRead r hon hh hw hhigh, ?_⟩
    rw [State.answerRead_eq]
    by_cases hl : ∃ w, latchOf s.rlatch r = some (h.addr, w)
    · obtain ⟨w, hl⟩ := hl
      rw [State.read32_high_latched hh hw hhigh hl, BitVec.ofNat_toNat]
      refine ⟨s.rlatch_emit_frame .., fun q hq => latchOf_del_other _ _ hq, fun w' hw' => ?_, fun hn => absurd hl (hn w)⟩
      cases hl.symm.trans hw'
      exact ⟨rfl, latchOf_del_same ..⟩
    · have hn := not_exists.mp hl
      rw [State.read32_high_unlatched hh hw hhigh hn, ofNat_half_high]
      exact ⟨s.rlatch_emit_frame s.rlatch _, fun _ _ => rfl, fun w hw' => absurd hw' (hn w), fun _ => ⟨rfl, rfl⟩⟩
  case highWrite =>
    refine ⟨_, exec_latchedHighWrite r hon hh v hw hhigh, ?_⟩
    rw [State.write32_high hh hw hhigh]
    exact ⟨latchOf_put_same .., fun q hq => latchOf_put_other _ _ _ hq, rfl, s.wlatch_emit_frame ..⟩
  case lowWrite =>
    refine ⟨_, exec_latchedLowWrite r hon hh v hw hlow, ?_⟩
    by_cases hl : ∃ w, latchOf s.wlatch r = some (h.addr, w)
    · obtain ⟨w, hl⟩ := hl
      have hmay' : ({ s with wlatch := SMap.del r.num s.wlatch } : State).mayWrite r h = true := hmay
      rw [State.write32_low_latched hh hw hlow hl, State.ctrlPut_eq_store _ _ hmay' ha]
      refine ⟨rfl, State.setReg_regsBut _ _ _, s.wlatch_setReg_emit_frame .., fun q hq => latchOf_del_other _ _ hq,
        fun w' hw' => ?_, fun hn => absurd hl (hn w)⟩
      cases hl.symm.trans hw'
      exact ⟨latchOf_del_same .., State.store_reg ..⟩
    · have hn := not_exists.mp hl
      rw [State.write32_low_unlatched hh hw hlow hn, State.ctrlPut_eq_store _ _ hmay ha]
      exact ⟨rfl, State.setReg_regsBut _ _ _, s.wlatch_setReg_emit_frame s.wlatch .., fun _ _ => rfl,
        fun w hw' => absurd hw' (hn w), fun _ => ⟨rfl, State.store_reg ..⟩⟩

/-! ### Accesses that no register decodes (R10) -/

theorem State.hit_eq_none_of_regAt {s : State} {a : Nat} (h : regAt a = none) : s.hit a = none := by
  unfold State.hit
  dsimp only
  rw [h, ite_self]

/-- The block of a guest site that is empty or fenced decodes to no register. -/
theorem State.hit_eq_none_of_guestShut {s : State} {i o : Nat} (h : s.guestShut i = true) (ho : o < 0x10000000) :
    s.hit (0x1000000000 + i * 0x10000000 + o) = none := by
  have hsite : (0x1000000000 + i * 0x10000000 + o - 0x1000000000) / 0x10000000 = i := by omega
  exact if_pos ⟨by omega, by rw [hsite]; exact h⟩

theorem exec_unmappedAccess {s : State} {addr : BitVec 40} (r : Requester) (write : Bool) (hon : s.power.on = true)
    (hh : s.hit addr.toNat = none) : exec (.unmappedAccess r addr write) s =
      .next (s.unmapped.emit (if write then .writeDone r else .readData r false 0)) :=
  congrArg _ (if_neg (by simp [hon, hh]))

/-- An access under R10 counts one, and the counter holds at its largest value. -/
theorem State.getF_unmapped (s : State) : s.unmapped.getF Reg.EVT_UNMAPPED_CNT Fld.EVT_UNMAPPED_CNT_COUNT =
    min 0xFFFFFFFF (s.getF Reg.EVT_UNMAPPED_CNT Fld.EVT_UNMAPPED_CNT_COUNT + 1) := by
  have hmax : Fld.EVT_UNMAPPED_CNT_COUNT.max = 0xFFFFFFFF := by decide
  rw [State.unmapped, State.getF_bump_same _ _ _ _ (by decide) (by decide), hmax]

theorem State.unmapped_eq_setReg (s : State) : ∃ v, s.unmapped = s.setReg Reg.EVT_UNMAPPED_CNT v := ⟨_, rfl⟩

/-- Settles O7: such an address has no hit, and an access without a hit is a count that saturates. -/
theorem unmappedAccess : Obligations.UnmappedAccess := by
  refine ⟨fun s a => State.hit_eq_none_of_regAt, fun s g o hshut ho => ?_, fun r addr write s hon hh => ?_⟩
  · refine State.hit_eq_none_of_guestShut ?_ ho
    have hg : 28 ≤ 28 + g.val ∧ 28 + g.val < 32 := by omega
    obtain h | h := hshut <;> simp [State.guestShut, h, hg]
  · refine ⟨_, exec_unmappedAccess r write hon hh, ?_⟩
    obtain ⟨v, hv⟩ := s.unmapped_eq_setReg
    rw [State.emit_getF, s.getF_unmapped, hv]
    exact ⟨rfl, rfl, s.setReg_regsBut _ _, s.setReg_emit_frame ..⟩

/-! ### The state before the supply is applied (R7, R330) -/

/-- Settles O3: at reset the lists of registers, bells, cores and memory are empty, and what a list does not hold reads
as its default. -/
theorem resetState : Obligations.ResetState := by
  refine ⟨State.reset_memOk, rfl, rfl, rfl, fun a h hh _ => ?_, fun _ => rfl, fun _ _ => rfl, rfl, rfl, fun _ _ => rfl⟩
  change resetAt a = h.reset
  rw [resetAt, hh]

end Machine

end Sys2Proof
end

section
/-! EVERY STEP: each command answers a next state and leaves the queue alone; a step takes the front off it. -/

namespace Sys2Proof.Machine

open Sys2Proof

/-- An answer that touches some parts, none of them the queue, touches only what lies outside the queue. -/
theorem Answers.exceptQueue {ps : Nat} {s : State} {o : Host.Outcome State Fault Refusal} (h : Answers ps s o)
    (hp : ps &&& (Touch.all - Touch.pending) = ps := by decide) : Answers (Touch.all - Touch.pending) s o :=
  h.mono hp

/-- Every command answers a next state, with memory in canonical form if it was, and leaves the queue as it was. -/
theorem exec_answers_exceptQueue (i : Instr) (s : State) : Answers (Touch.all - Touch.pending) s (exec i s) := by
  cases i with
  | registerWrite r addr wide v => exact (execRegisterWrite_touches r addr wide v s).exceptQueue
  | latchedLowRead r addr => exact (execLatchedLowRead_touches r addr s).exceptQueue
  | latchedHighRead r addr => exact (execLatchedHighRead_touches r addr s).exceptQueue
  | latchedHighWrite r addr v => exact (execLatchedHighWrite_touches r addr v s).exceptQueue
  | latchedLowWrite r addr v => exact (execLatchedLowWrite_touches r addr v s).exceptQueue
  | unmappedAccess r addr write => exact (execUnmappedAccess_touches r addr write s).exceptQueue
  | clrParity k c => exact (execClrParity_touches k c s).exceptQueue
  | clrMin k c => exact (execClrMin_touches k c s).exceptQueue
  | mma k c fetched => exact (execMma_touches k c fetched s).exceptQueue
  | mmaComplete k c storeFlaws arrayBad => exact (execMmaComplete_touches k c storeFlaws arrayBad s).exceptQueue
  | vec k c fetched => exact (execVec_touches k c fetched s).exceptQueue
  | vecKernelReturn k c flaws mets => exact (execVecKernelReturn_touches k c flaws mets s).exceptQueue
  | vecKernelFault k c parity flaws mets => exact (execVecKernelFault_touches k c parity flaws mets s).exceptQueue
  | instructionLimit k c flaws mets => exact (execInstructionLimit_touches k c flaws mets s).exceptQueue
  | moveDesc k c fetched flaws mets => exact (execMoveDesc_touches k c fetched flaws mets s).exceptQueue
  | reduceDesc k c fetched flaws => exact (execReduceDesc_touches k c fetched flaws s).exceptQueue
  | signalDesc k c fetched => exact (execSignalDesc_touches k c fetched s).exceptQueue
  | waitDesc k c fetched => exact (execWaitDesc_touches k c fetched s).exceptQueue
  | waitSatisfied k c => exact (execWaitSatisfied_touches k c s).exceptQueue
  | branchDesc k c fetched => exact (execBranchDesc_touches k c fetched s).exceptQueue
  | branchResolve k c flaws mets => exact (execBranchResolve_touches k c flaws mets s).exceptQueue
  | fenceDesc k c fetched => exact (execFenceDesc_touches k c fetched s).exceptQueue
  | fenceComplete k c => exact (execFenceComplete_touches k c s).exceptQueue
  | commitWrite k c fetched flaws => exact (execCommitWrite_touches k c fetched flaws s).exceptQueue
  | bellEnd k c fetched => exact (execBellEnd_touches k c fetched s).exceptQueue
  | bellEndRetire k c => exact (execBellEndRetire_touches k c s).exceptQueue
  | fillRecord k c ctx at_ bytes => exact (execFillRecord_touches k c ctx at_ bytes s).exceptQueue
  | bellBoundary site => exact (execBellBoundary_touches site s).exceptQueue
  | guardStart site => exact (execGuardStart_touches site s).exceptQueue
  | checkPoint site => exact (execCheckPoint_touches site s).exceptQueue
  | voteFrame child bell fault lost rx => exact (execVoteFrame_touches child bell fault lost rx s).exceptQueue
  | voteMissing child => exact (execVoteMissing_touches child s).exceptQueue
  | lateFrame child bell m rx => exact (execLateFrame_touches child bell m rx s).exceptQueue
  | latenessDecision => exact (execLatenessDecision_touches s).exceptQueue
  | clearFrame site bell until_ flaws rx => exact (execClearFrame_touches site bell until_ flaws rx s).exceptQueue
  | replayFrame site bell start rx => exact (execReplayFrame_touches site bell start rx s).exceptQueue
  | replayStart site => exact (execReplayStart_touches site s).exceptQueue
  | extendFrame site bell m rx => exact (execExtendFrame_touches site bell m rx s).exceptQueue
  | closeFrame site bell m forced rx => exact (execCloseFrame_touches site bell m forced rx s).exceptQueue
  | holdFrame site bell reason rx => exact (execHoldFrame_touches site bell reason rx s).exceptQueue
  | resumeFrame site bell start rx => exact (execResumeFrame_touches site bell start rx s).exceptQueue
  | resumeStart site => exact (execResumeStart_touches site s).exceptQueue
  | settleFrame site bell rx => exact (execSettleFrame_touches site bell rx s).exceptQueue
  | bellFrame site bell time rx => exact (execBellFrame_touches site bell time rx s).exceptQueue
  | announce site bell arg rx => exact (execAnnounce_touches site bell arg rx s).exceptQueue
  | commitDeadline site => exact (execCommitDeadline_touches site s).exceptQueue
  | holdUntil site => exact (execHoldUntil_touches site s).exceptQueue
  | bellCtrlHoldReq => exact (execBellCtrlHoldReq_touches s).exceptQueue
  | bellCtrlResume => exact (execBellCtrlResume_touches s).exceptQueue
  | holdPeriodBoundary site => exact (execHoldPeriodBoundary_touches site s).exceptQueue
  | titheRequest site cls cost id => exact (execTitheRequest_touches site cls cost id s).exceptQueue
  | titheAdmit site cls => exact (execTitheAdmit_touches site cls s).exceptQueue
  | cacheInvalidation k => exact (execCacheInvalidation_touches k s).exceptQueue
  | frameGroupRetire k port group bad => exact (execFrameGroupRetire_touches k port group bad s).exceptQueue
  | pageRetire b bad => exact (execPageRetire_touches b bad s).exceptQueue
  | memAckLost b => exact (execMemAckLost_touches b s).exceptQueue
  | carrierLoss tx rx plane => exact (execCarrierLoss_touches tx rx plane s).exceptQueue
  | carrierReturn tx rx plane => exact (execCarrierReturn_touches tx rx plane s).exceptQueue
  | carrierFailed tx rx plane late lane bad => exact (execCarrierFailed_touches tx rx plane late lane bad s).exceptQueue
  | stripeMarker site hop version => exact (execStripeMarker_touches site hop version s).exceptQueue
  | combFailure site comb => exact (execCombFailure_touches site comb s).exceptQueue
  | bracketComplete ch r => exact (execBracketComplete_touches ch r s).exceptQueue
  | sensorBracket loc n offset => exact (execSensorBracket_touches loc n offset s).exceptQueue
  | writePacket site a mets bad => exact (execWritePacket_touches site a mets bad s).exceptQueue
  | writeCommit site a bad => exact (execWriteCommit_touches site a bad s).exceptQueue
  | mcastWrite site a mets bad => exact (execMcastWrite_touches site a mets bad s).exceptQueue
  | readReq site a flaws => exact (execReadReq_touches site a flaws s).exceptQueue
  | readResp site a mets => exact (execReadResp_touches site a mets s).exceptQueue
  | errorResp site a => exact (execErrorResp_touches site a s).exceptQueue
  | reduceAdd site a flaws => exact (execReduceAdd_touches site a flaws s).exceptQueue
  | reduceMax site a flaws => exact (execReduceMax_touches site a flaws s).exceptQueue
  | reduceMin site a flaws => exact (execReduceMin_touches site a flaws s).exceptQueue
  | lineOutput site group count mets => exact (execLineOutput_touches site group count mets s).exceptQueue
  | atomicAdd site a flaws => exact (execAtomicAdd_touches site a flaws s).exceptQueue
  | atomicCas site a flaws => exact (execAtomicCas_touches site a flaws s).exceptQueue
  | signalPacket site a => exact (execSignalPacket_touches site a s).exceptQueue
  | credit site a => exact (execCredit_touches site a s).exceptQueue
  | creditReturnTimer site hop => exact (execCreditReturnTimer_touches site hop s).exceptQueue
  | creditStall site hop vc => exact (execCreditStall_touches site hop vc s).exceptQueue
  | controlCodeword site peer lane word codes => exact (execControlCodeword_touches site peer lane word codes s).exceptQueue
  | hopRetryTimeout site hop ctrl => exact (execHopRetryTimeout_touches site hop ctrl s).exceptQueue
  | pairReset site peer ctrl => exact (execPairReset_touches site peer ctrl s).exceptQueue
  | packetAged site hop => exact (execPacketAged_touches site hop s).exceptQueue
  | tagTimeout site issuer tag => exact (execTagTimeout_touches site issuer tag s).exceptQueue
  | quarantineEnd site issuer tag => exact (execQuarantineEnd_touches site issuer tag s).exceptQueue
  | linkTraining link peer => exact (execLinkTraining_touches link peer s).exceptQueue
  | linkControlCodeword link slot level word codes => exact (execLinkControlCodeword_touches link slot level word codes s).exceptQueue
  | linkRedirect link lost => exact (execLinkRedirect_touches link lost s).exceptQueue
  | dedupeExpiry site => exact (execDedupeExpiry_touches site s).exceptQueue
  | restoreLinks engine => exact (execRestoreLinks_touches engine s).exceptQueue
  | revertiveReturn link => exact (execRevertiveReturn_touches link s).exceptQueue
  | wavelengthFailed link wave => exact (execWavelengthFailed_touches link wave s).exceptQueue
  | linkFailed link => exact (execLinkFailed_touches link s).exceptQueue
  | lnkReset r engine mask => exact (execLnkReset_touches r engine mask s).exceptQueue
  | replicationTimeout site => exact (execReplicationTimeout_touches site s).exceptQueue
  | hostLoad h pa size parity flaws => exact (execHostLoad_touches h pa size parity flaws s).exceptQueue
  | hostStore h pa bytes what how => exact (execHostStore_touches h pa bytes what how s).exceptQueue
  | hostAmo h pa amo how flaws => exact (execHostAmo_touches h pa amo how flaws s).exceptQueue
  | hostCoreLost h => exact (execHostCoreLost_touches h s).exceptQueue
  | producerDoorbell r ring index => exact (execProducerDoorbell_touches r ring index s).exceptQueue
  | consumerDoorbell r ring index => exact (execConsumerDoorbell_touches r ring index s).exceptQueue
  | ringNop ring => exact (execRingNop_touches ring s).exceptQueue
  | sendInline ring w => exact (execSendInline_touches ring w s).exceptQueue
  | ringSend ring w flaws => exact (execRingSend_touches ring w flaws s).exceptQueue
  | rdmaWrite ring w flaws => exact (execRdmaWrite_touches ring w flaws s).exceptQueue
  | rdmaRead ring w => exact (execRdmaRead_touches ring w s).exceptQueue
  | rawTx ring w flaws => exact (execRawTx_touches ring w flaws s).exceptQueue
  | saInstall ring => exact (execSaInstall_touches ring s).exceptQueue
  | completionRoom ring => exact (execCompletionRoom_touches ring s).exceptQueue
  | keyxRequest ring => exact (execKeyxRequest_touches ring s).exceptQueue
  | keyxCiphertext ring flaws => exact (execKeyxCiphertext_touches ring flaws s).exceptQueue
  | bounce ring => exact (execBounce_touches ring s).exceptQueue
  | rawFrameRx f bytes => exact (execRawFrameRx_touches f bytes s).exceptQueue
  | inboundSend f qpn hdr pay => exact (execInboundSend_touches f qpn hdr pay s).exceptQueue
  | inboundRdmaWrite f qpn hdr va rkey pay => exact (execInboundRdmaWrite_touches f qpn hdr va rkey pay s).exceptQueue
  | inboundRdmaRead f qpn hdr va rkey len flaws => exact (execInboundRdmaRead_touches f qpn hdr va rkey len flaws s).exceptQueue
  | unsupportedRequest f qpn => exact (execUnsupportedRequest_touches f qpn s).exceptQueue
  | cnp f qpn => exact (execCnp_touches f qpn s).exceptQueue
  | pfcFrame prio pause => exact (execPfcFrame_touches prio pause s).exceptQueue
  | ringCopy ring flaws => exact (execRingCopy_touches ring flaws s).exceptQueue
  | ringReadySignal ring => exact (execRingReadySignal_touches ring s).exceptQueue
  | ringSlotReserve ring => exact (execRingSlotReserve_touches ring s).exceptQueue
  | retrain ok800 => exact (execRetrain_touches ok800 s).exceptQueue
  | force400 on ok800 => exact (execForce400_touches on ok800 s).exceptQueue
  | cfgEnable part slot => exact (execCfgEnable_touches part slot s).exceptQueue
  | enableCheckDone => exact (execEnableCheckDone_touches s).exceptQueue
  | cfgCancel part slot => exact (execCfgCancel_touches part slot s).exceptQueue
  | cfgActivate valid bell => exact (execCfgActivate_touches valid bell s).exceptQueue
  | altSelect v => exact (execAltSelect_touches v s).exceptQueue
  | installationDone => exact (execInstallationDone_touches s).exceptQueue
  | coldStart run => exact (execColdStart_touches run s).exceptQueue
  | resetN run => exact (execResetN_touches run s).exceptQueue
  | siteReset r site => exact (execSiteReset_touches r site s).exceptQueue
  | gatewayReset r site => exact (execGatewayReset_touches r site s).exceptQueue
  | computeDieReset r k => exact (execComputeDieReset_touches r k s).exceptQueue
  | gwAckLost r site => exact (execGwAckLost_touches r site s).exceptQueue
  | readmission site fail => exact (execReadmission_touches site fail s).exceptQueue
  | fieldReset r field => exact (execFieldReset_touches r field s).exceptQueue
  | heaterHoldExpiry field => exact (execHeaterHoldExpiry_touches field s).exceptQueue
  | fieldRelease r field => exact (execFieldRelease_touches r field s).exceptQueue
  | heartbeatLoss site peer => exact (execHeartbeatLoss_touches site peer s).exceptQueue
  | mcFenceOrder peer => exact (execMcFenceOrder_touches peer s).exceptQueue
  | gatewaySelfFence site => exact (execGatewaySelfFence_touches site s).exceptQueue
  | computeClockLoss k => exact (execComputeClockLoss_touches k s).exceptQueue
  | mcSilenceReset site => exact (execMcSilenceReset_touches site s).exceptQueue
  | stopChannelTimeout k stop => exact (execStopChannelTimeout_touches k stop s).exceptQueue
  | refclkLoss => exact (execRefclkLoss_touches s).exceptQueue
  | refclkTimeout => exact (execRefclkTimeout_touches s).exceptQueue
  | regionTarget r region target => exact (execRegionTarget_touches r region target s).exceptQueue
  | regionStop region ns => exact (execRegionStop_touches region ns s).exceptQueue
  | adaptiveStretch region eighths => exact (execAdaptiveStretch_touches region eighths s).exceptQueue
  | servoUpdate => exact (execServoUpdate_touches s).exceptQueue
  | clockHoldover => exact (execClockHoldover_touches s).exceptQueue
  | temperatureCorrection => exact (execTemperatureCorrection_touches s).exceptQueue
  | lockLoopUpdate site ring loop detune => exact (execLockLoopUpdate_touches site ring loop detune s).exceptQueue
  | heaterFault site ring => exact (execHeaterFault_touches site ring s).exceptQueue
  | identityRead site ring code tone temp => exact (execIdentityRead_touches site ring code tone temp s).exceptQueue
  | ffGainAdapt site ring => exact (execFfGainAdapt_touches site ring s).exceptQueue
  | biasUpdate site comb away capped hot => exact (execBiasUpdate_touches site comb away capped hot s).exceptQueue
  | supplyLow => exact (execSupplyLow_touches s).exceptQueue
  | fixing high => exact (execFixing_touches high s).exceptQueue
  | pwrFailN => exact (execPwrFailN_touches s).exceptQueue
  | holdupFault => exact (execHoldupFault_touches s).exceptQueue
  | powerSample volts amps stop => exact (execPowerSample_touches volts amps stop s).exceptQueue
  | thermalSample read stop => exact (execThermalSample_touches read stop s).exceptQueue
  | tripRelease part => exact (execTripRelease_touches part s).exceptQueue
  | safelight r => exact (execSafelight_touches r s).exceptQueue
  | safelightEntry => exact (execSafelightEntry_touches s).exceptQueue
  | wakeN => exact (execWakeN_touches s).exceptQueue
  | pwrWake r => exact (execPwrWake_touches r s).exceptQueue
  | wakeFrame code macsec => exact (execWakeFrame_touches code macsec s).exceptQueue
  | wakeComplete lost awake ok800 => exact (execWakeComplete_touches lost awake ok800 s).exceptQueue
  | retireCore r => exact (execRetireCore_touches r s).exceptQueue
  | drawHost r => exact (execDrawHost_touches r s).exceptQueue
  | bondPatternTest k u col bad => exact (execBondPatternTest_touches k u col bad s).exceptQueue
  | tripleDisagree site signal copy base => exact (execTripleDisagree_touches site signal copy base s).exceptQueue
  | mapWrite => exact (execMapWrite_touches s).exceptQueue
  | eventRingWrite => exact (execEventRingWrite_touches s).exceptQueue
  | opkeyChange r addr => exact (execOpkeyChange_touches r addr s).exceptQueue
  | secAttest h ctx addr => exact (execSecAttest_touches h ctx addr s).exceptQueue
  | attestDone => exact (execAttestDone_touches s).exceptQueue
  | getIdentity via seq chunk => exact (execGetIdentity_touches via seq chunk s).exceptQueue
  | attest via seq ctx nonce chunk => exact (execAttest_touches via seq ctx nonce chunk s).exceptQueue
  | wake via seq => exact (execWake_touches via seq s).exceptQueue
  | sessionOpen via seq => exact (execSessionOpen_touches via seq s).exceptQueue
  | sessionProve via seq sig => exact (execSessionProve_touches via seq sig s).exceptQueue
  | sessionExpiry r => exact (execSessionExpiry_touches r s).exceptQueue
  | ctrlRead via seq addr words => exact (execCtrlRead_touches via seq addr words s).exceptQueue
  | ctrlWrite via seq addr words => exact (execCtrlWrite_touches via seq addr words s).exceptQueue
  | eventRead via seq count => exact (execEventRead_touches via seq count s).exceptQueue
  | halt via seq target => exact (execHalt_touches via seq target s).exceptQueue
  | coreResume via seq target => exact (execCoreResume_touches via seq target s).exceptQueue
  | memRead via seq addr len flaws => exact (execMemRead_touches via seq addr len flaws s).exceptQueue
  | memWrite via seq addr bytes => exact (execMemWrite_touches via seq addr bytes s).exceptQueue
  | moduleReset via seq run => exact (execModuleReset_touches via seq run s).exceptQueue
  | firmwareUpdate comp stage version good => exact (execFirmwareUpdate_touches comp stage version good s).exceptQueue
  | activateFirmware run => exact (execActivateFirmware_touches run s).exceptQueue
  | pldmDiscovery ask => exact (execPldmDiscovery_touches ask s).exceptQueue
  | pldmMonitoring sensor => exact (execPldmMonitoring_touches sensor s).exceptQueue
  | mctpControl ask => exact (execMctpControl_touches ask s).exceptQueue
  | dynamicAddress sa static addr => exact (execDynamicAddress_touches sa static addr s).exceptQueue
  | bypass tdi => exact (execBypass_touches tdi s).exceptQueue
  | idcode => exact (execIdcode_touches s).exceptQueue
  | samplePreload pins load => exact (execSamplePreload_touches pins load s).exceptQueue
  | extest pins load => exact (execExtest_touches pins load s).exceptQueue
  | debugAccess seq cmd => exact (execDebugAccess_touches seq cmd s).exceptQueue
  | ckvStart r unit => exact (execCkvStart_touches r unit s).exceptQueue
  | ckvJobDone unit far flaws => exact (execCkvJobDone_touches unit far flaws s).exceptQueue
  | ckvStreamChunk unit data far flaws => exact (execCkvStreamChunk_touches unit data far flaws s).exceptQueue
  | refclkReturn => exact (execRefclkReturn_touches s).exceptQueue
  | localMoveComplete k c serial mets => exact (execLocalMoveComplete_touches k c serial mets s).exceptQueue
  | roceResponse f qpn answer => exact (execRoceResponse_touches f qpn answer s).exceptQueue
  | readmissionTimeout site => exact (execReadmissionTimeout_touches site s).exceptQueue
  | lowerTreeGenerated => exact (execLowerTreeGenerated_touches s).exceptQueue

/-- An idle step, too, leaves the queue as it was. -/
theorem State.idle_exceptQueue (s : State) : Touches (Touch.all - Touch.pending) s s.idle :=
  s.idle_touches.mono (by decide)

theorem Answers.pending_eq {s : State} {o : Host.Outcome State Fault Refusal} (h : Answers (Touch.all - Touch.pending) s o) :
    ∃ t, o = .next t ∧ t.pending = s.pending := by
  obtain ⟨t, ht, hst⟩ := h
  exact ⟨t, ht, hst.pending (by decide)⟩

/-- Settles O59: by cases on the queue; every command, and the idle step, answers and keeps the queue. -/
theorem everyStepAnswers : Obligations.EveryStepAnswers := by
  refine ⟨fun s => ?_, fun i s => (exec_answers_exceptQueue i s).pending_eq⟩
  unfold step
  split
  next h => exact ⟨s.idle, rfl, by rw [h, s.idle_exceptQueue.pending (by decide), h]; rfl⟩
  next i rest h => rw [h]; exact (exec_answers_exceptQueue i _).pending_eq

end Sys2Proof.Machine
end

section
/-! THE END OF A BELL: what the statement BellBoundary (O21) leaves open. `Image.ctx` is any number, and CFG_PARTIAL is an array
of registers over contexts: of a context far above the 255 of R328 its address is one of TITHE_USED. -/

namespace Sys2Proof.Machine

open Sys2Proof

/-- The context whose CFG_PARTIAL has the address of TITHE_USED of a class at a site. -/
def strayCtx (site cls : Nat) : Nat := 0x83C1 + 0x40 * site + 4 * cls

theorem cfgPartial_strayCtx (site cls : Nat) : Reg.CFG_PARTIAL (strayCtx site cls) = Reg.TITHE_USED site cls := by
  unfold Reg.CFG_PARTIAL strayCtx Reg.TITHE_USED
  omega

/-- A pending partial image whose context is out of range: its CFG_PARTIAL is TITHE_USED of class 0 at S8. -/
def strayImage : Image := { part := true, slot := 0, ctx := strayCtx 8 0, digest := [], segs := [], recs := [] }

/-- Bell 1,000,000 ends at bridge S8, which has used 2^31 units of class 0. All planes of the pair from S0 to S8 are out, but
its stripe has not followed yet, and a bracket of its standby control carrier is due: it begins with the next bell, the
stripe follows to no plane, S0 fences S8 (R188), and the image of the partial slot lost with S8 is withdrawn (R307). -/
def strandedBridge : State :=
  { State.reset with
    vt := 20000020000, grn := []
    bells := [(8, { SiteBell.idle with life := .running, bell := 1000000, guard := true, committed := some 999999 })]
    tithes := [(8, { TitheSt.idle with used := [(0, 2 ^ 31)] })]
    outs := [(pairKey 0 8, (List.range 34).map fun q => (q, 0))]
    cfg := { CfgSt.empty with pendPart := [strayImage] } }
  |>.setF Reg.CFG_SITE_MAP Fld.CFG_SITE_MAP_LIVE (2 ^ 0 + 2 ^ 8)
  |>.setF (Reg.TITHE_BUDGET 8 8) Fld.TITHE_BUDGET_BUDGET 1
  |>.setF (Reg.FAB_TX_STRIPE 0 8) Fld.FAB_TX_STRIPE_PLANES 1
  |>.setF Reg.CFG_STORE_MAP Fld.CFG_STORE_MAP_LOST (2 ^ slotBit true 0)

theorem strandedBridge_bellOver : strandedBridge.bellOver 8 = true := by decide +kernel

theorem strandedBridge_resetState : strandedBridge.resetState 8 ≠ 4 := by decide +kernel

/-- S8 has used 2^31 units of class 0 when the bell ends, which TITHE_USED is to show. -/
theorem strandedBridge_used : SMap.get 0 (strandedBridge.tithe 8).used 0 % 2 ^ 32 = 2 ^ 31 := by decide +kernel

/-- The boundary withdraws the image: its CFG_PARTIAL shows no image. -/
theorem strandedBridge_withdraws :
    (strandedBridge.boundary 8).getF (Reg.CFG_PARTIAL strayImage.ctx) Fld.TITHE_USED_USED = 0 := by decide +kernel

theorem exec_bellBoundary_of_over {site : Site} {s : State} (h : s.bellOver site = true) :
    exec (.bellBoundary site) s = .next (s.boundary site) :=
  congrArg _ (if_pos h)

/-- Refutes O21: at the end of a bell of S8 in `strandedBridge` the withdrawal of a pending image of context 34,241, above any
that R328 knows, clears the state bits of its CFG_PARTIAL, which lie in TITHE_USED of class 0, after the reload. -/
theorem not_bellBoundary : ¬ Obligations.BellBoundary := by
  unfold Obligations.BellBoundary
  intro h
  obtain ⟨⟨t, ht, -, hreload⟩, -⟩ := h 8 strandedBridge strandedBridge_bellOver
  obtain rfl := Host.Outcome.next.inj ((exec_bellBoundary_of_over strandedBridge_bellOver).symm.trans ht)
  obtain ⟨hused, -⟩ := hreload rfl strandedBridge_resetState
  have h0 : 0 = 2 ^ 31 := calc
    0 = (strandedBridge.boundary 8).getF (Reg.CFG_PARTIAL strayImage.ctx) Fld.TITHE_USED_USED :=
      strandedBridge_withdraws.symm
    _ = (strandedBridge.boundary 8).getF (Reg.TITHE_USED 8 0) Fld.TITHE_USED_USED := by
      rw [show strayImage.ctx = strayCtx 8 0 from rfl, cfgPartial_strayCtx]
    _ = SMap.get 0 (strandedBridge.tithe 8).used 0 % 2 ^ 32 := hused 0
    _ = 2 ^ 31 := strandedBridge_used
  exact absurd h0 (by decide)

end Sys2Proof.Machine
end
